-- ==== Sys2Proof/Word.lean ====
section
/-! DEFINITION. The word types of the model: what the manual treats as bits (R8, R9). Everything else of the block is
held as the thing it is (a count, a list, a name). -/

namespace Sys2Proof

/-- A byte of a management frame, a telegram, an image or a host transfer. -/
abbrev Byte := BitVec 8

/-- A register word: every register is 32 bits wide (R9). -/
abbrev Word := BitVec 32

/-- A descriptor or Bin word (R374, R431). -/
abbrev DWord := BitVec 64

/-- An epoch number: a 48-bit count (R8). -/
abbrev Epoch := BitVec 48

end Sys2Proof
end

