-- ==== Sys2Proof/Syntax.lean ====
section
/-! DEFINITION. The commands of the block: one constructor per row of the opcode table, with the operands a command
carries from outside (a requester and what it writes, a received frame, a sampled input, a measured reading). Operands
are typed data; WellFormed.lean says which are within the ranges the manual gives them. -/

namespace Sys2Proof

/-- The requesters of the register file: four Hatches and the management port (R437). -/
inductive Requester where
  | hatch (h : Fin 4)
  | mgmt
deriving DecidableEq, Repr

/-- A register write as it reaches the register file: the writer, the offset sent (aliases included), the value, its arrival in ns
from the start of the present epoch, and for a Hatch whether the request is one DW with First DW Byte Enable = 0xF (R438, R440,
R447). (DESIGN CHOICE, log 39.) -/
structure WriteReq where
  req : Requester
  off : Nat
  value : Word
  at_ns : Nat
  whole : Bool := true
deriving DecidableEq, Repr

/-- An order as the device holds it: the ring it came from and what its completion repeats (R384, R388). -/
structure OrderRef where
  hatch : Fin 4
  ring : Nat
  index : Nat
  tag : Nat
  irq : Bool
deriving DecidableEq, Repr

/-- A disturbance of one copy of a TV word: the word's key, the copy 0 to 2, and the bits flipped (R455). -/
structure Upset where
  key : Nat
  copy : Nat
  flip : Word
deriving DecidableEq, Repr

/-- When the work of one epoch item started and ended, in ps from the start of the epoch (R21). -/
structure SlackIn where
  t_start : Nat
  t_done : Nat
deriving DecidableEq, Repr

/-- An error found in the Cellar since the last boundary (R151, R152): the bank and row of the word, and, when it is not
correctable, the Shelf and what it spoils: the entry of a home address, or a 64-bit word of the annex.
(DESIGN CHOICE, log 4; DESIGN CHOICE, log 19.) -/
structure EccHit where
  bank : Nat
  row : Nat
  uncorr : Bool
  shelf : Epoch
  home : Nat
  annexWord : Option Nat := none
deriving DecidableEq, Repr

/-- What the outside gives the device at an epoch boundary: disturbances of TV words since the last vote, the timing of
items 0 to 13 in the epoch that ended, errors met in the Cellar, and the junction temperature in 0.25 °C (R16, R21, R151,
R408, R455). (DESIGN CHOICE, log 4.) -/
structure BoundaryIn where
  ecc : List EccHit
  upsets : List Upset
  slack : List SlackIn
  tj : Int
deriving DecidableEq, Repr

/-- One entry of a SET_POINT order: its KIND, INDEX and VALUE (R386). -/
structure SetPointEntry where
  kind : Nat
  index : Nat
  value : Word
deriving DecidableEq, Repr

/-- The words of a SNAPSHOT order (R386). -/
structure SnapshotArgs where
  newest : Bool
  annex : Bool
  dma : Bool
  epoch : Epoch
  count : Nat
  first : Nat
  addr : DWord
deriving DecidableEq, Repr

/-- One staged item of a gate part: kind and value (R158, R386). -/
structure StagedItem where
  item : Nat
  value : Nat
deriving DecidableEq, Repr

/-- What the PCI Express and AER capabilities of a Hatch hold after link training: the code of the link speed and the width negotiated, the
maximum payload and read request sizes in bytes, the code of the Completion Timeout, and the mask and severity of uncorrectable errors
(R369, R400). (PRESUMED, log 31.) -/
structure PcieCfg where
  speed : Nat := 5
  width : Nat := 4
  maxPayload : Nat := 128
  maxRead : Nat := 512
  cplTimeout : Nat := 0
  aerMask : Word := 0
  aerSeverity : Word := 0x00462030
deriving DecidableEq, Repr

/-- What a Hatch shows after link training: Bus Master Enable, MSI-X enable, the vectors masked by the host, the address and data of
the MSI-X table entries from 0 upward as the host wrote them, and the other capabilities (R369, R372, R392, R400). -/
structure LinkCfg where
  bme : Bool
  msixEn : Bool
  msixMask : DWord
  table : List (DWord × Word)
  pcie : PcieCfg := {}
deriving DecidableEq, Repr

/-- How a descriptor read fails: its completion carries an error status, does not come in time, or is poisoned (R378, R400). -/
inductive ReadFail where
  | error | timeout | poisoned
deriving DecidableEq, Repr

/-- The result of a descriptor read: the eight words, or a failure (R378). -/
inductive DescResult where
  | words (ws : List DWord)
  | failed (how : ReadFail)
deriving DecidableEq, Repr

/-- How a Hatch is reset (R373). -/
inductive HatchResetKind where
  | perst | hotReset | linkDown | flr | d3hot
deriving DecidableEq, Repr

/-- A ring of a Hatch: the order ring r, the completion ring r, or the event ring (R374). -/
inductive RingKind where
  | order | completion | event
deriving DecidableEq, Repr

/-- What the Start Sequencer finds outside the device (R402, R416–R425): BOOT_HOLD_N low, the bytes of the two image copies
in the flash, the power-good inputs, READ_VOUT of each regulator (none where it does not answer), the banks that fail their
test, the lanes that fail calibration, the Trunk regions (by offset) whose contents are lost, and the junction temperature
in 0.25 °C. (DESIGN CHOICE, log 4.) -/
structure StartIn where
  bootHold : Bool := false
  flash : List (Nat × List Byte) := []
  powerGood : Bool := true
  acks : List Bool := []
  vout : List (Option Nat) := []
  badBanks : List Nat := []
  badLanes : List Nat := []
  lostRegions : List Nat := []
  tj : Int := 0
deriving DecidableEq, Repr

/-- One counting window of the lock detector: the two counts and whether the phase indicator held throughout (R412).
(DESIGN CHOICE, log 4.) -/
structure LockWindow where
  lanes : Nat
  refclk : Nat
  held : Bool
deriving DecidableEq, Repr

/-- What one PMBus poll of a regulator gives: READ_VOUT, READ_IOUT and STATUS_WORD, each absent when its transaction failed
after its repetition, and whether a repeated VOUT_COMMAND is answered (R405, R407). (DESIGN CHOICE, log 4.) -/
structure PollReply where
  vout : Option Nat
  iout : Option Nat
  status : Option Nat
  ack : Bool
deriving DecidableEq, Repr

/-- The voltage at an analogue input at a slot instant, in nV as the converter sees it, and what the converter of the
pair sees of it when a cross-check gives it the same line (R40, R50). -/
structure SampleIn where
  nv : Int
  pairNv : Int
deriving DecidableEq, Repr

/-- The lines A, B and Z of an encoder set at one instant (R60). -/
structure EncLines where
  a : Bool
  b : Bool
  z : Bool
deriving DecidableEq, Repr

/-- A block of the line: its 2-bit sync header, 0b01 data or 0b10 control, and its descrambled payload (R64).
(DESIGN CHOICE, log 4, DESIGN CHOICE, log 40.) -/
structure LineBlock where
  sync : Nat
  payload : DWord
deriving DecidableEq, Repr

/-- The period of a lane in which no valid header came: the lane and the blocks received (R489). (DESIGN CHOICE, log 4.) -/
structure MissedFrame where
  lane : Nat
  blocks : List LineBlock
deriving DecidableEq, Repr

/-- A lane, or a station port as 512 + its number, that has lost its block lock, with the sync headers of the window that led to it (R64). (DESIGN CHOICE, log 4.) -/
structure LockLost where
  lane : Nat
  syncs : List Nat
deriving DecidableEq, Repr

/-- The commands of the opcode table, in its order. (DESIGN CHOICE, log 40.) -/
inductive Instr where
  /-- EPOCH_BOUNDARY (R16): At each epoch boundary, E increments and the device applies pending writes, votes TV words, evaluates orders and makes at most one state transition. -/
  | epochBoundary (b : BoundaryIn)
  /-- PRE_EPOCH_VOTE (R455): Before E(0), the TV words are voted every 1 µs on the AO timer. -/
  | preEpochVote (upsets : List Upset)
  /-- CHARGE_COMPLETE (R32): After 256 consecutive epochs in which every counted group meets the charge condition, CHARGE passes to READY. -/
  | chargeComplete
  /-- CHARGE_CONDITIONS_LOST (R32): After 256 consecutive epochs in which a counted group fails the charge condition at CHARGE_PCT − 5, READY returns to CHARGE. -/
  | chargeConditionsLost
  /-- CHARGE_TIMEOUT (R32): When CHARGE_TIMEOUT expires in CHARGE, source CHARGE_TIMEOUT is raised and the converter stays in CHARGE. -/
  | chargeTimeout
  /-- RUN_START (R34): At E(k) after the four announcing headers, the converter enters RUN unless a reaction prevails. -/
  | runStart
  /-- DEADLINE_MISS (R23): An epoch-work item that has not completed by its deadline keeps its previous outputs, and its annex region is marked held. -/
  | deadlineMiss (item : Nat)
  /-- EPOCH_LO_READ (R18): A read of SYS_EPOCH_LO returns E[31:0] and copies E[47:32] into the requester's shadow. -/
  | epochLoRead (req : Requester)
  /-- SLOT_SAMPLE (R40): At each slot instant every converter takes a raw sample and the over-range detector is latched. -/
  | slotSample (slot : Nat) (v : List SampleIn) (enc : List EncLines)
  /-- GAIN_UP_SWITCH (R45): After DWELL quiet epochs, an automatic-gain input switches up to ×8 at a boundary. -/
  | gainUpSwitch (input : Nat)
  /-- EPOCH_VALUE_DELIVERY (R42): The epoch value of each input is delivered at E(n+1) + 4 ns as a measurement word. -/
  | epochValueDelivery
  /-- OPEN_WIRE_DECLARE (R46): Four consecutive over-range samples declare open wire on an input. -/
  | openWireDeclare (input : Nat)
  /-- OPEN_WIRE_CLEAR (R46): OPEN clears with the 64th consecutive epoch without an over-range sample. -/
  | openWireClear (input : Nat)
  /-- XCHK_FAILURE (R51): After LIMIT consecutive failed checks, a pair enters cross-check failure. -/
  | xchkFailure (pair : Nat)
  /-- XCHK_RECOVERY (R51): After LIMIT consecutive passed checks, a pair leaves cross-check failure. -/
  | xchkRecovery (pair : Nat)
  /-- COMPARATOR_TRIP (R53): A fast comparator output goes to 1; the comparator latches its captures and, with BLOCK_EN = 1, fires the block path. -/
  | comparatorTrip (cmp : Nat) (upper : Bool) (fine : Nat)
  /-- RAMP_PERIOD_START (R55): A comparator ramp period restarts; the window widens again and, with AUTOCLR = 1, LATCH clears. -/
  | rampPeriodStart (cmp : Nat)
  /-- MFE_TEST_START (R58): START begins the named self-test, or refuses it. -/
  | mfeTestStart (req : Requester) (kind target : Nat)
  /-- SELF_TEST_COMPLETE (R59): A self-test ends with pass or fail after its duration and sets MFE_CAUSE.TEST. -/
  | selfTestComplete
  /-- ENCODER_EVALUATION (R60): Each epoch an enabled encoder evaluates quadrature, index and re-reference. -/
  | encoderEvaluation
  /-- ENC_REREF (R60): A write to MFE_ENC_REREF loads POS at the next boundary. -/
  | encReref (req : Requester) (enc : Nat) (pos : Word)
  /-- FRAME_LAUNCH (R70): A frame of orders, header, extension and service block is launched on an active lane. -/
  | frameLaunch (lane : Nat)
  /-- RETURN_FRAME_RECEIVE (R83): A returning frame is delivered and each slot is classified into a receipt and passed to the Cellar. -/
  | returnFrameReceive (lane : Nat) (blocks : List LineBlock)
  /-- HEADER_WINDOW_MISS (R489): No valid header is found within ±2 blocks of the expected position, so the frame counts in HDR_RX_BAD with every slot ABSENT. -/
  | headerWindowMiss (lane : MissedFrame)
  /-- RETURN_OFFSET_ACQUIRE (R489): The search finds two consecutive valid return headers and sets R_L of the lane. -/
  | returnOffsetAcquire (lane ofs : Nat) (first second : LineBlock)
  /-- LOCK_LOSS (R64): A device receiver loses block lock on a lane. -/
  | lockLoss (lane : LockLost)
  /-- SVC_TIMEOUT (R91): No final status within TIMEOUT frames makes the request repeat, or the transaction is abandoned after RETRIES. -/
  | svcTimeout (lane : Nat)
  /-- DISCOVERY_START (R106): Discovery of the lowest NOT_STARTED position begins once the unit below it is PRESENT. -/
  | discoveryStart (lane : Nat)
  /-- PROBE_SEND (R108): Every PROBE_PERIOD epochs a STRIKE-SYNC probe is sent to the next assigned position on a lane. -/
  | probeSend (lane : Nat)
  /-- ECHO_RECEIVE (R110): A STRIKE-SYNC echo arrives, and RT_p and O_p are formed from it. -/
  | echoReceive (lane : Nat) (echo : LineBlock) (rt : Nat)
  /-- PROBE_LOST (R108): An echo not received within 2 frames increments PROBE_LOST. -/
  | probeLost (lane : Nat)
  /-- LEAD_TRIM_CHANGE (R114): A lane's lead and T_LANE are recomputed and the hold offsets are sent. -/
  | leadTrimChange (lane : Nat)
  /-- UNIT_UNOBSERVED (R117): STALE_RUN reaches 16 and the unit becomes UNOBSERVED. -/
  | unitUnobserved (home : Nat)
  /-- UNIT_LOST (R117): STALE_RUN reaches 256; the unit becomes LOST and is planned for bypass. -/
  | unitLost (home : Nat)
  /-- CUT_OFF (R118): Four consecutive frames with a turn below a unit, or with no header, cut the units off. -/
  | cutOff (lane : Nat)
  /-- ROUTE_REASSIGN (R119): After 64 due epochs of STALE_ROUTE records, the route is reassigned by ASSIGN_ROUTE. -/
  | routeReassign (home : Nat)
  /-- BRIDGE_VERIFY (R120): The BRIDGE_VERIFY action moves the units of a pair over the bridge both ways and sets the leads. -/
  | bridgeVerify (req : Requester) (lane : Nat)
  /-- BRIDGE_VERIFY_NO_PATH (R120): A unit not moved within 64 ep of step 2 ends verification with NO_PATH. -/
  | bridgeVerifyNoPath
  /-- BRIDGE_DISCOVERY (R121): After DISC_WAIT, or when the partner's discovery is blocked, a lane discovers the partner's units through the bridge. -/
  | bridgeDiscovery (lane : Nat)
  /-- HANDOVER_START (R123): At H0 the pair goes to HANDOVER, the cut-off units become MOVING and the serving lane launches bridged frames. -/
  | handoverStart (pair : Nat)
  /-- HANDOVER_END (R124): At H0 + 16 ep the pair becomes BRIDGED. -/
  | handoverEnd (pair : Nat)
  /-- HANDBACK_GO (R126): LNK_HANDBACK.GO requests a hand-back of the named pair. -/
  | handbackGo (req : Requester) (lane : Nat)
  /-- HANDBACK_START (R126): With RESTORE_RUN ≥ 4,096 and GO or AUTO, the hand-back begins. -/
  | handbackStart (pair : Nat)
  /-- HANDBACK_COMPLETE (R126): Once every moved unit is home, the serving lane launches normal frames and the pair is NORMAL. -/
  | handbackComplete (pair : Nat)
  /-- HANDBACK_ABORT (R127): A flap, or 256 ep without completion, aborts the hand-back back to BRIDGED. -/
  | handbackAbort (pair : Nat)
  /-- QUARANTINE (R128): A lane's third flap within 10 s quarantines it. -/
  | quarantine (lane : Nat)
  /-- BRIDGE_LIMIT_EXPIRY (R129): The bridged time limit expires; the device bypasses the moved units or takes a Lock-out. -/
  | bridgeLimitExpiry (pair : Nat)
  /-- CLEAR_QUARANTINE (R128): The CLEAR_QUARANTINE action ends a lane's quarantine and clears its flap history. -/
  | clearQuarantine (req : Requester) (lane : Nat)
  /-- CLEAR_COUNTERS (R133): The CLEAR_COUNTERS action clears the lane-table counters of the named lane. -/
  | clearCounters (req : Requester) (lane : Nat)
  /-- CLEAR_LOST (R104): The CLEAR_LOST action in READY returns LOST units to JOINING. -/
  | clearLost (req : Requester) (lane : Nat)
  /-- RETRIM (R114): The RETRIM action recomputes a lane's lead and trim in CHARGE or READY. -/
  | retrim (req : Requester) (lane : Nat)
  /-- LNK_TBL_READ (R135): A read of LNK_TBL_DATA returns the selected table word and counts an out-of-range index. -/
  | lnkTblRead (req : Requester)
  /-- SEAL_PASS (R146): The seal pass seals every Shelf that meets R145, or whose deadline has come, and carries unwritten entries. -/
  | sealPass
  /-- ROW_REPAIR_MARK (R152): A row that reaches ROW_LIMIT corrected errors within 2^20 ep is marked for repair. -/
  | rowRepairMark (bank row : Nat)
  /-- SNAPSHOT_COPY (R155): Once credit and the seal allow, a snapshot is copied into the Hatch buffer, delivered and completed. -/
  | snapshotCopy (hatch : Fin 4)
  /-- CEL_CTR_CLEAR (R169): CEL_CTR_CLEAR clears the six Cellar counters at the next boundary. -/
  | celCtrClear (req : Requester)
  /-- CRATE_STAGING (R163): At the boundary after the close is accepted, staging of the items in the units' due frames begins. -/
  | crateStaging (slot : Nat)
  /-- CRATE_COMMIT_DECISION (R164): When every gate part is acknowledged in sealed Shelves, the commit is decided and X is set. -/
  | crateCommitDecision (slot : Nat)
  /-- CRATE_PART_TIMEOUT (R164): A gate part that is not acknowledged or nacked within 64 ep times out. -/
  | cratePartTimeout (slot : Nat)
  /-- CRATE_ABORT_DECISION (R165): A nack, a timeout, an abort order or LOCKOUT/OFF during staging decides the abort. -/
  | crateAbortDecision (slot : Nat)
  /-- CRATE_APPLY (R164): At effective epoch X, the device parts take effect and the Crate enters VERIFYING. -/
  | crateApply (slot : Nat)
  /-- CRATE_VERIFY_END (R166): After Shelf X + 6 is evaluated, each gate part is judged applied or NOT_APPLIED and the Crate is DONE. -/
  | crateVerifyEnd (slot : Nat)
  /-- CRATE_ABORT_DONE (R165): At E(A + 3), or at E(A) without gate parts, an aborting Crate is DONE. -/
  | crateAbortDone (slot : Nat)
  /-- CRATE_BUILD_LIMIT (R161): BUILD_LIMIT reached in BUILDING ends the Crate with ABORTED_BUILD. -/
  | crateBuildLimit (slot : Nat)
  /-- CRATE_SLOT_FREE (R168): The close completion is written, or the next boundary passes, and the slot becomes FREE. -/
  | crateSlotFree (slot : Nat)
  /-- GRID_ENGINE_PASS (R213): The Grid Engine computes angle, sequences, references, ride-through and islanding from the epoch values. -/
  | gridEnginePass
  /-- OBSERVER_LOCK (R219): After LOCK_EP passes with small error, the observer enters LOCKED. -/
  | observerLock
  /-- OBSERVER_LOS (R219): After LOS_EP passes of large error or a clamped frequency, the observer enters LOS. -/
  | observerLos
  /-- FREEWHEEL_TIMEOUT (R219): FREEWHEEL that has lasted FREEWHEEL_MS returns the observer to UNLOCKED. -/
  | freewheelTimeout
  /-- ROCOF_WINDOW_END (R221): At the end of each ROCOF window the ROCOF output is updated. -/
  | rocofWindowEnd
  /-- FRT_ENTRY (R224): After FRT_ENTRY_EP passes of low or high voltage, ride-through enters FAULT. -/
  | frtEntry
  /-- FRT_EXIT (R224): After FRT_EXIT_EP passes of recovered voltage, FAULT passes to POST. -/
  | frtExit
  /-- FRT_TIMEOUT (R225): FAULT lasting FRT_MAX_MS raises GRD_FRT_TIMEOUT. -/
  | frtTimeout
  /-- CURVE_ACTIVATION (R227): A curve with ACT = 1 becomes active or inactive after HOLD passes beyond XON or XOFF. -/
  | curveActivation (curve : Nat)
  /-- ENVELOPE_VIOLATION (R228): An envelope violation lasting HOLD passes sets VIOL and raises GRD_ENVELOPE. -/
  | envelopeViolation (curve : Nat)
  /-- ISLAND_CONFIRM (R233): An enabled islanding method confirms and ISLANDED is set. -/
  | islandConfirm
  /-- ISLAND_PULSE (R232): Every ISL_PERIOD the active method adds a current pulse and evaluates Z. -/
  | islandPulse
  /-- TO_GFM (R236): The TO_GFM action transfers the converter to grid-forming in the next pass. -/
  | toGfm (req : Requester)
  /-- TO_GFL (R237): The TO_GFL action starts resynchronisation toward grid-following. -/
  | toGfl (req : Requester)
  /-- GFL_TRANSFER (R237): Once RESYNC_READY = 1 and FRT_STATE is NORMAL, the angle in force returns to φ_PLL. -/
  | gflTransfer
  /-- CANCEL (R237): The CANCEL action ends a pending grid action and sets f_RS to 0. -/
  | cancel (req : Requester)
  /-- CLEAR_ISLAND (R233): The CLEAR_ISLAND action clears ISLANDED in grid-following. -/
  | clearIsland (req : Requester)
  /-- CLEAR_FRT (R225): The CLEAR_FRT action clears the ride-through entry history. -/
  | clearFrt (req : Requester)
  /-- CHOPPER_PASS (R241): The chopper function forms P_CH, v*_6 and the resistor temperature model. -/
  | chopperPass
  /-- CONTROL_PASS (R187): The Control Engines run every slot, the composer and the energy derivations. -/
  | controlPass
  /-- STOP_RAMP_COMPLETE (R192): Every stop-ramp slot reaches r = 0, and RUN passes to READY at the next boundary. -/
  | stopRampComplete
  /-- STOP_RAMP_TIMEOUT (R192): An incomplete stop ramp at CTL_STOP.TIMEOUT forces the transition to READY. -/
  | stopRampTimeout
  /-- PLAUS_WINDOW_END (R201): A plausibility window ends in pass, fail or skip, and failure is entered or left after LIMIT windows. -/
  | plausWindowEnd (check : Nat)
  /-- RC_CLEAR (R193): CTL_ACTION RC_CLEAR clears the named repetitive-control table. -/
  | rcClear (req : Requester) (table : Nat)
  /-- CLEAR_CHECK_COUNTS (R212): CTL_ACTION 2 clears the counts and FAIL_SEEN of all checks. -/
  | clearCheckCounts (req : Requester)
  /-- GEN_START (R205): START starts or restarts a test generator at the next boundary. -/
  | genStart (req : Requester) (gen : Nat)
  /-- GEN_STOP (R205): STOP stops a test generator at the next boundary. -/
  | genStop (req : Requester) (gen : Nat)
  /-- CAP_ARM (R206): ARM requests admission for loop capture. -/
  | capArm (req : Requester)
  /-- CAP_ABORT (R207): ABORT ends a loop capture at the next boundary and keeps its samples. -/
  | capAbort (req : Requester)
  /-- CAP_TRIGGER (R206): The capture trigger occurs, and the capture keeps PRE samples and fills to 4,096. -/
  | capTrigger
  /-- CAP_DONE (R206): The capture buffer is full, and DONE and CAP_DONE are set. -/
  | capDone
  /-- ARM_ENGINE_PASS (R249): An Arm Engine forms its energy account, ordered lists, swaps and level transitions for its group. -/
  | armEnginePass (group : Nat)
  /-- EDGE_PLANNER_PASS (R260): The Edge Planner turns transitions into dead-timed, guard-shifted edge events and writes the orders. -/
  | edgePlannerPass
  /-- PROFILE_LOAD (R272): A joining unit is loaded with its class profiles and each profile is checked. -/
  | profileLoad (home : Nat)
  /-- FORCE_SET (R276): EDG_FORCE.SET enters or replaces a force entry, or refuses it. -/
  | forceSet (req : Requester) (home code : Nat)
  /-- FORCE_RELEASE (R277): EDG_FORCE.RELEASE releases the entry of one unit. -/
  | forceRelease (req : Requester) (home : Nat)
  /-- FORCE_RELEASE_ALL (R277): EDG_FORCE.RELEASE_ALL releases every force entry. -/
  | forceReleaseAll (req : Requester)
  /-- BYPASS_GO (R278): EDG_BYPASS.GO starts a bypass sequence for a unit, or refuses it. -/
  | bypassGo (req : Requester) (home : Nat)
  /-- BYPASS_FIRE (R279): In the first epoch whose gauge covers the cost, FIRE_BYPASS is sent. -/
  | bypassFire (home : Nat)
  /-- BYPASS_CONFIRM_TIMEOUT (R279): No bypass-fired record within 64 ep of f returns to ARM, or makes the sequence FAILED. -/
  | bypassConfirmTimeout (home : Nat)
  /-- LOST_BYPASS_RETRY (R280): Every 256 ep ARM and FIRE are sent again to a LOST unit whose carried gauge covers the cost. -/
  | lostBypassRetry (home : Nat)
  /-- PROTECTION_PASS (R285): Protection A or B evaluates every source, writes block requests and gives or withholds its permit. -/
  | protectionPass (isA : Bool) (ns : Nat)
  /-- AB_DISC (R289): A source raised by one protection only for DISC_EP passes raises AB_DISC. -/
  | abDisc
  /-- RECOVERY_TIMER_EXPIRY (R301): A source's recovery timer expires and the source ceases to be recovering. -/
  | recoveryTimerExpiry (isA : Bool) (source : Nat)
  /-- DEGRADE_EXPIRY (R297): A degrade timer reaches DEG_LIMIT, and the source takes its escalation class. -/
  | degradeExpiry (isA : Bool) (source ns : Nat)
  /-- RECOVERY_COMPLETE (R298): Every cause is cleared and every timer expired, so HOLD recovers to RUN or READY. -/
  | recoveryComplete
  /-- HOLD_TIMEOUT (R300): A Block episode reaching HOLD_MAX raises HOLD_TIMEOUT. -/
  | holdTimeout
  /-- TRIP_PULSE_END (R308): A pulse-mode trip output releases after WIDTH. -/
  | tripPulseEnd (trip : Nat)
  /-- RESET_ARM (R310): PRT_RESET ARM with its key arms the deliberate reset. -/
  | resetArm (req : Requester) (key : Nat)
  /-- RESET_GO (R310): PRT_RESET GO with its key performs the deliberate reset from LOCKOUT to OFF, or is refused. -/
  | resetGo (req : Requester) (key : Nat)
  /-- RESET_ARM_EXPIRY (R310): An armed reset not followed by GO within 1 s expires. -/
  | resetArmExpiry
  /-- METERING_PASS (R315): The Metering Engine forms S_P, S_Q and S_D and adds the increments to totals or tallies. -/
  | meteringPass
  /-- PULSE_START (R325): An owed pulse starts once no pulse or gap of the output is in progress. -/
  | pulseStart (output : Nat)
  /-- PULSE_END (R325): The output releases after WIDTH and the gap begins. -/
  | pulseEnd (output : Nat)
  /-- MERGE (R321): MERGE adds a tally to its totals and pulse accumulators. -/
  | merge (req : Requester) (tally mask : Nat)
  /-- DISCARD (R321): DISCARD sets a tally to 0. -/
  | discard (req : Requester) (tally mask : Nat)
  /-- SEAL (R328): SEAL with its key seals the metering parameters and stores their check value. -/
  | sealMeter (req : Requester) (key : Nat)
  /-- UNSEAL (R329): UNSEAL with its key unseals the metering parameters in OFF under commissioning. -/
  | unsealMeter (req : Requester) (key : Nat)
  /-- METER_CHECK_RECOMPUTE (R328): Every 2^16 ep while sealed, the check value is recomputed and compared. -/
  | meterCheckRecompute
  /-- PERIODIC_SAVE (R330): Every 2^SAVE_LOG2 ep a metering save is started. -/
  | periodicSave
  /-- SAFETY_SAMPLE (R336): Every 1 µs each half samples every safety input and read-back input. -/
  | safetySample (raw srb : Nat) (srst : Bool)
  /-- SAFETY_CYCLE (R336): Every 10 µs each half evaluates the safety logic and the two halves compare their results. -/
  | safetyCycle (diff ns : Nat)
  /-- PAIR_DISC_FAULT (R339): A disagreement of a and b that lasts DISC sets DISC_FAULT. -/
  | pairDiscFault (pair : Nat)
  /-- TEST_PULSE (R340): TPOt is driven low for TP_WIDTH and the channels of the source are tested. -/
  | testPulse (tpo : Nat)
  /-- OFF_PULSE (R348): A high safety output is driven low for OP_WIDTH once every OP_PERIOD. -/
  | offPulse (output : Nat)
  /-- READBACK_CHECK (R348): A read-back that has not followed its command within RB_DELAY sets OUT_FAULT or STUCK_ON. -/
  | readbackCheck (output : Nat)
  /-- DEAD_HELD (R343): DEAD held without a break for DEAD_HOLD sets DEAD_HELD. -/
  | deadHeld
  /-- SAFETY_RESET_REQUEST (R351): A filtered SRST pulse ends at its falling edge and the reset is accepted or refused. -/
  | safetyResetRequest
  /-- RESET_STUCK (R350): An SRST high longer than RST_MAX sets RESET_STUCK. -/
  | resetStuck
  /-- CONFIRM_GO (R354): SAF_CONFIRM GO applies the pending safety set through a Trunk write, or is refused. -/
  | confirmGo (req : Requester) (key : Nat)
  /-- CONFIRM_DISCARD (R354): SAF_CONFIRM DISCARD loads the pending set from the set in force. -/
  | confirmDiscard (req : Requester) (key : Nat)
  /-- SAFETY_SET_IN_FORCE (R354): After the Trunk write completes, the confirmed set comes into force and RESTART_WAIT is set. -/
  | safetySetInForce
  /-- SAFETY_CHECK_RECOMPUTE (R356): Once per second the check value of the set in force is recomputed, and a mismatch is the cause CHECK. -/
  | safetyCheckRecompute
  /-- SAFETY_SET_RELOAD (R457): A safety set in triple disagreement is reloaded from the Trunk and checked again. -/
  | safetySetReload
  /-- TELEGRAM_SEND (R359): Every TX_PERIOD a safety telegram is sent on every enabled station port. -/
  | telegramSend
  /-- STATION_FRAME_RECEIVE (R360): A frame received at a station port is kept as a candidate or dropped. -/
  | stationFrameReceive (port : Nat) (bytes : List Byte)
  /-- TELEGRAM_WATCHDOG (R362): No fresh telegram for WD takes the connection to LOST. -/
  | telegramWatchdog
  /-- MIRROR_SEND (R365): Every 2^LOG2 ep a diagnostic mirror datagram is sent. -/
  | mirrorSend
  /-- HATCH_RESET (R373): A PERST, hot reset, link-down, FLR or D3hot entry resets one Hatch's rings, buffers and per-requester registers. -/
  | hatchReset (hatch : Fin 4) (kind : HatchResetKind)
  /-- RING_CFG_WRITE (R375): A write to HAT_RING_CFG enables, disables or configures the selected ring. -/
  | ringCfgWrite (hatch : Fin 4) (value : Word)
  /-- RING_RESET (R401): HAT_CTRL.RING_RESET disables every ring of the Hatch. -/
  | ringReset (hatch : Fin 4)
  /-- ORDER_DOORBELL (R376): A write to HAT_OR_TAIL announces new orders and starts fetching. -/
  | orderDoorbell (hatch : Fin 4) (ring : Nat) (value : Word)
  /-- COMPLETION_DOORBELL (R376): A write to HAT_CR_HEAD frees completion entries. -/
  | completionDoorbell (hatch : Fin 4) (ring : Nat) (value : Word)
  /-- EVENT_DOORBELL (R376): A write to HAT_EV_HEAD frees event entries. -/
  | eventDoorbell (hatch : Fin 4) (value : Word)
  /-- ORDER_FETCH (R377): With a completion entry reserved, the device fetches an order descriptor from host memory. -/
  | orderFetch (hatch : Fin 4) (ring : Nat)
  /-- DESCRIPTOR_READ_DONE (R378): A descriptor read completes, or fails and stops the ring. -/
  | descriptorReadDone (hatch : Fin 4) (ring : Nat) (res : DescResult) (ns : Nat)
  /-- NOP (R385): A NOP order completes OK. -/
  | nop (ref : OrderRef)
  /-- ENERGISE (R32): An ENERGISE order takes the converter from OFF to CHARGE and resets the strings. -/
  | energise (ref : OrderRef)
  /-- DEBLOCK (R34): A DEBLOCK order decides the transition from READY to RUN and starts the announcement. -/
  | deblock (ref : OrderRef)
  /-- BLOCK (R192): A BLOCK order starts the stop ramp in RUN, or takes HOLD to READY. -/
  | block (ref : OrderRef)
  /-- DEENERGISE (R32): A DEENERGISE order takes CHARGE, READY or HOLD to OFF. -/
  | deenergise (ref : OrderRef)
  /-- SET_POINT (R386): A SET_POINT order applies one to six set-points at one boundary. -/
  | setPoint (ref : OrderRef) (entries : List SetPointEntry)
  /-- SNAPSHOT (R153): A SNAPSHOT order requests a Shelf copy. -/
  | snapshot (ref : OrderRef) (args : SnapshotArgs)
  /-- CRATE_OPEN (R157): A CRATE_OPEN order opens a Crate in a free slot with a new id, or completes BUSY. -/
  | crateOpen (ref : OrderRef)
  /-- CRATE_ADD_GATE (R386): A CRATE_ADD_GATE order adds staged items for one unit. -/
  | crateAddGate (ref : OrderRef) (id home : Nat) (items : List StagedItem)
  /-- CRATE_ADD_DEVICE (R387): A CRATE_ADD_DEVICE order adds one device part. -/
  | crateAddDevice (ref : OrderRef) (id part w2 w3 : Nat)
  /-- CRATE_CLOSE (R162): A CRATE_CLOSE order validates the Crate and starts staging, or rejects it. -/
  | crateClose (ref : OrderRef) (id : Nat)
  /-- CRATE_ABORT (R165): A CRATE_ABORT order aborts a Crate, or completes TOO_LATE. -/
  | crateAbort (ref : OrderRef) (id : Nat)
  /-- KICK (R396): A write of HAT_KEEPALIVE.KICK records a keepalive. -/
  | kick (hatch : Fin 4)
  /-- HATCH_SILENCE (R396): KA_TIMEOUT expiry or loss of link makes a Hatch silent and sends SILENCE events. -/
  | hatchSilence (hatch : Fin 4)
  /-- POWER_ON (R416): At PORST_N release, the Start Sequencer runs the start steps from TRUNK to DONE. -/
  | powerOn (inp : StartIn)
  /-- CONTINUE (R418): STR_ACTION.CONTINUE leaves the HELD state. -/
  | continueStart (req : Requester)
  /-- RESTART (R416): STR_ACTION.RESTART with its key saves metering, switches off the domains and reruns start-up from IMAGE. -/
  | restart (req : Requester) (key : Nat) (inp : StartIn)
  /-- PMBUS_POLL (R405): Every 4,096 ep each regulator's voltage, current and status are read and P_DRAW is computed. -/
  | pmbusPoll (replies : List PollReply) (other_mW : Nat)
  /-- SLACK_WINDOW_END (R406): At the end of a slack window, a lower step of VCORE may be sent. -/
  | slackWindowEnd
  /-- VOUT_COMMAND (R406): A pending raise or lower of the VCORE set-point is sent to the regulators. -/
  | voutCommand (acks : List Bool)
  /-- BUDGET_ADMIT (R410): A waiting optional work item is admitted within the power budget. -/
  | budgetAdmit
  /-- LOCK_DECLARED (R412): After LOCK_WINDOWS passing windows, the Reference Synthesiser is locked. -/
  | lockDeclared (windows : List LockWindow) (band control : Nat)
  /-- REFERENCE_LOSS (R413): A loss of reference lock mutes every lane and enters holdover. -/
  | referenceLoss
  /-- UNMUTE (R414): After UNMUTE_EP epochs with lock held, the lanes launch frames again. -/
  | unmute
  /-- PFAIL_ASSERT (R429): PFAIL_N asserted starts the PFAIL save and coalesces the Bin queue. -/
  | pfailAssert
  /-- PFAIL_RELEASE (R429): PFAIL_N released writes a Bin record. -/
  | pfailRelease
  /-- TRUNK_WRITE_START (R428): The Trunk takes the next waiting write in order of priority. -/
  | trunkWriteStart
  /-- TRUNK_WRITE_COMPLETE (R427): A two-phase Trunk write completes its commit, or fails. -/
  | trunkWriteComplete (ok : Bool)
  /-- FORMAT (R430): TRK_ACTION.FORMAT with its key empties the Trunk and clears WRITE_PROT. -/
  | format (req : Requester) (key : Nat)
  /-- REGISTER_WRITE (R440): A normal register write without a row of its own is accepted and applied under its class. -/
  | registerWrite (w : WriteReq)
  /-- SET_ALIAS_WRITE (R452): A write through the SET alias ORs into a register. -/
  | setAliasWrite (w : WriteReq)
  /-- CLEAR_ALIAS_WRITE (R452): A write through the CLEAR alias clears bits and LT fields. -/
  | clearAliasWrite (w : WriteReq)
  /-- TOGGLE_ALIAS_WRITE (R452): A write through the TOGGLE alias XORs into a register. -/
  | toggleAliasWrite (w : WriteReq)
  /-- MGMT_WRITE (R443): A management-port WRITE frame writes N words, or is dropped. -/
  | mgmtWrite (frame : List Byte) (ns : Nat)
  /-- MGMT_READ (R442): A management-port READ frame returns N words with a status byte and CHK. -/
  | mgmtRead (frame : List Byte)
  /-- MGMT_STATUS (R442): A STATUS frame returns the management-port status word. -/
  | mgmtStatus (frame : List Byte)
  /-- STATUS_CLEAR (R444): A STATUS_CLEAR frame clears the management-port status word. -/
  | statusClear (frame : List Byte)
  /-- TOTAL_LO_READ (R335): A read of MTR_TOTAL_LO or MTR_WIDE word 0 loads the requester's shadows. -/
  | totalLoRead (req : Requester) (off : Nat)
  /-- TAP_RESET (R481): TRST_N, or five TCK cycles with TMS high, resets the test access port. -/
  | tapReset
  /-- EXTEST (R482): EXTEST drives the boundary register, or BYPASS is loaded when it is not permitted. -/
  | extest (cells : List Bool)
  /-- IDCODE (R481): IDCODE selects the 32-bit identity register. -/
  | idcode
  /-- SAMPLE_PRELOAD (R482): SAMPLE/PRELOAD selects the boundary register. -/
  | samplePreload (cells : List Bool)
  /-- HIGHZ (R482): HIGHZ floats the boundary pins, if permitted. -/
  | highz
  /-- CLAMP (R482): CLAMP holds the boundary values with bypass selected, if permitted. -/
  | clamp
  /-- BYPASS (R482): BYPASS, or any undefined code, selects the 1-bit bypass register. -/
  | tapBypass
  /-- DBG_ACCESS (R484): At Update-DR under DBG_ACCESS, a register write or read is made as the management port. -/
  | dbgAccess (write : Bool) (off : Nat) (value : Word) (ns : Nat)
  /-- HALT (R485): DBG_HALT.HALT halts the named control engines and asserts the debug-halt block input. -/
  | halt (req : Requester) (targets ns : Nat)
  /-- RESUME (R485): DBG_HALT.RESUME restarts the named targets at the next boundary. -/
  | resume (req : Requester) (targets : Nat)
  /-- STEP (R485): DBG_HALT.STEP runs one pass of each named halted target. -/
  | stepEngine (req : Requester) (targets : Nat)
  /-- DBG_CAP_ARM (R486): DBG_CAP_CTRL.ARM zeroes the debug capture buffer and waits for admission. -/
  | dbgCapArm (req : Requester)
  /-- DBG_CAP_ABORT (R486): DBG_CAP_CTRL.ABORT ends the debug capture at the next boundary. -/
  | dbgCapAbort (req : Requester)
  /-- BLOCK_LOCK_ACQUIRE (R64): A device lane receiver acquires block lock on the incoming stream under the Clause 49 block-lock state machine. -/
  | blockLockAcquire (lane : Nat) (syncs : List Nat)
  /-- DOMAIN_READY (R404): A switched power domain becomes ready within 200 µs of being switched on, and a lane group's lanes become active once their transmit delays are calibrated. -/
  | domainReady (domain : Nat)
  /-- START_STEP_TIMEOUT (R417): A start step's time limit runs out: SUPPLIES is retried after 10 ms, at 100 ms intervals, or fails, and REFERENCE retries every 1 s after 100 ms without lock. -/
  | startStepTimeout (inp : StartIn)
  /-- LOSS_OF_VAON (R367): The always-on supply VAON, or VIO, is lost, and every safety output, TPO, SOUT, TRIP and VCORE_EN goes low while MPULSE and IRQ_N release. -/
  | lossOfVaon
  /-- PORST_N_ASSERT (R476): PORST_N is driven low, and the device holds its outputs in their reset states until release. -/
  | porstNAssert
  /-- HATCH_LINK_UP (R396): A Hatch's PCIe link completes training and comes up, so BAR0 is served and the Hatch may cease to be silent. -/
  | hatchLinkUp (hatch : Fin 4) (cfg : LinkCfg)
  /-- MGMT_UNKNOWN_COMMAND (R443): A management-port frame with an unknown command byte is logged with kind 9 and the rest of the frame is ignored. -/
  | mgmtUnknownCommand (frame : List Byte)
  /-- TRK_BIN_READ (R433): A read of TRK_BIN_DATA returns the selected Bin record word, and a SEQ outside OLDEST to NEWEST reads 0 and is counted with kind 6. -/
  | trkBinRead (req : Requester) (word : Nat)
  /-- BAR2_WRITE (R156): A host write to BAR2 is dropped and logged in the Hatch error log with kind 3. -/
  | bar2Write (hatch : Fin 4) (off : Nat)
deriving DecidableEq, Repr

end Sys2Proof
end

