-- ==== Sys2Proof/Decode.lean ====
section
/-! DEFINITION. The command that a word of the opcode table spells. The table gives no row any bits: the commands of this block
are register accesses, frames, pins, samples and events in time, and a word spells none of them. -/

namespace Sys2Proof

/-- The rows of the opcode table that give bits, each with its width, its mask, its pattern and the command it spells: none. -/
def tableRows : List (Nat × Nat × Nat × Instr) := []

/-- The command spelled by a word of nbits bits, by the rows of the table that give bits. (DESIGN CHOICE, log 1.) -/
def decodeTableWord (nbits w : Nat) : Option Instr :=
  (tableRows.find? (fun r => r.1 = nbits && w &&& r.2.1 = r.2.2.1)).map (fun r => r.2.2.2)

end Sys2Proof
end

