-- ==== Sys2Proof/Config.lean ====
section
/-! DEFINITION. What an implementation fixes and the free values: values of which the manual does not say what they are.
Every constant here is opaque, so that no statement can rest on one of them. -/

namespace Sys2Proof

/-- A free bit: which of two outcomes the manual leaves open occurs. The argument is the state's counter of free values.
(DESIGN CHOICE, log 2.) -/
opaque Config.freeBit : Nat → Bool

/-- A free word: a value the manual leaves open. The argument is the state's counter of free values. (DESIGN CHOICE, log 2.) -/
opaque Config.freeWord : Nat → Word

/-- The factory trim of input i at ×1, as MFE_TRIM_F shows it (R41). (DESIGN CHOICE, log 5; DESIGN CHOICE, log 12.) -/
opaque Config.trimX1 : Nat → Word

/-- The factory trim of input i at ×8, which is not readable (R41). (DESIGN CHOICE, log 5; DESIGN CHOICE, log 12.) -/
opaque Config.trimX8 : Nat → Word

/-- Whether an encoder's count rises when line A leads line B with INVERT = 0: the manual names the Gray sequence and
not its direction (R60). (DESIGN CHOICE, log 14.) -/
opaque Config.encoderUp : Bool

/-- The part's serial number (R371). (DESIGN CHOICE, log 5; DESIGN CHOICE, log 12.) -/
opaque Config.serial : DWord

/-- The spare rows in use in each Cellar bank of a new part, 0 to 32, as CEL_SPARE shows them (R169). (DESIGN CHOICE, log 5;
DESIGN CHOICE, log 12.) -/
opaque Config.cellarSpare : Fin 4 → Fin 33

/-- The calibrated transmit delay T_TX of a lane, in fine steps (R110, R133). (DESIGN CHOICE, log 5; DESIGN CHOICE, log 12.) -/
opaque Config.tTx : Nat → Nat

/-- The calibrated receive delay T_RX of a lane, in fine steps (R110, R133). (DESIGN CHOICE, log 5; DESIGN CHOICE, log 12.) -/
opaque Config.tRx : Nat → Nat

/-- The error of the sine of a fixed-point angle in 2^−32 turn, before the bound of R213 is applied to it. (DESIGN CHOICE, log 21.) -/
opaque Config.sinErr : Nat → Rat

/-- The result of a division by 0 in an equation of the engines, of which the manual says nothing. The arguments are the
number of the place where it occurs and the dividend. (DESIGN CHOICE, log 21.) -/
opaque Config.divZero : Nat → Rat → Rat

end Sys2Proof
end

