-- ==== Sys2Proof/Machine/Bits.lean ====
section
/-! DEFINITION. Bit fields, sign extension and byte order: the helpers every layout of the manual is written with (R9, R12). -/

namespace Sys2Proof.Machine

/-- Bits [hi:lo] of a natural number read as a word. -/
def bits (w hi lo : Nat) : Nat := (w / 2 ^ lo) % 2 ^ (hi + 1 - lo)

/-- Bit b of a natural number. -/
def bit (w b : Nat) : Bool := bits w b b = 1

/-- 1 for true, 0 for false. -/
def b2n (b : Bool) : Nat := if b then 1 else 0

/-- Field [hi:lo] of a 32-bit word. -/
def fld (w : Word) (hi lo : Nat) : Nat := bits w.toNat hi lo

/-- Bit b of a 32-bit word. -/
def flag (w : Word) (b : Nat) : Bool := w.getLsbD b

/-- The mask of bits [hi:lo] of a 32-bit word. -/
def maskOf (hi lo : Nat) : Word := BitVec.ofNat 32 ((2 ^ (hi + 1 - lo) - 1) * 2 ^ lo)

/-- The word with field [hi:lo] replaced by v (v modulo the field's size). -/
def setFld (w : Word) (hi lo v : Nat) : Word :=
  (w &&& ~~~ maskOf hi lo) ||| (BitVec.ofNat 32 (v * 2 ^ lo) &&& maskOf hi lo)

/-- The word with bit b set to the given value. -/
def setFlag (w : Word) (b : Nat) (v : Bool) : Word := setFld w b b (b2n v)

/-- The signed value of an n-bit two's-complement field. -/
def signed (n v : Nat) : Int := if v % 2 ^ n < 2 ^ (n - 1) then (v % 2 ^ n : Nat) else ((v % 2 ^ n : Nat) : Int) - 2 ^ n

/-- The n-bit two's-complement field of an integer. -/
def unsigned (n : Nat) (v : Int) : Nat := (v % (2 ^ n : Nat)).toNat

/-- An integer limited to the range [lo, hi]. -/
def clampInt (lo hi v : Int) : Int := if v < lo then lo else if hi < v then hi else v

/-- A natural number limited to the range [lo, hi]. -/
def clampNat (lo hi v : Nat) : Nat := if v < lo then lo else if hi < v then hi else v

/-- A counter that stops at its maximum (R460). -/
def incSat (max v : Nat) : Nat := if max ≤ v then max else v + 1

/-- n bytes of a value, most significant byte first. -/
def bytesBE : Nat → Nat → List Byte
  | 0, _ => []
  | n + 1, v => BitVec.ofNat 8 (v / 2 ^ (8 * n)) :: bytesBE n v

/-- The value of bytes given most significant byte first. -/
def ofBytesBE (bs : List Byte) : Nat := bs.foldl (fun a b => a * 256 + b.toNat) 0

/-- The value of bytes given least significant byte first (the little-endian words of R374, R423, R431). -/
def ofBytesLE (bs : List Byte) : Nat := ofBytesBE bs.reverse

/-- n bytes of a value, least significant byte first. -/
def bytesLE (n v : Nat) : List Byte := (bytesBE n v).reverse

/-- The indices b below n whose bit of w is set, in rising order. -/
def bitList (n w : Nat) : List Nat := (List.range n).filter (fun b => bit w b)

/-- The number whose bits are the given list, bit 0 first. -/
def ofBits : List Bool → Nat
  | [] => 0
  | b :: t => b2n b + 2 * ofBits t

end Sys2Proof.Machine
end

