-- ==== Sys2Proof/Machine/Num.lean ====
section
/-! DEFINITION. The number format of the engines (R174–R176): exact sums of products, one rounding per line, and the
binary32 words in which hosts see and write the values. A scalar of R174 is held as the rational number it is. -/

namespace Sys2Proof.Machine

/-- 2 to an integer power, as a rational. -/
def pow2 (e : Int) : Rat := if 0 ≤ e then ((2 ^ e.toNat : Nat) : Rat) else mkRat 1 (2 ^ (-e).toNat)

/-- The exponent of the leading bit: the largest e with 2^e ≤ |q|, for q other than 0 (R175). -/
def leadExp (q : Rat) : Int :=
  let n := q.num.natAbs
  let e : Int := (Nat.log2 n : Int) - (Nat.log2 q.den : Int)
  if pow2 e ≤ q.abs then e else e - 1

/-- The block exponent B of a line: the largest leading exponent of its terms; none when every term is 0 (R175). -/
def blockExp (ts : List Rat) : Option Int :=
  ts.foldl (fun acc t => if t = 0 then acc else
    match acc with
    | none => some (leadExp t)
    | some b => some (if b < leadExp t then leadExp t else b)) none

/-- Rounds the accumulator sum a, with its sticky bit, to 24 significant bits, to nearest with ties to even; a sticky
bit turns an exact tie toward plus infinity (R175). The result is a mantissa and the places it was shifted by. -/
def round24 (a : Int) (sticky : Bool) : Int × Nat :=
  let p := Nat.log2 a.natAbs
  if p ≤ 23 then (a, 0) else
    let k := p - 23
    let u : Int := 2 ^ k
    let q := a / u
    let r := a % u
    if 2 * r > u then (q + 1, k)
    else if 2 * r < u then (q, k)
    else if sticky then (q + 1, k)
    else if q % 2 = 0 then (q, k) else (q + 1, k)

/-- The largest magnitude of R174, (2^24 − 1) × 2^40. -/
def maxScalar : Rat := ((2 ^ 24 - 1) * 2 ^ 40 : Nat)

/-- The sum of a line rounded once, before saturation and flushing (R175). (DEDUCED, log 20.) -/
def lineRaw (ts : List Rat) : Rat :=
  match blockExp ts with
  | none => 0
  | some b =>
    let scale := pow2 (58 - b)
    let a : Int := (ts.map (fun t => (t * scale).floor)).sum
    let sticky := ts.any (fun t => ((t * scale).floor : Rat) ≠ t * scale)
    let mk := round24 a sticky
    (mk.1 : Rat) * pow2 ((mk.2 : Int) + b - 58)

/-- A line of the engine equations: one sum of products, rounded once, saturated at ±(2^24 − 1) × 2^40 and flushed to 0
below 2^−64 (R175). (DEDUCED, log 20.) -/
def rnd (ts : List Rat) : Rat :=
  let v := lineRaw ts
  if pow2 64 ≤ v.abs then (if 0 < v then maxScalar else -maxScalar)
  else if v.abs < pow2 (-64) then 0 else v

/-- The OVF flag of a line: its result saturated (R175). -/
def ovf (ts : List Rat) : Bool := pow2 64 ≤ (lineRaw ts).abs

/-- The binary32 word of a scalar of R174 (R176). -/
def toF32 (q : Rat) : Word :=
  if q = 0 then 0 else
    let e := leadExp q
    let m := (q.abs * pow2 (23 - e)).floor.toNat
    BitVec.ofNat 32 ((if q < 0 then 2 ^ 31 else 0) + (e + 127).toNat * 2 ^ 23 + m % 2 ^ 23)

/-- The value of a binary32 word that holds a normal number; a zero or a subnormal reads as 0 (R176). -/
def ofF32 (w : Word) : Rat :=
  let e := fld w 30 23
  if e = 0 then 0 else
    let m : Rat := ((2 ^ 23 + fld w 22 0 : Nat) : Rat) * pow2 ((e : Int) - 150)
    if flag w 31 then -m else m

/-- A host write of a binary32 value (R176): exact in [2^−64, 2^64), 0 below, not converted when infinite, NaN or ≥ 2^64. -/
def hostF32 (w : Word) : Option Word :=
  let e := fld w 30 23
  if e ≥ 127 + 64 then none
  else if e < 127 - 64 then some 0
  else some w

/-- A binary32 value is negative when its sign bit is 1 and it is not −0 (R176). -/
def negF32 (w : Word) : Bool := flag w 31 && fld w 30 0 ≠ 0

/-- A host write to a field stated as non-negative: a negative value is not taken (R176). -/
def hostF32NonNeg (w : Word) : Option Word := if negF32 w then none else hostF32 w

/-- The R174 value nearest to a constant of the equations (R175). -/
def konst (q : Rat) : Rat := rnd [q]

/-- The larger of two scalars. -/
def rmax (a b : Rat) : Rat := if a < b then b else a

/-- The smaller of two scalars. -/
def rmin (a b : Rat) : Rat := if b < a then b else a

/-- A scalar limited to [lo, hi]. -/
def rclamp (lo hi v : Rat) : Rat := rmax lo (rmin hi v)

/-- The integer square root rounded so that the result of a square root is correctly rounded at 24 bits: the root of q,
rounded once to nearest (R175 names one rounding per line). (DEDUCED, log 20.) -/
def rsqrt (q : Rat) : Rat :=
  if q ≤ 0 then 0 else
    let e := leadExp q
    -- scale q to an integer with at least 120 bits, with an even shift, and keep a sticky bit below the root
    let sh : Int := if (120 - e) % 2 = 0 then 120 - e else 121 - e
    let x := (q * pow2 sh).floor.toNat
    let r := Nat.sqrt x
    let exact := r * r = x ∧ ((x : Rat) = q * pow2 sh)
    let v : Rat := ((2 * r + (if exact then 0 else 1) : Nat) : Rat) * pow2 (-(sh / 2) - 1)
    rnd [v]

end Sys2Proof.Machine
end

