-- ==== Sys2Proof/Machine/RegMap.lean ====
section
/-! DEFINITION. The register map: every implemented register (R464) with its fields, their access codes (R11) and their
reset values, block by block, transcribed from the field tables of the chapters named at each block. A reserved bit has the
access code rsv (R10). Where the tables give a reset "from Trunk", "factory", "part-specific" or per index, the entry here
is 0 and the value comes from the Trunk, from Config or from the index (RegFile.lean). -/

namespace Sys2Proof.Machine

/-- The access codes of R11, and rsv for a reserved bit (R10). -/
inductive Acc where
  | rw | ro | rl | wa | lt | tv | rsv
deriving DecidableEq, Repr

/-- One row of a field table: bits [hi:lo], access code and reset value. -/
structure FieldDef where
  hi : Nat
  lo : Nat
  acc : Acc
  rst : Nat
deriving DecidableEq, Repr

/-- A register, or an array of count registers stride bytes apart, with its fields. -/
structure RegDef where
  base : Nat
  stride : Nat
  count : Nat
  fields : List FieldDef
deriving DecidableEq, Repr

/-- SYS block, R39. -/
def regsSys : List RegDef := [
  -- SYS_ID
  ⟨0x0000, 0, 1, [⟨31, 16, .ro, 0x4096⟩, ⟨15, 8, .rsv, 0⟩, ⟨7, 0, .ro, 1⟩]⟩,
  -- SYS_PLAN
  ⟨0x0004, 0, 1, [⟨31, 9, .rsv, 0⟩, ⟨8, 8, .rl, 0⟩, ⟨7, 1, .rsv, 0⟩, ⟨0, 0, .rw, 0⟩]⟩,
  -- SYS_EPOCH_LO
  ⟨0x0008, 0, 1, [⟨31, 0, .rl, 0⟩]⟩,
  -- SYS_EPOCH_HI
  ⟨0x000C, 0, 1, [⟨31, 16, .rsv, 0⟩, ⟨15, 0, .rl, 0⟩]⟩,
  -- SYS_ERA
  ⟨0x0010, 0, 1, [⟨31, 17, .rsv, 0⟩, ⟨16, 16, .rl, 0⟩, ⟨15, 0, .rl, 0⟩]⟩,
  -- SYS_CONV_STATE
  ⟨0x0014, 0, 1, [⟨31, 24, .rsv, 0⟩, ⟨23, 16, .rl, 0⟩, ⟨15, 15, .rsv, 0⟩, ⟨14, 8, .rl, 127⟩, ⟨7, 7, .rsv, 0⟩, ⟨6, 6, .rl, 0⟩, ⟨5, 3, .rl, 0⟩, ⟨2, 0, .rl, 0⟩]⟩,
  -- SYS_CONV_CFG
  ⟨0x0018, 0, 1, [⟨31, 16, .rw, 600⟩, ⟨15, 8, .rw, 60⟩, ⟨7, 2, .rsv, 0⟩, ⟨1, 1, .rw, 1⟩, ⟨0, 0, .rw, 0⟩]⟩,
  -- SYS_ARM_CFG
  ⟨0x0020, 4, 7, [⟨31, 11, .rsv, 0⟩, ⟨10, 0, .tv, 0⟩]⟩,
  -- SYS_ARM_STATUS
  ⟨0x0040, 4, 7, [⟨31, 31, .rl, 0⟩, ⟨30, 27, .rsv, 0⟩, ⟨26, 16, .rl, 0⟩, ⟨15, 11, .rsv, 0⟩, ⟨10, 0, .rl, 0⟩]⟩,
  -- SYS_SLACK
  ⟨0x0080, 4, 14, [⟨31, 25, .rsv, 0⟩, ⟨24, 24, .rl, 0⟩, ⟨23, 16, .lt, 0⟩, ⟨15, 8, .lt, 100⟩, ⟨7, 0, .rl, 100⟩]⟩,
  -- SYS_CLASS_TYPE
  ⟨0x0100, 16, 16, [⟨31, 16, .rw, 1⟩, ⟨15, 2, .rsv, 0⟩, ⟨1, 0, .rw, 0⟩]⟩,
  -- SYS_CLASS_CAP
  ⟨0x0104, 16, 16, [⟨31, 20, .rsv, 0⟩, ⟨19, 0, .rw, 0⟩]⟩,
  -- SYS_CLASS_VOLT
  ⟨0x0108, 16, 16, [⟨31, 18, .rsv, 0⟩, ⟨17, 0, .rw, 0⟩]⟩,
  -- SYS_CLASS_GAUGE
  ⟨0x010C, 16, 16, [⟨31, 16, .rw, 0⟩, ⟨15, 0, .rw, 0⟩]⟩]

/-- PWR block, R436. -/
def regsPwr : List RegDef := [
  -- PWR_STATUS
  ⟨0x0200, 0, 1, [⟨31, 29, .rl, 0⟩, ⟨28, 26, .rl, 0⟩, ⟨25, 25, .rl, 0⟩, ⟨24, 24, .rl, 0⟩, ⟨23, 23, .rl, 0⟩, ⟨22, 22, .rl, 0⟩, ⟨21, 21, .rl, 0⟩, ⟨20, 0, .rsv, 0⟩]⟩,
  -- PWR_CAUSE
  ⟨0x0204, 0, 1, [⟨31, 7, .rsv, 0⟩, ⟨6, 6, .lt, 0⟩, ⟨5, 5, .lt, 0⟩, ⟨4, 4, .lt, 0⟩, ⟨3, 3, .lt, 0⟩, ⟨2, 2, .lt, 0⟩, ⟨1, 1, .lt, 0⟩, ⟨0, 0, .lt, 0⟩]⟩,
  -- PWR_CAUSE_EN
  ⟨0x0208, 0, 1, [⟨31, 7, .rsv, 0⟩, ⟨6, 0, .rw, 0⟩]⟩,
  -- PWR_VCORE_CFG
  ⟨0x020C, 0, 1, [⟨31, 30, .rsv, 0⟩, ⟨29, 20, .rw, 700⟩, ⟨19, 10, .rw, 860⟩, ⟨9, 0, .rw, 800⟩]⟩,
  -- PWR_SLACK_CFG
  ⟨0x0210, 0, 1, [⟨31, 24, .rw, 30⟩, ⟨23, 16, .rw, 15⟩, ⟨15, 12, .rw, 10⟩, ⟨11, 8, .rw, 5⟩, ⟨7, 5, .rsv, 0⟩, ⟨4, 0, .rw, 16⟩]⟩,
  -- PWR_PMB_CFG
  ⟨0x0214, 0, 1, [⟨31, 31, .rw, 0⟩, ⟨30, 30, .rw, 1⟩, ⟨29, 25, .rw, 20⟩, ⟨24, 23, .rsv, 0⟩, ⟨22, 16, .rw, 0⟩, ⟨15, 15, .rsv, 0⟩, ⟨14, 8, .rw, 64⟩, ⟨7, 0, .rw, 20⟩]⟩,
  -- PWR_VCORE
  ⟨0x0218, 0, 1, [⟨31, 16, .rl, 0⟩, ⟨15, 0, .rl, 0⟩]⟩,
  -- PWR_BUDGET
  ⟨0x021C, 0, 1, [⟨31, 16, .tv, 0x910⟩, ⟨15, 0, .rsv, 0⟩]⟩,
  -- PWR_DRAW
  ⟨0x0220, 0, 1, [⟨31, 0, .rl, 0⟩]⟩,
  -- PWR_CFG
  ⟨0x0224, 0, 1, [⟨31, 4, .rsv, 0⟩, ⟨3, 0, .rw, 15⟩]⟩,
  -- PWR_DOM_LO
  ⟨0x0228, 0, 1, [⟨31, 0, .rl, 0⟩]⟩,
  -- PWR_DOM_HI
  ⟨0x022C, 0, 1, [⟨31, 18, .rsv, 0⟩, ⟨17, 0, .rl, 0⟩]⟩,
  -- PWR_TEMP
  ⟨0x0230, 0, 1, [⟨31, 16, .lt, 0x8000⟩, ⟨15, 0, .rl, 0⟩]⟩]

/-- STR block, R436. -/
def regsStr : List RegDef := [
  -- STR_STATUS
  ⟨0x0400, 0, 1, [⟨31, 28, .rl, 0⟩, ⟨27, 26, .rl, 0⟩, ⟨25, 24, .rl, 0⟩, ⟨23, 16, .rl, 0⟩, ⟨15, 0, .rl, 0⟩]⟩,
  -- STR_CAUSE
  ⟨0x0404, 0, 1, [⟨31, 5, .rsv, 0⟩, ⟨4, 4, .lt, 0⟩, ⟨3, 3, .lt, 0⟩, ⟨2, 2, .lt, 0⟩, ⟨1, 1, .lt, 0⟩, ⟨0, 0, .lt, 0⟩]⟩,
  -- STR_CAUSE_EN
  ⟨0x0408, 0, 1, [⟨31, 5, .rsv, 0⟩, ⟨4, 0, .rw, 0⟩]⟩,
  -- STR_CFG
  ⟨0x040C, 0, 1, [⟨31, 28, .rw, 0⟩, ⟨27, 24, .rsv, 0⟩, ⟨23, 16, .rw, 8⟩, ⟨15, 0, .rsv, 0⟩]⟩,
  -- STR_ACTION
  ⟨0x0410, 0, 1, [⟨31, 31, .wa, 0⟩, ⟨30, 30, .wa, 0⟩, ⟨29, 16, .rsv, 0⟩, ⟨15, 0, .wa, 0⟩]⟩,
  -- STR_IMAGE
  ⟨0x0414, 0, 1, [⟨31, 30, .rl, 0⟩, ⟨29, 26, .rl, 0⟩, ⟨25, 22, .rl, 0⟩, ⟨21, 16, .rsv, 0⟩, ⟨15, 0, .rl, 0⟩]⟩,
  -- STR_IMAGE_SEQ
  ⟨0x0418, 0, 1, [⟨31, 0, .rl, 0⟩]⟩,
  -- STR_REC_ADDR
  ⟨0x041C, 0, 1, [⟨31, 11, .rsv, 0⟩, ⟨10, 8, .rw, 0⟩, ⟨7, 7, .rsv, 0⟩, ⟨6, 0, .rw, 0⟩]⟩,
  -- STR_REC_DATA
  ⟨0x0420, 0, 1, [⟨31, 0, .rl, 0⟩]⟩,
  -- STR_IRQ_SUM
  ⟨0x0440, 0, 1, [⟨31, 15, .rsv, 0⟩, ⟨14, 0, .rl, 0⟩]⟩,
  -- STR_IRQ_EN
  ⟨0x0444, 0, 1, [⟨31, 15, .rsv, 0⟩, ⟨14, 0, .rw, 0⟩]⟩]

/-- REF block, R436. -/
def regsRef : List RegDef := [
  -- REF_STATUS
  ⟨0x0500, 0, 1, [⟨31, 30, .rl, 0⟩, ⟨29, 29, .rl, 1⟩, ⟨28, 28, .rl, 0⟩, ⟨27, 16, .rsv, 0⟩, ⟨15, 0, .lt, 0⟩]⟩,
  -- REF_CAUSE
  ⟨0x0504, 0, 1, [⟨31, 4, .rsv, 0⟩, ⟨3, 3, .lt, 0⟩, ⟨2, 2, .lt, 0⟩, ⟨1, 1, .lt, 0⟩, ⟨0, 0, .lt, 0⟩]⟩,
  -- REF_CAUSE_EN
  ⟨0x0508, 0, 1, [⟨31, 4, .rsv, 0⟩, ⟨3, 0, .rw, 0⟩]⟩,
  -- REF_CFG
  ⟨0x050C, 0, 1, [⟨31, 16, .rw, 0x1000⟩, ⟨15, 4, .rsv, 0⟩, ⟨3, 0, .rw, 8⟩]⟩,
  -- REF_HOLDOVER
  ⟨0x0510, 0, 1, [⟨31, 0, .rl, 0⟩]⟩,
  -- REF_BAND
  ⟨0x0514, 0, 1, [⟨31, 24, .rsv, 0⟩, ⟨23, 16, .rl, 0⟩, ⟨15, 10, .rsv, 0⟩, ⟨9, 8, .rl, 0⟩, ⟨7, 1, .rsv, 0⟩, ⟨0, 0, .rl, 0⟩]⟩]

/-- HAT block, R401. -/
def regsHat : List RegDef := [
  -- HAT_ID
  ⟨0x0600, 0, 1, [⟨31, 2, .rsv, 0⟩, ⟨1, 0, .ro, 0⟩]⟩,
  -- HAT_CTRL
  ⟨0x0604, 0, 1, [⟨31, 31, .wa, 0⟩, ⟨30, 23, .rsv, 0⟩, ⟨22, 22, .rw, 0⟩, ⟨21, 16, .rw, 0⟩, ⟨15, 0, .rw, 0⟩]⟩,
  -- HAT_STATUS
  ⟨0x0608, 0, 1, [⟨31, 28, .rl, 0⟩, ⟨27, 24, .rl, 0⟩, ⟨23, 16, .rsv, 0⟩, ⟨15, 0, .rl, 0⟩]⟩,
  -- HAT_KEEPALIVE
  ⟨0x060C, 0, 1, [⟨31, 1, .rsv, 0⟩, ⟨0, 0, .wa, 0⟩]⟩,
  -- HAT_RING_SEL
  ⟨0x0610, 0, 1, [⟨31, 6, .rsv, 0⟩, ⟨5, 4, .rw, 0⟩, ⟨3, 0, .rw, 0⟩]⟩,
  -- HAT_RING_BASE_LO
  ⟨0x0614, 0, 1, [⟨31, 12, .rw, 0⟩, ⟨11, 0, .rsv, 0⟩]⟩,
  -- HAT_RING_BASE_HI
  ⟨0x0618, 0, 1, [⟨31, 0, .rw, 0⟩]⟩,
  -- HAT_RING_CFG
  ⟨0x061C, 0, 1, [⟨31, 31, .rw, 0⟩, ⟨30, 29, .rsv, 0⟩, ⟨28, 24, .rw, 6⟩, ⟨23, 22, .rsv, 0⟩, ⟨21, 16, .rw, 0⟩, ⟨15, 4, .rsv, 0⟩, ⟨3, 0, .rw, 0⟩]⟩,
  -- HAT_RING_STAT
  ⟨0x0620, 0, 1, [⟨31, 31, .rl, 0⟩, ⟨30, 28, .rl, 0⟩, ⟨27, 17, .rsv, 0⟩, ⟨16, 16, .rl, 1⟩, ⟨15, 0, .rl, 0⟩]⟩,
  -- HAT_EV_HEAD
  ⟨0x0624, 0, 1, [⟨31, 16, .rsv, 0⟩, ⟨15, 0, .rw, 0⟩]⟩,
  -- HAT_EV_STAT
  ⟨0x0628, 0, 1, [⟨31, 16, .rsv, 0⟩, ⟨15, 0, .rl, 0⟩]⟩,
  -- HAT_ERR_LOG
  ⟨0x062C, 0, 1, [⟨31, 24, .rsv, 0⟩, ⟨23, 16, .lt, 0⟩, ⟨15, 0, .lt, 0⟩]⟩,
  -- HAT_ERR_ADDR
  ⟨0x0630, 0, 1, [⟨31, 21, .rsv, 0⟩, ⟨20, 20, .lt, 0⟩, ⟨19, 18, .rsv, 0⟩, ⟨17, 0, .lt, 0⟩]⟩,
  -- HAT_CAUSE
  ⟨0x0634, 0, 1, [⟨31, 5, .rsv, 0⟩, ⟨4, 4, .lt, 0⟩, ⟨3, 3, .lt, 0⟩, ⟨2, 2, .lt, 0⟩, ⟨1, 1, .lt, 0⟩, ⟨0, 0, .lt, 0⟩]⟩,
  -- HAT_CAUSE_EN
  ⟨0x0638, 0, 1, [⟨31, 5, .rsv, 0⟩, ⟨4, 0, .rw, 0⟩]⟩,
  -- HAT_MGMT_SEL
  ⟨0x063C, 0, 1, [⟨31, 2, .rsv, 0⟩, ⟨1, 0, .rw, 0⟩]⟩,
  -- HAT_OR_TAIL
  ⟨0x0640, 4, 16, [⟨31, 16, .rsv, 0⟩, ⟨15, 0, .rw, 0⟩]⟩,
  -- HAT_CR_HEAD
  ⟨0x0680, 4, 16, [⟨31, 16, .rsv, 0⟩, ⟨15, 0, .rw, 0⟩]⟩,
  -- HAT_OWN
  ⟨0x06C0, 4, 80, [⟨31, 8, .rsv, 0⟩, ⟨7, 4, .tv, 0⟩, ⟨3, 0, .tv, 0⟩]⟩]

/-- CEL block, R169. -/
def regsCel : List RegDef := [
  -- CEL_SEALED
  ⟨0x0800, 0, 1, [⟨31, 0, .rl, 0⟩]⟩,
  -- CEL_SEAL_STAT
  ⟨0x0804, 0, 1, [⟨31, 24, .rsv, 0⟩, ⟨23, 16, .lt, 0⟩, ⟨15, 8, .rl, 0⟩, ⟨7, 0, .rl, 0⟩]⟩,
  -- CEL_CAUSE
  ⟨0x0808, 0, 1, [⟨31, 6, .rsv, 0⟩, ⟨5, 5, .lt, 0⟩, ⟨4, 4, .lt, 0⟩, ⟨3, 3, .lt, 0⟩, ⟨2, 2, .lt, 0⟩, ⟨1, 1, .lt, 0⟩, ⟨0, 0, .lt, 0⟩]⟩,
  -- CEL_CAUSE_EN
  ⟨0x080C, 0, 1, [⟨31, 6, .rsv, 0⟩, ⟨5, 0, .rw, 0⟩]⟩,
  -- CEL_CNT_DEADLINE
  ⟨0x0810, 0, 1, [⟨31, 0, .rl, 0⟩]⟩,
  -- CEL_CNT_AFTER_SEAL
  ⟨0x0814, 0, 1, [⟨31, 0, .rl, 0⟩]⟩,
  -- CEL_CNT_DUPLICATE
  ⟨0x0818, 0, 1, [⟨31, 0, .rl, 0⟩]⟩,
  -- CEL_CNT_ECC_CORR
  ⟨0x081C, 0, 1, [⟨31, 0, .rl, 0⟩]⟩,
  -- CEL_CNT_ECC_UNCORR
  ⟨0x0820, 0, 1, [⟨31, 0, .rl, 0⟩]⟩,
  -- CEL_CNT_LATE_USED
  ⟨0x0824, 0, 1, [⟨31, 0, .rl, 0⟩]⟩,
  -- CEL_CTR_CLEAR
  ⟨0x0828, 0, 1, [⟨31, 1, .rsv, 0⟩, ⟨0, 0, .wa, 0⟩]⟩,
  -- CEL_ECC_CFG
  ⟨0x082C, 0, 1, [⟨31, 8, .rsv, 0⟩, ⟨7, 0, .rw, 8⟩]⟩,
  -- CEL_SPARE
  ⟨0x0830, 0, 1, [⟨31, 24, .rl, 0⟩, ⟨23, 16, .rl, 0⟩, ⟨15, 8, .rl, 0⟩, ⟨7, 0, .rl, 0⟩]⟩,
  -- CEL_SNAP_CREDIT
  ⟨0x0840, 4, 4, [⟨31, 24, .rl, 0⟩, ⟨23, 18, .rsv, 0⟩, ⟨17, 0, .rl, 0x28000⟩]⟩,
  -- CEL_CRATE_CFG
  ⟨0x0860, 0, 1, [⟨31, 16, .rw, 0x400⟩, ⟨15, 6, .rsv, 0⟩, ⟨5, 0, .rw, 0⟩]⟩,
  -- CEL_CRATE_SEL
  ⟨0x0864, 0, 1, [⟨31, 2, .rsv, 0⟩, ⟨1, 0, .rw, 0⟩]⟩,
  -- CEL_CRATE_STAT
  ⟨0x0868, 0, 1, [⟨31, 24, .rl, 0⟩, ⟨23, 20, .rl, 0⟩, ⟨19, 16, .rl, 0⟩, ⟨15, 12, .rl, 0⟩, ⟨11, 10, .rl, 0⟩, ⟨9, 0, .rsv, 0⟩]⟩,
  -- CEL_CRATE_EPOCH
  ⟨0x086C, 0, 1, [⟨31, 0, .rl, 0⟩]⟩,
  -- CEL_CRATE_PARTS
  ⟨0x0870, 0, 1, [⟨31, 29, .rsv, 0⟩, ⟨28, 16, .rl, 0⟩, ⟨15, 13, .rsv, 0⟩, ⟨12, 0, .rl, 0⟩]⟩,
  -- CEL_CRATE_FAIL
  ⟨0x0874, 0, 1, [⟨31, 29, .rsv, 0⟩, ⟨28, 16, .rl, 0⟩, ⟨15, 12, .rsv, 0⟩, ⟨11, 0, .rl, 0⟩]⟩]

/-- LNK block, R99 and R135. -/
def regsLnk : List RegDef := [
  -- LNK_LANE_EN
  ⟨0x0A00, 4, 16, [⟨31, 0, .rw, 0⟩]⟩,
  -- LNK_LANE_ACT
  ⟨0x0A40, 4, 16, [⟨31, 0, .rl, 0⟩]⟩,
  -- LNK_SVC_CFG
  ⟨0x0A80, 0, 1, [⟨31, 16, .rsv, 0⟩, ⟨15, 8, .rw, 8⟩, ⟨7, 4, .rsv, 0⟩, ⟨3, 0, .rw, 3⟩]⟩,
  -- LNK_CAUSE
  ⟨0x0A84, 0, 1, [⟨31, 4, .rsv, 0⟩, ⟨3, 3, .lt, 0⟩, ⟨2, 2, .lt, 0⟩, ⟨1, 1, .lt, 0⟩, ⟨0, 0, .lt, 0⟩]⟩,
  -- LNK_CAUSE_EN
  ⟨0x0A88, 0, 1, [⟨31, 4, .rsv, 0⟩, ⟨3, 0, .rw, 0⟩]⟩,
  -- LNK_TBL_ADDR
  ⟨0x0B00, 0, 1, [⟨31, 31, .rw, 0⟩, ⟨30, 28, .rsv, 0⟩, ⟨27, 16, .rw, 0⟩, ⟨15, 5, .rsv, 0⟩, ⟨4, 0, .rw, 0⟩]⟩,
  -- LNK_TBL_DATA
  ⟨0x0B04, 0, 1, [⟨31, 0, .rl, 0⟩]⟩,
  -- LNK_TRIM_CFG
  ⟨0x0B08, 0, 1, [⟨31, 24, .rw, 16⟩, ⟨23, 16, .rw, 64⟩, ⟨15, 8, .rw, 2⟩, ⟨7, 0, .rw, 50⟩]⟩,
  -- LNK_BRIDGE_LIMIT
  ⟨0x0B0C, 0, 1, [⟨31, 12, .rsv, 0⟩, ⟨11, 0, .rw, 60⟩]⟩,
  -- LNK_HANDBACK
  ⟨0x0B10, 0, 1, [⟨31, 31, .wa, 0⟩, ⟨30, 17, .rsv, 0⟩, ⟨16, 16, .rw, 0⟩, ⟨15, 9, .rsv, 0⟩, ⟨8, 0, .rw, 0⟩]⟩,
  -- LNK_ACTION
  ⟨0x0B14, 0, 1, [⟨31, 31, .wa, 0⟩, ⟨30, 28, .rsv, 0⟩, ⟨27, 24, .rw, 0⟩, ⟨23, 9, .rsv, 0⟩, ⟨8, 0, .rw, 0⟩]⟩,
  -- LNK_ACTION_STAT
  ⟨0x0B18, 0, 1, [⟨31, 3, .rsv, 0⟩, ⟨2, 0, .rl, 0⟩]⟩,
  -- LNK_STR_CAUSE
  ⟨0x0B1C, 0, 1, [⟨31, 9, .rsv, 0⟩, ⟨8, 8, .lt, 0⟩, ⟨7, 7, .lt, 0⟩, ⟨6, 6, .lt, 0⟩, ⟨5, 5, .lt, 0⟩, ⟨4, 4, .lt, 0⟩, ⟨3, 3, .lt, 0⟩, ⟨2, 2, .lt, 0⟩, ⟨1, 1, .lt, 0⟩, ⟨0, 0, .lt, 0⟩]⟩,
  -- LNK_STR_CAUSE_EN
  ⟨0x0B20, 0, 1, [⟨31, 9, .rsv, 0⟩, ⟨8, 0, .rw, 0⟩]⟩,
  -- LNK_BRIDGE_EN
  ⟨0x0B40, 4, 8, [⟨31, 0, .rw, 0⟩]⟩,
  -- LNK_BRIDGE_OK
  ⟨0x0B60, 4, 8, [⟨31, 0, .rl, 0⟩]⟩,
  -- LNK_QUAR
  ⟨0x0B80, 4, 16, [⟨31, 0, .rl, 0⟩]⟩,
  -- LNK_PAIR_BRIDGED
  ⟨0x0BC0, 4, 8, [⟨31, 0, .rl, 0⟩]⟩]

/-- EDG block, R283. -/
def regsEdg : List RegDef := [
  -- EDG_CFG
  ⟨0x0E00, 0, 1, [⟨31, 31, .rw, 1⟩, ⟨30, 28, .rw, 3⟩, ⟨27, 24, .rw, 2⟩, ⟨23, 16, .rw, 8⟩, ⟨15, 0, .rsv, 0⟩]⟩,
  -- EDG_STATUS
  ⟨0x0E04, 0, 1, [⟨31, 24, .rsv, 0⟩, ⟨23, 23, .rsv, 0⟩, ⟨22, 16, .rl, 0⟩, ⟨15, 15, .rsv, 0⟩, ⟨14, 8, .rl, 0⟩, ⟨7, 7, .rsv, 0⟩, ⟨6, 0, .rl, 0⟩]⟩,
  -- EDG_CAUSE
  ⟨0x0E08, 0, 1, [⟨31, 5, .rsv, 0⟩, ⟨4, 4, .lt, 0⟩, ⟨3, 3, .lt, 0⟩, ⟨2, 2, .lt, 0⟩, ⟨1, 1, .lt, 0⟩, ⟨0, 0, .lt, 0⟩]⟩,
  -- EDG_CAUSE_EN
  ⟨0x0E0C, 0, 1, [⟨31, 5, .rsv, 0⟩, ⟨4, 0, .rw, 0⟩]⟩,
  -- EDG_FORCE
  ⟨0x0E10, 0, 1, [⟨31, 31, .wa, 0⟩, ⟨30, 30, .wa, 0⟩, ⟨29, 29, .wa, 0⟩, ⟨28, 18, .rsv, 0⟩, ⟨17, 16, .rw, 3⟩, ⟨15, 12, .rsv, 0⟩, ⟨11, 0, .rw, 0⟩]⟩,
  -- EDG_FORCE_STAT
  ⟨0x0E14, 0, 1, [⟨31, 16, .rl, 0⟩, ⟨15, 3, .rsv, 0⟩, ⟨2, 0, .rl, 0⟩]⟩,
  -- EDG_BYPASS
  ⟨0x0E18, 0, 1, [⟨31, 31, .wa, 0⟩, ⟨30, 12, .rsv, 0⟩, ⟨11, 0, .rw, 0⟩]⟩,
  -- EDG_BYPASS_STAT
  ⟨0x0E1C, 0, 1, [⟨31, 3, .rsv, 0⟩, ⟨2, 0, .rl, 0⟩]⟩,
  -- EDG_PROF_ADDR
  ⟨0x0E20, 0, 1, [⟨31, 16, .rsv, 0⟩, ⟨15, 12, .rw, 0⟩, ⟨11, 9, .rsv, 0⟩, ⟨8, 8, .rw, 0⟩, ⟨7, 4, .rw, 0⟩, ⟨3, 2, .rsv, 0⟩, ⟨1, 0, .rw, 0⟩]⟩,
  -- EDG_PROF_DATA
  ⟨0x0E24, 0, 1, [⟨31, 25, .rsv, 0⟩, ⟨24, 0, .rw, 0⟩]⟩,
  -- EDG_TBL_ADDR
  ⟨0x0E28, 0, 1, [⟨31, 14, .rsv, 0⟩, ⟨13, 2, .rw, 0⟩, ⟨1, 0, .rw, 0⟩]⟩,
  -- EDG_TBL_DATA
  ⟨0x0E2C, 0, 1, [⟨31, 0, .rl, 0⟩]⟩,
  -- EDG_GRP_SORT
  ⟨0x0E40, 4, 7, [⟨31, 16, .rw, 328⟩, ⟨15, 8, .rw, 16⟩, ⟨7, 0, .rw, 80⟩]⟩,
  -- EDG_GRP_DRIVE
  ⟨0x0E60, 4, 7, [⟨31, 8, .rsv, 0⟩, ⟨7, 4, .rw, 0⟩, ⟨3, 0, .rw, 0⟩]⟩,
  -- EDG_GRP_IBAND
  ⟨0x0E80, 4, 7, [⟨31, 0, .rw, 0x41200000⟩]⟩,
  -- EDG_GRP_IPROF
  ⟨0x0EA0, 4, 7, [⟨31, 0, .rw, 0⟩]⟩,
  -- EDG_CLS_DT
  ⟨0x0F00, 16, 16, [⟨31, 24, .rw, 40⟩, ⟨23, 16, .rw, 8⟩, ⟨15, 8, .rw, 24⟩, ⟨7, 0, .rw, 4⟩]⟩,
  -- EDG_CLS_WIN
  ⟨0x0F04, 16, 16, [⟨31, 24, .rw, 20⟩, ⟨23, 16, .rw, 5⟩, ⟨15, 14, .rsv, 0⟩, ⟨13, 0, .rw, 0x1770⟩]⟩,
  -- EDG_CLS_GATE
  ⟨0x0F08, 16, 16, [⟨31, 24, .rw, 0⟩, ⟨23, 16, .rw, 10⟩, ⟨15, 0, .rsv, 0⟩]⟩]

/-- CTL block, R212. -/
def regsCtl1 : List RegDef := [
  -- CTL_STATUS
  ⟨0x1200, 0, 1, [⟨31, 31, .rl, 0⟩, ⟨30, 23, .rsv, 0⟩, ⟨22, 16, .rl, 0⟩, ⟨15, 0, .rsv, 0⟩]⟩,
  -- CTL_STOP
  ⟨0x1204, 0, 1, [⟨31, 16, .rw, 20⟩, ⟨15, 0, .rsv, 0⟩]⟩,
  -- CTL_CAUSE
  ⟨0x1208, 0, 1, [⟨31, 7, .rsv, 0⟩, ⟨6, 6, .lt, 0⟩, ⟨5, 5, .lt, 0⟩, ⟨4, 4, .lt, 0⟩, ⟨3, 3, .lt, 0⟩, ⟨2, 2, .lt, 0⟩, ⟨1, 1, .lt, 0⟩, ⟨0, 0, .lt, 0⟩]⟩,
  -- CTL_CAUSE_EN
  ⟨0x120C, 0, 1, [⟨31, 7, .rsv, 0⟩, ⟨6, 0, .rw, 0⟩]⟩,
  -- CTL_SLOT_SEL
  ⟨0x1210, 0, 1, [⟨31, 9, .rsv, 0⟩, ⟨8, 8, .rw, 0⟩, ⟨7, 6, .rsv, 0⟩, ⟨5, 0, .rw, 0⟩]⟩,
  -- CTL_ACTIVE_BANK_LO
  ⟨0x1214, 0, 1, [⟨31, 0, .rw, 0⟩]⟩,
  -- CTL_ACTIVE_BANK_HI
  ⟨0x1218, 0, 1, [⟨31, 0, .rw, 0⟩]⟩,
  -- CTL_ACTION
  ⟨0x121C, 0, 1, [⟨31, 31, .wa, 0⟩, ⟨30, 11, .rsv, 0⟩, ⟨10, 8, .rw, 0⟩, ⟨7, 4, .rsv, 0⟩, ⟨3, 0, .rw, 0⟩]⟩,
  -- CTL_COMPOSE
  ⟨0x1220, 0, 1, [⟨31, 24, .rw, 230⟩, ⟨23, 16, .rsv, 0⟩, ⟨15, 0, .rw, 40⟩]⟩,
  -- CTL_COMPOSE_STAT
  ⟨0x1224, 0, 1, [⟨31, 28, .rsv, 0⟩, ⟨27, 16, .lt, 0⟩, ⟨15, 12, .rsv, 0⟩, ⟨11, 0, .rl, 0⟩]⟩,
  -- CTL_W_WIRE
  ⟨0x1240, 0, 1, [⟨31, 27, .rw, 0⟩, ⟨26, 24, .rsv, 0⟩, ⟨23, 16, .rw, 255⟩, ⟨15, 8, .rw, 0⟩, ⟨7, 0, .rw, 0⟩]⟩,
  -- CTL_W_MODE
  ⟨0x1244, 0, 1, [⟨31, 24, .rw, 0⟩, ⟨23, 23, .rw, 0⟩, ⟨22, 20, .rw, 0⟩, ⟨19, 19, .rw, 0⟩, ⟨18, 18, .rw, 0⟩, ⟨17, 17, .rw, 0⟩, ⟨16, 16, .rw, 0⟩, ⟨15, 15, .rw, 0⟩, ⟨14, 14, .rw, 0⟩, ⟨13, 2, .rsv, 0⟩, ⟨1, 0, .rw, 0⟩]⟩,
  -- CTL_W_KP
  ⟨0x1248, 0, 1, [⟨31, 0, .rw, 0⟩]⟩,
  -- CTL_W_KI
  ⟨0x124C, 0, 1, [⟨31, 0, .rw, 0⟩]⟩,
  -- CTL_W_KD
  ⟨0x1250, 0, 1, [⟨31, 0, .rw, 0⟩]⟩,
  -- CTL_W_TF
  ⟨0x1254, 0, 1, [⟨31, 0, .rw, 0⟩]⟩,
  -- CTL_W_KT
  ⟨0x1258, 0, 1, [⟨31, 0, .rw, 0⟩]⟩,
  -- CTL_W_KFB
  ⟨0x125C, 0, 1, [⟨31, 0, .rw, 0x3f800000⟩]⟩,
  -- CTL_W_KFF
  ⟨0x1260, 0, 1, [⟨31, 0, .rw, 0⟩]⟩,
  -- CTL_W_UMIN
  ⟨0x1264, 0, 1, [⟨31, 0, .rw, 0xdf000000⟩]⟩,
  -- CTL_W_UMAX
  ⟨0x1268, 0, 1, [⟨31, 0, .rw, 0x5f000000⟩]⟩,
  -- CTL_W_IINIT
  ⟨0x126C, 0, 1, [⟨31, 0, .rw, 0⟩]⟩,
  -- CTL_W_RATE
  ⟨0x1270, 0, 1, [⟨31, 0, .rw, 0⟩]⟩,
  -- CTL_W_SLEW_UP
  ⟨0x1274, 0, 1, [⟨31, 0, .rw, 0⟩]⟩,
  -- CTL_W_SLEW_DN
  ⟨0x1278, 0, 1, [⟨31, 0, .rw, 0⟩]⟩,
  -- CTL_W_KRC
  ⟨0x127C, 0, 1, [⟨31, 0, .rw, 0⟩]⟩,
  -- CTL_W_QC
  ⟨0x1280, 0, 1, [⟨31, 0, .rw, 0x3f800000⟩]⟩,
  -- CTL_W_QS
  ⟨0x1284, 0, 1, [⟨31, 0, .rw, 0⟩]⟩,
  -- CTL_L_STATE
  ⟨0x12A0, 0, 1, [⟨31, 0, .rl, 0⟩]⟩,
  -- CTL_L_R
  ⟨0x12A4, 0, 1, [⟨31, 0, .rl, 0⟩]⟩,
  -- CTL_L_Y
  ⟨0x12A8, 0, 1, [⟨31, 0, .rl, 0⟩]⟩,
  -- CTL_L_I
  ⟨0x12AC, 0, 1, [⟨31, 0, .rl, 0⟩]⟩,
  -- CTL_L_U
  ⟨0x12B0, 0, 1, [⟨31, 0, .rl, 0⟩]⟩,
  -- CTL_SP
  ⟨0x1300, 4, 64, [⟨31, 0, .rw, 0⟩]⟩,
  -- CTL_IN_SCALE
  ⟨0x1400, 4, 48, [⟨31, 0, .rw, 0x3f800000⟩]⟩,
  -- CTL_RC_STAT
  ⟨0x1500, 4, 8, [⟨31, 31, .rl, 0⟩, ⟨30, 30, .lt, 0⟩, ⟨29, 23, .rsv, 0⟩, ⟨22, 16, .rl, 0⟩, ⟨15, 10, .rsv, 0⟩, ⟨9, 0, .rl, 0⟩]⟩,
  -- CTL_GEN_CFG
  ⟨0x1600, 32, 4, [⟨31, 16, .rw, 0⟩, ⟨15, 15, .rsv, 0⟩, ⟨14, 12, .rw, 0⟩, ⟨11, 10, .rsv, 0⟩, ⟨9, 4, .rw, 0⟩, ⟨3, 2, .rw, 3⟩, ⟨1, 0, .rw, 0⟩]⟩,
  -- CTL_GEN_AMP
  ⟨0x1604, 32, 4, [⟨31, 0, .rw, 0⟩]⟩,
  -- CTL_GEN_FREQ
  ⟨0x1608, 32, 4, [⟨31, 0, .rw, 0⟩]⟩,
  -- CTL_GEN_PHASE
  ⟨0x160C, 32, 4, [⟨31, 0, .rw, 0⟩]⟩]

/-- CTL block, R212. -/
def regsCtl2 : List RegDef := [
  -- CTL_GEN_CTRL
  ⟨0x1610, 32, 4, [⟨31, 31, .wa, 0⟩, ⟨30, 30, .wa, 0⟩, ⟨29, 0, .rsv, 0⟩]⟩,
  -- CTL_GEN_STAT
  ⟨0x1614, 32, 4, [⟨31, 31, .rl, 0⟩, ⟨30, 28, .rl, 0⟩, ⟨27, 16, .rsv, 0⟩, ⟨15, 0, .rl, 0⟩]⟩,
  -- CTL_TONE_SEL
  ⟨0x1680, 0, 1, [⟨31, 6, .rsv, 0⟩, ⟨5, 4, .rw, 0⟩, ⟨3, 0, .rw, 0⟩]⟩,
  -- CTL_TONE_CFG
  ⟨0x1684, 0, 1, [⟨31, 22, .rw, 0⟩, ⟨21, 0, .rw, 0⟩]⟩,
  -- CTL_TONE_AMP
  ⟨0x1688, 0, 1, [⟨31, 0, .rw, 0⟩]⟩,
  -- CTL_PL_CFG
  ⟨0x1700, 32, 5, [⟨31, 31, .rw, 0⟩, ⟨30, 20, .rsv, 0⟩, ⟨19, 12, .rw, 8⟩, ⟨11, 8, .rw, 3⟩, ⟨7, 4, .rsv, 0⟩, ⟨3, 0, .rw, 10⟩]⟩,
  -- CTL_PL_TOL_ABS
  ⟨0x1704, 32, 5, [⟨31, 0, .rw, 0⟩]⟩,
  -- CTL_PL_TOL_REL
  ⟨0x1708, 32, 5, [⟨31, 0, .rw, 0⟩]⟩,
  -- CTL_PL_STAT
  ⟨0x170C, 32, 5, [⟨31, 31, .rl, 0⟩, ⟨30, 30, .lt, 0⟩, ⟨29, 28, .rl, 0⟩, ⟨27, 19, .rsv, 0⟩, ⟨18, 16, .rl, 0⟩, ⟨15, 0, .lt, 0⟩]⟩,
  -- CTL_PL_RES
  ⟨0x1710, 32, 5, [⟨31, 0, .rl, 0⟩]⟩,
  -- CTL_PL_LARM
  ⟨0x17A0, 0, 1, [⟨31, 0, .rw, 0⟩]⟩,
  -- CTL_CAP_CFG
  ⟨0x1800, 0, 1, [⟨31, 16, .rw, 0⟩, ⟨15, 4, .rw, 0⟩, ⟨3, 3, .rsv, 0⟩, ⟨2, 0, .rw, 0⟩]⟩,
  -- CTL_CAP_CTRL
  ⟨0x1804, 0, 1, [⟨31, 31, .wa, 0⟩, ⟨30, 30, .wa, 0⟩, ⟨29, 0, .rsv, 0⟩]⟩,
  -- CTL_CAP_STAT
  ⟨0x1808, 0, 1, [⟨31, 29, .rl, 0⟩, ⟨28, 28, .rsv, 0⟩, ⟨27, 16, .rl, 0⟩, ⟨15, 13, .rsv, 0⟩, ⟨12, 0, .rl, 0⟩]⟩,
  -- CTL_CAP_SRC
  ⟨0x1810, 4, 4, [⟨31, 10, .rsv, 0⟩, ⟨9, 8, .rw, 0⟩, ⟨7, 0, .rw, 0⟩]⟩,
  -- CTL_CAP_ADDR
  ⟨0x1820, 0, 1, [⟨31, 14, .rsv, 0⟩, ⟨13, 12, .rw, 0⟩, ⟨11, 0, .rw, 0⟩]⟩,
  -- CTL_CAP_DATA
  ⟨0x1824, 0, 1, [⟨31, 0, .rl, 0⟩]⟩,
  -- CTL_ARM_W
  ⟨0x1900, 16, 6, [⟨31, 0, .rl, 0⟩]⟩,
  -- CTL_ARM_VSUM
  ⟨0x1904, 16, 6, [⟨31, 0, .rl, 0⟩]⟩,
  -- CTL_ARM_VNEG
  ⟨0x1908, 16, 6, [⟨31, 0, .rl, 0⟩]⟩,
  -- CTL_ARM_CNT
  ⟨0x190C, 16, 6, [⟨31, 27, .rsv, 0⟩, ⟨26, 16, .rl, 0⟩, ⟨15, 11, .rsv, 0⟩, ⟨10, 0, .rl, 0⟩]⟩]

/-- GRD block, R247. -/
def regsGrd1 : List RegDef := [
  -- GRD_STATUS
  ⟨0x1A00, 0, 1, [⟨31, 31, .rl, 0⟩, ⟨30, 30, .rl, 0⟩, ⟨29, 28, .rl, 0⟩, ⟨27, 26, .rl, 0⟩, ⟨25, 25, .rl, 0⟩, ⟨24, 24, .rl, 0⟩, ⟨23, 23, .rl, 0⟩, ⟨22, 22, .rl, 0⟩, ⟨21, 21, .rl, 0⟩, ⟨20, 20, .rl, 0⟩, ⟨19, 16, .rl, 1⟩, ⟨15, 13, .rsv, 0⟩, ⟨12, 12, .rl, 0⟩, ⟨11, 8, .rl, 0⟩, ⟨7, 0, .rl, 0⟩]⟩,
  -- GRD_CAUSE
  ⟨0x1A04, 0, 1, [⟨31, 13, .rsv, 0⟩, ⟨12, 12, .lt, 0⟩, ⟨11, 11, .lt, 0⟩, ⟨10, 10, .lt, 0⟩, ⟨9, 9, .lt, 0⟩, ⟨8, 8, .lt, 0⟩, ⟨7, 7, .lt, 0⟩, ⟨6, 6, .lt, 0⟩, ⟨5, 5, .lt, 0⟩, ⟨4, 4, .lt, 0⟩, ⟨3, 3, .lt, 0⟩, ⟨2, 2, .lt, 0⟩, ⟨1, 1, .lt, 0⟩, ⟨0, 0, .lt, 0⟩]⟩,
  -- GRD_CAUSE_EN
  ⟨0x1A08, 0, 1, [⟨31, 13, .rsv, 0⟩, ⟨12, 0, .rw, 0⟩]⟩,
  -- GRD_CFG
  ⟨0x1A0C, 0, 1, [⟨31, 31, .rw, 0⟩, ⟨30, 30, .rw, 0⟩, ⟨29, 29, .tv, 0⟩, ⟨28, 28, .rw, 0⟩, ⟨27, 26, .rw, 0⟩, ⟨25, 22, .rsv, 0⟩, ⟨21, 16, .rw, 0⟩, ⟨15, 4, .rsv, 0⟩, ⟨3, 3, .tv, 0⟩, ⟨2, 2, .tv, 0⟩, ⟨1, 1, .tv, 0⟩, ⟨0, 0, .tv, 0⟩]⟩,
  -- GRD_ACTION
  ⟨0x1A10, 0, 1, [⟨31, 31, .wa, 0⟩, ⟨30, 4, .rsv, 0⟩, ⟨3, 0, .rw, 0⟩]⟩,
  -- GRD_ACTION_STAT
  ⟨0x1A14, 0, 1, [⟨31, 3, .rsv, 0⟩, ⟨2, 0, .rl, 0⟩]⟩,
  -- GRD_ANGLE
  ⟨0x1A18, 0, 1, [⟨31, 0, .rl, 0⟩]⟩,
  -- GRD_STEP
  ⟨0x1A1C, 0, 1, [⟨31, 0, .rl, 0⟩]⟩,
  -- GRD_TIME0
  ⟨0x1A20, 0, 1, [⟨31, 16, .rw, 0x1000⟩, ⟨15, 0, .tv, 0x800⟩]⟩,
  -- GRD_TIME1
  ⟨0x1A24, 0, 1, [⟨31, 16, .tv, 64⟩, ⟨15, 0, .tv, 0x800⟩]⟩,
  -- GRD_TIME2
  ⟨0x1A28, 0, 1, [⟨31, 16, .tv, 0xbb8⟩, ⟨15, 8, .tv, 4⟩, ⟨7, 0, .tv, 10⟩]⟩,
  -- GRD_TIME3
  ⟨0x1A2C, 0, 1, [⟨31, 16, .tv, 100⟩, ⟨15, 0, .tv, 200⟩]⟩,
  -- GRD_TIME4
  ⟨0x1A30, 0, 1, [⟨31, 24, .tv, 20⟩, ⟨23, 16, .tv, 20⟩, ⟨15, 12, .tv, 3⟩, ⟨11, 8, .tv, 3⟩, ⟨7, 0, .tv, 16⟩]⟩,
  -- GRD_TIME5
  ⟨0x1A34, 0, 1, [⟨31, 16, .rw, 200⟩, ⟨15, 0, .rw, 500⟩]⟩,
  -- GRD_FORM_SLOTS_LO
  ⟨0x1A38, 0, 1, [⟨31, 0, .rw, 0⟩]⟩,
  -- GRD_FORM_SLOTS_HI
  ⟨0x1A3C, 0, 1, [⟨31, 0, .rw, 0⟩]⟩,
  -- GRD_CRV_SEL
  ⟨0x1A40, 0, 1, [⟨31, 9, .rsv, 0⟩, ⟨8, 8, .rw, 0⟩, ⟨7, 3, .rsv, 0⟩, ⟨2, 0, .rw, 0⟩]⟩,
  -- GRD_CRV_BANK
  ⟨0x1A44, 0, 1, [⟨31, 1, .rsv, 0⟩, ⟨0, 0, .rw, 0⟩]⟩,
  -- GRD_CRV_CFG
  ⟨0x1A48, 0, 1, [⟨31, 27, .rsv, 0⟩, ⟨26, 24, .rw, 0⟩, ⟨23, 20, .rw, 0⟩, ⟨19, 18, .rw, 0⟩, ⟨17, 16, .rw, 0⟩, ⟨15, 15, .rw, 0⟩, ⟨14, 14, .rsv, 0⟩, ⟨13, 8, .rw, 0⟩, ⟨7, 0, .rw, 1⟩]⟩,
  -- GRD_CRV_XON
  ⟨0x1A4C, 0, 1, [⟨31, 0, .rw, 0⟩]⟩,
  -- GRD_CRV_XOFF
  ⟨0x1A50, 0, 1, [⟨31, 0, .rw, 0⟩]⟩,
  -- GRD_CRV_LIVE
  ⟨0x1A54, 0, 1, [⟨31, 16, .rsv, 0⟩, ⟨15, 8, .rl, 0⟩, ⟨7, 0, .rl, 0⟩]⟩,
  -- GRD_CH_P
  ⟨0x1A58, 0, 1, [⟨31, 0, .rl, 0⟩]⟩,
  -- GRD_CH_THETA
  ⟨0x1A5C, 0, 1, [⟨31, 0, .rl, 0⟩]⟩,
  -- GRD_PAR[0]
  ⟨0x1B00, 0, 1, [⟨31, 0, .rw, 0⟩]⟩,
  -- GRD_PAR[1]
  ⟨0x1B04, 0, 1, [⟨31, 0, .rw, 0⟩]⟩,
  -- GRD_PAR[2]
  ⟨0x1B08, 0, 1, [⟨31, 0, .rw, 0x42480000⟩]⟩,
  -- GRD_PAR[3]
  ⟨0x1B0C, 0, 1, [⟨31, 0, .tv, 0⟩]⟩,
  -- GRD_PAR[4]
  ⟨0x1B10, 0, 1, [⟨31, 0, .rw, 0x3fb4fdf4⟩]⟩,
  -- GRD_PAR[5]
  ⟨0x1B14, 0, 1, [⟨31, 0, .rw, 0x41f00000⟩]⟩,
  -- GRD_PAR[6]
  ⟨0x1B18, 0, 1, [⟨31, 0, .rw, 0x44610000⟩]⟩,
  -- GRD_PAR[7]
  ⟨0x1B1C, 0, 1, [⟨31, 0, .tv, 0x42340000⟩]⟩,
  -- GRD_PAR[8]
  ⟨0x1B20, 0, 1, [⟨31, 0, .tv, 0x425c0000⟩]⟩,
  -- GRD_PAR[9]
  ⟨0x1B24, 0, 1, [⟨31, 0, .rw, 0x3e99999a⟩]⟩,
  -- GRD_PAR[10]
  ⟨0x1B28, 0, 1, [⟨31, 0, .rw, 0x3e19999a⟩]⟩,
  -- GRD_PAR[11]
  ⟨0x1B2C, 0, 1, [⟨31, 0, .rw, 0x3d4ccccd⟩]⟩,
  -- GRD_PAR[12]
  ⟨0x1B30, 0, 1, [⟨31, 0, .tv, 0x3f000000⟩]⟩,
  -- GRD_PAR[13]
  ⟨0x1B34, 0, 1, [⟨31, 0, .rw, 0⟩]⟩,
  -- GRD_PAR[14]
  ⟨0x1B38, 0, 1, [⟨31, 0, .rw, 0⟩]⟩,
  -- GRD_PAR[15]
  ⟨0x1B3C, 0, 1, [⟨31, 0, .rw, 0⟩]⟩]

/-- GRD block, R247. -/
def regsGrd2 : List RegDef := [
  -- GRD_PAR[16]
  ⟨0x1B40, 0, 1, [⟨31, 0, .rw, 0⟩]⟩,
  -- GRD_PAR[17]
  ⟨0x1B44, 0, 1, [⟨31, 0, .tv, 0x3f59999a⟩]⟩,
  -- GRD_PAR[18]
  ⟨0x1B48, 0, 1, [⟨31, 0, .tv, 0x3f933333⟩]⟩,
  -- GRD_PAR[19]
  ⟨0x1B4C, 0, 1, [⟨31, 0, .tv, 0x3f666666⟩]⟩,
  -- GRD_PAR[20]
  ⟨0x1B50, 0, 1, [⟨31, 0, .tv, 0x3f8ccccd⟩]⟩,
  -- GRD_PAR[21]
  ⟨0x1B54, 0, 1, [⟨31, 0, .rw, 0x41200000⟩]⟩,
  -- GRD_PAR[22]
  ⟨0x1B58, 0, 1, [⟨31, 0, .tv, 0x423e0000⟩]⟩,
  -- GRD_PAR[23]
  ⟨0x1B5C, 0, 1, [⟨31, 0, .tv, 0x424e0000⟩]⟩,
  -- GRD_PAR[24]
  ⟨0x1B60, 0, 1, [⟨31, 0, .tv, 0x40000000⟩]⟩,
  -- GRD_PAR[25]
  ⟨0x1B64, 0, 1, [⟨31, 0, .tv, 0x3f4ccccd⟩]⟩,
  -- GRD_PAR[26]
  ⟨0x1B68, 0, 1, [⟨31, 0, .tv, 0x3f933333⟩]⟩,
  -- GRD_PAR[27]
  ⟨0x1B6C, 0, 1, [⟨31, 0, .rw, 0x3ca3d70a⟩]⟩,
  -- GRD_PAR[28]
  ⟨0x1B70, 0, 1, [⟨31, 0, .tv, 0⟩]⟩,
  -- GRD_PAR[29]
  ⟨0x1B74, 0, 1, [⟨31, 0, .rw, 0⟩]⟩,
  -- GRD_PAR[30]
  ⟨0x1B78, 0, 1, [⟨31, 0, .rw, 0⟩]⟩,
  -- GRD_PAR[31]
  ⟨0x1B7C, 0, 1, [⟨31, 0, .rw, 0x3dcccccd⟩]⟩,
  -- GRD_PAR[32]
  ⟨0x1B80, 0, 1, [⟨31, 0, .rw, 0⟩]⟩,
  -- GRD_PAR[33]
  ⟨0x1B84, 0, 1, [⟨31, 0, .rw, 0⟩]⟩,
  -- GRD_PAR[34]
  ⟨0x1B88, 0, 1, [⟨31, 0, .rw, 0x3f800000⟩]⟩,
  -- GRD_PAR[35]
  ⟨0x1B8C, 0, 1, [⟨31, 0, .rw, 0x3ba3d70a⟩]⟩,
  -- GRD_PAR[36]
  ⟨0x1B90, 0, 1, [⟨31, 0, .rw, 0x3d4ccccd⟩]⟩,
  -- GRD_PAR[37]
  ⟨0x1B94, 0, 1, [⟨31, 0, .rw, 0x3e4ccccd⟩]⟩,
  -- GRD_PAR[38]
  ⟨0x1B98, 0, 1, [⟨31, 0, .tv, 0⟩]⟩,
  -- GRD_PAR[39]
  ⟨0x1B9C, 0, 1, [⟨31, 0, .tv, 0⟩]⟩,
  -- GRD_PAR[40]
  ⟨0x1BA0, 0, 1, [⟨31, 0, .rw, 0⟩]⟩,
  -- GRD_PAR[41]
  ⟨0x1BA4, 0, 1, [⟨31, 0, .rw, 0⟩]⟩,
  -- GRD_PAR[42]
  ⟨0x1BA8, 0, 1, [⟨31, 0, .tv, 0⟩]⟩,
  -- GRD_PAR[43]
  ⟨0x1BAC, 0, 1, [⟨31, 0, .rw, 0⟩]⟩,
  -- GRD_PAR[44]
  ⟨0x1BB0, 0, 1, [⟨31, 0, .rw, 0x41200000⟩]⟩,
  -- GRD_PAR[45]
  ⟨0x1BB4, 0, 1, [⟨31, 0, .rw, 0⟩]⟩,
  -- GRD_PAR[46]
  ⟨0x1BB8, 0, 1, [⟨31, 0, .tv, 0⟩]⟩,
  -- GRD_PAR[47]
  ⟨0x1BBC, 0, 1, [⟨31, 0, .tv, 0⟩]⟩,
  -- GRD_PAR[48]
  ⟨0x1BC0, 0, 1, [⟨31, 0, .tv, 0⟩]⟩,
  -- GRD_PAR[49]: a write is taken to the boundary, where the field rule ignores it (R247)
  ⟨0x1BC4, 4, 15, [⟨31, 0, .rw, 0⟩]⟩,
  -- GRD_CRV_X
  ⟨0x1C00, 8, 32, [⟨31, 0, .rw, 0⟩]⟩,
  -- GRD_CRV_Y
  ⟨0x1C04, 8, 32, [⟨31, 0, .rw, 0⟩]⟩,
  -- GRD_OUT
  ⟨0x1D00, 4, 64, [⟨31, 0, .rl, 0⟩]⟩]

/-- PRT block, R312. -/
def regsPrt : List RegDef := [
  -- PRT_STATUS
  ⟨0x1E00, 0, 1, [⟨31, 31, .rl, 0⟩, ⟨30, 30, .rl, 0⟩, ⟨29, 27, .rl, 0⟩, ⟨26, 26, .rl, 0⟩, ⟨25, 25, .rl, 0⟩, ⟨24, 24, .rl, 0⟩, ⟨23, 16, .rl, 0⟩, ⟨15, 8, .rl, 0⟩, ⟨7, 0, .rsv, 0⟩]⟩,
  -- PRT_CAUSE
  ⟨0x1E04, 0, 1, [⟨31, 8, .rsv, 0⟩, ⟨7, 7, .lt, 0⟩, ⟨6, 6, .lt, 0⟩, ⟨5, 5, .lt, 0⟩, ⟨4, 4, .lt, 0⟩, ⟨3, 3, .lt, 0⟩, ⟨2, 2, .lt, 0⟩, ⟨1, 1, .lt, 0⟩, ⟨0, 0, .lt, 0⟩]⟩,
  -- PRT_CAUSE_EN
  ⟨0x1E08, 0, 1, [⟨31, 8, .rsv, 0⟩, ⟨7, 0, .rw, 0⟩]⟩,
  -- PRT_ESCALATE
  ⟨0x1E0C, 0, 1, [⟨31, 31, .tv, 0⟩, ⟨30, 24, .rsv, 0⟩, ⟨23, 16, .tv, 3⟩, ⟨15, 0, .tv, 60⟩]⟩,
  -- PRT_HOLD
  ⟨0x1E10, 0, 1, [⟨31, 16, .tv, 0x3e8⟩, ⟨15, 0, .rw, 8⟩]⟩,
  -- PRT_DISC
  ⟨0x1E14, 0, 1, [⟨31, 8, .rsv, 0⟩, ⟨7, 0, .rw, 4⟩]⟩,
  -- PRT_RESET
  ⟨0x1E18, 0, 1, [⟨31, 31, .wa, 0⟩, ⟨30, 30, .wa, 0⟩, ⟨29, 16, .rsv, 0⟩, ⟨15, 0, .wa, 0⟩]⟩,
  -- PRT_RESET_STAT
  ⟨0x1E1C, 0, 1, [⟨31, 3, .rsv, 0⟩, ⟨2, 0, .rl, 0⟩]⟩,
  -- PRT_BLOCK_LATCH
  ⟨0x1E20, 0, 1, [⟨31, 31, .lt, 0⟩, ⟨30, 30, .rsv, 0⟩, ⟨29, 25, .lt, 0⟩, ⟨24, 16, .lt, 0⟩, ⟨15, 0, .lt, 0⟩]⟩,
  -- PRT_BLOCK_CNT
  ⟨0x1E24, 0, 1, [⟨31, 0, .lt, 0⟩]⟩,
  -- PRT_VOTE
  ⟨0x1E28, 0, 1, [⟨31, 16, .lt, 0⟩, ⟨15, 15, .rl, 0⟩, ⟨14, 14, .rsv, 0⟩, ⟨13, 0, .rl, 0⟩]⟩,
  -- PRT_TRIP_CFG
  ⟨0x1E30, 4, 4, [⟨31, 31, .tv, 1⟩, ⟨30, 30, .tv, 0⟩, ⟨29, 24, .rsv, 0⟩, ⟨23, 16, .tv, 20⟩, ⟨15, 1, .rsv, 0⟩, ⟨0, 0, .rl, 0⟩]⟩,
  -- PRT_RAISED
  ⟨0x1E40, 4, 3, [⟨31, 0, .rl, 0⟩]⟩,
  -- PRT_LOCKED
  ⟨0x1E50, 4, 3, [⟨31, 0, .lt, 0⟩]⟩,
  -- PRT_SRC_CFG
  ⟨0x1F00, 4, 72, [⟨31, 31, .rsv, 0⟩, ⟨30, 28, .tv, 0⟩, ⟨27, 25, .tv, 4⟩, ⟨24, 13, .tv, 60⟩, ⟨12, 0, .tv, 40⟩]⟩,
  -- PRT_SRC_STAT
  ⟨0x2040, 4, 72, [⟨31, 30, .rl, 0⟩, ⟨29, 29, .rl, 0⟩, ⟨28, 28, .rl, 0⟩, ⟨27, 20, .lt, 0⟩, ⟨19, 0, .rl, 0⟩]⟩,
  -- PRT_LIM
  ⟨0x2180, 4, 16, [⟨31, 0, .tv, 0⟩]⟩,
  -- PRT_SCALE
  ⟨0x2200, 4, 48, [⟨31, 0, .tv, 0x3f800000⟩]⟩]

/-- MFE block, R62. -/
def regsMfe : List RegDef := [
  -- MFE_XCHK
  ⟨0x2400, 0, 1, [⟨31, 24, .rsv, 0⟩, ⟨23, 16, .rw, 16⟩, ⟨15, 12, .rsv, 0⟩, ⟨11, 8, .rw, 3⟩, ⟨7, 4, .rsv, 0⟩, ⟨3, 0, .rw, 6⟩]⟩,
  -- MFE_AGC
  ⟨0x2404, 0, 1, [⟨31, 16, .rw, 0xea6⟩, ⟨15, 8, .rw, 16⟩, ⟨7, 0, .rsv, 0⟩]⟩,
  -- MFE_TEST
  ⟨0x2408, 0, 1, [⟨31, 31, .wa, 0⟩, ⟨30, 28, .rsv, 0⟩, ⟨27, 24, .rw, 0⟩, ⟨23, 6, .rsv, 0⟩, ⟨5, 0, .rw, 0⟩]⟩,
  -- MFE_TEST_STAT
  ⟨0x240C, 0, 1, [⟨31, 16, .rsv, 0⟩, ⟨15, 4, .rl, 0⟩, ⟨3, 3, .rsv, 0⟩, ⟨2, 0, .rl, 0⟩]⟩,
  -- MFE_CAUSE
  ⟨0x2410, 0, 1, [⟨31, 6, .rsv, 0⟩, ⟨5, 5, .lt, 0⟩, ⟨4, 4, .lt, 0⟩, ⟨3, 3, .lt, 0⟩, ⟨2, 2, .lt, 0⟩, ⟨1, 1, .lt, 0⟩, ⟨0, 0, .lt, 0⟩]⟩,
  -- MFE_CAUSE_EN
  ⟨0x2414, 0, 1, [⟨31, 6, .rsv, 0⟩, ⟨5, 0, .rw, 0⟩]⟩,
  -- MFE_TRIM_F
  ⟨0x2440, 4, 48, [⟨31, 16, .ro, 0⟩, ⟨15, 0, .ro, 0⟩]⟩,
  -- MFE_INCFG
  ⟨0x2500, 4, 48, [⟨31, 13, .rsv, 0⟩, ⟨12, 12, .rw, 1⟩, ⟨11, 11, .rw, 0⟩, ⟨10, 10, .rw, 1⟩, ⟨9, 8, .rw, 0⟩, ⟨7, 5, .rsv, 0⟩, ⟨4, 0, .rw, 0⟩]⟩,
  -- MFE_TRIM_U
  ⟨0x2600, 4, 48, [⟨31, 16, .rw, 0⟩, ⟨15, 0, .rw, 0⟩]⟩,
  -- MFE_VAL
  ⟨0x2700, 4, 48, [⟨31, 0, .rl, 0⟩]⟩,
  -- MFE_INSTAT
  ⟨0x2800, 4, 48, [⟨31, 31, .rl, 0⟩, ⟨30, 30, .lt, 0⟩, ⟨29, 29, .lt, 0⟩, ⟨28, 16, .rsv, 0⟩, ⟨15, 8, .lt, 0⟩, ⟨7, 0, .lt, 0⟩]⟩,
  -- MFE_WIN_LO
  ⟨0x2900, 8, 48, [⟨31, 18, .rsv, 0⟩, ⟨17, 0, .rw, 0x20000⟩]⟩,
  -- MFE_WIN_HI
  ⟨0x2904, 8, 48, [⟨31, 28, .rsv, 0⟩, ⟨27, 20, .rw, 16⟩, ⟨19, 18, .rsv, 0⟩, ⟨17, 0, .rw, 0x1ffff⟩]⟩,
  -- MFE_CMP_CFG
  ⟨0x2A80, 16, 16, [⟨31, 22, .rsv, 0⟩, ⟨21, 16, .tv, 0⟩, ⟨15, 10, .rsv, 0⟩, ⟨9, 8, .tv, 1⟩, ⟨7, 7, .tv, 0⟩, ⟨6, 6, .tv, 0⟩, ⟨5, 5, .tv, 0⟩, ⟨4, 4, .tv, 0⟩, ⟨3, 3, .tv, 0⟩, ⟨2, 1, .rsv, 0⟩, ⟨0, 0, .tv, 0⟩]⟩,
  -- MFE_CMP_THR
  ⟨0x2A84, 16, 16, [⟨31, 28, .rsv, 0⟩, ⟨27, 16, .tv, 0x7ff⟩, ⟨15, 12, .rsv, 0⟩, ⟨11, 0, .tv, 0x800⟩]⟩,
  -- MFE_CMP_RAMP
  ⟨0x2A88, 16, 16, [⟨31, 16, .tv, 0⟩, ⟨15, 12, .tv, 1⟩, ⟨11, 0, .tv, 0⟩]⟩,
  -- MFE_CMP_STAT
  ⟨0x2A8C, 16, 16, [⟨31, 31, .lt, 0⟩, ⟨30, 30, .lt, 0⟩, ⟨29, 29, .rl, 0⟩, ⟨28, 28, .rl, 0⟩, ⟨27, 25, .rsv, 0⟩, ⟨24, 16, .lt, 0⟩, ⟨15, 0, .lt, 0⟩]⟩,
  -- MFE_ENC_CFG
  ⟨0x2B80, 16, 3, [⟨31, 16, .rw, 0⟩, ⟨15, 4, .rsv, 0⟩, ⟨3, 2, .rw, 0⟩, ⟨1, 1, .rw, 0⟩, ⟨0, 0, .rw, 0⟩]⟩,
  -- MFE_ENC_POS
  ⟨0x2B84, 16, 3, [⟨31, 0, .rl, 0⟩]⟩,
  -- MFE_ENC_STAT
  ⟨0x2B88, 16, 3, [⟨31, 31, .rl, 1⟩, ⟨30, 30, .lt, 0⟩, ⟨29, 29, .rl, 0⟩, ⟨28, 28, .rl, 0⟩, ⟨27, 27, .rl, 0⟩, ⟨26, 16, .rsv, 0⟩, ⟨15, 0, .lt, 0⟩]⟩,
  -- MFE_ENC_REREF
  ⟨0x2B8C, 16, 3, [⟨31, 0, .wa, 0⟩]⟩]

/-- MTR block, R335. -/
def regsMtr : List RegDef := [
  -- MTR_STATUS
  ⟨0x2C00, 0, 1, [⟨31, 31, .rl, 0⟩, ⟨30, 30, .rl, 0⟩, ⟨29, 29, .rl, 0⟩, ⟨28, 28, .rl, 0⟩, ⟨27, 27, .rl, 0⟩, ⟨26, 26, .rl, 0⟩, ⟨25, 25, .rl, 0⟩, ⟨24, 24, .rl, 0⟩, ⟨23, 23, .rl, 0⟩, ⟨22, 22, .rl, 0⟩, ⟨21, 0, .rsv, 0⟩]⟩,
  -- MTR_CAUSE
  ⟨0x2C04, 0, 1, [⟨31, 8, .rsv, 0⟩, ⟨7, 7, .lt, 0⟩, ⟨6, 6, .lt, 0⟩, ⟨5, 5, .lt, 0⟩, ⟨4, 4, .lt, 0⟩, ⟨3, 3, .lt, 0⟩, ⟨2, 2, .lt, 0⟩, ⟨1, 1, .lt, 0⟩, ⟨0, 0, .lt, 0⟩]⟩,
  -- MTR_CAUSE_EN
  ⟨0x2C08, 0, 1, [⟨31, 8, .rsv, 0⟩, ⟨7, 0, .rw, 0⟩]⟩,
  -- MTR_CFG
  ⟨0x2C0C, 0, 1, [⟨31, 31, .rw, 0⟩, ⟨30, 30, .rw, 0⟩, ⟨29, 29, .rw, 0⟩, ⟨28, 24, .rw, 20⟩, ⟨23, 0, .rsv, 0⟩]⟩,
  -- MTR_SEAL
  ⟨0x2C10, 0, 1, [⟨31, 31, .wa, 0⟩, ⟨30, 30, .wa, 0⟩, ⟨29, 16, .rsv, 0⟩, ⟨15, 0, .wa, 0⟩]⟩,
  -- MTR_SEAL_STAT
  ⟨0x2C14, 0, 1, [⟨31, 31, .rl, 0⟩, ⟨30, 16, .rsv, 0⟩, ⟨15, 0, .rl, 0⟩]⟩,
  -- MTR_CHECK
  ⟨0x2C18, 0, 1, [⟨31, 0, .rl, 0⟩]⟩,
  -- MTR_ACTION
  ⟨0x2C1C, 0, 1, [⟨31, 31, .wa, 0⟩, ⟨30, 28, .rsv, 0⟩, ⟨27, 24, .rw, 0⟩, ⟨23, 22, .rsv, 0⟩, ⟨21, 20, .rw, 0⟩, ⟨19, 6, .rsv, 0⟩, ⟨5, 0, .rw, 0⟩]⟩,
  -- MTR_ACTION_STAT
  ⟨0x2C20, 0, 1, [⟨31, 3, .rsv, 0⟩, ⟨2, 0, .rl, 0⟩]⟩,
  -- MTR_RESTORE
  ⟨0x2C24, 0, 1, [⟨31, 31, .rl, 0⟩, ⟨30, 30, .rl, 0⟩, ⟨29, 29, .rl, 0⟩, ⟨28, 16, .rsv, 0⟩, ⟨15, 0, .rl, 0⟩]⟩,
  -- MTR_RESTORE_EPOCH
  ⟨0x2C28, 0, 1, [⟨31, 0, .rl, 0⟩]⟩,
  -- MTR_SAVE_EPOCH
  ⟨0x2C2C, 0, 1, [⟨31, 0, .rl, 0⟩]⟩,
  -- MTR_SCALE
  ⟨0x2C40, 4, 8, [⟨31, 0, .rw, 0⟩]⟩,
  -- MTR_TOTAL_LO
  ⟨0x2C80, 8, 6, [⟨31, 0, .rl, 0⟩]⟩,
  -- MTR_TOTAL_HI
  ⟨0x2C84, 8, 6, [⟨31, 0, .rl, 0⟩]⟩,
  -- MTR_FRAC
  ⟨0x2CC0, 4, 6, [⟨31, 0, .rl, 0⟩]⟩,
  -- MTR_WIDE
  ⟨0x2D00, 4, 72, [⟨31, 0, .rl, 0⟩]⟩,
  -- MTR_PULSE_CFG
  ⟨0x2E40, 16, 8, [⟨31, 31, .rw, 0⟩, ⟨30, 30, .rw, 0⟩, ⟨29, 27, .rsv, 0⟩, ⟨26, 24, .rw, 0⟩, ⟨23, 16, .rw, 0⟩, ⟨15, 8, .rw, 0⟩, ⟨7, 6, .rsv, 0⟩, ⟨5, 0, .rw, 0⟩]⟩,
  -- MTR_PULSE_K_LO
  ⟨0x2E44, 16, 8, [⟨31, 0, .rw, 0⟩]⟩,
  -- MTR_PULSE_K_HI
  ⟨0x2E48, 16, 8, [⟨31, 0, .rw, 0⟩]⟩,
  -- MTR_PULSE_STAT
  ⟨0x2E4C, 16, 8, [⟨31, 31, .rl, 0⟩, ⟨30, 30, .lt, 0⟩, ⟨29, 29, .rl, 0⟩, ⟨28, 16, .rsv, 0⟩, ⟨15, 0, .rl, 0⟩]⟩,
  -- MTR_STORE_Q
  ⟨0x2F00, 8, 7, [⟨31, 0, .rl, 0⟩]⟩,
  -- MTR_STORE_M
  ⟨0x2F04, 8, 7, [⟨31, 0, .rl, 0⟩]⟩]

/-- SAF block, R368. -/
def regsSaf : List RegDef := [
  -- SAF_STATUS
  ⟨0x3000, 0, 1, [⟨31, 31, .rl, 0⟩, ⟨30, 30, .rl, 0⟩, ⟨29, 29, .rl, 0⟩, ⟨28, 28, .rl, 1⟩, ⟨27, 27, .rl, 0⟩, ⟨26, 26, .rl, 0⟩, ⟨25, 25, .rl, 0⟩, ⟨24, 24, .rl, 0⟩, ⟨23, 23, .rl, 0⟩, ⟨22, 22, .rl, 0⟩, ⟨21, 21, .rl, 0⟩, ⟨20, 20, .rl, 0⟩, ⟨19, 8, .rsv, 0⟩, ⟨7, 0, .rl, 0⟩]⟩,
  -- SAF_CAUSE
  ⟨0x3004, 0, 1, [⟨31, 8, .rsv, 0⟩, ⟨7, 7, .lt, 0⟩, ⟨6, 6, .lt, 0⟩, ⟨5, 5, .lt, 0⟩, ⟨4, 4, .lt, 0⟩, ⟨3, 3, .lt, 0⟩, ⟨2, 2, .lt, 0⟩, ⟨1, 1, .lt, 0⟩, ⟨0, 0, .lt, 0⟩]⟩,
  -- SAF_CAUSE_EN
  ⟨0x3008, 0, 1, [⟨31, 8, .rsv, 0⟩, ⟨7, 0, .rw, 0⟩]⟩,
  -- SAF_INPUTS
  ⟨0x300C, 0, 1, [⟨31, 16, .rl, 0⟩, ⟨15, 0, .rl, 0⟩]⟩,
  -- SAF_CHAN
  ⟨0x3010, 0, 1, [⟨31, 16, .rl, 0⟩, ⟨15, 0, .rl, 0⟩]⟩,
  -- SAF_OUTPUTS
  ⟨0x3014, 0, 1, [⟨31, 24, .rsv, 0⟩, ⟨23, 16, .rl, 0⟩, ⟨15, 8, .rl, 0⟩, ⟨7, 0, .rl, 0⟩]⟩,
  -- SAF_DEMAND
  ⟨0x3018, 0, 1, [⟨31, 16, .rsv, 0⟩, ⟨15, 8, .lt, 0⟩, ⟨7, 0, .lt, 0⟩]⟩,
  -- SAF_CHECK
  ⟨0x301C, 0, 1, [⟨31, 0, .rl, 0⟩]⟩,
  -- SAF_PEND_CHECK
  ⟨0x3020, 0, 1, [⟨31, 0, .rl, 0⟩]⟩,
  -- SAF_CONFIRM
  ⟨0x3024, 0, 1, [⟨31, 31, .wa, 0⟩, ⟨30, 30, .wa, 0⟩, ⟨29, 16, .rsv, 0⟩, ⟨15, 0, .wa, 0⟩]⟩,
  -- SAF_CONFIRM_VALUE
  ⟨0x3028, 0, 1, [⟨31, 0, .rw, 0⟩]⟩,
  -- SAF_CONFIRM_STAT
  ⟨0x302C, 0, 1, [⟨31, 16, .rl, 0⟩, ⟨15, 12, .rl, 0⟩, ⟨11, 3, .rsv, 0⟩, ⟨2, 0, .rl, 0⟩]⟩,
  -- SAF_VIEW
  ⟨0x3030, 0, 1, [⟨31, 1, .rsv, 0⟩, ⟨0, 0, .rw, 0⟩]⟩,
  -- SAF_RESET_STAT
  ⟨0x3034, 0, 1, [⟨31, 16, .lt, 0⟩, ⟨15, 3, .rsv, 0⟩, ⟨2, 0, .rl, 0⟩]⟩,
  -- SAF_TG_STAT
  ⟨0x3040, 0, 1, [⟨31, 30, .rl, 0⟩, ⟨29, 16, .rsv, 0⟩, ⟨15, 0, .rl, 0xffff⟩]⟩,
  -- SAF_TG_SEQ_TX
  ⟨0x3044, 0, 1, [⟨31, 0, .rl, 0⟩]⟩,
  -- SAF_TG_SEQ_RX
  ⟨0x3048, 0, 1, [⟨31, 0, .rl, 0⟩]⟩,
  -- SAF_TG_RXDATA
  ⟨0x304C, 0, 1, [⟨31, 0, .rl, 0⟩]⟩,
  -- SAF_TG_TXDATA
  ⟨0x3050, 0, 1, [⟨31, 0, .rl, 0⟩]⟩,
  -- SAF_TG_CNT
  ⟨0x3060, 4, 8, [⟨31, 0, .lt, 0⟩]⟩,
  -- SAF_PORT_STAT
  ⟨0x3080, 4, 2, [⟨31, 31, .rl, 0⟩, ⟨30, 24, .rsv, 0⟩, ⟨23, 0, .lt, 0⟩]⟩,
  -- SAF_MIRROR
  ⟨0x3090, 0, 1, [⟨31, 31, .rw, 0⟩, ⟨30, 21, .rsv, 0⟩, ⟨20, 16, .rw, 12⟩, ⟨15, 0, .rw, 0⟩]⟩,
  -- SAF_MIRROR_SRC
  ⟨0x3094, 0, 1, [⟨31, 31, .rsv, 0⟩, ⟨30, 16, .rw, 0⟩, ⟨15, 11, .rsv, 0⟩, ⟨10, 0, .rw, 64⟩]⟩,
  -- SAF_PAIR_CFG
  ⟨0x3100, 4, 16, [⟨31, 28, .tv, 0⟩, ⟨27, 27, .tv, 0⟩, ⟨26, 24, .tv, 7⟩, ⟨23, 21, .tv, 7⟩, ⟨20, 16, .rsv, 0⟩, ⟨15, 8, .tv, 10⟩, ⟨7, 0, .tv, 50⟩]⟩,
  -- SAF_OUT_CFG
  ⟨0x3140, 4, 8, [⟨31, 28, .tv, 0⟩, ⟨27, 27, .tv, 1⟩, ⟨26, 0, .rsv, 0⟩]⟩,
  -- SAF_TP_CFG
  ⟨0x3160, 0, 1, [⟨31, 24, .tv, 40⟩, ⟨23, 16, .rsv, 0⟩, ⟨15, 0, .tv, 200⟩]⟩,
  -- SAF_OP_CFG
  ⟨0x3164, 0, 1, [⟨31, 24, .tv, 200⟩, ⟨23, 16, .tv, 10⟩, ⟨15, 0, .tv, 300⟩]⟩,
  -- SAF_TIME
  ⟨0x3168, 0, 1, [⟨31, 16, .tv, 300⟩, ⟨15, 8, .tv, 10⟩, ⟨7, 0, .tv, 50⟩]⟩,
  -- SAF_TG_CFG
  ⟨0x316C, 0, 1, [⟨31, 31, .tv, 0⟩, ⟨30, 30, .tv, 0⟩, ⟨29, 29, .tv, 1⟩, ⟨28, 28, .tv, 1⟩, ⟨27, 27, .tv, 1⟩, ⟨26, 24, .rsv, 0⟩, ⟨23, 16, .tv, 10⟩, ⟨15, 8, .tv, 20⟩, ⟨7, 4, .tv, 8⟩, ⟨3, 0, .tv, 4⟩]⟩,
  -- SAF_TG_OWN_ID
  ⟨0x3170, 0, 1, [⟨31, 0, .tv, 0⟩]⟩,
  -- SAF_TG_PEER_ID
  ⟨0x3174, 0, 1, [⟨31, 0, .tv, 0⟩]⟩,
  -- SAF_TG_PEER_CHECK
  ⟨0x3178, 0, 1, [⟨31, 0, .tv, 0⟩]⟩,
  -- SAF_PORT_MAC_LO
  ⟨0x3180, 32, 2, [⟨31, 0, .tv, 0⟩]⟩,
  -- SAF_PORT_MAC_HI
  ⟨0x3184, 32, 2, [⟨31, 31, .tv, 0⟩, ⟨30, 28, .tv, 0⟩, ⟨27, 16, .tv, 0⟩, ⟨15, 0, .tv, 0⟩]⟩,
  -- SAF_PORT_IP
  ⟨0x3188, 32, 2, [⟨31, 0, .tv, 0⟩]⟩,
  -- SAF_PORT_PEER_IP
  ⟨0x318C, 32, 2, [⟨31, 0, .tv, 0⟩]⟩,
  -- SAF_PORT_PEER_MAC_LO
  ⟨0x3190, 32, 2, [⟨31, 0, .tv, 0⟩]⟩,
  -- SAF_PORT_PEER_MAC_HI
  ⟨0x3194, 32, 2, [⟨31, 31, .tv, 0⟩, ⟨30, 16, .rsv, 0⟩, ⟨15, 0, .tv, 0⟩]⟩,
  -- SAF_PORT_UDP
  ⟨0x3198, 32, 2, [⟨31, 16, .tv, 0⟩, ⟨15, 0, .tv, 0⟩]⟩]

/-- TRK block, R436. -/
def regsTrk : List RegDef := [
  -- TRK_STATUS
  ⟨0x3400, 0, 1, [⟨31, 31, .rl, 0⟩, ⟨30, 30, .rl, 0⟩, ⟨29, 29, .rl, 0⟩, ⟨28, 0, .rsv, 0⟩]⟩,
  -- TRK_CAUSE
  ⟨0x3404, 0, 1, [⟨31, 4, .rsv, 0⟩, ⟨3, 3, .lt, 0⟩, ⟨2, 2, .lt, 0⟩, ⟨1, 1, .lt, 0⟩, ⟨0, 0, .lt, 0⟩]⟩,
  -- TRK_CAUSE_EN
  ⟨0x3408, 0, 1, [⟨31, 4, .rsv, 0⟩, ⟨3, 0, .rw, 0⟩]⟩,
  -- TRK_ACTION
  ⟨0x340C, 0, 1, [⟨31, 31, .wa, 0⟩, ⟨30, 16, .rsv, 0⟩, ⟨15, 0, .wa, 0⟩]⟩,
  -- TRK_BIN_NEWEST
  ⟨0x3410, 0, 1, [⟨31, 0, .rl, 0⟩]⟩,
  -- TRK_BIN_OLDEST
  ⟨0x3414, 0, 1, [⟨31, 0, .rl, 0⟩]⟩,
  -- TRK_BIN_SEL
  ⟨0x3418, 0, 1, [⟨31, 0, .rw, 0⟩]⟩,
  -- TRK_QUEUE
  ⟨0x341C, 0, 1, [⟨31, 31, .rl, 0⟩, ⟨30, 27, .rsv, 0⟩, ⟨26, 16, .lt, 0⟩, ⟨15, 11, .rsv, 0⟩, ⟨10, 0, .rl, 0⟩]⟩,
  -- TRK_SUPPRESSED
  ⟨0x3420, 0, 1, [⟨31, 0, .lt, 0⟩]⟩,
  -- TRK_BIN_DATA
  ⟨0x3440, 4, 16, [⟨31, 0, .rl, 0⟩]⟩]

/-- DBG block, R464 and chapter 15. -/
def regsDbg : List RegDef := [
  -- DBG_STATUS
  ⟨0x3600, 0, 1, [⟨31, 26, .rsv, 0⟩, ⟨25, 16, .rl, 0⟩, ⟨15, 11, .rsv, 0⟩, ⟨10, 10, .rl, 0⟩, ⟨9, 9, .rl, 0⟩, ⟨8, 8, .rl, 0⟩, ⟨7, 0, .rsv, 0⟩]⟩,
  -- DBG_CAUSE
  ⟨0x3604, 0, 1, [⟨31, 3, .rsv, 0⟩, ⟨2, 2, .lt, 0⟩, ⟨1, 1, .lt, 0⟩, ⟨0, 0, .lt, 0⟩]⟩,
  -- DBG_CAUSE_EN
  ⟨0x3608, 0, 1, [⟨31, 3, .rsv, 0⟩, ⟨2, 0, .rw, 0⟩]⟩,
  -- DBG_CTRL
  ⟨0x360C, 0, 1, [⟨31, 31, .rw, 0⟩, ⟨30, 30, .rw, 0⟩, ⟨29, 0, .rsv, 0⟩]⟩,
  -- DBG_HALT
  ⟨0x3610, 0, 1, [⟨31, 31, .wa, 0⟩, ⟨30, 30, .wa, 0⟩, ⟨29, 29, .wa, 0⟩, ⟨28, 10, .rsv, 0⟩, ⟨9, 0, .rw, 0⟩]⟩,
  -- DBG_CAP_CFG
  ⟨0x3620, 0, 1, [⟨31, 31, .rw, 0⟩, ⟨30, 28, .rw, 0⟩, ⟨27, 15, .rw, 0⟩, ⟨14, 8, .rw, 7⟩, ⟨7, 0, .rw, 0⟩]⟩,
  -- DBG_CAP_CTRL
  ⟨0x3624, 0, 1, [⟨31, 31, .wa, 0⟩, ⟨30, 30, .wa, 0⟩, ⟨29, 13, .rsv, 0⟩, ⟨12, 0, .rw, 0⟩]⟩,
  -- DBG_CAP_STAT
  ⟨0x3628, 0, 1, [⟨31, 29, .rl, 0⟩, ⟨28, 16, .rl, 0⟩, ⟨15, 15, .rsv, 0⟩, ⟨14, 0, .rl, 0⟩]⟩,
  -- DBG_CAP_ADDR
  ⟨0x362C, 0, 1, [⟨31, 14, .rsv, 0⟩, ⟨13, 0, .rw, 0⟩]⟩,
  -- DBG_CAP_DATA
  ⟨0x3630, 0, 1, [⟨31, 0, .rl, 0⟩]⟩]

/-- Every implemented register (R464). -/
def regMap : List RegDef :=
  regsSys ++ regsPwr ++ regsStr ++ regsRef ++ regsHat ++ regsCel ++ regsLnk ++ regsEdg ++ regsCtl1 ++ regsCtl2 ++ regsGrd1 ++ regsGrd2 ++ regsPrt ++ regsMfe ++ regsMtr ++ regsSaf ++ regsTrk ++ regsDbg

end Sys2Proof.Machine
end

