-- ==== Sys2Proof/Machine/RegNames.lean ====
section
/-! DEFINITION. The names and offsets of the implemented registers (R464, and the block tables R39, R62, R99, R135, R169,
R212, R247, R283, R312, R335, R368, R401, R436). A register that stands in an array is a function of its index. -/

namespace Sys2Proof.Machine.R

/-- SYS_ID, offset 0x0000. -/
abbrev SYS_ID : Nat := 0x0000
/-- SYS_PLAN, offset 0x0004. -/
abbrev SYS_PLAN : Nat := 0x0004
/-- SYS_EPOCH_LO, offset 0x0008. -/
abbrev SYS_EPOCH_LO : Nat := 0x0008
/-- SYS_EPOCH_HI, offset 0x000C. -/
abbrev SYS_EPOCH_HI : Nat := 0x000C
/-- SYS_ERA, offset 0x0010. -/
abbrev SYS_ERA : Nat := 0x0010
/-- SYS_CONV_STATE, offset 0x0014. -/
abbrev SYS_CONV_STATE : Nat := 0x0014
/-- SYS_CONV_CFG, offset 0x0018. -/
abbrev SYS_CONV_CFG : Nat := 0x0018
/-- SYS_ARM_CFG[i], i below 7: offset 0x0020 + 0x4 × i. -/
abbrev SYS_ARM_CFG (i : Nat) : Nat := 0x0020 + 0x4 * i
/-- SYS_ARM_STATUS[i], i below 7: offset 0x0040 + 0x4 × i. -/
abbrev SYS_ARM_STATUS (i : Nat) : Nat := 0x0040 + 0x4 * i
/-- SYS_SLACK[i], i below 14: offset 0x0080 + 0x4 × i. -/
abbrev SYS_SLACK (i : Nat) : Nat := 0x0080 + 0x4 * i
/-- SYS_CLASS_TYPE[i], i below 16: offset 0x0100 + 0x10 × i. -/
abbrev SYS_CLASS_TYPE (i : Nat) : Nat := 0x0100 + 0x10 * i
/-- SYS_CLASS_CAP[i], i below 16: offset 0x0104 + 0x10 × i. -/
abbrev SYS_CLASS_CAP (i : Nat) : Nat := 0x0104 + 0x10 * i
/-- SYS_CLASS_VOLT[i], i below 16: offset 0x0108 + 0x10 × i. -/
abbrev SYS_CLASS_VOLT (i : Nat) : Nat := 0x0108 + 0x10 * i
/-- SYS_CLASS_GAUGE[i], i below 16: offset 0x010C + 0x10 × i. -/
abbrev SYS_CLASS_GAUGE (i : Nat) : Nat := 0x010C + 0x10 * i
/-- PWR_STATUS, offset 0x0200. -/
abbrev PWR_STATUS : Nat := 0x0200
/-- PWR_CAUSE, offset 0x0204. -/
abbrev PWR_CAUSE : Nat := 0x0204
/-- PWR_CAUSE_EN, offset 0x0208. -/
abbrev PWR_CAUSE_EN : Nat := 0x0208
/-- PWR_VCORE_CFG, offset 0x020C. -/
abbrev PWR_VCORE_CFG : Nat := 0x020C
/-- PWR_SLACK_CFG, offset 0x0210. -/
abbrev PWR_SLACK_CFG : Nat := 0x0210
/-- PWR_PMB_CFG, offset 0x0214. -/
abbrev PWR_PMB_CFG : Nat := 0x0214
/-- PWR_VCORE, offset 0x0218. -/
abbrev PWR_VCORE : Nat := 0x0218
/-- PWR_BUDGET, offset 0x021C. -/
abbrev PWR_BUDGET : Nat := 0x021C
/-- PWR_DRAW, offset 0x0220. -/
abbrev PWR_DRAW : Nat := 0x0220
/-- PWR_CFG, offset 0x0224. -/
abbrev PWR_CFG : Nat := 0x0224
/-- PWR_DOM_LO, offset 0x0228. -/
abbrev PWR_DOM_LO : Nat := 0x0228
/-- PWR_DOM_HI, offset 0x022C. -/
abbrev PWR_DOM_HI : Nat := 0x022C
/-- PWR_TEMP, offset 0x0230. -/
abbrev PWR_TEMP : Nat := 0x0230
/-- STR_STATUS, offset 0x0400. -/
abbrev STR_STATUS : Nat := 0x0400
/-- STR_CAUSE, offset 0x0404. -/
abbrev STR_CAUSE : Nat := 0x0404
/-- STR_CAUSE_EN, offset 0x0408. -/
abbrev STR_CAUSE_EN : Nat := 0x0408
/-- STR_CFG, offset 0x040C. -/
abbrev STR_CFG : Nat := 0x040C
/-- STR_ACTION, offset 0x0410. -/
abbrev STR_ACTION : Nat := 0x0410
/-- STR_IMAGE, offset 0x0414. -/
abbrev STR_IMAGE : Nat := 0x0414
/-- STR_IMAGE_SEQ, offset 0x0418. -/
abbrev STR_IMAGE_SEQ : Nat := 0x0418
/-- STR_REC_ADDR, offset 0x041C. -/
abbrev STR_REC_ADDR : Nat := 0x041C
/-- STR_REC_DATA, offset 0x0420. -/
abbrev STR_REC_DATA : Nat := 0x0420
/-- STR_IRQ_SUM, offset 0x0440. -/
abbrev STR_IRQ_SUM : Nat := 0x0440
/-- STR_IRQ_EN, offset 0x0444. -/
abbrev STR_IRQ_EN : Nat := 0x0444
/-- REF_STATUS, offset 0x0500. -/
abbrev REF_STATUS : Nat := 0x0500
/-- REF_CAUSE, offset 0x0504. -/
abbrev REF_CAUSE : Nat := 0x0504
/-- REF_CAUSE_EN, offset 0x0508. -/
abbrev REF_CAUSE_EN : Nat := 0x0508
/-- REF_CFG, offset 0x050C. -/
abbrev REF_CFG : Nat := 0x050C
/-- REF_HOLDOVER, offset 0x0510. -/
abbrev REF_HOLDOVER : Nat := 0x0510
/-- REF_BAND, offset 0x0514. -/
abbrev REF_BAND : Nat := 0x0514
/-- HAT_ID, offset 0x0600. -/
abbrev HAT_ID : Nat := 0x0600
/-- HAT_CTRL, offset 0x0604. -/
abbrev HAT_CTRL : Nat := 0x0604
/-- HAT_STATUS, offset 0x0608. -/
abbrev HAT_STATUS : Nat := 0x0608
/-- HAT_KEEPALIVE, offset 0x060C. -/
abbrev HAT_KEEPALIVE : Nat := 0x060C
/-- HAT_RING_SEL, offset 0x0610. -/
abbrev HAT_RING_SEL : Nat := 0x0610
/-- HAT_RING_BASE_LO, offset 0x0614. -/
abbrev HAT_RING_BASE_LO : Nat := 0x0614
/-- HAT_RING_BASE_HI, offset 0x0618. -/
abbrev HAT_RING_BASE_HI : Nat := 0x0618
/-- HAT_RING_CFG, offset 0x061C. -/
abbrev HAT_RING_CFG : Nat := 0x061C
/-- HAT_RING_STAT, offset 0x0620. -/
abbrev HAT_RING_STAT : Nat := 0x0620
/-- HAT_EV_HEAD, offset 0x0624. -/
abbrev HAT_EV_HEAD : Nat := 0x0624
/-- HAT_EV_STAT, offset 0x0628. -/
abbrev HAT_EV_STAT : Nat := 0x0628
/-- HAT_ERR_LOG, offset 0x062C. -/
abbrev HAT_ERR_LOG : Nat := 0x062C
/-- HAT_ERR_ADDR, offset 0x0630. -/
abbrev HAT_ERR_ADDR : Nat := 0x0630
/-- HAT_CAUSE, offset 0x0634. -/
abbrev HAT_CAUSE : Nat := 0x0634
/-- HAT_CAUSE_EN, offset 0x0638. -/
abbrev HAT_CAUSE_EN : Nat := 0x0638
/-- HAT_MGMT_SEL, offset 0x063C. -/
abbrev HAT_MGMT_SEL : Nat := 0x063C
/-- HAT_OR_TAIL[i], i below 16: offset 0x0640 + 0x4 × i. -/
abbrev HAT_OR_TAIL (i : Nat) : Nat := 0x0640 + 0x4 * i
/-- HAT_CR_HEAD[i], i below 16: offset 0x0680 + 0x4 × i. -/
abbrev HAT_CR_HEAD (i : Nat) : Nat := 0x0680 + 0x4 * i
/-- HAT_OWN[i], i below 80: offset 0x06C0 + 0x4 × i. -/
abbrev HAT_OWN (i : Nat) : Nat := 0x06C0 + 0x4 * i
/-- CEL_SEALED, offset 0x0800. -/
abbrev CEL_SEALED : Nat := 0x0800
/-- CEL_SEAL_STAT, offset 0x0804. -/
abbrev CEL_SEAL_STAT : Nat := 0x0804
/-- CEL_CAUSE, offset 0x0808. -/
abbrev CEL_CAUSE : Nat := 0x0808
/-- CEL_CAUSE_EN, offset 0x080C. -/
abbrev CEL_CAUSE_EN : Nat := 0x080C
/-- CEL_CNT_DEADLINE, offset 0x0810. -/
abbrev CEL_CNT_DEADLINE : Nat := 0x0810
/-- CEL_CNT_AFTER_SEAL, offset 0x0814. -/
abbrev CEL_CNT_AFTER_SEAL : Nat := 0x0814
/-- CEL_CNT_DUPLICATE, offset 0x0818. -/
abbrev CEL_CNT_DUPLICATE : Nat := 0x0818
/-- CEL_CNT_ECC_CORR, offset 0x081C. -/
abbrev CEL_CNT_ECC_CORR : Nat := 0x081C
/-- CEL_CNT_ECC_UNCORR, offset 0x0820. -/
abbrev CEL_CNT_ECC_UNCORR : Nat := 0x0820
/-- CEL_CNT_LATE_USED, offset 0x0824. -/
abbrev CEL_CNT_LATE_USED : Nat := 0x0824
/-- CEL_CTR_CLEAR, offset 0x0828. -/
abbrev CEL_CTR_CLEAR : Nat := 0x0828
/-- CEL_ECC_CFG, offset 0x082C. -/
abbrev CEL_ECC_CFG : Nat := 0x082C
/-- CEL_SPARE, offset 0x0830. -/
abbrev CEL_SPARE : Nat := 0x0830
/-- CEL_SNAP_CREDIT[i], i below 4: offset 0x0840 + 0x4 × i. -/
abbrev CEL_SNAP_CREDIT (i : Nat) : Nat := 0x0840 + 0x4 * i
/-- CEL_CRATE_CFG, offset 0x0860. -/
abbrev CEL_CRATE_CFG : Nat := 0x0860
/-- CEL_CRATE_SEL, offset 0x0864. -/
abbrev CEL_CRATE_SEL : Nat := 0x0864
/-- CEL_CRATE_STAT, offset 0x0868. -/
abbrev CEL_CRATE_STAT : Nat := 0x0868
/-- CEL_CRATE_EPOCH, offset 0x086C. -/
abbrev CEL_CRATE_EPOCH : Nat := 0x086C
/-- CEL_CRATE_PARTS, offset 0x0870. -/
abbrev CEL_CRATE_PARTS : Nat := 0x0870
/-- CEL_CRATE_FAIL, offset 0x0874. -/
abbrev CEL_CRATE_FAIL : Nat := 0x0874
/-- LNK_LANE_EN[i], i below 16: offset 0x0A00 + 0x4 × i. -/
abbrev LNK_LANE_EN (i : Nat) : Nat := 0x0A00 + 0x4 * i
/-- LNK_LANE_ACT[i], i below 16: offset 0x0A40 + 0x4 × i. -/
abbrev LNK_LANE_ACT (i : Nat) : Nat := 0x0A40 + 0x4 * i
/-- LNK_SVC_CFG, offset 0x0A80. -/
abbrev LNK_SVC_CFG : Nat := 0x0A80
/-- LNK_CAUSE, offset 0x0A84. -/
abbrev LNK_CAUSE : Nat := 0x0A84
/-- LNK_CAUSE_EN, offset 0x0A88. -/
abbrev LNK_CAUSE_EN : Nat := 0x0A88
/-- LNK_TBL_ADDR, offset 0x0B00. -/
abbrev LNK_TBL_ADDR : Nat := 0x0B00
/-- LNK_TBL_DATA, offset 0x0B04. -/
abbrev LNK_TBL_DATA : Nat := 0x0B04
/-- LNK_TRIM_CFG, offset 0x0B08. -/
abbrev LNK_TRIM_CFG : Nat := 0x0B08
/-- LNK_BRIDGE_LIMIT, offset 0x0B0C. -/
abbrev LNK_BRIDGE_LIMIT : Nat := 0x0B0C
/-- LNK_HANDBACK, offset 0x0B10. -/
abbrev LNK_HANDBACK : Nat := 0x0B10
/-- LNK_ACTION, offset 0x0B14. -/
abbrev LNK_ACTION : Nat := 0x0B14
/-- LNK_ACTION_STAT, offset 0x0B18. -/
abbrev LNK_ACTION_STAT : Nat := 0x0B18
/-- LNK_STR_CAUSE, offset 0x0B1C. -/
abbrev LNK_STR_CAUSE : Nat := 0x0B1C
/-- LNK_STR_CAUSE_EN, offset 0x0B20. -/
abbrev LNK_STR_CAUSE_EN : Nat := 0x0B20
/-- LNK_BRIDGE_EN[i], i below 8: offset 0x0B40 + 0x4 × i. -/
abbrev LNK_BRIDGE_EN (i : Nat) : Nat := 0x0B40 + 0x4 * i
/-- LNK_BRIDGE_OK[i], i below 8: offset 0x0B60 + 0x4 × i. -/
abbrev LNK_BRIDGE_OK (i : Nat) : Nat := 0x0B60 + 0x4 * i
/-- LNK_QUAR[i], i below 16: offset 0x0B80 + 0x4 × i. -/
abbrev LNK_QUAR (i : Nat) : Nat := 0x0B80 + 0x4 * i
/-- LNK_PAIR_BRIDGED[i], i below 8: offset 0x0BC0 + 0x4 × i. -/
abbrev LNK_PAIR_BRIDGED (i : Nat) : Nat := 0x0BC0 + 0x4 * i
/-- EDG_CFG, offset 0x0E00. -/
abbrev EDG_CFG : Nat := 0x0E00
/-- EDG_STATUS, offset 0x0E04. -/
abbrev EDG_STATUS : Nat := 0x0E04
/-- EDG_CAUSE, offset 0x0E08. -/
abbrev EDG_CAUSE : Nat := 0x0E08
/-- EDG_CAUSE_EN, offset 0x0E0C. -/
abbrev EDG_CAUSE_EN : Nat := 0x0E0C
/-- EDG_FORCE, offset 0x0E10. -/
abbrev EDG_FORCE : Nat := 0x0E10
/-- EDG_FORCE_STAT, offset 0x0E14. -/
abbrev EDG_FORCE_STAT : Nat := 0x0E14
/-- EDG_BYPASS, offset 0x0E18. -/
abbrev EDG_BYPASS : Nat := 0x0E18
/-- EDG_BYPASS_STAT, offset 0x0E1C. -/
abbrev EDG_BYPASS_STAT : Nat := 0x0E1C
/-- EDG_PROF_ADDR, offset 0x0E20. -/
abbrev EDG_PROF_ADDR : Nat := 0x0E20
/-- EDG_PROF_DATA, offset 0x0E24. -/
abbrev EDG_PROF_DATA : Nat := 0x0E24
/-- EDG_TBL_ADDR, offset 0x0E28. -/
abbrev EDG_TBL_ADDR : Nat := 0x0E28
/-- EDG_TBL_DATA, offset 0x0E2C. -/
abbrev EDG_TBL_DATA : Nat := 0x0E2C
/-- EDG_GRP_SORT[i], i below 7: offset 0x0E40 + 0x4 × i. -/
abbrev EDG_GRP_SORT (i : Nat) : Nat := 0x0E40 + 0x4 * i
/-- EDG_GRP_DRIVE[i], i below 7: offset 0x0E60 + 0x4 × i. -/
abbrev EDG_GRP_DRIVE (i : Nat) : Nat := 0x0E60 + 0x4 * i
/-- EDG_GRP_IBAND[i], i below 7: offset 0x0E80 + 0x4 × i. -/
abbrev EDG_GRP_IBAND (i : Nat) : Nat := 0x0E80 + 0x4 * i
/-- EDG_GRP_IPROF[i], i below 7: offset 0x0EA0 + 0x4 × i. -/
abbrev EDG_GRP_IPROF (i : Nat) : Nat := 0x0EA0 + 0x4 * i
/-- EDG_CLS_DT[i], i below 16: offset 0x0F00 + 0x10 × i. -/
abbrev EDG_CLS_DT (i : Nat) : Nat := 0x0F00 + 0x10 * i
/-- EDG_CLS_WIN[i], i below 16: offset 0x0F04 + 0x10 × i. -/
abbrev EDG_CLS_WIN (i : Nat) : Nat := 0x0F04 + 0x10 * i
/-- EDG_CLS_GATE[i], i below 16: offset 0x0F08 + 0x10 × i. -/
abbrev EDG_CLS_GATE (i : Nat) : Nat := 0x0F08 + 0x10 * i
/-- CTL_STATUS, offset 0x1200. -/
abbrev CTL_STATUS : Nat := 0x1200
/-- CTL_STOP, offset 0x1204. -/
abbrev CTL_STOP : Nat := 0x1204
/-- CTL_CAUSE, offset 0x1208. -/
abbrev CTL_CAUSE : Nat := 0x1208
/-- CTL_CAUSE_EN, offset 0x120C. -/
abbrev CTL_CAUSE_EN : Nat := 0x120C
/-- CTL_SLOT_SEL, offset 0x1210. -/
abbrev CTL_SLOT_SEL : Nat := 0x1210
/-- CTL_ACTIVE_BANK_LO, offset 0x1214. -/
abbrev CTL_ACTIVE_BANK_LO : Nat := 0x1214
/-- CTL_ACTIVE_BANK_HI, offset 0x1218. -/
abbrev CTL_ACTIVE_BANK_HI : Nat := 0x1218
/-- CTL_ACTION, offset 0x121C. -/
abbrev CTL_ACTION : Nat := 0x121C
/-- CTL_COMPOSE, offset 0x1220. -/
abbrev CTL_COMPOSE : Nat := 0x1220
/-- CTL_COMPOSE_STAT, offset 0x1224. -/
abbrev CTL_COMPOSE_STAT : Nat := 0x1224
/-- CTL_W_WIRE, offset 0x1240. -/
abbrev CTL_W_WIRE : Nat := 0x1240
/-- CTL_W_MODE, offset 0x1244. -/
abbrev CTL_W_MODE : Nat := 0x1244
/-- CTL_W_KP, offset 0x1248. -/
abbrev CTL_W_KP : Nat := 0x1248
/-- CTL_W_KI, offset 0x124C. -/
abbrev CTL_W_KI : Nat := 0x124C
/-- CTL_W_KD, offset 0x1250. -/
abbrev CTL_W_KD : Nat := 0x1250
/-- CTL_W_TF, offset 0x1254. -/
abbrev CTL_W_TF : Nat := 0x1254
/-- CTL_W_KT, offset 0x1258. -/
abbrev CTL_W_KT : Nat := 0x1258
/-- CTL_W_KFB, offset 0x125C. -/
abbrev CTL_W_KFB : Nat := 0x125C
/-- CTL_W_KFF, offset 0x1260. -/
abbrev CTL_W_KFF : Nat := 0x1260
/-- CTL_W_UMIN, offset 0x1264. -/
abbrev CTL_W_UMIN : Nat := 0x1264
/-- CTL_W_UMAX, offset 0x1268. -/
abbrev CTL_W_UMAX : Nat := 0x1268
/-- CTL_W_IINIT, offset 0x126C. -/
abbrev CTL_W_IINIT : Nat := 0x126C
/-- CTL_W_RATE, offset 0x1270. -/
abbrev CTL_W_RATE : Nat := 0x1270
/-- CTL_W_SLEW_UP, offset 0x1274. -/
abbrev CTL_W_SLEW_UP : Nat := 0x1274
/-- CTL_W_SLEW_DN, offset 0x1278. -/
abbrev CTL_W_SLEW_DN : Nat := 0x1278
/-- CTL_W_KRC, offset 0x127C. -/
abbrev CTL_W_KRC : Nat := 0x127C
/-- CTL_W_QC, offset 0x1280. -/
abbrev CTL_W_QC : Nat := 0x1280
/-- CTL_W_QS, offset 0x1284. -/
abbrev CTL_W_QS : Nat := 0x1284
/-- CTL_L_STATE, offset 0x12A0. -/
abbrev CTL_L_STATE : Nat := 0x12A0
/-- CTL_L_R, offset 0x12A4. -/
abbrev CTL_L_R : Nat := 0x12A4
/-- CTL_L_Y, offset 0x12A8. -/
abbrev CTL_L_Y : Nat := 0x12A8
/-- CTL_L_I, offset 0x12AC. -/
abbrev CTL_L_I : Nat := 0x12AC
/-- CTL_L_U, offset 0x12B0. -/
abbrev CTL_L_U : Nat := 0x12B0
/-- CTL_SP[i], i below 64: offset 0x1300 + 0x4 × i. -/
abbrev CTL_SP (i : Nat) : Nat := 0x1300 + 0x4 * i
/-- CTL_IN_SCALE[i], i below 48: offset 0x1400 + 0x4 × i. -/
abbrev CTL_IN_SCALE (i : Nat) : Nat := 0x1400 + 0x4 * i
/-- CTL_RC_STAT[i], i below 8: offset 0x1500 + 0x4 × i. -/
abbrev CTL_RC_STAT (i : Nat) : Nat := 0x1500 + 0x4 * i
/-- CTL_GEN_CFG[i], i below 4: offset 0x1600 + 0x20 × i. -/
abbrev CTL_GEN_CFG (i : Nat) : Nat := 0x1600 + 0x20 * i
/-- CTL_GEN_AMP[i], i below 4: offset 0x1604 + 0x20 × i. -/
abbrev CTL_GEN_AMP (i : Nat) : Nat := 0x1604 + 0x20 * i
/-- CTL_GEN_FREQ[i], i below 4: offset 0x1608 + 0x20 × i. -/
abbrev CTL_GEN_FREQ (i : Nat) : Nat := 0x1608 + 0x20 * i
/-- CTL_GEN_PHASE[i], i below 4: offset 0x160C + 0x20 × i. -/
abbrev CTL_GEN_PHASE (i : Nat) : Nat := 0x160C + 0x20 * i
/-- CTL_GEN_CTRL[i], i below 4: offset 0x1610 + 0x20 × i. -/
abbrev CTL_GEN_CTRL (i : Nat) : Nat := 0x1610 + 0x20 * i
/-- CTL_GEN_STAT[i], i below 4: offset 0x1614 + 0x20 × i. -/
abbrev CTL_GEN_STAT (i : Nat) : Nat := 0x1614 + 0x20 * i
/-- CTL_TONE_SEL, offset 0x1680. -/
abbrev CTL_TONE_SEL : Nat := 0x1680
/-- CTL_TONE_CFG, offset 0x1684. -/
abbrev CTL_TONE_CFG : Nat := 0x1684
/-- CTL_TONE_AMP, offset 0x1688. -/
abbrev CTL_TONE_AMP : Nat := 0x1688
/-- CTL_PL_CFG[i], i below 5: offset 0x1700 + 0x20 × i. -/
abbrev CTL_PL_CFG (i : Nat) : Nat := 0x1700 + 0x20 * i
/-- CTL_PL_TOL_ABS[i], i below 5: offset 0x1704 + 0x20 × i. -/
abbrev CTL_PL_TOL_ABS (i : Nat) : Nat := 0x1704 + 0x20 * i
/-- CTL_PL_TOL_REL[i], i below 5: offset 0x1708 + 0x20 × i. -/
abbrev CTL_PL_TOL_REL (i : Nat) : Nat := 0x1708 + 0x20 * i
/-- CTL_PL_STAT[i], i below 5: offset 0x170C + 0x20 × i. -/
abbrev CTL_PL_STAT (i : Nat) : Nat := 0x170C + 0x20 * i
/-- CTL_PL_RES[i], i below 5: offset 0x1710 + 0x20 × i. -/
abbrev CTL_PL_RES (i : Nat) : Nat := 0x1710 + 0x20 * i
/-- CTL_PL_LARM, offset 0x17A0. -/
abbrev CTL_PL_LARM : Nat := 0x17A0
/-- CTL_CAP_CFG, offset 0x1800. -/
abbrev CTL_CAP_CFG : Nat := 0x1800
/-- CTL_CAP_CTRL, offset 0x1804. -/
abbrev CTL_CAP_CTRL : Nat := 0x1804
/-- CTL_CAP_STAT, offset 0x1808. -/
abbrev CTL_CAP_STAT : Nat := 0x1808
/-- CTL_CAP_SRC[i], i below 4: offset 0x1810 + 0x4 × i. -/
abbrev CTL_CAP_SRC (i : Nat) : Nat := 0x1810 + 0x4 * i
/-- CTL_CAP_ADDR, offset 0x1820. -/
abbrev CTL_CAP_ADDR : Nat := 0x1820
/-- CTL_CAP_DATA, offset 0x1824. -/
abbrev CTL_CAP_DATA : Nat := 0x1824
/-- CTL_ARM_W[i], i below 6: offset 0x1900 + 0x10 × i. -/
abbrev CTL_ARM_W (i : Nat) : Nat := 0x1900 + 0x10 * i
/-- CTL_ARM_VSUM[i], i below 6: offset 0x1904 + 0x10 × i. -/
abbrev CTL_ARM_VSUM (i : Nat) : Nat := 0x1904 + 0x10 * i
/-- CTL_ARM_VNEG[i], i below 6: offset 0x1908 + 0x10 × i. -/
abbrev CTL_ARM_VNEG (i : Nat) : Nat := 0x1908 + 0x10 * i
/-- CTL_ARM_CNT[i], i below 6: offset 0x190C + 0x10 × i. -/
abbrev CTL_ARM_CNT (i : Nat) : Nat := 0x190C + 0x10 * i
/-- GRD_STATUS, offset 0x1A00. -/
abbrev GRD_STATUS : Nat := 0x1A00
/-- GRD_CAUSE, offset 0x1A04. -/
abbrev GRD_CAUSE : Nat := 0x1A04
/-- GRD_CAUSE_EN, offset 0x1A08. -/
abbrev GRD_CAUSE_EN : Nat := 0x1A08
/-- GRD_CFG, offset 0x1A0C. -/
abbrev GRD_CFG : Nat := 0x1A0C
/-- GRD_ACTION, offset 0x1A10. -/
abbrev GRD_ACTION : Nat := 0x1A10
/-- GRD_ACTION_STAT, offset 0x1A14. -/
abbrev GRD_ACTION_STAT : Nat := 0x1A14
/-- GRD_ANGLE, offset 0x1A18. -/
abbrev GRD_ANGLE : Nat := 0x1A18
/-- GRD_STEP, offset 0x1A1C. -/
abbrev GRD_STEP : Nat := 0x1A1C
/-- GRD_TIME0, offset 0x1A20. -/
abbrev GRD_TIME0 : Nat := 0x1A20
/-- GRD_TIME1, offset 0x1A24. -/
abbrev GRD_TIME1 : Nat := 0x1A24
/-- GRD_TIME2, offset 0x1A28. -/
abbrev GRD_TIME2 : Nat := 0x1A28
/-- GRD_TIME3, offset 0x1A2C. -/
abbrev GRD_TIME3 : Nat := 0x1A2C
/-- GRD_TIME4, offset 0x1A30. -/
abbrev GRD_TIME4 : Nat := 0x1A30
/-- GRD_TIME5, offset 0x1A34. -/
abbrev GRD_TIME5 : Nat := 0x1A34
/-- GRD_FORM_SLOTS_LO, offset 0x1A38. -/
abbrev GRD_FORM_SLOTS_LO : Nat := 0x1A38
/-- GRD_FORM_SLOTS_HI, offset 0x1A3C. -/
abbrev GRD_FORM_SLOTS_HI : Nat := 0x1A3C
/-- GRD_CRV_SEL, offset 0x1A40. -/
abbrev GRD_CRV_SEL : Nat := 0x1A40
/-- GRD_CRV_BANK, offset 0x1A44. -/
abbrev GRD_CRV_BANK : Nat := 0x1A44
/-- GRD_CRV_CFG, offset 0x1A48. -/
abbrev GRD_CRV_CFG : Nat := 0x1A48
/-- GRD_CRV_XON, offset 0x1A4C. -/
abbrev GRD_CRV_XON : Nat := 0x1A4C
/-- GRD_CRV_XOFF, offset 0x1A50. -/
abbrev GRD_CRV_XOFF : Nat := 0x1A50
/-- GRD_CRV_LIVE, offset 0x1A54. -/
abbrev GRD_CRV_LIVE : Nat := 0x1A54
/-- GRD_CH_P, offset 0x1A58. -/
abbrev GRD_CH_P : Nat := 0x1A58
/-- GRD_CH_THETA, offset 0x1A5C. -/
abbrev GRD_CH_THETA : Nat := 0x1A5C
/-- GRD_PAR[i], i below 64: offset 0x1B00 + 0x4 × i. -/
abbrev GRD_PAR (i : Nat) : Nat := 0x1B00 + 0x4 * i
/-- GRD_CRV_X[i], i below 32: offset 0x1C00 + 0x8 × i. -/
abbrev GRD_CRV_X (i : Nat) : Nat := 0x1C00 + 0x8 * i
/-- GRD_CRV_Y[i], i below 32: offset 0x1C04 + 0x8 × i. -/
abbrev GRD_CRV_Y (i : Nat) : Nat := 0x1C04 + 0x8 * i
/-- GRD_OUT[i], i below 64: offset 0x1D00 + 0x4 × i. -/
abbrev GRD_OUT (i : Nat) : Nat := 0x1D00 + 0x4 * i
/-- PRT_STATUS, offset 0x1E00. -/
abbrev PRT_STATUS : Nat := 0x1E00
/-- PRT_CAUSE, offset 0x1E04. -/
abbrev PRT_CAUSE : Nat := 0x1E04
/-- PRT_CAUSE_EN, offset 0x1E08. -/
abbrev PRT_CAUSE_EN : Nat := 0x1E08
/-- PRT_ESCALATE, offset 0x1E0C. -/
abbrev PRT_ESCALATE : Nat := 0x1E0C
/-- PRT_HOLD, offset 0x1E10. -/
abbrev PRT_HOLD : Nat := 0x1E10
/-- PRT_DISC, offset 0x1E14. -/
abbrev PRT_DISC : Nat := 0x1E14
/-- PRT_RESET, offset 0x1E18. -/
abbrev PRT_RESET : Nat := 0x1E18
/-- PRT_RESET_STAT, offset 0x1E1C. -/
abbrev PRT_RESET_STAT : Nat := 0x1E1C
/-- PRT_BLOCK_LATCH, offset 0x1E20. -/
abbrev PRT_BLOCK_LATCH : Nat := 0x1E20
/-- PRT_BLOCK_CNT, offset 0x1E24. -/
abbrev PRT_BLOCK_CNT : Nat := 0x1E24
/-- PRT_VOTE, offset 0x1E28. -/
abbrev PRT_VOTE : Nat := 0x1E28
/-- PRT_TRIP_CFG[i], i below 4: offset 0x1E30 + 0x4 × i. -/
abbrev PRT_TRIP_CFG (i : Nat) : Nat := 0x1E30 + 0x4 * i
/-- PRT_RAISED[i], i below 3: offset 0x1E40 + 0x4 × i. -/
abbrev PRT_RAISED (i : Nat) : Nat := 0x1E40 + 0x4 * i
/-- PRT_LOCKED[i], i below 3: offset 0x1E50 + 0x4 × i. -/
abbrev PRT_LOCKED (i : Nat) : Nat := 0x1E50 + 0x4 * i
/-- PRT_SRC_CFG[i], i below 72: offset 0x1F00 + 0x4 × i. -/
abbrev PRT_SRC_CFG (i : Nat) : Nat := 0x1F00 + 0x4 * i
/-- PRT_SRC_STAT[i], i below 72: offset 0x2040 + 0x4 × i. -/
abbrev PRT_SRC_STAT (i : Nat) : Nat := 0x2040 + 0x4 * i
/-- PRT_LIM[i], i below 16: offset 0x2180 + 0x4 × i. -/
abbrev PRT_LIM (i : Nat) : Nat := 0x2180 + 0x4 * i
/-- PRT_SCALE[i], i below 48: offset 0x2200 + 0x4 × i. -/
abbrev PRT_SCALE (i : Nat) : Nat := 0x2200 + 0x4 * i
/-- MFE_XCHK, offset 0x2400. -/
abbrev MFE_XCHK : Nat := 0x2400
/-- MFE_AGC, offset 0x2404. -/
abbrev MFE_AGC : Nat := 0x2404
/-- MFE_TEST, offset 0x2408. -/
abbrev MFE_TEST : Nat := 0x2408
/-- MFE_TEST_STAT, offset 0x240C. -/
abbrev MFE_TEST_STAT : Nat := 0x240C
/-- MFE_CAUSE, offset 0x2410. -/
abbrev MFE_CAUSE : Nat := 0x2410
/-- MFE_CAUSE_EN, offset 0x2414. -/
abbrev MFE_CAUSE_EN : Nat := 0x2414
/-- MFE_TRIM_F[i], i below 48: offset 0x2440 + 0x4 × i. -/
abbrev MFE_TRIM_F (i : Nat) : Nat := 0x2440 + 0x4 * i
/-- MFE_INCFG[i], i below 48: offset 0x2500 + 0x4 × i. -/
abbrev MFE_INCFG (i : Nat) : Nat := 0x2500 + 0x4 * i
/-- MFE_TRIM_U[i], i below 48: offset 0x2600 + 0x4 × i. -/
abbrev MFE_TRIM_U (i : Nat) : Nat := 0x2600 + 0x4 * i
/-- MFE_VAL[i], i below 48: offset 0x2700 + 0x4 × i. -/
abbrev MFE_VAL (i : Nat) : Nat := 0x2700 + 0x4 * i
/-- MFE_INSTAT[i], i below 48: offset 0x2800 + 0x4 × i. -/
abbrev MFE_INSTAT (i : Nat) : Nat := 0x2800 + 0x4 * i
/-- MFE_WIN_LO[i], i below 48: offset 0x2900 + 0x8 × i. -/
abbrev MFE_WIN_LO (i : Nat) : Nat := 0x2900 + 0x8 * i
/-- MFE_WIN_HI[i], i below 48: offset 0x2904 + 0x8 × i. -/
abbrev MFE_WIN_HI (i : Nat) : Nat := 0x2904 + 0x8 * i
/-- MFE_CMP_CFG[i], i below 16: offset 0x2A80 + 0x10 × i. -/
abbrev MFE_CMP_CFG (i : Nat) : Nat := 0x2A80 + 0x10 * i
/-- MFE_CMP_THR[i], i below 16: offset 0x2A84 + 0x10 × i. -/
abbrev MFE_CMP_THR (i : Nat) : Nat := 0x2A84 + 0x10 * i
/-- MFE_CMP_RAMP[i], i below 16: offset 0x2A88 + 0x10 × i. -/
abbrev MFE_CMP_RAMP (i : Nat) : Nat := 0x2A88 + 0x10 * i
/-- MFE_CMP_STAT[i], i below 16: offset 0x2A8C + 0x10 × i. -/
abbrev MFE_CMP_STAT (i : Nat) : Nat := 0x2A8C + 0x10 * i
/-- MFE_ENC_CFG[i], i below 3: offset 0x2B80 + 0x10 × i. -/
abbrev MFE_ENC_CFG (i : Nat) : Nat := 0x2B80 + 0x10 * i
/-- MFE_ENC_POS[i], i below 3: offset 0x2B84 + 0x10 × i. -/
abbrev MFE_ENC_POS (i : Nat) : Nat := 0x2B84 + 0x10 * i
/-- MFE_ENC_STAT[i], i below 3: offset 0x2B88 + 0x10 × i. -/
abbrev MFE_ENC_STAT (i : Nat) : Nat := 0x2B88 + 0x10 * i
/-- MFE_ENC_REREF[i], i below 3: offset 0x2B8C + 0x10 × i. -/
abbrev MFE_ENC_REREF (i : Nat) : Nat := 0x2B8C + 0x10 * i
/-- MTR_STATUS, offset 0x2C00. -/
abbrev MTR_STATUS : Nat := 0x2C00
/-- MTR_CAUSE, offset 0x2C04. -/
abbrev MTR_CAUSE : Nat := 0x2C04
/-- MTR_CAUSE_EN, offset 0x2C08. -/
abbrev MTR_CAUSE_EN : Nat := 0x2C08
/-- MTR_CFG, offset 0x2C0C. -/
abbrev MTR_CFG : Nat := 0x2C0C
/-- MTR_SEAL, offset 0x2C10. -/
abbrev MTR_SEAL : Nat := 0x2C10
/-- MTR_SEAL_STAT, offset 0x2C14. -/
abbrev MTR_SEAL_STAT : Nat := 0x2C14
/-- MTR_CHECK, offset 0x2C18. -/
abbrev MTR_CHECK : Nat := 0x2C18
/-- MTR_ACTION, offset 0x2C1C. -/
abbrev MTR_ACTION : Nat := 0x2C1C
/-- MTR_ACTION_STAT, offset 0x2C20. -/
abbrev MTR_ACTION_STAT : Nat := 0x2C20
/-- MTR_RESTORE, offset 0x2C24. -/
abbrev MTR_RESTORE : Nat := 0x2C24
/-- MTR_RESTORE_EPOCH, offset 0x2C28. -/
abbrev MTR_RESTORE_EPOCH : Nat := 0x2C28
/-- MTR_SAVE_EPOCH, offset 0x2C2C. -/
abbrev MTR_SAVE_EPOCH : Nat := 0x2C2C
/-- MTR_SCALE[i], i below 8: offset 0x2C40 + 0x4 × i. -/
abbrev MTR_SCALE (i : Nat) : Nat := 0x2C40 + 0x4 * i
/-- MTR_TOTAL_LO[i], i below 6: offset 0x2C80 + 0x8 × i. -/
abbrev MTR_TOTAL_LO (i : Nat) : Nat := 0x2C80 + 0x8 * i
/-- MTR_TOTAL_HI[i], i below 6: offset 0x2C84 + 0x8 × i. -/
abbrev MTR_TOTAL_HI (i : Nat) : Nat := 0x2C84 + 0x8 * i
/-- MTR_FRAC[i], i below 6: offset 0x2CC0 + 0x4 × i. -/
abbrev MTR_FRAC (i : Nat) : Nat := 0x2CC0 + 0x4 * i
/-- MTR_WIDE[i], i below 72: offset 0x2D00 + 0x4 × i. -/
abbrev MTR_WIDE (i : Nat) : Nat := 0x2D00 + 0x4 * i
/-- MTR_PULSE_CFG[i], i below 8: offset 0x2E40 + 0x10 × i. -/
abbrev MTR_PULSE_CFG (i : Nat) : Nat := 0x2E40 + 0x10 * i
/-- MTR_PULSE_K_LO[i], i below 8: offset 0x2E44 + 0x10 × i. -/
abbrev MTR_PULSE_K_LO (i : Nat) : Nat := 0x2E44 + 0x10 * i
/-- MTR_PULSE_K_HI[i], i below 8: offset 0x2E48 + 0x10 × i. -/
abbrev MTR_PULSE_K_HI (i : Nat) : Nat := 0x2E48 + 0x10 * i
/-- MTR_PULSE_STAT[i], i below 8: offset 0x2E4C + 0x10 × i. -/
abbrev MTR_PULSE_STAT (i : Nat) : Nat := 0x2E4C + 0x10 * i
/-- MTR_STORE_Q[i], i below 7: offset 0x2F00 + 0x8 × i. -/
abbrev MTR_STORE_Q (i : Nat) : Nat := 0x2F00 + 0x8 * i
/-- MTR_STORE_M[i], i below 7: offset 0x2F04 + 0x8 × i. -/
abbrev MTR_STORE_M (i : Nat) : Nat := 0x2F04 + 0x8 * i
/-- SAF_STATUS, offset 0x3000. -/
abbrev SAF_STATUS : Nat := 0x3000
/-- SAF_CAUSE, offset 0x3004. -/
abbrev SAF_CAUSE : Nat := 0x3004
/-- SAF_CAUSE_EN, offset 0x3008. -/
abbrev SAF_CAUSE_EN : Nat := 0x3008
/-- SAF_INPUTS, offset 0x300C. -/
abbrev SAF_INPUTS : Nat := 0x300C
/-- SAF_CHAN, offset 0x3010. -/
abbrev SAF_CHAN : Nat := 0x3010
/-- SAF_OUTPUTS, offset 0x3014. -/
abbrev SAF_OUTPUTS : Nat := 0x3014
/-- SAF_DEMAND, offset 0x3018. -/
abbrev SAF_DEMAND : Nat := 0x3018
/-- SAF_CHECK, offset 0x301C. -/
abbrev SAF_CHECK : Nat := 0x301C
/-- SAF_PEND_CHECK, offset 0x3020. -/
abbrev SAF_PEND_CHECK : Nat := 0x3020
/-- SAF_CONFIRM, offset 0x3024. -/
abbrev SAF_CONFIRM : Nat := 0x3024
/-- SAF_CONFIRM_VALUE, offset 0x3028. -/
abbrev SAF_CONFIRM_VALUE : Nat := 0x3028
/-- SAF_CONFIRM_STAT, offset 0x302C. -/
abbrev SAF_CONFIRM_STAT : Nat := 0x302C
/-- SAF_VIEW, offset 0x3030. -/
abbrev SAF_VIEW : Nat := 0x3030
/-- SAF_RESET_STAT, offset 0x3034. -/
abbrev SAF_RESET_STAT : Nat := 0x3034
/-- SAF_TG_STAT, offset 0x3040. -/
abbrev SAF_TG_STAT : Nat := 0x3040
/-- SAF_TG_SEQ_TX, offset 0x3044. -/
abbrev SAF_TG_SEQ_TX : Nat := 0x3044
/-- SAF_TG_SEQ_RX, offset 0x3048. -/
abbrev SAF_TG_SEQ_RX : Nat := 0x3048
/-- SAF_TG_RXDATA, offset 0x304C. -/
abbrev SAF_TG_RXDATA : Nat := 0x304C
/-- SAF_TG_TXDATA, offset 0x3050. -/
abbrev SAF_TG_TXDATA : Nat := 0x3050
/-- SAF_TG_CNT[i], i below 8: offset 0x3060 + 0x4 × i. -/
abbrev SAF_TG_CNT (i : Nat) : Nat := 0x3060 + 0x4 * i
/-- SAF_PORT_STAT[i], i below 2: offset 0x3080 + 0x4 × i. -/
abbrev SAF_PORT_STAT (i : Nat) : Nat := 0x3080 + 0x4 * i
/-- SAF_MIRROR, offset 0x3090. -/
abbrev SAF_MIRROR : Nat := 0x3090
/-- SAF_MIRROR_SRC, offset 0x3094. -/
abbrev SAF_MIRROR_SRC : Nat := 0x3094
/-- SAF_PAIR_CFG[i], i below 16: offset 0x3100 + 0x4 × i. -/
abbrev SAF_PAIR_CFG (i : Nat) : Nat := 0x3100 + 0x4 * i
/-- SAF_OUT_CFG[i], i below 8: offset 0x3140 + 0x4 × i. -/
abbrev SAF_OUT_CFG (i : Nat) : Nat := 0x3140 + 0x4 * i
/-- SAF_TP_CFG, offset 0x3160. -/
abbrev SAF_TP_CFG : Nat := 0x3160
/-- SAF_OP_CFG, offset 0x3164. -/
abbrev SAF_OP_CFG : Nat := 0x3164
/-- SAF_TIME, offset 0x3168. -/
abbrev SAF_TIME : Nat := 0x3168
/-- SAF_TG_CFG, offset 0x316C. -/
abbrev SAF_TG_CFG : Nat := 0x316C
/-- SAF_TG_OWN_ID, offset 0x3170. -/
abbrev SAF_TG_OWN_ID : Nat := 0x3170
/-- SAF_TG_PEER_ID, offset 0x3174. -/
abbrev SAF_TG_PEER_ID : Nat := 0x3174
/-- SAF_TG_PEER_CHECK, offset 0x3178. -/
abbrev SAF_TG_PEER_CHECK : Nat := 0x3178
/-- SAF_PORT_MAC_LO[i], i below 2: offset 0x3180 + 0x20 × i. -/
abbrev SAF_PORT_MAC_LO (i : Nat) : Nat := 0x3180 + 0x20 * i
/-- SAF_PORT_MAC_HI[i], i below 2: offset 0x3184 + 0x20 × i. -/
abbrev SAF_PORT_MAC_HI (i : Nat) : Nat := 0x3184 + 0x20 * i
/-- SAF_PORT_IP[i], i below 2: offset 0x3188 + 0x20 × i. -/
abbrev SAF_PORT_IP (i : Nat) : Nat := 0x3188 + 0x20 * i
/-- SAF_PORT_PEER_IP[i], i below 2: offset 0x318C + 0x20 × i. -/
abbrev SAF_PORT_PEER_IP (i : Nat) : Nat := 0x318C + 0x20 * i
/-- SAF_PORT_PEER_MAC_LO[i], i below 2: offset 0x3190 + 0x20 × i. -/
abbrev SAF_PORT_PEER_MAC_LO (i : Nat) : Nat := 0x3190 + 0x20 * i
/-- SAF_PORT_PEER_MAC_HI[i], i below 2: offset 0x3194 + 0x20 × i. -/
abbrev SAF_PORT_PEER_MAC_HI (i : Nat) : Nat := 0x3194 + 0x20 * i
/-- SAF_PORT_UDP[i], i below 2: offset 0x3198 + 0x20 × i. -/
abbrev SAF_PORT_UDP (i : Nat) : Nat := 0x3198 + 0x20 * i
/-- TRK_STATUS, offset 0x3400. -/
abbrev TRK_STATUS : Nat := 0x3400
/-- TRK_CAUSE, offset 0x3404. -/
abbrev TRK_CAUSE : Nat := 0x3404
/-- TRK_CAUSE_EN, offset 0x3408. -/
abbrev TRK_CAUSE_EN : Nat := 0x3408
/-- TRK_ACTION, offset 0x340C. -/
abbrev TRK_ACTION : Nat := 0x340C
/-- TRK_BIN_NEWEST, offset 0x3410. -/
abbrev TRK_BIN_NEWEST : Nat := 0x3410
/-- TRK_BIN_OLDEST, offset 0x3414. -/
abbrev TRK_BIN_OLDEST : Nat := 0x3414
/-- TRK_BIN_SEL, offset 0x3418. -/
abbrev TRK_BIN_SEL : Nat := 0x3418
/-- TRK_QUEUE, offset 0x341C. -/
abbrev TRK_QUEUE : Nat := 0x341C
/-- TRK_SUPPRESSED, offset 0x3420. -/
abbrev TRK_SUPPRESSED : Nat := 0x3420
/-- TRK_BIN_DATA[i], i below 16: offset 0x3440 + 0x4 × i. -/
abbrev TRK_BIN_DATA (i : Nat) : Nat := 0x3440 + 0x4 * i
/-- DBG_STATUS, offset 0x3600. -/
abbrev DBG_STATUS : Nat := 0x3600
/-- DBG_CAUSE, offset 0x3604. -/
abbrev DBG_CAUSE : Nat := 0x3604
/-- DBG_CAUSE_EN, offset 0x3608. -/
abbrev DBG_CAUSE_EN : Nat := 0x3608
/-- DBG_CTRL, offset 0x360C. -/
abbrev DBG_CTRL : Nat := 0x360C
/-- DBG_HALT, offset 0x3610. -/
abbrev DBG_HALT : Nat := 0x3610
/-- DBG_CAP_CFG, offset 0x3620. -/
abbrev DBG_CAP_CFG : Nat := 0x3620
/-- DBG_CAP_CTRL, offset 0x3624. -/
abbrev DBG_CAP_CTRL : Nat := 0x3624
/-- DBG_CAP_STAT, offset 0x3628. -/
abbrev DBG_CAP_STAT : Nat := 0x3628
/-- DBG_CAP_ADDR, offset 0x362C. -/
abbrev DBG_CAP_ADDR : Nat := 0x362C
/-- DBG_CAP_DATA, offset 0x3630. -/
abbrev DBG_CAP_DATA : Nat := 0x3630

end Sys2Proof.Machine.R
end

