-- ==== Sys2Proof/Machine/SMap.lean ====
section
/-! DEFINITION. Sparse stores: a list of (key, value) pairs in one canonical form, keys strictly rising and no entry
equal to what an unlisted key reads as. Registers, tables, buffers and memories of the block are such stores, so that
equal contents are equal data. -/

namespace Sys2Proof.Machine

/-- A sparse store over natural-number keys. -/
abbrev SMap (α : Type) := List (Nat × α)

/-- The listed value of key k, if there is one. -/
def smFind {α : Type} : SMap α → Nat → Option α
  | [], _ => none
  | (a, b) :: t, k => if a = k then some b else smFind t k

/-- The value of key k in a store whose unlisted keys read as d. -/
def smGet {α : Type} (d : α) (m : SMap α) (k : Nat) : α := (smFind m k).getD d

/-- The store without key k. -/
def smErase {α : Type} (m : SMap α) (k : Nat) : SMap α := m.filter (fun p => p.1 != k)

/-- Places (k, v) in key order in a store that does not list k. -/
def smInsert {α : Type} : SMap α → Nat → α → SMap α
  | [], k, v => [(k, v)]
  | (a, b) :: t, k, v => if k < a then (k, v) :: (a, b) :: t else (a, b) :: smInsert t k v

/-- The store with key k holding v: the entry is removed when v is what an unlisted key reads as. -/
def smSet {α : Type} [DecidableEq α] (d : α) (m : SMap α) (k : Nat) (v : α) : SMap α :=
  if v = d then smErase m k else smInsert (smErase m k) k v

/-- The store with f applied to the value of key k. -/
def smUpd {α : Type} [DecidableEq α] (d : α) (m : SMap α) (k : Nat) (f : α → α) : SMap α :=
  smSet d m k (f (smGet d m k))

/-- Several values placed at consecutive keys from k upward. -/
def smSetList {α : Type} [DecidableEq α] (d : α) (m : SMap α) (k : Nat) : List α → SMap α
  | [] => m
  | v :: vs => smSetList d (smSet d m k v) (k + 1) vs

/-- The canonical form: keys strictly rising, and no entry equal to the value of an unlisted key. -/
def smWf {α : Type} [DecidableEq α] (d : α) : SMap α → Bool
  | [] => true
  | [(_, v)] => v != d
  | (a, v) :: (b, w) :: t => a < b && v != d && smWf d ((b, w) :: t)

end Sys2Proof.Machine
end

