-- ==== Sys2Proof/Machine/StBase.lean ====
section
/-! DEFINITION. The state of the register file, the system block, the Hatches, the Power Manager, the Reference
Synthesiser, the Start Sequencer and the Trunk (chapters 01, 12, 13, 14). -/

namespace Sys2Proof.Machine

/-- The converter states (R31). -/
inductive Conv where
  | off | charge | ready | run | hold | lockout
deriving DecidableEq, Repr

/-- The encoding of R31. -/
def Conv.code : Conv → Nat
  | .off => 0 | .charge => 1 | .ready => 2 | .run => 3 | .hold => 4 | .lockout => 5

/-- A write accepted and not yet in effect (R447, R448, R459, R490), with the boundary at which it is due: the pending image
of a register (boot when it comes from the configuration image, R425) with the offset last written (R399), the clear of LT fields, the action of a WA write, or
a map entry of the configuration image or of a host (R28, R424). (DEDUCED, log 7; DESIGN CHOICE, log 41.) -/
inductive Pending where
  | image (key : Nat) (req : Requester) (img : Word) (due : Epoch) (boot : Bool) (off : Nat)
  | ltClear (key : Nat) (req : Requester) (mask : Word) (due : Epoch)
  | action (req : Requester) (off : Nat) (value : Word) (due : Epoch)
  | map (home : Nat) (req : Requester) (entry : BitVec 16) (due : Epoch) (boot : Bool)
deriving DecidableEq, Repr

/-- The register file (R437): one word per implemented register, window element or per-requester copy. Copies B and C
of a TV word are listed where they differ from copy A (R455). ltNow holds, by key, the bits of LT fields whose event has
occurred in the present epoch (R11, R459). (DESIGN CHOICE, log 6.) -/
structure RegSt where
  a : SMap Word := []
  b : SMap Word := []
  c : SMap Word := []
  pend : List Pending := []
  ltNow : SMap Word := []
deriving DecidableEq, Repr

/-- A transition to RUN that has been decided and announced (R34, R35): the epoch E(k) at which RUN begins, whether it
was a recovery from HOLD, and the DEBLOCK orders that complete with it. -/
structure Announce where
  k : Epoch
  recovery : Bool
  orders : List OrderRef
deriving DecidableEq, Repr

/-- The kind of state order evaluated first at the present boundary and the status it was given (R382). -/
structure TakenOrder where
  opcode : Nat
  status : Nat
  open_ : Bool
deriving DecidableEq, Repr

/-- The system block: epoch, plan, converter state machine and submodule map (chapter 01). -/
structure SysSt where
  epoch : Epoch := 0
  counting : Bool := false
  compat : Bool := false
  era : Nat := 0
  conv : Conv := .off
  prev : Conv := .off
  cause : Nat := 0
  runBlocked : Nat := 0x40
  moved : Bool := false
  taken : Option TakenOrder := none
  chargeGood : Nat := 0
  chargeBad : Nat := 0
  chargeEp : Nat := 0
  chargeExpired : Bool := false
  announce : Option Announce := none
  stopOrders : List OrderRef := []
  map : SMap (BitVec 16) := []
  missNow : Nat := 0
  missRun : SMap Nat := []
  tj : Int := 0
deriving DecidableEq, Repr

/-- A ring of a Hatch (R374–R378). -/
structure RingSt where
  enable : Bool := false
  stopped : Bool := false
  error : Nat := 0
  base : DWord := 0
  sizeLog2 : Nat := 6
  vector : Nat := 0
  cr : Nat := 0
  index : Nat := 0
  phase : Bool := true
  bell : Nat := 0
  reserved : Nat := 0
deriving DecidableEq, Repr

/-- An order fetched and not yet evaluated: its place in the fetch order, its ring and index, its words and the first
boundary at which it may be evaluated (R380, R381). -/
structure Fetched where
  seq : Nat
  ring : Nat
  index : Nat
  words : List DWord
  due : Epoch
deriving DecidableEq, Repr

/-- What the configuration space of a Hatch shows: the identity fields of its header (R371), its power state, its link and the sizes in
force, and its errors (R369, R400). -/
inductive CfgField where
  | vendorId | subsystemVendorId | deviceId | subsystemId | revisionId | classCode | serialNumber
  | powerState | linkSpeed | linkWidth | maxPayload | maxReadRequest | cplTimeout | aerStatus | aerMask | aerSeverity
deriving DecidableEq, Repr

/-- How a memory read of a Hatch completes: with its words, as Completer Abort or as Unsupported Request (R370, R372, R400). -/
inductive ReadDone where
  | data (ws : List Word)
  | abort
  | unsupported
deriving DecidableEq, Repr

/-- An order fetched and not completed: its place in the fetch order, its ring, index and TAG, and the completion ring in which its entry is
reserved, none once that ring has been disabled since (R377, R381). (DEDUCED, log 33.) -/
structure OpenOrder where
  seq : Nat
  ring : Nat
  index : Nat
  tag : Nat
  cr : Option Nat
deriving DecidableEq, Repr

/-- The state of one Hatch (chapter 12): its link, its configuration and its uncorrectable error status (R400), its MSI-X table (the masks apart), silence, its rings, its descriptor
reads in progress as (ring, index, completion ring), and its orders and events. -/
structure HatSt where
  linkUp : Bool := false
  d3hot : Bool := false
  bme : Bool := false
  msixEn : Bool := false
  msixMask : DWord := 0
  msixPending : DWord := 0
  msixTable : SMap (DWord × Word) := []
  silent : Bool := false
  kickAge : Nat := 0
  or_ : SMap RingSt := []
  cr : SMap RingSt := []
  ev : RingSt := {}
  reads : List (Nat × Nat × Nat) := []
  fetched : List Fetched := []
  fetchSeq : Nat := 0
  openOrders : List OpenOrder := []
  evSeq : Nat := 0
  lost : Nat := 0
  pcie : PcieCfg := {}
  aer : Word := 0
deriving DecidableEq, Repr

/-- The optional work items of R410, in bit order: capture, diagnostic mirror, debug capture. -/
inductive OptItem where
  | capture | mirror | debugCapture
deriving DecidableEq, Repr

/-- The Power Manager (chapter 13). -/
structure PwrSt where
  ready : Nat := 0
  switching : Nat := 0
  setMv : Nat := 0
  measMv : Nat := 0
  pendingRaise : Nat := 0
  pendingLower : Nat := 0
  lastVout : Option Epoch := none
  windowLow : Bool := false
  windowRaised : Bool := false
  windowEp : Nat := 0
  slackLimit : Bool := false
  fails : List Nat := [0, 0]
  pmbFail : List Bool := [false, false]
  devRun : List Nat := [0, 0]
  regPower : List Rat := [0, 0]
  draw : Rat := 0
  admitted : List OptItem := []
  waiting : List OptItem := []
  sincePoll : Rat := 0
  overRun : Nat := 0
  overBudget : Bool := false
  pfail : Bool := false
  pfailSave : Bool := false
  vcoreEn : Bool := false
deriving DecidableEq, Repr

/-- The states of the Reference Synthesiser, in the encoding of REF_STATUS.STATE. -/
inductive RefState where
  | unlocked | locked | holdover | unmuteWait
deriving DecidableEq, Repr

/-- The encoding of REF_STATUS.STATE. -/
def RefState.code : RefState → Nat
  | .unlocked => 0 | .locked => 1 | .holdover => 2 | .unmuteWait => 3

/-- The Reference Synthesiser (R411–R415). -/
structure RefSt where
  state : RefState := .unlocked
  muted : Bool := true
  waitEp : Nat := 0
  holdoverEp : Nat := 0
  band : Nat := 0
  range : Nat := 0
  calibrated : Bool := false
  sinceNs : Nat := 0
  holdoverNow : Bool := false
deriving DecidableEq, Repr

/-- The Start Sequencer's state, in the encoding of STR_STATUS.STATE. -/
inductive SeqState where
  | running | held | failed | complete
deriving DecidableEq, Repr

/-- The encoding of STR_STATUS.STATE. -/
def SeqState.code : SeqState → Nat
  | .running => 0 | .held => 1 | .failed => 2 | .complete => 3

/-- The Start Sequencer (R416–R421). -/
structure StartSt where
  powered : Bool := false
  step : Nat := 0
  active : Bool := false
  wasHeld : Bool := false
  state : SeqState := .running
  restart : Bool := false
  failCode : Nat := 0
  starts : Nat := 0
  retries : Nat := 0
  restartWanted : Option StartIn := none
  inputs : StartIn := {}
  record : SMap Word := []
  copy : Nat := 0
  aFault : Nat := 0
  bFault : Nat := 0
  ignored : Nat := 0
  imageSeq : Nat := 0
  aoNs : Nat := 0
deriving DecidableEq, Repr

/-- One slot of a two-slot Trunk object: its sequence number, whether its commit word and check pass, and its words (R427). -/
structure TrkSlot where
  seq : Nat := 0
  valid : Bool := false
  words : List Nat := []
deriving DecidableEq, Repr

/-- A Trunk object held in two slots (R427). -/
structure TrkObj where
  s0 : TrkSlot := {}
  s1 : TrkSlot := {}
deriving DecidableEq, Repr

/-- The Trunk objects that are written in two slots (R426, R428). -/
inductive TrkItem where
  | pfailSave | safetySet | periodicSave | directory | startRecord | bands | repairMap | sealState
deriving DecidableEq, Repr

/-- A Bin record waiting in the queue (R431, R432). -/
structure BinEnt where
  cause : Nat
  last : Bool
  holdover : Bool
  era : Nat
  epoch : Epoch
  suppressed : Nat
  aoUs : Nat
  payload : List Nat
deriving DecidableEq, Repr

/-- A write in progress: an object with its words, or a Bin record with its SEQ. -/
inductive TrkWrite where
  | obj (i : TrkItem) (words : List Nat)
  | bin (e : BinEnt)
  | ring (words : List Nat)
deriving DecidableEq, Repr

/-- The Trunk (R426–R433). -/
structure TrkSt where
  writeProt : Bool := false
  formatted : Bool := false
  busy : Option TrkWrite := none
  waiting : List (TrkItem × List Nat) := []
  waitRing : List (List Nat) := []
  directory : TrkObj := {}
  bands : TrkObj := {}
  safety : TrkObj := {}
  meter : TrkObj := {}
  sealState : TrkObj := {}
  repair : TrkObj := {}
  startRec : TrkObj := {}
  ring : List (List Nat) := []
  bin : SMap (List Nat) := []
  binSeq : Nat := 0
  queue : List BinEnt := []
  coalescing : Bool := false
  suppressed : SMap Nat := []
deriving DecidableEq, Repr

/-- What the device writes to the outside as a transaction: a completion, an event or a snapshot in host memory, an
MSI-X message, a descriptor read request, a management-port frame, a PMBus transaction (address, command and data written), a read of
the boot flash (command, address and bytes), a safety telegram or a mirror datagram, a word read, a request that a Hatch answers with Completer Abort or Unsupported Request, and an uncorrectable error that it
reports, fatal or not (R370, R400). Kept for the present epoch only. (DESIGN CHOICE, log 10; DESIGN CHOICE, log 40.) -/
inductive BusOut where
  | completion (h : Fin 4) (ring index : Nat) (words : List DWord)
  | event (h : Fin 4) (index : Nat) (words : List DWord)
  | hostData (h : Fin 4) (addr : DWord) (words : List Word)
  | msix (h : Fin 4) (vector : Nat)
  | descRead (h : Fin 4) (ring index : Nat)
  | mgmtFrame (bytes : List Byte)
  | readData (req : Requester) (off : Nat) (value : Word)
  | pmbus (addr cmd : Nat) (data : Option Nat) (pec fast : Bool)
  | flashRead (cmd addr bytes : Nat)
  | frame (port : Nat) (bytes : List Byte)
  | abort (h : Fin 4)
  | unsupported (h : Fin 4)
  | errorReport (h : Fin 4) (bit : Nat) (fatal : Bool)
deriving DecidableEq, Repr

end Sys2Proof.Machine
end

