-- ==== Sys2Proof/Machine/StCel.lean ====
section
/-! DEFINITION. The state of the Cellar, its snapshots and its Crates (chapter 05). -/

namespace Sys2Proof.Machine

/-- A record held in a Shelf (R139, R140). An address that is not listed is an EMPTY entry (R141). aux is the epoch at
which words 1 and 2 were delivered. -/
structure Entry where
  w0 : DWord
  w1 : DWord
  w2 : DWord
  src : Epoch
  aux : Epoch
  stale : Bool
  single : Bool
  late : Bool
  auxStale : Bool
  notDue : Bool
  uncorr : Bool
deriving DecidableEq, Repr

/-- One Shelf (R136–R150): the records written, the annex as 32-bit words, the lanes whose frame collects it and the lanes
that have delivered, whether its annex is complete, the HELD bits, the deadline mark and the header counts. read is S(n + 1) (R138);
got lists the addresses whose first accepted record was not written (R144); bad and badAnnex list the addresses and the 64-bit annex
words that cannot be read (R151). -/
structure Shelf where
  recs : SMap Entry := []
  annex : SMap Word := []
  expect : List Nat := []
  delivered : List Nat := []
  annexDone : Bool := false
  held : Nat := 0
  sealedAt : Option Epoch := none
  deadline : Bool := false
  missing : Nat := 0
  era : Nat := 0
  holdover : Bool := false
  crateId : Nat := 0
  crateEvent : Nat := 0
  bad : List Nat := []
  badAnnex : List Nat := []
  read : Option Epoch := none
  got : List Nat := []
deriving DecidableEq, Repr

/-- A snapshot request of a Hatch that waits for credit or for a seal (R153–R155). -/
structure SnapReq where
  ref : OrderRef
  args : SnapshotArgs
deriving DecidableEq, Repr

/-- One half of a snapshot buffer (R156): what its header shows, the four words of every address copied, and the annex. -/
structure Snap where
  epoch : Epoch
  era : Nat
  first : Nat
  count : Nat
  annex : Bool
  seq : Nat
  uncorr : Nat
  recs : SMap (List DWord)
  words : SMap Word
deriving DecidableEq, Repr

/-- The snapshot side of one Hatch: credit, requests waiting, the request whose copy fills the other half, the half shown and the other
half, and SEQ (R154, R156). -/
structure SnapSt where
  credit : Nat := 163840
  queue : List SnapReq := []
  copying : Option SnapReq := none
  shown : Option Snap := none
  other : Option Snap := none
  seq : Nat := 0
deriving DecidableEq, Repr

/-- The states of a Crate (R161). -/
inductive CrateState where
  | free | building | staging | committing | verifying | aborting | done
deriving DecidableEq, Repr

/-- The encoding of R161. -/
def CrateState.code : CrateState → Nat
  | .free => 0 | .building => 1 | .staging => 2 | .committing => 3
  | .verifying => 4 | .aborting => 5 | .done => 6

/-- A gate part: one unit with its items, the sequence number to send next, the launch of its last item, what the Shelves
have shown of it, and whether a record of it has shown STATE starting (R157, R163, R164, R166). -/
structure GatePart where
  home : Nat
  items : List StagedItem
  next : Nat := 0
  lastSent : Option Epoch := none
  acked : Bool := false
  nacked : Bool := false
  timedOut : Bool := false
  applied : Bool := false
  restarted : Bool := false
  oldBank : Nat := 0
deriving DecidableEq, Repr

/-- A device part: its code and its two words (R387). -/
structure DevPart where
  part : Nat
  w2 : Nat
  w3 : Nat
deriving DecidableEq, Repr

/-- One Crate slot (R157–R168): held lists the objects of the device parts that an abort has discarded (R163), closedAt is the epoch in which its close was accepted (R163), and verified the epoch in which Shelf X + 6
was evaluated (R161, R166). -/
structure Crate where
  state : CrateState := .free
  id : Nat := 0
  hatch : Fin 4 := 0
  gates : List GatePart := []
  devs : List DevPart := []
  held : List Nat := []
  openedAt : Epoch := 0
  closeRef : Option OrderRef := none
  stagedAt : Option Epoch := none
  eff : Option Epoch := none
  runAt : Option Epoch := none
  outcome : Nat := 0
  reason : Nat := 0
  failed : Nat := 0
  firstHome : Nat := 0
  ackedCount : Nat := 0
  gateCount : Nat := 0
  devCount : Nat := 0
  abortAsked : Bool := false
  stateLost : Bool := false
  doneAt : Epoch := 0
  closedAt : Epoch := 0
  verified : Option Epoch := none
deriving DecidableEq, Repr

/-- The Cellar. rowErrs holds, by row, the epochs of its corrected errors within the last 2^20 ep, newest first (R152). sealFirst and
sealing are the oldest and the newest Shelf that the seal pass of the present epoch sealed (R146). -/
structure CelSt where
  shelves : SMap Shelf := []
  newest : Option Epoch := none
  sealing : Option Epoch := none
  sealFirst : Option Epoch := none
  seen : SMap Bool := []
  missedSeals : Nat := 0
  rowErrs : SMap (List Epoch) := []
  marks : List Nat := []
  repaired : List Nat := []
  snaps : SMap SnapSt := []
  crates : SMap Crate := []
  lastId : Nat := 0
  idLast : SMap (Option Epoch) := []
  runs : List (Epoch × Epoch) := []
deriving DecidableEq, Repr

end Sys2Proof.Machine
end

