-- ==== Sys2Proof/Machine/StCtl.lean ====
section
/-! DEFINITION. The state of the Control Engines (chapter 06). Scalars of R174 are held as the rational numbers they are. -/

namespace Sys2Proof.Machine

/-- One loop slot (R187): its values of the last completed pass, the previous derivative input, the flags of its status
word, whether it ran, whether a restart was asked at a bank change, the bank of the pass, and the sum and count of the present bin
mean (R195). -/
structure SlotSt where
  r : Rat := 0
  y : Rat := 0
  e : Rat := 0
  p : Rat := 0
  i : Rat := 0
  d : Rat := 0
  c : Rat := 0
  ff : Rat := 0
  g : Rat := 0
  v : Rat := 0
  u : Rat := 0
  t : Rat := 0
  dIn : Rat := 0
  ran : Bool := false
  restart : Bool := false
  zeroR : Bool := false
  satHi : Bool := false
  satLo : Bool := false
  frozen : Bool := false
  doubt : Bool := false
  stopping : Bool := false
  moved : Bool := false
  rcActive : Bool := false
  rcSat : Bool := false
  badcfg : Bool := false
  ovf : Bool := false
  bank : Nat := 0
  bin : Option Nat := none
  binSum : Rat := 0
  binCount : Nat := 0
deriving DecidableEq, Repr

/-- A repetitive-control table (R178): the shared exponent Z, the mantissas of its 1,024 bins, and the last bin updated. -/
structure RcTable where
  z : Int := 0
  m : SMap Int := []
  bin : Nat := 0
deriving DecidableEq, Repr

/-- One tone of a multisine: harmonic, phase in 2^−22 turn, relative amplitude (R204). -/
structure Tone where
  h : Nat
  psi : Nat
  amp : Rat
deriving DecidableEq, Repr

/-- A test generator (R204, R205): whether it runs, why it last stopped, E_s, the configuration with which it started, and
the PRBS register with the shifts it has made. -/
structure GenSt where
  running : Bool := false
  cause : Nat := 0
  start : Epoch := 0
  cfg : Word := 0
  amp : Rat := 0
  freq : Nat := 0
  phase : Nat := 0
  tones : List Tone := []
  lfsr : Nat := 0
  shifts : Nat := 0
  bit : Bool := false
  value : Rat := 0
  held : List Nat := []
deriving DecidableEq, Repr

/-- The states of the capture unit, in the encoding of CTL_CAP_STAT.STATE. -/
inductive CapState where
  | idle | wait | armed | triggered | done | aborted
deriving DecidableEq, Repr

/-- The encoding of CTL_CAP_STAT.STATE; 6, refused, is shown beside the state (log 45). (DESIGN CHOICE, log 45.) -/
def CapState.code : CapState → Nat
  | .idle => 0 | .wait => 1 | .armed => 2 | .triggered => 3 | .done => 4 | .aborted => 5

/-- The capture unit (R206): its configuration as armed, the samples of its four channels, oldest first, the index of the
trigger sample, the passes since the last sample, a trigger that has occurred since the last pass, the epoch of the last sample
(R24, R207), and whether an ARM was refused in its present state. (DESIGN CHOICE, log 45.) -/
structure CapSt where
  state : CapState := .idle
  cfg : Word := 0
  srcs : List Word := []
  samples : List (List Word) := []
  trig : Nat := 0
  since : Nat := 0
  hit : Bool := false
  took : Option Epoch := none
  refused : Bool := false
deriving DecidableEq, Repr

/-- The outcomes of a plausibility window (R201), in the encoding of CTL_PL_STAT.LAST. -/
inductive PlausOut where
  | none | pass | fail | skip
deriving DecidableEq, Repr

/-- The encoding of CTL_PL_STAT.LAST. -/
def PlausOut.code : PlausOut → Nat
  | .none => 0 | .pass => 1 | .fail => 2 | .skip => 3

/-- A plausibility check (R201–R203): the window in progress by its number, the passes or Shelves summed, the sums of r and
of S of each element, the start values of checks 3 and 4, whether it is to be skipped, the last Shelf taken, the result of a
window that has ended (skipped, r, S) and waits for its outcome, and the outcome history. -/
structure PlausSt where
  win : Option Nat := .none
  count : Nat := 0
  sums : List Rat := []
  scales : List Rat := []
  begins : List Rat := []
  skip : Bool := false
  lastShelf : Option Epoch := .none
  ended : Option (Bool × List Rat × List Rat) := .none
  fail : Bool := false
  last : PlausOut := .none
  run : Nat := 0
  runPass : Bool := false
  res : List Rat := []
  worst : Nat := 0
  worstRes : Rat := 0
deriving DecidableEq, Repr

/-- The Control Engines: the slots, the composer's references before and after the clamp, e_x and the clamp flags, the
derived energies and currents, the stop ramp's start, whether every slot of it has reached 0 and whether the transition to
READY is due, the slots that ran, the tables, generators, checks and capture, and the tag of the last completed pass. -/
structure CtlSt where
  slots : SMap SlotSt := []
  tables : SMap RcTable := []
  vref0 : List Rat := []
  vref : List Rat := []
  ex : List Rat := []
  clamp : Nat := 0
  energies : List Rat := []
  currents : List Rat := []
  stopping : Option Epoch := none
  rampZero : Bool := false
  rampDone : Bool := false
  running : Nat := 0
  gens : SMap GenSt := []
  checks : SMap PlausSt := []
  cap : CapSt := {}
  tag : Option Epoch := none
deriving DecidableEq, Repr

end Sys2Proof.Machine
end

