-- ==== Sys2Proof/Machine/StEdg.lean ====
section
/-! DEFINITION. The state of the Arm Engines and the Edge Planner (chapter 08), with the arm energy account (chapter 06). -/

namespace Sys2Proof.Machine

/-- The order that the Edge Planner has written for one unit, as the frame buffers hold it (R74, R75): the converter epoch
it serves, its kind, sample instant, profile, bypass flags, force code and up to four edge events in the bits of R75. -/
structure OrderBuf where
  c : Option Epoch := none
  kind : Nat := 3
  sample : Nat := 0
  profile : Nat := 0
  arm : Bool := false
  fire : Bool := false
  force : Nat := 0
  evs : List Nat := []
deriving DecidableEq, Repr

/-- A bypass sequence (R279), its step in the encoding of R284: 0 none, 1 REMOVE, 2 ARM, 3 FIRE, 4 CONFIRM, 5 DONE,
6 FAILED; the converter epochs j and f, the failed confirmations, whether ARM waits for the gauge, and the epoch at which
orders were last sent to a LOST unit (R280). -/
structure BypSt where
  step : Nat := 0
  j : Option Epoch := none
  f : Option Epoch := none
  tries : Nat := 0
  needGauge : Bool := false
  retryAt : Option Epoch := none
deriving DecidableEq, Repr

/-- What was planned for one unit in one converter epoch: the transitions as (UP, instant of the on edge), the sample
instant, and whether the unit was inserted negative at that instant and at the end of the epoch (R199, R261). -/
structure HistEnt where
  c : Epoch
  trs : List (Bool × Nat)
  sample : Nat
  neg : Bool
  endNeg : Bool
deriving DecidableEq, Repr

/-- One item of the profile work of a unit (R272): the load of a switch's word, the check of a profile, or the check of the
profile in use after FAULT.PROFILE, whose mismatch reloads it. -/
inductive ProfItem where
  | load (bank : Bool) (index sw : Nat)
  | check (bank : Bool) (index : Nat)
  | recheck (bank : Bool) (index : Nat)
deriving DecidableEq, Repr

/-- The profile work of a unit: whether it has begun since the unit became JOINING, what is left to do, the failures of the
item at its head, whether its request is outstanding, and the epoch of the gauge at which a load was refused for energy. -/
structure ProfSt where
  begun : Bool := false
  todo : List ProfItem := []
  fails : Nat := 0
  asked : Bool := false
  refused : Option Epoch := none
deriving DecidableEq, Repr

/-- The Edge Planner's view of one unit (R284): planned end state (0 off, 1 inserted, 2 bypassed, 3 inserted negative),
eligibility, force code, active bank, verified profiles, the dead times attributed, newest first, and their counts, the
last T_OFF attributed, the plans of recent epochs, the polarity found for the newest record, the last order's profile and sample, and the bypass sequence. -/
structure EUnit where
  pstate : Nat := 0
  eligible : Bool := false
  force : Nat := 0
  bank : Bool := false
  ver0 : Nat := 0
  ver1 : Nat := 0
  ups : List Nat := []
  dns : List Nat := []
  nUp : Nat := 0
  nDn : Nat := 0
  tOff : Nat := 0
  hist : List HistEnt := []
  sign : Option (Epoch × Bool) := none
  profile : Nat := 0
  sample : Nat := 0
  byp : BypSt := {}
  prof : ProfSt := {}
deriving DecidableEq, Repr

/-- Why a transition is planned (R257, R259): the placing order of R262. -/
inductive TrKind where
  | entry | polarity | stair | swap
deriving DecidableEq, Repr

/-- A nominal transition of one unit: its midpoint in fine steps and the state it leads to. -/
structure NomTr where
  home : Nat
  mid : Nat
  to_ : Nat
  kind : TrKind
deriving DecidableEq, Repr

/-- The plan of one class of a group for one converter epoch (R250–R259): its lead and period, the epoch c, whether c is the
second epoch of a bridged order, its units, its ordered list after the swaps, the polarity, n_lo, n_hi, the target in V·step,
a and g × 16,384 in V, whether it is final, the swaps, LEVEL_CLAMP, and the nominal transitions. -/
structure ClassPlan where
  lead : Nat
  two : Bool
  c : Epoch
  second : Bool
  units : List Nat
  list : List Nat
  neg : Bool
  nLo : Nat
  nHi : Nat
  target : Rat
  a : Rat
  slope : Rat
  fin : Bool
  swaps : Nat
  clampd : Bool
  trs : List NomTr
deriving DecidableEq, Repr

/-- What the annex shows of one class plan (R281): the epoch planned, the lead and period, whether it is final, its eligible units, those
inserted at the end of the epoch, and the area realised in V·step with the sign of the group. -/
structure ClassSum where
  c : Epoch
  lead : Nat
  two : Bool
  fin : Bool
  eligible : Nat
  inserted : Nat
  area : Rat
deriving DecidableEq, Repr

/-- What the Edge Planner counted for a group in its last pass (R282). -/
structure EdgeCounts where
  placed : Nat := 0
  events : Nat := 0
  samples : Nat := 0
  moves : Nat := 0
  keeps : Nat := 0
  deferred : Nat := 0
  fallbacks : Nat := 0
  modKind : Nat := 0
  modUnit : Nat := 0
  width : Nat := 0
  dropped : Nat := 0
  ups : Nat := 0
  downs : Nat := 0
deriving DecidableEq, Repr

/-- One group: the arm energy account of the last completed pass (R199), the sorter's direction (true for +1), the carry,
the values of a of the last plan of each class by (lead, period), the areas realised by epoch and class key, the final classes by epoch, the
plans of the present pass, the last epoch planned while the Control Engines were idle, the summaries of recent class plans, and the counts
of the last Edge Planner pass. -/
structure GroupSt where
  shelf : Option Epoch := none
  w : Rat := 0
  vSum : Rat := 0
  vNeg : Rat := 0
  vIns : Rat := 0
  nW : Nat := 0
  nStale : Nat := 0
  ageMax : Nat := 0
  held : Bool := false
  vref : Rat := 0
  up : Bool := true
  carry : Rat := 0
  aPrev : SMap (Epoch × Rat × Bool) := []
  realised : List (Epoch × Nat × Rat) := []
  finals : List Epoch := []
  plans : List ClassPlan := []
  tag : Option Epoch := none
  idleUpto : Option Epoch := none
  clampd : Bool := false
  sums : List ClassSum := []
  counts : EdgeCounts := {}
deriving DecidableEq, Repr

/-- The Arm Engines and the Edge Planner. -/
structure EdgSt where
  orders : SMap OrderBuf := []
  units : SMap EUnit := []
  groups : SMap GroupSt := []
deriving DecidableEq, Repr

end Sys2Proof.Machine
end

