-- ==== Sys2Proof/Machine/StGrd.lean ====
section
/-! DEFINITION. The state of the Grid Engine and the chopper function (chapter 07). -/

namespace Sys2Proof.Machine

/-- The states of the angle observer (R219), in the encoding of GRD_STATUS.OBS. -/
inductive Obs where
  | unlocked | locked | freewheel | los
deriving DecidableEq, Repr

/-- The encoding of GRD_STATUS.OBS. -/
def Obs.code : Obs → Nat
  | .unlocked => 0 | .locked => 1 | .freewheel => 2 | .los => 3

/-- The states of ride-through (R224), in the encoding of GRD_STATUS.FRT_STATE. -/
inductive Frt where
  | normal | fault | post
deriving DecidableEq, Repr

/-- The encoding of GRD_STATUS.FRT_STATE. -/
def Frt.code : Frt → Nat
  | .normal => 0 | .fault => 1 | .post => 2

/-- A dual second-order generalised integrator (R216): s and c of the axes α and β. -/
structure Sogi where
  sA : Rat := 0
  cA : Rat := 0
  sB : Rat := 0
  cB : Rat := 0
deriving DecidableEq, Repr

/-- A stored curve's activity (R227, R228): active, its run of passes beyond XON or XOFF, in violation, and its run of
violating passes. -/
structure CurveSt where
  active : Bool := false
  run : Nat := 0
  viol : Bool := false
  violRun : Nat := 0
deriving DecidableEq, Repr

/-- The pulse series of R232: the epoch from which the period of the next pulse counts, the number of pulses started, the epoch of the pulse in
progress or last started, whether it is applied, the sums and counts of B and A, whether the pulse is to be discarded, the
run of counted pulses above ISL_Z, and the last Z. -/
structure PulseSt where
  base : Option Epoch := none
  count : Nat := 0
  at_ : Epoch := 0
  on_ : Bool := false
  bSum : Rat := 0
  bCount : Nat := 0
  aSum : Rat := 0
  aCount : Nat := 0
  discard : Bool := false
  above : Nat := 0
  z : Rat := 0
deriving DecidableEq, Repr

/-- A grid action that is pending (R237). -/
inductive GrdAct where
  | toGfm | toGfl
deriving DecidableEq, Repr

/-- The Grid Engine and the chopper function. -/
structure GrdSt where
  tag : Option Epoch := none
  vSogi : Sogi := {}
  iSogi : Sogi := {}
  phiPll : Nat := 0
  stepPll : Nat := 0
  freqPll : Rat := 0
  fI : Rat := 0
  eps : Rat := 0
  obs : Obs := .unlocked
  lockRun : Nat := 0
  losRun : Nat := 0
  fwAt : Epoch := 0
  lockedAt : Epoch := 0
  gfm : Bool := false
  act : Option GrdAct := none
  autoForm : Bool := false
  phiGf : Nat := 0
  stepGf : Nat := 0
  fGf : Rat := 0
  fRs : Rat := 0
  vT : Rat := 0
  fOfs : Rat := 0
  vOfs : Rat := 0
  pF : Rat := 0
  qF : Rat := 0
  resync : Bool := false
  rocof : Rat := 0
  winSum : Rat := 0
  winCount : Nat := 0
  winNo : Option Nat := none
  winClean : Bool := true
  lastMean : Option (Nat × Rat) := none
  rocofRun : Nat := 0
  frt : Frt := .normal
  frtInRun : Nat := 0
  frtOutRun : Nat := 0
  frtAt : Epoch := 0
  frtTimeout : Bool := false
  entries : List Epoch := []
  iqPre : Rat := 0
  idLim : Rat := 0
  idReq : Rat := 0
  postFirst : Bool := false
  curves : SMap CurveSt := []
  badCrv : Bool := false
  islanded : Bool := false
  islBy : Nat := 0
  islF : Nat := 0
  islV : Nat := 0
  islFrom : Option Epoch := none
  pulse : PulseSt := {}
  badcfg : Nat := 1
  out : SMap Rat := []
  chOn : Bool := false
  chUnavail : Bool := false
  chThermal : Bool := false
  theta : Rat := 0
  pCh : Rat := 0
  v6 : Rat := 0
  vMean6 : Rat := 0
  healthy6 : Nat := 0
  pFf : Rat := 0
  pAvail : Rat := 0
  chTag : Option Epoch := none
  chOver : Bool := false
  raised : Nat := 0
deriving DecidableEq, Repr

end Sys2Proof.Machine
end

