-- ==== Sys2Proof/Machine/StLnk.lean ====
section
/-! DEFINITION. The state of the Sylet lanes and strings (chapters 03 and 04): the lane table, the unit table, the pairs,
the service transactions, discovery, and the frames in flight. -/

namespace Sys2Proof.Machine

/-- The unit statuses of R104. -/
inductive UStat where
  | notStarted | joining | present | unobserved | lost | moving | rejected | retired
deriving DecidableEq, Repr

/-- The encoding of R104. -/
def UStat.code : UStat → Nat
  | .notStarted => 0 | .joining => 1 | .present => 2 | .unobserved => 3
  | .lost => 4 | .moving => 5 | .rejected => 6 | .retired => 7

/-- One row of the unit table (R134), with what the device keeps beside it: the identity words, which routes have a hold
offset in force (R116), the run of STALE_ROUTE records, the RGEN they carried and whether they came at the bridged slot (R119), the drift run and the epoch of
the last drift correction (R115). -/
structure UnitSt where
  status : UStat := .notStarted
  bridged : Bool := false
  rgen : Nat := 0
  armed : Bool := false
  homed : Bool := false
  staleRun : Nat := 0
  oHome : Nat := 0
  holdHome : Nat := 0
  oBridged : Nat := 0
  bpos : Nat := 0
  holdBridged : Nat := 0
  serialLo : Word := 0
  serialHi : Word := 0
  ident : List Word := []
  dueHome : Bool := false
  dueBridged : Bool := false
  staleRoute : Nat := 0
  staleRgen : Nat := 0
  staleVia : Bool := false
  driftRun : Nat := 0
  driftAt : Option Epoch := none
deriving DecidableEq, Repr

/-- Why a service request is sent: a step of discovery, the hold offset of a route, a route reassignment, a turn release,
a profile word or a profile check, or counters. No rule gives an occasion for COUNTERS_CLEAR of R92, and the device sends none.
(DESIGN CHOICE, log 43.) -/
inductive SvcWhy where
  | ident (word : Nat)
  | assignHome
  | recheckSerial
  | assignRoute
  | holdDisc (bridged : Bool)
  | hold (home : Nat) (bridged : Bool)
  | reassign (home : Nat) (bridged : Bool) (rgen : Nat)
  | arm (home : Nat)
  | turnRelease (home : Nat)
  | profileLoad (home : Nat) (word : Nat)
  | profileCheck (home : Nat) (index : Nat)
  | countersClear
deriving DecidableEq, Repr

/-- A service request that waits for the lane's channel (R91, R92). -/
structure SvcReq where
  why : SvcWhy
  addr : Nat
  cmd : Nat
  data : Word
deriving DecidableEq, Repr

/-- The service transaction outstanding on a lane: the request, its TAG, the frames of the lane since its request was due to be sent (0
while it waits for the next frame), the repeats made (R91). -/
structure Svc where
  rq : SvcReq
  tag : Nat
  frames : Nat
  tries : Nat
deriving DecidableEq, Repr

/-- Discovery of one position of a string (R106, R121): the home address, the lane that serves it, the position on that
lane, whether it goes through the bridge, the identity words read, the failed repetitions of the present step, the
delays measured, in half fine steps, the probes sent, and whether the path is being measured. -/
structure Disc where
  home : Nat
  pos : Nat
  viaBridge : Bool
  idents : List Word
  fails : Nat
  delays : List Int
  probes : Nat
  probing : Bool
deriving DecidableEq, Repr

/-- A probe whose echo is outstanding: its target position, its number and the epoch it was sent in (R88, R108). -/
structure Probe where
  target : Nat
  seq : Nat
  sent : Epoch
deriving DecidableEq, Repr

/-- A frame in flight: the converter epoch it carries, its KIND, its 35 content blocks as sent, and the home addresses of
its slots (R69, R83). -/
structure Sent where
  k : Epoch
  kind : Nat
  blocks : List DWord
  homes : List (Option Nat)
deriving DecidableEq, Repr

/-- One lane (R98, R133). turns holds what the last four returned frames showed: 0 for a frame without a valid header,
TURN_POS + 1 where TURN_CAUSE was 1, and 32 elsewhere (R118). line holds the 40 blocks of the frame that the lane launched last,
as they leave the device, and lineBefore those of the frame before it (R69, R84); launchedAt is the epoch of the last launch;
blockDue says that two BLOCK blocks wait for the next frame (R87). lastK is the newest EPOCH whose due epoch has been
judged for the lane's units (R116). qMargin is the MARGIN of the last trim, in ns (R135). -/
structure LaneSt where
  calibrated : Bool := true
  locked : Bool := false
  returnOfs : Option Nat := none
  lead : Nat := 12
  tLane : Nat := 0
  turnPos : Nat := 31
  turnCause : Bool := false
  turns : List Nat := []
  darkRun : Nat := 0
  hdrThis : Bool := false
  badThis : Bool := false
  quar : Bool := false
  flaps : List Epoch := []
  svc : Option Svc := none
  svcQ : List SvcReq := []
  tag : Nat := 0
  disc : Option Disc := none
  discStopped : Bool := false
  discWaitEp : Nat := 0
  probe : Option Probe := none
  probeNext : Nat := 0
  probeSeq : Nat := 0
  probeAt : Option Epoch := none
  counters : SMap Nat := []
  inflight : List Sent := []
  line : List LineBlock := []
  lineBefore : List LineBlock := []
  launchedAt : Option Epoch := none
  blockDue : Bool := false
  lastK : Option Epoch := none
  qMargin : Option Nat := none
deriving DecidableEq, Repr

/-- The states of a pair (R122). -/
inductive PairState where
  | normal | handover | bridged | handback
deriving DecidableEq, Repr

/-- The encoding of R122. -/
def PairState.code : PairState → Nat
  | .normal => 0 | .handover => 1 | .bridged => 2 | .handback => 3

/-- One pair of partner lanes (R122–R130): its state, the broken lane, whether that lane is wholly dark, H0, the epoch the
hand-back began, RESTORE_RUN, the moved units, the epochs of the bridged time limit used, the expiry, whether its check lets the moved
units be retired (R129), a GO in progress,
whether the bridge is verified, a flap during the hand-back, and the units that are home and released in it. -/
structure PairLnk where
  state : PairState := .normal
  broken : Nat := 0
  dark : Bool := false
  h0 : Epoch := 0
  hbAt : Epoch := 0
  restoreRun : Nat := 0
  moved : List Nat := []
  found : Nat := 0
  limitEp : Nat := 0
  expired : Bool := false
  retire : Bool := false
  go : Bool := false
  bridgeOk : Bool := false
  flapped : Bool := false
  home : List Nat := []
  released : List Nat := []
deriving DecidableEq, Repr

/-- A string action that runs (R120, R135): its code and lane; for BRIDGE_VERIFY the lane whose units move in the present
half, the half (0, 1), the step, and the epoch of step 2. -/
structure LnkAction where
  code : Nat
  lane : Nat
  moving : Nat
  half : Nat
  step : Nat
  at_ : Epoch
deriving DecidableEq, Repr

/-- The Sylet lanes and strings. -/
structure LnkSt where
  lanes : SMap LaneSt := []
  units : SMap UnitSt := []
  pairs : SMap PairLnk := []
  action : Option LnkAction := none
  gap : Bool := false
  blocks : Nat := 0
deriving DecidableEq, Repr

end Sys2Proof.Machine
end

