-- ==== Sys2Proof/Machine/StMfe.lean ====
section
/-! DEFINITION. The state of the Measurement Front End (chapter 02). -/

namespace Sys2Proof.Machine

/-- A sample of one slot: its raw code, the gain it was taken at, its corrected value, whether the over-range detector was
set, and whether the slot was given to a cross-check (R40, R41, R46, R50). -/
structure Sample where
  raw : Int
  gain8 : Bool
  corr : Int
  ovr : Bool
  given : Bool
deriving DecidableEq, Repr

/-- One analogue input: the samples of the present epoch and of the epoch before it, whether that epoch before ended with OPEN and
under self-test, the over-range run, OPEN and the epochs without over-range since, the gain in force in automatic gain, and the
quiet epochs (R42, R43, R45, R46, R59). -/
structure InputSt where
  cur : List Sample := []
  prev : List Sample := []
  prevOpen : Bool := false
  prevTested : Bool := false
  overRun : Nat := 0
  isOpen : Bool := false
  cleanEp : Nat := 0
  gain8 : Bool := false
  quiet : Nat := 0
deriving DecidableEq, Repr

/-- One pair: consecutive failed and passed checks, and cross-check failure (R51). -/
structure PairSt where
  fails : Nat := 0
  passes : Nat := 0
  xfail : Bool := false
deriving DecidableEq, Repr

/-- One fast comparator: its output, whether it is armed, and the whole epochs since its period started (R53, R55). -/
structure CmpSt where
  out : Bool := false
  armed : Bool := false
  t : Nat := 0
deriving DecidableEq, Repr

/-- The self-test that runs: its kind and target, the epochs run, the raw sums of the three levels, and the trips seen
as (upper, epoch of the test) (R58, R59). -/
structure SelfTest where
  kind : Nat
  target : Nat
  ep : Nat
  sums : List Int
  trips : List (Bool × Nat)
deriving DecidableEq, Repr


/-- One encoder: its last three samples, newest first, the filtered state of the epoch before, whether it was enabled,
and whether its last evaluation found an illegal transition (R60, R61). -/
structure EncSt where
  last : List EncLines := []
  prev : EncLines := ⟨false, false, false⟩
  enabled : Bool := false
  illegal : Bool := false
deriving DecidableEq, Repr

/-- The Measurement Front End. -/
structure MfeSt where
  inputs : SMap InputSt := []
  pairs : SMap PairSt := []
  cmps : SMap CmpSt := []
  encs : SMap EncSt := []
  test : Option SelfTest := none
deriving DecidableEq, Repr

end Sys2Proof.Machine
end

