-- ==== Sys2Proof/Machine/StMtr.lean ====
section
/-! DEFINITION. The state of the Metering Engine (chapter 10). Every energy is held as a count of 2^−72 Wh. -/

namespace Sys2Proof.Machine

/-- Where the increments of a side go (R319), in the encoding of the annex (R334). -/
inductive MtrDest where
  | none | total | start | test | doubt
deriving DecidableEq, Repr

/-- The encoding of R334. -/
def MtrDest.code : MtrDest → Nat
  | .none => 0 | .total => 1 | .start => 2 | .test => 3 | .doubt => 4

/-- An increment of the present pass that waits for the boundary: its destination, its quantity and its amount (R319). -/
structure MtrInc where
  dest : MtrDest
  q : Nat
  amount : Nat
deriving DecidableEq, Repr

/-- One pulse output (R323–R326): the accumulator in 2^−96 Wh, in which every K / 2^TSHIFT is whole, BACKLOG, whether it conducts or its gap runs and the epoch at which that
began, the pulses owed in the last pass, and whether it was BADCFG at the last boundary. -/
structure PulseOut where
  acc : Nat := 0
  backlog : Nat := 0
  out : Bool := false
  gap : Bool := false
  at_ : Epoch := 0
  owed : Nat := 0
  badcfg : Bool := false
deriving DecidableEq, Repr

/-- The Metering Engine: whether metering has begun, the totals, the tallies (tally t of quantity q at 6 t + q), validity,
the seal, the tag of the last completed pass, the increments that wait for the boundary, the outputs, the last
destinations, the sides that were BADCFG at the last boundary, and the sequence number of the last save. -/
structure MtrSt where
  on_ : Bool := false
  totals : SMap Nat := []
  tallies : SMap Nat := []
  valid : Bool := false
  isSealed : Bool := false
  changes : Nat := 0
  check : Nat := 0
  last : Option Epoch := none
  incs : List MtrInc := []
  pulses : SMap PulseOut := []
  destAc : MtrDest := .none
  destDc : MtrDest := .none
  badAc : Bool := false
  badDc : Bool := false
  saveSeq : Nat := 0
deriving DecidableEq, Repr

end Sys2Proof.Machine
end

