-- ==== Sys2Proof/Machine/StPrt.lean ====
section
/-! DEFINITION. The state of the protection pair (chapter 09) and of the test and debug functions (chapter 15). -/

namespace Sys2Proof.Machine

/-- What one protection holds (R287, R296, R311): the sources it raised in its last completed pass and those newly raised,
the comparator latches it holds raised, its recovery timers as expiry epochs, its degrade timers as the boundaries of the raise so far
(one more than the epochs run), its permit,
the tag of its last completed pass with the arm currents of that pass, the run of R303 for DC_UV, the first unit of its scan,
the first unit of each source in A's scan order, the first measurement element, and whether its pass of the present epoch
has completed. -/
structure PrtView where
  raised : List Nat := []
  newly : List Nat := []
  recover : SMap (Option Epoch) := []
  degrade : SMap Nat := []
  permit : Bool := false
  tag : Option Epoch := none
  prevI : SMap (Option Rat) := []
  uvRun : Nat := 0
  unit : Option Nat := none
  units : SMap (Option Nat) := []
  elem : Option (Nat × Nat) := none
  done : Bool := false
deriving DecidableEq, Repr

/-- A source that is raised for the device: the protections that raised it and word 3 of its FAULT event (R295). -/
structure DevSrc where
  by_ : Nat
  w3 : Nat
deriving DecidableEq, Repr

/-- The protection pair: both views, the sources raised for the device, the one-pass events not yet seen by each protection and those
since the last boundary, the indications of the other chapters at the last boundary (R285), A's own store of its limits (R286), the
escalated sources with the protections whose timers reached the limit since the last boundary (R297), a Lock-out-class raise of the
present boundary, a firing of the block logic that waits for the next boundary, whether the logic has fired since the last boundary, whether it
fired in the epoch before that boundary (R309), whether the debug halt is its latched input, the discrepancy runs and AB_DISC, the Block episode with its raises and those of the
present boundary, the entry into the present HOLD and whether its recovery has completed (R298), HOLD entries, the trips with the epoch
each was asserted, and the deliberate reset: ARM and a GO that waits for the next boundary. -/
structure PrtSt where
  a : PrtView := {}
  b : PrtView := {}
  dev : SMap (Option DevSrc) := []
  evtA : List Nat := []
  evtB : List Nat := []
  evtNext : List Nat := []
  ind : List Nat := []
  limA : SMap Int := []
  esc : List Nat := []
  escNow : List (Nat × Bool) := []
  lockPending : Bool := false
  blockPending : Bool := false
  firedNow : Bool := false
  firedLast : Bool := false
  firedHalt : Bool := false
  disc : SMap Nat := []
  abDisc : Bool := false
  episode : Option Epoch := none
  raises : Nat := 0
  lastBlock : Nat := 0
  holdAt : Option Epoch := none
  recDone : Bool := false
  holdEntries : List Epoch := []
  holdTimeoutDone : Bool := false
  trips : SMap (Option Epoch) := []
  resetArm : Option (Requester × Epoch) := none
  resetGo : Bool := false
  voteAddr : Nat := 0
deriving DecidableEq, Repr

/-- The states of the debug capture, in the encoding of DBG_CAP_STAT.STATE. -/
inductive DbgCapState where
  | idle | wait | armed | triggered | done | aborted | revoked
deriving DecidableEq, Repr

/-- The encoding of DBG_CAP_STAT.STATE; 7, refused, is shown beside the state (log 45). (DESIGN CHOICE, log 45.) -/
def DbgCapState.code : DbgCapState → Nat
  | .idle => 0 | .wait => 1 | .armed => 2 | .triggered => 3 | .done => 4 | .aborted => 5 | .revoked => 6

/-- The debug capture (R486): its configuration as armed, its entries, oldest first, the trigger entry, the sealed Shelves
since the last entry, a trigger that has occurred, the epoch of the last entry (R24), and whether an ARM was refused in its present
state. (DESIGN CHOICE, log 45.) -/
structure DbgCap where
  state : DbgCapState := .idle
  cfg : Word := 0
  pre : Nat := 0
  entries : List (List Word) := []
  trig : Nat := 0
  since : Nat := 0
  took : Option Epoch := none
  refused : Bool := false
deriving DecidableEq, Repr

/-- The test access port and the debug function (R481–R487): the instruction in force, the boundary cells as last updated and
as last captured, the word that the next Capture-DR of DBG_ACCESS loads, the halted targets, and the halts, resumes and steps that wait for the
next boundary. -/
structure DbgSt where
  instr : Nat := 0x01
  boundary : List Bool := []
  captured : List Bool := []
  capture : Nat := 0
  halted : Nat := 0
  haltNext : Nat := 0
  resumeNext : Nat := 0
  stepNext : Nat := 0
  stepNow : Nat := 0
  cap : DbgCap := {}
deriving DecidableEq, Repr

end Sys2Proof.Machine
end

