-- ==== Sys2Proof/Machine/StSaf.lean ====
section
/-! DEFINITION. The state of the Safety Core (chapter 11). Its times are counted in samples of 1 µs. -/

namespace Sys2Proof.Machine

/-- One channel of an input pair: its filtered value and the samples for which the raw value has differed from it (R338). -/
structure ChanSt where
  val : Bool := false
  run : Nat := 0
deriving DecidableEq, Repr

/-- One input pair: the samples for which a and b have disagreed, its latched faults, a restart check that is outstanding,
and its value in the last cycle (R339–R341). -/
structure PairSaf where
  disc : Nat := 0
  discFault : Bool := false
  tpFault : Bool := false
  restart : Bool := false
  value : Bool := false
deriving DecidableEq, Repr

/-- One safety output: its command by function, its fault, the off-pulse in progress and the time at which the last one
started or the output went high, the samples for which its read-back has differed from its drive, and STUCK_ON (R347,
R348). -/
structure OutSaf where
  cmd : Bool := false
  fault : Bool := false
  pulse : Bool := false
  at_ : Nat := 0
  wrong : Nat := 0
  stuck : Bool := false
deriving DecidableEq, Repr

/-- The states of the telegram connection (R362). -/
inductive Conn where
  | off | lost | sync | valid
deriving DecidableEq, Repr

/-- The encoding of SAF_TG_STAT.STATE. -/
def Conn.code : Conn → Nat
  | .off => 0 | .lost => 1 | .sync => 2 | .valid => 3

/-- A confirmation that has been accepted (R354): the set, its check value, the confirmations counted with it, and whether its Trunk write
has completed. -/
structure Confirm where
  set : List Word
  check : Nat
  confirms : Nat
  written : Bool
deriving DecidableEq, Repr

/-- The words of the Trunk object of a confirmation. -/
def Confirm.words (c : Confirm) : List Nat := c.set.map BitVec.toNat ++ [c.check, c.confirms]

/-- The Safety Core. confirm holds the confirmations in the order of their GO; requestSeen says that the cycle of the waiting reset request
has been evaluated (R354, R366). -/
structure SafSt where
  running : Bool := false
  us : Nat := 0
  raw : Nat := 0
  srb : Nat := 0
  chans : SMap ChanSt := []
  pairs : SMap PairSaf := []
  outs : SMap OutSaf := []
  cfgValid : Bool := false
  lock : Bool := false
  restartWait : Bool := true
  permit : Bool := false
  deadUs : Nat := 0
  deadHeld : Bool := false
  estopOk : Bool := false
  hallClosed : Bool := false
  earthOpen : Bool := false
  earthed : Bool := false
  dead : Bool := false
  keyOn : Bool := false
  causes : Nat := 0
  disagree : Nat := 0
  checkBad : Bool := false
  check : Nat := 0
  confirms : Nat := 0
  confirm : List Confirm := []
  srstRun : Nat := 0
  srst : Bool := false
  srstHigh : Nat := 0
  stuck : Bool := false
  request : Bool := false
  requestSeen : Bool := false
  conn : Conn := .off
  seqTx : Nat := 0
  seqRx : Nat := 0
  echo : Nat := 0
  freshUs : Option Nat := none
  syncUs : Nat := 0
  rxData : Nat := 0
  txData : Nat := 0
  data : Nat := 0
  txUs : Option Nat := none
  lossNow : Bool := false
  cands : List (Nat × List Byte) := []
  link : Nat := 0
  mirrorSeq : Nat := 0
  mirrorAt : Option Epoch := none
deriving DecidableEq, Repr

end Sys2Proof.Machine
end

