-- ==== Sys2Proof/Machine/State.lean ====
section
/-! DEFINITION. The machine's state: every register, buffer, counter, mode and pin the manual gives the block, the queue
of waiting commands, and the two reason types of a step that does not answer a next state. -/

namespace Sys2Proof.Machine

/-- Reasons for which the machine stops with a fault. No command of this block raises one: the manual gives every command
an effect, and a command whose condition does not hold changes nothing. -/
inductive Fault where
  /-- Never raised: the block has no state that the manual calls a stop. Safe. -/
  | unreachable
deriving DecidableEq, Repr

/-- Reasons for which a command has no meaning in the model. -/
inductive Refusal where
  /-- Raised by exec for a command that has no meaning yet, with its mnemonic. Safe: the model stops. -/
  | notModelled (mnemonic : String)
deriving DecidableEq, Repr

/-- The state of the block. -/
structure State where
  regs : RegSt := {}
  sys : SysSt := {}
  mgmtStatus : Word := 0
  mfe : MfeSt := {}
  lnk : LnkSt := {}
  cel : CelSt := {}
  ctl : CtlSt := {}
  grd : GrdSt := {}
  edg : EdgSt := {}
  prt : PrtSt := {}
  mtr : MtrSt := {}
  saf : SafSt := {}
  hats : SMap HatSt := []
  pwr : PwrSt := {}
  ref : RefSt := {}
  start : StartSt := {}
  trk : TrkSt := {}
  dbg : DbgSt := {}
  out : List BusOut := []
  freeCount : Nat := 0
  pending : List Instr := []
deriving DecidableEq, Repr

/-- The block right after reset: PORST_N just released, nothing started. (DESIGN CHOICE, log 1; DESIGN CHOICE, log 5.) -/
def State.reset : State := {}

end Sys2Proof.Machine
end

