-- ==== Sys2Proof/Machine/RegFile.lean ====
section
/-! DEFINITION. The register file: where each register word is kept, what it holds at reset, and the one way in which
the machine reads and writes it (R437, R455, R456, R462). -/

namespace Sys2Proof.Machine

/-- The index of a requester among the five (R437). -/
def reqIdx : Requester → Nat
  | .hatch h => h.val
  | .mgmt => 4

/-- The key of a banked HAT register of Hatch h (R372). -/
def bankKey (h off : Nat) : Nat := 0x10000 * (h + 1) + off

/-- The key of a requester's own copy of a register (R462). -/
def ownKey (r : Requester) (off : Nat) : Nat := 0x10000 * (5 + reqIdx r) + off

/-- The key of word off of the slot window for slot s and bank b (R181, R462). -/
def slotKey (s b off : Nat) : Nat := 0x1000000 + (b * 64 + s) * 0x10000 + off

/-- The key of a curve register for curve c and bank b (R226, R462). -/
def curveKey (c b off : Nat) : Nat := 0x2000000 + (b * 8 + c) * 0x10000 + off

/-- The key of a tone register for tone t (R205, R462). -/
def toneKey (t off : Nat) : Nat := 0x3000000 + t * 0x10000 + off

/-- The key of a word of the pending safety set (R352). -/
def pendSafetyKey (off : Nat) : Nat := 0x4000000 + off

/-- The key of the profile word of switch sw of profile i in bank b of class c (R270, R283). -/
def profKey (c b i sw : Nat) : Nat := 0x5000000 + (((c * 2 + b) * 16 + i) * 4 + sw) * 0x10000 + R.EDG_PROF_DATA

/-- The register offset a key stands for. -/
def keyOff (key : Nat) : Nat := key % 0x10000

/-- The register definition at an offset below 0x4000 and the index in its array, if the offset is implemented (R464). -/
def regDefIn (off : Nat) : List RegDef → Option (RegDef × Nat)
  | [] => none
  | d :: t =>
    if d.stride = 0 then (if off = d.base then some (d, 0) else regDefIn off t)
    else if d.base ≤ off ∧ (off - d.base) % d.stride = 0 ∧ (off - d.base) / d.stride < d.count then
      some (d, (off - d.base) / d.stride)
    else regDefIn off t

/-- The register definition at an offset, if it is implemented (R464). -/
def regDef (off : Nat) : Option (RegDef × Nat) := regDefIn off regMap

/-- An offset is implemented (R464). -/
def implemented (off : Nat) : Bool := (regDef off).isSome

/-- The mask of the fields of a register that have one of the given access codes. -/
def accMask (d : RegDef) (accs : List Acc) : Word :=
  d.fields.foldl (fun m f => if accs.contains f.acc then m ||| maskOf f.hi f.lo else m) 0

/-- The default class code of protection source k (R303): 1 Note, 2 Alarm, 3 Degrade, 4 Block, 5 Lock-out. -/
def srcDefaultClass (k : Nat) : Nat :=
  if k ∈ [33, 47, 52, 71] then 1
  else if k ∈ [23, 25, 34, 38, 42, 43, 44, 56, 59, 65, 66, 67, 68, 69, 70] then 2
  else if k ∈ [24, 27, 31, 32, 35, 36, 37] then 3
  else if k ∈ [40, 41, 49, 51, 53, 54, 55, 60, 61, 62] then 5
  else 4

/-- The degrade limit of source k at reset, in s: 60, or the value in R303. -/
def srcDefaultDeg (k : Nat) : Nat :=
  if k = 27 then 10 else if k = 32 then 600 else if k = 36 then 1 else if k = 37 then 3600 else 60

/-- What a register word holds at reset: its fields' reset values, and the values that the tables give by index, by part
or by bank (R169, R303, R41, R401). (DESIGN CHOICE, log 5; DESIGN CHOICE, log 6.) -/
def resetWord (key : Nat) : Word :=
  let off := keyOff key
  match regDef off with
  | none => 0
  | some (d, i) =>
    let w := BitVec.ofNat 32 (d.fields.foldl (fun n f => n + f.rst * 2 ^ f.lo) 0)
    if d.base = R.PRT_SRC_CFG 0 then setFld (setFld w 30 28 (srcDefaultClass i)) 24 13 (srcDefaultDeg i)
    else if d.base = R.MFE_TRIM_F 0 then Config.trimX1 i
    else if d.base = R.CEL_SPARE then
      BitVec.ofNat 32 ((Config.cellarSpare 3).val * 2 ^ 24 + (Config.cellarSpare 2).val * 2 ^ 16 + (Config.cellarSpare 1).val * 2 ^ 8 +
        (Config.cellarSpare 0).val)
    else if d.base = R.HAT_ID then BitVec.ofNat 32 (key / 0x10000 - 1)
    else w

/-- Copy A of a register word. -/
def RegSt.copyA (r : RegSt) (key : Nat) : Word := (smFind r.a key).getD (resetWord key)

/-- Copy B of a TV word (R455). -/
def RegSt.copyB (r : RegSt) (key : Nat) : Word := (smFind r.b key).getD (r.copyA key)

/-- Copy C of a TV word (R455). -/
def RegSt.copyC (r : RegSt) (key : Nat) : Word := (smFind r.c key).getD (r.copyA key)

/-- The bitwise majority of three copies (R456). -/
def majority (a b c : Word) : Word := (a &&& b) ||| (a &&& c) ||| (b &&& c)

/-- The value in force of a register word (R456). (DESIGN CHOICE, log 6.) -/
def State.reg (s : State) (key : Nat) : Word :=
  majority (s.regs.copyA key) (s.regs.copyB key) (s.regs.copyC key)

/-- Sets a register word, all three copies of it (R452). -/
def RegSt.put (r : RegSt) (key : Nat) (v : Word) : RegSt :=
  { r with a := smSet (resetWord key) r.a key v, b := smErase r.b key, c := smErase r.c key }

/-- Sets a register word. (DESIGN CHOICE, log 6.) -/
def State.setReg (s : State) (key : Nat) (v : Word) : State := { s with regs := s.regs.put key v }

/-- Field [hi:lo] of a register. -/
def State.rf (s : State) (key hi lo : Nat) : Nat := fld (s.reg key) hi lo

/-- Bit b of a register. -/
def State.rb (s : State) (key b : Nat) : Bool := flag (s.reg key) b

/-- The signed field [hi:lo] of a register. -/
def State.rs (s : State) (key hi lo : Nat) : Int := signed (hi + 1 - lo) (s.rf key hi lo)

/-- The scalar held in a binary32 register. -/
def State.rq (s : State) (key : Nat) : Rat := ofF32 (s.reg key)

/-- Sets field [hi:lo] of a register. -/
def State.setRf (s : State) (key hi lo v : Nat) : State := s.setReg key (setFld (s.reg key) hi lo v)

/-- The key under which the management-port status word notes its entries of the present epoch (R444). -/
def mgmtKey : Nat := 0x6000000

/-- Notes that the event of LT bits occurs in the present epoch, once the epochs are counted (R11). (DEDUCED, log 7.) -/
def State.noteLt (s : State) (key : Nat) (mask : Word) : State :=
  { s with regs := { s.regs with ltNow := if s.sys.counting then smUpd 0 s.regs.ltNow key (· ||| mask) else s.regs.ltNow } }

/-- Sets bit b of a register: a latched cause or flag (R11). -/
def State.latch (s : State) (key b : Nat) : State := (s.setRf key b b 1).noteLt key (maskOf b b)

/-- Counts in a field that stops at its maximum (R460). -/
def State.count (s : State) (key hi lo : Nat) : State :=
  (s.setRf key hi lo (incSat (2 ^ (hi + 1 - lo) - 1) (s.rf key hi lo))).noteLt key (maskOf hi lo)

/-- The mask of the LT fields that a CLEAR write v clears: every LT field with a bit in v, whole (R452). -/
def ltHit (key : Nat) (v : Word) : Word :=
  match regDef (keyOff key) with
  | some (d, _) => d.fields.foldl (fun m f =>
      if f.acc = .lt ∧ v &&& maskOf f.hi f.lo ≠ 0 then m ||| maskOf f.hi f.lo else m) 0
  | none => 0

/-- The part of a clear that acts: an LT field whose event has occurred in the present epoch stays set (R11, R459). (DEDUCED, log 7.) -/
def State.clearable (s : State) (key : Nat) (mask : Word) : Word := mask &&& ~~~ ltHit key (smGet 0 s.regs.ltNow key)

/-- The key under which a requester's access to an offset reads and writes: its own copy (R462), its HAT bank or the bank
named by HAT_MGMT_SEL (R372, R401), the window element that its select register names (R453, R462), or the register.
(DESIGN CHOICE, log 6.) -/
def State.keyFor (s : State) (r : Requester) (off : Nat) : Nat :=
  if off ∈ [R.SYS_EPOCH_HI, R.LNK_TBL_ADDR, R.CEL_CRATE_SEL, R.CTL_SLOT_SEL, R.CTL_TONE_SEL, R.CTL_CAP_ADDR, R.GRD_CRV_SEL,
      R.EDG_PROF_ADDR, R.EDG_TBL_ADDR, R.SAF_VIEW, R.SAF_CONFIRM_VALUE, R.HAT_RING_SEL, R.STR_REC_ADDR, R.TRK_BIN_SEL,
      R.DBG_CAP_ADDR] then ownKey r off
  else if R.HAT_ID ≤ off ∧ off < R.HAT_OWN 0 ∧ off ≠ R.HAT_MGMT_SEL then
    match r with
    | .hatch h => bankKey h.val off
    | .mgmt => bankKey (s.rf R.HAT_MGMT_SEL 1 0) off
  else if R.CTL_W_WIRE ≤ off ∧ off ≤ R.CTL_W_QS then
    let sel := s.reg (ownKey r R.CTL_SLOT_SEL)
    slotKey (fld sel 5 0) (fld sel 8 8) off
  else if off = R.CTL_TONE_CFG ∨ off = R.CTL_TONE_AMP then toneKey (s.rf (ownKey r R.CTL_TONE_SEL) 5 0) off
  else if off ∈ [R.GRD_CRV_CFG, R.GRD_CRV_XON, R.GRD_CRV_XOFF] ∨ (R.GRD_CRV_X 0 ≤ off ∧ off < R.GRD_OUT 0) then
    let sel := s.reg (ownKey r R.GRD_CRV_SEL)
    curveKey (fld sel 2 0) (fld sel 8 8) off
  else if off = R.EDG_PROF_DATA then
    let sel := s.reg (ownKey r R.EDG_PROF_ADDR)
    profKey (fld sel 15 12) (fld sel 8 8) (fld sel 7 4) (fld sel 1 0)
  else off

end Sys2Proof.Machine
end

