-- ==== Sys2Proof/Machine/Ops.lean ====
section
/-! DEFINITION. The named operations that the commands share: time in epochs, blocks of the state, error logs, Bin
records, Hatch causes, MSI-X, events, completions and ownership. -/

namespace Sys2Proof.Machine

/-- What a step of the block answers. -/
abbrev Out := Host.Outcome State Fault Refusal

/-- The length of an epoch in ns (R14). -/
def State.epNs (s : State) : Nat := if s.sys.compat then 512 else 256

/-- A time in ns as whole epochs, rounded up (R396). -/
def State.epOfNs (s : State) (ns : Nat) : Nat := (ns + s.epNs - 1) / s.epNs

/-- A time in ms as whole epochs, rounded up. -/
def State.epOfMs (s : State) (ms : Nat) : Nat := s.epOfNs (ms * 1000000)

/-- Epoch a is at or after epoch b, for epochs less than 2^47 apart (R17). -/
def epGe (a b : Epoch) : Bool := (a - b).toNat < 2 ^ 47

/-- The low n bits of an epoch number. -/
def lowE (n : Nat) (e : Epoch) : Nat := e.toNat % 2 ^ n

/-- Draws a free value: the counter that selects it, advanced. (DESIGN CHOICE, log 2.) -/
def State.free (s : State) : Nat × State := (s.freeCount, { s with freeCount := s.freeCount + 1 })

/-- Adds a transaction to the outside. (DESIGN CHOICE, log 10.) -/
def State.emit (s : State) (o : BusOut) : State := { s with out := s.out ++ [o] }

/-- Lane l. -/
def State.lane (s : State) (l : Nat) : LaneSt := smGet {} s.lnk.lanes l

/-- Changes lane l. -/
def State.updLane (s : State) (l : Nat) (f : LaneSt → LaneSt) : State :=
  { s with lnk := { s.lnk with lanes := smUpd {} s.lnk.lanes l f } }

/-- The unit of home address h. -/
def State.unit (s : State) (h : Nat) : UnitSt := smGet {} s.lnk.units h

/-- Changes the unit of home address h. -/
def State.updUnit (s : State) (h : Nat) (f : UnitSt → UnitSt) : State :=
  { s with lnk := { s.lnk with units := smUpd {} s.lnk.units h f } }

/-- Pair m of partner lanes. -/
def State.pair (s : State) (m : Nat) : PairLnk := smGet {} s.lnk.pairs m

/-- Changes pair m. -/
def State.updPair (s : State) (m : Nat) (f : PairLnk → PairLnk) : State :=
  { s with lnk := { s.lnk with pairs := smUpd {} s.lnk.pairs m f } }

/-- Analogue input i. -/
def State.input (s : State) (i : Nat) : InputSt := smGet {} s.mfe.inputs i

/-- Changes analogue input i. -/
def State.updInput (s : State) (i : Nat) (f : InputSt → InputSt) : State :=
  { s with mfe := { s.mfe with inputs := smUpd {} s.mfe.inputs i f } }

/-- The map entry of home address h (R28). -/
def State.mapEntry (s : State) (h : Nat) : BitVec 16 := smGet 0x000F s.sys.map h

/-- EXPECTED of a map entry (R28). -/
def mapExpected (w : BitVec 16) : Bool := w.getLsbD 8

/-- CLASS of a map entry (R28). -/
def mapClass (w : BitVec 16) : Nat := bits w.toNat 7 4

/-- GROUP of a map entry (R28). -/
def mapGroup (w : BitVec 16) : Nat := bits w.toNat 3 0

/-- The home addresses listed in the map, in rising order. -/
def State.mapped (s : State) : List Nat := s.sys.map.map Prod.fst

/-- The expected home addresses of group g (R26). -/
def State.groupHomes (s : State) (g : Nat) : List Nat :=
  s.mapped.filter (fun h => mapExpected (s.mapEntry h) && mapGroup (s.mapEntry h) = g)

/-- The class type of class c: 0 unused, 1 half-bridge, 2 full-bridge, 3 chopper (R39). -/
def State.classType (s : State) (c : Nat) : Nat := s.rf (R.SYS_CLASS_TYPE c) 1 0

/-- Hatch h. -/
def State.hat (s : State) (h : Nat) : HatSt := smGet {} s.hats h

/-- Changes Hatch h. -/
def State.updHat (s : State) (h : Nat) (f : HatSt → HatSt) : State := { s with hats := smUpd {} s.hats h f }

/-- Signals an MSI-X vector of Hatch h: a masked vector becomes pending (R392). -/
def State.signal (s : State) (h : Fin 4) (vector : Nat) : State :=
  let a := s.hat h.val
  if a.msixEn && !(a.msixMask.getLsbD vector) then s.emit (.msix h vector)
  else s.updHat h.val (fun a => { a with msixPending := a.msixPending ||| BitVec.ofNat 64 (2 ^ vector) })

/-- Sets cause bit b of Hatch h and signals its error vector (R392, R401). -/
def State.hatCause (s : State) (h : Fin 4) (b : Nat) : State :=
  let s := s.latch (bankKey h.val R.HAT_CAUSE) b
  let ctl := s.reg (bankKey h.val R.HAT_CTRL)
  if flag ctl 22 then s.signal h (fld ctl 21 16) else s

/-- An entry of kind k in the error log of a requester (R399, R444): the Hatch's log, or the management-port status. -/
def State.logErr (s : State) (r : Requester) (kind off : Nat) (bar2 : Bool := false) : State :=
  match r with
  | .hatch h =>
    let key := bankKey h.val R.HAT_ERR_LOG
    let s := ((s.count key 15 0).setRf key 23 16 kind).noteLt key (maskOf 23 16)
    let s := s.setReg (bankKey h.val R.HAT_ERR_ADDR) (BitVec.ofNat 32 (bits off 17 0 + b2n bar2 * 2 ^ 20))
    (s.noteLt (bankKey h.val R.HAT_ERR_ADDR) (maskOf 20 0)).hatCause h 2
  | .mgmt =>
    ({ s with mgmtStatus := setFld (setFld s.mgmtStatus 31 24 kind) 15 0 (incSat 65535 (fld s.mgmtStatus 15 0)) } : State).noteLt mgmtKey 1

/-- The entries of a cause in the Bin queue. -/
def causeCount (q : List BinEnt) (c : Nat) : Nat := (q.filter (fun e => e.cause = c)).length

/-- The queue reduced to at most two entries per cause: the oldest, and the newest with LAST = 1, which carries the
number of entries removed (R432). (DEDUCED, log 37.) -/
def coalesceQueue (q : List BinEnt) : List BinEnt :=
  let rec go : List BinEnt → List Nat → List BinEnt
    | [], _ => []
    | e :: t, seen =>
      if !seen.contains e.cause then e :: go t (e.cause :: seen)
      else if causeCount t e.cause = 0 then
        let removed := ((q.filter (fun x => x.cause = e.cause)).drop 1).dropLast
        { e with last := true, suppressed := e.suppressed + (removed.map (fun x => x.suppressed + 1)).sum } :: go t seen
      else go t seen
  go q []

/-- The newest entry of the cause replaced by an arrival, which carries its SUPPRESSED and one more (R432). -/
def replaceNewest (e : BinEnt) : List BinEnt → List BinEnt
  | [] => []
  | x :: t =>
    if x.cause = e.cause && causeCount t e.cause = 0 then { e with last := true, suppressed := x.suppressed + 1 } :: t
    else x :: replaceNewest e t

/-- Words of an entry of the debug capture: its tag and WORDS + 1 words (R486). -/
def dbgEntryLen (cfg : Word) : Nat := fld cfg 14 8 + 2

/-- S, the entries that the buffer of 16,384 words holds (R486). -/
def dbgCapS (cfg : Word) : Nat := 16384 / dbgEntryLen cfg

/-- The trigger of an armed debug capture: at most PRE entries before it are kept, PRE above S − 1 taken as S − 1, and the next entry is
the trigger entry (R486, R487). -/
def DbgCap.fire (c : DbgCap) : DbgCap :=
  let kept := c.entries.drop (c.entries.length - min c.pre (dbgCapS c.cfg - 1))
  { c with state := .triggered, entries := kept, trig := kept.length, refused := false }

/-- Counts n removed or lost entries (R430, R432). -/
def State.countSuppressed (s : State) (n : Nat) : State :=
  (s.setReg R.TRK_SUPPRESSED (BitVec.ofNat 32 (min (2 ^ 32 - 1) ((s.reg R.TRK_SUPPRESSED).toNat + n)))).noteLt R.TRK_SUPPRESSED
    (maskOf 31 0)

/-- A record of a cause that is lost: it is counted, and the next record of the cause carries it in SUPPRESSED (R430, R431). -/
def State.binLost (s : State) (cause : Nat) : State :=
  { s.countSuppressed 1 with trk := { s.trk with suppressed := smUpd 0 s.trk.suppressed cause (· + 1) } }

/-- Places an entry in the Bin queue, with coalescing (R432). -/
def State.binPush (s : State) (e : BinEnt) : State :=
  if s.trk.writeProt then s.binLost e.cause else
    let start := !s.trk.coalescing && 1024 ≤ s.trk.queue.length
    let q := if start then coalesceQueue s.trk.queue else s.trk.queue
    let s := if start then (s.latch R.TRK_CAUSE 0).countSuppressed (s.trk.queue.length - q.length) else s
    let on := start || s.trk.coalescing
    let rep := on && 2 ≤ causeCount q e.cause
    let q' := if rep then replaceNewest e q else q ++ [e]
    let s := if rep then s.countSuppressed 1 else s
    let s := { s with trk := { s.trk with queue := q', coalescing := on && 512 ≤ q'.length } }
    (s.setRf R.TRK_QUEUE 26 16 (max (s.rf R.TRK_QUEUE 26 16) q'.length)).noteLt R.TRK_QUEUE (maskOf 26 16)

/-- Writes a Bin record of a cause with its payload, words 3 to 6, for epoch e (R431). -/
def State.binAt (s : State) (e : Epoch) (cause : Nat) (payload : List Nat) : State :=
  s.binPush ⟨cause, false, s.ref.holdoverNow, s.sys.era, if s.sys.counting then e else 0, 0, s.start.aoNs / 1000 % 2 ^ 32, payload⟩

/-- Writes a Bin record at the present epoch. -/
def State.binLog (s : State) (cause : Nat) (payload : List Nat) : State := s.binAt s.sys.epoch cause payload

/-- The newest valid copy of a Trunk object: the valid slot of higher sequence (R427). -/
def newestSlot (o : TrkObj) : Option TrkSlot :=
  if o.s0.valid && (!o.s1.valid || o.s1.seq ≤ o.s0.seq) then some o.s0 else if o.s1.valid then some o.s1 else none

/-- A write of a Trunk object waits for its turn; with WRITE_PROT = 1 it is lost and counted (R428, R430). -/
def State.trkAsk (s : State) (i : TrkItem) (ws : List Nat) : State :=
  if s.trk.writeProt then s.countSuppressed 1 else { s with trk := { s.trk with waiting := s.trk.waiting ++ [(i, ws)] } }

/-- The commissioning mode in force (R36). -/
def State.commission (s : State) : Bool := s.rb R.SYS_CONV_CFG 0

/-- The OWNER mask of object k (R393). -/
def State.owner (s : State) (k : Nat) : Nat := s.rf (R.HAT_OWN k) 3 0

/-- The STANDBY mask of object k (R393). -/
def State.standby (s : State) (k : Nat) : Nat := s.rf (R.HAT_OWN k) 7 4

/-- Hatch h owns object k (R394). -/
def State.owns (s : State) (h : Fin 4) (k : Nat) : Bool := bit (s.owner k) h.val

/-- A ring write index advanced by one, and the phase of the next entry (R377). -/
def advance (r : RingSt) : RingSt :=
  let i := (r.index + 1) % 2 ^ r.sizeLog2
  { r with index := i, phase := if i = 0 then !r.phase else r.phase }

/-- The entries of a completion or event ring that are free: one stays free, so that HEAD = INDEX means empty (R376). -/
def freeEntries (r : RingSt) : Nat :=
  2 ^ r.sizeLog2 - 1 - (r.index + 2 ^ r.sizeLog2 - r.bell) % 2 ^ r.sizeLog2 - r.reserved

/-- Stops a ring with an error kind (R378). -/
def stopRing (r : RingSt) (kind : Nat) : RingSt := { r with stopped := true, error := kind }

/-- Completion ring c of Hatch h stops with an error kind, and with it every order ring that names it (R378). (DEDUCED, log 33.) -/
def State.stopCr (s : State) (h : Fin 4) (c kind : Nat) : State :=
  let s := s.updHat h.val (fun a =>
    { a with
      cr := smUpd {} a.cr c (fun x => stopRing x kind)
      or_ := (List.range 16).foldl (fun m r =>
        let x := smGet {} m r
        if x.enable && x.cr = c && !x.stopped then smSet {} m r (stopRing x kind) else m) a.or_ })
  s.hatCause h 0

/-- ERA at an epoch not later than the present one (R17, R388, R391). -/
def State.eraAt (s : State) (e : Epoch) : Nat :=
  if e.toNat ≤ s.sys.epoch.toNat then s.sys.era else (s.sys.era + 2 ^ 16 - 1) % 2 ^ 16

/-- One event of Hatch h (R379, R391): written when its ring takes it, with an EVENTS_LOST event first when events were
lost before it, or lost and counted. -/
def State.eventTo (s : State) (h : Fin 4) (kind detail : Nat) (ep : Epoch) (w2 w3 : Nat) : State :=
  let a := s.hat h.val
  let lose (s : State) : State :=
    let s := s.updHat h.val (fun a => { a with lost := incSat 65535 a.lost, evSeq := a.evSeq + 1 })
    s.hatCause h 1
  let put (s : State) (kind detail : Nat) (ep : Epoch) (w2 w3 : Nat) : State :=
    let a := s.hat h.val
    let ev := a.ev
    let w0 := b2n ev.phase * 2 ^ 63 + kind * 2 ^ 48 + detail * 2 ^ 32 + (a.evSeq + 1) % 2 ^ 32
    let ws := [BitVec.ofNat 64 w0, BitVec.ofNat 64 (s.eraAt ep * 2 ^ 48 + ep.toNat), BitVec.ofNat 64 w2, BitVec.ofNat 64 w3]
    let s := s.emit (.event h ev.index ws)
    let s := s.updHat h.val (fun a => { a with ev := advance ev, evSeq := a.evSeq + 1 })
    s.signal h ev.vector
  if !a.ev.enable || a.ev.stopped || freeEntries a.ev = 0 then lose s
  else if !a.bme then
    let s := s.updHat h.val (fun a => { a with ev := stopRing a.ev 3 })
    lose (s.hatCause h 0)
  else if a.lost = 0 then put s kind detail ep w2 w3
  else
    let s := put s 5 0 s.sys.epoch a.lost 0
    let s := s.binLog 0xD9 [h.val, a.lost]
    let s := s.updHat h.val (fun a => { a with lost := 0 })
    if freeEntries (s.hat h.val).ev = 0 then lose s else put s kind detail ep w2 w3

/-- The Hatches of a 4-bit mask. -/
def hatList (mask : Nat) : List (Fin 4) := ([0, 1, 2, 3] : List (Fin 4)).filter (fun h => bit mask h.val)

/-- An event to every Hatch of a mask (R391). -/
def State.eventMask (s : State) (mask kind detail : Nat) (ep : Epoch) (w2 w3 : Nat) : State :=
  (hatList mask).foldl (fun s h => s.eventTo h kind detail ep w2 w3) s

/-- An order open in its Hatch is the one that a reference names. -/
def refersTo (r : OrderRef) (o : OpenOrder) : Bool := o.ring = r.ring && o.index = r.index && o.tag = r.tag

/-- The completion ring of an order: the one in which its entry was reserved at the fetch, none once that ring has been disabled (R377);
for an order that was not fetched the one that its ring names. (DEDUCED, log 33.) -/
def State.orderCr (s : State) (r : OrderRef) : Option Nat :=
  match (s.hat r.hatch.val).openOrders.find? (refersTo r) with
  | some o => o.cr
  | none => some (smGet {} (s.hat r.hatch.val).or_ r.ring).cr

/-- Writes the completion of an order whose outcome was settled at the boundary of E(e) (R377, R380, R388): the reserved entry is used,
and the order is no longer open. A disabled completion ring takes no completion, and a stopped one gives the entry back. -/
def State.completeAt (s : State) (e : Epoch) (r : OrderRef) (opcode status w2 w3 : Nat) : State :=
  let a := s.hat r.hatch.val
  let t := s.updHat r.hatch.val (fun a => { a with openOrders := a.openOrders.eraseP (refersTo r) })
  match s.orderCr r with
  | none => t
  | some c =>
    let cr := smGet {} a.cr c
    let used : RingSt := { cr with reserved := cr.reserved - 1 }
    let put (x : RingSt) (s : State) : State := s.updHat r.hatch.val (fun a => { a with cr := smSet {} a.cr c x })
    if !cr.enable then t
    else if cr.stopped then put used t
    else if !a.bme then (put used t).stopCr r.hatch c 3
    else
      let w0 := b2n cr.phase * 2 ^ 63 + status * 2 ^ 48 + opcode * 2 ^ 40 + r.ring * 2 ^ 36 + r.index * 2 ^ 16 + r.tag
      let ws := [w0, s.eraAt e * 2 ^ 48 + e.toNat, w2, w3].map (BitVec.ofNat 64)
      let t := put (advance used) (t.emit (.completion r.hatch c cr.index ws))
      if r.irq then t.signal r.hatch cr.vector else t

/-- Writes the completion of an order settled at the present boundary (R380, R388). -/
def State.complete (s : State) (r : OrderRef) (opcode status w2 w3 : Nat) : State := s.completeAt s.sys.epoch r opcode status w2 w3

/-- An uncorrectable error of Hatch h in AER (R400): its status bit, and a report unless the host masks it, fatal by the severity that the
host programs. (PRESUMED, log 31: the bits are those of PCI Express.) -/
def State.aerError (s : State) (h : Fin 4) (b : Nat) : State :=
  let c := (s.hat h.val).pcie
  let s := s.updHat h.val (fun a => { a with aer := a.aer ||| BitVec.ofNat 32 (2 ^ b) })
  if flag c.aerMask b then s else s.emit (.errorReport h b (flag c.aerSeverity b))

/-- A request that Hatch h completes with Completer Abort (R400). -/
def State.completerAbort (s : State) (h : Fin 4) : State := (s.emit (.abort h)).aerError h 15

/-- A request that Hatch h completes as Unsupported Request (R370, R400). -/
def State.unsupportedReq (s : State) (h : Fin 4) : State := (s.emit (.unsupported h)).aerError h 20

/-- The ownership object of a register offset, for a writer whose slot window shows the given slot (R393): none for
registers kept per requester and for the banked HAT registers. -/
def objectOf (off slot : Nat) : Option Nat :=
  if (R.HAT_ID ≤ off ∧ off < R.HAT_OWN 0) ∨ off ∈ [R.SYS_EPOCH_HI, R.LNK_TBL_ADDR, R.CEL_CRATE_SEL, R.CTL_SLOT_SEL,
      R.CTL_TONE_SEL, R.CTL_CAP_ADDR, R.GRD_CRV_SEL, R.EDG_PROF_ADDR, R.EDG_TBL_ADDR, R.SAF_VIEW, R.SAF_CONFIRM_VALUE,
      R.STR_REC_ADDR, R.TRK_BIN_SEL, R.DBG_CAP_ADDR] then none
  else if off ∈ [R.PRT_ESCALATE, R.PRT_HOLD, R.PRT_DISC, R.PRT_RESET] ∨ (R.PRT_TRIP_CFG 0 ≤ off ∧ off < R.PRT_RAISED 0)
      ∨ (R.PRT_SRC_CFG 0 ≤ off ∧ off < R.PRT_SRC_STAT 0) ∨ (R.PRT_LIM 0 ≤ off ∧ off < 0x2400) then some 1
  else if off ∈ [R.MTR_CFG, R.MTR_SEAL, R.MTR_ACTION] ∨ (R.MTR_SCALE 0 ≤ off ∧ off ≤ R.MTR_SCALE 7) ∨ (0x2E40 ≤ off ∧ off < 0x2EC0) then some 2
  else if 0x3000 ≤ off ∧ off < 0x3400 then some 3
  else if R.GRD_PAR 13 ≤ off ∧ off ≤ R.GRD_PAR 15 then some 4
  else if (R.GRD_CRV_BANK ≤ off ∧ off ≤ R.GRD_CRV_LIVE) ∨ (R.GRD_CRV_X 0 ≤ off ∧ off < R.GRD_OUT 0) then some 5
  else if off ∈ [R.GRD_CFG, R.GRD_ACTION, R.GRD_FORM_SLOTS_LO, R.GRD_FORM_SLOTS_HI] ∨ (R.GRD_TIME0 ≤ off ∧ off ≤ R.GRD_TIME5)
      ∨ (R.GRD_PAR 0 ≤ off ∧ off ≤ R.GRD_PAR 63) then some 6
  else if off = R.EDG_FORCE ∨ off = R.EDG_BYPASS then some 7
  else if 0xA00 ≤ off ∧ off < 0xE00 then some 8
  else if (R.CTL_GEN_CFG 0 ≤ off ∧ off < R.CTL_TONE_SEL) ∨ off ∈ [R.CTL_TONE_CFG, R.CTL_TONE_AMP, R.CTL_CAP_CFG, R.CTL_CAP_CTRL]
      ∨ (R.CTL_CAP_SRC 0 ≤ off ∧ off ≤ R.CTL_CAP_SRC 3) then some 9
  else if 0x200 ≤ off ∧ off < 0x400 then some 10
  else if 0x3600 ≤ off ∧ off < 0x3800 then some 11
  else if R.CTL_W_WIRE ≤ off ∧ off ≤ R.CTL_W_QS then some (16 + slot)
  else if R.CTL_SP 0 ≤ off ∧ off ≤ R.CTL_SP 63 then some (16 + (off - R.CTL_SP 0) / 4)
  else some 0

/-- The slot that a requester's slot window shows (R394). -/
def State.slotShown (s : State) (r : Requester) : Nat := s.rf (ownKey r R.CTL_SLOT_SEL) 5 0

/-- A requester may write an offset (R394): the management port always, a Hatch when it owns the object. -/
def State.mayWrite (s : State) (r : Requester) (off : Nat) : Bool :=
  match r with
  | .mgmt => true
  | .hatch h => match objectOf off (s.slotShown r) with
    | none => true
    | some k => s.owns h k

/-- Runs an action of a WA field for a requester: an action without ownership is logged with kind 4 and changes nothing
else (R394). -/
def State.asOwner (s : State) (r : Requester) (off : Nat) (f : State → State) : State :=
  if s.mayWrite r off then f s else s.logErr r 4 off

/-- A one-pass source event for both protections, which their passes see from the next boundary (R285, R303). -/
def State.prtEvent (s : State) (k : Nat) : State :=
  { s with prt := { s.prt with evtNext := k :: s.prt.evtNext.erase k } }

/-- The Shelf of epoch n. -/
def State.shelf (s : State) (n : Epoch) : Shelf := smGet {} s.cel.shelves n.toNat

/-- Changes the Shelf of epoch n. -/
def State.updShelf (s : State) (n : Epoch) (f : Shelf → Shelf) : State :=
  { s with cel := { s.cel with shelves := smUpd {} s.cel.shelves n.toNat f } }

/-- Sets word w (of 32 bits) of the annex of Shelf n (R148). -/
def State.annexSet (s : State) (n : Epoch) (w : Nat) (v : Word) : State :=
  s.updShelf n (fun sh => { sh with annex := smSet 0 sh.annex w v })

/-- Sets consecutive annex words from byte offset b. -/
def State.annexPut (s : State) (n : Epoch) (b : Nat) (vs : List Word) : State :=
  s.updShelf n (fun sh => { sh with annex := smSetList 0 sh.annex (b / 4) vs })

/-- Word w of the annex of Shelf n, as stored. (DEDUCED, log 18.) -/
def State.annexWord (s : State) (n : Epoch) (w : Nat) : Word := smGet 0 (s.shelf n).annex w

/-- Word w of the annex of Shelf n as a read gives it: one that lies in an uncorrectable 64-bit word is that of the Shelf before
(R151). (DEDUCED, log 18.) -/
def State.annexRead (s : State) (n : Epoch) (w : Nat) : Word :=
  if (s.shelf n).badAnnex.contains (w / 2) then s.annexWord (n - 1) w else s.annexWord n w

/-- A domain is ready (R403, R404). -/
def State.domain (s : State) (d : Nat) : Bool := bit s.pwr.ready d

end Sys2Proof.Machine
end

