-- ==== Sys2Proof/Machine/Cellar.lean ====
section
/-! DEFINITION. The Cellar (chapter 05): records and Shelves, sealing, the annex, error correction and snapshots. -/

namespace Sys2Proof.Machine

/-- The receipts of R83. A LATE receipt says whether the record came from one burst. -/
inductive Rcpt where
  | untouched | full | mismatch | singleA | singleB | absent | wrongHome | staleRoute
  | late (single : Bool)
deriving DecidableEq, Repr

/-- Lane l is enabled (R100). -/
def State.laneEnabled (s : State) (l : Nat) : Bool := l < 512 && s.rb (R.LNK_LANE_EN (l / 32)) (l % 32)

/-- Lane l is active: enabled, its lane-group domain ready, calibrated, and not quarantined (R100, R404). -/
def State.laneActive (s : State) (l : Nat) : Bool :=
  s.laneEnabled l && s.domain (l / 16) && (s.lane l).calibrated && !(s.lane l).quar

/-- The active lanes. -/
def State.activeLanes (s : State) : List Nat := (List.range 512).filter s.laneActive

/-- The largest lead of any active lane (R34, R164). -/
def State.leadMax (s : State) : Nat := (s.activeLanes.map (fun l => (s.lane l).lead)).foldl max 0

/-- Unit h has a hold offset for its route in force (R116). -/
def UnitSt.hasHold (u : UnitSt) : Bool := if u.bridged then u.dueBridged else u.dueHome

/-- Converter epoch n is a due epoch of unit h: every epoch on the home route, on a bridged route those of its phase, whose
records the frame of EPOCH = n + 1 collects (R105, R116). -/
def State.dueEpoch (s : State) (h : Nat) (n : Epoch) : Bool :=
  let u := s.unit h
  u.hasHold && (!u.bridged || n.toNat % 2 = 0)

/-- The bank of home address h is on (R136). -/
def State.bankOn (s : State) (h : Nat) : Bool := s.domain (32 + h / 1024)

/-- The entry of address h is EMPTY (R141). -/
def State.emptyAddr (s : State) (h : Nat) : Bool :=
  let m := s.mapEntry h
  let st := (s.unit h).status
  !mapExpected m || mapGroup m = 15 || st = .notStarted || st = .rejected || !(smGet false s.cel.seen h) || !s.bankOn h

/-- An entry as carried into Shelf n (R143). -/
def carried (e : Entry) (notDue : Bool) : Entry := { e with stale := true, auxStale := true, notDue := notDue, uncorr := false }

/-- The entry of address h that a read of Shelf n gives, none where it is EMPTY: an uncorrectable entry is that of the Shelf before,
treated as carried, and EMPTY where that one cannot be read either (R151). (DEDUCED, log 18.) -/
def State.readEntry (s : State) (n : Epoch) (h : Nat) : Option Entry :=
  if !(s.shelf n).bad.contains h then smFind (s.shelf n).recs h
  else if (s.shelf (n - 1)).bad.contains h then none
  else (smFind (s.shelf (n - 1)).recs h).map (fun e => { carried e (!s.dueEpoch h n) with uncorr := true })

/-- The newest entry of address h held in a Shelf before n: what R143 would carry. -/
def State.carryFrom (s : State) (h : Nat) : Nat → Epoch → Option Entry
  | 0, _ => none
  | fuel + 1, n =>
    match s.readEntry (n - 1) h with
    | some e => some e
    | none => if (s.shelf (n - 1)).sealedAt.isSome then none else s.carryFrom h fuel (n - 1)

/-- The status word of an entry in Shelf n (R140). -/
def statusWord (e : Entry) (n : Epoch) : DWord :=
  let age (x : Epoch) : Nat := min 255 ((n - x).toNat % 2 ^ 32)
  BitVec.ofNat 64 (age e.src * 2 ^ 56 + b2n e.stale * 2 ^ 55 + b2n e.single * 2 ^ 54 + b2n e.late * 2 ^ 53 +
    b2n e.auxStale * 2 ^ 52 + b2n e.notDue * 2 ^ 51 + b2n e.uncorr * 2 ^ 49 + age e.aux * 2 ^ 40 + e.src.toNat % 2 ^ 32)

/-- The four words of an EMPTY entry of address h (R141). -/
def emptyWords (h : Nat) (uncorr : Bool) : List DWord :=
  [BitVec.ofNat 64 (h % 4096 * 2 ^ 22), 0, 0,
   BitVec.ofNat 64 (255 * 2 ^ 56 + 2 ^ 55 + 2 ^ 50 + b2n uncorr * 2 ^ 49 + 255 * 2 ^ 40)]

/-- The words of address h in Shelf n (R139–R141). -/
def entryWords (h : Nat) (n : Epoch) : Option Entry → List DWord
  | none => emptyWords h false
  | some e => [e.w0, e.w1, e.w2, statusWord e n]

/-- Field [hi:lo] of a record word. -/
def rec64 (w : DWord) (hi lo : Nat) : Nat := bits w.toNat hi lo

/-- VCAP of an entry (R79). -/
def Entry.vcap (e : Entry) : Nat := rec64 e.w0 63 46
/-- FAULT flags of an entry (R80). -/
def Entry.fault (e : Entry) : Nat := rec64 e.w0 45 34
/-- STATE of an entry (R79). -/
def Entry.state (e : Entry) : Nat := rec64 e.w0 11 8
/-- T_ON of an entry (R79). -/
def Entry.tOn (e : Entry) : Nat := rec64 e.w1 63 52
/-- T_OFF of an entry (R79). -/
def Entry.tOff (e : Entry) : Nat := rec64 e.w1 51 40
/-- QGAUGE of an entry (R79). -/
def Entry.qgauge (e : Entry) : Nat := rec64 e.w2 63 56
/-- MGAUGE of an entry (R79). -/
def Entry.mgauge (e : Entry) : Nat := rec64 e.w2 55 48
/-- A_CRATE of an entry (R79). -/
def Entry.aCrate (e : Entry) : Nat := rec64 e.w2 47 40
/-- ACK of an entry (R79). -/
def Entry.ack (e : Entry) : Nat := rec64 e.w2 39 38

/-- The sample epoch resolved from SEPOCH in a frame of EPOCH k: the newest j ≤ k − 1 with j modulo 64 = SEPOCH (R83). -/
def resolveSepoch (k : Epoch) (sepoch : Nat) : Epoch :=
  (k - 1) - BitVec.ofNat 48 ((k.toNat + 2 ^ 48 - 1 + 64 - sepoch) % 64)

/-- Writes the record of address h received in the frame of EPOCH k, with word 0 from the burst used (R142, R144). Answers
whether the due epoch is fresh. -/
def State.celWrite (s : State) (h : Nat) (k : Epoch) (single late auxLost : Bool) (w0 w1 w2 : DWord) : Bool × State :=
  let n := k - 1
  let sh := s.shelf n
  if sh.sealedAt.isSome || (match s.cel.newest with | some m => epGe m n | none => false) then
    (false, s.count R.CEL_CNT_AFTER_SEAL 31 0)
  else if (smFind sh.recs h).isSome || sh.got.contains h then (false, s.count R.CEL_CNT_DUPLICATE 31 0)
  else
    let j := resolveSepoch k (rec64 w0 21 16)
    let old := s.carryFrom h 64 n
    let isLate := late || j ≠ n
    let aux1 := if auxLost then (old.map (·.w1)).getD 0 else w1
    let aux2 := if auxLost then (old.map (·.w2)).getD 0 else w2
    let auxE := if auxLost then (old.map (·.aux)).getD (n - 255) else n
    let e : Entry := ⟨w0, aux1, aux2, j, auxE, isLate, single, isLate, auxLost, !s.dueEpoch h n, false⟩
    let put (s : State) : State :=
      let s := s.updShelf n (fun sh => { sh with recs := smInsert sh.recs h e })
      { s with cel := { s.cel with seen := smSet false s.cel.seen h true } }
    if !isLate then (true, put s)
    else
      let newer := match old with | none => true | some o => epGe j o.src && j ≠ o.src
      if newer then (false, (put s).count R.CEL_CNT_LATE_USED 31 0)
      else (false, s.updShelf n (fun sh => { sh with got := h :: sh.got }))

/-- Lane l has delivered the frame of EPOCH k (R145). -/
def State.celDelivered (s : State) (l : Nat) (k : Epoch) : State :=
  s.updShelf (k - 1) (fun sh => if sh.delivered.contains l then sh else { sh with delivered := l :: sh.delivered })

/-- The lanes of Shelf n that have not delivered; one that has become inactive or muted since counts as delivered (R145, R415). -/
def State.lanesMissing (s : State) (n : Epoch) : List Nat :=
  (s.shelf n).expect.filter (fun l => !(s.shelf n).delivered.contains l && s.laneActive l && !s.ref.muted)

/-- The records of Shelf n as sealed: written entries, carried entries, and nothing for EMPTY addresses (R141, R143). -/
def State.sealRecs (s : State) (n : Epoch) : SMap Entry :=
  let written := (s.shelf n).recs
  s.mapped.filterMap (fun h =>
    if s.emptyAddr h then none
    else match smFind written h with
      | some e => some (h, e)
      | none => (s.readEntry (n - 1) h).map (fun e => (h, carried e (!s.dueEpoch h n))))

/-- The regions of the annex by item of R20: byte offset and size (R148). -/
def itemRegion (item : Nat) : List (Nat × Nat) :=
  match item with
  | 0 => [(0x200, 1536)]
  | 1 => [(0x800, 6144)]
  | 8 => [(0x5000, 4096)]
  | 9 => [(0x3400, 2048)]
  | 10 => [(0x3C00, 2048)]
  | 11 => [(0x4400, 1024)]
  | 13 => [(0x3000, 1024)]
  | k => if 2 ≤ k ∧ k ≤ 7 then [(0x2000 + 512 * (k - 2), 512)] else []

/-- The held region of item k copied from the annex of Shelf n − 1 as a read gives it (R150, R151). (DEDUCED, log 18.) -/
def State.holdRegion (s : State) (n : Epoch) (item : Nat) : State :=
  let copy (a : SMap Word) (r : Nat × Nat) : SMap Word :=
    (List.range (r.2 / 4)).foldl (fun a i => smSet 0 a (r.1 / 4 + i) (s.annexRead (n - 1) (r.1 / 4 + i))) a
  s.updShelf n (fun sh =>
    let a := (itemRegion item).foldl copy sh.annex
    let a := if 2 ≤ item ∧ item ≤ 7 then
        let w := (0x2000 + 512 * (item - 2)) / 4 + 7
        smSet 0 a w (setFlag (smGet 0 a w) 0 true)
      else a
    { sh with annex := a, held := sh.held ||| 2 ^ item })

/-- The annex header of Shelf n, sealed at epoch e (R149). Before any Shelf was sealed READ_AGE is at its stop. (DEDUCED, log 18.) -/
def annexHeader (n : Epoch) (sh : Shelf) (e : Epoch) : List Word :=
  let readShelf := sh.read.getD (n - 255)
  let fresh := (sh.recs.filter (fun p => !p.2.stale)).length
  let stale := (sh.recs.filter (fun p => p.2.stale)).length
  [n.toNat % 2 ^ 32, sh.era * 2 ^ 16 + n.toNat / 2 ^ 32,
   b2n sh.holdover * 2 ^ 25 + b2n sh.deadline * 2 ^ 24 + min 255 (e - n).toNat * 2 ^ 16 + sh.held % 2 ^ 14,
   min 255 (n - readShelf).toNat * 2 ^ 16 + readShelf.toNat % 2 ^ 16,
   fresh, stale, sh.missing, sh.crateId * 2 ^ 8 + sh.crateEvent].map (BitVec.ofNat 32)

/-- Seals Shelf n in the pass of E(m); a deadline seal when its lanes have not delivered (R145, R146). (DEDUCED, log 18.) -/
def State.sealShelf (s : State) (m n : Epoch) : State :=
  let missing := (s.lanesMissing n).length
  let recs := s.sealRecs n
  let s := s.updShelf n (fun sh => { sh with recs := recs, sealedAt := some (m + 1), deadline := missing ≠ 0, missing := missing })
  let s := if missing ≠ 0 then
      (((s.count R.CEL_CNT_DEADLINE 31 0).latch R.CEL_CAUSE 0).setRf R.CEL_SEAL_STAT 7 0 (min 255 missing)).prtEvent 44
    else s
  s.updShelf n (fun sh => { sh with annex := smSetList 0 sh.annex 0 (annexHeader n sh (m + 1)) })

/-- Shelf n may be sealed in the pass of E(m): its annex is complete and every lane has delivered, or its deadline pass has
come (R145, R146). -/
def State.sealable (s : State) (m n : Epoch) : Bool :=
  (s.shelf n).annexDone && ((s.lanesMissing n).isEmpty || 25 ≤ (m - n).toNat)

/-- Seals Shelves in epoch order from n on, while they may be sealed (R146). -/
def State.sealFrom (s : State) (m : Epoch) : Nat → Epoch → State
  | 0, _ => s
  | fuel + 1, n =>
    if n ≠ m ∧ s.sealable m n then
      let s := s.sealShelf m n
      ({ s with cel := { s.cel with sealing := some n, sealFirst := some (s.cel.sealFirst.getD n) } } : State).sealFrom m fuel (n + 1)
    else s

/-- The Shelf that the next seal takes: the one after the newest sealed. -/
def State.nextSeal (s : State) : Epoch :=
  match s.cel.sealing with
  | some n => n + 1
  | none => match s.cel.newest with
    | some n => n + 1
    | none => 0

/-- S(m): the newest Shelf sealed at the start of the present epoch (R138). -/
def State.newestShelf (s : State) : Shelf :=
  match s.cel.newest with
  | some n => s.shelf n
  | none => {}

/-- The entry of address h in S(m), as a read gives it (R138, R151). -/
def State.entry (s : State) (h : Nat) : Option Entry :=
  match s.cel.newest with
  | some n => s.readEntry n h
  | none => none

/-- The seal pass of the present epoch E(m), item 12 of R20: the annexes of Shelf m − 1 and of the Shelves of missed passes
are complete, and every Shelf that may be sealed is sealed; it is readable from E(m + 1) (R146). -/
def State.sealPass (s : State) : State :=
  let m := s.sys.epoch
  let n := m - 1
  let s := (List.range (s.cel.missedSeals + 1)).foldl (fun s i =>
    s.updShelf (n - BitVec.ofNat 48 i) (fun sh => { sh with annexDone := true })) s
  let s := { s with cel := { s.cel with missedSeals := 0 } }
  s.sealFrom m 64 s.nextSeal

/-- A counter register is cleared by CEL_CTR_CLEAR. -/
def State.celCtrClear (s : State) : State :=
  [R.CEL_CNT_DEADLINE, R.CEL_CNT_AFTER_SEAL, R.CEL_CNT_DUPLICATE, R.CEL_CNT_ECC_CORR, R.CEL_CNT_ECC_UNCORR,
    R.CEL_CNT_LATE_USED].foldl (fun s k => s.setReg k 0) s

/-- The spare rows in use in bank b (R169). -/
def State.spareUsed (s : State) (b : Nat) : Nat := s.rf R.CEL_SPARE (8 * b + 7) (8 * b)

/-- The corrected errors that a row has given within the last 2^20 ep (R152). -/
def State.rowErrors (s : State) (k : Nat) : Nat :=
  ((smGet [] s.cel.rowErrs k).filter (fun e => (s.sys.epoch - e).toNat < 2 ^ 20)).length

/-- A row is marked for repair once it has given ROW_LIMIT corrected errors within 2^20 ep (R152). Rows are numbered across
the banks, row + 2^20 × bank. (DEDUCED, log 18.) -/
def execRowRepairMark (bank row : Nat) (s : State) : Out :=
  let k := bank * 2 ^ 20 + row
  if bank < 4 ∧ s.rf R.CEL_ECC_CFG 7 0 ≤ s.rowErrors k ∧ ¬ s.cel.marks.contains k ∧ ¬ s.cel.repaired.contains k then
    let s := { s with cel := { s.cel with marks := s.cel.marks ++ [k] } }
    let s := s.latch R.CEL_CAUSE 5
    .next (if 32 ≤ s.spareUsed bank then s.latch R.CEL_CAUSE 2 else s)
  else .next s

/-- At an entry into OFF marked rows are mapped onto spare rows, while the bank has one, and the repair map goes to the
Trunk (R152). (DEDUCED, log 18.) -/
def State.repairRows (s : State) : State :=
  let s' := s.cel.marks.foldl (fun (s : State) k =>
    let b := k / 2 ^ 20
    if s.spareUsed b < 32 then
      let s := s.setRf R.CEL_SPARE (8 * b + 7) (8 * b) (s.spareUsed b + 1)
      let s := { s with cel := { s.cel with marks := s.cel.marks.erase k, repaired := s.cel.repaired ++ [k] } }
      if s.spareUsed b = 32 then s.latch R.CEL_CAUSE 2 else s
    else s) s
  if s'.cel.repaired = s.cel.repaired then s' else
    s'.trkAsk .repairMap s'.cel.repaired

/-- An error met in the Cellar (R151): a corrected word is counted against its row; an uncorrectable one spoils the entry of
its address, or a word of the annex, and is an event of source CEL_ECC. (DESIGN CHOICE, log 19.) -/
def State.eccHit (s : State) (e : EccHit) : State :=
  if e.uncorr then
    let s := s.updShelf e.shelf (fun sh => match e.annexWord with
      | some w => { sh with badAnnex := w :: sh.badAnnex.erase w }
      | none => { sh with bad := e.home :: sh.bad.erase e.home })
    ((s.count R.CEL_CNT_ECC_UNCORR 31 0).latch R.CEL_CAUSE 1).prtEvent 42
  else
    let k := e.bank * 2 ^ 20 + e.row
    let s := { s with cel := { s.cel with rowErrs := smUpd [] s.cel.rowErrs k (fun es => (s.sys.epoch :: es).take 255) } }
    s.count R.CEL_CNT_ECC_CORR 31 0

/-- The words read for address h of Shelf n, with the substitution of an unreadable entry (R139–R141, R151). -/
def State.readWords (s : State) (n : Epoch) (h : Nat) : List DWord :=
  match s.readEntry n h with
  | some e => entryWords h n (some e)
  | none => emptyWords h ((s.shelf n).bad.contains h)

/-- The snapshot side of Hatch h. -/
def State.snap (s : State) (h : Nat) : SnapSt := smGet {} s.cel.snaps h

/-- Changes the snapshot side of Hatch h. -/
def State.updSnap (s : State) (h : Nat) (f : SnapSt → SnapSt) : State :=
  { s with cel := { s.cel with snaps := smUpd {} s.cel.snaps h f } }

/-- The cost of a snapshot in bytes (R154). -/
def snapCost (a : SnapshotArgs) : Nat := 32 * a.count + (if a.annex then 32768 else 0)

/-- Where a snapshot request stands (R155). -/
inductive SnapTurn where
  | copy (n : Epoch) | wait | gone | badArg
deriving DecidableEq, Repr

/-- A snapshot request at the head of its queue, with the present epoch and credit (R154, R155). -/
def State.snapTurn (s : State) (h : Nat) (a : SnapshotArgs) : SnapTurn :=
  if (s.snap h).credit < snapCost a then .wait
  else if a.newest then (match s.cel.newest with | some n => .copy n | none => .wait)
  else if epGe a.epoch s.sys.epoch then (if 64 < (a.epoch - s.sys.epoch).toNat then .badArg else .wait)
  else if 64 ≤ (s.sys.epoch - a.epoch).toNat then .gone
  else match s.cel.newest with
    | some n => if epGe n a.epoch then .copy a.epoch else .wait
    | none => .wait

/-- A snapshot order accepted for its Hatch: a range that does not lie within 0 to 4,095 completes BAD_ARG, otherwise the
request waits its turn (R153, R155). -/
def State.snapRequest (s : State) (r : OrderRef) (a : SnapshotArgs) : State :=
  if a.count = 0 ∨ 4096 < a.first + a.count then s.complete r 0x10 6 0 0
  else s.updSnap r.hatch.val (fun q => { q with queue := q.queue ++ [⟨r, a⟩] })

/-- The annex of Shelf n as a read gives it (R148, R151). -/
def State.annexCopy (s : State) (n : Epoch) : SMap Word :=
  (s.shelf n).badAnnex.foldl (fun a w =>
    smSet 0 (smSet 0 a (2 * w) (s.annexWord (n - 1) (2 * w))) (2 * w + 1) (s.annexWord (n - 1) (2 * w + 1))) (s.shelf n).annex

/-- What a request copies of Shelf n, with the SEQ that its exchange will show (R155, R156). -/
def State.snapOf (s : State) (a : SnapshotArgs) (n : Epoch) (seq : Nat) : Snap :=
  let sh := s.shelf n
  let homes := (List.range a.count).map (· + a.first)
  { epoch := n, era := sh.era, first := a.first, count := a.count, annex := a.annex, seq := seq
    uncorr := (homes.filter (fun x => sh.bad.contains x)).length + (if a.annex then sh.badAnnex.length else 0)
    recs := homes.map (fun h => (h, s.readWords n h))
    words := if a.annex then s.annexCopy n else [] }

/-- The copy of Shelf n for a request fills the half not shown, and the credit is deducted (R154, R156). (DEDUCED, log 18.) -/
def State.snapCopy (s : State) (h : Nat) (q : SnapReq) (n : Epoch) : State :=
  s.updSnap h (fun p =>
    { p with credit := p.credit - snapCost q.args, queue := p.queue.drop 1, copying := some q, other := some (s.snapOf q.args n (p.seq + 1)) })

/-- The snapshot header: 16 words, of which words 5 to 15 are 0 (R156). -/
def Snap.header (p : Snap) : List Word :=
  [p.seq, p.epoch.toNat, p.era % 2 ^ 16 * 2 ^ 16 + p.epoch.toNat / 2 ^ 32, p.count * 2 ^ 16 + p.first,
    p.uncorr % 2 ^ 16 * 2 ^ 16 + b2n p.annex].map (BitVec.ofNat 32)

/-- Word w of a half of the snapshot buffer, in the BAR2 layout: records, annex, header, 32-bit words with the least significant byte
lowest; what was not copied reads 0 (R139, R148, R156). -/
def Snap.word (p : Snap) (w : Nat) : Word :=
  if w < 0x8000 then
    match smFind p.recs (w / 8) with
    | some ws => BitVec.ofNat 32 ((ws.getD (w % 8 / 2) 0).toNat / 2 ^ (32 * (w % 2)))
    | none => 0
  else if w < 0xA000 then smGet 0 p.words (w - 0x8000)
  else p.header.getD (w - 0xA000) 0

/-- The words of a BAR2 image from offset 0 to the end of the header (R156). -/
def snapWords : Nat := (0x28000 + 64) / 4

/-- A read of a 32-bit word of BAR2 of Hatch h at an offset: a word of the half shown; above the header it gives Completer Abort (R156). -/
def State.bar2Read (s : State) (h off : Nat) : Option Word :=
  if off / 4 < snapWords then some (match (s.snap h).shown with | some p => p.word (off / 4) | none => 0) else none

/-- The boundary that ends a copy: the halves exchange, the copied bytes go to host memory where DMA was asked for, and the completion
follows them (R156, R389). (DEDUCED, log 18.) -/
def State.snapExchange (s : State) (h : Fin 4) : State :=
  match (s.snap h.val).copying, (s.snap h.val).other with
  | some q, some p =>
    let s := s.updSnap h.val (fun a => { a with copying := none, other := a.shown, shown := some p, seq := p.seq })
    let bme := (s.hat h.val).bme
    let dma := q.args.dma
    let s := if dma && bme then s.emit (.hostData h q.args.addr ((List.range snapWords).map p.word)) else s
    if dma && !bme then s.complete q.ref 0x10 0x0D 0 0
    else s.complete q.ref 0x10 0 (p.era * 2 ^ 48 + p.epoch.toNat) (p.uncorr % 2 ^ 16 * 2 ^ 32 + p.seq % 2 ^ 32)
  | _, _ => s

/-- Once credit and the seal allow, the snapshot at the head of a Hatch's queue is copied; the boundary that ends the copy delivers and
completes it. One that cannot be served completes with its status and uses no credit (R155, R156). -/
def execSnapshotCopy (h : Fin 4) (s : State) : Out :=
  match (s.snap h.val).queue with
  | [] => .next s
  | q :: rest =>
    if (s.snap h.val).copying.isSome then .next s
    else match s.snapTurn h.val q.args with
    | .wait => .next s
    | .copy n => .next (s.snapCopy h.val q n)
    | .gone => .next ((s.updSnap h.val (fun p => { p with queue := rest })).complete q.ref 0x10 0x0B 0 0)
    | .badArg => .next ((s.updSnap h.val (fun p => { p with queue := rest })).complete q.ref 0x10 6 0 0)

/-- The Shelves sealed in the pass before become readable in E(m) (R146): LAG is that of the newest, and LAG_MAX takes that of the
oldest, which is the largest (R169). -/
def State.celSealed (s : State) : State :=
  let m := s.sys.epoch
  match s.cel.sealing with
  | none => s
  | some n =>
    let lag := min 255 (m - n).toNat
    let lagMax := min 255 (m - s.cel.sealFirst.getD n).toNat
    let old := s.rf R.CEL_SEAL_STAT 23 16
    let s := { s with cel := { s.cel with newest := some n } }
    let s := s.setRf R.CEL_SEAL_STAT 15 8 lag
    let s := if old < lagMax then (s.setRf R.CEL_SEAL_STAT 23 16 lagMax).noteLt R.CEL_SEAL_STAT (maskOf 23 16) else s
    s.setReg R.CEL_SEALED (BitVec.ofNat 32 n.toNat)

/-- The Cellar at a boundary into E(m): the Shelves sealed in the pass before become readable, Shelf m − 64 is retired, copies of
snapshots end, credits refill, and S(m) is noted for the annex of Shelf m − 1 (R138, R146, R147, R154, R156). -/
def State.celBoundary (s : State) : State :=
  let m := s.sys.epoch
  let s := s.celSealed
  let s := { s with cel := { s.cel with shelves := smErase s.cel.shelves (m - 64).toNat } }
  let s := ([0, 1, 2, 3] : List (Fin 4)).foldl (fun s h =>
    (s.snapExchange h).updSnap h.val (fun p => { p with credit := min 163840 (p.credit + 2048) })) s
  let s := s.updShelf (m - 1) (fun sh => { sh with read := s.cel.newest })
  s.updShelf m (fun sh => { sh with era := s.sys.era, holdover := s.ref.holdoverNow })

/-- The field rules of the CEL block (R169). -/
def celRule (off : Nat) (w : Word) : Option Word :=
  if off = R.CEL_ECC_CFG then some (setFld w 7 0 (max 1 (fld w 7 0)))
  else if off = R.CEL_CRATE_CFG then some (setFld w 31 16 (max 1 (fld w 31 16)))
  else some w

end Sys2Proof.Machine
end

