-- ==== Sys2Proof/Machine/Unit.lean ====
section
/-! DEFINITION. What several engines ask of the units and of the epoch items: the map in force for a converter epoch, health
(R30), groups, source classes (R295), the values of the engine inputs (R183, R184), deadline misses (R23) and halted
engines (R485), and the sine of a fixed-point angle (R213). -/

namespace Sys2Proof.Machine

/-- Crate i. -/
def State.crate (s : State) (i : Nat) : Crate := smGet {} s.cel.crates i

/-- Changes Crate slot i. -/
def State.updCrate (s : State) (i : Nat) (f : Crate → Crate) : State :=
  { s with cel := { s.cel with crates := smUpd {} s.cel.crates i f } }

/-- The device parts of decided Crates that are in force for work of converter epoch c and not yet applied (R164, R267). -/
def State.decidedParts (s : State) (c : Epoch) : List DevPart :=
  (List.range 4).flatMap (fun i =>
    let k := s.crate i
    match k.state, k.eff with
    | .committing, some x => if epGe c x then k.devs else []
    | _, _ => [])

/-- The map entry of home address h for orders that serve converter epoch c (R28, R267). -/
def State.mapAt (s : State) (c : Epoch) (h : Nat) : BitVec 16 :=
  match (s.decidedParts c).find? (fun d => d.part = 0x01 && bits d.w2 11 0 = h) with
  | some d => BitVec.ofNat 16 (d.w3 % 2 ^ 16)
  | none => s.mapEntry h

/-- Unit h of the Edge Planner. -/
def State.eunit (s : State) (h : Nat) : EUnit := smGet {} s.edg.units h

/-- Changes unit h of the Edge Planner. -/
def State.updEunit (s : State) (h : Nat) (f : EUnit → EUnit) : State :=
  { s with edg := { s.edg with units := smUpd {} s.edg.units h f } }

/-- Group g, 0 to 6. -/
def State.grp (s : State) (g : Nat) : GroupSt := smGet {} s.edg.groups g

/-- Changes group g. -/
def State.updGrp (s : State) (g : Nat) (f : GroupSt → GroupSt) : State :=
  { s with edg := { s.edg with groups := smUpd {} s.edg.groups g f } }

/-- The class of source k in force: its configured class, or ESC once a degrade limit has been reached (R295, R297). -/
def State.srcClass (s : State) (k : Nat) : Nat :=
  if s.prt.esc.contains k then s.rf (R.PRT_SRC_CFG k) 27 25 else s.rf (R.PRT_SRC_CFG k) 30 28

/-- The source of FAULT flag b (R80, R303); DOWNSTREAM has none. -/
def flagSource (b : Nat) : Option Nat :=
  match b with
  | 11 => some 26 | 10 => some 27 | 9 => some 28 | 8 => some 29 | 7 => some 30 | 6 => some 31
  | 5 => some 32 | 4 => some 33 | 2 => some 36 | 1 => some 34 | 0 => some 35
  | _ => none

/-- A record carries a fault flag whose class is Block or Lock-out (R30). -/
def State.badFlags (s : State) (e : Entry) : Bool :=
  (bitList 12 e.fault).any (fun b => match flagSource b with | some k => 4 ≤ s.srcClass k | none => false)

/-- Unit h is healthy (R30, R279): PRESENT, reporting inserted, bypassed or blocked, without a flag of class Block or
Lock-out, and not bypassed by a sequence that is DONE. -/
def State.healthy (s : State) (h : Nat) : Bool :=
  (s.unit h).status = .present && (s.eunit h).byp.step ≠ 5 &&
  match s.entry h with
  | some e => e.state ≤ 2 && !s.badFlags e
  | none => false

/-- HEALTHY of group g (R30). -/
def State.healthyCount (s : State) (g : Nat) : Nat := ((s.groupHomes g).filter s.healthy).length

/-- N_REQ of group g (R39). -/
def State.nReq (s : State) (g : Nat) : Nat := min 1024 (s.rf (R.SYS_ARM_CFG g) 10 0)

/-- The redundancy margin of group g covers it (R30). (DESIGN CHOICE, log 42.) -/
def State.marginOk (s : State) (g : Nat) : Bool := s.nReq g ≤ s.healthyCount g

/-- The rated voltage of the class of a map entry, in the record LSB. -/
def State.vrated (s : State) (m : BitVec 16) : Nat := s.rf (R.SYS_CLASS_VOLT (mapClass m)) 17 0

/-- A capacitor voltage in V (R79). -/
def volts (vcap : Nat) : Rat := (vcap : Rat) / 64

/-- The epoch length T in s as the engines store it (R177). -/
def State.tEp (s : State) : Rat := konst ((s.epNs : Rat) / 1000000000)

/-- A quotient of an engine equation, rounded once; a division by 0 gives a free value. (DEDUCED, log 20; DESIGN CHOICE, log 21.) -/
def quo (place : Nat) (a b : Rat) : Rat := if b = 0 then konst (Config.divZero place a) else rnd [a / b]

/-- The physical value of a measurement word of input i (R184). -/
def State.physical (s : State) (i : Nat) (w : Word) : Rat :=
  let lsb : Rat := if flag w 27 then 1 / 100000 else 8 / 100000
  rnd [(signed 18 (fld w 17 0) : Rat) * konst lsb * s.rq (R.CTL_IN_SCALE i)]

/-- A measurement word of input i is doubtful (R184). -/
def State.wordDoubt (s : State) (i : Nat) (w : Word) : Bool := 0 < fld w 31 29 || s.rf (R.MFE_INCFG i) 4 0 = 0

/-- The input that holds a role, if any (R44). -/
def State.inputOf (s : State) (role : Nat) : Option Nat := (List.range 48).find? (fun i => s.rf (R.MFE_INCFG i) 4 0 = role)

/-- q of input i in the present pass; an input without a role reads 0 (R184). -/
def State.qInput (s : State) (i : Nat) : Rat := if s.rf (R.MFE_INCFG i) 4 0 = 0 then 0 else s.physical i (s.reg (R.MFE_VAL i))

/-- q of the input that holds a role; 0 without one (R184). -/
def State.qRole (s : State) (role : Nat) : Rat :=
  match s.inputOf role with
  | some i => s.physical i (s.reg (R.MFE_VAL i))
  | none => 0

/-- The value of a role is doubtful in the pass (R184). -/
def State.roleDoubt (s : State) (role : Nat) : Bool :=
  match s.inputOf role with
  | some i => s.wordDoubt i (s.reg (R.MFE_VAL i))
  | none => true

/-- The debug target of an item of R20 (R485): items 9 to 12 have none. (DEDUCED, log 38.) -/
def haltTarget (item : Nat) : Option Nat := if item ≤ 8 then some item else if item = 13 then some 9 else none

/-- Item k is halted in the present epoch (R485). (DEDUCED, log 38.) -/
def State.itemHalted (s : State) (k : Nat) : Bool :=
  match haltTarget k with
  | some t => bit s.dbg.halted t && !bit s.dbg.stepNow t
  | none => false

/-- The outputs of item k are held in the present epoch: it missed its deadline or is halted (R23). -/
def State.itemHeld (s : State) (k : Nat) : Bool := bit s.sys.missNow k || s.itemHalted k

/-- Item k misses its deadline in the present epoch: MISS_COUNT, the held annex region, DL_SINGLE and, for an Arm Engine, the account
that is held (R23, R150, R208, R303). (DESIGN CHOICE, log 39.) -/
def State.missItem (s : State) (k : Nat) : State :=
  if bit s.sys.missNow k then s else
    let s := { s with sys := { s.sys with missNow := s.sys.missNow ||| 2 ^ k } }
    let s := s.count (R.SYS_SLACK k) 23 16
    let s := if 2 ≤ k ∧ k ≤ 7 then s.updGrp (k - 2) (fun a => { a with held := true }) else s
    (s.holdRegion (s.sys.epoch - 1) k).prtEvent 47

/-- Runs the pass of item k with a function of the state, or holds it: before E(0), when the item has already missed, or
when it is halted, which counts as a miss (R20, R23, R485). (DESIGN CHOICE, log 39.) -/
def State.runItem (s : State) (k : Nat) (f : State → State) : State :=
  if !s.sys.counting || bit s.sys.missNow k then s
  else if s.itemHalted k then s.missItem k
  else f s

/-- 2π to 40 decimals. -/
def twoPi : Rat := 62831853071795864769252867665590057683943 / 10000000000000000000000000000000000000000

/-- A rational cut to 60 binary places. -/
def cut60 (q : Rat) : Rat := mkRat ((q * (2 ^ 60 : Nat)).floor) (2 ^ 60)

/-- The sine of an angle of at most a quarter turn, given in rad, by its power series to 12 terms. -/
def sinSeries (x : Rat) : Rat :=
  let x2 := cut60 (x * x)
  let step (st : Rat × Rat) (k : Nat) : Rat × Rat :=
    let t := cut60 (-(st.2 * x2) / (((2 * k + 2) * (2 * k + 3) : Nat) : Rat))
    (st.1 + t, t)
  ((List.range 12).foldl step (x, x)).1

/-- The sine of a fixed-point angle in 2^−32 turn: the exact value but for a free error below 2^−22 (R213). (DESIGN CHOICE, log 21.) -/
def sinT (a : Nat) : Rat :=
  let a := a % 2 ^ 32
  let q := 2 ^ 30
  let x (n : Nat) : Rat := cut60 (((n : Nat) : Rat) / (2 ^ 32 : Nat) * twoPi)
  let v := if a ≤ q then sinSeries (x a)
    else if a ≤ 3 * q then (if a ≤ 2 * q then sinSeries (x (2 * q - a)) else -sinSeries (x (a - 2 * q)))
    else -sinSeries (x (4 * q - a))
  let bound : Rat := 1 / 4194304 - 1 / 16777216
  konst (v + rclamp (-bound) bound (Config.sinErr a))

/-- The cosine of a fixed-point angle in 2^−32 turn. (DESIGN CHOICE, log 21.) -/
def cosT (a : Nat) : Rat := sinT (a + 2 ^ 30)

/-- A rational rounded to the nearest integer, ties away from zero. -/
def nearest (q : Rat) : Int := if 0 ≤ q then (q + 1 / 2).floor else -((-q + 1 / 2).floor)

/-- A time in 0.1 ms as whole epochs, to the nearest (R213). -/
def State.epOfTenth (s : State) (x : Nat) : Nat := (x * 100000 * 2 + s.epNs) / (2 * s.epNs)

/-- A time in ms as whole epochs, to the nearest (R213). -/
def State.epOfMsNear (s : State) (ms : Nat) : Nat := s.epOfTenth (10 * ms)

/-- A transition to RUN has been decided, or the converter is in RUN (R172). -/
def State.runDecided (s : State) : Bool := s.sys.conv = .run || s.sys.announce.isSome

/-- The groups shown blocked: all of them outside RUN; in RUN those that their own function blocks (R31). -/
def State.groupsBlocked (s : State) (c : Conv) : Nat := if c = .run then s.sys.runBlocked else 0x7F

/-- The scalar of a binary32 annex word. -/
def annexQ (w : Word) : Rat := ofF32 w

end Sys2Proof.Machine
end

