-- ==== Sys2Proof/Machine/Control.lean ====
section
/-! DEFINITION. The Control Engines (chapter 06): sources, slots, set-point motion, repetitive control, the composer, the
derived energies, plausibility checks, test generators and capture. -/

namespace Sys2Proof.Machine

/-- Slot k. -/
def State.slot (s : State) (k : Nat) : SlotSt := smGet {} s.ctl.slots k

/-- Changes slot k. -/
def State.updSlot (s : State) (k : Nat) (f : SlotSt → SlotSt) : State :=
  { s with ctl := { s.ctl with slots := smUpd {} s.ctl.slots k f } }

/-- Test generator g. -/
def State.gen (s : State) (g : Nat) : GenSt := smGet {} s.ctl.gens g

/-- Changes test generator g. -/
def State.updGen (s : State) (g : Nat) (f : GenSt → GenSt) : State :=
  { s with ctl := { s.ctl with gens := smUpd {} s.ctl.gens g f } }

/-- Plausibility check c. -/
def State.plaus (s : State) (c : Nat) : PlausSt := smGet {} s.ctl.checks c

/-- Changes plausibility check c. -/
def State.updPlaus (s : State) (c : Nat) (f : PlausSt → PlausSt) : State :=
  { s with ctl := { s.ctl with checks := smUpd {} s.ctl.checks c f } }

/-- Repetitive-control table t. -/
def State.rcTable (s : State) (t : Nat) : RcTable := smGet {} s.ctl.tables t

/-- Changes repetitive-control table t. -/
def State.updRc (s : State) (t : Nat) (f : RcTable → RcTable) : State :=
  { s with ctl := { s.ctl with tables := smUpd {} s.ctl.tables t f } }

/-- The active bank of slot k (R179). -/
def State.activeBank (s : State) (k : Nat) : Nat :=
  b2n (if k < 32 then s.rb R.CTL_ACTIVE_BANK_LO k else s.rb R.CTL_ACTIVE_BANK_HI (k - 32))

/-- A word of bank b of slot k. -/
def State.bankWord (s : State) (k b off : Nat) : Word := s.reg (slotKey k b off)

/-- The TYPE of a bank (R212): a code 3 is never stored. -/
def State.bankType (s : State) (k b : Nat) : Nat := fld (s.bankWord k b R.CTL_W_MODE) 1 0

/-- The RC_TABLE of a bank. -/
def State.bankTable (s : State) (k b : Nat) : Nat := fld (s.bankWord k b R.CTL_W_MODE) 22 20

/-- The activation checks of bank b of slot k (R181), the active banks of the other slots being as given. -/
def State.bankOkWith (s : State) (active : Nat → Nat) (k b : Nat) : Bool :=
  let q (off : Nat) : Rat := ofF32 (s.bankWord k b off)
  q R.CTL_W_UMIN ≤ q R.CTL_W_UMAX && 0 ≤ q R.CTL_W_QC && 0 ≤ q R.CTL_W_QS && q R.CTL_W_QC + 2 * q R.CTL_W_QS ≤ 1 &&
    (s.bankType k b ≠ 2 || (List.range 64).all (fun j => j = k || s.bankType j (active j) ≠ 2 || s.bankTable j (active j) ≠ s.bankTable k b))

/-- The activation checks of bank b of slot k against the banks in force (R181). -/
def State.bankOk (s : State) (k b : Nat) : Bool := s.bankOkWith s.activeBank k b

/-- Makes bank b of slot k active (R180–R182): a bank with BANK_RESET restarts the slot. -/
def State.setBank (s : State) (k b : Nat) : State :=
  if s.activeBank k = b then s
  else
    let s := if k < 32 then s.setRf R.CTL_ACTIVE_BANK_LO k k b else s.setRf R.CTL_ACTIVE_BANK_HI (k - 32) (k - 32) b
    let mode := s.bankWord k b R.CTL_W_MODE
    if flag mode 19 then s.updSlot k (fun a => { a with restart := true, zeroR := flag mode 14 }) else s

/-- Banks of several slots become active together (R181, R238): a bank that has become active and fails its checks against the banks
then in force sets CTL_CAUSE.BADCFG. -/
def State.setBanks (s : State) (l : List (Nat × Nat)) : State :=
  let s' := l.foldl (fun s x => s.setBank x.1 x.2) s
  let fails (x : Nat × Nat) : Bool := s.activeBank x.1 != s'.activeBank x.1 && !s'.bankOk x.1 (s'.activeBank x.1)
  if l.any fails then s'.latch R.CTL_CAUSE 6 else s'

/-- The angle in force, in 2^−32 turn (R220). -/
def State.phi (s : State) : Nat := if s.grd.gfm then s.grd.phiGf else s.grd.phiPll

/-- The step in force, in 2^−32 turn per epoch (R220). -/
def State.stepForce (s : State) : Nat := if s.grd.gfm then s.grd.stepGf else s.grd.stepPll

/-- The angle is valid (R219, R220). -/
def State.angleValid (s : State) : Bool := s.grd.gfm || s.grd.obs = .locked || s.grd.obs = .freewheel

/-- A source or injection of the generators acts: not in RUN without commissioning mode (R205). -/
def State.gensAct (s : State) : Bool := s.sys.conv ≠ .run || s.commission

/-- The value of a source code for slot k (R183, R185): a slot output of the present pass where the slot has been evaluated,
and of the previous pass elsewhere. -/
def State.src (s : State) (k code : Nat) : Rat :=
  if code = 0 then 0
  else if code ≤ 0x30 then s.qInput (code - 1)
  else if code < 0x40 then 0
  else if code < 0x80 then smGet 0 s.grd.out (code - 0x40)
  else if code < 0xC0 then (s.slot (code - 0x80)).u
  else if code ≤ 0xC5 then (s.grp (code - 0xC0)).w
  else if code ≤ 0xD0 then s.ctl.energies.getD (code - 0xC6) 0
  else if code ≤ 0xD6 then (s.grp (code - 0xD1)).vSum
  else if code ≤ 0xDC then s.ctl.currents.getD (code - 0xD7) 0
  else if 0xE0 ≤ code ∧ code ≤ 0xE3 then (if s.gensAct then (s.gen (code - 0xE0)).value else 0)
  else if code = 0xFF then s.rq (R.CTL_SP k)
  else 0

/-- The roles from whose measurement words Grid Engine output k of the pass is built (R184, R215): the sequence, power and DC
quantities; the observer's and the state machines' outputs are built from no one word. (DEDUCED, log 20.) -/
def gridRoles (k : Nat) : List Nat :=
  if (8 ≤ k ∧ k ≤ 15) ∨ k = 45 then [7, 8, 9]
  else if 16 ≤ k ∧ k ≤ 21 then [10, 11, 12]
  else if k = 22 ∨ k = 23 ∨ k = 34 ∨ k = 35 then [7, 8, 9, 10, 11, 12]
  else if k = 24 ∨ k = 25 then [13, 14]
  else if k = 26 then [15]
  else if k = 27 then [13, 14, 15]
  else if k = 44 then [16]
  else []

/-- A source code is doubtful in the pass (R184). (DEDUCED, log 20.) -/
def State.srcDoubt (s : State) (code : Nat) : Bool :=
  if 1 ≤ code ∧ code ≤ 0x30 then s.wordDoubt (code - 1) (s.reg (R.MFE_VAL (code - 1)))
  else if 0x40 ≤ code ∧ code ≤ 0x7F then (gridRoles (code - 0x40)).any s.roleDoubt
  else if 0xD7 ≤ code ∧ code ≤ 0xDC then
    let x := (code - 0xD7) % 3
    s.roleDoubt (1 + 2 * x) || s.roleDoubt (2 + 2 * x)
  else false

/-- A source code that the tables accept (R183); 0xFF is accepted for SP_SRC only. -/
def srcOk (code : Nat) (sp : Bool) : Bool :=
  code ≤ 0x30 || (0x40 ≤ code && code ≤ 0xDC) || (0xE0 ≤ code && code ≤ 0xE3) || (sp && code = 0xFF)

/-- The energies of R200 and the currents of R183, formed from the Arm Engine outputs that the pass reads. -/
def State.deriveEnergies (s : State) : State :=
  let w (j : Nat) : Rat := (s.grp j).w
  let third := konst (1 / 3)
  let rt3 := konst (57735026918962576451 / 100000000000000000000)
  let sum (x : Nat) : Rat := rnd [w (2 * x), w (2 * x + 1)]
  let dif (x : Nat) : Rat := rnd [w (2 * x), -w (2 * x + 1)]
  let al (f : Nat → Rat) : Rat := rnd [konst (2 / 3) * f 0, -(third * f 1), -(third * f 2)]
  let be (f : Nat → Rat) : Rat := rnd [rt3 * f 1, -(rt3 * f 2)]
  let i (x : Nat) (lower : Nat) : Rat := s.qRole (1 + 2 * x + lower)
  { s with ctl := { s.ctl with
      energies := [rnd ((List.range 6).map w), sum 0, sum 1, sum 2, dif 0, dif 1, dif 2, al sum, be sum, al dif, be dif]
      currents := (List.range 3).map (fun x => rnd [i x 0 / 2, i x 1 / 2]) ++ (List.range 3).map (fun x => rnd [i x 0, -i x 1]) } }

/-- The two taps of a PRBS generator of the given ORDER: its length and the other exponent (R204). -/
def prbsTaps (order : Nat) : Nat × Nat :=
  match order with
  | 0 => (7, 6) | 1 => (9, 5) | 2 => (11, 9) | 3 => (15, 14) | 4 => (23, 18) | _ => (31, 28)

/-- n shifts of a PRBS register, and the bit shifted out last (R204). -/
def prbsShift (taps : Nat × Nat) : Nat → Nat × Bool → Nat × Bool
  | 0, x => x
  | n + 1, x =>
    let out := bit x.1 (taps.1 - 1)
    let fb := xor out (bit x.1 (taps.2 - 1))
    prbsShift taps n ((x.1 * 2 + b2n fb) % 2 ^ taps.1, out)

/-- The value of generator g in the pass of E(m) (R204). (DEDUCED, log 20.) -/
def State.genTick (s : State) (g : Nat) : State :=
  let a := s.gen g
  if !a.running then s.updGen g (fun a => { a with value := 0 })
  else
    let age := (s.sys.epoch - a.start).toNat
    let ph := (a.phase + a.freq * age) % 2 ^ 32
    match fld a.cfg 1 0 with
    | 1 => s.updGen g (fun a => { a with value := rnd [a.amp * sinT ph] })
    | 2 => s.updGen g (fun a => { a with value := rnd ((a.tones.filter (fun t => t.h ≠ 0)).map (fun t => a.amp * t.amp * sinT (t.h * ph + t.psi * 2 ^ 10))) })
    | 3 =>
      let want := age / (fld a.cfg 31 16 + 1) + 1
      let x := prbsShift (prbsTaps (fld a.cfg 14 12)) (want - a.shifts) (a.lfsr, a.bit)
      s.updGen g (fun a => { a with lfsr := x.1, bit := x.2, shifts := want, value := if x.2 then a.amp else -a.amp })
    | _ => s.updGen g (fun a => { a with value := 0 })

/-- The test signal injected at a point of slot k: 0 set-point, 1 feedback, 2 output (R204). -/
def State.inject (s : State) (k point : Nat) : Rat :=
  let gs := (List.range 4).filter (fun g => (s.gen g).running && fld (s.gen g).cfg 3 2 = point && fld (s.gen g).cfg 9 4 = k)
  if s.gensAct then rnd (gs.map (fun g => (s.gen g).value)) else 0

/-- The sign of a scalar. -/
def rsgn (q : Rat) : Rat := if 0 < q then 1 else if q < 0 then -1 else 0

/-- The terms of the line of set-point motion of a running pass (R190, R191); a rate is none where its register holds 0, which R190
and R191 take as unlimited. (DEDUCED, log 20.) -/
def motion (slew : Bool) (rate up dn : Option Rat) (rPrev t : Rat) : List Rat :=
  if !slew then
    match rate with
    | none => [t]
    | some v => if v < t - rPrev then [rPrev, v] else if t - rPrev < -v then [rPrev, -v] else [rPrev, t, -rPrev]
  else if rPrev = 0 ∨ rsgn rPrev = rsgn t then
    if rPrev.abs ≤ t.abs then
      match up with
      | none => [t]
      | some v => if t.abs ≤ rPrev.abs + v then [t] else [rPrev, rsgn t * v]
    else
      match dn with
      | none => [t]
      | some v => if rPrev.abs - v ≤ t.abs then [t] else [rPrev, -(rsgn rPrev * v)]
  else
    match dn with
    | none => []
    | some v => if rPrev.abs ≤ v then [] else [rPrev, -(rsgn rPrev * v)]

/-- The arms that a sink reaches, as a mask (R186). -/
def sinkArms (sink : Nat) : Nat :=
  if sink = 0 then 0
  else if sink ≤ 3 ∨ sink = 10 then 0x3F
  else if sink ≤ 9 then 3 * 4 ^ ((sink - 4) % 3)
  else if sink ≤ 16 then 2 ^ (sink - 11)
  else 0

/-- Nearest integer, ties to even. -/
def nearestEven (q : Rat) : Int :=
  let f := q.floor
  let r := q - f
  if r < 1 / 2 then f else if 1 / 2 < r then f + 1 else if f % 2 = 0 then f else f + 1

/-- The value of bin k of a table (R178). -/
def RcTable.value (t : RcTable) (k : Nat) : Rat := ((smGet (0 : Int) t.m (k % 1024) : Int) : Rat) * pow2 (t.z - 23)

/-- Writes a result into bin b of a table, with the saturation and the first exponent of R196; answers whether it saturated. -/
def RcTable.store (t : RcTable) (b : Nat) (v : Rat) : RcTable × Bool :=
  let z := if t.m.isEmpty ∧ v ≠ 0 then leadExp v + 1 else t.z
  let m := nearestEven (v * pow2 (23 - z))
  let lim : Int := 2 ^ 23 - 1
  ({ z := z, m := smSet 0 t.m b (clampInt (-lim) lim m), bin := b }, lim < m || m < -lim)

/-- The renormalisation of a table as b passes from 1,023 to 0 (R196). -/
def RcTable.renorm (t : RcTable) : RcTable :=
  let p := t.m.foldl (fun a x => max a x.2.natAbs) 0
  if 2 ^ 22 ≤ p then { t with z := t.z + 1, m := (t.m.map (fun x => (x.1, nearestEven ((x.2 : Rat) / 2)))).filter (fun x => x.2 ≠ 0) }
  else if p < 2 ^ 20 ∧ -64 < t.z then { t with z := t.z - 1, m := t.m.map (fun x => (x.1, 2 * x.2)) }
  else t

/-- The update of bin b0 of table tab as slot k leaves it with the mean of its errors (R195, R196): no sample, no update.
(DEDUCED, log 20.) -/
def State.rcStore (s : State) (k tab b0 : Nat) : State :=
  let a := s.slot k
  let q (off : Nat) : Rat := ofF32 (s.bankWord k (s.activeBank k) off)
  let t := s.rcTable tab
  let mean := rnd [a.binSum / (a.binCount : Rat)]
  let line := [q R.CTL_W_QC * t.value b0, q R.CTL_W_QS * t.value (b0 + 1023), q R.CTL_W_QS * t.value (b0 + 1), q R.CTL_W_KRC * mean]
  let x := t.store b0 (rnd line)
  if a.binCount = 0 then s
  else
    let s := s.updRc tab (fun _ => x.1)
    let s := if ovf line then (s.updSlot k (fun a => { a with ovf := true })).latch R.CTL_CAUSE 2 else s
    if x.2 then ((s.updSlot k (fun a => { a with rcSat := true })).latch R.CTL_CAUSE 3).latch (R.CTL_RC_STAT tab) 30 else s

/-- The repetitive controller of slot k after its error e (R195): the bin being left is updated, and e joins the mean.
(DEDUCED, log 20.) -/
def State.rcUpdate (s : State) (k : Nat) (e : Rat) (sat : Bool) : State :=
  let bank := s.activeBank k
  let tab := s.bankTable k bank
  let a := s.slot k
  let held := s.itemHeld 0
  if !s.angleValid then s.updSlot k (fun a => { a with bin := none, binSum := 0, binCount := 0 })
  else if held then s
  else
    let b := s.phi * 1024 / 2 ^ 32
    let add (a : SlotSt) : SlotSt := if sat then a else { a with binSum := rnd [a.binSum, e], binCount := a.binCount + 1 }
    match a.bin with
    | none => s.updSlot k (fun a => add { a with bin := some b, binSum := 0, binCount := 0 })
    | some b0 =>
      if b = b0 then s.updSlot k add
      else
        let fresh (s : State) : State := s.updSlot k (fun a => add { a with bin := some b, binSum := 0, binCount := 0 })
        if b = (b0 + 1) % 1024 then
          let s := s.rcStore k tab b0
          let s := if b = 0 then s.updRc tab RcTable.renorm else s
          fresh s
        else fresh s

/-- The terms of the output of the repetitive controller (R194). -/
def State.rcLine (s : State) (k : Nat) : List Rat :=
  let bank := s.activeBank k
  let t := s.rcTable (s.bankTable k bank)
  let p := rnd [1024 * ((s.phi : Nat) : Rat) / (2 ^ 32 : Nat), ((fld (s.bankWord k bank R.CTL_W_MODE) 31 24 : Nat) : Rat)]
  let n := p.floor.toNat
  let f := p - (n : Rat)
  if s.angleValid then [(1 - f) * t.value n, f * t.value (n + 1)] else []

/-- Slot k in an idle pass (R173, R175, R190, R191). -/
def State.slotIdle (s : State) (k : Nat) (bad : Bool) : State :=
  let bank := s.activeBank k
  let mode := s.bankWord k bank R.CTL_W_MODE
  let q (off : Nat) : Rat := ofF32 (s.bankWord k bank off)
  let wire := s.bankWord k bank R.CTL_W_WIRE
  let code := fld wire 15 8
  let yLine := [q R.CTL_W_KFB * s.src k code]
  let y := rnd yLine
  let t := s.src k (fld wire 23 16)
  let s := s.updSlot k (fun a =>
    let r := if flag mode 14 then (if a.zeroR then 0 else a.r) else y
    { r := r, y := y, t := t, moved := r = t
      i := rclamp (q R.CTL_W_UMIN) (q R.CTL_W_UMAX) (q R.CTL_W_IINIT)
      doubt := s.srcDoubt code, badcfg := bad, bank := bank, ovf := ovf yLine })
  if ovf yLine then s.latch R.CTL_CAUSE 2 else s

/-- Slot k in a running pass (R187–R192). (DEDUCED, log 20.) -/
def State.slotRun (s : State) (k : Nat) : State :=
  let bank := s.activeBank k
  let mode := s.bankWord k bank R.CTL_W_MODE
  let wire := s.bankWord k bank R.CTL_W_WIRE
  let q (off : Nat) : Rat := ofF32 (s.bankWord k bank off)
  let T := s.tEp
  let a := s.slot k
  let start := !a.ran || a.restart
  let rc := fld mode 1 0 = 2
  let s := if start && rc && !flag mode 23 then s.updRc (fld mode 22 20) (fun t => { t with m := [] }) else s
  let code := fld wire 15 8
  let doubt := s.srcDoubt code
  let hold := doubt && flag mode 17
  let yLine := [q R.CTL_W_KFB * s.src k code]
  let y := if hold then a.y else rnd yLine
  let stop := s.ctl.stopping.isSome && flag mode 18
  let t := if stop then 0 else s.src k (fld wire 23 16)
  let slew := flag mode 14
  let perEp (off : Nat) : Option Rat := if q off = 0 then none else some (rnd [q off * T])
  let rPrev := if a.zeroR then 0 else a.r
  let rLine := if start then [if slew then rPrev else y]
    else motion slew (perEp R.CTL_W_RATE) (perEp R.CTL_W_SLEW_UP) (perEp R.CTL_W_SLEW_DN) rPrev t
  let r := rnd rLine
  let gsp := s.inject k 0
  let gfb := s.inject k 1
  let gout := s.inject k 2
  let r' := rnd [r, gsp]
  let y' := rnd [y, gfb]
  let e := rnd [r', -y']
  let P := rnd [q R.CTL_W_KP * e]
  let d := if flag mode 16 then -y' else e
  let den := q R.CTL_W_TF + T
  let aD := quo 1 (q R.CTL_W_TF) den
  let bD := quo 2 (q R.CTL_W_KD) den
  let dLine := [aD * a.d, bD * d, -(bD * a.dIn)]
  let D := if start then 0 else rnd dLine
  let uMin := q R.CTL_W_UMIN
  let uMax := q R.CTL_W_UMAX
  let i0 := if start then rclamp uMin uMax (q R.CTL_W_IINIT) else a.i
  let kiT := rnd [q R.CTL_W_KI * T]
  let ktT := rnd [q R.CTL_W_KT * T]
  let arms := sinkArms (fld wire 31 27)
  let frozen := hold || (List.range 6).any (fun j => bit arms j && bits s.ctl.clamp (2 * j + 1) (2 * j) ≠ 0)
  let back := if start then [] else [ktT * a.u, -(ktT * a.v)]
  let cond := flag mode 15
  let stuck := cond && !start && ((a.satHi && 0 < e) || (a.satLo && e < 0))
  let iLine := if cond then [i0, kiT * e] else [i0, kiT * e] ++ back
  let I := if frozen || stuck then i0 else rclamp uMin uMax (rnd iLine)
  let cLine := if rc then s.rcLine k else []
  let c := rnd cLine
  let ff := rnd [q R.CTL_W_KFF * s.src k (fld wire 7 0)]
  let vLine := [P, I, D, q R.CTL_W_KFF * s.src k (fld wire 7 0), c, gout]
  let v := rnd vLine
  let lines := [if hold then [] else yLine, rLine, [r, gsp], [y, gfb], [r', -y'], [q R.CTL_W_KP * e],
    if start then [] else dLine, if frozen || stuck then [] else iLine, cLine, vLine]
  let sat24 := lines.any ovf
  let hi := uMax < v
  let lo := v < uMin
  let s := s.updSlot k (fun a => { a with
    r := r, y := y, e := e, p := P, i := I, d := D, c := c, ff := ff, g := rnd [gsp, gfb, gout], v := v
    u := rmin uMax (rmax uMin v), t := t, dIn := d, ran := true, restart := false, zeroR := false
    satHi := hi, satLo := lo, frozen := frozen || stuck, doubt := doubt, stopping := stop, moved := r = t
    rcActive := rc && s.angleValid, rcSat := false, badcfg := false, ovf := sat24, bank := bank })
  let s := if sat24 then s.latch R.CTL_CAUSE 2 else s
  if rc then s.rcUpdate k e (hi || lo) else s

/-- Slot k in a pass (R172). -/
def State.slotPass (s : State) (k : Nat) : State :=
  let bank := s.activeBank k
  let ty := s.bankType k bank
  let ok := s.bankOk k bank
  if s.runDecided ∧ ty ≠ 0 ∧ ok then s.slotRun k else s.slotIdle k (!ok)

/-- The sum of the outputs of the running slots that name a sink (R186). -/
def State.sink (s : State) (code : Nat) : Rat :=
  rnd (((List.range 64).filter (fun k => (s.slot k).ran && fld (s.bankWord k (s.activeBank k) R.CTL_W_WIRE) 31 27 = code)).map
    (fun k => (s.slot k).u))

/-- A third of a turn in 2^−32 turn. -/
def thirdTurn : Nat := 1431655765

/-- The composer (R197, R198): e_x, the arm references before and after the clamp, and the clamp flags. (DEDUCED, log 20.) -/
def State.compose (s : State) : State :=
  let cfg := s.reg R.CTL_COMPOSE
  let omega := smGet 0 s.grd.out 2
  let adv := nearest (omega * (((fld cfg 15 0 : Nat) : Rat) / 16) * s.tEp * (2 ^ 32 : Nat))
  let th := (((s.phi : Nat) : Int) + adv) % (2 ^ 32 : Nat)
  let ang (x : Nat) : Nat := ((th + (if x = 0 then 0 else if x = 1 then -(thirdTurn : Int) else (thirdTurn : Int))) % (2 ^ 32 : Nat)).toNat
  let e (x : Nat) : Rat := rnd [s.sink 1 * cosT (ang x), -(s.sink 2 * sinT (ang x)), s.sink 3, s.sink (4 + x)]
  let raw (j : Nat) : Rat :=
    let x := j / 2
    rnd [s.sink 10, if j % 2 = 0 then -e x else e x, -s.sink (7 + x), s.sink (11 + j)]
  let h : Rat := ((fld cfg 31 24 : Nat) : Rat) / 256
  let hi (j : Nat) : Rat := rnd [h * (s.grp j).vSum]
  let lo (j : Nat) : Rat := -rnd [h * (s.grp j).vNeg]
  let blocked (j : Nat) : Bool := !s.runDecided && bit (s.groupsBlocked s.sys.conv) j
  let flags (j : Nat) : Nat := if blocked j then 0 else b2n (hi j < raw j) + 2 * b2n (raw j < lo j)
  let clamp := ((List.range 6).map (fun j => flags j * 4 ^ j)).sum
  let out (j : Nat) : Rat := if blocked j then 0 else rmax (lo j) (rmin (hi j) (raw j))
  let s := { s with ctl := { s.ctl with vref0 := (List.range 6).map raw, vref := (List.range 6).map out, ex := (List.range 3).map e, clamp := clamp } }
  (bitList 12 clamp).foldl (fun s b => s.latch R.CTL_COMPOSE_STAT (16 + b)) s

/-- The values of the roles used by checks 0 to 2 in a pass: the terms of r and S of each element, and whether a word is doubtful or a
role is not held (R202, R203). -/
def State.plausNow (s : State) (c : Nat) : List (List Rat) × List (List Rat) × Bool :=
  let iu (x : Nat) : Rat := s.qRole (1 + 2 * x)
  let il (x : Nat) : Rat := s.qRole (2 + 2 * x)
  let ix (x : Nat) : Rat := s.qRole (10 + x)
  let arms := (List.range 6).any (fun j => s.roleDoubt (1 + j))
  let phases := (List.range 3).any (fun x => s.roleDoubt (10 + x))
  match c with
  | 0 => ((List.range 3).map (fun x => [iu x, -il x, -ix x]), (List.range 3).map (fun x => [(iu x).abs, (il x).abs, (ix x).abs]), arms || phases)
  | 1 => ([[ix 0, ix 1, ix 2, -s.qRole 17]], [[(ix 0).abs, (ix 1).abs, (ix 2).abs, (s.qRole 17).abs]],
      phases || ((s.inputOf 17).isSome && s.roleDoubt 17))
  | _ => ([[iu 0, iu 1, iu 2, -s.qRole 15], [il 0, il 1, il 2, -s.qRole 15]],
      [[(iu 0).abs, (iu 1).abs, (iu 2).abs, (s.qRole 15).abs], [(il 0).abs, (il 1).abs, (il 2).abs, (s.qRole 15).abs]],
      arms || s.roleDoubt 15)

/-- The running sums of a window after one more pass: each sum and its new terms are one line (R174, R175, R202). -/
def addLines (sums : List Rat) (terms : List (List Rat)) : List Rat :=
  (List.range terms.length).map (fun i => rnd (sums.getD i 0 :: terms.getD i []))

/-- The window length of check c (R201). -/
def State.plausN (s : State) (c : Nat) : Nat := 2 ^ max 4 (s.rf (R.CTL_PL_CFG c) 3 0)

/-- Check c runs (R201). -/
def State.plausRuns (s : State) (c : Nat) : Bool := s.rb (R.CTL_PL_CFG c) 31 && s.sys.conv ≠ .off

/-- Checks 0 to 2 in the pass tagged n (R201): the pass joins its window; a window whose last pass this is has ended. A
window with a pass that is held or missing is skipped (R203, R208). (DEDUCED, log 20.) -/
def State.plausPass (s : State) (held : Bool) (n : Epoch) (c : Nat) : State :=
  if !s.plausRuns c then s.updPlaus c (fun p => { p with win := none }) else
    let N := s.plausN c
    let w := n.toNat / N
    let x := s.plausNow c
    let p := s.plaus c
    let p := if p.win = some w then p else
      { p with win := if n.toNat % N = 0 ∨ p.win.isSome then some w else none, count := 0, sums := [], scales := [], skip := false
               ended := if p.win.isSome then some (true, [], []) else p.ended }
    let p := if p.win.isNone then p else if held then { p with skip := true } else
      { p with count := p.count + 1, sums := addLines p.sums x.1, scales := addLines p.scales x.2.1, skip := p.skip || x.2.2 }
    let p := if p.win.isSome ∧ n.toNat % N = N - 1 then
        let mean (l : List Rat) : List Rat := l.map (fun v => rnd [v / (N : Rat)])
        { p with win := none, ended := some (p.skip || p.count ≠ N, mean p.sums, mean p.scales) }
      else p
    s.updPlaus c (fun _ => p)

/-- The value of a role in the annex of Shelf n, and whether it is doubtful or not held (R202, R203). -/
def State.annexRole (s : State) (n : Epoch) (role : Nat) : Rat × Bool :=
  match s.inputOf role with
  | some i => let w := s.annexRead n (0x40 / 4 + i); (s.physical i w, s.wordDoubt i w)
  | none => (0, true)

/-- Checks 3 and 4 in a pass, over the Shelf that the Arm Engine outputs describe (R201, R202). A window begins with the first pass that
finds a Shelf of it; that pass ends the window before it, and a gap before it lies in both (R203). (DEDUCED, log 20.) -/
def State.plausShelf (s : State) (c : Nat) : State :=
  match (s.grp 0).shelf with
  | none => s
  | some n =>
    let p := s.plaus c
    if !s.plausRuns c then s.updPlaus c (fun p => { p with win := none, lastShelf := some n })
    else if p.lastShelf = some n then s.updPlaus c (fun p => { p with skip := true })
    else
      let N := s.plausN c
      let i (j : Nat) : Rat := (s.annexRole n (1 + j)).1
      let vp := (s.annexRole n 13).1
      let vn := (s.annexRole n 14).1
      let stale := (List.range 6).any (fun j => s.rf (R.CTL_PL_CFG c) 19 12 < (s.grp j).nStale || (s.grp j).held)
      let doubt := (List.range 6).any (fun j => (s.annexRole n (1 + j)).2) || (c = 4 && ((s.annexRole n 13).2 || (s.annexRole n 14).2))
      let old := p.lastShelf
      let gap : Bool := match old with | some l => n != l + 1 | none => false
      let level : List Rat := if c = 3 then (List.range 6).map (fun j => (s.grp j).w)
        else (List.range 3).map (fun x => rnd [i (2 * x), i (2 * x + 1)])
      let part : List (List Rat) := if c = 3 then (List.range 6).map (fun j => [(s.grp j).vIns * i j])
        else (List.range 3).map (fun x => [vp, -vn, -(s.grp (2 * x)).vIns, -(s.grp (2 * x + 1)).vIns])
      let scale : List (List Rat) := if c = 3 then (List.range 6).map (fun j => [((s.grp j).vIns * i j).abs])
        else List.replicate 3 [(rnd [vp, -vn]).abs]
      let p := { p with lastShelf := some n, skip := p.skip || stale || doubt || gap }
      let T := s.tEp
      let L := s.rq R.CTL_PL_LARM
      let left : Bool := (match p.win with | some w => w != n.toNat / N | none => false) ||
        (match old with | some l => l.toNat / N != n.toNat / N | none => false)
      let p := if n.toNat % N = 0 ∨ left = true then
          let whole := p.win.isSome && n.toNat % N = 0 && p.count = N
          let r := (List.range level.length).map (fun k =>
            let l1 := level.getD k 0
            let l0 := p.begins.getD k 0
            if c = 3 then rnd [l1, -l0, -(T * p.sums.getD k 0)] else rnd [T * p.sums.getD k 0, -(L * l1), L * l0])
          let S := p.scales.map (fun v => rnd [T * v])
          { p with ended := if p.win.isSome then some (p.skip || !whole, r, S) else p.ended
                   win := if n.toNat % N = 0 ∨ left = true then some (n.toNat / N) else none
                   count := 0, sums := [], scales := [], begins := level, skip := stale || doubt || gap || n.toNat % N ≠ 0 }
        else p
      let p := if p.win.isSome then { p with count := p.count + 1, sums := addLines p.sums part, scales := addLines p.scales scale } else p
      s.updPlaus c (fun _ => p)

/-- The value of a capture channel (R206). -/
def State.capValue (s : State) (w : Word) : Word :=
  if fld w 9 8 = 1 then
    let a := s.slot (fld w 7 2)
    toF32 (match fld w 1 0 with | 0 => a.r | 1 => a.y | 2 => a.e | _ => a.v)
  else toF32 (s.src 0 (fld w 7 0))

/-- The binary32 word of a missing sample, a quiet NaN (R207). -/
def missingSample : Word := 0x7FC00000

/-- A pass of the capture unit: a sample falls due once every DECIM + 1 passes; it is a quiet NaN in a pass whose outputs are
held or in which capture is abandoned (R24, R206, R207). -/
def State.capTick (s : State) (held : Bool) : State :=
  let c := s.ctl.cap
  if c.state = .armed ∨ c.state = .triggered then
    let vals := c.srcs.map (fun w => if held || bit s.sys.missNow 14 then missingSample else s.capValue w)
    let c := if c.since = 0 ∧ (c.state = .armed ∨ (c.samples.headD []).length < 4096) then
        let add (i : Nat) : List Word :=
          let l := c.samples.getD i [] ++ [vals.getD i 0]
          if c.state = .armed then l.drop (l.length - 4096) else l
        { c with samples := (List.range 4).map add, took := some s.sys.epoch }
      else c
    { s with ctl := { s.ctl with cap := { c with since := (c.since + 1) % (fld c.cfg 31 16 + 1) } } }
  else s

/-- Capture is abandoned in the present epoch after its sample was taken: the sample is missing (R24, R207). (DESIGN CHOICE, log 45.) -/
def State.capAbandon (s : State) : State :=
  let c := s.ctl.cap
  if (c.state = .armed ∨ c.state = .triggered) ∧ c.took = some s.sys.epoch then
    { s with ctl := { s.ctl with cap := { c with samples := c.samples.map (fun l => l.dropLast ++ [missingSample]) } } }
  else s

/-- The status word of slot k (R210). -/
def State.slotStatus (s : State) (k : Nat) : Word :=
  let a := s.slot k
  BitVec.ofNat 32 (b2n a.ran * 2 ^ 31 + b2n a.satHi * 2 ^ 30 + b2n a.satLo * 2 ^ 29 + b2n a.frozen * 2 ^ 28 + b2n a.doubt * 2 ^ 27 +
    b2n a.stopping * 2 ^ 26 + b2n a.moved * 2 ^ 25 + a.bank % 2 * 2 ^ 24 + b2n a.rcActive * 2 ^ 23 + b2n a.rcSat * 2 ^ 22 +
    b2n a.badcfg * 2 ^ 21 + b2n a.ovf * 2 ^ 20)

/-- The annex words of slot k (R210). -/
def State.slotWords (s : State) (k : Nat) : List Word :=
  let a := s.slot k
  [a.r, a.y, a.e, a.p, a.i, a.d, a.c, a.ff, a.g, a.v, a.u, a.t].map toF32 ++ [s.slotStatus k, 0, 0, 0]

/-- The loop region of the annex of Shelf n (R210). -/
def State.loopAnnex (s : State) (n : Epoch) : State :=
  let s := (List.range 64).foldl (fun s k => s.annexPut n (0x800 + 64 * k) (s.slotWords k)) s
  let s := s.annexPut n 0x1800 (s.ctl.vref0.map toF32 ++ s.ctl.vref.map toF32 ++ s.ctl.ex.map toF32 ++ [BitVec.ofNat 32 s.ctl.clamp])
  let s := s.annexPut n 0x1840 (s.ctl.energies.map toF32 ++ s.ctl.currents.map toF32)
  let s := (List.range 5).foldl (fun s c =>
    let p := s.plaus c
    s.annexPut n (0x1900 + 32 * c) (BitVec.ofNat 32 (b2n p.fail * 2 ^ 31 + p.last.code * 2 ^ 29 + min 255 p.run) ::
      (List.range 6).map (fun i => toF32 (p.res.getD i 0)))) s
  (List.range 4).foldl (fun s g => s.annexPut n (0x19A0 + 8 * g) [toF32 (s.gen g).value, BitVec.ofNat 32 (b2n (s.gen g).running * 2 ^ 31)]) s

/-- The pass of the Control Engines (R170, R187): every slot in index order, the composer, the checks, capture and the loop
region of the annex. -/
def State.controlPass (s : State) : State :=
  let n := s.sys.epoch - 1
  let s := s.deriveEnergies
  let s := (List.range 4).foldl State.genTick s
  let s := (List.range 64).foldl State.slotPass s
  let s := s.compose
  let s := (List.range 3).foldl (fun s c => s.plausPass false n c) s
  let s := (s.plausShelf 3).plausShelf 4
  let s := s.capTick false
  let ran := ((List.range 64).filter (fun k => (s.slot k).ran)).length
  let zero := (List.range 64).all (fun k => !(s.slot k).stopping || (s.slot k).r = 0)
  let s := { s with ctl := { s.ctl with running := ran, tag := some n, rampZero := s.ctl.stopping.isSome && zero } }
  s.loopAnnex n

/-- A pass of the Control Engines that is held: the windows of the checks in progress are skipped and capture takes its missing sample
(R203, R207, R208). A pass that has completed is not held. -/
def State.controlMiss (s : State) : State :=
  let n := s.sys.epoch - 1
  let s' := s.missItem 1
  if s.ctl.tag = some n then s' else
    let t := (List.range 3).foldl (fun s c => s.plausPass true n c) s'
    (([3, 4].foldl (fun s c => if s.plausRuns c then s.updPlaus c (fun p => { p with skip := true }) else s) t).capTick true)

/-- CONTROL_PASS: item 1 of R20 in the present epoch; a halted pass is held (R170, R207, R208, R485). -/
def execControlPass (s : State) : Out :=
  .next (if s.sys.counting && s.itemHalted 1 && !bit s.sys.missNow 1 then s.controlMiss else s.runItem 1 State.controlPass)

/-- Every slot of the stop ramp has reached 0: the transition to READY is due at the next boundary (R192). -/
def execStopRampComplete (s : State) : Out :=
  .next (if s.ctl.stopping.isSome ∧ s.ctl.rampZero then { s with ctl := { s.ctl with rampDone := true } } else s)

/-- The stop ramp is not complete TIMEOUT after it started: the transition is due at the next boundary (R192). -/
def execStopRampTimeout (s : State) : Out :=
  match s.ctl.stopping with
  | some a =>
    .next (if s.epOfMs (max 1 (s.rf R.CTL_STOP 31 16)) ≤ (s.sys.epoch - a).toNat ∧ s.ctl.rampDone = false then
      ({ s with ctl := { s.ctl with rampDone := true } } : State).latch R.CTL_CAUSE 0 else s)
  | none => .next s

/-- A trigger of the armed capture occurs, where it is the one that TRIG names (R206, R212). -/
def State.capHit (s : State) (trig : Nat) : State :=
  if s.ctl.cap.state = .armed ∧ fld s.ctl.cap.cfg 2 0 = trig then { s with ctl := { s.ctl with cap := { s.ctl.cap with hit := true } } }
  else s

/-- The bound of element k of a window (R201). -/
def State.plausTol (s : State) (c : Nat) (scale : Rat) : Rat := rnd [s.rq (R.CTL_PL_TOL_ABS c), s.rq (R.CTL_PL_TOL_REL c) * scale]

/-- The outcome of an ended window of check c, with entry into and exit from failure after LIMIT windows (R201, R212). -/
def State.plausEnd (s : State) (c : Nat) (skip : Bool) (r S : List Rat) : State :=
  let tol (k : Nat) : Rat := s.plausTol c (S.getD k 0)
  let above (k w : Nat) : Bool := (r.getD w 0).abs * tol k < (r.getD k 0).abs * tol w
  let worst := (List.range r.length).foldl (fun w k => if above k w then k else w) 0
  if skip then s.updPlaus c (fun p => { p with ended := none, last := .skip, res := r, worst := worst, worstRes := r.getD worst 0 })
  else
    let bad := (List.range r.length).any (fun k => tol k < (r.getD k 0).abs)
    let p := s.plaus c
    let run := if p.run ≠ 0 ∧ p.runPass = !bad then p.run + 1 else 1
    let limit := max 1 (s.rf (R.CTL_PL_CFG c) 11 8)
    let enter := bad && !p.fail && limit ≤ run
    let leave := !bad && p.fail && limit ≤ run
    let s := s.updPlaus c (fun p => { p with
      ended := none, last := if bad then .fail else .pass, run := run, runPass := !bad, res := r, worst := worst
      worstRes := r.getD worst 0, fail := (p.fail || enter) && !leave })
    let s := if bad then s.count (R.CTL_PL_STAT c) 15 0 else s
    if enter then
      ((s.latch (R.CTL_PL_STAT c) 30).latch R.CTL_CAUSE 1).capHit 6
    else s

/-- PLAUS_WINDOW_END of check c (R201). -/
def execPlausWindowEnd (c : Nat) (s : State) : Out :=
  match (s.plaus c).ended with
  | some (skip, r, S) => .next (s.plausEnd c skip r S)
  | none => .next s

/-- RC_CLEAR of a table (R193). -/
def State.rcClear (s : State) (t : Nat) : State := s.updRc t (fun a => { a with m := [] })

/-- ACTION 2 clears the counts and FAIL_SEEN of all checks (R212). -/
def State.clearChecks (s : State) : State :=
  (List.range 5).foldl (fun s c => (s.setRf (R.CTL_PL_STAT c) 15 0 0).setRf (R.CTL_PL_STAT c) 30 30 0) s

/-- The action that a write of CTL_ACTION names; another ACTION is logged (R212). -/
def State.ctlAction (s : State) (r : Requester) (w : Word) : State :=
  s.asOwner r R.CTL_ACTION (fun s => match fld w 3 0 with
    | 1 => s.rcClear (fld w 10 8)
    | 2 => s.clearChecks
    | _ => s.logErr r 5 R.CTL_ACTION)

/-- The generator that a register or tone word configures, by its key (R212). -/
def genOf (key : Nat) : Option Nat :=
  let off := keyOff key
  if off = R.CTL_TONE_CFG ∨ off = R.CTL_TONE_AMP then some ((key / 0x10000 - 0x300) / 16)
  else if R.CTL_GEN_CFG 0 ≤ off ∧ off < R.CTL_TONE_SEL then some ((off - R.CTL_GEN_CFG 0) / 32)
  else none

/-- A write of a configuration waits for the next START: its generator runs, or ran when the write was first due (R212). (DEDUCED, log 20.) -/
def State.genHeld (s : State) (key : Nat) : Bool :=
  match genOf key with
  | some g => (s.gen g).running || (s.gen g).held.contains key
  | none => false

/-- START of generator g at a boundary would be refused: in RUN without commissioning mode, unless POINT is none (R205). -/
def State.genRefused (s : State) (g : Nat) : Bool := !s.gensAct && s.rf (R.CTL_GEN_CFG g) 3 2 ≠ 3

/-- START of generator g at a boundary (R205), with the configuration then in force (R212). -/
def State.genStart (s : State) (g : Nat) : State :=
  let cfg := s.reg (R.CTL_GEN_CFG g)
  if s.genRefused g then (s.updGen g (fun a => { a with running := false, cause := 2 })).latch R.CTL_CAUSE 5
  else
    let tones := (List.range 16).map (fun k =>
      let c := s.reg (toneKey (g * 16 + k) R.CTL_TONE_CFG)
      (⟨fld c 31 22, fld c 21 0, s.rq (toneKey (g * 16 + k) R.CTL_TONE_AMP)⟩ : Tone))
    let s := s.updGen g (fun a => { a with
      running := true, start := s.sys.epoch, cfg := cfg, amp := s.rq (R.CTL_GEN_AMP g)
      freq := (s.reg (R.CTL_GEN_FREQ g)).toNat, phase := (s.reg (R.CTL_GEN_PHASE g)).toNat, tones := tones
      lfsr := 2 ^ (prbsTaps (fld cfg 14 12)).1 - 1, shifts := 0, bit := true, held := [] })
    s.capHit (g + 1)

/-- STOP of generator g at a boundary (R205). -/
def State.genStop (s : State) (g : Nat) : State := s.updGen g (fun a => if a.running then { a with running := false, cause := 1 } else a)

/-- ARM of the capture: it asks the Power Manager for admission, or is refused, which CTL_CAP_STAT shows until the state of the capture in
progress changes (R206, R207, R212, R410). (DEDUCED, log 20; DESIGN CHOICE, log 45.) -/
def State.capArm (s : State) : State :=
  let c := s.ctl.cap
  if c.state = .idle ∨ c.state = .done ∨ c.state = .aborted then
    let s := { s with ctl := { s.ctl with cap := { state := .wait, cfg := s.reg R.CTL_CAP_CFG
                                                   srcs := (List.range 4).map (fun ch => s.reg (R.CTL_CAP_SRC ch)), samples := [[], [], [], []] } } }
    if s.pwr.waiting.contains .capture then s else { s with pwr := { s.pwr with waiting := s.pwr.waiting ++ [.capture] } }
  else { s with ctl := { s.ctl with cap := { c with refused := true } } }

/-- The work item leaves the admitted and waiting items (R410). -/
def State.endItem (s : State) (i : OptItem) : State :=
  { s with pwr := { s.pwr with admitted := s.pwr.admitted.erase i, waiting := s.pwr.waiting.erase i } }

/-- A capture in progress ends and keeps its samples (R207, R398, R410). -/
def State.capEnd (s : State) : State :=
  let c := s.ctl.cap
  if c.state = .wait ∨ c.state = .armed ∨ c.state = .triggered then
    ({ s with ctl := { s.ctl with cap := { c with state := .aborted, refused := false } } } : State).endItem .capture
  else s

/-- The trigger occurs: the last PRE samples before it are kept, and the capture fills to 4,096 (R206). -/
def execCapTrigger (s : State) : Out :=
  let c := s.ctl.cap
  let trig := fld c.cfg 2 0
  if c.state = .armed ∧ (c.hit ∨ trig = 0 ∨ trig = 7) then
    let pre := fld c.cfg 15 4
    let keep (l : List Word) : List Word := l.drop (l.length - pre)
    .next { s with ctl := { s.ctl with cap := { c with state := .triggered, refused := false, samples := c.samples.map keep, trig := min pre (c.samples.headD []).length } } }
  else .next s

/-- The buffer is full: DONE and CAP_DONE are set (R206). -/
def execCapDone (s : State) : Out :=
  let c := s.ctl.cap
  if c.state = .triggered ∧ 4096 ≤ (c.samples.headD []).length then
    .next ((({ s with ctl := { s.ctl with cap := { c with state := .done, refused := false } } } : State).endItem .capture).latch R.CTL_CAUSE 4)
  else .next s

/-- The sample that a requester's CTL_CAP_ADDR names; 0 beyond FILL (R212). -/
def State.capData (s : State) (r : Requester) : Word :=
  let a := s.reg (ownKey r R.CTL_CAP_ADDR)
  ((s.ctl.cap.samples.getD (fld a 13 12) []).getD (fld a 11 0) 0)

/-- The Control Engines at a boundary: a generator stops in RUN without commissioning mode (R205). -/
def State.ctlBoundary (s : State) : State :=
  (List.range 4).foldl (fun s g =>
    let a := s.gen g
    if a.running && !s.gensAct && fld a.cfg 3 2 ≠ 3 then
      (s.updGen g (fun a => { a with running := false, cause := 3 })).latch R.CTL_CAUSE 5
    else s) s

/-- Entry into OFF clears every repetitive-control table, and the compatibility limiter begins from 0; the r shown stays that of the last
pass (R191, R193, R212). -/
def State.ctlOff (s : State) : State :=
  let s := (List.range 8).foldl State.rcClear s
  (s.ctl.slots.map Prod.fst).foldl (fun s k => s.updSlot k (fun a => { a with zeroR := true })) s

/-- The field rules of the CTL block (R176, R180, R183, R186, R212); the key tells the bank of a window write. -/
def ctlRule (s : State) (key off : Nat) (w : Word) : Option Word :=
  let inRun := s.sys.conv = .run || s.sys.conv = .hold
  if R.CTL_W_WIRE ≤ off ∧ off ≤ R.CTL_W_QS then
    let k := key / 0x10000 % 64
    let b := (key / 0x10000 - 0x100) / 64
    if inRun && s.activeBank k = b then none
    else if off = R.CTL_W_WIRE then
      (if fld w 31 27 ≤ 16 && srcOk (fld w 23 16) true && srcOk (fld w 15 8) false && srcOk (fld w 7 0) false then some w else none)
    else if off = R.CTL_W_MODE then (if fld w 1 0 = 3 then none else some w)
    else if off ∈ [R.CTL_W_TF, R.CTL_W_KT, R.CTL_W_RATE, R.CTL_W_SLEW_UP, R.CTL_W_SLEW_DN, R.CTL_W_QC, R.CTL_W_QS] then hostF32NonNeg w
    else hostF32 w
  else if off = R.CTL_ACTIVE_BANK_LO ∨ off = R.CTL_ACTIVE_BANK_HI then (if inRun then none else some w)
  else if off = R.CTL_STOP then some (setFld w 31 16 (max 1 (fld w 31 16)))
  else if off = R.CTL_COMPOSE then some (setFld w 31 24 (max 1 (fld w 31 24)))
  else if R.CTL_SP 0 ≤ off ∧ off ≤ R.CTL_IN_SCALE 47 then hostF32 w
  else if R.CTL_GEN_CFG 0 ≤ off ∧ off < R.CTL_TONE_SEL then
    (if (off - R.CTL_GEN_CFG 0) % 32 = 0 then some (setFld w 14 12 (min 5 (fld w 14 12)))
     else if (off - R.CTL_GEN_CFG 0) % 32 = 4 then hostF32 w else some w)
  else if off = R.CTL_TONE_AMP then hostF32 w
  else if R.CTL_PL_CFG 0 ≤ off ∧ off < R.CTL_PL_LARM then
    (if (off - R.CTL_PL_CFG 0) % 32 = 0 then some (setFld (setFld w 11 8 (max 1 (fld w 11 8))) 3 0 (max 4 (fld w 3 0)))
     else if (off - R.CTL_PL_CFG 0) % 32 ≤ 8 then hostF32NonNeg w else some w)
  else if off = R.CTL_PL_LARM then hostF32NonNeg w
  else if off = R.CTL_CAP_CFG then some (if fld w 2 0 = 7 then setFld w 2 0 0 else w)
  else if R.CTL_CAP_SRC 0 ≤ off ∧ off ≤ R.CTL_CAP_SRC 3 then
    (let v := if 2 ≤ fld w 9 8 then setFld w 9 8 0 else w
     if fld v 9 8 = 0 && !srcOk (fld v 7 0) false then none else some v)
  else some w

end Sys2Proof.Machine
end

