-- ==== Sys2Proof/Machine/Grid.lean ====
section
/-! DEFINITION. The Grid Engine and the chopper function (chapter 07): sequences, the angle observer, current references,
ride-through, stored curves, islanding, grid-forming and the chopper. -/

namespace Sys2Proof.Machine

/-- Parameter k of R248. -/
def State.gpar (s : State) (k : Nat) : Rat := s.rq (R.GRD_PAR k)

/-- The active curve bank (R226). -/
def State.crvBank (s : State) : Nat := s.rf R.GRD_CRV_BANK 0 0

/-- The configuration word of curve c of bank b. -/
def State.crvCfg (s : State) (c b : Nat) : Word := s.reg (curveKey c b R.GRD_CRV_CFG)

/-- The breakpoints in use of curve c of bank b. -/
def State.crvPts (s : State) (c b : Nat) : List (Rat × Rat) :=
  (List.range (min 32 (fld (s.crvCfg c b) 13 8))).map (fun i =>
    (s.rq (curveKey c b (R.GRD_CRV_X i)), s.rq (curveKey c b (R.GRD_CRV_Y i))))

/-- The breakpoints rise in x. -/
def rising : List (Rat × Rat) → Bool
  | a :: b :: t => a.1 < b.1 && rising (b :: t)
  | _ => true

/-- The activation checks of a curve bank (R229). -/
def State.crvBankOk (s : State) (b : Nat) : Bool :=
  let target (c : Nat) : Nat := fld (s.crvCfg c b) 26 24
  let one (c : Nat) : Bool :=
    let w := s.crvCfg c b
    let n := fld w 13 8
    let on_ := s.rq (curveKey c b R.GRD_CRV_XON)
    let off := s.rq (curveKey c b R.GRD_CRV_XOFF)
    target c = 0 || (2 ≤ n && n ≤ 32 && rising (s.crvPts c b) && ((fld w 23 20 = 5) = (target c = 5 ∨ target c = 6)) &&
      (fld w 17 16 ≠ 1 || (if flag w 15 then off < on_ else on_ < off)))
  (List.range 8).all one && [2, 3, 4].all (fun t => ((List.range 8).filter (fun c => target c = t)).length ≤ 1)

/-- A curve's value beyond its first breakpoint (R227). -/
def interpGo : List (Rat × Rat) → Rat → Rat
  | a :: b :: t, x => if x < b.1 then rnd [a.2 + (x - a.1) * (b.2 - a.2) / (b.1 - a.1)] else interpGo (b :: t) x
  | [a], _ => a.2
  | [], _ => 0

/-- A curve's value (R227). -/
def interp (pts : List (Rat × Rat)) (x : Rat) : Rat :=
  match pts with
  | [] => 0
  | a :: t => if x < a.1 then a.2 else interpGo (a :: t) x

/-- The values of the positive and negative sequence (R216). -/
structure Seq where
  pA : Rat
  pB : Rat
  nA : Rat
  nB : Rat
deriving DecidableEq, Repr

/-- One step of a dual second-order generalised integrator (R216). -/
def sogiStep (w k va vb vc : Rat) (q : Sogi) : Sogi × Seq :=
  let third := konst (1 / 3)
  let rt3 := konst (57735026918962576451 / 100000000000000000000)
  let al := rnd [2 * third * va, -(third * vb), -(third * vc)]
  let be := rnd [rt3 * vb, -(rt3 * vc)]
  let sA := rnd [q.sA, w * k * al, -(w * k * q.sA), -(w * q.cA)]
  let cA := rnd [q.cA, w * sA]
  let sB := rnd [q.sB, w * k * be, -(w * k * q.sB), -(w * q.cB)]
  let cB := rnd [q.cB, w * sB]
  (⟨sA, cA, sB, cB⟩, ⟨rnd [sA / 2, -cB / 2], rnd [cA / 2, sB / 2], rnd [sA / 2, cB / 2], rnd [sB / 2, -cA / 2]⟩)

/-- The dq quantities of a sequence pair at angle φ: d and q of the positive, d and q of the negative sequence (R217). -/
def dq (x : Seq) (phi : Nat) : Rat × Rat × Rat × Rat :=
  let c := cosT phi
  let n := sinT phi
  (rnd [x.pA * c, x.pB * n], rnd [-(x.pA * n), x.pB * c], rnd [x.nA * c, -(x.nB * n)], rnd [x.nA * n, x.nB * c])

/-- The magnitude of a vector. -/
def mag (a b : Rat) : Rat := rsqrt (a * a + b * b)

/-- An angle advanced by a number of steps. -/
def advAngle (phi step gap : Nat) : Nat := (phi + step * gap) % 2 ^ 32

/-- The step per epoch of a frequency (R218, R235). -/
def State.stepOf (s : State) (f : Rat) : Nat := (nearest (f * s.tEp * (2 ^ 32 : Nat)) % (2 ^ 32 : Nat)).toNat

/-- The current limit left beside a current: the square root of I_MAX² less its square, 0 when none is left (R223). -/
def State.iLeft (s : State) (i : Rat) : Rat := rsqrt (s.gpar 3 * s.gpar 3 - i * i)

/-- P_BASE (R214). -/
def State.pBase (s : State) : Rat := rnd [s.gpar 0 * s.gpar 1 * 3 / 2]

/-- V_SET of R235. -/
def State.vSet (s : State) : Rat := if s.gpar 32 = 0 then s.gpar 0 else s.gpar 32

/-- The entries into FAULT within the repeat window (R225). -/
def State.repeats (s : State) : Nat :=
  let win := s.epOfMsNear (1000 * max 1 (s.rf R.GRD_TIME2 7 0))
  (s.grd.entries.filter (fun e => (s.sys.epoch - e).toNat < win)).length

/-- The curves in envelope violation, as a mask (R228). -/
def State.crvViol (s : State) : Nat := ofBits ((List.range 8).map (fun c => (smGet {} s.grd.curves c).viol))

/-- The active curves, as a mask (R227). -/
def State.crvActive (s : State) : Nat := ofBits ((List.range 8).map (fun c => (smGet {} s.grd.curves c).active))

/-- The Grid Engine's status word (R247). -/
def State.grdStatus (s : State) : Word :=
  let g := s.grd
  BitVec.ofNat 32 (b2n g.gfm * 2 ^ 31 + b2n s.angleValid * 2 ^ 30 + g.obs.code * 2 ^ 28 + g.frt.code * 2 ^ 26 + b2n g.islanded * 2 ^ 25 +
    b2n g.resync * 2 ^ 24 + b2n g.chOn * 2 ^ 23 + b2n g.chThermal * 2 ^ 22 + b2n g.chUnavail * 2 ^ 21 + b2n g.pulse.on_ * 2 ^ 20 +
    g.badcfg * 2 ^ 16 + b2n g.badCrv * 2 ^ 12 + g.islBy * 2 ^ 8 + min 255 s.repeats)

/-- The fault sources of R244 that are raised, as a mask over the GRD_CAUSE bits; bit 11 stands for GRD_CONFIG. -/
def State.grdSources (s : State) : Nat :=
  let g := s.grd
  let run := s.sys.conv = .run
  ofBits [g.obs = .los && s.sys.conv ≠ .off, run && !g.gfm && !s.angleValid, g.islanded, false, g.frtTimeout,
    s.rf R.GRD_TIME2 15 8 < s.repeats, s.crvViol ≠ 0, false, g.chThermal, g.chOver, g.chOn && g.chUnavail,
    g.badcfg ≠ 0 && (run || s.sys.conv = .hold)]

/-- Sets the cause bit of every source that is newly raised (R244). -/
def State.grdRaise (s : State) : State :=
  let now := s.grdSources
  let s' := (bitList 12 now).foldl (fun s b => if bit s.grd.raised b then s else s.latch R.GRD_CAUSE b) s
  { s' with grd := { s'.grd with raised := now } }

/-- The observer in a pass (R218, R219): the angle, the states that have no row of their own, the integrator, the frequency
and the runs. (DEDUCED, log 22.) -/
def State.gridObs (s : State) (n : Epoch) (gap : Nat) (v : Seq) : GrdSt :=
  let g := s.grd
  let T := s.tEp
  let fMin := s.gpar 7
  let fMax := s.gpar 8
  let fNom := s.gpar 2
  let m := mag v.pA v.pB
  let u := quo 10 m (s.gpar 0)
  let bad := bit g.badcfg 0
  let obs := if bad then Obs.unlocked
    else match g.obs with
      | .locked => if u < s.gpar 10 then .freewheel else .locked
      | .freewheel => if s.gpar 9 ≤ u then .locked else .freewheel
      | .los => if g.gfm then .unlocked else .los
      | .unlocked => .unlocked
  let phi := advAngle g.phiPll g.stepPll gap
  let eps := quo 11 (dq v phi).2.1 (rmax m (rnd [s.gpar 9 * s.gpar 0]))
  let free := obs = .freewheel
  let fI := if bad then 0 else if free then g.fI
    else rclamp (rnd [fMin, -fNom]) (rnd [fMax, -fNom]) (rnd [g.fI, s.gpar 6 * T * eps])
  let freq := if free then g.freqPll else rclamp fMin fMax (rnd [fNom, fI, s.gpar 5 * eps])
  let step := if free then g.stepPll else s.stepOf freq
  let valid := s.gpar 9 ≤ u
  let okLock := valid && eps.abs ≤ s.gpar 11 && (obs = .unlocked || obs = .los) && !bad
  let okLos := valid && (s.gpar 12 < eps.abs || freq = fMin || freq = fMax) && obs = .locked && !g.gfm
  { g with
    obs := obs, phiPll := phi, eps := eps, fI := fI, freqPll := freq, stepPll := step
    lockRun := if okLock then g.lockRun + 1 else 0, losRun := if okLos then g.losRun + 1 else 0
    fwAt := if free && g.obs ≠ .freewheel then n else g.fwAt
    lockedAt := if obs = .locked && g.obs ≠ .locked then n else g.lockedAt }

/-- Grid-forming in a pass (R235–R237): the filters, the resynchronisation, the forming frequency, angle and voltage. The
transfer pass sets them so that angle, frequency and voltage continue. -/
def State.gridForm (s : State) (g : GrdSt) (n : Epoch) (gap : Nat) (xfer : Bool) (P Q vMag iMag : Rat) : GrdSt × Rat :=
  let T := s.tEp
  let fNom := s.gpar 2
  let tau := s.gpar 31
  let k := if tau = 0 then 1 else rmin 1 (rnd [T / tau])
  let d := if tau = 0 then 0 else rmax 0 (rnd [1 - T / tau])
  let pF := if xfer then P else rnd [g.pF, k * P, -(k * g.pF)]
  let qF := if xfer then Q else rnd [g.qF, k * Q, -(k * g.qF)]
  let g := { g with pF := pF, qF := qF }
  if !g.gfm && !xfer then ({ g with fRs := 0, resync := false }, 0)
  else
    let fDroop := rnd [fNom, s.gpar 29 * s.gpar 13, -(s.gpar 29 * P)]
    let vDroop := rnd [s.vSet, s.gpar 30 * s.gpar 14, -(s.gpar 30 * Q)]
    let phi := if xfer then g.phiPll else advAngle g.phiGf g.stepGf gap
    let fOfs := if xfer then rnd [g.freqPll, -fDroop] else rnd [d * g.fOfs]
    let vOfs := if xfer then rnd [vMag, -vDroop] else rnd [d * g.vOfs]
    let ramp := rnd [s.gpar 34 * s.gpar 0 * T]
    let vT := if xfer then s.vSet else rnd [g.vT, rclamp (-ramp) ramp (rnd [s.vSet, -g.vT])]
    let del : Rat := (signed 32 (unsigned 32 ((g.phiPll : Int) - (phi : Int))) : Rat) / (2 ^ 32 : Nat)
    let asked := g.act = some .toGfl && !xfer
    let frac := rmin 1 (quo 12 del.abs (s.gpar 35))
    let fRs := if asked && del ≠ 0 then rnd [s.gpar 37 * rsgn del * frac] else 0
    let f := rclamp (s.gpar 7) (s.gpar 8) (rnd [fNom, fOfs, s.gpar 29 * s.gpar 13, -(s.gpar 29 * pF), fRs])
    let lock := g.obs = .locked && s.epOfMsNear (s.rf R.GRD_TIME5 31 16) ≤ (n + 1 - g.lockedAt).toNat
    let resync := lock && del.abs ≤ s.gpar 35 && (g.freqPll - f).abs ≤ s.gpar 36
    let vgf := rmax 0 (rnd [vT, vOfs, s.gpar 30 * s.gpar 14, -(s.gpar 30 * qF), -(s.gpar 33 * rmax 0 (rnd [iMag, -s.gpar 3]))])
    ({ g with gfm := true, phiGf := phi, stepGf := s.stepOf f, fGf := f, fRs := fRs, vT := vT, fOfs := fOfs, vOfs := vOfs, resync := resync }, vgf)

/-- The completion of a transfer (R238): the slots named in GRD_FORM_SLOTS change bank, the cause is set and a Bin record
is written. -/
def State.transferred (s : State) (gfm : Bool) : State :=
  let named (k : Nat) : Bool := if k < 32 then s.rb R.GRD_FORM_SLOTS_LO k else s.rb R.GRD_FORM_SLOTS_HI (k - 32)
  let s := s.setBanks (((List.range 64).filter named).map (fun k => (k, b2n gfm)))
  (s.latch R.GRD_CAUSE 7).binLog 0x92 [b2n gfm]

/-- The result of a grid action (R247): an action that has finished, was refused or was cancelled sets the cause. -/
def State.grdResult (s : State) (r : Nat) : State :=
  let s := s.setRf R.GRD_ACTION_STAT 2 0 r
  if r = 1 then s else s.latch R.GRD_CAUSE 12

/-- The input of curve c in a pass (R227, R228): its x, given u, the lower estimate in pu, v_dc and the envelope time. -/
def State.crvX (s : State) (xsrc : Nat) (u low vdc env : Rat) : Rat :=
  match xsrc with
  | 0 => u
  | 1 => low
  | 2 => s.grd.freqPll
  | 3 => if s.gpar 15 = 0 then 0 else rnd [vdc / s.gpar 15]
  | 4 => s.grd.rocof
  | _ => env

/-- The curves in a pass (R227, R228): each curve's activity, runs and output. -/
def State.gridCurves (s : State) (u low vdc env : Rat) : State × List Rat :=
  let b := s.crvBank
  let frt : Frt := s.grd.frt
  (List.range 8).foldl (fun (x : State × List Rat) c =>
    let s := x.1
    let w := s.crvCfg c b
    let target := fld w 26 24
    let xv := s.crvX (fld w 23 20) u low vdc env
    let put (k : CurveSt) (y : Rat) : State × List Rat := ({ s with grd := { s.grd with curves := smSet {} s.grd.curves c k } }, x.2 ++ [y])
    let k := smGet {} s.grd.curves c
    if target = 0 ∨ s.grd.badCrv = true then put {} 0
    else
      let y := interp (s.crvPts c b) xv
      if target ≤ 4 then
        let up := flag w 15
        let on_ := s.rq (curveKey c b R.GRD_CRV_XON)
        let off := s.rq (curveKey c b R.GRD_CRV_XOFF)
        let beyond := if k.active then (if up then xv < off else off < xv) else (if up then on_ < xv else xv < on_)
        let active : Bool := match fld w 17 16 with
          | 0 => true
          | 1 => k.active
          | 2 => frt != Frt.normal
          | _ => frt == Frt.fault
        put { active := active, run := if fld w 17 16 = 1 && beyond then k.run + 1 else 0 } (if active then y else 0)
      else if frt = .normal then put {} 0
      else
        let q := match fld w 19 18 with
          | 0 => u
          | 1 => low
          | _ => if s.gpar 15 = 0 then 0 else rnd [vdc / s.gpar 15]
        let out := if target = 5 then q < y else y < q
        put { viol := k.viol, violRun := if out then k.violRun + 1 else 0 } y) (s, [])

/-- The sum of the active curve of a target, 0 without one (R227). -/
def State.crvOf (s : State) (ys : List Rat) (target : Nat) : Rat :=
  let b := s.crvBank
  match (List.range 8).find? (fun c => fld (s.crvCfg c b) 26 24 = target && (smGet {} s.grd.curves c).active) with
  | some c => ys.getD c 0
  | none => 0

/-- The references of R222 and R223: ID_REQ, ID_LIM, ID_REF and IQ_REF before the pulse. -/
def State.gridRefs (s : State) (vd vdc dP dQ dIq : Rat) : Rat × Rat × Rat × Rat :=
  let g := s.grd
  let base := rmax vd (rnd [s.gpar 9 * s.gpar 0])
  let tt := konst (2 / 3)
  let cfg := s.reg R.GRD_CFG
  let power := s.gpar 13 + dP * s.pBase
  let idReq := match fld cfg 27 26 with
    | 2 => (s.slot (fld cfg 21 16)).u
    | 1 => if base ≤ 0 then 0 else rnd [tt * (power + s.gpar 16 * (vdc - s.gpar 15)) / base]
    | _ => if base ≤ 0 then 0 else rnd [tt * power / base]
  let iqReq := if base ≤ 0 then 0 else rnd [-(tt * (s.gpar 14 + dQ * s.pBase) / base)]
  let iMax := s.gpar 3
  match g.frt with
  | .normal =>
    let id := rclamp (-iMax) iMax idReq
    let lim := s.iLeft id
    (idReq, iMax, id, rclamp (-lim) lim iqReq)
  | f =>
    let iq := rclamp (-iMax) iMax (rnd [g.iqPre, -(dIq * s.gpar 1)])
    let left := s.iLeft iq
    let lim := if f = .fault then left else rmin (rnd [g.idLim, s.gpar 21 * s.gpar 1 * s.tEp]) left
    (idReq, lim, rclamp (-lim) lim idReq, iq)

/-- Islanding detection runs (R230). -/
def State.islRuns (s : State) : Bool := s.sys.conv = .run && !s.grd.gfm && s.grd.frt = .normal && !bit s.grd.badcfg 2

/-- The pulse width of R232 in epochs. -/
def State.pulseW (s : State) : Nat := s.epOfTenth (s.rf R.GRD_TIME4 23 16)

/-- The pulse period of R232 in epochs. -/
def State.pulsePer (s : State) : Nat := s.epOfMsNear (s.rf R.GRD_TIME4 31 24)

/-- The active method runs (R232). -/
def State.pulseRuns (s : State) : Bool := s.islRuns && s.rb R.GRD_CFG 0 && s.gpar 28 ≠ 0

/-- The size of the pulse current (R232). -/
def State.pulseI (s : State) : Rat := rnd [s.gpar 27 * s.gpar 1]

/-- The pulse applied in the present pass, 0 without one (R232). -/
def State.pulseNow (s : State) : Rat :=
  let p := s.grd.pulse
  if s.pulseRuns && p.on_ && (s.sys.epoch - p.at_).toNat < s.pulseW then (if p.count % 2 = 1 then s.pulseI else -s.pulseI) else 0

/-- The islanding detectors in a pass (R230–R232). Of the time in which detection has run no more than 2^46 ep is kept, which covers every
window. (DEDUCED, log 22.) -/
def State.gridIsl (s : State) (u vMag : Rat) (doubt clamped : Bool) : State :=
  let g := s.grd
  let E := s.sys.epoch
  if !s.islRuns then { s with grd := { g with islF := 0, islV := 0, rocofRun := 0, islFrom := none, pulse := { z := g.pulse.z } } }
  else
    let f := g.freqPll
    let out (lo hi v : Rat) : Bool := v < lo || hi < v
    let islF := if s.rb R.GRD_CFG 3 && out (s.gpar 22) (s.gpar 23) f then g.islF + 1 else 0
    let islV := if s.rb R.GRD_CFG 1 && out (s.gpar 25) (s.gpar 26) u then g.islV + 1 else 0
    let p := g.pulse
    let p := if !s.pulseRuns then { z := p.z }
      else
        let W := s.pulseW
        let q := W / 4
        let from_ := p.base.getD E
        let next := s.pulsePer
        let t := (E - from_).toNat
        let inB := t < next && next ≤ t + q
        let a := (E - p.at_).toNat
        let inA := p.on_ && a < W && W ≤ a + q
        { p with
          base := some from_
          bSum := if inB then p.bSum + vMag else p.bSum, bCount := if inB then p.bCount + 1 else p.bCount
          aSum := if inA then p.aSum + vMag else p.aSum, aCount := if inA then p.aCount + 1 else p.aCount
          discard := p.discard || ((inA || inB) && doubt) || (p.on_ && clamped) }
    let since := g.islFrom.getD E
    { s with grd := { g with
      islF := islF, islV := islV, pulse := p
      islFrom := some (if 2 ^ 46 ≤ (E - since).toNat then E - 2 ^ 46 else since) } }

/-- FRT_STATE returns to NORMAL: the counters are 0, the envelope violations clear, and FAULT no longer times out (R224, R225, R228,
R244). -/
def GrdSt.frtClear (g : GrdSt) : GrdSt :=
  { g with
    frt := .normal, frtInRun := 0, frtOutRun := 0, frtTimeout := false
    curves := (g.curves.map (fun x => (x.1, { x.2 with viol := false, violRun := 0 }))).filter (fun x => x.2 ≠ {}) }

/-- Ride-through after a pass (R224): the runs, and the return to NORMAL. (DEDUCED, log 22.) -/
def State.gridFrt (s : State) (u low : Rat) : State :=
  let g := s.grd
  let inCond := low < s.gpar 17 || s.gpar 18 < u
  let outCond := s.gpar 19 ≤ low && u ≤ s.gpar 20
  match g.frt with
  | .fault => { s with grd := { g with frtInRun := 0, frtOutRun := if outCond then g.frtOutRun + 1 else 0 } }
  | .normal => { s with grd := { g with frtInRun := if inCond then g.frtInRun + 1 else 0, frtOutRun := 0 } }
  | .post =>
    let g := { g with frtInRun := if inCond then g.frtInRun + 1 else 0, frtOutRun := 0 }
    if rmin g.idReq.abs (s.iLeft (smGet 0 g.out 29)) ≤ g.idLim && s.gpar 19 ≤ low then
      { s with grd := { g.frtClear with frtInRun := g.frtInRun } }
    else { s with grd := g }

/-- Ride-through is evaluated (R224, R239). -/
def State.frtRuns (s : State) : Bool := (s.sys.conv = .run || s.sys.conv = .hold) && !bit s.grd.badcfg 1

/-- The time in ms since the last entry into FAULT in the pass tagged n; 0 in NORMAL (R228). (DEDUCED, log 22.) -/
def State.envMs (s : State) (n : Epoch) : Rat :=
  if s.grd.frt = .normal then 0 else (((n - s.grd.frtAt).toNat * s.epNs : Nat) : Rat) / 1000000

/-- The windows of the ROCOF are 2^ROCOF_LOG2 epochs long (R221). -/
def State.rocofN (s : State) : Nat := 2 ^ clampNat 10 20 (s.rf R.GRD_TIME4 7 0)

/-- The pass of the Grid Engine (R213–R236, R243). An angle output is the nearest value below one turn (R215). (DEDUCED, log 22.) -/
def State.gridPass (s : State) : State :=
  let n := s.sys.epoch - 1
  let gap := match s.grd.tag with
    | some t => (n - t).toNat
    | none => 1
  let q (r : Nat) : Rat := s.qRole r
  let w := rnd [konst twoPi * smGet 0 s.grd.out 2 * s.tEp]
  let V := sogiStep w (s.gpar 4) (q 7) (q 8) (q 9) s.grd.vSogi
  let I := sogiStep w (s.gpar 4) (q 10) (q 11) (q 12) s.grd.iSogi
  let vMag := mag V.2.pA V.2.pB
  let vNeg := mag V.2.nA V.2.nB
  let iMag := mag I.2.pA I.2.pB
  let rt3 := konst (57735026918962576451 / 100000000000000000000)
  let third := konst (1 / 3)
  let P := rnd [q 7 * q 10, q 8 * q 11, q 9 * q 12]
  let Q := rnd [rt3 * q 8 * q 10, -(rt3 * q 9 * q 10), rt3 * q 9 * q 11, -(rt3 * q 7 * q 11), rt3 * q 7 * q 12, -(rt3 * q 8 * q 12)]
  let vdc := rnd [q 13, -q 14]
  -- ride-through is NORMAL where it is not evaluated
  let s := if s.frtRuns then s else { s with grd := s.grd.frtClear }
  let g := s.gridObs n gap V.2
  let s := { s with grd := { g with vSogi := V.1, iSogi := I.1, tag := some n } }
  let xfer := !g.gfm && s.sys.conv = .run && g.frt = .normal && (g.act = some .toGfm || g.autoForm)
  let F := s.gridForm s.grd n gap xfer P Q vMag iMag
  let s := { s with grd := F.1 }
  let s := if xfer then
      let done := g.act = some .toGfm
      let s := { s with grd := { s.grd with autoForm := false, act := if done then none else s.grd.act } }
      let s := s.transferred true
      if done then s.grdResult 2 else s
    else s
  let freq := if s.grd.gfm then s.grd.fGf else s.grd.freqPll
  let vdq := dq V.2 s.phi
  let idq := dq I.2 s.phi
  let vmin := rmax 0 (rnd [vMag, -vNeg])
  let u := quo 13 vMag (s.gpar 0)
  let vminPu := quo 14 vmin (s.gpar 0)
  let low := rmin u vminPu
  let env := s.envMs n
  let C := s.gridCurves u vminPu vdc env
  let s := C.1
  let X := s.gridRefs vdq.1 vdc (s.crvOf C.2 3) (s.crvOf C.2 4) (s.crvOf C.2 2)
  let id := X.2.2.1
  let pulse := s.pulseNow
  let lim := s.iLeft id
  let raw := rnd [X.2.2.2, pulse]
  let clamped := pulse ≠ 0 && lim < raw.abs
  let iq := if pulse = 0 then X.2.2.2 else rclamp (-lim) lim raw
  let g := s.grd
  let turn (a : Nat) : Rat := rmin (1 - pow2 (-24)) (konst (((a : Nat) : Rat) / (2 ^ 32 : Nat)))
  let outs : List Rat := [turn s.phi, rnd [konst twoPi * freq], freq, turn g.phiPll, g.freqPll, g.rocof,
    if s.angleValid then 1 else 0, if g.gfm then 1 else 0, vdq.1, vdq.2.1, vMag, vdq.2.2.1, vdq.2.2.2, vNeg,
    rnd [third * q 7, third * q 8, third * q 9], vmin, idq.1, idq.2.1, idq.2.2.1, idq.2.2.2,
    rnd [third * q 10, third * q 11, third * q 12], iMag, P, Q, vdc, rnd [q 13 / 2, q 14 / 2], q 15, rnd [vdc * q 15],
    id, iq, X.2.1, (g.frt.code : Rat), if g.islanded then 1 else 0, F.2, g.pF, g.qF] ++ C.2 ++ [q 16, u]
  let s := { s with grd := { g with
    out := smSetList 0 [] 0 outs, idReq := X.1
    idLim := if g.frt = Frt.fault then id.abs else X.2.1
    iqPre := if g.frt = Frt.normal then iq else g.iqPre } }
  let doubt := s.roleDoubt 7 || s.roleDoubt 8 || s.roleDoubt 9
  -- the sum of the ROCOF window
  let N := s.rocofN
  let win := n.toNat / N
  let g := s.grd
  let fresh := g.winNo ≠ some win
  let g := { g with
    winNo := some win, winSum := (if fresh then 0 else g.winSum) + g.freqPll, winCount := (if fresh then 0 else g.winCount) + 1
    winClean := (fresh || g.winClean) && !doubt }
  let s := { s with grd := g }
  let s := s.gridIsl u vMag doubt clamped
  let s := if s.frtRuns then s.gridFrt u low else s
  let s := s.grdRaise
  let g := s.grd
  let s := s.annexPut n 0x200 ((List.range 64).map (fun k => toF32 (smGet 0 g.out k)))
  s.annexPut n 0x300 [BitVec.ofNat 32 s.phi, BitVec.ofNat 32 s.stepForce, BitVec.ofNat 32 g.phiPll, BitVec.ofNat 32 g.stepPll, s.grdStatus,
    BitVec.ofNat 32 env.floor.toNat, BitVec.ofNat 32 (s.crvViol * 256 + s.crvActive), toF32 g.pulse.z, toF32 g.eps]

/-- GRID_ENGINE_PASS: item 0 of R20 in the present epoch (R213). -/
def execGridEnginePass (s : State) : Out := .next (s.runItem 0 State.gridPass)

/-- OBSERVER_LOCK: from UNLOCKED or LOS after LOCK_EP passes with small error (R219). -/
def execObserverLock (s : State) : Out :=
  let g := s.grd
  if (g.obs = .unlocked ∨ g.obs = .los) ∧ !bit g.badcfg 0 ∧ max 1 (s.rf R.GRD_TIME0 31 16) ≤ g.lockRun then
    .next ({ s with grd := { g with obs := .locked, lockRun := 0, losRun := 0, lockedAt := s.sys.epoch } } : State).grdRaise
  else .next s

/-- OBSERVER_LOS: from LOCKED in grid-following after LOS_EP passes of large error or clamped frequency (R219). -/
def execObserverLos (s : State) : Out :=
  let g := s.grd
  if g.obs = .locked ∧ !g.gfm ∧ max 1 (s.rf R.GRD_TIME0 15 0) ≤ g.losRun then
    .next ({ s with grd := { g with obs := .los, lockRun := 0, losRun := 0 } } : State).grdRaise
  else .next s

/-- FREEWHEEL_TIMEOUT: FREEWHEEL has lasted FREEWHEEL_MS (R219). (DEDUCED, log 22.) -/
def execFreewheelTimeout (s : State) : Out :=
  let g := s.grd
  match g.obs, g.tag with
  | .freewheel, some n =>
    .next (if s.epOfMsNear (s.rf R.GRD_TIME5 15 0) ≤ (n + 1 - g.fwAt).toNat then
      ({ s with grd := { g with obs := .unlocked, lockRun := 0 } } : State).grdRaise else s)
  | _, _ => .next s

/-- ROCOF_WINDOW_END: after the last pass of a window the output takes the difference of the means of two successive windows, and the
ROCOF method counts a window that lies wholly in the time in which detection runs (R17, R221, R231). (DEDUCED, log 22.) -/
def execRocofWindowEnd (s : State) : Out :=
  let g := s.grd
  let N := s.rocofN
  match g.winNo with
  | none => .next s
  | some w =>
    let last : Epoch := BitVec.ofNat 48 ((w + 1) * N - 1)
    if s.sys.epoch.toNat / N = w ∨ (s.sys.epoch = last + 1 ∧ g.tag ≠ some last ∧ s.itemHeld 0 = false) then .next s
    else
      let mean := rnd [g.winSum / (g.winCount : Rat)]
      let rocof := match g.lastMean with
        | some (w0, m0) => if (w0 + 1) % (2 ^ 48 / N) = w then rnd [(mean - m0) / ((N : Rat) * s.tEp)] else g.rocof
        | none => g.rocof
      let inside := match g.islFrom with
        | some e => epGe (BitVec.ofNat 48 (w * N + 1)) e
        | none => false
      let run := if !inside then g.rocofRun
        else if s.rb R.GRD_CFG 2 && g.winClean && s.gpar 24 ≤ rocof.abs then g.rocofRun + 1 else 0
      .next { s with grd := { g with rocof := rocof, lastMean := some (w, mean), winNo := none, winSum := 0, winCount := 0, winClean := true, rocofRun := run } }

/-- FRT_ENTRY: into FAULT after FRT_ENTRY_EP passes (R224); the envelope time restarts. -/
def execFrtEntry (s : State) : Out :=
  let g := s.grd
  if s.frtRuns ∧ g.frt ≠ .fault ∧ max 1 (s.rf R.GRD_TIME1 31 16) ≤ g.frtInRun then
    let at_ := (g.tag.getD 0) + 1
    .next (({ s with grd := { g with frt := .fault, frtInRun := 0, frtOutRun := 0, frtAt := at_, entries := s.sys.epoch :: g.entries.take 255 } } : State).latch
      R.GRD_CAUSE 3).grdRaise
  else .next s

/-- FRT_EXIT: from FAULT into POST after FRT_EXIT_EP passes (R224). -/
def execFrtExit (s : State) : Out :=
  let g := s.grd
  if s.frtRuns ∧ g.frt = .fault ∧ max 1 (s.rf R.GRD_TIME1 15 0) ≤ g.frtOutRun then
    .next ({ s with grd := { g with frt := .post, frtOutRun := 0, frtInRun := 0, frtTimeout := false } } : State).grdRaise
  else .next s

/-- FRT_TIMEOUT: FAULT has lasted FRT_MAX_MS (R225). -/
def execFrtTimeout (s : State) : Out :=
  let g := s.grd
  if g.frt = .fault ∧ s.epOfMsNear (s.rf R.GRD_TIME2 31 16) ≤ (g.tag.getD 0 + 1 - g.frtAt).toNat then
    .next ({ s with grd := { g with frtTimeout := true } } : State).grdRaise
  else .next s

/-- HOLD of a curve (R247). -/
def State.crvHold (s : State) (c : Nat) : Nat := max 1 (fld (s.crvCfg c s.crvBank) 7 0)

/-- CURVE_ACTIVATION of curve c: an ACT = 1 curve changes after HOLD passes beyond its level (R227). -/
def execCurveActivation (c : Nat) (s : State) : Out :=
  let k := smGet {} s.grd.curves c
  let w := s.crvCfg c s.crvBank
  if c < 8 ∧ 1 ≤ fld w 26 24 ∧ fld w 26 24 ≤ 4 ∧ fld w 17 16 = 1 ∧ s.crvHold c ≤ k.run then
    .next { s with grd := { s.grd with curves := smSet {} s.grd.curves c { k with active := !k.active, run := 0 } } }
  else .next s

/-- ENVELOPE_VIOLATION of curve c: a violation has lasted HOLD passes (R228). -/
def execEnvelopeViolation (c : Nat) (s : State) : Out :=
  let k := smGet {} s.grd.curves c
  if c < 8 ∧ s.grd.frt ≠ .normal ∧ 5 ≤ fld (s.crvCfg c s.crvBank) 26 24 ∧ s.crvHold c ≤ k.violRun then
    .next ({ s with grd := { s.grd with curves := smSet {} s.grd.curves c { k with viol := true } } } : State).grdRaise
  else .next s

/-- The methods that confirm, as the bits of ISL_BY (R230–R232). -/
def State.islConfirmed (s : State) : Nat :=
  let g := s.grd
  ofBits [s.rb R.GRD_CFG 3 && max 1 (s.epOfMsNear (s.rf R.GRD_TIME3 31 16)) ≤ g.islF, s.rb R.GRD_CFG 2 && max 1 (s.rf R.GRD_TIME4 11 8) ≤ g.rocofRun,
    s.rb R.GRD_CFG 1 && max 1 (s.epOfMsNear (s.rf R.GRD_TIME3 15 0)) ≤ g.islV, s.pulseRuns && max 1 (s.rf R.GRD_TIME4 15 12) ≤ g.pulse.above]

/-- ISLAND_CONFIRM: an enabled method confirms (R233). -/
def execIslandConfirm (s : State) : Out :=
  let by_ := s.islConfirmed
  if s.islRuns ∧ by_ ≠ 0 then
    .next ({ s with grd := { s.grd with islanded := true, islBy := s.grd.islBy ||| by_, autoForm := s.grd.autoForm || s.rb R.GRD_CFG 31 } } : State).grdRaise
  else .next s

/-- ISLAND_PULSE: a pulse that has ended gives Z, and a pulse starts one ISL_PERIOD after the one before it was due (R232).
(DEDUCED, log 22.) -/
def execIslandPulse (s : State) : Out :=
  let E := s.sys.epoch
  let p := s.grd.pulse
  let p := if p.on_ && s.pulseW ≤ (E - p.at_).toNat then
      let q := s.pulseW / 4
      let lost := p.discard || p.bCount ≠ q || p.aCount ≠ q || q = 0
      let z := quo 15 (rnd [p.aSum / (p.aCount : Rat), -(p.bSum / (p.bCount : Rat))]).abs s.pulseI
      let p := { p with on_ := false, bSum := 0, bCount := 0, aSum := 0, aCount := 0, discard := false }
      if lost then p else { p with z := z, above := if s.gpar 28 < z then p.above + 1 else 0 }
    else p
  let p := match p.base with
    | some b =>
      let t := (E - b).toNat
      if s.pulseRuns && !p.on_ && s.pulsePer ≤ t then
        { p with
          on_ := true, at_ := E, count := p.count + 1, base := some (E - BitVec.ofNat 48 (t % max 1 s.pulsePer))
          discard := p.discard || t ≠ s.pulsePer } else p
    | none => p
  .next { s with grd := { s.grd with pulse := p } }

/-- TO_GFM: refused in grid-forming or outside RUN; made in the next pass in which ride-through is NORMAL (R236, R237).
(DEDUCED, log 22.) -/
def State.toGfm (s : State) : State :=
  if s.grd.act.isSome ∨ s.grd.gfm = true ∨ s.sys.conv ≠ .run then s.grdResult 3
  else ({ s with grd := { s.grd with act := some .toGfm } } : State).grdResult 1

/-- TO_GFL: refused in grid-following; starts the resynchronisation (R237). (DEDUCED, log 22.) -/
def State.toGfl (s : State) : State :=
  if s.grd.act.isSome ∨ s.grd.gfm = false then s.grdResult 3
  else ({ s with grd := { s.grd with act := some .toGfl } } : State).grdResult 1

/-- CANCEL: ends a pending action and sets f_RS to 0; refused with none pending (R237, R247). -/
def State.grdCancel (s : State) : State :=
  if s.grd.act.isNone then s.grdResult 3
  else ({ s with grd := { s.grd with act := none, fRs := 0 } } : State).grdResult 4

/-- CLEAR_ISLAND: clears ISLANDED in grid-following (R233). (DEDUCED, log 22.) -/
def State.clearIsland (s : State) : State :=
  if s.grd.act.isSome ∨ s.grd.gfm = true then s.grdResult 3
  else (({ s with grd := { s.grd with islanded := false, islBy := 0 } } : State).grdResult 2).grdRaise

/-- CLEAR_FRT: clears the entry history (R225). -/
def State.clearFrt (s : State) : State :=
  if s.grd.act.isSome then s.grdResult 3
  else (({ s with grd := { s.grd with entries := [] } } : State).grdResult 2).grdRaise

/-- The action that a write of GRD_ACTION starts (R247). -/
def State.grdAction (s : State) (r : Requester) (w : Word) : State :=
  s.asOwner r R.GRD_ACTION (fun s => match fld w 3 0 with
    | 1 => s.toGfm
    | 2 => s.toGfl
    | 3 => s.grdCancel
    | 4 => s.clearIsland
    | 5 => s.clearFrt
    | _ => s.grdResult 3)

/-- GFL_TRANSFER: after a boundary at which RESYNC_READY = 1 and ride-through is NORMAL, the angle in force becomes φ_PLL
(R237, R238). -/
def execGflTransfer (s : State) : Out :=
  let g := s.grd
  if g.act = some .toGfl ∧ g.gfm ∧ g.resync ∧ g.frt = .normal then
    let s := { s with grd := { g with gfm := false, act := none, fRs := 0, resync := false, islanded := false, islBy := 0 } }
    .next ((s.transferred false).grdResult 2).grdRaise
  else .next s

/-- The mode at the transition from READY to RUN (R236). -/
def State.grdRun (s : State) : State :=
  let g := s.grd
  if s.rb R.GRD_CFG 30 then
    let lock := g.obs = .locked
    { s with grd := { g with
      gfm := true, phiGf := if lock then g.phiPll else 0, vT := if lock then smGet 0 g.out 10 else 0, stepGf := s.stepForce, fOfs := 0, vOfs := 0 } }
  else { s with grd := { g with gfm := false } }

/-- The mode at an entry into OFF, READY or LOCKOUT: grid-following; entry into OFF clears the entry history (R225, R236). -/
def State.grdLeave (s : State) (off : Bool) : State :=
  { s with grd := { s.grd with gfm := false, autoForm := false, fRs := 0, resync := false, entries := if off then [] else s.grd.entries } }

/-- The parameter sets that fail, as the bits of BADCFG (R239). -/
def State.badSets (s : State) : Nat :=
  let p := s.gpar
  let width := s.rf R.GRD_TIME4 23 16
  ofBits [!(0 < p 0 && 0 < p 1 && p 7 < p 2 && p 2 < p 8 && p 10 < p 9 && p 9 ≤ 1 && p 11 < p 12),
    !(p 17 < p 19 && p 19 ≤ 1 && 1 ≤ p 20 && p 20 < p 18),
    !(p 22 < p 2 && p 2 < p 23 && p 25 < p 26 && 10 ≤ width && width ≤ 5 * s.rf R.GRD_TIME4 31 24),
    s.rb R.GRD_CFG 29 && !(p 39 < p 38 && 0 < p 43 && 0 < p 45 && 0 < p 44)]

/-- The Grid Engine at a boundary: the parameter sets and the active curve bank are checked (R229, R239). -/
def State.grdBoundary (s : State) : State :=
  let bad := s.badSets
  let new := bad &&& (15 - (s.grd.badcfg &&& 15))
  let s := { s with grd := { s.grd with badcfg := bad, badCrv := !s.crvBankOk s.crvBank } }
  let s := if bit bad 0 then { s with grd := { s.grd with obs := .unlocked, fI := 0, lockRun := 0, losRun := 0 } } else s
  let s := if s.frtRuns then s else { s with grd := s.grd.frtClear }
  let s := if new ≠ 0 then s.latch R.GRD_CAUSE 11 else s
  s.grdRaise

/-- Group 6 is blocked: outside RUN, or with CH_EN = 0 (R240). -/
def State.chBlocked (s : State) : Bool := s.sys.conv ≠ .run || !s.rb R.GRD_CFG 29 || bit s.sys.runBlocked 6

/-- k steps of the resistor model (R242). (DESIGN CHOICE, log 21; DEDUCED, log 22.) -/
def State.thetaStep (s : State) (p : Rat) : Nat → Rat → Rat
  | 0, th => th
  | k + 1, th =>
    let a := if s.gpar 45 = 0 then Config.divZero 16 (s.tEp * p) else s.tEp * p / s.gpar 45
    let b := if s.gpar 44 = 0 then Config.divZero 17 (s.tEp * th) else s.tEp * th / s.gpar 44
    s.thetaStep p k (rnd [th, a, -b])

/-- The pass of the chopper function (R240–R243, R246). (DEDUCED, log 22.) -/
def State.chopperPass (s : State) : State :=
  let n := s.sys.epoch - 1
  let g := s.grd
  let gap := match g.chTag with
    | some t => (n - t).toNat
    | none => 1
  let out (k : Nat) : Rat := smGet 0 g.out k
  let members := (s.groupHomes 6).filter s.healthy
  let vSum := rnd (members.map (fun h => match s.entry h with
    | some e => volts e.vcap
    | none => 0))
  let mean := quo 18 vSum (members.length : Rat)
  let vdc := out 24
  let unavail := bit g.badcfg 3 || members.length = 0
  let frt := s.rb R.GRD_CFG 28 && out 31 ≠ 0
  let on_ := s.gpar 38 ≤ vdc || frt || (g.chOn && !(vdc < s.gpar 39))
  let pFf := if frt then rmax 0 (rnd [out 27, -out 22]) else 0
  let avail := if g.chThermal then s.gpar 47 else s.gpar 42
  let act := on_ && !unavail && !s.chBlocked
  let pCh := if act then rclamp 0 avail (rnd [s.gpar 41 * vdc, -(s.gpar 41 * s.gpar 40), pFf]) else 0
  let v6 := if act then rmin vSum (quo 19 (pCh * s.gpar 43) mean) else 0
  let th := s.thetaStep pCh 1 (s.thetaStep g.pCh (gap - 1) g.theta)
  let thermal := if g.chThermal then !(th < s.gpar 46 * 9 / 10) else s.gpar 46 ≤ th
  let s := { s with grd := { g with
    chOn := on_, chUnavail := unavail, chThermal := thermal, theta := th, pCh := pCh, v6 := v6, vMean6 := mean, healthy6 := members.length
    pFf := pFf, pAvail := if thermal then s.gpar 47 else s.gpar 42, chTag := some n, chOver := s.gpar 48 ≠ 0 && s.gpar 48 ≤ vdc } }
  let s := s.grdRaise
  let g := s.grd
  s.annexPut n 0x3000 ([g.pCh, g.v6, g.vMean6, g.theta, g.pFf, g.pAvail].map toF32 ++
    [BitVec.ofNat 32 (b2n g.chUnavail * 2 ^ 18 + b2n g.chThermal * 2 ^ 17 + b2n g.chOn * 2 ^ 16 + min 2047 g.healthy6)])

/-- CHOPPER_PASS: item 13 of R20 in the present epoch (R240). -/
def execChopperPass (s : State) : Out := .next (s.runItem 13 State.chopperPass)

/-- The field rules of the GRD block (R176, R226, R247, R248); the key tells the bank of a curve write. (DEDUCED, log 23.) -/
def grdRule (s : State) (key off : Nat) (w : Word) : Option Word :=
  let inRun := s.sys.conv = .run || s.sys.conv = .hold
  let crv := off ∈ [R.GRD_CRV_CFG, R.GRD_CRV_XON, R.GRD_CRV_XOFF] ∨ (R.GRD_CRV_X 0 ≤ off ∧ off < R.GRD_OUT 0)
  if crv then
    let b := (key / 0x10000 - 0x200) / 8
    if inRun && s.crvBank = b then none
    else if off = R.GRD_CRV_CFG then
      (if fld w 26 24 = 7 ∨ 6 ≤ fld w 23 20 ∨ fld w 19 18 = 3 then none else some (setFld w 7 0 (max 1 (fld w 7 0))))
    else hostF32 w
  else if off = R.GRD_CRV_BANK then (if inRun then none else some w)
  else if off = R.GRD_CFG then some (if fld w 27 26 = 3 then setFld w 27 26 0 else w)
  else if off = R.GRD_TIME0 then some (setFld (setFld w 31 16 (max 1 (fld w 31 16))) 15 0 (max 1 (fld w 15 0)))
  else if off = R.GRD_TIME1 then some (setFld (setFld w 31 16 (max 1 (fld w 31 16))) 15 0 (max 1 (fld w 15 0)))
  else if off = R.GRD_TIME2 then some (setFld w 7 0 (max 1 (fld w 7 0)))
  else if off = R.GRD_TIME4 then
    some (setFld (setFld (setFld w 15 12 (max 1 (fld w 15 12))) 11 8 (max 1 (fld w 11 8))) 7 0 (clampNat 10 20 (fld w 7 0)))
  else if R.GRD_PAR 0 ≤ off ∧ off ≤ R.GRD_PAR 63 then
    let k := (off - R.GRD_PAR 0) / 4
    if 49 ≤ k then none
    else if k ∈ [0, 1, 2, 3, 4, 11, 12, 15, 16, 21, 24] ∨ 27 ≤ k then hostF32NonNeg w
    else hostF32 w
  else some w

/-- A write to GRD_FORM_SLOTS is held pending in RUN and HOLD (R238). -/
def State.grdHeld (s : State) (off : Nat) : Bool :=
  (s.sys.conv = .run || s.sys.conv = .hold) && (off = R.GRD_FORM_SLOTS_LO || off = R.GRD_FORM_SLOTS_HI)

end Sys2Proof.Machine
end

