-- ==== Sys2Proof/Machine/Crc.lean ====
section
/-! DEFINITION. The check codes of R82: no reflection, no final XOR, bits from the highest covered bit of the first word
down. The polynomials and initial values are those of the rules that use them. -/

namespace Sys2Proof.Machine

/-- One covered bit of R82. -/
def crcBit (width poly : Nat) (crc : Nat) (b : Bool) : Nat :=
  let feedback := xor (bit crc (width - 1)) b
  let sh := crc * 2 % 2 ^ width
  if feedback then sh ^^^ poly else sh

/-- The code over a list of covered bits, first bit first. -/
def crcBits (width poly init : Nat) (bs : List Bool) : Nat := bs.foldl (crcBit width poly) init

/-- The n bits of a value, highest first. -/
def msbBits : Nat → Nat → List Bool
  | 0, _ => []
  | n + 1, v => bit v n :: msbBits n v

/-- The code over bytes in order, each from bit 7. -/
def crcBytes (width poly init : Nat) (bs : List Byte) : Nat :=
  crcBits width poly init (bs.flatMap (fun b => msbBits 8 b.toNat))

/-- CHK of the management port: polynomial 0x2F, initial value 0xFF (R442). -/
def mgmtChk (bs : List Byte) : Nat := crcBytes 8 0x2F 0xFF bs

/-- The 32-bit check of images, Trunk objects and Bin records: polynomial 0x04C1_1DB7, initial value 0xFFFF_FFFF (R423, R427). -/
def check32 (bs : List Byte) : Nat := crcBytes 32 0x04C11DB7 0xFFFFFFFF bs

end Sys2Proof.Machine
end

