-- ==== Sys2Proof/Machine/Frames.lean ====
section
/-! DEFINITION. The formats of the Sylet line (chapter 03): control blocks, header, extension, orders, records, service
messages, their check codes, and the classification of received slots. -/

namespace Sys2Proof.Machine

/-- A 64-bit word whose bits [7:0] are the 8-bit check code over its bits [63:8] (R81). -/
def withCrc8 (init body : Nat) : DWord :=
  BitVec.ofNat 64 (body / 2 ^ 8 * 2 ^ 8 + crcBits 8 0x2F init (msbBits 56 (body / 2 ^ 8)))

/-- The 8-bit check code of a word is valid (R81). -/
def crc8Ok (init : Nat) (w : DWord) : Bool := withCrc8 init w.toNat = w

/-- The number of bits in which two bytes differ. -/
def hamming (a b : Nat) : Nat := (List.range 8).countP (fun i => bit (a ^^^ b) i)

/-- The frame header (R71). -/
def headerBlock (k : Epoch) (lane kind crate ofs : Nat) : DWord :=
  withCrc8 0xFF (0x2D * 2 ^ 56 + lowE 16 k * 2 ^ 40 + lane * 2 ^ 31 + kind * 2 ^ 29 + crate * 2 ^ 21 + ofs * 2 ^ 15)

/-- The header extension as the device sends it: TURN_POS = 0x1F and TURN_CAUSE = 0 (R73). -/
def extBlock (cstate gblock : Nat) (staged : Bool) (smode deblock : Nat) : DWord :=
  withCrc8 0x3C (cstate * 2 ^ 61 + gblock * 2 ^ 54 + b2n staged * 2 ^ 53 + smode * 2 ^ 51 + deblock * 2 ^ 48 + 0x1F * 2 ^ 43)

/-- The BLOCK control block (R87). -/
def blockBlock : DWord := 0xB4B4B4B4B4B4B4B4

/-- The IDLE control block (R89). -/
def idleBlock : DWord := 0x1E00000000000000

/-- A STRIKE-SYNC probe (R88). -/
def probeBlock (target seq lane : Nat) : DWord :=
  withCrc8 0x96 (0xE1 * 2 ^ 56 + target * 2 ^ 51 + seq * 2 ^ 43 + lane * 2 ^ 34)

/-- The classes of a control block (R68). -/
inductive CtlKind where
  | header | block | strikeSync | idle | unknown
deriving DecidableEq, Repr

/-- The classification of a control block (R68). -/
def ctlKind (w : DWord) : CtlKind :=
  let t := rec64 w 63 56
  if t = 0x2D && crc8Ok 0xFF w then .header
  else if hamming t 0xB4 ≤ 1 && 4 ≤ (List.range 7).countP (fun i => hamming (rec64 w (8 * i + 7) (8 * i)) 0xB4 ≤ 1) then .block
  else if t = 0xE1 && crc8Ok 0x96 w then .strikeSync
  else if hamming t 0x1E ≤ 1 then .idle
  else .unknown

/-- A 16-bit check code (R81). -/
def crc16 (init : Nat) (bs : List Bool) : Nat := crcBits 16 0x1021 init bs

/-- Word 0 of an order, with TCRC (R74, R81). -/
def orderWord0 (home rgen okind sample profile : Nat) (arm fire : Bool) (force : Nat) (staged : Bool) : DWord :=
  let body := home * 2 ^ 36 + rgen * 2 ^ 32 + okind * 2 ^ 28 + sample * 2 ^ 14 + profile * 2 ^ 10 + b2n arm * 2 ^ 9 +
    b2n fire * 2 ^ 8 + force * 2 ^ 6 + b2n staged * 2 ^ 5
  BitVec.ofNat 64 (body * 2 ^ 16 + crc16 0xFFFF (msbBits 48 body))

/-- Words 1 to 3 of an order, with OCRC (R74, R81): the four edge events and bits [63:16] of word 3. -/
def orderWords13 (ev : List Nat) (item : Nat) : List DWord :=
  let w1 := ev.getD 0 0 * 2 ^ 32 + ev.getD 1 0
  let w2 := ev.getD 2 0 * 2 ^ 32 + ev.getD 3 0
  [BitVec.ofNat 64 w1, BitVec.ofNat 64 w2,
   BitVec.ofNat 64 (item * 2 ^ 16 + crc16 0x1D0F (msbBits 64 w1 ++ msbBits 64 w2 ++ msbBits 48 item))]

/-- Bits [63:16] of order word 3 for a staged item (R74). -/
def stagedBits (crate seq : Nat) (last : Bool) (item value : Nat) : Nat :=
  crate * 2 ^ 40 + seq * 2 ^ 35 + b2n last * 2 ^ 34 + item * 2 ^ 30 + value

/-- An EMPTY order (R76). -/
def emptyOrder (home : Nat) : List DWord := orderWord0 home 0 0 0 0 false false 0 false :: orderWords13 [] 0

/-- A service block, with SCRC (R90). -/
def serviceBlock (addr cmd tag : Nat) (data : Word) : DWord :=
  let body := addr * 2 ^ 42 + cmd * 2 ^ 36 + tag * 2 ^ 32 + data.toNat
  BitVec.ofNat 64 (body * 2 ^ 16 + crc16 0xC6C6 (msbBits 48 body))

/-- The SCRC of a service block is valid (R81). -/
def scrcOk (w : DWord) : Bool := rec64 w 15 0 = crc16 0xC6C6 (msbBits 48 (w.toNat / 2 ^ 16))

/-- Burst A is valid: its check code, and STATE 0x0 to 0x4 (R83). -/
def burstAOk (w : DWord) : Bool := crc8Ok 0xFF w && rec64 w 11 8 ≤ 4

/-- Burst B is valid (R83). -/
def burstBOk (w : DWord) : Bool := crc8Ok 0xA5 w && rec64 w 11 8 ≤ 4

/-- AUXCRC is valid: over word 1, then word 2 [63:8] (R81). -/
def auxOk (w1 w2 : DWord) : Bool :=
  rec64 w2 7 0 = crcBits 8 0x2F 0x5A (msbBits 64 w1.toNat ++ msbBits 56 (w2.toNat / 2 ^ 8))

/-- A block as the device sends it: control or data, with its payload (R64). -/
def ctlBlock (w : DWord) : LineBlock := ⟨2, w⟩

/-- A data block as the device sends it (R64). -/
def dataBlock (w : DWord) : LineBlock := ⟨1, w⟩

/-- The 40 line blocks of a frame without insertions, from its 35 content blocks: the header, the data blocks, and the gap of five
IDLE blocks, the first of which a probe replaces (R69, R84). -/
def frameLine (content : List DWord) (probe : Option DWord) : List LineBlock :=
  match content with
  | [] => []
  | h :: ds => ctlBlock h :: ds.map dataBlock ++ ctlBlock (probe.getD idleBlock) :: List.replicate 4 (ctlBlock idleBlock)

/-- A frame of IDLE blocks only (R120, R123). -/
def idleLine : List LineBlock := List.replicate 40 (ctlBlock idleBlock)

/-- A frame on the line with two BLOCK blocks inserted at position p: the content that follows is delayed by two blocks, and what no
longer fits in 40 is pushed off the end (R84, R85, R87). -/
def insertBlocks (line : List LineBlock) (p : Nat) : List LineBlock :=
  (line.take p ++ [ctlBlock blockBlock, ctlBlock blockBlock] ++ line.drop p).take 40

/-- The first gap position of a frame on the line that still holds an IDLE (R84). (DEDUCED, log 15.) -/
def gapIdle (line : List LineBlock) : Option Nat :=
  (List.range 40).find? (fun i => 35 ≤ i && line.getD i (dataBlock 0) = ctlBlock idleBlock)

/-- What a returning frame holds after its header: the content blocks in order (none for an invalid block), and the count of
insertions (R65, R69, R85). -/
structure Parsed where
  content : List (Option DWord) := []
  inserts : Nat := 0
deriving DecidableEq, Repr

/-- The content of a frame, from the blocks that follow its header, up to the next header (R85, R489). -/
def parseContent : List LineBlock → Parsed → Parsed
  | [], p => p
  | b :: t, p =>
    if 34 ≤ p.content.length then p
    else if b.sync = 1 then parseContent t { p with content := p.content ++ [some b.payload] }
    else if b.sync = 2 then
      (if ctlKind b.payload = .header then p else parseContent t { p with inserts := p.inserts + 1 })
    else parseContent t { p with content := p.content ++ [none] }

/-- A valid header block (R68). -/
def isHeader (b : LineBlock) : Bool := b.sync = 2 && ctlKind b.payload = .header

/-- A valid header with the given EPOCH bits (R68, R489). (DEDUCED, log 15.) -/
def headerFor (b : LineBlock) (k : Epoch) : Bool := isHeader b && rec64 b.payload 55 40 = lowE 16 k

/-- The position of the header of EPOCH k among received blocks, when it lies within ±2 blocks of its expected position; the list
starts two blocks before that position (R489). (DEDUCED, log 15.) -/
def findHeader (blocks : List LineBlock) (k : Epoch) : Option Nat := (blocks.take 5).findIdx? (fun b => headerFor b k)

/-- The blocks between the header at position i and the header of the next frame: that header stands within ±2 blocks of a frame
after the expected position, and without one the frame ends 40 blocks after its own header (R69, R489). (DEDUCED, log 15.) -/
def contentRegion (blocks : List LineBlock) (k : Epoch) (i : Nat) : List LineBlock :=
  let stop := match ((blocks.drop 40).take 5).findIdx? (fun b => headerFor b (k + 1)) with
    | some j => 40 + j
    | none => i + 40
  (blocks.take stop).drop (i + 1)

/-- The invalid blocks among received blocks (R65, R98). -/
def invalidCount (blocks : List LineBlock) : Nat := blocks.countP (fun b => b.sync ≠ 1 && b.sync ≠ 2)

/-- The unknown control blocks among received blocks (R68, R98). -/
def unknownCount (blocks : List LineBlock) : Nat := blocks.countP (fun b => b.sync = 2 && ctlKind b.payload = .unknown)

/-- A slot as received, classified by steps 1 to 6 of R83: the receipt and word 0 of the burst used. (DEDUCED, log 15.) -/
def classifyBursts (sent : List DWord) (got : List (Option DWord)) : Rcpt × DWord :=
  let a := (got.getD 0 none).bind (fun w => if burstAOk w then some w else none)
  let b := (got.getD 3 none).bind (fun w => if burstBOk w then some w else none)
  if got.length = 4 ∧ got = sent.map some then (.untouched, 0)
  else match a, b with
    | some x, some y => if rec64 x 63 8 = rec64 y 63 8 then (.full, x) else (.mismatch, 0)
    | some x, none => (.singleA, x)
    | none, some y => (.singleB, y)
    | none, none => (.absent, 0)

end Sys2Proof.Machine
end

