-- ==== Sys2Proof/Machine/Profiles.lean ====
section
/-! DEFINITION. What a returned record and a service answer do to the Edge Planner's view of a unit: the attribution of dead
times (R261) and the answers of the profile transactions (R270–R272). -/

namespace Sys2Proof.Machine

/-- FLOOR and CEIL of a class, in ns (R283). -/
def State.dtLimits (s : State) (cls : Nat) : Nat × Nat :=
  let w := s.reg (R.EDG_CLS_DT cls)
  (min (fld w 23 16) (fld w 31 24), fld w 31 24)

/-- The dead time of a direction of unit h under a class, in ns (R261). -/
def State.deadNs (s : State) (cls h : Nat) (up : Bool) : Nat :=
  let w := s.reg (R.EDG_CLS_DT cls)
  let lim := s.dtLimits cls
  let vs := if up then (s.eunit h).ups else (s.eunit h).dns
  match vs with
  | a :: b :: _ => clampNat lim.1 lim.2 (max a b + fld w 7 0)
  | _ => clampNat lim.1 lim.2 (fld w 15 8)

/-- Attributes the T_OFF of a fresh record of converter epoch e to the direction of the last transition planned in e whose
on edge lies before the sample instant (R261). The value kept for the next record is the one attributed from this record, 0 for none.
(DEDUCED, log 24.) -/
def State.attribDead (s : State) (h : Nat) (e : Epoch) (tOff : Nat) : State :=
  let u := s.eunit h
  let s := s.updEunit h (fun u => { u with tOff := 0 })
  match u.hist.find? (fun x => x.c = e) with
  | none => s
  | some x =>
    let before := x.trs.filter (fun t => t.2 < x.sample)
    let last := before.foldl (fun (a : Option (Bool × Nat)) t => match a with | some b => if b.2 ≤ t.2 then some t else a | none => some t) none
    match last with
    | none => s
    | some (up, _) =>
      if tOff = 0 ∨ tOff = u.tOff then s
      else
        let s := s.updEunit h (fun u => { u with
          tOff := tOff
          ups := if up then (tOff :: u.ups).take 2 else u.ups, nUp := if up then min 255 (u.nUp + 1) else u.nUp
          dns := if up then u.dns else (tOff :: u.dns).take 2, nDn := if up then u.nDn else min 255 (u.nDn + 1) })
        let cls := mapClass (s.mapEntry h)
        let vs := if up then (s.eunit h).ups else (s.eunit h).dns
        match vs with
        | a :: b :: _ => if (s.dtLimits cls).2 < max a b + s.rf (R.EDG_CLS_DT cls) 7 0 then s.latch R.EDG_CAUSE 0 else s
        | _ => s

/-- The dead times of a unit are cleared (R261). (DEDUCED, log 24.) -/
def State.clearDead (s : State) (h : Nat) : State :=
  s.updEunit h (fun u => { u with ups := [], dns := [], nUp := 0, nDn := 0, tOff := 0 })

/-- The switches of a class type (R75, R270). -/
def typeSwitches (ty : Nat) : Nat := if ty = 1 then 2 else if ty = 2 then 4 else if ty = 3 then 1 else 0

/-- PROFILE_MASK of a class. -/
def State.profMask (s : State) (cls : Nat) : Nat := s.rf (R.SYS_CLASS_TYPE cls) 31 16

/-- The profile word of a switch, as DATA of PROFILE_LOAD (R270). -/
def State.profWord (s : State) (cls bank i sw : Nat) : Nat :=
  bank * 2 ^ 31 + i * 2 ^ 27 + sw * 2 ^ 25 + (s.reg (profKey cls bank i sw)).toNat % 2 ^ 25

/-- The device's own check value of a profile (R271). -/
def State.profCheck (s : State) (cls bank i : Nat) : Nat :=
  crcBits 16 0x1021 0xFFFF ((List.range (typeSwitches (s.classType cls))).flatMap (fun sw =>
    msbBits 22 (s.profWord cls bank i sw / 2 ^ 5 % 2 ^ 22)))

/-- Profile i is verified for unit h in a bank (R272). -/
def State.profVerified (s : State) (h : Nat) (bank : Bool) (i : Nat) : Bool :=
  bit (if bank then (s.eunit h).ver1 else (s.eunit h).ver0) i

/-- Marks profile i of a bank of unit h as verified or not. -/
def State.setVerified (s : State) (h : Nat) (bank : Bool) (i : Nat) (v : Bool) : State :=
  s.updEunit h (fun u =>
    let set (m : Nat) : Nat := if v then m ||| 2 ^ i else m &&& (2 ^ 16 - 1 - 2 ^ i)
    if bank then { u with ver1 := set u.ver1 } else { u with ver0 := set u.ver0 })

/-- Changes the profile work of unit h. -/
def State.updProf (s : State) (h : Nat) (f : ProfSt → ProfSt) : State := s.updEunit h (fun u => { u with prof := f u.prof })

/-- The item at the head of the profile work is done. -/
def State.profNext (s : State) (h : Nat) : State :=
  s.updProf h (fun p => { p with todo := p.todo.drop 1, fails := 0, asked := false, refused := none })

/-- The loads of profile i of a bank, in ascending switch. -/
def profLoads (bank : Bool) (i n : Nat) : List ProfItem := (List.range n).map (fun sw => .load bank i sw)

/-- The item at the head has failed: it is repeated up to three times, and then sets EDG_CAUSE.PROFILE (R272). -/
def State.profFail (s : State) (h : Nat) : State :=
  if (s.eunit h).prof.fails < 3 then s.updProf h (fun p => { p with fails := p.fails + 1, asked := false })
  else (s.profNext h).latch R.EDG_CAUSE 1

/-- The answer of a profile transaction of unit h (R272). -/
def State.profAnswer (s : State) (h : Nat) (status : Nat) (data : Word) : State :=
  let cls := mapClass (s.mapEntry h)
  match (s.eunit h).prof.todo.head? with
  | none => s.updProf h (fun p => { p with asked := false })
  | some (.load _ _ _) =>
    if status = 0 then s.profNext h
    else if status = 2 then s.updProf h (fun p => { p with asked := false, refused := (s.entry h).map (·.aux) })
    else s.profFail h
  | some (.check b i) =>
    if status = 0 ∧ flag data 31 ∧ fld data 15 0 = s.profCheck cls (b2n b) i then (s.setVerified h b i true).profNext h
    else (s.setVerified h b i false).profFail h
  | some (.recheck b i) =>
    if status = 0 ∧ flag data 31 ∧ fld data 15 0 = s.profCheck cls (b2n b) i then s.profNext h
    else if status = 0 then
      (s.setVerified h b i false).updProf h (fun p => { p with
        todo := profLoads b i (typeSwitches (s.classType cls)) ++ [.check b i] ++ p.todo.drop 1, fails := 0, asked := false })
    else s.profFail h

/-- The end of a profile transaction. -/
def State.profResult (s : State) (why : SvcWhy) (status : Nat) (data : Word) : State :=
  match why with
  | .profileLoad h _ | .profileCheck h _ => s.profAnswer h status data
  | _ => s

end Sys2Proof.Machine
end

