-- ==== Sys2Proof/Machine/Link.lean ====
section
/-! DEFINITION. The Sylet lanes (chapter 03) and the measuring side of the strings (chapter 04): launching a frame,
receiving a returning frame, service transactions, discovery, probes, lead and trim. -/

namespace Sys2Proof.Machine

/-- Counts in word 4 + i of the lane table (R98, R133): counters 0 to 14 in the order of R98, then HANDOVERS, HANDBACKS,
HB_ABORTS, FLAPS, PROBE_LOST and DISC_REJECT. -/
def State.laneCount (s : State) (l i : Nat) (n : Nat := 1) : State :=
  s.updLane l (fun a => { a with counters := smUpd 0 a.counters i (fun c => min (2 ^ 32 - 1) (c + n)) })

/-- The partner of lane l (R101). -/
def partner (l : Nat) : Nat := l ^^^ 1

/-- Position p on lane l holds an expected unit (R28, R103). -/
def State.expectedAt (s : State) (l p : Nat) : Bool := mapExpected (s.mapEntry (l * 8 + p))

/-- The number of expected positions of the string of lane l: up to the first position that is not expected (R103). -/
def State.stringLen (s : State) (l : Nat) : Nat := ((List.range 8).takeWhile (s.expectedAt l)).length

/-- Lane l has expected entries beyond its expected positions (R103). -/
def State.laneGap (s : State) (l : Nat) : Bool := (List.range 8).any (fun p => s.stringLen l ≤ p && s.expectedAt l p)

/-- The lowest NOT_STARTED position of the string of lane l (R106). -/
def State.lowestNew (s : State) (l : Nat) : Option Nat :=
  (List.range (s.stringLen l)).find? (fun p => (s.unit (l * 8 + p)).status = .notStarted)

/-- The unit whose bridged position on lane l is q, 8 to 15: a unit of the partner's string (R102, R121). -/
def State.bridgedAt (s : State) (l q : Nat) : Option Nat :=
  ((List.range 8).map (fun p => partner l * 8 + p)).find? (fun h => (s.unit h).armed && (s.unit h).bpos = q)

/-- Lane l serves the moved units of its pair with bridged frames (R105). -/
def State.servesBridged (s : State) (l : Nat) : Bool := (s.pair (l / 2)).state ≠ .normal && (s.pair (l / 2)).broken ≠ l

/-- Lane l sends only IDLE blocks: it is the dark broken lane of a pair that is not NORMAL, before its hand-back (R120,
R123, R126). -/
def State.idleOnly (s : State) (l : Nat) : Bool :=
  let p := s.pair (l / 2)
  p.dark && p.broken = l && (p.state = .handover || p.state = .bridged)

/-- The unit's orders go on its bridged route: the route in force, or the destination of a move (R119, R123, R126). -/
def State.orderRoute (s : State) (h : Nat) : Bool :=
  let u := s.unit h
  if u.status = .moving then (s.pair (h / 16)).state ≠ .handback || !u.homed else u.bridged

/-- Discovery runs in these states (R105, R121). -/
def State.discovering (s : State) : Bool := s.sys.conv = .charge || s.sys.conv = .ready || s.sys.conv = .hold

/-- The pair of a lane has a far-end bridge fitted (R101). -/
def State.bridgeFitted (s : State) (m : Nat) : Bool := m < 256 && s.rb (R.LNK_BRIDGE_EN (m / 32)) (m % 32)

/-- The unit below position p of lane l's string is PRESENT, or p is 0 (R106). -/
def State.belowPresent (s : State) (l p : Nat) : Bool := p = 0 || (s.unit (l * 8 + p - 1)).status = .present

/-- The discovery of lane x's string is blocked (R121). A lowest NOT_STARTED position 0 has no unit below it: its wait counts as if a
PRESENT unit stood there. (DESIGN CHOICE, log 44.) -/
def State.discBlocked (s : State) (x : Nat) : Bool :=
  match s.lowestNew x with
  | none => false
  | some p =>
    let below := (s.unit (x * 8 + p - 1)).status
    (p ≠ 0 && (below = .lost || below = .rejected)) ||
      (s.belowPresent x p && s.epOfMs (10 * max 1 (s.rf R.LNK_TRIM_CFG 7 0)) ≤ (s.lane x).discWaitEp)

/-- Lane l serves discovery for its partner's string (R121). -/
def State.servesDiscovery (s : State) (l : Nat) : Bool :=
  s.discovering && s.bridgeFitted (l / 2) && s.lowestNew l = none && s.discBlocked (partner l)

/-- The KIND of the frame of EPOCH k on lane l (R71, R105). -/
def State.frameKind (s : State) (l : Nat) (k : Epoch) : Nat :=
  if s.servesBridged l then (if k.toNat % 2 = 0 then 1 else 2)
  else if s.discovering && (s.pair (l / 2)).state = .normal && ((s.lowestNew l).isSome || s.servesDiscovery l) then 3
  else 0

/-- The converter state in force at converter epoch k: RUN from the announced epoch on (R34, R73). -/
def State.convAt (s : State) (k : Epoch) : Conv :=
  match s.sys.announce with
  | some a => if epGe k a.k then .run else s.sys.conv
  | none => s.sys.conv

/-- DEBLOCK of the header extension (R73). -/
def State.deblockAt (s : State) (k : Epoch) : Nat :=
  match s.sys.announce with
  | some a => let d := (a.k - k).toNat; if 1 ≤ d ∧ d ≤ 4 then d else 0
  | none => 0

/-- CRATE and OFFSET of a header of EPOCH k: the commit or abort run that covers k (R71, R72, R164, R165). (DEDUCED, log 15.) -/
def State.headerRun (s : State) (k : Epoch) : Nat × Nat :=
  let hit := (List.range 4).find? (fun i => match (s.crate i).runAt with | some f => (k - f).toNat < 4 | none => false)
  match hit with
  | none => (0, 0)
  | some i =>
    let c := s.crate i
    match c.state, c.eff with
    | .aborting, _ => (c.id, 63)
    | .done, some x => if c.outcome = 1 ∨ c.outcome = 2 then (c.id, (x - k).toNat % 2 ^ 6) else (c.id, 63)
    | _, some x => (c.id, (x - k).toNat % 2 ^ 6)
    | _, none => (0, 0)

/-- A Crate is staged on lane l and not yet committed or aborted: it has sent an item to a unit of the lane (R73). The frame that carries
the first item does not show it, and the decision ends it: neither is stated. (DESIGN CHOICE, log 43.) -/
def State.laneStaged (s : State) (l : Nat) : Bool :=
  (List.range 4).any (fun i => (s.crate i).state = .staging &&
    (s.crate i).gates.any (fun g => 0 < g.next && (if s.orderRoute g.home then partner (g.home / 8) else g.home / 8) = l))

/-- The gauge of unit h covers the cost of firing its bypass switch (R93, R253). -/
def State.coversFire (s : State) (h : Nat) : Bool :=
  match s.entry h, (s.unit h).ident[6]? with
  | some e, some w => fld w 31 16 ≤ e.mgauge
  | _, _ => false

/-- The gauge of unit h covers the cost of one profile change (R93, R253). -/
def State.coversProfile (s : State) (h : Nat) : Bool :=
  match s.entry h, (s.unit h).ident[6]? with
  | some e, some w => fld w 15 8 ≤ e.qgauge
  | _, _ => false

/-- The Crate slot and the gate part of unit h that has an item to send (R163); a PROFILE_BANK item waits until the unit's gauge covers
its cost (R158, R253). (DEDUCED, log 24.) -/
def State.stageNext (s : State) (h : Nat) : Option (Nat × GatePart) :=
  ((List.range 4).filterMap (fun i =>
    let c := s.crate i
    if c.state = .staging && c.stagedAt.isSome then
      (c.gates.find? (fun g => g.home = h && g.next < g.items.length &&
        ((g.items.getD g.next ⟨0, 0⟩).item ≠ 6 || s.coversProfile h))).map (fun g => (i, g))
    else none)).head?

/-- Bits [63:16] of word 3 of the next order to unit h (R74, R163). -/
def State.stageBits (s : State) (h : Nat) : Option Nat :=
  (s.stageNext h).map (fun (i, g) =>
    let it := g.items.getD g.next ⟨0, 0⟩
    stagedBits (s.crate i).id g.next (g.next + 1 = g.items.length) it.item it.value)

/-- The Edge Planner has written the order of unit h for the frame of EPOCH k (R268). -/
def State.orderWritten (s : State) (h : Nat) (k : Epoch) : Bool := (smGet {} s.edg.orders h).c = some k

/-- The item of unit h has been sent (R163, R164). -/
def State.stageSent (s : State) (h : Nat) : State :=
  match s.stageNext h with
  | none => s
  | some (i, g) => s.updCrate i (fun c => { c with gates := c.gates.map (fun x =>
      if x.home = h then { x with next := g.next + 1, lastSent := if g.next + 1 = g.items.length then some s.sys.epoch else none }
      else x) })

/-- Unit h is ordered OFF whatever the Edge Planner plans: it is REJECTED with a route, or JOINING without a hold offset (R106, R112). -/
def State.leftOut (s : State) (h : Nat) : Bool :=
  let u := s.unit h
  u.status = .rejected || (u.status = .joining && !u.hasHold)

/-- The order that the frame of EPOCH k carries for unit h: OFF when its header does not carry RUN or blocks the unit's
group (R266), what the Edge Planner wrote for k, and KEEP where it wrote none, in every frame (R268). -/
def State.orderOf (s : State) (h : Nat) (k : Epoch) : OrderBuf :=
  let o := smGet {} s.edg.orders h
  let c := if s.prt.firedNow then Conv.hold else s.convAt k
  let off := s.leftOut h || c ≠ .run || bit (s.groupsBlocked c) (mapGroup (s.mapAt k h))
  if o.c ≠ some k then { kind := 2 }
  else if off then { o with kind := 3, force := 0, evs := [] } else o

/-- The four words of the order for unit h in the frame of EPOCH k: what the Edge Planner wrote, with its route generation
and staged item (R74, R119, R267); the KEEP that the lane forms alone carries no staged item (R249, R268). -/
def State.orderFor (s : State) (h : Nat) (k : Epoch) : List DWord :=
  let u := s.unit h
  let o := s.orderOf h k
  let rgen := if u.status = .moving then (u.rgen + 1) % 16 else u.rgen
  let st := if s.orderWritten h k then s.stageBits h else none
  orderWord0 h rgen o.kind o.sample o.profile o.arm o.fire o.force st.isSome :: orderWords13 o.evs (st.getD 0)

/-- The unit of slot i in the frame of EPOCH k and the given KIND on lane l, and whether its orders go here; the map entry in force at k
says whether it is expected (R69, R76, R267, D7 of R94). -/
def State.slotUnit (s : State) (l : Nat) (k : Epoch) (kind i : Nat) : Option (Nat × Bool) :=
  if kind = 2 then
    (s.bridgedAt l (8 + i)).bind (fun h => if mapExpected (s.mapAt k h) then some (h, s.orderRoute h) else none)
  else if mapExpected (s.mapAt k (l * 8 + i)) then some (l * 8 + i, !s.orderRoute (l * 8 + i)) else none

/-- The service block of the frame launched in the present epoch (R90, R91). TAG and DATA of a POLL to 0x10 are not stated: the device
sends 0 in both. (DESIGN CHOICE, log 43.) -/
def State.svcBlockNow (s : State) (l : Nat) : DWord :=
  match (s.lane l).svc with
  | none => serviceBlock 0x10 0 0 0
  | some v =>
    if v.frames = 0 then serviceBlock v.rq.addr v.rq.cmd v.tag v.rq.data
    else if v.frames = 1 then serviceBlock 0x10 0 0 0
    else serviceBlock v.rq.addr 0 v.tag 0

/-- The next waiting request starts its transaction when none is outstanding (R91). -/
def State.svcStart (s : State) (l : Nat) : State :=
  let a := s.lane l
  match a.svc, a.svcQ with
  | none, q :: rest => s.updLane l (fun a => { a with svc := some ⟨q, (a.tag + 1) % 16, 0, 0⟩, svcQ := rest, tag := (a.tag + 1) % 16 })
  | _, _ => s

/-- A frame of lane l has been launched: the transaction outstanding counts it (R91). -/
def State.svcSent (s : State) (l : Nat) : State :=
  s.updLane l (fun a => { a with svc := a.svc.map (fun v => { v with frames := v.frames + 1 }) })

/-- A profile transaction, to which every other transaction of the lane takes precedence (R272). -/
def SvcWhy.profile : SvcWhy → Bool
  | .profileLoad _ _ | .profileCheck _ _ => true
  | _ => false

/-- Queues a service request on lane l: before the profile transactions that wait, unless it is one (R272). -/
def State.svcAsk (s : State) (l : Nat) (why : SvcWhy) (addr cmd : Nat) (data : Nat) : State :=
  let q : SvcReq := ⟨why, addr, cmd, BitVec.ofNat 32 data⟩
  s.updLane l (fun a => { a with svcQ :=
    if why.profile then a.svcQ ++ [q] else a.svcQ.filter (fun x => !x.why.profile) ++ [q] ++ a.svcQ.filter (fun x => x.why.profile) })

/-- The 35 content blocks of the frame of EPOCH k on lane l (R69). HOME of an EMPTY in a slot without an expected unit is 0: which home
address the device associates with such a slot is not stated (R76). (DESIGN CHOICE, log 43.) -/
def State.frameBlocks (s : State) (l : Nat) (k : Epoch) : List DWord :=
  let kind := s.frameKind l k
  let run := s.headerRun k
  let c := if s.prt.firedNow then (if s.sys.conv = .run then Conv.hold else s.sys.conv) else s.convAt k
  let smode := if s.servesBridged l then 1 else if (s.pair (l / 2)).state ≠ .normal then 2 else 0
  let slots := (List.range 8).flatMap (fun i => match s.slotUnit l k kind i with
    | some (h, true) => s.orderFor h k
    | some (h, false) => emptyOrder h
    | none => emptyOrder 0)
  [headerBlock k l kind run.1 run.2, extBlock c.code (s.groupsBlocked c) (s.laneStaged l) smode (if s.prt.firedNow then 0 else s.deblockAt k)] ++ slots ++
    [s.svcBlockNow l]

/-- The lanes launch frames: the timebase runs and they are not muted (R413, R414). -/
def State.launching (s : State) : Bool := s.sys.counting && !s.ref.muted

/-- Lane l may launch a frame in the present epoch: it is active, lanes launch, it does not send IDLE only, and it has launched none
in this epoch (R69, R100). -/
def State.mayLaunch (s : State) (l : Nat) : Bool :=
  s.laneActive l && s.launching && !s.idleOnly l && (s.lane l).launchedAt ≠ some s.sys.epoch

/-- The lane's probe of the present epoch, which takes the first gap position of its frame (R84, R88). -/
def State.probeNow (s : State) (l : Nat) : Option DWord :=
  match (s.lane l).probe with
  | some p => if p.sent = s.sys.epoch then some (probeBlock p.target p.seq l) else none
  | none => none

/-- The 40 blocks of the frame of EPOCH k as they leave lane l: two BLOCK blocks that wait follow its header (R69, R84, R87). -/
def State.lineOf (s : State) (l : Nat) (k : Epoch) : List LineBlock :=
  let line := frameLine (s.frameBlocks l k) (s.probeNow l)
  if (s.lane l).blockDue then insertBlocks line 1 else line

/-- The line of lane l moves on to a frame of the present epoch. -/
def State.putLine (s : State) (l : Nat) (line : List LineBlock) : State :=
  s.updLane l (fun a => { a with lineBefore := if a.launchedAt = some (s.sys.epoch - 1) then a.line else idleLine, line := line
                                 launchedAt := some s.sys.epoch, blockDue := false })

/-- The lane on which unit h is served, by its route in force (R102). -/
def State.servedOn (s : State) (h : Nat) : Nat := if (s.unit h).bridged then partner (h / 8) else h / 8

/-- A moved unit of a hand-back is home with its first fresh record on its home route (R126). -/
def State.unitHome (s : State) (h : Nat) : State :=
  let p := s.pair (h / 16)
  if p.state = .handback ∧ (s.unit h).bridged = false ∧ p.moved.contains h ∧ !p.home.contains h then
    s.updPair (h / 16) (fun p => { p with home := p.home ++ [h] })
  else s

/-- A fresh due epoch of unit h: STALE_RUN is 0 and a JOINING, UNOBSERVED or MOVING unit is PRESENT (R116); in a hand-back it is home
(R126). -/
def State.unitFresh (s : State) (h : Nat) : State :=
  (s.unitHome h).updUnit h (fun u => { u with
    staleRun := 0
    status := if u.status = .joining ∨ u.status = .unobserved ∨ u.status = .moving then .present else u.status })

/-- A due epoch of unit h that is not fresh; STALE_RUN neither advances in holdover nor while a hand-over moves the unit
(R116, R124, R415). -/
def State.unitStale (s : State) (h : Nat) : State :=
  if s.ref.holdoverNow || s.ref.state = .unmuteWait || ((s.unit h).status = .moving && (s.pair (h / 16)).state = .handover) then s
  else s.updUnit h (fun u => { u with staleRun := min 511 (u.staleRun + 1) })

/-- The home addresses whose units may be served on lane l: its own, and its partner's (R102). -/
def pairHomes (l : Nat) : List Nat := (List.range 8).map (l * 8 + ·) ++ (List.range 8).map (partner l * 8 + ·)

/-- Converter epoch n brings no frame to lane l: it is a due epoch that is not fresh of every unit served there (R116). -/
def State.missedEpoch (s : State) (l : Nat) (n : Epoch) : State :=
  (pairHomes l).foldl (fun s h =>
    if s.servedOn h = l && mapExpected (s.mapEntry h) && s.dueEpoch h n then s.unitStale h else s) s

/-- The frame of EPOCH k is the newest of lane l: the converter epochs since the last one that no frame collected are not fresh (R116).
(DEDUCED, log 16.) -/
def State.skippedDue (s : State) (l : Nat) (k : Epoch) : State :=
  match (s.lane l).lastK with
  | none => s.updLane l (fun a => { a with lastK := some k })
  | some j =>
    if epGe j k then s
    else
      let s := (List.range (min 511 ((k - j).toNat - 1))).foldl (fun s i => s.missedEpoch l (j + BitVec.ofNat 48 i)) s
      s.updLane l (fun a => { a with lastK := some k })

/-- A frame is launched on an active lane of lead L at E(k − L): its blocks, the staged items they carry, and its place
among the frames in flight (R70, R145, R163). A lane sends one frame in an epoch, and a dark broken lane IDLE blocks only, with the BLOCK
blocks that wait (R69, R87, R123). -/
def execFrameLaunch (l : Nat) (s : State) : Out :=
  if s.mayLaunch l then
    let s := s.svcStart l
    let k := s.sys.epoch + BitVec.ofNat 48 (s.lane l).lead
    let kind := s.frameKind l k
    let units := (List.range 8).map (s.slotUnit l k kind)
    let sent : Sent := ⟨k, kind, s.frameBlocks l k, units.map (·.map Prod.fst)⟩
    let s := (s.putLine l (s.lineOf l k)).svcSent l
    let s := units.foldl (fun s u => match u with | some (h, true) => if s.orderWritten h k then s.stageSent h else s | _ => s) s
    let s := s.updLane l (fun a => { a with inflight := a.inflight ++ [sent] })
    let s := s.skippedDue l k
    .next (s.updShelf (k - 1) (fun sh => { sh with expect := l :: sh.expect.erase l }))
  else .next (if s.laneActive l ∧ s.launching ∧ s.idleOnly l then s.putLine l (if (s.lane l).blockDue then insertBlocks idleLine 0 else idleLine) else s)

/-- The device makes the other route of unit h current with the generation of its record (R119). -/
def State.routeChange (s : State) (h : Nat) (bridged : Bool) (rgen : Nat) : State :=
  s.updUnit h (fun u => { u with bridged := bridged, rgen := rgen })

/-- A slot of a route of unit h that brought no STALE_ROUTE record: the run of such records at that slot ends (R119). -/
def State.staleRouteEnd (s : State) (h : Nat) (viaBridge : Bool) : State :=
  s.updUnit h (fun u => { u with staleRoute := if u.staleVia = viaBridge then 0 else u.staleRoute })

/-- One slot of a delivered frame of EPOCH k for unit h on the route of this slot: its receipt by R83, the counters of R98,
the Cellar (R142), the route generation (R119) and freshness (R116). A SINGLE_A or SINGLE_B burst whose receipt becomes WRONG_HOME,
STALE_ROUTE or LATE counts in SINGLE_BURST as well: which of the two the receipt is then is not stated (R83, R98). An ABSENT counts in
BURST_LOST also where the unit is served on its other route at that time: whether it is expected in the slot then is not stated (R98).
(DESIGN CHOICE, log 43.) -/
def State.receiveSlot (s : State) (l : Nat) (k : Epoch) (h : Nat) (viaBridge : Bool) (sent : List DWord)
    (got : List (Option DWord)) : State :=
  let (r, w0) := classifyBursts sent got
  let due := s.dueEpoch h (k - 1) && (s.unit h).bridged = viaBridge
  let miss (s : State) : State := if due then s.unitStale h else s
  match r with
  | .untouched => miss (s.staleRouteEnd h viaBridge)
  | .mismatch => miss (((s.laneCount l 8).latch R.LNK_CAUSE 1).staleRouteEnd h viaBridge)
  | .absent => miss ((s.laneCount l 7).staleRouteEnd h viaBridge)
  | .full | .singleA | .singleB =>
    let single := r ≠ .full
    let s := if single then s.laneCount l 6 else s
    if rec64 w0 33 22 ≠ h then miss ((s.laneCount l 9).staleRouteEnd h viaBridge)
    else
      let rgen := rec64 w0 15 12
      let u := s.unit h
      let moved := u.bridged ≠ viaBridge && rgen = (u.rgen + 1) % 16
      let s := if moved then s.routeChange h viaBridge rgen else s
      if !moved && (rgen ≠ u.rgen || u.bridged ≠ viaBridge) then
        miss ((s.laneCount l 10).updUnit h (fun u => { u with staleRoute := if u.staleVia = viaBridge then min 64 (u.staleRoute + 1) else 1,
                                                                   staleRgen := rgen, staleVia := viaBridge }))
      else
        let s := s.updUnit h (fun u => { u with staleRoute := 0 })
        let w1 := got.getD 1 none
        let w2 := got.getD 2 none
        let ok := match w1, w2 with | some a, some b => auxOk a b | _, _ => false
        let late := ok && rec64 (w2.getD 0) 13 13 = 1
        let s := if late then s.laneCount l 11 else s
        let s := if ok then s else s.laneCount l 12
        let (fresh, s) := s.celWrite h k single late (!ok) w0 (w1.getD 0) (w2.getD 0)
        let s := if fresh && ok then s.attribDead h (k - 1) (rec64 (w1.getD 0) 51 40) else s
        if s.dueEpoch h (k - 1) || !(s.unit h).hasHold then (if fresh && (s.unit h).hasHold then s.unitFresh h else if due then s.unitStale h else s)
        else s
  | _ => s

/-- A slot for which no unit is expected: its receipt is counted, and nothing goes to the Cellar (R83, R98). An ABSENT counts only for
an expected submodule, and any HOME is a wrong one. -/
def State.receiveSpare (s : State) (l : Nat) (sent : List DWord) (got : List (Option DWord)) : State :=
  match (classifyBursts sent got).1 with
  | .mismatch => (s.laneCount l 8).latch R.LNK_CAUSE 1
  | .full => s.laneCount l 9
  | .singleA | .singleB => (s.laneCount l 6).laneCount l 9
  | _ => s

/-- The units of lane l that are on their home route and get no slot in a bridged-phase-B frame: their due epoch is not
fresh (R105, R116). -/
def State.missPhase (s : State) (l : Nat) (k : Epoch) (kind : Nat) : State :=
  if kind = 2 then
    ((List.range 8).map (l * 8 + ·)).foldl (fun s h =>
      if !(s.unit h).bridged && s.dueEpoch h (k - 1) && s.expectedAt l (h % 8) then s.unitStale h else s) s
  else s

/-- The identity checks of R107 for home address h. -/
def State.identityOk (s : State) (h : Nat) (ids : List Word) : Bool :=
  let w (i : Nat) : Word := ids.getD i 0
  fld (w 3) 31 24 = 1 && fld (w 3) 23 22 = s.classType (mapClass (s.mapEntry h)) && fld (w 4) 31 16 ≤ 64 && fld (w 4) 15 0 ≤ 100 &&
    fld (w 5) 15 0 ≤ 1000 && fld (w 7) 17 0 ≠ 0 &&
    s.lnk.units.all (fun (g, u) => g = h || !(u.status = .joining || u.status = .present || u.status = .moving) ||
      u.serialLo ≠ w 1 || u.serialHi ≠ w 2)

/-- The position becomes REJECTED and discovery stops on the lane (R106, R107). -/
def State.discReject (s : State) (l h : Nat) : State :=
  let s := s.updUnit h (fun u => { u with status := .rejected })
  let s := s.updLane l (fun a => { a with disc := none, discStopped := true })
  (s.laneCount l 20).latch R.LNK_STR_CAUSE 0

/-- Changes the discovery of lane l. -/
def State.updDisc (s : State) (l : Nat) (f : Disc → Disc) : State :=
  s.updLane l (fun a => { a with disc := a.disc.map f })

/-- The request of a discovery step on lane l (R92, R106): reading an identity word, naming the unit, giving its route. -/
def State.discAsk (s : State) (l : Nat) (d : Disc) (why : SvcWhy) : State :=
  match why with
  | .ident w => s.svcAsk l why 0x1E 0x01 w
  | .assignHome => s.svcAsk l why 0x1E 0x02 (d.home * 2 ^ 20 + mapGroup (s.mapEntry d.home) * 2 ^ 16)
  | .recheckSerial => s.svcAsk l why d.pos 0x01 1
  | .assignRoute =>
    let last := !d.viaBridge && d.pos + 1 = s.stringLen l
    s.svcAsk l why 0x1E 0x03 (l * 2 ^ 23 + d.pos * 2 ^ 19 + b2n last * 2 ^ 14)
  | _ => s

/-- Fine steps per ns (R14). -/
def State.finePerNs (s : State) : Nat := if s.sys.compat then 32 else 64

/-- H_min of slot i in fine steps (R111): (6 + 4 i) blocks of 1/40 epoch, and 32 ns or 64 ns. -/
def hMin (i : Nat) : Rat := ((6 + 4 * i : Nat) : Rat) * 2048 / 5 + 2048

/-- The slot that position p takes in its frames (D7 of R94). -/
def slotOf (p : Nat) : Nat := p % 8

/-- Q_p of a delay O_p and a position, in fine steps, for a MARGIN in ns (R111). -/
def State.qOf (s : State) (margin o p : Nat) : Rat := (o : Rat) + hMin (slotOf p) + ((margin * s.finePerNs : Nat) : Rat)

/-- The MARGIN that the next trim takes, in ns (R135). (DEDUCED, log 16.) -/
def State.marginNew (s : State) : Nat := s.rf R.LNK_TRIM_CFG 31 24

/-- The MARGIN of lane l's last trim, in ns; before its first trim the one that this will take (R135). -/
def State.marginOf (s : State) (l : Nat) : Nat := (s.lane l).qMargin.getD s.marginNew

/-- The routes that lane l may serve, as (home, bridged): its own units on their home routes and, where the pair's bridge
is verified or its units already stand on the bridge, the partner's units on their bridged routes (R112, R121). A REJECTED unit is sent
no command (R106). -/
def State.laneRoutes (s : State) (l : Nat) : List (Nat × Bool) :=
  let measured (h : Nat) (b : Bool) : Bool := (s.unit h).status ≠ .rejected &&
    (if b then (s.unit h).armed && (s.unit h).oBridged ≠ 0 else (s.unit h).homed && (s.unit h).oHome ≠ 0)
  let own := ((List.range 8).map (fun p => (l * 8 + p, false))).filter (fun r => measured r.1 false)
  let far := ((List.range 8).map (fun p => (partner l * 8 + p, true))).filter (fun r => measured r.1 true)
  own ++ (if (s.pair (l / 2)).bridgeOk || (s.pair (l / 2)).found ≠ 0 then far else [])

/-- Q_p of a route, for a MARGIN in ns (R111). -/
def State.routeQ (s : State) (margin : Nat) (r : Nat × Bool) : Rat :=
  if r.2 then s.qOf margin (s.unit r.1).oBridged (s.unit r.1).bpos else s.qOf margin (s.unit r.1).oHome (r.1 % 8)

/-- A requirement that a lead of at most 12 ep covers (R112). -/
def fits12 (q : Rat) : Bool := q ≤ 12 * 16384

/-- The lead and T_LANE of lane l from the requirements that 12 ep cover (R112, R113). (DEDUCED, log 16.) -/
def State.leadTrim (s : State) (l : Nat) : Option (Nat × Nat) :=
  let qs := ((s.laneRoutes l).map (s.routeQ s.marginNew)).filter fits12
  match qs with
  | [] => none
  | q :: t =>
    let m := t.foldl rmax q
    let lead := (m / 16384).ceil.toNat
    some (lead, ((lead : Rat) * 16384 - m).floor.toNat)

/-- HOLD_p of a delay on lane l (R113). -/
def State.holdOf (s : State) (l o : Nat) : Nat := (s.lane l).lead * 16384 - (s.lane l).tLane - o

/-- Sends HOLD_OFFSET for a route of unit h: the new offset is stored, and it comes into force with the unit's OK (R113, R132, D26). -/
def State.putHold (s : State) (h : Nat) (bridged : Bool) (why : SvcWhy) : State :=
  let u := s.unit h
  let l := if bridged then partner (h / 8) else h / 8
  let o := if bridged then u.oBridged else u.oHome
  let addr := if u.bridged then u.bpos else h % 8
  let hold := s.holdOf l o
  let t := s.updUnit h (fun u => if bridged then { u with holdBridged := hold } else { u with holdHome := hold })
  t.svcAsk (s.servedOn h) why addr 0x04 (b2n bridged * 2 ^ 31 + (if bridged then u.bpos * 2 ^ 27 else 0) + hold)

/-- The lead in force covers a route of unit h, with the MARGIN of the lane's last trim (R112, R114, R135). -/
def State.leadCovers (s : State) (h : Nat) (bridged : Bool) : Bool :=
  let l := if bridged then partner (h / 8) else h / 8
  s.routeQ (s.marginOf l) (h, bridged) ≤ (s.lane l).lead * 16384

/-- HOLD_OFFSET for a route that the lead in force covers; a route that it does not cover gets none (R112, R114). -/
def State.sendHold (s : State) (h : Nat) (bridged : Bool) (why : SvcWhy) : State :=
  if s.leadCovers h bridged then s.putHold h bridged why else s

/-- A unit left without a hold offset because of its lead (R112). -/
def State.leadLong (s : State) : State := (s.latch R.LNK_STR_CAUSE 1).prtEvent 69

/-- The end of path measurement in discovery: O_p is the mean of four probes, rounded once, ties upward; the hold offset is
sent, or withheld when the lead would exceed 12 ep (R106, R110, R112). Delays are in half fine steps. -/
def State.discMeasured (s : State) (l : Nat) (d : Disc) : State :=
  let o := ((d.delays.sum + 4) / 8).toNat
  let s := s.updUnit d.home (fun u => if d.viaBridge then { u with oBridged := o } else { u with oHome := o })
  if !fits12 (s.routeQ (s.marginOf l) (d.home, d.viaBridge)) then (s.updLane l (fun a => { a with disc := none })).leadLong
  else if !s.leadCovers d.home d.viaBridge then s.updLane l (fun a => { a with disc := none })
  else (s.updDisc l (fun d => { d with probing := false })).sendHold d.home d.viaBridge (.holdDisc d.viaBridge)

/-- A step of discovery has failed: it is repeated up to three times, ASSIGN_ROUTE after reading the serial, and the
position is then rejected. A read of the serial that fails is no failure of the step: the repetition goes on. A position that does not
answer the first request has not been seen, and stays NOT_STARTED (R104, R106). (DEDUCED, log 16.) -/
def State.discFail (s : State) (l : Nat) (d : Disc) (why : SvcWhy) (status : Nat) : State :=
  if why = .ident 0 ∧ status = 0x3F then s.updLane l (fun a => { a with disc := none })
  else if why = .recheckSerial then s.discAsk l d .assignRoute
  else if 3 ≤ d.fails then s.discReject l d.home
  else
    let s := s.updDisc l (fun d => { d with fails := d.fails + 1 })
    match why with
    | .assignRoute => s.discAsk l d .recheckSerial
    | .holdDisc b => s.sendHold d.home b why
    | _ => s.discAsk l d why

/-- The route of a unit under discovery is in force: the unit is JOINING and its path is measured (R106, R121). -/
def State.discRouted (s : State) (l : Nat) (d : Disc) : State :=
  let s := s.updUnit d.home (fun u =>
    { u with status := .joining, rgen := 0, bridged := d.viaBridge, homed := !d.viaBridge, armed := d.viaBridge
             bpos := if d.viaBridge then d.pos else 0, serialLo := d.idents.getD 1 0, serialHi := d.idents.getD 2 0
             ident := d.idents, dueHome := false, dueBridged := false, staleRun := 0 })
  let s := if d.viaBridge then
      s.updPair (l / 2) (fun p => { p with state := if p.state = .normal then .bridged else p.state, broken := if p.state = .normal then partner l else p.broken
                                           moved := p.moved ++ [d.home], found := p.found + 1 })
    else s
  s.updDisc l (fun d => { d with probing := true, fails := 0, delays := [], probes := 0 })

/-- The bridged position of home address h: 8 + (n − 1 − p) (R102). -/
def State.bposOf (s : State) (h : Nat) : Nat := 8 + (s.stringLen (h / 8) - 1 - h % 8)

/-- An OK answer to a step of discovery (R106). -/
def State.discOk (s : State) (l : Nat) (d : Disc) (why : SvcWhy) (data : Word) : State :=
  match why with
  | .ident w =>
    let d := { d with idents := d.idents ++ [data], fails := 0 }
    let s := s.updDisc l (fun _ => d)
    if w < 7 then s.discAsk l d (.ident (w + 1))
    else if s.identityOk d.home d.idents then s.discAsk l d .assignHome else s.discReject l d.home
  | .assignHome => (s.updDisc l (fun d => { d with fails := 0 })).discAsk l d .assignRoute
  | .assignRoute => s.discRouted l d
  | .recheckSerial => if data = d.idents.getD 1 0 then s.discRouted l d else s.discAsk l d .assignRoute
  | .holdDisc false =>
    let s := s.updUnit d.home (fun u => { u with dueHome := true })
    if (s.pair (l / 2)).bridgeOk then
      let s := s.updUnit d.home (fun u => { u with bpos := s.bposOf d.home })
      (s.updDisc l (fun d => { d with fails := 0 })).sendHold d.home true (.holdDisc true)
    else s.updLane l (fun a => { a with disc := none })
  | .holdDisc true =>
    (s.updUnit d.home (fun u => { u with dueBridged := true, armed := true })).updLane l (fun a => { a with disc := none })
  | _ => s

/-- A service transaction of lane l has ended with a final status: 0 OK, another status, or 0x3F when it was abandoned
(R91, R92). -/
def State.svcEnd (s : State) (l : Nat) (why : SvcWhy) (status : Nat) (data : Word) : State :=
  let s := s.updLane l (fun a => { a with svc := none })
  match why with
  | .ident _ | .assignHome | .recheckSerial | .assignRoute | .holdDisc _ =>
    match (s.lane l).disc with
    | none => s
    | some d => if status = 0 then s.discOk l d why data else s.discFail l d why status
  | .hold h b => if status = 0 then s.updUnit h (fun u => if b then { u with dueBridged := true, armed := true } else { u with dueHome := true }) else s
  | .reassign h b g =>
    if status = 0 then s.updUnit h (fun u => { u with bridged := b, rgen := g, staleRoute := 0, homed := u.homed || !b, armed := u.armed || b }) else s
  | .arm h => if status = 0 then s.updUnit h (fun u => { u with armed := true, dueBridged := true, holdBridged := 0 }) else s
  | .turnRelease _ | .countersClear => s
  | .profileLoad _ _ | .profileCheck _ _ => s.profResult why status data

/-- The service block of a delivered frame: an answer to the transaction outstanding, with a valid SCRC, its DIR, ADDR and
TAG (R90, R91). BUSY leaves it outstanding. (DEDUCED, log 15.) -/
def State.svcAnswer (s : State) (l : Nat) (b : Option DWord) : State :=
  match b, (s.lane l).svc with
  | some w, some v =>
    if scrcOk w && rec64 w 63 63 = 1 && rec64 w 62 58 = v.rq.addr && rec64 w 51 48 = v.tag && rec64 w 57 52 ≠ 1 then
      s.svcEnd l v.rq.why (rec64 w 57 52) (BitVec.ofNat 32 (rec64 w 47 16))
    else s
  | _, _ => s

/-- TURN_POS and TURN_CAUSE of a delivered frame (R73, R118, R133). -/
def State.turnSeen (s : State) (l : Nat) (b : Option DWord) : State :=
  match b with
  | some w =>
    if crc8Ok 0x3C w then
      let cause := rec64 w 42 42 = 1
      s.updLane l (fun a => { a with turnPos := rec64 w 47 43, turnCause := cause
                                     turns := ((if cause then rec64 w 47 43 + 1 else 32) :: a.turns).take 4 })
    else s.updLane l (fun a => { a with turns := (32 :: a.turns).take 4 })
  | none => s.updLane l (fun a => { a with turns := (32 :: a.turns).take 4 })

/-- The slots of a frame sent, as received: every slot is classified (R83). -/
def State.receiveSlots (s : State) (l : Nat) (f : Sent) (content : List (Option DWord)) : State :=
  let s := (List.range 8).foldl (fun s i =>
    let sent := (f.blocks.drop (2 + 4 * i)).take 4
    let got := (content.drop (1 + 4 * i)).take 4
    match f.homes.getD i none with
    | some h => s.receiveSlot l f.k h (f.kind = 2) sent got
    | none => s.receiveSpare l sent got) s
  s.missPhase l f.k f.kind

/-- The oldest frame of lane l in flight leaves the list of frames in flight and counts as delivered (R145). -/
def State.dropFlight (s : State) (l : Nat) (f : Sent) : State :=
  (s.updLane l (fun a => { a with inflight := a.inflight.drop 1 })).celDelivered l f.k

/-- A returning frame without a valid header in its window: HDR_RX_BAD, and every slot ABSENT (R489). After four the return
offset is searched again. -/
def State.frameMissed (s : State) (l : Nat) (f : Sent) : State :=
  let s := s.laneCount l 2
  let s := s.updLane l (fun a => { a with darkRun := min 4 (a.darkRun + 1), turns := (0 :: a.turns).take 4
                                          returnOfs := if 3 ≤ a.darkRun then none else a.returnOfs })
  (s.receiveSlots l f []).dropFlight l f

/-- The 40 line blocks received in a frame period of lane l: the invalid and unknown ones are counted wherever they stand, and a valid
header of any EPOCH shows that the path lives (R65, R68, R98, R125). -/
def State.lineSeen (s : State) (l : Nat) (blocks : List LineBlock) : State :=
  let bs := blocks.take 40
  let s := (s.laneCount l 0 (invalidCount bs)).laneCount l 3 (unknownCount bs)
  s.updLane l (fun a => { a with badThis := a.badThis || invalidCount bs ≠ 0, hdrThis := a.hdrThis || (a.locked && bs.any isHeader) })

/-- The oldest frame in flight of lane l, whose header stands at position i of the blocks received: its insertions, its turn, its slots
and its service block (R83, R85, R91, R98, R118). -/
def State.frameDelivered (s : State) (l : Nat) (f : Sent) (blocks : List LineBlock) (i : Nat) : State :=
  let p := parseContent (contentRegion blocks f.k i) {}
  let s := s.laneCount l 4 p.inserts
  let s := if p.content.length < 34 then (s.laneCount l 5).latch R.LNK_CAUSE 0 else s
  let s := s.updLane l (fun a => { a with darkRun := 0 })
  let s := s.turnSeen l (p.content.getD 0 none)
  let s := s.receiveSlots l f p.content
  (s.svcAnswer l (p.content.getD 33 none)).dropFlight l f

/-- Lane l delivers the frames it launched: it is active and not muted (R145, R415). -/
def State.delivering (s : State) (l : Nat) : Bool := s.laneActive l && !s.ref.muted

/-- The position of the header of the oldest frame in flight among the blocks received in its window; none is found on a lane that
delivers nothing, before R_L is set, or without block lock (R489). -/
def State.headerAt (s : State) (l : Nat) (blocks : List LineBlock) : Option Nat :=
  match (s.lane l).inflight with
  | [] => none
  | f :: _ => if s.delivering l && (s.lane l).returnOfs.isSome && (s.lane l).locked then findHeader blocks f.k else none

/-- A frame that does not come back: it counts in HDR_RX_BAD and has every slot ABSENT; on a lane that has become inactive or muted it
counts as delivered with every slot ABSENT (R145, R415, R489). -/
def State.frameLost (s : State) (l : Nat) (f : Sent) : State :=
  if s.delivering l then s.frameMissed l f else (s.receiveSlots l f []).dropFlight l f

/-- A returning frame is delivered and each slot is classified and passed to the Cellar; a frame without its header in the window has
every slot ABSENT (R83, R489). The blocks are the 40 of the frame period from two before the expected header position, and those up to
two after the next one's. (DEDUCED, log 15.) -/
def execReturnFrameReceive (l : Nat) (blocks : List LineBlock) (s : State) : Out :=
  let at_ := s.headerAt l blocks
  let s := s.lineSeen l blocks
  match (s.lane l).inflight with
  | [] => .next s
  | f :: _ => .next (match at_ with
    | none => s.frameLost l f
    | some i => s.frameDelivered l f blocks i)

/-- No valid header is found within the window of the oldest frame in flight: the blocks of its period are counted, and every slot is
ABSENT (R98, R489). (DEDUCED, log 15.) -/
def execHeaderWindowMiss (m : MissedFrame) (s : State) : Out :=
  if (s.headerAt m.lane m.blocks).isSome then .next s else execReturnFrameReceive m.lane m.blocks s

/-- The search finds two valid return headers with consecutive EPOCH values, 40 blocks apart, and sets R_L (R489). -/
def execReturnOffsetAcquire (l ofs : Nat) (first second : LineBlock) (s : State) : Out :=
  let e := BitVec.ofNat 48 (rec64 first.payload 55 40)
  if s.laneActive l ∧ (s.lane l).locked ∧ (s.lane l).returnOfs = none ∧ headerFor first e ∧ headerFor second (e + 1) then
    .next (s.updLane l (fun a => { a with returnOfs := some ofs, darkRun := 0 }))
  else .next s

/-- The device receiver of lane l loses block lock (R64, R98): 16 of at most 64 consecutive sync headers are invalid.
(PRESUMED, log 31: the counts of the Clause 49 state machine.) Lane 512 + p stands for the receiver of station port p, which runs under the
same clause (R357, R368). (DESIGN CHOICE, log 29.) -/
def execLockLoss (x : LockLost) (s : State) : Out :=
  let l := x.lane
  let lost : Bool := x.syncs.length ≤ 64 && 16 ≤ x.syncs.countP (fun x => x ≠ 1 && x ≠ 2)
  if 512 ≤ l then
    .next (if lost && bit s.saf.link (l - 512) then { s with saf := { s.saf with link := s.saf.link - 2 ^ (l - 512) } } else s)
  else if (s.lane l).locked ∧ lost then
    let s := s.updLane l (fun a => { a with locked := false, badThis := true })
    .next (if s.laneActive l then (s.laneCount l 1).latch R.LNK_CAUSE 3 else s.laneCount l 1)
  else .next s

/-- The block-lock state machine of Clause 49 acquires lock after 64 consecutive valid sync headers (R64). (PRESUMED, log 31.) Lane
512 + p stands for the receiver of station port p (R357, R368). (DESIGN CHOICE, log 29.) -/
def execBlockLockAcquire (l : Nat) (syncs : List Nat) (s : State) : Out :=
  if 64 ≤ syncs.length ∧ (syncs.take 64).all (fun x => x = 1 || x = 2) then
    if 512 ≤ l then .next (if s.saf.running then { s with saf := { s.saf with link := s.saf.link ||| 2 ^ (l - 512) } } else s)
    else .next (s.updLane l (fun a => { a with locked := true }))
  else .next s

/-- No final status within TIMEOUT frames after that of the request: the request is repeated with the same TAG, in the next frame that
the lane launches, or abandoned after RETRIES (R91). -/
def execSvcTimeout (l : Nat) (s : State) : Out :=
  match (s.lane l).svc with
  | none => .next s
  | some v =>
    if s.rf R.LNK_SVC_CFG 15 8 < v.frames then
      if v.tries < s.rf R.LNK_SVC_CFG 3 0 then
        .next ((s.updLane l (fun a => { a with svc := some { v with frames := 0, tries := v.tries + 1 } })).laneCount l 13)
      else .next (((s.laneCount l 14).latch R.LNK_CAUSE 2).svcEnd l v.rq.why 0x3F 0)
    else .next s

/-- Starts the discovery of a home address on lane l at a position (R106). -/
def State.discBegin (s : State) (l h p : Nat) (viaBridge : Bool) : State :=
  let d : Disc := ⟨h, p, viaBridge, [], 0, [], 0, false⟩
  (s.updLane l (fun a => { a with disc := some d })).discAsk l d (.ident 0)

/-- Discovery of the lowest NOT_STARTED position begins once the unit below it is PRESENT (R106). (DEDUCED, log 16.) -/
def execDiscoveryStart (l : Nat) (s : State) : Out :=
  match s.lowestNew l with
  | none => .next s
  | some p =>
    if s.laneActive l ∧ s.discovering ∧ (s.pair (l / 2)).state = .normal ∧ (s.lane l).disc = none ∧ (s.lane l).discStopped = false ∧
        s.belowPresent l p then
      .next (s.discBegin l (l * 8 + p) p false)
    else .next s

/-- The BLOCK block pair that a firing at a position of the epoch, in ns, inserts at the next block boundary of a lane that launches
(R84, R87, R291). A frame leaves T_LANE after the boundary of its epoch; a pair that would displace a header follows it, and one that no
frame launched so far can hold waits for the next. (DEDUCED, log 15.) -/
def State.insertBlock (s : State) (ns l : Nat) : State :=
  let a := s.lane l
  let p := ((ns * s.finePerNs + 16384 - a.tLane) * 40 + 16383) / 16384
  let now : Bool := a.launchedAt = some s.sys.epoch
  let before := if now then a.lineBefore else if a.launchedAt = some (s.sys.epoch - 1) then a.line else idleLine
  let q := max 1 (p - 40)
  s.updLane l (fun a =>
    if p < 39 then
      (if now then { a with lineBefore := insertBlocks before p }
       else { a with line := insertBlocks before p, launchedAt := some (s.sys.epoch - 1) })
    else if now && q < 39 then { a with line := insertBlocks a.line q }
    else { a with blockDue := true })

/-- BLOCK goes out on every active lane (R87, R291); a muted lane sends no light (R413). -/
def State.sendBlocks (s : State) (ns : Nat) : State :=
  if s.launching then s.activeLanes.foldl (fun s l => s.insertBlock ns l) s else s

/-- The positions assigned on lane l, in rising order (R108). -/
def State.assigned (s : State) (l : Nat) : List Nat :=
  (List.range 16).filter (fun p =>
    if p < 8 then (s.unit (l * 8 + p)).homed && !(s.unit (l * 8 + p)).bridged && (s.unit (l * 8 + p)).status ≠ .rejected
    else match s.bridgedAt l p with | some h => (s.unit h).bridged | none => false)

/-- A probe of the round over the assigned positions is due on lane l: one every PROBE_PERIOD ep (R108). -/
def State.roundDue (s : State) (l : Nat) : Bool :=
  match (s.lane l).probeAt with
  | none => true
  | some e => s.rf R.LNK_TRIM_CFG 23 16 ≤ (s.sys.epoch - e).toNat

/-- The next position of the round over the positions assigned on lane l (R108). -/
def State.roundTarget (s : State) (l : Nat) : Option Nat :=
  let ps := s.assigned l
  match ps.find? (fun p => (s.lane l).probeNext ≤ p) with
  | some p => some p
  | none => ps.head?

/-- The position that discovery on lane l measures, while its probes last (R106). -/
def State.discTarget (s : State) (l : Nat) : Option Nat :=
  match (s.lane l).disc with
  | some d => if d.probing && d.probes < 8 then some d.pos else none
  | none => none

/-- The next probe of lane l: its target, and whether it is one of the round; the round goes on during a discovery, whose own probes
take the epochs between (R106, R108). -/
def State.probeTarget (s : State) (l : Nat) : Option (Nat × Bool) :=
  match if s.roundDue l then s.roundTarget l else none with
  | some p => some (p, true)
  | none => (s.discTarget l).map (fun p => (p, false))

/-- The lane's line can take a probe: its frame of the present epoch is yet to be launched, or has an IDLE left in its gap (R84). -/
def State.probeFits (s : State) (l : Nat) : Bool :=
  (s.lane l).launchedAt ≠ some s.sys.epoch || (gapIdle (s.lane l).line).isSome

/-- A probe to position p goes into the lane's frame of the present epoch: at once where it has been launched, else at its launch
(R84, R88). -/
def State.placeProbe (s : State) (l p : Nat) : State :=
  s.updLane l (fun a =>
    let q := (a.probeSeq + 1) % 256
    let line := match if a.launchedAt = some s.sys.epoch then gapIdle a.line else none with
      | some i => a.line.set i (ctlBlock (probeBlock p q l))
      | none => a.line
    { a with probe := some ⟨p, q, s.sys.epoch⟩, probeSeq := q, line := line })

/-- A STRIKE-SYNC probe is sent on an active lane in a gap position; none in holdover (R84, R108, R415). -/
def execProbeSend (l : Nat) (s : State) : Out :=
  match s.probeTarget l with
  | none => .next s
  | some (p, round) =>
    if s.laneActive l ∧ s.launching ∧ s.idleOnly l = false ∧ s.ref.state = .locked ∧ s.sys.conv ≠ .off ∧ (s.lane l).probe = none ∧
        s.probeFits l then
      let s := s.placeProbe l p
      let s := if round then s.updLane l (fun a => { a with probeAt := some s.sys.epoch, probeNext := p + 1 }) else s
      .next (s.updDisc l (fun d => if d.probing && d.pos = p then { d with probes := d.probes + 1 } else d))
    else .next s

/-- Twice O_p of one probe, in fine steps: 2 T_TX + RT − RESID − T_TX − T_RX (R110). -/
def twiceO (l rt resid : Nat) : Int := (Config.tTx l : Int) + rt - resid - Config.tRx l

/-- The unit at a position of lane l, and whether it stands on its bridged route there. -/
def State.unitAtPos (s : State) (l p : Nat) : Option (Nat × Bool) :=
  if p < 8 then some (l * 8 + p, false) else (s.bridgedAt l p).map (fun h => (h, true))

/-- A route of a unit has its hold offset in force (R116). -/
def UnitSt.routeHeld (u : UnitSt) (bridged : Bool) : Bool := if bridged then u.dueBridged else u.dueHome

/-- The drift correction of R115: after four probes beyond DRIFT the stored delay and hold offset move by at most 2 fine
steps toward the measurement, at most once per 4,096 ep; every correction is sent. A route left without a hold offset is given none by
it (R112, R114). -/
def State.drift (s : State) (h : Nat) (b : Bool) (o : Nat) : State :=
  let u := s.unit h
  let old := if b then u.oBridged else u.oHome
  let diff : Int := (o : Int) - old
  let beyond := s.rf R.LNK_TRIM_CFG 15 8 < diff.natAbs
  let s := s.updUnit h (fun u => { u with driftRun := if beyond then min 4 (u.driftRun + 1) else 0 })
  let s := if 64 < diff.natAbs then (s.latch R.LNK_STR_CAUSE 2).prtEvent 70 else s
  let free := match u.driftAt with | none => true | some e => 4096 ≤ (s.sys.epoch - e).toNat
  if beyond && 3 ≤ u.driftRun && free then
    let d := clampInt (-2) 2 diff
    let new := ((old : Int) + d).toNat
    let s := s.updUnit h (fun u =>
      let u := { u with driftRun := 0, driftAt := some s.sys.epoch }
      if b then { u with oBridged := new } else { u with oHome := new })
    if u.routeHeld b then s.putHold h b (.hold h b) else s
  else s

/-- The delay of a probed unit that is not in discovery: drift in RUN (R115); a first measurement of a route otherwise, as
in bridge verification (R120). -/
def State.delaySeen (s : State) (h : Nat) (b : Bool) (o : Nat) : State :=
  let u := s.unit h
  if s.sys.conv = .run then s.drift h b o
  else if (if b then u.oBridged else u.oHome) = 0 ∨ s.lnk.action.isSome then
    s.updUnit h (fun u => if b then { u with oBridged := o } else { u with oHome := o })
  else s

/-- The discovery of lane l that measures position p (R106). -/
def State.discOf (s : State) (l p : Nat) : Option Disc :=
  match (s.lane l).disc with
  | some d => if d.probing && d.pos = p then some d else none
  | none => none

/-- The echo of the outstanding probe of lane l arrives rt fine steps after the probe's launch (R88, R108, R110). In discovery the eighth
probe without four echoes rejects the position (R106). -/
def execEchoReceive (l : Nat) (echo : LineBlock) (rt : Nat) (s : State) : Out :=
  match (s.lane l).probe with
  | none => .next s
  | some p =>
    let w := echo.payload
    if echo.sync = 2 ∧ ctlKind w = .strikeSync ∧ rec64 w 55 55 = 1 ∧ rec64 w 54 51 = p.target ∧ rec64 w 50 43 = p.seq ∧ rec64 w 42 34 = l then
      let o2 := twiceO l rt (rec64 w 33 20)
      let s := s.updLane l (fun a => { a with probe := none })
      match s.discOf l p.target with
      | some d =>
        let d := { d with delays := d.delays ++ [o2] }
        let s := s.updDisc l (fun _ => d)
        .next (if d.delays.length = 4 then s.discMeasured l d else if 8 ≤ d.probes then s.discReject l d.home else s)
      | none => match s.unitAtPos l p.target with
        | some (h, b) => .next (s.delaySeen h b ((o2 + 1) / 2).toNat)
        | none => .next s
    else .next s

/-- A probe whose echo has not arrived within 2 frames increments PROBE_LOST; in discovery eight probes without four echoes
reject the position (R106, R108). -/
def execProbeLost (l : Nat) (s : State) : Out :=
  match (s.lane l).probe with
  | none => .next s
  | some p =>
    if 2 ≤ (s.sys.epoch - p.sent).toNat then
      let s := (s.updLane l (fun a => { a with probe := none })).laneCount l 19
      match s.discOf l p.target with
      | some d => .next (if 8 ≤ d.probes then s.discReject l d.home else s)
      | none => .next s
    else .next s

/-- A header run is pending or in progress, so that a lead change is deferred (R167). -/
def State.runPending (s : State) : Bool :=
  (List.range 4).any (fun i => match (s.crate i).runAt with
    | some f => (s.crate i).state ≠ .free && !epGe s.sys.epoch (f + 4)
    | none => false)

/-- The lead and T_LANE of lane l are recomputed, and HOLD_OFFSET is queued for every route that its units hold (R112–R114). -/
def State.retrim (s : State) (l : Nat) : State :=
  let m := s.marginNew
  let s := if (s.laneRoutes l).any (fun r => !fits12 (s.routeQ m r)) then s.leadLong else s
  match s.leadTrim l with
  | none => s
  | some (lead, t) =>
    let s := s.updLane l (fun a => { a with lead := lead, tLane := t, qMargin := some m })
    (s.laneRoutes l).foldl (fun s r => if fits12 (s.routeQ m r) then s.putHold r.1 r.2 (.hold r.1 r.2) else s) s

/-- A lane's lead and T_LANE change at a boundary in CHARGE or READY, when its string has no NOT_STARTED address left
(R114), and no header run is pending (R167). -/
def execLeadTrimChange (l : Nat) (s : State) : Out :=
  if (s.sys.conv = .charge ∨ s.sys.conv = .ready) ∧ s.lowestNew l = none ∧ s.runPending = false then .next (s.retrim l) else .next s

end Sys2Proof.Machine
end

