-- ==== Sys2Proof/Machine/Strings.lean ====
section
/-! DEFINITION. The strings (chapter 04): cut-off units, route reassignment, bridges and their verification, hand-over,
hand-back, quarantine, the string actions and the table window. -/

namespace Sys2Proof.Machine

/-- The position of unit h on its route in force (R102). -/
def State.positionOf (s : State) (h : Nat) : Nat := if (s.unit h).bridged then (s.unit h).bpos else h % 8

/-- The home addresses of the units that lane l serves, in rising order. -/
def State.laneUnits (s : State) (l : Nat) : List Nat :=
  ((List.range 8).map (l * 8 + ·) ++ (List.range 8).map (partner l * 8 + ·)).filter (fun h =>
    s.servedOn h = l && ((s.unit h).homed || (s.unit h).armed) && mapExpected (s.mapEntry h))

/-- Position p of lane l is cut off: each of the last four returned frames was turned below it or had no valid header
(R118). -/
def State.cutOffAt (s : State) (l p : Nat) : Bool :=
  (s.lane l).turns.length = 4 && (s.lane l).turns.all (· ≤ p)

/-- The whole lane is dark: its last four returned frames had no valid header (R118). -/
def State.laneDark (s : State) (l : Nat) : Bool := (s.lane l).turns.length = 4 && (s.lane l).turns.all (· = 0)

/-- The units of lane l that are cut off (R118, R128). (DEDUCED, log 16.) -/
def State.cutOffUnits (s : State) (l : Nat) : List Nat :=
  (s.laneUnits l).filter (fun h => (s.lane l).quar || s.cutOffAt l (s.positionOf h))

/-- A cut-off unit becomes UNOBSERVED at once (R118). -/
def State.unobserve (s : State) (h : Nat) : State :=
  s.updUnit h (fun u => { u with status := if u.hasHold ∧ (u.status = .present ∨ u.status = .joining) then .unobserved else u.status })

/-- Four consecutive frames with a turn below a unit, or with no header, cut the units off (R118). -/
def execCutOff (l : Nat) (s : State) : Out := .next ((s.cutOffUnits l).foldl State.unobserve s)

/-- STALE_RUN has reached 16: the unit becomes UNOBSERVED (R117). -/
def execUnitUnobserved (h : Nat) (s : State) : Out :=
  let u := s.unit h
  .next (if 16 ≤ u.staleRun ∧ (u.status = .present ∨ u.status = .joining ∨ u.status = .moving) then
    s.updUnit h (fun u => { u with status := .unobserved }) else s)

/-- ASSIGN_ROUTE DATA for a route of unit h with a generation (R92, R102). -/
def State.routeData (s : State) (h : Nat) (bridged : Bool) (rgen : Nat) : Nat :=
  let l := h / 8
  if bridged then partner l * 2 ^ 23 + (s.unit h).bpos * 2 ^ 19 + rgen * 2 ^ 15
  else l * 2 ^ 23 + h % 8 * 2 ^ 19 + rgen * 2 ^ 15 + b2n (h % 8 + 1 = s.stringLen l) * 2 ^ 14

/-- After 64 due epochs of STALE_ROUTE records at one route slot, the device reassigns that route by ASSIGN_ROUTE with the
received RGEN + 1 (R119). -/
def execRouteReassign (h : Nat) (s : State) : Out :=
  let u := s.unit h
  if 64 ≤ u.staleRoute then
    let g := (u.staleRgen + 1) % 16
    let l := if u.staleVia then partner (h / 8) else h / 8
    let addr := if u.staleVia then u.bpos else h % 8
    let s := s.updUnit h (fun u => { u with staleRoute := 0 })
    .next (s.svcAsk l (.reassign h u.staleVia g) addr 0x03 (s.routeData h u.staleVia g))
  else .next s

/-- The result of a string action or GO, with its cause (R135). -/
def State.strResult (s : State) (r : Nat) : State :=
  let s := s.setReg R.LNK_ACTION_STAT (BitVec.ofNat 32 r)
  if r = 1 then s else s.latch R.LNK_STR_CAUSE 8

/-- Runs a string action: one at a time, and none without ownership (R135, R394). -/
def State.strAction (s : State) (r : Requester) (f : State → State) : State :=
  s.asOwner r R.LNK_ACTION (fun s => if s.lnk.action.isSome then s.strResult 3 else f s)

/-- Step 1 of R120 for one direction: every unit of the moving lane is armed on its bridged route with offset 0. -/
def State.verifyArm (s : State) (lane moving half : Nat) : State :=
  let homes := (List.range (s.stringLen moving)).map (moving * 8 + ·)
  let s := homes.foldl (fun s h =>
    let s := s.updUnit h (fun u => { u with bpos := s.bposOf h, armed := false, dueBridged := false, oBridged := 0 })
    s.svcAsk moving (.arm h) (h % 8) 0x04 (2 ^ 31 + s.bposOf h * 2 ^ 27)) s
  { s with lnk := { s.lnk with action := some ⟨1, lane, moving, half, 1, s.sys.epoch⟩ } }

/-- BRIDGE_VERIFY is permitted (R120). -/
def State.verifyAllowed (s : State) (l : Nat) : Bool :=
  let m := l / 2
  let full (x : Nat) : Bool := (List.range 8).all (fun p => !s.expectedAt x p || (s.unit (x * 8 + p)).status = .present)
  (s.sys.conv = .charge || s.sys.conv = .ready) && s.bridgeFitted m && s.laneActive (2 * m) && s.laneActive (2 * m + 1) &&
    (s.pair m).state = .normal && full (2 * m) && full (2 * m + 1)

/-- The BRIDGE_VERIFY action on a lane of a pair starts, or is refused (R120). -/
def State.bridgeVerify (s : State) (l : Nat) : State :=
  if s.verifyAllowed l then (s.strResult 1).verifyArm l (l / 2 * 2) 0 else s.strResult 3

/-- Step 2 of R120: only IDLE on the moving lane, bridged frames on the other; the units move over. PAIR_STATE, DARK and SERVING during a
verification are not stated: they show BRIDGED with the moving lane dark, and HANDBACK on the way home. (DESIGN CHOICE, log 44.) -/
def State.verifyMove (s : State) (a : LnkAction) : State :=
  let m := a.moving / 2
  let homes := (List.range (s.stringLen a.moving)).map (a.moving * 8 + ·)
  let s := s.updPair m (fun p => { p with state := .bridged, broken := a.moving, dark := true, moved := homes, h0 := s.sys.epoch })
  let s := homes.foldl (fun s h => s.updUnit h (fun u => { u with status := .moving })) s
  { s with lnk := { s.lnk with action := some { a with step := 2, at_ := s.sys.epoch } } }

/-- A unit that a hand-over or hand-back moves is MOVING. A LOST unit stays LOST, as R104 has it, where R123 and R126 name every unit
moved; a REJECTED or RETIRED one keeps its status too. (DESIGN CHOICE, log 44.) -/
def State.setMoving (s : State) (h : Nat) : State :=
  s.updUnit h (fun u =>
    { u with status := if u.status = .present ∨ u.status = .joining ∨ u.status = .unobserved then .moving else u.status })

/-- The moved units of pair m go back: the pair is HANDBACK, its moved units are MOVING, and the broken lane launches normal
frames again or the turning unit is released (R126). -/
def State.handback (s : State) (m : Nat) : State :=
  let p := s.pair m
  let s := s.updPair m (fun p => { p with state := .handback, hbAt := s.sys.epoch, flapped := false, home := [], released := [] })
  let s := p.moved.foldl State.setMoving s
  if p.dark then s
  else
    let t := (s.lane p.broken).turnPos
    s.svcAsk p.broken (.turnRelease (p.broken * 8 + t)) t 0x05 0

/-- A verification ends with a result: the bridge counts as verified after OK only, and the units go back when the pair is not NORMAL
(R120, R130). (DEDUCED, log 16.) -/
def State.verifyEnd (s : State) (a : LnkAction) (result : Nat) : State :=
  let m := a.moving / 2
  let s := { s with lnk := { s.lnk with action := none } }
  let s := (s.strResult result).updPair m (fun p => { p with bridgeOk := result = 2 })
  if (s.pair m).state = .bridged then s.handback m else s

/-- The leads of both lanes of pair m are recomputed, where a lead may change (R114). -/
def State.retrimPair (s : State) (m : Nat) : State :=
  if s.sys.conv = .charge ∨ s.sys.conv = .ready then (s.retrim (2 * m)).retrim (2 * m + 1) else s

/-- A verification has failed: the bridge is not verified, and the leads cover the home routes only (R120). (DEDUCED, log 16.) -/
def State.verifyFail (s : State) (a : LnkAction) (result : Nat) : State :=
  ((s.updPair (a.moving / 2) (fun p => { p with bridgeOk := false })).retrimPair (a.moving / 2)).verifyEnd a result

/-- A unit has not moved within 64 ep of step 2: verification ends with NO_PATH (R120); its change of leads waits for a header run in
progress (R167). -/
def execBridgeVerifyNoPath (s : State) : Out :=
  match s.lnk.action with
  | some a =>
    let homes := (List.range (s.stringLen a.moving)).map (a.moving * 8 + ·)
    .next (if a.code = 1 ∧ a.step = 2 ∧ 64 ≤ (s.sys.epoch - a.at_).toNat ∧ homes.any (fun h => (s.unit h).bridged = false) ∧
        s.runPending = false then
      s.verifyFail a 4 else s)
  | none => .next s

/-- Step 6 of R120: R112 to R114 for both lanes with the bridged routes counted; TOO_LONG when a lead would exceed 12 ep. -/
def State.verifyFinish (s : State) (a : LnkAction) : State :=
  let m := a.moving / 2
  let t := s.updPair m (fun p => { p with bridgeOk := true })
  let long := [2 * m, 2 * m + 1].any (fun l => (t.laneRoutes l).any (fun r => !fits12 (t.routeQ t.marginNew r)))
  if long then s.verifyFail a 5 else (t.retrimPair m).verifyEnd a 2

/-- The verification in progress takes its next step when the present one is complete (R120). Not stated are the result when its
hand-back aborts, which is FAILED, and what ends it when a unit that moved never becomes PRESENT or never echoes: it then lasts until the
converter leaves CHARGE and READY. (DESIGN CHOICE, log 44.) -/
def State.verifyStep (s : State) (a : LnkAction) : State :=
  let m := a.moving / 2
  let homes := (List.range (s.stringLen a.moving)).map (a.moving * 8 + ·)
  let asking := match (s.lane a.moving).svc with
    | some v => (match v.rq.why with | .arm _ => true | _ => false)
    | none => false
  let waiting := (s.lane a.moving).svcQ.any (fun q => match q.why with | .arm _ => true | _ => false)
  let goto (s : State) (k : Nat) : State := { s with lnk := { s.lnk with action := some { a with step := k } } }
  if ¬ (s.sys.conv = .charge ∨ s.sys.conv = .ready) then s.verifyEnd a 6
  else if a.step = 1 then (if asking || waiting then s else s.verifyMove a)
  else if a.step = 2 then (if homes.all (fun h => (s.unit h).bridged && (s.unit h).status = .present) then goto s 3 else s)
  else if a.step = 3 then (if homes.all (fun h => (s.unit h).oBridged ≠ 0) then goto (s.handback m) 4 else s)
  else if a.step = 4 then
    (match (s.pair m).state with
    | .normal => if a.half = 0 then s.verifyArm a.lane (partner a.moving) 1 else goto s 6
    | .handback => s
    | _ => s.verifyEnd a 6)
  else if s.runPending then s else s.verifyFinish a

/-- CLEAR_QUARANTINE on a lane: its quarantine ends and its flap history is cleared (R128). -/
def State.clearQuarantine (s : State) (l : Nat) : State :=
  (s.updLane l (fun a => { a with quar := false, flaps := [] })).strResult 2

/-- CLEAR_COUNTERS of the named lane only (R133). -/
def State.clearCounters (s : State) (l : Nat) : State := (s.updLane l (fun a => { a with counters := [] })).strResult 2

/-- CLEAR_LOST, in READY only: LOST units of the lane return to JOINING (R104). (DEDUCED, log 16.) -/
def State.clearLost (s : State) (l : Nat) : State :=
  if s.sys.conv = .ready then
    ((List.range 8).foldl (fun s p => s.updUnit (l * 8 + p) (fun u =>
      if u.status = .lost then { u with status := .joining, staleRun := 0 } else u)) s).strResult 2
  else s.strResult 3

/-- RETRIM, in CHARGE or READY only; it waits for a header run in progress (R114, R167). -/
def State.retrimAction (s : State) (l : Nat) : State :=
  if s.sys.conv = .charge ∨ s.sys.conv = .ready then
    if s.runPending then
      { s with lnk := { s.lnk with action := some ⟨5, l, l, 0, 0, s.sys.epoch⟩ } }.strResult 1
    else (s.retrim l).strResult 2
  else s.strResult 3

/-- The string action that a write of LNK_ACTION names (R135). -/
def State.lnkAction (s : State) (r : Requester) (code l : Nat) : State :=
  s.strAction r (fun s => match code with
    | 1 => s.bridgeVerify l
    | 2 => s.clearQuarantine l
    | 3 => s.clearCounters l
    | 4 => s.clearLost l
    | 5 => s.retrimAction l
    | _ => s.strResult 3)

/-- A lane on which discovery has not stopped begins the discovery of the next unit of its partner through the bridge (R106, R121). -/
def execBridgeDiscovery (l : Nat) (s : State) : Out :=
  let x := partner l
  let p := s.pair (l / 2)
  let h := x * 8 + (s.stringLen x - 1 - p.found)
  if s.servesDiscovery l ∧ s.laneActive l ∧ (s.lane l).disc = none ∧ (s.lane l).discStopped = false ∧
      (p.state = .normal ∨ (p.state = .bridged ∧ p.broken = x)) ∧ p.found < s.stringLen x ∧ (s.unit h).status = .notStarted then
    .next (s.discBegin l h (8 + p.found) true)
  else .next s

/-- The broken lane of a pair whose hand-over may start (R123); the units of a quarantined lane are handled by R117 (R128). -/
def State.handoverLane (s : State) (m : Nat) : Option Nat :=
  [2 * m, 2 * m + 1].find? (fun b =>
    let v := partner b
    (s.pair m).state = .normal && (s.pair m).bridgeOk && s.sys.conv ≠ .off && !(s.lane b).quar && !(s.cutOffUnits b).isEmpty &&
      s.laneActive v && (s.cutOffUnits v).isEmpty && (s.lane v).turnPos + 1 = s.stringLen v && !(s.lane v).turnCause &&
      (s.sys.epoch.toNat + (s.lane v).lead) % 2 = 0)

/-- At H0 the pair goes to HANDOVER, the cut-off units become MOVING, and the serving lane launches bridged frames (R123). -/
def execHandoverStart (m : Nat) (s : State) : Out :=
  match s.handoverLane m with
  | none => .next s
  | some b =>
    let cut := s.cutOffUnits b
    let s := s.updPair m (fun p =>
      { p with state := .handover, broken := b, dark := s.laneDark b, h0 := s.sys.epoch, moved := cut, restoreRun := 0 })
    let s := cut.foldl State.setMoving s
    .next ((s.laneCount b 15).latch R.LNK_STR_CAUSE 4)

/-- At H0 + 16 ep the pair becomes BRIDGED (R124). -/
def execHandoverEnd (m : Nat) (s : State) : Out :=
  let p := s.pair m
  .next (if p.state = .handover ∧ 16 ≤ (s.sys.epoch - p.h0).toNat then s.updPair m (fun p => { p with state := .bridged, restoreRun := 0 }) else s)

/-- A hand-back of pair m may begin (R126): the path has held for 4,096 ep, and every moved unit holds a home route. -/
def State.handbackReady (s : State) (m : Nat) : Bool :=
  let p := s.pair m
  p.state = .bridged && 4096 ≤ p.restoreRun && p.moved.all (fun h => (s.unit h).homed)

/-- GO for the pair of a lane: accepted, or refused (R126). (DEDUCED, log 16.) -/
def State.handbackGo (s : State) (l : Nat) : State :=
  if s.handbackReady (l / 2) then (s.updPair (l / 2) (fun p => { p with go := true })).strResult 1 else s.strResult 3

/-- The hand-back of pair m begins (R126). -/
def execHandbackStart (m : Nat) (s : State) : Out :=
  .next (if s.handbackReady m ∧ ((s.pair m).go ∨ s.rb R.LNK_HANDBACK 16) then s.handback m else s)

/-- The pair is NORMAL again, and its bridged time limit is back at 0 (R126, R129). -/
def State.pairNormal (s : State) (m : Nat) : State :=
  s.updPair m (fun p => { p with state := .normal, dark := false, restoreRun := 0, moved := [], limitEp := 0, expired := false, retire := false, go := false, home := [], released := [] })

/-- The serving lane of pair m launches an even EPOCH in the present epoch (R126). (DEDUCED, log 17.) -/
def State.servingEven (s : State) (m : Nat) : Bool := (s.sys.epoch.toNat + (s.lane (partner (s.pair m).broken)).lead) % 2 = 0

/-- Every moved unit has come home with a fresh record: the serving lane launches normal frames and the pair is NORMAL (R126).
(DEDUCED, log 17.) -/
def execHandbackComplete (m : Nat) (s : State) : Out :=
  let p := s.pair m
  if p.state = .handback ∧ p.moved.all p.home.contains ∧ s.servingEven m then
    let s := (s.pairNormal m).laneCount p.broken 16
    .next (if p.go then s.strResult 2 else s)
  else .next s

/-- A flap, or 256 ep without completion: the pair returns to BRIDGED (R127). The result of a GO that ends so is not stated: it is FAILED.
(DEDUCED, log 17; DESIGN CHOICE, log 44.) -/
def execHandbackAbort (m : Nat) (s : State) : Out :=
  let p := s.pair m
  if p.state = .handback ∧ (p.flapped ∨ 256 ≤ (s.sys.epoch - p.hbAt).toNat) then
    let s := s.updPair m (fun p => { p with state := .bridged, restoreRun := 0, go := false, flapped := false })
    let s := (s.laneCount p.broken 17).latch R.LNK_STR_CAUSE 5
    .next (if p.go then s.strResult 6 else s)
  else .next s

/-- The frames in flight of a lane that delivers nothing any more count as delivered with every slot ABSENT, and a lane that is not
active is searched again when it becomes so (R145, R415, R489). -/
def State.laneFlush (s : State) (l : Nat) : State :=
  let s := if s.delivering l then s else (s.lane l).inflight.foldl (fun s f => s.frameLost l f) s
  if s.laneActive l then s else s.updLane l (fun a => { a with returnOfs := none, darkRun := 0 })

/-- The third flap of a lane within 10 s quarantines it, and the units it serves on their home route are cut off (R128); a quarantined lane
is not active (R100, R489). -/
def execQuarantine (l : Nat) (s : State) : Out :=
  if 3 ≤ (s.lane l).flaps.length ∧ (s.lane l).quar = false then
    let s := ((s.updLane l (fun a => { a with quar := true })).laneFlush l).latch R.LNK_STR_CAUSE 6
    .next (((List.range 8).map (l * 8 + ·)).foldl (fun s h => if (s.unit h).bridged then s else s.unobserve h) s)
  else .next s

/-- The strings as an entry to CHARGE from OFF resets them (R104); no record of this energisation has been written yet (R141). -/
def State.stringsReset (s : State) : State :=
  let s := (s.lnk.lanes.map Prod.fst).foldl (fun s l => s.updLane l (fun a =>
    { a with lead := 12, tLane := 0, svc := none, svcQ := [], disc := none, discStopped := false, discWaitEp := 0,
             probe := none, probeNext := 0, lastK := none, qMargin := none })) s
  { s with lnk := { s.lnk with units := [], pairs := [] }, cel := { s.cel with seen := [] } }

/-- The gap check of every entry to CHARGE (R103). -/
def State.gapCheck (s : State) : State :=
  if (s.mapped.map (· / 8)).any s.laneGap then s.latch R.LNK_STR_CAUSE 0 else s

/-- STR_GAP is raised (R103): a lane has expected entries beyond a gap, and the converter is not in OFF. -/
def State.strGap (s : State) : Bool := s.sys.conv ≠ .off && (s.mapped.map (· / 8)).any s.laneGap

/-- OFF ends every hand-over, hand-back and string action under way (R130). (DEDUCED, log 16.) -/
def State.stringsOff (s : State) : State :=
  let s := s.lnk.pairs.foldl (fun s (m, p) =>
    if p.state = .handover ∨ p.state = .handback then
      (if p.go then s.strResult 6 else s).updPair m (fun p => { p with state := .bridged, go := false, restoreRun := 0 })
    else s) s
  if s.lnk.action.isSome then { s with lnk := { s.lnk with action := none } }.strResult 6 else s

/-- The restore condition of pair m in the epoch that ended (R125). -/
def State.restored (s : State) (m : Nat) : Bool :=
  let p := s.pair m
  let a := s.lane p.broken
  !a.badThis && (if p.dark then a.locked && a.hdrThis
    else match s.entry (p.broken * 8 + a.turnPos) with
      | some e => !bit e.fault 3
      | none => false)

/-- The bridged time limit of pair m runs (R129). -/
def State.limitRuns (s : State) (m : Nat) : Bool :=
  ((s.pair m).state = .bridged || (s.pair m).state = .handback) && (s.sys.conv = .run || s.sys.conv = .hold)

/-- Pair m at a boundary: RESTORE_RUN and flaps (R125), the bridged time limit (R129), and the releases of a hand-back in
turn (R126). (DEDUCED, log 17.) -/
def State.pairBoundary (s : State) (m : Nat) : State :=
  let p := s.pair m
  let watch := p.state = .bridged || p.state = .handback
  let verifying := match s.lnk.action with | some a => a.code = 1 && a.moving / 2 = m | none => false
  let s :=
    if !watch || verifying then s
    else if s.restored m then (if p.flapped then s else s.updPair m (fun p => { p with restoreRun := min 65535 (p.restoreRun + 1) }))
    else
      let s := if p.restoreRun ≠ 0 then
          (s.laneCount p.broken 18).updLane p.broken (fun a => { a with flaps := a.flaps ++ [s.sys.epoch] })
        else s
      s.updPair m (fun q => { q with restoreRun := 0, flapped := q.flapped || (p.restoreRun ≠ 0 && p.state = .handback) })
  let s := if s.limitRuns m then s.updPair m (fun p => { p with limitEp := p.limitEp + 1 }) else s
  if p.state = .handback then
    match p.moved.find? (fun h => !p.released.contains h) with
    | some h =>
      if p.home.contains h then
        let s := s.updPair m (fun p => { p with released := p.released ++ [h] })
        if h % 8 + 1 = s.stringLen (h / 8) then s else s.svcAsk (h / 8) (.turnRelease h) (h % 8) 0x05 0
      else s
    | none => s
  else s

/-- Epochs in 10 s (R128). -/
def State.ep10s (s : State) : Nat := if s.sys.compat then 19531250 else 39062500

/-- The due epoch that ended on a lane that launches no frames is not fresh (R116). -/
def State.laneDue (s : State) (l : Nat) : State :=
  if s.laneActive l && s.launching && !s.idleOnly l then s
  else match (s.lane l).lastK with
    | some j => if epGe j s.sys.epoch then s else s.skippedDue l (s.sys.epoch + 1) |>.updLane l (fun a => { a with lastK := some s.sys.epoch })
    | none => s

/-- Lane l at a boundary: what its frames in flight and its due epochs are when it launches none; flaps older than 10 s leave its
history, the discovery wait of its lowest NOT_STARTED position runs in every state while the unit below it is PRESENT (R121), and the
marks of the epoch are cleared. -/
def State.laneBoundary (s : State) (l : Nat) : State :=
  let s := (s.laneFlush l).laneDue l
  let wait := match s.lowestNew l with | some p => s.belowPresent l p | none => false
  s.updLane l (fun a => { a with
    hdrThis := false
    badThis := false
    discWaitEp := if wait then a.discWaitEp + 1 else 0
    flaps := a.flaps.filter (fun f => (s.sys.epoch - f).toNat < s.ep10s) })

/-- The strings at an epoch boundary. -/
def State.lnkBoundary (s : State) : State :=
  let s := (s.lnk.pairs.map Prod.fst).foldl State.pairBoundary s
  let s := ((s.mapped.map (· / 8)).dedup ++ ((s.lnk.lanes.map Prod.fst).filter (fun l => !s.mapped.any (fun h => h / 8 = l)))).foldl
    State.laneBoundary s
  match s.lnk.action with
  | none => s
  | some a =>
    if a.code = 1 then s.verifyStep a
    else if s.sys.conv = .charge ∨ s.sys.conv = .ready then
      if s.runPending then s else ({ s with lnk := { s.lnk with action := none } }.retrim a.lane).strResult 2
    else { s with lnk := { s.lnk with action := none } }.strResult 6

/-- Word w of the lane table, for lane l (R133). BRIDGE_LEFT counts a second that has begun as left: its rounding is not stated.
(DESIGN CHOICE, log 44.) -/
def State.laneTable (s : State) (l w : Nat) : Word :=
  let a := s.lane l
  let p := s.pair (l / 2)
  let left := if s.limitRuns (l / 2) then s.rf R.LNK_BRIDGE_LIMIT 11 0 - p.limitEp * s.epNs / 1000000000 else 0
  BitVec.ofNat 32 (match w with
  | 0 => p.state.code * 2 ^ 29 + b2n a.quar * 2 ^ 28 + b2n (p.state ≠ .normal && p.broken = l && p.dark) * 2 ^ 27 +
      b2n (s.servesBridged l) * 2 ^ 26 + a.turnPos * 2 ^ 21 + b2n a.turnCause * 2 ^ 20 + a.lead * 2 ^ 16 +
      (if p.state ≠ .normal then p.restoreRun else 0)
  | 1 => a.tLane
  | 2 => Config.tTx l % 4096 * 2 ^ 16 + Config.tRx l % 4096
  | 3 => left * 2 ^ 20 + min 255 a.flaps.length * 2 ^ 8
  | w => if w ≤ 24 then smGet 0 a.counters (w - 4) else 0)

/-- Word w of the unit table, for home address h (R134). -/
def State.unitTable (s : State) (h w : Nat) : Word :=
  let u := s.unit h
  match w with
  | 0 => BitVec.ofNat 32 (u.status.code * 2 ^ 29 + b2n u.bridged * 2 ^ 28 + u.rgen * 2 ^ 24 +
      (if u.homed || u.armed then s.positionOf h * 2 ^ 20 + s.servedOn h * 2 ^ 11 else 0) +
      b2n u.armed * 2 ^ 10 + b2n u.homed * 2 ^ 9 + u.staleRun)
  | 1 => BitVec.ofNat 32 u.oHome
  | 2 => BitVec.ofNat 32 u.holdHome
  | 3 => BitVec.ofNat 32 u.oBridged
  | 4 => BitVec.ofNat 32 (u.bpos * 2 ^ 18 + u.holdBridged)
  | 5 => u.serialLo
  | 6 => u.serialHi
  | _ => 0

/-- A read of LNK_TBL_DATA by a requester: the selected word; an INDEX or WORD out of range reads 0 and is counted in the
reading port's error log, kind 6 (R135, R399). -/
def State.lnkTblRead (s : State) (r : Requester) : Word × State :=
  let a := s.reg (ownKey r R.LNK_TBL_ADDR)
  let i := fld a 27 16
  let w := fld a 4 0
  if flag a 31 then (if 6 < w then (0, s.logErr r 6 R.LNK_TBL_DATA) else (s.unitTable i w, s))
  else if 511 < i ∨ 24 < w then (0, s.logErr r 6 R.LNK_TBL_DATA)
  else (s.laneTable i w, s)

/-- The field rules of the LNK block (R100, R135). -/
def lnkRule (off : Nat) (w : Word) : Option Word :=
  if off = R.LNK_SVC_CFG then some (setFld w 15 8 (max 4 (fld w 15 8)))
  else if off = R.LNK_TRIM_CFG then
    some (setFld (setFld (setFld w 23 16 (max 8 (fld w 23 16))) 15 8 (max 1 (fld w 15 8))) 7 0 (max 1 (fld w 7 0)))
  else if off = R.LNK_BRIDGE_LIMIT then some (setFld w 11 0 (clampNat 1 3600 (fld w 11 0)))
  else some w

/-- A write of lane enables is held while it clears the enable of a lane with an expected entry in groups 0 to 6, and a
write of LNK_BRIDGE_EN is held, in any state other than OFF (R100, R135). -/
def State.lnkHeld (s : State) (off : Nat) (w : Word) : Bool :=
  s.sys.conv ≠ .off &&
  (if R.LNK_LANE_EN 0 ≤ off ∧ off ≤ R.LNK_LANE_EN 15 ∧ off % 4 = 0 then
    let base := 32 * ((off - R.LNK_LANE_EN 0) / 4)
    (List.range 32).any (fun b => s.rb off b && !flag w b &&
      s.mapped.any (fun h => h / 8 = base + b && mapExpected (s.mapEntry h) && mapGroup (s.mapEntry h) ≤ 6))
  else R.LNK_BRIDGE_EN 0 ≤ off ∧ off ≤ R.LNK_BRIDGE_EN 7 ∧ off % 4 = 0)

end Sys2Proof.Machine
end

