-- ==== Sys2Proof/Machine/Arm.lean ====
section
/-! DEFINITION. The Arm Engines and the Balancing Sorters (chapters 06 and 08): the arm energy account, eligibility, ordered
lists, swaps, levels, and the placing of transitions, which the target of a final class reads (R251) and the Edge Planner
carries out. -/

namespace Sys2Proof.Machine

/-- The home addresses that may receive orders: those of the map, and those that decided Crates add (R28, R267). -/
def State.orderHomes (s : State) : List Nat :=
  let added := (s.decidedParts (s.sys.epoch + 16)).filterMap (fun d => if d.part = 0x01 then some (bits d.w2 11 0) else none)
  s.mapped ++ added.dedup.filter (fun h => !s.mapped.contains h)

/-- The lane of the unit's orders (R102, R119). -/
def State.orderLane (s : State) (h : Nat) : Nat := if s.orderRoute h then partner (h / 8) else h / 8

/-- The lead of the lane of the unit's orders. -/
def State.orderLead (s : State) (h : Nat) : Nat := (s.lane (s.orderLane h)).lead

/-- The unit's orders go on a lane that launches bridged frames (R250). -/
def State.orderTwo (s : State) (h : Nat) : Bool := s.servesBridged (s.orderLane h)

/-- The converter epoch that the present pass plans for unit h (R250). -/
def State.planEpoch (s : State) (h : Nat) : Epoch := s.sys.epoch + 1 + BitVec.ofNat 48 (s.orderLead h)

/-- The present pass builds an order for unit h: it is expected, and on a lane of bridged frames the frame of that epoch
serves its route (R105, R250). -/
def State.orderDue (s : State) (h : Nat) : Bool :=
  let c := s.planEpoch h
  mapExpected (s.mapAt c h) && s.laneActive (s.orderLane h) && (!s.orderTwo h || (c.toNat % 2 = 1) = s.orderRoute h)

/-- The units of group g that receive orders in the present pass. -/
def State.orderUnits (s : State) (g : Nat) : List Nat :=
  s.orderHomes.filter (fun h => s.orderDue h && mapGroup (s.mapAt (s.planEpoch h) h) = g)

/-- The units of group g for converter epoch c, in whatever pass their class is planned (R251, R258). -/
def State.groupUnits (s : State) (g : Nat) (c : Epoch) : List Nat :=
  s.orderHomes.filter (fun h => mapExpected (s.mapAt c h) && mapGroup (s.mapAt c h) = g && s.laneActive (s.orderLane h))

/-- The group is planned for converter epoch c: the header of c carries RUN without blocking it (R252, R266). -/
def State.planRuns (s : State) (g : Nat) (c : Epoch) : Bool := s.convAt c = .run && !bit (s.groupsBlocked .run) g

/-- VCAP of unit h in V, from S(m). -/
def State.vcap (s : State) (h : Nat) : Rat := match s.entry h with | some e => volts e.vcap | none => 0

/-- The type of the class of unit h for converter epoch c. -/
def State.unitType (s : State) (c : Epoch) (h : Nat) : Nat := s.classType (mapClass (s.mapAt c h))

/-- A bypass sequence is in progress (R279). -/
def State.bypassing (s : State) (h : Nat) : Bool := 1 ≤ (s.eunit h).byp.step && (s.eunit h).byp.step ≤ 4

/-- Unit h is eligible for new transitions in converter epoch c (R252). -/
def State.eligibleAt (s : State) (g : Nat) (c : Epoch) (h : Nat) : Bool :=
  let u := s.eunit h
  match s.entry h, s.cel.newest with
  | some e, some n =>
    (s.unit h).status = .present && s.healthy h && (n - e.src).toNat ≤ s.rf R.EDG_CFG 23 16 && !bit e.fault 4 &&
      s.rf (R.EDG_CLS_GATE (mapClass (s.mapAt c h))) 31 24 ≤ e.qgauge && u.force = 0 && !s.bypassing h &&
      s.profVerified h u.bank 0 && s.planRuns g c
  | _, _ => false

/-- The area predicted for a fixed unit, in V·step (R252). -/
def State.fixedArea (s : State) (h : Nat) : Rat :=
  let u := s.eunit h
  let st := if u.force = 0 then u.pstate else u.force
  if st = 1 then s.vcap h * 16384 else if st = 3 && u.force = 0 then -(s.vcap h * 16384) else 0

/-- The members of group g in the arm energy account, with their entries (R26, R199). -/
def State.members (s : State) (g : Nat) : List (Nat × Entry) :=
  (s.groupHomes g).filterMap (fun h =>
    match s.entry h with
    | some e => if (s.unit h).status ≠ .lost ∧ (s.unit h).status ≠ .retired ∧ e.state ≤ 2 then some (h, e) else none
    | none => none)

/-- The polarity ordered for the sample instant of converter epoch e: true for inserted negative (R199). -/
def State.signAt (s : State) (h : Nat) (e : Epoch) : Bool :=
  let u := s.eunit h
  match u.sign with
  | some (x, neg) => if x = e then neg else
    match u.hist.find? (fun y => epGe e y.c) with
    | some y => if y.c = e then y.neg else y.endNeg
    | none => false
  | none => match u.hist.find? (fun y => epGe e y.c) with
    | some y => if y.c = e then y.neg else y.endNeg
    | none => false

/-- The arm energy account of group g in a pass (R199). -/
def State.account (s : State) (g : Nat) : State :=
  let ms := s.members g
  let s := ms.foldl (fun s x => s.updEunit x.1 (fun u => { u with sign := some (x.2.src, s.signAt x.1 x.2.src) })) s
  let cls (h : Nat) : Nat := mapClass (s.mapEntry h)
  let sum := (ms.map (fun x => s.rf (R.SYS_CLASS_CAP (cls x.1)) 19 0 * x.2.vcap ^ 2)).sum
  let ok := ms.filter (fun x => s.healthy x.1)
  let vs (l : List (Nat × Entry)) : Rat := rnd [(((l.map (fun x => x.2.vcap)).sum : Nat) : Rat) / 64]
  let full := ok.filter (fun x => s.classType (cls x.1) = 2)
  let ins := ms.filter (fun x => x.2.state = 1)
  let neg (x : Nat × Entry) : Bool := s.classType (cls x.1) = 2 && s.signAt x.1 x.2.src
  let vIns : Int := (ins.map (fun x => if neg x then -(x.2.vcap : Int) else (x.2.vcap : Int))).sum
  let age (x : Nat × Entry) : Nat := match s.cel.newest with | some n => min 255 (n - x.2.src).toNat | none => 255
  s.updGrp g (fun a => { a with
    shelf := s.cel.newest, w := konst ((sum : Rat) / 8192000000), vSum := vs ok, vNeg := vs full, vIns := rnd [(vIns : Rat) / 64]
    nW := ms.length, nStale := (ms.filter (fun x => x.2.stale)).length, ageMax := (ms.map age).foldl max 0, held := false })

/-- Places x before the first element with a key that is not smaller. -/
def insertKey (key : Nat → Rat) (x : Nat) : List Nat → List Nat
  | [] => [x]
  | y :: t => if key x ≤ key y then x :: y :: t else y :: insertKey key x t

/-- The units in ascending key; equal keys keep their order, which is that of the home addresses (R255). -/
def sortKey (key : Nat → Rat) (l : List Nat) : List Nat := l.foldr (insertKey key) []

/-- The boundary V(i + 1) − VCAP_i / 2 of each rank i (R257). -/
def rankBounds : List Rat → Rat → List Rat
  | [], _ => []
  | v :: t, acc => (acc + v / 2) :: rankBounds t (acc + v)

/-- n(y) of R257. -/
def levelOf (bounds : List Rat) (y : Rat) : Nat := (bounds.takeWhile (fun b => b ≤ y)).length

/-- The element of the list with the largest value of a function; the first of equals. -/
def argMax (f : Nat → Rat) : List Nat → Option Nat
  | [] => none
  | x :: t => match argMax f t with
    | some y => some (if f x < f y then y else x)
    | none => some x

/-- Exchanges two units in a list. -/
def exchange (a b : Nat) (l : List Nat) : List Nat := l.map (fun x => if x = a then b else if x = b then a else x)

/-- Up to k swaps of the worst inside with the best outside unit (R256): the list after them and the units swapped. -/
def swapLoop (key : Nat → Rat) (hyst : Nat → Nat → Rat) (ok : Nat → Bool) (nLo nHi : Nat) : Nat → List Nat → List Nat × List Nat
  | 0, l => (l, [])
  | k + 1, l =>
    match argMax key ((l.take (nLo - 1)).filter ok), argMax (fun u => -key u) ((l.drop (nHi + 1)).filter ok) with
    | some w, some b =>
      if hyst w b < key w - key b then
        let r := swapLoop key hyst ok nLo nHi k (exchange w b l)
        (r.1, w :: b :: r.2)
      else (l, [])
    | _, _ => (l, [])

/-- The key of unit h: VCAP over the rated voltage of its class (R255). (DESIGN CHOICE, log 21.) -/
def State.keyOf (s : State) (c : Epoch) (h : Nat) : Rat :=
  let v := s.vrated (s.mapAt c h)
  let x : Rat := match s.entry h with | some e => (e.vcap : Rat) | none => 0
  if v = 0 then Config.divZero 20 x else x / (v : Rat)

/-- W_TEMP × max(0, TEMP0 − TEMP_REF) of unit h (R256). -/
def State.heat (s : State) (g h : Nat) : Rat :=
  let w := s.reg (R.EDG_GRP_SORT g)
  let t : Rat := match s.entry h with | some e => (rec64 e.w1 39 30 : Rat) / 4 - 40 | none => 0
  ((fld w 15 8 : Nat) : Rat) / 65536 * rmax 0 (t - ((fld w 7 0 : Nat) : Rat))

/-- The order of planning for one converter epoch: classes of larger lead first, and of one lead the period-two class first
(R251). -/
def planOrder (l : List (Nat × Bool)) : List (Nat × Bool) :=
  ((List.range 16).reverse.flatMap (fun k => [(k, true), (k, false)])).filter (fun x => l.contains x)

/-- The planned state of a unit at the end of the epoch before a class plan: the unit's, or what the plan of the first
epoch of a bridged order left. -/
def State.stateIn (s : State) (ov : SMap Nat) (h : Nat) : Nat := (smFind ov h).getD (s.eunit h).pstate

/-- The nominal transition of an eligible unit in a class plan (R257, R259): none when it keeps its state. -/
def nominal (two neg stag : Bool) (from_ : Nat) (rank : Option Nat) (d0 d1 swapped : Bool) (cross : Rat) (h : Nat) : Option NomTr :=
  let ins := if neg then 3 else 1
  let other := if neg then 1 else 3
  let want := if rank.isSome && d1 then ins else 2
  let at_ (t : Nat) : Nat := if two then 8192 else t
  if from_ = 0 then some ⟨h, at_ 0, want, .entry⟩
  else if from_ = other then some ⟨h, at_ 0, 2, .polarity⟩
  else if rank.isNone then (if from_ = ins then some ⟨h, at_ 0, 2, .stair⟩ else none)
  else if swapped then (if from_ = want then none else some ⟨h, 8192, want, .swap⟩)
  else if d0 = d1 then (if from_ = want then none else some ⟨h, at_ 0, want, .stair⟩)
  else if (from_ = ins) = d0 then some ⟨h, at_ (if stag then (clampInt 0 16384 (nearest cross)).toNat else 0), want, .stair⟩
  else none

/-- The plan of one class for converter epoch c (R251–R259): its units, the target in V·step with the sign of the group, the
state of each unit before c. (DEDUCED, log 24.) -/
def State.planClass (s : State) (g lead : Nat) (two : Bool) (c : Epoch) (second fin : Bool) (units : List Nat) (target : Rat) (neg : Bool)
    (ov : SMap Nat) : ClassPlan :=
  let el := units.filter (s.eligibleAt g c)
  let part := el.filter (fun h => !neg || s.unitType c h = 2)
  let ins := if neg then 3 else 1
  let up := (s.grp g).up ≠ neg
  let sg : Rat := if up then 1 else -1
  let key (h : Nat) : Rat := sg * s.keyOf c h
  let st (h : Nat) : Nat := s.stateIn ov h
  let list0 := sortKey key (part.filter (fun h => st h = ins)) ++ sortKey key (part.filter (fun h => st h ≠ ins))
  let A := if neg then -target else target
  let a := A / 16384
  let prev := match smFind (s.grp g).aPrev (2 * lead + b2n two) with
    | some (e, v, ng) => if e + 1 = c then some (if ng = neg then v else 0) else none
    | none => none
  let slope : Rat := if s.rb R.EDG_CFG 31 && !two then (match prev with | some v => a - v | none => 0) else 0
  let r0 := a - slope / 2
  let r1 := a + slope / 2
  let bounds0 := rankBounds (list0.map s.vcap) 0
  let n0 := levelOf bounds0 r0
  let n1 := levelOf bounds0 r1
  let nLo := min n0 n1
  let nHi := max n0 n1
  let word := s.reg (R.EDG_GRP_SORT g)
  let hyst (w b : Nat) : Rat := ((fld word 31 16 : Nat) : Rat) / 65536 + s.heat g w + s.heat g b
  let other := if neg then 1 else 3
  let sw := swapLoop key hyst (fun h => st h ≠ other) nLo nHi (s.rf R.EDG_CFG 27 24) list0
  let bounds := rankBounds (sw.1.map s.vcap) 0
  let m0 := levelOf bounds r0
  let m1 := levelOf bounds r1
  let trs := el.filterMap (fun h =>
    let rank := sw.1.findIdx? (· = h)
    let i := rank.getD 0
    let cross := if slope = 0 then 0 else 8192 + (bounds.getD i 0 - a) * 16384 / slope
    nominal two neg (s.rb R.EDG_CFG 31) (st h) rank (decide (i < m0)) (decide (i < m1)) (sw.2.contains h) cross h)
  let total := (sw.1.map s.vcap).sum
  ⟨lead, two, c, second, units, sw.1, neg, nLo, nHi, target, a, slope, fin, sw.2.length / 2, decide (a < 0) || decide (total < a), trs⟩

/-- A transition relative to its midpoint t: its events lie at t − f and t − f + d (R260); f = d = 0 for a single edge. -/
structure Span where
  t : Int
  f : Int
  d : Int
deriving DecidableEq, Repr

/-- No event of the transition, shifted by x, lies in the guard (R262). -/
def Span.clears (p : Span) (g : Option (Int × Int)) (x : Int) : Bool :=
  match g with
  | none => true
  | some (lo, hi) =>
    let out (e : Int) : Bool := e < lo || hi < e
    out (p.t + x - p.f) && out (p.t + x - p.f + p.d)

/-- The transition, shifted by x, is feasible (R260), with its midpoint not before a bound. -/
def Span.fits (p : Span) (from_ x : Int) : Bool := 0 ≤ p.t + x - p.f && p.t + x - p.f + p.d ≤ 16383 && from_ ≤ p.t + x

/-- The shifts that may clear the guard: none, and for each transition its last event before the guard or its first event
after it (R262); in a bridged order they lead to even midpoints (R264). -/
def shifts (even : Bool) (g : Option (Int × Int)) (ps : List Span) : List Int :=
  match g with
  | none => [0]
  | some (lo, hi) => 0 :: ps.flatMap (fun p =>
      let a := lo - 1 - p.d + p.f
      let b := hi + 1 + p.f
      [(if even then a - a % 2 else a) - p.t, (if even then b + b % 2 else b) - p.t])

/-- The nearest shift that clears the guard; at equal distance the earlier one (R262). -/
def bestShift (even : Bool) (g : Option (Int × Int)) (from_ : Int) (ps : List Span) : Option Int :=
  ((shifts even g ps).filter (fun x => ps.all (fun p => p.clears g x && p.fits from_ x))).foldl (fun (a : Option Int) x =>
    match a with
    | none => some x
    | some y => some (if x.natAbs < y.natAbs ∨ (x.natAbs = y.natAbs ∧ x < y) then x else y)) none

/-- The first transition's midpoint brought to the nearest feasible instant not before a bound; an even one in a bridged order
(R264). -/
def toFeasible (even : Bool) (from_ : Int) (p : Span) : Span :=
  let t := clampInt (max p.f from_) (max (max p.f from_) (16383 - p.d + p.f)) p.t
  { p with t := if even then (if p.fits from_ (t + t % 2 - p.t) then t + t % 2 else t - t % 2) else t }

/-- What was placed for a unit in one epoch (R262, R263): the midpoints, the sample instant, whether the guard moved it,
whether the sample instant moved, or that nothing could be placed. -/
structure Placing where
  mids : List Int
  sample : Nat
  moved : Bool
  resampled : Bool
deriving DecidableEq, Repr

/-- A time in ns in fine steps (R249). -/
def State.stepsOf (s : State) (ns : Nat) : Int := (ns * s.finePerNs : Nat)

/-- The guard of a sample instant for a class (R262). -/
def State.guardOf (s : State) (cls sample : Nat) : Int × Int :=
  let w := s.reg (R.EDG_CLS_WIN cls)
  ((sample : Int) - s.stepsOf (fld w 31 24), (sample : Int) + s.stepsOf (fld w 23 16))

/-- The sample instant of a class (R262). -/
def State.sampleOf (s : State) (cls : Nat) : Nat := s.rf (R.EDG_CLS_WIN cls) 13 0

/-- Places the transitions of one unit clear of its guard, or of the guard of the alternate sample instant (R262, R263).
Without a guard (the second epoch of a bridged order, R264) only feasibility counts; in a bridged order midpoints are even. -/
def State.place (s : State) (cls : Nat) (guarded even : Bool) (from_ : Int) (ps : List Span) : Option Placing :=
  let s0 := s.sampleOf cls
  let ps := match ps with
    | [p] => [toFeasible even from_ p]
    | l => l
  let go (sample : Nat) : Option (List Int × Bool) :=
    (bestShift even (if guarded then some (s.guardOf cls sample) else none) from_ ps).map (fun x => (ps.map (fun p => p.t + x), x ≠ 0))
  match go s0 with
  | some (m, mv) => some ⟨m, s0, mv, false⟩
  | none =>
    let s1 := (s0 + 8192) % 16384
    match go s1 with
    | some (m, mv) => some ⟨m, s1, mv, true⟩
    | none => none

/-- The dead time of a direction of unit h in fine steps; 0 for a chopper unit (R261, R265). -/
def State.deadOf (s : State) (c : Epoch) (h : Nat) (up : Bool) : Int :=
  let cls := mapClass (s.mapAt c h)
  if s.classType cls = 3 then 0 else s.stepsOf (s.deadNs cls h up)

/-- The span of a commutation of unit h (R260). -/
def State.spanOf (s : State) (c : Epoch) (h : Nat) (t : Int) (up : Bool) : Span := ⟨t, s.deadOf c h up / 2, s.deadOf c h up⟩

/-- The direction of a change of state: UP into inserted or inserted negative (R260). -/
def goesUp (to_ : Nat) : Bool := to_ = 1 || to_ = 3

/-- What one unit does in one epoch: the states before and after, its commutations as (UP, midpoint), whether the change is
an entry from off, the placing, and whether its transition was deferred. -/
structure UnitPlan where
  home : Nat
  from_ : Nat
  to_ : Nat
  trs : List (Bool × Int)
  entry : Bool
  sample : Nat
  moved : Bool
  resampled : Bool
  deferred : Bool
deriving DecidableEq, Repr

/-- A unit that keeps its state. -/
def State.keeps (s : State) (ov : SMap Nat) (c : Epoch) (h : Nat) : UnitPlan :=
  let st := s.stateIn ov h
  ⟨h, st, st, [], false, s.sampleOf (mapClass (s.mapAt c h)), false, false, false⟩

/-- Places the nominal transition of a unit (R262, R263); a deferred unit keeps its state. -/
def State.placeTr (s : State) (ov : SMap Nat) (c : Epoch) (guarded even : Bool) (n : NomTr) : UnitPlan :=
  let k := s.keeps ov c n.home
  let cls := mapClass (s.mapAt c n.home)
  let up := goesUp n.to_
  let span : Span := if n.kind = .entry then ⟨n.mid, 0, 0⟩ else s.spanOf c n.home n.mid up
  match s.place cls guarded even 0 [span] with
  | none => { k with deferred := true }
  | some p => { k with
      to_ := n.to_, trs := p.mids.map (fun t => (up, t)), entry := n.kind = .entry, sample := p.sample, moved := p.moved, resampled := p.resampled }

/-- The area of a unit over an epoch in V·step, on the magnitudes of the class polarity (R257, R258): each transition
counts at its midpoint. -/
def State.areaOf (s : State) (neg : Bool) (u : UnitPlan) : Rat :=
  let v (st : Nat) : Rat := if st = 1 then (if neg then -1 else 1) else if st = 3 then (if neg then 1 else -1) else 0
  let vc := s.vcap u.home
  match u.trs with
  | [] => v u.from_ * vc * 16384
  | [(_, t)] => vc * (v u.from_ * (t : Rat) + v u.to_ * (16384 - (t : Rat)))
  | (_, t1) :: (_, t2) :: _ =>
    let mid := if v u.from_ = 0 then 1 else 0
    vc * (v u.from_ * (16384 - ((t2 - t1 : Int) : Rat)) + mid * ((t2 - t1 : Int) : Rat))

/-- The result of placing one class: what each of its units does, the residual, the modulation (0 none, 1 pulse, 2 notch),
its unit and width, the area realised, on magnitudes, and whether a pulse or notch was dropped because no guard could be cleared
(R263). -/
structure ClassPlaced where
  units : List UnitPlan
  res : Rat
  kind : Nat
  modUnit : Nat
  width : Nat
  area : Rat
  lost : Bool
deriving DecidableEq, Repr

/-- The first unit without a transition from rank i, outward (R258). -/
def modUnitAt (us : List UnitPlan) (l : List Nat) : Option Nat :=
  l.find? (fun h => match us.find? (fun u => u.home = h) with | some u => u.trs.isEmpty | none => true)

/-- The pulse or notch of a final class (R258, R263): none where there is none to place, none within where neither guard can be cleared,
and otherwise the unit's plan, the width and the area it adds, on magnitudes. (DESIGN CHOICE, log 21; DEDUCED, log 24.) -/
def State.modulate (s : State) (ov : SMap Nat) (p : ClassPlan) (us : List UnitPlan) (res : Rat) : Option (Option (UnitPlan × Nat × Rat)) :=
  let pulse := 0 < res
  let cand := if pulse then modUnitAt us (p.list.drop p.nHi) else modUnitAt us (p.list.take p.nLo).reverse
  match cand with
  | none => none
  | some h =>
    let k := s.keeps ov p.c h
    let ins := if p.neg then 3 else 1
    let deferred := us.any (fun u => u.home = h && u.deferred)
    let cls := mapClass (s.mapAt p.c h)
    let v := s.vcap h
    let w0 := nearest (if v = 0 then Config.divZero 21 res.abs else res.abs / v)
    let one := pulse ≠ (p.slope < 0)
    let a := s.spanOf p.c h 0 pulse
    let b := s.spanOf p.c h 0 (!pulse)
    let span : Int := if one then a.f else a.f + b.d - b.f + 1
    let w := min w0 (16384 - span)
    if deferred ∨ res = 0 ∨ (k.from_ = ins) = pulse ∨ w < s.stepsOf (s.rf (R.EDG_CLS_GATE cls) 23 16) then none
    else
      let ps : List Span := if one then [{ a with t := 16384 - w }] else [{ a with t := a.f }, { b with t := a.f + w }]
      match s.place cls true false 0 ps with
      | none => some none
      | some q =>
        let real : Int := if one then 16384 - q.mids.getD 0 0 else w
        let toSt := if one then (if pulse then ins else 2) else k.from_
        some <| some ({ k with
          to_ := toSt, trs := q.mids.zipIdx.map (fun x => (if x.2 = 0 then pulse else !pulse, x.1)), sample := q.sample, moved := q.moved, resampled := q.resampled },
          w.toNat, if pulse then v * (real : Rat) else -(v * (real : Rat)))

/-- Places every transition of a class, then the pulse or notch of a final class (R258, R262). (DEDUCED, log 24.) -/
def State.placeClass (s : State) (ov : SMap Nat) (p : ClassPlan) (g : Nat) : ClassPlaced :=
  let guarded := !p.second
  let el := p.units.filter (s.eligibleAt g p.c)
  let us := el.map (fun h => match p.trs.find? (fun n => n.home = h) with
    | some n => s.placeTr ov p.c guarded p.two n
    | none => s.keeps ov p.c h)
  let stair := (us.map (s.areaOf p.neg)).sum
  let A := if p.neg then -p.target else p.target
  let res := A - stair
  if p.fin then
    match s.modulate ov p us res with
    | some (some (m, w, area)) =>
      ⟨us.map (fun u => if u.home = m.home then m else u), res, if 0 < res then 1 else 2, m.home, w, stair + area, false⟩
    | some none => ⟨us, res, 0, 0, 0, stair, true⟩
    | none => ⟨us, res, 0, 0, 0, stair, false⟩
  else ⟨us, res, 0, 0, 0, stair, false⟩

/-- The end states of the units of a placed class. -/
def ClassPlaced.ends (p : ClassPlaced) (ov : SMap Nat) : SMap Nat := p.units.foldl (fun m u => smInsert (smErase m u.home) u.home u.to_) ov

/-- The voltage reference of group g in the present pass (R198, R241). -/
def State.groupRef (s : State) (g : Nat) : Rat := if g = 6 then s.grd.v6 else s.ctl.vref.getD g 0

/-- The current that directs group g and selects its profiles (R254, R275). -/
def State.groupI (s : State) (g : Nat) : Rat := if g = 6 then s.qRole 16 else s.qRole (1 + g)

/-- The sorter's direction (R254). -/
def State.direction (s : State) (g : Nat) : State :=
  if g = 6 then s.updGrp g (fun a => { a with up := false })
  else
    let i := s.groupI g
    let band := s.rq (R.EDG_GRP_IBAND g)
    s.updGrp g (fun a => { a with up := if band ≤ i then true else if i ≤ -band then false else a.up })

/-- The key of a class for a converter epoch: its lead, its period and, for one of period two, whether the epoch is the second of its
bridged order. -/
def classKey (lead : Nat) (two second : Bool) : Nat := 4 * lead + 2 * b2n two + b2n second

/-- The key of the class that a plan belongs to. -/
def ClassPlan.key (p : ClassPlan) : Nat := classKey p.lead p.two p.second

/-- What a pass of an Arm Engine has planned so far: the plans, their summaries, the realised areas by converter epoch and the end
states. -/
structure PlanAcc where
  plans : List ClassPlan
  sums : List ClassSum
  real : List (Epoch × Nat × Rat)
  ov : SMap Nat
  fins : List Epoch
deriving DecidableEq, Repr

/-- The key of the class in which unit h is planned for converter epoch c (R250). -/
def State.keyAt (s : State) (c : Epoch) (h : Nat) : Nat :=
  classKey (s.orderLead h) (s.orderTwo h) (s.orderTwo h && (c.toNat % 2 = 1) ≠ s.orderRoute h)

/-- The area realised for converter epoch c by the classes of group g other than the one of a key (R251): what they planned, and the area of
the states kept by the eligible units of a class whose pass was missed (R268). (DEDUCED, log 24.) -/
def State.othersArea (s : State) (g key : Nat) (c : Epoch) (el : List Nat) (x : PlanAcc) : Rat :=
  let done := ((s.grp g).realised ++ x.real).filter (fun y => y.1 = c)
  let kept := el.filter (fun h => s.keyAt c h ≠ key && !done.any (fun y => y.2.1 = s.keyAt c h))
  (done.map (fun y => y.2.2)).sum + (kept.map (fun h => s.areaOf false (s.keeps x.ov c h))).sum

/-- Plans one class for one converter epoch (R251). -/
def State.planOne (s : State) (g lead : Nat) (two : Bool) (units : List Nat) (second : Bool) (x : PlanAcc) : PlanAcc :=
  let c := s.sys.epoch + 1 + BitVec.ofNat 48 lead + (if second then 1 else 0)
  if !s.planRuns g c then x
  else
    let vref := s.groupRef g
    let neg := decide (vref < 0) && g ≠ 6
    let all := s.groupUnits g c
    let el := all.filter (s.eligibleAt g c)
    let fixed := all.filter (fun h => !s.eligibleAt g c h)
    let F := (fixed.map s.fixedArea).sum
    let counts (h : Nat) : Bool := !neg || s.unitType c h = 2
    let mine := units.filter (s.eligibleAt g c)
    let vs (l : List Nat) : Rat := ((l.filter counts).map s.vcap).sum
    let later := el.any (fun h => s.orderLead h < lead)
    let fin := !two && !mine.isEmpty && !later && !(s.grp g).finals.contains c && !x.fins.contains c
    let realised := s.othersArea g (classKey lead two second) c el x
    let share := if vs el = 0 then 0 else konst ((vref * 16384 - F) * vs mine / vs el)
    let target := if fin then vref * 16384 + (s.grp g).carry - F - realised else share
    let p := s.planClass g lead two c second fin units target neg x.ov
    let q := s.placeClass x.ov p g
    let area := if neg then -q.area else q.area
    let ins := (q.units.filter (fun u => u.to_ = 1 || u.to_ = 3)).length
    ⟨x.plans ++ [p], x.sums ++ [⟨c, lead, two, fin, mine.length, ins, area⟩], x.real ++ [(c, classKey lead two second, area)], q.ends x.ov,
      if fin then c :: x.fins else x.fins⟩

/-- The plans of group g in the present pass (R250, R251). -/
def State.planGroup (s : State) (g : Nat) : PlanAcc :=
  let us := s.orderUnits g
  let classes := planOrder (us.map (fun h => (s.orderLead h, s.orderTwo h)))
  classes.foldl (fun x k =>
    let units := us.filter (fun h => s.orderLead h = k.1 && s.orderTwo h = k.2)
    let x := s.planOne g k.1 k.2 units false x
    if k.2 then s.planOne g k.1 k.2 units true x else x) ⟨[], [], [], [], []⟩

/-- The summaries of one class for one epoch as one: the two halves of a bridged lane are planned in two passes (R250, R281). -/
def mergeSums : List ClassSum → Option ClassSum
  | [] => none
  | x :: t => some (t.foldl (fun a y =>
      { a with fin := a.fin || y.fin, eligible := a.eligible + y.eligible, inserted := a.inserted + y.inserted, area := a.area + y.area }) x)

/-- The annex words of group g below 6 in the Arm Engine region (R211, R281): the class words are those of the epoch that the final class
plans, some of them from earlier passes; without a final class they are those of the present pass. (DEDUCED, log 24.) -/
def State.armAnnex (s : State) (n : Epoch) (g : Nat) : State :=
  let a := s.grp g
  let base := 0x2000 + 512 * g
  let sh : Nat := match a.shelf with | some e => lowE 16 e | none => 0
  let s := s.annexPut n base ([a.w, a.vSum, a.vNeg, a.vIns, a.vref].map toF32 ++
    [BitVec.ofNat 32 (min 2047 a.nW * 2 ^ 16 + min 2047 a.nStale), BitVec.ofNat 32 (sh * 2 ^ 16 + min 255 a.ageMax), 0])
  let fin := a.plans.find? (fun p => p.fin)
  let modk := match fin with
    | some p => let q := s.placeClass [] p g; (q.kind, q.modUnit)
    | none => (0, 0)
  let head := match fin with
    | some p => [BitVec.ofNat 32 (p.lead * 2 ^ 28 + b2n p.neg * 2 ^ 27 + b2n a.up * 2 ^ 26 + b2n a.clampd * 2 ^ 25 + modk.1 * 2 ^ 23 + modk.2),
        BitVec.ofNat 32 (min 2047 p.nLo * 2 ^ 16 + min 2047 p.nHi), toF32 (konst p.a), toF32 (konst p.slope)]
    | none => [BitVec.ofNat 32 (0xF * 2 ^ 28 + b2n a.up * 2 ^ 26 + b2n a.clampd * 2 ^ 25), 0, 0, 0]
  let shown : List ClassSum := match fin with
    | some p => a.sums.filter (fun x => x.c = p.c)
    | none => a.sums.take (a.plans.length)
  let swaps := match fin with | some p => p.swaps | none => 0
  let sorted := (List.range 16).flatMap (fun l =>
    [mergeSums (shown.filter (fun p => p.lead = l && !p.two)), mergeSums (shown.filter (fun p => p.lead = l && p.two))].filterMap id)
  let s := s.annexPut n (base + 0x80) (head ++ [BitVec.ofNat 32 (min 15 swaps * 2 ^ 24 + min 31 sorted.length)])
  (sorted.zipIdx.take 32).foldl (fun s (p, q) =>
    s.annexPut n (base + 0x100 + 8 * q)
      [BitVec.ofNat 32 (b2n p.fin * 2 ^ 31 + b2n p.two * 2 ^ 30 + p.lead % 16 * 2 ^ 24 + min 2047 p.eligible * 2 ^ 11 + min 2047 p.inserted),
        toF32 (konst (p.area / 16384))]) s

/-- The pass of the Arm Engine of group g (R199, R249): the account, the direction, the plans of its classes, and its annex
region. -/
def State.armPass (s : State) (g : Nat) : State :=
  let n := s.sys.epoch - 1
  let s := s.account g
  let s := s.direction g
  let s := s.updGrp g (fun a => { a with vref := s.groupRef g, tag := some n })
  let lmax := (s.orderUnits g).map (fun h => s.orderLead h + 1 + b2n (s.orderTwo h)) |>.foldl max 0
  let s := if s.runDecided then s else s.updGrp g (fun a => { a with idleUpto := some (s.sys.epoch + BitVec.ofNat 48 lmax) })
  let x := s.planGroup g
  let clampd := x.plans.any (fun p => p.clampd)
  let s := if clampd then s.latch R.EDG_CAUSE 4 else s
  let s := s.updGrp g (fun a => { a with plans := x.plans, clampd := clampd, sums := x.sums.reverse ++ a.sums.filter (fun y => epGe y.c s.sys.epoch) })
  let s := if g < 6 then s.armAnnex n g else s
  s.updGrp g (fun a => { a with
    aPrev := x.plans.foldl (fun m p => let k := 2 * p.lead + b2n p.two; smInsert (smErase m k) k (p.c, p.a, p.neg)) a.aPrev
    finals := (x.fins ++ a.finals).take 32 })

/-- The item of R20 that the Arm Engine of group g belongs to. -/
def armItem (g : Nat) : Nat := if g = 6 then 13 else 2 + g

/-- ARM_ENGINE_PASS of group g, 0 to 6 (R249): items 2 to 7 of R20, and item 13 for the chopper group. -/
def execArmEnginePass (g : Nat) (s : State) : Out :=
  .next (if g < 7 then s.runItem (armItem g) (fun s => s.armPass g) else s)

end Sys2Proof.Machine
end

