-- ==== Sys2Proof/Machine/Edge.lean ====
section
/-! DEFINITION. The Edge Planner (chapter 08): edge events, orders, profiles, forcing and bypass sequences; and the rows of
chapter 04 that start a bypass (R117, R129). -/

namespace Sys2Proof.Machine

/-- An edge event in the bits of R75. -/
def edgeWord (sw : Nat) (on : Bool) (time : Nat) : Nat := sw * 2 ^ 30 + b2n on * 2 ^ 29 + time * 2 ^ 15 + 2 ^ 14

/-- The upper and lower switch of the leg of a change of state (R260). -/
def legOf (ty from_ to_ : Nat) (neg : Bool) : Nat × Nat :=
  if ty = 2 ∧ (from_ = 3 ∨ to_ = 3 ∨ (from_ = to_ ∧ neg = true)) then (2, 3) else (0, 1)

/-- The switches that a unit entering from off turns on (R77, R259). -/
def entrySwitches (ty to_ : Nat) : List Nat :=
  if ty = 3 then (if to_ = 1 then [0] else [])
  else if ty = 2 then (if to_ = 1 then [0, 3] else if to_ = 3 then [1, 2] else [1, 3])
  else if to_ = 1 then [0] else [1]

/-- The events of a unit's plan as (time, switch, on), in fine steps of its epoch (R260, R265). (DEDUCED, log 24.) -/
def State.planEvents (s : State) (c : Epoch) (neg : Bool) (u : UnitPlan) : List (Int × Nat × Bool) :=
  let ty := s.unitType c u.home
  if u.entry then (match u.trs with
    | (_, t) :: _ => (entrySwitches ty u.to_).map (fun sw => (t, sw, true))
    | [] => [])
  else u.trs.flatMap (fun (up, t) =>
    if ty = 3 then [(t, 0, up)]
    else
      let p := s.spanOf c u.home t up
      let leg := legOf ty u.from_ u.to_ neg
      let (out, in_) := if up then (leg.2, leg.1) else (leg.1, leg.2)
      [(p.t - p.f, out, false), (p.t - p.f + p.d, in_, true)])

/-- Places an event before the first later one. -/
def insertEvent (e : Int × Nat × Bool) : List (Int × Nat × Bool) → List (Int × Nat × Bool)
  | [] => [e]
  | x :: t => if e.1 ≤ x.1 then e :: x :: t else x :: insertEvent e t

/-- The events of an order in ascending time (R260). -/
def sortEvents (l : List (Int × Nat × Bool)) : List (Int × Nat × Bool) := l.foldr insertEvent []

/-- The state of a unit at an instant of its epoch, counting each transition at its midpoint. -/
def UnitPlan.stateAt (u : UnitPlan) (neg : Bool) (t : Int) : Nat :=
  match u.trs with
  | [] => u.from_
  | [(_, m)] => if t < m then u.from_ else u.to_
  | (_, a) :: (_, b) :: _ => if t < a ∨ b ≤ t then u.from_ else if u.from_ = 2 then (if neg then 3 else 1) else 2

/-- The record of what was planned for a unit in converter epoch c (R199, R261); kept where its state changes. -/
def State.remember (s : State) (c : Epoch) (neg : Bool) (u : UnitPlan) : State :=
  if u.trs.isEmpty && u.from_ = u.to_ then s
  else
    let trs := if u.entry then [] else u.trs.map (fun (up, t) => let p := s.spanOf c u.home t up; (up, (p.t - p.f + p.d).toNat))
    s.updEunit u.home (fun a => { a with hist := (⟨c, trs, u.sample, u.stateAt neg u.sample = 3, u.to_ = 3⟩ :: a.hist).take 64 })

/-- The profile of the order of unit h in group g, and whether it fell back to profile 0 (R275). -/
def State.orderProfile (s : State) (g h : Nat) (c : Epoch) : Nat × Bool :=
  let w := s.reg (R.EDG_GRP_DRIVE g)
  let lim := s.rq (R.EDG_GRP_IPROF g)
  let p := if lim ≠ 0 && lim ≤ (s.groupI g).abs then fld w 7 4 else fld w 3 0
  let ok := bit (s.profMask (mapClass (s.mapAt c h))) p && s.profVerified h (s.eunit h).bank p
  if ok then (p, false) else (0, p ≠ 0)

/-- Changes the bypass sequence of unit h. -/
def State.updByp (s : State) (h : Nat) (f : BypSt → BypSt) : State := s.updEunit h (fun u => { u with byp := f u.byp })

/-- The bypass sequence of unit h in the pass that builds its order for converter epoch c (R279, R280): whether the order
carries ARM_BYPASS, and whether the unit is to be removed. -/
def State.bypStep (s : State) (h : Nat) (c : Epoch) (running : Bool) : State × Bool × Bool :=
  let b := (s.eunit h).byp
  let ins := (s.eunit h).pstate = 1 || (s.eunit h).pstate = 3
  let lost := (s.unit h).status = .lost
  let arm (s : State) (need : Bool) : State × Bool × Bool :=
    if (need || lost) && !s.coversFire h then (s.updByp h (fun b => { b with step := 2, needGauge := need }), false, false)
    else (s.updByp h (fun b => { b with step := 3, j := some c, needGauge := false }), true, false)
  if !s.launching then (if b.step = 3 ∨ b.step = 4 then (s.updByp h (fun b => { b with step := 2 }), false, false) else (s, false, false))
  else match b.step with
    | 1 => if ins && running then (s, false, true) else arm s false
    | 2 => arm s b.needGauge
    | 3 => (match b.j with
      | some j => if 4 < (c - j).toNat then arm s true else (s, false, false)
      | none => arm s false)
    | _ => (s, false, false)

/-- One order built in a pass (R266): its kind, profile, sample and events, and what the counters of R282 take from it. -/
structure Built where
  home : Nat
  kind : Nat
  arm : Bool
  evs : List Nat
  sample : Nat
  fallback : Bool
  plans : List UnitPlan
deriving DecidableEq, Repr

/-- The events of an order for one epoch, or for the two epochs of a bridged order, as words (R75, R264). -/
def State.orderEvents (s : State) (c : Epoch) (two : Bool) (ps : List (Bool × Bool × UnitPlan)) : List Nat :=
  let evs := sortEvents (ps.flatMap (fun (second, neg, u) =>
    (s.planEvents (if second then c + 1 else c) neg u).map (fun (t, x) =>
      (if two then (t + (if second then 16384 else 0)) / 2 else t, x))))
  evs.map (fun (t, sw, on) => edgeWord sw on t.toNat)

/-- The removal of an inserted unit: one transition to bypassed after 8,192 (R279). -/
def State.removal (s : State) (h : Nat) (c : Epoch) : UnitPlan :=
  let k := s.keeps [] c h
  match s.place (mapClass (s.mapAt c h)) true (s.orderTwo h) 8193 [if s.unitType c h = 3 then ⟨8193, 0, 0⟩ else s.spanOf c h 8193 false] with
  | some p => { k with to_ := 2, trs := p.mids.map (fun t => (false, t)), sample := p.sample, moved := p.moved, resampled := p.resampled }
  | none => { k with deferred := true }

/-- Writes the order of unit h of group g for the epoch that the pass plans (R266): OFF, FORCE, KEEP or EDGES, with the
bypass flags. (DEDUCED, log 24.) -/
def State.buildOrder (s : State) (g : Nat) (missed : Bool) (placed : List (ClassPlan × ClassPlaced)) (h : Nat) : State × Built :=
  let c := s.planEpoch h
  let two := s.orderTwo h
  let u := s.eunit h
  let idle := match (s.grp g).idleUpto with | some e => epGe e c | none => false
  let running := s.planRuns g c && !idle && !s.leftOut h
  let eligible := s.eligibleAt g c h
  let s := s.updEunit h (fun a => { a with eligible := eligible })
  -- OFF leaves the unit off
  let s := if running then s else (s.remember c false { s.keeps [] c h with to_ := 0 }).updEunit h (fun a => { a with pstate := 0 })
  let b := s.bypStep h c running
  let s := b.1
  let prof := s.orderProfile g h c
  let def_ := s.sampleOf (mapClass (s.mapAt c h))
  let mine : List (Bool × Bool × UnitPlan) := placed.filterMap (fun x => (x.2.units.find? (fun y => y.home = h)).map (fun y => (x.1.second, x.1.neg, y)))
  let ps : List (Bool × Bool × UnitPlan) :=
    if !running || u.force ≠ 0 then [] else if b.2.2 then [(false, u.pstate = 3, s.removal h c)] else if missed then [] else mine
  let evs := s.orderEvents c two ps
  let kind : Nat := if !running then 3 else if u.force ≠ 0 then 4 else if evs.isEmpty then 2 else 1
  let sample := match ps with | (_, _, y) :: _ => y.sample | [] => def_
  let s := ps.foldl (fun s x => (s.remember (if x.1 then c + 1 else c) x.2.1 x.2.2).updEunit h (fun a => { a with pstate := x.2.2.to_ })) s
  let s := if kind = 4 then s.updEunit h (fun a => { a with pstate := if u.force = 3 then 0 else u.force }) else s
  let o : OrderBuf := { c := some c, kind := kind, sample := if two then sample / 2 else sample, profile := prof.1, arm := b.2.1,
                        fire := false, force := if kind = 4 then u.force else 0, evs := evs }
  let s := { s with edg := { s.edg with orders := smSet {} s.edg.orders h o } }
  let s := s.updEunit h (fun a => { a with profile := prof.1, sample := sample })
  (s, ⟨h, kind, b.2.1, evs, sample, prof.2, ps.map (fun x => x.2.2)⟩)

/-- The carry of a group after its final class (R258): the residual left, limited to half the mean voltage of the group's eligible units;
whether an excess was dropped. (DEDUCED, log 24.) -/
def State.carryAfter (s : State) (g : Nat) (p : ClassPlan) (q : ClassPlaced) : Rat × Bool :=
  let el := (s.groupUnits g p.c).filter (s.eligibleAt g p.c)
  let mean := if el.isEmpty then 0 else ((el.map s.vcap).sum) / (el.length : Rat)
  let lim := mean * 8192
  let A := if p.neg then -p.target else p.target
  let left := (A - q.area) * (if p.neg then -1 else 1)
  (rclamp (-lim) lim left, decide (lim < left.abs))

/-- The Edge Planner's pass over group g (R262–R266). (DEDUCED, log 24.) -/
def State.edgeGroup (s : State) (n : Epoch) (g : Nat) : State :=
  let a := s.grp g
  let missed := a.tag ≠ some n
  let plans := if missed then [] else a.plans
  let us := s.orderUnits g
  let placed := (plans.foldl (fun (x : List (ClassPlan × ClassPlaced) × SMap Nat) p =>
    let q := s.placeClass x.2 p g
    (x.1 ++ [(p, q)], q.ends x.2)) ([], [])).1
  let s := placed.foldl (fun s x => s.updGrp g (fun a => { a with
    realised := (x.1.c, x.1.key, if x.1.neg then -x.2.area else x.2.area) :: a.realised.filter (fun y => epGe y.1 s.sys.epoch) })) s
  let fin := placed.find? (fun x => x.1.fin)
  let carry := match fin with
    | some x => s.carryAfter g x.1 x.2
    | none => (a.carry, false)
  let r := us.foldl (fun (x : State × List Built) h => let y := x.1.buildOrder g missed placed h; (y.1, x.2 ++ [y.2])) (s, [])
  let s := r.1
  let bs := r.2
  let ps := bs.flatMap (fun b => b.plans)
  let trs := (ps.map (fun u => u.trs.length)).sum
  let per (h : Nat) : Nat := if s.unitType (s.planEpoch h) h = 3 then 1 else 2
  let ups (v : Bool) : Nat := (ps.map (fun u => if u.entry then 0 else per u.home * (u.trs.filter (fun t => t.1 = v)).length)).sum
  let cnt (f : UnitPlan → Bool) : Nat := (ps.filter f).length
  let mk := match fin with | some x => (x.2.kind, x.2.modUnit, x.2.width) | none => (0, 0, 0)
  let counts : EdgeCounts := {
    placed := trs, events := (bs.map (fun b => b.evs.length)).sum, samples := cnt (fun u => u.resampled), moves := cnt (fun u => u.moved)
    keeps := (bs.filter (fun b => b.kind = 2)).length, deferred := cnt (fun u => u.deferred) + (placed.filter (fun x => x.2.lost)).length, fallbacks := (bs.filter (fun b => b.fallback)).length
    modKind := mk.1, modUnit := mk.2.1, width := mk.2.2, dropped := b2n carry.2, ups := ups true, downs := ups false }
  let s := s.updGrp g (fun a => { a with carry := carry.1, counts := counts })
  let forces := ((s.edg.units.filter (fun x => x.2.force ≠ 0 && mapGroup (s.mapEntry x.1) = g)).length)
  let byps := ((s.edg.units.filter (fun x => 1 ≤ x.2.byp.step && x.2.byp.step ≤ 4 && mapGroup (s.mapEntry x.1) = g)).length)
  let idle := us.any (fun h => match (s.grp g).idleUpto with | some e => epGe e (s.planEpoch h) && s.planRuns g (s.planEpoch h) | none => false)
  let cap (v : Nat) : Nat := min 65535 v
  if g = 7 then s else s.annexPut n (0x5000 + 512 * g) [BitVec.ofNat 32 (cap counts.placed * 2 ^ 16 + cap counts.events),
    BitVec.ofNat 32 (cap counts.samples * 2 ^ 16 + cap counts.moves), BitVec.ofNat 32 (cap counts.keeps * 2 ^ 16 + cap counts.deferred),
    BitVec.ofNat 32 (cap counts.fallbacks * 2 ^ 16 + counts.modKind * 2 ^ 14 + min 16383 counts.width), toF32 (konst (carry.1 / 16384)),
    BitVec.ofNat 32 (cap counts.dropped * 2 ^ 16 + min 127 forces * 2 ^ 8 + min 127 byps),
    BitVec.ofNat 32 (b2n (smGet 0 s.sys.missRun 8 ≠ 0) * 4 + b2n idle * 2 + b2n (bit (s.groupsBlocked s.sys.conv) g)),
    BitVec.ofNat 32 (cap counts.ups * 2 ^ 16 + cap counts.downs)]

/-- The pass of the Edge Planner over every group, the spares among them, of which no class is planned (R25, R249, R266, R268). -/
def State.edgePass (s : State) : State :=
  let n := s.sys.epoch - 1
  (List.range 8).foldl (fun s g => s.edgeGroup n g) s

/-- EDGE_PLANNER_PASS: item 8 of R20 in the present epoch. -/
def execEdgePlannerPass (s : State) : Out := .next (s.runItem 8 State.edgePass)

/-- A unit whose profiles the device keeps: JOINING, PRESENT, UNOBSERVED or MOVING (R273). -/
def State.holdsProfiles (s : State) (h : Nat) : Bool :=
  let st := (s.unit h).status
  st = .joining || st = .present || st = .unobserved || st = .moving

/-- The profile work of a unit that has become JOINING (R272). (DEDUCED, log 24.) -/
def State.profWork (s : State) (h : Nat) : List ProfItem :=
  let cls := mapClass (s.mapEntry h)
  let idx := bitList 16 (s.profMask cls)
  let n := typeSwitches (s.classType cls)
  idx.flatMap (fun i => profLoads false i n) ++ idx.flatMap (fun i => profLoads true i n) ++ idx.map (.check false ·) ++ idx.map (.check true ·)

/-- PROFILE_LOAD of a unit: its profile work begins, or its next transaction is sent when its gauge covers it (R253, R272). -/
def execProfileLoad (h : Nat) (s : State) : Out :=
  if !s.holdsProfiles h || !(s.unit h).hasHold then .next s
  else
    let p := (s.eunit h).prof
    let s := if p.begun then s else s.updProf h (fun p => { p with begun := true, todo := s.profWork h })
    let bad := match s.entry h with | some e => bit e.fault 1 && !e.stale | none => false
    let s := if (s.eunit h).prof.todo.isEmpty ∧ bad = true then
        s.updProf h (fun p => { p with todo := [.recheck (s.eunit h).bank (s.eunit h).profile] }) else s
    let p := (s.eunit h).prof
    let later := match p.refused, s.entry h with
      | some r, some e => e.aux ≠ r
      | some _, none => false
      | none, _ => true
    let cls := mapClass (s.mapEntry h)
    if p.asked then .next s
    else match p.todo with
      | .load b i sw :: _ =>
        if s.coversProfile h && later then
          let w := s.profWord cls (b2n b) i sw
          .next ((s.updProf h (fun p => { p with asked := true })).svcAsk (s.servedOn h) (.profileLoad h w) (s.positionOf h) 0x06 w)
        else .next s
      | .check b i :: _ | .recheck b i :: _ =>
        .next ((s.updProf h (fun p => { p with asked := true })).svcAsk (s.servedOn h) (.profileCheck h (b2n b * 16 + i)) (s.positionOf h) 0x07 (b2n b * 16 + i))
      | [] => .next s

/-- A profile word of class c has changed: the profile is unverified in bank b for every unit of the class, and is loaded and
checked again (R273). -/
def State.profChanged (s : State) (c b i : Nat) : State :=
  let n := typeSwitches (s.classType c)
  let us := s.mapped.filter (fun h => mapExpected (s.mapEntry h) && mapClass (s.mapEntry h) = c && s.holdsProfiles h)
  us.foldl (fun s h =>
    let s := s.setVerified h (b = 1) i false
    if (s.eunit h).prof.begun && bit (s.profMask c) i then
      s.updProf h (fun p => { p with todo := p.todo ++ profLoads (b = 1) i n ++ [.check (b = 1) i] })
    else s) s

/-- The units with a force entry. -/
def State.forces (s : State) : List Nat := (s.edg.units.filter (fun x => x.2.force ≠ 0)).map Prod.fst

/-- The result of a force command. -/
def State.forceResult (s : State) (r : Nat) : State := s.setRf R.EDG_FORCE_STAT 2 0 r

/-- SET of a force entry at the boundary E(a) (R276). -/
def State.forceSet (s : State) (h code : Nat) : State :=
  let st := (s.unit h).status
  if (s.sys.conv = .run ∧ !s.commission) ∨ code = 0 ∨ (code = 2 ∧ s.classType (mapClass (s.mapEntry h)) = 3) then s.forceResult 2
  else if (st ≠ .present ∧ st ≠ .unobserved) ∨ s.bypassing h = true then s.forceResult 3
  else if 64 ≤ s.forces.length ∧ (s.eunit h).force = 0 then s.forceResult 4
  else
    let s := s.updEunit h (fun u => { u with force := code })
    (s.forceResult 1).setRf R.EDG_FORCE_STAT 31 16 ((s.sys.epoch.toNat + 1 + s.orderLead h) % 2 ^ 16)

/-- A force entry is released: the unit returns to the lists in its forced state (R277). -/
def State.forceRelease (s : State) (h : Nat) : State := s.updEunit h (fun u => { u with force := 0 })

/-- Every force entry is released (R277). -/
def State.releaseAll (s : State) : State := s.forces.foldl State.forceRelease s

/-- The action of a write to EDG_FORCE: SET, RELEASE or RELEASE_ALL, the highest bit that is 1. -/
def State.forceAction (s : State) (r : Requester) (w : Word) : State :=
  s.asOwner r R.EDG_FORCE (fun s =>
    if flag w 31 then s.forceSet (fld w 11 0) (fld w 17 16)
    else if flag w 30 then (s.forceRelease (fld w 11 0)).forceResult 5
    else if flag w 29 then s.releaseAll.forceResult 5 else s)

/-- A bypass sequence starts for unit h, unless one is in progress or done (R278, R280); its force entry is released. -/
def State.bypStart (s : State) (h : Nat) : State :=
  let b := (s.eunit h).byp
  if 1 ≤ b.step ∧ b.step ≤ 5 then s
  else
    let lost := (s.unit h).status = .lost
    (s.forceRelease h).updByp h (fun _ => { step := if lost then 2 else 1, retryAt := if lost then some s.sys.epoch else none })

/-- GO of EDG_BYPASS at the boundary (R278). -/
def State.bypassGo (s : State) (h : Nat) : State :=
  let st := (s.unit h).status
  let res (s : State) (r : Nat) : State := s.setRf R.EDG_BYPASS_STAT 2 0 r
  let fired := match s.entry h with | some e => e.state = 3 | none => false
  let g := mapGroup (s.mapEntry h)
  if (st ≠ .present ∧ st ≠ .unobserved ∧ st ≠ .lost) ∨ fired = true ∨ s.bypassing h = true then res s 2
  else if st = .present ∧ s.healthy h = true ∧ s.healthyCount g < s.nReq g + 1 then res s 3
  else res (s.bypStart h) 1

/-- BYPASS_FIRE: the order that the present pass has written for an epoch from j + 2 to j + 4 takes FIRE_BYPASS when the gauge covers it; a
pass that missed its deadline has written none (R253, R268, R279). -/
def execBypassFire (h : Nat) (s : State) : Out :=
  let b := (s.eunit h).byp
  let o := smGet {} s.edg.orders h
  match b.j, o.c with
  | some j, some c =>
    let d := (c - j).toNat
    if b.step = 3 ∧ 2 ≤ d ∧ d ≤ 4 ∧ c = s.planEpoch h ∧ bit s.sys.missNow 8 = false ∧ s.coversFire h then
      let s := { s with edg := { s.edg with orders := smSet {} s.edg.orders h { o with fire := true } } }
      .next (s.updByp h (fun b => { b with step := 4, f := some c }))
    else .next s
  | _, _ => .next s

/-- BYPASS_CONFIRM_TIMEOUT: no record with STATE bypass-fired within 64 ep of f; the sequence goes back to ARM, or has
failed (R279). -/
def execBypassConfirmTimeout (h : Nat) (s : State) : Out :=
  let b := (s.eunit h).byp
  match b.f, s.cel.newest with
  | some f, some n =>
    let fired := match s.entry h with | some e => e.state = 3 | none => false
    if b.step = 4 ∧ (s.unit h).status ≠ .lost ∧ fired = false ∧ epGe n f ∧ 64 ≤ (n - f).toNat then
      let tries := b.tries + 1
      if max 1 (s.rf R.EDG_CFG 30 28) ≤ tries then
        .next (((s.updByp h (fun b => { b with step := 6, tries := tries })).latch R.EDG_CAUSE 3).prtEvent 40)
      else .next (s.updByp h (fun b => { b with step := 2, tries := tries }))
    else .next s
  | _, _ => .next s

/-- LOST_BYPASS_RETRY: ARM and FIRE are sent again to a LOST unit every 256 ep (R280). -/
def execLostBypassRetry (h : Nat) (s : State) : Out :=
  let b := (s.eunit h).byp
  match b.retryAt with
  | some e =>
    if (s.unit h).status = .lost ∧ s.bypassing h = true ∧ s.sys.conv ≠ .off ∧ 256 ≤ (s.sys.epoch - e).toNat then
      .next (s.updByp h (fun b => { b with step := 2, retryAt := some s.sys.epoch }))
    else .next s
  | none => .next s

/-- UNIT_LOST: STALE_RUN has reached 256; the unit is planned for bypass (R117, R278). -/
def execUnitLost (h : Nat) (s : State) : Out :=
  let u := s.unit h
  if 256 ≤ u.staleRun ∧ (u.status = .unobserved ∨ u.status = .present ∨ u.status = .joining ∨ u.status = .moving) then
    let s := ((s.updUnit h (fun u => { u with status := .lost })).latch R.LNK_STR_CAUSE 3)
    let s := if s.bypassing h then s.updByp h (fun b => { b with step := 2, retryAt := some s.sys.epoch }) else s
    .next (s.bypStart h)
  else .next s

/-- BRIDGE_LIMIT_EXPIRY: the bridged time limit of pair m has expired; every moved unit is bypassed where the margin of every
group allows it, and the expiry is a Lock-out elsewhere (R129). -/
def execBridgeLimitExpiry (m : Nat) (s : State) : Out :=
  let p := s.pair m
  let limit := s.epOfMs (1000 * clampNat 1 3600 (s.rf R.LNK_BRIDGE_LIMIT 11 0))
  if (p.state = .bridged ∨ p.state = .handback) ∧ p.expired = false ∧ limit ≤ p.limitEp then
    let s := (s.updPair m (fun p => { p with expired := true })).latch R.LNK_STR_CAUSE 7
    let groups := (p.moved.map (fun h => mapGroup (s.mapEntry h))).dedup
    let ok := groups.all (fun g =>
      s.nReq g + ((p.moved.filter (fun h => mapGroup (s.mapEntry h) = g && s.healthy h)).length) ≤ s.healthyCount g)
    .next (if ok then p.moved.foldl State.bypStart (s.updPair m (fun p => { p with retire := true })) else s.prtEvent 41)
  else .next s

/-- A pair whose limit expired with every group's check passed, and whose moved units have all fired or are LOST: those that fired are
RETIRED, and at an even EPOCH of the serving lane the pair is NORMAL (R129). -/
def State.expiredPair (s : State) (m : Nat) : State :=
  let p := s.pair m
  let fired (h : Nat) : Bool := match s.entry h with | some e => e.state = 3 | none => false
  if p.retire ∧ p.moved ≠ [] ∧ p.moved.all (fun h => (s.eunit h).byp.step = 5 || fired h || (s.unit h).status = .lost) ∧ s.servingEven m then
    let s := p.moved.foldl (fun s h => if fired h then s.updUnit h (fun u => { u with status := .retired }) else s) s
    s.pairNormal m
  else s

/-- Unit h of the Edge Planner at a boundary: a confirmed bypass is DONE, a unit that has restarted leaves DONE, and what the
device keeps of a unit that has left PRESENT is cleared (R261, R272, R279). -/
def State.edgUnit (s : State) (h : Nat) : State :=
  let st := (s.unit h).status
  let u := s.eunit h
  let freshState := match s.entry h with | some e => if e.stale then none else some e.state | none => none
  let s := if s.bypassing h && freshState = some 3 then (s.updByp h (fun b => { b with step := 5 })).latch R.EDG_CAUSE 2 else s
  let s := if u.byp.step = 5 && (match freshState with | some x => x ≠ 3 | none => false) then s.updByp h (fun _ => {}) else s
  let s := if st = .present ∨ st = .moving then s else s.clearDead h
  let s := if s.holdsProfiles h then s else s.updEunit h (fun u => { u with prof := {}, ver0 := 0, ver1 := 0, bank := false })
  if s.sys.conv ≠ .run ∧ s.sys.announce.isNone ∧ u.pstate ≠ 0 then s.updEunit h (fun u => { u with pstate := 0 }) else s

/-- The Edge Planner at a boundary (R277, R279): forces are released in RUN without commissioning. -/
def State.edgBoundary (s : State) : State :=
  let s := (s.edg.units.map Prod.fst).foldl State.edgUnit s
  let s := (s.lnk.pairs.map Prod.fst).foldl State.expiredPair s
  if s.sys.conv = .run ∧ !s.commission then s.releaseAll else s

/-- Entry into OFF: every force entry is released, and the sequences of LOST units end (R277, R280). -/
def State.edgOff (s : State) : State :=
  let s := s.releaseAll
  (s.edg.units.map Prod.fst).foldl (fun s h => if (s.unit h).status = .lost ∧ s.bypassing h = true then s.updByp h (fun _ => {}) else s) s

/-- EDG_STATUS (R283). (DEDUCED, log 23.) -/
def State.edgStatus (s : State) : Word :=
  let cl := ofBits ((List.range 7).map (fun g => (s.grp g).clampd))
  let by_ := (s.edg.units.filter (fun x => 1 ≤ x.2.byp.step && x.2.byp.step ≤ 4)).length
  BitVec.ofNat 32 (cl * 2 ^ 16 + min 127 by_ * 2 ^ 8 + min 127 s.forces.length)

/-- The word of the unit table that a requester's EDG_TBL_ADDR names (R284). -/
def State.edgTable (s : State) (r : Requester) : Word :=
  let a := s.reg (ownKey r R.EDG_TBL_ADDR)
  let h := fld a 13 2
  let u := s.eunit h
  let cls := mapClass (s.mapEntry h)
  BitVec.ofNat 32 (match fld a 1 0 with
    | 0 => u.ver0 * 2 ^ 16 + u.ver1
    | 1 => b2n u.bank * 2 ^ 31 + u.byp.step * 2 ^ 28 + u.force * 2 ^ 26 + b2n u.eligible * 2 ^ 25 + u.pstate * 2 ^ 23 + u.profile * 2 ^ 16 + u.sample
    | 2 => (s.stepsOf (s.deadNs cls h true)).toNat % 2 ^ 14 * 2 ^ 16 + (s.stepsOf (s.deadNs cls h false)).toNat % 2 ^ 14
    | _ => u.nUp * 2 ^ 24 + u.nDn * 2 ^ 16 + min 255 u.byp.tries * 2 ^ 8)

/-- The field rules of the EDG block (R283). -/
def edgRule (off : Nat) (w : Word) : Option Word :=
  if off = R.EDG_CFG then some (setFld w 30 28 (max 1 (fld w 30 28)))
  else if R.EDG_CLS_DT 0 ≤ off ∧ off ≤ R.EDG_CLS_GATE 15 ∧ (off - R.EDG_CLS_DT 0) % 16 = 0 then
    (let floor := min (fld w 23 16) (fld w 31 24)
     some (setFld (setFld w 23 16 floor) 15 8 (clampNat floor (fld w 31 24) (fld w 15 8))))
  else if off = R.EDG_PROF_DATA then (if fld w 4 0 ≠ 0 then none else some w)
  else if R.EDG_GRP_IBAND 0 ≤ off ∧ off ≤ R.EDG_GRP_IPROF 6 then hostF32NonNeg w
  else some w

/-- A write is held pending: a class word outside OFF (R283), or a profile word in RUN or HOLD whose bank a unit of its class
has active (R273). -/
def State.edgHeld (s : State) (key off : Nat) : Bool :=
  if R.EDG_CLS_DT 0 ≤ off ∧ off ≤ R.EDG_CLS_GATE 15 then s.sys.conv ≠ .off
  else if off = R.EDG_PROF_DATA then
    let k := key / 0x10000 - 0x500
    (s.sys.conv = .run || s.sys.conv = .hold) && s.mapped.any (fun h =>
      mapExpected (s.mapEntry h) && mapClass (s.mapEntry h) = k / 128 && s.holdsProfiles h && b2n (s.eunit h).bank = k / 64 % 2)
  else false

end Sys2Proof.Machine
end

