-- ==== Sys2Proof/Machine/Mfe.lean ====
section
/-! DEFINITION. The Measurement Front End (chapter 02): sampling, epoch values, automatic gain, open wire, cross-check,
window monitors, comparators, self-test and encoders. -/

namespace Sys2Proof.Machine

/-- Rounding to nearest, ties away from zero (R41, R42, R45). -/
def roundAway (q : Rat) : Int := if 0 ≤ q then (q + 1 / 2).floor else -((-q + 1 / 2).floor)


/-- The raw LSB in nV (R40). -/
def rawLsb (g8 : Bool) : Int := if g8 then 40000 else 320000

/-- The raw code of a voltage (R40): the nearest code, saturated; on a transition the free bit chooses the neighbour.
(DEDUCED, log 13.) -/
def rawCode (g8 : Bool) (nv : Int) (tie : Bool) : Int :=
  let lsb := rawLsb g8
  let lo := nv / lsb
  let r := nv % lsb
  let code := if 2 * r < lsb then lo else if 2 * r > lsb then lo + 1 else if tie then lo + 1 else lo
  clampInt (-32768) 32767 code

/-- A voltage lies exactly on a code transition within the range (R40). (DESIGN CHOICE, log 2.) -/
def onTransition (g8 : Bool) (nv : Int) : Bool :=
  2 * (nv % rawLsb g8) = rawLsb g8 && -32769 * rawLsb g8 < nv && nv < 32767 * rawLsb g8

/-- The factory trim word of input i at the given gain (R41). (DESIGN CHOICE, log 12.) -/
def State.factoryTrim (s : State) (i : Nat) (g8 : Bool) : Word := if g8 then Config.trimX8 i else s.reg (R.MFE_TRIM_F i)

/-- The corrected sample (R41). -/
def State.correct (s : State) (i : Nat) (g8 : Bool) (raw : Int) : Int :=
  let f := s.factoryTrim i g8
  let u := s.reg (R.MFE_TRIM_U i)
  let ofs : Int := signed 16 (fld f 15 0) + signed 16 (fld u 15 0)
  let g : Int := signed 16 (fld f 31 16) + signed 16 (fld u 31 16)
  let x : Rat := ((raw : Rat) - (ofs : Rat) / 16) * (1 + (g : Rat) / 262144)
  clampInt (-32767) 32767 (roundAway x)

/-- Input i is under self-test of kind 1 (R59). -/
def State.inputTested (s : State) (i : Nat) : Bool :=
  match s.mfe.test with
  | some t => t.kind = 1 && t.target = i
  | none => false

/-- Comparator j is under self-test (R59). -/
def State.cmpTested (s : State) (j : Nat) : Bool :=
  match s.mfe.test with
  | some t => t.kind ≠ 1 && t.target = j
  | none => false

/-- The gain in force of input i: true for ×8 (R45); an ADC tie converts at ×1 (R58). GAIN_MODE becoming automatic leaves the gain at what
automatic mode last held, ×1 at reset, and the quiet epochs counted until then count toward DWELL. (DEDUCED, log 13.) -/
def State.gain8 (s : State) (i : Nat) : Bool :=
  !s.inputTested i && match s.rf (R.MFE_INCFG i) 9 8 with
    | 1 => true
    | 2 => (s.input i).gain8
    | _ => false

/-- The check epoch's period exponent P (R50). -/
def State.xchkP (s : State) : Nat := s.rf R.MFE_XCHK 3 0

/-- The present epoch is a check epoch (R50). -/
def State.checkEpoch (s : State) : Bool := s.sys.epoch.toNat % 2 ^ s.xchkP = 0

/-- The count c of the present check epoch (R50). -/
def State.checkC (s : State) : Nat := s.sys.epoch.toNat / 2 ^ s.xchkP

/-- Pair p performs a check in slot k of the present epoch (R50, R51): it is enabled and not under self-test. -/
def State.checksNow (s : State) (p k : Nat) : Bool :=
  s.checkEpoch && s.rb (R.MFE_INCFG (2 * p)) 12 && (s.checkC / 2) % 4 = k && !s.inputTested (2 * p) && !s.inputTested (2 * p + 1)

/-- The line that pair p shares in the present check epoch (R50). -/
def State.sharedLine (s : State) (p : Nat) : Nat := 2 * p + s.checkC % 2

/-- A sample at ×8 that reached the end of its range is clipped (R45). -/
def clipped (x : Sample) : Bool := x.gain8 && x.corr.natAbs = 32767

/-- The sample of input i at a slot instant, and its free value used when the voltage lies on a transition. (DEDUCED, log 13.) -/
def State.takeSample (s : State) (i : Nat) (g8 : Bool) (nv : Int) (ovrNv : Int) (given : Bool) : Sample × State :=
  let tie := onTransition g8 nv
  let raw := rawCode g8 nv (tie && Config.freeBit s.freeCount)
  let s' := if tie then s.free.2 else s
  (⟨raw, g8, s.correct i g8 raw, 10240000000 < ovrNv.natAbs, given⟩, s')

/-- Input i after a sample: over-range run, down-switch, and the sums of its self-test (R45, R46, R58). A sample taken of the pair's line
is none of this input's: it does not switch its gain (R45, R49). R58 does not say whether the means are of raw or of corrected samples:
the sums are of raw codes. (DEDUCED, log 13.) -/
def State.addSample (s : State) (i : Nat) (x : Sample) : State :=
  let down := x.gain8 && !x.given && 30000 ≤ x.corr.natAbs
  let s := s.updInput i (fun a =>
    { a with
      cur := a.cur ++ [x]
      overRun := if x.ovr then a.overRun + 1 else 0
      gain8 := if down then false else a.gain8
      quiet := if down then 0 else a.quiet })
  if s.inputTested i then
    { s with mfe := { s.mfe with test := s.mfe.test.map (fun t =>
        { t with sums := t.sums.set (t.ep / 64) (t.sums.getD (t.ep / 64) 0 + x.raw) }) } }
  else s

/-- A check of pair p with the samples of its two converters, each with the detector of its own input, both brought to ×1 (R46, R51).
(DEDUCED, log 13.) -/
def State.checkPair (s : State) (p : Nat) (a b : Sample) : State :=
  if a.ovr || b.ovr || clipped a || clipped b then s else
    let x1 (x : Sample) : Int := if x.gain8 then roundAway ((x.corr : Rat) / 8) else x.corr
    let ok := (x1 a - x1 b).natAbs ≤ s.rf R.MFE_XCHK 23 16
    let upd (q : PairSt) : PairSt :=
      if ok then { q with passes := q.passes + 1, fails := 0 } else { q with fails := q.fails + 1, passes := 0 }
    let s := { s with mfe := { s.mfe with pairs := smUpd {} s.mfe.pairs p upd } }
    if ok then s else (s.count (R.MFE_INSTAT (2 * p)) 7 0).count (R.MFE_INSTAT (2 * p + 1)) 7 0

/-- The slot of pair p: both converters sample, and in a check slot both sample the shared line (R49–R51). -/
def State.samplePair (s : State) (slot p : Nat) (va vb : SampleIn) : State :=
  let ia := 2 * p
  let ib := 2 * p + 1
  if s.checksNow p slot then
    let evenOwner := s.sharedLine p = ia
    let gOwn := if evenOwner then s.gain8 ia else s.gain8 ib
    let (x, s) := s.takeSample ia gOwn (if evenOwner then va.nv else va.pairNv) va.nv (!evenOwner)
    let (y, s) := s.takeSample ib gOwn (if evenOwner then vb.pairNv else vb.nv) vb.nv evenOwner
    ((s.checkPair p x y).addSample ia x).addSample ib y
  else
    let (x, s) := s.takeSample ia (s.gain8 ia) va.nv va.nv false
    let (y, s) := s.takeSample ib (s.gain8 ib) vb.nv vb.nv false
    (s.addSample ia x).addSample ib y

/-- The samples of an epoch from which its value is built: those not given to a cross-check (R42). -/
def ownSamples (xs : List Sample) : List Sample := xs.filter (fun x => !x.given)

/-- The epoch count of quiet epochs and of epochs without over-range, taken at the last slot (R45, R46). -/
def State.endOfSlots (s : State) (i : Nat) : State :=
  let up := s.rf R.MFE_AGC 31 16
  s.updInput i (fun a =>
    { a with
      cleanEp := if a.cur.any (·.ovr) then 0 else min 64 (a.cleanEp + 1)
      quiet := if (ownSamples a.cur).all (fun x => !x.gain8 && x.corr.natAbs ≤ up) then min 255 (a.quiet + 1) else 0 })

/-- w(t) of R55: the widening at t whole epochs after the start of the period. (DEDUCED, log 13.) -/
def State.rampW (s : State) (j : Nat) : Int :=
  let r := s.reg (R.MFE_CMP_RAMP j)
  let t := (smGet {} s.mfe.cmps j).t
  if s.rb (R.MFE_CMP_CFG j) 5 then max 0 ((fld r 11 0 : Int) - (fld r 15 12 : Int) * (t : Int)) else 0

/-- The references of comparator j are exchanged by a swap test (R58). -/
def State.cmpSwapped (s : State) (j : Nat) : Bool :=
  match s.mfe.test with
  | some t => t.kind = 2 && t.target = j
  | none => false

/-- The upper and the lower reference code of R55. -/
def State.cmpRefs (s : State) (j : Nat) : Int × Int :=
  (min 2047 (s.rs (R.MFE_CMP_THR j) 27 16 + s.rampW j), max (-2048) (s.rs (R.MFE_CMP_THR j) 11 0 - s.rampW j))

/-- The upper reference code in force (R55, R58). -/
def State.upperRef (s : State) (j : Nat) : Int := if s.cmpSwapped j then (s.cmpRefs j).2 else (s.cmpRefs j).1

/-- The lower reference code in force (R55, R58). -/
def State.lowerRef (s : State) (j : Nat) : Int := if s.cmpSwapped j then (s.cmpRefs j).1 else (s.cmpRefs j).2

/-- The hysteresis of comparator j in nV (R53). -/
def State.cmpHyst (s : State) (j : Nat) : Int := [0, 10000000, 20000000, 40000000].getD (s.rf (R.MFE_CMP_CFG j) 9 8) 0

/-- The input of comparator j lies beyond an active reference, with the hysteresis while its output is 1 (R53). A DAC code
stands for 5.12 mV. -/
def State.cmpBeyond (s : State) (j : Nat) (nv : Int) : Bool :=
  let c := s.reg (R.MFE_CMP_CFG j)
  let h := if (smGet {} s.mfe.cmps j).out then s.cmpHyst j else 0
  (flag c 3 && decide (s.upperRef j * 5120000 - h < nv)) || (flag c 4 && decide (nv < s.lowerRef j * 5120000 + h))

/-- Changes comparator j. -/
def State.updCmp (s : State) (j : Nat) (f : CmpSt → CmpSt) : State :=
  { s with mfe := { s.mfe with cmps := smUpd {} s.mfe.cmps j f } }

/-- The output of comparator j returns to 0 when its input has come back within the window (R53). -/
def State.cmpRelease (s : State) (j : Nat) (v : List SampleIn) : State :=
  let i := s.rf (R.MFE_CMP_CFG j) 21 16
  if (smGet {} s.mfe.cmps j).out && !s.cmpBeyond j ((v.getD i ⟨0, 0⟩).nv) then s.updCmp j (fun c => { c with out := false }) else s

/-- The slot instant (R40): every converter samples, the over-range detectors are latched, cross-checks are taken, and the
encoder lines are sampled. -/
def execSlotSample (slot : Nat) (v : List SampleIn) (enc : List EncLines) (s : State) : Out :=
  let s := (List.range 24).foldl (fun s p =>
    s.samplePair slot p (v.getD (2 * p) ⟨0, 0⟩) (v.getD (2 * p + 1) ⟨0, 0⟩)) s
  let s := if slot = 3 then (List.range 48).foldl State.endOfSlots s else s
  let s := (List.range 16).foldl (fun s j => s.cmpRelease j v) s
  .next ((List.range 3).foldl (fun s k =>
    { s with mfe := { s.mfe with encs := smUpd {} s.mfe.encs k (fun e =>
        { e with last := (enc.getD k ⟨false, false, false⟩ :: e.last).take 3 }) } }) s)

/-- Automatic gain switches up at a boundary after DWELL quiet epochs (R45). -/
def execGainUpSwitch (i : Nat) (s : State) : Out :=
  if s.rf (R.MFE_INCFG i) 9 8 = 2 ∧ (s.input i).gain8 = false ∧ s.rf R.MFE_AGC 15 8 ≤ (s.input i).quiet then
    .next (s.updInput i (fun a => { a with gain8 := true, quiet := 0 }))
  else .next s

/-- The epoch value of the samples of an epoch, and whether it is in the ×8 LSB (R42, R45). -/
def epochValue (xs : List Sample) : Int × Bool :=
  let own := ownSamples xs
  let g8 := own.all (·.gain8)
  let val (x : Sample) : Int := if g8 || !x.gain8 then x.corr else roundAway ((x.corr : Rat) / 8)
  let sum := (own.map val).sum
  (if own.length = 3 then roundAway ((sum : Rat) * 4 / 3) else sum, g8 && own ≠ [])

/-- The measurement word of input i for the epoch that ended (R43, R46, R59): SUSPECT goes by every over-range sample of the epoch, one
in a slot given to a check among them, and by the clipped samples of the value; OPEN and the self-test are those of that epoch. -/
def State.measWord (s : State) (i : Nat) : Word :=
  let a := s.input i
  let own := ownSamples a.prev
  let v := epochValue a.prev
  let suspect := a.prev.any (·.ovr) || own.any clipped || a.prevTested
  let xf := (smGet {} s.mfe.pairs (i / 2)).xfail
  BitVec.ofNat 32 (b2n suspect * 2 ^ 31 + b2n a.prevOpen * 2 ^ 30 + b2n xf * 2 ^ 29 + b2n (own.length = 3) * 2 ^ 28 +
    b2n v.2 * 2 ^ 27 + unsigned 18 v.1)

/-- The value of a measurement word in the 80 µV LSB (R52). -/
def valueX1 (w : Word) : Int :=
  let v := signed 18 (fld w 17 0)
  if flag w 27 then roundAway ((v : Rat) / 8) else v

/-- The window monitor of input i on its present word (R52). -/
def State.windowMonitor (s : State) (i : Nat) : State :=
  let w := s.reg (R.MFE_VAL i)
  if !s.rb (R.MFE_INCFG i) 11 || flag w 31 then s else
    let v := valueX1 w
    let lo := s.rs (R.MFE_WIN_LO i) 17 0
    let hi := s.rs (R.MFE_WIN_HI i) 17 0
    let hys : Int := s.rf (R.MFE_WIN_HI i) 27 20
    if s.rb (R.MFE_INSTAT i) 31 then
      if lo + hys ≤ v ∧ v ≤ hi - hys then s.setRf (R.MFE_INSTAT i) 31 31 0 else s
    else if v < lo ∨ hi < v then
      ((((s.setRf (R.MFE_INSTAT i) 31 31 1).latch (R.MFE_INSTAT i) 30).count (R.MFE_INSTAT i) 15 8).latch R.MFE_CAUSE 0)
    else s

/-- The epoch values are delivered at E(n+1) + 4 ns as measurement words, and the window monitors evaluate them (R42, R52). -/
def execEpochValueDelivery (s : State) : Out :=
  let s := (List.range 48).foldl (fun s i => (s.setReg (R.MFE_VAL i) (s.measWord i)).windowMonitor i) s
  .next (s.annexPut (s.sys.epoch - 1) 0x40 ((List.range 48).map (fun i => s.reg (R.MFE_VAL i))))

/-- Open wire is declared at the fourth consecutive over-range sample (R46). -/
def execOpenWireDeclare (i : Nat) (s : State) : Out :=
  if 4 ≤ (s.input i).overRun ∧ (s.input i).isOpen = false then
    .next (((s.updInput i (fun a => { a with isOpen := true, cleanEp := 0 })).latch (R.MFE_INSTAT i) 29).latch R.MFE_CAUSE 2)
  else .next s

/-- OPEN clears with the 64th consecutive epoch without an over-range sample (R46). -/
def execOpenWireClear (i : Nat) (s : State) : Out :=
  if (s.input i).isOpen ∧ 64 ≤ (s.input i).cleanEp then .next (s.updInput i (fun a => { a with isOpen := false }))
  else .next s

/-- The LIMIT of consecutive checks (R51). -/
def State.xchkLimit (s : State) : Nat := s.rf R.MFE_XCHK 11 8

/-- After LIMIT consecutive failed checks the pair is in cross-check failure (R51). -/
def execXchkFailure (p : Nat) (s : State) : Out :=
  let q := smGet {} s.mfe.pairs p
  if q.xfail = false ∧ s.xchkLimit ≤ q.fails then
    .next (({ s with mfe := { s.mfe with pairs := smSet {} s.mfe.pairs p { q with xfail := true } } } : State).latch R.MFE_CAUSE 3)
  else .next s

/-- After LIMIT consecutive passed checks the failure ends (R51). -/
def execXchkRecovery (p : Nat) (s : State) : Out :=
  let q := smGet {} s.mfe.pairs p
  if q.xfail ∧ s.xchkLimit ≤ q.passes then
    .next { s with mfe := { s.mfe with pairs := smSet {} s.mfe.pairs p { q with xfail := false } } }
  else .next s

/-- Comparator j can trip on a side: it is enabled and that reference is active (R53). -/
def State.cmpArmed (s : State) (j : Nat) (upper : Bool) : Bool :=
  let c := s.reg (R.MFE_CMP_CFG j)
  flag c 0 && (if upper then flag c 3 else flag c 4)

/-- The latch of comparator j at a trip: LATCH and the captures, once (R53). -/
def State.cmpLatch (s : State) (j : Nat) (upper : Bool) (fine : Nat) : State :=
  let s := s.updCmp j (fun c => { c with out := true })
  let s := s.noteLt (R.MFE_CMP_STAT j) (maskOf 31 31)
  if s.rb (R.MFE_CMP_STAT j) 31 then s else
    (s.setReg (R.MFE_CMP_STAT j) (BitVec.ofNat 32
      (2 ^ 31 + b2n upper * 2 ^ 30 + bits fine 8 0 * 2 ^ 16 + lowE 16 s.sys.epoch))).latch R.MFE_CAUSE 1

/-- A trip of a comparator under test goes only to the test result (R59). -/
def State.cmpTestTrip (s : State) (upper : Bool) : State :=
  { s with mfe := { s.mfe with test := s.mfe.test.map (fun t => { t with trips := t.trips ++ [(upper, t.ep)] }) } }

/-- LATCH of comparator j is cleared with its captures, unless the trip persists or came in the epoch of the clear (R53, R56, R11). -/
def State.cmpClear (s : State) (j : Nat) : State :=
  if (smGet {} s.mfe.cmps j).out ∨ s.clearable (R.MFE_CMP_STAT j) (maskOf 31 31) = 0 then s else s.setReg (R.MFE_CMP_STAT j) 0

/-- A period of comparator j restarts; with AUTOCLR = 1, LATCH clears (R55, R56). -/
def execRampPeriodStart (j : Nat) (s : State) : Out :=
  let period := s.rf (R.MFE_CMP_RAMP j) 31 16
  let c := smGet {} s.mfe.cmps j
  if c.armed ∧ period ≠ 0 ∧ period ≤ c.t then
    let s := s.updCmp j (fun c => { c with t := 0 })
    .next (if s.rb (R.MFE_CMP_CFG j) 7 then s.cmpClear j else s)
  else .next s

/-- A self-test of the kind is permitted for the target (R58). -/
def State.testPermitted (s : State) (kind target : Nat) : Bool :=
  match kind with
  | 1 => target < 48 && (s.sys.conv = .off || s.rf (R.MFE_INCFG target) 4 0 = 0)
  | 2 | 3 => target < 16 && (!s.rb (R.MFE_CMP_CFG target) 6 || s.sys.conv = .off || s.sys.conv = .ready)
  | _ => false

/-- Sets RESULT of the self-test (R62). -/
def State.testResult (s : State) (r : Nat) : State := s.setRf R.MFE_TEST_STAT 2 0 r

/-- START of a self-test (R58): refused while a test runs or when its conditions are not met. (DEDUCED, log 13.) -/
def State.mfeTestStart (s : State) (kind target : Nat) : State :=
  if s.mfe.test.isSome || !s.testPermitted kind target then (s.testResult 4).latch R.MFE_CAUSE 5
  else
    let s := { s with mfe := { s.mfe with test := some ⟨kind, target, 0, [0, 0, 0], []⟩ } }
    s.setReg R.MFE_TEST_STAT 1

/-- The duration of a self-test in ep (R58). -/
def testDuration (kind : Nat) : Nat := if kind = 1 then 192 else if kind = 2 then 2 else 256

/-- The deviation of the three levels of an ADC tie test from ±25,600 and 0 raw LSB: the one of greatest magnitude. -/
def tieDeviation (sums : List Int) : Rat :=
  let d (k : Nat) (want : Rat) : Rat := ((sums.getD k 0 : Int) : Rat) / 256 - want
  let worse (a b : Rat) : Rat := if a.abs < b.abs then b else a
  worse (worse (d 0 25600) (d 1 0)) (d 2 (-25600))

/-- The trip offset in codes of a swept reference (R58): the first 128 ep sweep the upper reference, the next 128 the lower
one, each from 64 codes below; the spec states no order of the two. None when it did not trip, which fails the test, whether the
reference is active (HI_EN, LO_EN) or not. (DEDUCED, log 13.) -/
def sweepOffset (trips : List (Bool × Nat)) (upper : Bool) : Option Int :=
  (trips.find? (fun t => t.1 = upper)).map (fun t => ((t.2 : Int) - (if upper then 0 else 128)) - 64)

/-- The outcome of a self-test: pass, and DETAIL (R58, R59). (DEDUCED, log 13.) -/
def testOutcome (t : SelfTest) : Bool × Int :=
  if t.kind = 1 then (tieDeviation t.sums |>.abs |> (· ≤ 32), roundAway (tieDeviation t.sums))
  else if t.kind = 2 then (!t.trips.isEmpty, 0)
  else match sweepOffset t.trips true, sweepOffset t.trips false with
    | some u, some l => (u.natAbs ≤ 4 && l.natAbs ≤ 4, if u.natAbs < l.natAbs then l else u)
    | some u, none => (false, u)
    | none, some l => (false, l)
    | none, none => (false, 0)

/-- A self-test ends after its duration with pass or fail (R59). -/
def execSelfTestComplete (s : State) : Out :=
  match s.mfe.test with
  | some t =>
    if testDuration t.kind ≤ t.ep then
      let r := testOutcome t
      let s := { s with mfe := { s.mfe with test := none } }
      .next ((s.setReg R.MFE_TEST_STAT (BitVec.ofNat 32 (unsigned 12 (clampInt (-2048) 2047 r.2) * 16 + (if r.1 then 2 else 3)))).latch
        R.MFE_CAUSE 5)
    else .next s
  | none => .next s

/-- The majority of the last three samples of a line (R60). -/
def filtered (l : List EncLines) : EncLines :=
  let maj (f : EncLines → Bool) : Bool := 2 ≤ (l.filter f).length
  ⟨maj (·.a), maj (·.b), maj (·.z)⟩

/-- The position of (A, B) in the Gray sequence 00, 10, 11, 01. -/
def grayPos (a b : Bool) : Nat := if a then (if b then 2 else 1) else (if b then 3 else 0)

/-- The evaluation of encoder k in an epoch (R60): quadrature, then index. With EN = 0 the filtered state goes on being read, and
nothing counts; A, B and Z of MFE_ENC_STAT show the reading of the last evaluation (R62). (DEDUCED, log 13; DESIGN CHOICE, log 14.) -/
def State.encEval (s : State) (k : Nat) : State :=
  let e := smGet {} s.mfe.encs k
  let cfg := s.reg (R.MFE_ENC_CFG k)
  let now := filtered e.last
  let stat := R.MFE_ENC_STAT k
  let s := s.setRf stat 29 27 (b2n now.a * 4 + b2n now.b * 2 + b2n now.z)
  if !flag cfg 0 then { s with mfe := { s.mfe with encs := smSet {} s.mfe.encs k { e with prev := now, illegal := false } } } else
    let both := now.a != e.prev.a && now.b != e.prev.b
    let one := xor (now.a != e.prev.a) (now.b != e.prev.b)
    let fwd := (grayPos e.prev.a e.prev.b + 1) % 4 = grayPos now.a now.b
    let up := xor (xor (!fwd) Config.encoderUp) (flag cfg 1)
    let s := if one then s.setReg (R.MFE_ENC_POS k) (s.reg (R.MFE_ENC_POS k) + (if up then 1 else -1)) else s
    let s := if both then ((s.count stat 15 0).setRf stat 31 31 1).latch R.MFE_CAUSE 4 else s
    let zmode := fld cfg 3 2
    let index := now.z && !e.prev.z && (zmode = 1 || (zmode = 2 && now.a && now.b))
    let s := if index then
        ((s.setReg (R.MFE_ENC_POS k) (BitVec.ofInt 32 (signed 16 (fld cfg 31 16)))).setRf stat 31 31 0).latch stat 30
      else s
    { s with mfe := { s.mfe with encs := smSet {} s.mfe.encs k { e with prev := now, illegal := both } } }

/-- Each epoch every enabled encoder is evaluated (R60); the evaluation made in E(m) goes into the annex of Shelf m − 1, which is written in
that epoch (R61, R148). (DEDUCED, log 13.) -/
def execEncoderEvaluation (s : State) : Out :=
  let s := (List.range 3).foldl State.encEval s
  .next (s.annexPut (s.sys.epoch - 1) 0x100 ((List.range 3).flatMap (fun k => [s.reg (R.MFE_ENC_POS k), s.reg (R.MFE_ENC_STAT k)])))

/-- Step 3 of R60: the position of an enabled encoder is loaded; UNCERTAIN clears unless the last evaluation found an illegal
transition. With EN = 0 the position is frozen (R62). (DEDUCED, log 13.) -/
def State.encReref (s : State) (k : Nat) (pos : Word) : State :=
  if s.rb (R.MFE_ENC_CFG k) 0 then
    let s := s.setReg (R.MFE_ENC_POS k) pos
    if (smGet {} s.mfe.encs k).illegal then s else s.setRf (R.MFE_ENC_STAT k) 31 31 0
  else s

/-- A transition out of the state that permits the self-test ends it at that boundary (R59). (DEDUCED, log 13.) -/
def State.testAbort (s : State) : State :=
  match s.mfe.test with
  | none => s
  | some t =>
    if s.testPermitted t.kind t.target then s
    else ({ s with mfe := { s.mfe with test := none } }.testResult 5).latch R.MFE_CAUSE 5

/-- The Measurement Front End as an epoch ends: the samples of the epoch become those of its value, with OPEN and the self-test as they
stood in it, OPEN being gone with its 64th clean epoch (R43, R46, R59), and the self-test has run one more epoch (R58). -/
def State.mfeEpochEnd (s : State) : State :=
  let s := (List.range 48).foldl (fun s i => s.updInput i (fun a =>
    { a with prev := a.cur, cur := [], prevOpen := a.isOpen && decide (a.cleanEp < 64), prevTested := s.inputTested i })) s
  { s with mfe := { s.mfe with test := s.mfe.test.map (fun t => { t with ep := t.ep + 1 }) } }

/-- Comparator j at a boundary: arming starts a period, which with AUTOCLR = 1 and PERIOD other than 0 clears LATCH, and its epoch count
advances (R55, R56). -/
def State.cmpBoundary (s : State) (j : Nat) : State :=
  let cfg := s.reg (R.MFE_CMP_CFG j)
  let arms : Bool := flag cfg 0 && !(smGet {} s.mfe.cmps j).armed
  let s := s.updCmp j (fun c =>
    if !flag cfg 0 then {} else if !c.armed then { c with armed := true, t := 0 } else { c with t := min 65536 (c.t + 1) })
  if arms && flag cfg 7 && s.rf (R.MFE_CMP_RAMP j) 31 16 ≠ 0 then s.cmpClear j else s

/-- Encoder k at a boundary: UNCERTAIN is set when EN changes from 0 to 1 (R61). -/
def State.encBoundary (s : State) (k : Nat) : State :=
  let en := s.rb (R.MFE_ENC_CFG k) 0
  let was := (smGet {} s.mfe.encs k).enabled
  let s := { s with mfe := { s.mfe with encs := smUpd {} s.mfe.encs k (fun e => { e with enabled := en }) } }
  if en && !was then s.setRf (R.MFE_ENC_STAT k) 31 31 1 else s

/-- The Measurement Front End at an epoch boundary, once the writes have taken effect (R55, R61). -/
def State.mfeBoundary (s : State) : State :=
  let s := (List.range 16).foldl State.cmpBoundary s
  (List.range 3).foldl State.encBoundary s

/-- The field rules of the MFE block (R44, R57, R62): the word as the device takes it, or none for a write that is
ignored. -/
def mfeRule (s : State) (off : Nat) (w : Word) : Option Word :=
  if off = R.MFE_XCHK then
    some (setFld (setFld w 11 8 (max 1 (fld w 11 8))) 3 0 (clampNat 3 10 (fld w 3 0)))
  else if off = R.MFE_AGC then
    some (setFld (setFld w 31 16 (min 3750 (fld w 31 16))) 15 8 (max 1 (fld w 15 8)))
  else if R.MFE_INCFG 0 ≤ off ∧ off ≤ R.MFE_INCFG 47 then
    let i := (off - R.MFE_INCFG 0) / 4
    let role := fld w 4 0
    if 27 ≤ role then none
    else if role ≠ 0 ∧ role ≠ 26 ∧ (List.range 48).any (fun j => j ≠ i ∧ s.rf (R.MFE_INCFG j) 4 0 = role) then none
    else some (if fld w 9 8 = 3 then setFld w 9 8 0 else w)
  else if R.MFE_CMP_CFG 0 ≤ off ∧ off ≤ R.MFE_CMP_STAT 15 then
    let j := (off - R.MFE_CMP_CFG 0) / 16
    if off = R.MFE_CMP_CFG j then (if 47 < fld w 21 16 then none else some w)
    else if off = R.MFE_CMP_THR j then (if signed 12 (fld w 27 16) ≤ signed 12 (fld w 11 0) then none else some w)
    else if off = R.MFE_CMP_RAMP j then some (setFld w 15 12 (max 1 (fld w 15 12)))
    else some w
  else if R.MFE_ENC_CFG 0 ≤ off ∧ off ≤ R.MFE_ENC_REREF 2 then
    if (off - R.MFE_ENC_CFG 0) % 16 = 0 ∧ fld w 3 2 = 3 then some (setFld w 3 2 0) else some w
  else some w

/-- A write of comparator configuration is held in RUN and HOLD when it changes INSEL, RAMP or BLOCK_EN and BLOCK_EN is 1
before or after it (R57). -/
def mfeHeld (s : State) (off : Nat) (w : Word) : Bool :=
  if R.MFE_CMP_CFG 0 ≤ off ∧ off ≤ R.MFE_CMP_STAT 15 ∧ (off - R.MFE_CMP_CFG 0) % 16 = 0 then
    let o := s.reg off
    (s.sys.conv = .run || s.sys.conv = .hold) && (flag o 6 || flag w 6) &&
      (fld o 21 16 ≠ fld w 21 16 || flag o 5 != flag w 5 || flag o 6 != flag w 6)
  else false

end Sys2Proof.Machine
end

