-- ==== Sys2Proof/Machine/Converter.lean ====
section
/-! DEFINITION. The converter state machine (R31–R37) and the block logic (R291): a transition with all that belongs to it,
the announcement of RUN, the charge conditions, and a firing of the block path. -/

namespace Sys2Proof.Machine

/-- The opcodes of the state orders (R385). -/
def opDeblock : Nat := 0x02

/-- The opcode of BLOCK (R385). -/
def opBlock : Nat := 0x03

/-- Completes a state order: with OK, word 2 holds the states before and after (R389). -/
def State.stateDone (s : State) (r : OrderRef) (opcode status : Nat) (old new : Conv) : State :=
  s.complete r opcode status (if status = 0 then old.code * 16 + new.code else 0) 0

/-- Completes several state orders alike. -/
def State.statesDone (s : State) (rs : List OrderRef) (opcode status : Nat) (old new : Conv) : State :=
  rs.foldl (fun s r => s.stateDone r opcode status old new) s

/-- Cancels an announced transition to RUN; its DEBLOCK orders complete with the given status (R35). -/
def State.cancelAnnounce (s : State) (status : Nat) : State :=
  match s.sys.announce with
  | none => s
  | some a => { s with sys := { s.sys with announce := none } }.statesDone a.orders opDeblock status s.sys.conv s.sys.conv

/-- A trigger of the debug capture (R486): 1 entry into HOLD or LOCKOUT, 2 the block logic fires, 3 a halt takes effect. -/
def State.dbgTrigger (s : State) (kind : Nat) : State :=
  let c := s.dbg.cap
  if c.state = .armed ∧ fld c.cfg 30 28 = kind then { s with dbg := { s.dbg with cap := c.fire } } else s

/-- Trip output t is asserted from the present boundary (R308). -/
def State.assertTrip (s : State) (t : Nat) : State :=
  { s with prt := { s.prt with trips := smSet none s.prt.trips t (some s.sys.epoch) } }

/-- The trip outputs at an entry into LOCKOUT (R308). -/
def State.assertTrips (s : State) : State :=
  (List.range 4).foldl (fun s t => if s.rb (R.PRT_TRIP_CFG t) 31 then s.assertTrip t else s) s

/-- Source k was raised with class Lock-out during the present LOCKOUT. -/
def State.lockBit (s : State) (k : Nat) : State := s.latch (R.PRT_LOCKED (k / 32)) (k % 32)

/-- The sources raised for the device (R289). -/
def State.devRaised (s : State) : List Nat := s.prt.dev.map Prod.fst

/-- A Crate that is STAGING at an entry into LOCKOUT or OFF is to be aborted (R165). -/
def State.loseStaging (s : State) : State :=
  (List.range 4).foldl (fun s i => s.updCrate i (fun c => if c.state = .staging then { c with stateLost := true } else c)) s

/-- HOLD entries within the last REPEAT_WIN seconds (R300). (DEDUCED, log 11.) -/
def State.holdsInWindow (s : State) : Nat :=
  let win := s.epOfMs (1000 * max 1 (s.rf R.PRT_ESCALATE 15 0))
  (s.prt.holdEntries.filter (fun e => (s.sys.epoch - e).toNat < win)).length

/-- The entry into HOLD (R299, R300): the episode begins, and an entry beyond REPEAT_MAX raises HOLD_REPEAT. -/
def State.enterHold (s : State) : State :=
  let s := { s with prt := { s.prt with
    episode := some s.sys.epoch, holdAt := some s.sys.epoch, recDone := false, raises := s.prt.lastBlock, holdTimeoutDone := false,
    holdEntries := s.sys.epoch :: s.prt.holdEntries } }
  let s := if s.rf R.PRT_ESCALATE 23 16 < s.holdsInWindow then s.prtEvent 54 else s
  ((s.latch R.PRT_CAUSE 1).capHit 5).dbgTrigger 1

/-- The entry into LOCKOUT (R295, R299, R308): the episode ends, the trip outputs are asserted, and every source of class
Lock-out that is raised is recorded in PRT_LOCKED. -/
def State.enterLockout (s : State) : State :=
  let s := { s with prt := { s.prt with episode := none } }
  let s := (s.latch R.PRT_CAUSE 2).assertTrips
  let s := s.devRaised.foldl (fun s k => if s.srcClass k = 5 then s.lockBit k else s) s
  (((s.grdLeave false).loseStaging).capHit 5).dbgTrigger 1

/-- The entry into OFF (R130, R152, R191, R193, R225, R236, R277, R300). -/
def State.enterOff (s : State) : State :=
  let s := ((s.stringsOff.ctlOff.edgOff.grdLeave true).repairRows).loseStaging
  { s with prt := { s.prt with episode := none, holdEntries := [] } }

/-- The state word of SYS_CONV_STATE (R39). -/
def State.convStateWord (s : State) : Word :=
  BitVec.ofNat 32 (s.sys.cause * 2 ^ 16 + s.groupsBlocked s.sys.conv % 128 * 2 ^ 8 + b2n s.commission * 2 ^ 6 + s.sys.prev.code * 2 ^ 3 +
    s.sys.conv.code)

/-- SYS_ARM_STATUS[g] (R39). The table gives MARGIN_OK the reset value 0 beside an Effect (HEALTHY ≥ N_REQ) that is met with both 0: it
follows the Effect, and reads 1 at reset. (DESIGN CHOICE, log 42.) -/
def State.armStatus (s : State) (g : Nat) : Word :=
  BitVec.ofNat 32 (b2n (s.marginOk g) * 2 ^ 31 + s.healthyCount g % 2 ^ 11 * 2 ^ 16 + (s.groupHomes g).length % 2 ^ 11)

/-- The converter state word and SYS_ARM_STATUS in the annex of Shelf m, as they stand at the start of E(m) (R148). -/
def State.stateAnnex (s : State) : State :=
  s.annexPut s.sys.epoch 0x120 (s.convStateWord :: (List.range 7).map s.armStatus)

/-- What an entry into a state brings with it: the mode of the Grid Engine is set at an entry into RUN from READY (R236). -/
def State.enter (s : State) (old new : Conv) : State :=
  match new with
  | .off => s.enterOff
  | .charge =>
    let s := (if old = .off then s.stringsReset else s).gapCheck
    { s with sys := { s.sys with chargeGood := 0, chargeEp := 0, chargeExpired := false } }
  | .ready => { s.grdLeave false with sys := { s.sys with chargeBad := 0 } }
  | .run => if old = .ready then s.grdRun else s
  | .hold => s.enterHold
  | .lockout => s.enterLockout

/-- The three copies of a register word are pairwise different (R455). -/
def State.tripleAt (s : State) (key : Nat) : Bool :=
  s.regs.copyA key != s.regs.copyB key && s.regs.copyB key != s.regs.copyC key && s.regs.copyA key != s.regs.copyC key

/-- A TV word is in triple disagreement (R455): such a word has listed copies B and C. -/
def State.triple (s : State) : Bool := s.regs.b.any (fun x => s.tripleAt x.1)

/-- The sources of the Grid Engine and the chopper function, by bit of their cause mask (R244, R303). -/
def grdSourceOf : List (Nat × Nat) :=
  [(0, 57), (1, 58), (2, 59), (4, 60), (5, 61), (6, 62), (11, 63), (9, 64), (10, 65), (8, 66)]

/-- The indications of the other chapters that are raised (R303). (DEDUCED, log 25.) -/
def State.indications (s : State) : List Nat :=
  let run := s.sys.conv = .run ∨ s.sys.conv = .hold
  let mask := s.grdSources
  let margin := (List.range 7).any (fun g => (g < 6 || s.rb R.GRD_CFG 29) && !s.marginOk g)
  (if (List.range 5).any (fun c => (s.plaus c).fail) then [25] else []) ++ (if run ∧ margin then [39] else []) ++
    (if s.sys.counting ∧ s.ref.muted then [48] else []) ++ (if s.saf.lock then [49] else []) ++
    (if s.dbg.halted ≠ 0 then [50] else []) ++ (if s.triple then [51] else []) ++
    grdSourceOf.filterMap (fun x => if bit mask x.1 then some x.2 else none) ++
    (if s.sys.conv = .charge ∧ s.sys.chargeExpired then [67] else []) ++ (if s.strGap then [68] else [])

/-- The indications as they stand are what the passes of the epoch read (R285, R303). (DEDUCED, log 25.) -/
def State.prtIndicate (s : State) : State := { s with prt := { s.prt with ind := s.indications } }

/-- A transition to a state with a cause (R31, R33, R37): the Bin record, the events to the owners of CONVERTER, and what the
entry brings with it. A stop ramp ends with it, and its BLOCK orders complete with the given status (R192, R382). -/
def State.moveTo (s : State) (to_ : Conv) (cause : Nat) (stopStatus : Nat := 3) : State :=
  let old := s.sys.conv
  let detail := cause * 256 + old.code * 16 + to_.code
  let stops := s.sys.stopOrders
  let s := { s with
    sys := { s.sys with conv := to_, prev := old, cause := cause, moved := true, announce := none, stopOrders := [] }
    ctl := { s.ctl with stopping := none, rampZero := false, rampDone := false } }
  let s := s.statesDone stops opBlock stopStatus old to_
  let s := s.binLog 0x90 [detail]
  let s := s.eventMask (s.owner 0) 1 detail s.sys.epoch 0 0
  ((s.enter old to_).testAbort).stateAnnex.prtIndicate

/-- The block logic fires (R291): BLOCK on every active lane at the next block boundary, the first input latched with its instant, and
a Block-class reaction at the next boundary when the converter is in RUN or RUN is announced. The stage times of R292 are left out.
(DESIGN CHOICE, log 39.) -/
def State.blockFire (s : State) (input fine : Nat) : State :=
  let s := s.noteLt R.PRT_BLOCK_LATCH (maskOf 31 0)
  let s := if s.rb R.PRT_BLOCK_LATCH 31 then s else
    s.setReg R.PRT_BLOCK_LATCH (BitVec.ofNat 32
      (2 ^ 31 + bits input 4 0 * 2 ^ 25 + bits fine 8 0 * 2 ^ 16 + lowE 16 s.sys.epoch))
  let s := (s.count R.PRT_BLOCK_CNT 31 0).latch R.PRT_CAUSE 0
  let halt := s.rf R.PRT_BLOCK_LATCH 29 25 = 19
  let s := s.sendBlocks fine
  let s := { s with
    lnk := { s.lnk with blocks := s.lnk.blocks + 1 }
    prt := { s.prt with firedNow := true, firedHalt := halt, blockPending := s.prt.blockPending || s.runDecided } }
  s.dbgTrigger 2

/-- COMPARATOR_TRIP: the output of an enabled comparator goes to 1 at a position of the epoch, in ns; it latches, and with
BLOCK_EN = 1 it fires the block path; a trip under self-test goes to the test alone, whether or not the comparator is enabled (R53, R54,
R59). (DEDUCED, log 13.) -/
def execComparatorTrip (j : Nat) (upper : Bool) (fine : Nat) (s : State) : Out :=
  if 16 ≤ j then .next s
  else if s.cmpTested j then .next (s.cmpTestTrip upper)
  else if s.cmpArmed j upper = false ∨ (smGet {} s.mfe.cmps j).out = true then .next s
  else
    let t := s.cmpLatch j upper fine
    .next (if s.rb (R.MFE_CMP_CFG j) 6 then t.blockFire j fine else t)

/-- The groups that count for the charge condition (R488). -/
def State.chargeGroups (s : State) : List Nat := (List.range 7).filter (fun g => s.groupHomes g ≠ [])

/-- Group g meets the charge condition at p % (R488). -/
def State.chargeMet (s : State) (p g : Nat) : Bool :=
  let hs := (s.groupHomes g).filter s.healthy
  let v := (hs.map (fun h => match s.entry h with | some e => e.vcap | none => 0)).sum
  let r := (hs.map (fun h => s.vrated (s.mapEntry h))).sum
  s.marginOk g && hs ≠ [] && p * r ≤ 100 * v

/-- CHARGE_PCT as the device takes it (R39). -/
def State.chargePct (s : State) : Nat := clampNat 1 100 (s.rf R.SYS_CONV_CFG 15 8)

/-- The charge runs of the epoch that ended, and the time in CHARGE (R32, R488). -/
def State.chargeBoundary (s : State) : State :=
  let p := s.chargePct
  let gs := s.chargeGroups
  match s.sys.conv with
  | .charge => { s with sys := { s.sys with
      chargeGood := if gs.all (s.chargeMet p) then min 256 (s.sys.chargeGood + 1) else 0, chargeEp := s.sys.chargeEp + 1 } }
  | .ready => { s with sys := { s.sys with
      chargeBad := if gs.any (fun g => !s.chargeMet (p - 5) g) then min 256 (s.sys.chargeBad + 1) else 0 } }
  | _ => s

/-- CHARGE_COMPLETE: every counted group has met the charge condition for 256 epochs (R32, R33). (DEDUCED, log 3.) -/
def execChargeComplete (s : State) : Out :=
  if s.sys.conv = .charge ∧ 256 ≤ s.sys.chargeGood ∧ s.sys.moved = false then .next (s.moveTo .ready 1) else .next s

/-- RUN begins at the present boundary (R34): RUN_START makes the transition, and the orders wait for it (R35). (DEDUCED, log 11.) -/
def State.runDue (s : State) : Bool :=
  match s.sys.announce with | some a => epGe s.sys.epoch a.k && !s.sys.moved | none => false

/-- The start of RUN where it is due: the converter enters RUN, and the DEBLOCK orders complete with OK (R34, R35). Without commissioning
mode the generators stop and the force entries are released at this boundary (R205, R277). -/
def State.beginRun (s : State) : State :=
  match s.sys.announce with
  | some a => if s.runDue then
      let t := ((s.moveTo .run (if a.recovery then 5 else 0)).statesDone a.orders opDeblock 0 s.sys.conv .run).ctlBoundary
      if t.commission then t else t.releaseAll
    else s
  | none => s

/-- CHARGE_CONDITIONS_LOST: a counted group has failed for 256 epochs; an announced transition to RUN is cancelled, save at the
boundary at which RUN starts (R32, R35). (DEDUCED, log 11.) -/
def execChargeConditionsLost (s : State) : Out :=
  if s.sys.conv = .ready ∧ 256 ≤ s.sys.chargeBad ∧ s.sys.moved = false ∧ s.runDue = false then
    .next ((s.cancelAnnounce 2).moveTo .charge 7)
  else .next s

/-- CHARGE_TIMEOUT has expired in the present stay in CHARGE, at the present boundary: the passes of the epoch raise its source (R32,
R303). (DEDUCED, log 25.) -/
def execChargeTimeout (s : State) : Out :=
  let t := s.rf R.SYS_CONV_CFG 31 16
  if s.sys.conv = .charge ∧ t ≠ 0 ∧ s.epOfMs (1000 * t) ≤ s.sys.chargeEp then
    .next ({ s with sys := { s.sys with chargeExpired := true } } : State).prtIndicate
  else .next s

/-- Decides a transition to RUN at the present boundary E(a): RUN begins at E(a + 5 + Lmax) (R34). -/
def State.announceRun (s : State) (recovery : Bool) (orders : List OrderRef) : State :=
  { s with sys := { s.sys with
      announce := some ⟨s.sys.epoch + 5 + BitVec.ofNat 48 s.leadMax, recovery, orders⟩, moved := true } }

end Sys2Proof.Machine
end

