-- ==== Sys2Proof/Machine/Debug.lean ====
section
/-! DEFINITION. The debug function and the test access port (R481–R487). -/

namespace Sys2Proof.Machine


/-- Word i of the record area of Shelf n as 32-bit little-endian words; 0 beyond its end (R139, R486). -/
def State.recordWord (s : State) (n : Epoch) (i : Nat) : Word :=
  if 32768 ≤ i then 0 else
    let h := i / 8
    let w := ((s.readWords n h).getD (i % 8 / 2) 0).toNat
    BitVec.ofNat 32 (w / 2 ^ (32 * (i % 2)))

/-- The entry that sealed Shelf n gives (R486). -/
def State.dbgEntry (s : State) (cfg : Word) (n : Epoch) : List Word :=
  let first := fld cfg 27 15
  let word (j : Nat) : Word :=
    if flag cfg 31 then (if 8192 ≤ first + j then 0 else s.annexRead n (first + j)) else s.recordWord n (8 * first + j)
  BitVec.ofNat 32 (lowE 32 n) :: (List.range (fld cfg 14 8 + 1)).map word

/-- The debug capture ends in a state (R486, R487). -/
def State.dbgCapEnd (s : State) (st : DbgCapState) : State :=
  let s := { s with dbg := { s.dbg with cap := { s.dbg.cap with state := st, refused := false } } }
  (s.endItem .debugCapture).latch R.DBG_CAUSE 2

/-- Sealed Shelf n for the debug capture: every (DECIM + 1)-th gives one entry, and at S entries after the trigger the capture is done
(R486). -/
def State.dbgShelf (s : State) (n : Epoch) : State :=
  let c := s.dbg.cap
  if (c.state ≠ .armed ∧ c.state ≠ .triggered) ∨ s.pwr.admitted.contains .debugCapture = false then s
  else if c.since < fld c.cfg 7 0 then { s with dbg := { s.dbg with cap := { c with since := c.since + 1 } } }
  else
    let kept := if c.state = .armed then c.entries.drop (c.entries.length + 1 - dbgCapS c.cfg) else c.entries
    let c' : DbgCap := { c with since := 0, entries := kept ++ [s.dbgEntry c.cfg n], took := some s.sys.epoch }
    let s := { s with dbg := { s.dbg with cap := c' } }
    if c'.state = .triggered ∧ dbgCapS c.cfg ≤ c'.entries.length then s.dbgCapEnd .done else s

/-- The debug capture is abandoned in the present epoch after its entry was taken: there is no such entry (R24, R486).
(DESIGN CHOICE, log 45.) -/
def State.dbgCapAbandon (s : State) : State :=
  let c := s.dbg.cap
  if (c.state = .armed ∨ c.state = .triggered) ∧ c.took = some s.sys.epoch then
    { s with dbg := { s.dbg with cap := { c with entries := c.entries.dropLast } } }
  else s

/-- ARM of the debug capture: the buffer is zeroed and admission awaited, or ARM is refused, which DBG_CAP_STAT shows until the state of
the capture in progress changes (R410, R486, R487). (DEDUCED, log 38; DESIGN CHOICE, log 45.) -/
def State.dbgCapArm (s : State) : State :=
  let st := s.dbg.cap.state
  if st = .wait ∨ st = .armed ∨ st = .triggered then { s with dbg := { s.dbg with cap := { s.dbg.cap with refused := true } } } else
    let s := { s with dbg := { s.dbg with cap :=
      { state := .wait, cfg := s.reg R.DBG_CAP_CFG, pre := s.rf R.DBG_CAP_CTRL 12 0 } } }
    if s.pwr.waiting.contains .debugCapture then s
    else { s with pwr := { s.pwr with waiting := s.pwr.waiting ++ [.debugCapture] } }

/-- ABORT of the debug capture at a boundary: its entries are kept (R486). -/
def State.dbgCapAbort (s : State) : State :=
  let st := s.dbg.cap.state
  if st = .wait ∨ st = .armed ∨ st = .triggered then s.dbgCapEnd .aborted else s

/-- A change of OWNER of DEBUG zeroes the buffer and aborts the capture (R486). -/
def State.dbgOwnerChange (s : State) : State :=
  let s := s.dbgCapAbort
  { s with dbg := { s.dbg with cap := { s.dbg.cap with entries := [], trig := 0 } } }

/-- DBG_CAP_STAT (R487). -/
def State.dbgCapStat (s : State) : Word :=
  let c := s.dbg.cap
  BitVec.ofNat 32 ((if c.refused then 7 else c.state.code) * 2 ^ 29 + c.trig % 2 ^ 13 * 2 ^ 16 + (c.entries.length * dbgEntryLen c.cfg) % 2 ^ 15)

/-- DBG_CAP_DATA for a requester: the word that its DBG_CAP_ADDR names, 0 beyond FILL (R487). -/
def State.dbgCapData (s : State) (r : Requester) : Word :=
  let a := s.rf (ownKey r R.DBG_CAP_ADDR) 13 0
  let len := dbgEntryLen s.dbg.cap.cfg
  (s.dbg.cap.entries.getD (a / len) []).getD (a % len) 0

/-- HALT of the named targets on receipt: the debug-halt input of the block logic is asserted at once, and the targets run no
pass from the next boundary (R485). (DEDUCED, log 38.) -/
def State.dbgHalt (s : State) (targets ns : Nat) : State :=
  let s := { s with dbg := { s.dbg with
    haltNext := s.dbg.haltNext ||| bits targets 9 0, resumeNext := s.dbg.resumeNext &&& (1023 - bits targets 9 0) } }
  s.blockFire 19 ns

/-- RESUME of the named targets at the next boundary (R485). (DEDUCED, log 38.) -/
def State.dbgResume (s : State) (targets : Nat) : State :=
  { s with dbg := { s.dbg with
    resumeNext := s.dbg.resumeNext ||| bits targets 9 0, haltNext := s.dbg.haltNext &&& (1023 - bits targets 9 0) } }

/-- STEP of the named targets that are halted, in the epoch after the next boundary (R485). -/
def State.dbgStep (s : State) (targets : Nat) : State :=
  { s with dbg := { s.dbg with stepNext := s.dbg.stepNext ||| bits targets 9 0 } }

/-- A write of DBG_HALT on receipt: one of HALT, RESUME and STEP, with EN = 1; any other is logged with kind 5 (R485). -/
def State.dbgHaltWrite (s : State) (r : Requester) (w : Word) (ns : Nat) : State :=
  let act := fld w 31 29
  if act = 0 then s
  else s.asOwner r R.DBG_HALT (fun s =>
    if s.rb R.DBG_CTRL 31 = false then s.logErr r 5 R.DBG_HALT
    else match act with
      | 4 => s.dbgHalt (fld w 9 0) ns
      | 2 => s.dbgResume (fld w 9 0)
      | 1 => s.dbgStep (fld w 9 0)
      | _ => s.logErr r 5 R.DBG_HALT)

/-- Halts, resumes and steps take effect at a boundary (R485). -/
def State.dbgBoundary (s : State) : State :=
  let d := s.dbg
  let new := d.haltNext &&& (1023 - d.halted)
  let halted := (d.halted ||| d.haltNext) &&& (1023 - d.resumeNext % 1024)
  let s := { s with dbg := { d with
    halted := halted, haltNext := 0, resumeNext := 0, stepNow := d.stepNext &&& halted, stepNext := 0 } }
  if new = 0 then s else (s.latch R.DBG_CAUSE 0).dbgTrigger 3

/-- EXTEST, HIGHZ or CLAMP is in force (R482). -/
def State.tapTest (s : State) : Bool := s.dbg.instr = 0x00 || s.dbg.instr = 0x05 || s.dbg.instr = 0x06

/-- DBG_STATUS (R487). -/
def State.dbgStatus (s : State) : Word :=
  BitVec.ofNat 32 (s.dbg.halted % 1024 * 2 ^ 16 + b2n (s.dbg.instr = 0x20) * 2 ^ 10 + b2n s.tapTest * 2 ^ 9 +
    b2n (s.dbg.stepNext != 0 || s.dbg.stepNow != 0) * 2 ^ 8)

/-- Loads an instruction of the test access port. (DEDUCED, log 38.) -/
def State.tapLoad (s : State) (code : Nat) : State := { s with dbg := { s.dbg with instr := code } }

/-- EXTEST, HIGHZ and CLAMP are accepted in OFF with the Start Sequencer HELD or FAILED (R482). -/
def State.tapPermitted (s : State) : Bool :=
  s.sys.conv = .off && (s.start.state = .held || s.start.state = .failed)

/-- Loads EXTEST, HIGHZ or CLAMP, or BYPASS when it is not permitted (R482). -/
def State.tapTestLoad (s : State) (code : Nat) : State :=
  if s.tapPermitted then s.tapLoad code else (s.tapLoad 0xFF).latch R.DBG_CAUSE 1

/-- The identity register (R481). (PRESUMED, log 31.) -/
def State.tapId (s : State) : Word :=
  BitVec.ofNat 32 (bits (s.reg R.SYS_ID).toNat 3 0 * 2 ^ 28 + 0x4096 * 2 ^ 12 + 0x5B3 * 2 + 1)

end Sys2Proof.Machine
end

