-- ==== Sys2Proof/Machine/Crates.lean ====
section
/-! DEFINITION. Ownership changes (R397, R398) and the Crates (R157–R168): building, validation, staging as the sealed Shelves
show it, the commit and abort decisions, what takes effect at X, and the verification. -/

namespace Sys2Proof.Machine

/-- A change of OWNER of TEST: capture is aborted, every generator stops and the capture buffer is zeroed (R398). -/
def State.testOwnerChange (s : State) : State :=
  let s := (List.range 4).foldl (fun s g => s.genStop g) s.capEnd
  { s with ctl := { s.ctl with cap := { s.ctl.cap with samples := [[], [], [], []], trig := 0 } } }

/-- The entry of object k takes new masks: OWNERSHIP events and causes at every Hatch that the old or new masks name, a Bin
record, and the buffers that change hands (R397, R398). Entries 12 to 15 read 0. -/
def State.setOwner (s : State) (k owner standby : Nat) : State :=
  let o := s.owner k
  let b := s.standby k
  let w := standby % 16 * 16 + owner % 16
  if (12 ≤ k ∧ k < 16) ∨ 80 ≤ k ∨ w = b * 16 + o then s else
    let s := s.setRf (R.HAT_OWN k) 7 0 w
    let named := o ||| b ||| (owner % 16) ||| (standby % 16)
    let w2 := w / 16 * 4096 + w % 16 * 256 + b * 16 + o
    let s := s.eventMask named 3 k s.sys.epoch w2 0
    let s := (hatList named).foldl (fun s h => s.hatCause h 3) s
    let s := s.binLog 0x91 [w2, k]
    if o = owner % 16 then s
    else if k = 9 then s.testOwnerChange
    else if k = 11 then s.dbgOwnerChange
    else s

/-- The object that a device part touches for ownership (R387). -/
def DevPart.object (d : DevPart) : Nat :=
  match d.part with
  | 0x10 => d.w2
  | 0x31 => 16 + bits d.w2 5 0
  | 0x40 => 5
  | _ => 0

/-- A map part. -/
def DevPart.isMap (d : DevPart) : Bool := d.part = 0x01

/-- The units that a Crate touches: those of its gate parts and of its map parts (R162). -/
def Crate.homes (c : Crate) : List Nat := c.gates.map GatePart.home ++ (c.devs.filter DevPart.isMap).map (fun d => bits d.w2 11 0)

/-- The objects that a Crate's other device parts touch (R162). -/
def Crate.objects (c : Crate) : List Nat := (c.devs.filter (fun d => !d.isMap)).map DevPart.object

/-- A Crate is open: from its open order until it is DONE (R157, R163). -/
def Crate.isOpen (c : Crate) : Bool := c.state ≠ .free && c.state ≠ .done

/-- The Crate slot with an id, among the slots that are not FREE. -/
def State.crateSlot (s : State) (id : Nat) : Option Nat :=
  (List.range 4).find? (fun i => (s.crate i).state ≠ .free && (s.crate i).id = id)

/-- An id may be assigned: no open Crate has it, and 256 ep have passed since its last header (R157). -/
def State.idFree (s : State) (id : Nat) : Bool :=
  (s.crateSlot id).isNone && (match smGet none s.cel.idLast id with | some e => epGe s.sys.epoch (e + 256) | none => true)

/-- The next id in rotation among 1 to 255 (R157). (DEDUCED, log 32.) -/
def State.nextId (s : State) : Option Nat :=
  ((List.range 255).map (fun i => (s.cel.lastId + i) % 255 + 1)).find? s.idFree

/-- A Crate ends with an outcome; CEL_CAUSE.CRATE_DONE is set (R161, R168). -/
def State.crateDone (s : State) (i outcome : Nat) : State :=
  (s.updCrate i (fun c => { c with state := .done, outcome := outcome, doneAt := s.sys.epoch })).latch R.CEL_CAUSE 3

/-- Records the first failure of a Crate: its reason and its home address. (DEDUCED, log 32.) -/
def Crate.fail (c : Crate) (reason home : Nat) : Crate :=
  if c.reason = 0 then { c with reason := reason, firstHome := home } else c

/-- A map entry obeys R26 and R28 on its own: its group, and with EXPECTED = 1 its class. -/
def State.mapEntryOk (s : State) (w : BitVec 16) : Bool :=
  let g := mapGroup w
  let ty := s.classType (mapClass w)
  !(8 ≤ g && g ≤ 14) &&
    (!mapExpected w || (g ≠ 15 && ty ≠ 0 && (g ≠ 6 || ty = 3) && (5 < g || ty ≠ 3)))

/-- No group from 0 to 6 has more than 1,024 expected entries in a map (R26). -/
def mapCountsOk (m : SMap (BitVec 16)) : Bool :=
  (List.range 7).all (fun g => m.countP (fun x => mapExpected x.2 && mapGroup x.2 = g) ≤ 1024)

/-- The map with an entry set; reserved bits read 0 (R28). -/
def mapWith (m : SMap (BitVec 16)) (h w : Nat) : SMap (BitVec 16) := smSet 0x000F m h (BitVec.ofNat 16 (w % 2 ^ 9))

/-- The map with the map parts of a list applied. (DEDUCED, log 32.) -/
def State.mapAfter (s : State) (ds : List DevPart) : SMap (BitVec 16) :=
  ds.foldl (fun m d => if d.isMap then mapWith m (bits d.w2 11 0) d.w3 else m) s.sys.map

/-- A staged item obeys R158 and R274, given the map after the Crate. -/
def State.itemOk (s : State) (m : SMap (BitVec 16)) (home : Nat) (it : StagedItem) : Bool :=
  match it.item with
  | 0x1 => it.value = 0
  | 0x2 => it.value ≤ 7
  | 0x3 | 0x4 => it.value < 2 ^ 18
  | 0x5 => it.value < 2 ^ 10
  | 0x6 => it.value ≤ 1 &&
      (bitList 16 (s.profMask (mapClass (smGet 0x000F m home)))).all (fun i => s.profVerified home (it.value = 1) i)
  | 0x7 => it.value ≠ 0 && it.value < 2 ^ 18
  | _ => false

/-- The active bank of a slot after the SLOT_BANK parts of a list. -/
def State.bankAfter (s : State) (ds : List DevPart) (k : Nat) : Nat :=
  ds.foldl (fun b d => if d.part = 0x31 ∧ bits d.w2 5 0 = k then bits d.w3 0 0 else b) (s.activeBank k)

/-- Slot k is named in GRD_FORM_SLOTS (R238). -/
def State.formSlot (s : State) (k : Nat) : Bool :=
  if k < 32 then s.rb R.GRD_FORM_SLOTS_LO k else s.rb R.GRD_FORM_SLOTS_HI (k - 32)

/-- Object k is one of R393 that can have owners. -/
def ownedObject (k : Nat) : Bool := k < 80 && !(12 ≤ k && k < 16)

/-- A device part obeys the rules of its object, given all device parts of the Crate (R26, R28, R181, R229, R238, R393, R395). -/
def State.partOk (s : State) (ds : List DevPart) (d : DevPart) : Bool :=
  match d.part with
  | 0x01 => s.mapEntryOk (BitVec.ofNat 16 (d.w3 % 2 ^ 9))
  | 0x10 => ownedObject d.w2 && (ds.countP (fun e => e.part = 0x10 && e.w2 = d.w2)) ≤ 1
  | 0x31 => let k := bits d.w2 5 0
      s.bankOkWith (s.bankAfter ds) k (s.bankAfter ds k) && !s.formSlot k
  | 0x40 => s.crvBankOk (bits d.w3 0 0)
  | _ => false

/-- The GROUP items that a close outside OFF adds for map parts that change the group of a unit (R160). -/
def State.groupItems (s : State) (c : Crate) : List GatePart :=
  if s.sys.conv = .off then c.gates else
    c.devs.foldl (fun gs d =>
      let h := bits d.w2 11 0
      let g := mapGroup (BitVec.ofNat 16 d.w3)
      let st := (s.unit h).status
      if d.isMap ∧ g ≠ mapGroup (s.mapEntry h) ∧ (st = .joining ∨ st = .present ∨ st = .unobserved ∨ st = .moving) then
        if gs.any (fun x => x.home = h) then gs.map (fun x => if x.home = h then { x with items := x.items ++ [⟨2, g⟩] } else x)
        else gs ++ [{ home := h, items := [⟨2, g⟩] }]
      else gs) c.gates

/-- The closing Hatch may touch the object of a device part: as an owner, or for an OWNERSHIP part as a standby holder while
every owner is silent (R394, R396). A part that names no object of R393 is left to the rule that it breaks (R162). -/
def State.partOwned (s : State) (h : Fin 4) (d : DevPart) : Bool :=
  (d.part = 0x10 && !ownedObject d.w2) || s.owns h d.object || (d.part = 0x10 && bit (s.standby d.object) h.val && (hatList (s.owner d.object)).all (fun x => (s.hat x.val).silent))

/-- The reason for which validation rejects Crate slot i at its close by Hatch h, and the home address it concerns (R162).
(DEDUCED, log 32.) -/
def State.crateReason (s : State) (i : Nat) (h : Fin 4) : Option (Nat × Nat) :=
  let c := s.crate i
  let others := ((List.range 4).filter (fun j => j ≠ i && (s.crate j).isOpen)).map s.crate
  let m := s.mapAfter c.devs
  let clash := c.homes.find? (fun x => others.any (fun o => o.homes.contains x))
  if clash.isSome ∨ c.objects.any (fun x => others.any (fun o => o.objects.contains x)) then some (1, clash.getD 0)
  else if (c.gates ≠ [] ∧ s.owns h 0 = false) ∨ c.devs.any (fun d => !s.partOwned h d) then some (2, 0)
  else
    let badItem := c.gates.find? (fun g => g.items.any (fun it => !s.itemOk m g.home it))
    let badPart := c.devs.find? (fun d => !s.partOk c.devs d)
    let away := c.gates.find? (fun g => let st := (s.unit g.home).status
      !(st = .joining || st = .present || st = .moving))
    match badItem, badPart with
    | some g, _ => some (3, g.home)
    | none, some d => some (3, if d.isMap then bits d.w2 11 0 else 0)
    | none, none =>
      if c.devs.any DevPart.isMap ∧ mapCountsOk m = false then some (3, 0)
      else match away with
        | some g => some (4, g.home)
        | none =>
          if c.gates ≠ [] ∧ s.sys.conv = .off then some (5, 0)
          else if 1024 < c.devs.length ∨ c.gates.any (fun g => 32 < g.items.length) then some (6, 0)
          else none

/-- The close of Crate slot i by Hatch h (R160–R162): STAGING, or DONE with REJECTED. (DEDUCED, log 32.) -/
def State.crateClose (s : State) (i : Nat) (ref : OrderRef) : State :=
  let s := s.updCrate i (fun c => { c with gates := s.groupItems c, closeRef := some ref })
  let s := s.updCrate i (fun c => { c with gateCount := c.gates.length, devCount := c.devs.length })
  match s.crateReason i ref.hatch with
  | none => s.updCrate i (fun c => { c with state := .staging, closedAt := s.sys.epoch })
  | some (reason, home) => (s.updCrate i (fun c => c.fail reason home)).crateDone i 3

/-- What a sealed Shelf n shows of Crate slot i, as its read port gives it (R137, R151, R164, R166). A part is applied by a fresh record;
its unit is taken as restarted when the record that a Shelf holds, a late or a carried one too, shows STATE starting. (DEDUCED, log 32.) -/
def State.crateShelf (s : State) (n : Epoch) (i : Nat) : State :=
  let c := s.crate i
  let rec_ (g : GatePart) : Option Entry := s.readEntry n g.home
  match c.state, c.eff with
  | .staging, _ =>
    if c.stagedAt.isNone then s else
      let gates := c.gates.map (fun g => match rec_ g with
        | some e =>
          if e.auxStale || e.aCrate ≠ c.id then g
          else if e.ack = 1 then { g with acked := true }
          else if 2 ≤ e.ack then { g with nacked := true }
          else g
        | none => g)
      s.updCrate i (fun c => { c with gates := gates, ackedCount := gates.countP GatePart.acked })
  | .verifying, some x =>
    if 6 < (n - x).toNat then s else
      let gates := c.gates.map (fun g => match rec_ g with
        | some e =>
          { g with
            restarted := g.restarted || e.state = 4
            applied := g.applied || (!e.stale && e.state ≠ 4 && e.aCrate = 0 && !bit e.fault 2) }
        | none => g)
      s.updCrate i (fun c => { c with gates := gates, verified := if n = x + 6 then some s.sys.epoch else c.verified })
  | _, _ => s

/-- SEAL_PASS: the seal pass of the present epoch, item 12 of R20 (R146). -/
def execSealPass (s : State) : Out :=
  if s.sys.counting ∧ s.domain 32 ∧ bit s.sys.missNow 12 = false then .next s.sealPass else .next s

/-- The Shelves that the present boundary has sealed: the Crate supervisor evaluates each in the epoch of its seal, and the debug capture
takes its entries (R164, R166, R486). -/
def State.supervise (s : State) : State :=
  match s.cel.sealFirst, s.cel.sealing with
  | some first, some last =>
    let t := (List.range ((last - first).toNat % 64 + 1)).foldl (fun s j =>
      let n := first + BitVec.ofNat 48 j
      ((List.range 4).foldl (fun s i => s.crateShelf n i) s).dbgShelf n) s
    { t with cel := { t.cel with sealFirst := none, sealing := none } }
  | _, _ => s

/-- CRATE_STAGING: staging of slot i begins at the boundary after the close was accepted (R163). -/
def execCrateStaging (i : Nat) (s : State) : Out :=
  let c := s.crate i
  if i < 4 ∧ c.state = .staging ∧ c.stagedAt = none ∧ epGe s.sys.epoch (c.closedAt + 1) then
    .next (s.updCrate i (fun c => { c with stagedAt := some s.sys.epoch }))
  else .next s

/-- The first frame epoch of a header run that would start at f, after every run with which it would overlap (R167). -/
def State.runFree (s : State) : Nat → Epoch → Epoch
  | 0, f => f
  | fuel + 1, f =>
    let clash := (List.range 4).findSome? (fun i => match (s.crate i).runAt with
      | some g => if (f - g).toNat < 4 ∨ (g - f).toNat < 4 then some g else none
      | none => none)
    match clash with
    | some g => s.runFree fuel (g + 4)
    | none => f

/-- EXTRA of the commit margin (R164). -/
def State.crateExtra (s : State) : Nat := s.rf R.CEL_CRATE_CFG 5 0

/-- The abort condition of slot i, with the outcome it gives: the lowest code that applies (R165). -/
def Crate.abortOutcome (c : Crate) : Option Nat :=
  if c.gates.any GatePart.nacked then some 4
  else if c.gates.any GatePart.timedOut then some 5
  else if c.abortAsked then some 6
  else if c.stateLost then some 7
  else none

/-- The id of slot i is in use up to the last header of its run (R157). -/
def State.idUsed (s : State) (id : Nat) (last : Option Epoch) : State :=
  { s with cel := { s.cel with idLast := smSet none s.cel.idLast id last } }

/-- CRATE_COMMIT_DECISION of slot i in the present epoch E(m) (R164). -/
def execCrateCommitDecision (i : Nat) (s : State) : Out :=
  let c := s.crate i
  let m := s.sys.epoch
  if i < 4 ∧ c.state = .staging ∧ c.stagedAt.isSome ∧ c.abortOutcome = none ∧ c.gates.all GatePart.acked then
    let extra := BitVec.ofNat 48 (s.leadMax + s.crateExtra)
    if c.gates = [] then .next (s.updCrate i (fun c => { c with state := .committing, eff := some (m + 2 + extra) }))
    else
      let f := s.runFree 4 (m + 1 + extra)
      let s := s.updCrate i (fun c => { c with state := .committing, eff := some (f + 4), runAt := some f })
      .next (s.idUsed c.id (some (f + 3)))
  else .next s

/-- CRATE_PART_TIMEOUT of slot i: gate parts neither acknowledged nor nacked within 64 ep (R164). -/
def execCratePartTimeout (i : Nat) (s : State) : Out :=
  let c := s.crate i
  let since (g : GatePart) : Nat := (s.sys.epoch - (g.lastSent.getD (c.stagedAt.getD 0))).toNat
  if i < 4 ∧ c.state = .staging ∧ c.stagedAt.isSome then
    .next (s.updCrate i (fun c => { c with gates := c.gates.map (fun g =>
      if !g.acked && !g.nacked && decide (64 ≤ since g) then { g with timedOut := true } else g) }))
  else .next s

/-- The Crate-records region of Shelf n and its CRATE_ID and CRATE_EVENT (R149, R168). Of two Crates that fall on one Shelf it shows the one
written last: which of them is not stated. (DESIGN CHOICE, log 46.) -/
def State.crateRecord (s : State) (n : Epoch) (id event outcome failed : Nat) : State :=
  (s.updShelf n (fun sh => { sh with crateId := id, crateEvent := event })).annexPut n 0x4C00
    [BitVec.ofNat 32 id, BitVec.ofNat 32 outcome, BitVec.ofNat 32 failed]

/-- CRATE_ABORT_DECISION of slot i in the present epoch E(m) (R165). -/
def execCrateAbortDecision (i : Nat) (s : State) : Out :=
  let c := s.crate i
  let m := s.sys.epoch
  match c.abortOutcome with
  | some out =>
    if 4 ≤ i ∨ c.state ≠ .staging then .next s else
      let failed := c.gates.countP (fun g => g.nacked || g.timedOut)
      let first := c.gates.find? (fun g => g.nacked || g.timedOut)
      let s := s.crateRecord (m - 1) c.id 2 out failed
      let s := s.updCrate i (fun c =>
        let c := match first with | some g => c.fail (if g.nacked then 7 else 8) g.home | none => c
        { c with state := .aborting, held := c.devs.map DevPart.object, devs := [], failed := failed, outcome := out })
      if c.gates = [] then .next (s.updCrate i (fun c => { c with eff := some (m + 1) }))
      else
        let a := s.runFree 4 (m + 1 + BitVec.ofNat 48 s.leadMax)
        .next ((s.updCrate i (fun c => { c with eff := some a, runAt := some a })).idUsed c.id (some (a + 3)))
  | none => .next s

/-- CRATE_ABORT_DONE of slot i: at E(A + 3), or at E(A) without gate parts (R165). -/
def execCrateAbortDone (i : Nat) (s : State) : Out :=
  let c := s.crate i
  match c.eff with
  | some a =>
    if i < 4 ∧ c.state = .aborting ∧ epGe s.sys.epoch (if c.gates = [] then a else a + 3) then .next (s.crateDone i c.outcome)
    else .next s
  | none => .next s

/-- One device part takes effect, other than SLOT_BANK (R164, R387). -/
def State.applyPart (s : State) (d : DevPart) : State :=
  match d.part with
  | 0x01 => { s with sys := { s.sys with map := mapWith s.sys.map (bits d.w2 11 0) d.w3 } }
  | 0x10 => s.setOwner d.w2 (bits d.w3 3 0) (bits d.w3 7 4)
  | 0x40 => s.setRf R.GRD_CRV_BANK 0 0 (bits d.w3 0 0)
  | _ => s

/-- The bank that a gate part selects, if it has a PROFILE_BANK item (R158). -/
def GatePart.bank (g : GatePart) : Option Nat := ((g.items.filter (fun it => it.item = 6)).getLast?).map StagedItem.value

/-- The device parts of slot i take effect and the Crate is VERIFYING, at the boundary E(X + 1) (R161, R164, R168). -/
def State.crateApply (s : State) (i : Nat) : State :=
  let c := s.crate i
  match c.state, c.eff with
  | .committing, some x =>
    if epGe s.sys.epoch (x + 1) = false then s else
      let gates := c.gates.map (fun g => { g with oldBank := b2n (s.eunit g.home).bank })
      let s := c.devs.foldl State.applyPart s
      let s := s.setBanks ((c.devs.filter (fun d => d.part = 0x31)).map (fun d => (bits d.w2 5 0, bits d.w3 0 0)))
      let s := c.gates.foldl (fun s g => match g.bank with
        | some b => s.updEunit g.home (fun u => { u with bank := b = 1 })
        | none => s) s
      let s := s.updCrate i (fun c => { c with state := .verifying, gates := gates })
      s.crateRecord x c.id 1 0 0
  | _, _ => s

/-- CRATE_APPLY of slot i (R164). -/
def execCrateApply (i : Nat) (s : State) : Out := .next (if i < 4 then s.crateApply i else s)

/-- The profile bank of the unit of a NOT_APPLIED part with a PROFILE_BANK item (R166). -/
def State.settleBank (s : State) (g : GatePart) : State :=
  if g.bank.isNone then s
  else if g.restarted then s.updEunit g.home (fun u => { u with bank := false, ver0 := 0, ver1 := 0, prof := {} })
  else
    let old : Bool := g.oldBank = 1
    let checks := (bitList 16 (s.profMask (mapClass (s.mapEntry g.home)))).map (ProfItem.check old ·)
    s.updEunit g.home (fun u =>
      let p : ProfSt := { u.prof with todo := u.prof.todo ++ checks }
      if old then { u with bank := old, ver1 := 0, prof := p } else { u with bank := old, ver0 := 0, prof := p })

/-- CRATE_VERIFY_END of slot i: at the boundary after the epoch in which Shelf X + 6 was sealed and evaluated each gate part is judged
and the Crate is DONE (R161, R166). -/
def execCrateVerifyEnd (i : Nat) (s : State) : Out :=
  let c := s.crate i
  match c.verified with
  | some v =>
    if i < 4 ∧ c.state = .verifying ∧ epGe s.sys.epoch (v + 1) then
      let lost := c.gates.filter (fun g => !g.applied)
      let s := lost.foldl (fun s g => ((s.settleBank g).latch R.CEL_CAUSE 4).prtEvent 43) s
      let s := s.updCrate i (fun c =>
        let c := match lost.head? with | some g => c.fail 9 g.home | none => c
        { c with failed := lost.length })
      .next (s.crateDone i (if lost = [] then 1 else 2))
    else .next s
  | none => .next s

/-- CRATE_BUILD_LIMIT of slot i (R161, R169). -/
def execCrateBuildLimit (i : Nat) (s : State) : Out :=
  let c := s.crate i
  if i < 4 ∧ c.state = .building ∧ 1024 * max 1 (s.rf R.CEL_CRATE_CFG 31 16) ≤ (s.sys.epoch - c.openedAt).toNat then
    .next (s.crateDone i 8)
  else .next s

/-- The completion ring that an order names takes completions (R168, R377). -/
def State.takesCompletion (s : State) (r : OrderRef) : Bool :=
  match s.orderCr r with
  | some c => (smGet {} (s.hat r.hatch.val).cr c).enable && !(smGet {} (s.hat r.hatch.val).cr c).stopped
  | none => false

/-- CRATE_SLOT_FREE of slot i: its close completion is written, with the boundary at which it was DONE (R380), or, where none can be, the boundary after DONE has come; its parts are
zeroed (R168, R389, R398). -/
def execCrateSlotFree (i : Nat) (s : State) : Out :=
  let c := s.crate i
  if 4 ≤ i ∨ c.state ≠ .done then .next s else
    let free (s : State) : State := s.updCrate i (fun c => { c with state := .free, gates := [], devs := [], closeRef := none })
    match c.closeRef with
    | some ref =>
      if s.takesCompletion ref = false ∧ c.doneAt = s.sys.epoch then .next s else
      let w2 := (match c.eff with | some e => lowE 32 e | none => 0) * 2 ^ 32 + c.firstHome * 2 ^ 16 + c.reason * 2 ^ 12 +
        c.outcome * 2 ^ 8 + c.id
      .next ((free s).completeAt c.doneAt ref 0x23 (if c.outcome = 1 then 0 else 0x0C) w2 (c.failed * 2 ^ 16 + c.ackedCount))
    | none => if c.doneAt = s.sys.epoch then .next s else .next (free s)

/-- The Crates at a boundary: those whose Hatch was reset in BUILDING are DONE (R373), and those committed take effect (R164). -/
def State.cratesBoundary (s : State) : State :=
  (List.range 4).foldl (fun s i =>
    let c := s.crate i
    if c.state = .building && c.abortAsked then s.crateDone i 6 else s.crateApply i) s

/-- A direct write to object k is held while an open Crate has, or had before its abort, a device part that touches it: a map part touches
CONVERTER (R163, R387). -/
def State.crateHolds (s : State) (k : Nat) : Bool :=
  (List.range 4).any (fun i => (s.crate i).isOpen && ((s.crate i).held ++ (s.crate i).devs.map DevPart.object).contains k)

/-- CEL_CRATE_STAT of slot i (R169). -/
def State.crateStat (s : State) (i : Nat) : Word :=
  let c := s.crate i
  let shown := if c.state = .done ∨ c.state = .free then c.outcome else 0
  BitVec.ofNat 32 (c.id * 2 ^ 24 + c.state.code * 2 ^ 20 + shown * 2 ^ 16 + c.reason * 2 ^ 12 + c.hatch.val * 2 ^ 10)

/-- CEL_CRATE_EPOCH of slot i (R169). -/
def State.crateEpoch (s : State) (i : Nat) : Word :=
  match (s.crate i).eff with | some e => BitVec.ofNat 32 (lowE 32 e) | none => 0

/-- CEL_CRATE_PARTS of slot i (R169). -/
def State.crateParts (s : State) (i : Nat) : Word :=
  let c := s.crate i
  BitVec.ofNat 32 (c.gateCount * 2 ^ 16 + c.ackedCount)

/-- CEL_CRATE_FAIL of slot i (R169). -/
def State.crateFail (s : State) (i : Nat) : Word :=
  let c := s.crate i
  BitVec.ofNat 32 (c.failed * 2 ^ 16 + c.firstHome)

end Sys2Proof.Machine
end

