-- ==== Sys2Proof/Machine/Hatches.lean ====
section
/-! DEFINITION. The Hatches (chapter 12): reset, rings and doorbells, descriptor fetches, and silence. -/

namespace Sys2Proof.Machine

/-- Drops the orders of Hatch h that wait in the machine without a completion: its descriptor reads, its fetched orders, its
snapshot requests, and the state orders that would complete later (R373). -/
def State.dropOrders (s : State) (h : Fin 4) : State :=
  let s := s.updHat h.val (fun a => { a with reads := [], fetched := [], openOrders := [] })
  { s with sys := { s.sys with
      stopOrders := s.sys.stopOrders.filter (fun r => r.hatch ≠ h)
      announce := s.sys.announce.map (fun a => { a with orders := a.orders.filter (fun r => r.hatch ≠ h) }) } }

/-- The registers kept for Hatch h go to their reset values (R373, R462). -/
def State.ownRegsReset (s : State) (h : Fin 4) : State :=
  let keep (x : Nat × Word) : Bool := x.1 / 0x10000 ≠ 5 + h.val
  { s with regs := { s.regs with a := s.regs.a.filter keep, b := s.regs.b.filter keep, c := s.regs.c.filter keep } }

/-- The Crates of Hatch h at its reset: one in BUILDING is aborted at the next boundary, and no close completes (R373).
(DEDUCED, log 32.) -/
def State.hatchCrates (s : State) (h : Fin 4) : State :=
  (List.range 4).foldl (fun s i => s.updCrate i (fun c =>
    if c.hatch = h ∧ c.state ≠ .free then { c with closeRef := none, abortAsked := c.abortAsked || c.state = .building } else c)) s

/-- What a Hatch reset leaves of the capabilities (R369, R400): D3hot leaves all; a Function Level Reset the link, the payload size, and
the mask and severity of errors; a hot reset or link-down the mask and severity alone; HPERST nothing. (PRESUMED, log 31: the sticky and
the exempt fields of PCI Express.) -/
def pcieAfterReset (c : PcieCfg) : HatchResetKind → PcieCfg
  | .perst => {}
  | .hotReset | .linkDown => { aerMask := c.aerMask, aerSeverity := c.aerSeverity }
  | .flr => { c with maxRead := 512, cplTimeout := 0 }
  | .d3hot => c

/-- A Hatch reset (R373). Function Level Reset keeps the link; D3hot keeps the link and the configuration; HPERST alone clears the error
status. (DEDUCED, log 33; PRESUMED, log 31.) -/
def State.hatchReset (s : State) (h : Fin 4) (kind : HatchResetKind) : State :=
  let s := ((s.dropOrders h).hatchCrates h).ownRegsReset h
  let s := s.updHat h.val (fun a =>
    { linkUp := a.linkUp && (kind = .flr || kind = .d3hot), d3hot := kind = .d3hot
      bme := a.bme && kind = .d3hot, msixEn := a.msixEn && kind = .d3hot, msixMask := if kind = .d3hot then a.msixMask else 0
      msixTable := if kind = .d3hot then a.msixTable else [], pcie := pcieAfterReset a.pcie kind
      aer := if kind = .perst then 0 else a.aer
      silent := a.silent, kickAge := a.kickAge, evSeq := a.evSeq, fetchSeq := a.fetchSeq })
  s.updSnap h.val (fun p => { p with queue := [], copying := none, shown := none, other := none })

/-- HATCH_RESET of Hatch h (R373). -/
def execHatchReset (h : Fin 4) (kind : HatchResetKind) (s : State) : Out := .next (s.hatchReset h kind)

/-- HATCH_LINK_UP: link training of a Hatch completes, once its domain is ready, and the host has configured it (R369, R396,
R445). Domain 47 serves Hatches 0 and 1, domain 48 Hatches 2 and 3 (R403). (DEDUCED, log 33.) -/
def execHatchLinkUp (h : Fin 4) (cfg : LinkCfg) (s : State) : Out :=
  if s.domain (47 + h.val / 2) then
    .next (s.updHat h.val (fun a =>
      { a with linkUp := true, d3hot := false, bme := cfg.bme, msixEn := cfg.msixEn, msixMask := cfg.msixMask
               msixTable := smSetList (0, 0) [] 0 (cfg.table.take 64), pcie := cfg.pcie }))
  else .next s

/-- What the configuration space of Hatch h shows: the identity in its header (R371), D0 or D3hot, its link and sizes, and its errors (R369,
R400). (DEDUCED, log 33.) -/
def State.cfgField (s : State) (h : Fin 4) : CfgField → Nat
  | .vendorId | .subsystemVendorId => 0xD3C4
  | .deviceId => 0x4096
  | .subsystemId => h.val
  | .revisionId => s.rf R.SYS_ID 7 0
  | .classCode => 0x118000
  | .serialNumber => Config.serial.toNat
  | .powerState => if (s.hat h.val).d3hot then 3 else 0
  | .linkSpeed => if (s.hat h.val).linkUp then (s.hat h.val).pcie.speed else 0
  | .linkWidth => if (s.hat h.val).linkUp then (s.hat h.val).pcie.width else 0
  | .maxPayload => (s.hat h.val).pcie.maxPayload
  | .maxReadRequest => (s.hat h.val).pcie.maxRead
  | .cplTimeout => (s.hat h.val).pcie.cplTimeout
  | .aerStatus => (s.hat h.val).aer.toNat
  | .aerMask => (s.hat h.val).pcie.aerMask.toNat
  | .aerSeverity => (s.hat h.val).pcie.aerSeverity.toNat

/-- A read of a 32-bit word of BAR4 of Hatch h: the MSI-X table with Vector Control in word 3 of an entry, the Pending Bit Array, and
Completer Abort elsewhere (R372). (DEDUCED, log 33.) -/
def State.bar4Read (s : State) (h : Fin 4) (off : Nat) : Option Word :=
  let a := s.hat h.val
  let e := smGet (0, 0) a.msixTable (off / 16)
  if off < 64 * 16 then
    some (match off / 4 % 4 with
      | 0 => BitVec.ofNat 32 (bits e.1.toNat 31 0)
      | 1 => BitVec.ofNat 32 (bits e.1.toNat 63 32)
      | 2 => e.2
      | _ => BitVec.ofNat 32 (b2n (a.msixMask.getLsbD (off / 16))))
  else if off / 4 = 0x2000 / 4 then some (BitVec.ofNat 32 (bits a.msixPending.toNat 31 0))
  else if off / 4 = 0x2004 / 4 then some (BitVec.ofNat 32 (bits a.msixPending.toNat 63 32))
  else none

/-- The order rings of Hatch h that are enabled and name completion ring c. -/
def HatSt.named (a : HatSt) (c : Nat) : Bool := (List.range 16).any (fun r => (smGet {} a.or_ r).enable && (smGet {} a.or_ r).cr = c)

/-- Orders of ring r that are fetched and not evaluated complete with FLUSHED; reads in progress give their reservation back
(R375, R377). -/
def State.flushRing (s : State) (h : Fin 4) (r : Nat) : State :=
  let a := s.hat h.val
  let fs := a.fetched.filter (fun f => f.ring = r)
  let s := s.updHat h.val (fun a => { a with
    reads := a.reads.filter (fun x => x.1 ≠ r), fetched := a.fetched.filter (fun f => f.ring ≠ r)
    cr := (a.reads.filter (fun x => x.1 = r)).foldl (fun m x => smUpd {} m x.2.2 (fun y => { y with reserved := y.reserved - 1 })) a.cr })
  fs.foldl (fun s f =>
    let w := (f.words.getD 0 0).toNat
    s.complete ⟨h, r, f.index, bits w 31 16, bit w 8⟩ (bits w 7 0) 0x0E 0 0) s

/-- The ring of a kind: 0 order, 1 completion, 2 event. -/
def HatSt.ring (a : HatSt) (kind r : Nat) : RingSt := if kind = 2 then a.ev else if kind = 1 then smGet {} a.cr r else smGet {} a.or_ r

/-- Sets the ring of a kind. -/
def HatSt.setRing (a : HatSt) (kind r : Nat) (x : RingSt) : HatSt :=
  if kind = 2 then { a with ev := x } else if kind = 1 then { a with cr := smSet {} a.cr r x } else { a with or_ := smSet {} a.or_ r x }

/-- A write ignored under R375, through a register or one of its aliases: kind RING_CFG (R399, R452). -/
def State.ringRefused (s : State) (h : Fin 4) (off way : Nat) : State := s.logErr (.hatch h) 7 (0x4000 * way + off)

/-- The ring that a requester's HAT_RING_SEL names (R401). -/
def State.ringSel (s : State) (r : Requester) : Nat × Nat :=
  let w := s.reg (ownKey r R.HAT_RING_SEL)
  (if fld w 5 4 = 3 then 0 else fld w 5 4, fld w 3 0)

/-- A write of HAT_RING_BASE_LO or _HI for the selected ring of Hatch h (R375). -/
def State.ringBaseWrite (s : State) (h : Fin 4) (way : Nat) (hi : Bool) (w : Word) : State :=
  let (kind, r) := s.ringSel (.hatch h)
  let x := (s.hat h.val).ring kind r
  let base := if hi then w.toNat * 2 ^ 32 + bits x.base.toNat 31 0 else bits x.base.toNat 63 32 * 2 ^ 32 + bits w.toNat 31 12 * 4096
  if x.enable && BitVec.ofNat 64 base ≠ x.base then s.ringRefused h (if hi then R.HAT_RING_BASE_HI else R.HAT_RING_BASE_LO) way
  else s.updHat h.val (fun a => a.setRing kind r { x with base := BitVec.ofNat 64 base })

/-- A write of HAT_RING_CFG for the selected ring of Hatch h: it enables, disables or configures the ring, or is ignored
(R375, R401). An order ring enabled onto a stopped completion ring is stopped with it (R378). (DEDUCED, log 33.) -/
def State.ringCfgWrite (s : State) (h : Fin 4) (way : Nat) (w : Word) : State :=
  let (kind, r) := s.ringSel (.hatch h)
  let a := s.hat h.val
  let x := a.ring kind r
  let en := flag w 31
  let size := fld w 28 24
  let c := fld w 3 0
  let y : RingSt := { x with sizeLog2 := size, vector := fld w 21 16, cr := c }
  let refuse := s.ringRefused h R.HAT_RING_CFG way
  if size < 6 ∨ 16 < size then refuse
  else if x.enable ∧ y ≠ x then refuse
  else if en && !x.enable then
    if kind = 0 && !(smGet {} a.cr c).enable then refuse
    else
      let z : RingSt := { y with enable := true, stopped := false, error := 0, index := 0, bell := 0, phase := true, reserved := 0 }
      let cr := smGet {} a.cr c
      if kind = 0 && cr.stopped then (s.updHat h.val (fun a => a.setRing kind r (stopRing z cr.error))).hatCause h 0
      else s.updHat h.val (fun a => a.setRing kind r z)
  else if !en && x.enable then
    if kind = 1 && (a.named r || x.reserved ≠ 0) then refuse
    else
      let s := if kind = 0 then s.flushRing h r else s
      s.updHat h.val (fun a => a.setRing kind r { a.ring kind r with enable := false })
  else s.updHat h.val (fun a => a.setRing kind r y)

/-- RING_RESET disables every ring of Hatch h with R375's effects (R401); the entries reserved in its completion rings are gone.
(DEDUCED, log 33.) -/
def State.ringReset (s : State) (h : Fin 4) : State :=
  let s := (List.range 16).foldl (fun s r => if (smGet {} (s.hat h.val).or_ r).enable then s.flushRing h r else s) s
  s.updHat h.val (fun a =>
    let off (m : SMap RingSt) : SMap RingSt := (List.range 16).foldl (fun m r => smUpd {} m r (fun x => { x with enable := false })) m
    { a with or_ := off a.or_, cr := off a.cr, ev := { a.ev with enable := false }
             openOrders := a.openOrders.map (fun o => { o with cr := none }) })

/-- The orders that ring x holds: from INDEX up to TAIL − 1 (R376). -/
def RingSt.held (x : RingSt) : Nat := (x.bell + 2 ^ x.sizeLog2 - x.index) % 2 ^ x.sizeLog2

/-- A doorbell of order ring r (R376, R378). (DEDUCED, log 33.) -/
def State.orderDoorbell (s : State) (h : Fin 4) (r v : Nat) : State :=
  let x := smGet {} (s.hat h.val).or_ r
  let n := 2 ^ x.sizeLog2
  let set (y : RingSt) : State := s.updHat h.val (fun a => { a with or_ := smSet {} a.or_ r y })
  if !x.enable || x.stopped then set { x with bell := v }
  else if n ≤ v ∨ n - 1 < x.held + (v + n - x.bell) % n then (set (stopRing x 1)).hatCause h 0
  else set { x with bell := v }

/-- A doorbell of completion ring c (R376, R378). -/
def State.completionDoorbell (s : State) (h : Fin 4) (c v : Nat) : State :=
  let x := smGet {} (s.hat h.val).cr c
  if x.enable && !x.stopped && decide (2 ^ x.sizeLog2 ≤ v) then s.stopCr h c 1
  else s.updHat h.val (fun a => { a with cr := smSet {} a.cr c { x with bell := v } })

/-- A doorbell of the event ring (R376, R378). -/
def State.eventDoorbell (s : State) (h : Fin 4) (v : Nat) : State :=
  let x := (s.hat h.val).ev
  if x.enable && !x.stopped && decide (2 ^ x.sizeLog2 ≤ v) then
    (s.updHat h.val (fun a => { a with ev := stopRing x 1 })).hatCause h 0
  else s.updHat h.val (fun a => { a with ev := { x with bell := v } })

/-- KICK records a keepalive (R396). -/
def State.kick (s : State) (h : Fin 4) : State := s.updHat h.val (fun a => { a with kickAge := 0 })

/-- ORDER_FETCH: with a completion entry reserved, the next descriptor of order ring r is read (R376, R377, R369). (DEDUCED, log 33.) -/
def execOrderFetch (h : Fin 4) (r : Nat) (s : State) : Out :=
  let a := s.hat h.val
  let x := smGet {} a.or_ r
  let cr := smGet {} a.cr x.cr
  if r < 16 ∧ x.enable ∧ x.stopped = false ∧ x.held ≠ 0 ∧ cr.enable ∧ cr.stopped = false ∧ 1 ≤ freeEntries cr ∧ a.bme ∧ a.linkUp ∧
      a.d3hot = false ∧ a.reads.length < 32 then
    let s := s.updHat h.val (fun a => { a with
      reads := a.reads ++ [(r, x.index, x.cr)]
      cr := smSet {} a.cr x.cr { cr with reserved := cr.reserved + 1 }
      or_ := smSet {} a.or_ r { x with index := (x.index + 1) % 2 ^ x.sizeLog2 } })
    .next (s.emit (.descRead h r x.index))
  else .next s

/-- DESCRIPTOR_READ_DONE: the oldest read of order ring r completes, at a position of the epoch in ns, or fails and stops the
ring (R378, R380, R400). (DEDUCED, log 30; DEDUCED, log 33.) -/
def execDescriptorReadDone (h : Fin 4) (r : Nat) (res : DescResult) (ns : Nat) (s : State) : Out :=
  let a := s.hat h.val
  match a.reads.find? (fun x => x.1 = r) with
  | none => .next s
  | some x =>
    let s := s.updHat h.val (fun a => { a with reads := a.reads.erase x })
    match res with
    | .failed how =>
      let s := s.updHat h.val (fun a => { a with
        or_ := smUpd {} a.or_ r (fun y => stopRing y 2), cr := smUpd {} a.cr x.2.2 (fun y => { y with reserved := y.reserved - 1 }) })
      let s := match how with | .error => s | .timeout => s.aerError h 14 | .poisoned => s.aerError h 12
      .next (s.hatCause h 0)
    | .words ws =>
      let due := if s.sys.counting = false then 0 else if ns + 32 < s.epNs then s.sys.epoch + 1 else s.sys.epoch + 2
      .next (s.updHat h.val (fun a => { a with
        fetched := a.fetched ++ [⟨a.fetchSeq, r, x.2.1, ws, due⟩], fetchSeq := a.fetchSeq + 1
        openOrders := a.openOrders ++ [⟨a.fetchSeq, r, x.2.1, bits (ws.getD 0 0).toNat 31 16, some x.2.2⟩] }))

/-- KA_TIMEOUT of Hatch h in ep; 0 when no keepalive is needed (R396). -/
def State.kaEp (s : State) (h : Nat) : Nat := s.epOfMs (s.rf (bankKey h R.HAT_CTRL) 15 0)

/-- Hatch h is silent as R396 defines it. -/
def State.silentNow (s : State) (h : Nat) : Bool :=
  let a := s.hat h
  !a.linkUp || a.d3hot || !a.bme || (s.kaEp h ≠ 0 && s.kaEp h ≤ a.kickAge)

/-- The standby holders of every object that Hatch h owns (R391). -/
def State.standbyOf (s : State) (h : Fin 4) : Nat :=
  ((List.range 80).filter (s.owns h)).foldl (fun m k => m ||| s.standby k) 0

/-- HATCH_SILENCE: a change of silence of Hatch h is decided, with SILENCE events, causes and a Bin record (R391, R396, R431). -/
def execHatchSilence (h : Fin 4) (s : State) : Out :=
  let now := s.silentNow h.val
  if now = (s.hat h.val).silent ∨ s.sys.counting = false then .next s
  else
    let s := s.updHat h.val (fun a => { a with silent := now })
    let mask := s.standbyOf h
    let detail := b2n now * 16 + h.val
    let s := s.eventMask mask 4 detail s.sys.epoch 0 0
    let s := (hatList mask).foldl (fun s x => s.hatCause x 4) s
    .next (s.binLog 0xD8 [detail])

/-- The Hatches at a boundary: the age of the last keepalive (R396). -/
def State.hatBoundary (s : State) : State :=
  (List.range 4).foldl (fun s h => s.updHat h (fun a => { a with kickAge := a.kickAge + 1 })) s

/-- HAT_STATUS of bank h (R401). -/
def State.hatStatus (s : State) (h : Nat) : Word :=
  let bitOf (f : HatSt → Bool) : Nat := ofBits ((List.range 4).map (fun i => f (s.hat i)))
  BitVec.ofNat 32 (bitOf (·.silent) * 2 ^ 28 + bitOf (·.linkUp) * 2 ^ 24 + min 65535 (s.hat h).openOrders.length)

/-- HAT_RING_CFG of a ring (R401). -/
def RingSt.cfgWord (x : RingSt) : Word := BitVec.ofNat 32 (b2n x.enable * 2 ^ 31 + x.sizeLog2 * 2 ^ 24 + x.vector * 2 ^ 16 + x.cr)

/-- HAT_RING_STAT of a ring (R401). -/
def RingSt.statWord (x : RingSt) : Word :=
  BitVec.ofNat 32 (b2n x.stopped * 2 ^ 31 + x.error * 2 ^ 28 + b2n x.phase * 2 ^ 16 + x.index)

end Sys2Proof.Machine
end

