-- ==== Sys2Proof/Machine/Protection.lean ====
section
/-! DEFINITION. The protection pair (chapter 09): the pass of A and of B, raises and clears for the device, recovery and
degrade timers, the Block episode, the trip outputs and the deliberate reset. -/

namespace Sys2Proof.Machine

/-- The exact LSB of a measurement word in V (R40, R43). -/
def wordLsb (w : Word) : Rat := if flag w 27 then 1 / 100000 else 8 / 100000

/-- The value of input i for a protection (R286): for A an integer in units of 2^−24, for B a scalar of R174. -/
def State.prtQ (s : State) (isA : Bool) (i : Nat) (w : Word) : Rat :=
  let v : Rat := (signed 18 (fld w 17 0) : Rat)
  let scale := s.rq (R.PRT_SCALE i)
  if isA then v * (roundAway (scale * wordLsb w * (2 ^ 24 : Nat)) : Rat) else rnd [v * konst (wordLsb w) * scale]

/-- The value of the role's input for a protection; none when no input holds the role (R304). -/
def State.prtRole (s : State) (isA : Bool) (role : Nat) : Option Rat :=
  (s.inputOf role).map (fun i => s.prtQ isA i (s.reg (R.MFE_VAL i)))

/-- Limit l comes into force with a value: A derives its own limit from it and stores it (R286). -/
def State.prtStoreLim (s : State) (l : Nat) (w : Word) : State :=
  { s with prt := { s.prt with limA := smSet 0 s.prt.limA l (ofF32 w * (2 ^ 24 : Nat)).floor } }

/-- Limit l for a protection (R286). -/
def State.prtLim (s : State) (isA : Bool) (l : Nat) : Rat :=
  if isA then ((smGet (0 : Int) s.prt.limA l : Int) : Rat) else s.rq (R.PRT_LIM l)

/-- v_dc for a protection; none when a role of it is not held (R304). (DEDUCED, log 25.) -/
def State.prtVdc (s : State) (isA : Bool) : Option Rat :=
  match s.prtRole isA 13, s.prtRole isA 14 with
  | some p, some n => some (if isA then p - n else rnd [p, -n])
  | _, _ => none

/-- The element of a role for R311: the arm or the phase, 0 elsewhere. -/
def roleElem (role : Nat) : Nat :=
  if 1 ≤ role ∧ role ≤ 6 then role - 1 else if 7 ≤ role ∧ role ≤ 12 then (role - 7) % 3 else 0

/-- The inputs that hold a role from lo to hi and whose word carries bit b, as elements. -/
def State.flagged (s : State) (lo hi b : Nat) : List Nat :=
  (List.range 48).filterMap (fun i =>
    let role := s.rf (R.MFE_INCFG i) 4 0
    if lo ≤ role ∧ role ≤ hi ∧ flag (s.reg (R.MFE_VAL i)) b then some (roleElem role) else none)

/-- The arm current of a pass moved by at least ARM_DIDT × ep since the pass before (R303). (DEDUCED, log 25.) -/
def State.didt (s : State) (isA : Bool) (i p : Rat) : Bool :=
  if isA then s.prtLim true 5 * (s.epNs : Rat) ≤ (i - p).abs * 1000
  else rnd [s.prtLim false 5 * konst ((s.epNs : Rat) / 1000)] ≤ (rnd [i, -p]).abs

/-- DC_UV counts the pass (R303). -/
def State.dcUnder (s : State) (isA : Bool) : Bool :=
  s.sys.conv = .run && s.rq (R.PRT_LIM 4) ≠ 0 && (match s.prtVdc isA with | some v => v < s.prtLim isA 4 | none => false)

/-- The measurement sources of a protection's pass as (source, element), with the run of DC_UV in this pass (R303, R304). -/
def State.prtMeas (s : State) (isA : Bool) (v : PrtView) (n : Epoch) (uvRun : Nat) : List (Nat × Nat) :=
  let beyond (role l : Nat) : Bool := match s.prtRole isA role with | some q => s.prtLim isA l ≤ q.abs | none => false
  let arms := (List.range 6).filter (fun j => beyond (1 + j) 0)
  let phases := (List.range 3).filter (fun x => beyond (10 + x) 1)
  let didts := (List.range 6).filter (fun j =>
    match s.prtRole isA (1 + j), smGet none v.prevI j with
    | some i, some p => v.tag = some (n - 1) && s.didt isA i p
    | _, _ => false)
  let ov : Bool := match s.prtVdc isA with | some q => s.prtLim isA 3 ≤ q | none => false
  arms.map (fun j => (16, j)) ++ phases.map (fun x => (17, x)) ++ (if beyond 15 2 then [(18, 0)] else []) ++
    (if ov then [(19, 0)] else []) ++ (if 4 ≤ uvRun then [(20, 0)] else []) ++ didts.map (fun j => (21, j)) ++
    (s.flagged 1 17 30).map (fun x => (22, x)) ++ (s.flagged 18 26 30).map (fun x => (23, x)) ++
    (s.flagged 1 17 29).map (fun x => (24, x))

/-- The capacitor voltage of an entry is at or above the fraction l of VRATED, for a protection (R286). -/
def State.vcapAtLeast (s : State) (isA : Bool) (h l : Nat) (e : Entry) : Bool :=
  let vr : Rat := (s.vrated (s.mapEntry h) : Rat)
  let f := s.rq (R.PRT_LIM l)
  if isA then ((f * vr).floor : Rat) ≤ (e.vcap : Rat) else rnd [f * (vr / 64)] ≤ rnd [(e.vcap : Rat) / 64]

/-- The sources that unit h raises in a protection's pass (R303, R305). -/
def State.unitSources (s : State) (isA : Bool) (h : Nat) : List Nat :=
  match s.entry h with
  | none => []
  | some e =>
    let g := mapGroup (s.mapEntry h)
    let st := (s.unit h).status
    let run := s.sys.conv = .run
    let done := (s.eunit h).byp.step = 5
    if g = 7 then (if e.fault ≠ 0 then [38] else [])
    else if 7 < g then []
    else
      let lost := if st = .lost ∧ !done then [37] else []
      if e.state = 3 ∨ done ∨ st = .lost ∨ st = .retired then lost
      else
        let high := bit e.fault 11 || (s.rq (R.PRT_LIM 6) ≠ 0 && s.vcapAtLeast isA h 6 e)
        let under := run && (bit e.fault 10 || (s.rq (R.PRT_LIM 7) ≠ 0 && !s.vcapAtLeast isA h 7 e))
        let flags := ([(9, 28), (8, 29), (7, 30), (6, 31), (5, 32), (4, 33), (1, 34), (0, 35)] : List (Nat × Nat)).filterMap
          (fun x => if bit e.fault x.1 then some x.2 else none)
        (if high then [26] else []) ++ (if under then [27] else []) ++ flags ++ (if run && bit e.fault 2 then [36] else [])

/-- The comparator sources in a pass (R303): a set latch with BLOCK_EN = 1 raises; LATCH = OUT = 0 clears. A comparator under self-test is
isolated: it raises nothing (R59). -/
def State.cmpSources (s : State) (v : PrtView) : List Nat :=
  (List.range 16).filter (fun j =>
    let latch := s.rb (R.MFE_CMP_STAT j) 31
    !s.cmpTested j && ((latch && s.rb (R.MFE_CMP_CFG j) 6) || (v.raised.contains j && (latch || (smGet {} s.mfe.cmps j).out))))

/-- The deadline sources in a pass (R307): a run of misses raises, and a pass after an epoch in which every item completed
clears. -/
def State.missSource (s : State) (v : PrtView) (k need : Nat) (items : List Nat) : Bool :=
  let run (i : Nat) : Nat := smGet 0 s.sys.missRun i
  items.any (fun i => need ≤ run i) || (v.raised.contains k && items.any (fun i => 0 < run i))

/-- At the end of a boundary: the indications as they stand, and the events since the boundary before, are what the passes of the epoch
read (R285). (DEDUCED, log 25.) -/
def State.prtSnap (s : State) : State :=
  let add (l : List Nat) : List Nat := s.prt.evtNext ++ l.filter (fun k => !s.prt.evtNext.contains k)
  { s with prt := { s.prt with ind := s.indications, evtA := add s.prt.evtA, evtB := add s.prt.evtB, evtNext := [] } }

/-- The sources of a pass that are not its own comparisons: the indications at the boundary (R285), the deadline misses (R307) and
AB_DISC (R289). -/
def State.levelSources (s : State) (v : PrtView) : List Nat :=
  s.prt.ind ++ (if s.missSource v 45 2 [2, 3, 4, 5, 6, 7, 8, 9, 10, 12] then [45] else []) ++
    (if s.missSource v 46 4 [0, 1, 13] then [46] else []) ++ (if s.prt.abDisc then [56] else [])

/-- The sources that are evaluated in OFF (R288). -/
def offSources : List Nat := [49, 51, 52]

/-- The view of a protection. -/
def State.view (s : State) (isA : Bool) : PrtView := if isA then s.prt.a else s.prt.b

/-- Changes the view of a protection. -/
def State.updView (s : State) (isA : Bool) (f : PrtView → PrtView) : State :=
  if isA then { s with prt := { s.prt with a := f s.prt.a } } else { s with prt := { s.prt with b := f s.prt.b } }

/-- The block request of a protection, written at a position of the epoch in ns, enters the block logic 2 ns later as input 16
or 17 (R293). -/
def State.blockRequest (s : State) (isA : Bool) (ns : Nat) : State := s.blockFire (if isA then 16 else 17) (ns + 2)

/-- RECOVER of source k in epochs (R301, R302). -/
def State.recoverEp (s : State) (k : Nat) : Nat := s.epOfMs (s.rf (R.PRT_SRC_CFG k) 12 0)

/-- DEG_LIMIT of source k in epochs (R301, R302). -/
def State.degLimitEp (s : State) (k : Nat) : Nat := s.epOfMs (1000 * max 1 (s.rf (R.PRT_SRC_CFG k) 24 13))

/-- A class whose sources time their recovery: Degrade and above (R295, R296). (DEDUCED, log 25.) -/
def State.timesRecovery (s : State) (k : Nat) : Bool := 3 ≤ s.srcClass k

/-- The deblock permit of a protection's view after its pass (R290). -/
def State.permitOf (s : State) (v : PrtView) : Bool :=
  let bad (k : Nat) : Bool := 4 ≤ s.srcClass k
  let tested := (List.range 16).any (fun j => s.rb (R.MFE_CMP_CFG j) 6 && s.cmpTested j)
  !v.raised.any bad && !(v.recover.map Prod.fst).any bad && s.sys.conv ≠ .lockout && !tested && s.grd.badcfg = 0 &&
    (List.range 4).all (fun l => s.rq (R.PRT_LIM l) ≠ 0) &&
    ([1, 2, 3, 4, 5, 6, 13, 14] : List Nat).all (fun r => (s.inputOf r).isSome)

/-- A 72-bit set of sources as three words (R311). -/
def bitmap72 (ks : List Nat) : List Word :=
  (List.range 3).map (fun w => BitVec.ofNat 32 (ks.foldl (fun m k => if k / 32 = w then m ||| 2 ^ (k % 32) else m) 0))

/-- The most severe class of a set of sources (R296). -/
def State.worst (s : State) (ks : List Nat) : Nat := (ks.map s.srcClass).foldl max 0

/-- The epochs left until a recovery timer expires. -/
def State.leftOf (s : State) (x : Option Epoch) : Nat :=
  match x with
  | some e => if epGe s.sys.epoch e then 0 else (e - s.sys.epoch).toNat
  | none => 0

/-- The degrade timer of source k in a view, in epochs since the boundary of the raise (R297). -/
def PrtView.degTimer (v : PrtView) (k : Nat) : Nat := smGet 0 v.degrade k - 1

/-- The epochs left on the timer of source k that runs in a view: its recovery timer, or its degrade timer until the source has escalated
(R296, R297). -/
def State.timerLeft (s : State) (v : PrtView) (k : Nat) : Nat :=
  let rec_ := smGet none v.recover k
  if rec_.isSome then s.leftOf rec_
  else if !s.prt.esc.contains k && (v.degrade.map Prod.fst).contains k then s.degLimitEp k - v.degTimer k else 0

/-- Word 16 + k of a protection's annex region (R311). -/
def State.prtWord (s : State) (v : PrtView) (k : Nat) : Word :=
  let st := if s.prt.esc.contains k then 3 else if v.raised.contains k then 1 else if (smGet none v.recover k).isSome then 2 else 0
  BitVec.ofNat 32 (st * 2 ^ 30 + min (2 ^ 30 - 1) (s.timerLeft v k))

/-- A protection's annex region in Shelf n (R311). (DEDUCED, log 25.) -/
def State.prtAnnex (s : State) (isA : Bool) (n : Epoch) : State :=
  let v := s.view isA
  let rec_ := v.recover.map Prod.fst
  let react := if s.sys.conv = .lockout then 5 else s.worst (v.raised ++ rec_)
  let w0 : Word := BitVec.ofNat 32 (b2n v.permit * 2 ^ 31 + react * 2 ^ 28 + b2n s.prt.episode.isSome * 2 ^ 27 + v.raised.length)
  let w10 : Word := match v.unit with | some h => BitVec.ofNat 32 (2 ^ 31 + h) | none => 0
  let w11 : Word := match v.elem with | some (x, k) => BitVec.ofNat 32 (x * 256 + k) | none => 0
  s.annexPut n (if isA then 0x3400 else 0x3C00)
    ([w0] ++ bitmap72 v.raised ++ bitmap72 v.newly ++ bitmap72 rec_ ++ [w10, w11, 0, 0, 0, 0] ++
      (List.range 72).map (s.prtWord v))

/-- A unit that raises a fault inside it is bypassed (R306): always for SM_DIDT and SM_TURNOFF, and where the margin of its
group allows it for SM_GATE_SUPPLY and SM_INTERNAL. -/
def State.bypassFaulty (s : State) (h : Nat) (ks : List Nat) : State :=
  let g := mapGroup (s.mapEntry h)
  if ks.contains 29 || ks.contains 30 || ((ks.contains 31 || ks.contains 35) && s.nReq g + 1 ≤ s.healthyCount g) then s.bypStart h
  else s

/-- Source k clears in a view in the pass of the present epoch: it is raised no more, and its recovery timer starts at the boundary that
follows (R287, R295, R301). -/
def State.clearIn (s : State) (k : Nat) (v : PrtView) : PrtView :=
  if v.raised.contains k then { v with
    raised := v.raised.erase k, newly := v.newly.erase k, degrade := smErase v.degrade k
    recover := if s.timesRecovery k then
        smSet none v.recover k (some (s.sys.epoch + 1 + BitVec.ofNat 48 (s.recoverEp k))) else v.recover }
  else v

/-- The A/B discrepancy runs after a pass, once both passes of the epoch have completed: AB_DISC is raised while a run holds, and clears
in both views in the pass in which none does (R287–R289). -/
def State.discRuns (s : State) : State :=
  if s.prt.a.done && s.prt.b.done then
    let off : Bool := s.sys.conv = .off
    let one (k : Nat) : Bool := s.prt.a.raised.contains k != s.prt.b.raised.contains k
    let d := if off then [] else (List.range 72).filterMap (fun k => if one k then some (k, smGet 0 s.prt.disc k + 1) else none)
    let holds := d.any (fun x => max 1 (s.rf R.PRT_DISC 7 0) ≤ x.2)
    let ends := s.prt.abDisc && !holds && !off
    let s := { s with prt := { s.prt with disc := d, abDisc := s.prt.abDisc && holds } }
    if ends then
      let clear (s : State) (isA : Bool) : State :=
        let s := s.updView isA (s.clearIn 56)
        (s.updView isA (fun v => { v with permit := s.permitOf v })).prtAnnex isA (s.sys.epoch - 1)
      clear (clear s true) false
    else s
  else s

/-- A second fault in a pass (R299): with EN = 1 in an episode, after the pass of the epoch of HOLD entry, a source of class
Block is newly raised that is not raised for the device. (DEDUCED, log 25.) -/
def State.secondFault (s : State) (newly : List Nat) : Bool :=
  s.rb R.PRT_ESCALATE 31 && (match s.prt.episode with | some e => e != s.sys.epoch | none => false) &&
    newly.any (fun k => s.srcClass k = 4 && !s.devRaised.contains k)

/-- The pass of Protection A or B, tagged E − 1, whose outputs are written at a position of the epoch in ns (R285–R307). -/
def State.prtPass (isA : Bool) (ns : Nat) (s : State) : State :=
  let v := s.view isA
  let n := s.sys.epoch - 1
  let off := s.sys.conv = .off
  let uv := if s.dcUnder isA then v.uvRun + 1 else 0
  let meas := if off then [] else s.prtMeas isA v n uv
  let homes := if off then [] else s.mapped.filter (fun h => mapExpected (s.mapEntry h) && mapGroup (s.mapEntry h) ≤ 7)
  let scan := (homes.map (fun h => (h, s.unitSources isA h))).filter (fun x => x.2 ≠ [])
  let level := s.levelSources v ++ (if isA then s.prt.evtA else s.prt.evtB)
  let cmps := if off then [] else s.cmpSources v
  let all := cmps ++ meas.map Prod.fst ++ (scan.map Prod.snd).flatten ++ level
  let raised := (List.range 71).filter (fun k => all.contains k && (!off || offSources.contains k))
  let newly0 := raised.filter (fun k => !v.raised.contains k)
  let esc := s.secondFault newly0 && !raised.contains 55
  let raised := if esc then (List.range 71).filter (fun k => k = 55 || raised.contains k) else raised
  let newly := raised.filter (fun k => !v.raised.contains k)
  let cleared := v.raised.filter (fun k => !raised.contains k)
  let due (k : Nat) : Option Epoch := some (s.sys.epoch + 1 + BitVec.ofNat 48 (s.recoverEp k))
  let keep (k : Nat) : Bool := !off || offSources.contains k
  let recover := cleared.foldl (fun m k => if s.timesRecovery k && keep k then smSet none m k (due k) else m)
    (v.recover.filter (fun x => !raised.contains x.1 && keep x.1))
  let first (k : Nat) : Option Nat := (scan.find? (fun x => x.2.contains k)).map Prod.fst
  let prevI := (List.range 6).foldl (fun m j => smSet none m j (s.prtRole isA (1 + j))) []
  let order := if isA then scan else scan.reverse
  let v' : PrtView := { v with
    raised := raised, newly := newly, recover := recover
    degrade := v.degrade.filter (fun x => raised.contains x.1 && keep x.1)
    tag := some n, prevI := prevI, uvRun := uv
    unit := ((order.filter (fun x => x.2.any (fun k => 26 ≤ k && k ≤ 38))).head?).map Prod.fst
    units := (List.range 13).foldl (fun m k => smSet none m (26 + k) (first (26 + k))) []
    elem := ((List.range 9).findSome? (fun k => meas.find? (fun x => x.1 = 16 + k))).map (fun x => (x.2, x.1))
    done := true }
  let s := s.updView isA (fun _ => v')
  let s := if isA then { s with prt := { s.prt with evtA := [] } } else { s with prt := { s.prt with evtB := [] } }
  let s := { s with prt := { s.prt with esc := s.prt.esc.filter keep } }
  let s := s.updView isA (fun v => { v with permit := s.permitOf v })
  let s := if newly.any (fun k => 4 ≤ s.srcClass k) then s.blockRequest isA ns else s
  let s := scan.foldl (fun s x => s.bypassFaulty x.1 x.2) s
  (s.prtAnnex isA n).discRuns

/-- PROTECTION_PASS of A (true) or B: item 9 or 10 of R20 in the present epoch (R285). -/
def execProtectionPass (isA : Bool) (ns : Nat) (s : State) : Out := .next (s.runItem (if isA then 9 else 10) (State.prtPass isA ns))

/-- The classes have changed after the pass of a protection: its permit may be withdrawn, and its annex region shows it (R290, R311). -/
def State.prtRefresh (s : State) (isA : Bool) : State :=
  (s.updView isA (fun v => { v with permit := v.permit && s.permitOf v })).prtAnnex isA (s.sys.epoch - 1)

/-- Sources that a protection raises in the pass of the present epoch beside those of the pass itself, with the block request of a
class Block or above, written at a position of the epoch in ns (R287, R293). (DEDUCED, log 25.) -/
def State.raiseIn (s : State) (isA : Bool) (ks : List Nat) (ns : Nat) : State :=
  let new := ks.filter (fun k => !(s.view isA).raised.contains k)
  let s := s.updView isA (fun v => { v with
    raised := (List.range 71).filter (fun k => ks.contains k || v.raised.contains k)
    newly := (List.range 71).filter (fun k => new.contains k || v.newly.contains k)
    recover := v.recover.filter (fun x => !ks.contains x.1) })
  (if new.any (fun k => 4 ≤ s.srcClass k) then s.blockRequest isA ns else s).prtRefresh isA

/-- AB_DISC: some source has been raised by one protection and not by the other for DISC_EP passes (R289); both raise it in the pass of
the present epoch, at the deadline of the passes, with what a raise brings (R287, R293, R299). (DEDUCED, log 25.) -/
def execAbDisc (s : State) : Out :=
  if s.prt.abDisc = false ∧ s.sys.conv ≠ .off ∧ s.prt.disc.any (fun x => max 1 (s.rf R.PRT_DISC 7 0) ≤ x.2) then
    let ks := if s.secondFault [56] then [55, 56] else [56]
    let ns := if s.sys.compat then 384 else 192
    .next ((({ s with prt := { s.prt with abDisc := true } } : State).raiseIn true ks ns).raiseIn false ks ns)
  else .next s

/-- Word 3 of the FAULT event of source k (R295, R391): the latch of a comparator, or the first unit of A's scan order. -/
def State.faultWord3 (s : State) (k : Nat) : Nat :=
  if k < 16 then
    let w := s.reg (R.MFE_CMP_STAT k)
    fld w 15 0 * 2 ^ 48 + fld w 24 16 * 2 ^ 32
  else
    match (match smGet none s.prt.a.units k with | some h => some h | none => smGet none s.prt.b.units k) with
    | some h => 2 ^ 31 + h
    | none => 0

/-- The Bin record of a raise or a clear, and the FAULT event of a class above Note (R295, R391, R431), with a pass tag. -/
def State.sourceRecord (s : State) (k : Nat) (up : Bool) (d : DevSrc) (tag : Epoch) : State :=
  let cls := s.srcClass k
  let detail := k * 256 + cls * 32 + d.by_
  let s := s.binAt tag (if up then k else 0x48 + k) [b2n up, d.w3, detail]
  if 2 ≤ cls then s.eventMask (s.owner 1) 2 detail tag (b2n up) d.w3 else s

/-- Source k is raised for the device at a boundary (R287, R289, R295, R299). (DEDUCED, log 25.) -/
def State.raiseDev (s : State) (tag : Epoch) (k : Nat) : State :=
  let d : DevSrc := ⟨b2n (s.prt.a.raised.contains k) + 2 * b2n (s.prt.b.raised.contains k), s.faultWord3 k⟩
  let cls := s.srcClass k
  let s := { s with prt := { s.prt with dev := smSet none s.prt.dev k (some d) } }
  let s := s.count (R.PRT_SRC_STAT k) 27 20
  let s := if 2 ≤ cls then s.latch R.PRT_CAUSE 7 else s
  let s := if k = 56 then s.latch R.PRT_CAUSE 5 else s
  let s := if cls = 4 then
      let s := s.latch R.PRT_CAUSE 1
      { s with prt := { s.prt with lastBlock := s.prt.lastBlock + 1, raises := if s.prt.episode.isSome then s.prt.raises + 1 else s.prt.raises } }
    else s
  let s := if cls = 5 then { s with prt := { s.prt with lockPending := true } } else s
  let s := if 4 ≤ cls then { s with prt := { s.prt with recDone := false } } else s
  s.sourceRecord k true d tag

/-- Source k is cleared for the device at a boundary (R287, R289). (DEDUCED, log 25.) -/
def State.clearDev (s : State) (tag : Epoch) (k : Nat) : State :=
  let d := (smGet none s.prt.dev k).getD ⟨0, 0⟩
  let s := { s with prt := { s.prt with dev := smErase s.prt.dev k } }
  s.sourceRecord k false d tag

/-- Source k has taken its class ESC: at the boundary the reaction follows as at a raise of that class, without being a raise that is
counted (R295, R297, R299). (DEDUCED, log 25.) -/
def State.escalateDev (s : State) (tag : Epoch) (k : Nat) : State :=
  let d := (smGet none s.prt.dev k).getD ⟨0, 0⟩
  let s := s.latch R.PRT_CAUSE 7
  let s := if s.srcClass k = 5 then { s with prt := { s.prt with lockPending := true } } else s.latch R.PRT_CAUSE 1
  s.sourceRecord k true d tag

/-- The protections at a boundary (R287, R289, R297): raises and clears take effect for the device, and the degrade timers
run. A protection whose pass has not completed in the epoch that ended withholds its permit (R290), and a firing of that epoch stands
against the orders of this boundary (R309). -/
def State.prtBoundary (s : State) : State :=
  let tag := s.sys.epoch - 2
  let new := (List.range 71).filter (fun k => s.prt.a.raised.contains k || s.prt.b.raised.contains k)
  let old := s.devRaised
  let escs := ((s.prt.escNow.map Prod.fst).dedup).filter (fun k => old.contains k && new.contains k)
  let s : State := { s with prt := { s.prt with lastBlock := 0, escNow := [] } }
  let s : State := (old.filter (fun k => !new.contains k)).foldl (fun s k => s.clearDev tag k) s
  let s : State := (new.filter (fun k => !old.contains k)).foldl (fun s k => s.raiseDev tag k) s
  let s : State := escs.foldl (fun s k => s.escalateDev tag k) s
  let off : Bool := s.sys.conv = .off
  let tick (m : SMap Nat) (k : Nat) : SMap Nat :=
    if s.rf (R.PRT_SRC_CFG k) 30 28 = 3 then smUpd 0 m k (fun t => t + 1) else smErase m k
  let run (v : PrtView) : PrtView := { v with
    degrade := if off then [] else v.raised.foldl tick v.degrade
    permit := v.permit && v.done, done := false }
  { s with prt := { s.prt with a := run s.prt.a, b := run s.prt.b, firedNow := false, firedLast := s.prt.firedNow } }

/-- DEGRADE_EXPIRY of source k in a protection: its degrade timer has reached DEG_LIMIT while the source is raised for the
device, which takes its class ESC, and the protection writes a block request (R293, R297). Where both timers reach it in one epoch,
both protections write one. (DEDUCED, log 25.) -/
def execDegradeExpiry (isA : Bool) (k ns : Nat) (s : State) : Out :=
  if s.devRaised.contains k ∧ (s.view isA).raised.contains k ∧ s.rf (R.PRT_SRC_CFG k) 30 28 = 3 ∧
      s.degLimitEp k ≤ (s.view isA).degTimer k ∧
      (s.prt.esc.contains k = false ∨ (s.prt.escNow.contains (k, !isA) ∧ s.prt.escNow.contains (k, isA) = false)) then
    let esc := if s.prt.esc.contains k then s.prt.esc else k :: s.prt.esc
    let s := { s with prt := { s.prt with esc := esc, escNow := (k, isA) :: s.prt.escNow } }
    .next ((((s.latch R.PRT_CAUSE 3).blockRequest isA ns).prtRefresh true).prtRefresh false)
  else .next s

/-- The permit of a protection where a timer or a class has changed at a boundary: its last pass was that of the present epoch or of the
one before (R290). -/
def State.permitAgain (s : State) (isA : Bool) : State :=
  s.updView isA (fun v => { v with
    permit := (v.tag = some (s.sys.epoch - 1) || v.tag = some (s.sys.epoch - 2)) && s.permitOf v })

/-- RECOVERY_TIMER_EXPIRY of source k in a protection: its recovery timer has expired; an escalated source returns to its
configured class when both have (R296, R297, R301). The permits follow (R290). (DEDUCED, log 3.) -/
def execRecoveryTimerExpiry (isA : Bool) (k : Nat) (s : State) : Out :=
  match smGet none (s.view isA).recover k with
  | none => .next s
  | some e =>
    if epGe s.sys.epoch e then
      let s := s.updView isA (fun v => { v with recover := smErase v.recover k })
      let busy (v : PrtView) : Bool := v.raised.contains k || (smGet none v.recover k).isSome
      let s := if busy s.prt.a || busy s.prt.b then s else { s with prt := { s.prt with esc := s.prt.esc.erase k } }
      .next ((s.permitAgain true).permitAgain false)
    else .next s

/-- The sources that are timing their recovery for the device (R296). -/
def State.devRecovering (s : State) : List Nat :=
  (List.range 71).filter (fun k => !s.devRaised.contains k &&
    ((smGet none s.prt.a.recover k).isSome || (smGet none s.prt.b.recover k).isSome))

/-- The reaction in force (R296). -/
def State.reaction (s : State) : Nat := if s.sys.conv = .lockout then 5 else s.worst (s.devRaised ++ s.devRecovering)

/-- Recovery from HOLD is complete (R298). (DEDUCED, log 25.) -/
def State.recovered (s : State) : Bool :=
  let bad (k : Nat) : Bool := 4 ≤ s.srcClass k
  let since := match s.prt.holdAt with | some e => (s.sys.epoch - e).toNat | none => 0
  s.sys.conv = .hold && !s.devRaised.any bad && !s.devRecovering.any bad && !s.prt.blockPending &&
    s.epOfMs (s.rf R.PRT_HOLD 15 0) ≤ since

/-- The recovery has completed: PRT_CAUSE.RECOVERED is set, and the episode ends (R298, R299). -/
def State.endEpisode (s : State) : State :=
  if s.prt.recDone then s else ({ s with prt := { s.prt with episode := none, recDone := true } } : State).latch R.PRT_CAUSE 4

/-- RECOVERY_COMPLETE: the recovery completes; with AUTO_RESUME = 1 and both permits the way to RUN is announced, with AUTO_RESUME = 0 the
converter goes to READY, and with a permit missing it stays in HOLD (R32, R34, R298). (DEDUCED, log 3.) -/
def execRecoveryComplete (s : State) : Out :=
  if s.recovered ∧ s.sys.moved = false ∧ s.sys.announce = none then
    let s := s.endEpisode
    if s.rb R.SYS_CONV_CFG 1 = false then .next (s.moveTo .ready 5)
    else if s.prt.a.permit ∧ s.prt.b.permit then .next (s.announceRun true [])
    else .next s
  else .next s

/-- An event of the present boundary, which the passes of the epoch see (R285, R303). (DEDUCED, log 25.) -/
def State.prtEventNow (s : State) (k : Nat) : State :=
  { s with prt := { s.prt with evtA := k :: s.prt.evtA.erase k, evtB := k :: s.prt.evtB.erase k } }

/-- HOLD_TIMEOUT: one episode has lasted HOLD_MAX at the present boundary (R300). (DEDUCED, log 25.) -/
def execHoldTimeout (s : State) : Out :=
  match s.prt.episode with
  | some e =>
    if s.prt.holdTimeoutDone = false ∧ s.epOfMs (10 * max 1 (s.rf R.PRT_HOLD 31 16)) ≤ (s.sys.epoch - e).toNat then
      .next (({ s with prt := { s.prt with holdTimeoutDone := true } } : State).prtEventNow 53)
    else .next s
  | none => .next s

/-- TRIP_PULSE_END: a trip output in pulse mode releases after WIDTH (R308). -/
def execTripPulseEnd (t : Nat) (s : State) : Out :=
  match smGet none s.prt.trips t with
  | some e =>
    let c := s.reg (R.PRT_TRIP_CFG t)
    if t < 4 ∧ flag c 30 ∧ s.epOfMs (10 * max 1 (fld c 23 16)) ≤ (s.sys.epoch - e).toNat then
      .next { s with prt := { s.prt with trips := smErase s.prt.trips t } }
    else .next s
  | none => .next s

/-- A Lock-out-class raise during LOCKOUT (R295, R308, R312): it is recorded, and outputs in pulse mode are asserted again. -/
def State.lockAgain (s : State) : State :=
  let s := s.devRaised.foldl (fun s k => if s.srcClass k = 5 then s.lockBit k else s) s
  if s.prt.lockPending then
    (List.range 4).foldl (fun s t => if s.rb (R.PRT_TRIP_CFG t) 31 && s.rb (R.PRT_TRIP_CFG t) 30 then s.assertTrip t else s) s
  else s

/-- The result of a deliberate reset (R310, R312). -/
def State.resetResult (s : State) (r : Nat) : State := s.setRf R.PRT_RESET_STAT 2 0 r

/-- A refused attempt: RESULT and the cause are set, and the ARM is cancelled (R310). (DEDUCED, log 26.) -/
def State.resetRefuse (s : State) (r : Nat) : State :=
  ({ (s.resetResult r) with prt := { s.prt with resetArm := none, resetGo := false } } : State).latch R.PRT_CAUSE 6

/-- The port may give the deliberate reset (R310). (DEDUCED, log 26.) -/
def State.mayReset (s : State) (r : Requester) : Bool := s.mayWrite r R.PRT_RESET

/-- A write of PRT_RESET from a port without ownership is counted with kind 4 (R394). (DEDUCED, log 26.) -/
def State.resetOwner (s : State) (r : Requester) : State := if s.mayReset r then s else s.logErr r 4 R.PRT_RESET

/-- ARM with its key (R310). (DEDUCED, log 26.) -/
def State.resetArm (s : State) (r : Requester) (key : Nat) : State :=
  let s := s.resetOwner r
  if key = 0xC35A ∧ s.mayReset r then
    { (s.resetResult 1) with prt := { s.prt with resetArm := some (r, s.sys.epoch), resetGo := false } }
  else s.resetRefuse 4

/-- The epochs in 1 s (R310). -/
def State.ep1s (s : State) : Nat := s.epOfMs 1000

/-- No source of class Lock-out is raised (R310). -/
def State.resetReady (s : State) : Bool := !s.devRaised.any (fun k => s.srcClass k = 5)

/-- GO with its key: accepted from the port that armed, within 1 s (R310); a key or a port that does not match is refused.
(DEDUCED, log 26.) -/
def State.resetAsk (s : State) (r : Requester) (key : Nat) : State :=
  let s := s.resetOwner r
  match s.prt.resetArm with
  | some (p, e) =>
    if key = 0x3CA5 ∧ p = r ∧ s.mayReset r ∧ (s.sys.epoch - e).toNat ≤ s.ep1s then { s with prt := { s.prt with resetGo := true } }
    else s.resetRefuse 4
  | none => s.resetRefuse 4

/-- The GO at its boundary (R310): the transition from LOCKOUT to OFF, with the trip outputs released and PRT_LOCKED cleared,
or a refusal. -/
def State.resetDo (s : State) : State :=
  if s.sys.conv = .lockout ∧ s.resetReady ∧ s.prt.lockPending = false ∧ s.sys.moved = false then
    let s := { (s.resetResult 2) with prt := { s.prt with resetArm := none, resetGo := false, trips := [] } }
    let s := (List.range 3).foldl (fun s w => s.setReg (R.PRT_LOCKED w) 0) (s.latch R.PRT_CAUSE 6)
    s.moveTo .off 6
  else s.resetRefuse 3

/-- RESET_ARM by a requester (R310). -/
def execResetArm (r : Requester) (key : Nat) (s : State) : Out := .next (s.resetArm r key)

/-- RESET_GO by a requester, with its effect at the boundary (R310). -/
def execResetGo (r : Requester) (key : Nat) (s : State) : Out :=
  let s := s.resetAsk r key
  .next (if s.prt.resetGo then s.resetDo else s)

/-- RESET_ARM_EXPIRY: an ARM not followed by GO within 1 s (R310, R312). -/
def execResetArmExpiry (s : State) : Out :=
  match s.prt.resetArm with
  | some (_, e) =>
    if s.ep1s < (s.sys.epoch - e).toNat ∧ s.prt.resetGo = false then
      .next { (s.resetResult 5) with prt := { s.prt with resetArm := none } }
    else .next s
  | none => .next s

/-- A write of PRT_RESET (R310, R312). (DEDUCED, log 26.) -/
def State.resetWrite (s : State) (r : Requester) (w : Word) : State :=
  let key := fld w 15 0
  match flag w 31, flag w 30 with
  | true, false => s.resetArm r key
  | false, true => s.resetAsk r key
  | true, true => s.resetRefuse 4
  | false, false => s

/-- The floor of the class of source k (R303). -/
def srcFloor (k : Nat) : Nat :=
  if k ∈ [23, 25, 33, 34, 38, 42, 43, 44, 47, 52, 56, 59, 65, 66, 67, 68, 69, 70] then 1
  else if k ∈ [20, 24, 27, 32, 35, 36, 46, 57, 62] then 2
  else if k ∈ [31, 37] then 3
  else if k ∈ [41, 49, 51, 53, 55] then 5
  else 4

/-- The field rules of the PRT block (R176, R302, R304, R312). -/
def prtRule (off : Nat) (w : Word) : Option Word :=
  if R.PRT_SRC_CFG 0 ≤ off ∧ off ≤ R.PRT_SRC_CFG 71 then
    let k := (off - R.PRT_SRC_CFG 0) / 4
    let c := fld w 30 28
    if k = 51 ∨ k = 71 ∨ c < srcFloor k ∨ c = 0 ∨ 5 < c ∨ fld w 27 25 < 4 ∨ 5 < fld w 27 25 then none else some w
  else if R.PRT_LIM 0 ≤ off ∧ off ≤ R.PRT_LIM 15 then
    (if 8 ≤ (off - R.PRT_LIM 0) / 4 then none else hostF32NonNeg w)
  else if R.PRT_SCALE 0 ≤ off ∧ off ≤ R.PRT_SCALE 47 then hostF32 w
  else some w

/-- A write of a source configuration or a scale is held pending in RUN and HOLD (R302, R312). -/
def State.prtHeld (s : State) (off : Nat) : Bool :=
  (s.sys.conv = .run || s.sys.conv = .hold) &&
    ((R.PRT_SRC_CFG 0 ≤ off && off ≤ R.PRT_SRC_CFG 71) || (R.PRT_SCALE 0 ≤ off && off ≤ R.PRT_SCALE 47))

/-- PRT_STATUS (R312). -/
def State.prtStatus (s : State) : Word :=
  BitVec.ofNat 32 (b2n s.prt.a.permit * 2 ^ 31 + b2n s.prt.b.permit * 2 ^ 30 + s.reaction * 2 ^ 27 +
    b2n s.prt.episode.isSome * 2 ^ 26 + b2n s.resetReady * 2 ^ 25 + b2n (s.prt.trips != []) * 2 ^ 24 +
    min 255 s.prt.raises * 2 ^ 16 + min 255 s.holdsInWindow * 2 ^ 8)

/-- The live fields of PRT_SRC_STAT[k] (R296, R312): LEFT in ms, rounded up. -/
def State.srcStat (s : State) (k : Nat) : Word :=
  let up := s.devRaised.contains k
  let rec_ := s.devRecovering.contains k
  let esc := s.prt.esc.contains k
  let st := if esc then 3 else if up then 1 else if rec_ then 2 else 0
  let left := max (s.timerLeft s.prt.a k) (s.timerLeft s.prt.b k)
  BitVec.ofNat 32 (st * 2 ^ 30 + b2n (s.prt.a.raised.contains k) * 2 ^ 29 + b2n (s.prt.b.raised.contains k) * 2 ^ 28 +
    s.rf (R.PRT_SRC_STAT k) 27 20 * 2 ^ 20 + min 0xFFFFF ((left * s.epNs + 999999) / 1000000))

/-- PRT_VOTE (R312). -/
def State.prtVote (s : State) : Word :=
  setFld (setFlag (s.reg R.PRT_VOTE) 15 s.triple) 13 0 s.prt.voteAddr

end Sys2Proof.Machine
end

