-- ==== Sys2Proof/Machine/Orders.lean ====
section
/-! DEFINITION. The orders (R380–R390): each order's evaluation at a boundary with its completion, the layout of descriptors,
and the evaluation order of a boundary. -/

namespace Sys2Proof.Machine

/-- The transitions of R32 that a state order asks for. -/
def orderAllowed (opcode : Nat) (c : Conv) : Bool :=
  match opcode, c with
  | 0x01, .off | 0x02, .ready | 0x03, .run | 0x03, .hold | 0x04, .charge | 0x04, .ready | 0x04, .hold => true
  | _, _ => false

/-- A reaction has made the transition of this boundary (R33), not a recovery announced in HOLD. (DEDUCED, log 34.) -/
def State.reactionWon (s : State) : Bool :=
  s.sys.moved && s.sys.announce.isNone && (s.sys.conv = .hold || s.sys.conv = .lockout)

/-- An automatic transition has been made in this epoch, and no second one may follow (R33); RUN takes BLOCK as its stop ramp.
(DEDUCED, log 34.) -/
def State.transitionMade (s : State) : Bool := s.sys.moved && s.sys.announce.isNone && s.sys.conv ≠ .run

/-- The first state order of a boundary is taken with its status (R382). (DEDUCED, log 34.) -/
def State.take (s : State) (opcode status : Nat) (open_ : Bool) : State :=
  { s with sys := { s.sys with taken := some ⟨opcode, status, open_⟩ } }

/-- A state order that is refused: it is taken and completes. (DEDUCED, log 34.) -/
def State.refuseOrder (s : State) (r : OrderRef) (opcode status : Nat) : State :=
  (s.take opcode status false).stateDone r opcode status s.sys.conv s.sys.conv

/-- A state order with its transition: an announced transition to RUN is cancelled with REFUSED_BUSY (R35), and the order
completes with OK (R33, R389). -/
def State.carryOrder (s : State) (r : OrderRef) (opcode : Nat) (to_ : Conv) : State :=
  let old := s.sys.conv
  (((s.cancelAnnounce 4).take opcode 0 false).moveTo to_ 0).stateDone r opcode 0 old to_

/-- A state order by its opcode: a start of RUN that is due comes first (R35); then ownership, the orders already evaluated at the
boundary, a reaction that prevailed, the table of R32, for the orders that R309 names a firing of the block logic since the boundary
before, and a transition already made; then its conditions and effect (R32, R33, R309, R382, R394). (DEDUCED, log 34.) -/
def State.stateOrder (s : State) (r : OrderRef) (opcode : Nat) (effect : State → State) : State :=
  let s := s.beginRun
  if s.owns r.hatch 0 = false then s.stateDone r opcode 5 s.sys.conv s.sys.conv
  else match s.sys.taken with
    | some t =>
      if t.opcode ≠ opcode then s.stateDone r opcode 4 s.sys.conv s.sys.conv
      else if t.open_ then
        (match s.sys.announce with
        | some a => if opcode = opDeblock then { s with sys := { s.sys with announce := some { a with orders := a.orders ++ [r] } } }
                    else { s with sys := { s.sys with stopOrders := s.sys.stopOrders ++ [r] } }
        | none => { s with sys := { s.sys with stopOrders := s.sys.stopOrders ++ [r] } })
      else s.stateDone r opcode t.status (if t.status = 0 then s.sys.prev else s.sys.conv) s.sys.conv
    | none =>
      if s.reactionWon then s.refuseOrder r opcode (if orderAllowed opcode s.sys.prev then 3 else 1)
      else if orderAllowed opcode s.sys.conv = false then s.refuseOrder r opcode 1
      else if s.prt.firedLast ∧ opcode ≠ 0x04 then s.refuseOrder r opcode 3
      else if s.transitionMade then s.refuseOrder r opcode 4
      else effect s

/-- ENERGISE (R32): start-up complete, the reference locked, the Safety Core's permit and no Lock-out cause. -/
def State.energise (s : State) (r : OrderRef) : State :=
  s.stateOrder r 0x01 (fun s =>
    if s.start.state = .complete ∧ s.ref.state = .locked ∧ s.saf.permit ∧ s.reaction ≠ 5 ∧ s.prt.lockPending = false then
      s.carryOrder r 0x01 .charge
    else s.refuseOrder r 0x01 2)

/-- ENERGISE, evaluated at the present boundary. -/
def execEnergise (r : OrderRef) (s : State) : Out := .next (s.energise r)

/-- Both protections and the Safety Core permit RUN, every margin is met, and no Block or Lock-out reaction is active (R32). -/
def State.mayRun (s : State) : Bool :=
  s.prt.a.permit && s.prt.b.permit && s.saf.permit && (List.range 7).all s.marginOk && decide (s.reaction < 4) &&
    !s.prt.blockPending && !s.prt.lockPending

/-- DEBLOCK (R32, R34, R35): the transition to RUN is decided and announced; a second DEBLOCK joins the first. -/
def State.deblock (s : State) (r : OrderRef) : State :=
  s.stateOrder r opDeblock (fun s =>
    match s.sys.announce with
    | some a => { s with sys := { s.sys with announce := some { a with orders := a.orders ++ [r] } } }.take opDeblock 0 true
    | none => if s.mayRun then (s.announceRun false [r]).take opDeblock 0 true else s.refuseOrder r opDeblock 2)

/-- DEBLOCK, evaluated at the present boundary. -/
def execDeblock (r : OrderRef) (s : State) : Out := .next (s.deblock r)

/-- BLOCK (R32, R192): in RUN the stop ramp starts, or a ramp in progress takes the order; in HOLD the converter goes to READY
when the recovery conditions other than the permits hold. -/
def State.block (s : State) (r : OrderRef) : State :=
  s.stateOrder r opBlock (fun s =>
    if s.sys.conv = .run then
      let s := { s with sys := { s.sys with stopOrders := s.sys.stopOrders ++ [r] } }
      let s := if s.ctl.stopping.isSome then s
        else { s with ctl := { s.ctl with stopping := some s.sys.epoch, rampZero := false, rampDone := false } }
      s.take opBlock 0 true
    else if s.recovered then s.endEpisode.carryOrder r opBlock .ready
    else s.refuseOrder r opBlock 2)

/-- BLOCK, evaluated at the present boundary. -/
def execBlock (r : OrderRef) (s : State) : Out := .next (s.block r)

/-- DEENERGISE (R32). -/
def State.deenergise (s : State) (r : OrderRef) : State := s.stateOrder r 0x04 (fun s => s.carryOrder r 0x04 .off)

/-- DEENERGISE, evaluated at the present boundary. -/
def execDeenergise (r : OrderRef) (s : State) : Out := .next (s.deenergise r)

/-- NOP completes OK (R385). -/
def execNop (r : OrderRef) (s : State) : Out := .next (s.complete r 0x00 0 0 0)

/-- A used entry of a SET_POINT order: its object, its register and its word as converted under R176 (R386). -/
def setPointTarget (e : SetPointEntry) : Option (Nat × Nat × Word) :=
  if e.kind = 1 ∧ e.index < 64 then (hostF32 e.value).map (fun w => (16 + e.index, R.CTL_SP e.index, w))
  else if e.kind = 2 ∧ (e.index = 13 ∨ e.index = 14) then (hostF32 e.value).map (fun w => (4, R.GRD_PAR e.index, w))
  else if e.kind = 2 ∧ e.index = 15 then (hostF32NonNeg e.value).map (fun w => (4, R.GRD_PAR 15, w))
  else none

/-- SET_POINT applies all of its entries or none (R383, R386, R394). -/
def State.setPoint (s : State) (r : OrderRef) (es : List SetPointEntry) : State :=
  let used := es.filter (fun e => e.kind ≠ 0)
  let ts := used.map setPointTarget
  if used = [] ∨ 6 < es.length ∨ ts.any Option.isNone then s.complete r 0x08 6 0 0
  else
    let ts := ts.filterMap id
    if ts.any (fun t => !s.owns r.hatch t.1) then s.complete r 0x08 5 0 0
    else (ts.foldl (fun s t => s.setReg t.2.1 t.2.2) s).complete r 0x08 0 0 0

/-- SET_POINT, evaluated at the present boundary. -/
def execSetPoint (r : OrderRef) (es : List SetPointEntry) (s : State) : Out := .next (s.setPoint r es)

/-- SNAPSHOT (R153–R155): a host address that is not 64-byte aligned, or a range that does not fit, is a BAD_ARG. -/
def State.snapshot (s : State) (r : OrderRef) (a : SnapshotArgs) : State :=
  if a.dma && a.addr.toNat % 64 ≠ 0 then s.complete r 0x10 6 0 0 else s.snapRequest r a

/-- SNAPSHOT, evaluated at the present boundary. -/
def execSnapshot (r : OrderRef) (a : SnapshotArgs) (s : State) : Out := .next (s.snapshot r a)

/-- CRATE_OPEN: a Crate in a free slot with a new id, or BUSY (R157, R389). -/
def State.crateOpen (s : State) (r : OrderRef) : State :=
  match (List.range 4).find? (fun i => (s.crate i).state = .free), s.nextId with
  | some i, some id =>
    let s := s.updCrate i (fun _ => { state := .building, id := id, hatch := r.hatch, openedAt := s.sys.epoch })
    { s with cel := { s.cel with lastId := id } }.complete r 0x20 0 (i * 256 + id) 0
  | _, _ => s.complete r 0x20 8 0 0

/-- CRATE_OPEN, evaluated at the present boundary. -/
def execCrateOpen (r : OrderRef) (s : State) : Out := .next (s.crateOpen r)

/-- An order that names a Crate: its slot, when the id is known and the Hatch opened it; otherwise the order completes with
CRATE_STATE or NOT_OWNER (R390). -/
def State.withCrate (s : State) (r : OrderRef) (opcode id : Nat) (f : State → Nat → State) : State :=
  match s.crateSlot id with
  | none => s.complete r opcode 9 0 0
  | some i => if (s.crate i).hatch ≠ r.hatch then s.complete r opcode 5 0 0 else f s i

/-- The parts so far, as the completion of an ADD gives them (R389). -/
def Crate.parts (c : Crate) : Nat := c.gates.length % 2 ^ 13 * 2 ^ 16 + min 2047 c.devs.length

/-- Counts the parts of slot i for CEL_CRATE_PARTS and completes an ADD with OK. -/
def State.addDone (s : State) (r : OrderRef) (opcode i : Nat) : State :=
  let s := s.updCrate i (fun c => { c with gateCount := c.gates.length, devCount := c.devs.length })
  s.complete r opcode 0 (s.crate i).parts 0

/-- The gate parts with items added for a unit (R157, R386). -/
def addItems (gs : List GatePart) (home : Nat) (items : List StagedItem) : List GatePart :=
  if gs.any (fun g => g.home = home) then gs.map (fun g => if g.home = home then { g with items := g.items ++ items } else g)
  else gs ++ [{ home := home, items := items }]

/-- CRATE_ADD_GATE adds staged items for one unit; more than 32 items of a unit are a BAD_ARG (R386). -/
def State.crateAddGate (s : State) (r : OrderRef) (id home : Nat) (items : List StagedItem) : State :=
  if items = [] ∨ 5 < items.length ∨ 4096 ≤ home then s.complete r 0x21 6 0 0
  else s.withCrate r 0x21 id (fun s i =>
    if (s.crate i).state ≠ .building then s.complete r 0x21 9 0 0
    else
      let gs := addItems (s.crate i).gates home items
      if gs.any (fun g => g.home = home && 32 < g.items.length) then s.complete r 0x21 6 0 0
      else (s.updCrate i (fun c => { c with gates := gs })).addDone r 0x21 i)

/-- CRATE_ADD_GATE, evaluated at the present boundary. -/
def execCrateAddGate (r : OrderRef) (id home : Nat) (items : List StagedItem) (s : State) : Out :=
  .next (s.crateAddGate r id home items)

/-- The words of a device part are laid out as R387 says: known code, no unassigned bit. -/
def partWordsOk (part w2 w3 : Nat) : Bool :=
  match part with
  | 0x01 => w2 < 2 ^ 12 && w3 < 2 ^ 16
  | 0x10 => w2 < 2 ^ 7 && w3 < 2 ^ 8
  | 0x31 => w2 < 2 ^ 6 && w3 < 2
  | 0x40 => w2 = 0 && w3 < 2
  | _ => false

/-- CRATE_ADD_DEVICE adds one device part (R387). -/
def State.crateAddDevice (s : State) (r : OrderRef) (id part w2 w3 : Nat) : State :=
  if partWordsOk part w2 w3 = false then s.complete r 0x22 6 0 0
  else s.withCrate r 0x22 id (fun s i =>
    if (s.crate i).state ≠ .building then s.complete r 0x22 9 0 0
    else (s.updCrate i (fun c => { c with devs := c.devs ++ [⟨part, w2, w3⟩] })).addDone r 0x22 i)

/-- CRATE_ADD_DEVICE, evaluated at the present boundary. -/
def execCrateAddDevice (r : OrderRef) (id part w2 w3 : Nat) (s : State) : Out := .next (s.crateAddDevice r id part w2 w3)

/-- CRATE_CLOSE validates the Crate and starts staging, or rejects it; it completes when the Crate is DONE (R162, R168). -/
def State.crateCloseOrder (s : State) (r : OrderRef) (id : Nat) : State :=
  s.withCrate r 0x23 id (fun s i => if (s.crate i).state ≠ .building then s.complete r 0x23 9 0 0 else s.crateClose i r)

/-- CRATE_CLOSE, evaluated at the present boundary. -/
def execCrateClose (r : OrderRef) (id : Nat) (s : State) : Out := .next (s.crateCloseOrder r id)

/-- CRATE_ABORT (R165, R390): a Crate in BUILDING is DONE, one in STAGING is to be aborted in this epoch, and one committed is
TOO_LATE. -/
def State.crateAbort (s : State) (r : OrderRef) (id : Nat) : State :=
  s.withCrate r 0x24 id (fun s i =>
    match (s.crate i).state with
    | .building => (s.crateDone i 6).complete r 0x24 0 id 0
    | .staging => (s.updCrate i (fun c => { c with abortAsked := true })).complete r 0x24 0 id 0
    | .committing | .verifying => s.complete r 0x24 0x0A 0 0
    | _ => s.complete r 0x24 9 0 0)

/-- CRATE_ABORT, evaluated at the present boundary. -/
def execCrateAbort (r : OrderRef) (id : Nat) (s : State) : Out := .next (s.crateAbort r id)

/-- Field [hi:lo] of word w of a descriptor. -/
def dfld (ws : List DWord) (w hi lo : Nat) : Nat := bits (ws.getD w 0).toNat hi lo

/-- The bits of word w outside a mask are 0 (R384, R386). -/
def onlyBits (ws : List DWord) (w mask : Nat) : Bool := (ws.getD w 0).toNat &&& (2 ^ 64 - 1 - mask) = 0

/-- The bits that word w of an order with an opcode may have set (R386, R387). -/
def descMask (ws : List DWord) (opcode w : Nat) : Nat :=
  let n := dfld ws 1 34 32
  match opcode, w with
  | _, 0 => 0xFFFF03FF
  | 0x08, 7 => 0
  | 0x08, _ => 0xE0FF0000FFFFFFFF
  | 0x10, 1 => 0xE000FFFFFFFFFFFF
  | 0x10, 2 => 0x1FFF00000FFF
  | 0x10, 3 => 2 ^ 64 - 1
  | 0x21, 1 => 0x70FFF00FF
  | 0x21, _ => if 2 ≤ w ∧ w < 2 + n then 0x3FFFFFFFF else 0
  | 0x22, 1 => 0xFFFF
  | 0x22, 2 | 0x22, 3 => 2 ^ 64 - 1
  | 0x23, 1 | 0x24, 1 => 0xFF
  | _, _ => 0

/-- No unassigned bit of a descriptor is set. (DEDUCED, log 32.) -/
def descOk (ws : List DWord) (opcode : Nat) : Bool := (List.range 8).all (fun w => onlyBits ws w (descMask ws opcode w))

/-- An order evaluated from its descriptor (R384–R387): an unknown opcode is a BAD_OPCODE, an unassigned bit a BAD_ARG. -/
def State.evalDesc (s : State) (r : OrderRef) (ws : List DWord) : State :=
  let op := dfld ws 0 7 0
  let known := op ∈ [0x00, 0x01, 0x02, 0x03, 0x04, 0x08, 0x10, 0x20, 0x21, 0x22, 0x23, 0x24]
  if ¬ known then s.complete r op 7 0 0
  else if descOk ws op = false then s.complete r op 6 0 0
  else match op with
    | 0x00 => s.complete r op 0 0 0
    | 0x01 => s.energise r
    | 0x02 => s.deblock r
    | 0x03 => s.block r
    | 0x04 => s.deenergise r
    | 0x08 => s.setPoint r ([1, 2, 3, 4, 5, 6].map (fun w => ⟨dfld ws w 63 61, dfld ws w 55 48, BitVec.ofNat 32 (dfld ws w 31 0)⟩))
    | 0x10 => s.snapshot r ⟨dfld ws 1 63 63 = 1, dfld ws 1 62 62 = 1, dfld ws 1 61 61 = 1, BitVec.ofNat 48 (dfld ws 1 47 0),
        dfld ws 2 44 32, dfld ws 2 11 0, ws.getD 3 0⟩
    | 0x20 => s.crateOpen r
    | 0x21 => s.crateAddGate r (dfld ws 1 7 0) (dfld ws 1 27 16)
        ((List.range (dfld ws 1 34 32)).map (fun i => ⟨dfld ws (2 + i) 33 30, dfld ws (2 + i) 29 0⟩))
    | 0x22 => s.crateAddDevice r (dfld ws 1 7 0) (dfld ws 1 15 8) (ws.getD 2 0).toNat (ws.getD 3 0).toNat
    | 0x23 => s.crateCloseOrder r (dfld ws 1 7 0)
    | _ => s.crateAbort r (dfld ws 1 7 0)

/-- The reference of a fetched order of Hatch h. -/
def Fetched.ref (f : Fetched) (h : Fin 4) : OrderRef := ⟨h, f.ring, f.index, dfld f.words 0 31 16, dfld f.words 0 8 8 = 1⟩

/-- The next order of ring r of Hatch h that may be evaluated: due, and with FENCE = 1 only once every order of the Hatch fetched
before it has completed (R380, R381). (DEDUCED, log 30.) -/
def State.nextOrder (s : State) (h : Fin 4) (r : Nat) : Option Fetched :=
  let a := s.hat h.val
  match a.fetched.find? (fun f => f.ring = r) with
  | some f =>
    if epGe s.sys.epoch f.due && (dfld f.words 0 9 9 = 0 || a.openOrders.all (fun o => f.seq ≤ o.seq)) then some f else none
  | none => none

/-- One turn of ring r: up to n orders (R381). What is left of the boundary's 64 is counted down. (DEDUCED, log 30.) -/
def State.ringTurn (h : Fin 4) (r : Nat) : Nat → State × Nat → State × Nat
  | 0, x => x
  | n + 1, (s, left) =>
    if left = 0 then (s, left) else
      match s.nextOrder h r with
      | none => (s, left)
      | some f =>
        let s := s.updHat h.val (fun a => { a with fetched := a.fetched.erase f })
        State.ringTurn h r n (s.evalDesc (f.ref h) f.words, left - 1)

/-- The rounds over the 16 rings of Hatch h, until no ring has an order to evaluate or 64 have been (R381). -/
def State.ringRounds (h : Fin 4) : Nat → State × Nat → State × Nat
  | 0, x => x
  | n + 1, x =>
    let y := (List.range 16).foldl (fun x r => State.ringTurn h r 4 x) x
    if y.2 = x.2 then y else State.ringRounds h n y

/-- The orders of a boundary: Hatches 0 to 3, at most 64 each (R381, R382). (DEDUCED, log 30.) -/
def State.evalOrders (s : State) : State :=
  ([0, 1, 2, 3] : List (Fin 4)).foldl (fun s h => (State.ringRounds h 64 (s, 64)).1) s

end Sys2Proof.Machine
end

