-- ==== Sys2Proof/Machine/Metering.lean ====
section
/-! DEFINITION. The Metering Engine (chapter 10). -/

namespace Sys2Proof.Machine

/-- The value of MTR_SCALE[k]. -/
def State.mtrScale (s : State) (k : Nat) : Rat := s.rq (R.MTR_SCALE k)

/-- The factor that a product of two scales has in a constant, in 2^−72 Wh per square count (R316). -/
def State.mtrUnit (s : State) : Rat := (s.epNs : Rat) / 1000000000 / 10000000000 / 3600 * (2 ^ 72 : Nat)

/-- x / √3, rounded to nearest with ties away from zero (R316). -/
def roundSqrt3 (x : Rat) : Int :=
  let n : Int := ((Nat.sqrt (4 * x * x / 3).floor.toNat + 1) / 2 : Nat)
  if x < 0 then -n else n

/-- C_yx for scales k and j (R316). -/
def State.mtrC (s : State) (k j : Nat) : Int := roundAway (s.mtrScale k * s.mtrScale j * s.mtrUnit)

/-- D_yx for the voltage phase y and the current phase x (R316). -/
def State.mtrD (s : State) (y x : Nat) : Int := roundSqrt3 (s.mtrScale y * s.mtrScale (3 + x) * s.mtrUnit)

/-- The constants of a side (R316). -/
def State.mtrConsts (s : State) (ac : Bool) : List Int :=
  if ac then [s.mtrC 0 3, s.mtrC 1 4, s.mtrC 2 5, s.mtrD 1 0, s.mtrD 2 0, s.mtrD 2 1, s.mtrD 0 1, s.mtrD 0 2, s.mtrD 1 2]
  else [s.mtrC 6 7]

/-- The roles of a side (R314). -/
def mtrRoles (ac : Bool) : List Nat := if ac then [18, 19, 20, 21, 22, 23] else [24, 25]

/-- The side is enabled (R314). -/
def State.mtrEnabled (s : State) (ac : Bool) : Bool := s.rb R.MTR_CFG (if ac then 31 else 30)

/-- An enabled side is BADCFG: a role is not held, or a constant is out of range (R314, R316). (DEDUCED, log 27.) -/
def State.mtrBad (s : State) (ac : Bool) : Bool :=
  s.mtrEnabled ac && ((mtrRoles ac).any (fun r => (s.inputOf r).isNone) ||
    (s.mtrConsts ac).any (fun c => c.natAbs < 2 ^ 24 || 2 ^ 48 ≤ c.natAbs))

/-- The side produces increments (R314, R326). -/
def State.mtrActive (s : State) (ac : Bool) : Bool := s.mtr.on_ && s.mtrEnabled ac && !s.mtrBad ac

/-- The count value of the input of a role, in 10 µV (R315). -/
def State.mtrCount (s : State) (role : Nat) : Int :=
  match s.inputOf role with
  | some i =>
    let w := s.reg (R.MFE_VAL i)
    let v := signed 18 (fld w 17 0)
    if flag w 27 then v else 8 * v
  | none => 0

/-- The metering input of a role is doubtful (R319, R334). -/
def State.mtrDoubt (s : State) (role : Nat) : Bool :=
  match s.inputOf role with
  | some i => fld (s.reg (R.MFE_VAL i)) 31 29 ≠ 0
  | none => false

/-- S_P, in 2^−72 Wh (R315). -/
def State.mtrP (s : State) : Int :=
  let v (y : Nat) := s.mtrCount (18 + y)
  let i (x : Nat) := s.mtrCount (21 + x)
  s.mtrC 0 3 * v 0 * i 0 + s.mtrC 1 4 * v 1 * i 1 + s.mtrC 2 5 * v 2 * i 2

/-- S_Q (R315). -/
def State.mtrQ (s : State) : Int :=
  let v (y : Nat) := s.mtrCount (18 + y)
  let i (x : Nat) := s.mtrCount (21 + x)
  s.mtrD 1 0 * v 1 * i 0 - s.mtrD 2 0 * v 2 * i 0 + s.mtrD 2 1 * v 2 * i 1 - s.mtrD 0 1 * v 0 * i 1 +
    s.mtrD 0 2 * v 0 * i 2 - s.mtrD 1 2 * v 1 * i 2

/-- S_D (R315). -/
def State.mtrDc (s : State) : Int := s.mtrC 6 7 * s.mtrCount 24 * s.mtrCount 25

/-- The pass tagged n is in holdover for R319. -/
def State.mtrHoldover (s : State) (n : Epoch) : Bool := (s.shelf n).holdover

/-- The destination of a side's increments in the pass tagged n (R319). (DEDUCED, log 27.) -/
def State.mtrDest (s : State) (ac : Bool) (n : Epoch) : MtrDest :=
  if !s.mtrActive ac then .none
  else if !s.mtr.valid then .start
  else if s.rb R.MTR_CFG 29 then .test
  else if (mtrRoles ac).any s.mtrDoubt || s.mtrHoldover n then .doubt
  else .total

/-- A signed sum as the increment of the quantity of its direction (R313). -/
def mtrSplit (q : Nat) (x : Int) : Nat × Nat := (if 0 < x then q else q + 1, x.natAbs)

/-- The increments of a side in the pass tagged n, with gap − 1 copies to the DOUBT tally as an estimate (R319, R320).
(DEDUCED, log 27.) -/
def State.mtrIncs (s : State) (ac : Bool) (n : Epoch) (gap : Nat) : List MtrInc :=
  let d := s.mtrDest ac n
  if d = .none then [] else
    let xs := (if ac then [mtrSplit 0 s.mtrP, mtrSplit 2 s.mtrQ] else [mtrSplit 4 s.mtrDc]).filter (fun x => x.2 ≠ 0)
    xs.map (fun x => ⟨d, x.1, x.2⟩) ++ (if 1 < gap then xs.map (fun x => ⟨.doubt, x.1, (gap - 1) * x.2⟩) else [])

/-- Pulse output p. -/
def State.pulse (s : State) (p : Nat) : PulseOut := smGet {} s.mtr.pulses p

/-- Changes pulse output p. -/
def State.updPulse (s : State) (p : Nat) (f : PulseOut → PulseOut) : State :=
  { s with mtr := { s.mtr with pulses := smUpd {} s.mtr.pulses p f } }

/-- K of output p in 2^−32 Wh (R323). -/
def State.pulseK (s : State) (p : Nat) : Nat := (s.reg (R.MTR_PULSE_K_HI p)).toNat * 2 ^ 32 + (s.reg (R.MTR_PULSE_K_LO p)).toNat

/-- An output in use is BADCFG (R323). -/
def State.pulseBad (s : State) (p : Nat) : Bool :=
  let c := s.reg (R.MTR_PULSE_CFG p)
  flag c 31 && (s.pulseK p < 2 ^ 32 || 6 ≤ fld c 26 24)

/-- The accumulator threshold of output p, in 2^−96 Wh: K, or K / 2^TSHIFT for an output that is in test (R323, R324).
(DEDUCED, log 27.) -/
def State.pulseUnit (s : State) (p : Nat) : Nat :=
  let c := s.reg (R.MTR_PULSE_CFG p)
  if s.rb R.MTR_CFG 29 && flag c 30 then s.pulseK p * 2 ^ 64 / 2 ^ fld c 5 0 else s.pulseK p * 2 ^ 64

/-- The accumulator of output p gains an energy in 2^−72 Wh, and the pulses that it then owes join BACKLOG (R323, R325). -/
def State.pulseGain (s : State) (p amount : Nat) : State :=
  let u := s.pulse p
  let k := s.pulseUnit p
  if k = 0 then s else
    let acc := u.acc + amount * 2 ^ 24
    let owed := acc / k
    let s := s.updPulse p (fun u => { u with acc := acc % k, owed := u.owed + owed, backlog := min 65535 (u.backlog + owed) })
    if 65535 < u.backlog + owed then (s.latch (R.MTR_PULSE_STAT p) 30).latch R.MTR_CAUSE 1 else s

/-- Output p counts what its quantity's total gains (R323), or in test what its TEST tally gains (R324). -/
def State.pulseTakes (s : State) (p q : Nat) (d : MtrDest) : Bool :=
  let c := s.reg (R.MTR_PULSE_CFG p)
  let test := s.rb R.MTR_CFG 29
  flag c 31 && !s.pulseBad p && fld c 26 24 = q &&
    (if test then d = .test && flag c 30 else d = .total)

/-- Quantity q gains an energy at a destination (R318, R319). -/
def State.mtrGain (s : State) (d : MtrDest) (q amount : Nat) : State :=
  let tally (t : Nat) : State :=
    { s with mtr := { s.mtr with tallies := smUpd 0 s.mtr.tallies (6 * t + q) (fun x => (x + amount) % 2 ^ 168) } }
  match d with
  | .none => s
  | .total => { s with mtr := { s.mtr with totals := smUpd 0 s.mtr.totals q (fun x => (x + amount) % 2 ^ 136) } }
  | .start => tally 0
  | .test => tally 1
  | .doubt => tally 2

/-- An increment is added, and the pulse outputs that count it gain it (R319, R323). -/
def State.mtrAdd (s : State) (i : MtrInc) : State :=
  let s := s.mtrGain i.dest i.q i.amount
  ((List.range 8).filter (fun p => s.pulseTakes p i.q i.dest)).foldl (fun s p => s.pulseGain p i.amount) s

/-- The increments of the pass that waits are added (R319, R322). -/
def State.mtrSettle (s : State) : State :=
  let s : State := (List.range 8).foldl (fun s p => s.updPulse p (fun u => { u with owed := 0 })) s
  let is_ := s.mtr.incs
  is_.foldl State.mtrAdd { s with mtr := { s.mtr with incs := [] } }

/-- The stored energy of a group's quick or main stores in J (R333). -/
def State.storeOf (s : State) (g : Nat) (main : Bool) : Word :=
  let hs := (s.groupHomes g).filterMap (fun h =>
    match s.entry h with
    | some e =>
      if e.auxStale then none else
        let w := s.reg (R.SYS_CLASS_GAUGE (mapClass (s.mapEntry h)))
        some (if main then e.mgauge * fld w 31 16 else e.qgauge * fld w 15 0)
    | none => none)
  let sum : Rat := (hs.sum : Nat)
  toF32 (rnd [if main then sum / 10000 else sum / 1000000])

/-- The power of an energy per epoch, in W or var (R334). -/
def State.mtrPower (s : State) (x : Int) : Word := toF32 (rnd [(x : Rat) * 3600 * 1000000000 / (s.epNs : Rat) / (2 ^ 72 : Nat)])

/-- Bits [31:0] of the whole part of total q. -/
def State.totalWhole (s : State) (q : Nat) : Nat := smGet 0 s.mtr.totals q / 2 ^ 72

/-- The metering region of the annex of Shelf n (R334), with the totals and pulses after the boundary. -/
def State.mtrAnnex (s : State) (n : Epoch) (est : Bool) : State :=
  let t := s.mtrSettle
  let doubt := ofBits ((List.range 8).map (fun k => s.mtrDoubt (18 + k)))
  let w0 := s.mtr.destAc.code * 2 ^ 29 + s.mtr.destDc.code * 2 ^ 26 + b2n est * 2 ^ 25 + b2n (s.mtrHoldover n) * 2 ^ 24 + doubt
  let ac := s.mtrActive true
  let dc := s.mtrActive false
  let owed (p : Nat) : Nat := min 65535 (t.pulse p).owed
  s.annexPut n 0x4400
    ([BitVec.ofNat 32 w0, if ac then s.mtrPower s.mtrP else 0, if ac then s.mtrPower s.mtrQ else 0,
      if dc then s.mtrPower s.mtrDc else 0] ++
     (List.range 6).map (fun q => BitVec.ofNat 32 (t.totalWhole q)) ++
     (List.range 4).map (fun w => BitVec.ofNat 32 (owed (2 * w) + owed (2 * w + 1) * 2 ^ 16)) ++ [0, 0] ++
     (List.range 7).flatMap (fun g => [s.reg (R.MTR_STORE_Q g), s.reg (R.MTR_STORE_M g)]))

/-- The pass of the Metering Engine, tagged E − 1 (R315–R334). -/
def State.mtrPass (s : State) : State :=
  let n := s.sys.epoch - 1
  let gap := match s.mtr.last with | some l => (n - l).toNat | none => 1
  let incs := s.mtrIncs true n gap ++ s.mtrIncs false n gap
  let da := s.mtrDest true n
  let dd := s.mtrDest false n
  let est (q : Nat → Bool) : Bool := incs.any (fun x => x.dest = .doubt && q x.q)
  let falls (o d : MtrDest) (q : Nat → Bool) : Bool := (d = .doubt || est q) && o ≠ .doubt
  let s := if falls s.mtr.destAc da (· < 4) || falls s.mtr.destDc dd (4 ≤ ·) then s.latch R.MTR_CAUSE 0 else s
  let s := { s with mtr := { s.mtr with last := some n, incs := incs, destAc := da, destDc := dd } }
  let s := (List.range 7).foldl (fun s g =>
    (s.setReg (R.MTR_STORE_Q g) (s.storeOf g false)).setReg (R.MTR_STORE_M g) (s.storeOf g true)) s
  s.mtrAnnex n (decide (1 < gap) && incs ≠ [])

/-- METERING_PASS: item 11 of R20 in the present epoch (R315). -/
def execMeteringPass (s : State) : Out := .next (s.runItem 11 (fun s => if s.mtr.on_ then s.mtrPass else s))

/-- The result of a metering action (R335). -/
def State.mtrResult (s : State) (r : Nat) : State := (s.setRf R.MTR_ACTION_STAT 2 0 r).latch R.MTR_CAUSE 6

/-- The Bin record of one quantity of a MERGE or DISCARD: the tally, the quantity, and its amount in 2^−32 Wh (R321).
(DEDUCED, log 27.) -/
def State.mtrRecord (s : State) (cause t q : Nat) : State :=
  let amount := smGet 0 s.mtr.tallies (6 * t + q) / 2 ^ 40
  s.binLog cause [t + 2 ^ q * 256, amount % 2 ^ 64, amount / 2 ^ 64]

/-- The quantities of a mask. -/
def mtrQs (mask : Nat) : List Nat := bitList 6 mask

/-- A MERGE or DISCARD that names no quantity writes its record all the same, of no quantity and no amount (R321). (DEDUCED, log 27.) -/
def State.mtrNone (s : State) (cause t : Nat) (qs : List Nat) : State := if qs = [] then s.binLog cause [t, 0, 0] else s

/-- MERGE of a tally (R321): its energy joins the totals and the accumulators of its quantities; merging START covers all six
and makes the totals valid. -/
def State.mtrMerge (s : State) (t mask : Nat) : State :=
  if 3 ≤ t then s.mtrResult 3 else
    let qs := if t = 0 then List.range 6 else mtrQs mask
    let one (s : State) (q : Nat) : State :=
      let x := smGet 0 s.mtr.tallies (6 * t + q)
      let s := s.mtrRecord 0xA0 t q
      let s := { s with mtr := { s.mtr with tallies := smErase s.mtr.tallies (6 * t + q) } }
      let s := s.mtrGain .total q x
      ((List.range 8).filter (fun p => s.rb (R.MTR_PULSE_CFG p) 31 && !s.pulseBad p && s.rf (R.MTR_PULSE_CFG p) 26 24 = q)).foldl
        (fun s p => s.pulseGain p x) s
    let s := (qs.foldl one s).mtrNone 0xA0 t qs
    let s := if t = 0 then { s with mtr := { s.mtr with valid := true } } else s
    s.mtrResult 2

/-- DISCARD of a tally (R321): it is set to 0; START is refused. -/
def State.mtrDiscard (s : State) (t mask : Nat) : State :=
  if t = 0 ∨ 3 ≤ t then s.mtrResult 3 else
    let one (s : State) (q : Nat) : State :=
      let s := s.mtrRecord 0xA1 t q
      { s with mtr := { s.mtr with tallies := smErase s.mtr.tallies (6 * t + q) } }
    (((mtrQs mask).foldl one s).mtrNone 0xA1 t (mtrQs mask)).mtrResult 2

/-- The action that START of MTR_ACTION performs at its boundary (R321, R335). -/
def State.mtrAction (s : State) (w : Word) : State :=
  match fld w 27 24 with
  | 1 => s.mtrMerge (fld w 21 20) (fld w 5 0)
  | 2 => s.mtrDiscard (fld w 21 20) (fld w 5 0)
  | _ => s.mtrResult 3

/-- The inputs that hold a metering role. -/
def State.mtrInputs (s : State) : List Nat := (List.range 48).filter (fun i => 18 ≤ s.rf (R.MFE_INCFG i) 4 0 && s.rf (R.MFE_INCFG i) 4 0 ≤ 25)

/-- The words of the sealed set in ascending register offset, the MFE registers first (R327, R328). (DEDUCED, log 27.) -/
def State.sealWords (s : State) : List Word :=
  let ins := s.mtrInputs
  ins.map (fun i => s.reg (R.MFE_INCFG i)) ++ ins.map (fun i => s.reg (R.MFE_TRIM_U i)) ++
    [setFlag (s.reg R.MTR_CFG) 29 false] ++ (List.range 8).map (fun k => s.reg (R.MTR_SCALE k)) ++
    (List.range 8).flatMap (fun p => [s.reg (R.MTR_PULSE_CFG p), s.reg (R.MTR_PULSE_K_LO p), s.reg (R.MTR_PULSE_K_HI p)])

/-- A 32-bit code over 32-bit words, each from bit 31 down (R82). -/
def crc32Words (poly init : Nat) (ws : List Word) : Nat := crcBits 32 poly init (ws.flatMap (fun w => msbBits 32 w.toNat))

/-- The check value of the sealed set (R328). -/
def State.sealCheck (s : State) : Nat := crc32Words 0x04C11DB7 0xFFFFFFFF s.sealWords

/-- The seal state is written to the Trunk (R328, R329, R426). -/
def State.sealSave (s : State) : State := s.trkAsk .sealState [b2n s.mtr.isSealed, s.mtr.changes, s.mtr.check]

/-- SEAL at its boundary (R328): refused with another key, or while a side is BADCFG. (DEDUCED, log 27.) -/
def State.mtrSeal (s : State) (r : Requester) (key : Nat) : State :=
  if key = 0xA55A ∧ s.mtrBad true = false ∧ s.mtrBad false = false then
    let s := { s with mtr := { s.mtr with isSealed := true, check := s.sealCheck } }
    (s.sealSave.latch R.MTR_CAUSE 5).binLog 0xA2 [s.mtr.check]
  else s.logErr r 5 R.MTR_SEAL

/-- UNSEAL at its boundary (R329): in OFF under commissioning, with its key. -/
def State.mtrUnseal (s : State) (r : Requester) (key : Nat) : State :=
  if key = 0x5AA5 ∧ s.sys.conv = .off ∧ s.commission = true then
    let s := { s with mtr := { s.mtr with isSealed := false, changes := incSat 65535 s.mtr.changes } }
    (s.sealSave.latch R.MTR_CAUSE 5).binLog 0xA3 [s.mtr.changes]
  else s.logErr r 5 R.MTR_SEAL

/-- A write of MTR_SEAL takes effect (R328, R329). -/
def State.mtrSealWrite (s : State) (r : Requester) (w : Word) : State :=
  match flag w 31, flag w 30 with
  | true, false => s.mtrSeal r (fld w 15 0)
  | false, true => s.mtrUnseal r (fld w 15 0)
  | true, true => s.logErr r 5 R.MTR_SEAL
  | false, false => s

/-- METER_CHECK_RECOMPUTE: every 2^16 ep while sealed the check value is computed again (R328). -/
def execMeterCheckRecompute (s : State) : Out :=
  if s.mtr.isSealed ∧ s.sys.counting ∧ s.sys.epoch.toNat % 2 ^ 16 = 0 ∧ s.sealCheck ≠ s.mtr.check then
    .next ((s.latch R.MTR_CAUSE 2).binLog 0xA6 [s.sealCheck, s.mtr.check])
  else .next s

/-- Output p makes pulses: metering has begun, the output is in use and not BADCFG, and in test it has TEST_EN = 1 (R323, R324, R326). -/
def State.pulseOn (s : State) (p : Nat) : Bool :=
  s.mtr.on_ && s.rb (R.MTR_PULSE_CFG p) 31 && !s.pulseBad p && (!s.rb R.MTR_CFG 29 || s.rb (R.MTR_PULSE_CFG p) 30)

/-- PULSE_START: an owed pulse starts once no pulse or gap of the output is in progress (R325). -/
def execPulseStart (p : Nat) (s : State) : Out :=
  let u := s.pulse p
  if p < 8 ∧ s.pulseOn p ∧ 1 ≤ u.backlog ∧ u.out = false ∧ u.gap = false then
    .next (s.updPulse p (fun u => { u with out := true, at_ := s.sys.epoch, backlog := u.backlog - 1 }))
  else .next s

/-- WIDTH or GAP of an output in epochs (R325). -/
def State.pulseEp (s : State) (p : Nat) (gap : Bool) : Nat :=
  let c := s.reg (R.MTR_PULSE_CFG p)
  s.epOfMs (max 1 (if gap then fld c 15 8 else fld c 23 16))

/-- PULSE_END: the output releases after WIDTH and its gap begins (R325). -/
def execPulseEnd (p : Nat) (s : State) : Out :=
  let u := s.pulse p
  if p < 8 ∧ u.out = true ∧ s.pulseEp p false ≤ (s.sys.epoch - u.at_).toNat then
    .next (s.updPulse p (fun u => { u with out := false, gap := true, at_ := s.sys.epoch }))
  else .next s

/-- The contents of a save (R330, R335): the kind (1 PFAIL), ERA, E, the save's sequence number and TOTALS_VALID; the totals,
the tallies and the accumulators with their BACKLOG; and the parameters that MTR fields take from the Trunk. (DEDUCED, log 27.) -/
def State.saveWords (s : State) (kind : Nat) : List Nat :=
  [kind, s.sys.era, s.sys.epoch.toNat, (s.mtr.saveSeq + 1) % 2 ^ 32, b2n s.mtr.valid] ++
    (List.range 6).map (smGet 0 s.mtr.totals) ++ (List.range 18).map (smGet 0 s.mtr.tallies) ++
    (List.range 8).flatMap (fun p => [(s.pulse p).acc, (s.pulse p).backlog]) ++
    ([setFlag (s.reg R.MTR_CFG) 29 false] ++ (List.range 8).map (fun k => s.reg (R.MTR_SCALE k)) ++
     (List.range 8).flatMap (fun p => [s.reg (R.MTR_PULSE_CFG p), s.reg (R.MTR_PULSE_K_LO p), s.reg (R.MTR_PULSE_K_HI p)])).map BitVec.toNat

/-- A metering save of a kind is asked of the Trunk (R330, R331); one that the Trunk does not take has failed. -/
def State.mtrSave (s : State) (pfail : Bool) : State :=
  let ws := s.saveWords (b2n pfail)
  let s := { s with mtr := { s.mtr with saveSeq := (s.mtr.saveSeq + 1) % 2 ^ 32 } }
  let s := if s.trk.writeProt then (s.latch R.MTR_CAUSE 3).binLog 0xA5 [] else s
  s.trkAsk (if pfail then .pfailSave else .periodicSave) ws

/-- SAVE_LOG2 as the device takes it (R335). -/
def State.saveLog2 (s : State) : Nat := clampNat 12 24 (s.rf R.MTR_CFG 28 24)

/-- PERIODIC_SAVE: every 2^SAVE_LOG2 ep a save is started (R330). -/
def execPeriodicSave (s : State) : Out :=
  if s.mtr.on_ ∧ s.sys.counting ∧ s.sys.epoch.toNat % 2 ^ s.saveLog2 = 0 then .next (s.mtrSave false) else .next s

/-- The words of a restored save come into force (R332): totals, tallies, outputs, validity and parameters. -/
def State.mtrRestoreWords (s : State) (ws : List Nat) : State :=
  let g (i : Nat) : Nat := ws.getD i 0
  let store (base n : Nat) : SMap Nat := smSetList 0 [] 0 ((List.range n).map (fun i => g (base + i)))
  let pulses := (List.range 8).foldl (fun m p =>
    smSet {} m p ({ acc := g (29 + 2 * p), backlog := g (30 + 2 * p) } : PulseOut)) []
  let s := { s with mtr := { s.mtr with
    valid := g 4 = 1, totals := store 5 6, tallies := store 11 18, pulses := pulses, saveSeq := g 3 } }
  let keys := [R.MTR_CFG] ++ (List.range 8).map R.MTR_SCALE ++
    (List.range 8).flatMap (fun p => [R.MTR_PULSE_CFG p, R.MTR_PULSE_K_LO p, R.MTR_PULSE_K_HI p])
  (List.range keys.length).foldl (fun s i => s.setReg (keys.getD i 0) (BitVec.ofNat 32 (g (45 + i)))) s

/-- The restore of metering at start-up (R332): the valid copy of higher sequence, or none. -/
def State.mtrRestore (s : State) : State :=
  let o := s.trk.meter
  let copy : Option (Nat × TrkSlot) :=
    if o.s0.valid && (!o.s1.valid || o.s1.seq ≤ o.s0.seq) then some (0, o.s0)
    else if o.s1.valid then some (1, o.s1) else none
  let sl := s.trk.sealState
  let kept := if sl.s0.valid && (!sl.s1.valid || sl.s1.seq ≤ sl.s0.seq) then sl.s0.words else if sl.s1.valid then sl.s1.words else []
  let s := { s with mtr := { s.mtr with
    isSealed := kept.getD 0 0 = 1, changes := kept.getD 1 0, check := kept.getD 2 0, on_ := true, last := none, incs := [] } }
  let s := s.latch R.MTR_CAUSE 4
  match copy with
  | none =>
    let s := { s with mtr := { s.mtr with valid := false, totals := [], tallies := [], pulses := [] } }
    (s.setReg R.MTR_RESTORE (BitVec.ofNat 32 (2 ^ 29))).binLog 0xA4 [2 ^ 29]
  | some (c, x) =>
    let g (i : Nat) : Nat := x.words.getD i 0
    let w := g 0 * 2 ^ 31 + c * 2 ^ 30 + g 1 % 2 ^ 16
    let s := (s.mtrRestoreWords x.words).setReg R.MTR_RESTORE (BitVec.ofNat 32 w)
    (s.setReg R.MTR_RESTORE_EPOCH (BitVec.ofNat 32 (g 2))).binLog 0xA4 [w, g 2]

/-- A parameter of an output or TEST has changed by a write (R324, R326, R329). -/
def State.mtrChanged (s : State) (off : Nat) (old new : Word) : State :=
  let zero (s : State) (p : Nat) : State := s.updPulse p (fun u => { u with acc := 0, backlog := 0 })
  if off = R.MTR_CFG then
    if flag old 29 == flag new 29 then s else
      let s := (List.range 8).foldl (fun s p =>
        if s.rb (R.MTR_PULSE_CFG p) 30 then s.updPulse p (fun u => { u with acc := 0 }) else s) s
      s.binLog 0xA7 [b2n (flag new 29)]
  else if R.MTR_PULSE_CFG 0 ≤ off ∧ off ≤ R.MTR_PULSE_K_HI 7 then
    let p := (off - R.MTR_PULSE_CFG 0) / 16
    if off = R.MTR_PULSE_CFG p then (if fld old 26 24 ≠ fld new 26 24 ∨ fld old 5 0 ≠ fld new 5 0 then zero s p else s)
    else if (off = R.MTR_PULSE_K_LO p ∨ off = R.MTR_PULSE_K_HI p) ∧ old ≠ new then zero s p
    else s
  else s

/-- The Metering Engine at a boundary, before actions and writes apply (R322): the increments of the pass are added, and gaps
that have lasted end. -/
def State.mtrBoundary (s : State) : State :=
  let s := s.mtrSettle
  (List.range 8).foldl (fun s p =>
    let u := s.pulse p
    if u.gap && decide (s.pulseEp p true ≤ (s.sys.epoch - u.at_).toNat) then s.updPulse p (fun u => { u with gap := false }) else s) s

/-- A side or an output that has become BADCFG sets the cause (R335). -/
def State.mtrBadCheck (s : State) : State :=
  let ac := s.mtrBad true
  let dc := s.mtrBad false
  let ps := (List.range 8).filter (fun p => s.pulseBad p && !(s.pulse p).badcfg)
  let new := (ac && !s.mtr.badAc) || (dc && !s.mtr.badDc) || ps ≠ []
  let s := { s with mtr := { s.mtr with badAc := ac, badDc := dc } }
  let s := (List.range 8).foldl (fun s p => let b := s.pulseBad p; s.updPulse p (fun u => { u with badcfg := b })) s
  if new then s.latch R.MTR_CAUSE 7 else s

/-- The totals after the boundary in the annex of the Shelf of the pass before it (R334): a MERGE of the boundary counts. -/
def State.mtrTotals (s : State) : State :=
  if s.mtr.last = some (s.sys.epoch - 2) then
    s.annexPut (s.sys.epoch - 2) 0x4410 ((List.range 6).map (fun q => BitVec.ofNat 32 (s.totalWhole q)))
  else s

/-- A metering save waits or is in progress (R335). -/
def State.saving (s : State) : Bool :=
  let isSave (i : TrkItem) : Bool := i = .pfailSave || i = .periodicSave
  s.trk.waiting.any (fun x => isSave x.1) || (match s.trk.busy with | some (.obj i _) => isSave i | _ => false)

/-- MTR_STATUS (R335). -/
def State.mtrStatus (s : State) : Word :=
  BitVec.ofNat 32 (b2n s.mtr.valid * 2 ^ 31 + b2n s.mtr.isSealed * 2 ^ 30 + b2n (s.mtrActive true) * 2 ^ 29 +
    b2n (s.mtrActive false) * 2 ^ 28 + b2n (s.mtrBad true) * 2 ^ 27 + b2n (s.mtrBad false) * 2 ^ 26 +
    b2n (s.rb R.MTR_CFG 29) * 2 ^ 25 + b2n (s.mtr.destAc = .doubt) * 2 ^ 24 + b2n (s.mtr.destDc = .doubt) * 2 ^ 23 +
    b2n s.saving * 2 ^ 22)

/-- MTR_PULSE_STAT[p] (R335). -/
def State.pulseStat (s : State) (p : Nat) : Word :=
  let u := s.pulse p
  BitVec.ofNat 32 (b2n u.out * 2 ^ 31 + s.rf (R.MTR_PULSE_STAT p) 30 30 * 2 ^ 30 + b2n (s.pulseBad p) * 2 ^ 29 + u.backlog)

/-- Word w of tally t of quantity q (R335). -/
def State.tallyWord (s : State) (t q w : Nat) : Word :=
  if s.domain 45 then BitVec.ofNat 32 (smGet 0 s.mtr.tallies (6 * t + q) / 2 ^ 40 / 2 ^ (32 * w)) else 0

/-- A read of MTR_TOTAL_LO[q] by a requester: the word, and the shadows of TOTAL_HI and FRAC (R335). -/
def State.totalLoRead (s : State) (r : Requester) (q : Nat) : Word × State :=
  let x := if s.domain 45 then smGet 0 s.mtr.totals q else 0
  (BitVec.ofNat 32 (x / 2 ^ 72),
   (s.setReg (ownKey r (R.MTR_TOTAL_HI q)) (BitVec.ofNat 32 (x / 2 ^ 104))).setReg (ownKey r (R.MTR_FRAC q)) (BitVec.ofNat 32 (x / 2 ^ 40)))

/-- The offset of word w of MTR_WIDE[t][q] (R335). -/
def wideOff (t q w : Nat) : Nat := 0x2D00 + 0x60 * t + 0x10 * q + 4 * w

/-- A read of word 0 of a tally by a requester: the word, and the shadows of words 1 to 3 (R335). -/
def State.wideRead (s : State) (r : Requester) (t q : Nat) : Word × State :=
  (s.tallyWord t q 0,
   ([1, 2, 3] : List Nat).foldl (fun s' w => s'.setReg (ownKey r (wideOff t q w)) (s.tallyWord t q w)) s)

/-- A write to the sealed set while SEALED = 1 (R327): it is ignored when it would change a sealed field. (DEDUCED, log 27.) -/
def State.mtrSealedWrite (s : State) (off : Nat) (w : Word) : Bool :=
  let role (x : Nat) : Bool := 18 ≤ x && x ≤ 25
  s.mtr.isSealed &&
    (if off = R.MTR_CFG then setFlag w 29 false != setFlag (s.reg off) 29 false
     else if R.MTR_SCALE 0 ≤ off ∧ off ≤ R.MTR_SCALE 7 then true
     else if R.MTR_PULSE_CFG 0 ≤ off ∧ off ≤ R.MTR_PULSE_K_HI 7 then decide ((off - R.MTR_PULSE_CFG 0) % 16 ≠ 12)
     else if R.MFE_INCFG 0 ≤ off ∧ off ≤ R.MFE_INCFG 47 then role (s.rf off 4 0) || role (fld w 4 0)
     else if R.MFE_TRIM_U 0 ≤ off ∧ off ≤ R.MFE_TRIM_U 47 then role (s.rf (R.MFE_INCFG ((off - R.MFE_TRIM_U 0) / 4)) 4 0)
     else false)

/-- The field rules of the MTR block (R176, R335). -/
def mtrRule (off : Nat) (w : Word) : Option Word :=
  if R.MTR_SCALE 0 ≤ off ∧ off ≤ R.MTR_SCALE 7 then hostF32 w
  else if off = R.MTR_CFG then some (setFld w 28 24 (clampNat 12 24 (fld w 28 24)))
  else if R.MTR_PULSE_CFG 0 ≤ off ∧ off ≤ R.MTR_PULSE_CFG 7 ∧ off % 16 = 0 then
    some (setFld (setFld w 23 16 (max 1 (fld w 23 16))) 15 8 (max 1 (fld w 15 8)))
  else some w

end Sys2Proof.Machine
end

