-- ==== Sys2Proof/Machine/Power.lean ====
section
/-! DEFINITION. The Power Manager (R403–R410): domains, the slack loop, the PMBus, the junction temperature and the budget of
optional work. -/

namespace Sys2Proof.Machine

/-- PWR_STATUS (R436). -/
def State.pwrStatus (s : State) : Word :=
  let items (l : List OptItem) : Nat :=
    b2n (l.contains .capture) + 2 * b2n (l.contains .mirror) + 4 * b2n (l.contains .debugCapture)
  BitVec.ofNat 32 (items s.pwr.admitted * 2 ^ 29 + items s.pwr.waiting * 2 ^ 26 + b2n s.pwr.slackLimit * 2 ^ 25 +
    b2n (s.pwr.pmbFail.getD 0 false) * 2 ^ 24 + b2n (s.pwr.pmbFail.getD 1 false) * 2 ^ 23 + b2n s.pwr.overBudget * 2 ^ 22 +
    b2n s.pwr.pfail * 2 ^ 21)

/-- PWR_VCORE (R436). -/
def State.pwrVcore (s : State) : Word := BitVec.ofNat 32 (s.pwr.setMv % 2 ^ 16 * 2 ^ 16 + s.pwr.measMv % 2 ^ 16)

/-- A Bin record of the Power Manager (R431). (DEDUCED, log 35.) -/
def State.pwrRecord (s : State) (cause : Nat) : State := s.binLog cause [s.pwrStatus.toNat, s.pwrVcore.toNat]

/-- Sets cause bit b of PWR_CAUSE; the record of the event is written when the bit was clear (R407, R408, R410, R431). -/
def State.pwrCause (s : State) (b cause : Nat) : State :=
  if s.rb R.PWR_CAUSE b then s else (s.latch R.PWR_CAUSE b).pwrRecord cause

/-- The exponent of VOUT_COMMAND and READ_VOUT (R405). -/
def State.pmbExp (s : State) : Int := s.rs R.PWR_PMB_CFG 29 25

/-- The ULINEAR16 code of a voltage in mV (R405). -/
def State.voutCode (s : State) (mv : Nat) : Nat := (nearest ((mv : Rat) / 1000 * pow2 (-s.pmbExp))).toNat % 2 ^ 16

/-- The voltage of a ULINEAR16 code, in V (R405). (PRESUMED, log 31.) -/
def State.voutVolts (s : State) (code : Nat) : Rat := (code : Rat) * pow2 s.pmbExp

/-- The value of a LINEAR11 word (R405): an 11-bit signed mantissa and a 5-bit signed exponent of 2. (PRESUMED, log 31.) -/
def linear11 (w : Nat) : Rat := (signed 11 (bits w 10 0) : Rat) * pow2 (signed 5 (bits w 15 11))

/-- The regulators that the device addresses (R405). -/
def State.regulators (s : State) : List Nat := if s.rf R.PWR_PMB_CFG 22 16 = 0 then [0] else [0, 1]

/-- The address of regulator r (R405). -/
def State.pmbAddr (s : State) (r : Nat) : Nat := if r = 0 then s.rf R.PWR_PMB_CFG 14 8 else s.rf R.PWR_PMB_CFG 22 16

/-- One transaction to regulator r as it goes out, with PEC and at the speed that PWR_PMB_CFG asks for (R405). -/
def State.pmbOut (s : State) (r cmd : Nat) (data : Option Nat) : State :=
  s.emit (.pmbus (s.pmbAddr r) cmd data (s.rb R.PWR_PMB_CFG 30) (s.rb R.PWR_PMB_CFG 31))

/-- The outcome of one transaction to regulator r, after its repetition (R407). (DEDUCED, log 35.) -/
def State.pmbDone (s : State) (r : Nat) (ok : Bool) : State :=
  let n := if ok then 0 else min 3 (s.pwr.fails.getD r 0 + 1)
  let was := s.pwr.pmbFail.getD r false
  let now := if ok then false else was || n = 3
  let s := { s with pwr := { s.pwr with fails := s.pwr.fails.set r n, pmbFail := s.pwr.pmbFail.set r now } }
  if now && !was then (s.latch R.PWR_CAUSE 1).pwrRecord 0xCA else s

/-- A transaction to regulator r: one that fails is repeated once, and its outcome counts (R405, R407). (DEDUCED, log 35.) -/
def State.pmbSend (s : State) (r cmd : Nat) (data : Option Nat) (ok : Bool) : State :=
  let s := s.pmbOut r cmd data
  (if ok then s else s.pmbOut r cmd data).pmbDone r ok

/-- VOUT_COMMAND with the present set-point to regulator r (R405). -/
def State.sendVout (s : State) (r : Nat) (ok : Bool) : State := s.pmbSend r 0x21 (some (s.voutCode s.pwr.setMv)) ok

/-- The least VCORE set-point (R406). -/
def State.vmin (s : State) : Nat := s.rf R.PWR_VCORE_CFG 29 20

/-- The greatest VCORE set-point (R406). -/
def State.vmax (s : State) : Nat := s.rf R.PWR_VCORE_CFG 19 10

/-- A reading lies within VTOL of the set-point (R407, R417). -/
def State.voutNear (s : State) (code : Nat) : Bool :=
  |s.voutVolts code * 1000 - (s.pwr.setMv : Rat)| ≤ (s.rf R.PWR_PMB_CFG 7 0 : Rat)

/-- The slack loop runs (R406). -/
def State.slackOn (s : State) : Bool :=
  s.sys.counting && s.start.state ≠ .failed && (6 < s.start.step || (s.start.step = 6 && !s.start.active))

/-- The slack loop in an epoch whose least slack and misses are given (R406). -/
def State.slackLoop (s : State) (least : Nat) (missed : Bool) : State :=
  if s.slackOn = false then s else
    let cfg := s.reg R.PWR_SLACK_CFG
    let due := least < fld cfg 23 16 || missed
    let atMax := s.vmax ≤ s.pwr.setMv
    let step := if missed then 2 * fld cfg 15 12 else fld cfg 15 12
    let s := { s with pwr := { s.pwr with
      slackLimit := due && atMax
      pendingRaise := if due && !atMax then max s.pwr.pendingRaise step else s.pwr.pendingRaise
      windowLow := s.pwr.windowLow || least < fld cfg 31 24
      windowEp := s.pwr.windowEp + 1 } }
    if due && atMax then s.latch R.PWR_CAUSE 0 else s

/-- SLACK_WINDOW_END: a window of quiet epochs without a raise asks for a lower step (R406). (DEDUCED, log 35.) -/
def execSlackWindowEnd (s : State) : Out :=
  if s.slackOn ∧ 2 ^ s.rf R.PWR_SLACK_CFG 4 0 ≤ s.pwr.windowEp then
    let lower := if s.pwr.windowLow || s.pwr.windowRaised then s.pwr.pendingLower else s.rf R.PWR_SLACK_CFG 11 8
    .next { s with pwr := { s.pwr with pendingLower := lower, windowLow := false, windowRaised := false, windowEp := 0 } }
  else .next s

/-- A VOUT_COMMAND may be sent: 1,024 ep after the one before it (R406). -/
def State.voutDue (s : State) : Bool :=
  match s.pwr.lastVout with | some e => 1024 ≤ (s.sys.epoch - e).toNat | none => true

/-- VOUT_COMMAND: the pending raise, or with none the pending lower, is sent to the regulators in turn; the acknowledgements
are given per regulator (R405, R406, R407). (DEDUCED, log 35.) -/
def execVoutCommand (acks : List Bool) (s : State) : Out :=
  let up := 0 < s.pwr.pendingRaise
  if s.slackOn = false ∨ s.voutDue = false ∨ (s.pwr.pendingRaise = 0 ∧ s.pwr.pendingLower = 0) then .next s else
    let want := if up then s.pwr.setMv + s.pwr.pendingRaise else s.pwr.setMv - s.pwr.pendingLower
    let s := { s with pwr := { s.pwr with
      setMv := clampNat s.vmin s.vmax want, lastVout := some s.sys.epoch, windowRaised := s.pwr.windowRaised || up
      pendingRaise := 0, pendingLower := if up then s.pwr.pendingLower else 0 } }
    .next (s.regulators.foldl (fun s r => s.sendVout r (acks.getD r true)) s)

/-- The budget in W (R410). -/
def State.budget (s : State) : Rat := (s.rf R.PWR_BUDGET 31 16 : Rat) / 10

/-- The cost of an optional work item in W (R410). -/
def OptItem.cost : OptItem → Rat
  | .capture => 1 | .mirror => 1 / 2 | .debugCapture => 2

/-- An admitted item is revoked (R410). (DEDUCED, log 35.) -/
def State.revokeItem (s : State) (i : OptItem) : State :=
  match i with
  | .capture => s.capEnd
  | .debugCapture =>
    let st := s.dbg.cap.state
    if st = .wait ∨ st = .armed ∨ st = .triggered then s.dbgCapEnd .revoked else s
  | .mirror => { s with pwr := { s.pwr with admitted := s.pwr.admitted.erase .mirror, waiting := s.pwr.waiting ++ [.mirror] } }

/-- The replies of regulator r to a poll (R405, R407): READ_VOUT, READ_IOUT and STATUS_WORD, and a repeated VOUT_COMMAND while
PMB_FAIL is set. (DEDUCED, log 35.) -/
def State.pollReg (s : State) (r : Nat) (p : PollReply) : State :=
  let failing := s.pwr.pmbFail.getD r false
  let s := ((s.pmbSend r 0x8B none p.vout.isSome).pmbSend r 0x8C none p.iout.isSome).pmbSend r 0x79 none p.status.isSome
  let s := if failing then s.sendVout r p.ack else s
  let s := match p.vout with
    | none => s
    | some v =>
      let run := if s.voutNear v then 0 else min 2 (s.pwr.devRun.getD r 0 + 1)
      let s := { s with pwr := { s.pwr with
        devRun := s.pwr.devRun.set r run
        measMv := if r = 0 then (nearest (s.voutVolts v * 1000)).toNat else s.pwr.measMv } }
      if run = 2 then s.pwrCause 2 0xCB else s
  let s := match p.vout, p.iout with
    | some v, some i => { s with pwr := { s.pwr with regPower := s.pwr.regPower.set r (s.voutVolts v * linear11 i) } }
    | _, _ => s
  match p.status with
  | some w => if bits w 15 1 ≠ 0 then s.pwrCause 3 0xCC else s
  | none => s

/-- PMBUS_POLL: every 4,096 ep each regulator is read and P_DRAW is computed; with P_DRAW above LIMIT at two consecutive polls
the most recently admitted item is revoked (R405, R407, R409, R410). The power of the other supplies is given in mW.
(DEDUCED, log 35.) -/
def execPmbusPoll (replies : List PollReply) (otherMw : Nat) (s : State) : Out :=
  if s.sys.counting = false ∨ s.sys.epoch.toNat % 4096 ≠ 0 then .next s else
    let s := s.regulators.foldl (fun s r => s.pollReg r (replies.getD r ⟨none, none, none, false⟩)) s
    let draw := (s.regulators.map (fun r => s.pwr.regPower.getD r 0)).sum + (otherMw : Rat) / 1000
    let above := decide (s.budget < draw)
    let run := if above then min 2 (s.pwr.overRun + 1) else 0
    let s := { s with pwr := { s.pwr with draw := draw, sincePoll := 0, overBudget := above, overRun := run } }
    .next (if run = 2 then
      let s := s.pwrCause 4 0xCD
      match s.pwr.admitted.getLast? with
      | some i => s.revokeItem i
      | none => s
    else s)

/-- A debug capture that is admitted is armed; with TRIG = 0 admission is the trigger (R486, R487). -/
def DbgCap.granted (c : DbgCap) : DbgCap :=
  let a := { c with state := .armed, refused := false }
  if fld c.cfg 30 28 = 0 ∨ 4 ≤ fld c.cfg 30 28 then a.fire else a

/-- BUDGET_ADMIT: the first item that waits is admitted when P_DRAW, the costs admitted since the last poll and its own cost
lie within the budget (R410). -/
def execBudgetAdmit (s : State) : Out :=
  match s.pwr.waiting with
  | [] => .next s
  | i :: rest =>
    if s.sys.counting = false ∨ s.budget < s.pwr.draw + s.pwr.sincePoll + i.cost then .next s else
      let s := { s with pwr := { s.pwr with waiting := rest, admitted := s.pwr.admitted ++ [i], sincePoll := s.pwr.sincePoll + i.cost } }
      match i with
      | .capture => .next (if s.ctl.cap.state = .wait then { s with ctl := { s.ctl with cap := { s.ctl.cap with state := .armed, refused := false } } } else s)
      | .debugCapture => .next (if s.dbg.cap.state = .wait then { s with dbg := { s.dbg with cap := s.dbg.cap.granted } } else s)
      | .mirror => .next s

/-- The diagnostic mirror asks for admission while it is enabled (R365, R410). -/
def State.mirrorAsk (s : State) : State :=
  let has := s.pwr.waiting.contains .mirror || s.pwr.admitted.contains .mirror
  if s.rb R.SAF_MIRROR 31 then
    (if has then s else { s with pwr := { s.pwr with waiting := s.pwr.waiting ++ [.mirror] } })
  else s.endItem .mirror

/-- The junction temperature of the epoch, in 0.25 °C (R408). -/
def State.tempTake (s : State) (tj : Int) : State :=
  let s := { s with sys := { s.sys with tj := tj } }
  let s := if s.rs R.PWR_TEMP 31 16 < tj then s.setRf R.PWR_TEMP 31 16 (unsigned 16 tj) else s
  if 600 < tj then s.pwrCause 5 0xCE else s

/-- Domain d is on or being switched on. -/
def State.domainOn (s : State) (d : Nat) : Bool := bit s.pwr.ready d || bit s.pwr.switching d

/-- Switches domain d on: it is ready within 200 µs (R404). -/
def State.switchOn (s : State) (d : Nat) : State :=
  if s.domainOn d then s else { s with pwr := { s.pwr with switching := s.pwr.switching + 2 ^ d } }

/-- What domain d loses when it is switched off (R404): the lanes and pairs of a group, the records of a bank, the two Hatches of a
pair. -/
def State.domainLost (s : State) (d : Nat) : State :=
  if d < 32 then
    (List.range 8).foldl (fun s i => s.updPair (8 * d + i) (fun _ => {})) ((List.range 16).foldl (fun s i => s.updLane (16 * d + i) (fun _ => {})) s)
  else if d < 36 then
    { s with cel := { s.cel with shelves := s.cel.shelves.map (fun x =>
        (x.1, { x.2 with recs := x.2.recs.filter (fun e => e.1 / 1024 ≠ d - 32) })) } }
  else if d = 47 then (s.hatchReset 0 .perst).hatchReset 1 .perst
  else if d = 48 then (s.hatchReset 2 .perst).hatchReset 3 .perst
  else s

/-- Switches domain d off; it loses its state (R404). -/
def State.switchOff (s : State) (d : Nat) : State :=
  if s.domainOn d then
    let off (w : Nat) : Nat := if bit w d then w - 2 ^ d else w
    { s with pwr := { s.pwr with ready := off s.pwr.ready, switching := off s.pwr.switching } }.domainLost d
  else s

/-- Switches domain d as it is wanted. -/
def State.switchTo (s : State) (d : Nat) (on_ : Bool) : State := if on_ then s.switchOn d else s.switchOff d

/-- A lane of group g is enabled (R403). -/
def State.groupWanted (s : State) (g : Nat) : Bool := (List.range 16).any (fun i => s.laneEnabled (16 * g + i))

/-- A home address of bank b has EXPECTED = 1 (R136). -/
def State.bankWanted (s : State) (b : Nat) : Bool := s.mapped.any (fun h => h / 1024 = b && mapExpected (s.mapEntry h))

/-- A Hatch of pair p is enabled (R403). -/
def State.hatchesWanted (s : State) (p : Nat) : Bool := s.rb R.PWR_CFG (2 * p) || s.rb R.PWR_CFG (2 * p + 1)

/-- Banks CB1 to CB3 as the map wants them (R136, R403). -/
def State.switchBanks (s : State) : State := ([1, 2, 3] : List Nat).foldl (fun s b => s.switchTo (32 + b) (s.bankWanted b)) s

/-- Lane groups as the enables want them (R403). -/
def State.switchGroups (s : State) : State := (List.range 32).foldl (fun s g => s.switchTo g (s.groupWanted g)) s

/-- Hatch pairs as PWR_CFG.HATCH_EN wants them (R403). -/
def State.switchHatches (s : State) : State := ([0, 1] : List Nat).foldl (fun s p => s.switchTo (47 + p) (s.hatchesWanted p)) s

/-- Step n of the present start-up has ended. -/
def State.stepEnded (s : State) (n : Nat) : Bool := n < s.start.step || (s.start.step = n && !s.start.active)

/-- The Power Manager at a boundary, after the writes have applied (R403, R408, R410, R331). -/
def State.pwrBoundary (s : State) (tj : Int) : State :=
  let s := (s.tempTake tj).mirrorAsk
  let s := if s.stepEnded 6 then s.switchBanks else s
  let s := if s.stepEnded 8 then s.switchGroups else s
  let s := if s.stepEnded 9 then s.switchHatches else s
  if s.pwr.pfailSave then ({ s with pwr := { s.pwr with pfailSave := false } } : State).mtrSave true else s

/-- Domain d has become ready; the transmit delays of the lanes of a group are calibrated (R404). Lanes of a list fail. -/
def State.domainReady (s : State) (d : Nat) : State :=
  let s := { s with pwr := { s.pwr with ready := s.pwr.ready + 2 ^ d, switching := s.pwr.switching - 2 ^ d } }
  if d < 32 then
    (List.range 16).foldl (fun s i => s.updLane (16 * d + i) (fun a => { a with calibrated := !s.start.inputs.badLanes.contains (16 * d + i) })) s
  else s

/-- Words 14 to 17 of the slack and budget region of the annex (R435). -/
def State.pwrAnnex (s : State) (n : Epoch) : State :=
  let items (l : List OptItem) : Nat :=
    b2n (l.contains .capture) + 2 * b2n (l.contains .mirror) + 4 * b2n (l.contains .debugCapture)
  s.annexPut n 0x4838 [s.pwrVcore, toF32 (rnd [s.pwr.draw]), BitVec.ofNat 32 (items s.pwr.waiting * 2 ^ 8 + items s.pwr.admitted),
    toF32 (rnd [(s.sys.tj : Rat) / 4])]

/-- Band calibration runs: step REFERENCE has waited for lock for 1 ms, and for less than the 20 ms that it takes (R411).
(DEDUCED, log 36.) -/
def State.calibrating (s : State) : Bool :=
  let t := s.start.aoNs - s.ref.sinceNs
  s.ref.state = .unlocked && s.start.step = 5 && s.start.active && !s.ref.calibrated && decide (1000000 ≤ t) && decide (t < 21000000)

/-- The kept bands: for each junction range whether one is stored, the band and the loop's control value (R411). (DEDUCED, log 37.) -/
def State.storedBands (s : State) : List Nat := match newestSlot s.trk.bands with | some x => x.words | none => []

/-- The junction range of R411, from the junction temperature in 0.25 °C. (DEDUCED, log 37.) -/
def junctionRange (tj : Int) : Nat := if tj < 0 then 0 else if tj ≤ 200 then 1 else if tj ≤ 400 then 2 else 3

/-- Step REFERENCE starts from the stored band for the present junction range; where none is stored the band that it starts from is a
free value (R411). (DEDUCED, log 36.) -/
def State.refStart (s : State) : State :=
  let range := junctionRange s.sys.tj
  let ws := s.storedBands
  let kept := ws.getD (3 * range) 0 = 1
  let free := (Config.freeWord s.freeCount).toNat % 256
  { s with
    ref := { s.ref with
      state := .unlocked, muted := true, sinceNs := s.start.aoNs, range := range, calibrated := false
      band := if kept then ws.getD (3 * range + 1) 0 else free }
    freeCount := if kept then s.freeCount else s.freeCount + 1 }

/-- A band calibration has run and gives a band: the cause and its record (R411, R431). -/
def State.calibrate (s : State) (band : Nat) : State :=
  if s.ref.calibrated then { s with ref := { s.ref with band := band } } else
    let s : State := { s with ref := { s.ref with band := band, calibrated := true } }
    let s := s.latch R.REF_CAUSE 2
    s.binLog 0xC2 [BitVec.toNat (setFld (s.reg R.REF_STATUS) 31 16 (s.ref.state.code * 2 ^ 14 + b2n s.ref.muted * 2 ^ 13))]

/-- A calibration that ends without lock has run all the same; the band that it finds is a free value (R411). (DEDUCED, log 36.) -/
def State.calibrateUnlocked (s : State) : State :=
  if s.ref.calibrated then s
  else ({ s with freeCount := s.freeCount + 1 } : State).calibrate ((Config.freeWord s.freeCount).toNat % 256)

/-- REF_STATUS (R436). -/
def State.refStatus (s : State) : Word :=
  setFld (s.reg R.REF_STATUS) 31 16 (s.ref.state.code * 2 ^ 14 + b2n s.ref.muted * 2 ^ 13 + b2n s.calibrating * 2 ^ 12)

/-- The field rules of the PWR, STR and REF blocks (R436). -/
def pwrRule (off : Nat) (w : Word) : Option Word :=
  if off = R.PWR_VCORE_CFG then
    let vmax := clampNat 620 860 (fld w 19 10)
    let vmin := min vmax (clampNat 620 860 (fld w 29 20))
    some (setFld (setFld (setFld w 29 20 vmin) 19 10 vmax) 9 0 (clampNat vmin vmax (fld w 9 0)))
  else if off = R.PWR_SLACK_CFG then
    let lo := max 15 (fld w 23 16)
    let hi := min 255 (max (lo + 5) (fld w 31 24))
    some (setFld (setFld (setFld (setFld (setFld w 31 24 hi) 23 16 lo) 15 12 (max 1 (fld w 15 12))) 11 8 (max 1 (fld w 11 8)))
      4 0 (clampNat 10 20 (fld w 4 0)))
  else if off = R.PWR_PMB_CFG then some (setFld w 7 0 (max 1 (fld w 7 0)))
  else if off = R.STR_CFG then
    some (setFld (setFld w 31 28 (if 10 < fld w 31 28 then 0 else fld w 31 28)) 23 16 (max 4 (fld w 23 16)))
  else if off = R.REF_CFG then some (setFld (setFld w 31 16 (max 1 (fld w 31 16))) 3 0 (max 1 (fld w 3 0)))
  else some w

end Sys2Proof.Machine
end

