-- ==== Sys2Proof/Machine/SafetyCore.lean ====
section
/-! DEFINITION. The Safety Core and the safety telegrams (chapter 11). -/

namespace Sys2Proof.Machine

/-- The implemented safety parameter registers in ascending offset (R352, R353, R368). -/
def safParams : List Nat :=
  (List.range 16).map R.SAF_PAIR_CFG ++ (List.range 8).map R.SAF_OUT_CFG ++
  [R.SAF_TP_CFG, R.SAF_OP_CFG, R.SAF_TIME, R.SAF_TG_CFG, R.SAF_TG_OWN_ID, R.SAF_TG_PEER_ID, R.SAF_TG_PEER_CHECK] ++
  (List.range 2).flatMap (fun p => (List.range 7).map (fun w => R.SAF_PORT_MAC_LO p + 4 * w))

/-- The set in force. -/
def State.safSet (s : State) : List Word := safParams.map s.reg

/-- The pending set. -/
def State.safPending (s : State) : List Word := safParams.map (fun o => s.reg (pendSafetyKey o))

/-- The check value of a set (R353). -/
def safCheckOf (ws : List Word) : Nat := crc32Words 0x1EDC6F41 0xFFFFFFFF ws

/-- Sets the words of the set in force. -/
def State.putSafety (s : State) (ws : List Word) : State :=
  (safParams.zip ws).foldl (fun s x => s.setReg x.1 x.2) s

/-- Sets the words of the pending set. -/
def State.putSafetyPending (s : State) (ws : List Word) : State :=
  (safParams.zip ws).foldl (fun s x => s.setReg (pendSafetyKey x.1) x.2) s

/-- The set in force is in triple disagreement (R457). -/
def State.safTriple (s : State) : Bool := safParams.any s.tripleAt

/-- The pending set is in triple disagreement (R354, R457). -/
def State.safPendTriple (s : State) : Bool := safParams.any (fun o => s.tripleAt (pendSafetyKey o))

/-- Channel c: 0–15 SINpA, 16–31 SINpB. -/
def State.chan (s : State) (c : Nat) : ChanSt := smGet {} s.saf.chans c

/-- Pair p. -/
def State.safPair (s : State) (p : Nat) : PairSaf := smGet {} s.saf.pairs p

/-- Changes pair p. -/
def State.updSafPair (s : State) (p : Nat) (f : PairSaf → PairSaf) : State :=
  { s with saf := { s.saf with pairs := smUpd {} s.saf.pairs p f } }

/-- Output o. -/
def State.safOut (s : State) (o : Nat) : OutSaf := smGet {} s.saf.outs o

/-- Changes output o. -/
def State.updSafOut (s : State) (o : Nat) (f : OutSaf → OutSaf) : State :=
  { s with saf := { s.saf with outs := smUpd {} s.saf.outs o f } }

/-- The test-pulse source of channel c (R340). -/
def State.chanSource (s : State) (c : Nat) : Nat :=
  let w := s.reg (R.SAF_PAIR_CFG (c % 16))
  if c < 16 then fld w 26 24 else fld w 23 21

/-- TP_WIDTH in µs. -/
def State.tpWidth (s : State) : Nat := s.rf R.SAF_TP_CFG 15 0

/-- The time since the last pulse of source t started, in µs: none before the first (R340). -/
def State.tpPhase (s : State) (t : Nat) : Option Nat :=
  let period := 1000 * s.rf R.SAF_TP_CFG 31 24
  let first := t * period / 4
  if period = 0 ∨ s.saf.us < first then none else some ((s.saf.us - first) % period)

/-- TPOt is low: in its pulses, and while the Safety Core does not run (R340, R367). -/
def State.tpoLow (s : State) (t : Nat) : Bool :=
  !s.saf.running || (match s.tpPhase t with | some x => decide (x < s.tpWidth) | none => false)

/-- Channel c lies in a test window of its own source (R338, R340). (DEDUCED, log 28.) -/
def State.inTestWindow (s : State) (c : Nat) : Bool :=
  s.chanSource c < 4 && (match s.tpPhase (s.chanSource c) with | some x => decide (x < s.tpWidth + 50) | none => false)

/-- The raw value of channel c in the last sample. -/
def State.chanRaw (s : State) (c : Nat) : Bool := bit s.saf.raw c

/-- One sample of channel c (R338). (DEDUCED, log 28.) -/
def State.chanSample (s : State) (c : Nat) : State :=
  if s.inTestWindow c then s else
    let r := s.chanRaw c
    let u := s.chan c
    let u' : ChanSt := if r = u.val then { u with run := 0 }
      else if 100 * s.rf (R.SAF_PAIR_CFG (c % 16)) 15 8 ≤ u.run + 1 then { val := r, run := 0 }
      else { u with run := u.run + 1 }
    { s with saf := { s.saf with chans := smSet {} s.saf.chans c u' } }

/-- a of pair p (R339). -/
def State.pairA (s : State) (p : Nat) : Bool := (s.chan p).val

/-- b of pair p (R339). -/
def State.pairB (s : State) (p : Nat) : Bool := (s.chan (16 + p)).val != s.rb (R.SAF_PAIR_CFG p) 27

/-- Pair p holds a latched fault (R339). -/
def State.pairFault (s : State) (p : Nat) : Bool := (s.safPair p).discFault || (s.safPair p).tpFault

/-- The time for which a and b of pair p have disagreed, after one sample (R339). (DEDUCED, log 28.) -/
def State.pairSample (s : State) (p : Nat) : State :=
  s.updSafPair p (fun u => { u with disc := if s.pairA p = s.pairB p then 0 else u.disc + 1 })

/-- SOUTo is driven high: its command, while it holds no fault, outside its off-pulses (R347, R348, R356). -/
def State.soutHigh (s : State) (o : Nat) : Bool :=
  let u := s.safOut o
  s.saf.running && s.saf.cfgValid && u.cmd && !u.fault && !u.pulse

/-- One sample of output o: the end of an off-pulse, and the time for which the read-back has not followed (R348). -/
def State.outSample (s : State) (o : Nat) : State :=
  let s := s.updSafOut o (fun u =>
    { u with pulse := u.pulse && decide (s.saf.us < u.at_ + s.rf R.SAF_OP_CFG 15 0) })
  let same := bit s.saf.srb o = s.soutHigh o
  s.updSafOut o (fun u => { u with wrong := if same then 0 else u.wrong + 1, stuck := u.stuck && !same })

/-- RST_MIN in µs (R350). -/
def State.rstMin (s : State) : Nat := 10000 * s.rf R.SAF_TIME 15 8

/-- RST_MAX in µs (R350). -/
def State.rstMax (s : State) : Nat := 100000 * s.rf R.SAF_TIME 7 0

/-- One sample of SRST: its filter of 1 ms, the length of its high, and the request at its falling edge (R350). -/
def State.srstSample (s : State) (raw : Bool) : State :=
  let f := s.saf
  let run := if raw = f.srst then 0 else f.srstRun + 1
  if 1000 ≤ run then
    if f.srst then
      let ok := s.rstMin ≤ f.srstHigh + 1 ∧ f.srstHigh + 1 ≤ s.rstMax
      { s with saf := { f with srst := false, srstRun := 0, srstHigh := 0, stuck := false, request := f.request || ok } }
    else { s with saf := { f with srst := true, srstRun := 0, srstHigh := 0 } }
  else { s with saf := { f with srstRun := run, srstHigh := if f.srst then f.srstHigh + 1 else 0 } }

/-- SAFETY_SAMPLE: each half samples every safety input, read-back input and SRST (R336, R338, R350). -/
def execSafetySample (raw srb : Nat) (srst : Bool) (s : State) : Out :=
  if s.saf.running = false then .next s else
    let s := { s with saf := { s.saf with us := s.saf.us + 1, raw := raw, srb := srb } }
    let s := (List.range 32).foldl State.chanSample s
    let s := (List.range 16).foldl State.pairSample s
    let s := (List.range 8).foldl State.outSample s
    .next (s.srstSample srst)

/-- A pair fault is set (R339, R340, R368). -/
def State.pairFaultSet (s : State) (p : Nat) (tp : Bool) : State :=
  (s.updSafPair p (fun u => { u with discFault := u.discFault || !tp, tpFault := u.tpFault || tp })).latch R.SAF_CAUSE 1

/-- PAIR_DISC_FAULT: a and b of pair p have disagreed for DISC (R339). -/
def execPairDiscFault (p : Nat) (s : State) : Out :=
  if p < 16 ∧ s.pairA p ≠ s.pairB p ∧ 10000 * s.rf (R.SAF_PAIR_CFG p) 7 0 ≤ (s.safPair p).disc ∧ (s.safPair p).discFault = false then
    .next (s.pairFaultSet p false)
  else .next s

/-- TEST_PULSE: the sample TP_WIDTH − 20 µs after the pulse of source t starts tests its channels (R340). -/
def execTestPulse (t : Nat) (s : State) : Out :=
  if s.saf.running ∧ t < 4 ∧ s.tpPhase t = some (s.tpWidth - 20) then
    let failed := (List.range 32).filter (fun c => s.chanSource c = t && (s.chan c).val && s.chanRaw c)
    .next (failed.foldl (fun s c => s.pairFaultSet (c % 16) true) s)
  else .next s

/-- OFF_PULSE: an output that is high is driven low for OP_WIDTH once every OP_PERIOD (R348). -/
def execOffPulse (o : Nat) (s : State) : Out :=
  let period := 1000 * max 1 (s.rf R.SAF_OP_CFG 31 24)
  if o < 8 ∧ s.soutHigh o ∧ s.rb (R.SAF_OUT_CFG o) 27 ∧ (s.safOut o).at_ + period ≤ s.saf.us then
    .next (s.updSafOut o (fun u => { u with pulse := true, at_ := s.saf.us }))
  else .next s

/-- READBACK_CHECK: a read-back that has not followed its command within RB_DELAY sets OUT_FAULT or is STUCK_ON (R348). -/
def execReadbackCheck (o : Nat) (s : State) : Out :=
  if o < 8 ∧ s.saf.running ∧ 0 < (s.safOut o).wrong ∧ 10 * s.rf R.SAF_OP_CFG 23 16 ≤ (s.safOut o).wrong then
    if s.soutHigh o then .next ((s.updSafOut o (fun u => { u with fault := true, wrong := 0 })).latch R.SAF_CAUSE 2)
    else .next (s.updSafOut o (fun u => { u with stuck := true }))
  else .next s

/-- The pairs with function f (R342). -/
def State.safOf (s : State) (f : Nat) : List Nat := (List.range 16).filter (fun p => s.rf (R.SAF_PAIR_CFG p) 31 28 = f)

/-- Every pair with function f has value 1; the given value when no pair has it (R343). -/
def State.safAll (s : State) (f : Nat) (none_ : Bool) : Bool :=
  if s.safOf f = [] then none_ else (s.safOf f).all (fun p => (s.safPair p).value)

/-- Telegrams are enabled (R362). -/
def State.tgEn (s : State) : Bool := s.rb R.SAF_TG_CFG 31

/-- The DATA that the Safety Core uses: that of the last fresh telegram in state VALID, else 0 (R363). -/
def State.tgData (s : State) : Nat := if s.saf.conn = .valid then s.saf.rxData else 0

/-- The received DATA shows ESTOP_OK = 1 and DEMAND = 0 in state VALID. -/
def State.farOk (s : State) : Bool := s.saf.conn = .valid && bit s.tgData 0 && !bit s.tgData 4

/-- A telegram counter (R361, R368). -/
def State.tgCount (s : State) (c : Nat) : State := s.count (R.SAF_TG_CNT c) 31 0

/-- The value of n bytes from byte o of a frame, most significant first. -/
def be (bs : List Byte) (o n : Nat) : Nat := ofBytesBE ((bs.drop o).take n)

/-- SCV over bytes 0–31 (R358). -/
def scvOf (bs : List Byte) : Nat := crcBytes 32 0x1EDC6F41 0x5AFE (bs.take 32)

/-- The connection enters LOST (R358, R362): nothing has been accepted since. -/
def State.tgLost (s : State) : State := { s with saf := { s.saf with conn := .lost, echo := 0 } }

/-- The connection falls to LOST: from VALID that is LOSS in the cycle (R344, R368). -/
def State.tgFall (s : State) : State :=
  if s.saf.conn = .valid then
    let s := (s.tgLost).latch R.SAF_CAUSE 4
    { s with saf := { s.saf with lossNow := true } }
  else s.tgLost

/-- One candidate telegram (R361, R362). (DEDUCED, log 29.) -/
def State.telegram (s : State) (p : List Byte) : State :=
  let f := s.saf
  if be p 0 4 ≠ 0x0D5C0101 ∨ be p 28 4 ≠ 0 ∨ 32 ≤ be p 20 4 then s.tgCount 6
  else if be p 32 4 ≠ scvOf p then s.tgCount 2
  else if be p 4 4 ≠ s.rf R.SAF_TG_PEER_ID 31 0 ∨ be p 8 4 ≠ s.rf R.SAF_TG_OWN_ID 31 0 ∨
      (s.rf R.SAF_TG_PEER_CHECK 31 0 ≠ 0 ∧ be p 24 4 ≠ s.rf R.SAF_TG_PEER_CHECK 31 0) then s.tgCount 3
  else
    let seq := be p 12 4
    let d := (seq + 2 ^ 32 - f.seqRx) % 2 ^ 32
    if seq = 0 then s.tgCount 4
    else if f.conn ≠ .lost ∧ d = 0 then s.tgCount 1
    else if f.conn ≠ .lost ∧ s.rf R.SAF_TG_CFG 7 4 < d then s.tgCount 4
    else
      let s := { s with saf := { f with seqRx := seq, echo := seq } }
      let s := if f.conn = .lost then { s with saf := { s.saf with conn := .sync, syncUs := f.us } } else s
      let echo := be p 16 4
      if echo = 0 ∨ 4 * s.rf R.SAF_TG_CFG 3 0 < (f.seqTx + 2 ^ 32 - echo) % 2 ^ 32 then s.tgCount 5
      else
        let s := { s with saf := { s.saf with freshUs := some f.us, rxData := be p 20 4 } }
        let s := s.tgCount 0
        if f.conn = .sync then ({ s with saf := { s.saf with conn := .valid } } : State).latch R.SAF_CAUSE 5 else s

/-- The candidates of a cycle, port 0 first (R361), after the connection has followed EN and CFG_VALID (R362). -/
def State.tgCycle (s : State) : State :=
  let cands := s.saf.cands
  let s := { s with saf := { s.saf with cands := [] } }
  if s.tgEn = false ∨ s.saf.cfgValid = false then { s with saf := { s.saf with conn := .off } }
  else
    let s := if s.saf.conn = .off then s.tgLost else s
    let order := cands.filter (fun x => x.1 = 0) ++ cands.filter (fun x => x.1 ≠ 0)
    order.foldl (fun s x => s.telegram x.2) s

/-- The pair values of a cycle and the restart checks (R339, R341). -/
def State.pairCycle (s : State) (p : Nat) : State :=
  let a := s.pairA p
  let b := s.pairB p
  s.updSafPair p (fun u =>
    let restart := u.restart && (a || b)
    { u with restart := restart, value := a && b && !s.pairFault p && !restart })

/-- The states of a cycle (R343). -/
def State.safStates (s : State) : State :=
  let earth := s.safOf 3
  let dead := s.safAll 4 false
  { s with saf := { s.saf with
    estopOk := s.safAll 1 true, hallClosed := s.safAll 2 true, earthOpen := s.safAll 3 true,
    earthed := earth != [] && earth.all (fun p => !s.pairA p && !s.pairB p && !s.pairFault p),
    dead := dead, keyOn := s.safAll 5 true,
    deadUs := if dead then s.saf.deadUs + 10 else 0, deadHeld := s.saf.deadHeld && dead } }

/-- The demand causes of a cycle (R344). -/
def State.safCauses (s : State) : Nat :=
  let f := s.saf
  ofBits [!f.estopOk, !f.hallClosed && !f.dead, !f.earthOpen && !f.dead,
    s.tgEn && s.rb R.SAF_TG_CFG 29 && f.conn = .valid && (!bit s.tgData 0 || bit s.tgData 4),
    s.tgEn && s.rb R.SAF_TG_CFG 30 && f.lossNow,
    (List.range 8).any (fun o => (s.safOut o).stuck), 3 ≤ f.disagree, f.checkBad]

/-- SAFE_LOCK in a cycle with the given causes (R345): its setting fires the block logic; each setting, and each cause that
appears while it is set, writes a Bin record. -/
def State.safLock (s : State) (causes ns : Nat) : State :=
  let old := s.saf.causes
  let s := { s with saf := { s.saf with causes := causes, lossNow := false } }
  if causes = 0 then s else
    let s := (s.setRf R.SAF_DEMAND 7 0 (s.rf R.SAF_DEMAND 7 0 ||| causes)).noteLt R.SAF_DEMAND (maskOf 7 0)
    if s.saf.lock then
      (bitList 8 causes).foldl (fun s c => if bit old c then s else s.binLog 0x94 [2 ^ c]) s
    else
      let s := { s with saf := { s.saf with lock := true } }
      let s := ((s.setRf R.SAF_DEMAND 15 8 causes).noteLt R.SAF_DEMAND (maskOf 15 8)).latch R.SAF_CAUSE 0
      (s.binLog 0x93 [causes]).blockFire 18 ns

/-- The permit as its conditions give it (R346). -/
def State.safPermit (s : State) : Bool :=
  let f := s.saf
  f.cfgValid && !f.lock && !f.restartWait && f.estopOk && f.hallClosed && f.earthOpen && f.keyOn &&
    (List.range 16).all (fun p => s.rf (R.SAF_PAIR_CFG p) 31 28 = 0 || !s.pairFault p) &&
    (List.range 8).all (fun o => !(s.safOut o).fault) && (!s.tgEn || s.farOk)

/-- The permit takes a value; a fall is recorded (R346). -/
def State.setPermit (s : State) (p : Bool) : State :=
  let fell := s.saf.permit && !p
  let s := { s with saf := { s.saf with permit := p } }
  if fell then (s.latch R.SAF_CAUSE 7).binLog 0x98 [s.saf.causes] else s

/-- The condition of output o (R347). -/
def State.outCond (s : State) (o : Nat) : Bool :=
  let f := s.saf
  match s.rf (R.SAF_OUT_CFG o) 31 28 with
  | 1 => f.permit
  | 2 => f.deadHeld && f.earthed
  | 3 => f.deadHeld && (!s.rb R.SAF_TG_CFG 27 || (f.conn = .valid && bit s.tgData 2))
  | 4 => !f.lock
  | 5 => s.farOk
  | _ => false

/-- The command of output o; its off-pulses count from the change to high (R347, R348). -/
def State.setOutCmd (s : State) (o : Nat) (c : Bool) : State :=
  s.updSafOut o (fun u => { u with cmd := c, at_ := if c && !u.cmd then s.saf.us else u.at_, pulse := u.pulse && c })

/-- DATA as the Safety Core sends it (R358). -/
def State.safData (s : State) : Nat :=
  let f := s.saf
  ofBits [f.estopOk, f.permit, f.dead, f.earthed, f.lock && s.rb R.SAF_TG_CFG 28]

/-- SAFETY_CYCLE: each half evaluates the safety logic and the halves compare their results (R336–R347, R361–R363, R366).
diff holds what the other half calls for and this half does not: outputs low in bits 0–7, the permit off in bit 8, and demand
causes in bits 16–23. ns is the instant within the epoch. (DEDUCED, log 28.) -/
def execSafetyCycle (diff ns : Nat) (s : State) : Out :=
  if s.saf.running = false then .next s else
    let s := s.tgCycle
    let s := (List.range 16).foldl State.pairCycle s
    let s := s.safStates
    let s := { s with saf := { s.saf with disagree := if diff = 0 then 0 else s.saf.disagree + 1 } }
    let s := s.safLock (s.safCauses ||| bits diff 23 16) ns
    let s := s.setPermit (s.safPermit && !bit diff 8)
    let s := (List.range 8).foldl (fun s o => s.setOutCmd o (s.outCond o && s.saf.cfgValid && !bit diff o)) s
    .next { s with saf := { s.saf with data := s.safData, requestSeen := s.saf.request } }

/-- DEAD_HELD: DEAD has been 1 without a break for DEAD_HOLD (R343). -/
def execDeadHeld (s : State) : Out :=
  if s.saf.dead ∧ 100000 * s.rf R.SAF_TIME 31 16 ≤ s.saf.deadUs then .next { s with saf := { s.saf with deadHeld := true } }
  else .next s

/-- RESET_STUCK: the high of SRST has lasted longer than RST_MAX (R350). (DEDUCED, log 28.) -/
def execResetStuck (s : State) : Out :=
  if s.saf.srst ∧ s.rstMax < s.saf.srstHigh then .next { s with saf := { s.saf with stuck := true } } else .next s

/-- An accepted reset (R351). (DEDUCED, log 28.) -/
def State.safReset (s : State) : State :=
  let s := { s with saf := { s.saf with lock := false, restartWait := false } }
  let s := (List.range 16).foldl (fun s p =>
    if s.pairFault p && s.pairA p == s.pairB p then
      s.updSafPair p (fun u => { u with discFault := false, tpFault := false, restart := true })
    else s) s
  let s := (List.range 8).foldl (fun s o =>
    if (s.safOut o).fault && !bit s.saf.srb o then s.updSafOut o (fun u => { u with fault := false }) else s) s
  ((s.count R.SAF_RESET_STAT 31 16).setRf R.SAF_RESET_STAT 2 0 1).binLog 0x95 [0]

/-- A reset request is accepted or refused by the causes of the last cycle (R350, R351). -/
def State.resetDecide (s : State) : State :=
  let s := { s with saf := { s.saf with request := false, requestSeen := false } }
  let s := s.latch R.SAF_CAUSE 3
  if s.saf.cfgValid = false then (s.setRf R.SAF_RESET_STAT 2 0 3).binLog 0x96 [s.saf.causes]
  else if s.saf.causes ≠ 0 then (s.setRf R.SAF_RESET_STAT 2 0 2).binLog 0x96 [s.saf.causes]
  else s.safReset

/-- SAFETY_RESET_REQUEST: the request at the falling edge of SRST is decided once the cycle in which it falls has been evaluated, so that a
cause of that cycle wins (R350, R351, R366). (DEDUCED, log 28.) -/
def execSafetyResetRequest (s : State) : Out :=
  if s.saf.request = false ∨ s.saf.requestSeen = false then .next s else .next s.resetDecide

/-- The first rule of R355 that a set fails, given as a function from offset to word. (DEDUCED, log 28.) -/
def safRuleFailed (g : Nat → Word) : Option Nat :=
  let pairs := (List.range 16).map (fun p => g (R.SAF_PAIR_CFG p))
  let outs := (List.range 8).map (fun o => g (R.SAF_OUT_CFG o))
  let tpo (x : Nat) : Bool := x ≤ 3 || x = 7
  let tp := g R.SAF_TP_CFG
  let op := g R.SAF_OP_CFG
  let tm := g R.SAF_TIME
  let tg := g R.SAF_TG_CFG
  let en := flag tg 31
  let own := g R.SAF_TG_OWN_ID
  let peer := g R.SAF_TG_PEER_ID
  let on (p : Nat) : Bool := flag (g (R.SAF_PORT_PEER_MAC_HI p)) 31
  let portOk (p : Nat) : Bool := !on p || (g (R.SAF_PORT_IP p) != 0 && g (R.SAF_PORT_PEER_IP p) != 0 &&
    !flag (g (R.SAF_PORT_MAC_HI p)) 8 && fld (g (R.SAF_PORT_UDP p)) 31 16 != 0 && fld (g (R.SAF_PORT_UDP p)) 15 0 != 0)
  let rules : List (Nat × Bool) := [
    (1, pairs.all (fun w => fld w 31 28 ≤ 5 && tpo (fld w 26 24) && tpo (fld w 23 21) &&
        (fld w 31 28 == 0 || (fld w 15 8 != 0 && fld w 7 0 != 0))) && outs.all (fun w => fld w 31 28 ≤ 5)),
    (2, pairs.any (fun w => fld w 31 28 = 1)),
    (3, !outs.any (fun w => fld w 31 28 = 2 || fld w 31 28 = 3) || pairs.any (fun w => fld w 31 28 = 4)),
    (4, 50 ≤ fld tp 15 0 && fld tp 15 0 ≤ 1000 && 4 * (fld tp 15 0 + 50) ≤ 1000 * fld tp 31 24),
    (5, 50 ≤ fld op 15 0 && fld op 15 0 ≤ 1000 && 10 * fld op 23 16 < fld op 15 0),
    (6, 10 * fld tm 15 8 < 100 * fld tm 7 0),
    (7, !en || (own != 0 && peer != 0 && own != peer && (on 0 || on 1))),
    (8, !en || (portOk 0 && portOk 1)),
    (9, !en || (5 ≤ fld tg 23 16 && 2 * fld tg 23 16 ≤ 10 * fld tg 15 8 && 1 ≤ fld tg 7 4 && 1 ≤ fld tg 3 0))]
  (rules.find? (fun x => !x.2)).map Prod.fst

/-- The outcome of a GO or DISCARD (R354). -/
def State.confirmResult (s : State) (result rule : Nat) : State :=
  (s.setRf R.SAF_CONFIRM_STAT 2 0 result).setRf R.SAF_CONFIRM_STAT 15 12 rule

/-- A GO or DISCARD, done or refused (R354). -/
def State.confirmDone (s : State) (result rule : Nat) : State := (s.confirmResult result rule).latch R.SAF_CAUSE 6

/-- GO at its boundary by a permitted port (R354). (DEDUCED, log 28.) -/
def State.confirmGo (s : State) (r : Requester) (key : Nat) : State :=
  let ws := s.safPending
  let check := safCheckOf ws
  if key ≠ 0x6996 ∨ s.sys.conv ≠ .off ∨ s.commission = false then s.confirmDone 3 0
  else if s.rf (ownKey r R.SAF_CONFIRM_VALUE) 31 0 ≠ check then s.confirmDone 4 0
  else if s.safTriple ∨ s.safPendTriple then s.confirmDone 5 0
  else match safRuleFailed (fun o => s.reg (pendSafetyKey o)) with
    | some rule => s.confirmDone 5 rule
    | none =>
      if s.trk.writeProt then (s.confirmDone 6 0).trkAsk .safetySet [] else
        let s := s.confirmResult 1 0
        let c : Confirm := ⟨ws, check, min 65535 (s.saf.confirms + s.saf.confirm.length + 1), false⟩
        let s := { s with saf := { s.saf with confirm := s.saf.confirm ++ [c] } }
        s.trkAsk .safetySet c.words

/-- DISCARD at its boundary by a permitted port (R354). -/
def State.confirmDiscard (s : State) (key : Nat) : State :=
  if key ≠ 0x6996 then s.confirmDone 3 0 else (s.putSafetyPending s.safSet).confirmDone 2 0

/-- A write of SAF_CONFIRM by a port that may not write it (R352, R354, R394). -/
def State.confirmForbidden (s : State) (r : Requester) : State := (s.logErr r 4 R.SAF_CONFIRM).confirmDone 3 0

/-- A write of SAF_CONFIRM at its boundary (R354). -/
def State.confirmWrite (s : State) (r : Requester) (w : Word) : State :=
  match flag w 31, flag w 30 with
  | true, true => s.confirmDone 3 0
  | true, false => s.confirmGo r (fld w 15 0)
  | false, true => s.confirmDiscard (fld w 15 0)
  | false, false => s

/-- A GO or DISCARD of a requester: before E(0) it waits for E(0) (R354). -/
def State.confirmAsk (s : State) (r : Requester) (w : Word) : State :=
  if s.mayWrite r R.SAF_CONFIRM = false then s.confirmForbidden r
  else if s.sys.counting then s.confirmWrite r w
  else { s with regs := { s.regs with pend := s.regs.pend ++ [.action r R.SAF_CONFIRM w 0] } }

/-- CONFIRM_GO by a requester (R354). -/
def execConfirmGo (r : Requester) (key : Nat) (s : State) : Out :=
  .next (s.confirmAsk r (BitVec.ofNat 32 (2 ^ 31 + bits key 15 0)))

/-- CONFIRM_DISCARD by a requester (R354). -/
def execConfirmDiscard (r : Requester) (key : Nat) (s : State) : Out :=
  .next (s.confirmAsk r (BitVec.ofNat 32 (2 ^ 30 + bits key 15 0)))

/-- SAFETY_SET_IN_FORCE: the first safety cycle after the Trunk write of a confirmed set completes (R354). A reset request that waits is
decided first, once its cycle has been evaluated (R366). (DEDUCED, log 29.) -/
def execSafetySetInForce (s : State) : Out :=
  match s.saf.confirm with
  | c :: rest =>
    if s.saf.running = false ∨ c.written = false ∨ (s.saf.request ∧ s.saf.requestSeen = false) then .next s else
      let s := (if s.saf.request then s.resetDecide else s).tgFall
      let s := s.putSafety c.set
      let s := s.binLog 0x97 [s.saf.causes, s.saf.check, c.check]
      let s := { s with saf := { s.saf with
        confirm := rest, cfgValid := true, restartWait := true, check := c.check, checkBad := false,
        confirms := incSat 65535 s.saf.confirms } }
      .next (s.confirmDone 2 0)
  | [] => .next s

/-- SAFETY_CHECK_RECOMPUTE: the check value of the set in force is recomputed and compared with the stored value (R356). -/
def execSafetyCheckRecompute (s : State) : Out :=
  if s.saf.running ∧ s.saf.cfgValid then .next { s with saf := { s.saf with checkBad := safCheckOf s.safSet != s.saf.check } }
  else .next s

/-- No set of the Trunk is taken: CFG_VALID is 0, and SAF_CHECK shows the check value of the set that stays in force (R353, R356). -/
def State.safNone (s : State) : State := { s with saf := { s.saf with cfgValid := false, check := safCheckOf s.safSet } }

/-- Loads the set and its check value from the Trunk; CFG_VALID = 1 only when the recomputed value agrees (R356, R457). -/
def State.safLoad (s : State) : State :=
  match newestSlot s.trk.safety with
  | none => s.safNone
  | some x =>
    let n := safParams.length
    let ws := (x.words.take n).map (BitVec.ofNat 32)
    let check := x.words.getD n 0
    let ok := x.words.length = n + 2 ∧ safCheckOf ws = check
    if ok then
      let s := s.putSafety ws
      { s with saf := { s.saf with cfgValid := true, check := check, checkBad := false, confirms := x.words.getD (n + 1) 0 } }
    else s.safNone

/-- SAFETY_SET_RELOAD: a set in force in triple disagreement is loaded again from the Trunk (R457). -/
def execSafetySetReload (s : State) : Out := if s.saf.running ∧ s.safTriple then .next s.safLoad else .next s

/-- The ones' complement sum of 16-bit words of bytes. (PRESUMED, log 31.) -/
def onesSum (bs : List Byte) : Nat :=
  let rec go : List Byte → Nat
    | [] => 0
    | [a] => a.toNat * 256
    | a :: b :: t => a.toNat * 256 + b.toNat + go t
  let fold (n : Nat) : Nat := n % 65536 + n / 65536
  fold (fold (fold (go bs)))

/-- The Internet checksum of bytes, with the checksum field held as 0. (PRESUMED, log 31.) -/
def inetSum (bs : List Byte) : Nat := 65535 - onesSum bs

/-- The pseudo-header and the UDP datagram of which the UDP checksum is formed. (PRESUMED, log 31.) -/
def udpCovered (src dst : Nat) (udp : List Byte) : List Byte :=
  bytesBE 4 src ++ bytesBE 4 dst ++ [0, 17] ++ bytesBE 2 udp.length ++ udp

/-- Port p is enabled (R357). -/
def State.portOn (s : State) (p : Nat) : Bool := s.rb (R.SAF_PORT_PEER_MAC_HI p) 31

/-- The Ethernet frame of port p with a destination UDP port, an IPv4 identification and a payload (R357).
(DESIGN CHOICE, log 2; PRESUMED, log 31.) -/
def State.stationFrame (s : State) (p dstPort ident : Nat) (payload : List Byte) : List Byte :=
  let g (o : Nat) : Nat := s.rf o 31 0
  let hi := s.reg (R.SAF_PORT_MAC_HI p)
  let mac := bytesBE 2 (s.rf (R.SAF_PORT_PEER_MAC_HI p) 15 0) ++ bytesBE 4 (g (R.SAF_PORT_PEER_MAC_LO p)) ++
    bytesBE 2 (fld hi 15 0) ++ bytesBE 4 (g (R.SAF_PORT_MAC_LO p))
  let tag := if flag hi 31 then bytesBE 2 0x8100 ++ bytesBE 2 (fld hi 30 28 * 8192 + fld hi 27 16) else []
  let src := g (R.SAF_PORT_IP p)
  let dst := g (R.SAF_PORT_PEER_IP p)
  let ip (sum : Nat) : List Byte := [0x45, 0xB8] ++ bytesBE 2 (28 + payload.length) ++ bytesBE 2 ident ++ [0x40, 0, 64, 17] ++
    bytesBE 2 sum ++ bytesBE 4 src ++ bytesBE 4 dst
  let udp (sum : Nat) : List Byte := bytesBE 2 (s.rf (R.SAF_PORT_UDP p) 31 16) ++ bytesBE 2 dstPort ++
    bytesBE 2 (8 + payload.length) ++ bytesBE 2 sum ++ payload
  let usum := inetSum (udpCovered src dst (udp 0))
  mac ++ tag ++ bytesBE 2 0x0800 ++ ip (inetSum (ip 0)) ++ udp (if usum = 0 then 65535 else usum)

/-- Sends a payload on port p to a UDP port; the IPv4 identification is a free value. -/
def State.sendFrame (s : State) (p dstPort : Nat) (payload : List Byte) : State :=
  let f := s.free
  f.2.emit (.frame p (f.2.stationFrame p dstPort (bits (Config.freeWord f.1).toNat 15 0) payload))

/-- The telegram payload with a SEQ (R358). -/
def State.tgPayload (s : State) (seq : Nat) : List Byte :=
  let head := bytesBE 4 0x0D5C0101 ++ bytesBE 4 (s.rf R.SAF_TG_OWN_ID 31 0) ++ bytesBE 4 (s.rf R.SAF_TG_PEER_ID 31 0) ++
    bytesBE 4 seq ++ bytesBE 4 s.saf.echo ++ bytesBE 4 s.saf.data ++ bytesBE 4 s.saf.check ++ bytesBE 4 0
  head ++ bytesBE 4 (scvOf head)

/-- TELEGRAM_SEND: every TX_PERIOD a telegram with the next SEQ on every enabled port (R357–R359). -/
def execTelegramSend (s : State) : Out :=
  let due : Bool := match s.saf.txUs with | some t => decide (t + 100 * s.rf R.SAF_TG_CFG 23 16 ≤ s.saf.us) | none => true
  if s.saf.running ∧ s.tgEn ∧ s.saf.cfgValid ∧ due then
    let seq := if s.saf.seqTx = 2 ^ 32 - 1 then 1 else s.saf.seqTx + 1
    let payload := s.tgPayload seq
    let s := { s with saf := { s.saf with seqTx := seq, txData := s.saf.data, txUs := some s.saf.us } }
    .next (([0, 1].filter s.portOn).foldl (fun s p => s.sendFrame p (s.rf (R.SAF_PORT_UDP p) 15 0) payload) s)
  else .next s

/-- The payload of a received frame that is a candidate at port p (R360). (DEDUCED, log 29.) -/
def State.candidate (s : State) (p : Nat) (bs : List Byte) : Option (List Byte) :=
  let g (o : Nat) : Nat := s.rf o 31 0
  let hi := s.reg (R.SAF_PORT_MAC_HI p)
  let macOk := be bs 0 6 = fld hi 15 0 * 2 ^ 32 + g (R.SAF_PORT_MAC_LO p)
  let tagged := be bs 12 2 = 0x8100
  let tagOk := if flag hi 31 then tagged && be bs 14 2 % 4096 = fld hi 27 16 else !tagged
  let b := bs.drop (if tagged then 16 else 12)
  let ip := (b.drop 2).take 20
  let udp := (b.drop 22).take 44
  let sumOk := be udp 6 2 = 0 || onesSum (udpCovered (be ip 12 4) (be ip 16 4) udp) = 65535
  if macOk && tagOk && be b 0 2 = 0x0800 && udp.length = 44 && be ip 0 1 = 0x45 && onesSum ip = 65535 && be ip 6 2 % 2 ^ 14 = 0 &&
      be ip 9 1 = 17 && be ip 12 4 = g (R.SAF_PORT_PEER_IP p) && be ip 16 4 = g (R.SAF_PORT_IP p) &&
      be udp 0 2 = s.rf (R.SAF_PORT_UDP p) 15 0 && be udp 2 2 = s.rf (R.SAF_PORT_UDP p) 31 16 && be udp 4 2 = 44 && sumOk
  then some (udp.drop 8) else none

/-- STATION_FRAME_RECEIVE: a frame received at an enabled port is kept as a candidate or dropped (R357, R360). (DEDUCED, log 29.) -/
def execStationFrameReceive (p : Nat) (bs : List Byte) (s : State) : Out :=
  if s.saf.running = false ∨ 2 ≤ p ∨ s.portOn p = false then .next s else
    let s := { s with saf := { s.saf with link := s.saf.link ||| 2 ^ p } }
    match s.candidate p bs with
    | some x => .next { s with saf := { s.saf with cands := s.saf.cands ++ [(p, x)] } }
    | none => .next (s.count (R.SAF_PORT_STAT p) 23 0)

/-- TELEGRAM_WATCHDOG: no fresh telegram for WD takes the connection to LOST; a candidate that waits is processed first
(R362, R366). (DEDUCED, log 29.) -/
def execTelegramWatchdog (s : State) : Out :=
  let wd := 1000 * s.rf R.SAF_TG_CFG 15 8
  if s.saf.cands ≠ [] then .next s
  else match s.saf.conn with
    | .sync => if s.saf.syncUs + wd ≤ s.saf.us then .next s.tgFall else .next s
    | .valid => if s.saf.freshUs.getD 0 + wd ≤ s.saf.us then .next (s.tgFall.tgCount 7) else .next s
    | _ => .next s

/-- LOG2 of the mirror as the device takes it (R368). -/
def State.mirrorLog2 (s : State) : Nat := max 6 (s.rf R.SAF_MIRROR 20 16)

/-- LEN of the mirror as the device takes it (R368). -/
def State.mirrorLen (s : State) : Nat :=
  let len := clampNat 4 1024 (s.rf R.SAF_MIRROR_SRC 10 0) / 4 * 4
  min len (32768 - s.rf R.SAF_MIRROR_SRC 30 16 / 4 * 4)

/-- MIRROR_SEND: every 2^LOG2 ep one diagnostic mirror datagram, as admitted optional work that is not abandoned (R24, R365).
(DEDUCED, log 29.) -/
def execMirrorSend (s : State) : Out :=
  let port := ([0, 1].filter s.portOn).head?
  match port, s.cel.newest with
  | some p, some n =>
    if s.saf.running ∧ s.rb R.SAF_MIRROR 31 ∧ s.pwr.admitted.contains .mirror ∧ s.sys.counting ∧
        s.sys.epoch.toNat % 2 ^ s.mirrorLog2 = 0 ∧ s.rf R.SAF_MIRROR 15 0 ≠ 0 ∧ bit s.sys.missNow 15 = false ∧
        s.saf.mirrorAt ≠ some s.sys.epoch then
      let first := s.rf R.SAF_MIRROR_SRC 30 16 / 4
      let words := (List.range (s.mirrorLen / 4)).flatMap (fun i => bytesLE 4 (s.annexRead n (first + i)).toNat)
      let payload := bytesBE 4 0x0D5C0102 ++ bytesBE 4 s.saf.mirrorSeq ++ bytesBE 4 (lowE 32 n) ++ bytesBE 2 s.mirrorLen ++
        bytesBE 2 0 ++ words
      let s := { s with saf := { s.saf with mirrorSeq := (s.saf.mirrorSeq + 1) % 2 ^ 32, mirrorAt := some s.sys.epoch } }
      .next (s.sendFrame p (s.rf R.SAF_MIRROR 15 0) payload)
    else .next s
  | _, _ => .next s

/-- SAF_STATUS (R368). -/
def State.safStatus (s : State) : Word :=
  let f := s.saf
  BitVec.ofNat 32 (b2n f.cfgValid * 2 ^ 31 + b2n f.lock * 2 ^ 30 + b2n f.permit * 2 ^ 29 + b2n f.restartWait * 2 ^ 28 +
    b2n f.deadHeld * 2 ^ 27 + b2n f.dead * 2 ^ 26 + b2n f.earthed * 2 ^ 25 + b2n f.earthOpen * 2 ^ 24 +
    b2n f.hallClosed * 2 ^ 23 + b2n f.estopOk * 2 ^ 22 + b2n f.keyOn * 2 ^ 21 + b2n f.stuck * 2 ^ 20 + f.causes % 256)

/-- SAF_INPUTS (R368). -/
def State.safInputs (s : State) : Word :=
  BitVec.ofNat 32 (ofBits ((List.range 16).map (fun p => (s.safPair p).value)) +
    2 ^ 16 * ofBits ((List.range 16).map s.pairFault))

/-- SAF_CHAN (R368). -/
def State.safChan (s : State) : Word := BitVec.ofNat 32 (ofBits ((List.range 32).map (fun c => (s.chan c).val)))

/-- SAF_OUTPUTS (R368). -/
def State.safOutputs (s : State) : Word :=
  BitVec.ofNat 32 (ofBits ((List.range 8).map (fun o => (s.safOut o).cmd && !(s.safOut o).fault)) + 2 ^ 8 * (s.saf.srb % 256) +
    2 ^ 16 * ofBits ((List.range 8).map (fun o => (s.safOut o).fault)))

/-- SAF_TG_STAT (R368). -/
def State.safTgStat (s : State) : Word :=
  let since := match s.saf.freshUs with | some t => min 65535 ((s.saf.us - t) / 100) | none => 65535
  BitVec.ofNat 32 (s.saf.conn.code * 2 ^ 30 + since)

end Sys2Proof.Machine
end

