-- ==== Sys2Proof/Machine/Trunk.lean ====
section
/-! DEFINITION. The Trunk (R426–R433): the order of its writes, the two slots of an object, the Bin, PFAIL_N and
formatting. -/

namespace Sys2Proof.Machine

/-- The place of an object's write in the order of R428; a seal state goes with the objects of group 4. (DEDUCED, log 37.) -/
def TrkItem.rank : TrkItem → Nat
  | .pfailSave => 1 | .safetySet => 2 | .periodicSave => 3
  | .directory => 4 | .startRecord => 4 | .bands => 4 | .repairMap => 4 | .sealState => 4

/-- The slots of an object (R426): both kinds of metering save share one object. -/
def TrkSt.obj (t : TrkSt) : TrkItem → TrkObj
  | .pfailSave => t.meter | .safetySet => t.safety | .periodicSave => t.meter | .directory => t.directory
  | .startRecord => t.startRec | .bands => t.bands | .repairMap => t.repair | .sealState => t.sealState

/-- Replaces the slots of an object. -/
def TrkSt.putObj (t : TrkSt) (i : TrkItem) (o : TrkObj) : TrkSt :=
  match i with
  | .pfailSave => { t with meter := o } | .safetySet => { t with safety := o } | .periodicSave => { t with meter := o }
  | .directory => { t with directory := o } | .startRecord => { t with startRec := o } | .bands => { t with bands := o }
  | .repairMap => { t with repair := o } | .sealState => { t with sealState := o }

/-- The two-phase write of an object (R427): the slot that does not hold the newest valid copy takes the words with the next
sequence number, or is left without a valid commit. -/
def TrkObj.write (o : TrkObj) (ws : List Nat) (ok : Bool) : TrkObj :=
  let seq := match newestSlot o with | some x => (x.seq + 1) % 2 ^ 32 | none => 1
  let x : TrkSlot := if ok then ⟨seq, true, ws⟩ else ⟨seq, false, []⟩
  if o.s0.valid && (!o.s1.valid || o.s1.seq ≤ o.s0.seq) then { o with s1 := x } else { o with s0 := x }

/-- The first waiting write of rank n, and the writes that remain. -/
def takeRank (n : Nat) : List (TrkItem × List Nat) → Option ((TrkItem × List Nat) × List (TrkItem × List Nat))
  | [] => none
  | x :: t => if x.1.rank = n then some (x, t) else (takeRank n t).map (fun y => (y.1, x :: y.2))

/-- TRUNK_WRITE_START: the next waiting write in the order of R428. -/
def execTrunkWriteStart (s : State) : Out :=
  let t := s.trk
  if t.busy.isSome ∨ t.writeProt then .next s
  else match ([1, 2, 3, 4] : List Nat).findSome? (fun n => takeRank n t.waiting) with
    | some (x, rest) => .next { s with trk := { t with busy := some (.obj x.1 x.2), waiting := rest } }
    | none => match t.waitRing, t.queue with
      | r :: rest, _ => .next { s with trk := { t with busy := some (.ring r), waitRing := rest } }
      | [], e :: rest =>
        .next { s with trk := { t with busy := some (.bin e), queue := rest, coalescing := t.coalescing && decide (512 ≤ rest.length) } }
      | [], [] => .next s

/-- The check of 64-bit words (R82, R427). -/
def checkWords64 (ws : List Nat) : Nat := crcBits 32 0x04C11DB7 0xFFFFFFFF (ws.flatMap (msbBits 64))

/-- The eight words of a Bin record (R431). -/
def binWords (e : BinEnt) (seq extra : Nat) : List Nat :=
  let w0 := seq * 2 ^ 32 + e.cause * 2 ^ 23 + b2n e.last * 2 ^ 22 + b2n e.holdover * 2 ^ 21 + e.era
  let w2 := (e.suppressed + extra) % 2 ^ 32 * 2 ^ 32 + e.aoUs
  let ws := [w0, e.epoch.toNat, w2] ++ (List.range 4).map (fun i => e.payload.getD i 0)
  ws ++ [checkWords64 ws * 2 ^ 32 + (2 ^ 32 - 1 - seq)]

/-- The Bin holds 31,744 records (R426). -/
def binSize : Nat := 31744

/-- The record in the ring position of the next one: phase 1 overwrites it, whether or not the write completes (R426, R427). -/
def TrkSt.binGiveWay (t : TrkSt) : TrkSt :=
  { t with bin := smErase t.bin (((t.binSeq + 1) % 2 ^ 32 + 2 ^ 32 - binSize) % 2 ^ 32) }

/-- A record written into its ring position: the oldest gives way (R426, R431). -/
def State.binWrite (s : State) (e : BinEnt) : State :=
  let seq := (s.trk.binSeq + 1) % 2 ^ 32
  { s with trk := { s.trk with
    binSeq := seq, bin := smSet [] s.trk.binGiveWay.bin seq (binWords e seq (smGet 0 s.trk.suppressed e.cause))
    suppressed := smErase s.trk.suppressed e.cause } }

/-- A record whose write failed: its position is lost with it, and the next record of the cause carries it and what it carried in SUPPRESSED
(R427, R431). -/
def State.binFailed (s : State) (e : BinEnt) : State :=
  let s := s.countSuppressed 1
  { s with trk := { s.trk.binGiveWay with suppressed := smUpd 0 s.trk.suppressed e.cause (· + (e.suppressed + 1)) } }

/-- What the completion of an object's write brings with it (R331, R354, R411). -/
def State.objWritten (s : State) (i : TrkItem) (ws : List Nat) (ok : Bool) : State :=
  match i with
  | .pfailSave => if ok then s.setReg R.MTR_SAVE_EPOCH (BitVec.ofNat 32 (ws.getD 2 0)) else (s.latch R.MTR_CAUSE 3).binLog 0xA5 []
  | .periodicSave => if ok then s.setReg R.MTR_SAVE_EPOCH (BitVec.ofNat 32 (ws.getD 2 0)) else (s.latch R.MTR_CAUSE 3).binLog 0xA5 []
  | .safetySet =>
    let mine (c : Confirm) : Bool := !c.written && c.words == ws
    if s.saf.confirm.any mine = false then s
    else if ok then { s with saf := { s.saf with
      confirm := s.saf.confirm.modify (s.saf.confirm.findIdx mine) (fun c => { c with written := true }) } }
    else ({ s with saf := { s.saf with confirm := s.saf.confirm.eraseP mine } } : State).confirmDone 6 0
  | .bands => if ok then s else (s.latch R.REF_CAUSE 3).binLog 0xC3 [s.refStatus.toNat]
  | .directory => s | .startRecord => s | .repairMap => s | .sealState => s

/-- TRUNK_WRITE_COMPLETE: the write in progress completes its commit, or fails (R427, R428). (DEDUCED, log 37.) -/
def execTrunkWriteComplete (ok : Bool) (s : State) : Out :=
  match s.trk.busy with
  | none => .next s
  | some w =>
    let s := { s with trk := { s.trk with busy := none } }
    let s := if ok then s else s.latch R.TRK_CAUSE 2
    match w with
    | .obj i ws => .next (({ s with trk := s.trk.putObj i ((s.trk.obj i).write ws ok) } : State).objWritten i ws ok)
    | .ring ws => .next { s with trk := { s.trk with ring := ((if ok then ws else []) :: s.trk.ring).take 7 } }
    | .bin e => .next (if ok then s.binWrite e else s.binFailed e)

/-- The Bin queue is coalesced whatever its depth (R429, R432). -/
def State.coalesceNow (s : State) : State :=
  let q := coalesceQueue s.trk.queue
  let s := (s.latch R.TRK_CAUSE 0).countSuppressed (s.trk.queue.length - q.length)
  { s with trk := { s.trk with queue := q, coalescing := decide (512 ≤ q.length) } }

/-- PFAIL_ASSERT: the record, the coalescing, and a PFAIL save at the next boundary once metering has begun (R331, R420,
R429). (DEDUCED, log 37.) -/
def execPfailAssert (s : State) : Out :=
  if s.pwr.pfail then .next s else
    let s := { s with pwr := { s.pwr with pfail := true, pfailSave := s.mtr.on_ } }
    .next (((s.latch R.PWR_CAUSE 6).coalesceNow).pwrRecord 0xC8)

/-- PFAIL_RELEASE: the record; periodic saves continue, and a save that the assertion started is still made (R331, R429). -/
def execPfailRelease (s : State) : Out :=
  if s.pwr.pfail then .next (({ s with pwr := { s.pwr with pfail := false } } : State).pwrRecord 0xC9) else .next s

/-- The words of the directory (R426): format, part serial, ERA and start-up count. -/
def State.directoryWords (s : State) : List Nat := [1, Config.serial.toNat, s.sys.era, s.start.starts]

/-- Every region is emptied and WRITE_PROT cleared; the record is written and the directory made anew (R417, R430). The SEQ
series goes on. (DEDUCED, log 37.) -/
def State.formatTrunk (s : State) : State :=
  let s := { s with trk := { s.trk with
    writeProt := false, busy := none, waiting := [], waitRing := [], directory := {}, bands := {}, safety := {}, meter := {}
    sealState := {}, repair := {}, startRec := {}, ring := [], bin := [] } }
  ((s.latch R.TRK_CAUSE 3).binLog 0xD0 [0]).trkAsk .directory s.directoryWords

/-- FORMAT from a requester (R430, R436): accepted from the management port with its key, in OFF, with WRITE_PROT = 1. -/
def State.trkFormat (s : State) (r : Requester) (key : Nat) : State :=
  if r = .mgmt ∧ key = 0x4B1D ∧ s.sys.conv = .off ∧ s.trk.writeProt then s.formatTrunk else s.logErr r 5 R.TRK_ACTION

/-- FORMAT by a requester. -/
def execFormat (r : Requester) (key : Nat) (s : State) : Out := .next (s.trkFormat r key)

/-- TRK_BIN_OLDEST (R433). -/
def State.binOldest (s : State) : Nat := (s.trk.binSeq + 2 ^ 32 - (s.trk.bin.length - 1)) % 2 ^ 32

/-- A read of TRK_BIN_DATA[w] by a requester (R433). -/
def State.binRead (s : State) (r : Requester) (w : Nat) : Word × State :=
  match smFind s.trk.bin (s.reg (ownKey r R.TRK_BIN_SEL)).toNat with
  | some ws => (BitVec.ofNat 32 (ws.getD (w / 2) 0 / 2 ^ (32 * (w % 2))), s)
  | none => (0, s.logErr r 6 (R.TRK_BIN_DATA w))

/-- TRK_STATUS (R436). -/
def State.trkStatus (s : State) : Word :=
  BitVec.ofNat 32 (b2n s.trk.writeProt * 2 ^ 31 + b2n s.trk.formatted * 2 ^ 30 + b2n s.trk.busy.isSome * 2 ^ 29)

/-- TRK_QUEUE (R436): the live fields beside MAX. -/
def State.trkQueue (s : State) : Word :=
  setFld (setFlag (s.reg R.TRK_QUEUE) 31 s.trk.coalescing) 10 0 (min 1024 s.trk.queue.length)

end Sys2Proof.Machine
end

