-- ==== Sys2Proof/Machine/RegRules.lean ====
section
/-! DEFINITION. When a register write takes effect (R446–R460): the field rules and hold conditions of every block in one
place, the acceptance of an image, and its application at a boundary. -/

namespace Sys2Proof.Machine

/-- The registers of class Start step (R15, R419, R446). (DEDUCED, log 8.) -/
def startClass (off : Nat) : Bool := off ∈ [R.SYS_PLAN, R.STR_CFG, R.PWR_PMB_CFG, R.REF_CFG]

/-- The registers kept for each requester that a host writes (R462). -/
def ownReg (off : Nat) : Bool :=
  off ∈ [R.LNK_TBL_ADDR, R.CEL_CRATE_SEL, R.CTL_SLOT_SEL, R.CTL_TONE_SEL, R.CTL_CAP_ADDR, R.GRD_CRV_SEL, R.EDG_PROF_ADDR,
    R.EDG_TBL_ADDR, R.SAF_VIEW, R.SAF_CONFIRM_VALUE, R.HAT_RING_SEL, R.STR_REC_ADDR, R.TRK_BIN_SEL, R.DBG_CAP_ADDR]

/-- The banked HAT registers (R372). -/
def hatReg (off : Nat) : Bool := R.HAT_ID ≤ off && off < R.HAT_OWN 0

/-- A safety parameter register (R352). -/
def safParam (off : Nat) : Bool := 0x3100 ≤ off && off ≤ 0x31B8

/-- The fields of a key's register that have one of the given access codes. -/
def keyMask (key : Nat) (accs : List Acc) : Word :=
  match regDef (keyOff key) with
  | some (d, _) => accMask d accs
  | none => 0

/-- The bits of a register that a write sets: its RW and TV fields. -/
def writeMask (key : Nat) : Word := keyMask key [.rw, .tv]

/-- The bits of a under the mask, the bits of b elsewhere. -/
def blend (mask a b : Word) : Word := (a &&& mask) ||| (b &&& ~~~mask)

/-- The field rules of the SYS block (R36, R39). -/
def State.sysRule (s : State) (off : Nat) (w : Word) : Option Word :=
  if off = R.SYS_CONV_CFG then
    (if s.sys.conv = .run && flag w 0 && !s.rb off 0 then none else some (setFld w 15 8 (clampNat 1 100 (fld w 15 8))))
  else if R.SYS_ARM_CFG 0 ≤ off ∧ off ≤ R.SYS_ARM_CFG 6 then some (setFld w 10 0 (min 1024 (fld w 10 0)))
  else some w

/-- The field rules of the SAF and DBG blocks outside the safety set (R368, R487). -/
def dbgRule (off : Nat) (w : Word) : Option Word :=
  if off = R.DBG_CAP_CFG then some (if 4 ≤ fld w 30 28 then setFld w 30 28 0 else w) else some w

/-- What a register takes for a value, or none for a write that a rule of its field ignores (R448); entries 12 to 15 of HAT_OWN
take no write (R401). -/
def State.fieldRule (s : State) (key : Nat) (w : Word) : Option Word :=
  let off := keyOff key
  if s.mtrSealedWrite off w then none
  else if off < 0x0200 then s.sysRule off w
  else if off < 0x0600 then pwrRule off w
  else if off < 0x0800 then (if R.HAT_OWN 12 ≤ off ∧ off ≤ R.HAT_OWN 15 then none else some w)
  else if off < 0x0A00 then celRule off w
  else if off < 0x0E00 then lnkRule off w
  else if off < 0x1200 then edgRule off w
  else if off < 0x1A00 then ctlRule s key off w
  else if off < 0x1E00 then grdRule s key off w
  else if off < 0x2400 then prtRule off w
  else if off < 0x2C00 then mfeRule s off w
  else if off < 0x3000 then mtrRule off w
  else dbgRule off w

/-- The objects that a change of a register from o to w touches (R393, R394): every slot whose bit of CTL_ACTIVE_BANK changes,
or the one object of its offset; a slot window goes by the slot that the key names. -/
def keyObjects (key : Nat) (o w : Word) : List Nat :=
  let off := keyOff key
  if off = R.CTL_ACTIVE_BANK_LO then (bitList 32 (o ^^^ w).toNat).map (16 + ·)
  else if off = R.CTL_ACTIVE_BANK_HI then (bitList 32 (o ^^^ w).toNat).map (48 + ·)
  else (objectOf off (key / 0x10000 % 64)).toList

/-- A requester may write a register (R394, R395, R401). -/
def State.mayPut (s : State) (r : Requester) (key : Nat) (w : Word) : Bool :=
  match r with
  | .mgmt => true
  | .hatch h =>
    let off := keyOff key
    !(decide (R.HAT_OWN 0 ≤ off) && decide (off ≤ R.HAT_OWN 79)) && (keyObjects key (s.reg key) w).all (s.owns h)

/-- A write is held pending (R29, R57, R100, R163, R238, R273, R283, R302, R312); one of HAT_OWN is held in no state (R395).
(DEDUCED, log 7.) -/
def State.writeHeld (s : State) (key : Nat) (w : Word) : Bool :=
  let off := keyOff key
  (R.SYS_CLASS_TYPE 0 ≤ off && off < 0x200 && decide (s.sys.conv ≠ .off)) ||
  (R.SYS_ARM_CFG 0 ≤ off && off ≤ R.SYS_ARM_CFG 6 && decide (s.sys.conv ≠ .off) && decide (s.sys.conv ≠ .ready)) ||
  mfeHeld s off w || s.lnkHeld off w || s.edgHeld key off || s.grdHeld off || s.prtHeld off ||
  (if R.HAT_OWN 0 ≤ off ∧ off ≤ R.HAT_OWN 79 then false else (keyObjects key (s.reg key) w).any s.crateHolds)

/-- An action of a register waits while an open Crate touches the object that the writer's write names (R163). (DEDUCED, log 7.) -/
def State.actionHeld (s : State) (r : Requester) (off : Nat) : Bool := (objectOf off (s.slotShown r)).toList.any s.crateHolds

/-- A value comes into force in a register, with what that brings (R52, R54, R181, R273, R286, R324, R397). A threshold that puts the current
value inside the band clears OUTSIDE at once: R52 speaks only of one that leaves it outside. BLOCK_EN coming into force while OUT is 1
feeds the block path from the level. (DEDUCED, log 13.) -/
def State.putImage (s : State) (key : Nat) (w : Word) : State :=
  let off := keyOff key
  let old := s.reg key
  if R.HAT_OWN 0 ≤ off ∧ off ≤ R.HAT_OWN 79 then
    (s.setOwner ((off - R.HAT_OWN 0) / 4) (fld w 3 0) (fld w 7 4)).setReg key w
  else if off = R.CTL_ACTIVE_BANK_LO then
    (s.setBanks ((List.range 32).map (fun k => (k, b2n (flag w k))))).setReg key w
  else if off = R.CTL_ACTIVE_BANK_HI then
    (s.setBanks ((List.range 32).map (fun k => (32 + k, b2n (flag w k))))).setReg key w
  else
    let s := s.setReg key w
    if off = R.EDG_PROF_DATA then
      let k := key / 0x10000 - 0x500
      s.profChanged (k / 128) (k / 64 % 2) (k / 4 % 16)
    else if R.MFE_WIN_LO 0 ≤ off ∧ off ≤ R.MFE_WIN_HI 47 then s.windowMonitor ((off - R.MFE_WIN_LO 0) / 8)
    else if R.MFE_CMP_CFG 0 ≤ off ∧ off ≤ R.MFE_CMP_STAT 15 ∧ (off - R.MFE_CMP_CFG 0) % 16 = 0 then
      let j := (off - R.MFE_CMP_CFG 0) / 16
      if flag w 6 && flag w 0 && !flag old 6 && (smGet {} s.mfe.cmps j).out && !s.cmpTested j then s.blockFire j 0 else s
    else if 0x2C00 ≤ off ∧ off < 0x3000 then s.mtrChanged off old w
    else if R.PRT_LIM 0 ≤ off ∧ off ≤ R.PRT_LIM 15 then s.prtStoreLim ((off - R.PRT_LIM 0) / 4) w
    else s

/-- A write at an offset that a rule ignores is logged with kind 5, or counted when it comes from the configuration image (R399, R425, R448). -/
def State.writeIgnored (s : State) (r : Requester) (off : Nat) (boot : Bool) : State :=
  if boot then
    ({ s with start := { s.start with ignored := incSat 65535 s.start.ignored } } : State).latch R.STR_CAUSE 4
  else s.logErr r 5 off

/-- A pending image takes effect, or is ignored, and is then logged at the offset last written (R394, R399, R448). (DEDUCED, log 7.) -/
def State.applyImage (s : State) (key : Nat) (r : Requester) (img : Word) (boot : Bool) (off : Nat) : State :=
  let w := blend (writeMask key) img (s.reg key)
  if s.mayPut r key w then
    match s.fieldRule key w with
    | some v => s.putImage key v
    | none => s.writeIgnored r off boot
  else s.logErr r 4 off

/-- A clear of LT fields takes effect (R459, R460): each takes its reset value; a clear of LATCH of a comparator goes by R53,
and a clear of VALID of the block latch clears the fields below it (R312). It came through the CLEAR alias (R399, R452).
(DEDUCED, log 7.) -/
def State.applyClear (s : State) (key : Nat) (r : Requester) (mask : Word) : State :=
  let off := keyOff key
  if s.mayPut r key (s.reg key) = false then s.logErr r 4 (0x8000 + off)
  else if R.MFE_CMP_CFG 0 ≤ off ∧ off ≤ R.MFE_CMP_STAT 15 ∧ (off - R.MFE_CMP_CFG 0) % 16 = 12 ∧ flag mask 31 then s.cmpClear ((off - R.MFE_CMP_CFG 0) / 16)
  else
    let mask := if off = R.PRT_BLOCK_LATCH ∧ flag mask 31 then maskOf 31 0 else mask
    s.setReg key (blend (s.clearable key mask) (resetWord key) (s.reg key))

/-- The first offset of the places through which a host writes the map directly in OFF, one word per home address: R28 lets it do so and
the spec names no place, so these lie outside every register. (DESIGN CHOICE, log 41.) -/
def mapWindow : Nat := 0x40000

/-- A requester may write the map: it is a part of CONVERTER (R393, R394). -/
def State.mayMap (s : State) : Requester → Bool
  | .mgmt => true
  | .hatch h => s.owns h 0

/-- A map entry of the configuration image, or of a host that writes it directly in OFF, takes effect, or is rejected (R26, R28, R394,
R425). R464 lists no register for the host's write. (DESIGN CHOICE, log 41.) -/
def State.applyMap (s : State) (h : Nat) (r : Requester) (w : BitVec 16) (boot : Bool) : State :=
  let m := mapWith s.sys.map h w.toNat
  if s.mayMap r = false then s.logErr r 4 (mapWindow + 4 * h)
  else if s.sys.conv = .off ∧ s.mapEntryOk w ∧ mapCountsOk m then { s with sys := { s.sys with map := m } }
  else s.writeIgnored r (mapWindow + 4 * h) boot

/-- The register has a pending image: the image. (DEDUCED, log 7.) -/
def pendImage (key : Nat) : List Pending → Option Word
  | [] => none
  | .image k _ w _ _ _ :: t => if k = key then some w else pendImage key t
  | _ :: t => pendImage key t

/-- The list without the pending image of a register. -/
def dropImage (key : Nat) (l : List Pending) : List Pending :=
  l.filter (fun p => match p with | .image k _ _ _ _ _ => k ≠ key | _ => true)

/-- The register file keeps one pending image per register (R448). (DEDUCED, log 7.) -/
def State.pendPut (s : State) (key : Nat) (r : Requester) (img : Word) (due : Epoch) (boot : Bool) (off : Nat) : State :=
  { s with regs := { s.regs with pend := dropImage key s.regs.pend ++ [.image key r img due boot off] } }

/-- The boundary at which a write accepted at a position of the present epoch takes effect (R447).
(DEDUCED, log 7; DEDUCED, log 8; DEDUCED, log 30.) -/
def State.dueOf (s : State) (ns : Nat) : Epoch :=
  if s.sys.counting = false then 0
  else if ns + (if s.sys.compat then 64 else 32) ≤ s.epNs then s.sys.epoch + 1 else s.sys.epoch + 2

/-- A pending image of class Start step takes effect, checked against the ownership of the requester that wrote it (R15, R394, R419,
R448). (DEDUCED, log 8.) -/
def State.takeStart (s : State) (off : Nat) : State :=
  s.regs.pend.foldl (fun s p => match p with
    | .image k r w _ boot o =>
      if k = off then ({ s with regs := { s.regs with pend := dropImage off s.regs.pend } } : State).applyImage off r w boot o else s
    | _ => s) s

/-- Offset of a write by its alias range: 0 normal, 1 SET, 2 CLEAR, 3 TOGGLE (R452). -/
def aliasOf (off : Nat) : Nat := off / 0x4000

/-- The RW and TV bits that an alias write makes of the bits x (R452). (DEDUCED, log 7.) -/
def aliasValue (way : Nat) (x v : Word) : Word :=
  match way with
  | 1 => x ||| v
  | 2 => x &&& ~~~v
  | 3 => x ^^^ v
  | _ => v


end Sys2Proof.Machine
end

