-- ==== Sys2Proof/Machine/Image.lean ====
section
/-! DEFINITION. The configuration image (R422–R425): its validity, the choice of a copy, and its sections as the writes they
make. -/

namespace Sys2Proof.Machine

/-- n bytes from byte o, least significant first. -/
def le (bs : List Byte) (o n : Nat) : Nat := ofBytesLE ((bs.drop o).take n)

/-- A section of an image: its TYPE, whether it may be skipped, and its payload (R424). -/
structure Section where
  type : Nat
  skip : Bool
  payload : List Byte
deriving DecidableEq, Repr

/-- The n sections that begin at byte o; none when one runs past IMAGE_LEN (R423, R425). -/
def sectionsAt (bs : List Byte) (len : Nat) : Nat → Nat → Option (List Section)
  | 0, _ => some []
  | n + 1, o =>
    let l := le bs (o + 4) 4
    if len < o + 16 + l then none
    else (sectionsAt bs len n (o + 16 + l)).map (fun t => ⟨le bs o 2, bit (le bs (o + 2) 2) 0, (bs.drop (o + 16)).take l⟩ :: t)

/-- An entry of a REG_WRITES section is allowed (R425): aligned, implemented, outside SAF, HAT and TRK, and of a register
without a WA field. -/
def regWriteOk (off : Nat) : Bool :=
  off % 4 = 0 && off < 0x4000 && implemented off && !(0x3000 ≤ off && off < 0x3400) && !(0x0600 ≤ off && off < 0x0800) &&
  !(0x3400 ≤ off && off < 0x3600) && keyMask off [.wa] == 0

/-- A section is allowed (R424, R425). -/
def Section.ok (x : Section) : Bool :=
  match x.type with
  | 1 => (List.range (x.payload.length / 8)).all (fun i => regWriteOk (le x.payload (8 * i) 2))
  | 2 => x.payload.length = 8192
  | 3 => true
  | 4 => x.payload.length = 80
  | 5 => true
  | _ => x.skip

/-- The sections of a copy together (R425): no more than one MAP and one OWNERSHIP. -/
def sectionsOk (xs : List Section) : Bool :=
  xs.all Section.ok && decide ((xs.filter (fun x => x.type = 2)).length ≤ 1) && decide ((xs.filter (fun x => x.type = 4)).length ≤ 1)

/-- The fault of a copy in the encoding of STR_IMAGE, 0 for a valid one (R423, R425, R436), and its sections. (DEDUCED, log 36.) -/
def imageFault (bs : List Byte) : Nat × List Section :=
  let len := le bs 8 4
  if le bs 0 4 ≠ 0x0D5C1A6E then (1, [])
  else if le bs 60 4 ≠ check32 (bs.take 60) then (2, [])
  else if le bs 4 2 ≠ 1 ∨ le bs 6 2 ≠ 0x4096 then (3, [])
  else if 4 * 2 ^ 20 < len ∨ len < 68 then (4, [])
  else if le bs (len - 4) 4 ≠ check32 ((bs.take (len - 4)).drop 64) then (5, [])
  else match sectionsAt bs len (le bs 16 2) 64 with
    | none => (6, [])
    | some xs => if sectionsOk xs then (0, xs) else (6, [])

/-- IMAGE_SEQ of a copy (R423). -/
def imageSeqOf (bs : List Byte) : Nat := le bs 12 4

/-- The copy applied: 0 none, 1 A, 2 B; at equal IMAGE_SEQ copy A (R422). -/
def imageChoice (a b : List Byte) : Nat :=
  if (imageFault a).1 = 0 ∧ ((imageFault b).1 ≠ 0 ∨ imageSeqOf b ≤ imageSeqOf a) then 1
  else if (imageFault b).1 = 0 then 2 else 0

/-- A write that the image makes, as a management-port write (R425): a reserved bit is counted, a register of class Receipt takes
it at once, and any other holds it for E(0) or for its start step. (DEDUCED, log 36.) -/
def State.bootWrite (s : State) (off : Nat) (w : Word) : State :=
  let key := s.keyFor .mgmt off
  let s := if w &&& keyMask off [.rsv] ≠ 0 then s.logErr .mgmt 1 off else s
  if writeMask off = 0 then s
  else if ownReg off then s.applyImage key .mgmt w true off
  else s.pendPut key .mgmt w 0 true off

/-- The writes of one section (R424). (DEDUCED, log 36.) -/
def State.sectionApply (s : State) (x : Section) : State :=
  let at_ (n i : Nat) : Nat := le x.payload (n * i) n
  match x.type with
  | 1 => (List.range (x.payload.length / 8)).foldl (fun s i =>
      s.bootWrite (le x.payload (8 * i) 2) (BitVec.ofNat 32 (le x.payload (8 * i + 4) 4))) s
  | 2 =>
    let es := (List.range 4096).filterMap (fun h => if at_ 2 h = 0x000F then none
      else some (Pending.map h .mgmt (BitVec.ofNat 16 (at_ 2 h)) 0 true))
    { s with regs := { s.regs with pend := s.regs.pend ++ es } }
  | 3 => (List.range (x.payload.length / 4)).foldl (fun s i =>
      let e := at_ 4 i
      s.pendPut (profKey (bits e 31 28) (bits e 27 27) (bits e 26 23) (bits e 22 21)) .mgmt (BitVec.ofNat 32 (bits e 20 1 * 32)) 0 true R.EDG_PROF_DATA) s
  | 4 => ((List.range 80).filter (fun k => k / 4 ≠ 3 || at_ 1 k ≠ 0)).foldl (fun s k => s.pendPut (R.HAT_OWN k) .mgmt (BitVec.ofNat 32 (at_ 1 k)) 0 true (R.HAT_OWN k)) s
  | _ => s

end Sys2Proof.Machine
end

