-- ==== Sys2Proof/Machine/Start.lean ====
section
/-! DEFINITION. The Start Sequencer (R416–R421): the steps, their records and outcomes, RESTART, and the loss of the
always-on supply. -/

namespace Sys2Proof.Machine

/-- Sets word w of the present start record (R421). -/
def State.recSet (s : State) (w v : Nat) : State :=
  { s with start := { s.start with record := smSet 0 s.start.record w (BitVec.ofNat 32 v) } }

/-- The 128 words of the present start record (R421). -/
def State.recWords (s : State) : List Nat := (List.range 128).map (fun w => (smGet 0 s.start.record w).toNat)

/-- A start record as it is appended to the ring: its check in word 126 and its commit word in word 127 (R421, R427). -/
def ringRecord (ws : List Nat) : List Nat :=
  let c := crcBits 32 0x04C11DB7 0xFFFFFFFF ((ws.take 126).flatMap (msbBits 32))
  ws.take 126 ++ [c, 2 ^ 32 - 1 - ws.getD 125 0]

/-- The last valid working record goes to the ring in place of the oldest (R421). -/
def State.ringAppend (s : State) : State :=
  match newestSlot s.trk.startRec with
  | some x => if s.trk.writeProt then s.countSuppressed 1 else
      { s with trk := { s.trk with waitRing := s.trk.waitRing ++ [ringRecord x.words] } }
  | none => s

/-- A new start-up begins: it is counted, and its record is empty (R421, R426, R436). (DEDUCED, log 37.) -/
def State.startCount (s : State) : State :=
  let n := incSat 65535 s.start.starts
  let s := { s with start := { s.start with starts := n, record := [], retries := 0, failCode := 0 } }
  (s.recSet 125 n).trkAsk .directory s.directoryWords

/-- An object of which both slots have been written and neither is valid (R417). -/
def TrkObj.bad (o : TrkObj) : Bool := !o.s0.valid && !o.s1.valid && (o.s0.seq ≠ 0 || o.s1.seq ≠ 0)

/-- The contents of a region are lost: neither slot is valid. -/
def TrkObj.lose (o : TrkObj) : TrkObj :=
  { s0 := { seq := max 1 o.s0.seq, valid := false, words := [] }, s1 := { seq := max 1 o.s1.seq, valid := false, words := [] } }

/-- The Trunk with the regions lost that the outside names by offset (R426). -/
def TrkSt.lose (t : TrkSt) (off : Nat) : TrkSt :=
  if off = 0x0000 then { t with directory := t.directory.lose }
  else if off = 0x1000 then { t with ring := t.ring.map (fun _ => []) }
  else if off = 0x2000 then { t with bands := t.bands.lose }
  else if off = 0x3000 then { t with safety := t.safety.lose }
  else if off = 0x5000 then { t with meter := t.meter.lose, sealState := t.sealState.lose }
  else if off = 0x7000 then { t with repair := t.repair.lose }
  else if off = 0x8000 then { t with startRec := t.startRec.lose }
  else t

/-- The regions that fail their checks when they are read, by offset (R417, R436). -/
def TrkSt.failing (t : TrkSt) : List Nat :=
  ([(0x0000, t.directory), (0x2000, t.bands), (0x3000, t.safety), (0x5000, t.meter), (0x7000, t.repair), (0x8000, t.startRec)].filter
    (fun x => x.2.bad)).map Prod.fst

/-- Step TRUNK (R417): an absent directory formats the Trunk, a directory with both slots bad write-protects it; each region
that fails its checks is recorded; ERA, the start-up count and the repair map are restored. -/
def State.stepTrunk (s : State) : State × Nat × Nat :=
  let s : State := { s with trk := s.start.inputs.lostRegions.foldl TrkSt.lose s.trk }
  let s := s.trk.failing.foldl (fun s off => (s.latch R.TRK_CAUSE 1).binLog 0xD1 [off]) s
  let absent := (newestSlot s.trk.directory).isNone && !s.trk.directory.bad
  let bad : Bool := s.trk.directory.bad
  let s : State := if absent then { s.formatTrunk with trk := { s.formatTrunk.trk with formatted := true } } else s
  let s : State := if bad then { s with trk := { s.trk with writeProt := true } } else s
  let dir := match newestSlot s.trk.directory with | some x => x.words | none => []
  let rows := match newestSlot s.trk.repair with | some x => x.words | none => []
  let s : State := { s with
    sys := { s.sys with era := dir.getD 2 0 }
    start := { s.start with starts := dir.getD 3 0 }
    cel := { s.cel with repaired := rows } }
  let s := s.ringAppend.startCount
  let code : Nat := match absent, bad with | true, _ => 1 | false, true => 2 | false, false => 0
  (s, if code = 0 then 1 else 2, code)

/-- Step SAFETY: the safety set is loaded and the Safety Core started; the pending set is loaded from the set in force (R337,
R346, R352, R356, R417). -/
def State.stepSafety (s : State) : State × Nat × Nat :=
  let s := { s with saf := { s.saf with running := true, restartWait := true } }.safLoad
  let s := s.putSafetyPending s.safSet
  if s.saf.cfgValid then (s, 1, 0) else (s, 2, 3)

/-- The bytes of the boot flash from a whole MiB (R422). -/
def State.flashAt (s : State) (mib : Nat) : List Byte :=
  match s.start.inputs.flash.find? (fun x => x.1 = mib) with | some x => x.2 | none => []

/-- The reads of one copy (R422): the header on one line with command 0x13, and the rest after a good header, with command 0x6C on four
lines where FLAGS [0] asks for it. (DEDUCED, log 36.) -/
def State.flashReads (s : State) (mib : Nat) : State :=
  let bs := s.flashAt mib
  let s := s.emit (.flashRead 0x13 (mib * 2 ^ 20) 64)
  let f := (imageFault bs).1
  if 1 ≤ f ∧ f ≤ 4 then s
  else s.emit (.flashRead (if bit (le bs 18 2) 0 then 0x6C else 0x13) (mib * 2 ^ 20 + 64) (le bs 8 4 - 64))

/-- Step IMAGE: copy A at byte 0 and copy B at B_OFFSET are read, one is selected and its sections are applied in order (R417, R422,
R425). -/
def State.stepImage (s : State) : State × Nat × Nat :=
  let s := (s.flashReads 0).flashReads (s.rf R.STR_CFG 23 16)
  let a := s.flashAt 0
  let b := s.flashAt (s.rf R.STR_CFG 23 16)
  let c := imageChoice a b
  let img := if c = 1 then a else b
  let s := { s with start := { s.start with
    copy := c, aFault := (imageFault a).1, bFault := (imageFault b).1, ignored := 0, imageSeq := if c = 0 then 0 else imageSeqOf img } }
  let s := if c = 0 then s.latch R.STR_CAUSE 3 else (imageFault img).2.foldl State.sectionApply s
  let s := if c = 2 then s.latch R.STR_CAUSE 4 else s
  let s := (s.recSet 1 s.start.imageSeq).recSet 2 c
  (s, if c = 0 ∨ (c = 2 ∧ (imageFault a).1 ≠ 0) then 2 else 1, if c = 0 then 5 else if c = 2 ∧ (imageFault a).1 ≠ 0 then 4 else 0)

/-- START_V is sent to the regulators, and each is read (R405, R407, R417). (DEDUCED, log 36.) -/
def State.sendStart (s : State) : State :=
  let s := { s with pwr := { s.pwr with vcoreEn := true, setMv := s.rf R.PWR_VCORE_CFG 9 0 } }
  let s := s.regulators.foldl (fun s r => s.sendVout r (s.start.inputs.acks.getD r true)) s
  let s := s.regulators.foldl (fun s r => s.pmbSend r 0x8B none (s.start.inputs.vout.getD r none).isSome) s
  match s.start.inputs.vout.getD 0 none with
  | some v => { s with pwr := { s.pwr with measMv := (nearest (s.voutVolts v * 1000)).toNat } }
  | none => s

/-- The repair map is applied: its rows are spare rows in use, beside those of a new part (R152, R169, R417). -/
def State.applyRepairs (s : State) : State :=
  s.cel.repaired.foldl (fun s k =>
    let b := k / 2 ^ 20
    s.setRf R.CEL_SPARE (8 * b + 7) (8 * b) (min 32 (s.spareUsed b + 1))) s

/-- Every regulator's reading lies within VTOL (R417). -/
def State.voutsOk (s : State) : Bool :=
  s.regulators.all (fun r => match s.start.inputs.vout.getD r none with | some v => s.voutNear v | none => false)

/-- The domains of step n as they are wanted (R403). -/
def State.stepDomains (s : State) (n : Nat) : List Nat :=
  match n with
  | 5 => [49]
  | 6 => [32] ++ (([1, 2, 3] : List Nat).filter s.bankWanted).map (32 + ·) ++ (if s.domain 32 then [36, 37, 38, 39, 40, 41, 42, 43, 44] else [])
  | 7 => if s.domain 46 then [46, 45] else [46]
  | 8 => (List.range 32).filter s.groupWanted
  | 9 => (([0, 1] : List Nat).filter s.hatchesWanted).map (47 + ·)
  | _ => []

/-- The domains of step n are switched on, each while those it needs are on (R403). -/
def State.stepSwitch (s : State) (n : Nat) : State := (s.stepDomains n).foldl State.switchOn s

/-- Step n can end: its domains are ready. -/
def State.stepReady (s : State) (n : Nat) : Bool := (s.stepDomains n).all s.domain

/-- The step in progress, if it ends now: the state after it, its outcome (1 done, 2 alternative, 3 failed) and FAIL_CODE
(R417). (DEDUCED, log 36.) -/
def State.stepTry (s : State) : Option (State × Nat × Nat) :=
  match s.start.step with
  | 1 => some s.stepTrunk
  | 2 => some s.stepSafety
  | 3 => some s.stepImage
  | 4 =>
    if s.start.inputs.powerGood && s.voutsOk then some (s, 1, 0) else none
  | 5 => if s.sys.counting then some (s, 1, 0) else none
  | 6 =>
    if s.stepReady 6 = false then none
    else if s.start.inputs.badBanks.any (fun b => b < 4 && s.domain (32 + b)) then some (s.applyRepairs, 3, 9)
    else some (s.applyRepairs, 1, 0)
  | 7 => if s.stepReady 7 then some (s.mtrRestore, 1, 0) else none
  | 8 =>
    if s.stepReady 8 = false then none
    else if s.start.inputs.badLanes.any (fun l => s.laneEnabled l && s.domain (l / 16)) then some (s, 2, 10) else some (s, 1, 0)
  | 9 => if s.stepReady 9 then some (s, 1, 0) else none
  | _ => some (s, 1, 0)

/-- A step ends: its words of the start record, its Bin record, and the causes (R417, R421, R431, R436). (DEDUCED, log 36.) -/
def State.stepEnd (s : State) (outcome code : Nat) : State :=
  let n := s.start.step
  let shown := if outcome = 1 ∧ s.start.wasHeld then 4 else outcome
  let kept := if code = 0 then fld (smGet 0 s.start.record (2 + n)) 23 16 else code
  let w := shown * 2 ^ 24 + kept * 2 ^ 16
  let s := { s with start := { s.start with
    active := false, wasHeld := false, failCode := if code = 0 then s.start.failCode else code
    state := if outcome = 3 then .failed else if n = 10 then .complete else .running } }
  let s := ((s.recSet 0 ((if 5 ≤ n then s.sys.era else 0) * 2 ^ 16 + b2n s.start.restart * 2 ^ 8 + n)).recSet (2 + n) w).recSet
    (15 + n) (s.start.aoNs / 1000)
  let s := s.binLog (0xB0 + n - 1) [w]
  let s := if outcome = 2 ∨ outcome = 3 then s.latch R.STR_CAUSE 0 else s
  let s := if n = 10 then s.latch R.STR_CAUSE 2 else s
  s.trkAsk .startRecord s.recWords

/-- A step begins: the writes of class Start step take effect, and its domains are switched on (R417, R419). -/
def State.stepBegin (s : State) (n : Nat) : State :=
  let s := { s with start := { s.start with step := n, active := true, retries := 0 } }
  let s := s.stepSwitch n
  if n = 4 then s.sendStart
  else if n = 5 then s.refStart
  else s

/-- The registers outside SAF and TRK return to their reset values; pending writes other than those of class Start step are
discarded, and with a new start-up the events of the epoch before it are over (R11, R15, R419, R451). (DEDUCED, log 8.) -/
def State.regsRestart (s : State) : State :=
  let keep (x : Nat × Word) : Bool := 0x3000 ≤ keyOff x.1 && keyOff x.1 < 0x3600
  let s := { s with regs := { s.regs with
    a := s.regs.a.filter keep, b := s.regs.b.filter keep, c := s.regs.c.filter keep
    pend := s.regs.pend.filter (fun p => match p with | .image k _ _ _ boot _ => startClass k && !boot | _ => false)
    ltNow := [] } }
  if s.start.inputs.bootHold then s.setRf R.STR_CFG 31 28 3 else s

/-- RESTART takes effect: a metering save, every domain off, every Hatch reset, and the steps run again from IMAGE (R403, R404,
R416, R421, R451). The Safety Core, the Trunk and domain AO keep running. -/
def State.restartNow (s : State) (inp : StartIn) : State :=
  let s := if s.mtr.on_ then s.mtrSave false else s
  let s := ([0, 1, 2, 3] : List (Fin 4)).foldl (fun s h => s.hatchReset h .perst) s
  let s : State := { s with
    sys := { era := s.sys.era, tj := s.sys.tj, compat := s.sys.compat }
    mfe := {}, lnk := {}, cel := { repaired := s.cel.repaired }, ctl := {}, grd := {}, edg := {}, prt := {}, mtr := {}
    pwr := { pfail := s.pwr.pfail }, ref := {}, trk := { s.trk with formatted := false }, dbg := { instr := s.dbg.instr, boundary := s.dbg.boundary, captured := s.dbg.captured, capture := s.dbg.capture }
    start := { s.start with
      step := 2, active := false, wasHeld := false, state := .running, restart := true, restartWanted := none
      inputs := { inp with bootHold := s.start.inputs.bootHold } } }
  s.ringAppend.regsRestart.startCount

/-- The step in progress ends, and a RESTART accepted while it ran takes effect (R417, R420). -/
def State.stepLeave (s : State) (outcome code : Nat) : State :=
  let s := s.stepEnd outcome code
  match s.start.restartWanted with | some inp => s.restartNow inp | none => s

/-- The Sequencer switches on the domains whose needs are met, and runs until a step must wait, is held or has failed, or DONE is
reached (R403, R417, R418, R420): at most n turns. -/
def State.startRun : Nat → State → State
  | 0, s => s
  | n + 1, s =>
    if s.start.powered = false ∨ s.start.state ≠ .running then s
    else if s.start.active then
      if 5 < s.start.step && s.ref.muted then s else
        let s := s.stepSwitch s.start.step
        match s.stepTry with
        | none => s
        | some (s, outcome, code) => State.startRun n (s.stepLeave outcome code)
    else
      let k := s.start.step + 1
      let s := ([R.STR_CFG, R.PWR_PMB_CFG, R.REF_CFG] : List Nat).foldl State.takeStart s
      if s.rf R.STR_CFG 31 28 = k ∧ s.start.wasHeld = false then
        ({ s with start := { s.start with state := .held } } : State).latch R.STR_CAUSE 1
      else State.startRun n (s.stepBegin k)

/-- The Sequencer with turns enough for a start-up and a RESTART. -/
def State.sequence (s : State) : State := s.startRun 64

/-- POWER_ON: VAON and VIO are good and PORST_N is released; the steps run from TRUNK (R416, R417, R418). -/
def execPowerOn (inp : StartIn) (s : State) : Out :=
  if s.start.powered then .next s else
    let s : State := { s with start := { powered := true, inputs := inp, aoNs := s.start.aoNs }, sys := { s.sys with tj := inp.tj } }
    let s := if inp.bootHold then s.setRf R.STR_CFG 31 28 3 else s
    .next s.sequence

/-- CONTINUE from a requester: it leaves HELD (R418, R436). With EXTEST, HIGHZ or CLAMP in force it is refused (R482). -/
def State.startContinue (s : State) (r : Requester) : State :=
  if r = .mgmt ∧ s.start.state = .held ∧ s.tapTest = false then
    ({ s with start := { s.start with state := .running, wasHeld := true } } : State).sequence
  else s.logErr r 5 R.STR_ACTION

/-- CONTINUE by a requester. -/
def execContinueStart (r : Requester) (s : State) : Out := .next (s.startContinue r)

/-- RESTART from a requester: from the management port with its key, in OFF; during a step it takes effect when the step ends
(R416, R420, R436). (DEDUCED, log 36.) -/
def State.startRestart (s : State) (r : Requester) (key : Nat) (inp : StartIn) : State :=
  if r = .mgmt ∧ key = 0x7E81 ∧ s.sys.conv = .off ∧ s.start.powered then
    let s := s.binLog 0xBA []
    if s.start.state = .running ∧ s.start.active then { s with start := { s.start with restartWanted := some inp } }
    else (s.restartNow inp).sequence
  else s.logErr r 5 R.STR_ACTION

/-- RESTART by a requester, with what the start-up finds outside the device. -/
def execRestart (r : Requester) (key : Nat) (inp : StartIn) (s : State) : Out := .next (s.startRestart r key inp)

/-- START_STEP_TIMEOUT: SUPPLIES is tried again with what the outside then shows, three times, or fails; REFERENCE, whose calibration has
then run, starts again from the stored band and records code 8 once (R411, R417). (DEDUCED, log 36.) -/
def execStartStepTimeout (inp : StartIn) (s : State) : Out :=
  if s.start.state ≠ .running ∨ s.start.active = false then .next s
  else if s.start.step = 4 then
    if s.start.retries < 3 then
      let s := { s with start := { s.start with
        retries := s.start.retries + 1, inputs := { s.start.inputs with powerGood := inp.powerGood, acks := inp.acks, vout := inp.vout } } }
      .next s.sendStart.sequence
    else .next (s.stepLeave 3 (if s.start.inputs.powerGood then 7 else 6)).sequence
  else if s.start.step = 5 ∧ s.sys.counting = false then
    let s := s.calibrateUnlocked.refStart
    if s.start.retries = 0 then
      .next (({ s with start := { s.start with retries := 1, failCode := 8 } } : State).recSet 7 (8 * 2 ^ 16))
    else .next s
  else .next s

/-- DOMAIN_READY: a domain being switched on is ready, and a step that waits for it goes on (R404, R417). (DEDUCED, log 36.) -/
def execDomainReady (d : Nat) (s : State) : Out :=
  if bit s.pwr.switching d then .next (s.domainReady d).sequence else .next s

/-- What remains when the supplies or PORST_N take the device down: the Trunk, without the write in progress and what waits
(R367, R427, R476). (DEDUCED, log 36.) -/
def State.downState (s : State) : State :=
  let t := s.trk
  let t := match t.busy with
    | some (.obj i _) => t.putObj i ((t.obj i).write [] false)
    | some (.ring _) => { t with ring := ([] :: t.ring).take 7 }
    | some (.bin _) => t.binGiveWay
    | none => t
  let t := { t with
    busy := none, waiting := [], waitRing := [], queue := [], coalescing := false, writeProt := false, formatted := false, suppressed := [] }
  { trk := t, freeCount := s.freeCount, pending := s.pending }

/-- LOSS_OF_VAON: the always-on domain loses its state; every output goes to its reset state (R326, R367, R476). -/
def execLossOfVaon (s : State) : Out := .next s.downState

/-- PORST_N_ASSERT: PORST_N is driven low, and the device holds its outputs in their reset states until POWER_ON (R476). -/
def execPorstNAssert (s : State) : Out := .next s.downState

/-- STR_STATUS (R436). -/
def State.strStatus (s : State) : Word :=
  BitVec.ofNat 32 (s.start.step * 2 ^ 28 + s.start.state.code * 2 ^ 26 + b2n s.start.restart * 2 ^ 24 + s.start.failCode * 2 ^ 16 + s.start.starts)

/-- STR_IMAGE (R436). -/
def State.strImage (s : State) : Word :=
  BitVec.ofNat 32 (s.start.copy * 2 ^ 30 + s.start.aFault * 2 ^ 26 + s.start.bFault * 2 ^ 22 + s.start.ignored)

/-- STR_REC_DATA for a requester: the word that its STR_REC_ADDR names (R421, R436). (DEDUCED, log 37.) -/
def State.strRecData (s : State) (r : Requester) : Word :=
  let a := s.reg (ownKey r R.STR_REC_ADDR)
  let w := fld a 6 0
  if fld a 10 8 = 0 then smGet 0 s.start.record w
  else BitVec.ofNat 32 ((s.trk.ring.getD (fld a 10 8 - 1) []).getD w 0)

end Sys2Proof.Machine
end

