-- ==== Sys2Proof/Machine/RegRead.lean ====
section
/-! DEFINITION. What a read of a register returns (R450): the value in force of its stored fields, and its live fields as the
device state stands (R11), the two block by block. -/

namespace Sys2Proof.Machine

/-- The summary word of R434: bit b is the OR of the enabled causes of block b. -/
def State.irqSum (s : State) : Nat :=
  let on_ (c e : Nat) : Bool := s.reg c &&& s.reg e != 0
  ofBits [on_ R.PWR_CAUSE R.PWR_CAUSE_EN, on_ R.STR_CAUSE R.STR_CAUSE_EN, on_ R.REF_CAUSE R.REF_CAUSE_EN,
    (List.range 4).any (fun h => on_ (bankKey h R.HAT_CAUSE) (bankKey h R.HAT_CAUSE_EN)),
    on_ R.CEL_CAUSE R.CEL_CAUSE_EN,
    on_ R.LNK_CAUSE R.LNK_CAUSE_EN || on_ R.LNK_STR_CAUSE R.LNK_STR_CAUSE_EN,
    on_ R.EDG_CAUSE R.EDG_CAUSE_EN, on_ R.CTL_CAUSE R.CTL_CAUSE_EN, on_ R.GRD_CAUSE R.GRD_CAUSE_EN,
    on_ R.PRT_CAUSE R.PRT_CAUSE_EN, on_ R.MFE_CAUSE R.MFE_CAUSE_EN, on_ R.MTR_CAUSE R.MTR_CAUSE_EN,
    on_ R.SAF_CAUSE R.SAF_CAUSE_EN, on_ R.TRK_CAUSE R.TRK_CAUSE_EN, on_ R.DBG_CAUSE R.DBG_CAUSE_EN]

/-- IRQ_N is driven low (R434). -/
def State.irqLow (s : State) : Bool := BitVec.ofNat 32 s.irqSum &&& s.reg R.STR_IRQ_EN != 0

/-- The live words of the SYS, PWR, STR and REF blocks, by the base and index of their registers (R39, R436). -/
def State.sysLive (s : State) (r : Requester) (base i : Nat) : Option Word :=
  if base = R.SYS_PLAN then
    let differs : Bool := match pendImage R.SYS_PLAN s.regs.pend with | some w => flag w 0 != s.sys.compat | none => false
    some (setFlag (s.reg R.SYS_PLAN) 8 differs)
  else if base = R.SYS_EPOCH_LO then some (BitVec.ofNat 32 (lowE 32 s.sys.epoch))
  else if base = R.SYS_ERA then some (BitVec.ofNat 32 (b2n s.ref.holdoverNow * 2 ^ 16 + s.sys.era % 2 ^ 16))
  else if base = R.SYS_CONV_STATE then some s.convStateWord
  else if base = R.SYS_ARM_STATUS 0 then some (s.armStatus i)
  else if base = R.PWR_STATUS then some s.pwrStatus
  else if base = R.PWR_VCORE then some s.pwrVcore
  else if base = R.PWR_DRAW then some (toF32 (rnd [s.pwr.draw]))
  else if base = R.PWR_DOM_LO then some (BitVec.ofNat 32 (bits s.pwr.ready 31 0))
  else if base = R.PWR_DOM_HI then some (BitVec.ofNat 32 (bits s.pwr.ready 49 32))
  else if base = R.PWR_TEMP then some (setFld (s.reg R.PWR_TEMP) 15 0 (unsigned 16 s.sys.tj))
  else if base = R.STR_STATUS then some s.strStatus
  else if base = R.STR_IMAGE then some s.strImage
  else if base = R.STR_IMAGE_SEQ then some (BitVec.ofNat 32 s.start.imageSeq)
  else if base = R.STR_REC_DATA then some (s.strRecData r)
  else if base = R.STR_IRQ_SUM then some (BitVec.ofNat 32 s.irqSum)
  else if base = R.REF_STATUS then some s.refStatus
  else if base = R.REF_HOLDOVER then some (BitVec.ofNat 32 (min (2 ^ 32 - 1) s.ref.holdoverEp))
  else if base = R.REF_BAND then some (BitVec.ofNat 32 (s.ref.band % 256 * 2 ^ 16 + s.ref.range % 4 * 2 ^ 8 + b2n s.ref.calibrated))
  else none

/-- The Hatch whose bank a requester sees. -/
def State.bankHatch (s : State) : Requester → Fin 4
  | .hatch h => h
  | .mgmt => ⟨s.rf R.HAT_MGMT_SEL 1 0 % 4, Nat.mod_lt _ (by decide)⟩

/-- The Hatch whose bank a requester sees (R372, R401). -/
def State.bankShown (s : State) : Requester → Nat
  | .hatch h => h.val
  | .mgmt => s.rf R.HAT_MGMT_SEL 1 0

/-- The ring that a requester's HAT_RING_SEL names, in the bank it sees (R401). -/
def State.ringShown (s : State) (r : Requester) : RingSt :=
  let x := s.ringSel r
  (s.hat (s.bankShown r)).ring x.1 x.2

/-- The live words of the HAT block (R401): a read of HAT_MGMT_SEL from a Hatch gives 0. -/
def State.hatLive (s : State) (r : Requester) (base i : Nat) : Option Word :=
  let h := s.bankShown r
  if base = R.HAT_STATUS then some (s.hatStatus h)
  else if base = R.HAT_RING_BASE_LO then some (BitVec.ofNat 32 (bits (s.ringShown r).base.toNat 31 0))
  else if base = R.HAT_RING_BASE_HI then some (BitVec.ofNat 32 (bits (s.ringShown r).base.toNat 63 32))
  else if base = R.HAT_RING_CFG then some (s.ringShown r).cfgWord
  else if base = R.HAT_RING_STAT then some (s.ringShown r).statWord
  else if base = R.HAT_EV_HEAD then some (BitVec.ofNat 32 (s.hat h).ev.bell)
  else if base = R.HAT_EV_STAT then some (BitVec.ofNat 32 (min 65535 (s.hat h).lost))
  else if base = R.HAT_OR_TAIL 0 then some (BitVec.ofNat 32 (smGet {} (s.hat h).or_ i).bell)
  else if base = R.HAT_CR_HEAD 0 then some (BitVec.ofNat 32 (smGet {} (s.hat h).cr i).bell)
  else if base = R.HAT_MGMT_SEL ∧ r ≠ .mgmt then some 0
  else none

/-- Bit b of word w of a bit map over things numbered from 0. -/
def mapWord (f : Nat → Bool) (w : Nat) : Word := BitVec.ofNat 32 (ofBits ((List.range 32).map (fun b => f (32 * w + b))))

/-- The live words of the CEL and LNK blocks (R99, R135, R169). A bit of a lane, or of a pair, whose lane group is off reads 0 (R437). -/
def State.celLive (s : State) (r : Requester) (base i : Nat) : Option Word :=
  let slot := s.rf (ownKey r R.CEL_CRATE_SEL) 1 0
  if base = R.CEL_SNAP_CREDIT 0 then
    some (BitVec.ofNat 32 (min 255 (s.snap i).queue.length * 2 ^ 24 + (s.snap i).credit % 2 ^ 18))
  else if base = R.CEL_CRATE_STAT then some (s.crateStat slot)
  else if base = R.CEL_CRATE_EPOCH then some (s.crateEpoch slot)
  else if base = R.CEL_CRATE_PARTS then some (s.crateParts slot)
  else if base = R.CEL_CRATE_FAIL then some (s.crateFail slot)
  else if base = R.LNK_LANE_ACT 0 then some (mapWord s.laneActive i)
  else if base = R.LNK_BRIDGE_OK 0 then some (mapWord (fun m => (s.pair m).bridgeOk && s.domain (m / 8)) i)
  else if base = R.LNK_QUAR 0 then some (mapWord (fun l => (s.lane l).quar && s.domain (l / 16)) i)
  else if base = R.LNK_PAIR_BRIDGED 0 then some (mapWord (fun m => (s.pair m).state ≠ .normal && s.domain (m / 8)) i)
  else none

/-- CTL_RC_STAT[t] (R212). -/
def State.rcStat (s : State) (t : Nat) : Word :=
  let used := (List.range 64).any (fun k => (s.slot k).ran && s.bankType k (s.activeBank k) = 2 && s.bankTable k (s.activeBank k) = t)
  let x := s.rcTable t
  BitVec.ofNat 32 (b2n used * 2 ^ 31 + s.rf (R.CTL_RC_STAT t) 30 30 * 2 ^ 30 + unsigned 7 x.z * 2 ^ 16 + x.bin % 1024)

/-- CTL_PL_STAT[c] (R212). -/
def State.plausStat (s : State) (c : Nat) : Word :=
  let p := s.plaus c
  BitVec.ofNat 32 (b2n p.fail * 2 ^ 31 + s.rf (R.CTL_PL_STAT c) 30 30 * 2 ^ 30 + p.last.code * 2 ^ 28 + p.worst % 8 * 2 ^ 16 +
    s.rf (R.CTL_PL_STAT c) 15 0)

/-- The live words of the EDG and CTL blocks (R212, R283). -/
def State.ctlLive (s : State) (r : Requester) (base i : Nat) : Option Word :=
  let shown := s.slot (s.slotShown r)
  let arm := s.grp i
  if base = R.EDG_STATUS then some s.edgStatus
  else if base = R.EDG_TBL_DATA then some (s.edgTable r)
  else if base = R.CTL_STATUS then
    some (setFld (setFlag (s.reg R.CTL_STATUS) 31 s.ctl.stopping.isSome) 22 16 s.ctl.running)
  else if base = R.CTL_COMPOSE_STAT then some (setFld (s.reg R.CTL_COMPOSE_STAT) 11 0 s.ctl.clamp)
  else if base = R.CTL_L_STATE then some (s.slotStatus (s.slotShown r))
  else if base = R.CTL_L_R then some (toF32 shown.r)
  else if base = R.CTL_L_Y then some (toF32 shown.y)
  else if base = R.CTL_L_I then some (toF32 shown.i)
  else if base = R.CTL_L_U then some (toF32 shown.u)
  else if base = R.CTL_RC_STAT 0 then some (s.rcStat i)
  else if base = R.CTL_GEN_STAT 0 then
    let g := s.gen i
    some (BitVec.ofNat 32 (b2n g.running * 2 ^ 31 + g.cause * 2 ^ 28 + lowE 16 g.start))
  else if base = R.CTL_PL_STAT 0 then some (s.plausStat i)
  else if base = R.CTL_PL_RES 0 then some (toF32 (s.plaus i).worstRes)
  else if base = R.CTL_CAP_STAT then
    let c := s.ctl.cap
    some (BitVec.ofNat 32 ((if c.refused then 6 else c.state.code) * 2 ^ 29 + c.trig % 2 ^ 12 * 2 ^ 16 + (c.samples.getD 0 []).length % 2 ^ 13))
  else if base = R.CTL_CAP_DATA then some (s.capData r)
  else if base = R.CTL_ARM_W 0 then some (toF32 arm.w)
  else if base = R.CTL_ARM_VSUM 0 then some (toF32 arm.vSum)
  else if base = R.CTL_ARM_VNEG 0 then some (toF32 arm.vNeg)
  else if base = R.CTL_ARM_CNT 0 then some (BitVec.ofNat 32 (arm.nW % 2 ^ 11 * 2 ^ 16 + arm.nStale % 2 ^ 11))
  else none

/-- The live words of the GRD and PRT blocks (R247, R312). -/
def State.grdLive (s : State) (base i : Nat) : Option Word :=
  if base = R.GRD_STATUS then some s.grdStatus
  else if base = R.GRD_ANGLE then some (BitVec.ofNat 32 s.phi)
  else if base = R.GRD_STEP then some (BitVec.ofNat 32 s.stepForce)
  else if base = R.GRD_CRV_LIVE then some (BitVec.ofNat 32 (s.crvViol * 2 ^ 8 + s.crvActive))
  else if base = R.GRD_CH_P then some (toF32 s.grd.pCh)
  else if base = R.GRD_CH_THETA then some (toF32 s.grd.theta)
  else if base = R.GRD_OUT 0 then some (toF32 (smGet 0 s.grd.out i))
  else if base = R.PRT_STATUS then some s.prtStatus
  else if base = R.PRT_VOTE then some s.prtVote
  else if base = R.PRT_TRIP_CFG 0 then some (setFlag (s.reg (R.PRT_TRIP_CFG i)) 0 (smFind s.prt.trips i).isSome)
  else if base = R.PRT_RAISED 0 then
    some ((bitmap72 ((List.range 72).filter (fun k => s.prt.a.raised.contains k || s.prt.b.raised.contains k))).getD i 0)
  else if base = R.PRT_SRC_STAT 0 then some (s.srcStat i)
  else none

/-- An action of a register waits for its boundary (R447): a write with bit b set. -/
def State.actWaits (s : State) (off b : Nat) : Bool :=
  s.regs.pend.any (fun p => match p with | .action _ o w _ => o = off && flag w b | _ => false)

/-- The live words of the MFE, MTR, SAF, TRK and DBG blocks (R62, R335, R368, R436, R487). A safety parameter is shown from the
set that the requester's SAF_VIEW names (R352). -/
def State.safLive (s : State) (r : Requester) (off base i : Nat) : Option Word :=
  if base = R.MFE_CMP_STAT 0 then
    some (setFlag (setFlag (s.reg (R.MFE_CMP_STAT i)) 29 (smGet {} s.mfe.cmps i).out) 28 (s.cmpTested i))
  else if base = R.MTR_STATUS then some s.mtrStatus
  else if base = R.MTR_SEAL_STAT then some (BitVec.ofNat 32 (b2n s.mtr.isSealed * 2 ^ 31 + s.mtr.changes % 2 ^ 16))
  else if base = R.MTR_ACTION_STAT then some (if s.actWaits R.MTR_ACTION 31 then 1 else s.reg R.MTR_ACTION_STAT)
  else if base = R.MTR_CHECK then some (BitVec.ofNat 32 s.mtr.check)
  else if base = R.MTR_PULSE_STAT 0 then some (s.pulseStat i)
  else if base = R.MTR_TOTAL_HI 0 ∨ base = R.MTR_FRAC 0 ∨ base = R.MTR_WIDE 0 then some (s.reg (ownKey r off))
  else if base = R.SAF_STATUS then some s.safStatus
  else if base = R.SAF_INPUTS then some s.safInputs
  else if base = R.SAF_CHAN then some s.safChan
  else if base = R.SAF_OUTPUTS then some s.safOutputs
  else if base = R.SAF_CHECK then some (BitVec.ofNat 32 s.saf.check)
  else if base = R.SAF_PEND_CHECK then some (BitVec.ofNat 32 (safCheckOf s.safPending))
  else if base = R.SAF_CONFIRM_STAT then
    let waits := s.actWaits R.SAF_CONFIRM 31 || s.actWaits R.SAF_CONFIRM 30
    some (setFld (if waits then 1 else s.reg R.SAF_CONFIRM_STAT) 31 16 s.saf.confirms)
  else if base = R.SAF_TG_STAT then some s.safTgStat
  else if base = R.SAF_TG_SEQ_TX then some (BitVec.ofNat 32 s.saf.seqTx)
  else if base = R.SAF_TG_SEQ_RX then some (BitVec.ofNat 32 s.saf.seqRx)
  else if base = R.SAF_TG_RXDATA then some (BitVec.ofNat 32 s.saf.rxData)
  else if base = R.SAF_TG_TXDATA then some (BitVec.ofNat 32 s.saf.txData)
  else if base = R.SAF_PORT_STAT 0 then some (setFlag (s.reg (R.SAF_PORT_STAT i)) 31 (bit s.saf.link i))
  else if safParam off then (if s.rb (ownKey r R.SAF_VIEW) 0 then some (s.reg (pendSafetyKey off)) else none)
  else if base = R.TRK_STATUS then some s.trkStatus
  else if base = R.TRK_BIN_NEWEST then some (BitVec.ofNat 32 s.trk.binSeq)
  else if base = R.TRK_BIN_OLDEST then some (BitVec.ofNat 32 s.binOldest)
  else if base = R.TRK_QUEUE then some s.trkQueue
  else if base = R.DBG_STATUS then some s.dbgStatus
  else if base = R.DBG_CAP_STAT then some s.dbgCapStat
  else if base = R.DBG_CAP_DATA then some (s.dbgCapData r)
  else none

/-- The live word of a register, where any of its fields is not stored in the register file. (DESIGN CHOICE, log 6; DEDUCED, log 23.) -/
def State.liveWord (s : State) (r : Requester) (off base i : Nat) : Option Word :=
  if off < 0x0600 then s.sysLive r base i
  else if off < 0x0800 then s.hatLive r base i
  else if off < 0x0E00 then s.celLive r base i
  else if off < 0x1A00 then s.ctlLive r base i
  else if off < 0x2400 then s.grdLive base i
  else s.safLive r off base i

/-- The domain of a register's block, for the blocks whose live fields read their reset value while it is off (R402, R437); the banked HAT
registers are those of the Hatch whose bank the requester sees (R372, R403). -/
def State.blockDomain (s : State) (r : Requester) (off : Nat) : Option Nat :=
  if 0x0500 ≤ off ∧ off < 0x0600 then some 49
  else if hatReg off ∧ off ≠ R.HAT_MGMT_SEL then some (47 + (s.bankHatch r).val / 2)
  else if 0x0800 ≤ off ∧ off < 0x0A00 then some 32
  else if 0x0E00 ≤ off ∧ off < 0x1200 then some 36
  else if 0x1200 ≤ off ∧ off < 0x1E00 then some 42
  else if 0x1E00 ≤ off ∧ off < 0x2400 then some 43
  else if 0x2400 ≤ off ∧ off < 0x2C00 then some 46
  else if 0x2C00 ≤ off ∧ off < 0x3000 then some 45
  else none

/-- The value of an implemented register as a requester reads it (R11, R437, R450): WA fields read 0, and live fields of a block
whose domain is off read their reset value. -/
def State.regValue (s : State) (r : Requester) (off base i : Nat) : Word :=
  let key := s.keyFor r off
  let w := ((s.liveWord r off base i).getD (s.reg key)) &&& ~~~ keyMask off [.wa, .rsv]
  let dark : Bool := match s.blockDomain r off with | some d => !s.domain d | none => false
  if dark then blend (keyMask off [.rl]) (resetWord key) w else w

/-- The lane group of the row that a requester's LNK_TBL_ADDR names is off (R134, R437). (DEDUCED, log 16.) -/
def State.tableDark (s : State) (r : Requester) : Bool :=
  let a := s.reg (ownKey r R.LNK_TBL_ADDR)
  !s.domain (if flag a 31 then fld a 27 16 / 128 else fld a 27 16 / 16)

/-- A read of a register by a requester, at an offset or one of its aliases (R18, R335, R433, R450, R454): its value and what
the read does, or none at an unimplemented location (R461). -/
def State.readReg (s : State) (r : Requester) (off : Nat) : Option (Word × State) :=
  let o := off % 0x4000
  match regDef o with
  | none => none
  | some (d, i) =>
    if o = R.SYS_EPOCH_LO then
      some (s.regValue r o d.base i, s.setReg (ownKey r R.SYS_EPOCH_HI) (BitVec.ofNat 32 (s.sys.epoch.toNat / 2 ^ 32)))
    else if o = R.LNK_TBL_DATA then
      let x := s.lnkTblRead r
      some (if s.tableDark r then 0 else x.1, x.2)
    else if d.base = R.MTR_TOTAL_LO 0 then some (s.totalLoRead r i)
    else if d.base = R.MTR_WIDE 0 ∧ i % 4 = 0 then some (s.wideRead r (i / 24) (i / 4 % 6))
    else if d.base = R.TRK_BIN_DATA 0 then some (s.binRead r i)
    else some (s.regValue r o d.base i, s)

/-- The management port accepts frames from 1 ms after PORST_N is released (R445). (DEDUCED, log 36.) -/
def State.mgmtOn (s : State) : Bool := s.start.powered && decide (1000000 ≤ s.start.aoNs)

/-- A Hatch serves BAR0 while its link is up outside D3hot; the management port reaches the register file from 1 ms on (R369, R445).
(DEDUCED, log 9.) -/
def State.serves (s : State) : Requester → Bool
  | .hatch h => (s.hat h.val).linkUp && !(s.hat h.val).d3hot
  | .mgmt => s.mgmtOn

/-- A memory read of BAR0 (R438): one DW, or two at a multiple of 8, which are two reads in rising offset at one instant; where either
is unimplemented neither has an effect. None where it completes with Completer Abort. -/
def State.bar0Read (s : State) (h : Fin 4) (off dws : Nat) : Option (List Word × State) :=
  if off % 4 ≠ 0 then none
  else if dws = 1 then (s.readReg (.hatch h) off).map (fun x => ([x.1], x.2))
  else if dws = 2 ∧ off % 8 = 0 then
    match s.readReg (.hatch h) off with
    | none => none
    | some x => (x.2.readReg (.hatch h) (off + 4)).map (fun y => ([x.1, y.1], y.2))
  else none

/-- A memory read of Hatch h of dws words at an offset of one of its BARs, as it completes, and what it does: BAR0 the registers, BAR2
the Shelf window, BAR4 the MSI-X table; Completer Abort at a reserved or unimplemented location, and Unsupported Request outside the
BARs, both noted in AER (R370, R372, R400, R438). The map has no place among them: how a host reads an entry back is not stated (R28).
(DEDUCED, log 33; DESIGN CHOICE, log 41.) -/
def State.hostRead (s : State) (h : Fin 4) (bar off dws : Nat) : ReadDone × State :=
  let words (f : Nat → Option Word) : ReadDone × State :=
    match (List.range dws).mapM (fun i => f (off + 4 * i)) with | some ws => (.data ws, s) | none => (.abort, s.aerError h 15)
  if bar = 0 ∧ off < 0x10000 then
    match s.bar0Read h off dws with | some x => (.data x.1, x.2) | none => (.abort, s.aerError h 15)
  else if bar = 2 ∧ off < 0x40000 then words (s.bar2Read h.val)
  else if bar = 4 ∧ off < 0x4000 then words (s.bar4Read h)
  else (.unsupported, s.aerError h 20)

/-- A read of a register by a requester as a command of its own: the word read is delivered; a Hatch gets Completer Abort at an
unimplemented location (R400). -/
def State.readCmd (s : State) (r : Requester) (off : Nat) : State :=
  if s.serves r then
    match s.readReg r off, r with
    | some x, _ => x.2.emit (.readData r off x.1)
    | none, .hatch h => s.completerAbort h
    | none, .mgmt => s
  else s

/-- EPOCH_LO_READ by a requester: E[31:0] is delivered, and E[47:32] goes to its shadow (R18). -/
def execEpochLoRead (r : Requester) (s : State) : Out := .next (s.readCmd r R.SYS_EPOCH_LO)

/-- LNK_TBL_READ by a requester: the selected table word is delivered (R135). -/
def execLnkTblRead (r : Requester) (s : State) : Out := .next (s.readCmd r R.LNK_TBL_DATA)

/-- TOTAL_LO_READ by a requester at the offset of MTR_TOTAL_LO[q] or of word 0 of a tally (R335). -/
def execTotalLoRead (r : Requester) (off : Nat) (s : State) : Out :=
  .next (if (R.MTR_TOTAL_LO 0 ≤ off ∧ off ≤ R.MTR_TOTAL_LO 5 ∧ off % 8 = 0) ∨ (R.MTR_WIDE 0 ≤ off ∧ off ≤ R.MTR_WIDE 68 ∧ off % 16 = 0) then
    s.readCmd r off else s)

/-- TRK_BIN_READ of word w of the selected record by a requester (R433). -/
def execTrkBinRead (r : Requester) (w : Nat) (s : State) : Out :=
  .next (if w < 16 then s.readCmd r (R.TRK_BIN_DATA w) else s)

end Sys2Proof.Machine
end

