-- ==== Sys2Proof/Machine/Actions.lean ====
section
/-! DEFINITION. The actions of WA fields (R490): a write that sets one carries its arguments in the RW fields beside it, and those
values take effect with the action. -/

namespace Sys2Proof.Machine

/-- The RW fields of a register take the values of the write that starts its action (R490). -/
def State.setArgs (s : State) (off : Nat) (w : Word) : State := s.setReg off (blend (writeMask off) w (s.reg off))

/-- The configuration writes of generator g that wait for its START take effect, in the order of acceptance (R212, R449). -/
def State.genTake (s : State) (g : Nat) : State :=
  s.regs.pend.foldl (fun s p => match p with
    | .image k r w due boot o =>
      if genOf k = some g ∧ epGe s.sys.epoch due ∧ s.crateHolds 9 = false then
        ({ s with regs := { s.regs with pend := dropImage k s.regs.pend } } : State).applyImage k r w boot o else s
    | _ => s) s

/-- START of generator g (R205, R212): the configuration that waits for it comes into force, unless the START is refused. -/
def State.genBegin (s : State) (g : Nat) : State :=
  let t := s.genTake g
  if t.genRefused g then s.genStart g else t.genStart g

/-- The effect of the action that the write w of register off starts, its arguments set (R490). -/
def State.actionEffect (s : State) (r : Requester) (off : Nat) (w : Word) : State :=
  if off = R.CEL_CTR_CLEAR then s.celCtrClear
  else if off = R.LNK_HANDBACK then s.handbackGo (fld w 8 0)
  else if off = R.LNK_ACTION then s.lnkAction r (fld w 27 24) (fld w 8 0)
  else if off = R.EDG_FORCE then s.forceAction r w
  else if off = R.EDG_BYPASS then s.bypassGo (fld w 11 0)
  else if off = R.CTL_ACTION then s.ctlAction r w
  else if R.CTL_GEN_CTRL 0 ≤ off ∧ off ≤ R.CTL_GEN_CTRL 3 then
    let g := (off - R.CTL_GEN_CTRL 0) / 32
    let s := if flag w 31 then s.genBegin g else s
    if flag w 30 then s.genStop g else s
  else if off = R.CTL_CAP_CTRL then
    let s := if flag w 31 then s.capArm else s
    if flag w 30 then s.capEnd else s
  else if off = R.GRD_ACTION then s.grdAction r w
  else if off = R.MFE_TEST then s.mfeTestStart (fld w 27 24) (fld w 5 0)
  else if R.MFE_ENC_REREF 0 ≤ off ∧ off ≤ R.MFE_ENC_REREF 2 then s.encReref ((off - R.MFE_ENC_REREF 0) / 16) w
  else if off = R.MTR_SEAL then s.mtrSealWrite r w
  else if off = R.MTR_ACTION then s.mtrAction w
  else if off = R.DBG_CAP_CTRL then
    let s := if flag w 31 then s.dbgCapArm else s
    if flag w 30 then s.dbgCapAbort else s
  else s

/-- A write w of DBG_HALT on receipt, at a position of the epoch in ns (R485, R490). -/
def State.haltWrite (s : State) (r : Requester) (w : Word) (ns : Nat) : State :=
  s.asOwner r R.DBG_HALT (fun s => (s.setArgs R.DBG_HALT w).dbgHaltWrite r w ns)

/-- The action of a WA field at its instant: from a requester that may write the register; any other is logged with kind 4 and
changes nothing else (R394, R490), save that SAF_CONFIRM shows its result (R354). (DEDUCED, log 3.) -/
def State.runAction (s : State) (r : Requester) (off : Nat) (w : Word) : State :=
  if off = R.SAF_CONFIRM then (if s.mayWrite r off then s.confirmWrite r w else s.confirmForbidden r)
  else if off = R.PRT_RESET then s.resetWrite r w
  else if off = R.DBG_HALT then s.haltWrite r w 0
  else s.asOwner r off (fun s => (s.setArgs off w).actionEffect r off w)

/-- A write word with the action bit b set, no other action bit, and fields [hi:lo] = v over the fields in force of a register.
(DEDUCED, log 3.) -/
def State.actWord (s : State) (off b : Nat) (fs : List (Nat × Nat × Nat)) : Word :=
  fs.foldl (fun w f => setFld w f.1 f.2.1 f.2.2) (setFlag (s.reg off &&& writeMask off) b true)

/-- MFE_TEST.START by a requester, at the boundary (R58). -/
def execMfeTestStart (r : Requester) (kind target : Nat) (s : State) : Out :=
  .next (s.runAction r R.MFE_TEST (s.actWord R.MFE_TEST 31 [(27, 24, kind), (5, 0, target)]))

/-- MFE_ENC_REREF of encoder k by a requester, at the boundary (R60). -/
def execEncReref (r : Requester) (k : Nat) (pos : Word) (s : State) : Out :=
  .next (if k < 3 then s.runAction r (R.MFE_ENC_REREF k) pos else s)

/-- LNK_ACTION.START with an action code and a lane. -/
def State.strStart (s : State) (r : Requester) (code l : Nat) : State :=
  s.runAction r R.LNK_ACTION (s.actWord R.LNK_ACTION 31 [(27, 24, code), (8, 0, l)])

/-- BRIDGE_VERIFY by a requester, at the boundary (R120, R135). -/
def execBridgeVerify (r : Requester) (l : Nat) (s : State) : Out := .next (s.strStart r 1 l)

/-- CLEAR_QUARANTINE by a requester, at the boundary (R128). -/
def execClearQuarantine (r : Requester) (l : Nat) (s : State) : Out := .next (s.strStart r 2 l)

/-- CLEAR_COUNTERS by a requester, at the boundary (R133). -/
def execClearCounters (r : Requester) (l : Nat) (s : State) : Out := .next (s.strStart r 3 l)

/-- CLEAR_LOST by a requester, at the boundary (R104). -/
def execClearLost (r : Requester) (l : Nat) (s : State) : Out := .next (s.strStart r 4 l)

/-- RETRIM by a requester, at the boundary (R114). -/
def execRetrim (r : Requester) (l : Nat) (s : State) : Out := .next (s.strStart r 5 l)

/-- LNK_HANDBACK.GO by a requester, at the boundary (R126). -/
def execHandbackGo (r : Requester) (l : Nat) (s : State) : Out :=
  .next (s.runAction r R.LNK_HANDBACK (s.actWord R.LNK_HANDBACK 31 [(8, 0, l)]))

/-- CEL_CTR_CLEAR by a requester, at the boundary (R169). -/
def execCelCtrClear (r : Requester) (s : State) : Out := .next (s.runAction r R.CEL_CTR_CLEAR 1)

/-- GRD_ACTION.START with an action code. -/
def State.grdStart (s : State) (r : Requester) (code : Nat) : State :=
  s.runAction r R.GRD_ACTION (s.actWord R.GRD_ACTION 31 [(3, 0, code)])

/-- TO_GFM by a requester, at the boundary (R236). -/
def execToGfm (r : Requester) (s : State) : Out := .next (s.grdStart r 1)

/-- TO_GFL by a requester, at the boundary (R237). -/
def execToGfl (r : Requester) (s : State) : Out := .next (s.grdStart r 2)

/-- CANCEL by a requester, at the boundary (R237). -/
def execCancel (r : Requester) (s : State) : Out := .next (s.grdStart r 3)

/-- CLEAR_ISLAND by a requester, at the boundary (R233). -/
def execClearIsland (r : Requester) (s : State) : Out := .next (s.grdStart r 4)

/-- CLEAR_FRT by a requester, at the boundary (R225). -/
def execClearFrt (r : Requester) (s : State) : Out := .next (s.grdStart r 5)

/-- RC_CLEAR by a requester, at the boundary (R193). -/
def execRcClear (r : Requester) (t : Nat) (s : State) : Out :=
  .next (s.runAction r R.CTL_ACTION (s.actWord R.CTL_ACTION 31 [(10, 8, t), (3, 0, 1)]))

/-- CLEAR_CHECK_COUNTS by a requester, at the boundary (R212). -/
def execClearCheckCounts (r : Requester) (s : State) : Out :=
  .next (s.runAction r R.CTL_ACTION (s.actWord R.CTL_ACTION 31 [(3, 0, 2)]))

/-- GEN_START of generator g by a requester, at the boundary (R205). -/
def execGenStart (r : Requester) (g : Nat) (s : State) : Out :=
  .next (if g < 4 then s.runAction r (R.CTL_GEN_CTRL g) 0x80000000 else s)

/-- GEN_STOP of generator g by a requester, at the boundary (R205). -/
def execGenStop (r : Requester) (g : Nat) (s : State) : Out :=
  .next (if g < 4 then s.runAction r (R.CTL_GEN_CTRL g) 0x40000000 else s)

/-- CAP_ARM by a requester, at the boundary (R206). -/
def execCapArm (r : Requester) (s : State) : Out := .next (s.runAction r R.CTL_CAP_CTRL 0x80000000)

/-- CAP_ABORT by a requester, at the boundary (R207). -/
def execCapAbort (r : Requester) (s : State) : Out := .next (s.runAction r R.CTL_CAP_CTRL 0x40000000)

/-- FORCE_SET by a requester, at the boundary (R276). -/
def execForceSet (r : Requester) (home code : Nat) (s : State) : Out :=
  .next (s.runAction r R.EDG_FORCE (s.actWord R.EDG_FORCE 31 [(17, 16, code), (11, 0, home)]))

/-- FORCE_RELEASE by a requester, at the boundary (R277). -/
def execForceRelease (r : Requester) (home : Nat) (s : State) : Out :=
  .next (s.runAction r R.EDG_FORCE (s.actWord R.EDG_FORCE 30 [(11, 0, home)]))

/-- FORCE_RELEASE_ALL by a requester, at the boundary (R277). -/
def execForceReleaseAll (r : Requester) (s : State) : Out := .next (s.runAction r R.EDG_FORCE (s.actWord R.EDG_FORCE 29 []))

/-- BYPASS_GO by a requester, at the boundary (R278). -/
def execBypassGo (r : Requester) (home : Nat) (s : State) : Out :=
  .next (s.runAction r R.EDG_BYPASS (s.actWord R.EDG_BYPASS 31 [(11, 0, home)]))

/-- MERGE by a requester, at the boundary (R321). -/
def execMerge (r : Requester) (t mask : Nat) (s : State) : Out :=
  .next (s.runAction r R.MTR_ACTION (s.actWord R.MTR_ACTION 31 [(27, 24, 1), (21, 20, t), (5, 0, mask)]))

/-- DISCARD by a requester, at the boundary (R321). -/
def execDiscard (r : Requester) (t mask : Nat) (s : State) : Out :=
  .next (s.runAction r R.MTR_ACTION (s.actWord R.MTR_ACTION 31 [(27, 24, 2), (21, 20, t), (5, 0, mask)]))

/-- SEAL by a requester, at the boundary (R328). -/
def execSealMeter (r : Requester) (key : Nat) (s : State) : Out :=
  .next (s.runAction r R.MTR_SEAL (BitVec.ofNat 32 (2 ^ 31 + key % 2 ^ 16)))

/-- UNSEAL by a requester, at the boundary (R329). -/
def execUnsealMeter (r : Requester) (key : Nat) (s : State) : Out :=
  .next (s.runAction r R.MTR_SEAL (BitVec.ofNat 32 (2 ^ 30 + key % 2 ^ 16)))

/-- HALT by a requester at a position of the epoch, in ns (R485). -/
def execHalt (r : Requester) (targets ns : Nat) (s : State) : Out :=
  .next (s.haltWrite r (s.actWord R.DBG_HALT 31 [(9, 0, targets)]) ns)

/-- RESUME by a requester (R485). -/
def execResume (r : Requester) (targets : Nat) (s : State) : Out :=
  .next (s.haltWrite r (s.actWord R.DBG_HALT 30 [(9, 0, targets)]) 0)

/-- STEP by a requester (R485). -/
def execStepEngine (r : Requester) (targets : Nat) (s : State) : Out :=
  .next (s.haltWrite r (s.actWord R.DBG_HALT 29 [(9, 0, targets)]) 0)

/-- DBG_CAP_ARM by a requester, at the boundary (R486). -/
def execDbgCapArm (r : Requester) (s : State) : Out := .next (s.runAction r R.DBG_CAP_CTRL (s.actWord R.DBG_CAP_CTRL 31 []))

/-- DBG_CAP_ABORT by a requester, at the boundary (R486). -/
def execDbgCapAbort (r : Requester) (s : State) : Out := .next (s.runAction r R.DBG_CAP_CTRL (s.actWord R.DBG_CAP_CTRL 30 []))

end Sys2Proof.Machine
end

