-- ==== Sys2Proof/Machine/RegIf.lean ====
section
/-! DEFINITION. The register interface (chapter 14): the acceptance of a write from a Hatch, the management port or the test
access port, through a register or one of its aliases, and the frames of the management port. -/

namespace Sys2Proof.Machine

/-- The value that an alias write acts on (R452, R490): the newest pending value of the register, whether a pending image or the
arguments of a pending action, or else its value in force. -/
def State.aliasBase (s : State) (key : Nat) : Word :=
  s.regs.pend.foldl (fun x p => match p with
    | .image k _ w _ _ _ => if k = key then w else x
    | .action _ o w _ => if o = key then blend (writeMask key) w x else x
    | _ => x) (s.reg key)

/-- A register kept for each requester takes its value on receipt (R462); KIND 3 of HAT_RING_SEL is taken as 0 (R401).
(DEDUCED, log 9.) -/
def State.ownWrite (s : State) (key : Nat) (way : Nat) (w : Word) : State :=
  let v := blend (writeMask key) (aliasValue way (s.reg key) w) (s.reg key)
  s.setReg key (if keyOff key = R.HAT_RING_SEL ∧ fld v 5 4 = 3 then setFld v 5 4 0 else v)

/-- A safety parameter write on receipt (R352): it changes the pending set. (DEDUCED, log 9.) -/
def State.safWrite (s : State) (r : Requester) (off way : Nat) (w : Word) : State :=
  if s.mayWrite r off then
    let key := pendSafetyKey off
    s.setReg key (blend (writeMask off) (aliasValue way (s.reg key) w) (s.reg key))
  else s.logErr r 4 (0x4000 * way + off)

/-- HAT_CTRL of bank h on receipt (R401, R446, R490): the error vector at once, RING_RESET at once with every field beside it,
KA_TIMEOUT else at a boundary. (DEDUCED, log 9.) -/
def State.hatCtrlWrite (s : State) (r : Requester) (h : Fin 4) (way : Nat) (w : Word) (ns : Nat) : State :=
  let key := bankKey h.val R.HAT_CTRL
  let v := blend (writeMask key) (aliasValue way (s.aliasBase key) w) (s.aliasBase key)
  if way = 0 ∧ flag w 31 then
    (({ s with regs := { s.regs with pend := dropImage key s.regs.pend } } : State).setReg key v).ringReset h
  else
    let s := s.setReg key (setFld v 15 0 (s.rf key 15 0))
    if fld v 15 0 = s.rf key 15 0 then { s with regs := { s.regs with pend := dropImage key s.regs.pend } }
    else s.pendPut key r v (s.dueOf ns) false (0x4000 * way + R.HAT_CTRL)

/-- A write to a ring or doorbell register of the Hatch that writes it (R375, R376, R453). -/
def State.ringWrite (s : State) (h : Fin 4) (off way : Nat) (w : Word) : State :=
  let x := s.ringShown (.hatch h)
  let a := s.hat h.val
  let bell (old : Nat) : Nat := fld (aliasValue way (BitVec.ofNat 32 old) w) 15 0
  if off = R.HAT_RING_BASE_LO then s.ringBaseWrite h way false (aliasValue way (BitVec.ofNat 32 (bits x.base.toNat 31 0)) w)
  else if off = R.HAT_RING_BASE_HI then s.ringBaseWrite h way true (aliasValue way (BitVec.ofNat 32 (bits x.base.toNat 63 32)) w)
  else if off = R.HAT_RING_CFG then s.ringCfgWrite h way (aliasValue way x.cfgWord w)
  else if off = R.HAT_EV_HEAD then s.eventDoorbell h (bell a.ev.bell)
  else if R.HAT_OR_TAIL 0 ≤ off ∧ off ≤ R.HAT_OR_TAIL 15 then
    let i := (off - R.HAT_OR_TAIL 0) / 4
    s.orderDoorbell h i (bell (smGet {} a.or_ i).bell)
  else
    let i := (off - R.HAT_CR_HEAD 0) / 4
    s.completionDoorbell h i (bell (smGet {} a.cr i).bell)

/-- The ring and doorbell registers (R401). -/
def ringReg (off : Nat) : Bool :=
  off ∈ [R.HAT_RING_BASE_LO, R.HAT_RING_BASE_HI, R.HAT_RING_CFG, R.HAT_EV_HEAD] || (R.HAT_OR_TAIL 0 ≤ off && off < R.HAT_OWN 0)

/-- An LT clear of a HAT register on receipt (R446, R459): KIND of the error log is cleared with COUNT (R401), and a field whose event
has occurred in the present epoch stays set (R11). (DEDUCED, log 9.) -/
def State.hatClear (s : State) (key : Nat) (mask : Word) : State :=
  let mask := if keyOff key = R.HAT_ERR_LOG ∧ fld mask 15 0 ≠ 0 then mask ||| maskOf 23 16 else mask
  s.setReg key (blend (s.clearable key mask) (resetWord key) (s.reg key))

/-- A write to a HAT register other than HAT_OWN (R401): on receipt. From the management port the ring, doorbell and keepalive
registers take no write, and from a Hatch HAT_MGMT_SEL takes none. (DEDUCED, log 9.) -/
def State.hatWrite (s : State) (r : Requester) (off way : Nat) (w : Word) (ns : Nat) : State :=
  let h := s.bankHatch r
  let key := s.keyFor r off
  if off = R.HAT_MGMT_SEL then
    (match r with
    | .mgmt => s.setReg off (blend (writeMask off) (aliasValue way (s.reg off) w) (s.reg off))
    | .hatch _ => s.logErr r 5 (0x4000 * way + off))
  else if ringReg off ∨ off = R.HAT_KEEPALIVE then
    (match r with
    | .mgmt => s.logErr r 5 (0x4000 * way + off)
    | .hatch h => if off = R.HAT_KEEPALIVE then (if way = 0 ∧ flag w 0 then s.kick h else s) else s.ringWrite h off way w)
  else if off = R.HAT_CTRL then s.hatCtrlWrite r h way w ns
  else
    let s := if way = 2 then s.hatClear key (ltHit key w) else s
    if writeMask key = 0 then s else s.setReg key (blend (writeMask key) (aliasValue way (s.reg key) w) (s.reg key))

/-- An action that waits, as one whose object an open Crate holds does (R163). -/
def State.actionWaits (s : State) (r : Requester) (off : Nat) (w : Word) (ns : Nat) : State :=
  { s with regs := { s.regs with pend := s.regs.pend ++ [.action r off w (s.dueOf ns)] } }

/-- A normal write of a register whose action runs on receipt (R310, R416, R430, R436, R485), or none for any other register.
(DEDUCED, log 9.) -/
def State.receiptAction (s : State) (r : Requester) (off : Nat) (w : Word) (ns : Nat) : Option State :=
  if off ∈ [R.STR_ACTION, R.TRK_ACTION] ∧ r ≠ .mgmt then some (s.logErr r 5 off)
  else if off = R.STR_ACTION then
    let s := if flag w 31 then s.startContinue r else s
    some (if flag w 30 then s.startRestart r (fld w 15 0) s.start.inputs else s)
  else if off = R.TRK_ACTION then some (if flag w 31 then s.trkFormat r (fld w 15 0) else s)
  else if off = R.PRT_RESET then some (if s.actionHeld r off then s.actionWaits r off w ns else s.resetWrite r w)
  else if off = R.DBG_HALT ∧ fld w 31 29 ≠ 0 then some (if s.actionHeld r off then s.actionWaits r off w ns else s.haltWrite r w ns)
  else none

/-- A write to a register of the default classes (R446–R448, R452, R490): LT clears, RW and TV fields and actions wait for the
boundary at which they are due. -/
def State.boundaryWrite (s : State) (r : Requester) (key way : Nat) (w : Word) (due : Epoch) : State :=
  let off := keyOff key
  let lt := if way = 2 then ltHit key w else 0
  let s := if lt = 0 then s else { s with regs := { s.regs with pend := s.regs.pend ++ [.ltClear key r lt due] } }
  let acts := way = 0 && (w &&& keyMask key [.wa] != 0 || (R.MFE_ENC_REREF 0 ≤ off && off ≤ R.MFE_ENC_REREF 2 && off % 16 = 12))
  if acts then { s with regs := { s.regs with pend := dropImage key s.regs.pend ++ [.action r off w due] } }
  else if writeMask key = 0 then s
  else s.pendPut key r (blend (writeMask key) (aliasValue way (s.aliasBase key) w) (s.aliasBase key)) due false (0x4000 * way + off)

/-- A write of the map entry of home address h by a host (R28, R447): reserved bits are counted. (DESIGN CHOICE, log 41.) -/
def State.mapWrite (s : State) (r : Requester) (h : Nat) (w : Word) (ns : Nat) : State :=
  let s := if w.toNat / 2 ^ 9 ≠ 0 then s.logErr r 1 (mapWindow + 4 * h) else s
  { s with regs := { s.regs with pend := s.regs.pend ++ [.map h r (BitVec.ofNat 16 (w.toNat % 2 ^ 9)) (s.dueOf ns) false] } }

/-- A write to an address outside the BARs of a Hatch is an Unsupported Request (R370, R400). (DESIGN CHOICE, log 10.) -/
def State.outside (s : State) (r : Requester) (off : Nat) : State :=
  match r with
  | .hatch h => s.unsupportedReq h
  | .mgmt => s.logErr .mgmt 2 off

/-- A write of w to the implemented register at offset o, normal or through an alias, by the register's application class (R352, R446,
R452, R462). -/
def State.regPut (s : State) (r : Requester) (o way : Nat) (w : Word) (ns : Nat) : State :=
  let key := s.keyFor r o
  if ownReg o then s.ownWrite key way w
  else if safParam o then s.safWrite r o way w
  else if hatReg o then s.hatWrite r o way w ns
  else match (if way = 0 then s.receiptAction r o w ns else none) with
    | some t => t
    | none => s.boundaryWrite r key way w (s.dueOf ns)

/-- The first offset of the places that stand for BAR4 of a Hatch among the offsets of a write: the spec has no command of its own for a
write to BAR4. (DESIGN CHOICE, log 41.) -/
def bar4Window : Nat := 0x80000

/-- A write of Hatch h to BAR4 (R372, R392, R461): a word of the MSI-X table, whose entry sends its pending message when it is unmasked;
the Pending Bit Array takes no write, and any other location drops the write with kind 2. (PRESUMED, log 31.) -/
def State.bar4Write (s : State) (h : Fin 4) (off : Nat) (w : Word) : State :=
  let i := off / 16
  if off < 64 * 16 then
    match off / 4 % 4 with
    | 0 => s.updHat h.val (fun a => { a with msixTable := smUpd (0, 0) a.msixTable i (fun e => (BitVec.ofNat 64 (bits e.1.toNat 63 32 * 2 ^ 32 + w.toNat), e.2)) })
    | 1 => s.updHat h.val (fun a => { a with msixTable := smUpd (0, 0) a.msixTable i (fun e => (BitVec.ofNat 64 (w.toNat * 2 ^ 32 + bits e.1.toNat 31 0), e.2)) })
    | 2 => s.updHat h.val (fun a => { a with msixTable := smUpd (0, 0) a.msixTable i (fun e => (e.1, w)) })
    | _ =>
      let a := s.hat h.val
      let m := BitVec.ofNat 64 (2 ^ i)
      if flag w 0 then s.updHat h.val (fun a => { a with msixMask := a.msixMask ||| m })
      else
        let s := s.updHat h.val (fun a => { a with msixMask := a.msixMask &&& ~~~m, msixPending := if a.msixEn then a.msixPending &&& ~~~m else a.msixPending })
        if a.msixEn && a.msixPending.getLsbD i then s.emit (.msix h i) else s
  else if 0x2000 ≤ off ∧ off < 0x2008 then s
  else s.logErr (.hatch h) 2 off

/-- A register write as it reaches the register file, at a position of the present epoch in ns (R10, R28, R370, R440, R446–R453,
R461). (DESIGN CHOICE, log 41.) -/
def State.regWrite (s : State) (r : Requester) (off : Nat) (w : Word) (ns : Nat) : State :=
  let o := off % 0x4000
  let way := aliasOf off
  if mapWindow ≤ off ∧ off < mapWindow + 4 * 4096 ∧ off % 4 = 0 then s.mapWrite r ((off - mapWindow) / 4) w ns
  else if 0x10000 ≤ off then s.outside r off
  else if !implemented o then s.logErr r 2 off
  else
    let s := if w &&& keyMask o [.rsv] != 0 then s.logErr r 1 off else s
    if way ≠ 0 ∧ w = 0 then s
    else
      let s := if way ≠ 0 ∧ w &&& keyMask o [.wa] ≠ 0 then s.logErr r 5 off else s
      s.regPut r o way w ns

/-- A write of a requester by its address: BAR4 and BAR0 of a Hatch, whose BAR0 drops with kind 5 a request that is not one DW with
every byte enabled (R438), and the offsets of the management port. -/
def State.busWrite (s : State) (w : WriteReq) : State :=
  match w.req with
  | .mgmt => s.regWrite .mgmt w.off w.value w.at_ns
  | .hatch h =>
    if bar4Window ≤ w.off ∧ w.off < bar4Window + 0x4000 then s.bar4Write h (w.off - bar4Window) w.value
    else if w.whole = false ∧ w.off < 0x10000 then s.logErr w.req 5 w.off
    else s.regWrite w.req w.off w.value w.at_ns

/-- A register write command, served when its port serves it and its alias is the command's (R440, R445, R452); a direct write of the
map and one to BAR4 are normal writes (R28, R372). -/
def State.writeCmd (s : State) (w : WriteReq) (way : Nat) : State :=
  if s.serves w.req ∧ (if 0x10000 ≤ w.off then 0 else aliasOf w.off) = way then s.busWrite w else s

/-- REGISTER_WRITE: a normal write is accepted (R440, R446). -/
def execRegisterWrite (w : WriteReq) (s : State) : Out := .next (s.writeCmd w 0)

/-- SET_ALIAS_WRITE (R452). -/
def execSetAliasWrite (w : WriteReq) (s : State) : Out := .next (s.writeCmd w 1)

/-- CLEAR_ALIAS_WRITE (R452). -/
def execClearAliasWrite (w : WriteReq) (s : State) : Out := .next (s.writeCmd w 2)

/-- TOGGLE_ALIAS_WRITE (R452). -/
def execToggleAliasWrite (w : WriteReq) (s : State) : Out := .next (s.writeCmd w 3)

/-- A write of a Hatch to one of its HAT registers. -/
def State.hatCmd (s : State) (h : Fin 4) (off : Nat) (w : Word) : State :=
  if s.serves (.hatch h) then s.regWrite (.hatch h) off w 0 else s

/-- RING_CFG_WRITE of the selected ring (R375). -/
def execRingCfgWrite (h : Fin 4) (w : Word) (s : State) : Out := .next (s.hatCmd h R.HAT_RING_CFG w)

/-- RING_RESET: every ring of the Hatch is disabled; the fields beside it keep their values (R401, R490). -/
def execRingReset (h : Fin 4) (s : State) : Out :=
  .next (s.hatCmd h R.HAT_CTRL (setFlag (s.aliasBase (bankKey h.val R.HAT_CTRL)) 31 true))

/-- ORDER_DOORBELL of order ring r (R376). -/
def execOrderDoorbell (h : Fin 4) (r : Nat) (w : Word) (s : State) : Out :=
  .next (if r < 16 then s.hatCmd h (R.HAT_OR_TAIL r) w else s)

/-- COMPLETION_DOORBELL of completion ring r (R376). -/
def execCompletionDoorbell (h : Fin 4) (r : Nat) (w : Word) (s : State) : Out :=
  .next (if r < 16 then s.hatCmd h (R.HAT_CR_HEAD r) w else s)

/-- EVENT_DOORBELL (R376). -/
def execEventDoorbell (h : Fin 4) (w : Word) (s : State) : Out := .next (s.hatCmd h R.HAT_EV_HEAD w)

/-- KICK (R396). -/
def execKick (h : Fin 4) (s : State) : Out := .next (s.hatCmd h R.HAT_KEEPALIVE 1)

/-- BAR2_WRITE: a host write to BAR2 is dropped and logged with kind 3 (R156, R399, R461); one beyond its 256 KiB is an Unsupported
Request (R370, R372). -/
def execBar2Write (h : Fin 4) (off : Nat) (s : State) : Out :=
  .next (if s.serves (.hatch h) then (if off < 0x40000 then s.logErr (.hatch h) 3 off true else s.outside (.hatch h) off) else s)

/-- Byte i of a frame. -/
def frameByte (f : List Byte) (i : Nat) : Nat := (f.getD i 0).toNat

/-- The last byte of a frame is the CHK of the bytes before it (R442). -/
def chkOk (f : List Byte) : Bool := mgmtChk f.dropLast = frameByte f (f.length - 1)

/-- The offset a frame carries. -/
def frameOff (f : List Byte) : Nat := ofBytesBE ((f.drop 1).take 2)

/-- MGMT_WRITE: a WRITE frame whose last bit comes at a position of the epoch in ns is accepted as a whole, its words in rising
offset, or is dropped with kind 8 or 9 (R442, R443). (DEDUCED, log 7.) -/
def execMgmtWrite (f : List Byte) (ns : Nat) (s : State) : Out :=
  .next (if s.mgmtOn = false ∨ f = [] ∨ frameByte f 0 ≠ 0x02 then s
    else if f.length < 8 ∨ 260 < f.length ∨ f.length % 4 ≠ 0 then s.logErr .mgmt 9 0
    else if chkOk f = false then s.logErr .mgmt 8 0
    else if frameOff f % 4 ≠ 0 then s.logErr .mgmt 9 0
    else (List.range ((f.length - 4) / 4)).foldl (fun s i =>
      s.regWrite .mgmt (frameOff f + 4 * i) (BitVec.ofNat 32 (ofBytesBE ((f.drop (3 + 4 * i)).take 4))) ns) s)

/-- The words of a READ frame, sampled in rising offset: the bytes, whether a word lay at an unimplemented location, and what the
reads do (R442, R461). -/
def State.mgmtWords (s : State) (off n : Nat) : List Byte × Bool × State :=
  (List.range n).foldl (fun x i =>
    let o := off + 4 * i
    match (if o < 0x10000 then x.2.2.readReg .mgmt o else none) with
    | some y => (x.1 ++ bytesBE 4 y.1.toNat, x.2.1, y.2)
    | none => (x.1 ++ bytesBE 4 0, true, x.2.2.logErr .mgmt 10 o)) ([], false, s)

/-- MGMT_READ: the words of a READ frame with its status byte and CHK (R442), or a bad frame, for which every byte that the device owes
is 0 (R443). -/
def execMgmtRead (f : List Byte) (s : State) : Out :=
  .next (if s.mgmtOn = false ∨ f.length < 4 ∨ frameByte f 0 ≠ 0x03 then s
    else if frameOff f % 4 ≠ 0 ∨ 63 < frameByte f 3 then
      (s.logErr .mgmt 9 0).emit (.mgmtFrame (List.replicate (4 * (frameByte f 3 + 1) + 2) 0))
    else
      let x := s.mgmtWords (frameOff f) (frameByte f 3 + 1)
      let status := b2n x.2.1 * 128 + b2n (fld x.2.2.mgmtStatus 15 0 ≠ 0) * 64
      let body := x.1 ++ bytesBE 1 status
      x.2.2.emit (.mgmtFrame (body ++ bytesBE 1 (mgmtChk body))))

/-- MGMT_STATUS: the status word of the management port and its CHK (R442, R444). -/
def execMgmtStatus (f : List Byte) (s : State) : Out :=
  .next (if s.mgmtOn = false ∨ f = [] ∨ frameByte f 0 ≠ 0x05 then s
    else
      let body := bytesBE 4 s.mgmtStatus.toNat
      s.emit (.mgmtFrame (body ++ bytesBE 1 (mgmtChk body))))

/-- STATUS_CLEAR: a whole frame with its CHK clears the status word; a wrong CHK is counted with kind 8, and a frame ended early
has no effect (R442, R443, R444). The word keeps an entry made in the present epoch (R11). -/
def execStatusClear (f : List Byte) (s : State) : Out :=
  .next (if s.mgmtOn = false ∨ f.length < 2 ∨ frameByte f 0 ≠ 0x06 then s
    else if chkOk (f.take 2) = false then s.logErr .mgmt 8 0
    else if smGet 0 s.regs.ltNow mgmtKey = 0 then { s with mgmtStatus := 0 } else s)

/-- MGMT_UNKNOWN_COMMAND: a frame with an unknown command byte is logged with kind 9 (R443). -/
def execMgmtUnknownCommand (f : List Byte) (s : State) : Out :=
  .next (if s.mgmtOn = false ∨ f = [] ∨ frameByte f 0 ∈ [0x02, 0x03, 0x05, 0x06] then s else s.logErr .mgmt 9 0)

/-- The word that Capture-DR of DBG_ACCESS loads next: DONE, OFFSET and the data (R484). -/
def dbgCapture (off : Nat) (data : Word) : Nat := 2 ^ 48 + off % 2 ^ 16 * 2 ^ 32 + data.toNat

/-- What Capture-DR of DBG_ACCESS loads: DONE = 0 while DBG_CTRL.JTAG_EN = 0 (R484). -/
def State.captureDr (s : State) : Nat := if s.rb R.DBG_CTRL 30 then s.dbg.capture else 0

/-- DBG_ACCESS at Update-DR: a write or a read as the management port, while DBG_CTRL.JTAG_EN = 1 and the instruction is loaded
(R482, R484). -/
def execDbgAccess (write : Bool) (off : Nat) (w : Word) (ns : Nat) (s : State) : Out :=
  let s := s.tapLoad 0x20
  let put (s : State) (n : Nat) : State := { s with dbg := { s.dbg with capture := n } }
  let o := off % 0x10000
  .next (if s.rb R.DBG_CTRL 30 = false then put s 0
    else if write then put (s.regWrite .mgmt o w ns) (dbgCapture o 0)
    else match s.readReg .mgmt o with
      | some x => put x.2 (dbgCapture o x.1)
      | none => put (s.logErr .mgmt 10 o) (dbgCapture o 0))

end Sys2Proof.Machine
end

