-- ==== Sys2Proof/Machine/Boundary.lean ====
section
/-! DEFINITION. The epoch boundary (R16, R33, R449): the votes, the writes and actions that are due, the state machine, the orders,
and what every block does at a boundary; the start of RUN; deadline misses; the Reference Synthesiser's events. -/

namespace Sys2Proof.Machine

/-- A disturbance of one copy of a TV word (R455): its TV bits only. -/
def State.upset (s : State) (u : Upset) : State :=
  let flip := u.flip &&& keyMask u.key [.tv]
  let at_ (n : Nat) (v : Word) : Word := if u.copy = n then v ^^^ flip else v
  let a := at_ 0 (s.regs.copyA u.key)
  let b := at_ 1 (s.regs.copyB u.key)
  let c := at_ 2 (s.regs.copyC u.key)
  let put (m : SMap Word) (v : Word) : SMap Word := if v = a then smErase m u.key else smInsert (smErase m u.key) u.key v
  { s with regs := { s.regs with a := smSet (resetWord u.key) s.regs.a u.key a, b := put s.regs.b b, c := put s.regs.c c } }

/-- The vote over one TV word (R455): a single disagreement is corrected and counted, and a triple one is noted. -/
def State.voteWord (s : State) (key : Nat) : State :=
  let a := s.regs.copyA key
  let b := s.regs.copyB key
  let c := s.regs.copyC key
  if a = b ∧ b = c then s
  else if a ≠ b ∧ b ≠ c ∧ a ≠ c then { s with prt := { s.prt with voteAddr := keyOff key } }
  else ((s.setReg key (majority a b c)).count R.PRT_VOTE 31 16).prtEvent 52

/-- The vote over every TV word, after the disturbances since the last one (R455, R457): a triple disagreement in the safety set
in force takes CFG_VALID away. -/
def State.vote (s : State) (us : List Upset) : State :=
  let s := us.foldl State.upset s
  let s := ((s.regs.b.map Prod.fst ++ s.regs.c.map Prod.fst).dedup).foldl State.voteWord s
  if s.safTriple then { s with saf := { s.saf with cfgValid := false } } else s

/-- PRE_EPOCH_VOTE: before E(0), the TV words are voted every 1 µs on the AO timer (R455), by which a band calibration that finds no lock
ends 20 ms after it began (R411). (DEDUCED, log 36.) -/
def execPreEpochVote (us : List Upset) (s : State) : Out :=
  .next (if s.start.powered ∧ s.sys.counting = false then
    let t : State := { s.vote us with start := { s.start with aoNs := s.start.aoNs + 1000 } }
    if t.start.step = 5 ∧ t.start.active ∧ 21000000 ≤ t.start.aoNs - t.ref.sinceNs then t.calibrateUnlocked else t
  else s)

/-- The deadline D_k of item k from the start of the epoch in which it runs, in ps (R20). -/
def State.deadline (s : State) (k : Nat) : Nat :=
  let ns := match k with | 0 => 88 | 1 => 160 | 8 => 256 | 9 => 192 | 10 => 192 | 11 => 256 | 12 => 256 | 13 => 160 | _ => 216
  ns * 1000 * (if s.sys.compat then 2 else 1)

/-- slack_k in whole percent (R21). -/
def State.slackOf (s : State) (k : Nat) (x : SlackIn) : Nat :=
  let d := s.deadline k
  if bit s.sys.missNow k || d ≤ x.t_done || d ≤ x.t_start then 0 else min 100 ((d - x.t_done) * 100 / (d - x.t_start))

/-- The slack meter at the end of an epoch (R21, R39, R406): NOW, MIN and MISSED of every item, and the slack loop. (DEDUCED, log 11.) -/
def State.slackMeter (s : State) (xs : List SlackIn) : State :=
  let v (k : Nat) : Nat := s.slackOf k (xs.getD k ⟨0, 0⟩)
  let t := (List.range 14).foldl (fun t k =>
    ((t.setRf (R.SYS_SLACK k) 24 24 (b2n (bit s.sys.missNow k))).setRf (R.SYS_SLACK k) 7 0 (v k)).setRf (R.SYS_SLACK k) 15 8
      (min (t.rf (R.SYS_SLACK k) 15 8) (v k))) s
  if t.domain 42 then t.slackLoop (((List.range 14).map v).foldl min 100) (s.sys.missNow % 2 ^ 14 ≠ 0) else t

/-- The runs of consecutive misses after the epoch that ended (R303). -/
def State.missRuns (s : State) : State :=
  let runs := (List.range 14).foldl (fun m k => smSet 0 m k (if bit s.sys.missNow k then smGet 0 m k + 1 else 0)) s.sys.missRun
  { s with sys := { s.sys with missRun := runs, missNow := 0 } }

/-- The next epoch begins (R16, R17, R412–R415): E, ERA at the wrap, the AO timer, holdover and the wait before unmuting. -/
def State.epochAdvance (s : State) : State :=
  let e := s.sys.epoch + 1
  let s : State := { s with
    sys := { s.sys with epoch := e, era := if e = 0 then (s.sys.era + 1) % 2 ^ 16 else s.sys.era, moved := false, taken := none }
    start := { s.start with aoNs := s.start.aoNs + s.epNs }
    ref := { s.ref with
      holdoverNow := s.ref.state = .holdover
      holdoverEp := s.ref.holdoverEp + b2n (s.ref.state = .holdover)
      waitEp := if s.ref.state = .unmuteWait then s.ref.waitEp + 1 else s.ref.waitEp }
    regs := { s.regs with ltNow := [] }
    out := [] }
  if e = 0 then s.trkAsk .directory s.directoryWords else s

/-- A pending write that takes effect at the present boundary (R446, R447): due, not of class Start step, not held, as one of an object that
an open Crate touches is (R163). -/
def State.pendDue (s : State) : Pending → Bool
  | .image k _ w due _ _ => !startClass (keyOff k) && epGe s.sys.epoch due && !s.writeHeld k w && !s.genHeld k
  | .ltClear k _ _ due => epGe s.sys.epoch due && !(keyObjects k (s.reg k) (s.reg k)).any s.crateHolds
  | .action r o _ due => epGe s.sys.epoch due && !s.actionHeld r o
  | .map _ _ _ due boot => epGe s.sys.epoch due && (boot || !s.crateHolds 0)

/-- A pending write takes effect. -/
def State.applyPending (s : State) : Pending → State
  | .image k r w _ boot off => s.applyImage k r w boot off
  | .ltClear k r m _ => s.applyClear k r m
  | .action r o w _ => s.runAction r o w
  | .map h r e _ boot => s.applyMap h r e boot

/-- A write that is held at the boundary at which it would first apply, from a Hatch that does not own its object there: the offset at
which it is logged (R394). -/
def State.firstRefused (s : State) : Pending → Option (Requester × Nat)
  | .image k r w due _ off =>
    if !startClass (keyOff k) && due = s.sys.epoch && !s.mayPut r k (blend (writeMask k) w (s.reg k)) then some (r, off) else none
  | .ltClear k r _ due => if due = s.sys.epoch && !s.mayPut r k (s.reg k) then some (r, 0x8000 + keyOff k) else none
  | .action r o _ due => if due = s.sys.epoch && !s.mayWrite r o && o ≠ R.SAF_CONFIRM then some (r, o) else none
  | .map h r _ due _ => if due = s.sys.epoch && !s.mayMap r then some (r, mapWindow + 4 * h) else none

/-- A configuration write of a running generator that is due waits for the next START from then on (R212). -/
def State.genMark (s : State) (p : Pending) : State :=
  match p with
  | .image k _ _ due _ _ => match genOf k with
    | some g => if (s.gen g).running && epGe s.sys.epoch due then s.updGen g (fun a => { a with held := k :: a.held.erase k }) else s
    | none => s
  | _ => s

/-- Those of a list of pending writes that are due take effect in order, and the others go on waiting, but for one that ownership already
refuses at its first boundary (R394). -/
def State.applyAll (s : State) (ps : List Pending) : State :=
  ps.foldl (fun s p =>
    if s.pendDue p then s.applyPending p
    else match s.firstRefused p with
    | some (r, off) => s.logErr r 4 off
    | none => ({ s with regs := { s.regs with pend := s.regs.pend ++ [p] } } : State).genMark p) s

/-- The action of MTR_ACTION (R322). -/
def mtrPend : Pending → Bool
  | .action _ o _ _ => o = R.MTR_ACTION
  | _ => false

/-- The writes, LT clears and actions that are due take effect in the order of acceptance (R322, R449). A MERGE or DISCARD takes
effect before a change of metering parameters. -/
def State.applyDue (s : State) : State :=
  let ps := s.regs.pend
  let s : State := { s with regs := { s.regs with pend := [] } }
  let s := (s.applyAll (ps.filter mtrPend)).applyAll (ps.filter (fun p => !mtrPend p))
  { s with
    sys := { s.sys with runBlocked := if s.rb R.GRD_CFG 29 then 0 else 0x40 } }

/-- A source raised for the device has at least a class. -/
def State.raisedClass (s : State) (c : Nat) : Bool := s.devRaised.any (fun k => c ≤ s.srcClass k)

/-- The reactions of a boundary (R33, R291, R295, R309, R310): the deliberate reset, LOCKOUT, HOLD, and the end of an announcement
that a reaction meets. A source that is raised already and whose class the host rewrites to Lock-out (R302) brings LOCKOUT at the boundary,
without a BLOCK of its own: R293 names newly raised sources only. (DEDUCED, log 25.) -/
def State.reactions (s : State) : State :=
  let s := if s.prt.resetGo then
      let t := s.resetDo
      if t.sys.moved then t.take 0xFF 4 false else t
    else s
  let lock := s.prt.lockPending || s.raisedClass 5
  let block := s.prt.blockPending || s.raisedClass 4
  let s :=
    if s.sys.conv = .lockout then s.lockAgain
    else if s.sys.moved then s
    else if lock then (s.cancelAnnounce 3).moveTo .lockout 3
    else if s.sys.conv = .run ∧ block then s.moveTo .hold (if s.prt.firedHalt then 4 else 2)
    else if block then s.cancelAnnounce 3
    else s
  { s with prt := { s.prt with lockPending := s.prt.lockPending && s.sys.conv ≠ .lockout, blockPending := false, firedHalt := false } }

/-- A stop ramp that has ended takes the converter from RUN to READY, as the state order of the boundary (R192, R382).
(DEDUCED, log 11.) -/
def State.rampEnd (s : State) : State :=
  if s.ctl.rampDone ∧ s.sys.conv = .run ∧ s.sys.moved = false then (s.moveTo .ready 0 0).take opBlock 0 false else s


/-- The blocks at a boundary, after the transition and the orders. (DEDUCED, log 11.) -/
def State.blocksBoundary (s : State) (tj : Int) : State :=
  let s := s.mfeBoundary
  let s := s.celBoundary.supervise
  let s := s.lnkBoundary
  let s := s.ctlBoundary
  let s := s.grdBoundary
  let s := s.edgBoundary
  let s := s.hatBoundary
  let s := s.mtrBadCheck.mtrTotals
  let s := s.pwrBoundary tj
  ((s.pwrAnnex (s.sys.epoch - 1)).stateAnnex).prtSnap

/-- The work of a boundary, once its epoch has begun (R33, R449). (DESIGN CHOICE, log 10; DEDUCED, log 11.) -/
def State.boundary (s : State) (b : BoundaryIn) : State :=
  let s := s.vote b.upsets
  let s := b.ecc.foldl State.eccHit s
  let s := s.mfeEpochEnd
  let s := s.chargeBoundary
  let s := s.cratesBoundary
  let s := s.mtrBoundary
  let s := s.applyDue
  let s := s.dbgBoundary
  let s := s.prtBoundary
  let s := s.reactions
  let s := s.rampEnd
  let s := if s.runDue then s else s.evalOrders
  s.blocksBoundary b.tj

/-- EPOCH_BOUNDARY: the next epoch begins (R16, R449). -/
def execEpochBoundary (b : BoundaryIn) (s : State) : Out :=
  if s.sys.counting = false then .next s
  else
    let s := (s.slackMeter b.slack).missRuns
    let s := s.epochAdvance
    let s := s.annexPut (s.sys.epoch - 1) 0x4800
      ((List.range 14).map (fun k => BitVec.ofNat 32 (s.rf (R.SYS_SLACK k) 24 24 * 2 ^ 31 + s.rf (R.SYS_SLACK k) 7 0)))
    .next (s.boundary b).sequence

/-- RUN_START at E(k): the converter enters RUN, the DEBLOCK orders complete with OK, and the orders of the boundary are
evaluated against RUN (R34, R35, R382). (DEDUCED, log 11.) -/
def execRunStart (s : State) : Out :=
  if s.runDue then .next s.beginRun.evalOrders else .next s

/-- Item 14 + b stands for optional work item b of R410, still running at its deadline: it is abandoned for the present epoch
(R24, R207). (DESIGN CHOICE, log 45.) -/
def State.abandon (s : State) (item : Nat) : State :=
  let s := { s with sys := { s.sys with missNow := s.sys.missNow ||| 2 ^ item } }
  match item with
  | 14 => s.capAbandon
  | 16 => s.dbgCapAbandon
  | _ => s

/-- DEADLINE_MISS of an item: it keeps its previous outputs in this epoch, and its annex region is held (R23, R146, R150, R208); optional
work that is admitted is abandoned (R24). (DESIGN CHOICE, log 39.) -/
def execDeadlineMiss (item : Nat) (s : State) : Out :=
  if s.sys.counting = false ∨ 17 ≤ item ∨ bit s.sys.missNow item then .next s
  else if 14 ≤ item then
    .next (if s.pwr.admitted.contains (match item with | 14 => OptItem.capture | 15 => .mirror | _ => .debugCapture) then s.abandon item else s)
  else if item = 1 then .next s.controlMiss
  else
    let s := s.missItem item
    .next (if item = 12 then { s with cel := { s.cel with missedSeals := s.cel.missedSeals + 1 } } else s)

/-- The last REF_CFG.LOCK_WINDOWS windows pass (R412). (DESIGN CHOICE, log 4.) -/
def State.windowsPass (s : State) (ws : List LockWindow) : Bool :=
  let n := max 1 (s.rf R.REF_CFG 3 0)
  n ≤ ws.length && (ws.reverse.take n).all (fun w => w.held && w.lanes ≤ w.refclk + 1 && w.refclk ≤ w.lanes + 1)

/-- The band in use and the loop's control value go to the Trunk for the junction range, if they differ from the stored ones (R411). -/
def State.bandSave (s : State) (control : Nat) : State :=
  let old := s.storedBands
  let k := 3 * s.ref.range
  let ws := (List.range 12).map (fun i =>
    if i = k then 1 else if i = k + 1 then s.ref.band else if i = k + 2 then control else old.getD i 0)
  if old = ws then s else s.trkAsk .bands ws

/-- Lock at start-up (R15–R17, R411, R412, R447): the plan takes effect, E(0) begins with the writes accepted before it, and the band
and control value are kept for the junction range. The band is that of a calibration, if one ran, and the stored one otherwise. (DEDUCED, log 36.) -/
def State.firstLock (s : State) (band control : Nat) : State :=
  let s := if s.ref.calibrated || 1000000 ≤ s.start.aoNs - s.ref.sinceNs then s.calibrate band else s
  let s : State := { s with ref := { s.ref with state := .locked, muted := false } }
  let s := (s.bandSave control).takeStart R.SYS_PLAN
  let s := { s with
    sys := { s.sys with
      compat := s.rb R.SYS_PLAN 0, epoch := 0, counting := true, era := (s.sys.era + 1) % 2 ^ 16, moved := false, taken := none }
    regs := { s.regs with ltNow := [] } }
  let s := s.trkAsk .directory s.directoryWords
  (s.boundary ⟨[], [], [], s.sys.tj⟩).sequence

/-- LOCK_DECLARED: the last windows pass; at start-up the first epoch begins, and in holdover the wait before unmuting (R412,
R414). -/
def execLockDeclared (ws : List LockWindow) (band control : Nat) (s : State) : Out :=
  if s.windowsPass ws = false then .next s
  else match s.ref.state with
    | .unlocked =>
      if s.start.state = .running ∧ s.start.active ∧ s.start.step = 5 ∧ s.domain 49 ∧ s.sys.counting = false then
        .next (s.firstLock band control)
      else .next s
    | .holdover => .next (({ s with ref := { s.ref with state := .unmuteWait, waitEp := 0 } } : State).bandSave control)
    | _ => .next s

/-- REFERENCE_LOSS: every lane goes dark, and the synthesiser enters holdover; in the wait before unmuting it returns there (R413,
R414). -/
def execReferenceLoss (s : State) : Out :=
  if s.ref.state = .locked ∨ s.ref.state = .unmuteWait then
    let s := { s with ref := { s.ref with state := .holdover, muted := true, holdoverEp := 0 } }
    let s := (s.count R.REF_STATUS 15 0).latch R.REF_CAUSE 0
    .next (s.binLog 0xC0 [s.refStatus.toNat])
  else .next s

/-- UNMUTE: lock has held for UNMUTE_EP epochs, and the lanes launch frames again (R414). -/
def execUnmute (s : State) : Out :=
  if s.ref.state = .unmuteWait ∧ max 1 (s.rf R.REF_CFG 31 16) ≤ s.ref.waitEp then
    let s := { s with ref := { s.ref with state := .locked, muted := false } }
    let s := s.latch R.REF_CAUSE 1
    .next (s.binLog 0xC1 [s.refStatus.toNat]).sequence
  else .next s

end Sys2Proof.Machine
end

