-- ==== Sys2Proof/Machine/Tap.lean ====
section
/-! DEFINITION. The test access port and the pins that its boundary register covers (R474, R476, R481–R483). -/

namespace Sys2Proof.Machine

/-- The VIO-level and open-drain pins, each of which has one boundary cell (R469, R474, R483). -/
inductive Pin where
  | sinA (p : Fin 16) | sinB (p : Fin 16) | tpo (t : Fin 4) | sout (o : Fin 8) | srb (o : Fin 8) | srst | mpulse (o : Fin 8)
  | encA (k : Fin 3) | encB (k : Fin 3) | encZ (k : Fin 3) | trip (t : Fin 4)
  | porstN | bootHoldN | pfailN | irqN | vcoreEn | pgVser | pgVopt | pgVana | pmbScl | pmbSda
  | qspiCsN | qspiSck | qspiIo (i : Fin 4) | mspiCsN | mspiSck | mspiSdi | mspiSdo
  | tck | tms | tdi | tdo | trstN
deriving DecidableEq, Repr

/-- The pins in the order of their cells, from TDI to TDO: the order in which R469 names them. (DESIGN CHOICE, log 38.) -/
def Pin.all : List Pin :=
  (List.finRange 16).map .sinA ++ (List.finRange 16).map .sinB ++ (List.finRange 4).map .tpo ++ (List.finRange 8).map .sout ++
  (List.finRange 8).map .srb ++ [.srst] ++ (List.finRange 8).map .mpulse ++ (List.finRange 3).map .encA ++
  (List.finRange 3).map .encB ++ (List.finRange 3).map .encZ ++ (List.finRange 4).map .trip ++
  [.porstN, .bootHoldN, .pfailN, .irqN, .vcoreEn, .pgVser, .pgVopt, .pgVana, .pmbScl, .pmbSda, .qspiCsN, .qspiSck] ++
  (List.finRange 4).map .qspiIo ++ [.mspiCsN, .mspiSck, .mspiSdi, .mspiSdo, .tck, .tms, .tdi, .tdo, .trstN]

/-- What the device does at a pin: drives it low or high, drives it at a level that the manual does not give, or leaves it to the
board. -/
inductive Drive where
  | low | high | unstated | released
deriving DecidableEq, Repr

/-- A push-pull output at a level. -/
def Drive.push (b : Bool) : Drive := if b then .high else .low

/-- An open-drain output, which conducts or is released. -/
def Drive.pull (low : Bool) : Drive := if low then .low else .released

/-- The kinds of boundary cell: of an input, of an output, of an open-drain pin, or observe-only; the test access port's own pins are
observe-only too, since the port itself uses them (R474, R481, R483). (DEDUCED, log 38.) -/
inductive CellKind where
  | input | output | openDrain | observe
deriving DecidableEq, Repr

/-- The kind of a pin's cell (R474, R483). -/
def Pin.kind : Pin → CellKind
  | .tpo _ | .sout _ | .trip _ | .tck | .tms | .tdi | .tdo | .trstN => .observe
  | .mpulse _ | .irqN | .pmbScl | .pmbSda => .openDrain
  | .vcoreEn | .qspiCsN | .qspiSck | .qspiIo _ | .mspiSdo => .output
  | .sinA _ | .sinB _ | .srb _ | .srst | .encA _ | .encB _ | .encZ _ | .porstN | .bootHoldN | .pfailN | .pgVser | .pgVopt | .pgVana
  | .mspiCsN | .mspiSck | .mspiSdi => .input

/-- What the device does at a pin in its function, between transactions of the PMBus, the boot flash and the management port
(R308, R326, R340, R347, R434, R476). -/
def State.pinFunction (s : State) : Pin → Drive
  | .tpo t => .push (!s.tpoLow t.val)
  | .sout o => .push (s.soutHigh o.val)
  | .trip t => .push (smFind s.prt.trips t.val).isSome
  | .mpulse o => .pull (s.pulse o.val).out
  | .irqN => .pull s.irqLow
  | .vcoreEn => .push s.pwr.vcoreEn
  | .qspiCsN => .high
  | .qspiSck => .unstated
  | _ => .released

/-- The level that a cell holds in the boundary register's update stage; one never loaded holds 0. (DESIGN CHOICE, log 38.) -/
def State.cellLevel (s : State) (p : Pin) : Bool := s.dbg.boundary.getD (Pin.all.idxOf p) false

/-- What the device does at a pin: EXTEST and CLAMP drive the pins that have a driving cell from the boundary register, HIGHZ releases
them, and every other instruction leaves each at its function; so does every instruction a pin whose cell is observe-only (R482, R483). -/
def State.pinDrive (s : State) (p : Pin) : Drive :=
  match p.kind with
  | .observe => s.pinFunction p
  | .input => .released
  | .output =>
    if s.dbg.instr = 0x00 ∨ s.dbg.instr = 0x06 then .push (s.cellLevel p)
    else if s.dbg.instr = 0x05 then .released else s.pinFunction p
  | .openDrain =>
    if s.dbg.instr = 0x00 ∨ s.dbg.instr = 0x06 then .pull (!s.cellLevel p)
    else if s.dbg.instr = 0x05 then .released else s.pinFunction p

/-- The level of a pin: as the device drives it; as the last command showed PORST_N and PFAIL_N; else a free value, since the board sets
it. (DESIGN CHOICE, log 2; DEDUCED, log 38.) -/
def State.pinLevel (s : State) (p : Pin) : Bool :=
  match s.pinDrive p with
  | .low => false
  | .high => true
  | _ => match p with
    | .porstN => s.start.powered
    | .pfailN => !s.pwr.pfail
    | _ => Config.freeBit (s.freeCount + Pin.all.idxOf p)

/-- Capture-DR with the boundary register selected: every cell captures its pin (R483). -/
def State.tapCapture (s : State) : State :=
  { s with dbg := { s.dbg with captured := Pin.all.map s.pinLevel }, freeCount := s.freeCount + Pin.all.length }

/-- A scan of the boundary register: it captures the pins, and the bits shifted in, the last first, become its cells from TDI on, the
captured levels moving towards TDO; a scan that shifts none leaves the cells as they are (R482, R483). (DEDUCED, log 38.) -/
def State.tapScan (s : State) (cells : List Bool) : State :=
  let s := s.tapCapture
  if cells = [] then s
  else { s with dbg := { s.dbg with boundary := (cells ++ s.dbg.captured).take Pin.all.length } }

/-- TAP_RESET: the port is reset; IDCODE is in force, and the pins return to their functions (R481, R482). (PRESUMED, log 31.) -/
def execTapReset (s : State) : Out := .next (s.tapLoad 0x01)

/-- EXTEST drives the pins from the boundary register and scans it, or BYPASS is loaded (R482, R483). (DEDUCED, log 38.) -/
def execExtest (cells : List Bool) (s : State) : Out :=
  .next (if s.tapPermitted then (s.tapTestLoad 0x00).tapScan cells else s.tapTestLoad 0x00)

/-- IDCODE selects the 32-bit identity register (R481). -/
def execIdcode (s : State) : Out := .next (s.tapLoad 0x01)

/-- SAMPLE/PRELOAD selects the boundary register and scans it; the pins keep their functions (R482, R483). (DEDUCED, log 38.) -/
def execSamplePreload (cells : List Bool) (s : State) : Out := .next ((s.tapLoad 0x02).tapScan cells)

/-- HIGHZ floats the boundary pins, if permitted (R482). -/
def execHighz (s : State) : Out := .next (s.tapTestLoad 0x05)

/-- CLAMP holds the boundary values with bypass selected, if permitted (R482). -/
def execClamp (s : State) : Out := .next (s.tapTestLoad 0x06)

/-- BYPASS, or any undefined code, selects the 1-bit bypass register; the pins are at their functions (R482). -/
def execTapBypass (s : State) : Out := .next (s.tapLoad 0xFF)

end Sys2Proof.Machine
end

