-- ==== Sys2Proof/Machine/Dispatch.lean ====
section
/-! DEFINITION. The meaning of every command: one arm per constructor of Instr, each one direct call. -/

namespace Sys2Proof.Machine

/-- The command's effect on everything but the queue. (DEDUCED, log 3.) -/
def exec (i : Instr) (s : State) : Host.Outcome State Fault Refusal :=
  match i with
  | .epochBoundary b => Sys2Proof.Machine.execEpochBoundary b s
  | .preEpochVote upsets => Sys2Proof.Machine.execPreEpochVote upsets s
  | .chargeComplete => Sys2Proof.Machine.execChargeComplete s
  | .chargeConditionsLost => Sys2Proof.Machine.execChargeConditionsLost s
  | .chargeTimeout => Sys2Proof.Machine.execChargeTimeout s
  | .runStart => Sys2Proof.Machine.execRunStart s
  | .deadlineMiss item => Sys2Proof.Machine.execDeadlineMiss item s
  | .epochLoRead req => Sys2Proof.Machine.execEpochLoRead req s
  | .slotSample slot v enc => Sys2Proof.Machine.execSlotSample slot v enc s
  | .gainUpSwitch input => Sys2Proof.Machine.execGainUpSwitch input s
  | .epochValueDelivery => Sys2Proof.Machine.execEpochValueDelivery s
  | .openWireDeclare input => Sys2Proof.Machine.execOpenWireDeclare input s
  | .openWireClear input => Sys2Proof.Machine.execOpenWireClear input s
  | .xchkFailure pair => Sys2Proof.Machine.execXchkFailure pair s
  | .xchkRecovery pair => Sys2Proof.Machine.execXchkRecovery pair s
  | .comparatorTrip cmp upper fine => Sys2Proof.Machine.execComparatorTrip cmp upper fine s
  | .rampPeriodStart cmp => Sys2Proof.Machine.execRampPeriodStart cmp s
  | .mfeTestStart req kind target => Sys2Proof.Machine.execMfeTestStart req kind target s
  | .selfTestComplete => Sys2Proof.Machine.execSelfTestComplete s
  | .encoderEvaluation => Sys2Proof.Machine.execEncoderEvaluation s
  | .encReref req enc pos => Sys2Proof.Machine.execEncReref req enc pos s
  | .frameLaunch lane => Sys2Proof.Machine.execFrameLaunch lane s
  | .returnFrameReceive lane blocks => Sys2Proof.Machine.execReturnFrameReceive lane blocks s
  | .headerWindowMiss lane => Sys2Proof.Machine.execHeaderWindowMiss lane s
  | .returnOffsetAcquire lane ofs first second => Sys2Proof.Machine.execReturnOffsetAcquire lane ofs first second s
  | .lockLoss lane => Sys2Proof.Machine.execLockLoss lane s
  | .svcTimeout lane => Sys2Proof.Machine.execSvcTimeout lane s
  | .discoveryStart lane => Sys2Proof.Machine.execDiscoveryStart lane s
  | .probeSend lane => Sys2Proof.Machine.execProbeSend lane s
  | .echoReceive lane echo rt => Sys2Proof.Machine.execEchoReceive lane echo rt s
  | .probeLost lane => Sys2Proof.Machine.execProbeLost lane s
  | .leadTrimChange lane => Sys2Proof.Machine.execLeadTrimChange lane s
  | .unitUnobserved home => Sys2Proof.Machine.execUnitUnobserved home s
  | .unitLost home => Sys2Proof.Machine.execUnitLost home s
  | .cutOff lane => Sys2Proof.Machine.execCutOff lane s
  | .routeReassign home => Sys2Proof.Machine.execRouteReassign home s
  | .bridgeVerify req lane => Sys2Proof.Machine.execBridgeVerify req lane s
  | .bridgeVerifyNoPath => Sys2Proof.Machine.execBridgeVerifyNoPath s
  | .bridgeDiscovery lane => Sys2Proof.Machine.execBridgeDiscovery lane s
  | .handoverStart pair => Sys2Proof.Machine.execHandoverStart pair s
  | .handoverEnd pair => Sys2Proof.Machine.execHandoverEnd pair s
  | .handbackGo req lane => Sys2Proof.Machine.execHandbackGo req lane s
  | .handbackStart pair => Sys2Proof.Machine.execHandbackStart pair s
  | .handbackComplete pair => Sys2Proof.Machine.execHandbackComplete pair s
  | .handbackAbort pair => Sys2Proof.Machine.execHandbackAbort pair s
  | .quarantine lane => Sys2Proof.Machine.execQuarantine lane s
  | .bridgeLimitExpiry pair => Sys2Proof.Machine.execBridgeLimitExpiry pair s
  | .clearQuarantine req lane => Sys2Proof.Machine.execClearQuarantine req lane s
  | .clearCounters req lane => Sys2Proof.Machine.execClearCounters req lane s
  | .clearLost req lane => Sys2Proof.Machine.execClearLost req lane s
  | .retrim req lane => Sys2Proof.Machine.execRetrim req lane s
  | .lnkTblRead req => Sys2Proof.Machine.execLnkTblRead req s
  | .sealPass => Sys2Proof.Machine.execSealPass s
  | .rowRepairMark bank row => Sys2Proof.Machine.execRowRepairMark bank row s
  | .snapshotCopy hatch => Sys2Proof.Machine.execSnapshotCopy hatch s
  | .celCtrClear req => Sys2Proof.Machine.execCelCtrClear req s
  | .crateStaging slot => Sys2Proof.Machine.execCrateStaging slot s
  | .crateCommitDecision slot => Sys2Proof.Machine.execCrateCommitDecision slot s
  | .cratePartTimeout slot => Sys2Proof.Machine.execCratePartTimeout slot s
  | .crateAbortDecision slot => Sys2Proof.Machine.execCrateAbortDecision slot s
  | .crateApply slot => Sys2Proof.Machine.execCrateApply slot s
  | .crateVerifyEnd slot => Sys2Proof.Machine.execCrateVerifyEnd slot s
  | .crateAbortDone slot => Sys2Proof.Machine.execCrateAbortDone slot s
  | .crateBuildLimit slot => Sys2Proof.Machine.execCrateBuildLimit slot s
  | .crateSlotFree slot => Sys2Proof.Machine.execCrateSlotFree slot s
  | .gridEnginePass => Sys2Proof.Machine.execGridEnginePass s
  | .observerLock => Sys2Proof.Machine.execObserverLock s
  | .observerLos => Sys2Proof.Machine.execObserverLos s
  | .freewheelTimeout => Sys2Proof.Machine.execFreewheelTimeout s
  | .rocofWindowEnd => Sys2Proof.Machine.execRocofWindowEnd s
  | .frtEntry => Sys2Proof.Machine.execFrtEntry s
  | .frtExit => Sys2Proof.Machine.execFrtExit s
  | .frtTimeout => Sys2Proof.Machine.execFrtTimeout s
  | .curveActivation curve => Sys2Proof.Machine.execCurveActivation curve s
  | .envelopeViolation curve => Sys2Proof.Machine.execEnvelopeViolation curve s
  | .islandConfirm => Sys2Proof.Machine.execIslandConfirm s
  | .islandPulse => Sys2Proof.Machine.execIslandPulse s
  | .toGfm req => Sys2Proof.Machine.execToGfm req s
  | .toGfl req => Sys2Proof.Machine.execToGfl req s
  | .gflTransfer => Sys2Proof.Machine.execGflTransfer s
  | .cancel req => Sys2Proof.Machine.execCancel req s
  | .clearIsland req => Sys2Proof.Machine.execClearIsland req s
  | .clearFrt req => Sys2Proof.Machine.execClearFrt req s
  | .chopperPass => Sys2Proof.Machine.execChopperPass s
  | .controlPass => Sys2Proof.Machine.execControlPass s
  | .stopRampComplete => Sys2Proof.Machine.execStopRampComplete s
  | .stopRampTimeout => Sys2Proof.Machine.execStopRampTimeout s
  | .plausWindowEnd check => Sys2Proof.Machine.execPlausWindowEnd check s
  | .rcClear req table => Sys2Proof.Machine.execRcClear req table s
  | .clearCheckCounts req => Sys2Proof.Machine.execClearCheckCounts req s
  | .genStart req gen => Sys2Proof.Machine.execGenStart req gen s
  | .genStop req gen => Sys2Proof.Machine.execGenStop req gen s
  | .capArm req => Sys2Proof.Machine.execCapArm req s
  | .capAbort req => Sys2Proof.Machine.execCapAbort req s
  | .capTrigger => Sys2Proof.Machine.execCapTrigger s
  | .capDone => Sys2Proof.Machine.execCapDone s
  | .armEnginePass group => Sys2Proof.Machine.execArmEnginePass group s
  | .edgePlannerPass => Sys2Proof.Machine.execEdgePlannerPass s
  | .profileLoad home => Sys2Proof.Machine.execProfileLoad home s
  | .forceSet req home code => Sys2Proof.Machine.execForceSet req home code s
  | .forceRelease req home => Sys2Proof.Machine.execForceRelease req home s
  | .forceReleaseAll req => Sys2Proof.Machine.execForceReleaseAll req s
  | .bypassGo req home => Sys2Proof.Machine.execBypassGo req home s
  | .bypassFire home => Sys2Proof.Machine.execBypassFire home s
  | .bypassConfirmTimeout home => Sys2Proof.Machine.execBypassConfirmTimeout home s
  | .lostBypassRetry home => Sys2Proof.Machine.execLostBypassRetry home s
  | .protectionPass isA ns => Sys2Proof.Machine.execProtectionPass isA ns s
  | .abDisc => Sys2Proof.Machine.execAbDisc s
  | .recoveryTimerExpiry isA source => Sys2Proof.Machine.execRecoveryTimerExpiry isA source s
  | .degradeExpiry isA source ns => Sys2Proof.Machine.execDegradeExpiry isA source ns s
  | .recoveryComplete => Sys2Proof.Machine.execRecoveryComplete s
  | .holdTimeout => Sys2Proof.Machine.execHoldTimeout s
  | .tripPulseEnd trip => Sys2Proof.Machine.execTripPulseEnd trip s
  | .resetArm req key => Sys2Proof.Machine.execResetArm req key s
  | .resetGo req key => Sys2Proof.Machine.execResetGo req key s
  | .resetArmExpiry => Sys2Proof.Machine.execResetArmExpiry s
  | .meteringPass => Sys2Proof.Machine.execMeteringPass s
  | .pulseStart output => Sys2Proof.Machine.execPulseStart output s
  | .pulseEnd output => Sys2Proof.Machine.execPulseEnd output s
  | .merge req tally mask => Sys2Proof.Machine.execMerge req tally mask s
  | .discard req tally mask => Sys2Proof.Machine.execDiscard req tally mask s
  | .sealMeter req key => Sys2Proof.Machine.execSealMeter req key s
  | .unsealMeter req key => Sys2Proof.Machine.execUnsealMeter req key s
  | .meterCheckRecompute => Sys2Proof.Machine.execMeterCheckRecompute s
  | .periodicSave => Sys2Proof.Machine.execPeriodicSave s
  | .safetySample raw srb srst => Sys2Proof.Machine.execSafetySample raw srb srst s
  | .safetyCycle diff ns => Sys2Proof.Machine.execSafetyCycle diff ns s
  | .pairDiscFault pair => Sys2Proof.Machine.execPairDiscFault pair s
  | .testPulse tpo => Sys2Proof.Machine.execTestPulse tpo s
  | .offPulse output => Sys2Proof.Machine.execOffPulse output s
  | .readbackCheck output => Sys2Proof.Machine.execReadbackCheck output s
  | .deadHeld => Sys2Proof.Machine.execDeadHeld s
  | .safetyResetRequest => Sys2Proof.Machine.execSafetyResetRequest s
  | .resetStuck => Sys2Proof.Machine.execResetStuck s
  | .confirmGo req key => Sys2Proof.Machine.execConfirmGo req key s
  | .confirmDiscard req key => Sys2Proof.Machine.execConfirmDiscard req key s
  | .safetySetInForce => Sys2Proof.Machine.execSafetySetInForce s
  | .safetyCheckRecompute => Sys2Proof.Machine.execSafetyCheckRecompute s
  | .safetySetReload => Sys2Proof.Machine.execSafetySetReload s
  | .telegramSend => Sys2Proof.Machine.execTelegramSend s
  | .stationFrameReceive port bytes => Sys2Proof.Machine.execStationFrameReceive port bytes s
  | .telegramWatchdog => Sys2Proof.Machine.execTelegramWatchdog s
  | .mirrorSend => Sys2Proof.Machine.execMirrorSend s
  | .hatchReset hatch kind => Sys2Proof.Machine.execHatchReset hatch kind s
  | .ringCfgWrite hatch value => Sys2Proof.Machine.execRingCfgWrite hatch value s
  | .ringReset hatch => Sys2Proof.Machine.execRingReset hatch s
  | .orderDoorbell hatch ring value => Sys2Proof.Machine.execOrderDoorbell hatch ring value s
  | .completionDoorbell hatch ring value => Sys2Proof.Machine.execCompletionDoorbell hatch ring value s
  | .eventDoorbell hatch value => Sys2Proof.Machine.execEventDoorbell hatch value s
  | .orderFetch hatch ring => Sys2Proof.Machine.execOrderFetch hatch ring s
  | .descriptorReadDone hatch ring res ns => Sys2Proof.Machine.execDescriptorReadDone hatch ring res ns s
  | .nop ref => Sys2Proof.Machine.execNop ref s
  | .energise ref => Sys2Proof.Machine.execEnergise ref s
  | .deblock ref => Sys2Proof.Machine.execDeblock ref s
  | .block ref => Sys2Proof.Machine.execBlock ref s
  | .deenergise ref => Sys2Proof.Machine.execDeenergise ref s
  | .setPoint ref entries => Sys2Proof.Machine.execSetPoint ref entries s
  | .snapshot ref args => Sys2Proof.Machine.execSnapshot ref args s
  | .crateOpen ref => Sys2Proof.Machine.execCrateOpen ref s
  | .crateAddGate ref id home items => Sys2Proof.Machine.execCrateAddGate ref id home items s
  | .crateAddDevice ref id part w2 w3 => Sys2Proof.Machine.execCrateAddDevice ref id part w2 w3 s
  | .crateClose ref id => Sys2Proof.Machine.execCrateClose ref id s
  | .crateAbort ref id => Sys2Proof.Machine.execCrateAbort ref id s
  | .kick hatch => Sys2Proof.Machine.execKick hatch s
  | .hatchSilence hatch => Sys2Proof.Machine.execHatchSilence hatch s
  | .powerOn inp => Sys2Proof.Machine.execPowerOn inp s
  | .continueStart req => Sys2Proof.Machine.execContinueStart req s
  | .restart req key inp => Sys2Proof.Machine.execRestart req key inp s
  | .pmbusPoll replies other_mW => Sys2Proof.Machine.execPmbusPoll replies other_mW s
  | .slackWindowEnd => Sys2Proof.Machine.execSlackWindowEnd s
  | .voutCommand acks => Sys2Proof.Machine.execVoutCommand acks s
  | .budgetAdmit => Sys2Proof.Machine.execBudgetAdmit s
  | .lockDeclared windows band control => Sys2Proof.Machine.execLockDeclared windows band control s
  | .referenceLoss => Sys2Proof.Machine.execReferenceLoss s
  | .unmute => Sys2Proof.Machine.execUnmute s
  | .pfailAssert => Sys2Proof.Machine.execPfailAssert s
  | .pfailRelease => Sys2Proof.Machine.execPfailRelease s
  | .trunkWriteStart => Sys2Proof.Machine.execTrunkWriteStart s
  | .trunkWriteComplete ok => Sys2Proof.Machine.execTrunkWriteComplete ok s
  | .format req key => Sys2Proof.Machine.execFormat req key s
  | .registerWrite w => Sys2Proof.Machine.execRegisterWrite w s
  | .setAliasWrite w => Sys2Proof.Machine.execSetAliasWrite w s
  | .clearAliasWrite w => Sys2Proof.Machine.execClearAliasWrite w s
  | .toggleAliasWrite w => Sys2Proof.Machine.execToggleAliasWrite w s
  | .mgmtWrite frame ns => Sys2Proof.Machine.execMgmtWrite frame ns s
  | .mgmtRead frame => Sys2Proof.Machine.execMgmtRead frame s
  | .mgmtStatus frame => Sys2Proof.Machine.execMgmtStatus frame s
  | .statusClear frame => Sys2Proof.Machine.execStatusClear frame s
  | .totalLoRead req off => Sys2Proof.Machine.execTotalLoRead req off s
  | .tapReset => Sys2Proof.Machine.execTapReset s
  | .extest cells => Sys2Proof.Machine.execExtest cells s
  | .idcode => Sys2Proof.Machine.execIdcode s
  | .samplePreload cells => Sys2Proof.Machine.execSamplePreload cells s
  | .highz => Sys2Proof.Machine.execHighz s
  | .clamp => Sys2Proof.Machine.execClamp s
  | .tapBypass => Sys2Proof.Machine.execTapBypass s
  | .dbgAccess write off value ns => Sys2Proof.Machine.execDbgAccess write off value ns s
  | .halt req targets ns => Sys2Proof.Machine.execHalt req targets ns s
  | .resume req targets => Sys2Proof.Machine.execResume req targets s
  | .stepEngine req targets => Sys2Proof.Machine.execStepEngine req targets s
  | .dbgCapArm req => Sys2Proof.Machine.execDbgCapArm req s
  | .dbgCapAbort req => Sys2Proof.Machine.execDbgCapAbort req s
  | .blockLockAcquire lane syncs => Sys2Proof.Machine.execBlockLockAcquire lane syncs s
  | .domainReady domain => Sys2Proof.Machine.execDomainReady domain s
  | .startStepTimeout inp => Sys2Proof.Machine.execStartStepTimeout inp s
  | .lossOfVaon => Sys2Proof.Machine.execLossOfVaon s
  | .porstNAssert => Sys2Proof.Machine.execPorstNAssert s
  | .hatchLinkUp hatch cfg => Sys2Proof.Machine.execHatchLinkUp hatch cfg s
  | .mgmtUnknownCommand frame => Sys2Proof.Machine.execMgmtUnknownCommand frame s
  | .trkBinRead req word => Sys2Proof.Machine.execTrkBinRead req word s
  | .bar2Write hatch off => Sys2Proof.Machine.execBar2Write hatch off s

end Sys2Proof.Machine
end

