-- ==== Sys2Proof/WellFormed.lean ====
section
/-! DEFINITION. Which commands are well formed: operands within the ranges the manual gives their fields. A command that is
not well formed reaches the block from nowhere; the statements about a command hold for the well-formed ones. -/

namespace Sys2Proof

/-- A line block has one of the four 2-bit sync headers (R64). -/
def LineBlock.wf (b : LineBlock) : Bool := b.sync < 4

/-- A disturbance flips bits of one of the three copies of a word (R455). -/
def Upset.wf (u : Upset) : Bool := u.copy < 3

/-- Both lines of an input stay within the ±15 V that the front end survives (chapter 15, absolute maximum ratings). -/
def SampleIn.wf (v : SampleIn) : Bool :=
  -30000000000 ≤ v.nv && v.nv ≤ 30000000000 && -30000000000 ≤ v.pairNv && v.pairNv ≤ 30000000000

/-- An error in the Cellar lies in one of its four banks, in a row number below 2^20 (more than a bank has), and spoils an entry of a
home address or one of the 4,096 words of 64 bits of an annex (R136, R148, R151). -/
def EccHit.wf (e : EccHit) : Bool :=
  e.bank < 4 && e.row < 2 ^ 20 && e.home < 4096 && (match e.annexWord with | some w => w < 4096 | none => true)

/-- What a boundary brings is well formed: fourteen items have a timing, and nothing ends before it starts (R21).
(DESIGN CHOICE, log 19.) -/
def BoundaryIn.wf (b : BoundaryIn) : Bool :=
  b.ecc.all EccHit.wf && b.upsets.all Upset.wf && b.slack.length ≤ 14 && b.slack.all (fun x => x.t_start ≤ x.t_done)

/-- A register write names a location of the 64 KiB register space, or a word of the window for the map (log entry 41), and arrives
within an epoch (R437, R440). (DESIGN CHOICE, log 41.) -/
def WriteReq.wf (w : WriteReq) : Bool := w.off < 2 ^ 20 && w.off % 4 = 0 && w.at_ns < 512

/-- An order stands in a ring of 16, at an index of a ring of at most 2^16 entries, with a 16-bit TAG (R374, R384). -/
def OrderRef.wf (r : OrderRef) : Bool := r.ring < 16 && r.index < 2 ^ 16 && r.tag < 2 ^ 16

/-- The KIND and INDEX of a set-point (R386). -/
def SetPointEntry.wf (e : SetPointEntry) : Bool := e.kind < 8 && e.index < 256

/-- The words of a SNAPSHOT order (R386). -/
def SnapshotArgs.wf (a : SnapshotArgs) : Bool := a.count < 2 ^ 13 && a.first < 4096

/-- A staged item is a 4-bit item kind with a 30-bit value (R386). -/
def StagedItem.wf (x : StagedItem) : Bool := x.item < 16 && x.value < 2 ^ 30

/-- The link trains within R369, and the sizes and the timeout code are those that R369 and R400 let the host choose. -/
def PcieCfg.wf (c : PcieCfg) : Bool :=
  1 ≤ c.speed && c.speed ≤ 5 && [1, 2, 4].contains c.width && [128, 256, 512].contains c.maxPayload &&
    [128, 256, 512, 1024, 2048, 4096].contains c.maxRead && [0, 1, 2, 5, 6].contains c.cplTimeout

/-- A descriptor is eight words (R377, R384). -/
def DescResult.wf : DescResult → Bool
  | .words ws => ws.length = 8
  | .failed _ => true

/-- What the Start Sequencer finds names lanes, banks and READ_VOUT values that exist (R416–R425). -/
def StartIn.wf (i : StartIn) : Bool :=
  i.vout.length ≤ 2 && i.badBanks.all (· < 4) && i.badLanes.all (· < 512)

/-- A command is well formed. (DEDUCED, log 3.) -/
def Instr.wf : Instr → Bool
  | .epochBoundary b => b.wf
  | .preEpochVote us => us.all Upset.wf
  | .chargeComplete => true
  | .chargeConditionsLost => true
  | .chargeTimeout => true
  | .runStart => true
  | .deadlineMiss i => i < 17
  | .epochLoRead _ => true
  | .slotSample n v e => n < 4 && v.length = 48 && e.length = 3 && v.all SampleIn.wf
  | .gainUpSwitch i => i < 48
  | .epochValueDelivery => true
  | .openWireDeclare i => i < 48
  | .openWireClear i => i < 48
  | .xchkFailure p => p < 24
  | .xchkRecovery p => p < 24
  | .comparatorTrip j _ f => j < 16 && f < 512
  | .rampPeriodStart j => j < 16
  | .mfeTestStart _ k t => k < 16 && t < 64
  | .selfTestComplete => true
  | .encoderEvaluation => true
  | .encReref _ k _ => k < 3
  | .frameLaunch l => l < 512
  | .returnFrameReceive l bs => l < 512 && bs.all LineBlock.wf
  | .headerWindowMiss m => m.lane < 512 && m.blocks.all LineBlock.wf
  | .returnOffsetAcquire l _ a b => l < 512 && a.wf && b.wf
  | .lockLoss x => x.lane < 514 && x.syncs.length ≤ 64 && x.syncs.all (· < 4)
  | .svcTimeout l => l < 512
  | .discoveryStart l => l < 512
  | .probeSend l => l < 512
  | .echoReceive l e _ => l < 512 && e.wf
  | .probeLost l => l < 512
  | .leadTrimChange l => l < 512
  | .unitUnobserved h => h < 4096
  | .unitLost h => h < 4096
  | .cutOff l => l < 512
  | .routeReassign h => h < 4096
  | .bridgeVerify _ l => l < 512
  | .bridgeVerifyNoPath => true
  | .bridgeDiscovery l => l < 512
  | .handoverStart p => p < 256
  | .handoverEnd p => p < 256
  | .handbackGo _ l => l < 512
  | .handbackStart p => p < 256
  | .handbackComplete p => p < 256
  | .handbackAbort p => p < 256
  | .quarantine l => l < 512
  | .bridgeLimitExpiry p => p < 256
  | .clearQuarantine _ l => l < 512
  | .clearCounters _ l => l < 512
  | .clearLost _ l => l < 512
  | .retrim _ l => l < 512
  | .lnkTblRead _ => true
  | .sealPass => true
  | .rowRepairMark b r => b < 4 && r < 2 ^ 20
  | .snapshotCopy _ => true
  | .celCtrClear _ => true
  | .crateStaging s => s < 4
  | .crateCommitDecision s => s < 4
  | .cratePartTimeout s => s < 4
  | .crateAbortDecision s => s < 4
  | .crateApply s => s < 4
  | .crateVerifyEnd s => s < 4
  | .crateAbortDone s => s < 4
  | .crateBuildLimit s => s < 4
  | .crateSlotFree s => s < 4
  | .gridEnginePass => true
  | .observerLock => true
  | .observerLos => true
  | .freewheelTimeout => true
  | .rocofWindowEnd => true
  | .frtEntry => true
  | .frtExit => true
  | .frtTimeout => true
  | .curveActivation c => c < 8
  | .envelopeViolation c => c < 8
  | .islandConfirm => true
  | .islandPulse => true
  | .toGfm _ => true
  | .toGfl _ => true
  | .gflTransfer => true
  | .cancel _ => true
  | .clearIsland _ => true
  | .clearFrt _ => true
  | .chopperPass => true
  | .controlPass => true
  | .stopRampComplete => true
  | .stopRampTimeout => true
  | .plausWindowEnd c => c < 5
  | .rcClear _ t => t < 8
  | .clearCheckCounts _ => true
  | .genStart _ g => g < 4
  | .genStop _ g => g < 4
  | .capArm _ => true
  | .capAbort _ => true
  | .capTrigger => true
  | .capDone => true
  | .armEnginePass g => g < 7
  | .edgePlannerPass => true
  | .profileLoad h => h < 4096
  | .forceSet _ h c => h < 4096 && c < 4
  | .forceRelease _ h => h < 4096
  | .forceReleaseAll _ => true
  | .bypassGo _ h => h < 4096
  | .bypassFire h => h < 4096
  | .bypassConfirmTimeout h => h < 4096
  | .lostBypassRetry h => h < 4096
  | .protectionPass _ n => n < 512
  | .abDisc => true
  | .recoveryTimerExpiry _ k => k < 71
  | .degradeExpiry _ k n => k < 71 && n < 512
  | .recoveryComplete => true
  | .holdTimeout => true
  | .tripPulseEnd t => t < 4
  | .resetArm _ k => k < 2 ^ 16
  | .resetGo _ k => k < 2 ^ 16
  | .resetArmExpiry => true
  | .meteringPass => true
  | .pulseStart p => p < 8
  | .pulseEnd p => p < 8
  | .merge _ t m => t < 4 && m < 64
  | .discard _ t m => t < 4 && m < 64
  | .sealMeter _ k => k < 2 ^ 16
  | .unsealMeter _ k => k < 2 ^ 16
  | .meterCheckRecompute => true
  | .periodicSave => true
  | .safetySample r b _ => r < 2 ^ 32 && b < 256
  | .safetyCycle d n => d < 2 ^ 24 && n < 512
  | .pairDiscFault p => p < 16
  | .testPulse t => t < 4
  | .offPulse o => o < 8
  | .readbackCheck o => o < 8
  | .deadHeld => true
  | .safetyResetRequest => true
  | .resetStuck => true
  | .confirmGo _ k => k < 2 ^ 16
  | .confirmDiscard _ k => k < 2 ^ 16
  | .safetySetInForce => true
  | .safetyCheckRecompute => true
  | .safetySetReload => true
  | .telegramSend => true
  | .stationFrameReceive p _ => p < 2
  | .telegramWatchdog => true
  | .mirrorSend => true
  | .hatchReset _ _ => true
  | .ringCfgWrite _ _ => true
  | .ringReset _ => true
  | .orderDoorbell _ r _ => r < 16
  | .completionDoorbell _ r _ => r < 16
  | .eventDoorbell _ _ => true
  | .orderFetch _ r => r < 16
  | .descriptorReadDone _ r d n => r < 16 && d.wf && n < 512
  | .nop r => r.wf
  | .energise r => r.wf
  | .deblock r => r.wf
  | .block r => r.wf
  | .deenergise r => r.wf
  | .setPoint r es => r.wf && 1 ≤ es.length && es.length ≤ 6 && es.all SetPointEntry.wf
  | .snapshot r a => r.wf && a.wf
  | .crateOpen r => r.wf
  | .crateAddGate r i h ss => r.wf && i < 256 && h < 4096 && 1 ≤ ss.length && ss.length ≤ 5 && ss.all StagedItem.wf
  | .crateAddDevice r i p w2 w3 => r.wf && i < 256 && p < 256 && w2 < 2 ^ 64 && w3 < 2 ^ 64
  | .crateClose r i => r.wf && i < 256
  | .crateAbort r i => r.wf && i < 256
  | .kick _ => true
  | .hatchSilence _ => true
  | .powerOn i => i.wf
  | .continueStart _ => true
  | .restart _ k i => k < 2 ^ 16 && i.wf
  | .pmbusPoll rs _ => rs.length ≤ 2
  | .slackWindowEnd => true
  | .voutCommand as => as.length ≤ 2
  | .budgetAdmit => true
  | .lockDeclared _ b c => b < 256 && c < 2 ^ 32
  | .referenceLoss => true
  | .unmute => true
  | .pfailAssert => true
  | .pfailRelease => true
  | .trunkWriteStart => true
  | .trunkWriteComplete _ => true
  | .format _ k => k < 2 ^ 16
  | .registerWrite w => w.wf && (w.off < 0x4000 || 0x10000 ≤ w.off)
  | .setAliasWrite w => w.wf && 0x4000 ≤ w.off && w.off < 0x8000
  | .clearAliasWrite w => w.wf && 0x8000 ≤ w.off && w.off < 0xC000
  | .toggleAliasWrite w => w.wf && 0xC000 ≤ w.off && w.off < 0x10000
  | .mgmtWrite f n => 1 ≤ f.length && n < 512
  | .mgmtRead f => 1 ≤ f.length
  | .mgmtStatus f => 1 ≤ f.length
  | .statusClear f => 1 ≤ f.length
  | .totalLoRead _ o => o < 0x10000 && o % 4 = 0
  | .tapReset => true
  | .extest _ => true
  | .idcode => true
  | .samplePreload _ => true
  | .highz => true
  | .clamp => true
  | .tapBypass => true
  | .dbgAccess _ o _ n => o < 0x10000 && n < 512
  | .halt _ t n => t < 1024 && n < 512
  | .resume _ t => t < 1024
  | .stepEngine _ t => t < 1024
  | .dbgCapArm _ => true
  | .dbgCapAbort _ => true
  | .blockLockAcquire l ss => l < 514 && ss.all (· < 4)
  | .domainReady d => d < 50
  | .startStepTimeout i => i.wf
  | .lossOfVaon => true
  | .porstNAssert => true
  | .hatchLinkUp _ c => c.table.length ≤ 64 && c.pcie.wf
  | .mgmtUnknownCommand f => 1 ≤ f.length
  | .trkBinRead _ w => w < 16
  | .bar2Write _ o => o < 2 ^ 20

end Sys2Proof
end

