-- ==== Sys2Proof/Safety.lean ====
section
/-! DEFINITION. The terms in which claims about the block are made: which part of the state a command may change, and what a
well-formed queue is. -/

namespace Sys2Proof.Machine

/-- The parts of the state. -/
inductive Part where
  | regs | sys | mgmtStatus | mfe | lnk | cel | ctl | grd | edg | prt | mtr | saf | hats | pwr | ref | start | trk | dbg | out
  | freeCount | pending
deriving DecidableEq, Repr

/-- A part is the same in two states. -/
def Part.same (s t : State) : Part → Prop
  | .regs => t.regs = s.regs
  | .sys => t.sys = s.sys
  | .mgmtStatus => t.mgmtStatus = s.mgmtStatus
  | .mfe => t.mfe = s.mfe
  | .lnk => t.lnk = s.lnk
  | .cel => t.cel = s.cel
  | .ctl => t.ctl = s.ctl
  | .grd => t.grd = s.grd
  | .edg => t.edg = s.edg
  | .prt => t.prt = s.prt
  | .mtr => t.mtr = s.mtr
  | .saf => t.saf = s.saf
  | .hats => t.hats = s.hats
  | .pwr => t.pwr = s.pwr
  | .ref => t.ref = s.ref
  | .start => t.start = s.start
  | .trk => t.trk = s.trk
  | .dbg => t.dbg = s.dbg
  | .out => t.out = s.out
  | .freeCount => t.freeCount = s.freeCount
  | .pending => t.pending = s.pending

/-- From s to t nothing changed outside the named parts. -/
def Frame (ps : List Part) (s t : State) : Prop := ∀ p : Part, p ∉ ps → p.same s t

/-- From s to t no register changed but those of the named keys. -/
def RegsBut (ks : List Nat) (s t : State) : Prop := ∀ k : Nat, k ∉ ks → t.reg k = s.reg k

/-- Every command that waits is well formed. -/
def QueueWf (s : State) : Prop := ∀ c ∈ s.pending, c.wf = true

end Sys2Proof.Machine
end

