-- ==== Sys2Proof/Certificates/Slice0/Obligations.lean ====
section
/-! DEFINITION. The statements for the provers: every family of commands and every kind of state the spec names. -/

open Sys2Proof Sys2Proof.Machine

/-- A step runs the command at the front of the queue on the state with the queue's rest, and on an empty queue the block idles (the queue
and its idling are the model's own, log entry 1). -/
def Obligations.StepRunsTheFront : Prop :=
  (∀ (c : Instr) (rest : List Instr) (s : State), s.pending = c :: rest → step s = exec c { s with pending := rest }) ∧
  (∀ s : State, s.pending = [] → step s = .next s)

/-- Right after reset: E = 0 and not counting, OFF, no submodule mapped, every lane muted, no source raised in either protection, no Trunk write and no command
waiting (so the queue is well formed: log entry 1), and the register reset values of SYS_CONV_CFG, MFE_XCHK, PWR_BUDGET and REF_CFG (R16,
R31, R39, R62, R436). -/
def Obligations.ResetState : Prop :=
  State.reset.sys.conv = .off ∧ State.reset.sys.epoch = 0 ∧ State.reset.sys.counting = false ∧
  (∀ h < 4096, State.reset.mapEntry h = 0x000F) ∧ State.reset.ref.muted = true ∧ State.reset.prt.a.raised = [] ∧ State.reset.prt.b.raised = [] ∧
  State.reset.prt.a.permit = false ∧ State.reset.prt.b.permit = false ∧ State.reset.trk.busy = none ∧
  State.reset.pending = [] ∧ QueueWf State.reset ∧ State.reset.rf R.SYS_CONV_CFG 31 16 = 600 ∧ State.reset.rf R.SYS_CONV_CFG 15 8 = 60 ∧
  State.reset.rf R.MFE_XCHK 23 16 = 16 ∧ State.reset.rf R.PWR_BUDGET 31 16 = 2320 ∧ State.reset.rf R.REF_CFG 31 16 = 4096

/-- EPOCH_BOUNDARY, PRE_EPOCH_VOTE and DEADLINE_MISS: while the epoch counter runs and start-up is complete, a boundary increments E by
one, modulo 2^48, counts a wrap in the era and keeps the plan; in any state it then votes the TV words, puts the writes that are due into
force before the reactions, and evaluates the orders that are due after them, in this order, unless RUN starts there; a vote over one
disturbed copy of a TV word restores it, counts it and gives source 52 to the next passes; before E(0) a vote advances the AO timer by 1 µs,
and without a disturbance it leaves the value in force of every register but the vote counter PRT_VOTE; an item's first miss of an epoch is noted, counts in its
MISS_COUNT, which stops at 255, and gives source 47 to the next pass of each protection (R16, R17, R23, R33, R39, R303, R381, R447, R449,
R455, R456; the order of the blocks' own work in a boundary: log entry 11; what a calibration adds to a vote: log entry 36). -/
def Obligations.EpochEvents : Prop :=
  (∀ (b : BoundaryIn) (s : State), s.sys.counting = true → s.start.state = .complete →
    ∃ t, exec (.epochBoundary b) s = .next t ∧ t.sys.epoch = s.sys.epoch + 1 ∧ t.sys.counting = true ∧ t.sys.compat = s.sys.compat ∧
      t.sys.era = (if s.sys.epoch + 1 = 0 then (s.sys.era + 1) % 2 ^ 16 else s.sys.era) ∧
      Frame [.regs, .sys, .mgmtStatus, .mfe, .lnk, .cel, .ctl, .grd, .edg, .prt, .mtr, .saf, .hats, .pwr, .ref, .start, .trk, .dbg, .out] s t) ∧
  (∀ (b : BoundaryIn) (s : State), s.sys.counting = true → ∃ u : State,
    u.sys.epoch = s.sys.epoch + 1 ∧ u.regs.pend = s.regs.pend ∧ u.sys.conv = s.sys.conv ∧ u.sys.moved = false ∧ u.sys.taken = none ∧
    Frame [.regs, .sys, .cel, .pwr, .ref, .start, .trk, .out] s u ∧
    let v := ((((b.ecc.foldl State.eccHit (u.vote b.upsets)).mfeEpochEnd).chargeBoundary).cratesBoundary).mtrBoundary
    let w := v.applyDue.dbgBoundary.prtBoundary.reactions.rampEnd
    exec (.epochBoundary b) s = .next (((if w.runDue then w else w.evalOrders).blocksBoundary b.tj).sequence)) ∧
  (∀ (x : Upset) (s : State), s.regs.b = [] → s.regs.c = [] → x.copy < 3 → x.flip &&& keyMask x.key [.tv] ≠ 0 → x.key ≠ R.PRT_VOTE →
    let t := s.vote [x]
    (∀ k, k ≠ R.PRT_VOTE → t.regs.copyA k = s.reg k ∧ t.regs.copyB k = s.reg k ∧ t.regs.copyC k = s.reg k) ∧
      t.rf R.PRT_VOTE 31 16 = incSat 65535 (s.rf R.PRT_VOTE 31 16) ∧ 52 ∈ t.prt.evtNext ∧ Frame [.regs, .prt, .saf] s t) ∧
  (∀ (us : List Upset) (s : State), s.start.powered = true → s.sys.counting = false →
    ∃ t, exec (.preEpochVote us) s = .next t ∧ t.start.aoNs = s.start.aoNs + 1000 ∧ Frame [.regs, .prt, .saf, .ref, .start, .trk, .freeCount] s t ∧
      (s.start.step ≠ 5 → Frame [.regs, .prt, .saf, .start] s t ∧ (us = [] → RegsBut [R.PRT_VOTE] s t))) ∧
  (∀ (item : Nat) (s : State), s.sys.counting = true → item < 14 → bit s.sys.missNow item = false →
    ∃ t, exec (.deadlineMiss item) s = .next t ∧ t.sys.missNow = s.sys.missNow ||| 2 ^ item ∧
      t.rf (R.SYS_SLACK item) 23 16 = incSat 255 (s.rf (R.SYS_SLACK item) 23 16) ∧ 47 ∈ t.prt.evtNext ∧
      t.cel.missedSeals = s.cel.missedSeals + (if item = 12 then 1 else 0) ∧
      (item ≠ 1 → t.ctl = s.ctl) ∧ (item < 2 ∨ 8 ≤ item → t.edg = s.edg) ∧ RegsBut [R.SYS_SLACK item] s t ∧
      Frame [.regs, .sys, .cel, .ctl, .edg, .prt] s t)

/-- CHARGE_COMPLETE, CHARGE_CONDITIONS_LOST, CHARGE_TIMEOUT and RUN_START: after 256 epochs of the condition, with no transition yet at
this boundary, CHARGE goes to READY with cause 1 and READY back to CHARGE with cause 7, an announced RUN being cancelled unless it starts
at this boundary; a stay in CHARGE of CHARGE_TIMEOUT seconds is noted and indicated to the passes of the epoch as source 67, and changes nothing else; at E(k) of an
announcement the transition to RUN is made with cause 0, or 5 for a recovery, the announcement ends, and the orders of the boundary are
evaluated against RUN (R31, R32, R33, R34, R35, R39, R303; the pass that raises it: log entry 25). -/
def Obligations.ConverterTransitions : Prop :=
  (∀ s : State, s.sys.conv = .charge → 256 ≤ s.sys.chargeGood → s.sys.moved = false →
    ∃ t, exec .chargeComplete s = .next t ∧ t.sys.conv = .ready ∧ t.sys.prev = .charge ∧ t.sys.cause = 1 ∧ t.sys.moved = true ∧
      t.sys.chargeBad = 0 ∧ t.sys.epoch = s.sys.epoch ∧
      Frame [.regs, .sys, .mfe, .lnk, .cel, .ctl, .grd, .edg, .prt, .hats, .trk, .dbg, .out] s t) ∧
  (∀ s : State, s.sys.conv = .ready → 256 ≤ s.sys.chargeBad → s.sys.moved = false → s.runDue = false →
    ∃ t, exec .chargeConditionsLost s = .next t ∧ t.sys.conv = .charge ∧ t.sys.prev = .ready ∧ t.sys.cause = 7 ∧ t.sys.moved = true ∧
      t.sys.announce = none ∧ t.sys.chargeGood = 0 ∧ t.sys.chargeEp = 0 ∧ t.sys.epoch = s.sys.epoch ∧
      Frame [.regs, .sys, .mfe, .lnk, .cel, .ctl, .grd, .edg, .prt, .hats, .trk, .dbg, .out] s t) ∧
  (∀ s : State, s.sys.conv = .charge → s.rf R.SYS_CONV_CFG 31 16 ≠ 0 → s.epOfMs (1000 * s.rf R.SYS_CONV_CFG 31 16) ≤ s.sys.chargeEp →
    ∃ t, exec .chargeTimeout s = .next t ∧ t.sys = { s.sys with chargeExpired := true } ∧ 67 ∈ t.prt.ind ∧
      t.prt = { s.prt with ind := t.prt.ind } ∧ Frame [.sys, .prt] s t) ∧
  (∀ (a : Announce) (s : State), s.sys.announce = some a → epGe s.sys.epoch a.k = true → s.sys.moved = false →
    ∃ u, exec .runStart s = .next u.evalOrders ∧ u.sys.conv = .run ∧ u.sys.prev = s.sys.conv ∧ u.sys.cause = (if a.recovery then 5 else 0) ∧
      u.sys.announce = none ∧ u.sys.moved = true ∧ u.sys.epoch = s.sys.epoch ∧
      Frame [.regs, .sys, .mfe, .lnk, .cel, .ctl, .grd, .edg, .prt, .hats, .trk, .dbg, .out] s u)

/-- EPOCH_LO_READ: a requester that is served reads E[31:0], and in the same access its own shadow SYS_EPOCH_HI takes E[47:32], which a
read of SYS_EPOCH_HI by that requester then returns; no other requester's shadow and no other register changes (R18). -/
def Obligations.EpochLoRead : Prop :=
  ∀ (r : Requester) (s : State), s.serves r = true →
    ∃ t, exec (.epochLoRead r) s = .next t ∧ t.out = s.out ++ [.readData r R.SYS_EPOCH_LO (BitVec.ofNat 32 (s.sys.epoch.toNat % 2 ^ 32))] ∧
      t.readReg r R.SYS_EPOCH_HI = some (BitVec.ofNat 32 (s.sys.epoch.toNat / 2 ^ 32), t) ∧
      (∀ u : State, u.readReg r R.SYS_EPOCH_HI = some (u.reg (ownKey r R.SYS_EPOCH_HI) &&& 0xFFFF, u)) ∧
      RegsBut [ownKey r R.SYS_EPOCH_HI] s t ∧ Frame [.regs, .out] s t

/-- SLOT_SAMPLE, GAIN_UP_SWITCH and EPOCH_VALUE_DELIVERY: at a slot instant every input gains one sample, its over-range run counts with
the detector's 10.24 V and restarts without it, and every encoder keeps its last three samples; an input in automatic gain switches to ×8
after DWELL quiet epochs; and each VAL word is the measurement word of its input, in its register (R40, R42, R45, R46). -/
def Obligations.SamplingAndDelivery : Prop :=
  (∀ (slot : Nat) (v : List SampleIn) (enc : List EncLines) (s : State), slot < 4 →
    ∃ t, exec (.slotSample slot v enc) s = .next t ∧
      (∀ i < 48, (t.input i).cur.length = (s.input i).cur.length + 1 ∧ (t.input i).prev = (s.input i).prev ∧
        (t.input i).overRun = (if 10240000000 < ((v.getD i ⟨0, 0⟩).nv).natAbs then (s.input i).overRun + 1 else 0)) ∧
      (∀ k < 3, (smGet {} t.mfe.encs k).last = (enc.getD k ⟨false, false, false⟩ :: (smGet {} s.mfe.encs k).last).take 3) ∧
      Frame [.regs, .mfe, .freeCount] s t) ∧
  (∀ (i : Nat) (s : State), s.rf (R.MFE_INCFG i) 9 8 = 2 → (s.input i).gain8 = false → s.rf R.MFE_AGC 15 8 ≤ (s.input i).quiet →
    ∃ t, exec (.gainUpSwitch i) s = .next t ∧ t.input i = { s.input i with gain8 := true, quiet := 0 } ∧
      (∀ j, j ≠ i → t.input j = s.input j) ∧ Frame [.mfe] s t) ∧
  (∀ s : State, ∃ t, exec .epochValueDelivery s = .next t ∧ (∀ i < 48, t.reg (R.MFE_VAL i) = s.measWord i) ∧ Frame [.regs, .cel] s t)

/-- OPEN_WIRE_DECLARE, OPEN_WIRE_CLEAR, XCHK_FAILURE and XCHK_RECOVERY: four consecutive over-range samples declare open wire and latch
OPEN_SEEN and MFE_CAUSE.OPEN; 64 epochs without one clear it; LIMIT failed checks put a pair into cross-check failure and latch
MFE_CAUSE.XCHK; LIMIT passed ones end it (R46, R51, R62). -/
def Obligations.InputFaults : Prop :=
  (∀ (i : Nat) (s : State), 4 ≤ (s.input i).overRun → (s.input i).isOpen = false →
    ∃ t, exec (.openWireDeclare i) s = .next t ∧ (t.input i).isOpen = true ∧ (∀ j, j ≠ i → t.input j = s.input j) ∧
      t.rb (R.MFE_INSTAT i) 29 = true ∧ t.rb R.MFE_CAUSE 2 = true ∧ RegsBut [R.MFE_INSTAT i, R.MFE_CAUSE] s t ∧ Frame [.regs, .mfe] s t) ∧
  (∀ (i : Nat) (s : State), (s.input i).isOpen = true → 64 ≤ (s.input i).cleanEp →
    ∃ t, exec (.openWireClear i) s = .next t ∧ t.input i = { s.input i with isOpen := false } ∧ (∀ j, j ≠ i → t.input j = s.input j) ∧
      Frame [.mfe] s t) ∧
  (∀ (p : Nat) (s : State), (smGet {} s.mfe.pairs p).xfail = false → s.xchkLimit ≤ (smGet {} s.mfe.pairs p).fails →
    ∃ t, exec (.xchkFailure p) s = .next t ∧ (smGet {} t.mfe.pairs p).xfail = true ∧
      (∀ q, q ≠ p → smGet {} t.mfe.pairs q = smGet {} s.mfe.pairs q) ∧ t.rb R.MFE_CAUSE 3 = true ∧ RegsBut [R.MFE_CAUSE] s t ∧
      Frame [.regs, .mfe] s t) ∧
  (∀ (p : Nat) (s : State), (smGet {} s.mfe.pairs p).xfail = true → s.xchkLimit ≤ (smGet {} s.mfe.pairs p).passes →
    ∃ t, exec (.xchkRecovery p) s = .next t ∧ (smGet {} t.mfe.pairs p).xfail = false ∧
      (∀ q, q ≠ p → smGet {} t.mfe.pairs q = smGet {} s.mfe.pairs q) ∧ Frame [.mfe] s t)

/-- COMPARATOR_TRIP and RAMP_PERIOD_START: a trip of an armed comparator that is not under test sets OUT; with LATCH = 0 it latches with
SIDE, the position in ns and E[15:0], and sets MFE_CAUSE.COMPARATOR; with LATCH = 1 the captures stay; without BLOCK_EN nothing but the
comparator changes, and with it the block logic fires, sending BLOCK on every lane; a period restart sets its epoch count to 0 and, with
AUTOCLR, clears the latch of a comparator that is not tripped and has not tripped in the epoch (R11, R53, R54, R55, R56, R62; the count of
epochs runs, and restarts, whether or not RAMP is set: the model's choice, log entry 13). -/
def Obligations.Comparators : Prop :=
  (∀ (j : Nat) (upper : Bool) (fine : Nat) (s : State), j < 16 → fine < 512 → s.cmpArmed j upper = true → (smGet {} s.mfe.cmps j).out = false →
    s.cmpTested j = false → s.rb (R.MFE_CMP_CFG j) 6 = false →
    ∃ t, exec (.comparatorTrip j upper fine) s = .next t ∧ (smGet {} t.mfe.cmps j).out = true ∧
      (s.rb (R.MFE_CMP_STAT j) 31 = false → t.rb (R.MFE_CMP_STAT j) 31 = true ∧ t.rb (R.MFE_CMP_STAT j) 30 = upper ∧
        t.rf (R.MFE_CMP_STAT j) 24 16 = fine ∧ t.rf (R.MFE_CMP_STAT j) 15 0 = s.sys.epoch.toNat % 65536 ∧ t.rb R.MFE_CAUSE 1 = true) ∧
      (s.rb (R.MFE_CMP_STAT j) 31 = true → RegsBut [] s t) ∧
      RegsBut [R.MFE_CMP_STAT j, R.MFE_CAUSE] s t ∧ Frame [.regs, .mfe] s t) ∧
  (∀ (j : Nat) (upper : Bool) (fine : Nat) (s : State), j < 16 → fine < 512 → s.cmpArmed j upper = true → (smGet {} s.mfe.cmps j).out = false →
    s.cmpTested j = false → s.rb (R.MFE_CMP_CFG j) 6 = true →
    ∃ t, exec (.comparatorTrip j upper fine) s = .next t ∧ (smGet {} t.mfe.cmps j).out = true ∧
      (s.rb (R.MFE_CMP_STAT j) 31 = false → t.rb (R.MFE_CMP_STAT j) 31 = true ∧ t.rb (R.MFE_CMP_STAT j) 30 = upper ∧
        t.rf (R.MFE_CMP_STAT j) 24 16 = fine ∧ t.rf (R.MFE_CMP_STAT j) 15 0 = s.sys.epoch.toNat % 65536 ∧ t.rb R.MFE_CAUSE 1 = true) ∧
      (s.rb (R.MFE_CMP_STAT j) 31 = true → t.reg (R.MFE_CMP_STAT j) = s.reg (R.MFE_CMP_STAT j)) ∧ t.lnk.blocks = s.lnk.blocks + 1 ∧
      t.prt.firedNow = true ∧ t.rb R.PRT_CAUSE 0 = true ∧ Frame [.regs, .mfe, .lnk, .prt, .dbg] s t) ∧
  (∀ (j : Nat) (s : State), (smGet {} s.mfe.cmps j).armed = true → s.rf (R.MFE_CMP_RAMP j) 31 16 ≠ 0 →
    s.rf (R.MFE_CMP_RAMP j) 31 16 ≤ (smGet {} s.mfe.cmps j).t →
    ∃ t, exec (.rampPeriodStart j) s = .next t ∧ smGet {} t.mfe.cmps j = { smGet {} s.mfe.cmps j with t := 0 } ∧
      (s.rb (R.MFE_CMP_CFG j) 7 = true → (smGet {} s.mfe.cmps j).out = false → s.clearable (R.MFE_CMP_STAT j) 0x80000000 ≠ 0 →
        t.reg (R.MFE_CMP_STAT j) = 0) ∧
      RegsBut [R.MFE_CMP_STAT j] s t ∧ Frame [.regs, .mfe] s t)

/-- MFE_TEST_START, SELF_TEST_COMPLETE, ENCODER_EVALUATION and ENC_REREF: a permitted START by a requester that may write MFE_TEST begins
the test, RESULT reading busy; a test ends after its duration with pass or fail and sets MFE_CAUSE.TEST; an evaluation takes the majority
of the last three samples of each encoder as its lines, which read as A, B and Z, and the position of one that is not enabled stands; a
re-reference of an enabled encoder loads POS (R58, R59, R60, R61, R62). -/
def Obligations.SelfTestsAndEncoders : Prop :=
  (∀ (r : Requester) (kind target : Nat) (s : State), kind < 16 → target < 64 → s.mayWrite r R.MFE_TEST = true → s.mfe.test = none →
    s.testPermitted kind target = true →
    ∃ t, exec (.mfeTestStart r kind target) s = .next t ∧ t.mfe.test = some ⟨kind, target, 0, [0, 0, 0], []⟩ ∧
      t.rf R.MFE_TEST_STAT 2 0 = 1 ∧ t.rf R.MFE_TEST 27 24 = kind ∧ t.rf R.MFE_TEST 5 0 = target ∧
      RegsBut [R.MFE_TEST, R.MFE_TEST_STAT] s t ∧ Frame [.regs, .mfe] s t) ∧
  (∀ (x : SelfTest) (s : State), s.mfe.test = some x → testDuration x.kind ≤ x.ep →
    ∃ t, exec .selfTestComplete s = .next t ∧ t.mfe.test = none ∧ t.rf R.MFE_TEST_STAT 2 0 = (if (testOutcome x).1 then 2 else 3) ∧
      t.rb R.MFE_CAUSE 5 = true ∧ RegsBut [R.MFE_TEST_STAT, R.MFE_CAUSE] s t ∧ Frame [.regs, .mfe] s t) ∧
  (∀ s : State, ∃ t, exec .encoderEvaluation s = .next t ∧
      (∀ k < 3, (smGet {} t.mfe.encs k).prev = filtered (smGet {} s.mfe.encs k).last ∧
        (t.rb (R.MFE_ENC_STAT k) 29, t.rb (R.MFE_ENC_STAT k) 28, t.rb (R.MFE_ENC_STAT k) 27) =
          ((filtered (smGet {} s.mfe.encs k).last).a, (filtered (smGet {} s.mfe.encs k).last).b, (filtered (smGet {} s.mfe.encs k).last).z)) ∧
      (∀ k < 3, s.rb (R.MFE_ENC_CFG k) 0 = false → t.reg (R.MFE_ENC_POS k) = s.reg (R.MFE_ENC_POS k)) ∧
      Frame [.regs, .mfe, .cel] s t) ∧
  (∀ (r : Requester) (k : Nat) (pos : Word) (s : State), k < 3 → s.mayWrite r (R.MFE_ENC_REREF k) = true → s.rb (R.MFE_ENC_CFG k) 0 = true →
    ∃ t, exec (.encReref r k pos) s = .next t ∧ t.reg (R.MFE_ENC_POS k) = pos ∧
      ((smGet {} s.mfe.encs k).illegal = false → t.rb (R.MFE_ENC_STAT k) 31 = false) ∧
      RegsBut [R.MFE_ENC_REREF k, R.MFE_ENC_POS k, R.MFE_ENC_STAT k] s t ∧ Frame [.regs] s t)

/-- FRAME_LAUNCH, RETURN_FRAME_RECEIVE and HEADER_WINDOW_MISS. An active lane that is not kept idle launches, once in an epoch and while
the lanes launch, the frame of converter epoch E + L: 35 content blocks, the header first, in 40 blocks on the line; it joins the frames
in flight behind the others and makes the lane one of those that its Shelf waits for. A lane kept idle sends a frame of IDLE blocks, and
any other lane launches nothing; BLOCK blocks that wait go out with either. A frame without a valid header counts HDR_RX_BAD, a dark frame
and a delivery, on a lane that has become inactive or muted a delivery only; a frame whose header is found ends the dark run; either way it
leaves the frames in flight, and no other lane changes, for a frame whose header is found where no service request is outstanding on the
lane. Of such a frame each slot writes the record of its unit that the slot alone would write: an UNTOUCHED, MISMATCH, ABSENT, WRONG_HOME or
STALE_ROUTE slot none; a FULL or SINGLE one the words received, its source the converter epoch k - 1; a LATE one, by its LATE bit or its
SEPOCH, the words received only where its epoch is newer than that of the entry carried; and one with AUX_LOST words 1 and 2 of the entry
carried (R69, R70, R83, R84, R87, R98, R123, R142, R143, R145, R489; the words received in a frame period: log 15). -/
def Obligations.LaneFrames : Prop :=
  (∀ (l : Nat) (s : State), s.laneActive l = true → s.launching = true → s.idleOnly l = false → (s.lane l).launchedAt ≠ some s.sys.epoch →
    ∃ t f, exec (.frameLaunch l) s = .next t ∧ (t.lane l).inflight = (s.lane l).inflight ++ [f] ∧
      f.k = s.sys.epoch + BitVec.ofNat 48 (s.lane l).lead ∧ f.blocks.length = 35 ∧ f.kind = s.frameKind l f.k ∧
      f.blocks.head? = some (headerBlock f.k l f.kind (s.headerRun f.k).1 (s.headerRun f.k).2) ∧ l ∈ (t.shelf (f.k - 1)).expect ∧
      (t.lane l).launchedAt = some s.sys.epoch ∧ (t.lane l).line.length = 40 ∧
      (t.lane l).line = (if (s.lane l).blockDue then insertBlocks (frameLine f.blocks (s.probeNow l)) 1 else frameLine f.blocks (s.probeNow l)) ∧
      (∀ m, m ≠ l → t.lane m = s.lane m) ∧ Frame [.lnk, .cel] s t) ∧
  (∀ (l : Nat) (s : State), s.laneActive l = true → s.launching = true → s.idleOnly l = true →
    ∃ t, exec (.frameLaunch l) s = .next t ∧ (t.lane l).line = (if (s.lane l).blockDue then insertBlocks idleLine 0 else idleLine) ∧
      (t.lane l).blockDue = false ∧ (t.lane l).inflight = (s.lane l).inflight ∧
      (∀ m, m ≠ l → t.lane m = s.lane m) ∧ Frame [.lnk] s t) ∧
  (∀ (l : Nat) (s : State), s.laneActive l = false ∨ s.launching = false ∨ (s.idleOnly l = false ∧ (s.lane l).launchedAt = some s.sys.epoch) →
    exec (.frameLaunch l) s = .next s) ∧
  (∀ (l : Nat) (blocks : List LineBlock) (f : Sent) (rest : List Sent) (s : State), (s.lane l).inflight = f :: rest →
    s.headerAt l blocks = none →
    ∃ t, exec (.headerWindowMiss ⟨l, blocks⟩) s = .next t ∧ (t.lane l).inflight = rest ∧ l ∈ (t.shelf (f.k - 1)).delivered ∧
      (s.delivering l = true → (t.lane l).darkRun = min 4 ((s.lane l).darkRun + 1) ∧ (t.lane l).turns = (0 :: (s.lane l).turns).take 4 ∧
        smGet 0 (t.lane l).counters 2 = min (2 ^ 32 - 1) (smGet 0 (s.lane l).counters 2 + 1)) ∧
      (s.delivering l = false → smGet 0 (t.lane l).counters 2 = smGet 0 (s.lane l).counters 2) ∧
      (∀ m, m ≠ l → t.lane m = s.lane m) ∧ Frame [.regs, .lnk, .cel, .edg] s t) ∧
  (∀ (l : Nat) (blocks : List LineBlock) (f : Sent) (rest : List Sent) (s : State), (s.lane l).inflight = f :: rest →
    (s.headerAt l blocks).isSome = true →
    ∃ t, exec (.returnFrameReceive l blocks) s = .next t ∧ (t.lane l).inflight = rest ∧ (t.lane l).darkRun = 0 ∧ (t.lane l).hdrThis = true ∧
      (t.lane l).returnOfs = (s.lane l).returnOfs ∧ l ∈ (t.shelf (f.k - 1)).delivered ∧ ((s.lane l).svc = none → ∀ m, m ≠ l → t.lane m = s.lane m) ∧
      Frame [.regs, .lnk, .cel, .edg] s t) ∧
  (∀ (l i h p : Nat) (blocks : List LineBlock) (f : Sent) (rest : List Sent) (s : State), (s.lane l).inflight = f :: rest →
    s.headerAt l blocks = some p → i < 8 → f.homes.getD i none = some h → (∀ j < 8, j ≠ i → f.homes.getD j none ≠ some h) →
    let content := (parseContent (contentRegion blocks f.k p) {}).content
    ∃ t, exec (.returnFrameReceive l blocks) s = .next t ∧ smFind (t.shelf (f.k - 1)).recs h =
      smFind ((s.receiveSlot l f.k h (f.kind = 2) ((f.blocks.drop (2 + 4 * i)).take 4) ((content.drop (1 + 4 * i)).take 4)).shelf (f.k - 1)).recs h) ∧
  (∀ (l : Nat) (k : Epoch) (h : Nat) (via : Bool) (sent : List DWord) (got : List (Option DWord)) (r : Rcpt) (w0 : DWord) (s : State),
    classifyBursts sent got = (r, w0) → (s.shelf (k - 1)).sealedAt = none → (∀ m, s.cel.newest = some m → epGe m (k - 1) = false) →
    smFind (s.shelf (k - 1)).recs h = none → h ∉ (s.shelf (k - 1)).got → (s.unit h).bridged = via →
    let rcd := smFind ((s.receiveSlot l k h via sent got).shelf (k - 1)).recs h
    let j := resolveSepoch k (rec64 w0 21 16)
    let old := s.carryFrom h 64 (k - 1)
    let notDue := !s.dueEpoch h (k - 1)
    (r = .untouched ∨ r = .mismatch ∨ r = .absent → rcd = none) ∧
    (r = .full ∨ r = .singleA ∨ r = .singleB → rec64 w0 33 22 ≠ h ∨ rec64 w0 15 12 ≠ (s.unit h).rgen → rcd = none) ∧
    (r = .full ∨ r = .singleA ∨ r = .singleB → rec64 w0 33 22 = h → rec64 w0 15 12 = (s.unit h).rgen →
      (∀ w1 w2, got.getD 1 none = some w1 → got.getD 2 none = some w2 → auxOk w1 w2 = true →
        (rec64 w2 13 13 = 0 → j = k - 1 → rcd = some ⟨w0, w1, w2, j, k - 1, false, decide (r ≠ .full), false, false, notDue, false⟩) ∧
        (rec64 w2 13 13 = 1 ∨ j ≠ k - 1 → rcd = if (match old with | none => true | some o => epGe j o.src && j ≠ o.src)
          then some ⟨w0, w1, w2, j, k - 1, true, decide (r ≠ .full), true, false, notDue, false⟩ else none)) ∧
      ((∀ w1 w2, got.getD 1 none = some w1 → got.getD 2 none = some w2 → auxOk w1 w2 = false) → j = k - 1 →
        rcd = some ⟨w0, (old.map (·.w1)).getD 0, (old.map (·.w2)).getD 0, j, (old.map (·.aux)).getD (k - 1 - 255), false, decide (r ≠ .full),
          false, true, notDue, false⟩))) ∧
  (∀ (l : Nat) (blocks : List LineBlock) (s : State), s.headerAt l blocks = none →
    exec (.returnFrameReceive l blocks) s = exec (.headerWindowMiss ⟨l, blocks⟩) s)

/-- RETURN_OFFSET_ACQUIRE, LOCK_LOSS, BLOCK_LOCK_ACQUIRE and LEAD_TRIM_CHANGE. Two valid return headers of consecutive EPOCH values set
the return offset of an active locked lane that has none; a locked lane that sees 16 invalid sync headers among at most 64 (the counts are
the family's: log entry 31) loses lock, counts it, and sets LNK_CAUSE.LOCK when it is active; 64 valid sync headers in a row acquire lock;
in CHARGE or READY, with no NOT_STARTED address and no header run pending, a lane takes the lead and the trim that its routes require, and
its partner, where a unit of one of those routes may be served, may be asked for a hold offset. No other lane changes (R64, R98, R99, R100,
R102, R112, R113, R114, R489; the receivers of the station ports are lanes 512 and 513, which O37 states: log entry 29). -/
def Obligations.LaneLockAndLead : Prop :=
  (∀ (l ofs : Nat) (a b : LineBlock) (e : Epoch) (s : State), s.laneActive l = true → (s.lane l).locked = true → (s.lane l).returnOfs = none →
    e = BitVec.ofNat 48 (rec64 a.payload 55 40) → headerFor a e = true → headerFor b (e + 1) = true →
    ∃ t, exec (.returnOffsetAcquire l ofs a b) s = .next t ∧ t.lane l = { s.lane l with returnOfs := some ofs, darkRun := 0 } ∧
      (∀ m, m ≠ l → t.lane m = s.lane m) ∧ Frame [.lnk] s t) ∧
  (∀ (l : Nat) (syncs : List Nat) (s : State), l < 512 → (s.lane l).locked = true → syncs.length ≤ 64 →
    16 ≤ syncs.countP (fun x => x ≠ 1 && x ≠ 2) →
    ∃ t, exec (.lockLoss ⟨l, syncs⟩) s = .next t ∧ (t.lane l).locked = false ∧
      smGet 0 (t.lane l).counters 1 = min (2 ^ 32 - 1) (smGet 0 (s.lane l).counters 1 + 1) ∧
      (s.laneActive l = true → t.rb R.LNK_CAUSE 3 = true) ∧ (s.laneActive l = false → t.regs = s.regs) ∧
      (∀ m, m ≠ l → t.lane m = s.lane m) ∧ RegsBut [R.LNK_CAUSE] s t ∧ Frame [.regs, .lnk] s t) ∧
  (∀ (l : Nat) (syncs : List Nat) (s : State), l < 512 → 64 ≤ syncs.length → (∀ x ∈ syncs, x = 1 ∨ x = 2) →
    ∃ t, exec (.blockLockAcquire l syncs) s = .next t ∧ t.lane l = { s.lane l with locked := true } ∧ (∀ m, m ≠ l → t.lane m = s.lane m) ∧
      Frame [.lnk] s t) ∧
  (∀ (l lead trim : Nat) (s : State), (s.sys.conv = .charge ∨ s.sys.conv = .ready) → s.lowestNew l = none → s.runPending = false →
    s.leadTrim l = some (lead, trim) →
    ∃ t, exec (.leadTrimChange l) s = .next t ∧ (t.lane l).lead = lead ∧ (t.lane l).tLane = trim ∧
      (∀ m, m ≠ l → m ≠ partner l → t.lane m = s.lane m) ∧ Frame [.regs, .lnk, .prt] s t)

/-- SVC_TIMEOUT, DISCOVERY_START, PROBE_SEND, ECHO_RECEIVE and PROBE_LOST. A request without a final status within the TIMEOUT frames after
its own is repeated with the same TAG in the next frame that the lane launches, and counted, and after RETRIES abandoned with LNK_CAUSE.SVC;
discovery begins with the lowest NOT_STARTED position and the first identity word; one probe at a time is sent, numbered in sequence; its
echo ends it; a probe unanswered for two frames counts PROBE_LOST (R84, R88, R91, R98, R106, R108). -/
def Obligations.ServiceDiscoveryProbes : Prop :=
  (∀ (l : Nat) (v : Svc) (s : State), (s.lane l).svc = some v → s.rf R.LNK_SVC_CFG 15 8 < v.frames → v.tries < s.rf R.LNK_SVC_CFG 3 0 →
    ∃ t, exec (.svcTimeout l) s = .next t ∧ (t.lane l).svc = some { v with frames := 0, tries := v.tries + 1 } ∧
      smGet 0 (t.lane l).counters 13 = min (2 ^ 32 - 1) (smGet 0 (s.lane l).counters 13 + 1) ∧ (∀ m, m ≠ l → t.lane m = s.lane m) ∧
      Frame [.lnk] s t) ∧
  (∀ (l : Nat) (v : Svc) (s : State), (s.lane l).svc = some v → s.rf R.LNK_SVC_CFG 15 8 < v.frames → s.rf R.LNK_SVC_CFG 3 0 ≤ v.tries →
    ∃ t, exec (.svcTimeout l) s = .next t ∧ (t.lane l).svc = none ∧
      smGet 0 (t.lane l).counters 14 = min (2 ^ 32 - 1) (smGet 0 (s.lane l).counters 14 + 1) ∧ t.rb R.LNK_CAUSE 2 = true ∧
      Frame [.regs, .lnk, .edg] s t) ∧
  (∀ (l p : Nat) (s : State), s.lowestNew l = some p → s.laneActive l = true → s.discovering = true → (s.pair (l / 2)).state = .normal →
    (s.lane l).disc = none → (s.lane l).discStopped = false → s.belowPresent l p = true →
    ∃ t d, exec (.discoveryStart l) s = .next t ∧ (t.lane l).disc = some d ∧ d.home = l * 8 + p ∧ d.pos = p ∧ d.viaBridge = false ∧
      ⟨.ident 0, 0x1E, 0x01, 0⟩ ∈ (t.lane l).svcQ ∧ (∀ m, m ≠ l → t.lane m = s.lane m) ∧ Frame [.lnk] s t) ∧
  (∀ (l p : Nat) (round : Bool) (s : State), s.probeTarget l = some (p, round) → s.laneActive l = true → s.launching = true →
    s.idleOnly l = false → s.ref.state = .locked → s.sys.conv ≠ .off → (s.lane l).probe = none → s.probeFits l = true →
    ∃ t, exec (.probeSend l) s = .next t ∧ (t.lane l).probe = some ⟨p, ((s.lane l).probeSeq + 1) % 256, s.sys.epoch⟩ ∧
      (∀ m, m ≠ l → t.lane m = s.lane m) ∧ Frame [.lnk] s t) ∧
  (∀ (l rt : Nat) (echo : LineBlock) (p : Probe) (s : State), (s.lane l).probe = some p → echo.sync = 2 →
    ctlKind echo.payload = .strikeSync → rec64 echo.payload 55 55 = 1 → rec64 echo.payload 54 51 = p.target →
    rec64 echo.payload 50 43 = p.seq → rec64 echo.payload 42 34 = l →
    ∃ t, exec (.echoReceive l echo rt) s = .next t ∧ (t.lane l).probe = none ∧ Frame [.regs, .lnk, .prt] s t) ∧
  (∀ (l : Nat) (p : Probe) (s : State), (s.lane l).probe = some p → 2 ≤ (s.sys.epoch - p.sent).toNat →
    ∃ t, exec (.probeLost l) s = .next t ∧ (t.lane l).probe = none ∧
      smGet 0 (t.lane l).counters 19 = min (2 ^ 32 - 1) (smGet 0 (s.lane l).counters 19 + 1) ∧ (∀ m, m ≠ l → t.lane m = s.lane m) ∧
      Frame [.regs, .lnk] s t)

/-- CUT_OFF, UNIT_UNOBSERVED, UNIT_LOST and ROUTE_REASSIGN. A cut-off unit that is PRESENT or JOINING on a route with its hold offset
becomes UNOBSERVED, and no other unit changes; so does a unit whose STALE_RUN has reached 16, and one whose STALE_RUN has reached 256 is
LOST, sets LNK_STR_CAUSE.LOST and starts its bypass; 64 STALE_ROUTE epochs ask for ASSIGN_ROUTE with the received generation plus 1 (R117,
R118, R119, R135). -/
def Obligations.CutOffUnits : Prop :=
  (∀ (l h : Nat) (s : State), ∃ t, exec (.cutOff l) s = .next t ∧
    (h ∈ s.cutOffUnits l → (s.unit h).hasHold = true → ((s.unit h).status = .present ∨ (s.unit h).status = .joining) →
      t.unit h = { s.unit h with status := .unobserved }) ∧
    (h ∉ s.cutOffUnits l → t.unit h = s.unit h) ∧ (∀ m, t.lane m = s.lane m) ∧ Frame [.lnk] s t) ∧
  (∀ (h : Nat) (s : State), 16 ≤ (s.unit h).staleRun →
    ((s.unit h).status = .present ∨ (s.unit h).status = .joining ∨ (s.unit h).status = .moving) →
    ∃ t, exec (.unitUnobserved h) s = .next t ∧ t.unit h = { s.unit h with status := .unobserved } ∧
      (∀ g, g ≠ h → t.unit g = s.unit g) ∧ Frame [.lnk] s t) ∧
  (∀ (h : Nat) (s : State), 256 ≤ (s.unit h).staleRun → (s.unit h).status = .unobserved →
    ∃ t, exec (.unitLost h) s = .next t ∧ t.unit h = { s.unit h with status := .lost } ∧ (∀ g, g ≠ h → t.unit g = s.unit g) ∧
      t.rb R.LNK_STR_CAUSE 3 = true ∧
      ((s.eunit h).byp.step = 0 → (t.eunit h).byp.step = 2 ∧ (t.eunit h).byp.retryAt = some s.sys.epoch) ∧
      RegsBut [R.LNK_STR_CAUSE] s t ∧ Frame [.regs, .lnk, .edg] s t) ∧
  (∀ (h : Nat) (s : State), 64 ≤ (s.unit h).staleRoute → (s.unit h).staleVia = false →
    ∃ t q, exec (.routeReassign h) s = .next t ∧ q ∈ (t.lane (h / 8)).svcQ ∧ q.cmd = 0x03 ∧ q.addr = h % 8 ∧
      q.why = .reassign h false (((s.unit h).staleRgen + 1) % 16) ∧ (t.unit h).staleRoute = 0 ∧ (∀ g, g ≠ h → t.unit g = s.unit g) ∧
      (∀ m, m ≠ h / 8 → t.lane m = s.lane m) ∧ Frame [.lnk] s t)

/-- BRIDGE_VERIFY, BRIDGE_VERIFY_NO_PATH and BRIDGE_DISCOVERY. A verification that is permitted runs with LNK_ACTION_STAT busy, the units
of the pair's even lane first; one that is not permitted answers 3 and sets LNK_STR_CAUSE; a unit that has not moved within 64 ep ends it
with NO_PATH once no header run is in progress, and the bridge is not verified; a pair whose units had moved then goes back, showing
HANDBACK (the model's choice: log entries 16 and 44); discovery through the bridge, by a lane on which it has not stopped, takes the
partner's next unit from the far end (R106, R120, R121, R126, R135, R167). -/
def Obligations.BridgeVerification : Prop :=
  (∀ (r : Requester) (l : Nat) (s : State), l < 512 → s.mayWrite r R.LNK_ACTION = true → s.lnk.action = none → s.verifyAllowed l = true →
    ∃ t, exec (.bridgeVerify r l) s = .next t ∧ t.lnk.action = some ⟨1, l, l / 2 * 2, 0, 1, s.sys.epoch⟩ ∧
      t.reg R.LNK_ACTION_STAT = 1 ∧ RegsBut [R.LNK_ACTION, R.LNK_ACTION_STAT] s t ∧ Frame [.regs, .lnk] s t) ∧
  (∀ (r : Requester) (l : Nat) (s : State), l < 512 → s.mayWrite r R.LNK_ACTION = true →
    (s.lnk.action ≠ none ∨ s.verifyAllowed l = false) →
    ∃ t, exec (.bridgeVerify r l) s = .next t ∧ t.reg R.LNK_ACTION_STAT = 3 ∧ t.rb R.LNK_STR_CAUSE 8 = true ∧
      RegsBut [R.LNK_ACTION, R.LNK_ACTION_STAT, R.LNK_STR_CAUSE] s t ∧ Frame [.regs] s t) ∧
  (∀ (a : LnkAction) (s : State), s.lnk.action = some a → a.code = 1 → a.step = 2 → 64 ≤ (s.sys.epoch - a.at_).toNat →
    (∃ p < s.stringLen a.moving, (s.unit (a.moving * 8 + p)).bridged = false) → s.runPending = false →
    ∃ t, exec .bridgeVerifyNoPath s = .next t ∧ t.lnk.action = none ∧ t.reg R.LNK_ACTION_STAT = 4 ∧ t.rb R.LNK_STR_CAUSE 8 = true ∧
      (t.pair (a.moving / 2)).bridgeOk = false ∧ ((s.pair (a.moving / 2)).state = .bridged → (t.pair (a.moving / 2)).state = .handback) ∧
      RegsBut [R.LNK_ACTION_STAT, R.LNK_STR_CAUSE] s t ∧ Frame [.regs, .lnk, .prt] s t) ∧
  (∀ (l h : Nat) (s : State), s.discovering = true → s.bridgeFitted (l / 2) = true → s.laneActive l = true → s.lowestNew l = none →
    s.discBlocked (partner l) = true → (s.lane l).disc = none → (s.lane l).discStopped = false → (s.pair (l / 2)).state = .normal →
    (s.pair (l / 2)).found < s.stringLen (partner l) → h = partner l * 8 + (s.stringLen (partner l) - 1 - (s.pair (l / 2)).found) →
    (s.unit h).status = .notStarted →
    ∃ t d, exec (.bridgeDiscovery l) s = .next t ∧ (t.lane l).disc = some d ∧ d.home = h ∧ d.pos = 8 + (s.pair (l / 2)).found ∧
      d.viaBridge = true ∧ (∀ m, m ≠ l → t.lane m = s.lane m) ∧ Frame [.lnk] s t)

/-- HANDOVER_START, HANDOVER_END, HANDBACK_GO, HANDBACK_START, HANDBACK_COMPLETE and HANDBACK_ABORT: the pair goes NORMAL, HANDOVER,
BRIDGED, HANDBACK and NORMAL, with H0, the moved units, their MOVING status, the counters HANDOVERS, HANDBACKS and HB_ABORTS, the cause
bits of LNK_STR_CAUSE and the result of GO; a hand-back is complete when every moved unit is home, by a fresh record on its home route; a
flap or 256 ep without completion returns it to BRIDGED. No other pair changes (R104, R122, R123, R124, R126, R127, R135; that a LOST,
REJECTED or RETIRED unit keeps its status at a hand-over, and that GO answers FAILED after an abort: the model's choices, log entry 44; the
epoch of completion: log entry 17). -/
def Obligations.HandoverAndHandback : Prop :=
  (∀ (m b : Nat) (s : State), s.handoverLane m = some b →
    ∃ t, exec (.handoverStart m) s = .next t ∧ (t.pair m).state = .handover ∧ (t.pair m).broken = b ∧ (t.pair m).h0 = s.sys.epoch ∧
      (t.pair m).moved = s.cutOffUnits b ∧ (∀ h ∈ s.cutOffUnits b, (t.unit h).status =
        (if (s.unit h).status = .present ∨ (s.unit h).status = .joining ∨ (s.unit h).status = .unobserved then .moving else (s.unit h).status)) ∧
      (∀ h, h ∉ s.cutOffUnits b → t.unit h = s.unit h) ∧
      smGet 0 (t.lane b).counters 15 = min (2 ^ 32 - 1) (smGet 0 (s.lane b).counters 15 + 1) ∧ t.rb R.LNK_STR_CAUSE 4 = true ∧
      (∀ n, n ≠ m → t.pair n = s.pair n) ∧ RegsBut [R.LNK_STR_CAUSE] s t ∧ Frame [.regs, .lnk] s t) ∧
  (∀ (m : Nat) (s : State), (s.pair m).state = .handover → 16 ≤ (s.sys.epoch - (s.pair m).h0).toNat →
    ∃ t, exec (.handoverEnd m) s = .next t ∧ t.pair m = { s.pair m with state := .bridged, restoreRun := 0 } ∧
      (∀ n, n ≠ m → t.pair n = s.pair n) ∧ Frame [.lnk] s t) ∧
  (∀ (r : Requester) (l : Nat) (s : State), l < 512 → s.mayWrite r R.LNK_HANDBACK = true →
    ∃ t, exec (.handbackGo r l) s = .next t ∧ t.reg R.LNK_ACTION_STAT = (if s.handbackReady (l / 2) then 1 else 3) ∧
      t.pair (l / 2) = { s.pair (l / 2) with go := s.handbackReady (l / 2) || (s.pair (l / 2)).go } ∧
      (s.handbackReady (l / 2) = false → t.rb R.LNK_STR_CAUSE 8 = true) ∧ (∀ n, n ≠ l / 2 → t.pair n = s.pair n) ∧
      RegsBut [R.LNK_HANDBACK, R.LNK_ACTION_STAT, R.LNK_STR_CAUSE] s t ∧ Frame [.regs, .lnk] s t) ∧
  (∀ (m : Nat) (s : State), s.handbackReady m = true → (s.pair m).go = true ∨ s.rb R.LNK_HANDBACK 16 = true →
    ∃ t, exec (.handbackStart m) s = .next t ∧ (t.pair m).state = .handback ∧ (t.pair m).hbAt = s.sys.epoch ∧
      (∀ h ∈ (s.pair m).moved, (s.unit h).status = .present → (t.unit h).status = .moving) ∧
      (∀ h, h ∉ (s.pair m).moved → t.unit h = s.unit h) ∧ (∀ n, n ≠ m → t.pair n = s.pair n) ∧ Frame [.lnk] s t) ∧
  (∀ (m h : Nat) (s : State), (s.pair m).state = .handback → m = h / 16 → h ∈ (s.pair m).moved → h ∉ (s.pair m).home → (s.unit h).bridged = false →
    (s.unitFresh h).pair m = { s.pair m with home := (s.pair m).home ++ [h] } ∧
    (s.unitFresh h).unit h = { s.unit h with staleRun := 0, status := (if (s.unit h).status = .joining ∨ (s.unit h).status = .unobserved ∨
      (s.unit h).status = .moving then .present else (s.unit h).status) }) ∧
  (∀ (m : Nat) (s : State), (s.pair m).state = .handback → (∀ h ∈ (s.pair m).moved, h ∈ (s.pair m).home) →
    s.servingEven m = true →
    ∃ t, exec (.handbackComplete m) s = .next t ∧ (t.pair m).state = .normal ∧ (t.pair m).moved = [] ∧ (t.pair m).limitEp = 0 ∧
      smGet 0 (t.lane (s.pair m).broken).counters 16 = min (2 ^ 32 - 1) (smGet 0 (s.lane (s.pair m).broken).counters 16 + 1) ∧
      ((s.pair m).go = true → t.reg R.LNK_ACTION_STAT = 2) ∧ ((s.pair m).go = false → t.regs = s.regs) ∧
      (∀ h, t.unit h = s.unit h) ∧ (∀ n, n ≠ m → t.pair n = s.pair n) ∧ Frame [.regs, .lnk] s t) ∧
  (∀ (m : Nat) (s : State), (s.pair m).state = .handback → (s.pair m).flapped = true ∨ 256 ≤ (s.sys.epoch - (s.pair m).hbAt).toNat →
    ∃ t, exec (.handbackAbort m) s = .next t ∧ t.pair m = { s.pair m with state := .bridged, restoreRun := 0, go := false, flapped := false } ∧
      smGet 0 (t.lane (s.pair m).broken).counters 17 = min (2 ^ 32 - 1) (smGet 0 (s.lane (s.pair m).broken).counters 17 + 1) ∧
      t.rb R.LNK_STR_CAUSE 5 = true ∧ ((s.pair m).go = true → t.reg R.LNK_ACTION_STAT = 6) ∧ (∀ h, t.unit h = s.unit h) ∧
      (∀ n, n ≠ m → t.pair n = s.pair n) ∧ Frame [.regs, .lnk] s t)

/-- QUARANTINE, BRIDGE_LIMIT_EXPIRY, CLEAR_QUARANTINE, CLEAR_COUNTERS, CLEAR_LOST, RETRIM and LNK_TBL_READ. The third flap quarantines a
lane, its frames in flight counting as delivered and its return offset searched again, and makes the present and joining units that it serves
on their home route UNOBSERVED; the bridged time limit expires once, and its moved units are to be retired or BRIDGE_EXPIRED is raised; the string actions of a
requester that may write LNK_ACTION, with none running, have their effect on the named lane and answer 2, or 3 in a state that does not
permit them, RETRIM waiting for a header run in progress; a served table read answers the selected word (R104, R114, R128, R129, R133, R134,
R135, R145, R167, R489; that CLEAR_LOST sets STALE_RUN to 0 and that a quarantined lane is emptied at once: log entry 16). -/
def Obligations.StringActions : Prop :=
  (∀ (l : Nat) (s : State), 3 ≤ (s.lane l).flaps.length → (s.lane l).quar = false →
    ∃ t, exec (.quarantine l) s = .next t ∧ (t.lane l).quar = true ∧ (t.lane l).inflight = [] ∧ (t.lane l).returnOfs = none ∧
      t.rb R.LNK_STR_CAUSE 6 = true ∧ (∀ p < 8, (t.unit (l * 8 + p)).status =
        (if (s.unit (l * 8 + p)).bridged = false ∧ (s.unit (l * 8 + p)).hasHold = true ∧
          ((s.unit (l * 8 + p)).status = .present ∨ (s.unit (l * 8 + p)).status = .joining) then .unobserved else (s.unit (l * 8 + p)).status)) ∧
      (∀ f ∈ (s.lane l).inflight, l ∈ (t.shelf (f.k - 1)).delivered) ∧ (∀ m, m ≠ l → t.lane m = s.lane m) ∧ Frame [.regs, .lnk, .cel, .edg] s t) ∧
  (∀ (m : Nat) (s : State), (s.pair m).state = .bridged ∨ (s.pair m).state = .handback → (s.pair m).expired = false → (s.pair m).retire = false →
    s.epOfMs (1000 * clampNat 1 3600 (s.rf R.LNK_BRIDGE_LIMIT 11 0)) ≤ (s.pair m).limitEp →
    ∃ t, exec (.bridgeLimitExpiry m) s = .next t ∧ t.pair m = { s.pair m with expired := true, retire := (t.pair m).retire } ∧
      t.rb R.LNK_STR_CAUSE 7 = true ∧ ((s.pair m).moved = [] → (t.pair m).retire = true) ∧
      ((t.pair m).retire = false → 41 ∈ t.prt.evtNext) ∧ ((t.pair m).retire = true → t.prt.evtNext = s.prt.evtNext) ∧ RegsBut [R.LNK_STR_CAUSE] s t ∧ Frame [.regs, .lnk, .edg, .prt] s t) ∧
  (∀ (r : Requester) (l : Nat) (s : State), l < 512 → s.mayWrite r R.LNK_ACTION = true → s.lnk.action = none →
    (∃ t, exec (.clearQuarantine r l) s = .next t ∧ t.lane l = { s.lane l with quar := false, flaps := [] } ∧
      (∀ m, m ≠ l → t.lane m = s.lane m) ∧ t.reg R.LNK_ACTION_STAT = 2 ∧ Frame [.regs, .lnk] s t) ∧
    (∃ t, exec (.clearCounters r l) s = .next t ∧ t.lane l = { s.lane l with counters := [] } ∧
      (∀ m, m ≠ l → t.lane m = s.lane m) ∧ t.reg R.LNK_ACTION_STAT = 2 ∧ Frame [.regs, .lnk] s t) ∧
    (∃ t, exec (.clearLost r l) s = .next t ∧
      (s.sys.conv = .ready → t.reg R.LNK_ACTION_STAT = 2 ∧ ∀ p < 8, (s.unit (l * 8 + p)).status = .lost →
        t.unit (l * 8 + p) = { s.unit (l * 8 + p) with status := .joining, staleRun := 0 }) ∧
      (s.sys.conv ≠ .ready → t.reg R.LNK_ACTION_STAT = 3 ∧ t.lnk = s.lnk) ∧ (∀ m, t.lane m = s.lane m) ∧ Frame [.regs, .lnk] s t) ∧
    (∃ t, exec (.retrim r l) s = .next t ∧
      (s.sys.conv ≠ .charge → s.sys.conv ≠ .ready → t.reg R.LNK_ACTION_STAT = 3 ∧ t.lnk = s.lnk) ∧
      (s.sys.conv = .ready → s.runPending = true → t.reg R.LNK_ACTION_STAT = 1 ∧ t.lnk.action = some ⟨5, l, l, 0, 0, s.sys.epoch⟩) ∧
      (s.sys.conv = .ready → s.runPending = false → t.reg R.LNK_ACTION_STAT = 2 ∧
        ∀ x ∈ s.leadTrim l, (t.lane l).lead = x.1 ∧ (t.lane l).tLane = x.2) ∧ Frame [.regs, .lnk, .prt] s t)) ∧
  (∀ (r : Requester) (a : Word) (s : State), s.serves r = true → a = s.reg (ownKey r R.LNK_TBL_ADDR) →
    ∃ t, exec (.lnkTblRead r) s = .next t ∧ Frame [.regs, .mgmtStatus, .hats, .out] s t ∧
      (flag a 31 = true → fld a 4 0 ≤ 6 → s.domain (fld a 27 16 / 128) = true →
        t = { s with out := s.out ++ [.readData r R.LNK_TBL_DATA (s.unitTable (fld a 27 16) (fld a 4 0))] }) ∧
      (flag a 31 = false → fld a 27 16 ≤ 511 → fld a 4 0 ≤ 24 → s.domain (fld a 27 16 / 16) = true →
        t = { s with out := s.out ++ [.readData r R.LNK_TBL_DATA (s.laneTable (fld a 27 16) (fld a 4 0))] }) ∧
      ((flag a 31 = true ∧ 6 < fld a 4 0 ∨ flag a 31 = false ∧ (511 < fld a 27 16 ∨ 24 < fld a 4 0)) →
        t.out.getLast? = some (.readData r R.LNK_TBL_DATA 0)))

/-- SEAL_PASS, ROW_REPAIR_MARK, SNAPSHOT_COPY and CEL_CTR_CLEAR. A seal pass that runs completes the annex of Shelf m − 1 and, when that
Shelf is the next to seal and every lane has delivered, seals it for E(m + 1) without a deadline mark; nothing becomes readable yet. A row
with ROW_LIMIT errors is marked once. The snapshot at the head of a Hatch's queue is copied when its credit and the seal allow: the credit
is deducted and the half that is not shown takes the copy with the next SEQ; the exchange that ends a copy (State.snapExchange, which the
boundary runs: log entry 18) shows that half, and none is copied before it; one that waits changes nothing, and one whose Shelf is gone, or
too far ahead, completes SHELF_GONE or BAD_ARG without credit. CEL_CTR_CLEAR zeroes the six counters (R138, R145, R146, R152, R154, R155,
R156, R169, R390). -/
def Obligations.CellarPasses : Prop :=
  (∀ (m : Epoch) (s : State), m = s.sys.epoch → s.sys.counting = true → s.domain 32 = true → bit s.sys.missNow 12 = false →
    ∃ t, exec .sealPass s = .next t ∧ t.cel.missedSeals = 0 ∧ (t.shelf (m - 1)).annexDone = true ∧ t.cel.newest = s.cel.newest ∧
      (s.nextSeal = m - 1 → s.lanesMissing (m - 1) = [] →
        t.cel.sealing = some (m - 1) ∧ (t.shelf (m - 1)).sealedAt = some (m + 1) ∧ (t.shelf (m - 1)).deadline = false) ∧
      Frame [.regs, .cel, .prt, .pwr, .dbg] s t) ∧
  (∀ (b row k : Nat) (s : State), b < 4 → k = b * 2 ^ 20 + row → s.rf R.CEL_ECC_CFG 7 0 ≤ s.rowErrors k →
    s.cel.marks.contains k = false → s.cel.repaired.contains k = false →
    ∃ t, exec (.rowRepairMark b row) s = .next t ∧ t.cel = { s.cel with marks := s.cel.marks ++ [k] } ∧ t.rb R.CEL_CAUSE 5 = true ∧
      (32 ≤ s.spareUsed b → t.rb R.CEL_CAUSE 2 = true) ∧ RegsBut [R.CEL_CAUSE] s t ∧ Frame [.regs, .cel] s t) ∧
  (∀ (h : Fin 4) (q : SnapReq) (rest : List SnapReq) (s : State), (s.snap h.val).queue = q :: rest → (s.snap h.val).copying = none →
    (s.snapTurn h.val q.args = .wait → exec (.snapshotCopy h) s = .next s) ∧
    (s.snapTurn h.val q.args = .gone → ∃ u, exec (.snapshotCopy h) s = .next (u.complete q.ref 0x10 0x0B 0 0) ∧
      u.snap h.val = { s.snap h.val with queue := rest } ∧ Frame [.cel] s u) ∧
    (s.snapTurn h.val q.args = .badArg → ∃ u, exec (.snapshotCopy h) s = .next (u.complete q.ref 0x10 0x06 0 0) ∧
      u.snap h.val = { s.snap h.val with queue := rest } ∧ Frame [.cel] s u) ∧
    (∀ n, s.snapTurn h.val q.args = .copy n → ∃ t x, exec (.snapshotCopy h) s = .next t ∧
      t.snap h.val = { s.snap h.val with credit := (s.snap h.val).credit - snapCost q.args, queue := rest, copying := some q,
                                         other := some x } ∧
      x.epoch = n ∧ x.first = q.args.first ∧ x.count = q.args.count ∧ x.seq = (s.snap h.val).seq + 1 ∧
      (∀ k, k ≠ h.val → t.snap k = s.snap k) ∧ Frame [.cel] s t)) ∧
  (∀ (h : Fin 4) (q : SnapReq) (p : Snap) (s : State), (s.snap h.val).copying = some q → (s.snap h.val).other = some p →
    exec (.snapshotCopy h) s = .next s ∧
    (s.snapExchange h).snap h.val = { s.snap h.val with copying := none, other := (s.snap h.val).shown, shown := some p, seq := p.seq } ∧
    Frame [.regs, .cel, .hats, .out] s (s.snapExchange h)) ∧
  (∀ (r : Requester) (s : State), s.mayWrite r R.CEL_CTR_CLEAR = true →
    ∃ t, exec (.celCtrClear r) s = .next t ∧
      (∀ k ∈ [R.CEL_CNT_DEADLINE, R.CEL_CNT_AFTER_SEAL, R.CEL_CNT_DUPLICATE, R.CEL_CNT_ECC_CORR, R.CEL_CNT_ECC_UNCORR, R.CEL_CNT_LATE_USED],
        t.reg k = 0) ∧
      RegsBut [R.CEL_CTR_CLEAR, R.CEL_CNT_DEADLINE, R.CEL_CNT_AFTER_SEAL, R.CEL_CNT_DUPLICATE, R.CEL_CNT_ECC_CORR, R.CEL_CNT_ECC_UNCORR,
        R.CEL_CNT_LATE_USED] s t ∧ Frame [.regs] s t)

/-- CRATE_STAGING, CRATE_COMMIT_DECISION, CRATE_PART_TIMEOUT, CRATE_ABORT_DECISION and CRATE_ABORT_DONE of a slot: staging starts at the
boundary after the close; with every gate part acknowledged and no abort condition the commit is decided, X = m + 2 + LMAX + EXTRA without
gate parts and the epoch after the four headers otherwise; a part that has neither acknowledgement nor rejection 64 ep after its last item
has timed out; an abort condition aborts a staging Crate with the lowest code that applies, its device parts dropped and its four headers
run, the objects that they touch held until it is DONE; and the Crate is DONE at its last header. No other slot changes (R161, R163, R164,
R165, R167, R168). -/
def Obligations.CrateDecisions : Prop :=
  (∀ (i : Nat) (s : State), i < 4 → (s.crate i).state = .staging → (s.crate i).stagedAt = none →
    epGe s.sys.epoch ((s.crate i).closedAt + 1) = true →
    ∃ t, exec (.crateStaging i) s = .next t ∧ t.crate i = { s.crate i with stagedAt := some s.sys.epoch } ∧
      (∀ j, j ≠ i → t.crate j = s.crate j) ∧ Frame [.cel] s t) ∧
  (∀ (i : Nat) (f : Epoch) (s : State), i < 4 → (s.crate i).state = .staging → (s.crate i).stagedAt.isSome = true →
    (s.crate i).abortOutcome = none → (∀ g ∈ (s.crate i).gates, g.acked = true) →
    f = s.runFree 4 (s.sys.epoch + 1 + BitVec.ofNat 48 (s.leadMax + s.crateExtra)) →
    ∃ t, exec (.crateCommitDecision i) s = .next t ∧
      ((s.crate i).gates = [] → t.crate i = { s.crate i with
        state := .committing, eff := some (s.sys.epoch + 2 + BitVec.ofNat 48 (s.leadMax + s.crateExtra)) }) ∧
      ((s.crate i).gates ≠ [] → t.crate i = { s.crate i with state := .committing, eff := some (f + 4), runAt := some f } ∧
        smGet none t.cel.idLast (s.crate i).id = some (f + 3)) ∧
      ((∀ j < 4, (s.crate j).runAt = none) → f = s.sys.epoch + 1 + BitVec.ofNat 48 (s.leadMax + s.crateExtra)) ∧
      (∀ j, j ≠ i → t.crate j = s.crate j) ∧ Frame [.cel] s t) ∧
  (∀ (i : Nat) (g : GatePart) (e : Epoch) (s : State), i < 4 → (s.crate i).state = .staging → (s.crate i).stagedAt.isSome = true →
    (s.crate i).gates = [g] → g.lastSent = some e → g.acked = false → g.nacked = false → 64 ≤ (s.sys.epoch - e).toNat →
    ∃ t, exec (.cratePartTimeout i) s = .next t ∧ t.crate i = { s.crate i with gates := [{ g with timedOut := true }] } ∧
      (∀ j, j ≠ i → t.crate j = s.crate j) ∧ Frame [.cel] s t) ∧
  (∀ (i o : Nat) (s : State), i < 4 → (s.crate i).state = .staging → (s.crate i).abortOutcome = some o →
    ∃ t, exec (.crateAbortDecision i) s = .next t ∧ (t.crate i).state = .aborting ∧ (t.crate i).outcome = o ∧ (t.crate i).devs = [] ∧
      (∀ d ∈ (s.crate i).devs, t.crateHolds d.object = true) ∧
      ((s.crate i).gates = [] → (t.crate i).eff = some (s.sys.epoch + 1)) ∧
      ((s.crate i).gates ≠ [] → (∀ j < 4, (s.crate j).runAt = none) →
        (t.crate i).runAt = some (s.sys.epoch + 1 + BitVec.ofNat 48 s.leadMax)) ∧
      (t.shelf (s.sys.epoch - 1)).crateId = (s.crate i).id ∧ (t.shelf (s.sys.epoch - 1)).crateEvent = 2 ∧
      (∀ j, j ≠ i → t.crate j = s.crate j) ∧ Frame [.cel] s t) ∧
  (∀ (i : Nat) (a : Epoch) (s : State), i < 4 → (s.crate i).state = .aborting → (s.crate i).eff = some a →
    epGe s.sys.epoch (if (s.crate i).gates = [] then a else a + 3) = true →
    ∃ t, exec (.crateAbortDone i) s = .next t ∧ t.crate i = { s.crate i with state := .done, doneAt := s.sys.epoch } ∧
      t.rb R.CEL_CAUSE 3 = true ∧ (∀ j, j ≠ i → t.crate j = s.crate j) ∧ RegsBut [R.CEL_CAUSE] s t ∧ Frame [.regs, .cel] s t)

/-- CRATE_APPLY, CRATE_VERIFY_END, CRATE_BUILD_LIMIT and CRATE_SLOT_FREE of a slot: at E(X + 1) the device parts take effect, the map
parts among them, and the Crate is VERIFYING with its record in Shelf X; at the boundary after the epoch in which Shelf X + 6 was sealed
it is DONE, with outcome 1, or 2 with parts not applied; a Crate that stays in BUILDING for the limit is DONE with outcome 8; and with its
close completion, which carries the epoch at which it was DONE, or where none can be written at the boundary after, the slot is FREE, its
parts zeroed. No other slot changes (R161, R164, R166, R168, R380, R389, R398; of two Crates that fall on one Shelf it shows the later: the
model's choice, log entry 46). -/
def Obligations.CrateEffects : Prop :=
  (∀ (i : Nat) (x : Epoch) (s : State), i < 4 → (s.crate i).state = .committing → (s.crate i).eff = some x → epGe s.sys.epoch (x + 1) = true →
    ∃ t, exec (.crateApply i) s = .next t ∧ (t.crate i).state = .verifying ∧ (t.crate i).gates.length = (s.crate i).gates.length ∧
      t.sys.map = s.mapAfter (s.crate i).devs ∧ (t.shelf x).crateId = (s.crate i).id ∧ (t.shelf x).crateEvent = 1 ∧
      (∀ j, j ≠ i → t.crate j = s.crate j) ∧ Frame [.regs, .sys, .cel, .ctl, .edg, .hats, .pwr, .trk, .dbg, .out] s t) ∧
  (∀ (i : Nat) (x : Epoch) (s : State), (s.crate i).eff = some x → epGe s.sys.epoch (x + 1) = false → exec (.crateApply i) s = .next s) ∧
  (∀ (i : Nat) (v : Epoch) (s : State), i < 4 → (s.crate i).state = .verifying → (s.crate i).verified = some v →
    epGe s.sys.epoch (v + 1) = true →
    ∃ t, exec (.crateVerifyEnd i) s = .next t ∧ (t.crate i).state = .done ∧ (t.crate i).doneAt = s.sys.epoch ∧
      (t.crate i).outcome = (if (s.crate i).gates.all GatePart.applied then 1 else 2) ∧
      (t.crate i).failed = ((s.crate i).gates.filter (fun g => !g.applied)).length ∧ t.rb R.CEL_CAUSE 3 = true ∧
      ((s.crate i).gates.all GatePart.applied = false → t.rb R.CEL_CAUSE 4 = true ∧ 43 ∈ t.prt.evtNext) ∧
      (∀ j, j ≠ i → t.crate j = s.crate j) ∧ RegsBut [R.CEL_CAUSE] s t ∧ Frame [.regs, .cel, .edg, .prt] s t) ∧
  (∀ (i : Nat) (s : State), i < 4 → (s.crate i).state = .building →
    1024 * max 1 (s.rf R.CEL_CRATE_CFG 31 16) ≤ (s.sys.epoch - (s.crate i).openedAt).toNat →
    ∃ t, exec (.crateBuildLimit i) s = .next t ∧ t.crate i = { s.crate i with state := .done, outcome := 8, doneAt := s.sys.epoch } ∧
      t.rb R.CEL_CAUSE 3 = true ∧ (∀ j, j ≠ i → t.crate j = s.crate j) ∧ RegsBut [R.CEL_CAUSE] s t ∧ Frame [.regs, .cel] s t) ∧
  (∀ (i : Nat) (s : State), i < 4 → (s.crate i).state = .done → (s.crate i).closeRef = none → (s.crate i).doneAt ≠ s.sys.epoch →
    ∃ t, exec (.crateSlotFree i) s = .next t ∧ t.crate i = { s.crate i with state := .free, gates := [], devs := [] } ∧
      (∀ j, j ≠ i → t.crate j = s.crate j) ∧ Frame [.cel] s t) ∧
  (∀ (i : Nat) (ref : OrderRef) (s : State), i < 4 → (s.crate i).state = .done → (s.crate i).closeRef = some ref →
    s.takesCompletion ref = true ∨ (s.crate i).doneAt ≠ s.sys.epoch →
    ∃ u w2 w3, exec (.crateSlotFree i) s = .next (u.completeAt (s.crate i).doneAt ref 0x23 (if (s.crate i).outcome = 1 then 0 else 0x0C) w2 w3) ∧
      u.crate i = { s.crate i with state := .free, gates := [], devs := [], closeRef := none } ∧
      w2 % 256 = (s.crate i).id % 256 ∧ w3 = (s.crate i).failed * 2 ^ 16 + (s.crate i).ackedCount ∧ Frame [.cel] s u)

/-- The engine passes, GRID_ENGINE_PASS, CONTROL_PASS, CHOPPER_PASS, ARM_ENGINE_PASS and EDGE_PLANNER_PASS: one that runs works on the
outputs of converter epoch m − 1, which it tags; in grid-following the PLL angle advances by its step for each epoch since the last pass;
the chopper's first annex word is its power; and the Edge Planner writes an order for the planned epoch of every unit that is due one, the
spares among them. A pass that is halted counts as a miss of its item (R20, R23, R170, R210, R213, R218, R240, R249, R266, R485). -/
def Obligations.EnginePasses : Prop :=
  (∀ (n : Epoch) (s : State), n = s.sys.epoch - 1 → s.sys.counting = true → bit s.sys.missNow 0 = false →
    (s.itemHalted 0 = false → ∃ t, exec .gridEnginePass s = .next t ∧ t.grd.tag = some n ∧
      (∀ e, s.grd.tag = some e → t.grd.phiPll = (s.grd.phiPll + s.grd.stepPll * (n - e).toNat) % 2 ^ 32) ∧
      t.annexWord n 0xC0 = BitVec.ofNat 32 t.phi ∧ Frame [.regs, .sys, .cel, .ctl, .grd, .prt, .trk] s t) ∧
    (s.itemHalted 0 = true → exec .gridEnginePass s = .next (s.missItem 0))) ∧
  (∀ (n : Epoch) (s : State), n = s.sys.epoch - 1 → s.sys.counting = true → bit s.sys.missNow 1 = false →
    (s.itemHalted 1 = false → ∃ t, exec .controlPass s = .next t ∧ t.ctl.tag = some n ∧
      t.ctl.running = ((List.range 64).filter (fun k => (t.slot k).ran)).length ∧ Frame [.regs, .sys, .cel, .ctl, .prt] s t) ∧
    (s.itemHalted 1 = true → exec .controlPass s = exec (.deadlineMiss 1) s)) ∧
  (∀ (n : Epoch) (s : State), n = s.sys.epoch - 1 → s.sys.counting = true → bit s.sys.missNow 13 = false → s.itemHalted 13 = false →
    ∃ t, exec .chopperPass s = .next t ∧ t.grd.chTag = some n ∧ t.annexWord n 0xC00 = toF32 t.grd.pCh ∧
      Frame [.regs, .sys, .cel, .grd, .prt] s t) ∧
  (∀ (g : Nat) (n : Epoch) (s : State), g < 7 → n = s.sys.epoch - 1 → s.sys.counting = true → bit s.sys.missNow (armItem g) = false →
    s.itemHalted (armItem g) = false →
    ∃ t, exec (.armEnginePass g) s = .next t ∧ (t.grp g).tag = some n ∧ Frame [.regs, .sys, .cel, .edg, .prt] s t) ∧
  (∀ s : State, s.sys.counting = true → bit s.sys.missNow 8 = false → s.itemHalted 8 = false →
    ∃ t, exec .edgePlannerPass s = .next t ∧
      (∀ g < 8, ∀ h ∈ s.orderUnits g, (smGet {} t.edg.orders h).c = some (s.planEpoch h)) ∧ Frame [.regs, .sys, .cel, .edg, .prt] s t)

/-- OBSERVER_LOCK, OBSERVER_LOS, FREEWHEEL_TIMEOUT and ROCOF_WINDOW_END: the observer goes from UNLOCKED or LOS to LOCKED after LOCK_EP
passes, from LOCKED to LOS, in grid-following, after LOS_EP passes, raising the loss of signal, and from FREEWHEEL to UNLOCKED after
FREEWHEEL_MS; an ended ROCOF window gives its mean, and its rate against the mean of the window before it, across the wrap of E too (R17,
R219, R221, R244). -/
def Obligations.GridObserver : Prop :=
  (∀ s : State, (s.grd.obs = .unlocked ∨ s.grd.obs = .los) → bit s.grd.badcfg 0 = false → max 1 (s.rf R.GRD_TIME0 31 16) ≤ s.grd.lockRun →
    ∃ t, exec .observerLock s = .next t ∧
      t.grd = { s.grd with obs := .locked, lockRun := 0, losRun := 0, lockedAt := s.sys.epoch, raised := t.grd.raised } ∧
      RegsBut [R.GRD_CAUSE] s t ∧ Frame [.regs, .grd] s t) ∧
  (∀ s : State, s.grd.obs = .locked → s.grd.gfm = false → max 1 (s.rf R.GRD_TIME0 15 0) ≤ s.grd.losRun →
    ∃ t, exec .observerLos s = .next t ∧ t.grd = { s.grd with obs := .los, lockRun := 0, losRun := 0, raised := t.grd.raised } ∧
      (s.sys.conv ≠ .off → bit t.grd.raised 0 = true ∧ (bit s.grd.raised 0 = false → t.rb R.GRD_CAUSE 0 = true)) ∧
      RegsBut [R.GRD_CAUSE] s t ∧ Frame [.regs, .grd] s t) ∧
  (∀ (n : Epoch) (s : State), s.grd.obs = .freewheel → s.grd.tag = some n →
    s.epOfMsNear (s.rf R.GRD_TIME5 15 0) ≤ (n + 1 - s.grd.fwAt).toNat →
    ∃ t, exec .freewheelTimeout s = .next t ∧ t.grd = { s.grd with obs := .unlocked, lockRun := 0, raised := t.grd.raised } ∧
      RegsBut [R.GRD_CAUSE] s t ∧ Frame [.regs, .grd] s t) ∧
  (∀ (w : Nat) (m m0 : Rat) (s : State), s.grd.winNo = some w → s.sys.epoch.toNat / s.rocofN ≠ w →
    (s.sys.epoch = BitVec.ofNat 48 ((w + 1) * s.rocofN - 1) + 1 →
      s.grd.tag = some (BitVec.ofNat 48 ((w + 1) * s.rocofN - 1)) ∨ s.itemHeld 0 = true) →
    m = rnd [s.grd.winSum / (s.grd.winCount : Rat)] →
    ∃ t, exec .rocofWindowEnd s = .next t ∧ t.grd.lastMean = some (w, m) ∧ t.grd.winNo = none ∧
      (∀ w0, s.grd.lastMean = some (w0, m0) → (w0 + 1) % (2 ^ 48 / s.rocofN) = w → t.grd.rocof = rnd [(m - m0) / ((s.rocofN : Rat) * s.tEp)]) ∧
      (s.grd.lastMean = none → t.grd.rocof = s.grd.rocof) ∧ Frame [.grd] s t)

/-- FRT_ENTRY, FRT_EXIT, FRT_TIMEOUT, CLEAR_FRT, CURVE_ACTIVATION and ENVELOPE_VIOLATION: NORMAL or POST goes to FAULT after FRT_ENTRY_EP
passes, with the entry recorded, the envelope time restarted and GRD_CAUSE.FRT_ENTRY set; FAULT goes to POST after FRT_EXIT_EP passes; a
FAULT of FRT_MAX_MS times out and raises its source; CLEAR_FRT empties the entry history; a level-activated curve changes after HOLD
passes; an envelope violated for HOLD passes is a violation and raises its source (R224, R225, R227, R228, R244, R247). -/
def Obligations.RideThroughAndCurves : Prop :=
  (∀ (n : Epoch) (s : State), s.frtRuns = true → s.grd.frt ≠ .fault → max 1 (s.rf R.GRD_TIME1 31 16) ≤ s.grd.frtInRun → s.grd.tag = some n →
    ∃ t, exec .frtEntry s = .next t ∧ t.grd = { s.grd with
        frt := .fault, frtInRun := 0, frtOutRun := 0, frtAt := n + 1, entries := s.sys.epoch :: s.grd.entries.take 255, raised := t.grd.raised } ∧
      t.rb R.GRD_CAUSE 3 = true ∧ RegsBut [R.GRD_CAUSE] s t ∧ Frame [.regs, .grd] s t) ∧
  (∀ s : State, s.frtRuns = true → s.grd.frt = .fault → max 1 (s.rf R.GRD_TIME1 15 0) ≤ s.grd.frtOutRun →
    ∃ t, exec .frtExit s = .next t ∧
      t.grd = { s.grd with frt := .post, frtOutRun := 0, frtInRun := 0, frtTimeout := false, raised := t.grd.raised } ∧
      RegsBut [R.GRD_CAUSE] s t ∧ Frame [.regs, .grd] s t) ∧
  (∀ (n : Epoch) (s : State), s.grd.frt = .fault → s.grd.tag = some n →
    s.epOfMsNear (s.rf R.GRD_TIME2 31 16) ≤ (n + 1 - s.grd.frtAt).toNat →
    ∃ t, exec .frtTimeout s = .next t ∧ t.grd = { s.grd with frtTimeout := true, raised := t.grd.raised } ∧ bit t.grd.raised 4 = true ∧
      (bit s.grd.raised 4 = false → t.rb R.GRD_CAUSE 4 = true) ∧ RegsBut [R.GRD_CAUSE] s t ∧ Frame [.regs, .grd] s t) ∧
  (∀ (r : Requester) (s : State), s.mayWrite r R.GRD_ACTION = true → s.grd.act = none →
    ∃ t, exec (.clearFrt r) s = .next t ∧ t.grd = { s.grd with entries := [], raised := t.grd.raised } ∧ t.rf R.GRD_ACTION_STAT 2 0 = 2 ∧
      RegsBut [R.GRD_ACTION, R.GRD_ACTION_STAT, R.GRD_CAUSE] s t ∧ Frame [.regs, .grd] s t) ∧
  (∀ (c : Nat) (k : CurveSt) (s : State), c < 8 → k = smGet {} s.grd.curves c → 1 ≤ fld (s.crvCfg c s.crvBank) 26 24 →
    fld (s.crvCfg c s.crvBank) 26 24 ≤ 4 → fld (s.crvCfg c s.crvBank) 17 16 = 1 → s.crvHold c ≤ k.run →
    ∃ t, exec (.curveActivation c) s = .next t ∧ smGet {} t.grd.curves c = { k with active := !k.active, run := 0 } ∧
      (∀ d, d ≠ c → smGet {} t.grd.curves d = smGet {} s.grd.curves d) ∧ Frame [.grd] s t) ∧
  (∀ (c : Nat) (k : CurveSt) (s : State), c < 8 → k = smGet {} s.grd.curves c → s.grd.frt ≠ .normal →
    5 ≤ fld (s.crvCfg c s.crvBank) 26 24 → s.crvHold c ≤ k.violRun →
    ∃ t, exec (.envelopeViolation c) s = .next t ∧ smGet {} t.grd.curves c = { k with viol := true } ∧
      (∀ d, d ≠ c → smGet {} t.grd.curves d = smGet {} s.grd.curves d) ∧ bit t.grd.raised 6 = true ∧
      (bit s.grd.raised 6 = false → t.rb R.GRD_CAUSE 6 = true) ∧ RegsBut [R.GRD_CAUSE] s t ∧ Frame [.regs, .grd] s t)

/-- ISLAND_CONFIRM and ISLAND_PULSE: while detection runs, a method that confirms sets ISLANDED, its bit of ISL_BY and the source, and
asks for the transfer with AUTO_FORM; a pulse starts when ISL_PERIOD has passed since the one before was due, the next one being due a
period after that, and one that has ended whole gives its Z and counts above the limit (R230, R232, R233, R244, R247; the instants of a
series whose period has changed: the model's reading, log entry 22). -/
def Obligations.IslandDetection : Prop :=
  (∀ s : State, s.islRuns = true → s.islConfirmed ≠ 0 →
    ∃ t, exec .islandConfirm s = .next t ∧ t.grd = { s.grd with
        islanded := true, islBy := s.grd.islBy ||| s.islConfirmed, autoForm := s.grd.autoForm || s.rb R.GRD_CFG 31, raised := t.grd.raised } ∧
      bit t.grd.raised 2 = true ∧ (bit s.grd.raised 2 = false → t.rb R.GRD_CAUSE 2 = true) ∧
      RegsBut [R.GRD_CAUSE] s t ∧ Frame [.regs, .grd] s t) ∧
  (∀ (b : Epoch) (s : State), s.grd.pulse.base = some b → s.pulseRuns = true → s.grd.pulse.on_ = false →
    s.pulsePer ≤ (s.sys.epoch - b).toNat →
    ∃ t, exec .islandPulse s = .next t ∧ t.grd.pulse.on_ = true ∧ t.grd.pulse.at_ = s.sys.epoch ∧ t.grd.pulse.count = s.grd.pulse.count + 1 ∧
      t.grd.pulse.base = some (s.sys.epoch - BitVec.ofNat 48 ((s.sys.epoch - b).toNat % max 1 s.pulsePer)) ∧
      t.grd.pulse.z = s.grd.pulse.z ∧ Frame [.grd] s t) ∧
  (∀ (b : Epoch) (s : State), s.grd.pulse.base = some b → s.grd.pulse.on_ = false → (s.sys.epoch - b).toNat < s.pulsePer →
    exec .islandPulse s = .next s) ∧
  (∀ (q : Nat) (s : State), s.grd.pulse.on_ = true → s.pulseW ≤ (s.sys.epoch - s.grd.pulse.at_).toNat → s.pulseRuns = false →
    q = s.pulseW / 4 → 0 < q → s.grd.pulse.bCount = q → s.grd.pulse.aCount = q → s.grd.pulse.discard = false →
    ∃ t, exec .islandPulse s = .next t ∧ t.grd.pulse.on_ = false ∧
      t.grd.pulse.z = quo 15 (rnd [s.grd.pulse.aSum / (q : Rat), -(s.grd.pulse.bSum / (q : Rat))]).abs s.pulseI ∧
      t.grd.pulse.above = (if s.gpar 28 < t.grd.pulse.z then s.grd.pulse.above + 1 else 0) ∧ Frame [.grd] s t)

/-- TO_GFM, TO_GFL, CANCEL, CLEAR_ISLAND and GFL_TRANSFER by a requester that may write GRD_ACTION. TO_GFM is accepted with result 1 in
grid-following in RUN with no action pending; TO_GFL with result 1 in grid-forming with none pending; CANCEL ends a pending action with
result 4 and f_RS = 0; CLEAR_ISLAND, in grid-following with none pending, clears ISLANDED and is done with 2; each is refused with 3 and
changes nothing of the Grid Engine elsewhere; a transfer to grid-following that is ready makes the PLL's angle the one in force, clears
ISLANDED and ends the action with 2 (R232, R233, R236, R237, R247; that CLEAR_ISLAND is refused in grid-forming, where R233 names its
effect in grid-following only: the model's reading, log entry 22). -/
def Obligations.GridFormingActions : Prop :=
  (∀ (r : Requester) (s : State), s.mayWrite r R.GRD_ACTION = true → s.grd.act = none → s.grd.gfm = false → s.sys.conv = .run →
    ∃ t, exec (.toGfm r) s = .next t ∧ t.grd = { s.grd with act := some .toGfm } ∧ t.rf R.GRD_ACTION_STAT 2 0 = 1 ∧
      RegsBut [R.GRD_ACTION, R.GRD_ACTION_STAT] s t ∧ Frame [.regs, .grd] s t) ∧
  (∀ (r : Requester) (s : State), s.mayWrite r R.GRD_ACTION = true → s.grd.act = none → s.grd.gfm = true →
    ∃ t, exec (.toGfl r) s = .next t ∧ t.grd = { s.grd with act := some .toGfl } ∧ t.rf R.GRD_ACTION_STAT 2 0 = 1 ∧
      RegsBut [R.GRD_ACTION, R.GRD_ACTION_STAT] s t ∧ Frame [.regs, .grd] s t) ∧
  (∀ (r : Requester) (s : State), s.mayWrite r R.GRD_ACTION = true → s.grd.act ≠ none →
    ∃ t, exec (.cancel r) s = .next t ∧ t.grd = { s.grd with act := none, fRs := 0 } ∧ t.rf R.GRD_ACTION_STAT 2 0 = 4 ∧
      t.rb R.GRD_CAUSE 12 = true ∧ RegsBut [R.GRD_ACTION, R.GRD_ACTION_STAT, R.GRD_CAUSE] s t ∧ Frame [.regs, .grd] s t) ∧
  (∀ (r : Requester) (s : State), s.mayWrite r R.GRD_ACTION = true → s.grd.act = none → s.grd.gfm = false →
    ∃ t, exec (.clearIsland r) s = .next t ∧ t.grd = { s.grd with islanded := false, islBy := 0, raised := t.grd.raised } ∧
      t.rf R.GRD_ACTION_STAT 2 0 = 2 ∧ t.rb R.GRD_CAUSE 12 = true ∧
      RegsBut [R.GRD_ACTION, R.GRD_ACTION_STAT, R.GRD_CAUSE] s t ∧ Frame [.regs, .grd] s t) ∧
  (∀ (r : Requester) (c : Instr) (s : State), s.mayWrite r R.GRD_ACTION = true →
    (c = .toGfm r ∧ (s.grd.act ≠ none ∨ s.grd.gfm = true ∨ s.sys.conv ≠ .run)) ∨ (c = .toGfl r ∧ (s.grd.act ≠ none ∨ s.grd.gfm = false)) ∨
      (c = .cancel r ∧ s.grd.act = none) ∨ (c = .clearIsland r ∧ (s.grd.act ≠ none ∨ s.grd.gfm = true)) →
    ∃ t, exec c s = .next t ∧ t.grd = s.grd ∧ t.rf R.GRD_ACTION_STAT 2 0 = 3 ∧ t.rb R.GRD_CAUSE 12 = true ∧
      RegsBut [R.GRD_ACTION, R.GRD_ACTION_STAT, R.GRD_CAUSE] s t ∧ Frame [.regs] s t) ∧
  (∀ s : State, s.grd.act = some .toGfl → s.grd.gfm = true → s.grd.resync = true → s.grd.frt = .normal →
    ∃ t, exec .gflTransfer s = .next t ∧ t.grd = { s.grd with
        gfm := false, act := none, fRs := 0, resync := false, islanded := false, islBy := 0, raised := t.grd.raised } ∧
      t.phi = s.grd.phiPll ∧ t.rf R.GRD_ACTION_STAT 2 0 = 2 ∧ t.rb R.GRD_CAUSE 7 = true ∧ t.rb R.GRD_CAUSE 12 = true ∧
      Frame [.regs, .ctl, .grd, .trk] s t)

/-- STOP_RAMP_COMPLETE, STOP_RAMP_TIMEOUT, PLAUS_WINDOW_END, RC_CLEAR and CLEAR_CHECK_COUNTS: a stop ramp at zero, or past its TIMEOUT
with CTL_CAUSE set, makes the transition due at the next boundary; a skipped window has no outcome, and any other passes or fails by its
bounds, a failure being counted and LIMIT of them in a row entering failure; RC_CLEAR empties one table; CLEAR_CHECK_COUNTS zeroes the
failure counts and FAIL_SEEN of the five checks (R192, R193, R201, R212). -/
def Obligations.StopRampAndChecks : Prop :=
  (∀ s : State, s.ctl.stopping.isSome = true → s.ctl.rampZero = true →
    ∃ t, exec .stopRampComplete s = .next t ∧ t.ctl = { s.ctl with rampDone := true } ∧ Frame [.ctl] s t) ∧
  (∀ (a : Epoch) (s : State), s.ctl.stopping = some a → s.epOfMs (max 1 (s.rf R.CTL_STOP 31 16)) ≤ (s.sys.epoch - a).toNat →
    s.ctl.rampDone = false →
    ∃ t, exec .stopRampTimeout s = .next t ∧ t.ctl = { s.ctl with rampDone := true } ∧ t.rb R.CTL_CAUSE 0 = true ∧
      RegsBut [R.CTL_CAUSE] s t ∧ Frame [.regs, .ctl] s t) ∧
  (∀ (c : Nat) (r S : List Rat) (s : State), c < 5 → (s.plaus c).ended = some (true, r, S) →
    ∃ t k, exec (.plausWindowEnd c) s = .next t ∧
      t.plaus c = { s.plaus c with ended := none, last := .skip, res := r, worst := k, worstRes := r.getD k 0 } ∧
      (∀ d, d ≠ c → t.plaus d = s.plaus d) ∧ Frame [.ctl] s t) ∧
  (∀ (c : Nat) (r S : List Rat) (bad : Bool) (s : State), c < 5 → (s.plaus c).ended = some (false, r, S) →
    (bad = true ↔ ∃ k < r.length, s.plausTol c (S.getD k 0) < (r.getD k 0).abs) →
    ∃ t, exec (.plausWindowEnd c) s = .next t ∧ (t.plaus c).ended = none ∧ (t.plaus c).last = (if bad then .fail else .pass) ∧
      (t.plaus c).res = r ∧ (bad = false → t.regs = s.regs) ∧
      (bad = true → t.rf (R.CTL_PL_STAT c) 15 0 = incSat 65535 (s.rf (R.CTL_PL_STAT c) 15 0)) ∧
      (bad = true → max 1 (s.rf (R.CTL_PL_CFG c) 11 8) = 1 → (s.plaus c).fail = false →
        (t.plaus c).fail = true ∧ t.rb (R.CTL_PL_STAT c) 30 = true ∧ t.rb R.CTL_CAUSE 1 = true) ∧
      (∀ d, d ≠ c → t.plaus d = s.plaus d) ∧ RegsBut [R.CTL_PL_STAT c, R.CTL_CAUSE] s t ∧ Frame [.regs, .ctl] s t) ∧
  (∀ (r : Requester) (k : Nat) (s : State), k < 8 → s.mayWrite r R.CTL_ACTION = true →
    ∃ t, exec (.rcClear r k) s = .next t ∧ t.rcTable k = { s.rcTable k with m := [] } ∧ (∀ d, d ≠ k → t.rcTable d = s.rcTable d) ∧
      RegsBut [R.CTL_ACTION] s t ∧ Frame [.regs, .ctl] s t) ∧
  (∀ (r : Requester) (s : State), s.mayWrite r R.CTL_ACTION = true →
    ∃ t, exec (.clearCheckCounts r) s = .next t ∧
      (∀ c < 5, t.rf (R.CTL_PL_STAT c) 15 0 = 0 ∧ t.rb (R.CTL_PL_STAT c) 30 = false) ∧
      RegsBut [R.CTL_ACTION, R.CTL_PL_STAT 0, R.CTL_PL_STAT 1, R.CTL_PL_STAT 2, R.CTL_PL_STAT 3, R.CTL_PL_STAT 4] s t ∧ Frame [.regs] s t)

/-- GEN_START, GEN_STOP, CAP_ARM, CAP_ABORT, CAP_TRIGGER and CAP_DONE: a generator starts with E_s = E and its configuration, is refused
with CAUSE 2 in RUN without commissioning mode unless POINT is none, and stops with CAUSE 1; the configuration writes that wait for a START
come into force with one that is not refused; no other generator changes; a capture that is not in progress waits for admission, and an ARM
of one in progress is refused (shown beside its state: log entry 45); it is aborted with its samples kept, keeps the last PRE samples at
the trigger, and is DONE at 4,096 (R205, R206, R207, R212, R410, R450; how a configuration waits for its START: log entry 20). -/
def Obligations.GeneratorsAndCapture : Prop :=
  (∀ (r : Requester) (g : Nat) (s : State), g < 4 → s.mayWrite r (R.CTL_GEN_CTRL g) = true →
    let v := s.setArgs (R.CTL_GEN_CTRL g) (s.actWord (R.CTL_GEN_CTRL g) 31 [])
    exec (.genStart r g) s = .next ((if (v.genTake g).genRefused g then v else v.genTake g).genStart g)) ∧
  (∀ (r : Requester) (g : Nat) (s : State), g < 4 → s.mayWrite r (R.CTL_GEN_CTRL g) = true →
    (∀ k q w due b o, .image k q w due b o ∈ s.regs.pend → genOf k ≠ some g) → s.gensAct = true ∨ s.rf (R.CTL_GEN_CFG g) 3 2 = 3 →
    ∃ t, exec (.genStart r g) s = .next t ∧ (t.gen g).running = true ∧ (t.gen g).start = s.sys.epoch ∧
      (t.gen g).cfg = s.reg (R.CTL_GEN_CFG g) ∧ (t.gen g).freq = (s.reg (R.CTL_GEN_FREQ g)).toNat ∧ (t.gen g).shifts = 0 ∧
      (∀ k, k ≠ g → t.gen k = s.gen k) ∧ RegsBut [R.CTL_GEN_CTRL g] s t ∧ Frame [.regs, .ctl] s t) ∧
  (∀ (r : Requester) (g : Nat) (s : State), g < 4 → s.mayWrite r (R.CTL_GEN_CTRL g) = true → s.gensAct = false →
    (∀ k q w due b o, .image k q w due b o ∈ s.regs.pend → genOf k ≠ some g) → s.rf (R.CTL_GEN_CFG g) 3 2 ≠ 3 →
    ∃ t, exec (.genStart r g) s = .next t ∧ t.gen g = { s.gen g with running := false, cause := 2 } ∧ t.rb R.CTL_CAUSE 5 = true ∧
      (∀ k, k ≠ g → t.gen k = s.gen k) ∧ RegsBut [R.CTL_GEN_CTRL g, R.CTL_CAUSE] s t ∧ Frame [.regs, .ctl] s t) ∧
  (∀ (r : Requester) (g : Nat) (s : State), g < 4 → s.mayWrite r (R.CTL_GEN_CTRL g) = true →
    ∃ t, exec (.genStop r g) s = .next t ∧
      t.gen g = (if (s.gen g).running then { s.gen g with running := false, cause := 1 } else s.gen g) ∧
      (∀ k, k ≠ g → t.gen k = s.gen k) ∧ RegsBut [R.CTL_GEN_CTRL g] s t ∧ Frame [.regs, .ctl] s t) ∧
  (∀ (r : Requester) (s : State), s.mayWrite r R.CTL_CAP_CTRL = true →
    s.ctl.cap.state = .idle ∨ s.ctl.cap.state = .done ∨ s.ctl.cap.state = .aborted →
    ∃ t, exec (.capArm r) s = .next t ∧ t.ctl.cap.state = .wait ∧ t.ctl.cap.cfg = s.reg R.CTL_CAP_CFG ∧ t.ctl.cap.samples = [[], [], [], []] ∧
      .capture ∈ t.pwr.waiting ∧ RegsBut [R.CTL_CAP_CTRL] s t ∧ Frame [.regs, .ctl, .pwr] s t) ∧
  (∀ (r : Requester) (s : State), s.mayWrite r R.CTL_CAP_CTRL = true →
    s.ctl.cap.state = .wait ∨ s.ctl.cap.state = .armed ∨ s.ctl.cap.state = .triggered →
    (∃ t, exec (.capArm r) s = .next t ∧ t.ctl = { s.ctl with cap := { s.ctl.cap with refused := true } } ∧
      RegsBut [R.CTL_CAP_CTRL] s t ∧ Frame [.regs, .ctl] s t) ∧
    (∃ t, exec (.capAbort r) s = .next t ∧ t.ctl.cap = { s.ctl.cap with state := .aborted, refused := false } ∧
      t.pwr.admitted = s.pwr.admitted.erase .capture ∧ t.pwr.waiting = s.pwr.waiting.erase .capture ∧
      RegsBut [R.CTL_CAP_CTRL] s t ∧ Frame [.regs, .ctl, .pwr] s t)) ∧
  (∀ s : State, s.ctl.cap.state = .armed → s.ctl.cap.hit = true ∨ fld s.ctl.cap.cfg 2 0 = 0 →
    ∃ t, exec .capTrigger s = .next t ∧ t.ctl.cap.state = .triggered ∧
      t.ctl.cap.samples = s.ctl.cap.samples.map (fun l => l.drop (l.length - fld s.ctl.cap.cfg 15 4)) ∧
      t.ctl.cap.trig = min (fld s.ctl.cap.cfg 15 4) (s.ctl.cap.samples.headD []).length ∧ Frame [.ctl] s t) ∧
  (∀ s : State, s.ctl.cap.state = .triggered → 4096 ≤ (s.ctl.cap.samples.headD []).length →
    ∃ t, exec .capDone s = .next t ∧ t.ctl.cap = { s.ctl.cap with state := .done, refused := false } ∧
      t.pwr.admitted = s.pwr.admitted.erase .capture ∧ t.rb R.CTL_CAUSE 4 = true ∧ RegsBut [R.CTL_CAUSE] s t ∧ Frame [.regs, .ctl, .pwr] s t)

/-- PROFILE_LOAD, FORCE_SET, FORCE_RELEASE and FORCE_RELEASE_ALL: a check at the head of a unit's profile work is asked of the unit on its
lane; a force entry is taken, shown as accepted, or refused in RUN without commissioning mode, for the code 0 and for bypassed on a
chopper unit with 2, for a unit that is not PRESENT or UNOBSERVED or is being bypassed with 3, and for a new entry in a full table with 4;
one entry or every entry is released with result 5 (R272, R276, R277, R283). -/
def Obligations.ProfilesAndForces : Prop :=
  (∀ (h i : Nat) (b : Bool) (rest : List ProfItem) (s : State), s.holdsProfiles h = true → (s.unit h).hasHold = true →
    (s.eunit h).prof.begun = true → (s.eunit h).prof.todo = .check b i :: rest → (s.eunit h).prof.asked = false →
    ∃ t, exec (.profileLoad h) s = .next t ∧ (t.eunit h).prof = { (s.eunit h).prof with asked := true } ∧
      (∃ q ∈ (t.lane (s.servedOn h)).svcQ, q.why = .profileCheck h (b2n b * 16 + i) ∧ q.addr = s.positionOf h ∧ q.cmd = 0x07) ∧
      (∀ g, g ≠ h → t.eunit g = s.eunit g) ∧ (∀ m, m ≠ s.servedOn h → t.lane m = s.lane m) ∧ Frame [.lnk, .edg] s t) ∧
  (∀ (r : Requester) (h code : Nat) (s : State), h < 4096 → code < 4 → s.mayWrite r R.EDG_FORCE = true →
    ¬ (s.sys.conv = .run ∧ s.commission = false) → code ≠ 0 → (code = 2 → s.classType (mapClass (s.mapEntry h)) ≠ 3) →
    ((s.unit h).status = .present ∨ (s.unit h).status = .unobserved) → s.bypassing h = false → s.forces.length < 64 ∨ (s.eunit h).force ≠ 0 →
    ∃ t, exec (.forceSet r h code) s = .next t ∧ t.eunit h = { s.eunit h with force := code } ∧ (∀ g, g ≠ h → t.eunit g = s.eunit g) ∧
      t.rf R.EDG_FORCE_STAT 2 0 = 1 ∧ t.rf R.EDG_FORCE_STAT 31 16 = (s.sys.epoch.toNat + 1 + s.orderLead h) % 2 ^ 16 ∧
      RegsBut [R.EDG_FORCE, R.EDG_FORCE_STAT] s t ∧ Frame [.regs, .edg] s t) ∧
  (∀ (r : Requester) (h code : Nat) (s : State), h < 4096 → code < 4 → s.mayWrite r R.EDG_FORCE = true →
    (s.sys.conv = .run ∧ s.commission = false ∨ code = 0 ∨ code = 2 ∧ s.classType (mapClass (s.mapEntry h)) = 3) →
    ∃ t, exec (.forceSet r h code) s = .next t ∧ t.rf R.EDG_FORCE_STAT 2 0 = 2 ∧
      RegsBut [R.EDG_FORCE, R.EDG_FORCE_STAT] s t ∧ Frame [.regs] s t) ∧
  (∀ (r : Requester) (h code k : Nat) (s : State), h < 4096 → code < 4 → s.mayWrite r R.EDG_FORCE = true →
    ¬ (s.sys.conv = .run ∧ s.commission = false) → code ≠ 0 → (code = 2 → s.classType (mapClass (s.mapEntry h)) ≠ 3) →
    (k = 3 ∧ ((s.unit h).status ≠ .present ∧ (s.unit h).status ≠ .unobserved ∨ s.bypassing h = true)) ∨
      (k = 4 ∧ ((s.unit h).status = .present ∨ (s.unit h).status = .unobserved) ∧ s.bypassing h = false ∧ 64 ≤ s.forces.length ∧
        (s.eunit h).force = 0) →
    ∃ t, exec (.forceSet r h code) s = .next t ∧ t.rf R.EDG_FORCE_STAT 2 0 = k ∧
      RegsBut [R.EDG_FORCE, R.EDG_FORCE_STAT] s t ∧ Frame [.regs] s t) ∧
  (∀ (r : Requester) (h : Nat) (s : State), h < 4096 → s.mayWrite r R.EDG_FORCE = true →
    ∃ t, exec (.forceRelease r h) s = .next t ∧ t.eunit h = { s.eunit h with force := 0 } ∧ (∀ g, g ≠ h → t.eunit g = s.eunit g) ∧
      t.rf R.EDG_FORCE_STAT 2 0 = 5 ∧ RegsBut [R.EDG_FORCE, R.EDG_FORCE_STAT] s t ∧ Frame [.regs, .edg] s t) ∧
  (∀ (r : Requester) (s : State), s.mayWrite r R.EDG_FORCE = true →
    ∃ t, exec (.forceReleaseAll r) s = .next t ∧ (∀ h, t.eunit h = { s.eunit h with force := 0 }) ∧ t.rf R.EDG_FORCE_STAT 2 0 = 5 ∧
      RegsBut [R.EDG_FORCE, R.EDG_FORCE_STAT] s t ∧ Frame [.regs, .edg] s t)

/-- BYPASS_GO, BYPASS_FIRE, BYPASS_CONFIRM_TIMEOUT and LOST_BYPASS_RETRY: GO is refused with 2 for a unit that is not PRESENT, UNOBSERVED
or LOST, has fired or is being bypassed, and with 3 when a healthy unit's group would fall below N_REQ; otherwise, for a PRESENT unit too,
the sequence starts, the unit's force entry released; FIRE goes into the order that a planner pass which has not missed writes for one of epochs j + 2 to j + 4
when the gauge covers it; a missing confirmation goes back to ARM, or after BYP_TRIES fails the sequence; a LOST unit is tried again every
256 ep. No other unit changes (R253, R278, R279, R280, R283). -/
def Obligations.BypassSequence : Prop :=
  (∀ (r : Requester) (h : Nat) (s : State), h < 4096 → s.mayWrite r R.EDG_BYPASS = true →
    ((s.unit h).status = .unobserved ∨ (s.unit h).status = .lost) → s.entry h = none → (s.eunit h).byp.step = 0 →
    ∃ t, exec (.bypassGo r h) s = .next t ∧ t.rf R.EDG_BYPASS_STAT 2 0 = 1 ∧ t.eunit h = { s.eunit h with
        force := 0, byp := if (s.unit h).status = .lost then { step := 2, retryAt := some s.sys.epoch } else { step := 1 } } ∧
      (∀ g, g ≠ h → t.eunit g = s.eunit g) ∧ RegsBut [R.EDG_BYPASS, R.EDG_BYPASS_STAT] s t ∧ Frame [.regs, .edg] s t) ∧
  (∀ (r : Requester) (h : Nat) (s : State), h < 4096 → s.mayWrite r R.EDG_BYPASS = true → (s.unit h).status = .present →
    (∀ e ∈ s.entry h, e.state ≠ 3) → (s.eunit h).byp.step = 0 ∨ 6 ≤ (s.eunit h).byp.step →
    s.healthy h = false ∨ s.nReq (mapGroup (s.mapEntry h)) < s.healthyCount (mapGroup (s.mapEntry h)) →
    ∃ t, exec (.bypassGo r h) s = .next t ∧ t.rf R.EDG_BYPASS_STAT 2 0 = 1 ∧
      t.eunit h = { s.eunit h with force := 0, byp := { step := 1 } } ∧ (∀ g, g ≠ h → t.eunit g = s.eunit g) ∧
      RegsBut [R.EDG_BYPASS, R.EDG_BYPASS_STAT] s t ∧ Frame [.regs, .edg] s t) ∧
  (∀ (r : Requester) (h k : Nat) (s : State), h < 4096 → s.mayWrite r R.EDG_BYPASS = true →
    (k = 2 ∧ ((s.unit h).status ≠ .present ∧ (s.unit h).status ≠ .unobserved ∧ (s.unit h).status ≠ .lost ∨ s.bypassing h = true)) ∨
      (k = 3 ∧ s.healthy h = true ∧ s.bypassing h = false ∧ s.healthyCount (mapGroup (s.mapEntry h)) ≤ s.nReq (mapGroup (s.mapEntry h))) →
    ∃ t, exec (.bypassGo r h) s = .next t ∧ t.rf R.EDG_BYPASS_STAT 2 0 = k ∧
      RegsBut [R.EDG_BYPASS, R.EDG_BYPASS_STAT] s t ∧ Frame [.regs] s t) ∧
  (∀ (h : Nat) (j c : Epoch) (s : State), (s.eunit h).byp.j = some j → (smGet {} s.edg.orders h).c = some c → (s.eunit h).byp.step = 3 →
    2 ≤ (c - j).toNat → (c - j).toNat ≤ 4 → c = s.planEpoch h → bit s.sys.missNow 8 = false → s.coversFire h = true →
    ∃ t, exec (.bypassFire h) s = .next t ∧ smGet {} t.edg.orders h = { smGet {} s.edg.orders h with fire := true } ∧
      (t.eunit h).byp = { (s.eunit h).byp with step := 4, f := some c } ∧ (∀ g, g ≠ h → t.eunit g = s.eunit g) ∧ Frame [.edg] s t) ∧
  (∀ (h : Nat) (f n : Epoch) (s : State), (s.eunit h).byp.f = some f → s.cel.newest = some n → (s.eunit h).byp.step = 4 →
    (s.unit h).status ≠ .lost → (∀ e ∈ s.entry h, e.state ≠ 3) → epGe n f = true → 64 ≤ (n - f).toNat →
    ∃ t, exec (.bypassConfirmTimeout h) s = .next t ∧ (t.eunit h).byp.tries = (s.eunit h).byp.tries + 1 ∧
      (max 1 (s.rf R.EDG_CFG 30 28) ≤ (s.eunit h).byp.tries + 1 → (t.eunit h).byp.step = 6 ∧ t.rb R.EDG_CAUSE 3 = true ∧ 40 ∈ t.prt.evtNext) ∧
      ((s.eunit h).byp.tries + 1 < max 1 (s.rf R.EDG_CFG 30 28) → (t.eunit h).byp.step = 2 ∧ t.regs = s.regs ∧ t.prt = s.prt) ∧
      (∀ g, g ≠ h → t.eunit g = s.eunit g) ∧ RegsBut [R.EDG_CAUSE] s t ∧ Frame [.regs, .edg, .prt] s t) ∧
  (∀ (h : Nat) (e : Epoch) (s : State), (s.eunit h).byp.retryAt = some e → (s.unit h).status = .lost → s.bypassing h = true →
    s.sys.conv ≠ .off → 256 ≤ (s.sys.epoch - e).toNat →
    ∃ t, exec (.lostBypassRetry h) s = .next t ∧ (t.eunit h).byp = { (s.eunit h).byp with step := 2, retryAt := some s.sys.epoch } ∧
      (∀ g, g ≠ h → t.eunit g = s.eunit g) ∧ Frame [.edg] s t)

/-- PROTECTION_PASS, AB_DISC, DEGRADE_EXPIRY and RECOVERY_TIMER_EXPIRY: a pass that runs is tagged m − 1 and leaves the other protection's
view alone, save where AB_DISC ends; in OFF only the sources that OFF evaluates are raised, elsewhere a DC current at its limit raises
DC_OC; a newly raised source of class Block or above fires the block logic; a discrepancy of DISC_EP passes raises source 56 in both
views, with the block request of each where its class is Block or above, and with no run left the pass clears it; an expired degrade timer
gives the source its class ESC, fires, withdraws the permit, and the boundary that follows carries the reaction of that class, the other
protection's timer in the same epoch writing its own request; an expired recovery timer ends, and with it an escalation that nothing else
holds, and the permit follows (R285, R287, R288, R289, R290, R293, R296, R297, R303; that a discrepancy is raised in both views, with a
block request of each: the model's reading, log entry 25). -/
def Obligations.ProtectionPasses : Prop :=
  (∀ (isA : Bool) (ns item : Nat) (s : State), item = (if isA then 9 else 10) → s.sys.counting = true → bit s.sys.missNow item = false →
    s.itemHalted item = false →
    ∃ t, exec (.protectionPass isA ns) s = .next t ∧ (t.view isA).tag = some (s.sys.epoch - 1) ∧ (t.view isA).done = true ∧
      (∀ k, k ∈ (t.view isA).newly → k ∈ (t.view isA).raised ∧ k ∉ (s.view isA).raised) ∧
      (∀ k, k ∈ (t.view isA).raised → k ∉ (s.view isA).raised → k ∈ (t.view isA).newly) ∧
      (s.prt.abDisc = false → t.view (!isA) = s.view (!isA)) ∧
      (s.prt.abDisc = true → s.sys.conv ≠ .off → (s.view (!isA)).done = true → (∀ x ∈ t.prt.disc, x.2 < max 1 (s.rf R.PRT_DISC 7 0)) →
        t.prt.abDisc = false ∧ 56 ∉ (t.view isA).raised) ∧
      (s.sys.conv = .off → s.prt.episode = none → ∀ k ∈ (t.view isA).raised, k = 49 ∨ k = 51 ∨ k = 52) ∧
      (∀ q, s.sys.conv ≠ .off → s.prtRole isA 15 = some q → s.prtLim isA 2 ≤ q.abs → 18 ∈ (t.view isA).raised) ∧
      (s.sys.conv ≠ .off → (∃ k ∈ (t.view isA).newly, 4 ≤ s.srcClass k) → t.lnk.blocks = s.lnk.blocks + 1 ∧ t.prt.firedNow = true) ∧
      Frame [.regs, .sys, .lnk, .cel, .edg, .prt, .dbg] s t) ∧
  (∀ (k n : Nat) (s : State), s.prt.abDisc = false → s.sys.conv ≠ .off → (k, n) ∈ s.prt.disc → max 1 (s.rf R.PRT_DISC 7 0) ≤ n →
    ∃ t, exec .abDisc s = .next t ∧ t.prt.abDisc = true ∧ 56 ∈ t.prt.a.raised ∧ 56 ∈ t.prt.b.raised ∧ t.prt.disc = s.prt.disc ∧
      (4 ≤ s.srcClass 56 → s.prt.a.raised.contains 56 = false → s.prt.b.raised.contains 56 = false →
        t.lnk.blocks = s.lnk.blocks + 2 ∧ t.prt.firedNow = true ∧ t.prt.a.permit = false ∧ t.prt.b.permit = false) ∧
      Frame [.regs, .lnk, .cel, .prt, .dbg] s t) ∧
  (∀ (isA : Bool) (k ns : Nat) (s : State), k < 72 → s.devRaised.contains k = true → (s.view isA).raised.contains k = true →
    s.rf (R.PRT_SRC_CFG k) 30 28 = 3 → s.degLimitEp k ≤ (s.view isA).degTimer k → s.prt.esc.contains k = false →
    ∃ t, exec (.degradeExpiry isA k ns) s = .next t ∧ t.prt.esc = k :: s.prt.esc ∧ t.prt.escNow = (k, isA) :: s.prt.escNow ∧
      t.rb R.PRT_CAUSE 3 = true ∧ t.rb R.PRT_CAUSE 0 = true ∧ t.lnk.blocks = s.lnk.blocks + 1 ∧ t.prt.firedNow = true ∧
      (∀ x, (t.view x).raised = (s.view x).raised ∧ (t.view x).degrade = (s.view x).degrade) ∧
      (4 ≤ s.rf (R.PRT_SRC_CFG k) 27 25 → (t.view isA).permit = false) ∧
      (∀ tag, s.rf (R.PRT_SRC_CFG k) 27 25 = 5 → (t.escalateDev tag k).prt.lockPending = true) ∧
      (∀ tag, s.rf (R.PRT_SRC_CFG k) 27 25 = 4 → (t.escalateDev tag k).rb R.PRT_CAUSE 1 = true) ∧
      RegsBut [R.PRT_CAUSE, R.PRT_BLOCK_LATCH, R.PRT_BLOCK_CNT] s t ∧ Frame [.regs, .lnk, .cel, .prt, .dbg] s t) ∧
  (∀ (isA : Bool) (k ns : Nat) (s : State), k < 72 → s.devRaised.contains k = true → (s.view isA).raised.contains k = true →
    s.rf (R.PRT_SRC_CFG k) 30 28 = 3 → s.degLimitEp k ≤ (s.view isA).degTimer k → s.prt.esc.contains k = true →
    s.prt.escNow.contains (k, !isA) = true → s.prt.escNow.contains (k, isA) = false →
    ∃ t, exec (.degradeExpiry isA k ns) s = .next t ∧ t.prt.esc = s.prt.esc ∧ t.lnk.blocks = s.lnk.blocks + 1 ∧
      RegsBut [R.PRT_CAUSE, R.PRT_BLOCK_LATCH, R.PRT_BLOCK_CNT] s t ∧ Frame [.regs, .lnk, .cel, .prt, .dbg] s t) ∧
  (∀ (isA : Bool) (k : Nat) (e : Epoch) (s : State), smGet none (s.view isA).recover k = some e → epGe s.sys.epoch e = true →
    ∃ t, exec (.recoveryTimerExpiry isA k) s = .next t ∧ (t.view isA).recover = smErase (s.view isA).recover k ∧
      (∀ x, (t.view x).raised = (s.view x).raised) ∧ (t.view (!isA)).recover = (s.view (!isA)).recover ∧
      (s.prt.a.raised.contains k = false → s.prt.b.raised.contains k = false → smGet none (s.view (!isA)).recover k = none →
        t.prt.esc = s.prt.esc.erase k) ∧
      (s.prt.a.raised.contains k = true → t.prt.esc = s.prt.esc) ∧
      ((s.view isA).tag = some (s.sys.epoch - 1) → (t.view isA).permit = t.permitOf (t.view isA)) ∧ Frame [.prt] s t)

/-- RECOVERY_COMPLETE, HOLD_TIMEOUT and TRIP_PULSE_END: a recovered episode ends with PRT_CAUSE.RECOVERED, once; without AUTO_RESUME the
converter goes from HOLD to READY with cause 5, with it and both permits RUN is announced for E(a + 5 + LMAX), and with a permit missing
the converter stays in HOLD; an episode of HOLD_MAX gives source 53 to the passes of the epoch, once, for both protections; a trip output in
pulse mode releases after WIDTH, and no other output does (R32, R34, R298, R299, R300, R303, R308; the pass that raises it: log entry 25). -/
def Obligations.EpisodeEnd : Prop :=
  (∀ s : State, s.recovered = true → s.sys.moved = false → s.sys.announce = none → s.rb R.SYS_CONV_CFG 1 = false → s.prt.recDone = false →
    ∃ t, exec .recoveryComplete s = .next t ∧ t.sys.conv = .ready ∧ t.sys.prev = .hold ∧ t.sys.cause = 5 ∧ t.sys.moved = true ∧
      t.prt.episode = none ∧ t.rb R.PRT_CAUSE 4 = true ∧ t.sys.epoch = s.sys.epoch ∧
      Frame [.regs, .sys, .mfe, .lnk, .cel, .ctl, .grd, .edg, .prt, .hats, .trk, .dbg, .out] s t) ∧
  (∀ s : State, s.recovered = true → s.sys.moved = false → s.sys.announce = none → s.rb R.SYS_CONV_CFG 1 = true → s.prt.recDone = false →
    s.prt.a.permit = true → s.prt.b.permit = true →
    ∃ t, exec .recoveryComplete s = .next t ∧
      t.sys = { s.sys with announce := some ⟨s.sys.epoch + 5 + BitVec.ofNat 48 s.leadMax, true, []⟩, moved := true } ∧
      t.prt = { s.prt with episode := none, recDone := true } ∧ t.rb R.PRT_CAUSE 4 = true ∧ RegsBut [R.PRT_CAUSE] s t ∧
      Frame [.regs, .sys, .prt] s t) ∧
  (∀ s : State, s.recovered = true → s.sys.moved = false → s.sys.announce = none → s.rb R.SYS_CONV_CFG 1 = true → s.prt.recDone = false →
    (s.prt.a.permit && s.prt.b.permit) = false →
    ∃ t, exec .recoveryComplete s = .next t ∧ t.prt = { s.prt with episode := none, recDone := true } ∧ t.rb R.PRT_CAUSE 4 = true ∧
      RegsBut [R.PRT_CAUSE] s t ∧ Frame [.regs, .prt] s t) ∧
  (∀ s : State, s.recovered = true → s.sys.moved = false → s.sys.announce = none → s.rb R.SYS_CONV_CFG 1 = true → s.prt.recDone = true →
    (s.prt.a.permit && s.prt.b.permit) = false → exec .recoveryComplete s = .next s) ∧
  (∀ (e : Epoch) (s : State), s.prt.episode = some e → s.prt.holdTimeoutDone = false →
    s.epOfMs (10 * max 1 (s.rf R.PRT_HOLD 31 16)) ≤ (s.sys.epoch - e).toNat →
    ∃ t, exec .holdTimeout s = .next t ∧ t.prt = { s.prt with holdTimeoutDone := true, evtA := t.prt.evtA, evtB := t.prt.evtB } ∧
      (∀ k, (k ∈ t.prt.evtA ↔ k = 53 ∨ k ∈ s.prt.evtA) ∧ (k ∈ t.prt.evtB ↔ k = 53 ∨ k ∈ s.prt.evtB)) ∧ Frame [.prt] s t) ∧
  (∀ s : State, s.prt.holdTimeoutDone = true → exec .holdTimeout s = .next s) ∧
  (∀ (o : Nat) (e : Epoch) (s : State), o < 4 → smGet none s.prt.trips o = some e → s.rb (R.PRT_TRIP_CFG o) 30 = true →
    s.epOfMs (10 * max 1 (s.rf (R.PRT_TRIP_CFG o) 23 16)) ≤ (s.sys.epoch - e).toNat →
    ∃ t, exec (.tripPulseEnd o) s = .next t ∧ smGet none t.prt.trips o = none ∧
      (∀ p, p ≠ o → smGet none t.prt.trips p = smGet none s.prt.trips p) ∧ Frame [.prt] s t) ∧
  (∀ (o : Nat) (s : State), s.rb (R.PRT_TRIP_CFG o) 30 = false → exec (.tripPulseEnd o) s = .next s)

/-- RESET_ARM, RESET_GO and RESET_ARM_EXPIRY: from a port that may write PRT_RESET, ARM with its key arms with RESULT 1; GO with its key
from the port that armed, within 1 s, takes LOCKOUT to OFF with cause 6 while no Lock-out source is raised, releases the trip outputs,
clears PRT_LOCKED, answers RESULT 2 and uses up the ARM; outside LOCKOUT it is refused with 3, and another key with 4, the ARM cancelled;
an ARM without GO expires after 1 s with RESULT 5 (R32, R310, R312). -/
def Obligations.DeliberateReset : Prop :=
  (∀ (r : Requester) (s : State), s.mayWrite r R.PRT_RESET = true →
    ∃ t, exec (.resetArm r 0xC35A) s = .next t ∧ t.prt = { s.prt with resetArm := some (r, s.sys.epoch), resetGo := false } ∧
      t.rf R.PRT_RESET_STAT 2 0 = 1 ∧ RegsBut [R.PRT_RESET_STAT] s t ∧ Frame [.regs, .prt] s t) ∧
  (∀ (r : Requester) (key : Nat) (s : State), s.mayWrite r R.PRT_RESET = true → key ≠ 0xC35A →
    ∃ t, exec (.resetArm r key) s = .next t ∧ t.prt = { s.prt with resetArm := none, resetGo := false } ∧ t.rf R.PRT_RESET_STAT 2 0 = 4 ∧
      t.rb R.PRT_CAUSE 6 = true ∧ RegsBut [R.PRT_RESET_STAT, R.PRT_CAUSE] s t ∧ Frame [.regs, .prt] s t) ∧
  (∀ (r : Requester) (e : Epoch) (s : State), s.mayWrite r R.PRT_RESET = true → s.prt.resetArm = some (r, e) →
    (s.sys.epoch - e).toNat ≤ s.ep1s → s.sys.conv = .lockout → s.resetReady = true → s.prt.lockPending = false → s.sys.moved = false →
    ∃ t, exec (.resetGo r 0x3CA5) s = .next t ∧ t.sys.conv = .off ∧ t.sys.prev = .lockout ∧ t.sys.cause = 6 ∧ t.prt.trips = [] ∧
      t.prt.resetArm = none ∧ t.prt.resetGo = false ∧ t.reg (R.PRT_LOCKED 0) = 0 ∧ t.reg (R.PRT_LOCKED 1) = 0 ∧ t.reg (R.PRT_LOCKED 2) = 0 ∧
      t.rf R.PRT_RESET_STAT 2 0 = 2 ∧ t.rb R.PRT_CAUSE 6 = true ∧
      Frame [.regs, .sys, .mfe, .lnk, .cel, .ctl, .grd, .edg, .prt, .hats, .trk, .dbg, .out] s t) ∧
  (∀ (r : Requester) (e : Epoch) (s : State), s.mayWrite r R.PRT_RESET = true → s.prt.resetArm = some (r, e) →
    (s.sys.epoch - e).toNat ≤ s.ep1s → s.sys.conv ≠ .lockout →
    ∃ t, exec (.resetGo r 0x3CA5) s = .next t ∧ t.sys = s.sys ∧ t.prt = { s.prt with resetArm := none, resetGo := false } ∧
      t.rf R.PRT_RESET_STAT 2 0 = 3 ∧ t.rb R.PRT_CAUSE 6 = true ∧ RegsBut [R.PRT_RESET_STAT, R.PRT_CAUSE] s t ∧ Frame [.regs, .prt] s t) ∧
  (∀ (r : Requester) (e : Epoch) (s : State), s.prt.resetArm = some (r, e) → s.ep1s < (s.sys.epoch - e).toNat → s.prt.resetGo = false →
    ∃ t, exec .resetArmExpiry s = .next t ∧ t.prt = { s.prt with resetArm := none } ∧ t.rf R.PRT_RESET_STAT 2 0 = 5 ∧
      RegsBut [R.PRT_RESET_STAT] s t ∧ Frame [.regs, .prt] s t)

/-- METERING_PASS, PULSE_START, PULSE_END, METER_CHECK_RECOMPUTE and PERIODIC_SAVE: a pass is tagged m − 1, takes the destinations of both
sides and the increments S_P and S_Q of the one and S_D of the other, with an estimate in DOUBT of the epochs since the last pass, and leaves
the totals to the boundary, whose metering work (State.mtrBoundary, which EPOCH_BOUNDARY runs: EpochEvents) adds each increment to the total
or tally that it names; before metering has begun nothing happens; an owed pulse starts once neither a pulse nor
a gap is in progress, on no output but one that makes pulses, and ends after WIDTH into its gap; a sealed set whose check value has
changed sets MTR_CAUSE and writes a Bin record; every 2^SAVE_LOG2 ep a save is asked of the Trunk under the next sequence number (R313,
R315, R319, R320, R322, R323, R324, R325, R326, R328, R330; what a pass without a destination and a gap give: log entry 27). -/
def Obligations.MeteringWork : Prop :=
  (∀ (n : Epoch) (s : State), n = s.sys.epoch - 1 → s.sys.counting = true → bit s.sys.missNow 11 = false → s.mtr.on_ = true →
    ∃ t, exec .meteringPass s = .next t ∧ t.mtr.last = some n ∧ t.mtr.destAc = s.mtrDest true n ∧ t.mtr.destDc = s.mtrDest false n ∧
      t.mtr.totals = s.mtr.totals ∧ t.mtr.tallies = s.mtr.tallies ∧ t.mtr.pulses = s.mtr.pulses ∧
      (∀ g < 7, t.reg (R.MTR_STORE_Q g) = s.storeOf g false ∧ t.reg (R.MTR_STORE_M g) = s.storeOf g true) ∧
      (∀ gap, gap = (match s.mtr.last with | some l => (n - l).toNat | none => 1) →
        t.mtr.incs = s.mtrIncs true n gap ++ s.mtrIncs false n gap) ∧
      Frame [.regs, .sys, .cel, .prt, .mtr] s t) ∧
  (∀ (ac : Bool) (n : Epoch) (gap : Nat) (v i : Nat → Int) (s : State), (∀ y < 3, v y = s.mtrCount (18 + y)) → (∀ x < 3, i x = s.mtrCount (21 + x)) →
    let sP := s.mtrC 0 3 * v 0 * i 0 + s.mtrC 1 4 * v 1 * i 1 + s.mtrC 2 5 * v 2 * i 2
    let sQ := s.mtrD 1 0 * v 1 * i 0 - s.mtrD 2 0 * v 2 * i 0 + s.mtrD 2 1 * v 2 * i 1 - s.mtrD 0 1 * v 0 * i 1 +
      s.mtrD 0 2 * v 0 * i 2 - s.mtrD 1 2 * v 1 * i 2
    let sD := s.mtrC 6 7 * s.mtrCount 24 * s.mtrCount 25
    (s.mtrDest ac n = .none → s.mtrIncs ac n gap = []) ∧
    (∀ (d : MtrDest) (q m : Nat), d = s.mtrDest ac n → d ≠ .none → d ≠ .doubt → (⟨d, q, m⟩ ∈ s.mtrIncs ac n gap ↔ m ≠ 0 ∧
      ((ac = true ∧ ((q = 0 ∧ sP = m) ∨ (q = 1 ∧ sP = -m) ∨ (q = 2 ∧ sQ = m) ∨ (q = 3 ∧ sQ = -m))) ∨
       (ac = false ∧ ((q = 4 ∧ sD = m) ∨ (q = 5 ∧ sD = -m))))))) ∧
  (∀ s : State, (∀ i ∈ s.mtr.incs, i.q < 6) → (∀ q < 6, smGet 0 s.mtr.totals q < 2 ^ 136) → (∀ q < 18, smGet 0 s.mtr.tallies q < 2 ^ 168) →
    let sum (d : MtrDest) (q : Nat) : Nat := ((s.mtr.incs.filter (fun i => i.dest = d && i.q = q)).map (·.amount)).sum
    s.mtrBoundary.mtr.incs = [] ∧
    (∀ q < 6, smGet 0 s.mtrBoundary.mtr.totals q = (smGet 0 s.mtr.totals q + sum .total q) % 2 ^ 136 ∧
      smGet 0 s.mtrBoundary.mtr.tallies q = (smGet 0 s.mtr.tallies q + sum .start q) % 2 ^ 168 ∧
      smGet 0 s.mtrBoundary.mtr.tallies (6 + q) = (smGet 0 s.mtr.tallies (6 + q) + sum .test q) % 2 ^ 168 ∧
      smGet 0 s.mtrBoundary.mtr.tallies (12 + q) = (smGet 0 s.mtr.tallies (12 + q) + sum .doubt q) % 2 ^ 168)) ∧
  (∀ s : State, s.mtr.on_ = false → exec .meteringPass s = .next s) ∧
  (∀ (p : Nat) (s : State), p < 8 → s.pulseOn p = true → 1 ≤ (s.pulse p).backlog →
    (s.pulse p).out = false → (s.pulse p).gap = false →
    ∃ t, exec (.pulseStart p) s = .next t ∧
      t.pulse p = { s.pulse p with out := true, at_ := s.sys.epoch, backlog := (s.pulse p).backlog - 1 } ∧
      (∀ q, q ≠ p → t.pulse q = s.pulse q) ∧ Frame [.mtr] s t) ∧
  (∀ (p : Nat) (s : State), s.pulseOn p = false → exec (.pulseStart p) s = .next s) ∧
  (∀ (p : Nat) (s : State), p < 8 → (s.pulse p).out = true → s.pulseEp p false ≤ (s.sys.epoch - (s.pulse p).at_).toNat →
    ∃ t, exec (.pulseEnd p) s = .next t ∧ t.pulse p = { s.pulse p with out := false, gap := true, at_ := s.sys.epoch } ∧
      (∀ q, q ≠ p → t.pulse q = s.pulse q) ∧ Frame [.mtr] s t) ∧
  (∀ s : State, s.mtr.isSealed = true → s.sys.counting = true → s.sys.epoch.toNat % 2 ^ 16 = 0 → s.sealCheck ≠ s.mtr.check →
    ∃ t, exec .meterCheckRecompute s = .next t ∧ t.rb R.MTR_CAUSE 2 = true ∧
      (s.trk.writeProt = false → s.trk.coalescing = false → s.trk.queue.length < 1024 →
        ∃ e, t.trk.queue = s.trk.queue ++ [e] ∧ e.cause = 0xA6 ∧ e.payload = [s.sealCheck, s.mtr.check]) ∧
      RegsBut [R.MTR_CAUSE, R.TRK_CAUSE, R.TRK_QUEUE, R.TRK_SUPPRESSED] s t ∧ Frame [.regs, .trk] s t) ∧
  (∀ s : State, s.mtr.on_ = true → s.sys.counting = true → s.sys.epoch.toNat % 2 ^ s.saveLog2 = 0 → s.trk.writeProt = false →
    ∃ t, exec .periodicSave s = .next t ∧ t.mtr = { s.mtr with saveSeq := (s.mtr.saveSeq + 1) % 2 ^ 32 } ∧
      t.trk = { s.trk with waiting := s.trk.waiting ++ [(.periodicSave, s.saveWords 0)] } ∧ Frame [.mtr, .trk] s t)

/-- MERGE, DISCARD, SEAL and UNSEAL by a requester that may write the register: MERGE moves the named quantities of a tally into the
totals, START's all six, which makes the totals valid; DISCARD zeroes those of TEST or DOUBT and is refused for START; both set RESULT and
the cause. SEAL with its key takes the check value of a good set; UNSEAL with its key, in OFF under commissioning, counts a change;
another key changes nothing of the meter (R321, R328, R329, R335). -/
def Obligations.MeterActions : Prop :=
  (∀ (r : Requester) (y m : Nat) (s : State), y < 3 → m < 64 → s.mayWrite r R.MTR_ACTION = true →
    ∃ t, exec (.merge r y m) s = .next t ∧ t.rb R.MTR_CAUSE 6 = true ∧ t.rf R.MTR_ACTION_STAT 2 0 = 2 ∧
      t.mtr.valid = (y = 0 || s.mtr.valid) ∧
      (∀ q < 6, (y = 0 ∨ bit m q = true) → smGet 0 t.mtr.tallies (6 * y + q) = 0 ∧
        smGet 0 t.mtr.totals q = (smGet 0 s.mtr.totals q + smGet 0 s.mtr.tallies (6 * y + q)) % 2 ^ 136) ∧
      (∀ q < 6, y ≠ 0 → bit m q = false → smGet 0 t.mtr.tallies (6 * y + q) = smGet 0 s.mtr.tallies (6 * y + q) ∧
        smGet 0 t.mtr.totals q = smGet 0 s.mtr.totals q) ∧ Frame [.regs, .mtr, .trk] s t) ∧
  (∀ (r : Requester) (m : Nat) (s : State), m < 64 → s.mayWrite r R.MTR_ACTION = true →
    ∃ t, exec (.merge r 3 m) s = .next t ∧ t.rb R.MTR_CAUSE 6 = true ∧ t.rf R.MTR_ACTION_STAT 2 0 = 3 ∧
      RegsBut [R.MTR_ACTION, R.MTR_ACTION_STAT, R.MTR_CAUSE] s t ∧ Frame [.regs] s t) ∧
  (∀ (r : Requester) (y m : Nat) (s : State), (y = 1 ∨ y = 2) → m < 64 → s.mayWrite r R.MTR_ACTION = true →
    ∃ t, exec (.discard r y m) s = .next t ∧ t.rb R.MTR_CAUSE 6 = true ∧ t.rf R.MTR_ACTION_STAT 2 0 = 2 ∧ t.mtr.totals = s.mtr.totals ∧
      (∀ q < 6, smGet 0 t.mtr.tallies (6 * y + q) = (if bit m q then 0 else smGet 0 s.mtr.tallies (6 * y + q))) ∧
      Frame [.regs, .mtr, .trk] s t) ∧
  (∀ (r : Requester) (y m : Nat) (s : State), (y = 0 ∨ y = 3) → m < 64 → s.mayWrite r R.MTR_ACTION = true →
    ∃ t, exec (.discard r y m) s = .next t ∧ t.rb R.MTR_CAUSE 6 = true ∧ t.rf R.MTR_ACTION_STAT 2 0 = 3 ∧
      RegsBut [R.MTR_ACTION, R.MTR_ACTION_STAT, R.MTR_CAUSE] s t ∧ Frame [.regs] s t) ∧
  (∀ (r : Requester) (s : State), s.mayWrite r R.MTR_SEAL = true → s.mtrBad true = false → s.mtrBad false = false →
    ∃ t, exec (.sealMeter r 0xA55A) s = .next t ∧ t.mtr = { s.mtr with isSealed := true, check := s.sealCheck } ∧ t.rb R.MTR_CAUSE 5 = true ∧
      Frame [.regs, .mtr, .trk] s t) ∧
  (∀ (r : Requester) (s : State), s.mayWrite r R.MTR_SEAL = true → s.sys.conv = .off → s.commission = true →
    ∃ t, exec (.unsealMeter r 0x5AA5) s = .next t ∧ t.mtr = { s.mtr with isSealed := false, changes := incSat 65535 s.mtr.changes } ∧
      t.rb R.MTR_CAUSE 5 = true ∧ Frame [.regs, .mtr, .trk] s t) ∧
  (∀ (r : Requester) (key : Nat) (s : State), key < 65536 → s.mayWrite r R.MTR_SEAL = true → key ≠ 0xA55A →
    ∃ t, exec (.sealMeter r key) s = .next t ∧ t.mtr = s.mtr ∧ Frame [.regs, .mgmtStatus, .hats, .out] s t) ∧
  (∀ (r : Requester) (key : Nat) (s : State), key < 65536 → s.mayWrite r R.MTR_SEAL = true → key ≠ 0x5AA5 →
    ∃ t, exec (.unsealMeter r key) s = .next t ∧ t.mtr = s.mtr ∧ Frame [.regs, .mgmtStatus, .hats, .out] s t)

/-- SAFETY_SAMPLE, PAIR_DISC_FAULT, TEST_PULSE, OFF_PULSE and READBACK_CHECK: a sample of the running core takes the inputs, and a channel
without a test source takes its raw value once that has differed for FILTER; a disagreement of DISC and a channel that stays high in its
test pulse latch the pair's fault with SAF_CAUSE.PAIR; an output that is high pulses off once a period; a read-back that has not followed
is a fault of an output that is high, and STUCK_ON of one that is low (R336, R338, R339, R340, R348, R368). -/
def Obligations.SafetyInputs : Prop :=
  (∀ (raw srb : Nat) (srst : Bool) (s : State), s.saf.running = true →
    ∃ t, exec (.safetySample raw srb srst) s = .next t ∧ t.saf.us = s.saf.us + 1 ∧ t.saf.raw = raw ∧ t.saf.srb = srb ∧
      (∀ c < 32, 4 ≤ s.chanSource c → bit raw c = (s.chan c).val → t.chan c = { s.chan c with run := 0 }) ∧
      (∀ c < 32, 4 ≤ s.chanSource c → bit raw c ≠ (s.chan c).val →
        t.chan c = (if 100 * s.rf (R.SAF_PAIR_CFG (c % 16)) 15 8 ≤ (s.chan c).run + 1 then ⟨bit raw c, 0⟩
          else { s.chan c with run := (s.chan c).run + 1 })) ∧ Frame [.saf] s t) ∧
  (∀ (p : Nat) (s : State), p < 16 → s.pairA p ≠ s.pairB p → 10000 * s.rf (R.SAF_PAIR_CFG p) 7 0 ≤ (s.safPair p).disc →
    (s.safPair p).discFault = false →
    ∃ t, exec (.pairDiscFault p) s = .next t ∧ t.safPair p = { s.safPair p with discFault := true } ∧
      (∀ q, q ≠ p → t.safPair q = s.safPair q) ∧ t.rb R.SAF_CAUSE 1 = true ∧ RegsBut [R.SAF_CAUSE] s t ∧ Frame [.regs, .saf] s t) ∧
  (∀ (k : Nat) (s : State), s.saf.running = true → k < 4 → s.tpPhase k = some (s.tpWidth - 20) →
    ∃ t, exec (.testPulse k) s = .next t ∧
      (∀ c < 32, s.chanSource c = k → (s.chan c).val = true → s.chanRaw c = true →
        (t.safPair (c % 16)).tpFault = true ∧ t.rb R.SAF_CAUSE 1 = true) ∧
      ((∀ c < 32, s.chanSource c = k → (s.chan c).val = true → s.chanRaw c = false) → t = s) ∧
      RegsBut [R.SAF_CAUSE] s t ∧ Frame [.regs, .saf] s t) ∧
  (∀ (o : Nat) (s : State), o < 8 → s.soutHigh o = true → s.rb (R.SAF_OUT_CFG o) 27 = true →
    (s.safOut o).at_ + 1000 * max 1 (s.rf R.SAF_OP_CFG 31 24) ≤ s.saf.us →
    ∃ t, exec (.offPulse o) s = .next t ∧ t.safOut o = { s.safOut o with pulse := true, at_ := s.saf.us } ∧ t.soutHigh o = false ∧
      (∀ q, q ≠ o → t.safOut q = s.safOut q) ∧ Frame [.saf] s t) ∧
  (∀ (o : Nat) (s : State), o < 8 → s.saf.running = true → 0 < (s.safOut o).wrong → 10 * s.rf R.SAF_OP_CFG 23 16 ≤ (s.safOut o).wrong →
    ∃ t, exec (.readbackCheck o) s = .next t ∧ (∀ q, q ≠ o → t.safOut q = s.safOut q) ∧
      (s.soutHigh o = true → t.safOut o = { s.safOut o with fault := true, wrong := 0 } ∧ t.rb R.SAF_CAUSE 2 = true) ∧
      (s.soutHigh o = false → t.safOut o = { s.safOut o with stuck := true } ∧ t.regs = s.regs) ∧
      RegsBut [R.SAF_CAUSE] s t ∧ Frame [.regs, .saf] s t)

/-- SAFETY_CYCLE, DEAD_HELD, SAFETY_RESET_REQUEST and RESET_STUCK: a cycle uses up its candidates; a permit needs a valid set, no
SAFE_LOCK, no restart outstanding and the safe states, and neither half against it; SAFE_LOCK stays until a reset and its setting fires
the block logic; three cycles of disagreement set it; an output needs a valid set and both halves. A reset request is accepted only with a
valid set and no demand cause, and then clears SAFE_LOCK; SAF_RESET_STAT tells; it waits until the cycle in which it falls has been
evaluated (R336, R343, R344, R345, R346, R347, R350, R351, R366; that the causes are those of that cycle, and what the operand of a cycle,
the other half's results, holds: the model's reading, log entry 28). -/
def Obligations.SafetyLogic : Prop :=
  (∀ (d ns : Nat) (s : State), s.saf.running = true →
    ∃ t, exec (.safetyCycle d ns) s = .next t ∧ t.saf.cands = [] ∧ t.saf.request = s.saf.request ∧ t.saf.requestSeen = s.saf.request ∧
      (t.saf.permit = true → t.saf.lock = false ∧ t.saf.restartWait = false ∧ t.saf.cfgValid = true ∧ t.saf.estopOk = true ∧
        t.saf.hallClosed = true ∧ t.saf.earthOpen = true ∧ t.saf.keyOn = true ∧ bit d 8 = false) ∧
      (s.saf.lock = true → t.saf.lock = true) ∧ (2 ≤ s.saf.disagree → d ≠ 0 → t.saf.lock = true) ∧
      (s.saf.lock = false → t.saf.lock = true → t.lnk.blocks = s.lnk.blocks + 1 ∧ t.rb R.SAF_CAUSE 0 = true ∧ t.prt.firedNow = true) ∧
      (∀ o < 8, (t.safOut o).cmd = true → t.saf.cfgValid = true ∧ bit d o = false) ∧
      Frame [.regs, .lnk, .prt, .saf, .trk, .dbg] s t) ∧
  (∀ s : State, s.saf.dead = true → 100000 * s.rf R.SAF_TIME 31 16 ≤ s.saf.deadUs →
    ∃ t, exec .deadHeld s = .next t ∧ t.saf = { s.saf with deadHeld := true } ∧ Frame [.saf] s t) ∧
  (∀ s : State, s.saf.request = true → s.saf.requestSeen = false → exec .safetyResetRequest s = .next s) ∧
  (∀ s : State, s.saf.request = true → s.saf.requestSeen = true →
    ∃ t, exec .safetyResetRequest s = .next t ∧ t.saf.request = false ∧ t.rb R.SAF_CAUSE 3 = true ∧
      (s.saf.cfgValid = true → s.saf.causes = 0 → t.saf.lock = false ∧ t.saf.restartWait = false ∧ t.rf R.SAF_RESET_STAT 2 0 = 1 ∧
        t.rf R.SAF_RESET_STAT 31 16 = incSat 65535 (s.rf R.SAF_RESET_STAT 31 16)) ∧
      (s.saf.cfgValid = true → s.saf.causes ≠ 0 → t.saf = { s.saf with request := false, requestSeen := false } ∧ t.rf R.SAF_RESET_STAT 2 0 = 2) ∧
      (s.saf.cfgValid = false → t.saf = { s.saf with request := false, requestSeen := false } ∧ t.rf R.SAF_RESET_STAT 2 0 = 3) ∧
      RegsBut [R.SAF_CAUSE, R.SAF_RESET_STAT, R.TRK_CAUSE, R.TRK_QUEUE, R.TRK_SUPPRESSED] s t ∧ Frame [.regs, .saf, .trk] s t) ∧
  (∀ s : State, s.saf.srst = true → s.rstMax < s.saf.srstHigh →
    ∃ t, exec .resetStuck s = .next t ∧ t.saf = { s.saf with stuck := true } ∧ Frame [.saf] s t)

/-- CONFIRM_GO, CONFIRM_DISCARD, SAFETY_SET_IN_FORCE, SAFETY_CHECK_RECOMPUTE and SAFETY_SET_RELOAD: a GO in OFF under commissioning, with
its key and the check value of a pending set that fails no rule, asks the Trunk for that set with RESULT 1; another key is refused with 3
and another value with 4; before E(0) it waits; DISCARD makes the pending set that in force; a set whose write has completed comes into
force with a restart required and the connection lost, sets following in the order of their GO and a reset request that waits being decided
first, and SAF_CAUSE.CONFIRM is set when a GO or DISCARD is done or refused; the check value is compared; and a set in triple disagreement
without a Trunk copy is not valid (R352, R353, R354, R355, R356, R366, R457; the order of the refusals of a GO: log entry 28; that the
connection is LOST with telegrams disabled too, and that a request is decided first: log entry 29). -/
def Obligations.SafetySets : Prop :=
  (∀ (r : Requester) (s : State), s.sys.counting = true → s.mayWrite r R.SAF_CONFIRM = true → s.sys.conv = .off → s.commission = true →
    s.rf (ownKey r R.SAF_CONFIRM_VALUE) 31 0 = safCheckOf s.safPending → s.safTriple = false → s.safPendTriple = false →
    safRuleFailed (fun o => s.reg (pendSafetyKey o)) = none → s.trk.writeProt = false →
    ∃ t, exec (.confirmGo r 0x6996) s = .next t ∧
      (∃ c : Confirm, c = ⟨s.safPending, safCheckOf s.safPending, min 65535 (s.saf.confirms + s.saf.confirm.length + 1), false⟩ ∧
        t.saf = { s.saf with confirm := s.saf.confirm ++ [c] } ∧ t.trk = { s.trk with waiting := s.trk.waiting ++ [(.safetySet, c.words)] }) ∧
      t.rf R.SAF_CONFIRM_STAT 2 0 = 1 ∧
      RegsBut [R.SAF_CONFIRM_STAT] s t ∧ Frame [.regs, .saf, .trk] s t) ∧
  (∀ (r : Requester) (s : State), s.sys.counting = true → s.mayWrite r R.SAF_CONFIRM = true → s.sys.conv = .off → s.commission = true →
    s.rf (ownKey r R.SAF_CONFIRM_VALUE) 31 0 ≠ safCheckOf s.safPending →
    ∃ t, exec (.confirmGo r 0x6996) s = .next t ∧ t.rf R.SAF_CONFIRM_STAT 2 0 = 4 ∧ t.rb R.SAF_CAUSE 6 = true ∧
      RegsBut [R.SAF_CONFIRM_STAT, R.SAF_CAUSE] s t ∧ Frame [.regs] s t) ∧
  (∀ (r : Requester) (key : Nat) (s : State), s.sys.counting = true → s.mayWrite r R.SAF_CONFIRM = true → key < 65536 → key ≠ 0x6996 →
    ∃ t, exec (.confirmGo r key) s = .next t ∧ exec (.confirmDiscard r key) s = .next t ∧
      t.rf R.SAF_CONFIRM_STAT 2 0 = 3 ∧ t.rb R.SAF_CAUSE 6 = true ∧ RegsBut [R.SAF_CONFIRM_STAT, R.SAF_CAUSE] s t ∧ Frame [.regs] s t) ∧
  (∀ (r : Requester) (s : State), s.sys.counting = true → s.mayWrite r R.SAF_CONFIRM = true →
    ∃ t, exec (.confirmDiscard r 0x6996) s = .next t ∧ (∀ o ∈ safParams, t.reg (pendSafetyKey o) = s.reg o) ∧
      t.rf R.SAF_CONFIRM_STAT 2 0 = 2 ∧ t.rb R.SAF_CAUSE 6 = true ∧ Frame [.regs] s t) ∧
  (∀ (r : Requester) (s : State), s.sys.counting = false → s.mayWrite r R.SAF_CONFIRM = true →
    ∃ t x, exec (.confirmGo r 0x6996) s = .next t ∧ t.regs = { s.regs with pend := s.regs.pend ++ [x] } ∧ Frame [.regs] s t) ∧
  (∀ (c : Confirm) (rest : List Confirm) (s : State), s.saf.confirm = c :: rest → s.saf.running = true → c.written = true →
    c.set.length = safParams.length → (s.saf.request = true → s.saf.requestSeen = false → exec .safetySetInForce s = .next s) ∧
      (s.saf.request = true → s.saf.requestSeen = true → exec .safetySetInForce s = exec .safetySetInForce s.resetDecide ∧
        exec .safetyResetRequest s = .next s.resetDecide)) ∧
  (∀ (c : Confirm) (rest : List Confirm) (s : State), s.saf.confirm = c :: rest → s.saf.running = true → c.written = true →
    c.set.length = safParams.length → s.saf.request = false →
    ∃ t, exec .safetySetInForce s = .next t ∧ t.saf.confirm = rest ∧ t.saf.cfgValid = true ∧ t.saf.restartWait = true ∧
      t.saf.check = c.check ∧ t.saf.checkBad = false ∧ t.saf.conn = .lost ∧ t.saf.confirms = incSat 65535 s.saf.confirms ∧
      (∀ i < safParams.length, t.reg (safParams.getD i 0) = c.set.getD i 0) ∧ t.rf R.SAF_CONFIRM_STAT 2 0 = 2 ∧
      t.rb R.SAF_CAUSE 6 = true ∧ Frame [.regs, .saf, .trk] s t) ∧
  (∀ s : State, s.saf.running = true → s.saf.cfgValid = true →
    ∃ t, exec .safetyCheckRecompute s = .next t ∧ t.saf = { s.saf with checkBad := safCheckOf s.safSet != s.saf.check } ∧ Frame [.saf] s t) ∧
  (∀ s : State, s.saf.running = true → s.safTriple = true → newestSlot s.trk.safety = none →
    ∃ t, exec .safetySetReload s = .next t ∧ t.saf = { s.saf with cfgValid := false, check := safCheckOf s.safSet } ∧ Frame [.saf] s t)

/-- TELEGRAM_SEND, STATION_FRAME_RECEIVE, TELEGRAM_WATCHDOG and MIRROR_SEND: a telegram that is due takes the next SEQ, never 0, and goes
out on every enabled port; a frame received at an enabled port is kept as a candidate or counted as dropped; WD without a fresh telegram
loses a VALID connection, which is counted; a mirror datagram that is due goes out on the first enabled port under the next number, once
in its epoch. (The identification field of a frame is a free value: log entry 2.) LINK of a port follows the block lock of its receiver:
BLOCK_LOCK_ACQUIRE and LOCK_LOSS of lanes 512 and 513 set and clear it, and a frame received shows it set (R64, R344, R357, R358, R359, R360,
R362, R365, R368; the lanes that stand for the ports, and that a frame shows lock: the model's choice, log entry 29). -/
def Obligations.StationTraffic : Prop :=
  (∀ s : State, s.saf.running = true → s.tgEn = true → s.saf.cfgValid = true →
    (∀ u, s.saf.txUs = some u → u + 100 * s.rf R.SAF_TG_CFG 23 16 ≤ s.saf.us) →
    ∃ t l, exec .telegramSend s = .next t ∧ t.saf = { s.saf with
        seqTx := if s.saf.seqTx = 2 ^ 32 - 1 then 1 else s.saf.seqTx + 1, txData := s.saf.data, txUs := some s.saf.us } ∧
      t.out = s.out ++ l ∧ l.length = ([0, 1].filter s.portOn).length ∧ t.freeCount = s.freeCount + l.length ∧
      Frame [.saf, .out, .freeCount] s t) ∧
  (∀ (p : Nat) (bs : List Byte) (s : State), s.saf.running = true → p < 2 → s.portOn p = true →
    ∃ t, exec (.stationFrameReceive p bs) s = .next t ∧ bit t.saf.link p = true ∧
      (∀ x, s.candidate p bs = some x → t.saf.cands = s.saf.cands ++ [(p, x)] ∧ t.regs = s.regs) ∧
      (s.candidate p bs = none → t.saf.cands = s.saf.cands ∧
        t.rf (R.SAF_PORT_STAT p) 23 0 = incSat (2 ^ 24 - 1) (s.rf (R.SAF_PORT_STAT p) 23 0)) ∧
      RegsBut [R.SAF_PORT_STAT p] s t ∧ Frame [.regs, .saf] s t) ∧
  (∀ (p : Nat) (syncs : List Nat) (s : State), p < 2 →
    (64 ≤ syncs.length → (∀ x ∈ syncs, x = 1 ∨ x = 2) → s.saf.running = true → ∃ t, exec (.blockLockAcquire (512 + p) syncs) s = .next t ∧
      (∀ q < 2, bit t.saf.link q = (bit s.saf.link q || decide (q = p))) ∧ Frame [.saf] s t) ∧
    (syncs.length ≤ 64 → 16 ≤ syncs.countP (fun x => x ≠ 1 && x ≠ 2) → ∃ t, exec (.lockLoss ⟨512 + p, syncs⟩) s = .next t ∧
      (∀ q < 2, bit t.saf.link q = (bit s.saf.link q && decide (q ≠ p))) ∧ Frame [.saf] s t)) ∧
  (∀ s : State, s.saf.cands = [] → s.saf.conn = .valid → s.saf.freshUs.getD 0 + 1000 * s.rf R.SAF_TG_CFG 15 8 ≤ s.saf.us →
    ∃ t, exec .telegramWatchdog s = .next t ∧ t.saf = { s.saf with conn := .lost, echo := 0, lossNow := true } ∧ t.rb R.SAF_CAUSE 4 = true ∧
      t.rf (R.SAF_TG_CNT 7) 31 0 = incSat (2 ^ 32 - 1) (s.rf (R.SAF_TG_CNT 7) 31 0) ∧ RegsBut [R.SAF_CAUSE, R.SAF_TG_CNT 7] s t ∧
      Frame [.regs, .saf] s t) ∧
  (∀ (p : Nat) (n : Epoch) (s : State), ([0, 1].filter s.portOn).head? = some p → s.cel.newest = some n → s.saf.running = true →
    s.rb R.SAF_MIRROR 31 = true → .mirror ∈ s.pwr.admitted → s.sys.counting = true → s.sys.epoch.toNat % 2 ^ s.mirrorLog2 = 0 →
    s.rf R.SAF_MIRROR 15 0 ≠ 0 → bit s.sys.missNow 15 = false → s.saf.mirrorAt ≠ some s.sys.epoch →
    ∃ t bs, exec .mirrorSend s = .next t ∧ t.out = s.out ++ [.frame p bs] ∧
      t.saf = { s.saf with mirrorSeq := (s.saf.mirrorSeq + 1) % 2 ^ 32, mirrorAt := some s.sys.epoch } ∧ t.freeCount = s.freeCount + 1 ∧
      Frame [.saf, .out, .freeCount] s t)

/-- HATCH_RESET, HATCH_LINK_UP and HATCH_SILENCE: a Hatch reset disables the Hatch's rings, drops its fetched orders, descriptor reads and
snapshot requests, aborts its Crates in BUILDING and resets the registers kept for it, and touches no other Hatch and no converter state;
link training completes once the Hatch's domain is ready, with the configuration that the host programs; a change of silence is kept and
marks the standby holders (R369, R373, R391, R396, R403; the state a reset leaves to the link, its configuration and its errors by its kind
is the model's, log entries 31 and 33). -/
def Obligations.HatchLife : Prop :=
  (∀ (h : Fin 4) (kind : HatchResetKind) (s : State),
    ∃ t, exec (.hatchReset h kind) s = .next t ∧ (t.hat h.val).or_ = [] ∧ (t.hat h.val).cr = [] ∧ (t.hat h.val).ev = {} ∧
      (t.hat h.val).reads = [] ∧ (t.hat h.val).fetched = [] ∧ (t.hat h.val).openOrders = [] ∧
      (t.hat h.val).aer = (if kind = .perst then 0 else (s.hat h.val).aer) ∧ (t.hat h.val).pcie = pcieAfterReset (s.hat h.val).pcie kind ∧
      ((t.hat h.val).linkUp = true → kind = .flr ∨ kind = .d3hot) ∧ (t.hat h.val).d3hot = decide (kind = .d3hot) ∧
      (∀ g, g ≠ h.val → t.hat g = s.hat g) ∧ (t.snap h.val).queue = [] ∧ (t.snap h.val).copying = none ∧ (t.snap h.val).shown = none ∧ (t.snap h.val).other = none ∧
      (∀ i < 4, (s.crate i).hatch = h → (s.crate i).state = .building → (t.crate i).abortAsked = true) ∧
      (∀ i, (t.crate i).state = (s.crate i).state ∧ (t.crate i).id = (s.crate i).id ∧ (t.crate i).gates = (s.crate i).gates) ∧
      (∀ k, k / 0x10000 = 5 + h.val → t.reg k = resetWord k) ∧ (∀ k, k / 0x10000 ≠ 5 + h.val → t.reg k = s.reg k) ∧
      t.sys.conv = s.sys.conv ∧ t.sys.epoch = s.sys.epoch ∧ Frame [.regs, .sys, .cel, .hats] s t) ∧
  (∀ (h : Fin 4) (cfg : LinkCfg) (s : State), s.domain (47 + h.val / 2) = true →
    ∃ t, exec (.hatchLinkUp h cfg) s = .next t ∧ t.hat h.val = { s.hat h.val with
        linkUp := true, d3hot := false, bme := cfg.bme, msixEn := cfg.msixEn, msixMask := cfg.msixMask
        msixTable := smSetList (0, 0) [] 0 (cfg.table.take 64), pcie := cfg.pcie } ∧
      (∀ g, g ≠ h.val → t.hat g = s.hat g) ∧ Frame [.hats] s t) ∧
  (∀ (h : Fin 4) (s : State), s.sys.counting = true → s.silentNow h.val ≠ (s.hat h.val).silent →
    ∃ t, exec (.hatchSilence h) s = .next t ∧ (t.hat h.val).silent = s.silentNow h.val ∧
      (∀ g : Fin 4, bit (s.standbyOf h) g.val = true → t.rb (bankKey g.val R.HAT_CAUSE) 4 = true) ∧
      Frame [.regs, .hats, .trk, .out] s t)

/-- ORDER_DOORBELL, COMPLETION_DOORBELL, EVENT_DOORBELL and KICK act on receipt: the doorbell takes its value, or, when the value is at or
above the ring size or would make an order ring hold more than size − 1 orders, the enabled ring stops with STOPPED = 1 and error kind 1
and RING_ERR is set; a KICK restarts the keepalive's age. RING_CFG_WRITE and RING_RESET: an order ring that is disabled is enabled with
INDEX, doorbell and error 0 and PHASE 1 when the completion ring it names is enabled, stopped with it where that one has stopped, and
otherwise the write is counted with kind RING_CFG; a completion ring and the event ring are enabled so too; a write that changes an enabled
ring's size, and a disable of a completion ring that an enabled order ring names or that has reserved entries, are counted as well, and a
disable of another completion ring disables it; RING_RESET disables every ring and leaves no order of an order ring that was enabled
waiting (R375, R376, R377, R378, R396, R399, R401; an order ring enabled onto a stopped ring: log entry 33). -/
def Obligations.RingsAndDoorbells : Prop :=
  (∀ (h : Fin 4) (r : Nat) (w : Word) (s : State), s.serves (.hatch h) = true → r < 16 → w.toNat < 2 ^ 16 →
    let x := smGet {} (s.hat h.val).or_ r
    x.enable = true → x.stopped = false →
    ∃ t, exec (.orderDoorbell h r w) s = .next t ∧
      (w.toNat < 2 ^ x.sizeLog2 → x.held + (w.toNat + 2 ^ x.sizeLog2 - x.bell) % 2 ^ x.sizeLog2 ≤ 2 ^ x.sizeLog2 - 1 →
        smGet {} (t.hat h.val).or_ r = { x with bell := w.toNat } ∧ Frame [.hats] s t) ∧
      (2 ^ x.sizeLog2 ≤ w.toNat ∨ 2 ^ x.sizeLog2 - 1 < x.held + (w.toNat + 2 ^ x.sizeLog2 - x.bell) % 2 ^ x.sizeLog2 →
        smGet {} (t.hat h.val).or_ r = { x with stopped := true, error := 1 } ∧ t.rb (bankKey h.val R.HAT_CAUSE) 0 = true) ∧
      (∀ q, q ≠ r → smGet {} (t.hat h.val).or_ q = smGet {} (s.hat h.val).or_ q) ∧
      RegsBut [bankKey h.val R.HAT_CAUSE] s t ∧ Frame [.regs, .hats, .out] s t) ∧
  (∀ (h : Fin 4) (r : Nat) (w : Word) (s : State), s.serves (.hatch h) = true → r < 16 → w.toNat < 2 ^ 16 →
    let x := smGet {} (s.hat h.val).cr r
    x.enable = true → x.stopped = false →
    ∃ t, exec (.completionDoorbell h r w) s = .next t ∧
      (w.toNat < 2 ^ x.sizeLog2 → smGet {} (t.hat h.val).cr r = { x with bell := w.toNat } ∧ Frame [.hats] s t) ∧
      (2 ^ x.sizeLog2 ≤ w.toNat → smGet {} (t.hat h.val).cr r = { x with stopped := true, error := 1 } ∧
        (∀ q < 16, (smGet {} (s.hat h.val).or_ q).enable = true → (smGet {} (s.hat h.val).or_ q).cr = r →
          (smGet {} (t.hat h.val).or_ q).stopped = true) ∧ t.rb (bankKey h.val R.HAT_CAUSE) 0 = true) ∧
      RegsBut [bankKey h.val R.HAT_CAUSE] s t ∧ Frame [.regs, .hats, .out] s t) ∧
  (∀ (h : Fin 4) (w : Word) (s : State), s.serves (.hatch h) = true → w.toNat < 2 ^ 16 →
    let x := (s.hat h.val).ev
    x.enable = true → x.stopped = false →
    ∃ t, exec (.eventDoorbell h w) s = .next t ∧
      (w.toNat < 2 ^ x.sizeLog2 → (t.hat h.val).ev = { x with bell := w.toNat } ∧ Frame [.hats] s t) ∧
      (2 ^ x.sizeLog2 ≤ w.toNat → (t.hat h.val).ev = { x with stopped := true, error := 1 } ∧
        t.rb (bankKey h.val R.HAT_CAUSE) 0 = true) ∧
      RegsBut [bankKey h.val R.HAT_CAUSE] s t ∧ Frame [.regs, .hats, .out] s t) ∧
  (∀ (h : Fin 4) (s : State), s.serves (.hatch h) = true →
    ∃ t, exec (.kick h) s = .next t ∧ t.hat h.val = { s.hat h.val with kickAge := 0 } ∧ (∀ g, g ≠ h.val → t.hat g = s.hat g) ∧
      Frame [.hats] s t) ∧
  (∀ (h : Fin 4) (w : Word) (s : State), s.serves (.hatch h) = true → w &&& keyMask R.HAT_RING_CFG [.rsv] = 0 →
    (s.ringSel (.hatch h)).1 = 0 → (smGet {} (s.hat h.val).or_ (s.ringSel (.hatch h)).2).enable = false → flag w 31 = true →
    6 ≤ fld w 28 24 → fld w 28 24 ≤ 16 → (smGet {} (s.hat h.val).cr (fld w 3 0)).enable = true →
    ∃ t, exec (.ringCfgWrite h w) s = .next t ∧
      smGet {} (t.hat h.val).or_ (s.ringSel (.hatch h)).2 =
        { base := (smGet {} (s.hat h.val).or_ (s.ringSel (.hatch h)).2).base, sizeLog2 := fld w 28 24, vector := fld w 21 16,
          cr := fld w 3 0, enable := true, stopped := (smGet {} (s.hat h.val).cr (fld w 3 0)).stopped
          error := if (smGet {} (s.hat h.val).cr (fld w 3 0)).stopped then (smGet {} (s.hat h.val).cr (fld w 3 0)).error else 0
          index := 0, bell := 0, phase := true, reserved := 0 } ∧
      (t.hat h.val).cr = (s.hat h.val).cr ∧ (∀ g, g ≠ h.val → t.hat g = s.hat g) ∧
      ((smGet {} (s.hat h.val).cr (fld w 3 0)).stopped = false → Frame [.hats] s t) ∧
      ((smGet {} (s.hat h.val).cr (fld w 3 0)).stopped = true → t.rb (bankKey h.val R.HAT_CAUSE) 0 = true ∧ Frame [.regs, .hats, .out] s t)) ∧
  (∀ (h : Fin 4) (w : Word) (kind r : Nat) (x : RingSt) (s : State), s.serves (.hatch h) = true → w &&& keyMask R.HAT_RING_CFG [.rsv] = 0 →
    s.ringSel (.hatch h) = (kind, r) → kind = 1 ∨ kind = 2 → x = (s.hat h.val).ring kind r → flag w 31 = true → x.enable = false →
    6 ≤ fld w 28 24 → fld w 28 24 ≤ 16 →
    ∃ t, exec (.ringCfgWrite h w) s = .next t ∧ (t.hat h.val).ring kind r =
        { base := x.base, sizeLog2 := fld w 28 24, vector := fld w 21 16, cr := fld w 3 0, enable := true, stopped := false, error := 0
          index := 0, bell := 0, phase := true, reserved := 0 } ∧
      (t.hat h.val).or_ = (s.hat h.val).or_ ∧ (∀ g, g ≠ h.val → t.hat g = s.hat g) ∧ Frame [.hats] s t) ∧
  (∀ (h : Fin 4) (w : Word) (r : Nat) (x : RingSt) (s : State), s.serves (.hatch h) = true → w &&& keyMask R.HAT_RING_CFG [.rsv] = 0 →
    s.ringSel (.hatch h) = (1, r) → x = smGet {} (s.hat h.val).cr r → flag w 31 = false → x.enable = true → 6 ≤ x.sizeLog2 → x.sizeLog2 ≤ 16 →
    fld w 28 24 = x.sizeLog2 → fld w 21 16 = x.vector → fld w 3 0 = x.cr → (s.hat h.val).named r = false → x.reserved = 0 →
    ∃ t, exec (.ringCfgWrite h w) s = .next t ∧ smGet {} (t.hat h.val).cr r = { x with enable := false } ∧
      (t.hat h.val).or_ = (s.hat h.val).or_ ∧ (∀ g, g ≠ h.val → t.hat g = s.hat g) ∧ Frame [.hats] s t) ∧
  (∀ (h : Fin 4) (w : Word) (s : State), s.serves (.hatch h) = true → w &&& keyMask R.HAT_RING_CFG [.rsv] = 0 →
    (s.ringSel (.hatch h)).1 = 0 → (smGet {} (s.hat h.val).or_ (s.ringSel (.hatch h)).2).enable = false → flag w 31 = true →
    (smGet {} (s.hat h.val).cr (fld w 3 0)).enable = false →
      exec (.ringCfgWrite h w) s = .next (s.logErr (.hatch h) 7 R.HAT_RING_CFG)) ∧
  (∀ (h : Fin 4) (w : Word) (s : State), s.serves (.hatch h) = true → w &&& keyMask R.HAT_RING_CFG [.rsv] = 0 →
    (s.ringSel (.hatch h)).1 = 1 → (smGet {} (s.hat h.val).cr (s.ringSel (.hatch h)).2).enable = true → flag w 31 = false →
    (s.hat h.val).named (s.ringSel (.hatch h)).2 = true ∨ (smGet {} (s.hat h.val).cr (s.ringSel (.hatch h)).2).reserved ≠ 0 →
      exec (.ringCfgWrite h w) s = .next (s.logErr (.hatch h) 7 R.HAT_RING_CFG)) ∧
  (∀ (h : Fin 4) (w : Word) (s : State), s.serves (.hatch h) = true → w &&& keyMask R.HAT_RING_CFG [.rsv] = 0 →
    ((s.hat h.val).ring (s.ringSel (.hatch h)).1 (s.ringSel (.hatch h)).2).enable = true →
    fld w 28 24 ≠ ((s.hat h.val).ring (s.ringSel (.hatch h)).1 (s.ringSel (.hatch h)).2).sizeLog2 →
      exec (.ringCfgWrite h w) s = .next (s.logErr (.hatch h) 7 R.HAT_RING_CFG)) ∧
  (∀ (h : Fin 4) (s : State), s.serves (.hatch h) = true →
    ∃ t, exec (.ringReset h) s = .next t ∧ (t.hat h.val).ev = { (s.hat h.val).ev with enable := false } ∧
      (∀ r < 16, (smGet {} (t.hat h.val).or_ r).enable = false ∧ (smGet {} (t.hat h.val).cr r).enable = false) ∧
      (∀ f ∈ (t.hat h.val).fetched, f ∈ (s.hat h.val).fetched ∧ (f.ring < 16 → (smGet {} (s.hat h.val).or_ f.ring).enable = false)) ∧
      Frame [.regs, .hats, .out] s t)

/-- ORDER_FETCH, DESCRIPTOR_READ_DONE and BAR2_WRITE: a fetch reserves one completion entry, reads the descriptor at INDEX and advances
INDEX; a read that brings its words makes the order due at the next boundary, or at the one after it from 32 ns before it on; a failed
read, one that carries an error, comes too late or is poisoned, stops the ring with error kind 2 and gives its entry back; a host write to
BAR2 is dropped and counted with kind 3 and BAR 1, and one beyond the 256 KiB of BAR2 completes with Unsupported Request, which the error
status of the Hatch shows (R370, R372, R376, R377, R378, R380, R399, R400; reads complete in ring order, and the completion ring in which an
entry was reserved stays the order's: log entry 33; the bits of the error status: log entry 31). -/
def Obligations.OrderFetching : Prop :=
  (∀ (h : Fin 4) (r : Nat) (s : State),
    let x := smGet {} (s.hat h.val).or_ r
    let c := smGet {} (s.hat h.val).cr x.cr
    r < 16 → x.enable = true → x.stopped = false → x.held ≠ 0 → c.enable = true → c.stopped = false → 1 ≤ freeEntries c →
    (s.hat h.val).bme = true → s.serves (.hatch h) = true → (s.hat h.val).reads.length < 32 →
    ∃ t, exec (.orderFetch h r) s = .next t ∧ t.out = s.out ++ [.descRead h r x.index] ∧
      t.hat h.val = { s.hat h.val with
        reads := (s.hat h.val).reads ++ [(r, x.index, x.cr)]
        cr := smSet {} (s.hat h.val).cr x.cr { c with reserved := c.reserved + 1 }
        or_ := smSet {} (s.hat h.val).or_ r { x with index := (x.index + 1) % 2 ^ x.sizeLog2 } } ∧
      (∀ g, g ≠ h.val → t.hat g = s.hat g) ∧ Frame [.hats, .out] s t) ∧
  (∀ (h : Fin 4) (r i c ns : Nat) (rest : List (Nat × Nat × Nat)) (ws : List DWord) (s : State), (s.hat h.val).reads = (r, i, c) :: rest →
    s.sys.counting = true →
    ∃ t, exec (.descriptorReadDone h r (.words ws) ns) s = .next t ∧ (t.hat h.val).reads = rest ∧
      (t.hat h.val).fetched = (s.hat h.val).fetched ++ [⟨(s.hat h.val).fetchSeq, r, i, ws,
        if ns + 32 < s.epNs then s.sys.epoch + 1 else s.sys.epoch + 2⟩] ∧
      (t.hat h.val).openOrders =
        (s.hat h.val).openOrders ++ [⟨(s.hat h.val).fetchSeq, r, i, rec64 (ws.getD 0 0) 31 16, some c⟩] ∧ (∀ g, g ≠ h.val → t.hat g = s.hat g) ∧
      Frame [.hats] s t) ∧
  (∀ (h : Fin 4) (r i c ns : Nat) (how : ReadFail) (rest : List (Nat × Nat × Nat)) (s : State), (s.hat h.val).reads = (r, i, c) :: rest →
    ∃ t, exec (.descriptorReadDone h r (.failed how) ns) s = .next t ∧ (t.hat h.val).reads = rest ∧
      (smGet {} (t.hat h.val).or_ r).stopped = true ∧ (smGet {} (t.hat h.val).or_ r).error = 2 ∧
      (smGet {} (t.hat h.val).cr c).reserved = (smGet {} (s.hat h.val).cr c).reserved - 1 ∧
      (t.hat h.val).aer = (match how with
        | .error => (s.hat h.val).aer
        | .timeout => (s.hat h.val).aer ||| BitVec.ofNat 32 (2 ^ 14)
        | .poisoned => (s.hat h.val).aer ||| BitVec.ofNat 32 (2 ^ 12)) ∧
      t.rb (bankKey h.val R.HAT_CAUSE) 0 = true ∧ RegsBut [bankKey h.val R.HAT_CAUSE] s t ∧ Frame [.regs, .hats, .out] s t) ∧
  (∀ (h : Fin 4) (off : Nat) (s : State), s.serves (.hatch h) = true → 0x40000 ≤ off →
    ∃ t, exec (.bar2Write h off) s = .next t ∧ (t.hat h.val).aer = (s.hat h.val).aer ||| BitVec.ofNat 32 (2 ^ 20) ∧
      t.out = s.out ++ [.unsupported h] ++ (if flag (s.hat h.val).pcie.aerMask 20 then []
        else [.errorReport h 20 (flag (s.hat h.val).pcie.aerSeverity 20)]) ∧ (∀ g, g ≠ h.val → t.hat g = s.hat g) ∧ Frame [.hats, .out] s t) ∧
  (∀ (h : Fin 4) (off : Nat) (s : State), s.serves (.hatch h) = true → off < 0x40000 →
    ∃ t, exec (.bar2Write h off) s = .next t ∧ t.rf (bankKey h.val R.HAT_ERR_LOG) 23 16 = 3 ∧
      t.rf (bankKey h.val R.HAT_ERR_LOG) 15 0 = incSat 65535 (s.rf (bankKey h.val R.HAT_ERR_LOG) 15 0) ∧
      t.rb (bankKey h.val R.HAT_ERR_ADDR) 20 = true ∧ t.rf (bankKey h.val R.HAT_ERR_ADDR) 17 0 = off ∧
      t.rb (bankKey h.val R.HAT_CAUSE) 2 = true ∧
      RegsBut [bankKey h.val R.HAT_ERR_LOG, bankKey h.val R.HAT_ERR_ADDR, bankKey h.val R.HAT_CAUSE] s t ∧
      Frame [.regs, .hats, .out] s t)

/-- A completion, as NOP gives it: with Bus Master Enable set and its completion ring enabled and not stopped, an order's completion
carries PHASE, STATUS 0, OPCODE 0, RING, INDEX and TAG in word 0, ERA and EPOCH in word 1 and RESULT 0; the ring's INDEX advances and
PHASE toggles when it wraps, the reserved entry is used up, and the order is no longer open; with Bus Master Enable clear nothing is
written, and the ring stops with error kind 3; the ring is the one in which the entry was reserved at the fetch. A NOP fetched alone is
evaluated by the boundary at which it is due, and not before, and with FENCE not while an order fetched before it is open (R377, R378, R380,
R381, R385, R388, R389; the ring of an order that was not fetched: log entry 33; FENCE: log entry 30). -/
def Obligations.NopCompletes : Prop :=
  (∀ (h : Fin 4) (f : Fetched) (s : State), (s.hat h.val).fetched = [f] → (∀ g : Fin 4, g ≠ h → (s.hat g.val).fetched = []) → f.ring < 16 →
    dfld f.words 0 7 0 = 0 → descOk f.words 0 = true →
    (epGe s.sys.epoch f.due = true → dfld f.words 0 9 9 = 0 ∨ (∀ o ∈ (s.hat h.val).openOrders, f.seq ≤ o.seq) →
      ∃ u : State, u.hat h.val = { s.hat h.val with fetched := [] } ∧ (∀ g, g ≠ h.val → u.hat g = s.hat g) ∧ Frame [.hats] s u ∧
        exec (.nop (f.ref h)) u = .next s.evalOrders) ∧
    (epGe s.sys.epoch f.due = false ∨ (dfld f.words 0 9 9 ≠ 0 ∧ ∃ o ∈ (s.hat h.val).openOrders, o.seq < f.seq) → s.evalOrders = s)) ∧
  ∀ (r : OrderRef) (cr : Nat) (s : State),
    let a := s.hat r.hatch.val
    let c := smGet {} a.cr cr
    s.orderCr r = some cr → c.enable = true → c.stopped = false →
    ∃ t, exec (.nop r) s = .next t ∧ (t.hat r.hatch.val).openOrders = a.openOrders.eraseP (refersTo r) ∧
      (∀ g, g ≠ r.hatch.val → t.hat g = s.hat g) ∧ Frame [.regs, .hats, .out] s t ∧
      (a.bme = true → t.regs = s.regs ∧
        smGet {} (t.hat r.hatch.val).cr cr = { c with
          reserved := c.reserved - 1, index := (c.index + 1) % 2 ^ c.sizeLog2
          phase := if (c.index + 1) % 2 ^ c.sizeLog2 = 0 then !c.phase else c.phase } ∧
        ∃ m, t.out = s.out ++ [.completion r.hatch cr c.index
          [BitVec.ofNat 64 (b2n c.phase * 2 ^ 63 + r.ring * 2 ^ 36 + r.index * 2 ^ 16 + r.tag),
           BitVec.ofNat 64 (s.sys.era * 2 ^ 48 + s.sys.epoch.toNat), 0, 0]] ++ m ∧
          (m = [] ∨ r.irq = true ∧ m = [.msix r.hatch c.vector])) ∧
      (a.bme = false → t.out = s.out ++ (if s.rb (bankKey r.hatch.val R.HAT_CTRL) 22 && a.msixEn &&
            !(a.msixMask.getLsbD (s.rf (bankKey r.hatch.val R.HAT_CTRL) 21 16))
          then [.msix r.hatch (s.rf (bankKey r.hatch.val R.HAT_CTRL) 21 16)] else []) ∧
        (smGet {} (t.hat r.hatch.val).cr cr).stopped = true ∧ (smGet {} (t.hat r.hatch.val).cr cr).error = 3 ∧
        t.rb (bankKey r.hatch.val R.HAT_CAUSE) 0 = true)

/-- ENERGISE, DEBLOCK, BLOCK and DEENERGISE: an order of a Hatch that does not own CONVERTER completes with NOT_OWNER and has no other
effect; the first state order of a boundary, from a state that R32 lists, with its conditions met, is carried out: ENERGISE and DEENERGISE
make their transitions with cause 0 and complete OK, DEBLOCK announces RUN, BLOCK in RUN starts the stop ramp; from a state that R32 does
not list it completes with REFUSED_STATE, with its conditions not met with REFUSED_PERMIT, after a firing of the block logic in the epoch
before, DEENERGISE apart, with REFUSED_REACTION, and after a transition that was made in the same epoch with REFUSED_BUSY (R32, R33, R34, R192,
R309, R382, R389, R390, R394; an order that meets a firing or a transition made at the same boundary: log entry 34). -/
def Obligations.StateOrders : Prop :=
  (∀ (c : Instr) (op : Nat) (r : OrderRef) (s : State),
    (c, op) ∈ [(.energise r, 0x01), (.deblock r, 0x02), (.block r, 0x03), (.deenergise r, 0x04)] → s.runDue = false →
    s.owns r.hatch 0 = false →
    exec c s = .next (s.complete r op 5 0 0)) ∧
  (∀ (c : Instr) (op : Nat) (r : OrderRef) (s : State),
    (c, op) ∈ [(.energise r, 0x01), (.deblock r, 0x02), (.block r, 0x03), (.deenergise r, 0x04)] → s.runDue = false →
    s.owns r.hatch 0 = true → s.sys.taken = none → s.reactionWon = false → orderAllowed op s.sys.conv = false →
    exec c s = .next ((s.take op 1 false).complete r op 1 0 0)) ∧
  (∀ (c : Instr) (op : Nat) (r : OrderRef) (s : State),
    (c, op) ∈ [(.energise r, 0x01), (.deblock r, 0x02), (.block r, 0x03), (.deenergise r, 0x04)] → s.runDue = false →
    s.owns r.hatch 0 = true → s.sys.taken = none → s.reactionWon = false → orderAllowed op s.sys.conv = true →
    op = 0x04 ∨ s.prt.firedLast = false → s.transitionMade = true →
    exec c s = .next ((s.take op 4 false).complete r op 4 0 0)) ∧
  (∀ (c : Instr) (op : Nat) (r : OrderRef) (s : State),
    (c, op) ∈ [(.energise r, 0x01), (.deblock r, 0x02), (.block r, 0x03)] → s.runDue = false →
    s.owns r.hatch 0 = true → s.sys.taken = none → s.reactionWon = false → orderAllowed op s.sys.conv = true → s.prt.firedLast = true →
    exec c s = .next ((s.take op 3 false).complete r op 3 0 0)) ∧
  (∀ (r : OrderRef) (s : State), s.runDue = false → s.owns r.hatch 0 = true → s.sys.taken = none → s.reactionWon = false →
    s.prt.firedLast = false → s.transitionMade = false → s.sys.conv = .off → s.start.state = .complete → s.ref.state = .locked → s.saf.permit = true →
    s.reaction ≠ 5 → s.prt.lockPending = false →
    ∃ u : State, exec (.energise r) s = .next (u.complete r 0x01 0 (Conv.code .off * 16 + Conv.code .charge) 0) ∧ u.sys.conv = .charge ∧
      u.sys.prev = .off ∧ u.sys.cause = 0 ∧ u.sys.moved = true ∧ u.sys.taken = some ⟨0x01, 0, false⟩ ∧ u.sys.epoch = s.sys.epoch ∧
      Frame [.regs, .sys, .mfe, .lnk, .cel, .ctl, .grd, .edg, .prt, .hats, .trk, .dbg, .out] s u) ∧
  (∀ (r : OrderRef) (s : State), s.runDue = false → s.owns r.hatch 0 = true → s.sys.taken = none → s.reactionWon = false →
    s.prt.firedLast = false → s.transitionMade = false → s.sys.conv = .off →
    ¬ (s.start.state = .complete ∧ s.ref.state = .locked ∧ s.saf.permit = true ∧ s.reaction ≠ 5 ∧ s.prt.lockPending = false) →
    exec (.energise r) s = .next ((s.take 0x01 2 false).complete r 0x01 2 0 0)) ∧
  (∀ (r : OrderRef) (s : State), s.owns r.hatch 0 = true → s.sys.taken = none → s.sys.conv = .ready → s.sys.announce = none →
    s.prt.firedLast = false → s.sys.moved = false → s.mayRun = true →
    ∃ t, exec (.deblock r) s = .next t ∧ t.sys.conv = .ready ∧ t.sys.taken = some ⟨0x02, 0, true⟩ ∧
      t.sys.announce = some ⟨s.sys.epoch + 5 + BitVec.ofNat 48 s.leadMax, false, [r]⟩ ∧ Frame [.sys] s t) ∧
  (∀ (r : OrderRef) (s : State), s.owns r.hatch 0 = true → s.sys.taken = none → s.sys.conv = .ready → s.sys.announce = none →
    s.prt.firedLast = false → s.sys.moved = false → s.mayRun = false →
    exec (.deblock r) s = .next ((s.take 0x02 2 false).complete r 0x02 2 0 0)) ∧
  (∀ (r : OrderRef) (s : State), s.runDue = false → s.owns r.hatch 0 = true → s.sys.taken = none →
    s.prt.firedLast = false → s.sys.conv = .run →
    ∃ t, exec (.block r) s = .next t ∧ t.sys.conv = .run ∧ t.sys.taken = some ⟨0x03, 0, true⟩ ∧
      t.sys.stopOrders = s.sys.stopOrders ++ [r] ∧
      (s.ctl.stopping = none → t.ctl.stopping = some s.sys.epoch) ∧ (s.ctl.stopping.isSome = true → t.ctl = s.ctl) ∧
      Frame [.sys, .ctl] s t) ∧
  (∀ (r : OrderRef) (s : State), s.runDue = false → s.owns r.hatch 0 = true → s.sys.taken = none → s.reactionWon = false →
    s.prt.firedLast = false → s.transitionMade = false → s.sys.conv = .hold → s.recovered = true →
    ∃ u : State, exec (.block r) s = .next (u.complete r 0x03 0 (Conv.code .hold * 16 + Conv.code .ready) 0) ∧
      u.sys.conv = .ready ∧ u.sys.prev = .hold ∧ u.sys.cause = 0 ∧ u.prt.episode = s.endEpisode.prt.episode ∧
      u.sys.taken = some ⟨0x03, 0, false⟩ ∧
      Frame [.regs, .sys, .mfe, .lnk, .cel, .ctl, .grd, .edg, .prt, .hats, .trk, .dbg, .out] s u) ∧
  (∀ (r : OrderRef) (s : State), s.runDue = false → s.owns r.hatch 0 = true → s.sys.taken = none → s.reactionWon = false →
    s.prt.firedLast = false → s.transitionMade = false → s.sys.conv = .hold → s.recovered = false →
    exec (.block r) s = .next ((s.take 0x03 2 false).complete r 0x03 2 0 0)) ∧
  (∀ (r : OrderRef) (s : State), s.runDue = false → s.owns r.hatch 0 = true → s.sys.taken = none → s.reactionWon = false →
    s.transitionMade = false → s.sys.conv ∈ [.charge, .ready, .hold] →
    ∃ u : State, exec (.deenergise r) s = .next (u.complete r 0x04 0 (s.sys.conv.code * 16 + Conv.code .off) 0) ∧ u.sys.conv = .off ∧
      u.sys.prev = s.sys.conv ∧ u.sys.cause = 0 ∧ u.sys.announce = none ∧ u.sys.taken = some ⟨0x04, 0, false⟩ ∧
      Frame [.regs, .sys, .mfe, .lnk, .cel, .ctl, .grd, .edg, .prt, .hats, .trk, .dbg, .out] s u)

/-- SET_POINT applies at the boundary of its evaluation, at once and whether or not a Crate names its object: an order with no used entry
or with one that cannot be converted completes with BAD_ARG, one that names a target whose object its Hatch does not own with NOT_OWNER,
and neither sets anything; otherwise every entry is applied in word order, no register waits, and the order completes OK (R176, R383, R386,
R390, R394; BAD_ARG before NOT_OWNER: log entry 32). -/
def Obligations.SetPointOrders : Prop :=
  (∀ (r : OrderRef) (es : List SetPointEntry) (s : State), es.length ≤ 6 →
    (es.filter (fun e => e.kind ≠ 0) = [] ∨ (∃ e ∈ es, e.kind ≠ 0 ∧ setPointTarget e = none)) →
    exec (.setPoint r es) s = .next (s.complete r 0x08 6 0 0)) ∧
  (∀ (r : OrderRef) (es : List SetPointEntry) (ts : List (Nat × Nat × Word)) (s : State), es.length ≤ 6 →
    es.filter (fun e => e.kind ≠ 0) ≠ [] → (es.filter (fun e => e.kind ≠ 0)).map setPointTarget = ts.map some →
    (∃ x ∈ ts, s.owns r.hatch x.1 = false) → exec (.setPoint r es) s = .next (s.complete r 0x08 5 0 0)) ∧
  (∀ (r : OrderRef) (es : List SetPointEntry) (ts : List (Nat × Nat × Word)) (s : State), es.length ≤ 6 →
    es.filter (fun e => e.kind ≠ 0) ≠ [] → (es.filter (fun e => e.kind ≠ 0)).map setPointTarget = ts.map some →
    (∀ x ∈ ts, s.owns r.hatch x.1 = true) →
    ∃ u : State, exec (.setPoint r es) s = .next (u.complete r 0x08 0 0 0) ∧
      (∀ l x l', ts = l ++ x :: l' → (∀ y ∈ l', y.2.1 ≠ x.2.1) → u.reg x.2.1 = x.2.2) ∧
      u.regs.pend = s.regs.pend ∧ RegsBut (ts.map (·.2.1)) s u ∧ Frame [.regs] s u)

/-- The Crate orders and SNAPSHOT. CRATE_OPEN gives a free slot a new Crate in BUILDING and completes OK with slot and id, or BUSY with no
free slot; CRATE_ADD_GATE adds its items in order to the unit's list, and at most 32 of them; CRATE_ADD_DEVICE adds one part of a known
code; CRATE_CLOSE and the two adds need a Crate in BUILDING, every one of them a known id of the same Hatch; CRATE_ABORT ends a Crate in
BUILDING with ABORTED_HOST, asks one in STAGING to abort, and is TOO_LATE for one committed. A SNAPSHOT of a range beyond the last record
or to an address that is not 64-byte aligned completes with BAD_ARG, and another waits in its Hatch's queue (R153, R155, R157, R162, R165,
R386, R387, R389, R390; NOT_OWNER before CRATE_STATE: log entry 32). -/
def Obligations.SnapshotAndCrateOrders : Prop :=
  (∀ (r : OrderRef) (i id : Nat) (s : State), (List.range 4).find? (fun i => (s.crate i).state = .free) = some i →
    s.nextId = some id →
    ∃ u : State, exec (.crateOpen r) s = .next (u.complete r 0x20 0 (i * 256 + id) 0) ∧
      u.crate i = { state := .building, id := id, hatch := r.hatch, openedAt := s.sys.epoch } ∧
      (∀ k, k ≠ i → u.crate k = s.crate k) ∧ Frame [.cel] s u) ∧
  (∀ (r : OrderRef) (s : State), (∀ i < 4, (s.crate i).state ≠ .free) →
    exec (.crateOpen r) s = .next (s.complete r 0x20 8 0 0)) ∧
  (∀ (c : Instr) (op id home part w2 w3 : Nat) (r : OrderRef) (items : List StagedItem) (s : State),
    (c, op) ∈ [(.crateAddGate r id home items, 0x21), (.crateAddDevice r id part w2 w3, 0x22), (.crateClose r id, 0x23),
      (.crateAbort r id, 0x24)] →
    items ≠ [] → items.length ≤ 5 → home < 4096 → partWordsOk part w2 w3 = true →
    (s.crateSlot id = none → exec c s = .next (s.complete r op 9 0 0)) ∧
    (∀ i, s.crateSlot id = some i → (s.crate i).hatch ≠ r.hatch → exec c s = .next (s.complete r op 5 0 0)) ∧
    (∀ i, s.crateSlot id = some i → (s.crate i).hatch = r.hatch → (s.crate i).state ≠ .building → op ≠ 0x24 →
      exec c s = .next (s.complete r op 9 0 0))) ∧
  (∀ (r : OrderRef) (id home i : Nat) (items : List StagedItem) (s : State), items ≠ [] → items.length ≤ 5 → home < 4096 →
    s.crateSlot id = some i → (s.crate i).hatch = r.hatch → (s.crate i).state = .building →
    (∃ g ∈ addItems (s.crate i).gates home items, g.home = home ∧ 32 < g.items.length) →
    exec (.crateAddGate r id home items) s = .next (s.complete r 0x21 6 0 0)) ∧
  (∀ (r : OrderRef) (id home i : Nat) (items : List StagedItem) (s : State), items ≠ [] → items.length ≤ 5 → home < 4096 →
    s.crateSlot id = some i → (s.crate i).hatch = r.hatch → (s.crate i).state = .building →
    (∀ g ∈ addItems (s.crate i).gates home items, g.home = home → g.items.length ≤ 32) →
    ∃ u : State, exec (.crateAddGate r id home items) s = .next (u.complete r 0x21 0 (u.crate i).parts 0) ∧
      (u.crate i).gates = addItems (s.crate i).gates home items ∧
      (u.crate i).devs = (s.crate i).devs ∧ (u.crate i).state = .building ∧ (∀ k, k ≠ i → u.crate k = s.crate k) ∧
      Frame [.cel] s u) ∧
  (∀ (r : OrderRef) (id part w2 w3 : Nat) (s : State), partWordsOk part w2 w3 = false →
    exec (.crateAddDevice r id part w2 w3) s = .next (s.complete r 0x22 6 0 0)) ∧
  (∀ (r : OrderRef) (id part w2 w3 i : Nat) (s : State), s.crateSlot id = some i → (s.crate i).hatch = r.hatch →
    (s.crate i).state = .building → partWordsOk part w2 w3 = true →
    ∃ u : State, exec (.crateAddDevice r id part w2 w3) s = .next (u.complete r 0x22 0 (u.crate i).parts 0) ∧
      (u.crate i).devs = (s.crate i).devs ++ [⟨part, w2, w3⟩] ∧ (u.crate i).gates = (s.crate i).gates ∧
      (∀ k, k ≠ i → u.crate k = s.crate k) ∧ Frame [.cel] s u) ∧
  (∀ (r : OrderRef) (id i : Nat) (s : State), s.crateSlot id = some i → (s.crate i).hatch = r.hatch → (s.crate i).state = .building →
    ∃ t, exec (.crateClose r id) s = .next t ∧ (t.crate i).closeRef = some r ∧ (t.crate i).devs = (s.crate i).devs ∧
      ((t.crate i).state = .staging ∧ (t.crate i).closedAt = s.sys.epoch ∨ (t.crate i).state = .done ∧ (t.crate i).outcome = 3 ∧ t.rb R.CEL_CAUSE 3 = true) ∧
      (∀ k, k ≠ i → t.crate k = s.crate k) ∧ RegsBut [R.CEL_CAUSE] s t ∧ Frame [.regs, .cel] s t) ∧
  (∀ (r : OrderRef) (id i : Nat) (s : State), s.crateSlot id = some i → (s.crate i).hatch = r.hatch → (s.crate i).state = .building →
    exec (.crateAbort r id) s = .next ((s.crateDone i 6).complete r 0x24 0 id 0)) ∧
  (∀ (r : OrderRef) (id i : Nat) (s : State), s.crateSlot id = some i → (s.crate i).hatch = r.hatch → (s.crate i).state = .staging →
    ∃ u : State, exec (.crateAbort r id) s = .next (u.complete r 0x24 0 id 0) ∧
      u.crate i = { s.crate i with abortAsked := true } ∧ (∀ k, k ≠ i → u.crate k = s.crate k) ∧ Frame [.cel] s u) ∧
  (∀ (r : OrderRef) (id i : Nat) (s : State), s.crateSlot id = some i → (s.crate i).hatch = r.hatch →
    ((s.crate i).state = .committing ∨ (s.crate i).state = .verifying) →
    exec (.crateAbort r id) s = .next (s.complete r 0x24 0x0A 0 0)) ∧
  (∀ (r : OrderRef) (a : SnapshotArgs) (s : State), (a.dma = true ∧ a.addr.toNat % 64 ≠ 0) ∨ a.count = 0 ∨ 4096 < a.first + a.count →
    exec (.snapshot r a) s = .next (s.complete r 0x10 6 0 0)) ∧
  (∀ (r : OrderRef) (a : SnapshotArgs) (s : State), (a.dma = true → a.addr.toNat % 64 = 0) → a.count ≠ 0 → a.first + a.count ≤ 4096 →
    ∃ t, exec (.snapshot r a) s = .next t ∧ (t.snap r.hatch.val).queue = (s.snap r.hatch.val).queue ++ [⟨r, a⟩] ∧
      (∀ g, g ≠ r.hatch.val → t.snap g = s.snap g) ∧ Frame [.cel] s t)

/-- POWER_ON, CONTINUE_START, RESTART, START_STEP_TIMEOUT and DOMAIN_READY: power-on with BOOT_HOLD_N low runs TRUNK and SAFETY, starts
the Safety Core and is held before IMAGE with HOLD_AT 3, and with BOOT_HOLD_N high and HOLD_AT 0, as reset leaves it, IMAGE ends as well;
CONTINUE goes on from the step that is held; CONTINUE and RESTART are taken from the management port alone, RESTART with its key and in OFF,
and are otherwise refused with kind 5; a RESTART that comes during a step waits for its end, and another resets every Hatch, keeps ERA and
the Safety Core, and stops the epoch counter; SUPPLIES without power-good is tried again three times, START_V and a read of its voltage
going to each regulator, and then fails with code 6, or with 7 where power-good stands; REFERENCE records code 8 once and starts again from
the stored band; a domain switched on is ready, and the last domain of step HATCHES completes start-up (R404, R405, R411, R416, R417, R418,
R420; what is tried again and when, and the end of a calibration: log entry 36). -/
def Obligations.StartUp : Prop :=
  (∀ (inp : StartIn) (s : State), s.start.powered = false → s.regs.pend = [] → inp.bootHold = true →
    ∃ t, exec (.powerOn inp) s = .next t ∧ t.start.powered = true ∧ t.start.state = .held ∧ t.start.step = 2 ∧ t.start.active = false ∧
      t.start.inputs = inp ∧ t.rf R.STR_CFG 31 28 = 3 ∧ t.rb R.STR_CAUSE 1 = true ∧ t.saf.running = true ∧
      t.sys.counting = s.sys.counting ∧ t.sys.conv = s.sys.conv ∧ Frame [.regs, .sys, .cel, .saf, .start, .trk] s t) ∧
  (∀ (inp : StartIn) (s : State), s.start.powered = false → s.regs.pend = [] → s.rf R.STR_CFG 31 28 = 0 → inp.bootHold = false →
    ∃ t, exec (.powerOn inp) s = .next t ∧ t.start.powered = true ∧ t.saf.running = true ∧ 3 ≤ t.start.step ∧
      t.sys.counting = s.sys.counting ∧ t.sys.conv = s.sys.conv) ∧
  (∀ s : State, s.start.powered = true → s.start.state = .held → s.start.active = false → s.start.step < 10 →
    s.start.restartWanted = none → s.tapTest = false →
    ∃ t, exec (.continueStart .mgmt) s = .next t ∧ s.start.step < t.start.step ∧ t.start.powered = true) ∧
  (∀ (r : Requester) (s : State), r ≠ .mgmt ∨ s.start.state ≠ .held ∨ s.tapTest = true →
    exec (.continueStart r) s = .next (s.logErr r 5 R.STR_ACTION)) ∧
  (∀ (r : Requester) (key : Nat) (inp : StartIn) (s : State), r ≠ .mgmt ∨ key ≠ 0x7E81 ∨ s.sys.conv ≠ .off ∨ s.start.powered = false →
    exec (.restart r key inp) s = .next (s.logErr r 5 R.STR_ACTION)) ∧
  (∀ (inp : StartIn) (s : State), s.sys.conv = .off → s.start.powered = true →
    ∃ t, exec (.restart .mgmt 0x7E81 inp) s = .next t ∧ t.sys.conv = .off ∧ t.start.powered = true ∧ t.sys.era = s.sys.era ∧
      (s.start.state = .running → s.start.active = true → t.start = { s.start with restartWanted := some inp } ∧
        RegsBut [R.TRK_CAUSE, R.TRK_QUEUE, R.TRK_SUPPRESSED] s t ∧ Frame [.regs, .start, .trk] s t) ∧
      (s.start.state ≠ .running ∨ s.start.active = false → t.start.restart = true ∧ t.sys.counting = false ∧ t.ref.muted = true ∧
        t.saf.running = s.saf.running ∧ ∀ h, h < 4 → (t.hat h).linkUp = false ∧ (t.hat h).or_ = [])) ∧
  (∀ (inp : StartIn) (s : State), s.start.powered = true → s.start.state = .running → s.start.active = true → s.start.step = 4 →
    inp.powerGood = false →
    ∃ t, exec (.startStepTimeout inp) s = .next t ∧
      (s.start.retries < 3 → t.start.retries = s.start.retries + 1 ∧ t.start.step = 4 ∧ t.start.active = true ∧ t.pwr.vcoreEn = true ∧
        t.pwr.setMv = s.rf R.PWR_VCORE_CFG 9 0 ∧ RegsBut [R.PWR_CAUSE, R.TRK_CAUSE, R.TRK_QUEUE, R.TRK_SUPPRESSED] s t ∧
        ((∀ r ∈ s.regulators, inp.acks.getD r true = true ∧ (inp.vout.getD r none).isSome = true) →
          t.out = s.out ++
            s.regulators.map (fun r => .pmbus (s.pmbAddr r) 0x21 (some (s.voutCode t.pwr.setMv)) (s.rb R.PWR_PMB_CFG 30) (s.rb R.PWR_PMB_CFG 31)) ++
            s.regulators.map (fun r => .pmbus (s.pmbAddr r) 0x8B none (s.rb R.PWR_PMB_CFG 30) (s.rb R.PWR_PMB_CFG 31))) ∧
        Frame [.regs, .pwr, .start, .trk, .out] s t) ∧
      (3 ≤ s.start.retries → s.start.restartWanted = none → t.start.state = .failed ∧
        t.start.failCode = (if s.start.inputs.powerGood then 7 else 6) ∧ t.start.active = false ∧ t.start.step = 4 ∧
        t.rb R.STR_CAUSE 0 = true)) ∧
  (∀ (inp : StartIn) (s : State), s.start.state = .running → s.start.active = true → s.start.step = 5 → s.sys.counting = false →
    ∃ t, exec (.startStepTimeout inp) s = .next t ∧ t.start.step = 5 ∧ t.start.active = true ∧ t.start.retries = max 1 s.start.retries ∧
      (s.start.retries = 0 → t.start.failCode = 8 ∧ smGet 0 t.start.record 7 = 0x80000) ∧
      t.ref.state = .unlocked ∧ t.ref.calibrated = false ∧ (s.ref.calibrated = false → t.rb R.REF_CAUSE 2 = true) ∧
      t.ref.range = junctionRange s.sys.tj ∧ t.ref.range < 4 ∧
      (s.storedBands.getD (3 * junctionRange s.sys.tj) 0 = 1 → t.ref.band = s.storedBands.getD (3 * junctionRange s.sys.tj + 1) 0) ∧
      RegsBut [R.REF_CAUSE, R.TRK_CAUSE, R.TRK_QUEUE, R.TRK_SUPPRESSED] s t ∧ Frame [.regs, .ref, .start, .trk, .freeCount] s t) ∧
  (∀ (d : Nat) (s : State), bit s.pwr.switching d = true → s.start.state = .complete →
    ∃ t, exec (.domainReady d) s = .next t ∧ t.pwr = { s.pwr with
        ready := s.pwr.ready + 2 ^ d, switching := s.pwr.switching - 2 ^ d } ∧
      (∀ l, l < 512 → (t.lane l).calibrated =
        (if l / 16 = d then !s.start.inputs.badLanes.contains l else (s.lane l).calibrated)) ∧ Frame [.lnk, .pwr] s t) ∧
  (∀ (d : Nat) (s : State), bit s.pwr.switching d = true → d = 47 ∨ d = 48 → s.start.powered = true → s.start.state = .running →
    s.start.active = true → s.start.step = 9 → s.start.restartWanted = none → s.ref.muted = false → s.regs.pend = [] →
    s.rf R.STR_CFG 31 28 ≠ 10 → (∀ e ∈ s.stepDomains 9, e = d ∨ s.domain e = true) → s.domain d = false →
    ∃ t, exec (.domainReady d) s = .next t ∧ t.start.state = .complete ∧ t.start.step = 10 ∧ t.rb R.STR_CAUSE 2 = true)

/-- LOSS_OF_VAON and PORST_N_ASSERT leave every part of the block but the Trunk as at reset; the Trunk keeps its Bin's series and, with no write in
progress, its objects and its Bin, the record whose place a Bin write in progress had taken being lost, and it loses what waited (R326, R367,
R427, R476; that PORST_N takes away what the loss of VAON does: log entry 36; the queue of commands is the model's). -/
def Obligations.DeviceDown : Prop :=
  ∀ s : State, ∃ t, exec .lossOfVaon s = .next t ∧ exec .porstNAssert s = .next t ∧ Frame [.trk, .freeCount, .pending] State.reset t ∧
    t.pending = s.pending ∧ ((∀ e, s.trk.busy ≠ some (.bin e)) → t.trk.bin = s.trk.bin) ∧
    (∀ e, s.trk.busy = some (.bin e) → t.trk.bin = s.trk.binGiveWay.bin) ∧ t.trk.binSeq = s.trk.binSeq ∧ t.trk.busy = none ∧ t.trk.waiting = [] ∧
    t.trk.waitRing = [] ∧ t.trk.queue = [] ∧
    (s.trk.busy = none → t.trk.directory = s.trk.directory ∧ t.trk.bands = s.trk.bands ∧ t.trk.safety = s.trk.safety ∧
      t.trk.meter = s.trk.meter ∧ t.trk.sealState = s.trk.sealState ∧ t.trk.repair = s.trk.repair ∧ t.trk.startRec = s.trk.startRec ∧
      t.trk.ring = s.trk.ring)

/-- SLACK_WINDOW_END, VOUT_COMMAND, PMBUS_POLL and BUDGET_ADMIT: a window whose slack never fell below its bound and that saw no raise
asks for a lower step; a command is sent at the earliest 1,024 ep after the one before it, a pending raise before a pending lower, held to
VMIN and VMAX, to each regulator at its address, and once more where it fails; a poll computes P_DRAW from the regulators' replies and the
other supplies and compares it with LIMIT; the first waiting
item is admitted while P_DRAW, the costs admitted since the poll and its own cost lie within the budget, and a capture that waited is then
armed, or triggered at once with TRIG = 0 (R405, R406, R407, R409, R410, R486; how the words of a reply are read: log entry 31; a failed read keeps the regulator's last power, and the record is
made when its cause is newly set: log entry 35). -/
def Obligations.SupplyAndBudget : Prop :=
  (∀ s : State, s.slackOn = true → 2 ^ s.rf R.PWR_SLACK_CFG 4 0 ≤ s.pwr.windowEp →
    ∃ t, exec .slackWindowEnd s = .next t ∧ t.pwr = { s.pwr with
        pendingLower := (if s.pwr.windowLow || s.pwr.windowRaised then s.pwr.pendingLower else s.rf R.PWR_SLACK_CFG 11 8)
        windowLow := false, windowRaised := false, windowEp := 0 } ∧ Frame [.pwr] s t) ∧
  (∀ (acks : List Bool) (s : State), s.slackOn = true → (∀ e, s.pwr.lastVout = some e → 1024 ≤ (s.sys.epoch - e).toNat) →
    0 < s.pwr.pendingRaise ∨ 0 < s.pwr.pendingLower →
    ∃ t, exec (.voutCommand acks) s = .next t ∧ t.pwr.lastVout = some s.sys.epoch ∧ t.pwr.pendingRaise = 0 ∧
      (0 < s.pwr.pendingRaise → t.pwr.setMv = clampNat s.vmin s.vmax (s.pwr.setMv + s.pwr.pendingRaise) ∧
        t.pwr.pendingLower = s.pwr.pendingLower ∧ t.pwr.windowRaised = true) ∧
      (s.pwr.pendingRaise = 0 → t.pwr.setMv = clampNat s.vmin s.vmax (s.pwr.setMv - s.pwr.pendingLower) ∧ t.pwr.pendingLower = 0) ∧
      t.out = s.out ++ s.regulators.flatMap (fun r => List.replicate (if acks.getD r true then 1 else 2)
        (.pmbus (s.pmbAddr r) 0x21 (some (s.voutCode t.pwr.setMv)) (s.rb R.PWR_PMB_CFG 30) (s.rb R.PWR_PMB_CFG 31))) ∧
      RegsBut [R.PWR_CAUSE, R.TRK_CAUSE, R.TRK_QUEUE, R.TRK_SUPPRESSED] s t ∧ Frame [.regs, .pwr, .trk, .out] s t) ∧
  (∀ (ps : List PollReply) (v i : Nat → Nat) (otherMw : Nat) (s : State), s.sys.counting = true → s.sys.epoch.toNat % 4096 = 0 →
    s.pwr.regPower.length = 2 →
    (∀ r ∈ s.regulators, ∃ p, ps[r]? = some p ∧ p.vout = some (v r) ∧ p.iout = some (i r)) →
    ∃ t, exec (.pmbusPoll ps otherMw) s = .next t ∧
      t.pwr.draw = (s.regulators.map (fun r => s.voutVolts (v r) * linear11 (i r))).sum + (otherMw : Rat) / 1000 ∧ t.pwr.sincePoll = 0 ∧
      t.pwr.overBudget = decide (s.budget < t.pwr.draw) ∧
      t.pwr.overRun = (if s.budget < t.pwr.draw then min 2 (s.pwr.overRun + 1) else 0) ∧
      (t.pwr.overRun = 2 → t.rb R.PWR_CAUSE 4 = true) ∧ (t.pwr.overRun ≠ 2 → t.pwr.admitted = s.pwr.admitted) ∧
      (∀ r p w, r ∈ s.regulators → ps[r]? = some p → p.status = some w → bits w 15 1 ≠ 0 → t.rb R.PWR_CAUSE 3 = true) ∧
      RegsBut [R.PWR_CAUSE, R.DBG_CAUSE, R.TRK_CAUSE, R.TRK_QUEUE, R.TRK_SUPPRESSED] s t ∧ Frame [.regs, .ctl, .pwr, .trk, .dbg, .out] s t) ∧
  (∀ (i : OptItem) (rest : List OptItem) (s : State), s.pwr.waiting = i :: rest → s.sys.counting = true →
    s.pwr.draw + s.pwr.sincePoll + i.cost ≤ s.budget →
    ∃ t, exec .budgetAdmit s = .next t ∧ t.pwr.waiting = rest ∧ t.pwr.admitted = s.pwr.admitted ++ [i] ∧
      t.pwr.sincePoll = s.pwr.sincePoll + i.cost ∧
      (i = .capture → s.ctl.cap.state = .wait → t.ctl.cap = { s.ctl.cap with state := .armed, refused := false }) ∧
      (i = .debugCapture → s.dbg.cap.state = .wait → 1 ≤ fld s.dbg.cap.cfg 30 28 → fld s.dbg.cap.cfg 30 28 ≤ 3 →
        t.dbg.cap = { s.dbg.cap with state := .armed, refused := false }) ∧
      (i = .debugCapture → s.dbg.cap.state = .wait → fld s.dbg.cap.cfg 30 28 = 0 → t.dbg.cap.state = .triggered) ∧
      Frame [.ctl, .pwr, .dbg] s t)

/-- LOCK_DECLARED, REFERENCE_LOSS, UNMUTE, PFAIL_ASSERT and PFAIL_RELEASE: with the last LOCK_WINDOWS windows passed, lock at step
REFERENCE starts the epoch counter and unmutes, with the band of the calibration where one has run for 1 ms and otherwise the band that it
started from, and lock in holdover begins the wait of UNMUTE_EP epochs and keeps a band or control value that has changed; a loss of lock mutes every lane,
counts and enters holdover, also from the wait; after the wait the lanes launch again; a power failure is recorded with cause 0x0C8, asks
for a metering save while metering runs and leaves the converter's state, and its release is recorded and leaves that save as it is (R331, R411,
R412, R413, R414, R417, R429, R431; the bounds of a window's counts come as the command's operands: log entry 4; when a calibration runs: log
entry 36). -/
def Obligations.ReferenceAndPowerFail : Prop :=
  (∀ (ws : List LockWindow) (band control : Nat) (s : State), s.windowsPass ws = true → s.ref.state = .unlocked →
    s.start.powered = true → s.start.state = .running → s.start.active = true → s.start.step = 5 → s.domain 49 = true →
    s.sys.counting = false → s.start.restartWanted = none →
    ∃ t, exec (.lockDeclared ws band control) s = .next t ∧ t.ref.state = .locked ∧ t.ref.muted = false ∧ t.sys.counting = true ∧
      t.sys.epoch = 0 ∧
      t.ref.band = (if s.ref.calibrated = true ∨ 1000000 ≤ s.start.aoNs - s.ref.sinceNs then band else s.ref.band) ∧ (5 < t.start.step ∨ t.start.state = .held)) ∧
  (∀ (ws : List LockWindow) (band control : Nat) (s : State), s.windowsPass ws = true → s.ref.state = .holdover →
    ∃ t, exec (.lockDeclared ws band control) s = .next t ∧ t.ref = { s.ref with state := .unmuteWait, waitEp := 0 } ∧
      (s.trk.writeProt = false → s.ref.range < 4 → s.storedBands.getD (3 * s.ref.range + 2) 0 ≠ control →
        ∃ ws, t.trk.waiting = s.trk.waiting ++ [(.bands, ws)] ∧ ws.getD (3 * s.ref.range) 0 = 1 ∧
          ws.getD (3 * s.ref.range + 1) 0 = s.ref.band ∧ ws.getD (3 * s.ref.range + 2) 0 = control) ∧
      RegsBut [R.TRK_SUPPRESSED] s t ∧ Frame [.regs, .ref, .trk] s t) ∧
  (∀ s : State, s.ref.state = .locked ∨ s.ref.state = .unmuteWait →
    ∃ t, exec .referenceLoss s = .next t ∧ t.ref = { s.ref with state := .holdover, muted := true, holdoverEp := 0 } ∧
      t.rf R.REF_STATUS 15 0 = incSat 65535 (s.rf R.REF_STATUS 15 0) ∧ t.rb R.REF_CAUSE 0 = true ∧
      RegsBut [R.REF_STATUS, R.REF_CAUSE, R.TRK_CAUSE, R.TRK_QUEUE, R.TRK_SUPPRESSED] s t ∧ Frame [.regs, .ref, .trk] s t) ∧
  (∀ s : State, s.ref.state = .unmuteWait → max 1 (s.rf R.REF_CFG 31 16) ≤ s.ref.waitEp → s.start.state = .complete →
    ∃ t, exec .unmute s = .next t ∧ t.ref = { s.ref with state := .locked, muted := false } ∧ t.rb R.REF_CAUSE 1 = true ∧
      RegsBut [R.REF_CAUSE, R.TRK_CAUSE, R.TRK_QUEUE, R.TRK_SUPPRESSED] s t ∧ Frame [.regs, .ref, .trk] s t) ∧
  (∀ s : State, s.pwr.pfail = false →
    ∃ t, exec .pfailAssert s = .next t ∧ t.pwr = { s.pwr with pfail := true, pfailSave := s.mtr.on_ } ∧ t.rb R.PWR_CAUSE 6 = true ∧
      t.rb R.TRK_CAUSE 0 = true ∧ RegsBut [R.PWR_CAUSE, R.TRK_CAUSE, R.TRK_QUEUE, R.TRK_SUPPRESSED] s t ∧ Frame [.regs, .pwr, .trk] s t) ∧
  (∀ s : State, s.pwr.pfail = true →
    ∃ t, exec .pfailRelease s = .next t ∧ t.pwr = { s.pwr with pfail := false } ∧
      RegsBut [R.TRK_CAUSE, R.TRK_QUEUE, R.TRK_SUPPRESSED] s t ∧ Frame [.regs, .pwr, .trk] s t)

/-- TRUNK_WRITE_START, TRUNK_WRITE_COMPLETE and FORMAT: with no write in progress and no write protection the first waiting write of the
lowest rank starts, a metering save of a power failure before the safety set, that before a periodic save, and that before the other objects,
then a start record, then a Bin record; a write that completes puts its words with the next sequence number into the
slot that does not hold the newest valid copy, and a failed one sets WRITE_FAIL and leaves the other slot as it was; a Bin record that
completes takes the next sequence number, and one that fails loses the record whose place it took and is counted, with what it carried, for
the next record of its cause; FORMAT is taken from the management port with its key, in OFF, under write protection, and
empties every region, and is otherwise refused with kind 5 (R426, R427, R428, R430, R431; the rank of a seal state: log entry 37). -/
def Obligations.TrunkWrites : Prop :=
  (∀ (n : Nat) (x : TrkItem × List Nat) (rest : List (TrkItem × List Nat)) (s : State), s.trk.busy = none → s.trk.writeProt = false →
    1 ≤ n → n ≤ 4 → takeRank n s.trk.waiting = some (x, rest) → (∀ y ∈ s.trk.waiting, n ≤ y.1.rank) →
    ∃ t, exec .trunkWriteStart s = .next t ∧ t.trk = { s.trk with busy := some (.obj x.1 x.2), waiting := rest } ∧ Frame [.trk] s t) ∧
  [TrkItem.pfailSave, .safetySet, .periodicSave, .directory, .startRecord, .bands, .repairMap, .sealState].map TrkItem.rank =
    [1, 2, 3, 4, 4, 4, 4, 4] ∧
  (∀ (r : List Nat) (rest : List (List Nat)) (s : State), s.trk.busy = none → s.trk.writeProt = false → s.trk.waiting = [] →
    s.trk.waitRing = r :: rest →
    ∃ t, exec .trunkWriteStart s = .next t ∧ t.trk = { s.trk with busy := some (.ring r), waitRing := rest } ∧ Frame [.trk] s t) ∧
  (∀ (e : BinEnt) (rest : List BinEnt) (s : State), s.trk.busy = none → s.trk.writeProt = false → s.trk.waiting = [] →
    s.trk.waitRing = [] → s.trk.queue = e :: rest →
    ∃ t, exec .trunkWriteStart s = .next t ∧ t.trk.busy = some (.bin e) ∧ t.trk.queue = rest ∧ t.trk.bin = s.trk.bin ∧ Frame [.trk] s t) ∧
  (∀ (i : TrkItem) (ws : List Nat) (s : State), s.trk.busy = some (.obj i ws) → (s.trk.obj i).s0.seq < 2 ^ 32 - 1 →
    (s.trk.obj i).s1.seq < 2 ^ 32 - 1 →
    ∃ t, exec (.trunkWriteComplete true) s = .next t ∧ t.trk.busy = none ∧
      newestSlot (t.trk.obj i) = some ⟨(match newestSlot (s.trk.obj i) with | some y => y.seq + 1 | none => 1), true, ws⟩ ∧
      t.trk.bin = s.trk.bin ∧ Frame [.regs, .saf, .trk] s t) ∧
  (∀ (i : TrkItem) (ws : List Nat) (s : State), s.trk.busy = some (.obj i ws) →
    ∃ t, exec (.trunkWriteComplete false) s = .next t ∧ t.trk.busy = none ∧ t.rb R.TRK_CAUSE 2 = true ∧
      newestSlot (t.trk.obj i) = newestSlot (s.trk.obj i) ∧ Frame [.regs, .saf, .trk] s t) ∧
  (∀ (e : BinEnt) (s : State), s.trk.busy = some (.bin e) →
    ∃ t, exec (.trunkWriteComplete true) s = .next t ∧ t.trk.busy = none ∧ t.trk.binSeq = (s.trk.binSeq + 1) % 2 ^ 32 ∧
      smGet [] t.trk.bin t.trk.binSeq = binWords e t.trk.binSeq (smGet 0 s.trk.suppressed e.cause) ∧
      smGet 0 t.trk.suppressed e.cause = 0 ∧ Frame [.trk] s t) ∧
  (∀ (e : BinEnt) (s : State), s.trk.busy = some (.bin e) →
    ∃ t, exec (.trunkWriteComplete false) s = .next t ∧ t.trk.busy = none ∧ t.trk.binSeq = s.trk.binSeq ∧
      t.trk.bin = s.trk.binGiveWay.bin ∧ smGet 0 t.trk.suppressed e.cause = smGet 0 s.trk.suppressed e.cause + (e.suppressed + 1) ∧
      t.rb R.TRK_CAUSE 2 = true ∧ RegsBut [R.TRK_CAUSE, R.TRK_SUPPRESSED] s t ∧ Frame [.regs, .trk] s t) ∧
  (∀ (r : Requester) (key : Nat) (s : State), r ≠ .mgmt ∨ key ≠ 0x4B1D ∨ s.sys.conv ≠ .off ∨ s.trk.writeProt = false →
    exec (.format r key) s = .next (s.logErr r 5 R.TRK_ACTION)) ∧
  (∀ s : State, s.sys.conv = .off → s.trk.writeProt = true →
    ∃ t, exec (.format .mgmt 0x4B1D) s = .next t ∧ t.trk.writeProt = false ∧ t.trk.bin = [] ∧ t.trk.safety = {} ∧ t.trk.meter = {} ∧
      t.trk.repair = {} ∧ t.trk.bands = {} ∧ t.trk.startRec = {} ∧ t.trk.ring = [] ∧ t.trk.waiting = [(.directory, s.directoryWords)] ∧
      t.rb R.TRK_CAUSE 3 = true ∧ RegsBut [R.TRK_CAUSE, R.TRK_QUEUE, R.TRK_SUPPRESSED] s t ∧ Frame [.regs, .trk] s t)

/-- REGISTER_WRITE and the SET, CLEAR and TOGGLE writes as they are accepted: with no reserved bit, no LT field and no WA bit in the
value, a register whose fields wait for a boundary gets one pending image, computed from the image pending or from the value in force, and
its value in force stays; a CLEAR of an LT field waits for the boundary; a register kept for each requester takes its value on receipt; a
write to an unimplemented location is dropped and logged with kind 2, and one of a Hatch that is not one DW with every byte enabled with
kind 5; an alias write of 0 changes nothing; the management port is not served before it is on, and a Hatch not while its link is down; a write
of a Hatch beyond the BARs completes with Unsupported Request, which its error status shows; a direct write of a map entry waits for its boundary
(R28, R370, R400, R438, R445, R446, R447, R448, R452, R461, R462; the place of the direct map write: log entry 41; the bits of the error
status: log entry 31). -/
def Obligations.RegisterWriteAcceptance : Prop :=
  (∀ (w : WriteReq) (c : Instr) (way : Nat) (s : State),
    (c, way) ∈ [(.registerWrite w, 0), (.setAliasWrite w, 1), (.clearAliasWrite w, 2), (.toggleAliasWrite w, 3)] →
    s.serves w.req = false → exec c s = .next s) ∧
  (∀ (w : WriteReq) (c : Instr) (way : Nat) (s : State),
    (c, way) ∈ [(.registerWrite w, 0), (.setAliasWrite w, 1), (.clearAliasWrite w, 2), (.toggleAliasWrite w, 3)] →
    w.off < 0x10000 → aliasOf w.off = way → w.whole = true → s.serves w.req = true → implemented (w.off % 0x4000) = false →
    exec c s = .next (s.logErr w.req 2 w.off)) ∧
  (∀ (w : WriteReq) (h : Fin 4) (c : Instr) (way : Nat) (s : State),
    (c, way) ∈ [(.registerWrite w, 0), (.setAliasWrite w, 1), (.clearAliasWrite w, 2), (.toggleAliasWrite w, 3)] →
    w.off < 0x10000 → aliasOf w.off = way → w.req = .hatch h → w.whole = false → s.serves (.hatch h) = true →
    exec c s = .next (s.logErr (.hatch h) 5 w.off)) ∧
  (∀ (w : WriteReq) (h : Fin 4) (s : State), 0x90000 ≤ w.off → w.req = .hatch h → s.serves (.hatch h) = true →
    ∃ t, exec (.registerWrite w) s = .next t ∧ (t.hat h.val).aer = (s.hat h.val).aer ||| BitVec.ofNat 32 (2 ^ 20) ∧
      t.out = s.out ++ [.unsupported h] ++ (if flag (s.hat h.val).pcie.aerMask 20 then []
        else [.errorReport h 20 (flag (s.hat h.val).pcie.aerSeverity 20)]) ∧ (∀ g, g ≠ h.val → t.hat g = s.hat g) ∧
      Frame [.hats, .out] s t) ∧
  (∀ (w : WriteReq) (c : Instr) (way : Nat) (s : State),
    (c, way) ∈ [(.registerWrite w, 0), (.setAliasWrite w, 1), (.clearAliasWrite w, 2), (.toggleAliasWrite w, 3)] →
    w.off < 0x10000 → aliasOf w.off = way → w.whole = true → s.serves w.req = true → implemented (w.off % 0x4000) = true → way ≠ 0 →
    w.value = 0 → exec c s = .next s) ∧
  (∀ (w : WriteReq) (c : Instr) (way o : Nat) (s : State),
    (c, way) ∈ [(.registerWrite w, 0), (.setAliasWrite w, 1), (.clearAliasWrite w, 2), (.toggleAliasWrite w, 3)] →
    w.off < 0x10000 → aliasOf w.off = way → w.whole = true → s.serves w.req = true → o = w.off % 0x4000 →
    w.value &&& keyMask o [.rsv, .wa] = 0 → ownReg o = false → safParam o = false → hatReg o = false →
    o ∉ [R.STR_ACTION, R.TRK_ACTION, R.PRT_RESET, R.DBG_HALT, R.MFE_ENC_REREF 0, R.MFE_ENC_REREF 1, R.MFE_ENC_REREF 2] →
    (way = 2 → ltHit (s.keyFor w.req o) w.value = 0) → (way ≠ 0 → w.value ≠ 0) → implemented o = true → writeMask o ≠ 0 →
    ∃ t, exec c s = .next t ∧ (∀ k, t.reg k = s.reg k) ∧ Frame [.regs] s t ∧
      t.regs.pend = dropImage (s.keyFor w.req o) s.regs.pend ++ [.image (s.keyFor w.req o) w.req
        (blend (writeMask (s.keyFor w.req o)) (aliasValue way (s.aliasBase (s.keyFor w.req o)) w.value) (s.aliasBase (s.keyFor w.req o)))
        (s.dueOf w.at_ns) false w.off]) ∧
  (∀ (w : WriteReq) (o : Nat) (s : State),
    w.off < 0x10000 → aliasOf w.off = 2 → w.whole = true → s.serves w.req = true → o = w.off % 0x4000 →
    w.value &&& keyMask o [.rsv, .wa] = 0 → ownReg o = false → safParam o = false → hatReg o = false → implemented o = true →
    writeMask o = 0 → ltHit (s.keyFor w.req o) w.value ≠ 0 →
    ∃ t, exec (.clearAliasWrite w) s = .next t ∧ (∀ k, t.reg k = s.reg k) ∧ Frame [.regs] s t ∧
      t.regs.pend = s.regs.pend ++ [.ltClear (s.keyFor w.req o) w.req (ltHit (s.keyFor w.req o) w.value) (s.dueOf w.at_ns)]) ∧
  (∀ (w : WriteReq) (c : Instr) (way o : Nat) (s : State),
    (c, way) ∈ [(.registerWrite w, 0), (.setAliasWrite w, 1), (.clearAliasWrite w, 2), (.toggleAliasWrite w, 3)] →
    w.off < 0x10000 → aliasOf w.off = way → w.whole = true → s.serves w.req = true → o = w.off % 0x4000 → ownReg o = true →
    o ≠ R.HAT_RING_SEL → w.value &&& keyMask o [.rsv, .wa] = 0 →
    ∃ t, exec c s = .next t ∧
      t.reg (ownKey w.req o) = blend (writeMask o) (aliasValue way (s.reg (ownKey w.req o)) w.value) (s.reg (ownKey w.req o)) ∧
      RegsBut [ownKey w.req o] s t ∧ Frame [.regs] s t) ∧
  (∀ (w : WriteReq) (h : Nat) (s : State), h < 4096 → w.off = mapWindow + 4 * h → w.value.toNat < 2 ^ 9 → s.serves w.req = true →
    ∃ t, exec (.registerWrite w) s = .next t ∧ (∀ k, t.reg k = s.reg k) ∧ Frame [.regs] s t ∧
      t.regs.pend = s.regs.pend ++ [.map h w.req (BitVec.ofNat 16 w.value.toNat) (s.dueOf w.at_ns) false])

/-- A pending image that takes effect from a requester that may write the register puts the value its field rules make of it into all
three copies of the word and changes no other register; from a Hatch that may not write it, it is logged with kind 4 at the offset that was written,
and one that a rule ignores with kind 5; an image not yet due keeps waiting, and one that is held is dropped with kind 4 at the first boundary at
which it would apply if its Hatch may not write it there; a limit of the protections is stored for A as it comes into force; BLOCK_EN that
comes into force while the comparator's output is 1 fires the block logic; a direct write of a map entry takes effect in OFF, and is
logged with kind 5 outside it (R28, R54, R286, R394, R399, R447, R448, R452, R456; that the level of the output then fires: log entry 13;
registers whose new value brings another effect of its own are left out). -/
def Obligations.PendingImageApplies : Prop :=
  (∀ (key off₀ : Nat) (r : Requester) (img v : Word) (due : Epoch) (s : State),
    let w := blend (writeMask key) img (s.reg key)
    let off := keyOff key
    s.mayPut r key w = true → s.fieldRule key w = some v → ¬ (R.HAT_OWN 0 ≤ off ∧ off ≤ R.HAT_OWN 79) →
    off ∉ [R.CTL_ACTIVE_BANK_LO, R.CTL_ACTIVE_BANK_HI, R.EDG_PROF_DATA] → ¬ (R.MFE_WIN_LO 0 ≤ off ∧ off ≤ R.MFE_WIN_HI 47) →
    ¬ (R.MFE_CMP_CFG 0 ≤ off ∧ off ≤ R.MFE_CMP_STAT 15) → ¬ (0x2C00 ≤ off ∧ off < 0x3000) → ¬ (R.PRT_LIM 0 ≤ off ∧ off ≤ R.PRT_LIM 15) →
    let t := s.applyPending (.image key r img due false off₀)
    t.reg key = v ∧ t.regs.copyA key = v ∧ t.regs.copyB key = v ∧ t.regs.copyC key = v ∧ RegsBut [key] s t ∧ Frame [.regs] s t) ∧
  (∀ (l off₀ : Nat) (r : Requester) (img v : Word) (due : Epoch) (s : State), l < 8 →
    s.mayPut r (R.PRT_LIM l) (blend (writeMask (R.PRT_LIM l)) img (s.reg (R.PRT_LIM l))) = true →
    s.fieldRule (R.PRT_LIM l) (blend (writeMask (R.PRT_LIM l)) img (s.reg (R.PRT_LIM l))) = some v →
    let t := s.applyPending (.image (R.PRT_LIM l) r img due false off₀)
    t.reg (R.PRT_LIM l) = v ∧ t.prtLim true l = ((ofF32 v * (2 ^ 24 : Nat)).floor : Rat) ∧ t.prtLim false l = t.rq (R.PRT_LIM l) ∧
      RegsBut [R.PRT_LIM l] s t ∧ Frame [.regs, .prt] s t) ∧
  (∀ (j off₀ : Nat) (r : Requester) (img v : Word) (due : Epoch) (s : State), j < 16 →
    s.mayPut r (R.MFE_CMP_CFG j) (blend (writeMask (R.MFE_CMP_CFG j)) img (s.reg (R.MFE_CMP_CFG j))) = true →
    s.fieldRule (R.MFE_CMP_CFG j) (blend (writeMask (R.MFE_CMP_CFG j)) img (s.reg (R.MFE_CMP_CFG j))) = some v →
    flag v 6 = true → flag v 0 = true → s.rb (R.MFE_CMP_CFG j) 6 = false → (smGet {} s.mfe.cmps j).out = true → s.cmpTested j = false →
    let t := s.applyPending (.image (R.MFE_CMP_CFG j) r img due false off₀)
    t.lnk.blocks = s.lnk.blocks + 1 ∧ t.prt.firedNow = true ∧ t.rb R.PRT_CAUSE 0 = true ∧ Frame [.regs, .lnk, .prt, .dbg] s t) ∧
  (∀ (key off₀ : Nat) (r : Requester) (img : Word) (due : Epoch) (s : State), s.mayPut r key (blend (writeMask key) img (s.reg key)) = false →
    s.applyPending (.image key r img due false off₀) = s.logErr r 4 off₀) ∧
  (∀ (key off₀ : Nat) (r : Requester) (img : Word) (due : Epoch) (s : State), s.mayPut r key (blend (writeMask key) img (s.reg key)) = true →
    s.fieldRule key (blend (writeMask key) img (s.reg key)) = none →
    s.applyPending (.image key r img due false off₀) = s.logErr r 5 off₀) ∧
  (∀ (h : Nat) (e : BitVec 16) (due : Epoch) (s : State), s.sys.conv = .off → s.mapEntryOk e = true →
    mapCountsOk (mapWith s.sys.map h e.toNat) = true →
    s.applyPending (.map h .mgmt e due false) = { s with sys := { s.sys with map := mapWith s.sys.map h e.toNat } }) ∧
  (∀ (h : Nat) (e : BitVec 16) (due : Epoch) (s : State), s.sys.conv ≠ .off ∨ s.mapEntryOk e = false →
    s.applyPending (.map h .mgmt e due false) = s.logErr .mgmt 5 (mapWindow + 4 * h)) ∧
  (∀ (key off₀ : Nat) (r : Requester) (img : Word) (due : Epoch) (b : Bool) (s : State), epGe s.sys.epoch due = false →
    s.regs.pend = [.image key r img due b off₀] → s.applyDue.regs.pend = s.regs.pend ∧ ∀ k, s.applyDue.reg k = s.reg k) ∧
  (∀ (key off₀ : Nat) (h : Fin 4) (img : Word) (b : Bool) (s : State), startClass (keyOff key) = false → s.writeHeld key img = true →
    s.mayPut (.hatch h) key (blend (writeMask key) img (s.reg key)) = false →
    s.regs.pend = [.image key (.hatch h) img s.sys.epoch b off₀] →
    s.applyDue.regs.pend = [] ∧ s.applyDue.rf (bankKey h.val R.HAT_ERR_LOG) 23 16 = 4 ∧
      RegsBut [bankKey h.val R.HAT_ERR_LOG, bankKey h.val R.HAT_ERR_ADDR, bankKey h.val R.HAT_CAUSE] s s.applyDue)

/-- MGMT_WRITE, MGMT_READ, MGMT_STATUS, STATUS_CLEAR and MGMT_UNKNOWN_COMMAND, once the port is on: a WRITE frame of a wrong length or
offset is dropped with kind 9 and one with a wrong CHK with kind 8, and a good one writes its words in rising offset; a bad READ frame is
logged with kind 9 and answered with bytes of 0, a good one returns its words in rising offset, the status byte and CHK, and an unimplemented
location reads 0 and is logged with kind 10; STATUS returns the status word;
STATUS_CLEAR with its CHK clears it, save after an entry made in the present epoch; an unknown command byte is logged with kind 9; before
1 ms a frame has no effect (R11, R442, R443, R444, R445). -/
def Obligations.ManagementFrames : Prop :=
  (∀ (c : Instr) (f : List Byte) (ns : Nat) (s : State), c ∈ [.mgmtWrite f ns, .mgmtRead f, .mgmtStatus f, .statusClear f,
    .mgmtUnknownCommand f] → s.mgmtOn = false → exec c s = .next s) ∧
  (∀ (f : List Byte) (ns : Nat) (s : State), s.mgmtOn = true → frameByte f 0 = 0x02 → f ≠ [] →
    (f.length < 8 ∨ 260 < f.length ∨ f.length % 4 ≠ 0) → exec (.mgmtWrite f ns) s = .next (s.logErr .mgmt 9 0)) ∧
  (∀ (f : List Byte) (ns : Nat) (s : State), s.mgmtOn = true → frameByte f 0 = 0x02 → 8 ≤ f.length → f.length ≤ 260 → f.length % 4 = 0 →
    chkOk f = false → exec (.mgmtWrite f ns) s = .next (s.logErr .mgmt 8 0)) ∧
  (∀ (f : List Byte) (ns : Nat) (s : State), s.mgmtOn = true → frameByte f 0 = 0x02 → 8 ≤ f.length → f.length ≤ 260 → f.length % 4 = 0 →
    chkOk f = true → frameOff f % 4 = 0 →
    exec (.mgmtWrite f ns) s = .next ((List.range ((f.length - 4) / 4)).foldl (fun s i =>
      s.regWrite .mgmt (frameOff f + 4 * i) (BitVec.ofNat 32 (ofBytesBE ((f.drop (3 + 4 * i)).take 4))) ns) s)) ∧
  (∀ (f : List Byte) (s : State), s.mgmtOn = true → frameByte f 0 = 0x03 → 4 ≤ f.length → (frameOff f % 4 ≠ 0 ∨ 63 < frameByte f 3) →
    exec (.mgmtRead f) s = .next ((s.logErr .mgmt 9 0).emit (.mgmtFrame (List.replicate (4 * (frameByte f 3 + 1) + 2) 0)))) ∧
  (∀ (f : List Byte) (v : Nat → Word) (n : Nat) (s : State), s.mgmtOn = true → frameByte f 0 = 0x03 → 4 ≤ f.length → frameOff f % 4 = 0 →
    n = frameByte f 3 + 1 → n ≤ 64 → frameOff f + 4 * n ≤ 0x10000 →
    (∀ i, i < n → s.readReg .mgmt (frameOff f + 4 * i) = some (v i, s)) →
    ∃ t b body, exec (.mgmtRead f) s = .next t ∧ body = (List.range n).flatMap (fun i => bytesBE 4 (v i).toNat) ++ [b] ∧
      t.out = s.out ++ [.mgmtFrame (body ++ bytesBE 1 (mgmtChk body))] ∧ b = (if fld s.mgmtStatus 15 0 = 0 then 0 else 0x40) ∧
      Frame [.out] s t) ∧
  (∀ (f : List Byte) (s : State), s.mgmtOn = true → frameByte f 0 = 0x03 → 4 ≤ f.length → frameOff f % 4 = 0 →
    frameByte f 3 = 0 → s.readReg .mgmt (frameOff f) = none →
    ∃ t b, exec (.mgmtRead f) s = .next t ∧ t.out = s.out ++ [.mgmtFrame ([0, 0, 0, 0] ++ [0xC0, b])] ∧
      t.mgmtStatus = (s.logErr .mgmt 10 (frameOff f)).mgmtStatus ∧ (∀ k, t.reg k = s.reg k) ∧ Frame [.regs, .mgmtStatus, .out] s t) ∧
  (∀ (f : List Byte) (s : State), s.mgmtOn = true → frameByte f 0 = 0x05 → f ≠ [] →
    ∃ t, exec (.mgmtStatus f) s = .next t ∧
      t.out = s.out ++ [.mgmtFrame (bytesBE 4 s.mgmtStatus.toNat ++ bytesBE 1 (mgmtChk (bytesBE 4 s.mgmtStatus.toNat)))] ∧ Frame [.out] s t) ∧
  (∀ (f : List Byte) (s : State), s.mgmtOn = true → frameByte f 0 = 0x06 → 2 ≤ f.length → chkOk (f.take 2) = true →
    smGet 0 s.regs.ltNow mgmtKey = 0 → exec (.statusClear f) s = .next { s with mgmtStatus := 0 }) ∧
  (∀ (f : List Byte) (s : State), s.mgmtOn = true → frameByte f 0 = 0x06 → 2 ≤ f.length → chkOk (f.take 2) = true →
    smGet 0 s.regs.ltNow mgmtKey ≠ 0 → exec (.statusClear f) s = .next s) ∧
  (∀ (f : List Byte) (s : State), s.mgmtOn = true → frameByte f 0 = 0x06 → 2 ≤ f.length → chkOk (f.take 2) = false →
    ∃ t, exec (.statusClear f) s = .next t ∧ fld t.mgmtStatus 31 24 = 8 ∧
      fld t.mgmtStatus 15 0 = incSat 65535 (fld s.mgmtStatus 15 0) ∧ (∀ k, t.reg k = s.reg k) ∧ Frame [.regs, .mgmtStatus] s t) ∧
  (∀ (f : List Byte) (s : State), s.mgmtOn = true → f ≠ [] → frameByte f 0 ∉ [0x02, 0x03, 0x05, 0x06] →
    ∃ t, exec (.mgmtUnknownCommand f) s = .next t ∧ fld t.mgmtStatus 31 24 = 9 ∧
      fld t.mgmtStatus 15 0 = incSat 65535 (fld s.mgmtStatus 15 0) ∧ smGet 0 t.regs.ltNow mgmtKey ≠ 0 ∧ (∀ k, t.reg k = s.reg k) ∧
      Frame [.regs, .mgmtStatus] s t)

/-- A read of an alias offset is the read of the register at the normal offset, with the same side effects, and an alias of an
unimplemented location is itself unimplemented, for a read and for a write (R454). -/
def Obligations.AliasReads : Prop :=
  ∀ (r : Requester) (off : Nat) (w : Word) (ns : Nat) (s : State), off < 0x10000 →
    s.readReg r off = s.readReg r (off % 0x4000) ∧
    (implemented (off % 0x4000) = false → s.readReg r off = none ∧ s.regWrite r off w ns = s.logErr r 2 off)

/-- TOTAL_LO_READ, TRK_BIN_READ and DBG_ACCESS: a read of the low word of a total or tally loads the requester's own shadows of its other
words from the same instant; a read of a Bin record gives the selected record's word, or 0 with kind 6 when it is not in the Bin;
DBG_ACCESS reads and writes as the management port while JTAG_EN is set, and does neither while it is clear (R335, R433, R462, R482,
R484). -/
def Obligations.ReadsWithEffects : Prop :=
  (∀ (r : Requester) (q : Nat) (s : State), s.serves r = true → s.domain 45 = true → q < 6 →
    ∃ t, exec (.totalLoRead r (R.MTR_TOTAL_LO q)) s = .next t ∧
      t.out = s.out ++ [.readData r (R.MTR_TOTAL_LO q) (BitVec.ofNat 32 (smGet 0 s.mtr.totals q / 2 ^ 72))] ∧
      t.reg (ownKey r (R.MTR_TOTAL_HI q)) = BitVec.ofNat 32 (smGet 0 s.mtr.totals q / 2 ^ 104) ∧
      t.reg (ownKey r (R.MTR_FRAC q)) = BitVec.ofNat 32 (smGet 0 s.mtr.totals q / 2 ^ 40) ∧
      RegsBut [ownKey r (R.MTR_TOTAL_HI q), ownKey r (R.MTR_FRAC q)] s t ∧ Frame [.regs, .out] s t) ∧
  (∀ (r : Requester) (y q : Nat) (s : State), s.serves r = true → y < 3 → q < 6 →
    ∃ t, exec (.totalLoRead r (wideOff y q 0)) s = .next t ∧ t.out = s.out ++ [.readData r (wideOff y q 0) (s.tallyWord y q 0)] ∧
      (∀ w, 1 ≤ w → w ≤ 3 → t.reg (ownKey r (wideOff y q w)) = s.tallyWord y q w) ∧
      RegsBut [ownKey r (wideOff y q 1), ownKey r (wideOff y q 2), ownKey r (wideOff y q 3)] s t ∧ Frame [.regs, .out] s t) ∧
  (∀ (r : Requester) (w : Nat) (s : State), s.serves r = true → w < 16 →
    ∃ t, exec (.trkBinRead r w) s = .next t ∧
      (∀ ws, smFind s.trk.bin (s.reg (ownKey r R.TRK_BIN_SEL)).toNat = some ws →
        t.out = s.out ++ [.readData r (R.TRK_BIN_DATA w) (BitVec.ofNat 32 (ws.getD (w / 2) 0 / 2 ^ (32 * (w % 2))))] ∧ Frame [.out] s t) ∧
      (smFind s.trk.bin (s.reg (ownKey r R.TRK_BIN_SEL)).toNat = none →
        t = (s.logErr r 6 (R.TRK_BIN_DATA w)).emit (.readData r (R.TRK_BIN_DATA w) 0))) ∧
  (∀ (wr : Bool) (off : Nat) (w : Word) (ns : Nat) (s : State), off < 0x10000 → s.rb R.DBG_CTRL 30 = false →
    ∃ t, exec (.dbgAccess wr off w ns) s = .next t ∧ t.dbg = { s.dbg with instr := 0x20, capture := 0 } ∧ Frame [.dbg] s t) ∧
  (∀ (off : Nat) (w : Word) (ns : Nat) (s : State), off < 0x10000 → s.rb R.DBG_CTRL 30 = true →
    ∃ t, exec (.dbgAccess true off w ns) s = .next t ∧
      t = { (s.tapLoad 0x20).regWrite .mgmt off w ns with
        dbg := { ((s.tapLoad 0x20).regWrite .mgmt off w ns).dbg with capture := dbgCapture off 0 } }) ∧
  (∀ (off : Nat) (w : Word) (ns : Nat) (x : Word × State) (s : State), off < 0x10000 → s.rb R.DBG_CTRL 30 = true →
    (s.tapLoad 0x20).readReg .mgmt off = some x →
    ∃ t, exec (.dbgAccess false off w ns) s = .next t ∧ t.dbg = { x.2.dbg with capture := dbgCapture off x.1 } ∧ Frame [.dbg] x.2 t)

/-- TAP_RESET, IDCODE, SAMPLE_PRELOAD, TAP_BYPASS, EXTEST, HIGHZ and CLAMP: each loads its instruction; SAMPLE_PRELOAD and EXTEST capture
the level of every pin that has a cell, and the boundary register takes what a scan shifts in; EXTEST, HIGHZ and CLAMP are accepted only in
OFF with the Start Sequencer HELD or FAILED, and otherwise BYPASS is loaded and TAP_REFUSED set; EXTEST and CLAMP drive the pins that have a
driving cell from the boundary register, HIGHZ releases them, an observe-only pin keeps its function, and every other instruction leaves each
pin at its function; the identity register reads STEP, 0x4096, 0x5B3 and 1 (R481, R482, R483, R487; the instruction after a reset and the
bits of the identity register: log entry 31; the cells, their order and the observe-only cells of the port's own pins: log entry 38). -/
def Obligations.TestAccessPort : Prop :=
  (Pin.all.length = 99 ∧ Pin.all.Nodup ∧ ∀ p : Pin, p ∈ Pin.all) ∧
  (∀ s : State, ∃ t, exec .tapReset s = .next t ∧ t.dbg = { s.dbg with instr := 0x01 } ∧ (∀ p, t.pinDrive p = s.pinFunction p) ∧
    Frame [.dbg] s t) ∧
  (∀ s : State, ∃ t, exec .idcode s = .next t ∧ t.dbg = { s.dbg with instr := 0x01 } ∧ (∀ p, t.pinDrive p = s.pinFunction p) ∧
    Frame [.dbg] s t) ∧
  (∀ s : State, ∃ t, exec .tapBypass s = .next t ∧ t.dbg = { s.dbg with instr := 0xFF } ∧ (∀ p, t.pinDrive p = s.pinFunction p) ∧
    Frame [.dbg] s t) ∧
  (∀ (cells : List Bool) (s : State), ∃ t, exec (.samplePreload cells) s = .next t ∧ t.dbg.instr = 0x02 ∧
      t.dbg.captured = Pin.all.map (s.tapLoad 0x02).pinLevel ∧ (cells = [] → t.dbg.boundary = s.dbg.boundary) ∧
      (cells ≠ [] → t.dbg.boundary = (cells ++ t.dbg.captured).take 99) ∧ (∀ p, t.pinDrive p = s.pinFunction p) ∧
      Frame [.dbg, .freeCount] s t) ∧
  (∀ (c : Instr) (code : Nat) (cells : List Bool) (s : State), (c, code) ∈ [(.extest cells, 0x00), (.highz, 0x05), (.clamp, 0x06)] →
    s.sys.conv = .off → (s.start.state = .held ∨ s.start.state = .failed) →
    ∃ t, exec c s = .next t ∧ t.dbg.instr = code ∧ t.tapTest = true ∧
      (code ≠ 0x00 ∨ cells = [] → t.dbg.boundary = s.dbg.boundary) ∧
      (code = 0x00 → t.dbg.captured = Pin.all.map (s.tapLoad 0x00).pinLevel ∧
        (cells ≠ [] → t.dbg.boundary = (cells ++ t.dbg.captured).take 99)) ∧
      (∀ p, t.pinDrive p = (match p.kind with
        | .observe => s.pinFunction p
        | .input => .released
        | .output => if code = 0x05 then .released else if t.cellLevel p then .high else .low
        | .openDrain => if code = 0x05 ∨ t.cellLevel p = true then .released else .low)) ∧
      Frame [.dbg, .freeCount] s t) ∧
  (∀ (c : Instr) (cells : List Bool) (s : State), c ∈ [.extest cells, .highz, .clamp] →
    (s.sys.conv ≠ .off ∨ (s.start.state ≠ .held ∧ s.start.state ≠ .failed)) →
    ∃ t, exec c s = .next t ∧ t.dbg = { s.dbg with instr := 0xFF } ∧
      t.tapTest = false ∧ t.rb R.DBG_CAUSE 1 = true ∧ (∀ p, t.pinDrive p = t.pinFunction p) ∧ RegsBut [R.DBG_CAUSE] s t ∧ Frame [.regs, .dbg] s t) ∧
  (∀ s : State, fld s.tapId 27 12 = 0x4096 ∧ fld s.tapId 11 1 = 0x5B3 ∧ fld s.tapId 0 0 = 1 ∧ fld s.tapId 31 28 = s.rf R.SYS_ID 3 0)

/-- HALT, RESUME and STEP by a requester that may write DBG_HALT: with EN = 1, HALT fires the block logic at once and marks the named
targets to halt from the next boundary, RESUME marks them to run again, STEP marks one pass of each, and TARGET keeps the value written;
with EN = 0 each is logged with kind 5 (R485, R490). DBG_CAP_ARM from a state that accepts it waits for admission with the configuration
in force, one in a capture in progress is refused and the capture goes on, and DBG_CAP_ABORT ends a capture in progress and keeps its
entries (R410, R485, R486, R487, R490; of a HALT and a RESUME of one target in one epoch the later holds: log entry 38; STATE shows the refusal
until it changes: log entry 45). -/
def Obligations.DebugFunction : Prop :=
  (∀ (r : Requester) (x ns : Nat) (s : State), x < 1024 → s.mayWrite r R.DBG_HALT = true → s.rb R.DBG_CTRL 31 = true →
    ∃ t, exec (.halt r x ns) s = .next t ∧ t.dbg.haltNext = s.dbg.haltNext ||| x ∧ t.dbg.halted = s.dbg.halted ∧
      t.dbg.resumeNext = s.dbg.resumeNext &&& (1023 - x) ∧ t.rf R.DBG_HALT 9 0 = x ∧ t.prt.firedNow = true ∧
      t.lnk.blocks = s.lnk.blocks + 1 ∧ Frame [.regs, .lnk, .prt, .dbg] s t) ∧
  (∀ (r : Requester) (x : Nat) (s : State), x < 1024 → s.mayWrite r R.DBG_HALT = true → s.rb R.DBG_CTRL 31 = true →
    ∃ t, exec (.resume r x) s = .next t ∧ t.dbg = { s.dbg with
        resumeNext := s.dbg.resumeNext ||| x, haltNext := s.dbg.haltNext &&& (1023 - x) } ∧
      t.rf R.DBG_HALT 9 0 = x ∧ RegsBut [R.DBG_HALT] s t ∧ Frame [.regs, .dbg] s t) ∧
  (∀ (r : Requester) (x : Nat) (s : State), x < 1024 → s.mayWrite r R.DBG_HALT = true → s.rb R.DBG_CTRL 31 = true →
    ∃ t, exec (.stepEngine r x) s = .next t ∧ t.dbg = { s.dbg with stepNext := s.dbg.stepNext ||| x } ∧
      t.rf R.DBG_HALT 9 0 = x ∧ RegsBut [R.DBG_HALT] s t ∧ Frame [.regs, .dbg] s t) ∧
  (∀ (r : Requester) (x ns : Nat) (c : Instr) (s : State), s.mayWrite r R.DBG_HALT = true → s.rb R.DBG_CTRL 31 = false →
    c ∈ [.halt r x ns, .resume r x, .stepEngine r x] →
    ∃ t, exec c s = .next t ∧ t.dbg = s.dbg ∧ (r = .mgmt → fld t.mgmtStatus 31 24 = 5) ∧
      (∀ h, r = .hatch h → t.rf (bankKey h.val R.HAT_ERR_LOG) 23 16 = 5) ∧ Frame [.regs, .mgmtStatus, .hats, .out] s t) ∧
  (∀ (r : Requester) (s : State), s.mayWrite r R.DBG_CAP_CTRL = true → s.dbg.cap.state ∈ [.idle, .done, .aborted, .revoked] →
    ∃ t, exec (.dbgCapArm r) s = .next t ∧ t.dbg.cap = { state := .wait, cfg := s.reg R.DBG_CAP_CFG, pre := s.rf R.DBG_CAP_CTRL 12 0 } ∧
      OptItem.debugCapture ∈ t.pwr.waiting ∧ t.pwr.admitted = s.pwr.admitted ∧ RegsBut [R.DBG_CAP_CTRL] s t ∧
      Frame [.regs, .pwr, .dbg] s t) ∧
  (∀ (r : Requester) (s : State), s.mayWrite r R.DBG_CAP_CTRL = true → s.dbg.cap.state ∈ [.wait, .armed, .triggered] →
    ∃ t, exec (.dbgCapArm r) s = .next t ∧ t.dbg = { s.dbg with cap := { s.dbg.cap with refused := true } } ∧
      fld t.dbgCapStat 31 29 = 7 ∧ RegsBut [R.DBG_CAP_CTRL] s t ∧ Frame [.regs, .dbg] s t) ∧
  (∀ (r : Requester) (s : State), s.mayWrite r R.DBG_CAP_CTRL = true → s.dbg.cap.state ∈ [.wait, .armed, .triggered] →
    ∃ t, exec (.dbgCapAbort r) s = .next t ∧ t.dbg.cap = { s.dbg.cap with state := .aborted, refused := false } ∧
      t.rb R.DBG_CAUSE 2 = true ∧ RegsBut [R.DBG_CAP_CTRL, R.DBG_CAUSE] s t ∧ Frame [.regs, .pwr, .dbg] s t)

/-- Every step takes one command from the front of the queue and leaves the rest of the queue as it was, and a queue of well-formed
commands stays one (the queue is the model's own: log entry 1). -/
def Obligations.QueueAdvances : Prop :=
  ∀ s t : State, step s = .next t → t.pending = s.pending.tail ∧ (QueueWf s → QueueWf t)

/-- Every command completes: in every state exec answers a next state, never a fault or a refusal (what a command does when its condition
does not hold is the model's reading: log entry 3). -/
def Obligations.EveryCommandCompletes : Prop := ∀ (c : Instr) (s : State), ∃ t, exec c s = .next t

/-- Only the boundary, the charge conditions, the start of RUN, a recovery, the deliberate reset, the first lock and the state orders may
change the converter's state, and a loss of supply or PORST_N, and a RESTART that waited for its step, which leave it in OFF: no pass, no
register write, no frame, no Crate and no other order does; DEBLOCK does so only at a boundary at which RUN starts (R31, R32, R33, R34,
R310, R382, R476). -/
def Obligations.ConverterMovers : Prop :=
  ∀ (c : Instr) (s t : State), exec c s = .next t → t.sys.conv ≠ s.sys.conv →
    (∃ b, c = .epochBoundary b) ∨ c = .chargeComplete ∨ c = .chargeConditionsLost ∨ c = .runStart ∨ c = .recoveryComplete ∨
    (∃ r k, c = .resetGo r k) ∨ (∃ ws b k, c = .lockDeclared ws b k) ∨ (∃ r, c = .energise r ∨ c = .block r ∨ c = .deenergise r) ∨ (∃ r, c = .deblock r) ∧ s.runDue = true ∧ t.sys.conv = .run ∨
    (c = .lossOfVaon ∨ c = .porstNAssert ∨ s.start.restartWanted ≠ none) ∧ t.sys.conv = .off

/-- An action of a WA field from a Hatch that may not write its register is logged with kind 4 and has no other effect (R394, R399, R490).
-/
def Obligations.ActionsNeedOwnership : Prop :=
  ∀ (r : Requester) (c : Instr) (off g k x y : Nat) (w : Word) (s : State), g < 4 → k < 3 →
    (c, off) ∈ [(.mfeTestStart r x y, R.MFE_TEST), (.encReref r k w, R.MFE_ENC_REREF k), (.bridgeVerify r x, R.LNK_ACTION),
      (.clearQuarantine r x, R.LNK_ACTION), (.clearCounters r x, R.LNK_ACTION), (.clearLost r x, R.LNK_ACTION),
      (.retrim r x, R.LNK_ACTION), (.handbackGo r x, R.LNK_HANDBACK), (.celCtrClear r, R.CEL_CTR_CLEAR), (.toGfm r, R.GRD_ACTION),
      (.toGfl r, R.GRD_ACTION), (.cancel r, R.GRD_ACTION), (.clearIsland r, R.GRD_ACTION), (.clearFrt r, R.GRD_ACTION),
      (.rcClear r x, R.CTL_ACTION), (.clearCheckCounts r, R.CTL_ACTION), (.genStart r g, R.CTL_GEN_CTRL g),
      (.genStop r g, R.CTL_GEN_CTRL g), (.capArm r, R.CTL_CAP_CTRL), (.capAbort r, R.CTL_CAP_CTRL), (.forceSet r x y, R.EDG_FORCE),
      (.forceRelease r x, R.EDG_FORCE), (.forceReleaseAll r, R.EDG_FORCE), (.bypassGo r x, R.EDG_BYPASS),
      (.merge r x y, R.MTR_ACTION), (.discard r x y, R.MTR_ACTION), (.sealMeter r x, R.MTR_SEAL), (.unsealMeter r x, R.MTR_SEAL),
      (.halt r x y, R.DBG_HALT), (.resume r x, R.DBG_HALT), (.stepEngine r x, R.DBG_HALT), (.dbgCapArm r, R.DBG_CAP_CTRL),
      (.dbgCapAbort r, R.DBG_CAP_CTRL)] →
    s.mayWrite r off = false → exec c s = .next (s.logErr r 4 off)
end

