-- ==== Sys2Proof/Laws/Bits.lean ====
section
/-! SUPPORT. The laws of bit fields: what a field reads after it, or another field, is written. -/

namespace Sys2Proof.Machine

theorem maskOf_getLsbD (hi lo i : Nat) (h : hi < 32) :
    (maskOf hi lo).getLsbD i = (decide (lo ≤ i ∧ i ≤ hi)) := by
  unfold maskOf
  simp only [BitVec.getLsbD_ofNat]
  rw [Nat.mul_comm, Nat.testBit_two_pow_mul]
  by_cases h1 : lo ≤ i
  · simp only [h1, decide_true, Bool.true_and, true_and, Nat.testBit_two_pow_sub_one]
    by_cases h2 : i ≤ hi
    · have : i < 32 := by omega
      have : i - lo < hi + 1 - lo := by omega
      simp [*]
    · have : ¬ (i - lo < hi + 1 - lo) := by omega
      simp [*]
  · simp [h1]

/-- A bit of a word after a field is written. -/
theorem setFld_getLsbD (w : Word) (hi lo v i : Nat) (h : hi < 32) :
    (setFld w hi lo v).getLsbD i = if lo ≤ i ∧ i ≤ hi then v.testBit (i - lo) else w.getLsbD i := by
  unfold setFld
  simp only [BitVec.getLsbD_or, BitVec.getLsbD_and, BitVec.getLsbD_not, maskOf_getLsbD hi lo i h, BitVec.getLsbD_ofNat]
  rw [Nat.mul_comm, Nat.testBit_two_pow_mul]
  by_cases h1 : lo ≤ i ∧ i ≤ hi
  · have : i < 32 := by omega
    simp [h1, this]
  · simp only [h1, decide_false, Bool.not_false, Bool.and_true, Bool.and_false, Bool.or_false, if_false]
    by_cases h2 : i < 32
    · simp [h2]
    · simp [BitVec.getLsbD_of_ge w i (by omega)]

/-- A bit of a field is a bit of the word. -/
theorem fld_testBit (w : Word) (hi lo i : Nat) : (fld w hi lo).testBit i = (decide (i < hi + 1 - lo) && w.getLsbD (lo + i)) := by
  unfold fld bits
  rw [Nat.testBit_mod_two_pow, Nat.testBit_div_two_pow, Nat.add_comm i lo]
  rfl

/-- A field reads what was written to it, modulo its size. -/
@[simp] theorem fld_setFld_same (w : Word) (hi lo v : Nat) (h : hi < 32) : fld (setFld w hi lo v) hi lo = v % 2 ^ (hi + 1 - lo) := by
  apply Nat.eq_of_testBit_eq
  intro i
  rw [fld_testBit, setFld_getLsbD _ _ _ _ _ h, Nat.testBit_mod_two_pow]
  by_cases hi' : i < hi + 1 - lo
  · have h1 : lo ≤ lo + i ∧ lo + i ≤ hi := by omega
    simp [hi', h1]
  · simp [hi']

/-- A field keeps its value when a disjoint field is written. -/
theorem fld_setFld_ne (w : Word) (hi lo v hi' lo' : Nat) (h : hi < 32) (d : hi < lo' ∨ hi' < lo) :
    fld (setFld w hi lo v) hi' lo' = fld w hi' lo' := by
  apply Nat.eq_of_testBit_eq
  intro i
  rw [fld_testBit, fld_testBit, setFld_getLsbD _ _ _ _ _ h]
  by_cases hi'' : i < hi' + 1 - lo'
  · have h1 : ¬ (lo ≤ lo' + i ∧ lo' + i ≤ hi) := by omega
    simp [h1]
  · simp [hi'']

/-- A bit reads what was written to it. -/
theorem flag_setFld_same (w : Word) (b v : Nat) (h : b < 32) : flag (setFld w b b v) b = v.testBit 0 := by
  unfold flag; rw [setFld_getLsbD _ _ _ _ _ h]; simp

/-- A bit outside a field keeps its value when the field is written. -/
theorem flag_setFld_ne (w : Word) (hi lo v b : Nat) (h : hi < 32) (d : b < lo ∨ hi < b) : flag (setFld w hi lo v) b = flag w b := by
  unfold flag; rw [setFld_getLsbD _ _ _ _ _ h]
  have : ¬ (lo ≤ b ∧ b ≤ hi) := by omega
  simp [this]

end Sys2Proof.Machine
end

