-- ==== Sys2Proof/Laws/Frame.lean ====
section
/-! SUPPORT. The relation Frame: it is reflexive, symmetric and transitive, an update of one part stays within that part, and a choice or a fold of
changes stays within the parts of each. -/

set_option linter.all false
set_option Elab.async false

namespace Sys2Proof.Machine

@[simp] theorem Frame.refl {W : List Part} (s : State) : Frame W s s := fun p _ => by cases p <;> rfl

theorem Frame.trans {W : List Part} {r s t : State} (h : Frame W r s) (k : Frame W s t) : Frame W r t := fun p hp => by
  have a := h p hp; have b := k p hp; cases p <;> exact Eq.trans b a

theorem Frame.symm {W : List Part} {s t : State} (h : Frame W s t) : Frame W t s := fun p hp => by
  have a := h p hp; cases p <;> exact Eq.symm a

theorem Frame.mono {V W : List Part} {s t : State} (h : Frame V s t) (hv : V ⊆ W) : Frame W s t := fun p hp => h p (fun hm => hp (hv hm))

theorem Frame.iff_of {V W : List Part} {r s t : State} (key : Frame V s t) (hv : V ⊆ W) : Frame W r t ↔ Frame W r s :=
  ⟨fun h => h.trans (key.mono hv).symm, fun h => h.trans (key.mono hv)⟩

@[simp] theorem Frame.ite {W : List Part} {s a b : State} {c : Prop} [Decidable c] : Frame W s (if c then a else b)
    ↔ if c then Frame W s a else Frame W s b := by split <;> rfl

@[simp] theorem Frame.foldl {W : List Part} {A : Type} {f : State → A → State} {l : List A} {r s : State} (hf : ∀ s a, Frame W s (f s a))
    : Frame W r (l.foldl f s) ↔ Frame W r s := by
  induction l generalizing s with
  | nil => rfl
  | cons a l ih => rw [List.foldl_cons, ih]; exact Frame.iff_of (hf s a) (List.Subset.refl _)

@[simp] theorem Frame.set_regs {W : List Part} {r s : State} (v : _) (hW : .regs ∈ W) : Frame W r { s with regs := v }
    ↔ Frame W r s := Frame.iff_of (V := W) (fun q hq => by cases q <;> first | rfl | exact absurd hW hq) (List.Subset.refl _)

@[simp] theorem Frame.set_sys {W : List Part} {r s : State} (v : _) (hW : .sys ∈ W) : Frame W r { s with sys := v }
    ↔ Frame W r s := Frame.iff_of (V := W) (fun q hq => by cases q <;> first | rfl | exact absurd hW hq) (List.Subset.refl _)

@[simp] theorem Frame.set_mgmtStatus {W : List Part} {r s : State} (v : _) (hW : .mgmtStatus ∈ W) : Frame W r { s with mgmtStatus := v }
    ↔ Frame W r s := Frame.iff_of (V := W) (fun q hq => by cases q <;> first | rfl | exact absurd hW hq) (List.Subset.refl _)

@[simp] theorem Frame.set_mfe {W : List Part} {r s : State} (v : _) (hW : .mfe ∈ W) : Frame W r { s with mfe := v }
    ↔ Frame W r s := Frame.iff_of (V := W) (fun q hq => by cases q <;> first | rfl | exact absurd hW hq) (List.Subset.refl _)

@[simp] theorem Frame.set_lnk {W : List Part} {r s : State} (v : _) (hW : .lnk ∈ W) : Frame W r { s with lnk := v }
    ↔ Frame W r s := Frame.iff_of (V := W) (fun q hq => by cases q <;> first | rfl | exact absurd hW hq) (List.Subset.refl _)

@[simp] theorem Frame.set_cel {W : List Part} {r s : State} (v : _) (hW : .cel ∈ W) : Frame W r { s with cel := v }
    ↔ Frame W r s := Frame.iff_of (V := W) (fun q hq => by cases q <;> first | rfl | exact absurd hW hq) (List.Subset.refl _)

@[simp] theorem Frame.set_ctl {W : List Part} {r s : State} (v : _) (hW : .ctl ∈ W) : Frame W r { s with ctl := v }
    ↔ Frame W r s := Frame.iff_of (V := W) (fun q hq => by cases q <;> first | rfl | exact absurd hW hq) (List.Subset.refl _)

@[simp] theorem Frame.set_grd {W : List Part} {r s : State} (v : _) (hW : .grd ∈ W) : Frame W r { s with grd := v }
    ↔ Frame W r s := Frame.iff_of (V := W) (fun q hq => by cases q <;> first | rfl | exact absurd hW hq) (List.Subset.refl _)

@[simp] theorem Frame.set_edg {W : List Part} {r s : State} (v : _) (hW : .edg ∈ W) : Frame W r { s with edg := v }
    ↔ Frame W r s := Frame.iff_of (V := W) (fun q hq => by cases q <;> first | rfl | exact absurd hW hq) (List.Subset.refl _)

@[simp] theorem Frame.set_prt {W : List Part} {r s : State} (v : _) (hW : .prt ∈ W) : Frame W r { s with prt := v }
    ↔ Frame W r s := Frame.iff_of (V := W) (fun q hq => by cases q <;> first | rfl | exact absurd hW hq) (List.Subset.refl _)

@[simp] theorem Frame.set_mtr {W : List Part} {r s : State} (v : _) (hW : .mtr ∈ W) : Frame W r { s with mtr := v }
    ↔ Frame W r s := Frame.iff_of (V := W) (fun q hq => by cases q <;> first | rfl | exact absurd hW hq) (List.Subset.refl _)

@[simp] theorem Frame.set_saf {W : List Part} {r s : State} (v : _) (hW : .saf ∈ W) : Frame W r { s with saf := v }
    ↔ Frame W r s := Frame.iff_of (V := W) (fun q hq => by cases q <;> first | rfl | exact absurd hW hq) (List.Subset.refl _)

@[simp] theorem Frame.set_hats {W : List Part} {r s : State} (v : _) (hW : .hats ∈ W) : Frame W r { s with hats := v }
    ↔ Frame W r s := Frame.iff_of (V := W) (fun q hq => by cases q <;> first | rfl | exact absurd hW hq) (List.Subset.refl _)

@[simp] theorem Frame.set_pwr {W : List Part} {r s : State} (v : _) (hW : .pwr ∈ W) : Frame W r { s with pwr := v }
    ↔ Frame W r s := Frame.iff_of (V := W) (fun q hq => by cases q <;> first | rfl | exact absurd hW hq) (List.Subset.refl _)

@[simp] theorem Frame.set_ref {W : List Part} {r s : State} (v : _) (hW : .ref ∈ W) : Frame W r { s with ref := v }
    ↔ Frame W r s := Frame.iff_of (V := W) (fun q hq => by cases q <;> first | rfl | exact absurd hW hq) (List.Subset.refl _)

@[simp] theorem Frame.set_start {W : List Part} {r s : State} (v : _) (hW : .start ∈ W) : Frame W r { s with start := v }
    ↔ Frame W r s := Frame.iff_of (V := W) (fun q hq => by cases q <;> first | rfl | exact absurd hW hq) (List.Subset.refl _)

@[simp] theorem Frame.set_trk {W : List Part} {r s : State} (v : _) (hW : .trk ∈ W) : Frame W r { s with trk := v }
    ↔ Frame W r s := Frame.iff_of (V := W) (fun q hq => by cases q <;> first | rfl | exact absurd hW hq) (List.Subset.refl _)

@[simp] theorem Frame.set_dbg {W : List Part} {r s : State} (v : _) (hW : .dbg ∈ W) : Frame W r { s with dbg := v }
    ↔ Frame W r s := Frame.iff_of (V := W) (fun q hq => by cases q <;> first | rfl | exact absurd hW hq) (List.Subset.refl _)

@[simp] theorem Frame.set_out {W : List Part} {r s : State} (v : _) (hW : .out ∈ W) : Frame W r { s with out := v }
    ↔ Frame W r s := Frame.iff_of (V := W) (fun q hq => by cases q <;> first | rfl | exact absurd hW hq) (List.Subset.refl _)

@[simp] theorem Frame.set_freeCount {W : List Part} {r s : State} (v : _) (hW : .freeCount ∈ W) : Frame W r { s with freeCount := v }
    ↔ Frame W r s := Frame.iff_of (V := W) (fun q hq => by cases q <;> first | rfl | exact absurd hW hq) (List.Subset.refl _)

@[simp] theorem Frame.set_pending {W : List Part} {r s : State} (v : _) (hW : .pending ∈ W) : Frame W r { s with pending := v }
    ↔ Frame W r s := Frame.iff_of (V := W) (fun q hq => by cases q <;> first | rfl | exact absurd hW hq) (List.Subset.refl _)

@[simp] theorem Frame.set_ctl_dbg {W : List Part} {r s : State} (v0 : _) (v1 : _) (h0 : .ctl ∈ W) (h1 : .dbg ∈ W)
    : Frame W r { s with ctl := v0, dbg := v1 } ↔ Frame W r s := Frame.iff_of (V := W)
    (fun q hq => by cases q <;> first | rfl | exact absurd h0 hq | exact absurd h1 hq) (List.Subset.refl _)

@[simp] theorem Frame.set_ctl_pwr {W : List Part} {r s : State} (v0 : _) (v1 : _) (h0 : .ctl ∈ W) (h1 : .pwr ∈ W)
    : Frame W r { s with ctl := v0, pwr := v1 } ↔ Frame W r s := Frame.iff_of (V := W)
    (fun q hq => by cases q <;> first | rfl | exact absurd h0 hq | exact absurd h1 hq) (List.Subset.refl _)

@[simp] theorem Frame.set_ctl_pwr_dbg {W : List Part} {r s : State} (v0 : _) (v1 : _) (v2 : _) (h0 : .ctl ∈ W) (h1 : .pwr ∈ W) (h2 : .dbg ∈ W)
    : Frame W r { s with ctl := v0, pwr := v1, dbg := v2 } ↔ Frame W r s := Frame.iff_of (V := W)
    (fun q hq => by cases q <;> first | rfl | exact absurd h0 hq | exact absurd h1 hq | exact absurd h2 hq) (List.Subset.refl _)

@[simp] theorem Frame.set_lnk_prt {W : List Part} {r s : State} (v0 : _) (v1 : _) (h0 : .lnk ∈ W) (h1 : .prt ∈ W)
    : Frame W r { s with lnk := v0, prt := v1 } ↔ Frame W r s := Frame.iff_of (V := W)
    (fun q hq => by cases q <;> first | rfl | exact absurd h0 hq | exact absurd h1 hq) (List.Subset.refl _)

@[simp] theorem Frame.set_pwr_dbg {W : List Part} {r s : State} (v0 : _) (v1 : _) (h0 : .pwr ∈ W) (h1 : .dbg ∈ W)
    : Frame W r { s with pwr := v0, dbg := v1 } ↔ Frame W r s := Frame.iff_of (V := W)
    (fun q hq => by cases q <;> first | rfl | exact absurd h0 hq | exact absurd h1 hq) (List.Subset.refl _)

@[simp] theorem Frame.set_sys_ctl {W : List Part} {r s : State} (v0 : _) (v1 : _) (h0 : .sys ∈ W) (h1 : .ctl ∈ W)
    : Frame W r { s with sys := v0, ctl := v1 } ↔ Frame W r s := Frame.iff_of (V := W)
    (fun q hq => by cases q <;> first | rfl | exact absurd h0 hq | exact absurd h1 hq) (List.Subset.refl _)

@[simp] theorem Frame.set_lnk_cel {W : List Part} {r s : State} (v0 : _) (v1 : _) (h0 : .lnk ∈ W) (h1 : .cel ∈ W)
    : Frame W r { s with lnk := v0, cel := v1 } ↔ Frame W r s := Frame.iff_of (V := W)
    (fun q hq => by cases q <;> first | rfl | exact absurd h0 hq | exact absurd h1 hq) (List.Subset.refl _)

@[simp] theorem Frame.set_ref_freeCount {W : List Part} {r s : State} (v0 : _) (v1 : _) (h0 : .ref ∈ W) (h1 : .freeCount ∈ W)
    : Frame W r { s with ref := v0, freeCount := v1 } ↔ Frame W r s := Frame.iff_of (V := W)
    (fun q hq => by cases q <;> first | rfl | exact absurd h0 hq | exact absurd h1 hq) (List.Subset.refl _)

@[simp] theorem Frame.set_dbg_freeCount {W : List Part} {r s : State} (v0 : _) (v1 : _) (h0 : .dbg ∈ W) (h1 : .freeCount ∈ W)
    : Frame W r { s with dbg := v0, freeCount := v1 } ↔ Frame W r s := Frame.iff_of (V := W)
    (fun q hq => by cases q <;> first | rfl | exact absurd h0 hq | exact absurd h1 hq) (List.Subset.refl _)

@[simp] theorem Frame.set_regs_sys {W : List Part} {r s : State} (v0 : _) (v1 : _) (h0 : .regs ∈ W) (h1 : .sys ∈ W)
    : Frame W r { s with regs := v0, sys := v1 } ↔ Frame W r s := Frame.iff_of (V := W)
    (fun q hq => by cases q <;> first | rfl | exact absurd h0 hq | exact absurd h1 hq) (List.Subset.refl _)

theorem Frame.foldl_fst {W : List Part} {A B : Type} {f : State × B → A → State × B} {l : List A} {r : State} {x : State × B} (hf
    : ∀ x a, Frame W x.1 (f x a).1) : Frame W r (l.foldl f x).1 ↔ Frame W r x.1 := by
  induction l generalizing x with
  | nil => rfl
  | cons a l ih => rw [List.foldl_cons, ih]; exact Frame.iff_of (hf x a) (List.Subset.refl _)

theorem Frame.foldl_snd {W : List Part} {A B C : Type} {f : B × C × State → A → B × C × State} {l : List A} {r : State} {x : B × C × State} (hf
    : ∀ x a, Frame W x.2.2 (f x a).2.2) : Frame W r (l.foldl f x).2.2 ↔ Frame W r x.2.2 := by
  induction l generalizing x with
  | nil => rfl
  | cons a l ih => rw [List.foldl_cons, ih]; exact Frame.iff_of (hf x a) (List.Subset.refl _)

/-- A successor state built from scratch keeps the queue. -/
theorem Frame.of_rest {s t : State} (h : t.pending = s.pending) : Frame [.regs, .sys, .mgmtStatus, .mfe, .lnk, .cel, .ctl, .grd, .edg, .prt,
    .mtr, .saf, .hats, .pwr, .ref, .start, .trk, .dbg, .out, .freeCount] s t :=
  fun p hp => by cases p <;> first | exact h | simp at hp

/-- A successor state built from scratch keeps the count of free values and the queue. -/
theorem Frame.of_rest' {s t : State} (h1 : t.freeCount = s.freeCount) (h2 : t.pending = s.pending) : Frame [.regs, .sys, .mgmtStatus, .mfe,
    .lnk, .cel, .ctl, .grd, .edg, .prt, .mtr, .saf, .hats, .pwr, .ref, .start, .trk, .dbg, .out] s t :=
  fun p hp => by cases p <;> first | exact h1 | exact h2 | simp at hp

theorem Frame.rest {s t : State} (h : Frame [.regs, .sys, .mgmtStatus, .mfe, .lnk, .cel, .ctl, .grd, .edg, .prt, .mtr, .saf, .hats, .pwr, .ref,
    .start, .trk, .dbg, .out, .freeCount] s t) : t.pending = s.pending := h .pending (by simp)

end Sys2Proof.Machine
end

