-- ==== Sys2Proof/Laws/Frame1.lean ====
section
/-! SUPPORT. Which parts of the state each operation may change: one lemma per definition of RegFile, Ops, Cellar, Unit, Control, Grid, Profiles. -/

set_option linter.all false
set_option Elab.async false

namespace Sys2Proof.Machine

@[simp] theorem State.setReg_frame {W : List Part} {r s : State} (x1 : Nat) (x2 : Word) (hW : [.regs] ⊆ W) : Frame W r (State.setReg s x1 x2)
    ↔ Frame W r s := by
  have key : Frame [.regs] s (State.setReg s x1 x2) := by
    simp [State.setReg]
  exact Frame.iff_of key hW

@[simp] theorem State.setRf_frame {W : List Part} {r s : State} (x1 : Nat) (x2 : Nat) (x3 : Nat) (x4 : Nat) (hW : [.regs] ⊆ W) : Frame W r
    (State.setRf s x1 x2 x3 x4) ↔ Frame W r s := by
  have key : Frame [.regs] s (State.setRf s x1 x2 x3 x4) := by
    simp [State.setRf]
  exact Frame.iff_of key hW

@[simp] theorem State.noteLt_frame {W : List Part} {r s : State} (x1 : Nat) (x2 : Word) (hW : [.regs] ⊆ W) : Frame W r (State.noteLt s x1 x2)
    ↔ Frame W r s := by
  have key : Frame [.regs] s (State.noteLt s x1 x2) := by
    simp [State.noteLt]
  exact Frame.iff_of key hW

@[simp] theorem State.latch_frame {W : List Part} {r s : State} (x1 : Nat) (x2 : Nat) (hW : [.regs] ⊆ W) : Frame W r (State.latch s x1 x2)
    ↔ Frame W r s := by
  have key : Frame [.regs] s (State.latch s x1 x2) := by
    simp [State.latch]
  exact Frame.iff_of key hW

@[simp] theorem State.count_frame {W : List Part} {r s : State} (x1 : Nat) (x2 : Nat) (x3 : Nat) (hW : [.regs] ⊆ W) : Frame W r
    (State.count s x1 x2 x3) ↔ Frame W r s := by
  have key : Frame [.regs] s (State.count s x1 x2 x3) := by
    simp [State.count]
  exact Frame.iff_of key hW

@[simp] theorem State.free_frame {W : List Part} {r s : State} (hW : [.freeCount] ⊆ W) : Frame W r (State.free s).2 ↔ Frame W r s := by
  have key : Frame [.freeCount] s (State.free s).2 := by
    simp [State.free]
  exact Frame.iff_of key hW

@[simp] theorem State.emit_frame {W : List Part} {r s : State} (x1 : BusOut) (hW : [.out] ⊆ W) : Frame W r (State.emit s x1) ↔ Frame W r s := by
  have key : Frame [.out] s (State.emit s x1) := by
    simp [State.emit]
  exact Frame.iff_of key hW

@[simp] theorem State.updLane_frame {W : List Part} {r s : State} (x1 : Nat) (x2 : LaneSt → LaneSt) (hW : [.lnk] ⊆ W) : Frame W r
    (State.updLane s x1 x2) ↔ Frame W r s := by
  have key : Frame [.lnk] s (State.updLane s x1 x2) := by
    simp [State.updLane]
  exact Frame.iff_of key hW

@[simp] theorem State.updUnit_frame {W : List Part} {r s : State} (x1 : Nat) (x2 : UnitSt → UnitSt) (hW : [.lnk] ⊆ W) : Frame W r
    (State.updUnit s x1 x2) ↔ Frame W r s := by
  have key : Frame [.lnk] s (State.updUnit s x1 x2) := by
    simp [State.updUnit]
  exact Frame.iff_of key hW

@[simp] theorem State.updPair_frame {W : List Part} {r s : State} (x1 : Nat) (x2 : PairLnk → PairLnk) (hW : [.lnk] ⊆ W) : Frame W r
    (State.updPair s x1 x2) ↔ Frame W r s := by
  have key : Frame [.lnk] s (State.updPair s x1 x2) := by
    simp [State.updPair]
  exact Frame.iff_of key hW

@[simp] theorem State.updInput_frame {W : List Part} {r s : State} (x1 : Nat) (x2 : InputSt → InputSt) (hW : [.mfe] ⊆ W) : Frame W r
    (State.updInput s x1 x2) ↔ Frame W r s := by
  have key : Frame [.mfe] s (State.updInput s x1 x2) := by
    simp [State.updInput]
  exact Frame.iff_of key hW

@[simp] theorem State.updHat_frame {W : List Part} {r s : State} (x1 : Nat) (x2 : HatSt → HatSt) (hW : [.hats] ⊆ W) : Frame W r
    (State.updHat s x1 x2) ↔ Frame W r s := by
  have key : Frame [.hats] s (State.updHat s x1 x2) := by
    simp [State.updHat]
  exact Frame.iff_of key hW

@[simp] theorem State.signal_frame {W : List Part} {r s : State} (x1 : Fin 4) (x2 : Nat) (hW : [.hats, .out] ⊆ W) : Frame W r
    (State.signal s x1 x2) ↔ Frame W r s := by
  have key : Frame [.hats, .out] s (State.signal s x1 x2) := by
    simp [State.signal]
  exact Frame.iff_of key hW

@[simp] theorem State.hatCause_frame {W : List Part} {r s : State} (x1 : Fin 4) (x2 : Nat) (hW : [.regs, .hats, .out] ⊆ W) : Frame W r
    (State.hatCause s x1 x2) ↔ Frame W r s := by
  have key : Frame [.regs, .hats, .out] s (State.hatCause s x1 x2) := by
    simp [State.hatCause]
  exact Frame.iff_of key hW

@[simp] theorem State.logErr_frame {W : List Part} {r s : State} (x1 : Requester) (x2 : Nat) (x3 : Nat) (x4 : Bool) (hW : [.regs, .mgmtStatus,
    .hats, .out] ⊆ W) : Frame W r (State.logErr s x1 x2 x3 x4) ↔ Frame W r s := by
  have key : Frame [.regs, .mgmtStatus, .hats, .out] s (State.logErr s x1 x2 x3 x4) := by
    unfold State.logErr
    (repeat' split) <;> simp
  exact Frame.iff_of key hW

@[simp] theorem State.countSuppressed_frame {W : List Part} {r s : State} (x1 : Nat) (hW : [.regs] ⊆ W) : Frame W r (State.countSuppressed s x1)
    ↔ Frame W r s := by
  have key : Frame [.regs] s (State.countSuppressed s x1) := by
    simp [State.countSuppressed]
  exact Frame.iff_of key hW

@[simp] theorem State.binLost_frame {W : List Part} {r s : State} (x1 : Nat) (hW : [.regs, .trk] ⊆ W) : Frame W r (State.binLost s x1)
    ↔ Frame W r s := by
  have key : Frame [.regs, .trk] s (State.binLost s x1) := by
    simp [State.binLost]
  exact Frame.iff_of key hW

@[simp] theorem State.binPush_frame {W : List Part} {r s : State} (x1 : BinEnt) (hW : [.regs, .trk] ⊆ W) : Frame W r (State.binPush s x1)
    ↔ Frame W r s := by
  have key : Frame [.regs, .trk] s (State.binPush s x1) := by
    simp [State.binPush]
  exact Frame.iff_of key hW

@[simp] theorem State.binAt_frame {W : List Part} {r s : State} (x1 : Epoch) (x2 : Nat) (x3 : List Nat) (hW : [.regs, .trk] ⊆ W) : Frame W r
    (State.binAt s x1 x2 x3) ↔ Frame W r s := by
  have key : Frame [.regs, .trk] s (State.binAt s x1 x2 x3) := by
    simp [State.binAt]
  exact Frame.iff_of key hW

@[simp] theorem State.binLog_frame {W : List Part} {r s : State} (x1 : Nat) (x2 : List Nat) (hW : [.regs, .trk] ⊆ W) : Frame W r
    (State.binLog s x1 x2) ↔ Frame W r s := by
  have key : Frame [.regs, .trk] s (State.binLog s x1 x2) := by
    simp [State.binLog]
  exact Frame.iff_of key hW

@[simp] theorem State.trkAsk_frame {W : List Part} {r s : State} (x1 : TrkItem) (x2 : List Nat) (hW : [.regs, .trk] ⊆ W) : Frame W r
    (State.trkAsk s x1 x2) ↔ Frame W r s := by
  have key : Frame [.regs, .trk] s (State.trkAsk s x1 x2) := by
    simp [State.trkAsk]
  exact Frame.iff_of key hW

@[simp] theorem State.stopCr_frame {W : List Part} {r s : State} (x1 : Fin 4) (x2 : Nat) (x3 : Nat) (hW : [.regs, .hats, .out] ⊆ W) : Frame W r
    (State.stopCr s x1 x2 x3) ↔ Frame W r s := by
  have key : Frame [.regs, .hats, .out] s (State.stopCr s x1 x2 x3) := by
    simp [State.stopCr]
  exact Frame.iff_of key hW

@[simp] theorem State.eventTo_frame {W : List Part} {r s : State} (x1 : Fin 4) (x2 : Nat) (x3 : Nat) (x4 : Epoch) (x5 : Nat) (x6 : Nat) (hW
    : [.regs, .hats, .trk, .out] ⊆ W) : Frame W r (State.eventTo s x1 x2 x3 x4 x5 x6) ↔ Frame W r s := by
  have key : Frame [.regs, .hats, .trk, .out] s (State.eventTo s x1 x2 x3 x4 x5 x6) := by
    simp [State.eventTo]
  exact Frame.iff_of key hW

@[simp] theorem State.eventMask_frame {W : List Part} {r s : State} (x1 : Nat) (x2 : Nat) (x3 : Nat) (x4 : Epoch) (x5 : Nat) (x6 : Nat) (hW
    : [.regs, .hats, .trk, .out] ⊆ W) : Frame W r (State.eventMask s x1 x2 x3 x4 x5 x6) ↔ Frame W r s := by
  have key : Frame [.regs, .hats, .trk, .out] s (State.eventMask s x1 x2 x3 x4 x5 x6) := by
    simp [State.eventMask]
  exact Frame.iff_of key hW

@[simp] theorem State.completeAt_frame {W : List Part} {r s : State} (x1 : Epoch) (x2 : OrderRef) (x3 : Nat) (x4 : Nat) (x5 : Nat) (x6 : Nat)
    (hW : [.regs, .hats, .out] ⊆ W) : Frame W r (State.completeAt s x1 x2 x3 x4 x5 x6) ↔ Frame W r s := by
  have key : Frame [.regs, .hats, .out] s (State.completeAt s x1 x2 x3 x4 x5 x6) := by
    unfold State.completeAt
    (repeat' split) <;> simp
  exact Frame.iff_of key hW

@[simp] theorem State.complete_frame {W : List Part} {r s : State} (x1 : OrderRef) (x2 : Nat) (x3 : Nat) (x4 : Nat) (x5 : Nat) (hW : [.regs,
    .hats, .out] ⊆ W) : Frame W r (State.complete s x1 x2 x3 x4 x5) ↔ Frame W r s := by
  have key : Frame [.regs, .hats, .out] s (State.complete s x1 x2 x3 x4 x5) := by
    simp [State.complete]
  exact Frame.iff_of key hW

@[simp] theorem State.aerError_frame {W : List Part} {r s : State} (x1 : Fin 4) (x2 : Nat) (hW : [.hats, .out] ⊆ W) : Frame W r
    (State.aerError s x1 x2) ↔ Frame W r s := by
  have key : Frame [.hats, .out] s (State.aerError s x1 x2) := by
    simp [State.aerError]
  exact Frame.iff_of key hW

@[simp] theorem State.completerAbort_frame {W : List Part} {r s : State} (x1 : Fin 4) (hW : [.hats, .out] ⊆ W) : Frame W r
    (State.completerAbort s x1) ↔ Frame W r s := by
  have key : Frame [.hats, .out] s (State.completerAbort s x1) := by
    simp [State.completerAbort]
  exact Frame.iff_of key hW

@[simp] theorem State.unsupportedReq_frame {W : List Part} {r s : State} (x1 : Fin 4) (hW : [.hats, .out] ⊆ W) : Frame W r
    (State.unsupportedReq s x1) ↔ Frame W r s := by
  have key : Frame [.hats, .out] s (State.unsupportedReq s x1) := by
    simp [State.unsupportedReq]
  exact Frame.iff_of key hW

@[simp] theorem State.asOwner_frame {W : List Part} {r s : State} (x1 : Requester) (x2 : Nat) (x3 : State → State) (hf : ∀ y, Frame W y (x3 y))
    (hW : [.regs, .mgmtStatus, .hats, .out] ⊆ W) : Frame W r (State.asOwner s x1 x2 x3) ↔ Frame W r s := by
  simp only [List.cons_subset, List.nil_subset, and_true] at hW
  refine Frame.iff_of (V := W) ?_ (List.Subset.refl _)
  unfold State.asOwner
  (repeat' split) <;> simp [hf, hW]

@[simp] theorem State.prtEvent_frame {W : List Part} {r s : State} (x1 : Nat) (hW : [.prt] ⊆ W) : Frame W r (State.prtEvent s x1) ↔ Frame W r s := by
  have key : Frame [.prt] s (State.prtEvent s x1) := by
    simp [State.prtEvent]
  exact Frame.iff_of key hW

@[simp] theorem State.updShelf_frame {W : List Part} {r s : State} (x1 : Epoch) (x2 : Shelf → Shelf) (hW : [.cel] ⊆ W) : Frame W r
    (State.updShelf s x1 x2) ↔ Frame W r s := by
  have key : Frame [.cel] s (State.updShelf s x1 x2) := by
    simp [State.updShelf]
  exact Frame.iff_of key hW

@[simp] theorem State.annexSet_frame {W : List Part} {r s : State} (x1 : Epoch) (x2 : Nat) (x3 : Word) (hW : [.cel] ⊆ W) : Frame W r
    (State.annexSet s x1 x2 x3) ↔ Frame W r s := by
  have key : Frame [.cel] s (State.annexSet s x1 x2 x3) := by
    simp [State.annexSet]
  exact Frame.iff_of key hW

@[simp] theorem State.annexPut_frame {W : List Part} {r s : State} (x1 : Epoch) (x2 : Nat) (x3 : List Word) (hW : [.cel] ⊆ W) : Frame W r
    (State.annexPut s x1 x2 x3) ↔ Frame W r s := by
  have key : Frame [.cel] s (State.annexPut s x1 x2 x3) := by
    simp [State.annexPut]
  exact Frame.iff_of key hW

@[simp] theorem State.celWrite_frame {W : List Part} {r s : State} (x1 : Nat) (x2 : Epoch) (x3 : Bool) (x4 : Bool) (x5 : Bool) (x6 : DWord) (x7
    : DWord) (x8 : DWord) (hW : [.regs, .cel] ⊆ W) : Frame W r (State.celWrite s x1 x2 x3 x4 x5 x6 x7 x8).2 ↔ Frame W r s := by
  have key : Frame [.regs, .cel] s (State.celWrite s x1 x2 x3 x4 x5 x6 x7 x8).2 := by
    simp [State.celWrite, apply_ite Prod.snd]
  exact Frame.iff_of key hW

@[simp] theorem State.celDelivered_frame {W : List Part} {r s : State} (x1 : Nat) (x2 : Epoch) (hW : [.cel] ⊆ W) : Frame W r
    (State.celDelivered s x1 x2) ↔ Frame W r s := by
  have key : Frame [.cel] s (State.celDelivered s x1 x2) := by
    simp [State.celDelivered]
  exact Frame.iff_of key hW

@[simp] theorem State.holdRegion_frame {W : List Part} {r s : State} (x1 : Epoch) (x2 : Nat) (hW : [.cel] ⊆ W) : Frame W r
    (State.holdRegion s x1 x2) ↔ Frame W r s := by
  have key : Frame [.cel] s (State.holdRegion s x1 x2) := by
    simp [State.holdRegion]
  exact Frame.iff_of key hW

@[simp] theorem State.sealShelf_frame {W : List Part} {r s : State} (x1 : Epoch) (x2 : Epoch) (hW : [.regs, .cel, .prt] ⊆ W) : Frame W r
    (State.sealShelf s x1 x2) ↔ Frame W r s := by
  have key : Frame [.regs, .cel, .prt] s (State.sealShelf s x1 x2) := by
    simp [State.sealShelf]
  exact Frame.iff_of key hW

@[simp] theorem State.sealFrom_frame {W : List Part} {r s : State} (x1 : Epoch) (x2 : Nat) (x3 : Epoch) (hW : [.regs, .cel, .prt] ⊆ W)
    : Frame W r (State.sealFrom s x1 x2 x3) ↔ Frame W r s := by
  have key : Frame [.regs, .cel, .prt] s (State.sealFrom s x1 x2 x3) := by
    induction x2 generalizing s x3 with
    | zero => simp [State.sealFrom]
    | succ n ih =>
      simp only [State.sealFrom]
      split
      · exact Frame.trans (by simp) (ih _)
      · simp
  exact Frame.iff_of key hW

@[simp] theorem State.sealPass_frame {W : List Part} {r s : State} (hW : [.regs, .cel, .prt] ⊆ W) : Frame W r (State.sealPass s) ↔ Frame W r s := by
  have key : Frame [.regs, .cel, .prt] s (State.sealPass s) := by
    simp [State.sealPass]
  exact Frame.iff_of key hW

@[simp] theorem State.celCtrClear_frame {W : List Part} {r s : State} (hW : [.regs] ⊆ W) : Frame W r (State.celCtrClear s) ↔ Frame W r s := by
  have key : Frame [.regs] s (State.celCtrClear s) := by
    simp [State.celCtrClear]
  exact Frame.iff_of key hW

theorem execRowRepairMark_frame {s t : State} (x0 : Nat) (x1 : Nat) (e : execRowRepairMark x0 x1 s = .next t) : Frame [.regs, .cel] s t := by
  unfold execRowRepairMark at e
  try dsimp only at e
  (repeat' split at e) <;> (simp only [Host.Outcome.next.injEq, reduceCtorEq] at e) <;> (subst e; simp)

@[simp] theorem State.repairRows_frame {W : List Part} {r s : State} (hW : [.regs, .cel, .trk] ⊆ W) : Frame W r (State.repairRows s)
    ↔ Frame W r s := by
  have key : Frame [.regs, .cel, .trk] s (State.repairRows s) := by
    simp [State.repairRows]
  exact Frame.iff_of key hW

@[simp] theorem State.eccHit_frame {W : List Part} {r s : State} (x1 : EccHit) (hW : [.regs, .cel, .prt] ⊆ W) : Frame W r (State.eccHit s x1)
    ↔ Frame W r s := by
  have key : Frame [.regs, .cel, .prt] s (State.eccHit s x1) := by
    simp [State.eccHit]
  exact Frame.iff_of key hW

@[simp] theorem State.updSnap_frame {W : List Part} {r s : State} (x1 : Nat) (x2 : SnapSt → SnapSt) (hW : [.cel] ⊆ W) : Frame W r
    (State.updSnap s x1 x2) ↔ Frame W r s := by
  have key : Frame [.cel] s (State.updSnap s x1 x2) := by
    simp [State.updSnap]
  exact Frame.iff_of key hW

@[simp] theorem State.snapRequest_frame {W : List Part} {r s : State} (x1 : OrderRef) (x2 : SnapshotArgs) (hW : [.regs, .cel, .hats, .out] ⊆ W)
    : Frame W r (State.snapRequest s x1 x2) ↔ Frame W r s := by
  have key : Frame [.regs, .cel, .hats, .out] s (State.snapRequest s x1 x2) := by
    simp [State.snapRequest]
  exact Frame.iff_of key hW

@[simp] theorem State.snapCopy_frame {W : List Part} {r s : State} (x1 : Nat) (x2 : SnapReq) (x3 : Epoch) (hW : [.cel] ⊆ W) : Frame W r
    (State.snapCopy s x1 x2 x3) ↔ Frame W r s := by
  have key : Frame [.cel] s (State.snapCopy s x1 x2 x3) := by
    simp [State.snapCopy]
  exact Frame.iff_of key hW

@[simp] theorem State.snapExchange_frame {W : List Part} {r s : State} (x1 : Fin 4) (hW : [.regs, .cel, .hats, .out] ⊆ W) : Frame W r
    (State.snapExchange s x1) ↔ Frame W r s := by
  have key : Frame [.regs, .cel, .hats, .out] s (State.snapExchange s x1) := by
    unfold State.snapExchange
    (repeat' split) <;> simp
  exact Frame.iff_of key hW

theorem execSnapshotCopy_frame {s t : State} (x0 : Fin 4) (e : execSnapshotCopy x0 s = .next t) : Frame [.regs, .cel, .hats, .out] s t := by
  unfold execSnapshotCopy at e
  try dsimp only at e
  (repeat' split at e) <;> (simp only [Host.Outcome.next.injEq, reduceCtorEq] at e) <;> (subst e; simp)

@[simp] theorem State.celSealed_frame {W : List Part} {r s : State} (hW : [.regs, .cel] ⊆ W) : Frame W r (State.celSealed s) ↔ Frame W r s := by
  have key : Frame [.regs, .cel] s (State.celSealed s) := by
    unfold State.celSealed
    (repeat' split) <;> simp
  exact Frame.iff_of key hW

@[simp] theorem State.celBoundary_frame {W : List Part} {r s : State} (hW : [.regs, .cel, .hats, .out] ⊆ W) : Frame W r (State.celBoundary s)
    ↔ Frame W r s := by
  have key : Frame [.regs, .cel, .hats, .out] s (State.celBoundary s) := by
    simp [State.celBoundary]
  exact Frame.iff_of key hW

@[simp] theorem State.updCrate_frame {W : List Part} {r s : State} (x1 : Nat) (x2 : Crate → Crate) (hW : [.cel] ⊆ W) : Frame W r
    (State.updCrate s x1 x2) ↔ Frame W r s := by
  have key : Frame [.cel] s (State.updCrate s x1 x2) := by
    simp [State.updCrate]
  exact Frame.iff_of key hW

@[simp] theorem State.updEunit_frame {W : List Part} {r s : State} (x1 : Nat) (x2 : EUnit → EUnit) (hW : [.edg] ⊆ W) : Frame W r
    (State.updEunit s x1 x2) ↔ Frame W r s := by
  have key : Frame [.edg] s (State.updEunit s x1 x2) := by
    simp [State.updEunit]
  exact Frame.iff_of key hW

@[simp] theorem State.updGrp_frame {W : List Part} {r s : State} (x1 : Nat) (x2 : GroupSt → GroupSt) (hW : [.edg] ⊆ W) : Frame W r
    (State.updGrp s x1 x2) ↔ Frame W r s := by
  have key : Frame [.edg] s (State.updGrp s x1 x2) := by
    simp [State.updGrp]
  exact Frame.iff_of key hW

@[simp] theorem State.missItem_frame {W : List Part} {r s : State} (x1 : Nat) (hW : [.regs, .sys, .cel, .edg, .prt] ⊆ W) : Frame W r
    (State.missItem s x1) ↔ Frame W r s := by
  have key : Frame [.regs, .sys, .cel, .edg, .prt] s (State.missItem s x1) := by
    simp [State.missItem]
  exact Frame.iff_of key hW

@[simp] theorem State.runItem_frame {W : List Part} {r s : State} (x1 : Nat) (x2 : State → State) (hf : ∀ y, Frame W y (x2 y)) (hW : [.regs,
    .sys, .cel, .edg, .prt] ⊆ W) : Frame W r (State.runItem s x1 x2) ↔ Frame W r s := by
  simp only [List.cons_subset, List.nil_subset, and_true] at hW
  refine Frame.iff_of (V := W) ?_ (List.Subset.refl _)
  unfold State.runItem
  (repeat' split) <;> simp [hf, hW]

@[simp] theorem State.updSlot_frame {W : List Part} {r s : State} (x1 : Nat) (x2 : SlotSt → SlotSt) (hW : [.ctl] ⊆ W) : Frame W r
    (State.updSlot s x1 x2) ↔ Frame W r s := by
  have key : Frame [.ctl] s (State.updSlot s x1 x2) := by
    simp [State.updSlot]
  exact Frame.iff_of key hW

@[simp] theorem State.updGen_frame {W : List Part} {r s : State} (x1 : Nat) (x2 : GenSt → GenSt) (hW : [.ctl] ⊆ W) : Frame W r
    (State.updGen s x1 x2) ↔ Frame W r s := by
  have key : Frame [.ctl] s (State.updGen s x1 x2) := by
    simp [State.updGen]
  exact Frame.iff_of key hW

@[simp] theorem State.updPlaus_frame {W : List Part} {r s : State} (x1 : Nat) (x2 : PlausSt → PlausSt) (hW : [.ctl] ⊆ W) : Frame W r
    (State.updPlaus s x1 x2) ↔ Frame W r s := by
  have key : Frame [.ctl] s (State.updPlaus s x1 x2) := by
    simp [State.updPlaus]
  exact Frame.iff_of key hW

@[simp] theorem State.updRc_frame {W : List Part} {r s : State} (x1 : Nat) (x2 : RcTable → RcTable) (hW : [.ctl] ⊆ W) : Frame W r
    (State.updRc s x1 x2) ↔ Frame W r s := by
  have key : Frame [.ctl] s (State.updRc s x1 x2) := by
    simp [State.updRc]
  exact Frame.iff_of key hW

@[simp] theorem State.setBank_frame {W : List Part} {r s : State} (x1 : Nat) (x2 : Nat) (hW : [.regs, .ctl] ⊆ W) : Frame W r
    (State.setBank s x1 x2) ↔ Frame W r s := by
  have key : Frame [.regs, .ctl] s (State.setBank s x1 x2) := by
    simp [State.setBank]
  exact Frame.iff_of key hW

@[simp] theorem State.setBanks_frame {W : List Part} {r s : State} (x1 : List (Nat × Nat)) (hW : [.regs, .ctl] ⊆ W) : Frame W r
    (State.setBanks s x1) ↔ Frame W r s := by
  have key : Frame [.regs, .ctl] s (State.setBanks s x1) := by
    simp [State.setBanks]
  exact Frame.iff_of key hW

@[simp] theorem State.deriveEnergies_frame {W : List Part} {r s : State} (hW : [.ctl] ⊆ W) : Frame W r (State.deriveEnergies s) ↔ Frame W r s := by
  have key : Frame [.ctl] s (State.deriveEnergies s) := by
    simp [State.deriveEnergies]
  exact Frame.iff_of key hW

@[simp] theorem State.genTick_frame {W : List Part} {r s : State} (x1 : Nat) (hW : [.ctl] ⊆ W) : Frame W r (State.genTick s x1) ↔ Frame W r s := by
  have key : Frame [.ctl] s (State.genTick s x1) := by
    unfold State.genTick
    try dsimp only
    repeat' (first | (simp [apply_ite Prod.fst, apply_ite Prod.snd]; done) | split)
  exact Frame.iff_of key hW

@[simp] theorem State.rcStore_frame {W : List Part} {r s : State} (x1 : Nat) (x2 : Nat) (x3 : Nat) (hW : [.regs, .ctl] ⊆ W) : Frame W r
    (State.rcStore s x1 x2 x3) ↔ Frame W r s := by
  have key : Frame [.regs, .ctl] s (State.rcStore s x1 x2 x3) := by
    simp [State.rcStore]
  exact Frame.iff_of key hW

@[simp] theorem State.rcUpdate_frame {W : List Part} {r s : State} (x1 : Nat) (x2 : Rat) (x3 : Bool) (hW : [.regs, .ctl] ⊆ W) : Frame W r
    (State.rcUpdate s x1 x2 x3) ↔ Frame W r s := by
  have key : Frame [.regs, .ctl] s (State.rcUpdate s x1 x2 x3) := by
    unfold State.rcUpdate
    try dsimp only
    repeat' (first | (simp [apply_ite Prod.fst, apply_ite Prod.snd]; done) | split)
  exact Frame.iff_of key hW

@[simp] theorem State.slotIdle_frame {W : List Part} {r s : State} (x1 : Nat) (x2 : Bool) (hW : [.regs, .ctl] ⊆ W) : Frame W r
    (State.slotIdle s x1 x2) ↔ Frame W r s := by
  have key : Frame [.regs, .ctl] s (State.slotIdle s x1 x2) := by
    simp [State.slotIdle]
  exact Frame.iff_of key hW

@[simp] theorem State.slotRun_frame {W : List Part} {r s : State} (x1 : Nat) (hW : [.regs, .ctl] ⊆ W) : Frame W r (State.slotRun s x1)
    ↔ Frame W r s := by
  have key : Frame [.regs, .ctl] s (State.slotRun s x1) := by
    simp [State.slotRun]
  exact Frame.iff_of key hW

@[simp] theorem State.slotPass_frame {W : List Part} {r s : State} (x1 : Nat) (hW : [.regs, .ctl] ⊆ W) : Frame W r (State.slotPass s x1)
    ↔ Frame W r s := by
  have key : Frame [.regs, .ctl] s (State.slotPass s x1) := by
    simp [State.slotPass]
  exact Frame.iff_of key hW

@[simp] theorem State.compose_frame {W : List Part} {r s : State} (hW : [.regs, .ctl] ⊆ W) : Frame W r (State.compose s) ↔ Frame W r s := by
  have key : Frame [.regs, .ctl] s (State.compose s) := by
    simp [State.compose]
  exact Frame.iff_of key hW

@[simp] theorem State.plausPass_frame {W : List Part} {r s : State} (x1 : Bool) (x2 : Epoch) (x3 : Nat) (hW : [.ctl] ⊆ W) : Frame W r
    (State.plausPass s x1 x2 x3) ↔ Frame W r s := by
  have key : Frame [.ctl] s (State.plausPass s x1 x2 x3) := by
    simp [State.plausPass]
  exact Frame.iff_of key hW

@[simp] theorem State.plausShelf_frame {W : List Part} {r s : State} (x1 : Nat) (hW : [.ctl] ⊆ W) : Frame W r (State.plausShelf s x1)
    ↔ Frame W r s := by
  have key : Frame [.ctl] s (State.plausShelf s x1) := by
    unfold State.plausShelf
    (repeat' split) <;> simp
  exact Frame.iff_of key hW

@[simp] theorem State.capTick_frame {W : List Part} {r s : State} (x1 : Bool) (hW : [.ctl] ⊆ W) : Frame W r (State.capTick s x1) ↔ Frame W r s := by
  have key : Frame [.ctl] s (State.capTick s x1) := by
    simp [State.capTick]
  exact Frame.iff_of key hW

@[simp] theorem State.capAbandon_frame {W : List Part} {r s : State} (hW : [.ctl] ⊆ W) : Frame W r (State.capAbandon s) ↔ Frame W r s := by
  have key : Frame [.ctl] s (State.capAbandon s) := by
    simp [State.capAbandon]
  exact Frame.iff_of key hW

@[simp] theorem State.loopAnnex_frame {W : List Part} {r s : State} (x1 : Epoch) (hW : [.cel] ⊆ W) : Frame W r (State.loopAnnex s x1)
    ↔ Frame W r s := by
  have key : Frame [.cel] s (State.loopAnnex s x1) := by
    simp [State.loopAnnex]
  exact Frame.iff_of key hW

@[simp] theorem State.controlPass_frame {W : List Part} {r s : State} (hW : [.regs, .cel, .ctl] ⊆ W) : Frame W r (State.controlPass s)
    ↔ Frame W r s := by
  have key : Frame [.regs, .cel, .ctl] s (State.controlPass s) := by
    simp [State.controlPass]
  exact Frame.iff_of key hW

@[simp] theorem State.controlMiss_frame {W : List Part} {r s : State} (hW : [.regs, .sys, .cel, .ctl, .edg, .prt] ⊆ W) : Frame W r
    (State.controlMiss s) ↔ Frame W r s := by
  have key : Frame [.regs, .sys, .cel, .ctl, .edg, .prt] s (State.controlMiss s) := by
    simp [State.controlMiss]
  exact Frame.iff_of key hW

theorem execControlPass_frame {s t : State} (e : execControlPass s = .next t) : Frame [.regs, .sys, .cel, .ctl, .edg, .prt] s t := by
  unfold execControlPass at e
  try dsimp only at e
  (repeat' split at e) <;> (simp only [Host.Outcome.next.injEq, reduceCtorEq] at e) <;> (subst e; simp)

theorem execStopRampComplete_frame {s t : State} (e : execStopRampComplete s = .next t) : Frame [.ctl] s t := by
  unfold execStopRampComplete at e
  try dsimp only at e
  (repeat' split at e) <;> (simp only [Host.Outcome.next.injEq, reduceCtorEq] at e) <;> (subst e; simp)

theorem execStopRampTimeout_frame {s t : State} (e : execStopRampTimeout s = .next t) : Frame [.regs, .ctl] s t := by
  unfold execStopRampTimeout at e
  try dsimp only at e
  (repeat' split at e) <;> (simp only [Host.Outcome.next.injEq, reduceCtorEq] at e) <;> (subst e; simp)

@[simp] theorem State.capHit_frame {W : List Part} {r s : State} (x1 : Nat) (hW : [.ctl] ⊆ W) : Frame W r (State.capHit s x1) ↔ Frame W r s := by
  have key : Frame [.ctl] s (State.capHit s x1) := by
    simp [State.capHit]
  exact Frame.iff_of key hW

@[simp] theorem State.plausEnd_frame {W : List Part} {r s : State} (x1 : Nat) (x2 : Bool) (x3 : List Rat) (x4 : List Rat) (hW : [.regs,
    .ctl] ⊆ W) : Frame W r (State.plausEnd s x1 x2 x3 x4) ↔ Frame W r s := by
  have key : Frame [.regs, .ctl] s (State.plausEnd s x1 x2 x3 x4) := by
    simp [State.plausEnd]
  exact Frame.iff_of key hW

theorem execPlausWindowEnd_frame {s t : State} (x0 : Nat) (e : execPlausWindowEnd x0 s = .next t) : Frame [.regs, .ctl] s t := by
  unfold execPlausWindowEnd at e
  try dsimp only at e
  (repeat' split at e) <;> (simp only [Host.Outcome.next.injEq, reduceCtorEq] at e) <;> (subst e; simp)

@[simp] theorem State.rcClear_frame {W : List Part} {r s : State} (x1 : Nat) (hW : [.ctl] ⊆ W) : Frame W r (State.rcClear s x1) ↔ Frame W r s := by
  have key : Frame [.ctl] s (State.rcClear s x1) := by
    simp [State.rcClear]
  exact Frame.iff_of key hW

@[simp] theorem State.clearChecks_frame {W : List Part} {r s : State} (hW : [.regs] ⊆ W) : Frame W r (State.clearChecks s) ↔ Frame W r s := by
  have key : Frame [.regs] s (State.clearChecks s) := by
    simp [State.clearChecks]
  exact Frame.iff_of key hW

@[simp] theorem State.ctlAction_frame {W : List Part} {r s : State} (x1 : Requester) (x2 : Word) (hW : [.regs, .mgmtStatus, .ctl, .hats,
    .out] ⊆ W) : Frame W r (State.ctlAction s x1 x2) ↔ Frame W r s := by
  have key : Frame [.regs, .mgmtStatus, .ctl, .hats, .out] s (State.ctlAction s x1 x2) := by
    unfold State.ctlAction
    (repeat' split) <;> simp
  exact Frame.iff_of key hW

@[simp] theorem State.genStart_frame {W : List Part} {r s : State} (x1 : Nat) (hW : [.regs, .ctl] ⊆ W) : Frame W r (State.genStart s x1)
    ↔ Frame W r s := by
  have key : Frame [.regs, .ctl] s (State.genStart s x1) := by
    simp [State.genStart]
  exact Frame.iff_of key hW

@[simp] theorem State.genStop_frame {W : List Part} {r s : State} (x1 : Nat) (hW : [.ctl] ⊆ W) : Frame W r (State.genStop s x1) ↔ Frame W r s := by
  have key : Frame [.ctl] s (State.genStop s x1) := by
    simp [State.genStop]
  exact Frame.iff_of key hW

@[simp] theorem State.capArm_frame {W : List Part} {r s : State} (hW : [.ctl, .pwr] ⊆ W) : Frame W r (State.capArm s) ↔ Frame W r s := by
  have key : Frame [.ctl, .pwr] s (State.capArm s) := by
    simp [State.capArm]
  exact Frame.iff_of key hW

@[simp] theorem State.endItem_frame {W : List Part} {r s : State} (x1 : OptItem) (hW : [.pwr] ⊆ W) : Frame W r (State.endItem s x1)
    ↔ Frame W r s := by
  have key : Frame [.pwr] s (State.endItem s x1) := by
    simp [State.endItem]
  exact Frame.iff_of key hW

@[simp] theorem State.capEnd_frame {W : List Part} {r s : State} (hW : [.ctl, .pwr] ⊆ W) : Frame W r (State.capEnd s) ↔ Frame W r s := by
  have key : Frame [.ctl, .pwr] s (State.capEnd s) := by
    simp [State.capEnd]
  exact Frame.iff_of key hW

theorem execCapTrigger_frame {s t : State} (e : execCapTrigger s = .next t) : Frame [.ctl] s t := by
  unfold execCapTrigger at e
  try dsimp only at e
  (repeat' split at e) <;> (simp only [Host.Outcome.next.injEq, reduceCtorEq] at e) <;> (subst e; simp)

theorem execCapDone_frame {s t : State} (e : execCapDone s = .next t) : Frame [.regs, .ctl, .pwr] s t := by
  unfold execCapDone at e
  try dsimp only at e
  (repeat' split at e) <;> (simp only [Host.Outcome.next.injEq, reduceCtorEq] at e) <;> (subst e; simp)

@[simp] theorem State.ctlBoundary_frame {W : List Part} {r s : State} (hW : [.regs, .ctl] ⊆ W) : Frame W r (State.ctlBoundary s) ↔ Frame W r s := by
  have key : Frame [.regs, .ctl] s (State.ctlBoundary s) := by
    simp [State.ctlBoundary]
  exact Frame.iff_of key hW

@[simp] theorem State.ctlOff_frame {W : List Part} {r s : State} (hW : [.ctl] ⊆ W) : Frame W r (State.ctlOff s) ↔ Frame W r s := by
  have key : Frame [.ctl] s (State.ctlOff s) := by
    simp [State.ctlOff]
  exact Frame.iff_of key hW

@[simp] theorem State.grdRaise_frame {W : List Part} {r s : State} (hW : [.regs, .grd] ⊆ W) : Frame W r (State.grdRaise s) ↔ Frame W r s := by
  have key : Frame [.regs, .grd] s (State.grdRaise s) := by
    simp [State.grdRaise]
  exact Frame.iff_of key hW

@[simp] theorem State.transferred_frame {W : List Part} {r s : State} (x1 : Bool) (hW : [.regs, .ctl, .trk] ⊆ W) : Frame W r
    (State.transferred s x1) ↔ Frame W r s := by
  have key : Frame [.regs, .ctl, .trk] s (State.transferred s x1) := by
    simp [State.transferred]
  exact Frame.iff_of key hW

@[simp] theorem State.grdResult_frame {W : List Part} {r s : State} (x1 : Nat) (hW : [.regs] ⊆ W) : Frame W r (State.grdResult s x1)
    ↔ Frame W r s := by
  have key : Frame [.regs] s (State.grdResult s x1) := by
    simp [State.grdResult]
  exact Frame.iff_of key hW

@[simp] theorem State.gridCurves_frame {W : List Part} {r s : State} (x1 : Rat) (x2 : Rat) (x3 : Rat) (x4 : Rat) (hW : [.grd] ⊆ W) : Frame W r
    (State.gridCurves s x1 x2 x3 x4).1 ↔ Frame W r s := by
  have key : Frame [.grd] s (State.gridCurves s x1 x2 x3 x4).1 := by
    unfold State.gridCurves
    dsimp only
    rw [Frame.foldl_fst]
    · simp
    · intro x c
      (repeat' split) <;> simp
  exact Frame.iff_of key hW

@[simp] theorem State.gridIsl_frame {W : List Part} {r s : State} (x1 : Rat) (x2 : Rat) (x3 : Bool) (x4 : Bool) (hW : [.grd] ⊆ W) : Frame W r
    (State.gridIsl s x1 x2 x3 x4) ↔ Frame W r s := by
  have key : Frame [.grd] s (State.gridIsl s x1 x2 x3 x4) := by
    simp [State.gridIsl]
  exact Frame.iff_of key hW

@[simp] theorem State.gridFrt_frame {W : List Part} {r s : State} (x1 : Rat) (x2 : Rat) (hW : [.grd] ⊆ W) : Frame W r (State.gridFrt s x1 x2)
    ↔ Frame W r s := by
  have key : Frame [.grd] s (State.gridFrt s x1 x2) := by
    unfold State.gridFrt
    try dsimp only
    repeat' (first | (simp [apply_ite Prod.fst, apply_ite Prod.snd]; done) | split)
  exact Frame.iff_of key hW

@[simp] theorem State.gridPass_frame {W : List Part} {r s : State} (hW : [.regs, .cel, .ctl, .grd, .trk] ⊆ W) : Frame W r (State.gridPass s)
    ↔ Frame W r s := by
  have key : Frame [.regs, .cel, .ctl, .grd, .trk] s (State.gridPass s) := by
    simp [State.gridPass]
  exact Frame.iff_of key hW

theorem execGridEnginePass_frame {s t : State} (e : execGridEnginePass s = .next t) : Frame [.regs, .sys, .cel, .ctl, .grd, .edg, .prt,
    .trk] s t := by
  unfold execGridEnginePass at e
  try dsimp only at e
  (repeat' split at e) <;> (simp only [Host.Outcome.next.injEq, reduceCtorEq] at e) <;> (subst e; simp)

theorem execObserverLock_frame {s t : State} (e : execObserverLock s = .next t) : Frame [.regs, .grd] s t := by
  unfold execObserverLock at e
  try dsimp only at e
  (repeat' split at e) <;> (simp only [Host.Outcome.next.injEq, reduceCtorEq] at e) <;> (subst e; simp)

theorem execObserverLos_frame {s t : State} (e : execObserverLos s = .next t) : Frame [.regs, .grd] s t := by
  unfold execObserverLos at e
  try dsimp only at e
  (repeat' split at e) <;> (simp only [Host.Outcome.next.injEq, reduceCtorEq] at e) <;> (subst e; simp)

theorem execFreewheelTimeout_frame {s t : State} (e : execFreewheelTimeout s = .next t) : Frame [.regs, .grd] s t := by
  unfold execFreewheelTimeout at e
  try dsimp only at e
  (repeat' split at e) <;> (simp only [Host.Outcome.next.injEq, reduceCtorEq] at e) <;> (subst e; simp)

theorem execRocofWindowEnd_frame {s t : State} (e : execRocofWindowEnd s = .next t) : Frame [.grd] s t := by
  unfold execRocofWindowEnd at e
  try dsimp only at e
  (repeat' split at e) <;> (simp only [Host.Outcome.next.injEq, reduceCtorEq] at e) <;> (subst e; simp)

theorem execFrtEntry_frame {s t : State} (e : execFrtEntry s = .next t) : Frame [.regs, .grd] s t := by
  unfold execFrtEntry at e
  try dsimp only at e
  (repeat' split at e) <;> (simp only [Host.Outcome.next.injEq, reduceCtorEq] at e) <;> (subst e; simp)

theorem execFrtExit_frame {s t : State} (e : execFrtExit s = .next t) : Frame [.regs, .grd] s t := by
  unfold execFrtExit at e
  try dsimp only at e
  (repeat' split at e) <;> (simp only [Host.Outcome.next.injEq, reduceCtorEq] at e) <;> (subst e; simp)

theorem execFrtTimeout_frame {s t : State} (e : execFrtTimeout s = .next t) : Frame [.regs, .grd] s t := by
  unfold execFrtTimeout at e
  try dsimp only at e
  (repeat' split at e) <;> (simp only [Host.Outcome.next.injEq, reduceCtorEq] at e) <;> (subst e; simp)

theorem execCurveActivation_frame {s t : State} (x0 : Nat) (e : execCurveActivation x0 s = .next t) : Frame [.grd] s t := by
  unfold execCurveActivation at e
  try dsimp only at e
  (repeat' split at e) <;> (simp only [Host.Outcome.next.injEq, reduceCtorEq] at e) <;> (subst e; simp)

theorem execEnvelopeViolation_frame {s t : State} (x0 : Nat) (e : execEnvelopeViolation x0 s = .next t) : Frame [.regs, .grd] s t := by
  unfold execEnvelopeViolation at e
  try dsimp only at e
  (repeat' split at e) <;> (simp only [Host.Outcome.next.injEq, reduceCtorEq] at e) <;> (subst e; simp)

theorem execIslandConfirm_frame {s t : State} (e : execIslandConfirm s = .next t) : Frame [.regs, .grd] s t := by
  unfold execIslandConfirm at e
  try dsimp only at e
  (repeat' split at e) <;> (simp only [Host.Outcome.next.injEq, reduceCtorEq] at e) <;> (subst e; simp)

theorem execIslandPulse_frame {s t : State} (e : execIslandPulse s = .next t) : Frame [.grd] s t := by
  unfold execIslandPulse at e
  try dsimp only at e
  (repeat' split at e) <;> (simp only [Host.Outcome.next.injEq, reduceCtorEq] at e) <;> (subst e; simp)

@[simp] theorem State.toGfm_frame {W : List Part} {r s : State} (hW : [.regs, .grd] ⊆ W) : Frame W r (State.toGfm s) ↔ Frame W r s := by
  have key : Frame [.regs, .grd] s (State.toGfm s) := by
    simp [State.toGfm]
  exact Frame.iff_of key hW

@[simp] theorem State.toGfl_frame {W : List Part} {r s : State} (hW : [.regs, .grd] ⊆ W) : Frame W r (State.toGfl s) ↔ Frame W r s := by
  have key : Frame [.regs, .grd] s (State.toGfl s) := by
    simp [State.toGfl]
  exact Frame.iff_of key hW

@[simp] theorem State.grdCancel_frame {W : List Part} {r s : State} (hW : [.regs, .grd] ⊆ W) : Frame W r (State.grdCancel s) ↔ Frame W r s := by
  have key : Frame [.regs, .grd] s (State.grdCancel s) := by
    simp [State.grdCancel]
  exact Frame.iff_of key hW

@[simp] theorem State.clearIsland_frame {W : List Part} {r s : State} (hW : [.regs, .grd] ⊆ W) : Frame W r (State.clearIsland s) ↔ Frame W r s := by
  have key : Frame [.regs, .grd] s (State.clearIsland s) := by
    simp [State.clearIsland]
  exact Frame.iff_of key hW

@[simp] theorem State.clearFrt_frame {W : List Part} {r s : State} (hW : [.regs, .grd] ⊆ W) : Frame W r (State.clearFrt s) ↔ Frame W r s := by
  have key : Frame [.regs, .grd] s (State.clearFrt s) := by
    simp [State.clearFrt]
  exact Frame.iff_of key hW

@[simp] theorem State.grdAction_frame {W : List Part} {r s : State} (x1 : Requester) (x2 : Word) (hW : [.regs, .mgmtStatus, .grd, .hats,
    .out] ⊆ W) : Frame W r (State.grdAction s x1 x2) ↔ Frame W r s := by
  have key : Frame [.regs, .mgmtStatus, .grd, .hats, .out] s (State.grdAction s x1 x2) := by
    unfold State.grdAction
    (repeat' split) <;> simp
  exact Frame.iff_of key hW

theorem execGflTransfer_frame {s t : State} (e : execGflTransfer s = .next t) : Frame [.regs, .ctl, .grd, .trk] s t := by
  unfold execGflTransfer at e
  try dsimp only at e
  (repeat' split at e) <;> (simp only [Host.Outcome.next.injEq, reduceCtorEq] at e) <;> (subst e; simp)

@[simp] theorem State.grdRun_frame {W : List Part} {r s : State} (hW : [.grd] ⊆ W) : Frame W r (State.grdRun s) ↔ Frame W r s := by
  have key : Frame [.grd] s (State.grdRun s) := by
    simp [State.grdRun]
  exact Frame.iff_of key hW

@[simp] theorem State.grdLeave_frame {W : List Part} {r s : State} (x1 : Bool) (hW : [.grd] ⊆ W) : Frame W r (State.grdLeave s x1) ↔ Frame W r s := by
  have key : Frame [.grd] s (State.grdLeave s x1) := by
    simp [State.grdLeave]
  exact Frame.iff_of key hW

@[simp] theorem State.grdBoundary_frame {W : List Part} {r s : State} (hW : [.regs, .grd] ⊆ W) : Frame W r (State.grdBoundary s) ↔ Frame W r s := by
  have key : Frame [.regs, .grd] s (State.grdBoundary s) := by
    simp [State.grdBoundary]
  exact Frame.iff_of key hW

@[simp] theorem State.chopperPass_frame {W : List Part} {r s : State} (hW : [.regs, .cel, .grd] ⊆ W) : Frame W r (State.chopperPass s)
    ↔ Frame W r s := by
  have key : Frame [.regs, .cel, .grd] s (State.chopperPass s) := by
    simp [State.chopperPass]
  exact Frame.iff_of key hW

theorem execChopperPass_frame {s t : State} (e : execChopperPass s = .next t) : Frame [.regs, .sys, .cel, .grd, .edg, .prt] s t := by
  unfold execChopperPass at e
  try dsimp only at e
  (repeat' split at e) <;> (simp only [Host.Outcome.next.injEq, reduceCtorEq] at e) <;> (subst e; simp)

@[simp] theorem State.attribDead_frame {W : List Part} {r s : State} (x1 : Nat) (x2 : Epoch) (x3 : Nat) (hW : [.regs, .edg] ⊆ W) : Frame W r
    (State.attribDead s x1 x2 x3) ↔ Frame W r s := by
  have key : Frame [.regs, .edg] s (State.attribDead s x1 x2 x3) := by
    unfold State.attribDead
    try dsimp only
    repeat' (first | (simp [apply_ite Prod.fst, apply_ite Prod.snd]; done) | split)
  exact Frame.iff_of key hW

@[simp] theorem State.clearDead_frame {W : List Part} {r s : State} (x1 : Nat) (hW : [.edg] ⊆ W) : Frame W r (State.clearDead s x1)
    ↔ Frame W r s := by
  have key : Frame [.edg] s (State.clearDead s x1) := by
    simp [State.clearDead]
  exact Frame.iff_of key hW

@[simp] theorem State.setVerified_frame {W : List Part} {r s : State} (x1 : Nat) (x2 : Bool) (x3 : Nat) (x4 : Bool) (hW : [.edg] ⊆ W)
    : Frame W r (State.setVerified s x1 x2 x3 x4) ↔ Frame W r s := by
  have key : Frame [.edg] s (State.setVerified s x1 x2 x3 x4) := by
    simp [State.setVerified]
  exact Frame.iff_of key hW

@[simp] theorem State.updProf_frame {W : List Part} {r s : State} (x1 : Nat) (x2 : ProfSt → ProfSt) (hW : [.edg] ⊆ W) : Frame W r
    (State.updProf s x1 x2) ↔ Frame W r s := by
  have key : Frame [.edg] s (State.updProf s x1 x2) := by
    simp [State.updProf]
  exact Frame.iff_of key hW

@[simp] theorem State.profNext_frame {W : List Part} {r s : State} (x1 : Nat) (hW : [.edg] ⊆ W) : Frame W r (State.profNext s x1) ↔ Frame W r s := by
  have key : Frame [.edg] s (State.profNext s x1) := by
    simp [State.profNext]
  exact Frame.iff_of key hW

@[simp] theorem State.profFail_frame {W : List Part} {r s : State} (x1 : Nat) (hW : [.regs, .edg] ⊆ W) : Frame W r (State.profFail s x1)
    ↔ Frame W r s := by
  have key : Frame [.regs, .edg] s (State.profFail s x1) := by
    simp [State.profFail]
  exact Frame.iff_of key hW

@[simp] theorem State.profAnswer_frame {W : List Part} {r s : State} (x1 : Nat) (x2 : Nat) (x3 : Word) (hW : [.regs, .edg] ⊆ W) : Frame W r
    (State.profAnswer s x1 x2 x3) ↔ Frame W r s := by
  have key : Frame [.regs, .edg] s (State.profAnswer s x1 x2 x3) := by
    unfold State.profAnswer
    (repeat' split) <;> simp
  exact Frame.iff_of key hW

@[simp] theorem State.profResult_frame {W : List Part} {r s : State} (x1 : SvcWhy) (x2 : Nat) (x3 : Word) (hW : [.regs, .edg] ⊆ W) : Frame W r
    (State.profResult s x1 x2 x3) ↔ Frame W r s := by
  have key : Frame [.regs, .edg] s (State.profResult s x1 x2 x3) := by
    unfold State.profResult
    (repeat' split) <;> simp
  exact Frame.iff_of key hW

end Sys2Proof.Machine
end

