-- ==== Sys2Proof/Laws/Frame2.lean ====
section
/-! SUPPORT. Which parts of the state each operation may change: one lemma per definition of Link, Strings, Arm, Edge. -/

set_option linter.all false
set_option Elab.async false

namespace Sys2Proof.Machine

@[simp] theorem State.laneCount_frame {W : List Part} {r s : State} (x1 : Nat) (x2 : Nat) (x3 : optParam Nat 1) (hW : [.lnk] ⊆ W) : Frame W r
    (State.laneCount s x1 x2 x3) ↔ Frame W r s := by
  have key : Frame [.lnk] s (State.laneCount s x1 x2 x3) := by
    simp [State.laneCount]
  exact Frame.iff_of key hW

@[simp] theorem State.stageSent_frame {W : List Part} {r s : State} (x1 : Nat) (hW : [.cel] ⊆ W) : Frame W r (State.stageSent s x1)
    ↔ Frame W r s := by
  have key : Frame [.cel] s (State.stageSent s x1) := by
    unfold State.stageSent
    (repeat' split) <;> simp
  exact Frame.iff_of key hW

@[simp] theorem State.svcStart_frame {W : List Part} {r s : State} (x1 : Nat) (hW : [.lnk] ⊆ W) : Frame W r (State.svcStart s x1) ↔ Frame W r s := by
  have key : Frame [.lnk] s (State.svcStart s x1) := by
    unfold State.svcStart
    try dsimp only
    repeat' (first | (simp [apply_ite Prod.fst, apply_ite Prod.snd]; done) | split)
  exact Frame.iff_of key hW

@[simp] theorem State.svcSent_frame {W : List Part} {r s : State} (x1 : Nat) (hW : [.lnk] ⊆ W) : Frame W r (State.svcSent s x1) ↔ Frame W r s := by
  have key : Frame [.lnk] s (State.svcSent s x1) := by
    simp [State.svcSent]
  exact Frame.iff_of key hW

@[simp] theorem State.svcAsk_frame {W : List Part} {r s : State} (x1 : Nat) (x2 : SvcWhy) (x3 : Nat) (x4 : Nat) (x5 : Nat) (hW : [.lnk] ⊆ W)
    : Frame W r (State.svcAsk s x1 x2 x3 x4 x5) ↔ Frame W r s := by
  have key : Frame [.lnk] s (State.svcAsk s x1 x2 x3 x4 x5) := by
    simp [State.svcAsk]
  exact Frame.iff_of key hW

@[simp] theorem State.putLine_frame {W : List Part} {r s : State} (x1 : Nat) (x2 : List LineBlock) (hW : [.lnk] ⊆ W) : Frame W r
    (State.putLine s x1 x2) ↔ Frame W r s := by
  have key : Frame [.lnk] s (State.putLine s x1 x2) := by
    simp [State.putLine]
  exact Frame.iff_of key hW

@[simp] theorem State.unitHome_frame {W : List Part} {r s : State} (x1 : Nat) (hW : [.lnk] ⊆ W) : Frame W r (State.unitHome s x1) ↔ Frame W r s := by
  have key : Frame [.lnk] s (State.unitHome s x1) := by
    simp [State.unitHome]
  exact Frame.iff_of key hW

@[simp] theorem State.unitFresh_frame {W : List Part} {r s : State} (x1 : Nat) (hW : [.lnk] ⊆ W) : Frame W r (State.unitFresh s x1)
    ↔ Frame W r s := by
  have key : Frame [.lnk] s (State.unitFresh s x1) := by
    simp [State.unitFresh]
  exact Frame.iff_of key hW

@[simp] theorem State.unitStale_frame {W : List Part} {r s : State} (x1 : Nat) (hW : [.lnk] ⊆ W) : Frame W r (State.unitStale s x1)
    ↔ Frame W r s := by
  have key : Frame [.lnk] s (State.unitStale s x1) := by
    simp [State.unitStale]
  exact Frame.iff_of key hW

@[simp] theorem State.missedEpoch_frame {W : List Part} {r s : State} (x1 : Nat) (x2 : Epoch) (hW : [.lnk] ⊆ W) : Frame W r
    (State.missedEpoch s x1 x2) ↔ Frame W r s := by
  have key : Frame [.lnk] s (State.missedEpoch s x1 x2) := by
    simp [State.missedEpoch]
  exact Frame.iff_of key hW

@[simp] theorem State.skippedDue_frame {W : List Part} {r s : State} (x1 : Nat) (x2 : Epoch) (hW : [.lnk] ⊆ W) : Frame W r
    (State.skippedDue s x1 x2) ↔ Frame W r s := by
  have key : Frame [.lnk] s (State.skippedDue s x1 x2) := by
    unfold State.skippedDue
    (repeat' split) <;> simp
  exact Frame.iff_of key hW

theorem execFrameLaunch_frame {s t : State} (x0 : Nat) (e : execFrameLaunch x0 s = .next t) : Frame [.lnk, .cel] s t := by
  unfold execFrameLaunch at e
  dsimp only at e
  split at e
  · simp only [Host.Outcome.next.injEq] at e
    subst e
    simp only [State.updShelf_frame, State.skippedDue_frame, State.updLane_frame, List.cons_subset, List.mem_cons, List.nil_subset, reduceCtorEq, or_true, true_or, or_false, and_true]
    rw [Frame.foldl (by intro s u; split <;> simp)]
    simp
  · simp only [Host.Outcome.next.injEq] at e
    subst e; simp

@[simp] theorem State.routeChange_frame {W : List Part} {r s : State} (x1 : Nat) (x2 : Bool) (x3 : Nat) (hW : [.lnk] ⊆ W) : Frame W r
    (State.routeChange s x1 x2 x3) ↔ Frame W r s := by
  have key : Frame [.lnk] s (State.routeChange s x1 x2 x3) := by
    simp [State.routeChange]
  exact Frame.iff_of key hW

@[simp] theorem State.staleRouteEnd_frame {W : List Part} {r s : State} (x1 : Nat) (x2 : Bool) (hW : [.lnk] ⊆ W) : Frame W r
    (State.staleRouteEnd s x1 x2) ↔ Frame W r s := by
  have key : Frame [.lnk] s (State.staleRouteEnd s x1 x2) := by
    simp [State.staleRouteEnd]
  exact Frame.iff_of key hW

@[simp] theorem State.receiveSlot_frame {W : List Part} {r s : State} (x1 : Nat) (x2 : Epoch) (x3 : Nat) (x4 : Bool) (x5 : List DWord) (x6
    : List (Option DWord)) (hW : [.regs, .lnk, .cel, .edg] ⊆ W) : Frame W r (State.receiveSlot s x1 x2 x3 x4 x5 x6) ↔ Frame W r s := by
  have key : Frame [.regs, .lnk, .cel, .edg] s (State.receiveSlot s x1 x2 x3 x4 x5 x6) := by
    unfold State.receiveSlot
    (repeat' split) <;> simp
  exact Frame.iff_of key hW

@[simp] theorem State.receiveSpare_frame {W : List Part} {r s : State} (x1 : Nat) (x2 : List DWord) (x3 : List (Option DWord)) (hW : [.regs,
    .lnk] ⊆ W) : Frame W r (State.receiveSpare s x1 x2 x3) ↔ Frame W r s := by
  have key : Frame [.regs, .lnk] s (State.receiveSpare s x1 x2 x3) := by
    unfold State.receiveSpare
    (repeat' split) <;> simp
  exact Frame.iff_of key hW

@[simp] theorem State.missPhase_frame {W : List Part} {r s : State} (x1 : Nat) (x2 : Epoch) (x3 : Nat) (hW : [.lnk] ⊆ W) : Frame W r
    (State.missPhase s x1 x2 x3) ↔ Frame W r s := by
  have key : Frame [.lnk] s (State.missPhase s x1 x2 x3) := by
    simp [State.missPhase]
  exact Frame.iff_of key hW

@[simp] theorem State.discReject_frame {W : List Part} {r s : State} (x1 : Nat) (x2 : Nat) (hW : [.regs, .lnk] ⊆ W) : Frame W r
    (State.discReject s x1 x2) ↔ Frame W r s := by
  have key : Frame [.regs, .lnk] s (State.discReject s x1 x2) := by
    simp [State.discReject]
  exact Frame.iff_of key hW

@[simp] theorem State.updDisc_frame {W : List Part} {r s : State} (x1 : Nat) (x2 : Disc → Disc) (hW : [.lnk] ⊆ W) : Frame W r
    (State.updDisc s x1 x2) ↔ Frame W r s := by
  have key : Frame [.lnk] s (State.updDisc s x1 x2) := by
    simp [State.updDisc]
  exact Frame.iff_of key hW

@[simp] theorem State.discAsk_frame {W : List Part} {r s : State} (x1 : Nat) (x2 : Disc) (x3 : SvcWhy) (hW : [.lnk] ⊆ W) : Frame W r
    (State.discAsk s x1 x2 x3) ↔ Frame W r s := by
  have key : Frame [.lnk] s (State.discAsk s x1 x2 x3) := by
    unfold State.discAsk
    (repeat' split) <;> simp
  exact Frame.iff_of key hW

@[simp] theorem State.putHold_frame {W : List Part} {r s : State} (x1 : Nat) (x2 : Bool) (x3 : SvcWhy) (hW : [.lnk] ⊆ W) : Frame W r
    (State.putHold s x1 x2 x3) ↔ Frame W r s := by
  have key : Frame [.lnk] s (State.putHold s x1 x2 x3) := by
    simp [State.putHold]
  exact Frame.iff_of key hW

@[simp] theorem State.sendHold_frame {W : List Part} {r s : State} (x1 : Nat) (x2 : Bool) (x3 : SvcWhy) (hW : [.lnk] ⊆ W) : Frame W r
    (State.sendHold s x1 x2 x3) ↔ Frame W r s := by
  have key : Frame [.lnk] s (State.sendHold s x1 x2 x3) := by
    simp [State.sendHold]
  exact Frame.iff_of key hW

@[simp] theorem State.leadLong_frame {W : List Part} {r s : State} (hW : [.regs, .prt] ⊆ W) : Frame W r (State.leadLong s) ↔ Frame W r s := by
  have key : Frame [.regs, .prt] s (State.leadLong s) := by
    simp [State.leadLong]
  exact Frame.iff_of key hW

@[simp] theorem State.discMeasured_frame {W : List Part} {r s : State} (x1 : Nat) (x2 : Disc) (hW : [.regs, .lnk, .prt] ⊆ W) : Frame W r
    (State.discMeasured s x1 x2) ↔ Frame W r s := by
  have key : Frame [.regs, .lnk, .prt] s (State.discMeasured s x1 x2) := by
    simp [State.discMeasured]
  exact Frame.iff_of key hW

@[simp] theorem State.discFail_frame {W : List Part} {r s : State} (x1 : Nat) (x2 : Disc) (x3 : SvcWhy) (x4 : Nat) (hW : [.regs, .lnk] ⊆ W)
    : Frame W r (State.discFail s x1 x2 x3 x4) ↔ Frame W r s := by
  have key : Frame [.regs, .lnk] s (State.discFail s x1 x2 x3 x4) := by
    unfold State.discFail
    (repeat' split) <;> simp
  exact Frame.iff_of key hW

@[simp] theorem State.discRouted_frame {W : List Part} {r s : State} (x1 : Nat) (x2 : Disc) (hW : [.lnk] ⊆ W) : Frame W r
    (State.discRouted s x1 x2) ↔ Frame W r s := by
  have key : Frame [.lnk] s (State.discRouted s x1 x2) := by
    simp [State.discRouted]
  exact Frame.iff_of key hW

@[simp] theorem State.discOk_frame {W : List Part} {r s : State} (x1 : Nat) (x2 : Disc) (x3 : SvcWhy) (x4 : Word) (hW : [.regs, .lnk] ⊆ W)
    : Frame W r (State.discOk s x1 x2 x3 x4) ↔ Frame W r s := by
  have key : Frame [.regs, .lnk] s (State.discOk s x1 x2 x3 x4) := by
    unfold State.discOk
    (repeat' split) <;> simp
  exact Frame.iff_of key hW

@[simp] theorem State.svcEnd_frame {W : List Part} {r s : State} (x1 : Nat) (x2 : SvcWhy) (x3 : Nat) (x4 : Word) (hW : [.regs, .lnk, .edg] ⊆ W)
    : Frame W r (State.svcEnd s x1 x2 x3 x4) ↔ Frame W r s := by
  have key : Frame [.regs, .lnk, .edg] s (State.svcEnd s x1 x2 x3 x4) := by
    unfold State.svcEnd
    try dsimp only
    repeat' (first | (simp [apply_ite Prod.fst, apply_ite Prod.snd]; done) | split)
  exact Frame.iff_of key hW

@[simp] theorem State.svcAnswer_frame {W : List Part} {r s : State} (x1 : Nat) (x2 : Option DWord) (hW : [.regs, .lnk, .edg] ⊆ W) : Frame W r
    (State.svcAnswer s x1 x2) ↔ Frame W r s := by
  have key : Frame [.regs, .lnk, .edg] s (State.svcAnswer s x1 x2) := by
    unfold State.svcAnswer
    (repeat' split) <;> simp
  exact Frame.iff_of key hW

@[simp] theorem State.turnSeen_frame {W : List Part} {r s : State} (x1 : Nat) (x2 : Option DWord) (hW : [.lnk] ⊆ W) : Frame W r
    (State.turnSeen s x1 x2) ↔ Frame W r s := by
  have key : Frame [.lnk] s (State.turnSeen s x1 x2) := by
    unfold State.turnSeen
    (repeat' split) <;> simp
  exact Frame.iff_of key hW

@[simp] theorem State.receiveSlots_frame {W : List Part} {r s : State} (x1 : Nat) (x2 : Sent) (x3 : List (Option DWord)) (hW : [.regs, .lnk,
    .cel, .edg] ⊆ W) : Frame W r (State.receiveSlots s x1 x2 x3) ↔ Frame W r s := by
  have key : Frame [.regs, .lnk, .cel, .edg] s (State.receiveSlots s x1 x2 x3) := by
    unfold State.receiveSlots
    dsimp only
    rw [State.missPhase_frame _ _ _ (by simp), Frame.foldl (by intro s i; split <;> simp)]
    simp
  exact Frame.iff_of key hW

@[simp] theorem State.dropFlight_frame {W : List Part} {r s : State} (x1 : Nat) (x2 : Sent) (hW : [.lnk, .cel] ⊆ W) : Frame W r
    (State.dropFlight s x1 x2) ↔ Frame W r s := by
  have key : Frame [.lnk, .cel] s (State.dropFlight s x1 x2) := by
    simp [State.dropFlight]
  exact Frame.iff_of key hW

@[simp] theorem State.frameMissed_frame {W : List Part} {r s : State} (x1 : Nat) (x2 : Sent) (hW : [.regs, .lnk, .cel, .edg] ⊆ W) : Frame W r
    (State.frameMissed s x1 x2) ↔ Frame W r s := by
  have key : Frame [.regs, .lnk, .cel, .edg] s (State.frameMissed s x1 x2) := by
    simp [State.frameMissed]
  exact Frame.iff_of key hW

@[simp] theorem State.lineSeen_frame {W : List Part} {r s : State} (x1 : Nat) (x2 : List LineBlock) (hW : [.lnk] ⊆ W) : Frame W r
    (State.lineSeen s x1 x2) ↔ Frame W r s := by
  have key : Frame [.lnk] s (State.lineSeen s x1 x2) := by
    simp [State.lineSeen]
  exact Frame.iff_of key hW

@[simp] theorem State.frameDelivered_frame {W : List Part} {r s : State} (x1 : Nat) (x2 : Sent) (x3 : List LineBlock) (x4 : Nat) (hW : [.regs,
    .lnk, .cel, .edg] ⊆ W) : Frame W r (State.frameDelivered s x1 x2 x3 x4) ↔ Frame W r s := by
  have key : Frame [.regs, .lnk, .cel, .edg] s (State.frameDelivered s x1 x2 x3 x4) := by
    simp [State.frameDelivered]
  exact Frame.iff_of key hW

@[simp] theorem State.frameLost_frame {W : List Part} {r s : State} (x1 : Nat) (x2 : Sent) (hW : [.regs, .lnk, .cel, .edg] ⊆ W) : Frame W r
    (State.frameLost s x1 x2) ↔ Frame W r s := by
  have key : Frame [.regs, .lnk, .cel, .edg] s (State.frameLost s x1 x2) := by
    simp [State.frameLost]
  exact Frame.iff_of key hW

theorem execReturnFrameReceive_frame {s t : State} (x0 : Nat) (x1 : List LineBlock) (e : execReturnFrameReceive x0 x1 s = .next t)
    : Frame [.regs, .lnk, .cel, .edg] s t := by
  unfold execReturnFrameReceive at e
  try dsimp only at e
  (repeat' split at e) <;> (simp only [Host.Outcome.next.injEq, reduceCtorEq] at e) <;> (subst e; simp)

theorem execHeaderWindowMiss_frame {s t : State} (x0 : MissedFrame) (e : execHeaderWindowMiss x0 s = .next t) : Frame [.regs, .lnk, .cel,
    .edg] s t := by
  unfold execHeaderWindowMiss at e
  split at e
  · simp only [Host.Outcome.next.injEq] at e
    subst e; simp
  · exact execReturnFrameReceive_frame _ _ e

theorem execReturnOffsetAcquire_frame {s t : State} (x0 : Nat) (x1 : Nat) (x2 : LineBlock) (x3 : LineBlock) (e
    : execReturnOffsetAcquire x0 x1 x2 x3 s = .next t) : Frame [.lnk] s t := by
  unfold execReturnOffsetAcquire at e
  try dsimp only at e
  (repeat' split at e) <;> (simp only [Host.Outcome.next.injEq, reduceCtorEq] at e) <;> (subst e; simp)

theorem execLockLoss_frame {s t : State} (x0 : LockLost) (e : execLockLoss x0 s = .next t) : Frame [.regs, .lnk, .saf] s t := by
  unfold execLockLoss at e
  try dsimp only at e
  (repeat' split at e) <;> (simp only [Host.Outcome.next.injEq, reduceCtorEq] at e) <;> (subst e; simp)

theorem execBlockLockAcquire_frame {s t : State} (x0 : Nat) (x1 : List Nat) (e : execBlockLockAcquire x0 x1 s = .next t) : Frame [.lnk,
    .saf] s t := by
  unfold execBlockLockAcquire at e
  try dsimp only at e
  (repeat' split at e) <;> (simp only [Host.Outcome.next.injEq, reduceCtorEq] at e) <;> (subst e; simp)

theorem execSvcTimeout_frame {s t : State} (x0 : Nat) (e : execSvcTimeout x0 s = .next t) : Frame [.regs, .lnk, .edg] s t := by
  unfold execSvcTimeout at e
  try dsimp only at e
  (repeat' split at e) <;> (simp only [Host.Outcome.next.injEq, reduceCtorEq] at e) <;> (subst e; simp)

@[simp] theorem State.discBegin_frame {W : List Part} {r s : State} (x1 : Nat) (x2 : Nat) (x3 : Nat) (x4 : Bool) (hW : [.lnk] ⊆ W) : Frame W r
    (State.discBegin s x1 x2 x3 x4) ↔ Frame W r s := by
  have key : Frame [.lnk] s (State.discBegin s x1 x2 x3 x4) := by
    simp [State.discBegin]
  exact Frame.iff_of key hW

theorem execDiscoveryStart_frame {s t : State} (x0 : Nat) (e : execDiscoveryStart x0 s = .next t) : Frame [.lnk] s t := by
  unfold execDiscoveryStart at e
  try dsimp only at e
  (repeat' split at e) <;> (simp only [Host.Outcome.next.injEq, reduceCtorEq] at e) <;> (subst e; simp)

@[simp] theorem State.insertBlock_frame {W : List Part} {r s : State} (x1 : Nat) (x2 : Nat) (hW : [.lnk] ⊆ W) : Frame W r
    (State.insertBlock s x1 x2) ↔ Frame W r s := by
  have key : Frame [.lnk] s (State.insertBlock s x1 x2) := by
    simp [State.insertBlock]
  exact Frame.iff_of key hW

@[simp] theorem State.sendBlocks_frame {W : List Part} {r s : State} (x1 : Nat) (hW : [.lnk] ⊆ W) : Frame W r (State.sendBlocks s x1)
    ↔ Frame W r s := by
  have key : Frame [.lnk] s (State.sendBlocks s x1) := by
    simp [State.sendBlocks]
  exact Frame.iff_of key hW

@[simp] theorem State.placeProbe_frame {W : List Part} {r s : State} (x1 : Nat) (x2 : Nat) (hW : [.lnk] ⊆ W) : Frame W r
    (State.placeProbe s x1 x2) ↔ Frame W r s := by
  have key : Frame [.lnk] s (State.placeProbe s x1 x2) := by
    simp [State.placeProbe]
  exact Frame.iff_of key hW

theorem execProbeSend_frame {s t : State} (x0 : Nat) (e : execProbeSend x0 s = .next t) : Frame [.lnk] s t := by
  unfold execProbeSend at e
  try dsimp only at e
  (repeat' split at e) <;> (simp only [Host.Outcome.next.injEq, reduceCtorEq] at e) <;> (subst e; simp)

@[simp] theorem State.drift_frame {W : List Part} {r s : State} (x1 : Nat) (x2 : Bool) (x3 : Nat) (hW : [.regs, .lnk, .prt] ⊆ W) : Frame W r
    (State.drift s x1 x2 x3) ↔ Frame W r s := by
  have key : Frame [.regs, .lnk, .prt] s (State.drift s x1 x2 x3) := by
    simp [State.drift]
  exact Frame.iff_of key hW

@[simp] theorem State.delaySeen_frame {W : List Part} {r s : State} (x1 : Nat) (x2 : Bool) (x3 : Nat) (hW : [.regs, .lnk, .prt] ⊆ W) : Frame W r
    (State.delaySeen s x1 x2 x3) ↔ Frame W r s := by
  have key : Frame [.regs, .lnk, .prt] s (State.delaySeen s x1 x2 x3) := by
    simp [State.delaySeen]
  exact Frame.iff_of key hW

theorem execEchoReceive_frame {s t : State} (x0 : Nat) (x1 : LineBlock) (x2 : Nat) (e : execEchoReceive x0 x1 x2 s = .next t) : Frame [.regs,
    .lnk, .prt] s t := by
  unfold execEchoReceive at e
  try dsimp only at e
  (repeat' split at e) <;> (simp only [Host.Outcome.next.injEq, reduceCtorEq] at e) <;> (subst e; simp)

theorem execProbeLost_frame {s t : State} (x0 : Nat) (e : execProbeLost x0 s = .next t) : Frame [.regs, .lnk] s t := by
  unfold execProbeLost at e
  try dsimp only at e
  (repeat' split at e) <;> (simp only [Host.Outcome.next.injEq, reduceCtorEq] at e) <;> (subst e; simp)

@[simp] theorem State.retrim_frame {W : List Part} {r s : State} (x1 : Nat) (hW : [.regs, .lnk, .prt] ⊆ W) : Frame W r (State.retrim s x1)
    ↔ Frame W r s := by
  have key : Frame [.regs, .lnk, .prt] s (State.retrim s x1) := by
    unfold State.retrim
    try dsimp only
    repeat' (first | (simp [apply_ite Prod.fst, apply_ite Prod.snd]; done) | split)
  exact Frame.iff_of key hW

theorem execLeadTrimChange_frame {s t : State} (x0 : Nat) (e : execLeadTrimChange x0 s = .next t) : Frame [.regs, .lnk, .prt] s t := by
  unfold execLeadTrimChange at e
  try dsimp only at e
  (repeat' split at e) <;> (simp only [Host.Outcome.next.injEq, reduceCtorEq] at e) <;> (subst e; simp)

@[simp] theorem State.unobserve_frame {W : List Part} {r s : State} (x1 : Nat) (hW : [.lnk] ⊆ W) : Frame W r (State.unobserve s x1)
    ↔ Frame W r s := by
  have key : Frame [.lnk] s (State.unobserve s x1) := by
    simp [State.unobserve]
  exact Frame.iff_of key hW

theorem execCutOff_frame {s t : State} (x0 : Nat) (e : execCutOff x0 s = .next t) : Frame [.lnk] s t := by
  unfold execCutOff at e
  try dsimp only at e
  (repeat' split at e) <;> (simp only [Host.Outcome.next.injEq, reduceCtorEq] at e) <;> (subst e; simp)

theorem execUnitUnobserved_frame {s t : State} (x0 : Nat) (e : execUnitUnobserved x0 s = .next t) : Frame [.lnk] s t := by
  unfold execUnitUnobserved at e
  try dsimp only at e
  (repeat' split at e) <;> (simp only [Host.Outcome.next.injEq, reduceCtorEq] at e) <;> (subst e; simp)

theorem execRouteReassign_frame {s t : State} (x0 : Nat) (e : execRouteReassign x0 s = .next t) : Frame [.lnk] s t := by
  unfold execRouteReassign at e
  try dsimp only at e
  (repeat' split at e) <;> (simp only [Host.Outcome.next.injEq, reduceCtorEq] at e) <;> (subst e; simp)

@[simp] theorem State.strResult_frame {W : List Part} {r s : State} (x1 : Nat) (hW : [.regs] ⊆ W) : Frame W r (State.strResult s x1)
    ↔ Frame W r s := by
  have key : Frame [.regs] s (State.strResult s x1) := by
    simp [State.strResult]
  exact Frame.iff_of key hW

@[simp] theorem State.strAction_frame {W : List Part} {r s : State} (x1 : Requester) (x2 : State → State) (hf : ∀ y, Frame W y (x2 y)) (hW
    : [.regs, .mgmtStatus, .hats, .out] ⊆ W) : Frame W r (State.strAction s x1 x2) ↔ Frame W r s := by
  simp only [List.cons_subset, List.nil_subset, and_true] at hW
  refine Frame.iff_of (V := W) ?_ (List.Subset.refl _)
  unfold State.strAction
  rw [State.asOwner_frame _ _ _ (by intro s; split <;> simp [hf, hW]) (by simp [hW])]
  simp

@[simp] theorem State.verifyArm_frame {W : List Part} {r s : State} (x1 : Nat) (x2 : Nat) (x3 : Nat) (hW : [.lnk] ⊆ W) : Frame W r
    (State.verifyArm s x1 x2 x3) ↔ Frame W r s := by
  have key : Frame [.lnk] s (State.verifyArm s x1 x2 x3) := by
    simp [State.verifyArm]
  exact Frame.iff_of key hW

@[simp] theorem State.bridgeVerify_frame {W : List Part} {r s : State} (x1 : Nat) (hW : [.regs, .lnk] ⊆ W) : Frame W r (State.bridgeVerify s x1)
    ↔ Frame W r s := by
  have key : Frame [.regs, .lnk] s (State.bridgeVerify s x1) := by
    simp [State.bridgeVerify]
  exact Frame.iff_of key hW

@[simp] theorem State.verifyMove_frame {W : List Part} {r s : State} (x1 : LnkAction) (hW : [.lnk] ⊆ W) : Frame W r (State.verifyMove s x1)
    ↔ Frame W r s := by
  have key : Frame [.lnk] s (State.verifyMove s x1) := by
    simp [State.verifyMove]
  exact Frame.iff_of key hW

@[simp] theorem State.setMoving_frame {W : List Part} {r s : State} (x1 : Nat) (hW : [.lnk] ⊆ W) : Frame W r (State.setMoving s x1)
    ↔ Frame W r s := by
  have key : Frame [.lnk] s (State.setMoving s x1) := by
    simp [State.setMoving]
  exact Frame.iff_of key hW

@[simp] theorem State.handback_frame {W : List Part} {r s : State} (x1 : Nat) (hW : [.lnk] ⊆ W) : Frame W r (State.handback s x1) ↔ Frame W r s := by
  have key : Frame [.lnk] s (State.handback s x1) := by
    simp [State.handback]
  exact Frame.iff_of key hW

@[simp] theorem State.verifyEnd_frame {W : List Part} {r s : State} (x1 : LnkAction) (x2 : Nat) (hW : [.regs, .lnk] ⊆ W) : Frame W r
    (State.verifyEnd s x1 x2) ↔ Frame W r s := by
  have key : Frame [.regs, .lnk] s (State.verifyEnd s x1 x2) := by
    simp [State.verifyEnd]
  exact Frame.iff_of key hW

@[simp] theorem State.retrimPair_frame {W : List Part} {r s : State} (x1 : Nat) (hW : [.regs, .lnk, .prt] ⊆ W) : Frame W r
    (State.retrimPair s x1) ↔ Frame W r s := by
  have key : Frame [.regs, .lnk, .prt] s (State.retrimPair s x1) := by
    simp [State.retrimPair]
  exact Frame.iff_of key hW

@[simp] theorem State.verifyFail_frame {W : List Part} {r s : State} (x1 : LnkAction) (x2 : Nat) (hW : [.regs, .lnk, .prt] ⊆ W) : Frame W r
    (State.verifyFail s x1 x2) ↔ Frame W r s := by
  have key : Frame [.regs, .lnk, .prt] s (State.verifyFail s x1 x2) := by
    simp [State.verifyFail]
  exact Frame.iff_of key hW

theorem execBridgeVerifyNoPath_frame {s t : State} (e : execBridgeVerifyNoPath s = .next t) : Frame [.regs, .lnk, .prt] s t := by
  unfold execBridgeVerifyNoPath at e
  try dsimp only at e
  (repeat' split at e) <;> (simp only [Host.Outcome.next.injEq, reduceCtorEq] at e) <;> (subst e; simp)

@[simp] theorem State.verifyFinish_frame {W : List Part} {r s : State} (x1 : LnkAction) (hW : [.regs, .lnk, .prt] ⊆ W) : Frame W r
    (State.verifyFinish s x1) ↔ Frame W r s := by
  have key : Frame [.regs, .lnk, .prt] s (State.verifyFinish s x1) := by
    unfold State.verifyFinish
    try dsimp only
    repeat' (first | (simp [apply_ite Prod.fst, apply_ite Prod.snd]; done) | split)
  exact Frame.iff_of key hW

@[simp] theorem State.verifyStep_frame {W : List Part} {r s : State} (x1 : LnkAction) (hW : [.regs, .lnk, .prt] ⊆ W) : Frame W r
    (State.verifyStep s x1) ↔ Frame W r s := by
  have key : Frame [.regs, .lnk, .prt] s (State.verifyStep s x1) := by
    unfold State.verifyStep
    try dsimp only
    repeat' (first | (simp [apply_ite Prod.fst, apply_ite Prod.snd]; done) | split)
  exact Frame.iff_of key hW

@[simp] theorem State.clearQuarantine_frame {W : List Part} {r s : State} (x1 : Nat) (hW : [.regs, .lnk] ⊆ W) : Frame W r
    (State.clearQuarantine s x1) ↔ Frame W r s := by
  have key : Frame [.regs, .lnk] s (State.clearQuarantine s x1) := by
    simp [State.clearQuarantine]
  exact Frame.iff_of key hW

@[simp] theorem State.clearCounters_frame {W : List Part} {r s : State} (x1 : Nat) (hW : [.regs, .lnk] ⊆ W) : Frame W r
    (State.clearCounters s x1) ↔ Frame W r s := by
  have key : Frame [.regs, .lnk] s (State.clearCounters s x1) := by
    simp [State.clearCounters]
  exact Frame.iff_of key hW

@[simp] theorem State.clearLost_frame {W : List Part} {r s : State} (x1 : Nat) (hW : [.regs, .lnk] ⊆ W) : Frame W r (State.clearLost s x1)
    ↔ Frame W r s := by
  have key : Frame [.regs, .lnk] s (State.clearLost s x1) := by
    simp [State.clearLost]
  exact Frame.iff_of key hW

@[simp] theorem State.retrimAction_frame {W : List Part} {r s : State} (x1 : Nat) (hW : [.regs, .lnk, .prt] ⊆ W) : Frame W r
    (State.retrimAction s x1) ↔ Frame W r s := by
  have key : Frame [.regs, .lnk, .prt] s (State.retrimAction s x1) := by
    simp [State.retrimAction]
  exact Frame.iff_of key hW

@[simp] theorem State.lnkAction_frame {W : List Part} {r s : State} (x1 : Requester) (x2 : Nat) (x3 : Nat) (hW : [.regs, .mgmtStatus, .lnk,
    .prt, .hats, .out] ⊆ W) : Frame W r (State.lnkAction s x1 x2 x3) ↔ Frame W r s := by
  have key : Frame [.regs, .mgmtStatus, .lnk, .prt, .hats, .out] s (State.lnkAction s x1 x2 x3) := by
    unfold State.lnkAction
    (repeat' split) <;> simp
  exact Frame.iff_of key hW

theorem execBridgeDiscovery_frame {s t : State} (x0 : Nat) (e : execBridgeDiscovery x0 s = .next t) : Frame [.lnk] s t := by
  unfold execBridgeDiscovery at e
  try dsimp only at e
  (repeat' split at e) <;> (simp only [Host.Outcome.next.injEq, reduceCtorEq] at e) <;> (subst e; simp)

theorem execHandoverStart_frame {s t : State} (x0 : Nat) (e : execHandoverStart x0 s = .next t) : Frame [.regs, .lnk] s t := by
  unfold execHandoverStart at e
  try dsimp only at e
  (repeat' split at e) <;> (simp only [Host.Outcome.next.injEq, reduceCtorEq] at e) <;> (subst e; simp)

theorem execHandoverEnd_frame {s t : State} (x0 : Nat) (e : execHandoverEnd x0 s = .next t) : Frame [.lnk] s t := by
  unfold execHandoverEnd at e
  try dsimp only at e
  (repeat' split at e) <;> (simp only [Host.Outcome.next.injEq, reduceCtorEq] at e) <;> (subst e; simp)

@[simp] theorem State.handbackGo_frame {W : List Part} {r s : State} (x1 : Nat) (hW : [.regs, .lnk] ⊆ W) : Frame W r (State.handbackGo s x1)
    ↔ Frame W r s := by
  have key : Frame [.regs, .lnk] s (State.handbackGo s x1) := by
    simp [State.handbackGo]
  exact Frame.iff_of key hW

theorem execHandbackStart_frame {s t : State} (x0 : Nat) (e : execHandbackStart x0 s = .next t) : Frame [.lnk] s t := by
  unfold execHandbackStart at e
  try dsimp only at e
  (repeat' split at e) <;> (simp only [Host.Outcome.next.injEq, reduceCtorEq] at e) <;> (subst e; simp)

@[simp] theorem State.pairNormal_frame {W : List Part} {r s : State} (x1 : Nat) (hW : [.lnk] ⊆ W) : Frame W r (State.pairNormal s x1)
    ↔ Frame W r s := by
  have key : Frame [.lnk] s (State.pairNormal s x1) := by
    simp [State.pairNormal]
  exact Frame.iff_of key hW

theorem execHandbackComplete_frame {s t : State} (x0 : Nat) (e : execHandbackComplete x0 s = .next t) : Frame [.regs, .lnk] s t := by
  unfold execHandbackComplete at e
  try dsimp only at e
  (repeat' split at e) <;> (simp only [Host.Outcome.next.injEq, reduceCtorEq] at e) <;> (subst e; simp)

theorem execHandbackAbort_frame {s t : State} (x0 : Nat) (e : execHandbackAbort x0 s = .next t) : Frame [.regs, .lnk] s t := by
  unfold execHandbackAbort at e
  try dsimp only at e
  (repeat' split at e) <;> (simp only [Host.Outcome.next.injEq, reduceCtorEq] at e) <;> (subst e; simp)

@[simp] theorem State.laneFlush_frame {W : List Part} {r s : State} (x1 : Nat) (hW : [.regs, .lnk, .cel, .edg] ⊆ W) : Frame W r
    (State.laneFlush s x1) ↔ Frame W r s := by
  have key : Frame [.regs, .lnk, .cel, .edg] s (State.laneFlush s x1) := by
    simp [State.laneFlush]
  exact Frame.iff_of key hW

theorem execQuarantine_frame {s t : State} (x0 : Nat) (e : execQuarantine x0 s = .next t) : Frame [.regs, .lnk, .cel, .edg] s t := by
  unfold execQuarantine at e
  try dsimp only at e
  (repeat' split at e) <;> (simp only [Host.Outcome.next.injEq, reduceCtorEq] at e) <;> (subst e; simp)

@[simp] theorem State.stringsReset_frame {W : List Part} {r s : State} (hW : [.lnk, .cel] ⊆ W) : Frame W r (State.stringsReset s) ↔ Frame W r s := by
  have key : Frame [.lnk, .cel] s (State.stringsReset s) := by
    simp [State.stringsReset]
  exact Frame.iff_of key hW

@[simp] theorem State.gapCheck_frame {W : List Part} {r s : State} (hW : [.regs] ⊆ W) : Frame W r (State.gapCheck s) ↔ Frame W r s := by
  have key : Frame [.regs] s (State.gapCheck s) := by
    simp [State.gapCheck]
  exact Frame.iff_of key hW

@[simp] theorem State.stringsOff_frame {W : List Part} {r s : State} (hW : [.regs, .lnk] ⊆ W) : Frame W r (State.stringsOff s) ↔ Frame W r s := by
  have key : Frame [.regs, .lnk] s (State.stringsOff s) := by
    simp [State.stringsOff]
  exact Frame.iff_of key hW

@[simp] theorem State.pairBoundary_frame {W : List Part} {r s : State} (x1 : Nat) (hW : [.lnk] ⊆ W) : Frame W r (State.pairBoundary s x1)
    ↔ Frame W r s := by
  have key : Frame [.lnk] s (State.pairBoundary s x1) := by
    unfold State.pairBoundary
    extract_lets p watch verifying i1 s1 s2
    have hi : Frame [.lnk] s i1 := by
      simp only [i1]
      split <;> simp
    clear_value i1
    have h1 : Frame [.lnk] s s1 := by
      simp only [s1]
      (repeat' split)
      · simp
      · simp
      · simp
      · exact hi.trans (by simp)
    have h2 : Frame [.lnk] s s2 := by
      simp only [s2]
      split
      · exact h1.trans (by simp)
      · exact h1
    clear_value s2
    split
    · split
      · split
        · extract_lets s3
          have h3 : Frame [.lnk] s s3 := h2.trans (by simp [s3])
          clear_value s3
          split
          · exact h3
          · exact h3.trans (by simp)
        · exact h2
      · exact h2
    · exact h2
  exact Frame.iff_of key hW

@[simp] theorem State.laneDue_frame {W : List Part} {r s : State} (x1 : Nat) (hW : [.lnk] ⊆ W) : Frame W r (State.laneDue s x1) ↔ Frame W r s := by
  have key : Frame [.lnk] s (State.laneDue s x1) := by
    unfold State.laneDue
    (repeat' split) <;> simp
  exact Frame.iff_of key hW

@[simp] theorem State.laneBoundary_frame {W : List Part} {r s : State} (x1 : Nat) (hW : [.regs, .lnk, .cel, .edg] ⊆ W) : Frame W r
    (State.laneBoundary s x1) ↔ Frame W r s := by
  have key : Frame [.regs, .lnk, .cel, .edg] s (State.laneBoundary s x1) := by
    simp [State.laneBoundary]
  exact Frame.iff_of key hW

@[simp] theorem State.lnkBoundary_frame {W : List Part} {r s : State} (hW : [.regs, .lnk, .cel, .edg, .prt] ⊆ W) : Frame W r
    (State.lnkBoundary s) ↔ Frame W r s := by
  have key : Frame [.regs, .lnk, .cel, .edg, .prt] s (State.lnkBoundary s) := by
    unfold State.lnkBoundary
    try dsimp only
    repeat' (first | (simp [apply_ite Prod.fst, apply_ite Prod.snd]; done) | split)
  exact Frame.iff_of key hW

@[simp] theorem State.lnkTblRead_frame {W : List Part} {r s : State} (x1 : Requester) (hW : [.regs, .mgmtStatus, .hats, .out] ⊆ W) : Frame W r
    (State.lnkTblRead s x1).2 ↔ Frame W r s := by
  have key : Frame [.regs, .mgmtStatus, .hats, .out] s (State.lnkTblRead s x1).2 := by
    simp [State.lnkTblRead, apply_ite Prod.snd]
  exact Frame.iff_of key hW

@[simp] theorem State.account_frame {W : List Part} {r s : State} (x1 : Nat) (hW : [.edg] ⊆ W) : Frame W r (State.account s x1) ↔ Frame W r s := by
  have key : Frame [.edg] s (State.account s x1) := by
    simp [State.account]
  exact Frame.iff_of key hW

@[simp] theorem State.direction_frame {W : List Part} {r s : State} (x1 : Nat) (hW : [.edg] ⊆ W) : Frame W r (State.direction s x1)
    ↔ Frame W r s := by
  have key : Frame [.edg] s (State.direction s x1) := by
    simp [State.direction]
  exact Frame.iff_of key hW

@[simp] theorem State.armAnnex_frame {W : List Part} {r s : State} (x1 : Epoch) (x2 : Nat) (hW : [.cel] ⊆ W) : Frame W r
    (State.armAnnex s x1 x2) ↔ Frame W r s := by
  have key : Frame [.cel] s (State.armAnnex s x1 x2) := by
    simp [State.armAnnex]
  exact Frame.iff_of key hW

@[simp] theorem State.armPass_frame {W : List Part} {r s : State} (x1 : Nat) (hW : [.regs, .cel, .edg] ⊆ W) : Frame W r (State.armPass s x1)
    ↔ Frame W r s := by
  have key : Frame [.regs, .cel, .edg] s (State.armPass s x1) := by
    simp [State.armPass]
  exact Frame.iff_of key hW

theorem execArmEnginePass_frame {s t : State} (x0 : Nat) (e : execArmEnginePass x0 s = .next t) : Frame [.regs, .sys, .cel, .edg, .prt] s t := by
  unfold execArmEnginePass at e
  try dsimp only at e
  (repeat' split at e) <;> (simp only [Host.Outcome.next.injEq, reduceCtorEq] at e) <;> (subst e; simp)

@[simp] theorem State.remember_frame {W : List Part} {r s : State} (x1 : Epoch) (x2 : Bool) (x3 : UnitPlan) (hW : [.edg] ⊆ W) : Frame W r
    (State.remember s x1 x2 x3) ↔ Frame W r s := by
  have key : Frame [.edg] s (State.remember s x1 x2 x3) := by
    simp [State.remember]
  exact Frame.iff_of key hW

@[simp] theorem State.updByp_frame {W : List Part} {r s : State} (x1 : Nat) (x2 : BypSt → BypSt) (hW : [.edg] ⊆ W) : Frame W r
    (State.updByp s x1 x2) ↔ Frame W r s := by
  have key : Frame [.edg] s (State.updByp s x1 x2) := by
    simp [State.updByp]
  exact Frame.iff_of key hW

@[simp] theorem State.bypStep_frame {W : List Part} {r s : State} (x1 : Nat) (x2 : Epoch) (x3 : Bool) (hW : [.edg] ⊆ W) : Frame W r
    (State.bypStep s x1 x2 x3).1 ↔ Frame W r s := by
  have key : Frame [.edg] s (State.bypStep s x1 x2 x3).1 := by
    unfold State.bypStep
    try dsimp only
    repeat' (first | (simp [apply_ite Prod.fst, apply_ite Prod.snd]; done) | split)
  exact Frame.iff_of key hW

@[simp] theorem State.buildOrder_frame {W : List Part} {r s : State} (x1 : Nat) (x2 : Bool) (x3 : List (ClassPlan × ClassPlaced)) (x4 : Nat)
    (hW : [.edg] ⊆ W) : Frame W r (State.buildOrder s x1 x2 x3 x4).1 ↔ Frame W r s := by
  have key : Frame [.edg] s (State.buildOrder s x1 x2 x3 x4).1 := by
    simp [State.buildOrder]
  exact Frame.iff_of key hW

@[simp] theorem State.edgeGroup_frame {W : List Part} {r s : State} (x1 : Epoch) (x2 : Nat) (hW : [.cel, .edg] ⊆ W) : Frame W r
    (State.edgeGroup s x1 x2) ↔ Frame W r s := by
  have key : Frame [.cel, .edg] s (State.edgeGroup s x1 x2) := by
    unfold State.edgeGroup
    extract_lets a missed plans us placed s1 fin carry r s2 bs ps trs per ups cnt mk counts s3 forces byps idle cap
    have h1 : Frame [.cel, .edg] s s1 := by
      simp only [s1]
      rw [Frame.foldl (by intro s x; simp)]
      simp
    have h2 : Frame [.cel, .edg] s s2 := by
      simp only [s2, r]
      rw [Frame.foldl_fst (by intro x h; simp)]
      exact h1
    have h3 : Frame [.cel, .edg] s s3 := h2.trans (by simp [s3])
    split
    · exact h3
    · rw [State.annexPut_frame _ _ _ (by simp)]
      exact h3
  exact Frame.iff_of key hW

@[simp] theorem State.edgePass_frame {W : List Part} {r s : State} (hW : [.cel, .edg] ⊆ W) : Frame W r (State.edgePass s) ↔ Frame W r s := by
  have key : Frame [.cel, .edg] s (State.edgePass s) := by
    unfold State.edgePass
    dsimp only
    rw [Frame.foldl (by intro s g; exact (State.edgeGroup_frame _ _ (List.Subset.refl _)).mpr (Frame.refl _))]
    simp
  exact Frame.iff_of key hW

theorem execEdgePlannerPass_frame {s t : State} (e : execEdgePlannerPass s = .next t) : Frame [.regs, .sys, .cel, .edg, .prt] s t := by
  unfold execEdgePlannerPass at e
  try dsimp only at e
  (repeat' split at e) <;> (simp only [Host.Outcome.next.injEq, reduceCtorEq] at e) <;> (subst e; simp)

theorem execProfileLoad_frame {s t : State} (x0 : Nat) (e : execProfileLoad x0 s = .next t) : Frame [.lnk, .edg] s t := by
  unfold execProfileLoad at e
  try dsimp only at e
  (repeat' split at e) <;> (simp only [Host.Outcome.next.injEq, reduceCtorEq] at e) <;> (subst e; simp)

@[simp] theorem State.profChanged_frame {W : List Part} {r s : State} (x1 : Nat) (x2 : Nat) (x3 : Nat) (hW : [.edg] ⊆ W) : Frame W r
    (State.profChanged s x1 x2 x3) ↔ Frame W r s := by
  have key : Frame [.edg] s (State.profChanged s x1 x2 x3) := by
    simp [State.profChanged]
  exact Frame.iff_of key hW

@[simp] theorem State.forceResult_frame {W : List Part} {r s : State} (x1 : Nat) (hW : [.regs] ⊆ W) : Frame W r (State.forceResult s x1)
    ↔ Frame W r s := by
  have key : Frame [.regs] s (State.forceResult s x1) := by
    simp [State.forceResult]
  exact Frame.iff_of key hW

@[simp] theorem State.forceSet_frame {W : List Part} {r s : State} (x1 : Nat) (x2 : Nat) (hW : [.regs, .edg] ⊆ W) : Frame W r
    (State.forceSet s x1 x2) ↔ Frame W r s := by
  have key : Frame [.regs, .edg] s (State.forceSet s x1 x2) := by
    simp [State.forceSet]
  exact Frame.iff_of key hW

@[simp] theorem State.forceRelease_frame {W : List Part} {r s : State} (x1 : Nat) (hW : [.edg] ⊆ W) : Frame W r (State.forceRelease s x1)
    ↔ Frame W r s := by
  have key : Frame [.edg] s (State.forceRelease s x1) := by
    simp [State.forceRelease]
  exact Frame.iff_of key hW

@[simp] theorem State.releaseAll_frame {W : List Part} {r s : State} (hW : [.edg] ⊆ W) : Frame W r (State.releaseAll s) ↔ Frame W r s := by
  have key : Frame [.edg] s (State.releaseAll s) := by
    simp [State.releaseAll]
  exact Frame.iff_of key hW

@[simp] theorem State.forceAction_frame {W : List Part} {r s : State} (x1 : Requester) (x2 : Word) (hW : [.regs, .mgmtStatus, .edg, .hats,
    .out] ⊆ W) : Frame W r (State.forceAction s x1 x2) ↔ Frame W r s := by
  have key : Frame [.regs, .mgmtStatus, .edg, .hats, .out] s (State.forceAction s x1 x2) := by
    simp [State.forceAction]
  exact Frame.iff_of key hW

@[simp] theorem State.bypStart_frame {W : List Part} {r s : State} (x1 : Nat) (hW : [.edg] ⊆ W) : Frame W r (State.bypStart s x1) ↔ Frame W r s := by
  have key : Frame [.edg] s (State.bypStart s x1) := by
    simp [State.bypStart]
  exact Frame.iff_of key hW

@[simp] theorem State.bypassGo_frame {W : List Part} {r s : State} (x1 : Nat) (hW : [.regs, .edg] ⊆ W) : Frame W r (State.bypassGo s x1)
    ↔ Frame W r s := by
  have key : Frame [.regs, .edg] s (State.bypassGo s x1) := by
    simp [State.bypassGo]
  exact Frame.iff_of key hW

theorem execBypassFire_frame {s t : State} (x0 : Nat) (e : execBypassFire x0 s = .next t) : Frame [.edg] s t := by
  unfold execBypassFire at e
  try dsimp only at e
  (repeat' split at e) <;> (simp only [Host.Outcome.next.injEq, reduceCtorEq] at e) <;> (subst e; simp)

theorem execBypassConfirmTimeout_frame {s t : State} (x0 : Nat) (e : execBypassConfirmTimeout x0 s = .next t) : Frame [.regs, .edg, .prt] s t := by
  unfold execBypassConfirmTimeout at e
  try dsimp only at e
  (repeat' split at e) <;> (simp only [Host.Outcome.next.injEq, reduceCtorEq] at e) <;> (subst e; simp)

theorem execLostBypassRetry_frame {s t : State} (x0 : Nat) (e : execLostBypassRetry x0 s = .next t) : Frame [.edg] s t := by
  unfold execLostBypassRetry at e
  try dsimp only at e
  (repeat' split at e) <;> (simp only [Host.Outcome.next.injEq, reduceCtorEq] at e) <;> (subst e; simp)

theorem execUnitLost_frame {s t : State} (x0 : Nat) (e : execUnitLost x0 s = .next t) : Frame [.regs, .lnk, .edg] s t := by
  unfold execUnitLost at e
  try dsimp only at e
  (repeat' split at e) <;> (simp only [Host.Outcome.next.injEq, reduceCtorEq] at e) <;> (subst e; simp)

theorem execBridgeLimitExpiry_frame {s t : State} (x0 : Nat) (e : execBridgeLimitExpiry x0 s = .next t) : Frame [.regs, .lnk, .edg, .prt] s t := by
  unfold execBridgeLimitExpiry at e
  try dsimp only at e
  (repeat' split at e) <;> (simp only [Host.Outcome.next.injEq, reduceCtorEq] at e) <;> (subst e; simp)

@[simp] theorem State.expiredPair_frame {W : List Part} {r s : State} (x1 : Nat) (hW : [.lnk] ⊆ W) : Frame W r (State.expiredPair s x1)
    ↔ Frame W r s := by
  have key : Frame [.lnk] s (State.expiredPair s x1) := by
    simp [State.expiredPair]
  exact Frame.iff_of key hW

@[simp] theorem State.edgUnit_frame {W : List Part} {r s : State} (x1 : Nat) (hW : [.regs, .edg] ⊆ W) : Frame W r (State.edgUnit s x1)
    ↔ Frame W r s := by
  have key : Frame [.regs, .edg] s (State.edgUnit s x1) := by
    simp [State.edgUnit]
  exact Frame.iff_of key hW

@[simp] theorem State.edgBoundary_frame {W : List Part} {r s : State} (hW : [.regs, .lnk, .edg] ⊆ W) : Frame W r (State.edgBoundary s)
    ↔ Frame W r s := by
  have key : Frame [.regs, .lnk, .edg] s (State.edgBoundary s) := by
    simp [State.edgBoundary]
  exact Frame.iff_of key hW

@[simp] theorem State.edgOff_frame {W : List Part} {r s : State} (hW : [.edg] ⊆ W) : Frame W r (State.edgOff s) ↔ Frame W r s := by
  have key : Frame [.edg] s (State.edgOff s) := by
    simp [State.edgOff]
  exact Frame.iff_of key hW

end Sys2Proof.Machine
end

