-- ==== Sys2Proof/Laws/Frame3.lean ====
section
/-! SUPPORT. Which parts of the state each operation may change: one lemma per definition of Mfe, Converter, Debug, Crates, Hatches, Metering. -/

set_option linter.all false
set_option Elab.async false

namespace Sys2Proof.Machine

@[simp] theorem State.takeSample_frame {W : List Part} {r s : State} (x1 : Nat) (x2 : Bool) (x3 : ℤ) (x4 : ℤ) (x5 : Bool) (hW
    : [.freeCount] ⊆ W) : Frame W r (State.takeSample s x1 x2 x3 x4 x5).2 ↔ Frame W r s := by
  have key : Frame [.freeCount] s (State.takeSample s x1 x2 x3 x4 x5).2 := by
    simp [State.takeSample]
  exact Frame.iff_of key hW

@[simp] theorem State.addSample_frame {W : List Part} {r s : State} (x1 : Nat) (x2 : Sample) (hW : [.mfe] ⊆ W) : Frame W r
    (State.addSample s x1 x2) ↔ Frame W r s := by
  have key : Frame [.mfe] s (State.addSample s x1 x2) := by
    simp [State.addSample]
  exact Frame.iff_of key hW

@[simp] theorem State.checkPair_frame {W : List Part} {r s : State} (x1 : Nat) (x2 : Sample) (x3 : Sample) (hW : [.regs, .mfe] ⊆ W) : Frame W r
    (State.checkPair s x1 x2 x3) ↔ Frame W r s := by
  have key : Frame [.regs, .mfe] s (State.checkPair s x1 x2 x3) := by
    simp [State.checkPair]
  exact Frame.iff_of key hW

@[simp] theorem State.samplePair_frame {W : List Part} {r s : State} (x1 : Nat) (x2 : Nat) (x3 : SampleIn) (x4 : SampleIn) (hW : [.regs, .mfe,
    .freeCount] ⊆ W) : Frame W r (State.samplePair s x1 x2 x3 x4) ↔ Frame W r s := by
  have key : Frame [.regs, .mfe, .freeCount] s (State.samplePair s x1 x2 x3 x4) := by
    simp [State.samplePair]
  exact Frame.iff_of key hW

@[simp] theorem State.endOfSlots_frame {W : List Part} {r s : State} (x1 : Nat) (hW : [.mfe] ⊆ W) : Frame W r (State.endOfSlots s x1)
    ↔ Frame W r s := by
  have key : Frame [.mfe] s (State.endOfSlots s x1) := by
    simp [State.endOfSlots]
  exact Frame.iff_of key hW

@[simp] theorem State.updCmp_frame {W : List Part} {r s : State} (x1 : Nat) (x2 : CmpSt → CmpSt) (hW : [.mfe] ⊆ W) : Frame W r
    (State.updCmp s x1 x2) ↔ Frame W r s := by
  have key : Frame [.mfe] s (State.updCmp s x1 x2) := by
    simp [State.updCmp]
  exact Frame.iff_of key hW

@[simp] theorem State.cmpRelease_frame {W : List Part} {r s : State} (x1 : Nat) (x2 : List SampleIn) (hW : [.mfe] ⊆ W) : Frame W r
    (State.cmpRelease s x1 x2) ↔ Frame W r s := by
  have key : Frame [.mfe] s (State.cmpRelease s x1 x2) := by
    simp [State.cmpRelease]
  exact Frame.iff_of key hW

theorem execSlotSample_frame {s t : State} (x0 : Nat) (x1 : List SampleIn) (x2 : List EncLines) (e : execSlotSample x0 x1 x2 s = .next t)
    : Frame [.regs, .mfe, .freeCount] s t := by
  unfold execSlotSample at e
  try dsimp only at e
  (repeat' split at e) <;> (simp only [Host.Outcome.next.injEq, reduceCtorEq] at e) <;> (subst e; simp)

theorem execGainUpSwitch_frame {s t : State} (x0 : Nat) (e : execGainUpSwitch x0 s = .next t) : Frame [.mfe] s t := by
  unfold execGainUpSwitch at e
  try dsimp only at e
  (repeat' split at e) <;> (simp only [Host.Outcome.next.injEq, reduceCtorEq] at e) <;> (subst e; simp)

@[simp] theorem State.windowMonitor_frame {W : List Part} {r s : State} (x1 : Nat) (hW : [.regs] ⊆ W) : Frame W r (State.windowMonitor s x1)
    ↔ Frame W r s := by
  have key : Frame [.regs] s (State.windowMonitor s x1) := by
    simp [State.windowMonitor]
  exact Frame.iff_of key hW

theorem execEpochValueDelivery_frame {s t : State} (e : execEpochValueDelivery s = .next t) : Frame [.regs, .cel] s t := by
  unfold execEpochValueDelivery at e
  try dsimp only at e
  (repeat' split at e) <;> (simp only [Host.Outcome.next.injEq, reduceCtorEq] at e) <;> (subst e; simp)

theorem execOpenWireDeclare_frame {s t : State} (x0 : Nat) (e : execOpenWireDeclare x0 s = .next t) : Frame [.regs, .mfe] s t := by
  unfold execOpenWireDeclare at e
  try dsimp only at e
  (repeat' split at e) <;> (simp only [Host.Outcome.next.injEq, reduceCtorEq] at e) <;> (subst e; simp)

theorem execOpenWireClear_frame {s t : State} (x0 : Nat) (e : execOpenWireClear x0 s = .next t) : Frame [.mfe] s t := by
  unfold execOpenWireClear at e
  try dsimp only at e
  (repeat' split at e) <;> (simp only [Host.Outcome.next.injEq, reduceCtorEq] at e) <;> (subst e; simp)

theorem execXchkFailure_frame {s t : State} (x0 : Nat) (e : execXchkFailure x0 s = .next t) : Frame [.regs, .mfe] s t := by
  unfold execXchkFailure at e
  try dsimp only at e
  (repeat' split at e) <;> (simp only [Host.Outcome.next.injEq, reduceCtorEq] at e) <;> (subst e; simp)

theorem execXchkRecovery_frame {s t : State} (x0 : Nat) (e : execXchkRecovery x0 s = .next t) : Frame [.mfe] s t := by
  unfold execXchkRecovery at e
  try dsimp only at e
  (repeat' split at e) <;> (simp only [Host.Outcome.next.injEq, reduceCtorEq] at e) <;> (subst e; simp)

@[simp] theorem State.cmpLatch_frame {W : List Part} {r s : State} (x1 : Nat) (x2 : Bool) (x3 : Nat) (hW : [.regs, .mfe] ⊆ W) : Frame W r
    (State.cmpLatch s x1 x2 x3) ↔ Frame W r s := by
  have key : Frame [.regs, .mfe] s (State.cmpLatch s x1 x2 x3) := by
    simp [State.cmpLatch]
  exact Frame.iff_of key hW

@[simp] theorem State.cmpTestTrip_frame {W : List Part} {r s : State} (x1 : Bool) (hW : [.mfe] ⊆ W) : Frame W r (State.cmpTestTrip s x1)
    ↔ Frame W r s := by
  have key : Frame [.mfe] s (State.cmpTestTrip s x1) := by
    simp [State.cmpTestTrip]
  exact Frame.iff_of key hW

@[simp] theorem State.cmpClear_frame {W : List Part} {r s : State} (x1 : Nat) (hW : [.regs] ⊆ W) : Frame W r (State.cmpClear s x1) ↔ Frame W r s := by
  have key : Frame [.regs] s (State.cmpClear s x1) := by
    simp [State.cmpClear]
  exact Frame.iff_of key hW

theorem execRampPeriodStart_frame {s t : State} (x0 : Nat) (e : execRampPeriodStart x0 s = .next t) : Frame [.regs, .mfe] s t := by
  unfold execRampPeriodStart at e
  try dsimp only at e
  (repeat' split at e) <;> (simp only [Host.Outcome.next.injEq, reduceCtorEq] at e) <;> (subst e; simp)

@[simp] theorem State.testResult_frame {W : List Part} {r s : State} (x1 : Nat) (hW : [.regs] ⊆ W) : Frame W r (State.testResult s x1)
    ↔ Frame W r s := by
  have key : Frame [.regs] s (State.testResult s x1) := by
    simp [State.testResult]
  exact Frame.iff_of key hW

@[simp] theorem State.mfeTestStart_frame {W : List Part} {r s : State} (x1 : Nat) (x2 : Nat) (hW : [.regs, .mfe] ⊆ W) : Frame W r
    (State.mfeTestStart s x1 x2) ↔ Frame W r s := by
  have key : Frame [.regs, .mfe] s (State.mfeTestStart s x1 x2) := by
    simp [State.mfeTestStart]
  exact Frame.iff_of key hW

theorem execSelfTestComplete_frame {s t : State} (e : execSelfTestComplete s = .next t) : Frame [.regs, .mfe] s t := by
  unfold execSelfTestComplete at e
  try dsimp only at e
  (repeat' split at e) <;> (simp only [Host.Outcome.next.injEq, reduceCtorEq] at e) <;> (subst e; simp)

@[simp] theorem State.encEval_frame {W : List Part} {r s : State} (x1 : Nat) (hW : [.regs, .mfe] ⊆ W) : Frame W r (State.encEval s x1)
    ↔ Frame W r s := by
  have key : Frame [.regs, .mfe] s (State.encEval s x1) := by
    simp [State.encEval]
  exact Frame.iff_of key hW

theorem execEncoderEvaluation_frame {s t : State} (e : execEncoderEvaluation s = .next t) : Frame [.regs, .mfe, .cel] s t := by
  unfold execEncoderEvaluation at e
  try dsimp only at e
  (repeat' split at e) <;> (simp only [Host.Outcome.next.injEq, reduceCtorEq] at e) <;> (subst e; simp)

@[simp] theorem State.encReref_frame {W : List Part} {r s : State} (x1 : Nat) (x2 : Word) (hW : [.regs] ⊆ W) : Frame W r
    (State.encReref s x1 x2) ↔ Frame W r s := by
  have key : Frame [.regs] s (State.encReref s x1 x2) := by
    simp [State.encReref]
  exact Frame.iff_of key hW

@[simp] theorem State.testAbort_frame {W : List Part} {r s : State} (hW : [.regs, .mfe] ⊆ W) : Frame W r (State.testAbort s) ↔ Frame W r s := by
  have key : Frame [.regs, .mfe] s (State.testAbort s) := by
    unfold State.testAbort
    (repeat' split) <;> simp
  exact Frame.iff_of key hW

@[simp] theorem State.mfeEpochEnd_frame {W : List Part} {r s : State} (hW : [.mfe] ⊆ W) : Frame W r (State.mfeEpochEnd s) ↔ Frame W r s := by
  have key : Frame [.mfe] s (State.mfeEpochEnd s) := by
    simp [State.mfeEpochEnd]
  exact Frame.iff_of key hW

@[simp] theorem State.cmpBoundary_frame {W : List Part} {r s : State} (x1 : Nat) (hW : [.regs, .mfe] ⊆ W) : Frame W r (State.cmpBoundary s x1)
    ↔ Frame W r s := by
  have key : Frame [.regs, .mfe] s (State.cmpBoundary s x1) := by
    simp [State.cmpBoundary]
  exact Frame.iff_of key hW

@[simp] theorem State.encBoundary_frame {W : List Part} {r s : State} (x1 : Nat) (hW : [.regs, .mfe] ⊆ W) : Frame W r (State.encBoundary s x1)
    ↔ Frame W r s := by
  have key : Frame [.regs, .mfe] s (State.encBoundary s x1) := by
    simp [State.encBoundary]
  exact Frame.iff_of key hW

@[simp] theorem State.mfeBoundary_frame {W : List Part} {r s : State} (hW : [.regs, .mfe] ⊆ W) : Frame W r (State.mfeBoundary s) ↔ Frame W r s := by
  have key : Frame [.regs, .mfe] s (State.mfeBoundary s) := by
    simp [State.mfeBoundary]
  exact Frame.iff_of key hW

@[simp] theorem State.stateDone_frame {W : List Part} {r s : State} (x1 : OrderRef) (x2 : Nat) (x3 : Nat) (x4 : Conv) (x5 : Conv) (hW : [.regs,
    .hats, .out] ⊆ W) : Frame W r (State.stateDone s x1 x2 x3 x4 x5) ↔ Frame W r s := by
  have key : Frame [.regs, .hats, .out] s (State.stateDone s x1 x2 x3 x4 x5) := by
    simp [State.stateDone]
  exact Frame.iff_of key hW

@[simp] theorem State.statesDone_frame {W : List Part} {r s : State} (x1 : List OrderRef) (x2 : Nat) (x3 : Nat) (x4 : Conv) (x5 : Conv) (hW
    : [.regs, .hats, .out] ⊆ W) : Frame W r (State.statesDone s x1 x2 x3 x4 x5) ↔ Frame W r s := by
  have key : Frame [.regs, .hats, .out] s (State.statesDone s x1 x2 x3 x4 x5) := by
    simp [State.statesDone]
  exact Frame.iff_of key hW

@[simp] theorem State.cancelAnnounce_frame {W : List Part} {r s : State} (x1 : Nat) (hW : [.regs, .sys, .hats, .out] ⊆ W) : Frame W r
    (State.cancelAnnounce s x1) ↔ Frame W r s := by
  have key : Frame [.regs, .sys, .hats, .out] s (State.cancelAnnounce s x1) := by
    unfold State.cancelAnnounce
    (repeat' split) <;> simp
  exact Frame.iff_of key hW

@[simp] theorem State.dbgTrigger_frame {W : List Part} {r s : State} (x1 : Nat) (hW : [.dbg] ⊆ W) : Frame W r (State.dbgTrigger s x1)
    ↔ Frame W r s := by
  have key : Frame [.dbg] s (State.dbgTrigger s x1) := by
    simp [State.dbgTrigger]
  exact Frame.iff_of key hW

@[simp] theorem State.assertTrip_frame {W : List Part} {r s : State} (x1 : Nat) (hW : [.prt] ⊆ W) : Frame W r (State.assertTrip s x1)
    ↔ Frame W r s := by
  have key : Frame [.prt] s (State.assertTrip s x1) := by
    simp [State.assertTrip]
  exact Frame.iff_of key hW

@[simp] theorem State.assertTrips_frame {W : List Part} {r s : State} (hW : [.prt] ⊆ W) : Frame W r (State.assertTrips s) ↔ Frame W r s := by
  have key : Frame [.prt] s (State.assertTrips s) := by
    simp [State.assertTrips]
  exact Frame.iff_of key hW

@[simp] theorem State.lockBit_frame {W : List Part} {r s : State} (x1 : Nat) (hW : [.regs] ⊆ W) : Frame W r (State.lockBit s x1) ↔ Frame W r s := by
  have key : Frame [.regs] s (State.lockBit s x1) := by
    simp [State.lockBit]
  exact Frame.iff_of key hW

@[simp] theorem State.loseStaging_frame {W : List Part} {r s : State} (hW : [.cel] ⊆ W) : Frame W r (State.loseStaging s) ↔ Frame W r s := by
  have key : Frame [.cel] s (State.loseStaging s) := by
    simp [State.loseStaging]
  exact Frame.iff_of key hW

@[simp] theorem State.enterHold_frame {W : List Part} {r s : State} (hW : [.regs, .ctl, .prt, .dbg] ⊆ W) : Frame W r (State.enterHold s)
    ↔ Frame W r s := by
  have key : Frame [.regs, .ctl, .prt, .dbg] s (State.enterHold s) := by
    simp [State.enterHold]
  exact Frame.iff_of key hW

@[simp] theorem State.enterLockout_frame {W : List Part} {r s : State} (hW : [.regs, .cel, .ctl, .grd, .prt, .dbg] ⊆ W) : Frame W r
    (State.enterLockout s) ↔ Frame W r s := by
  have key : Frame [.regs, .cel, .ctl, .grd, .prt, .dbg] s (State.enterLockout s) := by
    simp [State.enterLockout]
  exact Frame.iff_of key hW

@[simp] theorem State.enterOff_frame {W : List Part} {r s : State} (hW : [.regs, .lnk, .cel, .ctl, .grd, .edg, .prt, .trk] ⊆ W) : Frame W r
    (State.enterOff s) ↔ Frame W r s := by
  have key : Frame [.regs, .lnk, .cel, .ctl, .grd, .edg, .prt, .trk] s (State.enterOff s) := by
    simp [State.enterOff]
  exact Frame.iff_of key hW

@[simp] theorem State.stateAnnex_frame {W : List Part} {r s : State} (hW : [.cel] ⊆ W) : Frame W r (State.stateAnnex s) ↔ Frame W r s := by
  have key : Frame [.cel] s (State.stateAnnex s) := by
    simp [State.stateAnnex]
  exact Frame.iff_of key hW

@[simp] theorem State.enter_frame {W : List Part} {r s : State} (x1 : Conv) (x2 : Conv) (hW : [.regs, .sys, .lnk, .cel, .ctl, .grd, .edg, .prt,
    .trk, .dbg] ⊆ W) : Frame W r (State.enter s x1 x2) ↔ Frame W r s := by
  have key : Frame [.regs, .sys, .lnk, .cel, .ctl, .grd, .edg, .prt, .trk, .dbg] s (State.enter s x1 x2) := by
    unfold State.enter
    (repeat' split) <;> simp
  exact Frame.iff_of key hW

@[simp] theorem State.prtIndicate_frame {W : List Part} {r s : State} (hW : [.prt] ⊆ W) : Frame W r (State.prtIndicate s) ↔ Frame W r s := by
  have key : Frame [.prt] s (State.prtIndicate s) := by
    simp [State.prtIndicate]
  exact Frame.iff_of key hW

@[simp] theorem State.moveTo_frame {W : List Part} {r s : State} (x1 : Conv) (x2 : Nat) (x3 : Nat) (hW : [.regs, .sys, .mfe, .lnk, .cel, .ctl,
    .grd, .edg, .prt, .hats, .trk, .dbg, .out] ⊆ W) : Frame W r (State.moveTo s x1 x2 x3) ↔ Frame W r s := by
  have key : Frame [.regs, .sys, .mfe, .lnk, .cel, .ctl, .grd, .edg, .prt, .hats, .trk, .dbg, .out] s (State.moveTo s x1 x2 x3) := by
    simp [State.moveTo]
  exact Frame.iff_of key hW

@[simp] theorem State.blockFire_frame {W : List Part} {r s : State} (x1 : Nat) (x2 : Nat) (hW : [.regs, .lnk, .prt, .dbg] ⊆ W) : Frame W r
    (State.blockFire s x1 x2) ↔ Frame W r s := by
  have key : Frame [.regs, .lnk, .prt, .dbg] s (State.blockFire s x1 x2) := by
    simp [State.blockFire]
  exact Frame.iff_of key hW

theorem execComparatorTrip_frame {s t : State} (x0 : Nat) (x1 : Bool) (x2 : Nat) (e : execComparatorTrip x0 x1 x2 s = .next t) : Frame [.regs,
    .mfe, .lnk, .prt, .dbg] s t := by
  unfold execComparatorTrip at e
  try dsimp only at e
  (repeat' split at e) <;> (simp only [Host.Outcome.next.injEq, reduceCtorEq] at e) <;> (subst e; simp)

@[simp] theorem State.chargeBoundary_frame {W : List Part} {r s : State} (hW : [.sys] ⊆ W) : Frame W r (State.chargeBoundary s) ↔ Frame W r s := by
  have key : Frame [.sys] s (State.chargeBoundary s) := by
    unfold State.chargeBoundary
    (repeat' split) <;> simp
  exact Frame.iff_of key hW

theorem execChargeComplete_frame {s t : State} (e : execChargeComplete s = .next t) : Frame [.regs, .sys, .mfe, .lnk, .cel, .ctl, .grd, .edg,
    .prt, .hats, .trk, .dbg, .out] s t := by
  unfold execChargeComplete at e
  try dsimp only at e
  (repeat' split at e) <;> (simp only [Host.Outcome.next.injEq, reduceCtorEq] at e) <;> (subst e; simp)

@[simp] theorem State.beginRun_frame {W : List Part} {r s : State} (hW : [.regs, .sys, .mfe, .lnk, .cel, .ctl, .grd, .edg, .prt, .hats, .trk,
    .dbg, .out] ⊆ W) : Frame W r (State.beginRun s) ↔ Frame W r s := by
  have key : Frame [.regs, .sys, .mfe, .lnk, .cel, .ctl, .grd, .edg, .prt, .hats, .trk, .dbg, .out] s (State.beginRun s) := by
    unfold State.beginRun
    (repeat' split) <;> simp
  exact Frame.iff_of key hW

theorem execChargeConditionsLost_frame {s t : State} (e : execChargeConditionsLost s = .next t) : Frame [.regs, .sys, .mfe, .lnk, .cel, .ctl,
    .grd, .edg, .prt, .hats, .trk, .dbg, .out] s t := by
  unfold execChargeConditionsLost at e
  try dsimp only at e
  (repeat' split at e) <;> (simp only [Host.Outcome.next.injEq, reduceCtorEq] at e) <;> (subst e; simp)

theorem execChargeTimeout_frame {s t : State} (e : execChargeTimeout s = .next t) : Frame [.sys, .prt] s t := by
  unfold execChargeTimeout at e
  try dsimp only at e
  (repeat' split at e) <;> (simp only [Host.Outcome.next.injEq, reduceCtorEq] at e) <;> (subst e; simp)

@[simp] theorem State.announceRun_frame {W : List Part} {r s : State} (x1 : Bool) (x2 : List OrderRef) (hW : [.sys] ⊆ W) : Frame W r
    (State.announceRun s x1 x2) ↔ Frame W r s := by
  have key : Frame [.sys] s (State.announceRun s x1 x2) := by
    simp [State.announceRun]
  exact Frame.iff_of key hW

@[simp] theorem State.dbgCapEnd_frame {W : List Part} {r s : State} (x1 : DbgCapState) (hW : [.regs, .pwr, .dbg] ⊆ W) : Frame W r
    (State.dbgCapEnd s x1) ↔ Frame W r s := by
  have key : Frame [.regs, .pwr, .dbg] s (State.dbgCapEnd s x1) := by
    simp [State.dbgCapEnd]
  exact Frame.iff_of key hW

@[simp] theorem State.dbgShelf_frame {W : List Part} {r s : State} (x1 : Epoch) (hW : [.regs, .pwr, .dbg] ⊆ W) : Frame W r (State.dbgShelf s x1)
    ↔ Frame W r s := by
  have key : Frame [.regs, .pwr, .dbg] s (State.dbgShelf s x1) := by
    simp [State.dbgShelf]
  exact Frame.iff_of key hW

@[simp] theorem State.dbgCapAbandon_frame {W : List Part} {r s : State} (hW : [.dbg] ⊆ W) : Frame W r (State.dbgCapAbandon s) ↔ Frame W r s := by
  have key : Frame [.dbg] s (State.dbgCapAbandon s) := by
    simp [State.dbgCapAbandon]
  exact Frame.iff_of key hW

@[simp] theorem State.dbgCapArm_frame {W : List Part} {r s : State} (hW : [.pwr, .dbg] ⊆ W) : Frame W r (State.dbgCapArm s) ↔ Frame W r s := by
  have key : Frame [.pwr, .dbg] s (State.dbgCapArm s) := by
    simp [State.dbgCapArm]
  exact Frame.iff_of key hW

@[simp] theorem State.dbgCapAbort_frame {W : List Part} {r s : State} (hW : [.regs, .pwr, .dbg] ⊆ W) : Frame W r (State.dbgCapAbort s)
    ↔ Frame W r s := by
  have key : Frame [.regs, .pwr, .dbg] s (State.dbgCapAbort s) := by
    simp [State.dbgCapAbort]
  exact Frame.iff_of key hW

@[simp] theorem State.dbgOwnerChange_frame {W : List Part} {r s : State} (hW : [.regs, .pwr, .dbg] ⊆ W) : Frame W r (State.dbgOwnerChange s)
    ↔ Frame W r s := by
  have key : Frame [.regs, .pwr, .dbg] s (State.dbgOwnerChange s) := by
    simp [State.dbgOwnerChange]
  exact Frame.iff_of key hW

@[simp] theorem State.dbgHalt_frame {W : List Part} {r s : State} (x1 : Nat) (x2 : Nat) (hW : [.regs, .lnk, .prt, .dbg] ⊆ W) : Frame W r
    (State.dbgHalt s x1 x2) ↔ Frame W r s := by
  have key : Frame [.regs, .lnk, .prt, .dbg] s (State.dbgHalt s x1 x2) := by
    simp [State.dbgHalt]
  exact Frame.iff_of key hW

@[simp] theorem State.dbgResume_frame {W : List Part} {r s : State} (x1 : Nat) (hW : [.dbg] ⊆ W) : Frame W r (State.dbgResume s x1)
    ↔ Frame W r s := by
  have key : Frame [.dbg] s (State.dbgResume s x1) := by
    simp [State.dbgResume]
  exact Frame.iff_of key hW

@[simp] theorem State.dbgStep_frame {W : List Part} {r s : State} (x1 : Nat) (hW : [.dbg] ⊆ W) : Frame W r (State.dbgStep s x1) ↔ Frame W r s := by
  have key : Frame [.dbg] s (State.dbgStep s x1) := by
    simp [State.dbgStep]
  exact Frame.iff_of key hW

@[simp] theorem State.dbgHaltWrite_frame {W : List Part} {r s : State} (x1 : Requester) (x2 : Word) (x3 : Nat) (hW : [.regs, .mgmtStatus, .lnk,
    .prt, .hats, .dbg, .out] ⊆ W) : Frame W r (State.dbgHaltWrite s x1 x2 x3) ↔ Frame W r s := by
  have key : Frame [.regs, .mgmtStatus, .lnk, .prt, .hats, .dbg, .out] s (State.dbgHaltWrite s x1 x2 x3) := by
    unfold State.dbgHaltWrite
    try dsimp only
    repeat' (first | (simp [apply_ite Prod.fst, apply_ite Prod.snd]; done) | split)
  exact Frame.iff_of key hW

@[simp] theorem State.dbgBoundary_frame {W : List Part} {r s : State} (hW : [.regs, .dbg] ⊆ W) : Frame W r (State.dbgBoundary s) ↔ Frame W r s := by
  have key : Frame [.regs, .dbg] s (State.dbgBoundary s) := by
    simp [State.dbgBoundary]
  exact Frame.iff_of key hW

@[simp] theorem State.tapLoad_frame {W : List Part} {r s : State} (x1 : Nat) (hW : [.dbg] ⊆ W) : Frame W r (State.tapLoad s x1) ↔ Frame W r s := by
  have key : Frame [.dbg] s (State.tapLoad s x1) := by
    simp [State.tapLoad]
  exact Frame.iff_of key hW

@[simp] theorem State.tapTestLoad_frame {W : List Part} {r s : State} (x1 : Nat) (hW : [.regs, .dbg] ⊆ W) : Frame W r (State.tapTestLoad s x1)
    ↔ Frame W r s := by
  have key : Frame [.regs, .dbg] s (State.tapTestLoad s x1) := by
    simp [State.tapTestLoad]
  exact Frame.iff_of key hW

@[simp] theorem State.testOwnerChange_frame {W : List Part} {r s : State} (hW : [.ctl, .pwr] ⊆ W) : Frame W r (State.testOwnerChange s)
    ↔ Frame W r s := by
  have key : Frame [.ctl, .pwr] s (State.testOwnerChange s) := by
    simp [State.testOwnerChange]
  exact Frame.iff_of key hW

@[simp] theorem State.setOwner_frame {W : List Part} {r s : State} (x1 : Nat) (x2 : Nat) (x3 : Nat) (hW : [.regs, .ctl, .hats, .pwr, .trk, .dbg,
    .out] ⊆ W) : Frame W r (State.setOwner s x1 x2 x3) ↔ Frame W r s := by
  have key : Frame [.regs, .ctl, .hats, .pwr, .trk, .dbg, .out] s (State.setOwner s x1 x2 x3) := by
    simp [State.setOwner]
  exact Frame.iff_of key hW

@[simp] theorem State.crateDone_frame {W : List Part} {r s : State} (x1 : Nat) (x2 : Nat) (hW : [.regs, .cel] ⊆ W) : Frame W r
    (State.crateDone s x1 x2) ↔ Frame W r s := by
  have key : Frame [.regs, .cel] s (State.crateDone s x1 x2) := by
    simp [State.crateDone]
  exact Frame.iff_of key hW

@[simp] theorem State.crateClose_frame {W : List Part} {r s : State} (x1 : Nat) (x2 : OrderRef) (hW : [.regs, .cel] ⊆ W) : Frame W r
    (State.crateClose s x1 x2) ↔ Frame W r s := by
  have key : Frame [.regs, .cel] s (State.crateClose s x1 x2) := by
    unfold State.crateClose
    try dsimp only
    repeat' (first | (simp [apply_ite Prod.fst, apply_ite Prod.snd]; done) | split)
  exact Frame.iff_of key hW

@[simp] theorem State.crateShelf_frame {W : List Part} {r s : State} (x1 : Epoch) (x2 : Nat) (hW : [.cel] ⊆ W) : Frame W r
    (State.crateShelf s x1 x2) ↔ Frame W r s := by
  have key : Frame [.cel] s (State.crateShelf s x1 x2) := by
    unfold State.crateShelf
    try dsimp only
    repeat' (first | (simp [apply_ite Prod.fst, apply_ite Prod.snd]; done) | split)
  exact Frame.iff_of key hW

theorem execSealPass_frame {s t : State} (e : execSealPass s = .next t) : Frame [.regs, .cel, .prt] s t := by
  unfold execSealPass at e
  try dsimp only at e
  (repeat' split at e) <;> (simp only [Host.Outcome.next.injEq, reduceCtorEq] at e) <;> (subst e; simp)

@[simp] theorem State.supervise_frame {W : List Part} {r s : State} (hW : [.regs, .cel, .pwr, .dbg] ⊆ W) : Frame W r (State.supervise s)
    ↔ Frame W r s := by
  have key : Frame [.regs, .cel, .pwr, .dbg] s (State.supervise s) := by
    unfold State.supervise
    split
    · rw [Frame.set_cel _ (by simp), Frame.foldl]
      · simp
      · intro s j
        rw [State.dbgShelf_frame _ (by simp), Frame.foldl (by intro s i; simp)]
        simp
    · simp
  exact Frame.iff_of key hW

theorem execCrateStaging_frame {s t : State} (x0 : Nat) (e : execCrateStaging x0 s = .next t) : Frame [.cel] s t := by
  unfold execCrateStaging at e
  try dsimp only at e
  (repeat' split at e) <;> (simp only [Host.Outcome.next.injEq, reduceCtorEq] at e) <;> (subst e; simp)

@[simp] theorem State.idUsed_frame {W : List Part} {r s : State} (x1 : Nat) (x2 : Option Epoch) (hW : [.cel] ⊆ W) : Frame W r
    (State.idUsed s x1 x2) ↔ Frame W r s := by
  have key : Frame [.cel] s (State.idUsed s x1 x2) := by
    simp [State.idUsed]
  exact Frame.iff_of key hW

theorem execCrateCommitDecision_frame {s t : State} (x0 : Nat) (e : execCrateCommitDecision x0 s = .next t) : Frame [.cel] s t := by
  unfold execCrateCommitDecision at e
  try dsimp only at e
  (repeat' split at e) <;> (simp only [Host.Outcome.next.injEq, reduceCtorEq] at e) <;> (subst e; simp)

theorem execCratePartTimeout_frame {s t : State} (x0 : Nat) (e : execCratePartTimeout x0 s = .next t) : Frame [.cel] s t := by
  unfold execCratePartTimeout at e
  try dsimp only at e
  (repeat' split at e) <;> (simp only [Host.Outcome.next.injEq, reduceCtorEq] at e) <;> (subst e; simp)

@[simp] theorem State.crateRecord_frame {W : List Part} {r s : State} (x1 : Epoch) (x2 : Nat) (x3 : Nat) (x4 : Nat) (x5 : Nat) (hW
    : [.cel] ⊆ W) : Frame W r (State.crateRecord s x1 x2 x3 x4 x5) ↔ Frame W r s := by
  have key : Frame [.cel] s (State.crateRecord s x1 x2 x3 x4 x5) := by
    simp [State.crateRecord]
  exact Frame.iff_of key hW

theorem execCrateAbortDecision_frame {s t : State} (x0 : Nat) (e : execCrateAbortDecision x0 s = .next t) : Frame [.cel] s t := by
  unfold execCrateAbortDecision at e
  try dsimp only at e
  (repeat' split at e) <;> (simp only [Host.Outcome.next.injEq, reduceCtorEq] at e) <;> (subst e; simp)

theorem execCrateAbortDone_frame {s t : State} (x0 : Nat) (e : execCrateAbortDone x0 s = .next t) : Frame [.regs, .cel] s t := by
  unfold execCrateAbortDone at e
  try dsimp only at e
  (repeat' split at e) <;> (simp only [Host.Outcome.next.injEq, reduceCtorEq] at e) <;> (subst e; simp)

@[simp] theorem State.applyPart_frame {W : List Part} {r s : State} (x1 : DevPart) (hW : [.regs, .sys, .ctl, .hats, .pwr, .trk, .dbg,
    .out] ⊆ W) : Frame W r (State.applyPart s x1) ↔ Frame W r s := by
  have key : Frame [.regs, .sys, .ctl, .hats, .pwr, .trk, .dbg, .out] s (State.applyPart s x1) := by
    unfold State.applyPart
    (repeat' split) <;> simp
  exact Frame.iff_of key hW

@[simp] theorem State.crateApply_frame {W : List Part} {r s : State} (x1 : Nat) (hW : [.regs, .sys, .cel, .ctl, .edg, .hats, .pwr, .trk, .dbg,
    .out] ⊆ W) : Frame W r (State.crateApply s x1) ↔ Frame W r s := by
  have key : Frame [.regs, .sys, .cel, .ctl, .edg, .hats, .pwr, .trk, .dbg, .out] s (State.crateApply s x1) := by
    unfold State.crateApply
    dsimp only
    split
    · split
      · simp
      · rw [State.crateRecord_frame _ _ _ _ _ (by simp), State.updCrate_frame _ _ (by simp), Frame.foldl (by intro s g; split <;> simp), State.setBanks_frame _ (by simp), Frame.foldl (by intro s p; simp)]
        simp
    · simp
  exact Frame.iff_of key hW

theorem execCrateApply_frame {s t : State} (x0 : Nat) (e : execCrateApply x0 s = .next t) : Frame [.regs, .sys, .cel, .ctl, .edg, .hats, .pwr,
    .trk, .dbg, .out] s t := by
  unfold execCrateApply at e
  try dsimp only at e
  (repeat' split at e) <;> (simp only [Host.Outcome.next.injEq, reduceCtorEq] at e) <;> (subst e; simp)

@[simp] theorem State.settleBank_frame {W : List Part} {r s : State} (x1 : GatePart) (hW : [.edg] ⊆ W) : Frame W r (State.settleBank s x1)
    ↔ Frame W r s := by
  have key : Frame [.edg] s (State.settleBank s x1) := by
    simp [State.settleBank]
  exact Frame.iff_of key hW

theorem execCrateVerifyEnd_frame {s t : State} (x0 : Nat) (e : execCrateVerifyEnd x0 s = .next t) : Frame [.regs, .cel, .edg, .prt] s t := by
  unfold execCrateVerifyEnd at e
  try dsimp only at e
  (repeat' split at e) <;> (simp only [Host.Outcome.next.injEq, reduceCtorEq] at e) <;> (subst e; simp)

theorem execCrateBuildLimit_frame {s t : State} (x0 : Nat) (e : execCrateBuildLimit x0 s = .next t) : Frame [.regs, .cel] s t := by
  unfold execCrateBuildLimit at e
  try dsimp only at e
  (repeat' split at e) <;> (simp only [Host.Outcome.next.injEq, reduceCtorEq] at e) <;> (subst e; simp)

theorem execCrateSlotFree_frame {s t : State} (x0 : Nat) (e : execCrateSlotFree x0 s = .next t) : Frame [.regs, .cel, .hats, .out] s t := by
  unfold execCrateSlotFree at e
  try dsimp only at e
  (repeat' split at e) <;> (simp only [Host.Outcome.next.injEq, reduceCtorEq] at e) <;> (subst e; simp)

@[simp] theorem State.cratesBoundary_frame {W : List Part} {r s : State} (hW : [.regs, .sys, .cel, .ctl, .edg, .hats, .pwr, .trk, .dbg,
    .out] ⊆ W) : Frame W r (State.cratesBoundary s) ↔ Frame W r s := by
  have key : Frame [.regs, .sys, .cel, .ctl, .edg, .hats, .pwr, .trk, .dbg, .out] s (State.cratesBoundary s) := by
    simp [State.cratesBoundary]
  exact Frame.iff_of key hW

@[simp] theorem State.dropOrders_frame {W : List Part} {r s : State} (x1 : Fin 4) (hW : [.sys, .hats] ⊆ W) : Frame W r (State.dropOrders s x1)
    ↔ Frame W r s := by
  have key : Frame [.sys, .hats] s (State.dropOrders s x1) := by
    simp [State.dropOrders]
  exact Frame.iff_of key hW

@[simp] theorem State.ownRegsReset_frame {W : List Part} {r s : State} (x1 : Fin 4) (hW : [.regs] ⊆ W) : Frame W r (State.ownRegsReset s x1)
    ↔ Frame W r s := by
  have key : Frame [.regs] s (State.ownRegsReset s x1) := by
    simp [State.ownRegsReset]
  exact Frame.iff_of key hW

@[simp] theorem State.hatchCrates_frame {W : List Part} {r s : State} (x1 : Fin 4) (hW : [.cel] ⊆ W) : Frame W r (State.hatchCrates s x1)
    ↔ Frame W r s := by
  have key : Frame [.cel] s (State.hatchCrates s x1) := by
    simp [State.hatchCrates]
  exact Frame.iff_of key hW

@[simp] theorem State.hatchReset_frame {W : List Part} {r s : State} (x1 : Fin 4) (x2 : HatchResetKind) (hW : [.regs, .sys, .cel, .hats] ⊆ W)
    : Frame W r (State.hatchReset s x1 x2) ↔ Frame W r s := by
  have key : Frame [.regs, .sys, .cel, .hats] s (State.hatchReset s x1 x2) := by
    simp [State.hatchReset]
  exact Frame.iff_of key hW

theorem execHatchReset_frame {s t : State} (x0 : Fin 4) (x1 : HatchResetKind) (e : execHatchReset x0 x1 s = .next t) : Frame [.regs, .sys, .cel,
    .hats] s t := by
  unfold execHatchReset at e
  try dsimp only at e
  (repeat' split at e) <;> (simp only [Host.Outcome.next.injEq, reduceCtorEq] at e) <;> (subst e; simp)

theorem execHatchLinkUp_frame {s t : State} (x0 : Fin 4) (x1 : LinkCfg) (e : execHatchLinkUp x0 x1 s = .next t) : Frame [.hats] s t := by
  unfold execHatchLinkUp at e
  try dsimp only at e
  (repeat' split at e) <;> (simp only [Host.Outcome.next.injEq, reduceCtorEq] at e) <;> (subst e; simp)

@[simp] theorem State.flushRing_frame {W : List Part} {r s : State} (x1 : Fin 4) (x2 : Nat) (hW : [.regs, .hats, .out] ⊆ W) : Frame W r
    (State.flushRing s x1 x2) ↔ Frame W r s := by
  have key : Frame [.regs, .hats, .out] s (State.flushRing s x1 x2) := by
    simp [State.flushRing]
  exact Frame.iff_of key hW

@[simp] theorem State.ringRefused_frame {W : List Part} {r s : State} (x1 : Fin 4) (x2 : Nat) (x3 : Nat) (hW : [.regs, .mgmtStatus, .hats,
    .out] ⊆ W) : Frame W r (State.ringRefused s x1 x2 x3) ↔ Frame W r s := by
  have key : Frame [.regs, .mgmtStatus, .hats, .out] s (State.ringRefused s x1 x2 x3) := by
    simp [State.ringRefused]
  exact Frame.iff_of key hW

@[simp] theorem State.ringBaseWrite_frame {W : List Part} {r s : State} (x1 : Fin 4) (x2 : Nat) (x3 : Bool) (x4 : Word) (hW : [.regs,
    .mgmtStatus, .hats, .out] ⊆ W) : Frame W r (State.ringBaseWrite s x1 x2 x3 x4) ↔ Frame W r s := by
  have key : Frame [.regs, .mgmtStatus, .hats, .out] s (State.ringBaseWrite s x1 x2 x3 x4) := by
    simp [State.ringBaseWrite]
  exact Frame.iff_of key hW

@[simp] theorem State.ringCfgWrite_frame {W : List Part} {r s : State} (x1 : Fin 4) (x2 : Nat) (x3 : Word) (hW : [.regs, .mgmtStatus, .hats,
    .out] ⊆ W) : Frame W r (State.ringCfgWrite s x1 x2 x3) ↔ Frame W r s := by
  have key : Frame [.regs, .mgmtStatus, .hats, .out] s (State.ringCfgWrite s x1 x2 x3) := by
    simp [State.ringCfgWrite]
  exact Frame.iff_of key hW

@[simp] theorem State.ringReset_frame {W : List Part} {r s : State} (x1 : Fin 4) (hW : [.regs, .hats, .out] ⊆ W) : Frame W r
    (State.ringReset s x1) ↔ Frame W r s := by
  have key : Frame [.regs, .hats, .out] s (State.ringReset s x1) := by
    simp [State.ringReset]
  exact Frame.iff_of key hW

@[simp] theorem State.orderDoorbell_frame {W : List Part} {r s : State} (x1 : Fin 4) (x2 : Nat) (x3 : Nat) (hW : [.regs, .hats, .out] ⊆ W)
    : Frame W r (State.orderDoorbell s x1 x2 x3) ↔ Frame W r s := by
  have key : Frame [.regs, .hats, .out] s (State.orderDoorbell s x1 x2 x3) := by
    simp [State.orderDoorbell]
  exact Frame.iff_of key hW

@[simp] theorem State.completionDoorbell_frame {W : List Part} {r s : State} (x1 : Fin 4) (x2 : Nat) (x3 : Nat) (hW : [.regs, .hats, .out] ⊆ W)
    : Frame W r (State.completionDoorbell s x1 x2 x3) ↔ Frame W r s := by
  have key : Frame [.regs, .hats, .out] s (State.completionDoorbell s x1 x2 x3) := by
    simp [State.completionDoorbell]
  exact Frame.iff_of key hW

@[simp] theorem State.eventDoorbell_frame {W : List Part} {r s : State} (x1 : Fin 4) (x2 : Nat) (hW : [.regs, .hats, .out] ⊆ W) : Frame W r
    (State.eventDoorbell s x1 x2) ↔ Frame W r s := by
  have key : Frame [.regs, .hats, .out] s (State.eventDoorbell s x1 x2) := by
    simp [State.eventDoorbell]
  exact Frame.iff_of key hW

@[simp] theorem State.kick_frame {W : List Part} {r s : State} (x1 : Fin 4) (hW : [.hats] ⊆ W) : Frame W r (State.kick s x1) ↔ Frame W r s := by
  have key : Frame [.hats] s (State.kick s x1) := by
    simp [State.kick]
  exact Frame.iff_of key hW

theorem execOrderFetch_frame {s t : State} (x0 : Fin 4) (x1 : Nat) (e : execOrderFetch x0 x1 s = .next t) : Frame [.hats, .out] s t := by
  unfold execOrderFetch at e
  try dsimp only at e
  (repeat' split at e) <;> (simp only [Host.Outcome.next.injEq, reduceCtorEq] at e) <;> (subst e; simp)

theorem execDescriptorReadDone_frame {s t : State} (x0 : Fin 4) (x1 : Nat) (x2 : DescResult) (x3 : Nat) (e
    : execDescriptorReadDone x0 x1 x2 x3 s = .next t) : Frame [.regs, .hats, .out] s t := by
  unfold execDescriptorReadDone at e
  try dsimp only at e
  (repeat' split at e) <;> (simp only [Host.Outcome.next.injEq, reduceCtorEq] at e) <;> (subst e; simp)

theorem execHatchSilence_frame {s t : State} (x0 : Fin 4) (e : execHatchSilence x0 s = .next t) : Frame [.regs, .hats, .trk, .out] s t := by
  unfold execHatchSilence at e
  try dsimp only at e
  (repeat' split at e) <;> (simp only [Host.Outcome.next.injEq, reduceCtorEq] at e) <;> (subst e; simp)

@[simp] theorem State.hatBoundary_frame {W : List Part} {r s : State} (hW : [.hats] ⊆ W) : Frame W r (State.hatBoundary s) ↔ Frame W r s := by
  have key : Frame [.hats] s (State.hatBoundary s) := by
    simp [State.hatBoundary]
  exact Frame.iff_of key hW

@[simp] theorem State.updPulse_frame {W : List Part} {r s : State} (x1 : Nat) (x2 : PulseOut → PulseOut) (hW : [.mtr] ⊆ W) : Frame W r
    (State.updPulse s x1 x2) ↔ Frame W r s := by
  have key : Frame [.mtr] s (State.updPulse s x1 x2) := by
    simp [State.updPulse]
  exact Frame.iff_of key hW

@[simp] theorem State.pulseGain_frame {W : List Part} {r s : State} (x1 : Nat) (x2 : Nat) (hW : [.regs, .mtr] ⊆ W) : Frame W r
    (State.pulseGain s x1 x2) ↔ Frame W r s := by
  have key : Frame [.regs, .mtr] s (State.pulseGain s x1 x2) := by
    simp [State.pulseGain]
  exact Frame.iff_of key hW

@[simp] theorem State.mtrGain_frame {W : List Part} {r s : State} (x1 : MtrDest) (x2 : Nat) (x3 : Nat) (hW : [.mtr] ⊆ W) : Frame W r
    (State.mtrGain s x1 x2 x3) ↔ Frame W r s := by
  have key : Frame [.mtr] s (State.mtrGain s x1 x2 x3) := by
    unfold State.mtrGain
    (repeat' split) <;> simp
  exact Frame.iff_of key hW

@[simp] theorem State.mtrAdd_frame {W : List Part} {r s : State} (x1 : MtrInc) (hW : [.regs, .mtr] ⊆ W) : Frame W r (State.mtrAdd s x1)
    ↔ Frame W r s := by
  have key : Frame [.regs, .mtr] s (State.mtrAdd s x1) := by
    simp [State.mtrAdd]
  exact Frame.iff_of key hW

@[simp] theorem State.mtrSettle_frame {W : List Part} {r s : State} (hW : [.regs, .mtr] ⊆ W) : Frame W r (State.mtrSettle s) ↔ Frame W r s := by
  have key : Frame [.regs, .mtr] s (State.mtrSettle s) := by
    simp [State.mtrSettle]
  exact Frame.iff_of key hW

@[simp] theorem State.mtrAnnex_frame {W : List Part} {r s : State} (x1 : Epoch) (x2 : Bool) (hW : [.regs, .cel, .mtr] ⊆ W) : Frame W r
    (State.mtrAnnex s x1 x2) ↔ Frame W r s := by
  have key : Frame [.regs, .cel, .mtr] s (State.mtrAnnex s x1 x2) := by
    simp [State.mtrAnnex]
  exact Frame.iff_of key hW

@[simp] theorem State.mtrPass_frame {W : List Part} {r s : State} (hW : [.regs, .cel, .mtr] ⊆ W) : Frame W r (State.mtrPass s) ↔ Frame W r s := by
  have key : Frame [.regs, .cel, .mtr] s (State.mtrPass s) := by
    simp [State.mtrPass]
  exact Frame.iff_of key hW

theorem execMeteringPass_frame {s t : State} (e : execMeteringPass s = .next t) : Frame [.regs, .sys, .cel, .edg, .prt, .mtr] s t := by
  unfold execMeteringPass at e
  try dsimp only at e
  (repeat' split at e) <;> (simp only [Host.Outcome.next.injEq, reduceCtorEq] at e) <;> (subst e; simp)

@[simp] theorem State.mtrResult_frame {W : List Part} {r s : State} (x1 : Nat) (hW : [.regs] ⊆ W) : Frame W r (State.mtrResult s x1)
    ↔ Frame W r s := by
  have key : Frame [.regs] s (State.mtrResult s x1) := by
    simp [State.mtrResult]
  exact Frame.iff_of key hW

@[simp] theorem State.mtrRecord_frame {W : List Part} {r s : State} (x1 : Nat) (x2 : Nat) (x3 : Nat) (hW : [.regs, .trk] ⊆ W) : Frame W r
    (State.mtrRecord s x1 x2 x3) ↔ Frame W r s := by
  have key : Frame [.regs, .trk] s (State.mtrRecord s x1 x2 x3) := by
    simp [State.mtrRecord]
  exact Frame.iff_of key hW

@[simp] theorem State.mtrNone_frame {W : List Part} {r s : State} (x1 : Nat) (x2 : Nat) (x3 : List Nat) (hW : [.regs, .trk] ⊆ W) : Frame W r
    (State.mtrNone s x1 x2 x3) ↔ Frame W r s := by
  have key : Frame [.regs, .trk] s (State.mtrNone s x1 x2 x3) := by
    simp [State.mtrNone]
  exact Frame.iff_of key hW

@[simp] theorem State.mtrMerge_frame {W : List Part} {r s : State} (x1 : Nat) (x2 : Nat) (hW : [.regs, .mtr, .trk] ⊆ W) : Frame W r
    (State.mtrMerge s x1 x2) ↔ Frame W r s := by
  have key : Frame [.regs, .mtr, .trk] s (State.mtrMerge s x1 x2) := by
    unfold State.mtrMerge
    split
    · simp
    · extract_lets qs one s1 a s2
      have h1 : Frame [.regs, .mtr, .trk] s s1 := by
        simp only [s1]
        rw [State.mtrNone_frame _ _ _ (by simp), Frame.foldl (by
          intro s q
          simp only [one]
          rw [Frame.foldl (by intro s p; simp)]
          simp)]
        simp
      have h2 : Frame [.regs, .mtr, .trk] s s2 := by
        simp only [s2]
        split
        · exact h1.trans (by simp)
        · exact h1
      exact h2.trans (by simp)
  exact Frame.iff_of key hW

@[simp] theorem State.mtrDiscard_frame {W : List Part} {r s : State} (x1 : Nat) (x2 : Nat) (hW : [.regs, .mtr, .trk] ⊆ W) : Frame W r
    (State.mtrDiscard s x1 x2) ↔ Frame W r s := by
  have key : Frame [.regs, .mtr, .trk] s (State.mtrDiscard s x1 x2) := by
    simp [State.mtrDiscard]
  exact Frame.iff_of key hW

@[simp] theorem State.mtrAction_frame {W : List Part} {r s : State} (x1 : Word) (hW : [.regs, .mtr, .trk] ⊆ W) : Frame W r
    (State.mtrAction s x1) ↔ Frame W r s := by
  have key : Frame [.regs, .mtr, .trk] s (State.mtrAction s x1) := by
    unfold State.mtrAction
    (repeat' split) <;> simp
  exact Frame.iff_of key hW

@[simp] theorem State.sealSave_frame {W : List Part} {r s : State} (hW : [.regs, .trk] ⊆ W) : Frame W r (State.sealSave s) ↔ Frame W r s := by
  have key : Frame [.regs, .trk] s (State.sealSave s) := by
    simp [State.sealSave]
  exact Frame.iff_of key hW

@[simp] theorem State.mtrSeal_frame {W : List Part} {r s : State} (x1 : Requester) (x2 : Nat) (hW : [.regs, .mgmtStatus, .mtr, .hats, .trk,
    .out] ⊆ W) : Frame W r (State.mtrSeal s x1 x2) ↔ Frame W r s := by
  have key : Frame [.regs, .mgmtStatus, .mtr, .hats, .trk, .out] s (State.mtrSeal s x1 x2) := by
    simp [State.mtrSeal]
  exact Frame.iff_of key hW

@[simp] theorem State.mtrUnseal_frame {W : List Part} {r s : State} (x1 : Requester) (x2 : Nat) (hW : [.regs, .mgmtStatus, .mtr, .hats, .trk,
    .out] ⊆ W) : Frame W r (State.mtrUnseal s x1 x2) ↔ Frame W r s := by
  have key : Frame [.regs, .mgmtStatus, .mtr, .hats, .trk, .out] s (State.mtrUnseal s x1 x2) := by
    simp [State.mtrUnseal]
  exact Frame.iff_of key hW

@[simp] theorem State.mtrSealWrite_frame {W : List Part} {r s : State} (x1 : Requester) (x2 : Word) (hW : [.regs, .mgmtStatus, .mtr, .hats,
    .trk, .out] ⊆ W) : Frame W r (State.mtrSealWrite s x1 x2) ↔ Frame W r s := by
  have key : Frame [.regs, .mgmtStatus, .mtr, .hats, .trk, .out] s (State.mtrSealWrite s x1 x2) := by
    unfold State.mtrSealWrite
    (repeat' split) <;> simp
  exact Frame.iff_of key hW

theorem execMeterCheckRecompute_frame {s t : State} (e : execMeterCheckRecompute s = .next t) : Frame [.regs, .trk] s t := by
  unfold execMeterCheckRecompute at e
  try dsimp only at e
  (repeat' split at e) <;> (simp only [Host.Outcome.next.injEq, reduceCtorEq] at e) <;> (subst e; simp)

theorem execPulseStart_frame {s t : State} (x0 : Nat) (e : execPulseStart x0 s = .next t) : Frame [.mtr] s t := by
  unfold execPulseStart at e
  try dsimp only at e
  (repeat' split at e) <;> (simp only [Host.Outcome.next.injEq, reduceCtorEq] at e) <;> (subst e; simp)

theorem execPulseEnd_frame {s t : State} (x0 : Nat) (e : execPulseEnd x0 s = .next t) : Frame [.mtr] s t := by
  unfold execPulseEnd at e
  try dsimp only at e
  (repeat' split at e) <;> (simp only [Host.Outcome.next.injEq, reduceCtorEq] at e) <;> (subst e; simp)

@[simp] theorem State.mtrSave_frame {W : List Part} {r s : State} (x1 : Bool) (hW : [.regs, .mtr, .trk] ⊆ W) : Frame W r (State.mtrSave s x1)
    ↔ Frame W r s := by
  have key : Frame [.regs, .mtr, .trk] s (State.mtrSave s x1) := by
    simp [State.mtrSave]
  exact Frame.iff_of key hW

theorem execPeriodicSave_frame {s t : State} (e : execPeriodicSave s = .next t) : Frame [.regs, .mtr, .trk] s t := by
  unfold execPeriodicSave at e
  try dsimp only at e
  (repeat' split at e) <;> (simp only [Host.Outcome.next.injEq, reduceCtorEq] at e) <;> (subst e; simp)

@[simp] theorem State.mtrRestoreWords_frame {W : List Part} {r s : State} (x1 : List Nat) (hW : [.regs, .mtr] ⊆ W) : Frame W r
    (State.mtrRestoreWords s x1) ↔ Frame W r s := by
  have key : Frame [.regs, .mtr] s (State.mtrRestoreWords s x1) := by
    simp [State.mtrRestoreWords]
  exact Frame.iff_of key hW

@[simp] theorem State.mtrRestore_frame {W : List Part} {r s : State} (hW : [.regs, .mtr, .trk] ⊆ W) : Frame W r (State.mtrRestore s)
    ↔ Frame W r s := by
  have key : Frame [.regs, .mtr, .trk] s (State.mtrRestore s) := by
    unfold State.mtrRestore
    try dsimp only
    repeat' (first | (simp [apply_ite Prod.fst, apply_ite Prod.snd]; done) | split)
  exact Frame.iff_of key hW

@[simp] theorem State.mtrChanged_frame {W : List Part} {r s : State} (x1 : Nat) (x2 : Word) (x3 : Word) (hW : [.regs, .mtr, .trk] ⊆ W)
    : Frame W r (State.mtrChanged s x1 x2 x3) ↔ Frame W r s := by
  have key : Frame [.regs, .mtr, .trk] s (State.mtrChanged s x1 x2 x3) := by
    simp [State.mtrChanged]
  exact Frame.iff_of key hW

@[simp] theorem State.mtrBoundary_frame {W : List Part} {r s : State} (hW : [.regs, .mtr] ⊆ W) : Frame W r (State.mtrBoundary s) ↔ Frame W r s := by
  have key : Frame [.regs, .mtr] s (State.mtrBoundary s) := by
    simp [State.mtrBoundary]
  exact Frame.iff_of key hW

@[simp] theorem State.mtrBadCheck_frame {W : List Part} {r s : State} (hW : [.regs, .mtr] ⊆ W) : Frame W r (State.mtrBadCheck s) ↔ Frame W r s := by
  have key : Frame [.regs, .mtr] s (State.mtrBadCheck s) := by
    simp [State.mtrBadCheck]
  exact Frame.iff_of key hW

@[simp] theorem State.mtrTotals_frame {W : List Part} {r s : State} (hW : [.cel] ⊆ W) : Frame W r (State.mtrTotals s) ↔ Frame W r s := by
  have key : Frame [.cel] s (State.mtrTotals s) := by
    simp [State.mtrTotals]
  exact Frame.iff_of key hW

@[simp] theorem State.totalLoRead_frame {W : List Part} {r s : State} (x1 : Requester) (x2 : Nat) (hW : [.regs] ⊆ W) : Frame W r
    (State.totalLoRead s x1 x2).2 ↔ Frame W r s := by
  have key : Frame [.regs] s (State.totalLoRead s x1 x2).2 := by
    simp [State.totalLoRead]
  exact Frame.iff_of key hW

@[simp] theorem State.wideRead_frame {W : List Part} {r s : State} (x1 : Requester) (x2 : Nat) (x3 : Nat) (hW : [.regs] ⊆ W) : Frame W r
    (State.wideRead s x1 x2 x3).2 ↔ Frame W r s := by
  have key : Frame [.regs] s (State.wideRead s x1 x2 x3).2 := by
    simp [State.wideRead]
  exact Frame.iff_of key hW

end Sys2Proof.Machine
end

