-- ==== Sys2Proof/Laws/Frame4.lean ====
section
/-! SUPPORT. Which parts of the state each operation may change: one lemma per definition of Power, Protection, SafetyCore, Trunk, Orders. -/

set_option linter.all false
set_option Elab.async false

namespace Sys2Proof.Machine

@[simp] theorem State.pwrRecord_frame {W : List Part} {r s : State} (x1 : Nat) (hW : [.regs, .trk] ⊆ W) : Frame W r (State.pwrRecord s x1)
    ↔ Frame W r s := by
  have key : Frame [.regs, .trk] s (State.pwrRecord s x1) := by
    simp [State.pwrRecord]
  exact Frame.iff_of key hW

@[simp] theorem State.pwrCause_frame {W : List Part} {r s : State} (x1 : Nat) (x2 : Nat) (hW : [.regs, .trk] ⊆ W) : Frame W r
    (State.pwrCause s x1 x2) ↔ Frame W r s := by
  have key : Frame [.regs, .trk] s (State.pwrCause s x1 x2) := by
    simp [State.pwrCause]
  exact Frame.iff_of key hW

@[simp] theorem State.pmbOut_frame {W : List Part} {r s : State} (x1 : Nat) (x2 : Nat) (x3 : Option Nat) (hW : [.out] ⊆ W) : Frame W r
    (State.pmbOut s x1 x2 x3) ↔ Frame W r s := by
  have key : Frame [.out] s (State.pmbOut s x1 x2 x3) := by
    simp [State.pmbOut]
  exact Frame.iff_of key hW

@[simp] theorem State.pmbDone_frame {W : List Part} {r s : State} (x1 : Nat) (x2 : Bool) (hW : [.regs, .pwr, .trk] ⊆ W) : Frame W r
    (State.pmbDone s x1 x2) ↔ Frame W r s := by
  have key : Frame [.regs, .pwr, .trk] s (State.pmbDone s x1 x2) := by
    simp [State.pmbDone]
  exact Frame.iff_of key hW

@[simp] theorem State.pmbSend_frame {W : List Part} {r s : State} (x1 : Nat) (x2 : Nat) (x3 : Option Nat) (x4 : Bool) (hW : [.regs, .pwr, .trk,
    .out] ⊆ W) : Frame W r (State.pmbSend s x1 x2 x3 x4) ↔ Frame W r s := by
  have key : Frame [.regs, .pwr, .trk, .out] s (State.pmbSend s x1 x2 x3 x4) := by
    simp [State.pmbSend]
  exact Frame.iff_of key hW

@[simp] theorem State.sendVout_frame {W : List Part} {r s : State} (x1 : Nat) (x2 : Bool) (hW : [.regs, .pwr, .trk, .out] ⊆ W) : Frame W r
    (State.sendVout s x1 x2) ↔ Frame W r s := by
  have key : Frame [.regs, .pwr, .trk, .out] s (State.sendVout s x1 x2) := by
    simp [State.sendVout]
  exact Frame.iff_of key hW

@[simp] theorem State.slackLoop_frame {W : List Part} {r s : State} (x1 : Nat) (x2 : Bool) (hW : [.regs, .pwr] ⊆ W) : Frame W r
    (State.slackLoop s x1 x2) ↔ Frame W r s := by
  have key : Frame [.regs, .pwr] s (State.slackLoop s x1 x2) := by
    simp [State.slackLoop]
  exact Frame.iff_of key hW

theorem execSlackWindowEnd_frame {s t : State} (e : execSlackWindowEnd s = .next t) : Frame [.pwr] s t := by
  unfold execSlackWindowEnd at e
  try dsimp only at e
  (repeat' split at e) <;> (simp only [Host.Outcome.next.injEq, reduceCtorEq] at e) <;> (subst e; simp)

theorem execVoutCommand_frame {s t : State} (x0 : List Bool) (e : execVoutCommand x0 s = .next t) : Frame [.regs, .pwr, .trk, .out] s t := by
  unfold execVoutCommand at e
  try dsimp only at e
  (repeat' split at e) <;> (simp only [Host.Outcome.next.injEq, reduceCtorEq] at e) <;> (subst e; simp)

@[simp] theorem State.revokeItem_frame {W : List Part} {r s : State} (x1 : OptItem) (hW : [.regs, .ctl, .pwr, .dbg] ⊆ W) : Frame W r
    (State.revokeItem s x1) ↔ Frame W r s := by
  have key : Frame [.regs, .ctl, .pwr, .dbg] s (State.revokeItem s x1) := by
    unfold State.revokeItem
    (repeat' split) <;> simp
  exact Frame.iff_of key hW

@[simp] theorem State.pollReg_frame {W : List Part} {r s : State} (x1 : Nat) (x2 : PollReply) (hW : [.regs, .pwr, .trk, .out] ⊆ W) : Frame W r
    (State.pollReg s x1 x2) ↔ Frame W r s := by
  have key : Frame [.regs, .pwr, .trk, .out] s (State.pollReg s x1 x2) := by
    unfold State.pollReg
    (repeat' split) <;> simp
  exact Frame.iff_of key hW

theorem execPmbusPoll_frame {s t : State} (x0 : List PollReply) (x1 : Nat) (e : execPmbusPoll x0 x1 s = .next t) : Frame [.regs, .ctl, .pwr,
    .trk, .dbg, .out] s t := by
  unfold execPmbusPoll at e
  try dsimp only at e
  (repeat' split at e) <;> (simp only [Host.Outcome.next.injEq, reduceCtorEq] at e) <;> (subst e; simp)

theorem execBudgetAdmit_frame {s t : State} (e : execBudgetAdmit s = .next t) : Frame [.ctl, .pwr, .dbg] s t := by
  unfold execBudgetAdmit at e
  try dsimp only at e
  (repeat' split at e) <;> (simp only [Host.Outcome.next.injEq, reduceCtorEq] at e) <;> (subst e; simp)

@[simp] theorem State.mirrorAsk_frame {W : List Part} {r s : State} (hW : [.pwr] ⊆ W) : Frame W r (State.mirrorAsk s) ↔ Frame W r s := by
  have key : Frame [.pwr] s (State.mirrorAsk s) := by
    simp [State.mirrorAsk]
  exact Frame.iff_of key hW

@[simp] theorem State.tempTake_frame {W : List Part} {r s : State} (x1 : ℤ) (hW : [.regs, .sys, .trk] ⊆ W) : Frame W r (State.tempTake s x1)
    ↔ Frame W r s := by
  have key : Frame [.regs, .sys, .trk] s (State.tempTake s x1) := by
    simp [State.tempTake]
  exact Frame.iff_of key hW

@[simp] theorem State.switchOn_frame {W : List Part} {r s : State} (x1 : Nat) (hW : [.pwr] ⊆ W) : Frame W r (State.switchOn s x1) ↔ Frame W r s := by
  have key : Frame [.pwr] s (State.switchOn s x1) := by
    simp [State.switchOn]
  exact Frame.iff_of key hW

@[simp] theorem State.domainLost_frame {W : List Part} {r s : State} (x1 : Nat) (hW : [.regs, .sys, .lnk, .cel, .hats] ⊆ W) : Frame W r
    (State.domainLost s x1) ↔ Frame W r s := by
  have key : Frame [.regs, .sys, .lnk, .cel, .hats] s (State.domainLost s x1) := by
    simp [State.domainLost]
  exact Frame.iff_of key hW

@[simp] theorem State.switchOff_frame {W : List Part} {r s : State} (x1 : Nat) (hW : [.regs, .sys, .lnk, .cel, .hats, .pwr] ⊆ W) : Frame W r
    (State.switchOff s x1) ↔ Frame W r s := by
  have key : Frame [.regs, .sys, .lnk, .cel, .hats, .pwr] s (State.switchOff s x1) := by
    simp [State.switchOff]
  exact Frame.iff_of key hW

@[simp] theorem State.switchTo_frame {W : List Part} {r s : State} (x1 : Nat) (x2 : Bool) (hW : [.regs, .sys, .lnk, .cel, .hats, .pwr] ⊆ W)
    : Frame W r (State.switchTo s x1 x2) ↔ Frame W r s := by
  have key : Frame [.regs, .sys, .lnk, .cel, .hats, .pwr] s (State.switchTo s x1 x2) := by
    simp [State.switchTo]
  exact Frame.iff_of key hW

@[simp] theorem State.switchBanks_frame {W : List Part} {r s : State} (hW : [.regs, .sys, .lnk, .cel, .hats, .pwr] ⊆ W) : Frame W r
    (State.switchBanks s) ↔ Frame W r s := by
  have key : Frame [.regs, .sys, .lnk, .cel, .hats, .pwr] s (State.switchBanks s) := by
    simp [State.switchBanks]
  exact Frame.iff_of key hW

@[simp] theorem State.switchGroups_frame {W : List Part} {r s : State} (hW : [.regs, .sys, .lnk, .cel, .hats, .pwr] ⊆ W) : Frame W r
    (State.switchGroups s) ↔ Frame W r s := by
  have key : Frame [.regs, .sys, .lnk, .cel, .hats, .pwr] s (State.switchGroups s) := by
    simp [State.switchGroups]
  exact Frame.iff_of key hW

@[simp] theorem State.switchHatches_frame {W : List Part} {r s : State} (hW : [.regs, .sys, .lnk, .cel, .hats, .pwr] ⊆ W) : Frame W r
    (State.switchHatches s) ↔ Frame W r s := by
  have key : Frame [.regs, .sys, .lnk, .cel, .hats, .pwr] s (State.switchHatches s) := by
    simp [State.switchHatches]
  exact Frame.iff_of key hW

@[simp] theorem State.pwrBoundary_frame {W : List Part} {r s : State} (x1 : ℤ) (hW : [.regs, .sys, .lnk, .cel, .mtr, .hats, .pwr, .trk] ⊆ W)
    : Frame W r (State.pwrBoundary s x1) ↔ Frame W r s := by
  have key : Frame [.regs, .sys, .lnk, .cel, .mtr, .hats, .pwr, .trk] s (State.pwrBoundary s x1) := by
    simp [State.pwrBoundary]
  exact Frame.iff_of key hW

@[simp] theorem State.domainReady_frame {W : List Part} {r s : State} (x1 : Nat) (hW : [.lnk, .pwr] ⊆ W) : Frame W r (State.domainReady s x1)
    ↔ Frame W r s := by
  have key : Frame [.lnk, .pwr] s (State.domainReady s x1) := by
    simp [State.domainReady]
  exact Frame.iff_of key hW

@[simp] theorem State.pwrAnnex_frame {W : List Part} {r s : State} (x1 : Epoch) (hW : [.cel] ⊆ W) : Frame W r (State.pwrAnnex s x1)
    ↔ Frame W r s := by
  have key : Frame [.cel] s (State.pwrAnnex s x1) := by
    simp [State.pwrAnnex]
  exact Frame.iff_of key hW

@[simp] theorem State.refStart_frame {W : List Part} {r s : State} (hW : [.ref, .freeCount] ⊆ W) : Frame W r (State.refStart s) ↔ Frame W r s := by
  have key : Frame [.ref, .freeCount] s (State.refStart s) := by
    simp [State.refStart]
  exact Frame.iff_of key hW

@[simp] theorem State.calibrate_frame {W : List Part} {r s : State} (x1 : Nat) (hW : [.regs, .ref, .trk] ⊆ W) : Frame W r (State.calibrate s x1)
    ↔ Frame W r s := by
  have key : Frame [.regs, .ref, .trk] s (State.calibrate s x1) := by
    simp [State.calibrate]
  exact Frame.iff_of key hW

@[simp] theorem State.calibrateUnlocked_frame {W : List Part} {r s : State} (hW : [.regs, .ref, .trk, .freeCount] ⊆ W) : Frame W r
    (State.calibrateUnlocked s) ↔ Frame W r s := by
  have key : Frame [.regs, .ref, .trk, .freeCount] s (State.calibrateUnlocked s) := by
    simp [State.calibrateUnlocked]
  exact Frame.iff_of key hW

@[simp] theorem State.prtStoreLim_frame {W : List Part} {r s : State} (x1 : Nat) (x2 : Word) (hW : [.prt] ⊆ W) : Frame W r
    (State.prtStoreLim s x1 x2) ↔ Frame W r s := by
  have key : Frame [.prt] s (State.prtStoreLim s x1 x2) := by
    simp [State.prtStoreLim]
  exact Frame.iff_of key hW

@[simp] theorem State.prtSnap_frame {W : List Part} {r s : State} (hW : [.prt] ⊆ W) : Frame W r (State.prtSnap s) ↔ Frame W r s := by
  have key : Frame [.prt] s (State.prtSnap s) := by
    simp [State.prtSnap]
  exact Frame.iff_of key hW

@[simp] theorem State.updView_frame {W : List Part} {r s : State} (x1 : Bool) (x2 : PrtView → PrtView) (hW : [.prt] ⊆ W) : Frame W r
    (State.updView s x1 x2) ↔ Frame W r s := by
  have key : Frame [.prt] s (State.updView s x1 x2) := by
    simp [State.updView]
  exact Frame.iff_of key hW

@[simp] theorem State.blockRequest_frame {W : List Part} {r s : State} (x1 : Bool) (x2 : Nat) (hW : [.regs, .lnk, .prt, .dbg] ⊆ W) : Frame W r
    (State.blockRequest s x1 x2) ↔ Frame W r s := by
  have key : Frame [.regs, .lnk, .prt, .dbg] s (State.blockRequest s x1 x2) := by
    simp [State.blockRequest]
  exact Frame.iff_of key hW

@[simp] theorem State.prtAnnex_frame {W : List Part} {r s : State} (x1 : Bool) (x2 : Epoch) (hW : [.cel] ⊆ W) : Frame W r
    (State.prtAnnex s x1 x2) ↔ Frame W r s := by
  have key : Frame [.cel] s (State.prtAnnex s x1 x2) := by
    simp [State.prtAnnex]
  exact Frame.iff_of key hW

@[simp] theorem State.bypassFaulty_frame {W : List Part} {r s : State} (x1 : Nat) (x2 : List Nat) (hW : [.edg] ⊆ W) : Frame W r
    (State.bypassFaulty s x1 x2) ↔ Frame W r s := by
  have key : Frame [.edg] s (State.bypassFaulty s x1 x2) := by
    simp [State.bypassFaulty]
  exact Frame.iff_of key hW

@[simp] theorem State.discRuns_frame {W : List Part} {r s : State} (hW : [.cel, .prt] ⊆ W) : Frame W r (State.discRuns s) ↔ Frame W r s := by
  have key : Frame [.cel, .prt] s (State.discRuns s) := by
    simp [State.discRuns]
  exact Frame.iff_of key hW

@[simp] theorem State.prtPass_frame {W : List Part} {r s : State} (x0 : Bool) (x1 : Nat) (hW : [.regs, .lnk, .cel, .edg, .prt, .dbg] ⊆ W)
    : Frame W r (State.prtPass x0 x1 s) ↔ Frame W r s := by
  have key : Frame [.regs, .lnk, .cel, .edg, .prt, .dbg] s (State.prtPass x0 x1 s) := by
    simp [State.prtPass]
  exact Frame.iff_of key hW

theorem execProtectionPass_frame {s t : State} (x0 : Bool) (x1 : Nat) (e : execProtectionPass x0 x1 s = .next t) : Frame [.regs, .sys, .lnk,
    .cel, .edg, .prt, .dbg] s t := by
  unfold execProtectionPass at e
  try dsimp only at e
  (repeat' split at e) <;> (simp only [Host.Outcome.next.injEq, reduceCtorEq] at e) <;> (subst e; simp)

@[simp] theorem State.prtRefresh_frame {W : List Part} {r s : State} (x1 : Bool) (hW : [.cel, .prt] ⊆ W) : Frame W r (State.prtRefresh s x1)
    ↔ Frame W r s := by
  have key : Frame [.cel, .prt] s (State.prtRefresh s x1) := by
    simp [State.prtRefresh]
  exact Frame.iff_of key hW

@[simp] theorem State.raiseIn_frame {W : List Part} {r s : State} (x1 : Bool) (x2 : List Nat) (x3 : Nat) (hW : [.regs, .lnk, .cel, .prt,
    .dbg] ⊆ W) : Frame W r (State.raiseIn s x1 x2 x3) ↔ Frame W r s := by
  have key : Frame [.regs, .lnk, .cel, .prt, .dbg] s (State.raiseIn s x1 x2 x3) := by
    simp [State.raiseIn]
  exact Frame.iff_of key hW

theorem execAbDisc_frame {s t : State} (e : execAbDisc s = .next t) : Frame [.regs, .lnk, .cel, .prt, .dbg] s t := by
  unfold execAbDisc at e
  try dsimp only at e
  (repeat' split at e) <;> (simp only [Host.Outcome.next.injEq, reduceCtorEq] at e) <;> (subst e; simp)

@[simp] theorem State.sourceRecord_frame {W : List Part} {r s : State} (x1 : Nat) (x2 : Bool) (x3 : DevSrc) (x4 : Epoch) (hW : [.regs, .hats,
    .trk, .out] ⊆ W) : Frame W r (State.sourceRecord s x1 x2 x3 x4) ↔ Frame W r s := by
  have key : Frame [.regs, .hats, .trk, .out] s (State.sourceRecord s x1 x2 x3 x4) := by
    simp [State.sourceRecord]
  exact Frame.iff_of key hW

@[simp] theorem State.raiseDev_frame {W : List Part} {r s : State} (x1 : Epoch) (x2 : Nat) (hW : [.regs, .prt, .hats, .trk, .out] ⊆ W)
    : Frame W r (State.raiseDev s x1 x2) ↔ Frame W r s := by
  have key : Frame [.regs, .prt, .hats, .trk, .out] s (State.raiseDev s x1 x2) := by
    simp [State.raiseDev]
  exact Frame.iff_of key hW

@[simp] theorem State.clearDev_frame {W : List Part} {r s : State} (x1 : Epoch) (x2 : Nat) (hW : [.regs, .prt, .hats, .trk, .out] ⊆ W)
    : Frame W r (State.clearDev s x1 x2) ↔ Frame W r s := by
  have key : Frame [.regs, .prt, .hats, .trk, .out] s (State.clearDev s x1 x2) := by
    simp [State.clearDev]
  exact Frame.iff_of key hW

@[simp] theorem State.escalateDev_frame {W : List Part} {r s : State} (x1 : Epoch) (x2 : Nat) (hW : [.regs, .prt, .hats, .trk, .out] ⊆ W)
    : Frame W r (State.escalateDev s x1 x2) ↔ Frame W r s := by
  have key : Frame [.regs, .prt, .hats, .trk, .out] s (State.escalateDev s x1 x2) := by
    simp [State.escalateDev]
  exact Frame.iff_of key hW

@[simp] theorem State.prtBoundary_frame {W : List Part} {r s : State} (hW : [.regs, .prt, .hats, .trk, .out] ⊆ W) : Frame W r
    (State.prtBoundary s) ↔ Frame W r s := by
  have key : Frame [.regs, .prt, .hats, .trk, .out] s (State.prtBoundary s) := by
    simp [State.prtBoundary]
  exact Frame.iff_of key hW

theorem execDegradeExpiry_frame {s t : State} (x0 : Bool) (x1 : Nat) (x2 : Nat) (e : execDegradeExpiry x0 x1 x2 s = .next t) : Frame [.regs,
    .lnk, .cel, .prt, .dbg] s t := by
  unfold execDegradeExpiry at e
  try dsimp only at e
  (repeat' split at e) <;> (simp only [Host.Outcome.next.injEq, reduceCtorEq] at e) <;> (subst e; simp)

@[simp] theorem State.permitAgain_frame {W : List Part} {r s : State} (x1 : Bool) (hW : [.prt] ⊆ W) : Frame W r (State.permitAgain s x1)
    ↔ Frame W r s := by
  have key : Frame [.prt] s (State.permitAgain s x1) := by
    simp [State.permitAgain]
  exact Frame.iff_of key hW

theorem execRecoveryTimerExpiry_frame {s t : State} (x0 : Bool) (x1 : Nat) (e : execRecoveryTimerExpiry x0 x1 s = .next t) : Frame [.prt] s t := by
  unfold execRecoveryTimerExpiry at e
  try dsimp only at e
  (repeat' split at e) <;> (simp only [Host.Outcome.next.injEq, reduceCtorEq] at e) <;> (subst e; simp)

@[simp] theorem State.endEpisode_frame {W : List Part} {r s : State} (hW : [.regs, .prt] ⊆ W) : Frame W r (State.endEpisode s) ↔ Frame W r s := by
  have key : Frame [.regs, .prt] s (State.endEpisode s) := by
    simp [State.endEpisode]
  exact Frame.iff_of key hW

theorem execRecoveryComplete_frame {s t : State} (e : execRecoveryComplete s = .next t) : Frame [.regs, .sys, .mfe, .lnk, .cel, .ctl, .grd,
    .edg, .prt, .hats, .trk, .dbg, .out] s t := by
  unfold execRecoveryComplete at e
  try dsimp only at e
  (repeat' split at e) <;> (simp only [Host.Outcome.next.injEq, reduceCtorEq] at e) <;> (subst e; simp)

@[simp] theorem State.prtEventNow_frame {W : List Part} {r s : State} (x1 : Nat) (hW : [.prt] ⊆ W) : Frame W r (State.prtEventNow s x1)
    ↔ Frame W r s := by
  have key : Frame [.prt] s (State.prtEventNow s x1) := by
    simp [State.prtEventNow]
  exact Frame.iff_of key hW

theorem execHoldTimeout_frame {s t : State} (e : execHoldTimeout s = .next t) : Frame [.prt] s t := by
  unfold execHoldTimeout at e
  try dsimp only at e
  (repeat' split at e) <;> (simp only [Host.Outcome.next.injEq, reduceCtorEq] at e) <;> (subst e; simp)

theorem execTripPulseEnd_frame {s t : State} (x0 : Nat) (e : execTripPulseEnd x0 s = .next t) : Frame [.prt] s t := by
  unfold execTripPulseEnd at e
  try dsimp only at e
  (repeat' split at e) <;> (simp only [Host.Outcome.next.injEq, reduceCtorEq] at e) <;> (subst e; simp)

@[simp] theorem State.lockAgain_frame {W : List Part} {r s : State} (hW : [.regs, .prt] ⊆ W) : Frame W r (State.lockAgain s) ↔ Frame W r s := by
  have key : Frame [.regs, .prt] s (State.lockAgain s) := by
    simp [State.lockAgain]
  exact Frame.iff_of key hW

@[simp] theorem State.resetResult_frame {W : List Part} {r s : State} (x1 : Nat) (hW : [.regs] ⊆ W) : Frame W r (State.resetResult s x1)
    ↔ Frame W r s := by
  have key : Frame [.regs] s (State.resetResult s x1) := by
    simp [State.resetResult]
  exact Frame.iff_of key hW

@[simp] theorem State.resetRefuse_frame {W : List Part} {r s : State} (x1 : Nat) (hW : [.regs, .prt] ⊆ W) : Frame W r (State.resetRefuse s x1)
    ↔ Frame W r s := by
  have key : Frame [.regs, .prt] s (State.resetRefuse s x1) := by
    simp [State.resetRefuse]
  exact Frame.iff_of key hW

@[simp] theorem State.resetOwner_frame {W : List Part} {r s : State} (x1 : Requester) (hW : [.regs, .mgmtStatus, .hats, .out] ⊆ W) : Frame W r
    (State.resetOwner s x1) ↔ Frame W r s := by
  have key : Frame [.regs, .mgmtStatus, .hats, .out] s (State.resetOwner s x1) := by
    simp [State.resetOwner]
  exact Frame.iff_of key hW

@[simp] theorem State.resetArm_frame {W : List Part} {r s : State} (x1 : Requester) (x2 : Nat) (hW : [.regs, .mgmtStatus, .prt, .hats,
    .out] ⊆ W) : Frame W r (State.resetArm s x1 x2) ↔ Frame W r s := by
  have key : Frame [.regs, .mgmtStatus, .prt, .hats, .out] s (State.resetArm s x1 x2) := by
    simp [State.resetArm]
  exact Frame.iff_of key hW

@[simp] theorem State.resetAsk_frame {W : List Part} {r s : State} (x1 : Requester) (x2 : Nat) (hW : [.regs, .mgmtStatus, .prt, .hats,
    .out] ⊆ W) : Frame W r (State.resetAsk s x1 x2) ↔ Frame W r s := by
  have key : Frame [.regs, .mgmtStatus, .prt, .hats, .out] s (State.resetAsk s x1 x2) := by
    unfold State.resetAsk
    try dsimp only
    repeat' (first | (simp [apply_ite Prod.fst, apply_ite Prod.snd]; done) | split)
  exact Frame.iff_of key hW

@[simp] theorem State.resetDo_frame {W : List Part} {r s : State} (hW : [.regs, .sys, .mfe, .lnk, .cel, .ctl, .grd, .edg, .prt, .hats, .trk,
    .dbg, .out] ⊆ W) : Frame W r (State.resetDo s) ↔ Frame W r s := by
  have key : Frame [.regs, .sys, .mfe, .lnk, .cel, .ctl, .grd, .edg, .prt, .hats, .trk, .dbg, .out] s (State.resetDo s) := by
    simp [State.resetDo]
  exact Frame.iff_of key hW

theorem execResetArm_frame {s t : State} (x0 : Requester) (x1 : Nat) (e : execResetArm x0 x1 s = .next t) : Frame [.regs, .mgmtStatus, .prt,
    .hats, .out] s t := by
  unfold execResetArm at e
  try dsimp only at e
  (repeat' split at e) <;> (simp only [Host.Outcome.next.injEq, reduceCtorEq] at e) <;> (subst e; simp)

theorem execResetGo_frame {s t : State} (x0 : Requester) (x1 : Nat) (e : execResetGo x0 x1 s = .next t) : Frame [.regs, .sys, .mgmtStatus, .mfe,
    .lnk, .cel, .ctl, .grd, .edg, .prt, .hats, .trk, .dbg, .out] s t := by
  unfold execResetGo at e
  try dsimp only at e
  (repeat' split at e) <;> (simp only [Host.Outcome.next.injEq, reduceCtorEq] at e) <;> (subst e; simp)

theorem execResetArmExpiry_frame {s t : State} (e : execResetArmExpiry s = .next t) : Frame [.regs, .prt] s t := by
  unfold execResetArmExpiry at e
  try dsimp only at e
  (repeat' split at e) <;> (simp only [Host.Outcome.next.injEq, reduceCtorEq] at e) <;> (subst e; simp)

@[simp] theorem State.resetWrite_frame {W : List Part} {r s : State} (x1 : Requester) (x2 : Word) (hW : [.regs, .mgmtStatus, .prt, .hats,
    .out] ⊆ W) : Frame W r (State.resetWrite s x1 x2) ↔ Frame W r s := by
  have key : Frame [.regs, .mgmtStatus, .prt, .hats, .out] s (State.resetWrite s x1 x2) := by
    unfold State.resetWrite
    (repeat' split) <;> simp
  exact Frame.iff_of key hW

@[simp] theorem State.putSafety_frame {W : List Part} {r s : State} (x1 : List Word) (hW : [.regs] ⊆ W) : Frame W r (State.putSafety s x1)
    ↔ Frame W r s := by
  have key : Frame [.regs] s (State.putSafety s x1) := by
    simp [State.putSafety]
  exact Frame.iff_of key hW

@[simp] theorem State.putSafetyPending_frame {W : List Part} {r s : State} (x1 : List Word) (hW : [.regs] ⊆ W) : Frame W r
    (State.putSafetyPending s x1) ↔ Frame W r s := by
  have key : Frame [.regs] s (State.putSafetyPending s x1) := by
    simp [State.putSafetyPending]
  exact Frame.iff_of key hW

@[simp] theorem State.updSafPair_frame {W : List Part} {r s : State} (x1 : Nat) (x2 : PairSaf → PairSaf) (hW : [.saf] ⊆ W) : Frame W r
    (State.updSafPair s x1 x2) ↔ Frame W r s := by
  have key : Frame [.saf] s (State.updSafPair s x1 x2) := by
    simp [State.updSafPair]
  exact Frame.iff_of key hW

@[simp] theorem State.updSafOut_frame {W : List Part} {r s : State} (x1 : Nat) (x2 : OutSaf → OutSaf) (hW : [.saf] ⊆ W) : Frame W r
    (State.updSafOut s x1 x2) ↔ Frame W r s := by
  have key : Frame [.saf] s (State.updSafOut s x1 x2) := by
    simp [State.updSafOut]
  exact Frame.iff_of key hW

@[simp] theorem State.chanSample_frame {W : List Part} {r s : State} (x1 : Nat) (hW : [.saf] ⊆ W) : Frame W r (State.chanSample s x1)
    ↔ Frame W r s := by
  have key : Frame [.saf] s (State.chanSample s x1) := by
    simp [State.chanSample]
  exact Frame.iff_of key hW

@[simp] theorem State.pairSample_frame {W : List Part} {r s : State} (x1 : Nat) (hW : [.saf] ⊆ W) : Frame W r (State.pairSample s x1)
    ↔ Frame W r s := by
  have key : Frame [.saf] s (State.pairSample s x1) := by
    simp [State.pairSample]
  exact Frame.iff_of key hW

@[simp] theorem State.outSample_frame {W : List Part} {r s : State} (x1 : Nat) (hW : [.saf] ⊆ W) : Frame W r (State.outSample s x1)
    ↔ Frame W r s := by
  have key : Frame [.saf] s (State.outSample s x1) := by
    simp [State.outSample]
  exact Frame.iff_of key hW

@[simp] theorem State.srstSample_frame {W : List Part} {r s : State} (x1 : Bool) (hW : [.saf] ⊆ W) : Frame W r (State.srstSample s x1)
    ↔ Frame W r s := by
  have key : Frame [.saf] s (State.srstSample s x1) := by
    simp [State.srstSample]
  exact Frame.iff_of key hW

theorem execSafetySample_frame {s t : State} (x0 : Nat) (x1 : Nat) (x2 : Bool) (e : execSafetySample x0 x1 x2 s = .next t) : Frame [.saf] s t := by
  unfold execSafetySample at e
  try dsimp only at e
  (repeat' split at e) <;> (simp only [Host.Outcome.next.injEq, reduceCtorEq] at e) <;> (subst e; simp)

@[simp] theorem State.pairFaultSet_frame {W : List Part} {r s : State} (x1 : Nat) (x2 : Bool) (hW : [.regs, .saf] ⊆ W) : Frame W r
    (State.pairFaultSet s x1 x2) ↔ Frame W r s := by
  have key : Frame [.regs, .saf] s (State.pairFaultSet s x1 x2) := by
    simp [State.pairFaultSet]
  exact Frame.iff_of key hW

theorem execPairDiscFault_frame {s t : State} (x0 : Nat) (e : execPairDiscFault x0 s = .next t) : Frame [.regs, .saf] s t := by
  unfold execPairDiscFault at e
  try dsimp only at e
  (repeat' split at e) <;> (simp only [Host.Outcome.next.injEq, reduceCtorEq] at e) <;> (subst e; simp)

theorem execTestPulse_frame {s t : State} (x0 : Nat) (e : execTestPulse x0 s = .next t) : Frame [.regs, .saf] s t := by
  unfold execTestPulse at e
  try dsimp only at e
  (repeat' split at e) <;> (simp only [Host.Outcome.next.injEq, reduceCtorEq] at e) <;> (subst e; simp)

theorem execOffPulse_frame {s t : State} (x0 : Nat) (e : execOffPulse x0 s = .next t) : Frame [.saf] s t := by
  unfold execOffPulse at e
  try dsimp only at e
  (repeat' split at e) <;> (simp only [Host.Outcome.next.injEq, reduceCtorEq] at e) <;> (subst e; simp)

theorem execReadbackCheck_frame {s t : State} (x0 : Nat) (e : execReadbackCheck x0 s = .next t) : Frame [.regs, .saf] s t := by
  unfold execReadbackCheck at e
  try dsimp only at e
  (repeat' split at e) <;> (simp only [Host.Outcome.next.injEq, reduceCtorEq] at e) <;> (subst e; simp)

@[simp] theorem State.tgCount_frame {W : List Part} {r s : State} (x1 : Nat) (hW : [.regs] ⊆ W) : Frame W r (State.tgCount s x1) ↔ Frame W r s := by
  have key : Frame [.regs] s (State.tgCount s x1) := by
    simp [State.tgCount]
  exact Frame.iff_of key hW

@[simp] theorem State.tgLost_frame {W : List Part} {r s : State} (hW : [.saf] ⊆ W) : Frame W r (State.tgLost s) ↔ Frame W r s := by
  have key : Frame [.saf] s (State.tgLost s) := by
    simp [State.tgLost]
  exact Frame.iff_of key hW

@[simp] theorem State.tgFall_frame {W : List Part} {r s : State} (hW : [.regs, .saf] ⊆ W) : Frame W r (State.tgFall s) ↔ Frame W r s := by
  have key : Frame [.regs, .saf] s (State.tgFall s) := by
    simp [State.tgFall]
  exact Frame.iff_of key hW

@[simp] theorem State.telegram_frame {W : List Part} {r s : State} (x1 : List Byte) (hW : [.regs, .saf] ⊆ W) : Frame W r (State.telegram s x1)
    ↔ Frame W r s := by
  have key : Frame [.regs, .saf] s (State.telegram s x1) := by
    simp [State.telegram]
  exact Frame.iff_of key hW

@[simp] theorem State.tgCycle_frame {W : List Part} {r s : State} (hW : [.regs, .saf] ⊆ W) : Frame W r (State.tgCycle s) ↔ Frame W r s := by
  have key : Frame [.regs, .saf] s (State.tgCycle s) := by
    simp [State.tgCycle]
  exact Frame.iff_of key hW

@[simp] theorem State.pairCycle_frame {W : List Part} {r s : State} (x1 : Nat) (hW : [.saf] ⊆ W) : Frame W r (State.pairCycle s x1)
    ↔ Frame W r s := by
  have key : Frame [.saf] s (State.pairCycle s x1) := by
    simp [State.pairCycle]
  exact Frame.iff_of key hW

@[simp] theorem State.safStates_frame {W : List Part} {r s : State} (hW : [.saf] ⊆ W) : Frame W r (State.safStates s) ↔ Frame W r s := by
  have key : Frame [.saf] s (State.safStates s) := by
    simp [State.safStates]
  exact Frame.iff_of key hW

@[simp] theorem State.safLock_frame {W : List Part} {r s : State} (x1 : Nat) (x2 : Nat) (hW : [.regs, .lnk, .prt, .saf, .trk, .dbg] ⊆ W)
    : Frame W r (State.safLock s x1 x2) ↔ Frame W r s := by
  have key : Frame [.regs, .lnk, .prt, .saf, .trk, .dbg] s (State.safLock s x1 x2) := by
    simp [State.safLock]
  exact Frame.iff_of key hW

@[simp] theorem State.setPermit_frame {W : List Part} {r s : State} (x1 : Bool) (hW : [.regs, .saf, .trk] ⊆ W) : Frame W r
    (State.setPermit s x1) ↔ Frame W r s := by
  have key : Frame [.regs, .saf, .trk] s (State.setPermit s x1) := by
    simp [State.setPermit]
  exact Frame.iff_of key hW

@[simp] theorem State.setOutCmd_frame {W : List Part} {r s : State} (x1 : Nat) (x2 : Bool) (hW : [.saf] ⊆ W) : Frame W r
    (State.setOutCmd s x1 x2) ↔ Frame W r s := by
  have key : Frame [.saf] s (State.setOutCmd s x1 x2) := by
    simp [State.setOutCmd]
  exact Frame.iff_of key hW

theorem execSafetyCycle_frame {s t : State} (x0 : Nat) (x1 : Nat) (e : execSafetyCycle x0 x1 s = .next t) : Frame [.regs, .lnk, .prt, .saf,
    .trk, .dbg] s t := by
  unfold execSafetyCycle at e
  try dsimp only at e
  (repeat' split at e) <;> (simp only [Host.Outcome.next.injEq, reduceCtorEq] at e) <;> (subst e; simp)

theorem execDeadHeld_frame {s t : State} (e : execDeadHeld s = .next t) : Frame [.saf] s t := by
  unfold execDeadHeld at e
  try dsimp only at e
  (repeat' split at e) <;> (simp only [Host.Outcome.next.injEq, reduceCtorEq] at e) <;> (subst e; simp)

theorem execResetStuck_frame {s t : State} (e : execResetStuck s = .next t) : Frame [.saf] s t := by
  unfold execResetStuck at e
  try dsimp only at e
  (repeat' split at e) <;> (simp only [Host.Outcome.next.injEq, reduceCtorEq] at e) <;> (subst e; simp)

@[simp] theorem State.safReset_frame {W : List Part} {r s : State} (hW : [.regs, .saf, .trk] ⊆ W) : Frame W r (State.safReset s) ↔ Frame W r s := by
  have key : Frame [.regs, .saf, .trk] s (State.safReset s) := by
    simp [State.safReset]
  exact Frame.iff_of key hW

@[simp] theorem State.resetDecide_frame {W : List Part} {r s : State} (hW : [.regs, .saf, .trk] ⊆ W) : Frame W r (State.resetDecide s)
    ↔ Frame W r s := by
  have key : Frame [.regs, .saf, .trk] s (State.resetDecide s) := by
    simp [State.resetDecide]
  exact Frame.iff_of key hW

theorem execSafetyResetRequest_frame {s t : State} (e : execSafetyResetRequest s = .next t) : Frame [.regs, .saf, .trk] s t := by
  unfold execSafetyResetRequest at e
  try dsimp only at e
  (repeat' split at e) <;> (simp only [Host.Outcome.next.injEq, reduceCtorEq] at e) <;> (subst e; simp)

@[simp] theorem State.confirmResult_frame {W : List Part} {r s : State} (x1 : Nat) (x2 : Nat) (hW : [.regs] ⊆ W) : Frame W r
    (State.confirmResult s x1 x2) ↔ Frame W r s := by
  have key : Frame [.regs] s (State.confirmResult s x1 x2) := by
    simp [State.confirmResult]
  exact Frame.iff_of key hW

@[simp] theorem State.confirmDone_frame {W : List Part} {r s : State} (x1 : Nat) (x2 : Nat) (hW : [.regs] ⊆ W) : Frame W r
    (State.confirmDone s x1 x2) ↔ Frame W r s := by
  have key : Frame [.regs] s (State.confirmDone s x1 x2) := by
    simp [State.confirmDone]
  exact Frame.iff_of key hW

@[simp] theorem State.confirmGo_frame {W : List Part} {r s : State} (x1 : Requester) (x2 : Nat) (hW : [.regs, .saf, .trk] ⊆ W) : Frame W r
    (State.confirmGo s x1 x2) ↔ Frame W r s := by
  have key : Frame [.regs, .saf, .trk] s (State.confirmGo s x1 x2) := by
    unfold State.confirmGo
    (repeat' split) <;> simp
  exact Frame.iff_of key hW

@[simp] theorem State.confirmDiscard_frame {W : List Part} {r s : State} (x1 : Nat) (hW : [.regs] ⊆ W) : Frame W r (State.confirmDiscard s x1)
    ↔ Frame W r s := by
  have key : Frame [.regs] s (State.confirmDiscard s x1) := by
    simp [State.confirmDiscard]
  exact Frame.iff_of key hW

@[simp] theorem State.confirmForbidden_frame {W : List Part} {r s : State} (x1 : Requester) (hW : [.regs, .mgmtStatus, .hats, .out] ⊆ W)
    : Frame W r (State.confirmForbidden s x1) ↔ Frame W r s := by
  have key : Frame [.regs, .mgmtStatus, .hats, .out] s (State.confirmForbidden s x1) := by
    simp [State.confirmForbidden]
  exact Frame.iff_of key hW

@[simp] theorem State.confirmWrite_frame {W : List Part} {r s : State} (x1 : Requester) (x2 : Word) (hW : [.regs, .saf, .trk] ⊆ W) : Frame W r
    (State.confirmWrite s x1 x2) ↔ Frame W r s := by
  have key : Frame [.regs, .saf, .trk] s (State.confirmWrite s x1 x2) := by
    unfold State.confirmWrite
    (repeat' split) <;> simp
  exact Frame.iff_of key hW

@[simp] theorem State.confirmAsk_frame {W : List Part} {r s : State} (x1 : Requester) (x2 : Word) (hW : [.regs, .mgmtStatus, .saf, .hats, .trk,
    .out] ⊆ W) : Frame W r (State.confirmAsk s x1 x2) ↔ Frame W r s := by
  have key : Frame [.regs, .mgmtStatus, .saf, .hats, .trk, .out] s (State.confirmAsk s x1 x2) := by
    simp [State.confirmAsk]
  exact Frame.iff_of key hW

theorem execConfirmGo_frame {s t : State} (x0 : Requester) (x1 : Nat) (e : execConfirmGo x0 x1 s = .next t) : Frame [.regs, .mgmtStatus, .saf,
    .hats, .trk, .out] s t := by
  unfold execConfirmGo at e
  try dsimp only at e
  (repeat' split at e) <;> (simp only [Host.Outcome.next.injEq, reduceCtorEq] at e) <;> (subst e; simp)

theorem execConfirmDiscard_frame {s t : State} (x0 : Requester) (x1 : Nat) (e : execConfirmDiscard x0 x1 s = .next t) : Frame [.regs,
    .mgmtStatus, .saf, .hats, .trk, .out] s t := by
  unfold execConfirmDiscard at e
  try dsimp only at e
  (repeat' split at e) <;> (simp only [Host.Outcome.next.injEq, reduceCtorEq] at e) <;> (subst e; simp)

theorem execSafetySetInForce_frame {s t : State} (e : execSafetySetInForce s = .next t) : Frame [.regs, .saf, .trk] s t := by
  unfold execSafetySetInForce at e
  try dsimp only at e
  (repeat' split at e) <;> (simp only [Host.Outcome.next.injEq, reduceCtorEq] at e) <;> (subst e; simp)

theorem execSafetyCheckRecompute_frame {s t : State} (e : execSafetyCheckRecompute s = .next t) : Frame [.saf] s t := by
  unfold execSafetyCheckRecompute at e
  try dsimp only at e
  (repeat' split at e) <;> (simp only [Host.Outcome.next.injEq, reduceCtorEq] at e) <;> (subst e; simp)

@[simp] theorem State.safNone_frame {W : List Part} {r s : State} (hW : [.saf] ⊆ W) : Frame W r (State.safNone s) ↔ Frame W r s := by
  have key : Frame [.saf] s (State.safNone s) := by
    simp [State.safNone]
  exact Frame.iff_of key hW

@[simp] theorem State.safLoad_frame {W : List Part} {r s : State} (hW : [.regs, .saf] ⊆ W) : Frame W r (State.safLoad s) ↔ Frame W r s := by
  have key : Frame [.regs, .saf] s (State.safLoad s) := by
    unfold State.safLoad
    (repeat' split) <;> simp
  exact Frame.iff_of key hW

theorem execSafetySetReload_frame {s t : State} (e : execSafetySetReload s = .next t) : Frame [.regs, .saf] s t := by
  unfold execSafetySetReload at e
  try dsimp only at e
  (repeat' split at e) <;> (simp only [Host.Outcome.next.injEq, reduceCtorEq] at e) <;> (subst e; simp)

@[simp] theorem State.sendFrame_frame {W : List Part} {r s : State} (x1 : Nat) (x2 : Nat) (x3 : List Byte) (hW : [.out, .freeCount] ⊆ W)
    : Frame W r (State.sendFrame s x1 x2 x3) ↔ Frame W r s := by
  have key : Frame [.out, .freeCount] s (State.sendFrame s x1 x2 x3) := by
    simp [State.sendFrame]
  exact Frame.iff_of key hW

theorem execTelegramSend_frame {s t : State} (e : execTelegramSend s = .next t) : Frame [.saf, .out, .freeCount] s t := by
  unfold execTelegramSend at e
  try dsimp only at e
  (repeat' split at e) <;> (simp only [Host.Outcome.next.injEq, reduceCtorEq] at e) <;> (subst e; simp)

theorem execStationFrameReceive_frame {s t : State} (x0 : Nat) (x1 : List Byte) (e : execStationFrameReceive x0 x1 s = .next t) : Frame [.regs,
    .saf] s t := by
  unfold execStationFrameReceive at e
  try dsimp only at e
  (repeat' split at e) <;> (simp only [Host.Outcome.next.injEq, reduceCtorEq] at e) <;> (subst e; simp)

theorem execTelegramWatchdog_frame {s t : State} (e : execTelegramWatchdog s = .next t) : Frame [.regs, .saf] s t := by
  unfold execTelegramWatchdog at e
  try dsimp only at e
  (repeat' split at e) <;> (simp only [Host.Outcome.next.injEq, reduceCtorEq] at e) <;> (subst e; simp)

theorem execMirrorSend_frame {s t : State} (e : execMirrorSend s = .next t) : Frame [.saf, .out, .freeCount] s t := by
  unfold execMirrorSend at e
  try dsimp only at e
  (repeat' split at e) <;> (simp only [Host.Outcome.next.injEq, reduceCtorEq] at e) <;> (subst e; simp)

theorem execTrunkWriteStart_frame {s t : State} (e : execTrunkWriteStart s = .next t) : Frame [.trk] s t := by
  unfold execTrunkWriteStart at e
  try dsimp only at e
  (repeat' split at e) <;> (simp only [Host.Outcome.next.injEq, reduceCtorEq] at e) <;> (subst e; simp)

@[simp] theorem State.binWrite_frame {W : List Part} {r s : State} (x1 : BinEnt) (hW : [.trk] ⊆ W) : Frame W r (State.binWrite s x1)
    ↔ Frame W r s := by
  have key : Frame [.trk] s (State.binWrite s x1) := by
    simp [State.binWrite]
  exact Frame.iff_of key hW

@[simp] theorem State.binFailed_frame {W : List Part} {r s : State} (x1 : BinEnt) (hW : [.regs, .trk] ⊆ W) : Frame W r (State.binFailed s x1)
    ↔ Frame W r s := by
  have key : Frame [.regs, .trk] s (State.binFailed s x1) := by
    simp [State.binFailed]
  exact Frame.iff_of key hW

@[simp] theorem State.objWritten_frame {W : List Part} {r s : State} (x1 : TrkItem) (x2 : List Nat) (x3 : Bool) (hW : [.regs, .saf, .trk] ⊆ W)
    : Frame W r (State.objWritten s x1 x2 x3) ↔ Frame W r s := by
  have key : Frame [.regs, .saf, .trk] s (State.objWritten s x1 x2 x3) := by
    unfold State.objWritten
    (repeat' split) <;> simp
  exact Frame.iff_of key hW

theorem execTrunkWriteComplete_frame {s t : State} (x0 : Bool) (e : execTrunkWriteComplete x0 s = .next t) : Frame [.regs, .saf, .trk] s t := by
  unfold execTrunkWriteComplete at e
  try dsimp only at e
  (repeat' split at e) <;> (simp only [Host.Outcome.next.injEq, reduceCtorEq] at e) <;> (subst e; simp)

@[simp] theorem State.coalesceNow_frame {W : List Part} {r s : State} (hW : [.regs, .trk] ⊆ W) : Frame W r (State.coalesceNow s) ↔ Frame W r s := by
  have key : Frame [.regs, .trk] s (State.coalesceNow s) := by
    simp [State.coalesceNow]
  exact Frame.iff_of key hW

theorem execPfailAssert_frame {s t : State} (e : execPfailAssert s = .next t) : Frame [.regs, .pwr, .trk] s t := by
  unfold execPfailAssert at e
  try dsimp only at e
  (repeat' split at e) <;> (simp only [Host.Outcome.next.injEq, reduceCtorEq] at e) <;> (subst e; simp)

theorem execPfailRelease_frame {s t : State} (e : execPfailRelease s = .next t) : Frame [.regs, .pwr, .trk] s t := by
  unfold execPfailRelease at e
  try dsimp only at e
  (repeat' split at e) <;> (simp only [Host.Outcome.next.injEq, reduceCtorEq] at e) <;> (subst e; simp)

@[simp] theorem State.formatTrunk_frame {W : List Part} {r s : State} (hW : [.regs, .trk] ⊆ W) : Frame W r (State.formatTrunk s) ↔ Frame W r s := by
  have key : Frame [.regs, .trk] s (State.formatTrunk s) := by
    simp [State.formatTrunk]
  exact Frame.iff_of key hW

@[simp] theorem State.trkFormat_frame {W : List Part} {r s : State} (x1 : Requester) (x2 : Nat) (hW : [.regs, .mgmtStatus, .hats, .trk,
    .out] ⊆ W) : Frame W r (State.trkFormat s x1 x2) ↔ Frame W r s := by
  have key : Frame [.regs, .mgmtStatus, .hats, .trk, .out] s (State.trkFormat s x1 x2) := by
    simp [State.trkFormat]
  exact Frame.iff_of key hW

theorem execFormat_frame {s t : State} (x0 : Requester) (x1 : Nat) (e : execFormat x0 x1 s = .next t) : Frame [.regs, .mgmtStatus, .hats, .trk,
    .out] s t := by
  unfold execFormat at e
  try dsimp only at e
  (repeat' split at e) <;> (simp only [Host.Outcome.next.injEq, reduceCtorEq] at e) <;> (subst e; simp)

@[simp] theorem State.binRead_frame {W : List Part} {r s : State} (x1 : Requester) (x2 : Nat) (hW : [.regs, .mgmtStatus, .hats, .out] ⊆ W)
    : Frame W r (State.binRead s x1 x2).2 ↔ Frame W r s := by
  have key : Frame [.regs, .mgmtStatus, .hats, .out] s (State.binRead s x1 x2).2 := by
    unfold State.binRead
    (repeat' split) <;> simp
  exact Frame.iff_of key hW

@[simp] theorem State.take_frame {W : List Part} {r s : State} (x1 : Nat) (x2 : Nat) (x3 : Bool) (hW : [.sys] ⊆ W) : Frame W r
    (State.take s x1 x2 x3) ↔ Frame W r s := by
  have key : Frame [.sys] s (State.take s x1 x2 x3) := by
    simp [State.take]
  exact Frame.iff_of key hW

@[simp] theorem State.refuseOrder_frame {W : List Part} {r s : State} (x1 : OrderRef) (x2 : Nat) (x3 : Nat) (hW : [.regs, .sys, .hats,
    .out] ⊆ W) : Frame W r (State.refuseOrder s x1 x2 x3) ↔ Frame W r s := by
  have key : Frame [.regs, .sys, .hats, .out] s (State.refuseOrder s x1 x2 x3) := by
    simp [State.refuseOrder]
  exact Frame.iff_of key hW

@[simp] theorem State.carryOrder_frame {W : List Part} {r s : State} (x1 : OrderRef) (x2 : Nat) (x3 : Conv) (hW : [.regs, .sys, .mfe, .lnk,
    .cel, .ctl, .grd, .edg, .prt, .hats, .trk, .dbg, .out] ⊆ W) : Frame W r (State.carryOrder s x1 x2 x3) ↔ Frame W r s := by
  have key : Frame [.regs, .sys, .mfe, .lnk, .cel, .ctl, .grd, .edg, .prt, .hats, .trk, .dbg, .out] s (State.carryOrder s x1 x2 x3) := by
    simp [State.carryOrder]
  exact Frame.iff_of key hW

@[simp] theorem State.stateOrder_frame {W : List Part} {r s : State} (x1 : OrderRef) (x2 : Nat) (x3 : State → State) (hf : ∀ y, Frame W y
    (x3 y)) (hW : [.regs, .sys, .mfe, .lnk, .cel, .ctl, .grd, .edg, .prt, .hats, .trk, .dbg, .out] ⊆ W) : Frame W r
    (State.stateOrder s x1 x2 x3) ↔ Frame W r s := by
  simp only [List.cons_subset, List.nil_subset, and_true] at hW
  refine Frame.iff_of (V := W) ?_ (List.Subset.refl _)
  unfold State.stateOrder
  dsimp only
  (repeat' split)
  all_goals first
    | (simp [hW]; done)
    | exact Frame.trans (by simp [hW]) (hf _)

@[simp] theorem State.energise_frame {W : List Part} {r s : State} (x1 : OrderRef) (hW : [.regs, .sys, .mfe, .lnk, .cel, .ctl, .grd, .edg, .prt,
    .hats, .trk, .dbg, .out] ⊆ W) : Frame W r (State.energise s x1) ↔ Frame W r s := by
  have key : Frame [.regs, .sys, .mfe, .lnk, .cel, .ctl, .grd, .edg, .prt, .hats, .trk, .dbg, .out] s (State.energise s x1) := by
    simp [State.energise]
  exact Frame.iff_of key hW

theorem execEnergise_frame {s t : State} (x0 : OrderRef) (e : execEnergise x0 s = .next t) : Frame [.regs, .sys, .mfe, .lnk, .cel, .ctl, .grd,
    .edg, .prt, .hats, .trk, .dbg, .out] s t := by
  unfold execEnergise at e
  try dsimp only at e
  (repeat' split at e) <;> (simp only [Host.Outcome.next.injEq, reduceCtorEq] at e) <;> (subst e; simp)

@[simp] theorem State.deblock_frame {W : List Part} {r s : State} (x1 : OrderRef) (hW : [.regs, .sys, .mfe, .lnk, .cel, .ctl, .grd, .edg, .prt,
    .hats, .trk, .dbg, .out] ⊆ W) : Frame W r (State.deblock s x1) ↔ Frame W r s := by
  have key : Frame [.regs, .sys, .mfe, .lnk, .cel, .ctl, .grd, .edg, .prt, .hats, .trk, .dbg, .out] s (State.deblock s x1) := by
    unfold State.deblock
    rw [State.stateOrder_frame _ _ _ (by intro s; (repeat' split) <;> simp) (by simp)]
    simp
  exact Frame.iff_of key hW

theorem execDeblock_frame {s t : State} (x0 : OrderRef) (e : execDeblock x0 s = .next t) : Frame [.regs, .sys, .mfe, .lnk, .cel, .ctl, .grd,
    .edg, .prt, .hats, .trk, .dbg, .out] s t := by
  unfold execDeblock at e
  try dsimp only at e
  (repeat' split at e) <;> (simp only [Host.Outcome.next.injEq, reduceCtorEq] at e) <;> (subst e; simp)

@[simp] theorem State.block_frame {W : List Part} {r s : State} (x1 : OrderRef) (hW : [.regs, .sys, .mfe, .lnk, .cel, .ctl, .grd, .edg, .prt,
    .hats, .trk, .dbg, .out] ⊆ W) : Frame W r (State.block s x1) ↔ Frame W r s := by
  have key : Frame [.regs, .sys, .mfe, .lnk, .cel, .ctl, .grd, .edg, .prt, .hats, .trk, .dbg, .out] s (State.block s x1) := by
    simp [State.block]
  exact Frame.iff_of key hW

theorem execBlock_frame {s t : State} (x0 : OrderRef) (e : execBlock x0 s = .next t) : Frame [.regs, .sys, .mfe, .lnk, .cel, .ctl, .grd, .edg,
    .prt, .hats, .trk, .dbg, .out] s t := by
  unfold execBlock at e
  try dsimp only at e
  (repeat' split at e) <;> (simp only [Host.Outcome.next.injEq, reduceCtorEq] at e) <;> (subst e; simp)

@[simp] theorem State.deenergise_frame {W : List Part} {r s : State} (x1 : OrderRef) (hW : [.regs, .sys, .mfe, .lnk, .cel, .ctl, .grd, .edg,
    .prt, .hats, .trk, .dbg, .out] ⊆ W) : Frame W r (State.deenergise s x1) ↔ Frame W r s := by
  have key : Frame [.regs, .sys, .mfe, .lnk, .cel, .ctl, .grd, .edg, .prt, .hats, .trk, .dbg, .out] s (State.deenergise s x1) := by
    simp [State.deenergise]
  exact Frame.iff_of key hW

theorem execDeenergise_frame {s t : State} (x0 : OrderRef) (e : execDeenergise x0 s = .next t) : Frame [.regs, .sys, .mfe, .lnk, .cel, .ctl,
    .grd, .edg, .prt, .hats, .trk, .dbg, .out] s t := by
  unfold execDeenergise at e
  try dsimp only at e
  (repeat' split at e) <;> (simp only [Host.Outcome.next.injEq, reduceCtorEq] at e) <;> (subst e; simp)

theorem execNop_frame {s t : State} (x0 : OrderRef) (e : execNop x0 s = .next t) : Frame [.regs, .hats, .out] s t := by
  unfold execNop at e
  try dsimp only at e
  (repeat' split at e) <;> (simp only [Host.Outcome.next.injEq, reduceCtorEq] at e) <;> (subst e; simp)

@[simp] theorem State.setPoint_frame {W : List Part} {r s : State} (x1 : OrderRef) (x2 : List SetPointEntry) (hW : [.regs, .hats, .out] ⊆ W)
    : Frame W r (State.setPoint s x1 x2) ↔ Frame W r s := by
  have key : Frame [.regs, .hats, .out] s (State.setPoint s x1 x2) := by
    simp [State.setPoint]
  exact Frame.iff_of key hW

theorem execSetPoint_frame {s t : State} (x0 : OrderRef) (x1 : List SetPointEntry) (e : execSetPoint x0 x1 s = .next t) : Frame [.regs, .hats,
    .out] s t := by
  unfold execSetPoint at e
  try dsimp only at e
  (repeat' split at e) <;> (simp only [Host.Outcome.next.injEq, reduceCtorEq] at e) <;> (subst e; simp)

@[simp] theorem State.snapshot_frame {W : List Part} {r s : State} (x1 : OrderRef) (x2 : SnapshotArgs) (hW : [.regs, .cel, .hats, .out] ⊆ W)
    : Frame W r (State.snapshot s x1 x2) ↔ Frame W r s := by
  have key : Frame [.regs, .cel, .hats, .out] s (State.snapshot s x1 x2) := by
    simp [State.snapshot]
  exact Frame.iff_of key hW

theorem execSnapshot_frame {s t : State} (x0 : OrderRef) (x1 : SnapshotArgs) (e : execSnapshot x0 x1 s = .next t) : Frame [.regs, .cel, .hats,
    .out] s t := by
  unfold execSnapshot at e
  try dsimp only at e
  (repeat' split at e) <;> (simp only [Host.Outcome.next.injEq, reduceCtorEq] at e) <;> (subst e; simp)

@[simp] theorem State.crateOpen_frame {W : List Part} {r s : State} (x1 : OrderRef) (hW : [.regs, .cel, .hats, .out] ⊆ W) : Frame W r
    (State.crateOpen s x1) ↔ Frame W r s := by
  have key : Frame [.regs, .cel, .hats, .out] s (State.crateOpen s x1) := by
    unfold State.crateOpen
    (repeat' split) <;> simp
  exact Frame.iff_of key hW

theorem execCrateOpen_frame {s t : State} (x0 : OrderRef) (e : execCrateOpen x0 s = .next t) : Frame [.regs, .cel, .hats, .out] s t := by
  unfold execCrateOpen at e
  try dsimp only at e
  (repeat' split at e) <;> (simp only [Host.Outcome.next.injEq, reduceCtorEq] at e) <;> (subst e; simp)

@[simp] theorem State.addDone_frame {W : List Part} {r s : State} (x1 : OrderRef) (x2 : Nat) (x3 : Nat) (hW : [.regs, .cel, .hats, .out] ⊆ W)
    : Frame W r (State.addDone s x1 x2 x3) ↔ Frame W r s := by
  have key : Frame [.regs, .cel, .hats, .out] s (State.addDone s x1 x2 x3) := by
    simp [State.addDone]
  exact Frame.iff_of key hW

@[simp] theorem State.withCrate_frame {W : List Part} {r s : State} (x1 : OrderRef) (x2 x3 : Nat) (x4 : State → Nat → State) (hf
    : ∀ s i, Frame W s (x4 s i)) (hW : [.regs, .hats, .out] ⊆ W) : Frame W r (s.withCrate x1 x2 x3 x4) ↔ Frame W r s := by
  have key : Frame W s (s.withCrate x1 x2 x3 x4) := by
    have h : Frame [.regs, .hats, .out] s (s.complete x1 x2 9 0 0) := by simp
    have k : Frame [.regs, .hats, .out] s (s.complete x1 x2 5 0 0) := by simp
    unfold State.withCrate
    (repeat' split)
    · exact h.mono hW
    · exact k.mono hW
    · exact hf _ _
  exact Frame.iff_of key (List.Subset.refl _)

@[simp] theorem State.crateAddGate_frame {W : List Part} {r s : State} (x1 : OrderRef) (x2 : Nat) (x3 : Nat) (x4 : List StagedItem) (hW
    : [.regs, .cel, .hats, .out] ⊆ W) : Frame W r (State.crateAddGate s x1 x2 x3 x4) ↔ Frame W r s := by
  have key : Frame [.regs, .cel, .hats, .out] s (State.crateAddGate s x1 x2 x3 x4) := by
    unfold State.crateAddGate
    split
    · simp
    · rw [State.withCrate_frame _ _ _ _ (by intro s i; dsimp only; (repeat' split) <;> simp) (by simp)]; simp
  exact Frame.iff_of key hW

theorem execCrateAddGate_frame {s t : State} (x0 : OrderRef) (x1 : Nat) (x2 : Nat) (x3 : List StagedItem) (e : execCrateAddGate x0 x1 x2 x3 s =
    .next t) : Frame [.regs, .cel, .hats, .out] s t := by
  unfold execCrateAddGate at e
  try dsimp only at e
  (repeat' split at e) <;> (simp only [Host.Outcome.next.injEq, reduceCtorEq] at e) <;> (subst e; simp)

@[simp] theorem State.crateAddDevice_frame {W : List Part} {r s : State} (x1 : OrderRef) (x2 : Nat) (x3 : Nat) (x4 : Nat) (x5 : Nat) (hW
    : [.regs, .cel, .hats, .out] ⊆ W) : Frame W r (State.crateAddDevice s x1 x2 x3 x4 x5) ↔ Frame W r s := by
  have key : Frame [.regs, .cel, .hats, .out] s (State.crateAddDevice s x1 x2 x3 x4 x5) := by
    unfold State.crateAddDevice
    (repeat' split)
    all_goals first
      | (simp; done)
      | (rw [State.withCrate_frame _ _ _ _ (by intro s i; dsimp only; (repeat' split) <;> simp) (by simp)]; simp)
  exact Frame.iff_of key hW

theorem execCrateAddDevice_frame {s t : State} (x0 : OrderRef) (x1 : Nat) (x2 : Nat) (x3 : Nat) (x4 : Nat) (e
    : execCrateAddDevice x0 x1 x2 x3 x4 s = .next t) : Frame [.regs, .cel, .hats, .out] s t := by
  unfold execCrateAddDevice at e
  try dsimp only at e
  (repeat' split at e) <;> (simp only [Host.Outcome.next.injEq, reduceCtorEq] at e) <;> (subst e; simp)

@[simp] theorem State.crateCloseOrder_frame {W : List Part} {r s : State} (x1 : OrderRef) (x2 : Nat) (hW : [.regs, .cel, .hats, .out] ⊆ W)
    : Frame W r (State.crateCloseOrder s x1 x2) ↔ Frame W r s := by
  have key : Frame [.regs, .cel, .hats, .out] s (State.crateCloseOrder s x1 x2) := by
    unfold State.crateCloseOrder
    rw [State.withCrate_frame _ _ _ _ (by intro s i; split <;> simp) (by simp)]
    simp
  exact Frame.iff_of key hW

theorem execCrateClose_frame {s t : State} (x0 : OrderRef) (x1 : Nat) (e : execCrateClose x0 x1 s = .next t) : Frame [.regs, .cel, .hats,
    .out] s t := by
  unfold execCrateClose at e
  try dsimp only at e
  (repeat' split at e) <;> (simp only [Host.Outcome.next.injEq, reduceCtorEq] at e) <;> (subst e; simp)

@[simp] theorem State.crateAbort_frame {W : List Part} {r s : State} (x1 : OrderRef) (x2 : Nat) (hW : [.regs, .cel, .hats, .out] ⊆ W)
    : Frame W r (State.crateAbort s x1 x2) ↔ Frame W r s := by
  have key : Frame [.regs, .cel, .hats, .out] s (State.crateAbort s x1 x2) := by
    unfold State.crateAbort
    rw [State.withCrate_frame _ _ _ _ (by intro s i; (repeat' split) <;> simp) (by simp)]
    simp
  exact Frame.iff_of key hW

theorem execCrateAbort_frame {s t : State} (x0 : OrderRef) (x1 : Nat) (e : execCrateAbort x0 x1 s = .next t) : Frame [.regs, .cel, .hats,
    .out] s t := by
  unfold execCrateAbort at e
  try dsimp only at e
  (repeat' split at e) <;> (simp only [Host.Outcome.next.injEq, reduceCtorEq] at e) <;> (subst e; simp)

@[simp] theorem State.evalDesc_frame {W : List Part} {r s : State} (x1 : OrderRef) (x2 : List DWord) (hW : [.regs, .sys, .mfe, .lnk, .cel, .ctl,
    .grd, .edg, .prt, .hats, .trk, .dbg, .out] ⊆ W) : Frame W r (State.evalDesc s x1 x2) ↔ Frame W r s := by
  have key : Frame [.regs, .sys, .mfe, .lnk, .cel, .ctl, .grd, .edg, .prt, .hats, .trk, .dbg, .out] s (State.evalDesc s x1 x2) := by
    unfold State.evalDesc
    try dsimp only
    repeat' (first | (simp [apply_ite Prod.fst, apply_ite Prod.snd]; done) | split)
  exact Frame.iff_of key hW

theorem State.ringTurn_frame {h : Fin 4} {k n : Nat} {x : State × Nat} : Frame [.regs, .sys, .mfe, .lnk, .cel, .ctl, .grd, .edg, .prt, .hats,
    .trk, .dbg, .out] x.1 (State.ringTurn h k n x).1 := by
  induction n generalizing x with
  | zero => simp [State.ringTurn]
  | succ n ih =>
    obtain ⟨s, left⟩ := x
    simp only [State.ringTurn]
    split
    · simp
    · split
      · simp
      · exact Frame.trans (by simp) ih

theorem State.ringRounds_frame {h : Fin 4} {n : Nat} {x : State × Nat} : Frame [.regs, .sys, .mfe, .lnk, .cel, .ctl, .grd, .edg, .prt, .hats,
    .trk, .dbg, .out] x.1 (State.ringRounds h n x).1 := by
  induction n generalizing x with
  | zero => simp [State.ringRounds]
  | succ n ih =>
    have k : Frame [.regs, .sys, .mfe, .lnk, .cel, .ctl, .grd, .edg, .prt, .hats, .trk, .dbg, .out] x.1 ((List.range 16).foldl (fun x r => State.ringTurn h r 4 x) x).1 := by
      rw [Frame.foldl_fst (fun x a => State.ringTurn_frame)]; simp
    simp only [State.ringRounds]
    split
    · exact k
    · exact k.trans ih

@[simp] theorem State.evalOrders_frame {W : List Part} {r s : State} (hW : [.regs, .sys, .mfe, .lnk, .cel, .ctl, .grd, .edg, .prt, .hats, .trk,
    .dbg, .out] ⊆ W) : Frame W r (State.evalOrders s) ↔ Frame W r s := by
  have key : Frame [.regs, .sys, .mfe, .lnk, .cel, .ctl, .grd, .edg, .prt, .hats, .trk, .dbg, .out] s (State.evalOrders s) := by
    unfold State.evalOrders
    rw [Frame.foldl (fun s h => State.ringRounds_frame)]
    simp
  exact Frame.iff_of key hW

end Sys2Proof.Machine
end

