-- ==== Sys2Proof/Laws/Frame5.lean ====
section
/-! SUPPORT. Which parts of the state each operation may change: one lemma per definition of RegRules, Image, Start, RegRead, Actions, RegIf. -/

set_option linter.all false
set_option Elab.async false

namespace Sys2Proof.Machine

@[simp] theorem State.putImage_frame {W : List Part} {r s : State} (x1 : Nat) (x2 : Word) (hW : [.regs, .lnk, .ctl, .edg, .prt, .mtr, .hats,
    .pwr, .trk, .dbg, .out] ⊆ W) : Frame W r (State.putImage s x1 x2) ↔ Frame W r s := by
  have key : Frame [.regs, .lnk, .ctl, .edg, .prt, .mtr, .hats, .pwr, .trk, .dbg, .out] s (State.putImage s x1 x2) := by
    simp [State.putImage]
  exact Frame.iff_of key hW

@[simp] theorem State.writeIgnored_frame {W : List Part} {r s : State} (x1 : Requester) (x2 : Nat) (x3 : Bool) (hW : [.regs, .mgmtStatus, .hats,
    .start, .out] ⊆ W) : Frame W r (State.writeIgnored s x1 x2 x3) ↔ Frame W r s := by
  have key : Frame [.regs, .mgmtStatus, .hats, .start, .out] s (State.writeIgnored s x1 x2 x3) := by
    simp [State.writeIgnored]
  exact Frame.iff_of key hW

@[simp] theorem State.applyImage_frame {W : List Part} {r s : State} (x1 : Nat) (x2 : Requester) (x3 : Word) (x4 : Bool) (x5 : Nat) (hW
    : [.regs, .mgmtStatus, .lnk, .ctl, .edg, .prt, .mtr, .hats, .pwr, .start, .trk, .dbg, .out] ⊆ W) : Frame W r
    (State.applyImage s x1 x2 x3 x4 x5) ↔ Frame W r s := by
  have key : Frame [.regs, .mgmtStatus, .lnk, .ctl, .edg, .prt, .mtr, .hats, .pwr, .start, .trk, .dbg, .out] s (State.applyImage s x1 x2 x3 x4 x5) := by
    unfold State.applyImage
    try dsimp only
    repeat' (first | (simp [apply_ite Prod.fst, apply_ite Prod.snd]; done) | split)
  exact Frame.iff_of key hW

@[simp] theorem State.applyClear_frame {W : List Part} {r s : State} (x1 : Nat) (x2 : Requester) (x3 : Word) (hW : [.regs, .mgmtStatus, .hats,
    .out] ⊆ W) : Frame W r (State.applyClear s x1 x2 x3) ↔ Frame W r s := by
  have key : Frame [.regs, .mgmtStatus, .hats, .out] s (State.applyClear s x1 x2 x3) := by
    simp [State.applyClear]
  exact Frame.iff_of key hW

@[simp] theorem State.applyMap_frame {W : List Part} {r s : State} (x1 : Nat) (x2 : Requester) (x3 : BitVec 16) (x4 : Bool) (hW : [.regs, .sys,
    .mgmtStatus, .hats, .start, .out] ⊆ W) : Frame W r (State.applyMap s x1 x2 x3 x4) ↔ Frame W r s := by
  have key : Frame [.regs, .sys, .mgmtStatus, .hats, .start, .out] s (State.applyMap s x1 x2 x3 x4) := by
    simp [State.applyMap]
  exact Frame.iff_of key hW

@[simp] theorem State.pendPut_frame {W : List Part} {r s : State} (x1 : Nat) (x2 : Requester) (x3 : Word) (x4 : Epoch) (x5 : Bool) (x6 : Nat)
    (hW : [.regs] ⊆ W) : Frame W r (State.pendPut s x1 x2 x3 x4 x5 x6) ↔ Frame W r s := by
  have key : Frame [.regs] s (State.pendPut s x1 x2 x3 x4 x5 x6) := by
    simp [State.pendPut]
  exact Frame.iff_of key hW

@[simp] theorem State.takeStart_frame {W : List Part} {r s : State} (x1 : Nat) (hW : [.regs, .mgmtStatus, .lnk, .ctl, .edg, .prt, .mtr, .hats,
    .pwr, .start, .trk, .dbg, .out] ⊆ W) : Frame W r (State.takeStart s x1) ↔ Frame W r s := by
  have key : Frame [.regs, .mgmtStatus, .lnk, .ctl, .edg, .prt, .mtr, .hats, .pwr, .start, .trk, .dbg, .out] s (State.takeStart s x1) := by
    unfold State.takeStart
    rw [Frame.foldl (by intro s p; (repeat' split) <;> simp)]
    simp
  exact Frame.iff_of key hW

@[simp] theorem State.bootWrite_frame {W : List Part} {r s : State} (x1 : Nat) (x2 : Word) (hW : [.regs, .mgmtStatus, .lnk, .ctl, .edg, .prt,
    .mtr, .hats, .pwr, .start, .trk, .dbg, .out] ⊆ W) : Frame W r (State.bootWrite s x1 x2) ↔ Frame W r s := by
  have key : Frame [.regs, .mgmtStatus, .lnk, .ctl, .edg, .prt, .mtr, .hats, .pwr, .start, .trk, .dbg, .out] s (State.bootWrite s x1 x2) := by
    simp [State.bootWrite]
  exact Frame.iff_of key hW

@[simp] theorem State.sectionApply_frame {W : List Part} {r s : State} (x1 : Section) (hW : [.regs, .mgmtStatus, .lnk, .ctl, .edg, .prt, .mtr,
    .hats, .pwr, .start, .trk, .dbg, .out] ⊆ W) : Frame W r (State.sectionApply s x1) ↔ Frame W r s := by
  have key : Frame [.regs, .mgmtStatus, .lnk, .ctl, .edg, .prt, .mtr, .hats, .pwr, .start, .trk, .dbg, .out] s (State.sectionApply s x1) := by
    unfold State.sectionApply
    (repeat' split) <;> simp
  exact Frame.iff_of key hW

@[simp] theorem State.recSet_frame {W : List Part} {r s : State} (x1 : Nat) (x2 : Nat) (hW : [.start] ⊆ W) : Frame W r (State.recSet s x1 x2)
    ↔ Frame W r s := by
  have key : Frame [.start] s (State.recSet s x1 x2) := by
    simp [State.recSet]
  exact Frame.iff_of key hW

@[simp] theorem State.ringAppend_frame {W : List Part} {r s : State} (hW : [.regs, .trk] ⊆ W) : Frame W r (State.ringAppend s) ↔ Frame W r s := by
  have key : Frame [.regs, .trk] s (State.ringAppend s) := by
    unfold State.ringAppend
    (repeat' split) <;> simp
  exact Frame.iff_of key hW

@[simp] theorem State.startCount_frame {W : List Part} {r s : State} (hW : [.regs, .start, .trk] ⊆ W) : Frame W r (State.startCount s)
    ↔ Frame W r s := by
  have key : Frame [.regs, .start, .trk] s (State.startCount s) := by
    simp [State.startCount]
  exact Frame.iff_of key hW

@[simp] theorem State.stepTrunk_frame {W : List Part} {r s : State} (hW : [.regs, .sys, .cel, .start, .trk] ⊆ W) : Frame W r
    (State.stepTrunk s).1 ↔ Frame W r s := by
  have key : Frame [.regs, .sys, .cel, .start, .trk] s (State.stepTrunk s).1 := by
    unfold State.stepTrunk
    extract_lets s1 s2 absent bad f ft s3 t3 s4 dir rows q1 q2 q3 s5 s6 code
    have h2 : Frame [.regs, .sys, .cel, .start, .trk] s s2 := by
      simp only [s2]
      rw [Frame.foldl (by intro s a; simp)]
      simp [s1]
    have h3 : Frame [.regs, .sys, .cel, .start, .trk] s s3 := by
      simp only [s3]
      split
      · exact h2.trans (by simp [f])
      · exact h2
    have h4 : Frame [.regs, .sys, .cel, .start, .trk] s s4 := by
      simp only [s4]
      split
      · exact h3.trans (by simp)
      · exact h3
    have h5 : Frame [.regs, .sys, .cel, .start, .trk] s s5 := h4.trans (by intro p hp; cases p <;> first | rfl | simp at hp)
    clear_value s5
    simpa [s6] using h5
  exact Frame.iff_of key hW

@[simp] theorem State.stepSafety_frame {W : List Part} {r s : State} (hW : [.regs, .saf] ⊆ W) : Frame W r (State.stepSafety s).1 ↔ Frame W r s := by
  have key : Frame [.regs, .saf] s (State.stepSafety s).1 := by
    simp [State.stepSafety, apply_ite Prod.fst]
  exact Frame.iff_of key hW

@[simp] theorem State.flashReads_frame {W : List Part} {r s : State} (x1 : Nat) (hW : [.out] ⊆ W) : Frame W r (State.flashReads s x1)
    ↔ Frame W r s := by
  have key : Frame [.out] s (State.flashReads s x1) := by
    simp [State.flashReads]
  exact Frame.iff_of key hW

@[simp] theorem State.stepImage_frame {W : List Part} {r s : State} (hW : [.regs, .mgmtStatus, .lnk, .ctl, .edg, .prt, .mtr, .hats, .pwr,
    .start, .trk, .dbg, .out] ⊆ W) : Frame W r (State.stepImage s).1 ↔ Frame W r s := by
  have key : Frame [.regs, .mgmtStatus, .lnk, .ctl, .edg, .prt, .mtr, .hats, .pwr, .start, .trk, .dbg, .out] s (State.stepImage s).1 := by
    simp [State.stepImage]
  exact Frame.iff_of key hW

@[simp] theorem State.sendStart_frame {W : List Part} {r s : State} (hW : [.regs, .pwr, .trk, .out] ⊆ W) : Frame W r (State.sendStart s)
    ↔ Frame W r s := by
  have key : Frame [.regs, .pwr, .trk, .out] s (State.sendStart s) := by
    unfold State.sendStart
    try dsimp only
    repeat' (first | (simp [apply_ite Prod.fst, apply_ite Prod.snd]; done) | split)
  exact Frame.iff_of key hW

@[simp] theorem State.applyRepairs_frame {W : List Part} {r s : State} (hW : [.regs] ⊆ W) : Frame W r (State.applyRepairs s) ↔ Frame W r s := by
  have key : Frame [.regs] s (State.applyRepairs s) := by
    simp [State.applyRepairs]
  exact Frame.iff_of key hW

@[simp] theorem State.stepSwitch_frame {W : List Part} {r s : State} (x1 : Nat) (hW : [.pwr] ⊆ W) : Frame W r (State.stepSwitch s x1)
    ↔ Frame W r s := by
  have key : Frame [.pwr] s (State.stepSwitch s x1) := by
    simp [State.stepSwitch]
  exact Frame.iff_of key hW

@[simp] theorem State.stepEnd_frame {W : List Part} {r s : State} (x1 : Nat) (x2 : Nat) (hW : [.regs, .start, .trk] ⊆ W) : Frame W r
    (State.stepEnd s x1 x2) ↔ Frame W r s := by
  have key : Frame [.regs, .start, .trk] s (State.stepEnd s x1 x2) := by
    simp [State.stepEnd]
  exact Frame.iff_of key hW

@[simp] theorem State.stepBegin_frame {W : List Part} {r s : State} (x1 : Nat) (hW : [.regs, .pwr, .ref, .start, .trk, .out, .freeCount] ⊆ W)
    : Frame W r (State.stepBegin s x1) ↔ Frame W r s := by
  have key : Frame [.regs, .pwr, .ref, .start, .trk, .out, .freeCount] s (State.stepBegin s x1) := by
    simp [State.stepBegin]
  exact Frame.iff_of key hW

@[simp] theorem State.regsRestart_frame {W : List Part} {r s : State} (hW : [.regs] ⊆ W) : Frame W r (State.regsRestart s) ↔ Frame W r s := by
  have key : Frame [.regs] s (State.regsRestart s) := by
    simp [State.regsRestart]
  exact Frame.iff_of key hW

@[simp] theorem State.restartNow_frame {W : List Part} {r s : State} (x1 : StartIn) (hW : [.regs, .sys, .mfe, .lnk, .cel, .ctl, .grd, .edg,
    .prt, .mtr, .hats, .pwr, .ref, .start, .trk, .dbg] ⊆ W) : Frame W r (State.restartNow s x1) ↔ Frame W r s := by
  have key : Frame [.regs, .sys, .mfe, .lnk, .cel, .ctl, .grd, .edg, .prt, .mtr, .hats, .pwr, .ref, .start, .trk, .dbg] s (State.restartNow s x1) := by
    unfold State.restartNow
    extract_lets s1 s2 s3
    have h1 : Frame [.regs, .sys, .mfe, .lnk, .cel, .ctl, .grd, .edg, .prt, .mtr, .hats, .pwr, .ref, .start, .trk, .dbg] s s1 := by
      simp only [s1]; split <;> simp
    have h2 : Frame [.regs, .sys, .mfe, .lnk, .cel, .ctl, .grd, .edg, .prt, .mtr, .hats, .pwr, .ref, .start, .trk, .dbg] s s2 := by
      simp only [s2]
      rw [Frame.foldl (by intro s a; simp)]
      exact h1
    clear_value s2
    rw [State.startCount_frame (by simp), State.regsRestart_frame (by simp), State.ringAppend_frame (by simp)]
    exact h2.trans (by intro p hp; cases p <;> first | rfl | simp at hp)
  exact Frame.iff_of key hW

@[simp] theorem State.stepLeave_frame {W : List Part} {r s : State} (x1 : Nat) (x2 : Nat) (hW : [.regs, .sys, .mfe, .lnk, .cel, .ctl, .grd,
    .edg, .prt, .mtr, .hats, .pwr, .ref, .start, .trk, .dbg] ⊆ W) : Frame W r (State.stepLeave s x1 x2) ↔ Frame W r s := by
  have key : Frame [.regs, .sys, .mfe, .lnk, .cel, .ctl, .grd, .edg, .prt, .mtr, .hats, .pwr, .ref, .start, .trk, .dbg] s (State.stepLeave s x1 x2) := by
    unfold State.stepLeave
    dsimp only
    split <;> simp
  exact Frame.iff_of key hW

theorem State.stepTry_frame {s t : State} {o c : Nat} (h : s.stepTry = some (t, o, c)) : Frame [.regs, .sys, .mgmtStatus, .mfe, .lnk, .cel,
    .ctl, .grd, .edg, .prt, .mtr, .saf, .hats, .pwr, .ref, .start, .trk, .dbg, .out] s t := by
  unfold State.stepTry at h
  (repeat' split at h)
  all_goals first
    | (have e := congrArg Prod.fst (Option.some.inj h); dsimp only at e; subst e; simp; done)
    | cases h

@[simp] theorem State.startRun_frame {W : List Part} {r s : State} (x0 : Nat) (hW : [.regs, .sys, .mgmtStatus, .mfe, .lnk, .cel, .ctl, .grd,
    .edg, .prt, .mtr, .saf, .hats, .pwr, .ref, .start, .trk, .dbg, .out, .freeCount] ⊆ W) : Frame W r (State.startRun x0 s) ↔ Frame W r s := by
  have key : Frame [.regs, .sys, .mgmtStatus, .mfe, .lnk, .cel, .ctl, .grd, .edg, .prt, .mtr, .saf, .hats, .pwr, .ref, .start, .trk, .dbg, .out, .freeCount] s (State.startRun x0 s) := by
    induction x0 generalizing s with
    | zero => simp [State.startRun]
    | succ n ih =>
      unfold State.startRun
      split
      · simp
      · split
        · split
          · simp
          · dsimp only
            split
            · simp
            · rename_i s' o c hs
              have h1 : Frame [.regs, .sys, .mgmtStatus, .mfe, .lnk, .cel, .ctl, .grd, .edg, .prt, .mtr, .saf, .hats, .pwr, .ref, .start, .trk, .dbg, .out, .freeCount] s (s.stepSwitch s.start.step) := by simp
              exact ((h1.trans ((State.stepTry_frame hs).mono (by simp))).trans (by simp)).trans ih
        · extract_lets k s2
          have h2 : Frame [.regs, .sys, .mgmtStatus, .mfe, .lnk, .cel, .ctl, .grd, .edg, .prt, .mtr, .saf, .hats, .pwr, .ref, .start, .trk, .dbg, .out, .freeCount] s s2 := by
            simp only [s2]
            rw [Frame.foldl (by intro s a; simp)]; simp
          clear_value s2
          split
          · exact h2.trans (by simp)
          · exact (h2.trans (by simp)).trans ih
  exact Frame.iff_of key hW

@[simp] theorem State.sequence_frame {W : List Part} {r s : State} (hW : [.regs, .sys, .mgmtStatus, .mfe, .lnk, .cel, .ctl, .grd, .edg, .prt,
    .mtr, .saf, .hats, .pwr, .ref, .start, .trk, .dbg, .out, .freeCount] ⊆ W) : Frame W r (State.sequence s) ↔ Frame W r s := by
  have key : Frame [.regs, .sys, .mgmtStatus, .mfe, .lnk, .cel, .ctl, .grd, .edg, .prt, .mtr, .saf, .hats, .pwr, .ref, .start, .trk, .dbg, .out, .freeCount] s (State.sequence s) := by
    simp [State.sequence]
  exact Frame.iff_of key hW

theorem execPowerOn_frame {s t : State} (x0 : StartIn) (e : execPowerOn x0 s = .next t) : Frame [.regs, .sys, .mgmtStatus, .mfe, .lnk, .cel,
    .ctl, .grd, .edg, .prt, .mtr, .saf, .hats, .pwr, .ref, .start, .trk, .dbg, .out, .freeCount] s t := by
  unfold execPowerOn at e
  dsimp only at e
  have k : Frame [.regs, .sys, .mgmtStatus, .mfe, .lnk, .cel, .ctl, .grd, .edg, .prt, .mtr, .saf, .hats, .pwr, .ref, .start, .trk, .dbg, .out, .freeCount] s { s with start := { powered := true, inputs := x0, aoNs := s.start.aoNs }, sys := { s.sys with tj := x0.tj } } := Frame.of_rest rfl
  (repeat' split at e) <;> (simp only [Host.Outcome.next.injEq] at e; subst e)
  · simp
  · exact k.trans (by simp)
  · exact k.trans (by simp)

@[simp] theorem State.startContinue_frame {W : List Part} {r s : State} (x1 : Requester) (hW : [.regs, .sys, .mgmtStatus, .mfe, .lnk, .cel,
    .ctl, .grd, .edg, .prt, .mtr, .saf, .hats, .pwr, .ref, .start, .trk, .dbg, .out, .freeCount] ⊆ W) : Frame W r (State.startContinue s x1)
    ↔ Frame W r s := by
  have key : Frame [.regs, .sys, .mgmtStatus, .mfe, .lnk, .cel, .ctl, .grd, .edg, .prt, .mtr, .saf, .hats, .pwr, .ref, .start, .trk, .dbg, .out, .freeCount] s (State.startContinue s x1) := by
    simp [State.startContinue]
  exact Frame.iff_of key hW

theorem execContinueStart_frame {s t : State} (x0 : Requester) (e : execContinueStart x0 s = .next t) : Frame [.regs, .sys, .mgmtStatus, .mfe,
    .lnk, .cel, .ctl, .grd, .edg, .prt, .mtr, .saf, .hats, .pwr, .ref, .start, .trk, .dbg, .out, .freeCount] s t := by
  unfold execContinueStart at e
  try dsimp only at e
  (repeat' split at e) <;> (simp only [Host.Outcome.next.injEq, reduceCtorEq] at e) <;> (subst e; simp)

@[simp] theorem State.startRestart_frame {W : List Part} {r s : State} (x1 : Requester) (x2 : Nat) (x3 : StartIn) (hW : [.regs, .sys,
    .mgmtStatus, .mfe, .lnk, .cel, .ctl, .grd, .edg, .prt, .mtr, .saf, .hats, .pwr, .ref, .start, .trk, .dbg, .out, .freeCount] ⊆ W) : Frame W r
    (State.startRestart s x1 x2 x3) ↔ Frame W r s := by
  have key : Frame [.regs, .sys, .mgmtStatus, .mfe, .lnk, .cel, .ctl, .grd, .edg, .prt, .mtr, .saf, .hats, .pwr, .ref, .start, .trk, .dbg, .out, .freeCount] s (State.startRestart s x1 x2 x3) := by
    unfold State.startRestart
    split
    · extract_lets s1
      have h1 : Frame [.regs, .sys, .mgmtStatus, .mfe, .lnk, .cel, .ctl, .grd, .edg, .prt, .mtr, .saf, .hats, .pwr, .ref, .start, .trk, .dbg, .out, .freeCount] s s1 := by simp [s1]
      clear_value s1
      split
      · exact h1.trans (by simp)
      · rw [State.sequence_frame (by simp), State.restartNow_frame _ (by simp)]
        exact h1
    · simp
  exact Frame.iff_of key hW

theorem execRestart_frame {s t : State} (x0 : Requester) (x1 : Nat) (x2 : StartIn) (e : execRestart x0 x1 x2 s = .next t) : Frame [.regs, .sys,
    .mgmtStatus, .mfe, .lnk, .cel, .ctl, .grd, .edg, .prt, .mtr, .saf, .hats, .pwr, .ref, .start, .trk, .dbg, .out, .freeCount] s t := by
  unfold execRestart at e
  try dsimp only at e
  (repeat' split at e) <;> (simp only [Host.Outcome.next.injEq, reduceCtorEq] at e) <;> (subst e; simp)

theorem execStartStepTimeout_frame {s t : State} (x0 : StartIn) (e : execStartStepTimeout x0 s = .next t) : Frame [.regs, .sys, .mgmtStatus,
    .mfe, .lnk, .cel, .ctl, .grd, .edg, .prt, .mtr, .saf, .hats, .pwr, .ref, .start, .trk, .dbg, .out, .freeCount] s t := by
  unfold execStartStepTimeout at e
  dsimp only at e
  (repeat' split at e) <;> (simp only [Host.Outcome.next.injEq] at e; subst e)
  all_goals first | exact Frame.refl _ | (simp; done)

theorem execDomainReady_frame {s t : State} (x0 : Nat) (e : execDomainReady x0 s = .next t) : Frame [.regs, .sys, .mgmtStatus, .mfe, .lnk, .cel,
    .ctl, .grd, .edg, .prt, .mtr, .saf, .hats, .pwr, .ref, .start, .trk, .dbg, .out, .freeCount] s t := by
  unfold execDomainReady at e
  try dsimp only at e
  (repeat' split at e) <;> (simp only [Host.Outcome.next.injEq, reduceCtorEq] at e) <;> (subst e; simp)

@[simp] theorem State.downState_frame {W : List Part} {r s : State} (hW : [.regs, .sys, .mgmtStatus, .mfe, .lnk, .cel, .ctl, .grd, .edg, .prt,
    .mtr, .saf, .hats, .pwr, .ref, .start, .trk, .dbg, .out] ⊆ W) : Frame W r (State.downState s) ↔ Frame W r s := by
  have key : Frame [.regs, .sys, .mgmtStatus, .mfe, .lnk, .cel, .ctl, .grd, .edg, .prt, .mtr, .saf, .hats, .pwr, .ref, .start, .trk, .dbg, .out] s (State.downState s) := by
    exact (Frame.of_rest' rfl rfl)
  exact Frame.iff_of key hW

theorem execLossOfVaon_frame {s t : State} (e : execLossOfVaon s = .next t) : Frame [.regs, .sys, .mgmtStatus, .mfe, .lnk, .cel, .ctl, .grd,
    .edg, .prt, .mtr, .saf, .hats, .pwr, .ref, .start, .trk, .dbg, .out] s t := by
  unfold execLossOfVaon at e
  try dsimp only at e
  (repeat' split at e) <;> (simp only [Host.Outcome.next.injEq, reduceCtorEq] at e) <;> (subst e; simp)

theorem execPorstNAssert_frame {s t : State} (e : execPorstNAssert s = .next t) : Frame [.regs, .sys, .mgmtStatus, .mfe, .lnk, .cel, .ctl, .grd,
    .edg, .prt, .mtr, .saf, .hats, .pwr, .ref, .start, .trk, .dbg, .out] s t := by
  unfold execPorstNAssert at e
  try dsimp only at e
  (repeat' split at e) <;> (simp only [Host.Outcome.next.injEq, reduceCtorEq] at e) <;> (subst e; simp)

theorem State.readReg_frame {s : State} {r : Requester} {off : Nat} {y : Word × State} (h : s.readReg r off = some y) : Frame [.regs,
    .mgmtStatus, .hats, .out] s y.2 := by
  unfold State.readReg at h
  dsimp only at h
  (repeat' split at h) <;> (first | cases h | (cases h; simp))
  all_goals simp

theorem State.bar0Read_frame {s : State} {h : Fin 4} {off dws : Nat} {y : List Word × State} (e : s.bar0Read h off dws = some y) : Frame [.regs,
    .mgmtStatus, .hats, .out] s y.2 := by
  unfold State.bar0Read at e
  (repeat' split at e)
  all_goals first
    | (cases e; done)
    | (obtain ⟨x, hx, rfl⟩ := Option.map_eq_some_iff.mp e; exact State.readReg_frame hx)
    | (rename_i x hx; obtain ⟨y, hy, rfl⟩ := Option.map_eq_some_iff.mp e; exact (State.readReg_frame hx).trans (State.readReg_frame hy))

@[simp] theorem State.hostRead_frame {W : List Part} {r s : State} (x1 : Fin 4) (x2 : Nat) (x3 : Nat) (x4 : Nat) (hW : [.regs, .mgmtStatus,
    .hats, .out] ⊆ W) : Frame W r (State.hostRead s x1 x2 x3 x4).2 ↔ Frame W r s := by
  have key : Frame [.regs, .mgmtStatus, .hats, .out] s (State.hostRead s x1 x2 x3 x4).2 := by
    unfold State.hostRead
    dsimp only
    (repeat' split)
    all_goals first
      | (simp; done)
      | (rename_i x hx; exact State.bar0Read_frame hx)
  exact Frame.iff_of key hW

@[simp] theorem State.readCmd_frame {W : List Part} {r s : State} (x1 : Requester) (x2 : Nat) (hW : [.regs, .mgmtStatus, .hats, .out] ⊆ W)
    : Frame W r (State.readCmd s x1 x2) ↔ Frame W r s := by
  have key : Frame [.regs, .mgmtStatus, .hats, .out] s (State.readCmd s x1 x2) := by
    unfold State.readCmd
    split
    · split
      · rename_i x hx
        rw [State.emit_frame _ (by simp)]
        exact (State.readReg_frame hx).mono (by simp)
      · simp
      · simp
    · simp
  exact Frame.iff_of key hW

theorem execEpochLoRead_frame {s t : State} (x0 : Requester) (e : execEpochLoRead x0 s = .next t) : Frame [.regs, .mgmtStatus, .hats, .out] s t := by
  unfold execEpochLoRead at e
  try dsimp only at e
  (repeat' split at e) <;> (simp only [Host.Outcome.next.injEq, reduceCtorEq] at e) <;> (subst e; simp)

theorem execLnkTblRead_frame {s t : State} (x0 : Requester) (e : execLnkTblRead x0 s = .next t) : Frame [.regs, .mgmtStatus, .hats, .out] s t := by
  unfold execLnkTblRead at e
  try dsimp only at e
  (repeat' split at e) <;> (simp only [Host.Outcome.next.injEq, reduceCtorEq] at e) <;> (subst e; simp)

theorem execTotalLoRead_frame {s t : State} (x0 : Requester) (x1 : Nat) (e : execTotalLoRead x0 x1 s = .next t) : Frame [.regs, .mgmtStatus,
    .hats, .out] s t := by
  unfold execTotalLoRead at e
  try dsimp only at e
  (repeat' split at e) <;> (simp only [Host.Outcome.next.injEq, reduceCtorEq] at e) <;> (subst e; simp)

theorem execTrkBinRead_frame {s t : State} (x0 : Requester) (x1 : Nat) (e : execTrkBinRead x0 x1 s = .next t) : Frame [.regs, .mgmtStatus,
    .hats, .out] s t := by
  unfold execTrkBinRead at e
  try dsimp only at e
  (repeat' split at e) <;> (simp only [Host.Outcome.next.injEq, reduceCtorEq] at e) <;> (subst e; simp)

@[simp] theorem State.setArgs_frame {W : List Part} {r s : State} (x1 : Nat) (x2 : Word) (hW : [.regs] ⊆ W) : Frame W r (State.setArgs s x1 x2)
    ↔ Frame W r s := by
  have key : Frame [.regs] s (State.setArgs s x1 x2) := by
    simp [State.setArgs]
  exact Frame.iff_of key hW

@[simp] theorem State.genTake_frame {W : List Part} {r s : State} (x1 : Nat) (hW : [.regs, .mgmtStatus, .lnk, .ctl, .edg, .prt, .mtr, .hats,
    .pwr, .start, .trk, .dbg, .out] ⊆ W) : Frame W r (State.genTake s x1) ↔ Frame W r s := by
  have key : Frame [.regs, .mgmtStatus, .lnk, .ctl, .edg, .prt, .mtr, .hats, .pwr, .start, .trk, .dbg, .out] s (State.genTake s x1) := by
    unfold State.genTake
    rw [Frame.foldl (by intro s p; (repeat' split) <;> simp)]
    simp
  exact Frame.iff_of key hW

@[simp] theorem State.genBegin_frame {W : List Part} {r s : State} (x1 : Nat) (hW : [.regs, .mgmtStatus, .lnk, .ctl, .edg, .prt, .mtr, .hats,
    .pwr, .start, .trk, .dbg, .out] ⊆ W) : Frame W r (State.genBegin s x1) ↔ Frame W r s := by
  have key : Frame [.regs, .mgmtStatus, .lnk, .ctl, .edg, .prt, .mtr, .hats, .pwr, .start, .trk, .dbg, .out] s (State.genBegin s x1) := by
    simp [State.genBegin]
  exact Frame.iff_of key hW

@[simp] theorem State.actionEffect_frame {W : List Part} {r s : State} (x1 : Requester) (x2 : Nat) (x3 : Word) (hW : [.regs, .mgmtStatus, .mfe,
    .lnk, .ctl, .grd, .edg, .prt, .mtr, .hats, .pwr, .start, .trk, .dbg, .out] ⊆ W) : Frame W r (State.actionEffect s x1 x2 x3) ↔ Frame W r s := by
  have key : Frame [.regs, .mgmtStatus, .mfe, .lnk, .ctl, .grd, .edg, .prt, .mtr, .hats, .pwr, .start, .trk, .dbg, .out] s (State.actionEffect s x1 x2 x3) := by
    simp [State.actionEffect]
  exact Frame.iff_of key hW

@[simp] theorem State.haltWrite_frame {W : List Part} {r s : State} (x1 : Requester) (x2 : Word) (x3 : Nat) (hW : [.regs, .mgmtStatus, .lnk,
    .prt, .hats, .dbg, .out] ⊆ W) : Frame W r (State.haltWrite s x1 x2 x3) ↔ Frame W r s := by
  have key : Frame [.regs, .mgmtStatus, .lnk, .prt, .hats, .dbg, .out] s (State.haltWrite s x1 x2 x3) := by
    simp [State.haltWrite]
  exact Frame.iff_of key hW

@[simp] theorem State.runAction_frame {W : List Part} {r s : State} (x1 : Requester) (x2 : Nat) (x3 : Word) (hW : [.regs, .mgmtStatus, .mfe,
    .lnk, .ctl, .grd, .edg, .prt, .mtr, .saf, .hats, .pwr, .start, .trk, .dbg, .out] ⊆ W) : Frame W r (State.runAction s x1 x2 x3) ↔ Frame W r s := by
  have key : Frame [.regs, .mgmtStatus, .mfe, .lnk, .ctl, .grd, .edg, .prt, .mtr, .saf, .hats, .pwr, .start, .trk, .dbg, .out] s (State.runAction s x1 x2 x3) := by
    simp [State.runAction]
  exact Frame.iff_of key hW

theorem execMfeTestStart_frame {s t : State} (x0 : Requester) (x1 : Nat) (x2 : Nat) (e : execMfeTestStart x0 x1 x2 s = .next t) : Frame [.regs,
    .mgmtStatus, .mfe, .lnk, .ctl, .grd, .edg, .prt, .mtr, .saf, .hats, .pwr, .start, .trk, .dbg, .out] s t := by
  unfold execMfeTestStart at e
  try dsimp only at e
  (repeat' split at e) <;> (simp only [Host.Outcome.next.injEq, reduceCtorEq] at e) <;> (subst e; simp)

theorem execEncReref_frame {s t : State} (x0 : Requester) (x1 : Nat) (x2 : Word) (e : execEncReref x0 x1 x2 s = .next t) : Frame [.regs,
    .mgmtStatus, .mfe, .lnk, .ctl, .grd, .edg, .prt, .mtr, .saf, .hats, .pwr, .start, .trk, .dbg, .out] s t := by
  unfold execEncReref at e
  try dsimp only at e
  (repeat' split at e) <;> (simp only [Host.Outcome.next.injEq, reduceCtorEq] at e) <;> (subst e; simp)

@[simp] theorem State.strStart_frame {W : List Part} {r s : State} (x1 : Requester) (x2 : Nat) (x3 : Nat) (hW : [.regs, .mgmtStatus, .mfe, .lnk,
    .ctl, .grd, .edg, .prt, .mtr, .saf, .hats, .pwr, .start, .trk, .dbg, .out] ⊆ W) : Frame W r (State.strStart s x1 x2 x3) ↔ Frame W r s := by
  have key : Frame [.regs, .mgmtStatus, .mfe, .lnk, .ctl, .grd, .edg, .prt, .mtr, .saf, .hats, .pwr, .start, .trk, .dbg, .out] s (State.strStart s x1 x2 x3) := by
    simp [State.strStart]
  exact Frame.iff_of key hW

theorem execBridgeVerify_frame {s t : State} (x0 : Requester) (x1 : Nat) (e : execBridgeVerify x0 x1 s = .next t) : Frame [.regs, .mgmtStatus,
    .mfe, .lnk, .ctl, .grd, .edg, .prt, .mtr, .saf, .hats, .pwr, .start, .trk, .dbg, .out] s t := by
  unfold execBridgeVerify at e
  try dsimp only at e
  (repeat' split at e) <;> (simp only [Host.Outcome.next.injEq, reduceCtorEq] at e) <;> (subst e; simp)

theorem execClearQuarantine_frame {s t : State} (x0 : Requester) (x1 : Nat) (e : execClearQuarantine x0 x1 s = .next t) : Frame [.regs,
    .mgmtStatus, .mfe, .lnk, .ctl, .grd, .edg, .prt, .mtr, .saf, .hats, .pwr, .start, .trk, .dbg, .out] s t := by
  unfold execClearQuarantine at e
  try dsimp only at e
  (repeat' split at e) <;> (simp only [Host.Outcome.next.injEq, reduceCtorEq] at e) <;> (subst e; simp)

theorem execClearCounters_frame {s t : State} (x0 : Requester) (x1 : Nat) (e : execClearCounters x0 x1 s = .next t) : Frame [.regs, .mgmtStatus,
    .mfe, .lnk, .ctl, .grd, .edg, .prt, .mtr, .saf, .hats, .pwr, .start, .trk, .dbg, .out] s t := by
  unfold execClearCounters at e
  try dsimp only at e
  (repeat' split at e) <;> (simp only [Host.Outcome.next.injEq, reduceCtorEq] at e) <;> (subst e; simp)

theorem execClearLost_frame {s t : State} (x0 : Requester) (x1 : Nat) (e : execClearLost x0 x1 s = .next t) : Frame [.regs, .mgmtStatus, .mfe,
    .lnk, .ctl, .grd, .edg, .prt, .mtr, .saf, .hats, .pwr, .start, .trk, .dbg, .out] s t := by
  unfold execClearLost at e
  try dsimp only at e
  (repeat' split at e) <;> (simp only [Host.Outcome.next.injEq, reduceCtorEq] at e) <;> (subst e; simp)

theorem execRetrim_frame {s t : State} (x0 : Requester) (x1 : Nat) (e : execRetrim x0 x1 s = .next t) : Frame [.regs, .mgmtStatus, .mfe, .lnk,
    .ctl, .grd, .edg, .prt, .mtr, .saf, .hats, .pwr, .start, .trk, .dbg, .out] s t := by
  unfold execRetrim at e
  try dsimp only at e
  (repeat' split at e) <;> (simp only [Host.Outcome.next.injEq, reduceCtorEq] at e) <;> (subst e; simp)

theorem execHandbackGo_frame {s t : State} (x0 : Requester) (x1 : Nat) (e : execHandbackGo x0 x1 s = .next t) : Frame [.regs, .mgmtStatus, .mfe,
    .lnk, .ctl, .grd, .edg, .prt, .mtr, .saf, .hats, .pwr, .start, .trk, .dbg, .out] s t := by
  unfold execHandbackGo at e
  try dsimp only at e
  (repeat' split at e) <;> (simp only [Host.Outcome.next.injEq, reduceCtorEq] at e) <;> (subst e; simp)

theorem execCelCtrClear_frame {s t : State} (x0 : Requester) (e : execCelCtrClear x0 s = .next t) : Frame [.regs, .mgmtStatus, .mfe, .lnk, .ctl,
    .grd, .edg, .prt, .mtr, .saf, .hats, .pwr, .start, .trk, .dbg, .out] s t := by
  unfold execCelCtrClear at e
  try dsimp only at e
  (repeat' split at e) <;> (simp only [Host.Outcome.next.injEq, reduceCtorEq] at e) <;> (subst e; simp)

@[simp] theorem State.grdStart_frame {W : List Part} {r s : State} (x1 : Requester) (x2 : Nat) (hW : [.regs, .mgmtStatus, .mfe, .lnk, .ctl,
    .grd, .edg, .prt, .mtr, .saf, .hats, .pwr, .start, .trk, .dbg, .out] ⊆ W) : Frame W r (State.grdStart s x1 x2) ↔ Frame W r s := by
  have key : Frame [.regs, .mgmtStatus, .mfe, .lnk, .ctl, .grd, .edg, .prt, .mtr, .saf, .hats, .pwr, .start, .trk, .dbg, .out] s (State.grdStart s x1 x2) := by
    simp [State.grdStart]
  exact Frame.iff_of key hW

theorem execToGfm_frame {s t : State} (x0 : Requester) (e : execToGfm x0 s = .next t) : Frame [.regs, .mgmtStatus, .mfe, .lnk, .ctl, .grd, .edg,
    .prt, .mtr, .saf, .hats, .pwr, .start, .trk, .dbg, .out] s t := by
  unfold execToGfm at e
  try dsimp only at e
  (repeat' split at e) <;> (simp only [Host.Outcome.next.injEq, reduceCtorEq] at e) <;> (subst e; simp)

theorem execToGfl_frame {s t : State} (x0 : Requester) (e : execToGfl x0 s = .next t) : Frame [.regs, .mgmtStatus, .mfe, .lnk, .ctl, .grd, .edg,
    .prt, .mtr, .saf, .hats, .pwr, .start, .trk, .dbg, .out] s t := by
  unfold execToGfl at e
  try dsimp only at e
  (repeat' split at e) <;> (simp only [Host.Outcome.next.injEq, reduceCtorEq] at e) <;> (subst e; simp)

theorem execCancel_frame {s t : State} (x0 : Requester) (e : execCancel x0 s = .next t) : Frame [.regs, .mgmtStatus, .mfe, .lnk, .ctl, .grd,
    .edg, .prt, .mtr, .saf, .hats, .pwr, .start, .trk, .dbg, .out] s t := by
  unfold execCancel at e
  try dsimp only at e
  (repeat' split at e) <;> (simp only [Host.Outcome.next.injEq, reduceCtorEq] at e) <;> (subst e; simp)

theorem execClearIsland_frame {s t : State} (x0 : Requester) (e : execClearIsland x0 s = .next t) : Frame [.regs, .mgmtStatus, .mfe, .lnk, .ctl,
    .grd, .edg, .prt, .mtr, .saf, .hats, .pwr, .start, .trk, .dbg, .out] s t := by
  unfold execClearIsland at e
  try dsimp only at e
  (repeat' split at e) <;> (simp only [Host.Outcome.next.injEq, reduceCtorEq] at e) <;> (subst e; simp)

theorem execClearFrt_frame {s t : State} (x0 : Requester) (e : execClearFrt x0 s = .next t) : Frame [.regs, .mgmtStatus, .mfe, .lnk, .ctl, .grd,
    .edg, .prt, .mtr, .saf, .hats, .pwr, .start, .trk, .dbg, .out] s t := by
  unfold execClearFrt at e
  try dsimp only at e
  (repeat' split at e) <;> (simp only [Host.Outcome.next.injEq, reduceCtorEq] at e) <;> (subst e; simp)

theorem execRcClear_frame {s t : State} (x0 : Requester) (x1 : Nat) (e : execRcClear x0 x1 s = .next t) : Frame [.regs, .mgmtStatus, .mfe, .lnk,
    .ctl, .grd, .edg, .prt, .mtr, .saf, .hats, .pwr, .start, .trk, .dbg, .out] s t := by
  unfold execRcClear at e
  try dsimp only at e
  (repeat' split at e) <;> (simp only [Host.Outcome.next.injEq, reduceCtorEq] at e) <;> (subst e; simp)

theorem execClearCheckCounts_frame {s t : State} (x0 : Requester) (e : execClearCheckCounts x0 s = .next t) : Frame [.regs, .mgmtStatus, .mfe,
    .lnk, .ctl, .grd, .edg, .prt, .mtr, .saf, .hats, .pwr, .start, .trk, .dbg, .out] s t := by
  unfold execClearCheckCounts at e
  try dsimp only at e
  (repeat' split at e) <;> (simp only [Host.Outcome.next.injEq, reduceCtorEq] at e) <;> (subst e; simp)

theorem execGenStart_frame {s t : State} (x0 : Requester) (x1 : Nat) (e : execGenStart x0 x1 s = .next t) : Frame [.regs, .mgmtStatus, .mfe,
    .lnk, .ctl, .grd, .edg, .prt, .mtr, .saf, .hats, .pwr, .start, .trk, .dbg, .out] s t := by
  unfold execGenStart at e
  try dsimp only at e
  (repeat' split at e) <;> (simp only [Host.Outcome.next.injEq, reduceCtorEq] at e) <;> (subst e; simp)

theorem execGenStop_frame {s t : State} (x0 : Requester) (x1 : Nat) (e : execGenStop x0 x1 s = .next t) : Frame [.regs, .mgmtStatus, .mfe, .lnk,
    .ctl, .grd, .edg, .prt, .mtr, .saf, .hats, .pwr, .start, .trk, .dbg, .out] s t := by
  unfold execGenStop at e
  try dsimp only at e
  (repeat' split at e) <;> (simp only [Host.Outcome.next.injEq, reduceCtorEq] at e) <;> (subst e; simp)

theorem execCapArm_frame {s t : State} (x0 : Requester) (e : execCapArm x0 s = .next t) : Frame [.regs, .mgmtStatus, .mfe, .lnk, .ctl, .grd,
    .edg, .prt, .mtr, .saf, .hats, .pwr, .start, .trk, .dbg, .out] s t := by
  unfold execCapArm at e
  try dsimp only at e
  (repeat' split at e) <;> (simp only [Host.Outcome.next.injEq, reduceCtorEq] at e) <;> (subst e; simp)

theorem execCapAbort_frame {s t : State} (x0 : Requester) (e : execCapAbort x0 s = .next t) : Frame [.regs, .mgmtStatus, .mfe, .lnk, .ctl, .grd,
    .edg, .prt, .mtr, .saf, .hats, .pwr, .start, .trk, .dbg, .out] s t := by
  unfold execCapAbort at e
  try dsimp only at e
  (repeat' split at e) <;> (simp only [Host.Outcome.next.injEq, reduceCtorEq] at e) <;> (subst e; simp)

theorem execForceSet_frame {s t : State} (x0 : Requester) (x1 : Nat) (x2 : Nat) (e : execForceSet x0 x1 x2 s = .next t) : Frame [.regs,
    .mgmtStatus, .mfe, .lnk, .ctl, .grd, .edg, .prt, .mtr, .saf, .hats, .pwr, .start, .trk, .dbg, .out] s t := by
  unfold execForceSet at e
  try dsimp only at e
  (repeat' split at e) <;> (simp only [Host.Outcome.next.injEq, reduceCtorEq] at e) <;> (subst e; simp)

theorem execForceRelease_frame {s t : State} (x0 : Requester) (x1 : Nat) (e : execForceRelease x0 x1 s = .next t) : Frame [.regs, .mgmtStatus,
    .mfe, .lnk, .ctl, .grd, .edg, .prt, .mtr, .saf, .hats, .pwr, .start, .trk, .dbg, .out] s t := by
  unfold execForceRelease at e
  try dsimp only at e
  (repeat' split at e) <;> (simp only [Host.Outcome.next.injEq, reduceCtorEq] at e) <;> (subst e; simp)

theorem execForceReleaseAll_frame {s t : State} (x0 : Requester) (e : execForceReleaseAll x0 s = .next t) : Frame [.regs, .mgmtStatus, .mfe,
    .lnk, .ctl, .grd, .edg, .prt, .mtr, .saf, .hats, .pwr, .start, .trk, .dbg, .out] s t := by
  unfold execForceReleaseAll at e
  try dsimp only at e
  (repeat' split at e) <;> (simp only [Host.Outcome.next.injEq, reduceCtorEq] at e) <;> (subst e; simp)

theorem execBypassGo_frame {s t : State} (x0 : Requester) (x1 : Nat) (e : execBypassGo x0 x1 s = .next t) : Frame [.regs, .mgmtStatus, .mfe,
    .lnk, .ctl, .grd, .edg, .prt, .mtr, .saf, .hats, .pwr, .start, .trk, .dbg, .out] s t := by
  unfold execBypassGo at e
  try dsimp only at e
  (repeat' split at e) <;> (simp only [Host.Outcome.next.injEq, reduceCtorEq] at e) <;> (subst e; simp)

theorem execMerge_frame {s t : State} (x0 : Requester) (x1 : Nat) (x2 : Nat) (e : execMerge x0 x1 x2 s = .next t) : Frame [.regs, .mgmtStatus,
    .mfe, .lnk, .ctl, .grd, .edg, .prt, .mtr, .saf, .hats, .pwr, .start, .trk, .dbg, .out] s t := by
  unfold execMerge at e
  try dsimp only at e
  (repeat' split at e) <;> (simp only [Host.Outcome.next.injEq, reduceCtorEq] at e) <;> (subst e; simp)

theorem execDiscard_frame {s t : State} (x0 : Requester) (x1 : Nat) (x2 : Nat) (e : execDiscard x0 x1 x2 s = .next t) : Frame [.regs,
    .mgmtStatus, .mfe, .lnk, .ctl, .grd, .edg, .prt, .mtr, .saf, .hats, .pwr, .start, .trk, .dbg, .out] s t := by
  unfold execDiscard at e
  try dsimp only at e
  (repeat' split at e) <;> (simp only [Host.Outcome.next.injEq, reduceCtorEq] at e) <;> (subst e; simp)

theorem execSealMeter_frame {s t : State} (x0 : Requester) (x1 : Nat) (e : execSealMeter x0 x1 s = .next t) : Frame [.regs, .mgmtStatus, .mfe,
    .lnk, .ctl, .grd, .edg, .prt, .mtr, .saf, .hats, .pwr, .start, .trk, .dbg, .out] s t := by
  unfold execSealMeter at e
  try dsimp only at e
  (repeat' split at e) <;> (simp only [Host.Outcome.next.injEq, reduceCtorEq] at e) <;> (subst e; simp)

theorem execUnsealMeter_frame {s t : State} (x0 : Requester) (x1 : Nat) (e : execUnsealMeter x0 x1 s = .next t) : Frame [.regs, .mgmtStatus,
    .mfe, .lnk, .ctl, .grd, .edg, .prt, .mtr, .saf, .hats, .pwr, .start, .trk, .dbg, .out] s t := by
  unfold execUnsealMeter at e
  try dsimp only at e
  (repeat' split at e) <;> (simp only [Host.Outcome.next.injEq, reduceCtorEq] at e) <;> (subst e; simp)

theorem execHalt_frame {s t : State} (x0 : Requester) (x1 : Nat) (x2 : Nat) (e : execHalt x0 x1 x2 s = .next t) : Frame [.regs, .mgmtStatus,
    .lnk, .prt, .hats, .dbg, .out] s t := by
  unfold execHalt at e
  try dsimp only at e
  (repeat' split at e) <;> (simp only [Host.Outcome.next.injEq, reduceCtorEq] at e) <;> (subst e; simp)

theorem execResume_frame {s t : State} (x0 : Requester) (x1 : Nat) (e : execResume x0 x1 s = .next t) : Frame [.regs, .mgmtStatus, .lnk, .prt,
    .hats, .dbg, .out] s t := by
  unfold execResume at e
  try dsimp only at e
  (repeat' split at e) <;> (simp only [Host.Outcome.next.injEq, reduceCtorEq] at e) <;> (subst e; simp)

theorem execStepEngine_frame {s t : State} (x0 : Requester) (x1 : Nat) (e : execStepEngine x0 x1 s = .next t) : Frame [.regs, .mgmtStatus, .lnk,
    .prt, .hats, .dbg, .out] s t := by
  unfold execStepEngine at e
  try dsimp only at e
  (repeat' split at e) <;> (simp only [Host.Outcome.next.injEq, reduceCtorEq] at e) <;> (subst e; simp)

theorem execDbgCapArm_frame {s t : State} (x0 : Requester) (e : execDbgCapArm x0 s = .next t) : Frame [.regs, .mgmtStatus, .mfe, .lnk, .ctl,
    .grd, .edg, .prt, .mtr, .saf, .hats, .pwr, .start, .trk, .dbg, .out] s t := by
  unfold execDbgCapArm at e
  try dsimp only at e
  (repeat' split at e) <;> (simp only [Host.Outcome.next.injEq, reduceCtorEq] at e) <;> (subst e; simp)

theorem execDbgCapAbort_frame {s t : State} (x0 : Requester) (e : execDbgCapAbort x0 s = .next t) : Frame [.regs, .mgmtStatus, .mfe, .lnk, .ctl,
    .grd, .edg, .prt, .mtr, .saf, .hats, .pwr, .start, .trk, .dbg, .out] s t := by
  unfold execDbgCapAbort at e
  try dsimp only at e
  (repeat' split at e) <;> (simp only [Host.Outcome.next.injEq, reduceCtorEq] at e) <;> (subst e; simp)

@[simp] theorem State.ownWrite_frame {W : List Part} {r s : State} (x1 : Nat) (x2 : Nat) (x3 : Word) (hW : [.regs] ⊆ W) : Frame W r
    (State.ownWrite s x1 x2 x3) ↔ Frame W r s := by
  have key : Frame [.regs] s (State.ownWrite s x1 x2 x3) := by
    simp [State.ownWrite]
  exact Frame.iff_of key hW

@[simp] theorem State.safWrite_frame {W : List Part} {r s : State} (x1 : Requester) (x2 : Nat) (x3 : Nat) (x4 : Word) (hW : [.regs, .mgmtStatus,
    .hats, .out] ⊆ W) : Frame W r (State.safWrite s x1 x2 x3 x4) ↔ Frame W r s := by
  have key : Frame [.regs, .mgmtStatus, .hats, .out] s (State.safWrite s x1 x2 x3 x4) := by
    simp [State.safWrite]
  exact Frame.iff_of key hW

@[simp] theorem State.hatCtrlWrite_frame {W : List Part} {r s : State} (x1 : Requester) (x2 : Fin 4) (x3 : Nat) (x4 : Word) (x5 : Nat) (hW
    : [.regs, .hats, .out] ⊆ W) : Frame W r (State.hatCtrlWrite s x1 x2 x3 x4 x5) ↔ Frame W r s := by
  have key : Frame [.regs, .hats, .out] s (State.hatCtrlWrite s x1 x2 x3 x4 x5) := by
    simp [State.hatCtrlWrite]
  exact Frame.iff_of key hW

@[simp] theorem State.ringWrite_frame {W : List Part} {r s : State} (x1 : Fin 4) (x2 : Nat) (x3 : Nat) (x4 : Word) (hW : [.regs, .mgmtStatus,
    .hats, .out] ⊆ W) : Frame W r (State.ringWrite s x1 x2 x3 x4) ↔ Frame W r s := by
  have key : Frame [.regs, .mgmtStatus, .hats, .out] s (State.ringWrite s x1 x2 x3 x4) := by
    simp [State.ringWrite]
  exact Frame.iff_of key hW

@[simp] theorem State.hatClear_frame {W : List Part} {r s : State} (x1 : Nat) (x2 : Word) (hW : [.regs] ⊆ W) : Frame W r
    (State.hatClear s x1 x2) ↔ Frame W r s := by
  have key : Frame [.regs] s (State.hatClear s x1 x2) := by
    simp [State.hatClear]
  exact Frame.iff_of key hW

@[simp] theorem State.hatWrite_frame {W : List Part} {r s : State} (x1 : Requester) (x2 : Nat) (x3 : Nat) (x4 : Word) (x5 : Nat) (hW : [.regs,
    .mgmtStatus, .hats, .out] ⊆ W) : Frame W r (State.hatWrite s x1 x2 x3 x4 x5) ↔ Frame W r s := by
  have key : Frame [.regs, .mgmtStatus, .hats, .out] s (State.hatWrite s x1 x2 x3 x4 x5) := by
    unfold State.hatWrite
    (repeat' split) <;> simp
  exact Frame.iff_of key hW

@[simp] theorem State.actionWaits_frame {W : List Part} {r s : State} (x1 : Requester) (x2 : Nat) (x3 : Word) (x4 : Nat) (hW : [.regs] ⊆ W)
    : Frame W r (State.actionWaits s x1 x2 x3 x4) ↔ Frame W r s := by
  have key : Frame [.regs] s (State.actionWaits s x1 x2 x3 x4) := by
    simp [State.actionWaits]
  exact Frame.iff_of key hW

@[simp] theorem State.boundaryWrite_frame {W : List Part} {r s : State} (x1 : Requester) (x2 : Nat) (x3 : Nat) (x4 : Word) (x5 : Epoch) (hW
    : [.regs] ⊆ W) : Frame W r (State.boundaryWrite s x1 x2 x3 x4 x5) ↔ Frame W r s := by
  have key : Frame [.regs] s (State.boundaryWrite s x1 x2 x3 x4 x5) := by
    simp [State.boundaryWrite]
  exact Frame.iff_of key hW

@[simp] theorem State.mapWrite_frame {W : List Part} {r s : State} (x1 : Requester) (x2 : Nat) (x3 : Word) (x4 : Nat) (hW : [.regs, .mgmtStatus,
    .hats, .out] ⊆ W) : Frame W r (State.mapWrite s x1 x2 x3 x4) ↔ Frame W r s := by
  have key : Frame [.regs, .mgmtStatus, .hats, .out] s (State.mapWrite s x1 x2 x3 x4) := by
    simp [State.mapWrite]
  exact Frame.iff_of key hW

@[simp] theorem State.outside_frame {W : List Part} {r s : State} (x1 : Requester) (x2 : Nat) (hW : [.regs, .mgmtStatus, .hats, .out] ⊆ W)
    : Frame W r (State.outside s x1 x2) ↔ Frame W r s := by
  have key : Frame [.regs, .mgmtStatus, .hats, .out] s (State.outside s x1 x2) := by
    unfold State.outside
    (repeat' split) <;> simp
  exact Frame.iff_of key hW

theorem State.receiptAction_frame {s t : State} {r : Requester} {off : Nat} {w : Word} {ns : Nat} (h : s.receiptAction r off w ns = some t)
    : Frame [.regs, .sys, .mgmtStatus, .mfe, .lnk, .cel, .ctl, .grd, .edg, .prt, .mtr, .saf, .hats, .pwr, .ref, .start, .trk, .dbg, .out,
    .freeCount] s t := by
  unfold State.receiptAction at h
  dsimp only at h
  (repeat' split at h) <;> (first | cases h | (cases h; simp))
  all_goals simp

@[simp] theorem State.regPut_frame {W : List Part} {r s : State} (x1 : Requester) (x2 : Nat) (x3 : Nat) (x4 : Word) (x5 : Nat) (hW : [.regs,
    .sys, .mgmtStatus, .mfe, .lnk, .cel, .ctl, .grd, .edg, .prt, .mtr, .saf, .hats, .pwr, .ref, .start, .trk, .dbg, .out, .freeCount] ⊆ W)
    : Frame W r (State.regPut s x1 x2 x3 x4 x5) ↔ Frame W r s := by
  have key : Frame [.regs, .sys, .mgmtStatus, .mfe, .lnk, .cel, .ctl, .grd, .edg, .prt, .mtr, .saf, .hats, .pwr, .ref, .start, .trk, .dbg, .out, .freeCount] s (State.regPut s x1 x2 x3 x4 x5) := by
    unfold State.regPut
    dsimp only
    (repeat' split)
    all_goals first
      | (simp; done)
      | (rename_i t ht; split at ht <;> first | (exact (Frame.trans (by simp) (State.receiptAction_frame ht)).mono (by simp)) | cases ht)
  exact Frame.iff_of key hW

@[simp] theorem State.bar4Write_frame {W : List Part} {r s : State} (x1 : Fin 4) (x2 : Nat) (x3 : Word) (hW : [.regs, .mgmtStatus, .hats,
    .out] ⊆ W) : Frame W r (State.bar4Write s x1 x2 x3) ↔ Frame W r s := by
  have key : Frame [.regs, .mgmtStatus, .hats, .out] s (State.bar4Write s x1 x2 x3) := by
    unfold State.bar4Write
    (repeat' split) <;> simp
  exact Frame.iff_of key hW

@[simp] theorem State.regWrite_frame {W : List Part} {r s : State} (x1 : Requester) (x2 : Nat) (x3 : Word) (x4 : Nat) (hW : [.regs, .sys,
    .mgmtStatus, .mfe, .lnk, .cel, .ctl, .grd, .edg, .prt, .mtr, .saf, .hats, .pwr, .ref, .start, .trk, .dbg, .out, .freeCount] ⊆ W) : Frame W r
    (State.regWrite s x1 x2 x3 x4) ↔ Frame W r s := by
  have key : Frame [.regs, .sys, .mgmtStatus, .mfe, .lnk, .cel, .ctl, .grd, .edg, .prt, .mtr, .saf, .hats, .pwr, .ref, .start, .trk, .dbg, .out, .freeCount] s (State.regWrite s x1 x2 x3 x4) := by
    simp [State.regWrite]
  exact Frame.iff_of key hW

@[simp] theorem State.busWrite_frame {W : List Part} {r s : State} (x1 : WriteReq) (hW : [.regs, .sys, .mgmtStatus, .mfe, .lnk, .cel, .ctl,
    .grd, .edg, .prt, .mtr, .saf, .hats, .pwr, .ref, .start, .trk, .dbg, .out, .freeCount] ⊆ W) : Frame W r (State.busWrite s x1) ↔ Frame W r s := by
  have key : Frame [.regs, .sys, .mgmtStatus, .mfe, .lnk, .cel, .ctl, .grd, .edg, .prt, .mtr, .saf, .hats, .pwr, .ref, .start, .trk, .dbg, .out, .freeCount] s (State.busWrite s x1) := by
    unfold State.busWrite
    (repeat' split) <;> simp
  exact Frame.iff_of key hW

@[simp] theorem State.writeCmd_frame {W : List Part} {r s : State} (x1 : WriteReq) (x2 : Nat) (hW : [.regs, .sys, .mgmtStatus, .mfe, .lnk, .cel,
    .ctl, .grd, .edg, .prt, .mtr, .saf, .hats, .pwr, .ref, .start, .trk, .dbg, .out, .freeCount] ⊆ W) : Frame W r (State.writeCmd s x1 x2)
    ↔ Frame W r s := by
  have key : Frame [.regs, .sys, .mgmtStatus, .mfe, .lnk, .cel, .ctl, .grd, .edg, .prt, .mtr, .saf, .hats, .pwr, .ref, .start, .trk, .dbg, .out, .freeCount] s (State.writeCmd s x1 x2) := by
    simp [State.writeCmd]
  exact Frame.iff_of key hW

theorem execRegisterWrite_frame {s t : State} (x0 : WriteReq) (e : execRegisterWrite x0 s = .next t) : Frame [.regs, .sys, .mgmtStatus, .mfe,
    .lnk, .cel, .ctl, .grd, .edg, .prt, .mtr, .saf, .hats, .pwr, .ref, .start, .trk, .dbg, .out, .freeCount] s t := by
  unfold execRegisterWrite at e
  try dsimp only at e
  (repeat' split at e) <;> (simp only [Host.Outcome.next.injEq, reduceCtorEq] at e) <;> (subst e; simp)

theorem execSetAliasWrite_frame {s t : State} (x0 : WriteReq) (e : execSetAliasWrite x0 s = .next t) : Frame [.regs, .sys, .mgmtStatus, .mfe,
    .lnk, .cel, .ctl, .grd, .edg, .prt, .mtr, .saf, .hats, .pwr, .ref, .start, .trk, .dbg, .out, .freeCount] s t := by
  unfold execSetAliasWrite at e
  try dsimp only at e
  (repeat' split at e) <;> (simp only [Host.Outcome.next.injEq, reduceCtorEq] at e) <;> (subst e; simp)

theorem execClearAliasWrite_frame {s t : State} (x0 : WriteReq) (e : execClearAliasWrite x0 s = .next t) : Frame [.regs, .sys, .mgmtStatus,
    .mfe, .lnk, .cel, .ctl, .grd, .edg, .prt, .mtr, .saf, .hats, .pwr, .ref, .start, .trk, .dbg, .out, .freeCount] s t := by
  unfold execClearAliasWrite at e
  try dsimp only at e
  (repeat' split at e) <;> (simp only [Host.Outcome.next.injEq, reduceCtorEq] at e) <;> (subst e; simp)

theorem execToggleAliasWrite_frame {s t : State} (x0 : WriteReq) (e : execToggleAliasWrite x0 s = .next t) : Frame [.regs, .sys, .mgmtStatus,
    .mfe, .lnk, .cel, .ctl, .grd, .edg, .prt, .mtr, .saf, .hats, .pwr, .ref, .start, .trk, .dbg, .out, .freeCount] s t := by
  unfold execToggleAliasWrite at e
  try dsimp only at e
  (repeat' split at e) <;> (simp only [Host.Outcome.next.injEq, reduceCtorEq] at e) <;> (subst e; simp)

@[simp] theorem State.hatCmd_frame {W : List Part} {r s : State} (x1 : Fin 4) (x2 : Nat) (x3 : Word) (hW : [.regs, .sys, .mgmtStatus, .mfe,
    .lnk, .cel, .ctl, .grd, .edg, .prt, .mtr, .saf, .hats, .pwr, .ref, .start, .trk, .dbg, .out, .freeCount] ⊆ W) : Frame W r
    (State.hatCmd s x1 x2 x3) ↔ Frame W r s := by
  have key : Frame [.regs, .sys, .mgmtStatus, .mfe, .lnk, .cel, .ctl, .grd, .edg, .prt, .mtr, .saf, .hats, .pwr, .ref, .start, .trk, .dbg, .out, .freeCount] s (State.hatCmd s x1 x2 x3) := by
    simp [State.hatCmd]
  exact Frame.iff_of key hW

theorem execRingCfgWrite_frame {s t : State} (x0 : Fin 4) (x1 : Word) (e : execRingCfgWrite x0 x1 s = .next t) : Frame [.regs, .sys,
    .mgmtStatus, .mfe, .lnk, .cel, .ctl, .grd, .edg, .prt, .mtr, .saf, .hats, .pwr, .ref, .start, .trk, .dbg, .out, .freeCount] s t := by
  unfold execRingCfgWrite at e
  try dsimp only at e
  (repeat' split at e) <;> (simp only [Host.Outcome.next.injEq, reduceCtorEq] at e) <;> (subst e; simp)

theorem execRingReset_frame {s t : State} (x0 : Fin 4) (e : execRingReset x0 s = .next t) : Frame [.regs, .sys, .mgmtStatus, .mfe, .lnk, .cel,
    .ctl, .grd, .edg, .prt, .mtr, .saf, .hats, .pwr, .ref, .start, .trk, .dbg, .out, .freeCount] s t := by
  unfold execRingReset at e
  try dsimp only at e
  (repeat' split at e) <;> (simp only [Host.Outcome.next.injEq, reduceCtorEq] at e) <;> (subst e; simp)

theorem execOrderDoorbell_frame {s t : State} (x0 : Fin 4) (x1 : Nat) (x2 : Word) (e : execOrderDoorbell x0 x1 x2 s = .next t) : Frame [.regs,
    .sys, .mgmtStatus, .mfe, .lnk, .cel, .ctl, .grd, .edg, .prt, .mtr, .saf, .hats, .pwr, .ref, .start, .trk, .dbg, .out, .freeCount] s t := by
  unfold execOrderDoorbell at e
  try dsimp only at e
  (repeat' split at e) <;> (simp only [Host.Outcome.next.injEq, reduceCtorEq] at e) <;> (subst e; simp)

theorem execCompletionDoorbell_frame {s t : State} (x0 : Fin 4) (x1 : Nat) (x2 : Word) (e : execCompletionDoorbell x0 x1 x2 s = .next t)
    : Frame [.regs, .sys, .mgmtStatus, .mfe, .lnk, .cel, .ctl, .grd, .edg, .prt, .mtr, .saf, .hats, .pwr, .ref, .start, .trk, .dbg, .out,
    .freeCount] s t := by
  unfold execCompletionDoorbell at e
  try dsimp only at e
  (repeat' split at e) <;> (simp only [Host.Outcome.next.injEq, reduceCtorEq] at e) <;> (subst e; simp)

theorem execEventDoorbell_frame {s t : State} (x0 : Fin 4) (x1 : Word) (e : execEventDoorbell x0 x1 s = .next t) : Frame [.regs, .sys,
    .mgmtStatus, .mfe, .lnk, .cel, .ctl, .grd, .edg, .prt, .mtr, .saf, .hats, .pwr, .ref, .start, .trk, .dbg, .out, .freeCount] s t := by
  unfold execEventDoorbell at e
  try dsimp only at e
  (repeat' split at e) <;> (simp only [Host.Outcome.next.injEq, reduceCtorEq] at e) <;> (subst e; simp)

theorem execKick_frame {s t : State} (x0 : Fin 4) (e : execKick x0 s = .next t) : Frame [.regs, .sys, .mgmtStatus, .mfe, .lnk, .cel, .ctl, .grd,
    .edg, .prt, .mtr, .saf, .hats, .pwr, .ref, .start, .trk, .dbg, .out, .freeCount] s t := by
  unfold execKick at e
  try dsimp only at e
  (repeat' split at e) <;> (simp only [Host.Outcome.next.injEq, reduceCtorEq] at e) <;> (subst e; simp)

theorem execBar2Write_frame {s t : State} (x0 : Fin 4) (x1 : Nat) (e : execBar2Write x0 x1 s = .next t) : Frame [.regs, .mgmtStatus, .hats,
    .out] s t := by
  unfold execBar2Write at e
  try dsimp only at e
  (repeat' split at e) <;> (simp only [Host.Outcome.next.injEq, reduceCtorEq] at e) <;> (subst e; simp)

theorem execMgmtWrite_frame {s t : State} (x0 : List Byte) (x1 : Nat) (e : execMgmtWrite x0 x1 s = .next t) : Frame [.regs, .sys, .mgmtStatus,
    .mfe, .lnk, .cel, .ctl, .grd, .edg, .prt, .mtr, .saf, .hats, .pwr, .ref, .start, .trk, .dbg, .out, .freeCount] s t := by
  unfold execMgmtWrite at e
  try dsimp only at e
  (repeat' split at e) <;> (simp only [Host.Outcome.next.injEq, reduceCtorEq] at e) <;> (subst e; simp)

@[simp] theorem State.mgmtWords_frame {W : List Part} {r s : State} (x1 : Nat) (x2 : Nat) (hW : [.regs, .mgmtStatus, .hats, .out] ⊆ W)
    : Frame W r (State.mgmtWords s x1 x2).2.2 ↔ Frame W r s := by
  have key : Frame [.regs, .mgmtStatus, .hats, .out] s (State.mgmtWords s x1 x2).2.2 := by
    unfold State.mgmtWords
    rw [Frame.foldl_snd]
    · simp
    · intro x i
      dsimp only
      split
      · rename_i y hy
        split at hy
        · exact State.readReg_frame hy
        · cases hy
      · simp
  exact Frame.iff_of key hW

theorem execMgmtRead_frame {s t : State} (x0 : List Byte) (e : execMgmtRead x0 s = .next t) : Frame [.regs, .mgmtStatus, .hats, .out] s t := by
  unfold execMgmtRead at e
  try dsimp only at e
  (repeat' split at e) <;> (simp only [Host.Outcome.next.injEq, reduceCtorEq] at e) <;> (subst e; simp)

theorem execMgmtStatus_frame {s t : State} (x0 : List Byte) (e : execMgmtStatus x0 s = .next t) : Frame [.out] s t := by
  unfold execMgmtStatus at e
  try dsimp only at e
  (repeat' split at e) <;> (simp only [Host.Outcome.next.injEq, reduceCtorEq] at e) <;> (subst e; simp)

theorem execStatusClear_frame {s t : State} (x0 : List Byte) (e : execStatusClear x0 s = .next t) : Frame [.regs, .mgmtStatus, .hats, .out] s t := by
  unfold execStatusClear at e
  try dsimp only at e
  (repeat' split at e) <;> (simp only [Host.Outcome.next.injEq, reduceCtorEq] at e) <;> (subst e; simp)

theorem execMgmtUnknownCommand_frame {s t : State} (x0 : List Byte) (e : execMgmtUnknownCommand x0 s = .next t) : Frame [.regs, .mgmtStatus,
    .hats, .out] s t := by
  unfold execMgmtUnknownCommand at e
  try dsimp only at e
  (repeat' split at e) <;> (simp only [Host.Outcome.next.injEq, reduceCtorEq] at e) <;> (subst e; simp)

theorem execDbgAccess_frame {s t : State} (x0 : Bool) (x1 : Nat) (x2 : Word) (x3 : Nat) (e : execDbgAccess x0 x1 x2 x3 s = .next t)
    : Frame [.regs, .sys, .mgmtStatus, .mfe, .lnk, .cel, .ctl, .grd, .edg, .prt, .mtr, .saf, .hats, .pwr, .ref, .start, .trk, .dbg, .out,
    .freeCount] s t := by
  unfold execDbgAccess at e
  dsimp only at e
  simp only [Host.Outcome.next.injEq] at e
  subst e
  split
  · simp
  · split
    · simp
    · split
      · rename_i y hy
        rw [Frame.set_dbg _ (by simp)]
        exact Frame.trans (by simp) ((State.readReg_frame hy).mono (by simp))
      · simp

end Sys2Proof.Machine
end

