-- ==== Sys2Proof/Laws/Frame6.lean ====
section
/-! SUPPORT. Which parts of the state each operation may change: one lemma per definition of Boundary, Tap. -/

set_option linter.all false
set_option Elab.async false

namespace Sys2Proof.Machine

@[simp] theorem State.upset_frame {W : List Part} {r s : State} (x1 : Upset) (hW : [.regs] ⊆ W) : Frame W r (State.upset s x1) ↔ Frame W r s := by
  have key : Frame [.regs] s (State.upset s x1) := by
    simp [State.upset]
  exact Frame.iff_of key hW

@[simp] theorem State.voteWord_frame {W : List Part} {r s : State} (x1 : Nat) (hW : [.regs, .prt] ⊆ W) : Frame W r (State.voteWord s x1)
    ↔ Frame W r s := by
  have key : Frame [.regs, .prt] s (State.voteWord s x1) := by
    simp [State.voteWord]
  exact Frame.iff_of key hW

@[simp] theorem State.vote_frame {W : List Part} {r s : State} (x1 : List Upset) (hW : [.regs, .prt, .saf] ⊆ W) : Frame W r (State.vote s x1)
    ↔ Frame W r s := by
  have key : Frame [.regs, .prt, .saf] s (State.vote s x1) := by
    simp [State.vote]
  exact Frame.iff_of key hW

theorem execPreEpochVote_frame {s t : State} (x0 : List Upset) (e : execPreEpochVote x0 s = .next t) : Frame [.regs, .prt, .saf, .ref, .start,
    .trk, .freeCount] s t := by
  unfold execPreEpochVote at e
  try dsimp only at e
  (repeat' split at e) <;> (simp only [Host.Outcome.next.injEq, reduceCtorEq] at e) <;> (subst e; simp)

@[simp] theorem State.slackMeter_frame {W : List Part} {r s : State} (x1 : List SlackIn) (hW : [.regs, .pwr] ⊆ W) : Frame W r
    (State.slackMeter s x1) ↔ Frame W r s := by
  have key : Frame [.regs, .pwr] s (State.slackMeter s x1) := by
    simp [State.slackMeter]
  exact Frame.iff_of key hW

@[simp] theorem State.missRuns_frame {W : List Part} {r s : State} (hW : [.sys] ⊆ W) : Frame W r (State.missRuns s) ↔ Frame W r s := by
  have key : Frame [.sys] s (State.missRuns s) := by
    simp [State.missRuns]
  exact Frame.iff_of key hW

@[simp] theorem State.epochAdvance_frame {W : List Part} {r s : State} (hW : [.regs, .sys, .ref, .start, .trk, .out] ⊆ W) : Frame W r
    (State.epochAdvance s) ↔ Frame W r s := by
  have key : Frame [.regs, .sys, .ref, .start, .trk, .out] s (State.epochAdvance s) := by
    unfold State.epochAdvance
    dsimp only
    split <;> (try rw [State.trkAsk_frame _ _ (by simp)]) <;> (intro p hp; cases p <;> first | rfl | simp at hp)
  exact Frame.iff_of key hW

@[simp] theorem State.applyPending_frame {W : List Part} {r s : State} (x1 : Pending) (hW : [.regs, .sys, .mgmtStatus, .mfe, .lnk, .ctl, .grd,
    .edg, .prt, .mtr, .saf, .hats, .pwr, .start, .trk, .dbg, .out] ⊆ W) : Frame W r (State.applyPending s x1) ↔ Frame W r s := by
  have key : Frame [.regs, .sys, .mgmtStatus, .mfe, .lnk, .ctl, .grd, .edg, .prt, .mtr, .saf, .hats, .pwr, .start, .trk, .dbg, .out] s (State.applyPending s x1) := by
    unfold State.applyPending
    (repeat' split) <;> simp
  exact Frame.iff_of key hW

@[simp] theorem State.genMark_frame {W : List Part} {r s : State} (x1 : Pending) (hW : [.ctl] ⊆ W) : Frame W r (State.genMark s x1)
    ↔ Frame W r s := by
  have key : Frame [.ctl] s (State.genMark s x1) := by
    unfold State.genMark
    (repeat' split) <;> simp
  exact Frame.iff_of key hW

@[simp] theorem State.applyAll_frame {W : List Part} {r s : State} (x1 : List Pending) (hW : [.regs, .sys, .mgmtStatus, .mfe, .lnk, .ctl, .grd,
    .edg, .prt, .mtr, .saf, .hats, .pwr, .start, .trk, .dbg, .out] ⊆ W) : Frame W r (State.applyAll s x1) ↔ Frame W r s := by
  have key : Frame [.regs, .sys, .mgmtStatus, .mfe, .lnk, .ctl, .grd, .edg, .prt, .mtr, .saf, .hats, .pwr, .start, .trk, .dbg, .out] s (State.applyAll s x1) := by
    unfold State.applyAll
    rw [Frame.foldl (by intro s p; (repeat' split) <;> simp)]
    simp
  exact Frame.iff_of key hW

@[simp] theorem State.applyDue_frame {W : List Part} {r s : State} (hW : [.regs, .sys, .mgmtStatus, .mfe, .lnk, .ctl, .grd, .edg, .prt, .mtr,
    .saf, .hats, .pwr, .start, .trk, .dbg, .out] ⊆ W) : Frame W r (State.applyDue s) ↔ Frame W r s := by
  have key : Frame [.regs, .sys, .mgmtStatus, .mfe, .lnk, .ctl, .grd, .edg, .prt, .mtr, .saf, .hats, .pwr, .start, .trk, .dbg, .out] s (State.applyDue s) := by
    simp [State.applyDue]
  exact Frame.iff_of key hW

@[simp] theorem State.reactions_frame {W : List Part} {r s : State} (hW : [.regs, .sys, .mfe, .lnk, .cel, .ctl, .grd, .edg, .prt, .hats, .trk,
    .dbg, .out] ⊆ W) : Frame W r (State.reactions s) ↔ Frame W r s := by
  have key : Frame [.regs, .sys, .mfe, .lnk, .cel, .ctl, .grd, .edg, .prt, .hats, .trk, .dbg, .out] s (State.reactions s) := by
    simp [State.reactions]
  exact Frame.iff_of key hW

@[simp] theorem State.rampEnd_frame {W : List Part} {r s : State} (hW : [.regs, .sys, .mfe, .lnk, .cel, .ctl, .grd, .edg, .prt, .hats, .trk,
    .dbg, .out] ⊆ W) : Frame W r (State.rampEnd s) ↔ Frame W r s := by
  have key : Frame [.regs, .sys, .mfe, .lnk, .cel, .ctl, .grd, .edg, .prt, .hats, .trk, .dbg, .out] s (State.rampEnd s) := by
    simp [State.rampEnd]
  exact Frame.iff_of key hW

@[simp] theorem State.blocksBoundary_frame {W : List Part} {r s : State} (x1 : ℤ) (hW : [.regs, .sys, .mfe, .lnk, .cel, .ctl, .grd, .edg, .prt,
    .mtr, .hats, .pwr, .trk, .dbg, .out] ⊆ W) : Frame W r (State.blocksBoundary s x1) ↔ Frame W r s := by
  have key : Frame [.regs, .sys, .mfe, .lnk, .cel, .ctl, .grd, .edg, .prt, .mtr, .hats, .pwr, .trk, .dbg, .out] s (State.blocksBoundary s x1) := by
    simp [State.blocksBoundary]
  exact Frame.iff_of key hW

@[simp] theorem State.boundary_frame {W : List Part} {r s : State} (x1 : BoundaryIn) (hW : [.regs, .sys, .mgmtStatus, .mfe, .lnk, .cel, .ctl,
    .grd, .edg, .prt, .mtr, .saf, .hats, .pwr, .start, .trk, .dbg, .out] ⊆ W) : Frame W r (State.boundary s x1) ↔ Frame W r s := by
  have key : Frame [.regs, .sys, .mgmtStatus, .mfe, .lnk, .cel, .ctl, .grd, .edg, .prt, .mtr, .saf, .hats, .pwr, .start, .trk, .dbg, .out] s (State.boundary s x1) := by
    simp [State.boundary]
  exact Frame.iff_of key hW

theorem execEpochBoundary_frame {s t : State} (x0 : BoundaryIn) (e : execEpochBoundary x0 s = .next t) : Frame [.regs, .sys, .mgmtStatus, .mfe,
    .lnk, .cel, .ctl, .grd, .edg, .prt, .mtr, .saf, .hats, .pwr, .ref, .start, .trk, .dbg, .out, .freeCount] s t := by
  unfold execEpochBoundary at e
  try dsimp only at e
  (repeat' split at e) <;> (simp only [Host.Outcome.next.injEq, reduceCtorEq] at e) <;> (subst e; simp)

theorem execRunStart_frame {s t : State} (e : execRunStart s = .next t) : Frame [.regs, .sys, .mfe, .lnk, .cel, .ctl, .grd, .edg, .prt, .hats,
    .trk, .dbg, .out] s t := by
  unfold execRunStart at e
  try dsimp only at e
  (repeat' split at e) <;> (simp only [Host.Outcome.next.injEq, reduceCtorEq] at e) <;> (subst e; simp)

@[simp] theorem State.abandon_frame {W : List Part} {r s : State} (x1 : Nat) (hW : [.sys, .ctl, .dbg] ⊆ W) : Frame W r (State.abandon s x1)
    ↔ Frame W r s := by
  have key : Frame [.sys, .ctl, .dbg] s (State.abandon s x1) := by
    unfold State.abandon
    (repeat' split) <;> simp
  exact Frame.iff_of key hW

theorem execDeadlineMiss_frame {s t : State} (x0 : Nat) (e : execDeadlineMiss x0 s = .next t) : Frame [.regs, .sys, .cel, .ctl, .edg, .prt,
    .dbg] s t := by
  unfold execDeadlineMiss at e
  try dsimp only at e
  (repeat' split at e) <;> (simp only [Host.Outcome.next.injEq, reduceCtorEq] at e) <;> (subst e; simp)

@[simp] theorem State.bandSave_frame {W : List Part} {r s : State} (x1 : Nat) (hW : [.regs, .trk] ⊆ W) : Frame W r (State.bandSave s x1)
    ↔ Frame W r s := by
  have key : Frame [.regs, .trk] s (State.bandSave s x1) := by
    simp [State.bandSave]
  exact Frame.iff_of key hW

@[simp] theorem State.firstLock_frame {W : List Part} {r s : State} (x1 : Nat) (x2 : Nat) (hW : [.regs, .sys, .mgmtStatus, .mfe, .lnk, .cel,
    .ctl, .grd, .edg, .prt, .mtr, .saf, .hats, .pwr, .ref, .start, .trk, .dbg, .out, .freeCount] ⊆ W) : Frame W r (State.firstLock s x1 x2)
    ↔ Frame W r s := by
  have key : Frame [.regs, .sys, .mgmtStatus, .mfe, .lnk, .cel, .ctl, .grd, .edg, .prt, .mtr, .saf, .hats, .pwr, .ref, .start, .trk, .dbg, .out, .freeCount] s (State.firstLock s x1 x2) := by
    unfold State.firstLock
    extract_lets s1 a s2 s3 b c s4 s5
    have h1 : Frame [.regs, .sys, .mgmtStatus, .mfe, .lnk, .cel, .ctl, .grd, .edg, .prt, .mtr, .saf, .hats, .pwr, .ref, .start, .trk, .dbg, .out, .freeCount] s s1 := by simp only [s1]; split <;> simp
    have h3 : Frame [.regs, .sys, .mgmtStatus, .mfe, .lnk, .cel, .ctl, .grd, .edg, .prt, .mtr, .saf, .hats, .pwr, .ref, .start, .trk, .dbg, .out, .freeCount] s s3 := h1.trans (by simp [s3, s2])
    have h4 : Frame [.regs, .sys, .mgmtStatus, .mfe, .lnk, .cel, .ctl, .grd, .edg, .prt, .mtr, .saf, .hats, .pwr, .ref, .start, .trk, .dbg, .out, .freeCount] s s4 := h3.trans (by simp only [s4]; simp)
    have h5 : Frame [.regs, .sys, .mgmtStatus, .mfe, .lnk, .cel, .ctl, .grd, .edg, .prt, .mtr, .saf, .hats, .pwr, .ref, .start, .trk, .dbg, .out, .freeCount] s s5 := h4.trans (by simp only [s5]; simp)
    exact h5.trans (by simp)
  exact Frame.iff_of key hW

theorem execLockDeclared_frame {s t : State} (x0 : List LockWindow) (x1 : Nat) (x2 : Nat) (e : execLockDeclared x0 x1 x2 s = .next t)
    : Frame [.regs, .sys, .mgmtStatus, .mfe, .lnk, .cel, .ctl, .grd, .edg, .prt, .mtr, .saf, .hats, .pwr, .ref, .start, .trk, .dbg, .out,
    .freeCount] s t := by
  unfold execLockDeclared at e
  try dsimp only at e
  (repeat' split at e) <;> (simp only [Host.Outcome.next.injEq, reduceCtorEq] at e) <;> (subst e; simp)

theorem execReferenceLoss_frame {s t : State} (e : execReferenceLoss s = .next t) : Frame [.regs, .ref, .trk] s t := by
  unfold execReferenceLoss at e
  try dsimp only at e
  (repeat' split at e) <;> (simp only [Host.Outcome.next.injEq, reduceCtorEq] at e) <;> (subst e; simp)

theorem execUnmute_frame {s t : State} (e : execUnmute s = .next t) : Frame [.regs, .sys, .mgmtStatus, .mfe, .lnk, .cel, .ctl, .grd, .edg, .prt,
    .mtr, .saf, .hats, .pwr, .ref, .start, .trk, .dbg, .out, .freeCount] s t := by
  unfold execUnmute at e
  try dsimp only at e
  (repeat' split at e) <;> (simp only [Host.Outcome.next.injEq, reduceCtorEq] at e) <;> (subst e; simp)

@[simp] theorem State.tapCapture_frame {W : List Part} {r s : State} (hW : [.dbg, .freeCount] ⊆ W) : Frame W r (State.tapCapture s)
    ↔ Frame W r s := by
  have key : Frame [.dbg, .freeCount] s (State.tapCapture s) := by
    simp [State.tapCapture]
  exact Frame.iff_of key hW

@[simp] theorem State.tapScan_frame {W : List Part} {r s : State} (x1 : List Bool) (hW : [.dbg, .freeCount] ⊆ W) : Frame W r
    (State.tapScan s x1) ↔ Frame W r s := by
  have key : Frame [.dbg, .freeCount] s (State.tapScan s x1) := by
    simp [State.tapScan]
  exact Frame.iff_of key hW

theorem execTapReset_frame {s t : State} (e : execTapReset s = .next t) : Frame [.dbg] s t := by
  unfold execTapReset at e
  try dsimp only at e
  (repeat' split at e) <;> (simp only [Host.Outcome.next.injEq, reduceCtorEq] at e) <;> (subst e; simp)

theorem execExtest_frame {s t : State} (x0 : List Bool) (e : execExtest x0 s = .next t) : Frame [.regs, .dbg, .freeCount] s t := by
  unfold execExtest at e
  try dsimp only at e
  (repeat' split at e) <;> (simp only [Host.Outcome.next.injEq, reduceCtorEq] at e) <;> (subst e; simp)

theorem execIdcode_frame {s t : State} (e : execIdcode s = .next t) : Frame [.dbg] s t := by
  unfold execIdcode at e
  try dsimp only at e
  (repeat' split at e) <;> (simp only [Host.Outcome.next.injEq, reduceCtorEq] at e) <;> (subst e; simp)

theorem execSamplePreload_frame {s t : State} (x0 : List Bool) (e : execSamplePreload x0 s = .next t) : Frame [.dbg, .freeCount] s t := by
  unfold execSamplePreload at e
  try dsimp only at e
  (repeat' split at e) <;> (simp only [Host.Outcome.next.injEq, reduceCtorEq] at e) <;> (subst e; simp)

theorem execHighz_frame {s t : State} (e : execHighz s = .next t) : Frame [.regs, .dbg] s t := by
  unfold execHighz at e
  try dsimp only at e
  (repeat' split at e) <;> (simp only [Host.Outcome.next.injEq, reduceCtorEq] at e) <;> (subst e; simp)

theorem execClamp_frame {s t : State} (e : execClamp s = .next t) : Frame [.regs, .dbg] s t := by
  unfold execClamp at e
  try dsimp only at e
  (repeat' split at e) <;> (simp only [Host.Outcome.next.injEq, reduceCtorEq] at e) <;> (subst e; simp)

theorem execTapBypass_frame {s t : State} (e : execTapBypass s = .next t) : Frame [.dbg] s t := by
  unfold execTapBypass at e
  try dsimp only at e
  (repeat' split at e) <;> (simp only [Host.Outcome.next.injEq, reduceCtorEq] at e) <;> (subst e; simp)

end Sys2Proof.Machine
end

