-- ==== Sys2Proof/Laws/SMap.lean ====
section
/-! SUPPORT. The laws of sparse stores: what is read after a write, and that every write keeps the canonical form. -/

namespace Sys2Proof.Machine

variable {α : Type}

theorem smFind_none_of_keys {m : SMap α} {k : Nat} (h : ∀ p ∈ m, p.1 ≠ k) : smFind m k = none := by
  induction m with
  | nil => rfl
  | cons p t ih =>
    obtain ⟨a, b⟩ := p
    have ha : a ≠ k := h (a, b) (by simp)
    simp [smFind, ha, ih (fun p hp => h p (by simp [hp]))]

theorem smFind_erase (m : SMap α) (k k' : Nat) : smFind (smErase m k) k' = if k' = k then none else smFind m k' := by
  induction m with
  | nil => simp [smErase, smFind]
  | cons p t ih =>
    obtain ⟨a, b⟩ := p
    simp only [smErase] at ih ⊢
    by_cases ha : a = k
    · subst ha
      by_cases hk : k' = a
      · subst hk; simpa using ih
      · simp [hk, smFind, Ne.symm hk] at ih ⊢; exact ih
    · by_cases hk : a = k'
      · subst hk; simp [ha, smFind]
      · simp [ha, smFind, hk]; simpa using ih

theorem smFind_insert (m : SMap α) (k k' : Nat) (v : α) (h : ∀ p ∈ m, p.1 ≠ k) :
    smFind (smInsert m k v) k' = if k' = k then some v else smFind m k' := by
  induction m with
  | nil =>
    by_cases hk : k' = k
    · subst hk; simp [smInsert, smFind]
    · simp [smInsert, smFind, hk, Ne.symm hk]
  | cons p t ih =>
    obtain ⟨a, b⟩ := p
    have ha : a ≠ k := h (a, b) (by simp)
    have it := ih (fun p hp => h p (by simp [hp]))
    simp only [smInsert]
    by_cases hlt : k < a
    · by_cases hk : k' = k
      · subst hk; simp [hlt, smFind]
      · simp [hlt, smFind, hk, Ne.symm hk]
    · by_cases hk : k' = k
      · subst hk; simpa [hlt, smFind, ha] using it
      · by_cases hak : a = k'
        · subst hak; simp [hlt, smFind, hk]
        · simpa [hlt, smFind, hk, hak] using it

theorem erase_keys (m : SMap α) (k : Nat) : ∀ p ∈ smErase m k, p.1 ≠ k := by
  intro p hp; simpa [smErase] using (List.mem_filter.mp hp).2

/-- What is read after a write. -/
@[simp] theorem smGet_smSet [DecidableEq α] (d : α) (m : SMap α) (k k' : Nat) (v : α) :
    smGet d (smSet d m k v) k' = if k' = k then v else smGet d m k' := by
  unfold smGet smSet
  split
  · rename_i hv; rw [smFind_erase]; split <;> simp [hv]
  · rw [smFind_insert _ _ _ _ (erase_keys m k)]
    split
    · rfl
    · rw [smFind_erase]; simp [*]

/-- What is read after an update. -/
@[simp] theorem smGet_smUpd [DecidableEq α] (d : α) (m : SMap α) (k k' : Nat) (f : α → α) :
    smGet d (smUpd d m k f) k' = if k' = k then f (smGet d m k) else smGet d m k' := smGet_smSet d m k k' _

/-- What is read after an entry is removed. -/
@[simp] theorem smGet_smErase (d : α) (m : SMap α) (k k' : Nat) :
    smGet d (smErase m k) k' = if k' = k then d else smGet d m k' := by
  unfold smGet; rw [smFind_erase]; split <;> rfl

/-- The empty store reads as its default everywhere. -/
@[simp] theorem smGet_nil (d : α) (k : Nat) : smGet d [] k = d := rfl

/-- The canonical form, as a statement about every entry. -/
theorem smWf_iff [DecidableEq α] (d : α) (m : SMap α) :
    smWf d m = true ↔ (m.Pairwise (fun p q => p.1 < q.1) ∧ ∀ p ∈ m, p.2 ≠ d) := by
  induction m with
  | nil => simp [smWf]
  | cons p t ih =>
    obtain ⟨a, v⟩ := p
    cases t with
    | nil => simp [smWf]
    | cons q u =>
      obtain ⟨b, w⟩ := q
      simp only [smWf, Bool.and_eq_true, decide_eq_true_eq, bne_iff_ne, ne_eq, ih]
      constructor
      · rintro ⟨⟨hab, hv⟩, hp, hd⟩
        refine ⟨List.pairwise_cons.mpr ⟨?_, hp⟩, ?_⟩
        · intro x hx
          rcases List.mem_cons.mp hx with rfl | hx
          · exact hab
          · exact Nat.lt_trans hab ((List.pairwise_cons.mp hp).1 x hx)
        · intro x hx
          rcases List.mem_cons.mp hx with rfl | hx
          · exact hv
          · exact hd x hx
      · rintro ⟨hp, hd⟩
        have hp' := List.pairwise_cons.mp hp
        exact ⟨⟨hp'.1 (b, w) (by simp), hd (a, v) (by simp)⟩, hp'.2, fun x hx => hd x (by simp [hx])⟩

/-- Removing an entry keeps the canonical form. -/
theorem smWf_erase [DecidableEq α] (d : α) (m : SMap α) (k : Nat) (h : smWf d m = true) : smWf d (smErase m k) = true := by
  rw [smWf_iff] at h ⊢
  exact ⟨h.1.filter _, fun p hp => h.2 p (List.mem_filter.mp hp).1⟩

theorem mem_insert (m : SMap α) (k : Nat) (v : α) (p : Nat × α) : p ∈ smInsert m k v ↔ p = (k, v) ∨ p ∈ m := by
  induction m with
  | nil => simp [smInsert]
  | cons q t ih =>
    obtain ⟨a, b⟩ := q
    simp only [smInsert]
    split
    · simp
    · simp only [List.mem_cons, ih]; tauto

/-- Placing a value other than the default at a key that is not listed keeps the canonical form. -/
theorem smWf_insert [DecidableEq α] (d : α) (m : SMap α) (k : Nat) (v : α) (h : smWf d m = true) (hk : ∀ p ∈ m, p.1 ≠ k) (hv : v ≠ d) :
    smWf d (smInsert m k v) = true := by
  rw [smWf_iff] at h ⊢
  refine ⟨?_, ?_⟩
  · have hp := h.1
    clear h
    induction m with
    | nil => simp [smInsert]
    | cons q t ih =>
      obtain ⟨a, b⟩ := q
      have hp' := List.pairwise_cons.mp hp
      simp only [smInsert]
      split
      · rename_i hlt
        refine List.pairwise_cons.mpr ⟨?_, hp⟩
        intro x hx
        rcases List.mem_cons.mp hx with rfl | hx
        · exact hlt
        · exact Nat.lt_trans hlt (hp'.1 x hx)
      · rename_i hlt
        have hne : a ≠ k := hk (a, b) (by simp)
        refine List.pairwise_cons.mpr ⟨?_, ih (fun p hp => hk p (by simp [hp])) hp'.2⟩
        intro x hx
        rcases (mem_insert t k v x).mp hx with rfl | hx
        · show a < k; omega
        · exact hp'.1 x hx
  · intro p hp
    rcases (mem_insert m k v p).mp hp with rfl | hp
    · exact hv
    · exact h.2 p hp

/-- A write keeps the canonical form. -/
theorem smWf_set [DecidableEq α] (d : α) (m : SMap α) (k : Nat) (v : α) (h : smWf d m = true) : smWf d (smSet d m k v) = true := by
  unfold smSet
  split
  · exact smWf_erase d m k h
  · rename_i hv; exact smWf_insert d _ k v (smWf_erase d m k h) (erase_keys m k) hv

/-- An update keeps the canonical form. -/
theorem smWf_upd [DecidableEq α] (d : α) (m : SMap α) (k : Nat) (f : α → α) (h : smWf d m = true) : smWf d (smUpd d m k f) = true :=
  smWf_set d m k _ h

/-- A run of writes keeps the canonical form. -/
theorem smWf_setList [DecidableEq α] (d : α) (m : SMap α) (k : Nat) (vs : List α) (h : smWf d m = true) :
    smWf d (smSetList d m k vs) = true := by
  induction vs generalizing m k with
  | nil => exact h
  | cons v t ih => exact ih _ _ (smWf_set d m k v h)

/-- Two canonical stores that read alike everywhere are equal data. -/
theorem smWf_ext [DecidableEq α] (d : α) (m n : SMap α) (hm : smWf d m = true) (hn : smWf d n = true) (h : ∀ k, smFind m k = smFind n k) :
    m = n := by
  rw [smWf_iff] at hm hn
  have sorted_find : ∀ (m : SMap α), m.Pairwise (fun p q => p.1 < q.1) → ∀ k v, smFind m k = some v ↔ (k, v) ∈ m := by
    intro m
    induction m with
    | nil => simp [smFind]
    | cons p t ih =>
      obtain ⟨a, b⟩ := p
      intro hp k v
      have hp' := List.pairwise_cons.mp hp
      by_cases hk : a = k
      · subst hk
        simp only [smFind, if_true, Option.some.injEq, List.mem_cons, Prod.mk.injEq, true_and]
        constructor
        · intro e; exact Or.inl e.symm
        · rintro (e | e)
          · exact e.symm
          · exact absurd (hp'.1 _ e) (Nat.lt_irrefl a)
      · simp only [smFind, hk, if_false, List.mem_cons, Prod.mk.injEq, ih hp'.2 k v]
        constructor
        · exact Or.inr
        · rintro (e | e)
          · exact absurd e.1.symm hk
          · exact e
  have mem : ∀ p, p ∈ m ↔ p ∈ n := by
    rintro ⟨k, v⟩
    rw [← sorted_find m hm.1, ← sorted_find n hn.1, h]
  exact List.Pairwise.eq_of_mem_iff (r := fun p q : Nat × α => p.1 < q.1) hm.1 hn.1 mem

end Sys2Proof.Machine
end

