-- ==== Sys2Proof/Laws/State.lean ====
section
/-! SUPPORT. One lemma per part of the state and per elementary update: the part is unchanged, or is what the update makes it. -/

namespace Sys2Proof.Machine

@[simp] theorem State.setReg_sys (s : State) (k : Nat) (v : Word) : (s.setReg k v).sys = s.sys := rfl
@[simp] theorem State.setReg_mgmtStatus (s : State) (k : Nat) (v : Word) : (s.setReg k v).mgmtStatus = s.mgmtStatus := rfl
@[simp] theorem State.setReg_mfe (s : State) (k : Nat) (v : Word) : (s.setReg k v).mfe = s.mfe := rfl
@[simp] theorem State.setReg_lnk (s : State) (k : Nat) (v : Word) : (s.setReg k v).lnk = s.lnk := rfl
@[simp] theorem State.setReg_cel (s : State) (k : Nat) (v : Word) : (s.setReg k v).cel = s.cel := rfl
@[simp] theorem State.setReg_ctl (s : State) (k : Nat) (v : Word) : (s.setReg k v).ctl = s.ctl := rfl
@[simp] theorem State.setReg_grd (s : State) (k : Nat) (v : Word) : (s.setReg k v).grd = s.grd := rfl
@[simp] theorem State.setReg_edg (s : State) (k : Nat) (v : Word) : (s.setReg k v).edg = s.edg := rfl
@[simp] theorem State.setReg_prt (s : State) (k : Nat) (v : Word) : (s.setReg k v).prt = s.prt := rfl
@[simp] theorem State.setReg_mtr (s : State) (k : Nat) (v : Word) : (s.setReg k v).mtr = s.mtr := rfl
@[simp] theorem State.setReg_saf (s : State) (k : Nat) (v : Word) : (s.setReg k v).saf = s.saf := rfl
@[simp] theorem State.setReg_hats (s : State) (k : Nat) (v : Word) : (s.setReg k v).hats = s.hats := rfl
@[simp] theorem State.setReg_pwr (s : State) (k : Nat) (v : Word) : (s.setReg k v).pwr = s.pwr := rfl
@[simp] theorem State.setReg_ref (s : State) (k : Nat) (v : Word) : (s.setReg k v).ref = s.ref := rfl
@[simp] theorem State.setReg_start (s : State) (k : Nat) (v : Word) : (s.setReg k v).start = s.start := rfl
@[simp] theorem State.setReg_trk (s : State) (k : Nat) (v : Word) : (s.setReg k v).trk = s.trk := rfl
@[simp] theorem State.setReg_dbg (s : State) (k : Nat) (v : Word) : (s.setReg k v).dbg = s.dbg := rfl
@[simp] theorem State.setReg_out (s : State) (k : Nat) (v : Word) : (s.setReg k v).out = s.out := rfl
@[simp] theorem State.setReg_freeCount (s : State) (k : Nat) (v : Word) : (s.setReg k v).freeCount = s.freeCount := rfl
@[simp] theorem State.setReg_pending (s : State) (k : Nat) (v : Word) : (s.setReg k v).pending = s.pending := rfl

@[simp] theorem State.setRf_sys (s : State) (k hi lo v : Nat) : (s.setRf k hi lo v).sys = s.sys := rfl
@[simp] theorem State.setRf_mgmtStatus (s : State) (k hi lo v : Nat) : (s.setRf k hi lo v).mgmtStatus = s.mgmtStatus := rfl
@[simp] theorem State.setRf_mfe (s : State) (k hi lo v : Nat) : (s.setRf k hi lo v).mfe = s.mfe := rfl
@[simp] theorem State.setRf_lnk (s : State) (k hi lo v : Nat) : (s.setRf k hi lo v).lnk = s.lnk := rfl
@[simp] theorem State.setRf_cel (s : State) (k hi lo v : Nat) : (s.setRf k hi lo v).cel = s.cel := rfl
@[simp] theorem State.setRf_ctl (s : State) (k hi lo v : Nat) : (s.setRf k hi lo v).ctl = s.ctl := rfl
@[simp] theorem State.setRf_grd (s : State) (k hi lo v : Nat) : (s.setRf k hi lo v).grd = s.grd := rfl
@[simp] theorem State.setRf_edg (s : State) (k hi lo v : Nat) : (s.setRf k hi lo v).edg = s.edg := rfl
@[simp] theorem State.setRf_prt (s : State) (k hi lo v : Nat) : (s.setRf k hi lo v).prt = s.prt := rfl
@[simp] theorem State.setRf_mtr (s : State) (k hi lo v : Nat) : (s.setRf k hi lo v).mtr = s.mtr := rfl
@[simp] theorem State.setRf_saf (s : State) (k hi lo v : Nat) : (s.setRf k hi lo v).saf = s.saf := rfl
@[simp] theorem State.setRf_hats (s : State) (k hi lo v : Nat) : (s.setRf k hi lo v).hats = s.hats := rfl
@[simp] theorem State.setRf_pwr (s : State) (k hi lo v : Nat) : (s.setRf k hi lo v).pwr = s.pwr := rfl
@[simp] theorem State.setRf_ref (s : State) (k hi lo v : Nat) : (s.setRf k hi lo v).ref = s.ref := rfl
@[simp] theorem State.setRf_start (s : State) (k hi lo v : Nat) : (s.setRf k hi lo v).start = s.start := rfl
@[simp] theorem State.setRf_trk (s : State) (k hi lo v : Nat) : (s.setRf k hi lo v).trk = s.trk := rfl
@[simp] theorem State.setRf_dbg (s : State) (k hi lo v : Nat) : (s.setRf k hi lo v).dbg = s.dbg := rfl
@[simp] theorem State.setRf_out (s : State) (k hi lo v : Nat) : (s.setRf k hi lo v).out = s.out := rfl
@[simp] theorem State.setRf_freeCount (s : State) (k hi lo v : Nat) : (s.setRf k hi lo v).freeCount = s.freeCount := rfl
@[simp] theorem State.setRf_pending (s : State) (k hi lo v : Nat) : (s.setRf k hi lo v).pending = s.pending := rfl

@[simp] theorem State.latch_sys (s : State) (k b : Nat) : (s.latch k b).sys = s.sys := rfl
@[simp] theorem State.latch_mgmtStatus (s : State) (k b : Nat) : (s.latch k b).mgmtStatus = s.mgmtStatus := rfl
@[simp] theorem State.latch_mfe (s : State) (k b : Nat) : (s.latch k b).mfe = s.mfe := rfl
@[simp] theorem State.latch_lnk (s : State) (k b : Nat) : (s.latch k b).lnk = s.lnk := rfl
@[simp] theorem State.latch_cel (s : State) (k b : Nat) : (s.latch k b).cel = s.cel := rfl
@[simp] theorem State.latch_ctl (s : State) (k b : Nat) : (s.latch k b).ctl = s.ctl := rfl
@[simp] theorem State.latch_grd (s : State) (k b : Nat) : (s.latch k b).grd = s.grd := rfl
@[simp] theorem State.latch_edg (s : State) (k b : Nat) : (s.latch k b).edg = s.edg := rfl
@[simp] theorem State.latch_prt (s : State) (k b : Nat) : (s.latch k b).prt = s.prt := rfl
@[simp] theorem State.latch_mtr (s : State) (k b : Nat) : (s.latch k b).mtr = s.mtr := rfl
@[simp] theorem State.latch_saf (s : State) (k b : Nat) : (s.latch k b).saf = s.saf := rfl
@[simp] theorem State.latch_hats (s : State) (k b : Nat) : (s.latch k b).hats = s.hats := rfl
@[simp] theorem State.latch_pwr (s : State) (k b : Nat) : (s.latch k b).pwr = s.pwr := rfl
@[simp] theorem State.latch_ref (s : State) (k b : Nat) : (s.latch k b).ref = s.ref := rfl
@[simp] theorem State.latch_start (s : State) (k b : Nat) : (s.latch k b).start = s.start := rfl
@[simp] theorem State.latch_trk (s : State) (k b : Nat) : (s.latch k b).trk = s.trk := rfl
@[simp] theorem State.latch_dbg (s : State) (k b : Nat) : (s.latch k b).dbg = s.dbg := rfl
@[simp] theorem State.latch_out (s : State) (k b : Nat) : (s.latch k b).out = s.out := rfl
@[simp] theorem State.latch_freeCount (s : State) (k b : Nat) : (s.latch k b).freeCount = s.freeCount := rfl
@[simp] theorem State.latch_pending (s : State) (k b : Nat) : (s.latch k b).pending = s.pending := rfl

@[simp] theorem State.noteLt_sys (s : State) (k : Nat) (m : Word) : (s.noteLt k m).sys = s.sys := rfl
@[simp] theorem State.noteLt_mgmtStatus (s : State) (k : Nat) (m : Word) : (s.noteLt k m).mgmtStatus = s.mgmtStatus := rfl
@[simp] theorem State.noteLt_mfe (s : State) (k : Nat) (m : Word) : (s.noteLt k m).mfe = s.mfe := rfl
@[simp] theorem State.noteLt_lnk (s : State) (k : Nat) (m : Word) : (s.noteLt k m).lnk = s.lnk := rfl
@[simp] theorem State.noteLt_cel (s : State) (k : Nat) (m : Word) : (s.noteLt k m).cel = s.cel := rfl
@[simp] theorem State.noteLt_ctl (s : State) (k : Nat) (m : Word) : (s.noteLt k m).ctl = s.ctl := rfl
@[simp] theorem State.noteLt_grd (s : State) (k : Nat) (m : Word) : (s.noteLt k m).grd = s.grd := rfl
@[simp] theorem State.noteLt_edg (s : State) (k : Nat) (m : Word) : (s.noteLt k m).edg = s.edg := rfl
@[simp] theorem State.noteLt_prt (s : State) (k : Nat) (m : Word) : (s.noteLt k m).prt = s.prt := rfl
@[simp] theorem State.noteLt_mtr (s : State) (k : Nat) (m : Word) : (s.noteLt k m).mtr = s.mtr := rfl
@[simp] theorem State.noteLt_saf (s : State) (k : Nat) (m : Word) : (s.noteLt k m).saf = s.saf := rfl
@[simp] theorem State.noteLt_hats (s : State) (k : Nat) (m : Word) : (s.noteLt k m).hats = s.hats := rfl
@[simp] theorem State.noteLt_pwr (s : State) (k : Nat) (m : Word) : (s.noteLt k m).pwr = s.pwr := rfl
@[simp] theorem State.noteLt_ref (s : State) (k : Nat) (m : Word) : (s.noteLt k m).ref = s.ref := rfl
@[simp] theorem State.noteLt_start (s : State) (k : Nat) (m : Word) : (s.noteLt k m).start = s.start := rfl
@[simp] theorem State.noteLt_trk (s : State) (k : Nat) (m : Word) : (s.noteLt k m).trk = s.trk := rfl
@[simp] theorem State.noteLt_dbg (s : State) (k : Nat) (m : Word) : (s.noteLt k m).dbg = s.dbg := rfl
@[simp] theorem State.noteLt_out (s : State) (k : Nat) (m : Word) : (s.noteLt k m).out = s.out := rfl
@[simp] theorem State.noteLt_freeCount (s : State) (k : Nat) (m : Word) : (s.noteLt k m).freeCount = s.freeCount := rfl
@[simp] theorem State.noteLt_pending (s : State) (k : Nat) (m : Word) : (s.noteLt k m).pending = s.pending := rfl
@[simp] theorem State.reg_noteLt (s : State) (k k' : Nat) (m : Word) : (s.noteLt k m).reg k' = s.reg k' := rfl

@[simp] theorem State.count_sys (s : State) (k hi lo : Nat) : (s.count k hi lo).sys = s.sys := rfl
@[simp] theorem State.count_mgmtStatus (s : State) (k hi lo : Nat) : (s.count k hi lo).mgmtStatus = s.mgmtStatus := rfl
@[simp] theorem State.count_mfe (s : State) (k hi lo : Nat) : (s.count k hi lo).mfe = s.mfe := rfl
@[simp] theorem State.count_lnk (s : State) (k hi lo : Nat) : (s.count k hi lo).lnk = s.lnk := rfl
@[simp] theorem State.count_cel (s : State) (k hi lo : Nat) : (s.count k hi lo).cel = s.cel := rfl
@[simp] theorem State.count_ctl (s : State) (k hi lo : Nat) : (s.count k hi lo).ctl = s.ctl := rfl
@[simp] theorem State.count_grd (s : State) (k hi lo : Nat) : (s.count k hi lo).grd = s.grd := rfl
@[simp] theorem State.count_edg (s : State) (k hi lo : Nat) : (s.count k hi lo).edg = s.edg := rfl
@[simp] theorem State.count_prt (s : State) (k hi lo : Nat) : (s.count k hi lo).prt = s.prt := rfl
@[simp] theorem State.count_mtr (s : State) (k hi lo : Nat) : (s.count k hi lo).mtr = s.mtr := rfl
@[simp] theorem State.count_saf (s : State) (k hi lo : Nat) : (s.count k hi lo).saf = s.saf := rfl
@[simp] theorem State.count_hats (s : State) (k hi lo : Nat) : (s.count k hi lo).hats = s.hats := rfl
@[simp] theorem State.count_pwr (s : State) (k hi lo : Nat) : (s.count k hi lo).pwr = s.pwr := rfl
@[simp] theorem State.count_ref (s : State) (k hi lo : Nat) : (s.count k hi lo).ref = s.ref := rfl
@[simp] theorem State.count_start (s : State) (k hi lo : Nat) : (s.count k hi lo).start = s.start := rfl
@[simp] theorem State.count_trk (s : State) (k hi lo : Nat) : (s.count k hi lo).trk = s.trk := rfl
@[simp] theorem State.count_dbg (s : State) (k hi lo : Nat) : (s.count k hi lo).dbg = s.dbg := rfl
@[simp] theorem State.count_out (s : State) (k hi lo : Nat) : (s.count k hi lo).out = s.out := rfl
@[simp] theorem State.count_freeCount (s : State) (k hi lo : Nat) : (s.count k hi lo).freeCount = s.freeCount := rfl
@[simp] theorem State.count_pending (s : State) (k hi lo : Nat) : (s.count k hi lo).pending = s.pending := rfl

@[simp] theorem State.emit_regs (s : State) (o : BusOut) : (s.emit o).regs = s.regs := rfl
@[simp] theorem State.emit_sys (s : State) (o : BusOut) : (s.emit o).sys = s.sys := rfl
@[simp] theorem State.emit_mgmtStatus (s : State) (o : BusOut) : (s.emit o).mgmtStatus = s.mgmtStatus := rfl
@[simp] theorem State.emit_mfe (s : State) (o : BusOut) : (s.emit o).mfe = s.mfe := rfl
@[simp] theorem State.emit_lnk (s : State) (o : BusOut) : (s.emit o).lnk = s.lnk := rfl
@[simp] theorem State.emit_cel (s : State) (o : BusOut) : (s.emit o).cel = s.cel := rfl
@[simp] theorem State.emit_ctl (s : State) (o : BusOut) : (s.emit o).ctl = s.ctl := rfl
@[simp] theorem State.emit_grd (s : State) (o : BusOut) : (s.emit o).grd = s.grd := rfl
@[simp] theorem State.emit_edg (s : State) (o : BusOut) : (s.emit o).edg = s.edg := rfl
@[simp] theorem State.emit_prt (s : State) (o : BusOut) : (s.emit o).prt = s.prt := rfl
@[simp] theorem State.emit_mtr (s : State) (o : BusOut) : (s.emit o).mtr = s.mtr := rfl
@[simp] theorem State.emit_saf (s : State) (o : BusOut) : (s.emit o).saf = s.saf := rfl
@[simp] theorem State.emit_hats (s : State) (o : BusOut) : (s.emit o).hats = s.hats := rfl
@[simp] theorem State.emit_pwr (s : State) (o : BusOut) : (s.emit o).pwr = s.pwr := rfl
@[simp] theorem State.emit_ref (s : State) (o : BusOut) : (s.emit o).ref = s.ref := rfl
@[simp] theorem State.emit_start (s : State) (o : BusOut) : (s.emit o).start = s.start := rfl
@[simp] theorem State.emit_trk (s : State) (o : BusOut) : (s.emit o).trk = s.trk := rfl
@[simp] theorem State.emit_dbg (s : State) (o : BusOut) : (s.emit o).dbg = s.dbg := rfl
@[simp] theorem State.emit_freeCount (s : State) (o : BusOut) : (s.emit o).freeCount = s.freeCount := rfl
@[simp] theorem State.emit_pending (s : State) (o : BusOut) : (s.emit o).pending = s.pending := rfl

@[simp] theorem State.updLane_regs (s : State) (l : Nat) (f : LaneSt → LaneSt) : (s.updLane l f).regs = s.regs := rfl
@[simp] theorem State.updLane_sys (s : State) (l : Nat) (f : LaneSt → LaneSt) : (s.updLane l f).sys = s.sys := rfl
@[simp] theorem State.updLane_mgmtStatus (s : State) (l : Nat) (f : LaneSt → LaneSt) : (s.updLane l f).mgmtStatus = s.mgmtStatus := rfl
@[simp] theorem State.updLane_mfe (s : State) (l : Nat) (f : LaneSt → LaneSt) : (s.updLane l f).mfe = s.mfe := rfl
@[simp] theorem State.updLane_cel (s : State) (l : Nat) (f : LaneSt → LaneSt) : (s.updLane l f).cel = s.cel := rfl
@[simp] theorem State.updLane_ctl (s : State) (l : Nat) (f : LaneSt → LaneSt) : (s.updLane l f).ctl = s.ctl := rfl
@[simp] theorem State.updLane_grd (s : State) (l : Nat) (f : LaneSt → LaneSt) : (s.updLane l f).grd = s.grd := rfl
@[simp] theorem State.updLane_edg (s : State) (l : Nat) (f : LaneSt → LaneSt) : (s.updLane l f).edg = s.edg := rfl
@[simp] theorem State.updLane_prt (s : State) (l : Nat) (f : LaneSt → LaneSt) : (s.updLane l f).prt = s.prt := rfl
@[simp] theorem State.updLane_mtr (s : State) (l : Nat) (f : LaneSt → LaneSt) : (s.updLane l f).mtr = s.mtr := rfl
@[simp] theorem State.updLane_saf (s : State) (l : Nat) (f : LaneSt → LaneSt) : (s.updLane l f).saf = s.saf := rfl
@[simp] theorem State.updLane_hats (s : State) (l : Nat) (f : LaneSt → LaneSt) : (s.updLane l f).hats = s.hats := rfl
@[simp] theorem State.updLane_pwr (s : State) (l : Nat) (f : LaneSt → LaneSt) : (s.updLane l f).pwr = s.pwr := rfl
@[simp] theorem State.updLane_ref (s : State) (l : Nat) (f : LaneSt → LaneSt) : (s.updLane l f).ref = s.ref := rfl
@[simp] theorem State.updLane_start (s : State) (l : Nat) (f : LaneSt → LaneSt) : (s.updLane l f).start = s.start := rfl
@[simp] theorem State.updLane_trk (s : State) (l : Nat) (f : LaneSt → LaneSt) : (s.updLane l f).trk = s.trk := rfl
@[simp] theorem State.updLane_dbg (s : State) (l : Nat) (f : LaneSt → LaneSt) : (s.updLane l f).dbg = s.dbg := rfl
@[simp] theorem State.updLane_out (s : State) (l : Nat) (f : LaneSt → LaneSt) : (s.updLane l f).out = s.out := rfl
@[simp] theorem State.updLane_freeCount (s : State) (l : Nat) (f : LaneSt → LaneSt) : (s.updLane l f).freeCount = s.freeCount := rfl
@[simp] theorem State.updLane_pending (s : State) (l : Nat) (f : LaneSt → LaneSt) : (s.updLane l f).pending = s.pending := rfl

@[simp] theorem State.updUnit_regs (s : State) (h : Nat) (f : UnitSt → UnitSt) : (s.updUnit h f).regs = s.regs := rfl
@[simp] theorem State.updUnit_sys (s : State) (h : Nat) (f : UnitSt → UnitSt) : (s.updUnit h f).sys = s.sys := rfl
@[simp] theorem State.updUnit_mgmtStatus (s : State) (h : Nat) (f : UnitSt → UnitSt) : (s.updUnit h f).mgmtStatus = s.mgmtStatus := rfl
@[simp] theorem State.updUnit_mfe (s : State) (h : Nat) (f : UnitSt → UnitSt) : (s.updUnit h f).mfe = s.mfe := rfl
@[simp] theorem State.updUnit_cel (s : State) (h : Nat) (f : UnitSt → UnitSt) : (s.updUnit h f).cel = s.cel := rfl
@[simp] theorem State.updUnit_ctl (s : State) (h : Nat) (f : UnitSt → UnitSt) : (s.updUnit h f).ctl = s.ctl := rfl
@[simp] theorem State.updUnit_grd (s : State) (h : Nat) (f : UnitSt → UnitSt) : (s.updUnit h f).grd = s.grd := rfl
@[simp] theorem State.updUnit_edg (s : State) (h : Nat) (f : UnitSt → UnitSt) : (s.updUnit h f).edg = s.edg := rfl
@[simp] theorem State.updUnit_prt (s : State) (h : Nat) (f : UnitSt → UnitSt) : (s.updUnit h f).prt = s.prt := rfl
@[simp] theorem State.updUnit_mtr (s : State) (h : Nat) (f : UnitSt → UnitSt) : (s.updUnit h f).mtr = s.mtr := rfl
@[simp] theorem State.updUnit_saf (s : State) (h : Nat) (f : UnitSt → UnitSt) : (s.updUnit h f).saf = s.saf := rfl
@[simp] theorem State.updUnit_hats (s : State) (h : Nat) (f : UnitSt → UnitSt) : (s.updUnit h f).hats = s.hats := rfl
@[simp] theorem State.updUnit_pwr (s : State) (h : Nat) (f : UnitSt → UnitSt) : (s.updUnit h f).pwr = s.pwr := rfl
@[simp] theorem State.updUnit_ref (s : State) (h : Nat) (f : UnitSt → UnitSt) : (s.updUnit h f).ref = s.ref := rfl
@[simp] theorem State.updUnit_start (s : State) (h : Nat) (f : UnitSt → UnitSt) : (s.updUnit h f).start = s.start := rfl
@[simp] theorem State.updUnit_trk (s : State) (h : Nat) (f : UnitSt → UnitSt) : (s.updUnit h f).trk = s.trk := rfl
@[simp] theorem State.updUnit_dbg (s : State) (h : Nat) (f : UnitSt → UnitSt) : (s.updUnit h f).dbg = s.dbg := rfl
@[simp] theorem State.updUnit_out (s : State) (h : Nat) (f : UnitSt → UnitSt) : (s.updUnit h f).out = s.out := rfl
@[simp] theorem State.updUnit_freeCount (s : State) (h : Nat) (f : UnitSt → UnitSt) : (s.updUnit h f).freeCount = s.freeCount := rfl
@[simp] theorem State.updUnit_pending (s : State) (h : Nat) (f : UnitSt → UnitSt) : (s.updUnit h f).pending = s.pending := rfl

@[simp] theorem State.updPair_regs (s : State) (m : Nat) (f : PairLnk → PairLnk) : (s.updPair m f).regs = s.regs := rfl
@[simp] theorem State.updPair_sys (s : State) (m : Nat) (f : PairLnk → PairLnk) : (s.updPair m f).sys = s.sys := rfl
@[simp] theorem State.updPair_mgmtStatus (s : State) (m : Nat) (f : PairLnk → PairLnk) : (s.updPair m f).mgmtStatus = s.mgmtStatus := rfl
@[simp] theorem State.updPair_mfe (s : State) (m : Nat) (f : PairLnk → PairLnk) : (s.updPair m f).mfe = s.mfe := rfl
@[simp] theorem State.updPair_cel (s : State) (m : Nat) (f : PairLnk → PairLnk) : (s.updPair m f).cel = s.cel := rfl
@[simp] theorem State.updPair_ctl (s : State) (m : Nat) (f : PairLnk → PairLnk) : (s.updPair m f).ctl = s.ctl := rfl
@[simp] theorem State.updPair_grd (s : State) (m : Nat) (f : PairLnk → PairLnk) : (s.updPair m f).grd = s.grd := rfl
@[simp] theorem State.updPair_edg (s : State) (m : Nat) (f : PairLnk → PairLnk) : (s.updPair m f).edg = s.edg := rfl
@[simp] theorem State.updPair_prt (s : State) (m : Nat) (f : PairLnk → PairLnk) : (s.updPair m f).prt = s.prt := rfl
@[simp] theorem State.updPair_mtr (s : State) (m : Nat) (f : PairLnk → PairLnk) : (s.updPair m f).mtr = s.mtr := rfl
@[simp] theorem State.updPair_saf (s : State) (m : Nat) (f : PairLnk → PairLnk) : (s.updPair m f).saf = s.saf := rfl
@[simp] theorem State.updPair_hats (s : State) (m : Nat) (f : PairLnk → PairLnk) : (s.updPair m f).hats = s.hats := rfl
@[simp] theorem State.updPair_pwr (s : State) (m : Nat) (f : PairLnk → PairLnk) : (s.updPair m f).pwr = s.pwr := rfl
@[simp] theorem State.updPair_ref (s : State) (m : Nat) (f : PairLnk → PairLnk) : (s.updPair m f).ref = s.ref := rfl
@[simp] theorem State.updPair_start (s : State) (m : Nat) (f : PairLnk → PairLnk) : (s.updPair m f).start = s.start := rfl
@[simp] theorem State.updPair_trk (s : State) (m : Nat) (f : PairLnk → PairLnk) : (s.updPair m f).trk = s.trk := rfl
@[simp] theorem State.updPair_dbg (s : State) (m : Nat) (f : PairLnk → PairLnk) : (s.updPair m f).dbg = s.dbg := rfl
@[simp] theorem State.updPair_out (s : State) (m : Nat) (f : PairLnk → PairLnk) : (s.updPair m f).out = s.out := rfl
@[simp] theorem State.updPair_freeCount (s : State) (m : Nat) (f : PairLnk → PairLnk) : (s.updPair m f).freeCount = s.freeCount := rfl
@[simp] theorem State.updPair_pending (s : State) (m : Nat) (f : PairLnk → PairLnk) : (s.updPair m f).pending = s.pending := rfl

@[simp] theorem State.updInput_regs (s : State) (i : Nat) (f : InputSt → InputSt) : (s.updInput i f).regs = s.regs := rfl
@[simp] theorem State.updInput_sys (s : State) (i : Nat) (f : InputSt → InputSt) : (s.updInput i f).sys = s.sys := rfl
@[simp] theorem State.updInput_mgmtStatus (s : State) (i : Nat) (f : InputSt → InputSt) : (s.updInput i f).mgmtStatus = s.mgmtStatus := rfl
@[simp] theorem State.updInput_lnk (s : State) (i : Nat) (f : InputSt → InputSt) : (s.updInput i f).lnk = s.lnk := rfl
@[simp] theorem State.updInput_cel (s : State) (i : Nat) (f : InputSt → InputSt) : (s.updInput i f).cel = s.cel := rfl
@[simp] theorem State.updInput_ctl (s : State) (i : Nat) (f : InputSt → InputSt) : (s.updInput i f).ctl = s.ctl := rfl
@[simp] theorem State.updInput_grd (s : State) (i : Nat) (f : InputSt → InputSt) : (s.updInput i f).grd = s.grd := rfl
@[simp] theorem State.updInput_edg (s : State) (i : Nat) (f : InputSt → InputSt) : (s.updInput i f).edg = s.edg := rfl
@[simp] theorem State.updInput_prt (s : State) (i : Nat) (f : InputSt → InputSt) : (s.updInput i f).prt = s.prt := rfl
@[simp] theorem State.updInput_mtr (s : State) (i : Nat) (f : InputSt → InputSt) : (s.updInput i f).mtr = s.mtr := rfl
@[simp] theorem State.updInput_saf (s : State) (i : Nat) (f : InputSt → InputSt) : (s.updInput i f).saf = s.saf := rfl
@[simp] theorem State.updInput_hats (s : State) (i : Nat) (f : InputSt → InputSt) : (s.updInput i f).hats = s.hats := rfl
@[simp] theorem State.updInput_pwr (s : State) (i : Nat) (f : InputSt → InputSt) : (s.updInput i f).pwr = s.pwr := rfl
@[simp] theorem State.updInput_ref (s : State) (i : Nat) (f : InputSt → InputSt) : (s.updInput i f).ref = s.ref := rfl
@[simp] theorem State.updInput_start (s : State) (i : Nat) (f : InputSt → InputSt) : (s.updInput i f).start = s.start := rfl
@[simp] theorem State.updInput_trk (s : State) (i : Nat) (f : InputSt → InputSt) : (s.updInput i f).trk = s.trk := rfl
@[simp] theorem State.updInput_dbg (s : State) (i : Nat) (f : InputSt → InputSt) : (s.updInput i f).dbg = s.dbg := rfl
@[simp] theorem State.updInput_out (s : State) (i : Nat) (f : InputSt → InputSt) : (s.updInput i f).out = s.out := rfl
@[simp] theorem State.updInput_freeCount (s : State) (i : Nat) (f : InputSt → InputSt) : (s.updInput i f).freeCount = s.freeCount := rfl
@[simp] theorem State.updInput_pending (s : State) (i : Nat) (f : InputSt → InputSt) : (s.updInput i f).pending = s.pending := rfl

@[simp] theorem State.updHat_regs (s : State) (h : Nat) (f : HatSt → HatSt) : (s.updHat h f).regs = s.regs := rfl
@[simp] theorem State.updHat_sys (s : State) (h : Nat) (f : HatSt → HatSt) : (s.updHat h f).sys = s.sys := rfl
@[simp] theorem State.updHat_mgmtStatus (s : State) (h : Nat) (f : HatSt → HatSt) : (s.updHat h f).mgmtStatus = s.mgmtStatus := rfl
@[simp] theorem State.updHat_mfe (s : State) (h : Nat) (f : HatSt → HatSt) : (s.updHat h f).mfe = s.mfe := rfl
@[simp] theorem State.updHat_lnk (s : State) (h : Nat) (f : HatSt → HatSt) : (s.updHat h f).lnk = s.lnk := rfl
@[simp] theorem State.updHat_cel (s : State) (h : Nat) (f : HatSt → HatSt) : (s.updHat h f).cel = s.cel := rfl
@[simp] theorem State.updHat_ctl (s : State) (h : Nat) (f : HatSt → HatSt) : (s.updHat h f).ctl = s.ctl := rfl
@[simp] theorem State.updHat_grd (s : State) (h : Nat) (f : HatSt → HatSt) : (s.updHat h f).grd = s.grd := rfl
@[simp] theorem State.updHat_edg (s : State) (h : Nat) (f : HatSt → HatSt) : (s.updHat h f).edg = s.edg := rfl
@[simp] theorem State.updHat_prt (s : State) (h : Nat) (f : HatSt → HatSt) : (s.updHat h f).prt = s.prt := rfl
@[simp] theorem State.updHat_mtr (s : State) (h : Nat) (f : HatSt → HatSt) : (s.updHat h f).mtr = s.mtr := rfl
@[simp] theorem State.updHat_saf (s : State) (h : Nat) (f : HatSt → HatSt) : (s.updHat h f).saf = s.saf := rfl
@[simp] theorem State.updHat_pwr (s : State) (h : Nat) (f : HatSt → HatSt) : (s.updHat h f).pwr = s.pwr := rfl
@[simp] theorem State.updHat_ref (s : State) (h : Nat) (f : HatSt → HatSt) : (s.updHat h f).ref = s.ref := rfl
@[simp] theorem State.updHat_start (s : State) (h : Nat) (f : HatSt → HatSt) : (s.updHat h f).start = s.start := rfl
@[simp] theorem State.updHat_trk (s : State) (h : Nat) (f : HatSt → HatSt) : (s.updHat h f).trk = s.trk := rfl
@[simp] theorem State.updHat_dbg (s : State) (h : Nat) (f : HatSt → HatSt) : (s.updHat h f).dbg = s.dbg := rfl
@[simp] theorem State.updHat_out (s : State) (h : Nat) (f : HatSt → HatSt) : (s.updHat h f).out = s.out := rfl
@[simp] theorem State.updHat_freeCount (s : State) (h : Nat) (f : HatSt → HatSt) : (s.updHat h f).freeCount = s.freeCount := rfl
@[simp] theorem State.updHat_pending (s : State) (h : Nat) (f : HatSt → HatSt) : (s.updHat h f).pending = s.pending := rfl

@[simp] theorem State.updShelf_regs (s : State) (n : Epoch) (f : Shelf → Shelf) : (s.updShelf n f).regs = s.regs := rfl
@[simp] theorem State.updShelf_sys (s : State) (n : Epoch) (f : Shelf → Shelf) : (s.updShelf n f).sys = s.sys := rfl
@[simp] theorem State.updShelf_mgmtStatus (s : State) (n : Epoch) (f : Shelf → Shelf) : (s.updShelf n f).mgmtStatus = s.mgmtStatus := rfl
@[simp] theorem State.updShelf_mfe (s : State) (n : Epoch) (f : Shelf → Shelf) : (s.updShelf n f).mfe = s.mfe := rfl
@[simp] theorem State.updShelf_lnk (s : State) (n : Epoch) (f : Shelf → Shelf) : (s.updShelf n f).lnk = s.lnk := rfl
@[simp] theorem State.updShelf_ctl (s : State) (n : Epoch) (f : Shelf → Shelf) : (s.updShelf n f).ctl = s.ctl := rfl
@[simp] theorem State.updShelf_grd (s : State) (n : Epoch) (f : Shelf → Shelf) : (s.updShelf n f).grd = s.grd := rfl
@[simp] theorem State.updShelf_edg (s : State) (n : Epoch) (f : Shelf → Shelf) : (s.updShelf n f).edg = s.edg := rfl
@[simp] theorem State.updShelf_prt (s : State) (n : Epoch) (f : Shelf → Shelf) : (s.updShelf n f).prt = s.prt := rfl
@[simp] theorem State.updShelf_mtr (s : State) (n : Epoch) (f : Shelf → Shelf) : (s.updShelf n f).mtr = s.mtr := rfl
@[simp] theorem State.updShelf_saf (s : State) (n : Epoch) (f : Shelf → Shelf) : (s.updShelf n f).saf = s.saf := rfl
@[simp] theorem State.updShelf_hats (s : State) (n : Epoch) (f : Shelf → Shelf) : (s.updShelf n f).hats = s.hats := rfl
@[simp] theorem State.updShelf_pwr (s : State) (n : Epoch) (f : Shelf → Shelf) : (s.updShelf n f).pwr = s.pwr := rfl
@[simp] theorem State.updShelf_ref (s : State) (n : Epoch) (f : Shelf → Shelf) : (s.updShelf n f).ref = s.ref := rfl
@[simp] theorem State.updShelf_start (s : State) (n : Epoch) (f : Shelf → Shelf) : (s.updShelf n f).start = s.start := rfl
@[simp] theorem State.updShelf_trk (s : State) (n : Epoch) (f : Shelf → Shelf) : (s.updShelf n f).trk = s.trk := rfl
@[simp] theorem State.updShelf_dbg (s : State) (n : Epoch) (f : Shelf → Shelf) : (s.updShelf n f).dbg = s.dbg := rfl
@[simp] theorem State.updShelf_out (s : State) (n : Epoch) (f : Shelf → Shelf) : (s.updShelf n f).out = s.out := rfl
@[simp] theorem State.updShelf_freeCount (s : State) (n : Epoch) (f : Shelf → Shelf) : (s.updShelf n f).freeCount = s.freeCount := rfl
@[simp] theorem State.updShelf_pending (s : State) (n : Epoch) (f : Shelf → Shelf) : (s.updShelf n f).pending = s.pending := rfl

@[simp] theorem State.prtEvent_regs (s : State) (k : Nat) : (s.prtEvent k).regs = s.regs := rfl
@[simp] theorem State.prtEvent_sys (s : State) (k : Nat) : (s.prtEvent k).sys = s.sys := rfl
@[simp] theorem State.prtEvent_mgmtStatus (s : State) (k : Nat) : (s.prtEvent k).mgmtStatus = s.mgmtStatus := rfl
@[simp] theorem State.prtEvent_mfe (s : State) (k : Nat) : (s.prtEvent k).mfe = s.mfe := rfl
@[simp] theorem State.prtEvent_lnk (s : State) (k : Nat) : (s.prtEvent k).lnk = s.lnk := rfl
@[simp] theorem State.prtEvent_cel (s : State) (k : Nat) : (s.prtEvent k).cel = s.cel := rfl
@[simp] theorem State.prtEvent_ctl (s : State) (k : Nat) : (s.prtEvent k).ctl = s.ctl := rfl
@[simp] theorem State.prtEvent_grd (s : State) (k : Nat) : (s.prtEvent k).grd = s.grd := rfl
@[simp] theorem State.prtEvent_edg (s : State) (k : Nat) : (s.prtEvent k).edg = s.edg := rfl
@[simp] theorem State.prtEvent_mtr (s : State) (k : Nat) : (s.prtEvent k).mtr = s.mtr := rfl
@[simp] theorem State.prtEvent_saf (s : State) (k : Nat) : (s.prtEvent k).saf = s.saf := rfl
@[simp] theorem State.prtEvent_hats (s : State) (k : Nat) : (s.prtEvent k).hats = s.hats := rfl
@[simp] theorem State.prtEvent_pwr (s : State) (k : Nat) : (s.prtEvent k).pwr = s.pwr := rfl
@[simp] theorem State.prtEvent_ref (s : State) (k : Nat) : (s.prtEvent k).ref = s.ref := rfl
@[simp] theorem State.prtEvent_start (s : State) (k : Nat) : (s.prtEvent k).start = s.start := rfl
@[simp] theorem State.prtEvent_trk (s : State) (k : Nat) : (s.prtEvent k).trk = s.trk := rfl
@[simp] theorem State.prtEvent_dbg (s : State) (k : Nat) : (s.prtEvent k).dbg = s.dbg := rfl
@[simp] theorem State.prtEvent_out (s : State) (k : Nat) : (s.prtEvent k).out = s.out := rfl
@[simp] theorem State.prtEvent_freeCount (s : State) (k : Nat) : (s.prtEvent k).freeCount = s.freeCount := rfl
@[simp] theorem State.prtEvent_pending (s : State) (k : Nat) : (s.prtEvent k).pending = s.pending := rfl

@[simp] theorem State.lane_updLane (s : State) (l k : Nat) (f : LaneSt → LaneSt) : (s.updLane l f).lane k = if k = l then f (s.lane l) else s.lane k :=
  smGet_smUpd ({} : LaneSt) s.lnk.lanes l k f
@[simp] theorem State.unit_updUnit (s : State) (h k : Nat) (f : UnitSt → UnitSt) : (s.updUnit h f).unit k = if k = h then f (s.unit h) else s.unit k :=
  smGet_smUpd ({} : UnitSt) s.lnk.units h k f
@[simp] theorem State.pair_updPair (s : State) (m k : Nat) (f : PairLnk → PairLnk) : (s.updPair m f).pair k = if k = m then f (s.pair m) else s.pair k :=
  smGet_smUpd ({} : PairLnk) s.lnk.pairs m k f
@[simp] theorem State.input_updInput (s : State) (i k : Nat) (f : InputSt → InputSt) : (s.updInput i f).input k = if k = i then f (s.input i) else s.input k :=
  smGet_smUpd ({} : InputSt) s.mfe.inputs i k f
@[simp] theorem State.hat_updHat (s : State) (h k : Nat) (f : HatSt → HatSt) : (s.updHat h f).hat k = if k = h then f (s.hat h) else s.hat k :=
  smGet_smUpd ({} : HatSt) s.hats h k f
@[simp] theorem State.shelf_updShelf (s : State) (n k : Epoch) (f : Shelf → Shelf) :
    (s.updShelf n f).shelf k = if k.toNat = n.toNat then f (s.shelf n) else s.shelf k :=
  smGet_smUpd ({} : Shelf) s.cel.shelves n.toNat k.toNat f
@[simp] theorem State.unit_updLane (s : State) (l h : Nat) (f : LaneSt → LaneSt) : (s.updLane l f).unit h = s.unit h := rfl
@[simp] theorem State.pair_updLane (s : State) (l m : Nat) (f : LaneSt → LaneSt) : (s.updLane l f).pair m = s.pair m := rfl
@[simp] theorem State.lane_updUnit (s : State) (h l : Nat) (f : UnitSt → UnitSt) : (s.updUnit h f).lane l = s.lane l := rfl
@[simp] theorem State.pair_updUnit (s : State) (h m : Nat) (f : UnitSt → UnitSt) : (s.updUnit h f).pair m = s.pair m := rfl
@[simp] theorem State.lane_updPair (s : State) (m l : Nat) (f : PairLnk → PairLnk) : (s.updPair m f).lane l = s.lane l := rfl
@[simp] theorem State.unit_updPair (s : State) (m h : Nat) (f : PairLnk → PairLnk) : (s.updPair m f).unit h = s.unit h := rfl
@[simp] theorem State.lane_setReg (s : State) (k l : Nat) (v : Word) : (s.setReg k v).lane l = s.lane l := rfl
@[simp] theorem State.unit_setReg (s : State) (k h : Nat) (v : Word) : (s.setReg k v).unit h = s.unit h := rfl
@[simp] theorem State.pair_setReg (s : State) (k m : Nat) (v : Word) : (s.setReg k v).pair m = s.pair m := rfl
@[simp] theorem State.hat_setReg (s : State) (k h : Nat) (v : Word) : (s.setReg k v).hat h = s.hat h := rfl
@[simp] theorem State.input_setReg (s : State) (k i : Nat) (v : Word) : (s.setReg k v).input i = s.input i := rfl

/-- Three equal copies vote to their value (R456). -/
@[simp] theorem majority_self (a : Word) : majority a a a = a := by unfold majority; simp

/-- Two equal copies outvote the third (R456). -/
theorem majority_two (a b : Word) : majority a a b = a ∧ majority a b a = a ∧ majority b a a = a := by
  unfold majority
  refine ⟨?_, ?_, ?_⟩ <;> (ext i; cases h : a[i] <;> cases k : b[i] <;> simp [h, k])

/-- What a register reads after a register is set: the value in force of the one, and no other (R437). -/
@[simp] theorem State.reg_setReg (s : State) (k k' : Nat) (v : Word) : (s.setReg k v).reg k' = if k' = k then v else s.reg k' := by
  have ha : (s.setReg k v).regs.copyA k' = if k' = k then v else s.regs.copyA k' := by
    have := smGet_smSet (resetWord k) s.regs.a k k' v
    unfold smGet at this
    unfold State.setReg RegSt.put RegSt.copyA
    by_cases h : k' = k
    · subst h; simpa using this
    · simp only [h, if_false] at this ⊢
      unfold smSet
      split
      · rw [smFind_erase]; simp [h]
      · rw [smFind_insert _ _ _ _ (erase_keys _ _), smFind_erase]; simp [h]
  have hb : (s.setReg k v).regs.copyB k' = if k' = k then v else s.regs.copyB k' := by
    have e : (smFind (s.setReg k v).regs.b k') = if k' = k then none else smFind s.regs.b k' := smFind_erase _ _ _
    unfold RegSt.copyB; rw [e, ha]; split <;> rfl
  have hc : (s.setReg k v).regs.copyC k' = if k' = k then v else s.regs.copyC k' := by
    have e : (smFind (s.setReg k v).regs.c k') = if k' = k then none else smFind s.regs.c k' := smFind_erase _ _ _
    unfold RegSt.copyC; rw [e, ha]; split <;> rfl
  unfold State.reg
  rw [ha, hb, hc]
  split <;> simp

/-- Setting a field changes that register and no other. -/
theorem State.reg_setRf (s : State) (k hi lo v k' : Nat) : (s.setRf k hi lo v).reg k' = if k' = k then setFld (s.reg k) hi lo v else s.reg k' :=
  State.reg_setReg s k k' _

/-- A latched bit changes its register and no other. -/
theorem State.reg_latch (s : State) (k b k' : Nat) : (s.latch k b).reg k' = if k' = k then setFld (s.reg k) b b 1 else s.reg k' :=
  State.reg_setReg s k k' _

/-- A counter changes its register and no other. -/
theorem State.reg_count (s : State) (k hi lo k' : Nat) :
    (s.count k hi lo).reg k' = if k' = k then setFld (s.reg k) hi lo (incSat (2 ^ (hi + 1 - lo) - 1) (s.rf k hi lo)) else s.reg k' :=
  State.reg_setReg s k k' _

/-- A latched bit reads 1 (R11). -/
theorem State.rb_latch (s : State) (k b : Nat) (h : b < 32) : (s.latch k b).rb k b = true := by
  unfold State.rb; rw [State.reg_latch, if_pos rfl, flag_setFld_same _ _ _ h]; rfl

/-- A field reads what it was set to. -/
theorem State.rf_setRf (s : State) (k hi lo v : Nat) (h : hi < 32) : (s.setRf k hi lo v).rf k hi lo = v % 2 ^ (hi + 1 - lo) := by
  unfold State.rf; rw [State.reg_setRf, if_pos rfl, fld_setFld_same _ _ _ _ h]

/-- A register reads alike in two states with the same register file. -/
theorem State.reg_congr {s t : State} (h : t.regs = s.regs) (k : Nat) : t.reg k = s.reg k := by unfold State.reg; rw [h]

end Sys2Proof.Machine
end

