-- ==== Sys2Proof/Laws/Converter.lean ====
section
/-! SUPPORT. What the shared operations of the converter, of the completions and of the actions do: one lemma per operation, cited in
place of unfolding it. -/

set_option linter.all false
set_option Elab.async false

namespace Sys2Proof.Machine

/-- A part outside the parts that may change is kept. -/
theorem keep_regs {s t : State} (h : Frame [.sys, .mgmtStatus, .mfe, .lnk, .cel, .ctl, .grd, .edg, .prt, .mtr, .saf, .hats, .pwr,
    .ref, .start, .trk, .dbg, .out, .freeCount, .pending] s t) :
    t.regs = s.regs := h .regs (by simp)

/-- A part outside the parts that may change is kept. -/
theorem keep_sys {s t : State} (h : Frame [.regs, .mgmtStatus, .mfe, .lnk, .cel, .ctl, .grd, .edg, .prt, .mtr, .saf, .hats, .pwr,
    .ref, .start, .trk, .dbg, .out, .freeCount, .pending] s t) :
    t.sys = s.sys := h .sys (by simp)

/-- A part outside the parts that may change is kept. -/
theorem keep_mgmtStatus {s t : State} (h : Frame [.regs, .sys, .mfe, .lnk, .cel, .ctl, .grd, .edg, .prt, .mtr, .saf, .hats, .pwr,
    .ref, .start, .trk, .dbg, .out, .freeCount, .pending] s t) :
    t.mgmtStatus = s.mgmtStatus := h .mgmtStatus (by simp)

/-- A part outside the parts that may change is kept. -/
theorem keep_mfe {s t : State} (h : Frame [.regs, .sys, .mgmtStatus, .lnk, .cel, .ctl, .grd, .edg, .prt, .mtr, .saf, .hats, .pwr,
    .ref, .start, .trk, .dbg, .out, .freeCount, .pending] s t) :
    t.mfe = s.mfe := h .mfe (by simp)

/-- A part outside the parts that may change is kept. -/
theorem keep_lnk {s t : State} (h : Frame [.regs, .sys, .mgmtStatus, .mfe, .cel, .ctl, .grd, .edg, .prt, .mtr, .saf, .hats, .pwr,
    .ref, .start, .trk, .dbg, .out, .freeCount, .pending] s t) :
    t.lnk = s.lnk := h .lnk (by simp)

/-- A part outside the parts that may change is kept. -/
theorem keep_cel {s t : State} (h : Frame [.regs, .sys, .mgmtStatus, .mfe, .lnk, .ctl, .grd, .edg, .prt, .mtr, .saf, .hats, .pwr,
    .ref, .start, .trk, .dbg, .out, .freeCount, .pending] s t) :
    t.cel = s.cel := h .cel (by simp)

/-- A part outside the parts that may change is kept. -/
theorem keep_ctl {s t : State} (h : Frame [.regs, .sys, .mgmtStatus, .mfe, .lnk, .cel, .grd, .edg, .prt, .mtr, .saf, .hats, .pwr,
    .ref, .start, .trk, .dbg, .out, .freeCount, .pending] s t) :
    t.ctl = s.ctl := h .ctl (by simp)

/-- A part outside the parts that may change is kept. -/
theorem keep_grd {s t : State} (h : Frame [.regs, .sys, .mgmtStatus, .mfe, .lnk, .cel, .ctl, .edg, .prt, .mtr, .saf, .hats, .pwr,
    .ref, .start, .trk, .dbg, .out, .freeCount, .pending] s t) :
    t.grd = s.grd := h .grd (by simp)

/-- A part outside the parts that may change is kept. -/
theorem keep_edg {s t : State} (h : Frame [.regs, .sys, .mgmtStatus, .mfe, .lnk, .cel, .ctl, .grd, .prt, .mtr, .saf, .hats, .pwr,
    .ref, .start, .trk, .dbg, .out, .freeCount, .pending] s t) :
    t.edg = s.edg := h .edg (by simp)

/-- A part outside the parts that may change is kept. -/
theorem keep_prt {s t : State} (h : Frame [.regs, .sys, .mgmtStatus, .mfe, .lnk, .cel, .ctl, .grd, .edg, .mtr, .saf, .hats, .pwr,
    .ref, .start, .trk, .dbg, .out, .freeCount, .pending] s t) :
    t.prt = s.prt := h .prt (by simp)

/-- A part outside the parts that may change is kept. -/
theorem keep_mtr {s t : State} (h : Frame [.regs, .sys, .mgmtStatus, .mfe, .lnk, .cel, .ctl, .grd, .edg, .prt, .saf, .hats, .pwr,
    .ref, .start, .trk, .dbg, .out, .freeCount, .pending] s t) :
    t.mtr = s.mtr := h .mtr (by simp)

/-- A part outside the parts that may change is kept. -/
theorem keep_saf {s t : State} (h : Frame [.regs, .sys, .mgmtStatus, .mfe, .lnk, .cel, .ctl, .grd, .edg, .prt, .mtr, .hats, .pwr,
    .ref, .start, .trk, .dbg, .out, .freeCount, .pending] s t) :
    t.saf = s.saf := h .saf (by simp)

/-- A part outside the parts that may change is kept. -/
theorem keep_hats {s t : State} (h : Frame [.regs, .sys, .mgmtStatus, .mfe, .lnk, .cel, .ctl, .grd, .edg, .prt, .mtr, .saf, .pwr,
    .ref, .start, .trk, .dbg, .out, .freeCount, .pending] s t) :
    t.hats = s.hats := h .hats (by simp)

/-- A part outside the parts that may change is kept. -/
theorem keep_pwr {s t : State} (h : Frame [.regs, .sys, .mgmtStatus, .mfe, .lnk, .cel, .ctl, .grd, .edg, .prt, .mtr, .saf, .hats,
    .ref, .start, .trk, .dbg, .out, .freeCount, .pending] s t) :
    t.pwr = s.pwr := h .pwr (by simp)

/-- A part outside the parts that may change is kept. -/
theorem keep_ref {s t : State} (h : Frame [.regs, .sys, .mgmtStatus, .mfe, .lnk, .cel, .ctl, .grd, .edg, .prt, .mtr, .saf, .hats,
    .pwr, .start, .trk, .dbg, .out, .freeCount, .pending] s t) :
    t.ref = s.ref := h .ref (by simp)

/-- A part outside the parts that may change is kept. -/
theorem keep_start {s t : State} (h : Frame [.regs, .sys, .mgmtStatus, .mfe, .lnk, .cel, .ctl, .grd, .edg, .prt, .mtr, .saf,
    .hats, .pwr, .ref, .trk, .dbg, .out, .freeCount, .pending] s t) :
    t.start = s.start := h .start (by simp)

/-- A part outside the parts that may change is kept. -/
theorem keep_trk {s t : State} (h : Frame [.regs, .sys, .mgmtStatus, .mfe, .lnk, .cel, .ctl, .grd, .edg, .prt, .mtr, .saf, .hats,
    .pwr, .ref, .start, .dbg, .out, .freeCount, .pending] s t) :
    t.trk = s.trk := h .trk (by simp)

/-- A part outside the parts that may change is kept. -/
theorem keep_dbg {s t : State} (h : Frame [.regs, .sys, .mgmtStatus, .mfe, .lnk, .cel, .ctl, .grd, .edg, .prt, .mtr, .saf, .hats,
    .pwr, .ref, .start, .trk, .out, .freeCount, .pending] s t) :
    t.dbg = s.dbg := h .dbg (by simp)

/-- A part outside the parts that may change is kept. -/
theorem keep_out {s t : State} (h : Frame [.regs, .sys, .mgmtStatus, .mfe, .lnk, .cel, .ctl, .grd, .edg, .prt, .mtr, .saf, .hats,
    .pwr, .ref, .start, .trk, .dbg, .freeCount, .pending] s t) :
    t.out = s.out := h .out (by simp)

/-- A part outside the parts that may change is kept. -/
theorem keep_freeCount {s t : State} (h : Frame [.regs, .sys, .mgmtStatus, .mfe, .lnk, .cel, .ctl, .grd, .edg, .prt, .mtr, .saf,
    .hats, .pwr, .ref, .start, .trk, .dbg, .out, .pending] s t) :
    t.freeCount = s.freeCount := h .freeCount (by simp)

/-- A part outside the parts that may change is kept. -/
theorem keep_pending {s t : State} (h : Frame [.regs, .sys, .mgmtStatus, .mfe, .lnk, .cel, .ctl, .grd, .edg, .prt, .mtr, .saf,
    .hats, .pwr, .ref, .start, .trk, .dbg, .out, .freeCount] s t) :
    t.pending = s.pending := h .pending (by simp)

/-- What an entry leaves of the system block. -/
theorem enter_sys (s : State) (old new : Conv) : (s.enter old new).sys.conv = s.sys.conv ∧ (s.enter old new).sys.prev = s.sys.prev ∧
    (s.enter old new).sys.cause = s.sys.cause ∧ (s.enter old new).sys.moved = s.sys.moved ∧
    (s.enter old new).sys.announce = s.sys.announce ∧
    (s.enter old new).sys.epoch = s.sys.epoch ∧ (s.enter old new).sys.counting = s.sys.counting ∧
    (s.enter old new).sys.compat = s.sys.compat ∧ (s.enter old new).sys.era = s.sys.era := by
  cases new <;> simp only [State.enter]
  · rw [keep_sys (s := s) (t := s.enterOff) (by simp)]; simp
  · have h := keep_sys (s := s) (t := (if old = .off then s.stringsReset else s).gapCheck) (by simp); simp [h]
  · have h := keep_sys (s := s) (t := s.grdLeave false) (by simp); simp [h]
  · rw [keep_sys (s := s) (t := if old = .ready then s.grdRun else s) (by simp)]; simp
  · rw [keep_sys (s := s) (t := s.enterHold) (by simp)]; simp
  · rw [keep_sys (s := s) (t := s.enterLockout) (by simp)]; simp

/-- What a transition leaves of the system block (R31, R33). -/
theorem moveTo_sys (s : State) (c : Conv) (k n : Nat) : (s.moveTo c k n).sys.conv = c ∧ (s.moveTo c k n).sys.prev = s.sys.conv ∧
    (s.moveTo c k n).sys.cause = k ∧ (s.moveTo c k n).sys.moved = true ∧ (s.moveTo c k n).sys.announce = none ∧
    (s.moveTo c k n).sys.epoch = s.sys.epoch ∧ (s.moveTo c k n).sys.counting = s.sys.counting ∧
    (s.moveTo c k n).sys.compat = s.sys.compat ∧ (s.moveTo c k n).sys.era = s.sys.era := by
  unfold State.moveTo
  extract_lets old detail stops q1 q2 s1 s2 s3 s4
  rw [keep_sys (s := s4.enter old c) (t := (s4.enter old c).testAbort.stateAnnex.prtIndicate) (by simp)]
  have e := enter_sys s4 old c
  rw [e.1, e.2.1, e.2.2.1, e.2.2.2.1, e.2.2.2.2.1, e.2.2.2.2.2.1, e.2.2.2.2.2.2.1, e.2.2.2.2.2.2.2.1, e.2.2.2.2.2.2.2.2]
  rw [keep_sys (s := s3) (t := s4) (by simp [s4]), keep_sys (s := s2) (t := s3) (by simp [s3]), keep_sys (s := s1) (t := s2) (by simp [s2])]
  simp [s1, q1, old]

/-- An entry keeps the state order taken at the boundary. -/
theorem enter_taken (s : State) (old new : Conv) : (s.enter old new).sys.taken = s.sys.taken := by
  cases new <;> simp only [State.enter]
  · rw [keep_sys (s := s) (t := s.enterOff) (by simp)]
  · have h := keep_sys (s := s) (t := (if old = .off then s.stringsReset else s).gapCheck) (by simp); simp [h]
  · rw [keep_sys (s := s) (t := if old = .ready then s.grdRun else s) (by simp)]
  · rw [keep_sys (s := s) (t := s.enterHold) (by simp)]
  · rw [keep_sys (s := s) (t := s.enterLockout) (by simp)]

/-- A transition keeps the state order taken at the boundary. -/
theorem moveTo_taken (s : State) (c : Conv) (k n : Nat) : (s.moveTo c k n).sys.taken = s.sys.taken := by
  unfold State.moveTo
  extract_lets old detail stops q1 q2 s1 s2 s3 s4
  rw [keep_sys (s := s4.enter old c) (t := (s4.enter old c).testAbort.stateAnnex.prtIndicate) (by simp)]
  rw [enter_taken]
  rw [keep_sys (s := s3) (t := s4) (by simp [s4]), keep_sys (s := s2) (t := s3) (by simp [s3]), keep_sys (s := s1) (t := s2) (by simp [s2])]

/-- Cancelling an announcement leaves the system block but for the announcement (R35). -/
theorem cancelAnnounce_sys (s : State) (n : Nat) : (s.cancelAnnounce n).sys = { s.sys with announce := none } := by
  unfold State.cancelAnnounce
  split
  · next h => rw [← h]
  · rename_i a h
    rw [keep_sys (s := { s with sys := { s.sys with announce := none } })
      (t := State.statesDone { s with sys := { s.sys with announce := none } } a.orders opDeblock n s.sys.conv s.sys.conv) (by simp)]

/-- An action of a requester that may write its register, other than those that have their own acceptance, has its arguments set and then
its effect (R490). -/
theorem runAction_own (s : State) (r : Requester) (off : Nat) (w : Word) (h : off ≠ R.SAF_CONFIRM) (h1 : off ≠ R.PRT_RESET)
    (h2 : off ≠ R.DBG_HALT) (hm : s.mayWrite r off = true) : s.runAction r off w = (s.setArgs off w).actionEffect r off w := by
  simp only [State.runAction, State.asOwner, if_neg h, if_neg h1, if_neg h2, hm, if_true, if_false, Bool.false_eq_true]

/-- An action of a requester that may not write its register, other than those that have their own acceptance, is logged with kind 4
(R394). -/
theorem runAction_refused (s : State) (r : Requester) (off : Nat) (w : Word) (h : off ≠ R.SAF_CONFIRM) (h1 : off ≠ R.PRT_RESET)
    (h2 : off ≠ R.DBG_HALT) (hm : s.mayWrite r off = false) : s.runAction r off w = s.logErr r 4 off := by
  simp only [State.runAction, State.asOwner, if_neg h, if_neg h1, if_neg h2, hm, if_true, if_false, Bool.false_eq_true]

/-- A completion for a ring that is disabled only closes the order (R377). -/
theorem completeAt_disabled (s : State) (e : Epoch) (r : OrderRef) (op st w2 w3 c : Nat) (hc : s.orderCr r = some c)
    (h : (smGet {} (s.hat r.hatch.val).cr c).enable = false) :
    s.completeAt e r op st w2 w3 = s.updHat r.hatch.val (fun a => { a with openOrders := a.openOrders.eraseP (refersTo r) }) := by
  unfold State.completeAt
  simp only [hc, h, Bool.not_false, if_true]

end Sys2Proof.Machine
end

