-- ==== Sys2Proof/Laws/Crc.lean ====
section
/-! SUPPORT. The check codes stay within their width. -/

namespace Sys2Proof.Machine

/-- One covered bit keeps a code within its width. -/
theorem crcBit_lt (width poly crc : Nat) (b : Bool) (hp : poly < 2 ^ width) : crcBit width poly crc b < 2 ^ width := by
  unfold crcBit
  have h : crc * 2 % 2 ^ width < 2 ^ width := Nat.mod_lt _ (Nat.two_pow_pos _)
  dsimp only
  split
  · exact Nat.xor_lt_two_pow h hp
  · exact h

/-- A code is below 2 to its width (R82). -/
theorem crcBits_lt (width poly init : Nat) (bs : List Bool) (hp : poly < 2 ^ width) (hi : init < 2 ^ width) :
    crcBits width poly init bs < 2 ^ width := by
  unfold crcBits
  induction bs generalizing init with
  | nil => exact hi
  | cons b t ih => exact ih _ (crcBit_lt width poly init b hp)

end Sys2Proof.Machine
end

