-- ==== Sys2Proof/Laws/PerInstr.lean ====
section
/-! SUPPORT. Statements made per command: no word of the opcode table spells it, since the table gives no row bits. -/

namespace Sys2Proof.Laws.NoWord

/-- No word spells the command. -/
def Statement (c : Instr) : Prop := ∀ nbits w : Nat, decodeTableWord nbits w ≠ some c

/-- The table gives no row bits. -/
theorem none_spelled (nbits w : Nat) : decodeTableWord nbits w = none := rfl

theorem epochBoundary (b : BoundaryIn) : Statement (.epochBoundary b) := fun _ _ h => nomatch h

theorem preEpochVote (upsets : List Upset) : Statement (.preEpochVote upsets) := fun _ _ h => nomatch h

theorem chargeComplete : Statement (.chargeComplete) := fun _ _ h => nomatch h

theorem chargeConditionsLost : Statement (.chargeConditionsLost) := fun _ _ h => nomatch h

theorem chargeTimeout : Statement (.chargeTimeout) := fun _ _ h => nomatch h

theorem runStart : Statement (.runStart) := fun _ _ h => nomatch h

theorem deadlineMiss (item : Nat) : Statement (.deadlineMiss item) := fun _ _ h => nomatch h

theorem epochLoRead (req : Requester) : Statement (.epochLoRead req) := fun _ _ h => nomatch h

theorem slotSample (slot : Nat) (v : List SampleIn) (enc : List EncLines) : Statement (.slotSample slot v enc) := fun _ _ h => nomatch h

theorem gainUpSwitch (input : Nat) : Statement (.gainUpSwitch input) := fun _ _ h => nomatch h

theorem epochValueDelivery : Statement (.epochValueDelivery) := fun _ _ h => nomatch h

theorem openWireDeclare (input : Nat) : Statement (.openWireDeclare input) := fun _ _ h => nomatch h

theorem openWireClear (input : Nat) : Statement (.openWireClear input) := fun _ _ h => nomatch h

theorem xchkFailure (pair : Nat) : Statement (.xchkFailure pair) := fun _ _ h => nomatch h

theorem xchkRecovery (pair : Nat) : Statement (.xchkRecovery pair) := fun _ _ h => nomatch h

theorem comparatorTrip (cmp : Nat) (upper : Bool) (fine : Nat) : Statement (.comparatorTrip cmp upper fine) := fun _ _ h => nomatch h

theorem rampPeriodStart (cmp : Nat) : Statement (.rampPeriodStart cmp) := fun _ _ h => nomatch h

theorem mfeTestStart (req : Requester) (kind target : Nat) : Statement (.mfeTestStart req kind target) := fun _ _ h => nomatch h

theorem selfTestComplete : Statement (.selfTestComplete) := fun _ _ h => nomatch h

theorem encoderEvaluation : Statement (.encoderEvaluation) := fun _ _ h => nomatch h

theorem encReref (req : Requester) (enc : Nat) (pos : Word) : Statement (.encReref req enc pos) := fun _ _ h => nomatch h

theorem frameLaunch (lane : Nat) : Statement (.frameLaunch lane) := fun _ _ h => nomatch h

theorem returnFrameReceive (lane : Nat) (blocks : List LineBlock) : Statement (.returnFrameReceive lane blocks) := fun _ _ h => nomatch h

theorem headerWindowMiss (lane : MissedFrame) : Statement (.headerWindowMiss lane) := fun _ _ h => nomatch h

theorem returnOffsetAcquire (lane ofs : Nat) (first second : LineBlock) : Statement (.returnOffsetAcquire lane ofs first second) := fun _ _ h => nomatch h

theorem lockLoss (lane : LockLost) : Statement (.lockLoss lane) := fun _ _ h => nomatch h

theorem svcTimeout (lane : Nat) : Statement (.svcTimeout lane) := fun _ _ h => nomatch h

theorem discoveryStart (lane : Nat) : Statement (.discoveryStart lane) := fun _ _ h => nomatch h

theorem probeSend (lane : Nat) : Statement (.probeSend lane) := fun _ _ h => nomatch h

theorem echoReceive (lane : Nat) (echo : LineBlock) (rt : Nat) : Statement (.echoReceive lane echo rt) := fun _ _ h => nomatch h

theorem probeLost (lane : Nat) : Statement (.probeLost lane) := fun _ _ h => nomatch h

theorem leadTrimChange (lane : Nat) : Statement (.leadTrimChange lane) := fun _ _ h => nomatch h

theorem unitUnobserved (home : Nat) : Statement (.unitUnobserved home) := fun _ _ h => nomatch h

theorem unitLost (home : Nat) : Statement (.unitLost home) := fun _ _ h => nomatch h

theorem cutOff (lane : Nat) : Statement (.cutOff lane) := fun _ _ h => nomatch h

theorem routeReassign (home : Nat) : Statement (.routeReassign home) := fun _ _ h => nomatch h

theorem bridgeVerify (req : Requester) (lane : Nat) : Statement (.bridgeVerify req lane) := fun _ _ h => nomatch h

theorem bridgeVerifyNoPath : Statement (.bridgeVerifyNoPath) := fun _ _ h => nomatch h

theorem bridgeDiscovery (lane : Nat) : Statement (.bridgeDiscovery lane) := fun _ _ h => nomatch h

theorem handoverStart (pair : Nat) : Statement (.handoverStart pair) := fun _ _ h => nomatch h

theorem handoverEnd (pair : Nat) : Statement (.handoverEnd pair) := fun _ _ h => nomatch h

theorem handbackGo (req : Requester) (lane : Nat) : Statement (.handbackGo req lane) := fun _ _ h => nomatch h

theorem handbackStart (pair : Nat) : Statement (.handbackStart pair) := fun _ _ h => nomatch h

theorem handbackComplete (pair : Nat) : Statement (.handbackComplete pair) := fun _ _ h => nomatch h

theorem handbackAbort (pair : Nat) : Statement (.handbackAbort pair) := fun _ _ h => nomatch h

theorem quarantine (lane : Nat) : Statement (.quarantine lane) := fun _ _ h => nomatch h

theorem bridgeLimitExpiry (pair : Nat) : Statement (.bridgeLimitExpiry pair) := fun _ _ h => nomatch h

theorem clearQuarantine (req : Requester) (lane : Nat) : Statement (.clearQuarantine req lane) := fun _ _ h => nomatch h

theorem clearCounters (req : Requester) (lane : Nat) : Statement (.clearCounters req lane) := fun _ _ h => nomatch h

theorem clearLost (req : Requester) (lane : Nat) : Statement (.clearLost req lane) := fun _ _ h => nomatch h

theorem retrim (req : Requester) (lane : Nat) : Statement (.retrim req lane) := fun _ _ h => nomatch h

theorem lnkTblRead (req : Requester) : Statement (.lnkTblRead req) := fun _ _ h => nomatch h

theorem sealPass : Statement (.sealPass) := fun _ _ h => nomatch h

theorem rowRepairMark (bank row : Nat) : Statement (.rowRepairMark bank row) := fun _ _ h => nomatch h

theorem snapshotCopy (hatch : Fin 4) : Statement (.snapshotCopy hatch) := fun _ _ h => nomatch h

theorem celCtrClear (req : Requester) : Statement (.celCtrClear req) := fun _ _ h => nomatch h

theorem crateStaging (slot : Nat) : Statement (.crateStaging slot) := fun _ _ h => nomatch h

theorem crateCommitDecision (slot : Nat) : Statement (.crateCommitDecision slot) := fun _ _ h => nomatch h

theorem cratePartTimeout (slot : Nat) : Statement (.cratePartTimeout slot) := fun _ _ h => nomatch h

theorem crateAbortDecision (slot : Nat) : Statement (.crateAbortDecision slot) := fun _ _ h => nomatch h

theorem crateApply (slot : Nat) : Statement (.crateApply slot) := fun _ _ h => nomatch h

theorem crateVerifyEnd (slot : Nat) : Statement (.crateVerifyEnd slot) := fun _ _ h => nomatch h

theorem crateAbortDone (slot : Nat) : Statement (.crateAbortDone slot) := fun _ _ h => nomatch h

theorem crateBuildLimit (slot : Nat) : Statement (.crateBuildLimit slot) := fun _ _ h => nomatch h

theorem crateSlotFree (slot : Nat) : Statement (.crateSlotFree slot) := fun _ _ h => nomatch h

theorem gridEnginePass : Statement (.gridEnginePass) := fun _ _ h => nomatch h

theorem observerLock : Statement (.observerLock) := fun _ _ h => nomatch h

theorem observerLos : Statement (.observerLos) := fun _ _ h => nomatch h

theorem freewheelTimeout : Statement (.freewheelTimeout) := fun _ _ h => nomatch h

theorem rocofWindowEnd : Statement (.rocofWindowEnd) := fun _ _ h => nomatch h

theorem frtEntry : Statement (.frtEntry) := fun _ _ h => nomatch h

theorem frtExit : Statement (.frtExit) := fun _ _ h => nomatch h

theorem frtTimeout : Statement (.frtTimeout) := fun _ _ h => nomatch h

theorem curveActivation (curve : Nat) : Statement (.curveActivation curve) := fun _ _ h => nomatch h

theorem envelopeViolation (curve : Nat) : Statement (.envelopeViolation curve) := fun _ _ h => nomatch h

theorem islandConfirm : Statement (.islandConfirm) := fun _ _ h => nomatch h

theorem islandPulse : Statement (.islandPulse) := fun _ _ h => nomatch h

theorem toGfm (req : Requester) : Statement (.toGfm req) := fun _ _ h => nomatch h

theorem toGfl (req : Requester) : Statement (.toGfl req) := fun _ _ h => nomatch h

theorem gflTransfer : Statement (.gflTransfer) := fun _ _ h => nomatch h

theorem cancel (req : Requester) : Statement (.cancel req) := fun _ _ h => nomatch h

theorem clearIsland (req : Requester) : Statement (.clearIsland req) := fun _ _ h => nomatch h

theorem clearFrt (req : Requester) : Statement (.clearFrt req) := fun _ _ h => nomatch h

theorem chopperPass : Statement (.chopperPass) := fun _ _ h => nomatch h

theorem controlPass : Statement (.controlPass) := fun _ _ h => nomatch h

theorem stopRampComplete : Statement (.stopRampComplete) := fun _ _ h => nomatch h

theorem stopRampTimeout : Statement (.stopRampTimeout) := fun _ _ h => nomatch h

theorem plausWindowEnd (check : Nat) : Statement (.plausWindowEnd check) := fun _ _ h => nomatch h

theorem rcClear (req : Requester) (table : Nat) : Statement (.rcClear req table) := fun _ _ h => nomatch h

theorem clearCheckCounts (req : Requester) : Statement (.clearCheckCounts req) := fun _ _ h => nomatch h

theorem genStart (req : Requester) (gen : Nat) : Statement (.genStart req gen) := fun _ _ h => nomatch h

theorem genStop (req : Requester) (gen : Nat) : Statement (.genStop req gen) := fun _ _ h => nomatch h

theorem capArm (req : Requester) : Statement (.capArm req) := fun _ _ h => nomatch h

theorem capAbort (req : Requester) : Statement (.capAbort req) := fun _ _ h => nomatch h

theorem capTrigger : Statement (.capTrigger) := fun _ _ h => nomatch h

theorem capDone : Statement (.capDone) := fun _ _ h => nomatch h

theorem armEnginePass (group : Nat) : Statement (.armEnginePass group) := fun _ _ h => nomatch h

theorem edgePlannerPass : Statement (.edgePlannerPass) := fun _ _ h => nomatch h

theorem profileLoad (home : Nat) : Statement (.profileLoad home) := fun _ _ h => nomatch h

theorem forceSet (req : Requester) (home code : Nat) : Statement (.forceSet req home code) := fun _ _ h => nomatch h

theorem forceRelease (req : Requester) (home : Nat) : Statement (.forceRelease req home) := fun _ _ h => nomatch h

theorem forceReleaseAll (req : Requester) : Statement (.forceReleaseAll req) := fun _ _ h => nomatch h

theorem bypassGo (req : Requester) (home : Nat) : Statement (.bypassGo req home) := fun _ _ h => nomatch h

theorem bypassFire (home : Nat) : Statement (.bypassFire home) := fun _ _ h => nomatch h

theorem bypassConfirmTimeout (home : Nat) : Statement (.bypassConfirmTimeout home) := fun _ _ h => nomatch h

theorem lostBypassRetry (home : Nat) : Statement (.lostBypassRetry home) := fun _ _ h => nomatch h

theorem protectionPass (isA : Bool) (ns : Nat) : Statement (.protectionPass isA ns) := fun _ _ h => nomatch h

theorem abDisc : Statement (.abDisc) := fun _ _ h => nomatch h

theorem recoveryTimerExpiry (isA : Bool) (source : Nat) : Statement (.recoveryTimerExpiry isA source) := fun _ _ h => nomatch h

theorem degradeExpiry (isA : Bool) (source ns : Nat) : Statement (.degradeExpiry isA source ns) := fun _ _ h => nomatch h

theorem recoveryComplete : Statement (.recoveryComplete) := fun _ _ h => nomatch h

theorem holdTimeout : Statement (.holdTimeout) := fun _ _ h => nomatch h

theorem tripPulseEnd (trip : Nat) : Statement (.tripPulseEnd trip) := fun _ _ h => nomatch h

theorem resetArm (req : Requester) (key : Nat) : Statement (.resetArm req key) := fun _ _ h => nomatch h

theorem resetGo (req : Requester) (key : Nat) : Statement (.resetGo req key) := fun _ _ h => nomatch h

theorem resetArmExpiry : Statement (.resetArmExpiry) := fun _ _ h => nomatch h

theorem meteringPass : Statement (.meteringPass) := fun _ _ h => nomatch h

theorem pulseStart (output : Nat) : Statement (.pulseStart output) := fun _ _ h => nomatch h

theorem pulseEnd (output : Nat) : Statement (.pulseEnd output) := fun _ _ h => nomatch h

theorem merge (req : Requester) (tally mask : Nat) : Statement (.merge req tally mask) := fun _ _ h => nomatch h

theorem discard (req : Requester) (tally mask : Nat) : Statement (.discard req tally mask) := fun _ _ h => nomatch h

theorem sealMeter (req : Requester) (key : Nat) : Statement (.sealMeter req key) := fun _ _ h => nomatch h

theorem unsealMeter (req : Requester) (key : Nat) : Statement (.unsealMeter req key) := fun _ _ h => nomatch h

theorem meterCheckRecompute : Statement (.meterCheckRecompute) := fun _ _ h => nomatch h

theorem periodicSave : Statement (.periodicSave) := fun _ _ h => nomatch h

theorem safetySample (raw srb : Nat) (srst : Bool) : Statement (.safetySample raw srb srst) := fun _ _ h => nomatch h

theorem safetyCycle (diff ns : Nat) : Statement (.safetyCycle diff ns) := fun _ _ h => nomatch h

theorem pairDiscFault (pair : Nat) : Statement (.pairDiscFault pair) := fun _ _ h => nomatch h

theorem testPulse (tpo : Nat) : Statement (.testPulse tpo) := fun _ _ h => nomatch h

theorem offPulse (output : Nat) : Statement (.offPulse output) := fun _ _ h => nomatch h

theorem readbackCheck (output : Nat) : Statement (.readbackCheck output) := fun _ _ h => nomatch h

theorem deadHeld : Statement (.deadHeld) := fun _ _ h => nomatch h

theorem safetyResetRequest : Statement (.safetyResetRequest) := fun _ _ h => nomatch h

theorem resetStuck : Statement (.resetStuck) := fun _ _ h => nomatch h

theorem confirmGo (req : Requester) (key : Nat) : Statement (.confirmGo req key) := fun _ _ h => nomatch h

theorem confirmDiscard (req : Requester) (key : Nat) : Statement (.confirmDiscard req key) := fun _ _ h => nomatch h

theorem safetySetInForce : Statement (.safetySetInForce) := fun _ _ h => nomatch h

theorem safetyCheckRecompute : Statement (.safetyCheckRecompute) := fun _ _ h => nomatch h

theorem safetySetReload : Statement (.safetySetReload) := fun _ _ h => nomatch h

theorem telegramSend : Statement (.telegramSend) := fun _ _ h => nomatch h

theorem stationFrameReceive (port : Nat) (bytes : List Byte) : Statement (.stationFrameReceive port bytes) := fun _ _ h => nomatch h

theorem telegramWatchdog : Statement (.telegramWatchdog) := fun _ _ h => nomatch h

theorem mirrorSend : Statement (.mirrorSend) := fun _ _ h => nomatch h

theorem hatchReset (hatch : Fin 4) (kind : HatchResetKind) : Statement (.hatchReset hatch kind) := fun _ _ h => nomatch h

theorem ringCfgWrite (hatch : Fin 4) (value : Word) : Statement (.ringCfgWrite hatch value) := fun _ _ h => nomatch h

theorem ringReset (hatch : Fin 4) : Statement (.ringReset hatch) := fun _ _ h => nomatch h

theorem orderDoorbell (hatch : Fin 4) (ring : Nat) (value : Word) : Statement (.orderDoorbell hatch ring value) := fun _ _ h => nomatch h

theorem completionDoorbell (hatch : Fin 4) (ring : Nat) (value : Word) : Statement (.completionDoorbell hatch ring value) := fun _ _ h => nomatch h

theorem eventDoorbell (hatch : Fin 4) (value : Word) : Statement (.eventDoorbell hatch value) := fun _ _ h => nomatch h

theorem orderFetch (hatch : Fin 4) (ring : Nat) : Statement (.orderFetch hatch ring) := fun _ _ h => nomatch h

theorem descriptorReadDone (hatch : Fin 4) (ring : Nat) (res : DescResult) (ns : Nat) : Statement (.descriptorReadDone hatch ring res ns) := fun _ _ h => nomatch h

theorem nop (ref : OrderRef) : Statement (.nop ref) := fun _ _ h => nomatch h

theorem energise (ref : OrderRef) : Statement (.energise ref) := fun _ _ h => nomatch h

theorem deblock (ref : OrderRef) : Statement (.deblock ref) := fun _ _ h => nomatch h

theorem block (ref : OrderRef) : Statement (.block ref) := fun _ _ h => nomatch h

theorem deenergise (ref : OrderRef) : Statement (.deenergise ref) := fun _ _ h => nomatch h

theorem setPoint (ref : OrderRef) (entries : List SetPointEntry) : Statement (.setPoint ref entries) := fun _ _ h => nomatch h

theorem snapshot (ref : OrderRef) (args : SnapshotArgs) : Statement (.snapshot ref args) := fun _ _ h => nomatch h

theorem crateOpen (ref : OrderRef) : Statement (.crateOpen ref) := fun _ _ h => nomatch h

theorem crateAddGate (ref : OrderRef) (id home : Nat) (items : List StagedItem) : Statement (.crateAddGate ref id home items) := fun _ _ h => nomatch h

theorem crateAddDevice (ref : OrderRef) (id part w2 w3 : Nat) : Statement (.crateAddDevice ref id part w2 w3) := fun _ _ h => nomatch h

theorem crateClose (ref : OrderRef) (id : Nat) : Statement (.crateClose ref id) := fun _ _ h => nomatch h

theorem crateAbort (ref : OrderRef) (id : Nat) : Statement (.crateAbort ref id) := fun _ _ h => nomatch h

theorem kick (hatch : Fin 4) : Statement (.kick hatch) := fun _ _ h => nomatch h

theorem hatchSilence (hatch : Fin 4) : Statement (.hatchSilence hatch) := fun _ _ h => nomatch h

theorem powerOn (inp : StartIn) : Statement (.powerOn inp) := fun _ _ h => nomatch h

theorem continueStart (req : Requester) : Statement (.continueStart req) := fun _ _ h => nomatch h

theorem restart (req : Requester) (key : Nat) (inp : StartIn) : Statement (.restart req key inp) := fun _ _ h => nomatch h

theorem pmbusPoll (replies : List PollReply) (other_mW : Nat) : Statement (.pmbusPoll replies other_mW) := fun _ _ h => nomatch h

theorem slackWindowEnd : Statement (.slackWindowEnd) := fun _ _ h => nomatch h

theorem voutCommand (acks : List Bool) : Statement (.voutCommand acks) := fun _ _ h => nomatch h

theorem budgetAdmit : Statement (.budgetAdmit) := fun _ _ h => nomatch h

theorem lockDeclared (windows : List LockWindow) (band control : Nat) : Statement (.lockDeclared windows band control) := fun _ _ h => nomatch h

theorem referenceLoss : Statement (.referenceLoss) := fun _ _ h => nomatch h

theorem unmute : Statement (.unmute) := fun _ _ h => nomatch h

theorem pfailAssert : Statement (.pfailAssert) := fun _ _ h => nomatch h

theorem pfailRelease : Statement (.pfailRelease) := fun _ _ h => nomatch h

theorem trunkWriteStart : Statement (.trunkWriteStart) := fun _ _ h => nomatch h

theorem trunkWriteComplete (ok : Bool) : Statement (.trunkWriteComplete ok) := fun _ _ h => nomatch h

theorem format (req : Requester) (key : Nat) : Statement (.format req key) := fun _ _ h => nomatch h

theorem registerWrite (w : WriteReq) : Statement (.registerWrite w) := fun _ _ h => nomatch h

theorem setAliasWrite (w : WriteReq) : Statement (.setAliasWrite w) := fun _ _ h => nomatch h

theorem clearAliasWrite (w : WriteReq) : Statement (.clearAliasWrite w) := fun _ _ h => nomatch h

theorem toggleAliasWrite (w : WriteReq) : Statement (.toggleAliasWrite w) := fun _ _ h => nomatch h

theorem mgmtWrite (frame : List Byte) (ns : Nat) : Statement (.mgmtWrite frame ns) := fun _ _ h => nomatch h

theorem mgmtRead (frame : List Byte) : Statement (.mgmtRead frame) := fun _ _ h => nomatch h

theorem mgmtStatus (frame : List Byte) : Statement (.mgmtStatus frame) := fun _ _ h => nomatch h

theorem statusClear (frame : List Byte) : Statement (.statusClear frame) := fun _ _ h => nomatch h

theorem totalLoRead (req : Requester) (off : Nat) : Statement (.totalLoRead req off) := fun _ _ h => nomatch h

theorem tapReset : Statement (.tapReset) := fun _ _ h => nomatch h

theorem extest (cells : List Bool) : Statement (.extest cells) := fun _ _ h => nomatch h

theorem idcode : Statement (.idcode) := fun _ _ h => nomatch h

theorem samplePreload (cells : List Bool) : Statement (.samplePreload cells) := fun _ _ h => nomatch h

theorem highz : Statement (.highz) := fun _ _ h => nomatch h

theorem clamp : Statement (.clamp) := fun _ _ h => nomatch h

theorem tapBypass : Statement (.tapBypass) := fun _ _ h => nomatch h

theorem dbgAccess (write : Bool) (off : Nat) (value : Word) (ns : Nat) : Statement (.dbgAccess write off value ns) := fun _ _ h => nomatch h

theorem halt (req : Requester) (targets ns : Nat) : Statement (.halt req targets ns) := fun _ _ h => nomatch h

theorem resume (req : Requester) (targets : Nat) : Statement (.resume req targets) := fun _ _ h => nomatch h

theorem stepEngine (req : Requester) (targets : Nat) : Statement (.stepEngine req targets) := fun _ _ h => nomatch h

theorem dbgCapArm (req : Requester) : Statement (.dbgCapArm req) := fun _ _ h => nomatch h

theorem dbgCapAbort (req : Requester) : Statement (.dbgCapAbort req) := fun _ _ h => nomatch h

theorem blockLockAcquire (lane : Nat) (syncs : List Nat) : Statement (.blockLockAcquire lane syncs) := fun _ _ h => nomatch h

theorem domainReady (domain : Nat) : Statement (.domainReady domain) := fun _ _ h => nomatch h

theorem startStepTimeout (inp : StartIn) : Statement (.startStepTimeout inp) := fun _ _ h => nomatch h

theorem lossOfVaon : Statement (.lossOfVaon) := fun _ _ h => nomatch h

theorem porstNAssert : Statement (.porstNAssert) := fun _ _ h => nomatch h

theorem hatchLinkUp (hatch : Fin 4) (cfg : LinkCfg) : Statement (.hatchLinkUp hatch cfg) := fun _ _ h => nomatch h

theorem mgmtUnknownCommand (frame : List Byte) : Statement (.mgmtUnknownCommand frame) := fun _ _ h => nomatch h

theorem trkBinRead (req : Requester) (word : Nat) : Statement (.trkBinRead req word) := fun _ _ h => nomatch h

theorem bar2Write (hatch : Fin 4) (off : Nat) : Statement (.bar2Write hatch off) := fun _ _ h => nomatch h

end Sys2Proof.Laws.NoWord
end

