-- ==== Sys2Proof/Tests/Slice0.lean ====
section
/-! SUPPORT. The model's own tests: ill-formed commands that WellFormed refuses, one state (or more) that meets the hypotheses
of each statement, clause by clause, and single commands whose results the manual gives. -/

set_option Elab.async false

namespace Sys2Proof.Tests

open Sys2Proof Sys2Proof.Machine

/-- A started and locked block in converter state c, at epoch 1000, every domain ready and the management port on. -/
def onS (c : Conv) : State :=
  { State.reset with
    sys := { epoch := 1000, counting := true, conv := c }
    ref := { state := .locked, muted := false }
    start := { powered := true, step := 10, state := .complete, aoNs := 1000000 }
    pwr := { ready := 2 ^ 50 - 1 } }

/-- The block in RUN. -/
def run : State := onS .run

theorem witness_StepRunsTheFront :
    { run with pending := [.kick 0, .chargeComplete] }.pending = .kick 0 :: [.chargeComplete] ∧ run.pending = [] := by
  decide +kernel

theorem witness_EpochEvents :
    (run.sys.counting = true ∧ run.start.state = .complete) ∧
    ({ State.reset with start := { powered := true } }.start.powered = true ∧ State.reset.sys.counting = false) ∧
    (run.regs.b = [] ∧ run.regs.c = [] ∧ (2 : Nat) < 3 ∧ (1 : Word) &&& keyMask (R.SYS_ARM_CFG 0) [.tv] ≠ 0 ∧ R.SYS_ARM_CFG 0 ≠ R.PRT_VOTE) ∧
    (run.sys.counting = true ∧ 12 < 14 ∧ bit run.sys.missNow 12 = false) := by decide +kernel

/-- CHARGE with the charge condition met for 256 epochs. -/
def charged : State := { onS .charge with sys := { (onS .charge).sys with chargeGood := 256 } }

/-- READY with the charge condition lost for 256 epochs and a RUN announced. -/
def uncharged : State :=
  { onS .ready with sys := { (onS .ready).sys with chargeBad := 256, announce := some ⟨1004, false, []⟩ } }

/-- CHARGE for 600 s, the value of CHARGE_TIMEOUT at reset. -/
def overdue : State := { onS .charge with sys := { (onS .charge).sys with chargeEp := 2343750000 } }

/-- READY at the epoch of an announced RUN. -/
def announced : State := { onS .ready with sys := { (onS .ready).sys with announce := some ⟨1000, false, []⟩ } }

theorem witness_ConverterTransitions :
    (charged.sys.conv = .charge ∧ 256 ≤ charged.sys.chargeGood ∧ charged.sys.moved = false) ∧
    (uncharged.sys.conv = .ready ∧ 256 ≤ uncharged.sys.chargeBad ∧ uncharged.sys.moved = false ∧ uncharged.runDue = false) ∧
    (overdue.sys.conv = .charge ∧ overdue.rf R.SYS_CONV_CFG 31 16 ≠ 0 ∧
      overdue.epOfMs (1000 * overdue.rf R.SYS_CONV_CFG 31 16) ≤ overdue.sys.chargeEp) ∧
    (announced.sys.announce = some ⟨1000, false, []⟩ ∧ epGe announced.sys.epoch 1000 = true ∧ announced.sys.moved = false) := by
  decide +kernel

theorem witness_EpochLoRead : run.serves .mgmt = true := by decide +kernel

/-- Input 1 over-ranged for four samples, input 2 open and clean for 64 epochs, input 3 in automatic gain and quiet, pair 4 with four
failed checks, pair 5 in failure with four passed ones. -/
def inputs : State :=
  { run.setReg (R.MFE_INCFG 3) 0x200 with
    mfe := {
      inputs := [(1, { overRun := 4 }), (2, { isOpen := true, cleanEp := 64 }), (3, { quiet := 255 })]
      pairs := [(4, { fails := 15 }), (5, { xfail := true, passes := 15 })] } }

theorem witness_SamplingAndDelivery :
    2 < 4 ∧ (inputs.rf (R.MFE_INCFG 3) 9 8 = 2 ∧ (inputs.input 3).gain8 = false ∧ inputs.rf R.MFE_AGC 15 8 ≤ (inputs.input 3).quiet) := by
  decide +kernel

theorem witness_InputFaults :
    (4 ≤ (inputs.input 1).overRun ∧ (inputs.input 1).isOpen = false) ∧ ((inputs.input 2).isOpen = true ∧ 64 ≤ (inputs.input 2).cleanEp) ∧
    ((smGet {} inputs.mfe.pairs 4).xfail = false ∧ inputs.xchkLimit ≤ (smGet {} inputs.mfe.pairs 4).fails) ∧
    ((smGet {} inputs.mfe.pairs 5).xfail = true ∧ inputs.xchkLimit ≤ (smGet {} inputs.mfe.pairs 5).passes) := by decide +kernel

/-- Comparator 2 armed on both sides; comparator 3 also fires the block path; comparator 4 latched, with AUTOCLR at the end of a ramp
period of one epoch; comparator 5 armed and latched. -/
def comparators : State :=
  let s := (((run.setReg (R.MFE_CMP_CFG 2) 0x19).setReg (R.MFE_CMP_CFG 3) 0x59).setReg (R.MFE_CMP_CFG 4) 0x99).setReg (R.MFE_CMP_RAMP 4) 0x10000
  let s := ((s.setReg (R.MFE_CMP_STAT 4) 0x80000000).setReg (R.MFE_CMP_CFG 5) 0x19).setReg (R.MFE_CMP_STAT 5) 0x80000000
  { s with mfe := { cmps := [(4, { armed := true, t := 1 })] } }

theorem witness_Comparators :
    (2 < 16 ∧ 511 < 512 ∧ comparators.cmpArmed 2 true = true ∧ (smGet {} comparators.mfe.cmps 2).out = false ∧
      comparators.cmpTested 2 = false ∧ comparators.rb (R.MFE_CMP_CFG 2) 6 = false ∧ comparators.rb (R.MFE_CMP_STAT 2) 31 = false) ∧
    (5 < 16 ∧ 0 < 512 ∧ comparators.cmpArmed 5 false = true ∧ (smGet {} comparators.mfe.cmps 5).out = false ∧
      comparators.cmpTested 5 = false ∧ comparators.rb (R.MFE_CMP_CFG 5) 6 = false ∧ comparators.rb (R.MFE_CMP_STAT 5) 31 = true) ∧
    (3 < 16 ∧ comparators.cmpArmed 3 true = true ∧ (smGet {} comparators.mfe.cmps 3).out = false ∧ comparators.cmpTested 3 = false ∧
      comparators.rb (R.MFE_CMP_CFG 3) 6 = true) ∧
    ((smGet {} comparators.mfe.cmps 4).armed = true ∧ comparators.rf (R.MFE_CMP_RAMP 4) 31 16 ≠ 0 ∧
      comparators.rf (R.MFE_CMP_RAMP 4) 31 16 ≤ (smGet {} comparators.mfe.cmps 4).t ∧
      comparators.rb (R.MFE_CMP_CFG 4) 7 = true ∧ (smGet {} comparators.mfe.cmps 4).out = false ∧
      comparators.clearable (R.MFE_CMP_STAT 4) 0x80000000 ≠ 0) := by decide +kernel

/-- A self-test of comparator 2 at its second epoch, encoders 1 and 2 enabled. -/
def testing : State := { ((onS .off).setReg (R.MFE_ENC_CFG 1) 1).setReg (R.MFE_ENC_CFG 2) 1 with mfe := { test := some ⟨2, 2, 2, [0, 0, 0], []⟩ } }

theorem witness_SelfTestsAndEncoders :
    (1 < 16 ∧ 7 < 64 ∧ (onS .off).mayWrite .mgmt R.MFE_TEST = true ∧ (onS .off).mfe.test = none ∧ (onS .off).testPermitted 1 7 = true) ∧
    (testing.mfe.test = some ⟨2, 2, 2, [0, 0, 0], []⟩ ∧ testDuration 2 ≤ 2) ∧
    (1 < 3 ∧ testing.rb (R.MFE_ENC_CFG 1) 0 = true ∧ testing.rb (R.MFE_ENC_CFG 0) 0 = false) ∧
    (2 < 3 ∧ testing.mayWrite .mgmt (R.MFE_ENC_REREF 2) = true ∧ testing.rb (R.MFE_ENC_CFG 2) 0 = true ∧
      (smGet {} testing.mfe.encs 2).illegal = false) := by decide +kernel

/-- Lanes 0 and 1 enabled and bridged at their far ends, each with two half-bridge units of group 0. -/
def twoLanes (c : Conv) : State :=
  let s := ((onS c).setReg (R.LNK_LANE_EN 0) 3).setReg (R.LNK_BRIDGE_EN 0) 1
  let s := s.setReg (R.SYS_CLASS_TYPE 1) 1
  { s with sys := { s.sys with map := [(0, 0x110), (1, 0x110), (8, 0x110), (9, 0x110)] } }

/-- A unit at home with a measured route. -/
def homeUnit : UnitSt := { status := .present, homed := true, oHome := 70000, dueHome := true }

/-- The two lanes with all four units present. -/
def present (c : Conv) : State :=
  { twoLanes c with lnk := { units := [(0, homeUnit), (1, homeUnit), (8, homeUnit), (9, homeUnit)] } }

/-- The two lanes in RUN with a frame of epoch 1001 in flight on lane 0, its return offset known and its receiver locked. -/
def flying : State :=
  let s := present .run
  { s with lnk := { s.lnk with lanes := [(0, { locked := true, returnOfs := some 3, inflight := [⟨1001, 0, [], [some 0, some 1]⟩] })] } }

/-- The frame in flight on a lane whose enable has been cleared. -/
def grounded : State := flying.setReg (R.LNK_LANE_EN 0) 2

/-- Lane 0 is the dark broken lane of its bridged pair. -/
def idling : State :=
  let s := present .run
  { s with lnk := { s.lnk with pairs := [(0, { state := .bridged, dark := true })] } }

/-- Lane 1 has launched its frame of the present epoch. -/
def launched : State :=
  let s := present .run
  { s with lnk := { s.lnk with lanes := [(1, { launchedAt := some 1000 })] } }

/-- The header of EPOCH 1001 on lane 0. -/
def headerIn : LineBlock := ⟨2, headerBlock 1001 0 0 0 0⟩

theorem witness_LaneFrames :
    ((present .run).laneActive 1 = true ∧ (present .run).launching = true ∧ (present .run).idleOnly 1 = false ∧
      ((present .run).lane 1).launchedAt ≠ some (present .run).sys.epoch ∧ ((present .run).lane 1).blockDue = false) ∧
    (idling.laneActive 0 = true ∧ idling.launching = true ∧ idling.idleOnly 0 = true) ∧
    (run.laneActive 1 = false ∧ { run with ref := { run.ref with muted := true } }.launching = false ∧
      launched.idleOnly 1 = false ∧ (launched.lane 1).launchedAt = some launched.sys.epoch) ∧
    ((flying.lane 0).inflight = [⟨1001, 0, [], [some 0, some 1]⟩] ∧ flying.headerAt 0 [] = none ∧ flying.delivering 0 = true) ∧
    ((grounded.lane 0).inflight = [⟨1001, 0, [], [some 0, some 1]⟩] ∧ grounded.headerAt 0 [] = none ∧ grounded.delivering 0 = false) ∧
    ((flying.headerAt 0 [headerIn]).isSome = true ∧ (flying.lane 0).svc = none) ∧
    (let f : Sent := ⟨1001, 0, [], [some 0, some 1]⟩
     flying.headerAt 0 [headerIn] = some 0 ∧ 1 < 8 ∧ f.homes.getD 1 none = some 1 ∧ ∀ j < 8, j ≠ 1 → f.homes.getD j none ≠ some 1) := by
  decide +kernel

/-- A burst of unit h for converter epoch j, of route generation r. -/
def burst (init h j r : Nat) : DWord := withCrc8 init (h * 2 ^ 22 + j % 64 * 2 ^ 16 + r * 2 ^ 12)

/-- Word 2 of a record whose word 1 is 0, with its LATE bit. -/
def auxWord (late : Bool) : DWord :=
  let body := b2n late * 2 ^ 5
  BitVec.ofNat 64 (body * 2 ^ 8 + crcBits 8 0x2F 0x5A (msbBits 64 0 ++ msbBits 56 body))

/-- The four words of a slot of unit h for converter epoch j. -/
def slotWords (h j r : Nat) (late : Bool) : List (Option DWord) :=
  [some (burst 0xFF h j r), some 0, some (auxWord late), some (burst 0xA5 h j r)]

theorem witness_LaneFrames_records :
    ((flying.shelf (1001 - 1)).sealedAt = none ∧ flying.cel.newest = none ∧ smFind (flying.shelf (1001 - 1)).recs 0 = none ∧
      0 ∉ (flying.shelf (1001 - 1)).got ∧ (flying.unit 0).bridged = false) ∧
    ((classifyBursts [] []).1 = .absent ∧ (classifyBursts [0, 0, 0, 0] (List.replicate 4 (some 0))).1 = .untouched ∧
      (classifyBursts [] ((slotWords 0 1000 0 false).take 3 ++ [some (burst 0xA5 1 1000 0)])).1 = .mismatch) ∧
    (let x := classifyBursts [] (slotWords 0 1000 0 false)
     x.1 = .full ∧ rec64 x.2 33 22 = 0 ∧ rec64 x.2 15 12 = (flying.unit 0).rgen ∧ auxOk 0 (auxWord false) = true ∧
      rec64 (auxWord false) 13 13 = 0 ∧ resolveSepoch 1001 (rec64 x.2 21 16) = 1001 - 1) ∧
    (auxOk 0 (auxWord true) = true ∧ rec64 (auxWord true) 13 13 = 1 ∧
      resolveSepoch 1001 (rec64 (classifyBursts [] (slotWords 0 999 0 false)).2 21 16) ≠ 1001 - 1) ∧
    (let x := classifyBursts [] ((slotWords 0 1000 0 false).take 1)
     x.1 = .singleA ∧ resolveSepoch 1001 (rec64 x.2 21 16) = 1001 - 1 ∧ ((slotWords 0 1000 0 false).take 1).getD 2 none = none) ∧
    ((classifyBursts [] (none :: (slotWords 1 1000 0 false).drop 1)).1 = .singleB ∧
      rec64 (classifyBursts [] (slotWords 1 1000 0 false)).2 33 22 ≠ 0 ∧
      rec64 (classifyBursts [] (slotWords 0 1000 5 false)).2 15 12 ≠ (flying.unit 0).rgen) := by decide +kernel

/-- Lane 0 with its receiver locked and no return offset. -/
def locked : State := { present .ready with lnk := { (present .ready).lnk with lanes := [(0, { locked := true })] } }

theorem witness_LaneLockAndLead :
    (locked.laneActive 0 = true ∧ (locked.lane 0).locked = true ∧ (locked.lane 0).returnOfs = none ∧
      (1001 : Epoch) = BitVec.ofNat 48 (rec64 headerIn.payload 55 40) ∧ headerFor headerIn 1001 = true ∧
      headerFor ⟨2, headerBlock 1002 0 0 0 0⟩ (1001 + 1) = true) ∧
    ((locked.lane 0).locked = true ∧ (List.replicate 16 0).length ≤ 64 ∧ 16 ≤ (List.replicate 16 0).countP (fun x => x ≠ 1 && x ≠ 2) ∧
      locked.laneActive 0 = true) ∧
    ((grounded.lane 0).locked = true ∧ grounded.laneActive 0 = false) ∧
    (64 ≤ (List.replicate 64 1).length ∧ ∀ x ∈ List.replicate 64 1, x = 1 ∨ x = 2) ∧
    (locked.sys.conv = .ready ∧ locked.lowestNew 0 = none ∧ locked.runPending = false ∧ (locked.leadTrim 0).isSome = true) := by
  decide +kernel

/-- A request of lane 0 outstanding since epoch 900, with no repeat made, or with all of them made. -/
def asking (tries : Nat) : State :=
  { present .ready with
    lnk := { (present .ready).lnk with lanes := [(0, { svc := some ⟨⟨.countersClear, 0, 5, 0⟩, 1, 900, tries⟩ })] } }

/-- Lane 0 with a probe outstanding since epoch 990. -/
def probing : State := { present .ready with lnk := { (present .ready).lnk with lanes := [(0, { probe := some ⟨1, 7, 990⟩ })] } }

theorem witness_ServiceDiscoveryProbes :
    (((asking 0).lane 0).svc = some ⟨⟨.countersClear, 0, 5, 0⟩, 1, 900, 0⟩ ∧
      epGe (asking 0).sys.epoch 900 = true ∧ (asking 0).rf R.LNK_SVC_CFG 15 8 ≤ ((asking 0).sys.epoch - 900).toNat ∧ 0 < (asking 0).rf R.LNK_SVC_CFG 3 0) ∧
    (((asking 15).lane 0).svc = some ⟨⟨.countersClear, 0, 5, 0⟩, 1, 900, 15⟩ ∧
      epGe (asking 15).sys.epoch 900 = true ∧ (asking 15).rf R.LNK_SVC_CFG 15 8 ≤ ((asking 15).sys.epoch - 900).toNat ∧ (asking 15).rf R.LNK_SVC_CFG 3 0 ≤ 15) ∧
    ((twoLanes .charge).lowestNew 0 = some 0 ∧ (twoLanes .charge).laneActive 0 = true ∧ (twoLanes .charge).discovering = true ∧
      ((twoLanes .charge).pair 0).state = .normal ∧ ((twoLanes .charge).lane 0).disc = none ∧
      ((twoLanes .charge).lane 0).discStopped = false ∧ (twoLanes .charge).belowPresent 0 0 = true) ∧
    ((present .run).probeTarget 1 = some (0, true) ∧ (present .run).laneActive 1 = true ∧ (present .run).launching = true ∧
      (present .run).idleOnly 1 = false ∧ (present .run).ref.state = .locked ∧ (present .run).sys.conv ≠ .off ∧
      ((present .run).lane 1).probe = none ∧ (present .run).probeFits 1 = true) ∧
    ((probing.lane 0).probe = some ⟨1, 7, 990⟩ ∧
      let echo : DWord := withCrc8 0x96 (0xE1 * 2 ^ 56 + 1 * 2 ^ 55 + 1 * 2 ^ 51 + 7 * 2 ^ 43 + 0 * 2 ^ 34)
      (⟨2, echo⟩ : LineBlock).sync = 2 ∧ ctlKind echo = .strikeSync ∧ rec64 echo 55 55 = 1 ∧ rec64 echo 54 51 = 1 ∧ rec64 echo 50 43 = 7 ∧ rec64 echo 42 34 = 0) ∧
    ((probing.lane 0).probe = some ⟨1, 7, 990⟩ ∧ 2 ≤ (probing.sys.epoch - 990).toNat) := by decide +kernel

/-- The two lanes in RUN with lane 0 dark for four frames, so that its units are cut off; lane 1 turns after its last unit and the bridge
is verified. -/
def broken : State :=
  let s := present .run
  { s with lnk := { s.lnk with lanes := [(0, { turns := [0, 0, 0, 0] }), (1, { turnPos := 1 })], pairs := [(0, { bridgeOk := true })] } }

/-- Unit 0 stale for 16 epochs, unit 1 unobserved and stale for 256, unit 8 with 64 epochs of STALE_ROUTE. -/
def staleUnits : State :=
  { twoLanes .run with
    lnk := { units := [(0, { homeUnit with staleRun := 16 }), (1, { homeUnit with status := .unobserved, staleRun := 256 }),
      (8, { homeUnit with staleRoute := 64, staleRgen := 15 })] } }

theorem witness_CutOffUnits :
    (0 ∈ broken.cutOffUnits 0 ∧ (broken.unit 0).hasHold = true ∧ (broken.unit 0).status = .present ∧ 8 ∉ broken.cutOffUnits 0) ∧
    (16 ≤ (staleUnits.unit 0).staleRun ∧ (staleUnits.unit 0).status = .present) ∧
    (256 ≤ (staleUnits.unit 1).staleRun ∧ (staleUnits.unit 1).status = .unobserved ∧ (staleUnits.eunit 1).byp.step = 0) ∧
    (64 ≤ (staleUnits.unit 8).staleRoute ∧ (staleUnits.unit 8).staleVia = false) := by decide +kernel

/-- A verification of pair 0 that waits in its step 2 since epoch 900, with unit 0 not moved and the pair bridged. -/
def verifying : State :=
  let s := present .ready
  { s with lnk := { s.lnk with action := some ⟨1, 0, 0, 0, 2, 900⟩, pairs := [(0, { state := .bridged })] } }

/-- CHARGE with unit 0 LOST and unit 1 not started, so that lane 1 discovers unit 1 through the bridge. -/
def blocked : State :=
  { twoLanes .charge with lnk := { units := [(0, { status := .lost }), (8, homeUnit), (9, homeUnit)] } }

theorem witness_BridgeVerification :
    (0 < 512 ∧ (present .ready).mayWrite .mgmt R.LNK_ACTION = true ∧ (present .ready).lnk.action = none ∧
      (present .ready).verifyAllowed 0 = true) ∧
    ((present .run).mayWrite .mgmt R.LNK_ACTION = true ∧ (present .run).verifyAllowed 0 = false ∧ verifying.lnk.action ≠ none) ∧
    (verifying.lnk.action = some ⟨1, 0, 0, 0, 2, 900⟩ ∧ 64 ≤ (verifying.sys.epoch - 900).toNat ∧
      (∃ p < verifying.stringLen 0, (verifying.unit (0 * 8 + p)).bridged = false) ∧ verifying.runPending = false ∧
      (verifying.pair 0).state = .bridged) ∧
    (blocked.discovering = true ∧ blocked.bridgeFitted (1 / 2) = true ∧ blocked.laneActive 1 = true ∧ blocked.lowestNew 1 = none ∧
      blocked.discBlocked (partner 1) = true ∧ (blocked.lane 1).disc = none ∧ (blocked.lane 1).discStopped = false ∧ (blocked.pair (1 / 2)).state = .normal ∧
      (blocked.pair (1 / 2)).found < blocked.stringLen (partner 1) ∧
      1 = partner 1 * 8 + (blocked.stringLen (partner 1) - 1 - (blocked.pair (1 / 2)).found) ∧ (blocked.unit 1).status = .notStarted) := by
  decide +kernel

/-- Pair 0 in a given state of R122 with lane 0 broken, unit 0 moved, the units named home again, GO asked. -/
def pairedHome (p : PairState) (home : List Nat) : State :=
  let s := present .run
  { s with lnk := { s.lnk with
      pairs := [(0, { state := p, h0 := 984, hbAt := 700, restoreRun := 4096, moved := [0], go := true, flapped := true, home := home })] } }

/-- The same with unit 0 not home. -/
def paired (p : PairState) : State := pairedHome p []

theorem witness_HandoverAndHandback :
    broken.handoverLane 0 = some 0 ∧
    (((paired .handover).pair 0).state = .handover ∧ 16 ≤ ((paired .handover).sys.epoch - ((paired .handover).pair 0).h0).toNat) ∧
    (0 < 512 ∧ (paired .bridged).mayWrite .mgmt R.LNK_HANDBACK = true ∧ (paired .bridged).handbackReady 0 = true ∧
      (paired .normal).handbackReady 0 = false) ∧
    ((paired .bridged).handbackReady 0 = true ∧ ((paired .bridged).pair 0).go = true ∧ 0 ∈ ((paired .bridged).pair 0).moved ∧
      ((paired .bridged).unit 0).status = .present ∧ 1 ∉ ((paired .bridged).pair 0).moved) ∧
    (((paired .handback).pair 0).state = .handback ∧ 0 = 0 / 16 ∧ 0 ∈ ((paired .handback).pair 0).moved ∧
      0 ∉ ((paired .handback).pair 0).home ∧ ((paired .handback).unit 0).bridged = false) ∧
    (let s := pairedHome .handback [0]
     (s.pair 0).state = .handback ∧ s.servingEven 0 = true ∧ ∀ h ∈ (s.pair 0).moved, h ∈ (s.pair 0).home) ∧
    (((paired .handback).pair 0).state = .handback ∧ ((paired .handback).pair 0).flapped = true) := by decide +kernel

/-- Lane 0 with three flaps in its history, and pair 0 bridged past its time limit. -/
def flapping : State :=
  let s := present .run
  { s with lnk := { s.lnk with
      lanes := [(0, { flaps := [990, 700, 400] })], pairs := [(0, { state := .bridged, limitEp := 2 ^ 40, moved := [0] })] } }

/-- READY with unit 0 LOST, and the management port's table address at lane 1, word 2, or at unit 8, word 6. -/
def readyLost (addr : Word) : State :=
  let s := (present .ready).setReg (ownKey .mgmt R.LNK_TBL_ADDR) addr
  { s with lnk := { s.lnk with units := [(0, { homeUnit with status := .lost }), (8, homeUnit)] } }

theorem witness_StringActions :
    (3 ≤ (flapping.lane 0).flaps.length ∧ (flapping.lane 0).quar = false) ∧
    ((flapping.pair 0).state = .bridged ∧ (flapping.pair 0).expired = false ∧ (flapping.pair 0).retire = false ∧
      flapping.epOfMs (1000 * clampNat 1 3600 (flapping.rf R.LNK_BRIDGE_LIMIT 11 0)) ≤ (flapping.pair 0).limitEp) ∧
    (0 < 512 ∧ (readyLost 0).mayWrite .mgmt R.LNK_ACTION = true ∧ (readyLost 0).lnk.action = none ∧ (readyLost 0).sys.conv = .ready ∧
      ((readyLost 0).unit 0).status = .lost ∧ (readyLost 0).runPending = false ∧ flapping.sys.conv ≠ .ready ∧ flapping.sys.conv ≠ .charge) ∧
    ((readyLost 0x80080006).serves .mgmt = true ∧ (readyLost 0x80080006).reg (ownKey .mgmt R.LNK_TBL_ADDR) = 0x80080006 ∧
      flag (0x80080006 : Word) 31 = true ∧ fld (0x80080006 : Word) 4 0 ≤ 6 ∧ (readyLost 0).domain (fld (0x80080006 : Word) 27 16 / 128) = true) ∧
    (flag (0x00010018 : Word) 31 = false ∧ fld (0x00010018 : Word) 27 16 ≤ 511 ∧ fld (0x00010018 : Word) 4 0 ≤ 24 ∧
      (readyLost 0).domain (fld (0x00010018 : Word) 27 16 / 16) = true) ∧
    (flag (0x02000019 : Word) 31 = false ∧ 511 < fld (0x02000019 : Word) 27 16) := by decide +kernel

/-- READY with a Crate whose header run is not over. -/
def runsHeaders : State :=
  let s := present .ready
  { s with cel := { crates := [(0, { state := .committing, id := 1, eff := some 1004, runAt := some 1000 })] } }

theorem witness_StringActions_waiting :
    runsHeaders.sys.conv = .ready ∧ runsHeaders.runPending = true ∧ runsHeaders.lnk.action = none ∧ runsHeaders.mayWrite .mgmt R.LNK_ACTION = true ∧
    (present .ready).runPending = false ∧ ((present .ready).leadTrim 0).isSome = true := by decide +kernel

/-- RUN with Shelf 998 the newest and Shelf 999 the next to seal, 255 corrected errors in row 5 of bank 0, and the spare rows of bank 0
used up. -/
def sealing : State :=
  { run with cel := { newest := some 998, rowErrs := [(5, List.replicate 255 1000)] }, regs := { a := [(R.CEL_SPARE, 32)] } }

/-- A request for two addresses of the Shelf of an epoch. -/
def snapReq (epoch : Epoch) : SnapReq := ⟨⟨0, 0, 0, 7, false⟩, ⟨false, true, false, epoch, 2, 0, 0⟩⟩

/-- The sealed Shelf 998 with a request at the head of the snapshot queue of Hatch 0. -/
def snapping (credit : Nat) (epoch : Epoch) : State :=
  { run with cel := { newest := some 998, snaps := [(0, { credit := credit, queue := [snapReq epoch] })] } }

/-- The same while a copy fills the other half. -/
def copying : State :=
  { run with cel := { newest := some 998, snaps := [(0, { queue := [snapReq 997], copying := some (snapReq 998)
                                                          other := some ⟨998, 0, 0, 2, false, 1, 0, [], []⟩ })] } }

theorem witness_CellarPasses :
    (sealing.sys.counting = true ∧ sealing.domain 32 = true ∧ bit sealing.sys.missNow 12 = false ∧
      sealing.nextSeal = sealing.sys.epoch - 1 ∧ sealing.lanesMissing (sealing.sys.epoch - 1) = []) ∧
    (0 < 4 ∧ 5 = 0 * 2 ^ 20 + 5 ∧ sealing.rf R.CEL_ECC_CFG 7 0 ≤ sealing.rowErrors 5 ∧ sealing.cel.marks.contains 5 = false ∧
      sealing.cel.repaired.contains 5 = false ∧ 32 ≤ sealing.spareUsed 0) ∧
    (((snapping 163840 998).snap 0).queue = [snapReq 998] ∧ ((snapping 163840 998).snap 0).copying = none ∧
      (snapping 163840 998).snapTurn 0 (snapReq 998).args = .copy 998 ∧ (snapping 5 998).snapTurn 0 (snapReq 998).args = .wait ∧
      (snapping 163840 100).snapTurn 0 (snapReq 100).args = .gone ∧ (snapping 163840 1100).snapTurn 0 (snapReq 1100).args = .badArg) ∧
    ((copying.snap 0).copying = some (snapReq 998) ∧ (copying.snap 0).other.isSome = true) ∧
    run.mayWrite .mgmt R.CEL_CTR_CLEAR = true := by decide +kernel

/-- The present units with Crate slot 2 as given. -/
def crated (c : Crate) : State := { present .run with cel := { newest := some 998, crates := [(2, c)] } }

/-- A gate part of unit 0 whose only item was sent at epoch 900. -/
def gate : GatePart := { home := 0, items := [⟨1, 5⟩], lastSent := some 900 }

theorem witness_CrateDecisions :
    (let s := crated { state := .staging, id := 9, closedAt := 999 }
     (s.crate 2).state = .staging ∧ (s.crate 2).stagedAt = none ∧ epGe s.sys.epoch ((s.crate 2).closedAt + 1) = true) ∧
    (let s := crated { state := .staging, id := 9, stagedAt := some 990 }
     (s.crate 2).state = .staging ∧ (s.crate 2).stagedAt.isSome = true ∧ (s.crate 2).abortOutcome = none ∧
      (∀ g ∈ (s.crate 2).gates, g.acked = true) ∧ (s.crate 2).gates = [] ∧ ∀ j < 4, (s.crate j).runAt = none) ∧
    (let s := crated { state := .staging, id := 9, stagedAt := some 990, gates := [{ gate with acked := true }] }
     (s.crate 2).abortOutcome = none ∧ (∀ g ∈ (s.crate 2).gates, g.acked = true) ∧ (s.crate 2).gates ≠ [] ∧
      1013 = s.runFree 4 (s.sys.epoch + 1 + BitVec.ofNat 48 (s.leadMax + s.crateExtra))) ∧
    (let s := crated { state := .staging, id := 9, stagedAt := some 890, gates := [gate] }
     (s.crate 2).gates = [gate] ∧ gate.lastSent = some 900 ∧ gate.acked = false ∧ gate.nacked = false ∧ 64 ≤ (s.sys.epoch - 900).toNat) ∧
    (let s := crated { state := .staging, id := 9, stagedAt := some 990, gates := [{ gate with nacked := true }] }
     (s.crate 2).state = .staging ∧ (s.crate 2).abortOutcome = some 4 ∧ (s.crate 2).gates ≠ [] ∧ ∀ j < 4, (s.crate j).runAt = none) ∧
    (let s := crated { state := .staging, id := 9, abortAsked := true }
     (s.crate 2).abortOutcome = some 6 ∧ (s.crate 2).gates = []) ∧
    (let s := crated { state := .aborting, id := 9, gates := [gate], eff := some 997 }
     (s.crate 2).state = .aborting ∧ (s.crate 2).eff = some 997 ∧
      epGe s.sys.epoch (if (s.crate 2).gates = [] then 997 else 997 + 3) = true) := by decide +kernel

theorem witness_CrateEffects :
    (let s := crated { state := .committing, id := 9, eff := some 999, devs := [⟨7, 1, 0x110⟩] }
     (s.crate 2).state = .committing ∧ (s.crate 2).eff = some 999 ∧ epGe s.sys.epoch (999 + 1) = true) ∧
    (let s := crated { state := .committing, id := 9, eff := some 1000 }
     (s.crate 2).eff = some 1000 ∧ epGe s.sys.epoch (1000 + 1) = false) ∧
    (let s := crated { state := .verifying, id := 9, eff := some 990, verified := some 999, gates := [gate] }
     (s.crate 2).state = .verifying ∧ (s.crate 2).verified = some 999 ∧ epGe s.sys.epoch (999 + 1) = true ∧
      (s.crate 2).gates.all GatePart.applied = false) ∧
    (let s := { crated { state := .building, id := 9, openedAt := 0 } with
        sys := { (present .run).sys with epoch := 200000000 } }
     (s.crate 2).state = .building ∧ 1024 * max 1 (s.rf R.CEL_CRATE_CFG 31 16) ≤ (s.sys.epoch - (s.crate 2).openedAt).toNat) ∧
    (let s := crated { state := .done, id := 9, doneAt := 999, outcome := 8 }
     (s.crate 2).state = .done ∧ (s.crate 2).closeRef = none ∧ (s.crate 2).doneAt ≠ s.sys.epoch) ∧
    (let s := crated { state := .done, id := 9, doneAt := 999, outcome := 1, closeRef := some ⟨1, 0, 3, 5, true⟩ }
     (s.crate 2).state = .done ∧ (s.crate 2).closeRef = some ⟨1, 0, 3, 5, true⟩ ∧ (s.crate 2).doneAt ≠ s.sys.epoch) ∧
    (let s := { crated { state := .done, id := 9, doneAt := 1000, closeRef := some ⟨1, 0, 3, 5, true⟩ } with
        hats := [(1, { cr := [(0, { enable := true })] })] }
     (s.crate 2).closeRef = some ⟨1, 0, 3, 5, true⟩ ∧ s.takesCompletion ⟨1, 0, 3, 5, true⟩ = true) := by decide +kernel

/-- The present units with the grid engine as given. -/
def grid (g : GrdSt) : State := { present .run with grd := g }

theorem witness_EnginePasses :
    (run.sys.counting = true ∧ bit run.sys.missNow 0 = false ∧ run.itemHalted 0 = false ∧
      (grid { tag := some 998 }).grd.tag = some 998) ∧
    ({ run with dbg := { halted := 1023 } }.itemHalted 0 = true) ∧
    (bit run.sys.missNow 1 = false ∧ run.itemHalted 1 = false) ∧ (bit run.sys.missNow 13 = false ∧ run.itemHalted 13 = false) ∧
    (6 < 7 ∧ bit run.sys.missNow (armItem 6) = false ∧ run.itemHalted (armItem 6) = false) ∧
    ((present .run).sys.counting = true ∧ bit (present .run).sys.missNow 8 = false ∧ (present .run).itemHalted 8 = false ∧
      0 ∈ (present .run).orderUnits 0) := by decide +kernel

/-- The grid engine's configuration valid. -/
def gridded (g : GrdSt) : State := grid { g with tag := some 999, badcfg := 0 }

/-- The end of ROCOF window 1, the means of window 0 known, with the grid pass of its last epoch done. -/
def window : State :=
  let s := gridded { winNo := some 1, winSum := 102400, winCount := 1024, lastMean := some (0, 50) }
  let e := BitVec.ofNat 48 (2 * s.rocofN)
  { s with sys := { s.sys with epoch := e }, grd := { s.grd with tag := some (e - 1) } }

/-- The last window before E wraps, at an epoch after the wrap. -/
def wrapped : State :=
  let s := gridded { winCount := 1024 }
  let w := 2 ^ 48 / s.rocofN - 1
  { s with grd := { s.grd with winNo := some w, lastMean := some (w - 1, 50) } }

theorem witness_GridObserver :
    (let s := gridded { obs := .unlocked, lockRun := 65535 }
     s.grd.obs = .unlocked ∧ bit s.grd.badcfg 0 = false ∧ max 1 (s.rf R.GRD_TIME0 31 16) ≤ s.grd.lockRun) ∧
    (let s := gridded { obs := .locked, losRun := 65535 }
     s.grd.obs = .locked ∧ s.grd.gfm = false ∧ max 1 (s.rf R.GRD_TIME0 15 0) ≤ s.grd.losRun ∧ s.sys.conv ≠ .off ∧ bit s.grd.raised 0 = false) ∧
    (let s := gridded { obs := .freewheel, fwAt := 2000 }
     s.grd.obs = .freewheel ∧ s.grd.tag = some 999 ∧ s.epOfMsNear (s.rf R.GRD_TIME5 15 0) ≤ (999 + 1 - s.grd.fwAt).toNat) ∧
    (window.grd.winNo = some 1 ∧ window.sys.epoch.toNat / window.rocofN ≠ 1 ∧
      window.sys.epoch = BitVec.ofNat 48 ((1 + 1) * window.rocofN - 1) + 1 ∧
      window.grd.tag = some (BitVec.ofNat 48 ((1 + 1) * window.rocofN - 1)) ∧
      window.grd.lastMean = some (0, 50) ∧ (0 + 1) % (2 ^ 48 / window.rocofN) = 1 ∧
      { window with grd := { window.grd with lastMean := none } }.grd.lastMean = none) ∧
    (let w := 2 ^ 48 / wrapped.rocofN - 1
     wrapped.grd.winNo = some w ∧ wrapped.sys.epoch.toNat / wrapped.rocofN ≠ w ∧
      wrapped.sys.epoch ≠ BitVec.ofNat 48 ((w + 1) * wrapped.rocofN - 1) + 1 ∧ wrapped.grd.lastMean = some (w - 1, 50) ∧
      (w - 1 + 1) % (2 ^ 48 / wrapped.rocofN) = w) := by decide +kernel

/-- Curve 2 activated by level after its hold, with configuration w. -/
def curved (w : Word) : State :=
  (gridded { frt := .fault, curves := [(2, { run := 255, violRun := 255 })] }).setReg (curveKey 2 0 R.GRD_CRV_CFG) w

theorem witness_RideThroughAndCurves :
    (let s := gridded { frtInRun := 65535 }
     s.frtRuns = true ∧ s.grd.frt ≠ .fault ∧ max 1 (s.rf R.GRD_TIME1 31 16) ≤ s.grd.frtInRun ∧ s.grd.tag = some 999) ∧
    (let s := gridded { frt := .fault, frtOutRun := 65535 }
     s.frtRuns = true ∧ s.grd.frt = .fault ∧ max 1 (s.rf R.GRD_TIME1 15 0) ≤ s.grd.frtOutRun) ∧
    (let s := gridded { frt := .fault, frtAt := 2000 }
     s.grd.frt = .fault ∧ s.grd.tag = some 999 ∧ s.epOfMsNear (s.rf R.GRD_TIME2 31 16) ≤ (999 + 1 - s.grd.frtAt).toNat ∧
      bit s.grd.raised 4 = false) ∧
    (run.mayWrite .mgmt R.GRD_ACTION = true ∧ run.grd.act = none) ∧
    (1 ≤ fld ((curved 0x01010000).crvCfg 2 (curved 0x01010000).crvBank) 26 24 ∧
      fld ((curved 0x01010000).crvCfg 2 (curved 0x01010000).crvBank) 26 24 ≤ 4 ∧
      fld ((curved 0x01010000).crvCfg 2 (curved 0x01010000).crvBank) 17 16 = 1 ∧
      (curved 0x01010000).crvHold 2 ≤ (smGet {} (curved 0x01010000).grd.curves 2).run) ∧
    ((curved 0x05000000).grd.frt ≠ .normal ∧ 5 ≤ fld ((curved 0x05000000).crvCfg 2 (curved 0x05000000).crvBank) 26 24 ∧
      (curved 0x05000000).crvHold 2 ≤ (smGet {} (curved 0x05000000).grd.curves 2).violRun ∧ bit (curved 0x05000000).grd.raised 6 = false) := by
  decide +kernel

/-- Pulse detection enabled with its threshold set, the pulses as given. -/
def pulsing (p : PulseSt) : State := ((gridded { pulse := p }).setReg R.GRD_CFG 1).setReg (R.GRD_PAR 28) 0x3F800000

theorem witness_IslandDetection :
    (let s := (gridded { islV := 2 ^ 30 }).setReg R.GRD_CFG 2
     s.islRuns = true ∧ s.islConfirmed ≠ 0 ∧ bit s.grd.raised 2 = false) ∧
    (let s := { pulsing { base := some 0 } with sys := { (pulsing {}).sys with epoch := 2 ^ 40 } }
     s.grd.pulse.base = some 0 ∧ s.pulseRuns = true ∧ s.grd.pulse.on_ = false ∧ s.pulsePer ≤ (s.sys.epoch - 0).toNat) ∧
    (let s := pulsing { base := some 1000 }
     s.grd.pulse.base = some 1000 ∧ s.grd.pulse.on_ = false ∧ (s.sys.epoch - 1000).toNat < s.pulsePer) ∧
    (let s := { gridded { pulse := { on_ := true, at_ := 0, aCount := 1953, bCount := 1953 } } with sys := { (pulsing {}).sys with epoch := 2 ^ 40 } }
     s.grd.pulse.on_ = true ∧ s.pulseW ≤ (s.sys.epoch - s.grd.pulse.at_).toNat ∧ s.pulseRuns = false ∧ 0 < s.pulseW / 4 ∧
      s.grd.pulse.discard = false ∧
      s.pulseW / 4 = 1953 ∧ s.grd.pulse.bCount = 1953 ∧ s.grd.pulse.aCount = 1953) := by decide +kernel

theorem witness_GridFormingActions :
    (run.mayWrite .mgmt R.GRD_ACTION = true ∧ run.grd.act = none ∧ run.grd.gfm = false ∧ run.sys.conv = .run ∧
      (grid { act := some .toGfl, gfm := true }).grd.act ≠ none ∧
      (grid { gfm := true }).grd.gfm = true ∧ (grid { gfm := true }).grd.act = none) ∧
    (let s := gridded { act := some .toGfl, gfm := true, resync := true }
     s.grd.act = some .toGfl ∧ s.grd.gfm = true ∧ s.grd.resync = true ∧ s.grd.frt = .normal) := by decide +kernel

/-- The Control Engines as given, in RUN. -/
def ctl (c : CtlSt) : State := { run with ctl := c }

theorem witness_StopRampAndChecks :
    ((ctl { stopping := some 0, rampZero := true }).ctl.stopping.isSome = true ∧
      (ctl { stopping := some 0, rampZero := true }).ctl.rampZero = true) ∧
    (let s := { ctl { stopping := some 0 } with sys := { run.sys with epoch := 2 ^ 40 } }
     s.ctl.stopping = some 0 ∧ s.epOfMs (max 1 (s.rf R.CTL_STOP 31 16)) ≤ (s.sys.epoch - 0).toNat ∧ s.ctl.rampDone = false) ∧
    (4 < 5 ∧ ((ctl { checks := [(4, { ended := some (true, [1], [1]) })] }).plaus 4).ended = some (true, [1], [1])) ∧
    (let s := (ctl { checks := [(4, { ended := some (false, [5], [0]) })] }).setReg (R.CTL_PL_TOL_ABS 4) 0
     (s.plaus 4).ended = some (false, [5], [0]) ∧ (true = true ↔ ∃ k < [(5 : Rat)].length, s.plausTol 4 ([(0 : Rat)].getD k 0) < ([(5 : Rat)].getD k 0).abs) ∧
      (s.plaus 4).fail = false) ∧
    (max 1 ((run.setReg (R.CTL_PL_CFG 4) 0x100).rf (R.CTL_PL_CFG 4) 11 8) = 1) ∧
    (let s := (ctl { checks := [(4, { ended := some (false, [0], [0]) })] }).setReg (R.CTL_PL_TOL_ABS 4) 0
     (s.plaus 4).ended = some (false, [0], [0]) ∧ (false = true ↔ ∃ k < [(0 : Rat)].length, s.plausTol 4 ([(0 : Rat)].getD k 0) < ([(0 : Rat)].getD k 0).abs)) ∧
    (7 < 8 ∧ run.mayWrite .mgmt R.CTL_ACTION = true) := by decide +kernel

/-- A capture in a given state that has been triggered, its four channels empty. -/
def capture (c : CapState) : State := ctl { cap := { state := c, hit := true, samples := [[], [], [], []] } }

theorem witness_GeneratorsAndCapture :
    (3 < 4 ∧ run.regs.pend = [] ∧ run.mayWrite .mgmt (R.CTL_GEN_CTRL 3) = true ∧ (onS .ready).gensAct = true ∧ run.gensAct = false ∧
      (run.setReg (R.CTL_GEN_CFG 3) 0).gensAct = false ∧ (run.setReg (R.CTL_GEN_CFG 3) 0).rf (R.CTL_GEN_CFG 3) 3 2 ≠ 3 ∧
      ((ctl { gens := [(3, { running := true })] }).gen 3).running = true ∧ (run.gen 3).running = false) ∧
    (run.mayWrite .mgmt R.CTL_CAP_CTRL = true ∧ run.ctl.cap.state = .idle ∧ (capture .armed).ctl.cap.state = .armed ∧
      (capture .wait).ctl.cap.state = .wait ∧ (capture .aborted).ctl.cap.state = .aborted) ∧
    ((capture .armed).ctl.cap.state = .armed ∧ (capture .armed).ctl.cap.hit = true ∧ fld (capture .armed).ctl.cap.cfg 2 0 = 0) ∧
    (let s := ctl { cap := { state := .triggered, samples := [List.replicate 4096 0] } }
     s.ctl.cap.state = .triggered ∧ 4096 ≤ (s.ctl.cap.samples.headD []).length) := by decide +kernel

/-- The present units with the Edge Planner's view of unit 0 as given, and the same in READY. -/
def planned (u : EUnit) : State := { present .run with edg := { units := [(0, u)] } }

/-- Unit 0 with a profile check at the head of its work. -/
def checking : State := planned { prof := { begun := true, todo := [.check true 3, .check false 1] } }

theorem witness_ProfilesAndForces :
    (checking.holdsProfiles 0 = true ∧ (checking.unit 0).hasHold = true ∧ (checking.eunit 0).prof.begun = true ∧
      (checking.eunit 0).prof.todo = .check true 3 :: [.check false 1] ∧ (checking.eunit 0).prof.asked = false) ∧
    (0 < 4096 ∧ 2 < 4 ∧ (present .ready).mayWrite .mgmt R.EDG_FORCE = true ∧
      ¬ ((present .ready).sys.conv = .run ∧ (present .ready).commission = false) ∧ 2 ≠ 0 ∧
      (present .ready).classType (mapClass ((present .ready).mapEntry 0)) ≠ 3 ∧ ((present .ready).unit 0).status = .present ∧
      (present .ready).bypassing 0 = false ∧ (present .ready).forces.length < 64) ∧
    ((present .run).sys.conv = .run ∧ (present .run).commission = false) ∧
    (let s := { present .ready with edg := { units := (List.range 64).map (fun i => (100 + i, { force := 1 })) } }
     (s.unit 0).status = .present ∧ s.bypassing 0 = false ∧ 64 ≤ s.forces.length ∧ (s.eunit 0).force = 0 ∧
      (s.unit 2).status ≠ .present ∧ (s.unit 2).status ≠ .unobserved ∧ s.classType (mapClass (s.mapEntry 2)) ≠ 3) ∧
    (4095 < 4096 ∧ (planned { force := 2 }).mayWrite .mgmt R.EDG_FORCE = true) := by decide +kernel

/-- Unit 0, unobserved or lost, in a bypass sequence as given, with no record in the newest Shelf or with one. -/
def bypassed (st : UStat) (b : BypSt) (recs : SMap Entry) : State :=
  { present .run with
    lnk := { units := [(0, { homeUnit with status := st, ident := [0, 0, 0, 0, 0, 0, 0] })] }
    edg := { units := [(0, { byp := b })], orders := [(0, { c := some 1013 })] }
    cel := { newest := some 998, shelves := [(998, { recs := recs })] } }

/-- A record of a unit in state 0. -/
def record : Entry := ⟨0, 0, 0, 998, 998, false, false, false, false, false, false⟩

theorem witness_BypassSequence :
    (0 < 4096 ∧ (bypassed .unobserved {} []).mayWrite .mgmt R.EDG_BYPASS = true ∧ ((bypassed .unobserved {} []).unit 0).status = .unobserved ∧
      (bypassed .unobserved {} []).entry 0 = none ∧ ((bypassed .unobserved {} []).eunit 0).byp.step = 0 ∧
      (bypassed .unobserved { step := 1 } []).bypassing 0 = true) ∧
    (let s := (bypassed .present {} [(0, record)]).setReg (R.SYS_ARM_CFG 0) 1
     s.healthy 0 = true ∧ s.bypassing 0 = false ∧ s.healthyCount (mapGroup (s.mapEntry 0)) ≤ s.nReq (mapGroup (s.mapEntry 0)) ∧
      (s.unit 0).status = .present ∧ ((bypassed .notStarted {} []).unit 0).status = .notStarted) ∧
    (let s := bypassed .present {} []
     (s.unit 0).status = .present ∧ (∀ e ∈ s.entry 0, e.state ≠ 3) ∧ (s.eunit 0).byp.step = 0 ∧ s.healthy 0 = false) ∧
    ((bypassed .lost {} []).entry 0 = none ∧ ((bypassed .lost {} []).unit 0).status = .lost) ∧
    (let s := bypassed .present { step := 3, j := some 1011 } [(0, record)]
     (s.eunit 0).byp.j = some 1011 ∧ (smGet {} s.edg.orders 0).c = some 1013 ∧ (s.eunit 0).byp.step = 3 ∧
      2 ≤ ((1013 : Epoch) - 1011).toNat ∧ ((1013 : Epoch) - 1011).toNat ≤ 4 ∧ 1013 = s.planEpoch 0 ∧ bit s.sys.missNow 8 = false ∧
      s.coversFire 0 = true) ∧
    (let s := bypassed .present { step := 4, f := some 900, tries := 7 } [(0, record)]
     (s.eunit 0).byp.f = some 900 ∧ s.cel.newest = some 998 ∧ (s.eunit 0).byp.step = 4 ∧ (s.unit 0).status ≠ .lost ∧
      (∀ e ∈ s.entry 0, e.state ≠ 3) ∧ epGe 998 900 = true ∧ 64 ≤ ((998 : Epoch) - 900).toNat ∧
      max 1 (s.rf R.EDG_CFG 30 28) ≤ (s.eunit 0).byp.tries + 1) ∧
    (let s := bypassed .present { step := 4, f := some 900 } [(0, record)]
     (s.eunit 0).byp.tries + 1 < max 1 (s.rf R.EDG_CFG 30 28)) ∧
    (let s := bypassed .lost { step := 2, retryAt := some 700 } []
     (s.eunit 0).byp.retryAt = some 700 ∧ (s.unit 0).status = .lost ∧ s.bypassing 0 = true ∧ s.sys.conv ≠ .off ∧
      256 ≤ (s.sys.epoch - 700).toNat) := by decide +kernel

/-- RUN with DC current on input 0 at its limit, the limit being 0, and source 18 at its reset class. -/
def overcurrent : State := ((run.setReg (R.MFE_INCFG 0) 15).setReg (R.PRT_LIM 2) 0).setReg (R.MFE_VAL 0) 0x10000064

theorem witness_ProtectionPasses :
    (9 = (if true then 9 else 10) ∧ (onS .off).sys.counting = true ∧ bit (onS .off).sys.missNow 9 = false ∧
      (onS .off).itemHalted 9 = false ∧ (onS .off).sys.conv = .off ∧ (onS .off).prt.episode = none) ∧
    (overcurrent.sys.conv ≠ .off ∧ (overcurrent.prtRole false 15).isSome = true ∧
      (∀ q ∈ overcurrent.prtRole false 15, overcurrent.prtLim false 2 ≤ q.abs) ∧ 4 ≤ overcurrent.srcClass 18) ∧
    (let s := { run with prt := { abDisc := true, b := { done := true }, disc := [(18, 255)] } }
     s.prt.abDisc = true ∧ s.sys.conv ≠ .off ∧ (s.view (!true)).done = true) ∧
    (let s := { run with prt := { disc := [(18, 255)] } }.setReg (R.PRT_SRC_CFG 56) 0x40000000
     s.prt.abDisc = false ∧ s.sys.conv ≠ .off ∧ (18, 255) ∈ s.prt.disc ∧ max 1 (s.rf R.PRT_DISC 7 0) ≤ 255 ∧ 4 ≤ s.srcClass 56 ∧
      s.prt.a.raised.contains 56 = false ∧ s.prt.b.raised.contains 56 = false) ∧
    (let s := { run with prt := { dev := [(32, some ⟨1, 0⟩)], a := { raised := [32], degrade := [(32, 2 ^ 40)] } } }
     32 < 72 ∧ s.devRaised.contains 32 = true ∧ (s.view true).raised.contains 32 = true ∧ s.rf (R.PRT_SRC_CFG 32) 30 28 = 3 ∧
      s.prt.esc.contains 32 = false ∧ s.degLimitEp 32 ≤ (s.view true).degTimer 32 ∧
      (s.setReg (R.PRT_SRC_CFG 32) 0x3A001000).rf (R.PRT_SRC_CFG 32) 27 25 = 5 ∧
      (s.setReg (R.PRT_SRC_CFG 32) 0x38001000).rf (R.PRT_SRC_CFG 32) 27 25 = 4) ∧
    (let s := { run with prt := { dev := [(32, some ⟨3, 0⟩)], a := { raised := [32], degrade := [(32, 2 ^ 40)] }
                                  esc := [32], escNow := [(32, false)] } }
     s.devRaised.contains 32 = true ∧ (s.view true).raised.contains 32 = true ∧ s.rf (R.PRT_SRC_CFG 32) 30 28 = 3 ∧
      s.degLimitEp 32 ≤ (s.view true).degTimer 32 ∧ s.prt.esc.contains 32 = true ∧ s.prt.escNow.contains (32, !true) = true ∧
      s.prt.escNow.contains (32, true) = false) ∧
    (let s := { run with prt := { esc := [32], b := { recover := [(32, some 990)], tag := some 999 } } }
     smGet none (s.view false).recover 32 = some 990 ∧ (s.view false).tag = some (s.sys.epoch - 1) ∧ epGe s.sys.epoch 990 = true ∧ s.prt.a.raised.contains 32 = false ∧
      s.prt.b.raised.contains 32 = false ∧ smGet none (s.view true).recover 32 = none) ∧
    (let s := { run with prt := { esc := [32], a := { raised := [32], recover := [(32, some 990)] } } }
     smGet none (s.view true).recover 32 = some 990 ∧ s.prt.a.raised.contains 32 = true) := by decide +kernel

/-- HOLD with an episode since epoch 0 and nothing raised, at an epoch past every time limit. -/
def holding : State :=
  { onS .hold with
    sys := { (onS .hold).sys with epoch := 2 ^ 40 }
    prt := { episode := some 0, holdAt := some 0, a := { permit := true }, b := { permit := true }, trips := [(1, some 0)] } }

/-- The same with AUTO_RESUME, the permits of A as given and RECOVERED set or not. -/
def resuming (permit done : Bool) : State :=
  let s := holding.setReg R.SYS_CONV_CFG 2
  { s with prt := { s.prt with a := { permit := permit }, recDone := done } }

theorem witness_EpisodeEnd :
    (holding.recovered = true ∧ holding.sys.moved = false ∧ holding.sys.announce = none ∧ holding.prt.recDone = false ∧
      (holding.setReg R.SYS_CONV_CFG 0).rb R.SYS_CONV_CFG 1 = false ∧ (holding.setReg R.SYS_CONV_CFG 0).recovered = true) ∧
    (let s := resuming true false
     s.recovered = true ∧ s.sys.moved = false ∧ s.sys.announce = none ∧ s.rb R.SYS_CONV_CFG 1 = true ∧ s.prt.recDone = false ∧
      s.prt.a.permit = true ∧ s.prt.b.permit = true) ∧
    ((resuming false false).recovered = true ∧ (resuming false false).prt.recDone = false ∧
      ((resuming false false).prt.a.permit && (resuming false false).prt.b.permit) = false) ∧
    ((resuming false true).recovered = true ∧ (resuming false true).rb R.SYS_CONV_CFG 1 = true ∧ (resuming false true).prt.recDone = true ∧
      ((resuming false true).prt.a.permit && (resuming false true).prt.b.permit) = false) ∧
    (holding.prt.episode = some 0 ∧ holding.prt.holdTimeoutDone = false ∧
      holding.epOfMs (10 * max 1 (holding.rf R.PRT_HOLD 31 16)) ≤ (holding.sys.epoch - 0).toNat) ∧
    { run with prt := { holdTimeoutDone := true } }.prt.holdTimeoutDone = true ∧
    (let s := holding.setReg (R.PRT_TRIP_CFG 1) 0x40010000
     1 < 4 ∧ smGet none s.prt.trips 1 = some 0 ∧ s.rb (R.PRT_TRIP_CFG 1) 30 = true ∧
      s.epOfMs (10 * max 1 (s.rf (R.PRT_TRIP_CFG 1) 23 16)) ≤ (s.sys.epoch - 0).toNat) ∧
    (run.setReg (R.PRT_TRIP_CFG 2) 0).rb (R.PRT_TRIP_CFG 2) 30 = false := by decide +kernel

/-- LOCKOUT with the reset armed by the management port. -/
def lockedOut (c : Conv) (armed : Epoch) : State := { onS c with prt := { resetArm := some (.mgmt, armed) } }

theorem witness_DeliberateReset :
    (run.mayWrite .mgmt R.PRT_RESET = true ∧ 0x1234 ≠ 0xC35A) ∧
    (let s := lockedOut .lockout 990
     s.mayWrite .mgmt R.PRT_RESET = true ∧ s.prt.resetArm = some (.mgmt, 990) ∧ (s.sys.epoch - 990).toNat ≤ s.ep1s ∧ s.sys.conv = .lockout ∧ s.resetReady = true ∧
      s.prt.lockPending = false ∧ s.sys.moved = false) ∧
    (let s := lockedOut .ready 990
     s.mayWrite .mgmt R.PRT_RESET = true ∧ s.prt.resetArm = some (.mgmt, 990) ∧ (s.sys.epoch - 990).toNat ≤ s.ep1s ∧ s.sys.conv ≠ .lockout) ∧
    (let s := lockedOut .lockout 2000
     s.prt.resetArm = some (.mgmt, 2000) ∧ s.ep1s < (s.sys.epoch - 2000).toNat ∧ s.prt.resetGo = false) := by decide +kernel

/-- Metering begun, at an epoch that is a multiple of 2^24, output 3 enabled with 1 Wh a pulse. -/
def metering (p : PulseOut) : State :=
  { (run.setReg (R.MTR_PULSE_CFG 3) 0x80000000).setReg (R.MTR_PULSE_K_HI 3) 1 with
    sys := { run.sys with epoch := 2 ^ 40 }
    mtr := { on_ := true, isSealed := true, pulses := [(3, p)] } }

/-- The d.c. side enabled, with its two inputs and its two scales set. -/
def dcMeter : State :=
  (((((metering {}).setReg R.MTR_CFG 0x40000000).setReg (R.MFE_INCFG 3) 24).setReg (R.MFE_INCFG 4) 25).setReg (R.MTR_SCALE 6)
    0x44800000).setReg (R.MTR_SCALE 7) 0x44800000

theorem witness_MeteringWork :
    ((metering {}).sys.counting = true ∧ bit (metering {}).sys.missNow 11 = false ∧ (metering {}).mtr.on_ = true) ∧ run.mtr.on_ = false ∧
    ((metering {}).mtrDest true 999 = .none ∧ dcMeter.mtrDest false 999 ≠ .none ∧ dcMeter.mtrDest false 999 ≠ .doubt) ∧
    (let s := { metering {} with mtr := { incs := [⟨.total, 5, 7⟩, ⟨.doubt, 0, 9⟩], totals := [(5, 2 ^ 136 - 1)], tallies := [(12, 2 ^ 168 - 1)] } }
     (∀ i ∈ s.mtr.incs, i.q < 6) ∧ (∀ q < 6, smGet 0 s.mtr.totals q < 2 ^ 136) ∧ ∀ q < 18, smGet 0 s.mtr.tallies q < 2 ^ 168) ∧
    (let s := metering { backlog := 2 }
     3 < 8 ∧ s.pulseOn 3 = true ∧ 1 ≤ (s.pulse 3).backlog ∧ (s.pulse 3).out = false ∧ (s.pulse 3).gap = false) ∧
    run.pulseOn 3 = false ∧
    (let s := metering { out := true, at_ := 0 }
     3 < 8 ∧ (s.pulse 3).out = true ∧ s.pulseEp 3 false ≤ (s.sys.epoch - (s.pulse 3).at_).toNat) ∧
    (let s := metering {}
     s.mtr.isSealed = true ∧ s.sys.counting = true ∧ s.sys.epoch.toNat % 2 ^ 16 = 0 ∧ s.trk.writeProt = false ∧
      s.trk.coalescing = false ∧ s.trk.queue.length < 1024) ∧
    ((metering {}).mtr.on_ = true ∧ (metering {}).sys.counting = true ∧ (metering {}).sys.epoch.toNat % 2 ^ (metering {}).saveLog2 = 0 ∧
      (metering {}).trk.writeProt = false) := by decide +kernel

/-- A check value in the seal that is not the recomputed one. -/
def miscounted (s : State) : State := { s with mtr := { s.mtr with check := s.sealCheck + 1 } }

theorem miscounted_sealCheck (s : State) : (miscounted s).sealCheck = s.sealCheck := rfl

theorem miscounted_differs (s : State) : (miscounted s).sealCheck ≠ (miscounted s).mtr.check := by
  rw [miscounted_sealCheck]
  exact Nat.ne_of_lt (Nat.lt_succ_self _)

theorem witness_MeteringWork_check :
    (miscounted (metering {})).mtr.isSealed = true ∧ (miscounted (metering {})).sys.counting = true ∧
    (miscounted (metering {})).sys.epoch.toNat % 2 ^ 16 = 0 ∧ (miscounted (metering {})).sealCheck ≠ (miscounted (metering {})).mtr.check :=
  ⟨rfl, rfl, by decide +kernel, miscounted_differs _⟩

theorem witness_MeterActions :
    (1 < 3 ∧ 5 < 64 ∧ run.mayWrite .mgmt R.MTR_ACTION = true ∧ bit 5 0 = true ∧ bit 5 1 = false ∧ (1 = 1 ∨ 1 = 2) ∧ (3 = 0 ∨ 3 = 3)) ∧
    (run.mayWrite .mgmt R.MTR_SEAL = true ∧ run.mtrBad true = false ∧ run.mtrBad false = false) ∧
    (let s := (onS .off).setReg R.SYS_CONV_CFG 1
     s.mayWrite .mgmt R.MTR_SEAL = true ∧ s.sys.conv = .off ∧ s.commission = true) ∧
    (0 < 65536 ∧ 0 ≠ 0xA55A ∧ 0 ≠ 0x5AA5) := by decide +kernel

/-- The Safety Core as given, in RUN. -/
def core (x : SafSt) : State := { run with saf := { x with running := true } }

/-- Output 0 commanded, its last off-pulse a period ago, its read-back wrong for 100 samples. -/
def outputs (cmd : Bool) : State := core { us := 200000, cfgValid := true, outs := [(0, { cmd := cmd, wrong := 100 })] }

/-- Pair 0 with test source 0 on its channel a, in the sample of test pulse 0 that judges it. -/
def pulsed (raw : Nat) : State := (core { us := 180, raw := raw, chans := [(0, { val := true })] }).setReg (R.SAF_PAIR_CFG 0) 0x10E00232

theorem witness_SafetyInputs :
    ((core {}).saf.running = true ∧ 31 < 32 ∧ 4 ≤ (core {}).chanSource 31 ∧ bit 0 31 = ((core {}).chan 31).val ∧
      bit (2 ^ 31) 31 ≠ ((core {}).chan 31).val) ∧
    (let s := core { chans := [(0, { val := true })], pairs := [(0, { disc := 500000 })] }
     0 < 16 ∧ s.pairA 0 ≠ s.pairB 0 ∧ 10000 * s.rf (R.SAF_PAIR_CFG 0) 7 0 ≤ (s.safPair 0).disc ∧ (s.safPair 0).discFault = false) ∧
    ((pulsed 1).saf.running = true ∧ (pulsed 1).tpPhase 0 = some ((pulsed 1).tpWidth - 20) ∧ (pulsed 1).chanSource 0 = 0 ∧
      ((pulsed 1).chan 0).val = true ∧ (pulsed 1).chanRaw 0 = true) ∧
    ((pulsed 0).tpPhase 0 = some ((pulsed 0).tpWidth - 20) ∧
      ∀ c < 32, (pulsed 0).chanSource c = 0 → ((pulsed 0).chan c).val = true → (pulsed 0).chanRaw c = false) ∧
    ((outputs true).soutHigh 0 = true ∧ (outputs true).rb (R.SAF_OUT_CFG 0) 27 = true ∧
      ((outputs true).safOut 0).at_ + 1000 * max 1 ((outputs true).rf R.SAF_OP_CFG 31 24) ≤ (outputs true).saf.us) ∧
    ((outputs true).saf.running = true ∧ 0 < ((outputs true).safOut 0).wrong ∧
      10 * (outputs true).rf R.SAF_OP_CFG 23 16 ≤ ((outputs true).safOut 0).wrong ∧ (outputs false).soutHigh 0 = false) := by decide +kernel

theorem witness_SafetyLogic :
    ((core { disagree := 2 }).saf.running = true ∧ 2 ≤ (core { disagree := 2 }).saf.disagree ∧ (core {}).saf.lock = false ∧
      (core { lock := true }).saf.lock = true) ∧
    (let s := core { dead := true, deadUs := 2 ^ 40 }
     s.saf.dead = true ∧ 100000 * s.rf R.SAF_TIME 31 16 ≤ s.saf.deadUs) ∧
    ((core { request := true }).saf.request = true ∧ (core { request := true }).saf.requestSeen = false) ∧
    (let s := core { request := true, requestSeen := true, cfgValid := true, lock := true }
     s.saf.request = true ∧ s.saf.requestSeen = true ∧ s.saf.cfgValid = true ∧ s.saf.causes = 0) ∧
    (let s := core { request := true, requestSeen := true, cfgValid := true, causes := 4 }
     s.saf.request = true ∧ s.saf.requestSeen = true ∧ s.saf.cfgValid = true ∧ s.saf.causes ≠ 0) ∧
    (core { request := true, requestSeen := true }).saf.cfgValid = false ∧
    (let s := core { srst := true, srstHigh := 2 ^ 40 }
     s.saf.srst = true ∧ s.rstMax < s.saf.srstHigh) := by decide +kernel

/-- OFF under commissioning with a pending set that has one emergency-stop pair, and value v of SAF_CONFIRM_VALUE for the management port. -/
def confirming (v : Word) : State :=
  { onS .off with
    regs := { a := [(R.SYS_CONV_CFG, 1), (ownKey .mgmt R.SAF_CONFIRM_VALUE, v), (pendSafetyKey (R.SAF_PAIR_CFG 0), 0x17E00101)] } }

theorem confirming_value (v : Word) : (confirming v).reg (ownKey .mgmt R.SAF_CONFIRM_VALUE) = v := majority_self v

/-- The pending set does not depend on what the management port has written to SAF_CONFIRM_VALUE. -/
theorem confirming_pending (v : Word) : (confirming v).safPending = (confirming 0).safPending := rfl

theorem confirming_reg (v : Word) (o : Nat) : (confirming v).reg (pendSafetyKey o) = (confirming 0).reg (pendSafetyKey o) := by
  have h : ¬ ownKey .mgmt R.SAF_CONFIRM_VALUE = pendSafetyKey o := by
    have : ownKey .mgmt R.SAF_CONFIRM_VALUE < 0x4000000 := by decide
    unfold pendSafetyKey
    omega
  simp [State.reg, RegSt.copyA, RegSt.copyB, RegSt.copyC, confirming, smFind, h]

theorem rf_value (c : Nat) (h : c < 2 ^ 32) : (confirming (BitVec.ofNat 32 c)).rf (ownKey .mgmt R.SAF_CONFIRM_VALUE) 31 0 = c := by
  unfold State.rf
  rw [confirming_value]
  simp only [fld, bits, BitVec.toNat_ofNat]
  omega

theorem witness_SafetySets_value :
    ∃ v : Word, (confirming v).rf (ownKey .mgmt R.SAF_CONFIRM_VALUE) 31 0 = safCheckOf (confirming v).safPending :=
  ⟨BitVec.ofNat 32 (safCheckOf (confirming 0).safPending), by
    rw [rf_value (safCheckOf _) (crcBits_lt _ _ _ _ (by decide) (by decide))]
    exact (congrArg safCheckOf (confirming_pending _)).symm⟩

theorem witness_SafetySets_other :
    ∃ v : Word, (confirming v).rf (ownKey .mgmt R.SAF_CONFIRM_VALUE) 31 0 ≠ safCheckOf (confirming v).safPending := by
  by_cases h : (0 : Nat) = safCheckOf (confirming 0).safPending
  · refine ⟨BitVec.ofNat 32 1, ?_⟩
    rw [rf_value 1 (by decide), confirming_pending, ← h]
    decide
  · refine ⟨BitVec.ofNat 32 0, ?_⟩
    rw [rf_value 0 (by decide), confirming_pending]
    exact h

theorem confirming_rules (v : Word) : safRuleFailed (fun o => (confirming v).reg (pendSafetyKey o)) = none := by
  have h : (fun o => (confirming v).reg (pendSafetyKey o)) = fun o => (confirming 0).reg (pendSafetyKey o) :=
    funext (confirming_reg v)
  rw [h]
  decide +kernel

set_option maxRecDepth 20000 in
theorem confirming_conditions (v : Word) :
    (confirming v).sys.counting = true ∧ (confirming v).mayWrite .mgmt R.SAF_CONFIRM = true ∧ (confirming v).sys.conv = .off ∧
    (confirming v).commission = true ∧ (confirming v).safTriple = false ∧ (confirming v).safPendTriple = false ∧
    (confirming v).trk.writeProt = false := by
  refine ⟨rfl, rfl, rfl, ?_, rfl, rfl, rfl⟩
  have h : ¬ ownKey .mgmt R.SAF_CONFIRM_VALUE = R.SYS_CONV_CFG := by decide
  have e : (confirming v).reg R.SYS_CONV_CFG = (confirming 0).reg R.SYS_CONV_CFG := by
    simp [State.reg, RegSt.copyA, RegSt.copyB, RegSt.copyC, confirming, smFind, h]
  rw [State.commission, State.rb, e]
  decide +kernel

/-- A confirmed set whose Trunk write has completed. -/
def written : Confirm := ⟨List.replicate 45 0, 7, 1, true⟩

/-- The Safety Core with a parameter whose three copies all differ. -/
def tripled : State := { core {} with regs := { a := [(R.SAF_TIME, 1)], b := [(R.SAF_TIME, 2)], c := [(R.SAF_TIME, 4)] } }

theorem witness_SafetySets :
    (0x1234 < 65536 ∧ 0x1234 ≠ 0x6996) ∧
    (State.reset.sys.counting = false ∧ State.reset.mayWrite .mgmt R.SAF_CONFIRM = true) ∧
    ((core { confirm := [written] }).saf.confirm = written :: [] ∧ (core {}).saf.running = true ∧ written.written = true ∧
      written.set.length = safParams.length ∧ (core { confirm := [written] }).saf.request = false) ∧
    (let s := core { confirm := [written], request := true, requestSeen := true }
     s.saf.confirm = written :: [] ∧ s.saf.request = true ∧ s.saf.requestSeen = true ∧
      (core { confirm := [written], request := true }).saf.requestSeen = false) ∧
    ((core { cfgValid := true }).saf.running = true ∧ (core { cfgValid := true }).saf.cfgValid = true) ∧
    (tripled.saf.running = true ∧ tripled.safTriple = true ∧ newestSlot tripled.trk.safety = none) := by decide +kernel

/-- The telegram connection enabled on port 0, VALID and without a fresh telegram since sample 0, and the mirror admitted and enabled. -/
def station : State :=
  let s := core { us := 10000000, cfgValid := true, conn := .valid, freshUs := some 0 }
  { s with
    regs := { a := [(R.SAF_MIRROR, 0x80060001), (R.SAF_TG_CFG, 0x800A0611), (R.SAF_PORT_PEER_MAC_HI 0, 0x80000000)] }
    sys := { s.sys with epoch := 2 ^ 20 }
    cel := { newest := some 998 }
    pwr := { s.pwr with admitted := [.mirror] } }

theorem witness_StationTraffic :
    (station.saf.running = true ∧ station.tgEn = true ∧ station.saf.cfgValid = true ∧ station.saf.txUs = none) ∧
    (station.saf.running = true ∧ 0 < 2 ∧ station.portOn 0 = true ∧ station.candidate 0 [] = none ∧
      (station.candidate 0 (station.stationFrame 0 0 7 (List.replicate 36 0))).isSome = true) ∧
    (station.saf.cands = [] ∧ station.saf.conn = .valid ∧ station.saf.freshUs.getD 0 + 1000 * station.rf R.SAF_TG_CFG 15 8 ≤ station.saf.us) ∧
    (([0, 1].filter station.portOn).head? = some 0 ∧ station.cel.newest = some 998 ∧ station.rb R.SAF_MIRROR 31 = true ∧
      .mirror ∈ station.pwr.admitted ∧ station.sys.counting = true ∧ station.sys.epoch.toNat % 2 ^ station.mirrorLog2 = 0 ∧
      station.saf.running = true ∧ station.rf R.SAF_MIRROR 15 0 ≠ 0 ∧ bit station.sys.missNow 15 = false ∧ 64 ≤ (List.replicate 64 2).length ∧
      (List.replicate 16 0).length ≤ 64 ∧ 16 ≤ (List.replicate 16 0).countP (fun x => x ≠ 1 && x ≠ 2) ∧
      station.saf.mirrorAt ≠ some station.sys.epoch) := by decide +kernel

/-- Hatch 1 up and mastering the bus as given, order ring 3 and completion ring 2 enabled with 64 entries, five orders announced. -/
def hatched (a : HatSt) : State :=
  { run with hats := [(1, { a with
      linkUp := true, bme := true, or_ := [(3, { enable := true, cr := 2, bell := 5 })], cr := [(2, { enable := true })]
      ev := { enable := true } })] }

/-- The same with HAT_RING_SEL of Hatch 1 at a ring. -/
def ringed (sel : Word) : State := (hatched {}).setReg (ownKey (.hatch 1) R.HAT_RING_SEL) sel

theorem witness_HatchLife :
    run.domain (47 + (1 : Fin 4).val / 2) = true ∧
    ((hatched { silent := true }).sys.counting = true ∧
      (hatched { silent := true }).silentNow (1 : Fin 4).val ≠ ((hatched { silent := true }).hat (1 : Fin 4).val).silent) ∧
    ((crated { state := .building, id := 9, hatch := 1 }).crate 2).hatch = 1 := by decide +kernel

theorem witness_RingsAndDoorbells :
    (let s : State := hatched {}
     let x := smGet ({} : RingSt) (s.hat 1).or_ 3
     s.serves (.hatch 1) = true ∧ 3 < 16 ∧ x.enable = true ∧ x.stopped = false ∧ (6 : Word).toNat < 2 ^ x.sizeLog2 ∧
      x.held + ((6 : Word).toNat + 2 ^ x.sizeLog2 - x.bell) % 2 ^ x.sizeLog2 ≤ 2 ^ x.sizeLog2 - 1 ∧ 2 ^ x.sizeLog2 ≤ (64 : Word).toNat ∧
      2 ^ x.sizeLog2 - 1 < x.held + ((4 : Word).toNat + 2 ^ x.sizeLog2 - x.bell) % 2 ^ x.sizeLog2 ∧ (64 : Word).toNat < 2 ^ 16) ∧
    (let s : State := hatched {}
     let x := smGet ({} : RingSt) (s.hat 1).cr 2
     2 < 16 ∧ x.enable = true ∧ x.stopped = false ∧ (63 : Word).toNat < 2 ^ x.sizeLog2 ∧ 2 ^ x.sizeLog2 ≤ (64 : Word).toNat) ∧
    (let x := ((hatched {}).hat 1).ev
     x.enable = true ∧ x.stopped = false ∧ (63 : Word).toNat < 2 ^ x.sizeLog2 ∧ 2 ^ x.sizeLog2 ≤ (64 : Word).toNat) ∧
    (let w : Word := 0x8A070002
     w &&& keyMask R.HAT_RING_CFG [.rsv] = 0 ∧ ((ringed 4).ringSel (.hatch 1)).1 = 0 ∧
      (smGet ({} : RingSt) ((ringed 4).hat 1).or_ ((ringed 4).ringSel (.hatch 1)).2).enable = false ∧ flag w 31 = true ∧ 6 ≤ fld w 28 24 ∧ fld w 28 24 ≤ 16 ∧
      (smGet ({} : RingSt) ((ringed 4).hat 1).cr (fld w 3 0)).enable = true ∧
      (smGet ({} : RingSt) ((ringed 4).hat 1).cr (fld (w ||| 1) 3 0)).enable = false ∧ (w ||| 1) &&& keyMask R.HAT_RING_CFG [.rsv] = 0) ∧
    (((ringed 0x12).ringSel (.hatch 1)).1 = 1 ∧ (smGet ({} : RingSt) ((ringed 0x12).hat 1).cr ((ringed 0x12).ringSel (.hatch 1)).2).enable = true ∧
      flag (0x0A000000 : Word) 31 = false ∧ (0x0A000000 : Word) &&& keyMask R.HAT_RING_CFG [.rsv] = 0 ∧
      ((ringed 0x12).hat 1).named ((ringed 0x12).ringSel (.hatch 1)).2 = true) ∧
    ((ringed 0x13).ringSel (.hatch 1) = (1, 3) ∧ (((ringed 0x13).hat 1).ring 1 3).enable = false ∧
      (let s : State := { ringed 0x20 with hats := [(1, { linkUp := true })] }
       s.serves (.hatch 1) = true ∧ (s.ringSel (.hatch 1)).1 = 2 ∧ ((s.hat 1).ring 2 (s.ringSel (.hatch 1)).2).enable = false)) ∧
    (let s : State := { ringed 0x12 with hats := [(1, { linkUp := true, cr := [(2, { enable := true })] })] }
     let x := smGet ({} : RingSt) (s.hat 1).cr 2
     let w : Word := 0x06000000
     s.serves (.hatch 1) = true ∧ w &&& keyMask R.HAT_RING_CFG [.rsv] = 0 ∧ s.ringSel (.hatch 1) = (1, 2) ∧ flag w 31 = false ∧ x.enable = true ∧
      6 ≤ x.sizeLog2 ∧ x.sizeLog2 ≤ 16 ∧ fld w 28 24 = x.sizeLog2 ∧ fld w 21 16 = x.vector ∧ fld w 3 0 = x.cr ∧ (s.hat 1).named 2 = false ∧
      x.reserved = 0 ∧
      (smGet ({} : RingSt) ({ s with hats := [(1, { cr := [(2, { enable := true, reserved := 1 })] })] }.hat 1).cr 2).reserved ≠ 0) ∧
    ((((ringed 3).hat 1).ring ((ringed 3).ringSel (.hatch 1)).1 ((ringed 3).ringSel (.hatch 1)).2).enable = true ∧
      fld (0x8A070002 : Word) 28 24 ≠ (((ringed 3).hat 1).ring ((ringed 3).ringSel (.hatch 1)).1 ((ringed 3).ringSel (.hatch 1)).2).sizeLog2) := by
  decide +kernel

theorem witness_OrderFetching :
    (let s := hatched {}
     let x := smGet {} (s.hat 1).or_ 3
     let c := smGet {} (s.hat 1).cr x.cr
     3 < 16 ∧ x.enable = true ∧ x.stopped = false ∧ x.held ≠ 0 ∧ c.enable = true ∧ c.stopped = false ∧ 1 ≤ freeEntries c ∧ (s.hat 1).bme = true ∧
      s.serves (.hatch 1) = true ∧ (s.hat 1).reads.length < 32) ∧
    (((hatched { reads := [(3, 0, 2), (3, 1, 2)] }).hat 1).reads = (3, 0, 2) :: [(3, 1, 2)] ∧ (hatched {}).sys.counting = true ∧
      223 + 32 < (hatched {}).epNs ∧ ¬ 224 + 32 < (hatched {}).epNs) ∧
    ((hatched {}).serves (.hatch 1) = true ∧ 0x40000 ≤ 0x40000 ∧ 0x3FFFC < 0x40000) := by decide +kernel

/-- An order of ring 3 of Hatch 1. -/
def order : OrderRef := ⟨1, 3, 0, 0x55, true⟩

/-- A fetched NOP of ring 3, due at an epoch, with FENCE or without, behind the open orders given. -/
def fetchedNop (due : Epoch) (fence : Bool) (open_ : List OpenOrder) : State :=
  hatched { fetched := [⟨7, 3, 0, BitVec.ofNat 64 (b2n fence * 2 ^ 9) :: List.replicate 7 0, due⟩], openOrders := open_ }

/-- An order fetched before it. -/
def olderOrder : OpenOrder := ⟨6, 3, 63, 0, some 2⟩

theorem witness_NopCompletes_fetched :
    (let s := fetchedNop 1000 false [olderOrder]
     let f : Fetched := ⟨7, 3, 0, BitVec.ofNat 64 (b2n false * 2 ^ 9) :: List.replicate 7 0, 1000⟩
     (s.hat 1).fetched = [f] ∧ (∀ g : Fin 4, g ≠ 1 → (s.hat g.val).fetched = []) ∧ f.ring < 16 ∧ dfld f.words 0 7 0 = 0 ∧
      descOk f.words 0 = true ∧ epGe s.sys.epoch f.due = true ∧ dfld f.words 0 9 9 = 0) ∧
    epGe (fetchedNop 1001 false []).sys.epoch 1001 = false ∧
    (let s := fetchedNop 1000 true [olderOrder]
     let f : Fetched := ⟨7, 3, 0, BitVec.ofNat 64 (b2n true * 2 ^ 9) :: List.replicate 7 0, 1000⟩
     (s.hat 1).fetched = [f] ∧ descOk f.words 0 = true ∧ dfld f.words 0 9 9 ≠ 0 ∧ ∃ o ∈ (s.hat 1).openOrders, o.seq < f.seq) := by
  decide +kernel

theorem witness_NopCompletes :
    (let a := (hatched {}).hat order.hatch.val
     let c := smGet {} a.cr 2
     (hatched {}).orderCr order = some 2 ∧ c.enable = true ∧ c.stopped = false ∧ a.bme = true) ∧
    (let s : State := { hatched {} with hats := [(1, { (hatched {}).hat 1 with bme := false })] }
     let a := s.hat order.hatch.val
     let c := smGet {} a.cr 2
     s.orderCr order = some 2 ∧ c.enable = true ∧ c.stopped = false ∧ a.bme = false) := by decide +kernel

/-- Hatch 1 owning every object, in converter state c, the permits as given. -/
def owned (c : Conv) (permit : Bool) : State :=
  let s := { hatched {} with sys := { (hatched {}).sys with conv := c } }
  let s := (List.range 80).foldl (fun s k => s.setReg (R.HAT_OWN k) 0x02) s
  { s with saf := { permit := permit }, prt := { a := { permit := permit }, b := { permit := permit } } }

/-- HOLD with Hatch 1 owning every object and every recovery time past. -/
def ownedHold (blocked : Bool) : State :=
  { owned .hold true with
    sys := { (owned .hold true).sys with epoch := 2 ^ 40 }
    prt := { episode := some 0, holdAt := some 0, blockPending := blocked } }

/-- CHARGE with Hatch 1 owning every object, a transition having been made in the epoch. -/
def ownedMoved : State := { owned .charge true with sys := { (owned .charge true).sys with moved := true } }

theorem witness_StateOrders_opcodes :
    (Instr.deblock order, 0x02) ∈ [(Instr.energise order, 0x01), (.deblock order, 0x02), (.block order, 0x03), (.deenergise order, 0x04)] := by
  decide +kernel

theorem witness_StateOrders :
    (run.runDue = false ∧ (run.setReg (R.HAT_OWN 0) 1).owns order.hatch 0 = false) ∧
    (let s := owned .off true
     s.runDue = false ∧ s.owns order.hatch 0 = true ∧ s.sys.taken = none ∧ s.reactionWon = false ∧ s.transitionMade = false ∧
      orderAllowed 0x02 s.sys.conv = false ∧ s.sys.conv = .off ∧ s.start.state = .complete ∧ s.ref.state = .locked ∧ s.saf.permit = true ∧
      s.reaction ≠ 5 ∧ s.prt.lockPending = false ∧ s.prt.firedLast = false) ∧
    (let s := { owned .run true with prt := { firedLast := true } }
     s.runDue = false ∧ s.owns order.hatch 0 = true ∧ s.sys.taken = none ∧ s.reactionWon = false ∧ orderAllowed 0x03 s.sys.conv = true ∧
      s.prt.firedLast = true) ∧
    (let s := ownedMoved
     s.prt.firedLast = false ∧ s.runDue = false ∧ s.owns order.hatch 0 = true ∧ s.sys.taken = none ∧ s.reactionWon = false ∧ orderAllowed 0x04 s.sys.conv = true ∧
      s.transitionMade = true) ∧
    (let s := owned .off false
     s.runDue = false ∧ s.owns order.hatch 0 = true ∧ s.sys.taken = none ∧ s.reactionWon = false ∧ s.transitionMade = false ∧
      s.sys.conv = .off ∧ s.saf.permit ≠ true) := by decide +kernel

theorem witness_StateOrders_run :
    (let s := owned .ready true
     s.owns order.hatch 0 = true ∧ s.sys.taken = none ∧ s.sys.conv = .ready ∧ s.sys.announce = none ∧ s.sys.moved = false ∧ s.mayRun = true) ∧
    ((owned .ready false).mayRun = false) ∧
    (let s := owned .run true
     s.runDue = false ∧ s.owns order.hatch 0 = true ∧ s.sys.taken = none ∧ s.sys.conv = .run ∧ s.ctl.stopping = none) ∧
    (let s := ownedHold false
     s.runDue = false ∧ s.owns order.hatch 0 = true ∧ s.sys.taken = none ∧ s.reactionWon = false ∧ s.transitionMade = false ∧
      s.sys.conv = .hold ∧ s.recovered = true) ∧
    (let s := ownedHold true
     s.runDue = false ∧ s.owns order.hatch 0 = true ∧ s.sys.taken = none ∧ s.reactionWon = false ∧ s.transitionMade = false ∧
      s.sys.conv = .hold ∧ s.recovered = false) ∧
    (let s := owned .charge true
     s.runDue = false ∧ s.owns order.hatch 0 = true ∧ s.reactionWon = false ∧ s.transitionMade = false ∧
      s.sys.conv ∈ [Conv.charge, .ready, .hold]) := by decide +kernel

/-- A used set-point entry of slot 4, one of kind 2 with an index that names nothing. -/
def setPoints : List SetPointEntry := [⟨1, 4, 0x3F800000⟩, ⟨0, 0, 0⟩]

theorem witness_SetPointOrders :
    setPoints.length ≤ 6 ∧ ([] : List SetPointEntry).filter (fun e => e.kind ≠ 0) = [] ∧
    (∃ e ∈ [(⟨2, 99, 0⟩ : SetPointEntry)], e.kind ≠ 0 ∧ setPointTarget e = none) ∧
    (setPoints.filter (fun e => e.kind ≠ 0) ≠ [] ∧
      (setPoints.filter (fun e => e.kind ≠ 0)).map setPointTarget = [(20, R.CTL_SP 4, (0x3F800000 : Word))].map some) ∧
    ((run.setReg (R.HAT_OWN 20) 1).owns order.hatch 20 = false ∧ (owned .run true).owns order.hatch 20 = true) := by decide +kernel

/-- Crate slot 2 of Hatch 1 with id 9, in a state. -/
def slotOf (st : CrateState) : State := crated { state := st, id := 9, hatch := 1 }

theorem witness_SnapshotAndCrateOrders :
    ((List.range 4).find? (fun i => ((slotOf .done).crate i).state = .free) = some 0 ∧ (slotOf .done).nextId = some 1) ∧
    (let s := { run with cel := { crates := (List.range 4).map (fun i => (i, { state := .done, id := i + 1 })) } }
     ∀ i < 4, (s.crate i).state ≠ .free) ∧
    ((Instr.crateClose order 9, 0x23) ∈ [(Instr.crateAddGate order 9 0 [⟨1, 5⟩], 0x21), (.crateAddDevice order 9 1 0 0x110, 0x22),
        (.crateClose order 9, 0x23), (.crateAbort order 9, 0x24)] ∧ [(⟨1, 5⟩ : StagedItem)] ≠ [] ∧ [(⟨1, 5⟩ : StagedItem)].length ≤ 5 ∧
      partWordsOk 1 0 0x110 = true ∧ (slotOf .done).crateSlot 8 = none ∧ (slotOf .done).crateSlot 9 = some 2 ∧
      ((slotOf .done).crate 2).hatch = order.hatch ∧ ((slotOf .done).crate 2).state ≠ .building ∧
      ((crated { state := .building, id := 9 }).crate 2).hatch ≠ order.hatch) ∧
    ((slotOf .building).crateSlot 9 = some 2 ∧ ((slotOf .building).crate 2).state = .building ∧
      (∀ g ∈ addItems ((slotOf .building).crate 2).gates 0 [⟨1, 5⟩], g.home = 0 → g.items.length ≤ 32) ∧
      partWordsOk 0x99 0 0 = false) ∧
    (let s := crated { state := .building, id := 9, hatch := 1, gates := [{ home := 0, items := List.replicate 32 ⟨1, 5⟩ }] }
     ∃ g ∈ addItems (s.crate 2).gates 0 [⟨1, 5⟩], g.home = 0 ∧ 32 < g.items.length) ∧
    (((slotOf .staging).crate 2).state = .staging ∧ ((slotOf .committing).crate 2).state = .committing) ∧
    ((true = true ∧ (8 : DWord).toNat % 64 ≠ 0) ∧ 4096 < 4095 + 2 ∧ (true = true → (64 : DWord).toNat % 64 = 0) ∧ 2 ≠ 0 ∧ 4094 + 2 ≤ 4096) := by
  decide +kernel

/-- The Start Sequencer in a given state, in OFF, the epoch counter stopped. -/
def starting (x : StartSt) : State := { State.reset with start := { x with powered := true } }

/-- A start with step HATCHES active and domain 47 switched on. -/
def lastStep : State :=
  let s := onS .off
  { s with
    start := { powered := true, state := .running, active := true, step := 9 }
    pwr := { ready := 2 ^ 47 - 1 + 2 ^ 48 + 2 ^ 49, switching := 2 ^ 47 } }

theorem witness_StartUp :
    (State.reset.start.powered = false ∧ State.reset.regs.pend = [] ∧ State.reset.rf R.STR_CFG 31 28 = 0 ∧
      ({} : StartIn).bootHold = false ∧ ({ bootHold := true } : StartIn).bootHold = true) ∧
    (let s := starting { state := .held, step := 1 }
     s.start.powered = true ∧ s.start.state = .held ∧ s.start.active = false ∧ s.start.step < 10 ∧ s.start.restartWanted = none ∧
      s.tapTest = false) ∧
    (Requester.hatch 0 ≠ .mgmt ∧ 1 ≠ 0x7E81) ∧
    (let s := starting { state := .running, active := true, step := 4 }
     s.sys.conv = .off ∧ s.start.powered = true ∧ s.start.state = .running ∧ s.start.active = true ∧ s.start.step = 4 ∧
      ({ powerGood := false } : StartIn).powerGood = false ∧ s.start.retries < 3 ∧
      ∀ r ∈ s.regulators, ({ powerGood := false, acks := [true, true], vout := [some 512, some 512] } : StartIn).acks.getD r true = true ∧
        (({ powerGood := false, acks := [true, true], vout := [some 512, some 512] } : StartIn).vout.getD r none).isSome = true) ∧
    (let s := starting { state := .running, active := true, step := 4, retries := 3, inputs := { powerGood := false } }
     3 ≤ s.start.retries ∧ s.start.restartWanted = none) ∧
    ((onS .off).sys.conv = .off ∧ (onS .off).start.powered = true ∧ (onS .off).start.state ≠ .running) ∧
    (let s := starting { state := .running, active := true, step := 5 }
     s.start.state = .running ∧ s.start.active = true ∧ s.start.step = 5 ∧ s.sys.counting = false ∧ s.start.retries = 0 ∧
      s.ref.calibrated = false) ∧
    (let s := { starting { state := .running, active := true, step := 5 } with trk := { bands := { s0 := ⟨1, true, [0, 0, 0, 1, 77, 5]⟩ } } }
     junctionRange s.sys.tj = 1 ∧ s.storedBands.getD (3 * junctionRange s.sys.tj) 0 = 1) ∧
    (let s := { onS .off with pwr := { switching := 2 ^ 3 } }
     bit s.pwr.switching 3 = true ∧ s.start.state = .complete) ∧
    (bit lastStep.pwr.switching 47 = true ∧ lastStep.start.powered = true ∧ lastStep.start.state = .running ∧
      lastStep.start.active = true ∧ lastStep.start.step = 9 ∧ lastStep.start.restartWanted = none ∧ lastStep.ref.muted = false ∧
      lastStep.regs.pend = [] ∧ lastStep.rf R.STR_CFG 31 28 ≠ 10 ∧ (∀ e ∈ lastStep.stepDomains 9, e = 47 ∨ lastStep.domain e = true) ∧
      lastStep.domain 47 = false) := by decide +kernel

/-- A Bin record that waits. -/
def binEntry : BinEnt := ⟨0xC8, false, false, 0, 1000, 0, 7, [1, 2, 3, 4]⟩

theorem witness_DeviceDown :
    run.trk.busy = none ∧ { run with trk := { busy := some (.bin binEntry) } }.trk.busy = some (.bin binEntry) := ⟨rfl, rfl⟩

/-- The Power Manager as given, in RUN at an epoch that is a multiple of 4,096, one regulator fitted. -/
def powered (x : PwrSt) : State :=
  { run with sys := { run.sys with epoch := 2 ^ 40 }, pwr := x, regs := { a := [(R.PWR_PMB_CFG, 0)] } }

theorem witness_SupplyAndBudget :
    (let s := powered { windowEp := 2 ^ 32 }
     s.slackOn = true ∧ 2 ^ s.rf R.PWR_SLACK_CFG 4 0 ≤ s.pwr.windowEp) ∧
    (let s := powered { pendingRaise := 10, lastVout := some 1000 }
     s.slackOn = true ∧ 1024 ≤ (s.sys.epoch - 1000).toNat ∧ s.pwr.lastVout = some 1000 ∧ 0 < s.pwr.pendingRaise) ∧
    (let s := powered { pendingLower := 10 }
     s.pwr.lastVout = none ∧ 0 < s.pwr.pendingLower ∧ s.pwr.pendingRaise = 0) ∧
    (let s := (powered {}).setReg R.PWR_PMB_CFG 0x00104000
     let p : PollReply := ⟨some 5, some 6, some 2, true⟩
     s.sys.counting = true ∧ s.sys.epoch.toNat % 4096 = 0 ∧ s.regulators = [0, 1] ∧ s.pwr.regPower.length = 2 ∧
      (∀ r ∈ s.regulators, [p, p][r]? = some p) ∧ p.vout = some 5 ∧ p.iout = some 6 ∧ p.status = some 2 ∧ bits 2 15 1 ≠ 0) ∧
    (let s := powered { waiting := [.capture, .mirror] }
     s.pwr.waiting = .capture :: [.mirror] ∧ s.sys.counting = true ∧ s.pwr.draw + s.pwr.sincePoll + OptItem.capture.cost ≤ s.budget) ∧
    (let s := { powered { waiting := [.debugCapture] } with dbg := { cap := { state := .wait, cfg := 0x10000000 } } }
     s.pwr.waiting = .debugCapture :: [] ∧ s.pwr.draw + s.pwr.sincePoll + OptItem.debugCapture.cost ≤ s.budget ∧ s.dbg.cap.state = .wait ∧
      1 ≤ fld s.dbg.cap.cfg 30 28 ∧ fld s.dbg.cap.cfg 30 28 ≤ 3) ∧
    fld ({ state := .wait } : DbgCap).cfg 30 28 = 0 := by decide +kernel

/-- Eight passing windows of the lock detector. -/
def windows : List LockWindow := List.replicate 16 ⟨100, 101, true⟩

/-- The Reference Synthesiser in a given state in READY. -/
def referenced (x : RefState) : State := { onS .ready with ref := { state := x, waitEp := 65535 } }

theorem witness_ReferenceAndPowerFail :
    (let s := { starting { state := .running, active := true, step := 5 } with pwr := { ready := 2 ^ 49 } }
     s.windowsPass windows = true ∧ s.ref.state = .unlocked ∧ s.start.powered = true ∧ s.start.state = .running ∧ s.start.active = true ∧
      s.start.step = 5 ∧ s.domain 49 = true ∧ s.sys.counting = false ∧ s.start.restartWanted = none) ∧
    ((referenced .holdover).windowsPass windows = true ∧ (referenced .holdover).ref.state = .holdover ∧
      (referenced .holdover).trk.writeProt = false ∧ (referenced .holdover).ref.range < 4 ∧ (referenced .holdover).storedBands.getD 2 0 ≠ 5) ∧
    ((referenced .locked).ref.state = .locked) ∧
    ((referenced .unmuteWait).ref.state = .unmuteWait ∧ max 1 ((referenced .unmuteWait).rf R.REF_CFG 31 16) ≤ (referenced .unmuteWait).ref.waitEp ∧
      (referenced .unmuteWait).start.state = .complete) ∧
    (run.pwr.pfail = false ∧ { run with pwr := { pfail := true } }.pwr.pfail = true) := by decide +kernel

/-- The Trunk as given, in OFF. -/
def trunk (x : TrkSt) : State := { onS .off with trk := x }

theorem witness_TrunkWrites :
    (let s := trunk { waiting := [(.periodicSave, [1]), (.safetySet, [2])] }
     s.trk.busy = none ∧ s.trk.writeProt = false ∧ takeRank 2 s.trk.waiting = some ((.safetySet, [2]), [(.periodicSave, [1])]) ∧
      ∀ y ∈ s.trk.waiting, 2 ≤ y.1.rank) ∧
    (let s := trunk { waitRing := [[1], [2]], queue := [binEntry] }
     s.trk.busy = none ∧ s.trk.writeProt = false ∧ s.trk.waiting = [] ∧ s.trk.waitRing = [1] :: [[2]]) ∧
    (let s := trunk { queue := [binEntry] }
     s.trk.busy = none ∧ s.trk.writeProt = false ∧ s.trk.waiting = [] ∧ s.trk.waitRing = [] ∧ s.trk.queue = binEntry :: []) ∧
    (let s := trunk { busy := some (.obj .directory [1]), directory := { s0 := ⟨5, true, [0]⟩, s1 := ⟨4, true, [3]⟩ } }
     s.trk.busy = some (.obj .directory [1]) ∧ (s.trk.obj .directory).s0.seq < 2 ^ 32 - 1 ∧ (s.trk.obj .directory).s1.seq < 2 ^ 32 - 1) ∧
    ((trunk { busy := some (.bin binEntry) }).trk.busy = some (.bin binEntry)) ∧
    (1 ≠ 0x4B1D ∧ (trunk {}).trk.writeProt = false) ∧
    ((trunk { writeProt := true }).sys.conv = .off ∧ (trunk { writeProt := true }).trk.writeProt = true) := by decide +kernel

/-- A write by the management port at 16 ns. -/
def write (off : Nat) (v : Word) : WriteReq := ⟨.mgmt, off, v, 16, true⟩

/-- A write by Hatch 1 at 16 ns, of one DW or not. -/
def hatchWrite (off : Nat) (whole : Bool) : WriteReq := ⟨.hatch 1, off, 0, 16, whole⟩

theorem witness_RegisterWriteAcceptance :
    (aliasOf R.SYS_CONV_CFG = 0 ∧ R.SYS_CONV_CFG < 0x10000 ∧ (write R.SYS_CONV_CFG 0).whole = true ∧ run.serves (.hatch 0) = false ∧
      run.serves .mgmt = true ∧ implemented 0x3FFC = false ∧ implemented R.SYS_CONV_CFG = true ∧ aliasOf (0x4000 + R.SYS_CONV_CFG) = 1) ∧
    ((hatchWrite 0x5000 false).req = .hatch 1 ∧ (hatchWrite 0x5000 false).whole = false ∧ aliasOf 0x5000 = 1 ∧
      (hatched {}).serves (.hatch 1) = true) ∧
    (0x90000 ≤ (hatchWrite 0x90000 true).off ∧ (hatchWrite 0x90000 true).req = .hatch 1) ∧
    (let o := R.SYS_CONV_CFG
     (0x00640000 : Word) &&& keyMask o [.rsv, .wa] = 0 ∧ ownReg o = false ∧ safParam o = false ∧ hatReg o = false ∧
      o ∉ [R.STR_ACTION, R.TRK_ACTION, R.PRT_RESET, R.DBG_HALT, R.MFE_ENC_REREF 0, R.MFE_ENC_REREF 1, R.MFE_ENC_REREF 2] ∧
      ltHit (run.keyFor .mgmt o) 0x00640000 = 0 ∧ writeMask o ≠ 0) ∧
    (let o := R.MFE_CAUSE
     aliasOf (0x8000 + o) = 2 ∧ (4 : Word) &&& keyMask o [.rsv, .wa] = 0 ∧ ownReg o = false ∧ safParam o = false ∧ hatReg o = false ∧
      writeMask o = 0 ∧ ltHit (run.keyFor .mgmt o) 4 ≠ 0) ∧
    (ownReg R.TRK_BIN_SEL = true ∧ R.TRK_BIN_SEL ≠ R.HAT_RING_SEL ∧ (7 : Word) &&& keyMask R.TRK_BIN_SEL [.rsv, .wa] = 0) ∧
    (4095 < 4096 ∧ (write (mapWindow + 4 * 4095) 0x110).off = mapWindow + 4 * 4095 ∧ (0x110 : Word).toNat < 2 ^ 9) := by
  decide +kernel

theorem witness_PendingImageApplies :
    (let k := R.SYS_CONV_CFG
     let w := blend (writeMask k) 0x00640500 (run.reg k)
     run.mayPut .mgmt k w = true ∧ (run.fieldRule k w).isSome = true ∧ ¬ (R.HAT_OWN 0 ≤ keyOff k ∧ keyOff k ≤ R.HAT_OWN 79) ∧
      keyOff k ∉ [R.CTL_ACTIVE_BANK_LO, R.CTL_ACTIVE_BANK_HI, R.EDG_PROF_DATA] ∧
      ¬ (R.MFE_WIN_LO 0 ≤ keyOff k ∧ keyOff k ≤ R.MFE_WIN_HI 47) ∧ ¬ (R.MFE_CMP_CFG 0 ≤ keyOff k ∧ keyOff k ≤ R.MFE_CMP_STAT 15) ∧
      ¬ (0x2C00 ≤ keyOff k ∧ keyOff k < 0x3000) ∧ ¬ (R.PRT_LIM 0 ≤ keyOff k ∧ keyOff k ≤ R.PRT_LIM 15)) ∧
    (let k := R.PRT_LIM 2
     let w := blend (writeMask k) 0x3F800000 (run.reg k)
     2 < 8 ∧ run.mayPut .mgmt k w = true ∧ run.fieldRule k w = some 0x3F800000) ∧
    (let s : State := { run with mfe := { cmps := [(3, { out := true, armed := true })] } }
     let k := R.MFE_CMP_CFG 3
     let w := blend (writeMask k) 0x41 (s.reg k)
     3 < 16 ∧ s.mayPut .mgmt k w = true ∧ s.fieldRule k w = some 0x41 ∧ flag (0x41 : Word) 6 = true ∧ flag (0x41 : Word) 0 = true ∧
      s.rb k 6 = false ∧ (smGet {} s.mfe.cmps 3).out = true ∧ s.cmpTested 3 = false) ∧
    (let s := run.setReg (R.HAT_OWN 0) 1
     s.mayPut (.hatch 1) R.SYS_CONV_CFG (blend (writeMask R.SYS_CONV_CFG) 0 (s.reg R.SYS_CONV_CFG)) = false) ∧
    (let w := blend (writeMask (R.HAT_OWN 12)) 0x0F (run.reg (R.HAT_OWN 12))
     run.mayPut .mgmt (R.HAT_OWN 12) w = true ∧ run.fieldRule (R.HAT_OWN 12) w = none) ∧
    (let s := (onS .off).setReg (R.SYS_CLASS_TYPE 1) 1
     s.sys.conv = .off ∧ s.mapEntryOk 0x110 = true ∧ mapCountsOk (mapWith s.sys.map 4095 (0x110 : BitVec 16).toNat) = true) ∧
    (run.sys.conv ≠ .off ∧ (onS .off).mapEntryOk 0x1FE = false) ∧
    (let s : State := { run with regs := { pend := [.image R.SYS_CONV_CFG .mgmt 0 1001 false 0x4000] } }
     epGe s.sys.epoch 1001 = false ∧ s.regs.pend = [.image R.SYS_CONV_CFG .mgmt 0 1001 false 0x4000]) ∧
    (let k := R.SYS_CLASS_TYPE 2
     let s : State := { run.setReg (R.HAT_OWN 0) 1 with regs := { (run.setReg (R.HAT_OWN 0) 1).regs with pend := [.image k (.hatch 1) 0 1000 false k] } }
     startClass (keyOff k) = false ∧ s.writeHeld k 0 = true ∧ s.mayPut (.hatch 1) k (blend (writeMask k) 0 (s.reg k)) = false ∧
      s.regs.pend = [.image k (.hatch 1) 0 s.sys.epoch false k]) := by decide +kernel

/-- A frame with its check byte. -/
def checked (f : List Byte) : List Byte := f ++ bytesBE 1 (mgmtChk f)

/-- The same after an entry of the status word in the present epoch. -/
def noted : State := run.logErr .mgmt 9 0

theorem witness_ManagementFrames :
    State.reset.mgmtOn = false ∧
    (run.mgmtOn = true ∧ frameByte [2, 0, 0] 0 = 0x02 ∧ [2, 0, 0].length < 8) ∧
    (let f := checked [2, 0, 4, 0, 100, 0, 5]
     frameByte f 0 = 0x02 ∧ 8 ≤ f.length ∧ f.length ≤ 260 ∧ f.length % 4 = 0 ∧ chkOk f = true ∧ frameOff f % 4 = 0 ∧
      chkOk (f.dropLast ++ [0]) = false ∧ (f.dropLast ++ [0]).length % 4 = 0 ∧ 8 ≤ (f.dropLast ++ [0]).length) ∧
    (frameByte [3, 0, 4, 64] 0 = 0x03 ∧ 63 < frameByte [3, 0, 4, 64] 3 ∧ 4 ≤ [3, 0, 4, 64].length) ∧
    (frameByte [3, 0, 4, 1] 3 + 1 = 2 ∧ frameOff [3, 0, 4, 1] + 4 * 2 ≤ 0x10000 ∧
      ∀ i < 2, ∀ x ∈ run.readReg .mgmt (frameOff [3, 0, 4, 1] + 4 * i), x.2 = run) ∧
    (4 ≤ [3, 0, 4, 0].length ∧ frameOff [3, 0, 4, 0] % 4 = 0 ∧ frameByte [3, 0, 4, 0] 3 = 0 ∧
      (run.readReg .mgmt (frameOff [3, 0, 4, 0])).isSome = true ∧
      (∀ x ∈ run.readReg .mgmt (frameOff [3, 0, 4, 0]), x.2 = run) ∧ run.readReg .mgmt (frameOff [3, 0x3F, 0xFC, 0]) = none) ∧
    (frameByte [5] 0 = 0x05 ∧ frameByte (checked [6]) 0 = 0x06 ∧ 2 ≤ (checked [6]).length ∧ chkOk ((checked [6]).take 2) = true ∧
      smGet 0 run.regs.ltNow mgmtKey = 0 ∧ noted.mgmtOn = true ∧ smGet 0 noted.regs.ltNow mgmtKey ≠ 0 ∧
      chkOk ([6, 0].take 2) = false ∧ frameByte [9] 0 ∉ [0x02, 0x03, 0x05, 0x06]) := by decide +kernel

theorem witness_AliasReads : 0x7FFC < 0x10000 ∧ implemented (0x7FFC % 0x4000) = false := by decide +kernel

/-- The debug access enabled, Bin record 9 kept and selected by the management port. -/
def debugging : State :=
  { run with
    regs := { a := [(R.DBG_CTRL, 0xC0000000), (ownKey .mgmt R.TRK_BIN_SEL, 9)] }
    trk := { bin := [(9, [1, 2, 3, 4, 5, 6, 7, 8])] } }

theorem witness_ReadsWithEffects :
    (run.serves .mgmt = true ∧ run.domain 45 = true ∧ 5 < 6 ∧ 2 < 3 ∧ 15 < 16) ∧
    smFind debugging.trk.bin (debugging.reg (ownKey .mgmt R.TRK_BIN_SEL)).toNat = some [1, 2, 3, 4, 5, 6, 7, 8] ∧
    smFind run.trk.bin (run.reg (ownKey .mgmt R.TRK_BIN_SEL)).toNat = none ∧
    (0xFFFF < 0x10000 ∧ run.rb R.DBG_CTRL 30 = false ∧ debugging.rb R.DBG_CTRL 30 = true ∧
      ((debugging.tapLoad 0x20).readReg .mgmt R.SYS_ID).isSome = true) := by decide +kernel

/-- OFF with the Start Sequencer HELD. -/
def held : State := starting { state := .held }

theorem witness_TestAccessPort :
    [true, false] ≠ [] ∧ (Pin.kind .vcoreEn = .output ∧ Pin.kind .irqN = .openDrain) ∧ (held.sys.conv = .off ∧ held.start.state = .held) ∧ run.sys.conv ≠ .off := by decide +kernel

/-- The debug capture in a given state. -/
def debugCapture (c : DbgCapState) : State := { debugging with dbg := { cap := { state := c } } }

theorem witness_DebugFunction :
    (1023 < 1024 ∧ debugging.mayWrite .mgmt R.DBG_HALT = true ∧ debugging.rb R.DBG_CTRL 31 = true) ∧
    (run.mayWrite .mgmt R.DBG_HALT = true ∧ run.rb R.DBG_CTRL 31 = false ∧
      Instr.resume .mgmt 3 ∈ [Instr.halt .mgmt 3 0, .resume .mgmt 3, .stepEngine .mgmt 3]) ∧
    (debugging.mayWrite .mgmt R.DBG_CAP_CTRL = true ∧ (debugCapture .revoked).dbg.cap.state ∈ [DbgCapState.idle, .done, .aborted, .revoked] ∧
      (debugCapture .triggered).dbg.cap.state ∈ [DbgCapState.wait, .armed, .triggered]) := by decide +kernel

/-- A queue of two well-formed commands. -/
def queued : State := { run with pending := [.kick 0, .observerLock] }

theorem witness_QueueAdvances : step queued = exec (.kick 0) { queued with pending := [.observerLock] } ∧ QueueWf queued := by
  refine ⟨rfl, ?_⟩
  intro c hc
  simp only [queued, List.mem_cons, List.not_mem_nil, or_false] at hc
  rcases hc with rfl | rfl <;> rfl

theorem witness_ConverterMovers : ∃ t, exec .chargeComplete charged = .next t ∧ t.sys.conv ≠ charged.sys.conv :=
  ⟨_, rfl, by decide +kernel⟩

/-- A block whose object 8 belongs to Hatch 0. -/
def strings : State := run.setReg (R.HAT_OWN 8) 1

theorem witness_ActionsNeedOwnership :
    (Instr.retrim (.hatch 1) 0, R.LNK_ACTION) ∈ [(Instr.clearLost (.hatch 1) 0, R.LNK_ACTION), (.retrim (.hatch 1) 0, R.LNK_ACTION)] ∧ 3 < 4 ∧ 2 < 3 ∧
    strings.mayWrite (.hatch 1) R.LNK_ACTION = false := by decide +kernel

/-- A sample input at 0 V. -/
def zeroIn : SampleIn := ⟨0, 0⟩

/-- A line block of a sync header that the line does not have. -/
def badBlock : LineBlock := ⟨4, 0⟩

/-- An order reference with a ring that no Hatch has. -/
def badRef : OrderRef := ⟨0, 16, 0, 0, false⟩

/-- A good order reference. -/
def okRef : OrderRef := ⟨0, 0, 0, 0, false⟩

theorem test_wf_epochs :
    [Instr.epochBoundary ⟨[⟨4, 0, false, 0, 0, none⟩], [], [], 0⟩, .epochBoundary ⟨[⟨0, 2 ^ 20, false, 0, 0, none⟩], [], [], 0⟩,
      .epochBoundary ⟨[⟨0, 0, true, 0, 4096, none⟩], [], [], 0⟩, .epochBoundary ⟨[⟨0, 0, true, 0, 0, some 4096⟩], [], [], 0⟩, .epochBoundary ⟨[], [⟨0, 3, 1⟩], [], 0⟩,
      .epochBoundary ⟨[], [], [⟨2, 1⟩], 0⟩, .epochBoundary ⟨[], [], List.replicate 15 ⟨0, 1⟩, 0⟩, .preEpochVote [⟨0, 3, 1⟩],
      .deadlineMiss 17].all (fun c => !c.wf) = true := by decide

theorem test_wf_front_end :
    [Instr.slotSample 4 (List.replicate 48 zeroIn) (List.replicate 3 ⟨false, false, false⟩), .slotSample 0 [] [],
      .slotSample 0 (⟨30000000001, 0⟩ :: List.replicate 47 zeroIn) (List.replicate 3 ⟨false, false, false⟩),
      .slotSample 0 (⟨0, -30000000001⟩ :: List.replicate 47 zeroIn) (List.replicate 3 ⟨false, false, false⟩),
      .slotSample 0 (List.replicate 48 zeroIn) [], .gainUpSwitch 48, .openWireDeclare 48, .openWireClear 48, .xchkFailure 24,
      .xchkRecovery 24, .comparatorTrip 16 true 0, .comparatorTrip 0 true 512, .rampPeriodStart 16, .mfeTestStart .mgmt 16 0,
      .mfeTestStart .mgmt 0 64, .encReref .mgmt 3 0].all (fun c => !c.wf) = true := by decide

theorem test_wf_frames :
    [Instr.frameLaunch 512, .returnFrameReceive 512 [], .returnFrameReceive 0 [badBlock], .headerWindowMiss ⟨512, []⟩, .headerWindowMiss ⟨0, [badBlock]⟩,
      .returnOffsetAcquire 512 0 ⟨1, 0⟩ ⟨1, 0⟩, .returnOffsetAcquire 0 0 badBlock ⟨1, 0⟩, .returnOffsetAcquire 0 0 ⟨1, 0⟩ badBlock,
      .lockLoss ⟨514, []⟩, .lockLoss ⟨0, [4]⟩, .lockLoss ⟨0, List.replicate 65 0⟩, .svcTimeout 512, .blockLockAcquire 514 [], .blockLockAcquire 0 [4]].all (fun c => !c.wf) = true := by decide

theorem test_wf_strings :
    [Instr.discoveryStart 512, .probeSend 512, .echoReceive 512 ⟨1, 0⟩ 0, .echoReceive 0 badBlock 0, .probeLost 512, .leadTrimChange 512,
      .unitUnobserved 4096, .unitLost 4096, .cutOff 512, .routeReassign 4096, .bridgeVerify .mgmt 512, .bridgeDiscovery 512,
      .handoverStart 256, .handoverEnd 256, .handbackGo .mgmt 512, .handbackStart 256, .handbackComplete 256, .handbackAbort 256,
      .quarantine 512, .bridgeLimitExpiry 256, .clearQuarantine .mgmt 512, .clearCounters .mgmt 512, .clearLost .mgmt 512,
      .retrim .mgmt 512].all (fun c => !c.wf) = true := by decide

theorem test_wf_cellar_and_crates :
    [Instr.rowRepairMark 4 0, .rowRepairMark 0 (2 ^ 20), .crateStaging 4, .crateCommitDecision 4, .cratePartTimeout 4,
      .crateAbortDecision 4, .crateApply 4, .crateVerifyEnd 4, .crateAbortDone 4, .crateBuildLimit 4,
      .crateSlotFree 4].all (fun c => !c.wf) = true := by decide

theorem test_wf_engines :
    [Instr.curveActivation 8, .envelopeViolation 8, .plausWindowEnd 5, .rcClear .mgmt 8, .genStart .mgmt 4, .genStop .mgmt 4,
      .armEnginePass 7, .profileLoad 4096, .forceSet .mgmt 4096 0, .forceSet .mgmt 0 4, .forceRelease .mgmt 4096, .bypassGo .mgmt 4096,
      .bypassFire 4096, .bypassConfirmTimeout 4096, .lostBypassRetry 4096].all (fun c => !c.wf) = true := by decide

theorem test_wf_protection_and_metering :
    [Instr.protectionPass true 512, .recoveryTimerExpiry true 71, .degradeExpiry false 71 0, .degradeExpiry false 0 512,
      .tripPulseEnd 4, .resetArm .mgmt 0x10000, .resetGo .mgmt 0x10000, .pulseStart 8, .pulseEnd 8, .merge .mgmt 4 0, .merge .mgmt 0 64,
      .discard .mgmt 4 0, .discard .mgmt 0 64, .sealMeter .mgmt 0x10000, .unsealMeter .mgmt 0x10000].all (fun c => !c.wf) = true := by
  decide

theorem test_wf_safety :
    [Instr.safetySample (2 ^ 32) 0 false, .safetySample 0 256 false, .safetyCycle (2 ^ 24) 0, .safetyCycle 0 512, .pairDiscFault 16,
      .testPulse 4, .offPulse 8, .readbackCheck 8, .confirmGo .mgmt 0x10000, .confirmDiscard .mgmt 0x10000,
      .stationFrameReceive 2 []].all (fun c => !c.wf) = true := by decide

theorem test_wf_hatches :
    [Instr.orderDoorbell 0 16 0, .completionDoorbell 0 16 0, .orderFetch 0 16, .descriptorReadDone 0 16 (.failed .error) 0,
      .descriptorReadDone 0 0 (.words []) 0, .descriptorReadDone 0 0 (.failed .timeout) 512, .bar2Write 0 (2 ^ 20),
      .hatchLinkUp 0 ⟨true, true, 0, List.replicate 65 (0, 0), {}⟩,
      .hatchLinkUp 0 ⟨true, true, 0, [], { width := 3 }⟩].all (fun c => !c.wf) = true := by
  decide

theorem test_wf_orders :
    [Instr.nop badRef, .energise badRef, .deblock badRef, .block badRef, .deenergise badRef, .nop ⟨0, 0, 0x10000, 0, false⟩,
      .nop ⟨0, 0, 0, 0x10000, false⟩, .setPoint badRef [⟨0, 0, 0⟩], .setPoint okRef [], .setPoint okRef (List.replicate 7 ⟨0, 0, 0⟩),
      .setPoint okRef [⟨8, 0, 0⟩], .setPoint okRef [⟨0, 256, 0⟩], .snapshot badRef ⟨true, false, false, 0, 0, 0, 0⟩,
      .snapshot okRef ⟨true, false, false, 0, 0x2000, 0, 0⟩, .snapshot okRef ⟨true, false, false, 0, 0, 4096, 0⟩, .crateOpen badRef,
      .crateAddGate badRef 0 0 [⟨0, 0⟩], .crateAddGate okRef 256 0 [⟨0, 0⟩], .crateAddGate okRef 0 4096 [⟨0, 0⟩],
      .crateAddGate okRef 0 0 [], .crateAddGate okRef 0 0 (List.replicate 6 ⟨0, 0⟩), .crateAddGate okRef 0 0 [⟨16, 0⟩],
      .crateAddGate okRef 0 0 [⟨0, 2 ^ 30⟩], .crateAddDevice badRef 0 0 0 0, .crateAddDevice okRef 256 0 0 0,
      .crateAddDevice okRef 0 256 0 0, .crateAddDevice okRef 0 0 (2 ^ 64) 0, .crateAddDevice okRef 0 0 0 (2 ^ 64), .crateClose badRef 0,
      .crateClose okRef 256, .crateAbort badRef 0, .crateAbort okRef 256].all (fun c => !c.wf) = true := by decide

theorem test_wf_start_and_power :
    [Instr.powerOn { vout := [none, none, none] }, .powerOn { badBanks := [4] }, .powerOn { badLanes := [512] },
      .restart .mgmt 0x10000 {}, .restart .mgmt 0 { badBanks := [4] }, .startStepTimeout { badLanes := [512] },
      .pmbusPoll (List.replicate 3 ⟨none, none, none, true⟩) 0, .voutCommand [true, true, true], .lockDeclared [] 256 0,
      .lockDeclared [] 0 (2 ^ 32), .format .mgmt 0x10000, .domainReady 50].all (fun c => !c.wf) = true := by decide

theorem test_wf_register_writes :
    [Instr.registerWrite ⟨.mgmt, 0x4000, 0, 0, true⟩, .registerWrite ⟨.mgmt, 0, 0, 512, true⟩, .setAliasWrite ⟨.mgmt, 0x3FFC, 0, 0, true⟩,
      .setAliasWrite ⟨.mgmt, 0x8000, 0, 0, true⟩, .clearAliasWrite ⟨.mgmt, 0x7FFC, 0, 0, true⟩, .clearAliasWrite ⟨.mgmt, 0xC000, 0, 0, true⟩,
      .toggleAliasWrite ⟨.mgmt, 0xBFFC, 0, 0, true⟩, .toggleAliasWrite ⟨.mgmt, 0x10000, 0, 0, true⟩, .setAliasWrite ⟨.mgmt, 0x4000, 0, 512, true⟩,
      .clearAliasWrite ⟨.mgmt, 0x8000, 0, 512, true⟩, .toggleAliasWrite ⟨.mgmt, 0xC000, 0, 512, true⟩].all (fun c => !c.wf) = true := by decide

theorem test_wf_ports :
    [Instr.mgmtWrite [] 0, .mgmtWrite [2] 512, .mgmtRead [], .mgmtStatus [], .statusClear [], .mgmtUnknownCommand [], .totalLoRead .mgmt 0x10000,
      .totalLoRead .mgmt 2, .dbgAccess true 0x10000 0 0, .dbgAccess true 0 0 512, .halt .mgmt 1024 0, .halt .mgmt 0 512,
      .resume .mgmt 1024, .stepEngine .mgmt 1024, .trkBinRead .mgmt 16].all (fun c => !c.wf) = true := by decide

theorem test_reset_idles : step State.reset = .next State.reset := by rfl

/-- A chopper unit of the worked example of chapter 04, with the delay that its probes gave. -/
def trimmedUnit (o : Nat) : UnitSt := { status := .present, homed := true, oHome := o }

/-- Lane 212 of the worked example of chapter 04. -/
def trimmed : State :=
  let s := onS .charge
  { s with
    sys := { s.sys with map := [(1696, 0x106), (1697, 0x106), (1698, 0x106), (1699, 0x106)] }
    lnk := { units := [(1696, trimmedUnit 14464), (1697, trimmedUnit 16368), (1698, trimmedUnit 18272), (1699, trimmedUnit 20176)] } }

/-- Worked example of chapter 04 (R112, R113): L = 2 ep and a trim of 2,147 fine steps. -/
theorem test_lead_trim_lane :
    (match exec (.leadTrimChange 212) trimmed with | .next t => ((t.lane 212).lead, (t.lane 212).tLane) | _ => (0, 0)) = (2, 2147) := by
  decide +kernel

/-- Worked example of chapter 04 (R113): the hold offsets of the four units. -/
theorem test_lead_trim_holds :
    (match exec (.leadTrimChange 212) trimmed with
      | .next t => [1696, 1697, 1698, 1699].map (fun h => (t.unit h).holdHome)
      | _ => []) = [16157, 14253, 12349, 10445] := by
  decide +kernel

/-- Worked example of chapter 10 (R316): the constant of a phase. -/
theorem test_meter_constant :
    ((run.setReg (R.MTR_SCALE 0) (toF32 40000)).setReg (R.MTR_SCALE 3) (toF32 600)).mtrC 0 3 = 805950546 := by decide +kernel

/-- Worked example of chapter 06 (R174, R190): one pass of the stop ramp from 4,000 A, with KI × T as its step. -/
theorem test_stop_ramp_step :
    rnd [2000000 * run.tEp] = 8589934 / 16777216 ∧
      motion false (some (rnd [2000000 * run.tEp])) none none 4000 0 = [4000, -(8589934 / 16777216)] := by
  decide +kernel

/-- R403: the domains that need CB0 are switched on when it is ready, and step CORE goes on waiting for them. -/
theorem test_core_waits_for_cb0 :
    (match exec (.domainReady 32) { lastStep with
        start := { powered := true, state := .running, active := true, step := 6 }, pwr := { ready := 2 ^ 49, switching := 2 ^ 32 } } with
      | .next t => decide (t.pwr.switching = 2 ^ 45 - 2 ^ 36) && decide (t.start.step = 6)
      | _ => false) = true := by decide +kernel

/-- Worked example of chapter 14 (R447, R452): a SET alias of MFE_INCFG[12] at 100 ns is pending for the next epoch, with the
other fields as they are in force. -/
theorem test_set_alias_pends :
    (match exec (.setAliasWrite ⟨.mgmt, 0x6530, 0x800, 100, true⟩) run with | .next t => t.regs.pend | _ => []) =
      [.image 0x2530 .mgmt (run.reg 0x2530 ||| 0x800) 1001 false 0x6530] := by
  decide +kernel

/-- Worked example of chapter 14 (R447): a CLEAR alias at 240 ns falls in the last 32 ns and takes effect an epoch later. -/
theorem test_clear_alias_late :
    (match exec (.clearAliasWrite ⟨.mgmt, 0xA830, 0x40000000, 240, true⟩) run with | .next t => t.regs.pend | _ => []) =
      [.ltClear 0x2830 .mgmt 0x40000000 1002] := by
  decide +kernel

end Sys2Proof.Tests
end

section
/-! PROOFS. The comparators of the Measurement Front End (O8): what their state operations do, then the obligation. -/

namespace Sys2Proof.Machine

/-- A change of comparator j changes no other comparator. -/
@[simp] theorem State.cmps_updCmp (s : State) (j k : Nat) (f : CmpSt → CmpSt) :
    smGet {} (s.updCmp j f).mfe.cmps k = if k = j then f (smGet {} s.mfe.cmps j) else smGet {} s.mfe.cmps k :=
  smGet_smUpd _ _ _ _ _

@[simp] theorem State.reg_updCmp (s : State) (j k : Nat) (f : CmpSt → CmpSt) : (s.updCmp j f).reg k = s.reg k := rfl

@[simp] theorem State.clearable_updCmp (s : State) (j k : Nat) (m : Word) (f : CmpSt → CmpSt) :
    (s.updCmp j f).clearable k m = s.clearable k m := rfl

/-- The word that a trip writes to MFE_CMP_STAT: LATCH, SIDE, the position in ns and E[15:0] (R53). -/
def cmpCapture (upper : Bool) (fine : Nat) (e : Epoch) : Word :=
  BitVec.ofNat 32 (2 ^ 31 + b2n upper * 2 ^ 30 + bits fine 8 0 * 2 ^ 16 + lowE 16 e)

/-- The fields of a captured word are apart: its value as a sum below 2^32. -/
theorem cmpCapture_toNat (upper : Bool) (fine : Nat) (e : Epoch) (hf : fine < 512) :
    (cmpCapture upper fine e).toNat = 2 ^ 31 + upper.toNat * 2 ^ 30 + fine * 2 ^ 16 + e.toNat % 2 ^ 16 := by
  have hb : b2n upper = upper.toNat := by cases upper <;> rfl
  have hu : upper.toNat ≤ 1 := upper.toNat_le
  have hfine : bits fine 8 0 = fine := by simp [bits]; omega
  rw [cmpCapture, hb, hfine, BitVec.toNat_ofNat, lowE]
  omega

theorem flag_cmpCapture_latch (upper : Bool) (fine : Nat) (e : Epoch) (hf : fine < 512) : flag (cmpCapture upper fine e) 31 = true := by
  rw [flag, ← BitVec.testBit_toNat, cmpCapture_toNat _ _ _ hf, Nat.testBit_eq_decide_div_mod_eq]
  have hu : upper.toNat ≤ 1 := upper.toNat_le
  simp only [decide_eq_true_eq]
  omega

theorem flag_cmpCapture_side (upper : Bool) (fine : Nat) (e : Epoch) (hf : fine < 512) : flag (cmpCapture upper fine e) 30 = upper := by
  rw [flag, ← BitVec.testBit_toNat, cmpCapture_toNat _ _ _ hf, Nat.testBit_eq_decide_div_mod_eq]
  cases upper <;> simp only [Bool.toNat_true, Bool.toNat_false, decide_eq_true_eq, decide_eq_false_iff_not] <;> omega

theorem fld_cmpCapture_fine (upper : Bool) (fine : Nat) (e : Epoch) (hf : fine < 512) : fld (cmpCapture upper fine e) 24 16 = fine := by
  have hu : upper.toNat ≤ 1 := upper.toNat_le
  rw [fld, bits, cmpCapture_toNat _ _ _ hf]
  omega

theorem fld_cmpCapture_epoch (upper : Bool) (fine : Nat) (e : Epoch) (hf : fine < 512) :
    fld (cmpCapture upper fine e) 15 0 = e.toNat % 65536 := by
  rw [fld, bits, cmpCapture_toNat _ _ _ hf]
  omega

/-- A trip of a latched comparator keeps its captures and every other register (R53). -/
theorem State.reg_cmpLatch_latched (s : State) (j : Nat) (upper : Bool) (fine : Nat) (h : s.rb (R.MFE_CMP_STAT j) 31 = true) (k : Nat) :
    (s.cmpLatch j upper fine).reg k = s.reg k := by
  have h' : (((s.updCmp j fun c => { c with out := true }).noteLt (R.MFE_CMP_STAT j) (maskOf 31 31)).rb (R.MFE_CMP_STAT j) 31) = true := h
  simp [State.cmpLatch, h']

/-- A trip of a comparator that is not latched writes its captures and MFE_CAUSE.COMPARATOR, and no other register (R53, R62). -/
theorem State.reg_cmpLatch_unlatched (s : State) (j : Nat) (upper : Bool) (fine : Nat) (h : s.rb (R.MFE_CMP_STAT j) 31 = false) (k : Nat) :
    (s.cmpLatch j upper fine).reg k = ((s.setReg (R.MFE_CMP_STAT j) (cmpCapture upper fine s.sys.epoch)).latch R.MFE_CAUSE 1).reg k := by
  have h' : (((s.updCmp j fun c => { c with out := true }).noteLt (R.MFE_CMP_STAT j) (maskOf 31 31)).rb (R.MFE_CMP_STAT j) 31) = false := h
  simp only [State.cmpLatch, h', Bool.false_eq_true, if_false]
  rfl

/-- LATCH of comparator j with the captures of a trip at a position of epoch e, and MFE_CAUSE.COMPARATOR (R53, R62). -/
def CmpCaptured (t : State) (j : Nat) (upper : Bool) (fine : Nat) (e : Epoch) : Prop :=
  t.rb (R.MFE_CMP_STAT j) 31 = true ∧ t.rb (R.MFE_CMP_STAT j) 30 = upper ∧ t.rf (R.MFE_CMP_STAT j) 24 16 = fine ∧
    t.rf (R.MFE_CMP_STAT j) 15 0 = e.toNat % 65536 ∧ t.rb R.MFE_CAUSE 1 = true

/-- MFE_CMP_STAT and MFE_CAUSE are all that CmpCaptured reads. -/
theorem CmpCaptured.congr {s t : State} {j fine : Nat} {upper : Bool} {e : Epoch} (hs : t.reg (R.MFE_CMP_STAT j) = s.reg (R.MFE_CMP_STAT j))
    (hc : t.reg R.MFE_CAUSE = s.reg R.MFE_CAUSE) (h : CmpCaptured s j upper fine e) : CmpCaptured t j upper fine e := by
  simpa only [CmpCaptured, State.rb, State.rf, hs, hc] using h

theorem State.cmpLatch_captured (s : State) (j : Nat) (upper : Bool) (fine : Nat) (hj : j < 16) (hf : fine < 512)
    (h : s.rb (R.MFE_CMP_STAT j) 31 = false) : CmpCaptured (s.cmpLatch j upper fine) j upper fine s.sys.epoch := by
  have hne : R.MFE_CMP_STAT j ≠ R.MFE_CAUSE := by simp only [R.MFE_CMP_STAT, R.MFE_CAUSE]; omega
  have hstat : (s.cmpLatch j upper fine).reg (R.MFE_CMP_STAT j) = cmpCapture upper fine s.sys.epoch := by
    rw [State.reg_cmpLatch_unlatched s j upper fine h, State.reg_latch, if_neg hne, State.reg_setReg, if_pos rfl]
  refine ⟨?_, ?_, ?_, ?_, ?_⟩
  · rw [State.rb, hstat, flag_cmpCapture_latch upper fine _ hf]
  · rw [State.rb, hstat, flag_cmpCapture_side upper fine _ hf]
  · rw [State.rf, hstat, fld_cmpCapture_fine upper fine _ hf]
  · rw [State.rf, hstat, fld_cmpCapture_epoch upper fine _ hf]
  · rw [State.rb, State.reg_cmpLatch_unlatched s j upper fine h]
    exact State.rb_latch _ _ _ (by decide)

/-- A trip changes no register but MFE_CMP_STAT of its comparator and MFE_CAUSE. -/
theorem State.cmpLatch_regsBut (s : State) (j : Nat) (upper : Bool) (fine : Nat) :
    RegsBut [R.MFE_CMP_STAT j, R.MFE_CAUSE] s (s.cmpLatch j upper fine) := by
  intro k hk
  obtain ⟨hstat, hcause⟩ : k ≠ R.MFE_CMP_STAT j ∧ k ≠ R.MFE_CAUSE := by simpa using hk
  cases h : s.rb (R.MFE_CMP_STAT j) 31 with
  | true => exact State.reg_cmpLatch_latched s j upper fine h k
  | false =>
    rw [State.reg_cmpLatch_unlatched s j upper fine h, State.reg_latch, if_neg hcause, State.reg_setReg, if_neg hstat]

/-- A trip sets OUT, latched or not (R53). -/
theorem State.cmpLatch_out (s : State) (j : Nat) (upper : Bool) (fine : Nat) : (smGet {} (s.cmpLatch j upper fine).mfe.cmps j).out = true := by
  have hmfe : (s.cmpLatch j upper fine).mfe = (s.updCmp j fun c => { c with out := true }).mfe := by
    unfold State.cmpLatch; dsimp only; split <;> rfl
  rw [hmfe, State.cmps_updCmp, if_pos rfl]

/-- BLOCK on the lanes leaves the count of firings. -/
@[simp] theorem State.sendBlocks_blocks (s : State) (ns : Nat) : (s.sendBlocks ns).lnk.blocks = s.lnk.blocks := by
  have hlane (s : State) (l : Nat) : (s.insertBlock ns l).lnk.blocks = s.lnk.blocks := rfl
  unfold State.sendBlocks
  split
  · exact List.foldlRecOn (motive := fun t => t.lnk.blocks = s.lnk.blocks) _ _ rfl fun t ht l _ => (hlane t l).trans ht
  · rfl

/-- When the block logic fires it latches its input and counts, then sets bit 0 of PRT_CAUSE; nothing after that writes a register
(R291). -/
theorem State.blockFire_regs (s : State) (input fine : Nat) :
    ∃ r : State, RegsBut [R.PRT_BLOCK_LATCH, R.PRT_BLOCK_CNT] s r ∧ (s.blockFire input fine).regs = (r.latch R.PRT_CAUSE 0).regs := by
  unfold State.blockFire
  extract_lets s1 s2 s3 halt s4 lnk4 prt4 s5
  refine ⟨s2.count R.PRT_BLOCK_CNT 31 0, fun k hk => ?_, ?_⟩
  · obtain ⟨hlatch, hcnt⟩ : k ≠ R.PRT_BLOCK_LATCH ∧ k ≠ R.PRT_BLOCK_CNT := by simpa using hk
    have h2 : s2.reg k = s.reg k := by
      simp only [s2]
      split
      · rfl
      · rw [State.reg_setReg, if_neg hlatch]; rfl
    rw [State.reg_count, if_neg hcnt, h2]
  · calc (s5.dbgTrigger 2).regs = s5.regs := keep_regs (by simp)
      _ = s3.regs := keep_regs (s := s3) (t := s4) (by simp [s4])

/-- The block logic writes PRT_BLOCK_LATCH, PRT_BLOCK_CNT and PRT_CAUSE, and no other register (R291). -/
theorem State.blockFire_regsBut (s : State) (input fine : Nat) :
    RegsBut [R.PRT_BLOCK_LATCH, R.PRT_BLOCK_CNT, R.PRT_CAUSE] s (s.blockFire input fine) := by
  obtain ⟨r, hr, hregs⟩ := s.blockFire_regs input fine
  intro k hk
  obtain ⟨hlatch, hcnt, hcause⟩ : k ≠ R.PRT_BLOCK_LATCH ∧ k ≠ R.PRT_BLOCK_CNT ∧ k ≠ R.PRT_CAUSE := by simpa using hk
  rw [State.reg_congr hregs, State.reg_latch, if_neg hcause, hr k (by simp [hlatch, hcnt])]

theorem State.blockFire_prtCause (s : State) (input fine : Nat) : (s.blockFire input fine).rb R.PRT_CAUSE 0 = true := by
  obtain ⟨r, -, hregs⟩ := s.blockFire_regs input fine
  rw [State.rb, State.reg_congr hregs]
  exact State.rb_latch r _ _ (by decide)

/-- The block logic counts one firing that sends BLOCK (R291). -/
theorem State.blockFire_blocks (s : State) (input fine : Nat) : (s.blockFire input fine).lnk.blocks = s.lnk.blocks + 1 := by
  unfold State.blockFire
  extract_lets s1 s2 s3 halt s4 lnk4 prt4 s5
  have h3 : s3.lnk = s.lnk := keep_lnk (by simp [s3, s2, s1])
  calc (s5.dbgTrigger 2).lnk.blocks = s5.lnk.blocks := congrArg LnkSt.blocks (keep_lnk (by simp))
    _ = s3.lnk.blocks + 1 := congrArg (· + 1) (s3.sendBlocks_blocks fine)
    _ = s.lnk.blocks + 1 := by rw [h3]

theorem State.blockFire_firedNow (s : State) (input fine : Nat) : (s.blockFire input fine).prt.firedNow = true := by
  unfold State.blockFire
  extract_lets s1 s2 s3 halt s4 lnk4 prt4 s5
  exact congrArg PrtSt.firedNow (keep_prt (s := s5) (by simp))

/-- A trip that acts: an armed comparator, not tripped yet and not under test, latches, and fires the block logic with BLOCK_EN (R53,
R54). -/
theorem exec_comparatorTrip (j : Nat) (upper : Bool) (fine : Nat) (s : State) (hj : j < 16) (harm : s.cmpArmed j upper = true)
    (hout : (smGet {} s.mfe.cmps j).out = false) (htest : s.cmpTested j = false) :
    exec (.comparatorTrip j upper fine) s =
      .next (if s.rb (R.MFE_CMP_CFG j) 6 then (s.cmpLatch j upper fine).blockFire j fine else s.cmpLatch j upper fine) := by
  have hj' : ¬ 16 ≤ j := by omega
  show execComparatorTrip j upper fine s = _
  simp [execComparatorTrip, hj', harm, hout, htest]

/-- A trip with BLOCK_EN = 1 keeps what its latch wrote: the block logic writes none of the registers of the comparators. -/
theorem State.reg_blockFire_cmpStat (s : State) (i fine j : Nat) (hj : j < 16) :
    (s.blockFire i fine).reg (R.MFE_CMP_STAT j) = s.reg (R.MFE_CMP_STAT j) :=
  s.blockFire_regsBut i fine _ (by
    simp only [R.MFE_CMP_STAT, R.PRT_BLOCK_LATCH, R.PRT_BLOCK_CNT, R.PRT_CAUSE, List.mem_cons, List.not_mem_nil, or_false]
    omega)

/-- The period of an armed comparator has run out: its count restarts and, with AUTOCLR, its latch is cleared (R55, R56). -/
theorem exec_rampPeriodStart (j : Nat) (s : State) (harm : (smGet {} s.mfe.cmps j).armed = true)
    (hper : s.rf (R.MFE_CMP_RAMP j) 31 16 ≠ 0) (hend : s.rf (R.MFE_CMP_RAMP j) 31 16 ≤ (smGet {} s.mfe.cmps j).t) :
    exec (.rampPeriodStart j) s = .next (if s.rb (R.MFE_CMP_CFG j) 7 then (s.updCmp j fun c => { c with t := 0 }).cmpClear j
      else s.updCmp j fun c => { c with t := 0 }) := by
  show execRampPeriodStart j s = _
  simp only [execRampPeriodStart, harm, hper, hend, ne_eq, not_false_eq_true, and_self, if_true]
  rfl

@[simp] theorem State.cmpClear_mfe (s : State) (j : Nat) : (s.cmpClear j).mfe = s.mfe := by
  unfold State.cmpClear; split <;> rfl

theorem State.cmpClear_regsBut (s : State) (j : Nat) : RegsBut [R.MFE_CMP_STAT j] s (s.cmpClear j) := by
  intro k hk
  unfold State.cmpClear
  split
  · rfl
  · rw [State.reg_setReg, if_neg (by simpa using hk)]

/-- The latch of a comparator that is not tripped, with no trip in the present epoch, is cleared with its captures (R56, R11). -/
theorem State.cmpClear_stat (s : State) (j : Nat) (hout : (smGet {} s.mfe.cmps j).out = false)
    (hclr : s.clearable (R.MFE_CMP_STAT j) 0x80000000 ≠ 0) : (s.cmpClear j).reg (R.MFE_CMP_STAT j) = 0 := by
  have hmask : maskOf 31 31 = 0x80000000 := by decide
  rw [State.cmpClear, if_neg (by simp only [hout, hmask, hclr, Bool.false_eq_true, or_self, not_false_eq_true]), State.reg_setReg, if_pos rfl]

/-- Settles O8: a trip is cmpLatch, with blockFire after it when BLOCK_EN = 1, and a period restart is an update and cmpClear. -/
theorem comparators : Obligations.Comparators := by
  refine ⟨?noBlock, ?block, ?restart⟩
  case noBlock =>
    intro j upper fine s hj hf harm hout htest hblk
    refine ⟨s.cmpLatch j upper fine, ?_, s.cmpLatch_out j upper fine, s.cmpLatch_captured j upper fine hj hf, ?_,
      s.cmpLatch_regsBut j upper fine, by simp⟩
    · rw [exec_comparatorTrip j upper fine s hj harm hout htest, hblk, if_neg Bool.false_ne_true]
    · exact fun hl k _ => s.reg_cmpLatch_latched j upper fine hl k
  case block =>
    intro j upper fine s hj hf harm hout htest hblk
    have hstat := (s.cmpLatch j upper fine).reg_blockFire_cmpStat j fine j hj
    have hcause := (s.cmpLatch j upper fine).blockFire_regsBut j fine R.MFE_CAUSE (by decide)
    have hmfe : ((s.cmpLatch j upper fine).blockFire j fine).mfe = (s.cmpLatch j upper fine).mfe := keep_mfe (by simp)
    have hlnk : (s.cmpLatch j upper fine).lnk = s.lnk := keep_lnk (by simp)
    refine ⟨(s.cmpLatch j upper fine).blockFire j fine, ?_, ?_, ?_, ?_, ?_, State.blockFire_firedNow _ _ _, State.blockFire_prtCause _ _ _,
      by simp⟩
    · rw [exec_comparatorTrip j upper fine s hj harm hout htest, hblk, if_pos rfl]
    · rw [hmfe, s.cmpLatch_out j upper fine]
    · exact fun hl => (s.cmpLatch_captured j upper fine hj hf hl).congr hstat hcause
    · exact fun hl => hstat.trans (s.reg_cmpLatch_latched j upper fine hl _)
    · rw [State.blockFire_blocks, hlnk]
  case restart =>
    intro j s harm hper hend
    rw [exec_rampPeriodStart j s harm hper hend]
    cases hauto : s.rb (R.MFE_CMP_CFG j) 7 with
    | false => exact ⟨_, rfl, by simp, by simp, fun _ _ => rfl, by simp⟩
    | true =>
      refine ⟨_, rfl, by simp, fun _ hout hclr => ?_, fun k hk => ?_, by simp⟩
      · exact State.cmpClear_stat _ j (by simpa using hout) hclr
      · exact State.cmpClear_regsBut _ j k hk

end Sys2Proof.Machine
end

section
/-! PROOFS. The frames of the management port (O52): an entry of its status word made before the epochs are counted leaves no note of the
epoch, which refutes the clause of the unknown command byte. -/

namespace Sys2Proof.Machine

/-- While the epochs are not counted, an entry of the management-port status notes no event of the present epoch (R11, R444). -/
theorem State.logErr_mgmt_regs_uncounted (s : State) (kind off : Nat) (h : s.sys.counting = false) :
    (s.logErr .mgmt kind off).regs = s.regs := by
  simp [State.logErr, State.noteLt, h]

/-- Once the port is on, an unknown command byte has its entry of kind 9 and no other effect (R443). -/
theorem exec_mgmtUnknownCommand (f : List Byte) (s : State) (hon : s.mgmtOn = true) (hf : f ≠ [])
    (hcmd : frameByte f 0 ∉ [0x02, 0x03, 0x05, 0x06]) : exec (.mgmtUnknownCommand f) s = .next (s.logErr .mgmt 9 0) := by
  show execMgmtUnknownCommand f s = _
  rw [execMgmtUnknownCommand, if_neg (by simp only [hon, hf, hcmd, Bool.true_eq_false, or_self, not_false_eq_true])]

/-- Refutes O52: the port is on from 1 ms after PORST_N (R445), whether or not the epochs are counted yet. An unknown command byte that
comes before E(0) has its entry in the status word, but there is no epoch yet in which to note it, and the last clause asks for the note
in every state with the port on. The state below is reset with the power on for 1 ms. -/
theorem not_managementFrames : ¬ Obligations.ManagementFrames := by
  intro h
  obtain ⟨-, -, -, -, -, -, -, -, -, -, -, hunknown⟩ := h
  have hon : State.mgmtOn { State.reset with start := { powered := true, aoNs := 1000000 } } = true := by decide
  have hcmd : frameByte [0x09] 0 ∉ [0x02, 0x03, 0x05, 0x06] := by decide
  obtain ⟨t, hexec, -, -, hnoted, -⟩ := hunknown [0x09] _ hon (by decide) hcmd
  obtain rfl := Host.Outcome.next.inj ((exec_mgmtUnknownCommand [0x09] _ hon (by decide) hcmd).symm.trans hexec)
  rw [State.logErr_mgmt_regs_uncounted _ 9 0 rfl] at hnoted
  exact hnoted rfl

end Sys2Proof.Machine
end

section
/-! PROOFS. What every command does (O1, O57, O58): it answers a next state, it keeps the queue, and most commands keep the
system block. -/

namespace Sys2Proof.Machine

/-- A part that a frame does not list is kept: the queue. -/
theorem Frame.pending_eq {W : List Part} {s t : State} (h : Frame W s t) (hp : .pending ∉ W := by decide) : t.pending = s.pending :=
  h .pending hp

/-- A part that a frame does not list is kept: the system block. -/
theorem Frame.sys_eq {W : List Part} {s t : State} (h : Frame W s t) (hs : .sys ∉ W := by decide) : t.sys = s.sys := h .sys hs

/-- The commands whose frame lists the system block (R31, R39). -/
def movesSys : Instr → Bool
  | .epochBoundary _ | .chargeComplete | .chargeConditionsLost | .chargeTimeout | .runStart | .deadlineMiss _
  | .crateApply _ | .gridEnginePass | .chopperPass | .controlPass | .armEnginePass _ | .edgePlannerPass
  | .protectionPass _ _ | .recoveryComplete | .resetGo _ _ | .meteringPass | .hatchReset _ _
  | .ringCfgWrite _ _ | .ringReset _ | .orderDoorbell _ _ _ | .completionDoorbell _ _ _ | .eventDoorbell _ _
  | .energise _ | .deblock _ | .block _ | .deenergise _ | .kick _ | .powerOn _ | .continueStart _
  | .restart _ _ _ | .lockDeclared _ _ _ | .unmute | .registerWrite _ | .setAliasWrite _ | .clearAliasWrite _
  | .toggleAliasWrite _ | .mgmtWrite _ _ | .dbgAccess _ _ _ _ | .domainReady _ | .startStepTimeout _
  | .lossOfVaon | .porstNAssert => true
  | _ => false

/-- What a command keeps at least: the queue, and the system block if its frame does not list it. -/
def KeptBy (c : Instr) (s t : State) : Prop := t.pending = s.pending ∧ (movesSys c = false → t.sys = s.sys)

theorem Frame.kept {W : List Part} {c : Instr} {s t : State} (h : Frame W s t) (hp : .pending ∉ W := by decide)
    (hs : .sys ∉ W := by decide) : KeptBy c s t := ⟨h.pending_eq hp, fun _ => h.sys_eq hs⟩

theorem Frame.keptMoving {W : List Part} {c : Instr} {s t : State} (h : Frame W s t) (hp : .pending ∉ W := by decide)
    (hc : movesSys c = true := by rfl) : KeptBy c s t := ⟨h.pending_eq hp, fun hf => absurd (hf.symm.trans hc) Bool.false_ne_true⟩

/-- Each command's own frame says what it keeps. -/
theorem exec_kept {c : Instr} {s t : State} (e : exec c s = .next t) : KeptBy c s t := by
  cases c with
  | epochBoundary b => exact (execEpochBoundary_frame b e).keptMoving
  | preEpochVote upsets => exact (execPreEpochVote_frame upsets e).kept
  | chargeComplete => exact (execChargeComplete_frame e).keptMoving
  | chargeConditionsLost => exact (execChargeConditionsLost_frame e).keptMoving
  | chargeTimeout => exact (execChargeTimeout_frame e).keptMoving
  | runStart => exact (execRunStart_frame e).keptMoving
  | deadlineMiss item => exact (execDeadlineMiss_frame item e).keptMoving
  | epochLoRead req => exact (execEpochLoRead_frame req e).kept
  | slotSample slot v enc => exact (execSlotSample_frame slot v enc e).kept
  | gainUpSwitch input => exact (execGainUpSwitch_frame input e).kept
  | epochValueDelivery => exact (execEpochValueDelivery_frame e).kept
  | openWireDeclare input => exact (execOpenWireDeclare_frame input e).kept
  | openWireClear input => exact (execOpenWireClear_frame input e).kept
  | xchkFailure pair => exact (execXchkFailure_frame pair e).kept
  | xchkRecovery pair => exact (execXchkRecovery_frame pair e).kept
  | comparatorTrip cmp upper fine => exact (execComparatorTrip_frame cmp upper fine e).kept
  | rampPeriodStart cmp => exact (execRampPeriodStart_frame cmp e).kept
  | mfeTestStart req kind target => exact (execMfeTestStart_frame req kind target e).kept
  | selfTestComplete => exact (execSelfTestComplete_frame e).kept
  | encoderEvaluation => exact (execEncoderEvaluation_frame e).kept
  | encReref req enc pos => exact (execEncReref_frame req enc pos e).kept
  | frameLaunch lane => exact (execFrameLaunch_frame lane e).kept
  | returnFrameReceive lane blocks => exact (execReturnFrameReceive_frame lane blocks e).kept
  | headerWindowMiss lane => exact (execHeaderWindowMiss_frame lane e).kept
  | returnOffsetAcquire lane ofs first second => exact (execReturnOffsetAcquire_frame lane ofs first second e).kept
  | lockLoss lane => exact (execLockLoss_frame lane e).kept
  | svcTimeout lane => exact (execSvcTimeout_frame lane e).kept
  | discoveryStart lane => exact (execDiscoveryStart_frame lane e).kept
  | probeSend lane => exact (execProbeSend_frame lane e).kept
  | echoReceive lane echo rt => exact (execEchoReceive_frame lane echo rt e).kept
  | probeLost lane => exact (execProbeLost_frame lane e).kept
  | leadTrimChange lane => exact (execLeadTrimChange_frame lane e).kept
  | unitUnobserved home => exact (execUnitUnobserved_frame home e).kept
  | unitLost home => exact (execUnitLost_frame home e).kept
  | cutOff lane => exact (execCutOff_frame lane e).kept
  | routeReassign home => exact (execRouteReassign_frame home e).kept
  | bridgeVerify req lane => exact (execBridgeVerify_frame req lane e).kept
  | bridgeVerifyNoPath => exact (execBridgeVerifyNoPath_frame e).kept
  | bridgeDiscovery lane => exact (execBridgeDiscovery_frame lane e).kept
  | handoverStart pair => exact (execHandoverStart_frame pair e).kept
  | handoverEnd pair => exact (execHandoverEnd_frame pair e).kept
  | handbackGo req lane => exact (execHandbackGo_frame req lane e).kept
  | handbackStart pair => exact (execHandbackStart_frame pair e).kept
  | handbackComplete pair => exact (execHandbackComplete_frame pair e).kept
  | handbackAbort pair => exact (execHandbackAbort_frame pair e).kept
  | quarantine lane => exact (execQuarantine_frame lane e).kept
  | bridgeLimitExpiry pair => exact (execBridgeLimitExpiry_frame pair e).kept
  | clearQuarantine req lane => exact (execClearQuarantine_frame req lane e).kept
  | clearCounters req lane => exact (execClearCounters_frame req lane e).kept
  | clearLost req lane => exact (execClearLost_frame req lane e).kept
  | retrim req lane => exact (execRetrim_frame req lane e).kept
  | lnkTblRead req => exact (execLnkTblRead_frame req e).kept
  | sealPass => exact (execSealPass_frame e).kept
  | rowRepairMark bank row => exact (execRowRepairMark_frame bank row e).kept
  | snapshotCopy hatch => exact (execSnapshotCopy_frame hatch e).kept
  | celCtrClear req => exact (execCelCtrClear_frame req e).kept
  | crateStaging slot => exact (execCrateStaging_frame slot e).kept
  | crateCommitDecision slot => exact (execCrateCommitDecision_frame slot e).kept
  | cratePartTimeout slot => exact (execCratePartTimeout_frame slot e).kept
  | crateAbortDecision slot => exact (execCrateAbortDecision_frame slot e).kept
  | crateApply slot => exact (execCrateApply_frame slot e).keptMoving
  | crateVerifyEnd slot => exact (execCrateVerifyEnd_frame slot e).kept
  | crateAbortDone slot => exact (execCrateAbortDone_frame slot e).kept
  | crateBuildLimit slot => exact (execCrateBuildLimit_frame slot e).kept
  | crateSlotFree slot => exact (execCrateSlotFree_frame slot e).kept
  | gridEnginePass => exact (execGridEnginePass_frame e).keptMoving
  | observerLock => exact (execObserverLock_frame e).kept
  | observerLos => exact (execObserverLos_frame e).kept
  | freewheelTimeout => exact (execFreewheelTimeout_frame e).kept
  | rocofWindowEnd => exact (execRocofWindowEnd_frame e).kept
  | frtEntry => exact (execFrtEntry_frame e).kept
  | frtExit => exact (execFrtExit_frame e).kept
  | frtTimeout => exact (execFrtTimeout_frame e).kept
  | curveActivation curve => exact (execCurveActivation_frame curve e).kept
  | envelopeViolation curve => exact (execEnvelopeViolation_frame curve e).kept
  | islandConfirm => exact (execIslandConfirm_frame e).kept
  | islandPulse => exact (execIslandPulse_frame e).kept
  | toGfm req => exact (execToGfm_frame req e).kept
  | toGfl req => exact (execToGfl_frame req e).kept
  | gflTransfer => exact (execGflTransfer_frame e).kept
  | cancel req => exact (execCancel_frame req e).kept
  | clearIsland req => exact (execClearIsland_frame req e).kept
  | clearFrt req => exact (execClearFrt_frame req e).kept
  | chopperPass => exact (execChopperPass_frame e).keptMoving
  | controlPass => exact (execControlPass_frame e).keptMoving
  | stopRampComplete => exact (execStopRampComplete_frame e).kept
  | stopRampTimeout => exact (execStopRampTimeout_frame e).kept
  | plausWindowEnd check => exact (execPlausWindowEnd_frame check e).kept
  | rcClear req table => exact (execRcClear_frame req table e).kept
  | clearCheckCounts req => exact (execClearCheckCounts_frame req e).kept
  | genStart req gen => exact (execGenStart_frame req gen e).kept
  | genStop req gen => exact (execGenStop_frame req gen e).kept
  | capArm req => exact (execCapArm_frame req e).kept
  | capAbort req => exact (execCapAbort_frame req e).kept
  | capTrigger => exact (execCapTrigger_frame e).kept
  | capDone => exact (execCapDone_frame e).kept
  | armEnginePass group => exact (execArmEnginePass_frame group e).keptMoving
  | edgePlannerPass => exact (execEdgePlannerPass_frame e).keptMoving
  | profileLoad home => exact (execProfileLoad_frame home e).kept
  | forceSet req home code => exact (execForceSet_frame req home code e).kept
  | forceRelease req home => exact (execForceRelease_frame req home e).kept
  | forceReleaseAll req => exact (execForceReleaseAll_frame req e).kept
  | bypassGo req home => exact (execBypassGo_frame req home e).kept
  | bypassFire home => exact (execBypassFire_frame home e).kept
  | bypassConfirmTimeout home => exact (execBypassConfirmTimeout_frame home e).kept
  | lostBypassRetry home => exact (execLostBypassRetry_frame home e).kept
  | protectionPass isA ns => exact (execProtectionPass_frame isA ns e).keptMoving
  | abDisc => exact (execAbDisc_frame e).kept
  | recoveryTimerExpiry isA source => exact (execRecoveryTimerExpiry_frame isA source e).kept
  | degradeExpiry isA source ns => exact (execDegradeExpiry_frame isA source ns e).kept
  | recoveryComplete => exact (execRecoveryComplete_frame e).keptMoving
  | holdTimeout => exact (execHoldTimeout_frame e).kept
  | tripPulseEnd trip => exact (execTripPulseEnd_frame trip e).kept
  | resetArm req key => exact (execResetArm_frame req key e).kept
  | resetGo req key => exact (execResetGo_frame req key e).keptMoving
  | resetArmExpiry => exact (execResetArmExpiry_frame e).kept
  | meteringPass => exact (execMeteringPass_frame e).keptMoving
  | pulseStart output => exact (execPulseStart_frame output e).kept
  | pulseEnd output => exact (execPulseEnd_frame output e).kept
  | merge req tally mask => exact (execMerge_frame req tally mask e).kept
  | discard req tally mask => exact (execDiscard_frame req tally mask e).kept
  | sealMeter req key => exact (execSealMeter_frame req key e).kept
  | unsealMeter req key => exact (execUnsealMeter_frame req key e).kept
  | meterCheckRecompute => exact (execMeterCheckRecompute_frame e).kept
  | periodicSave => exact (execPeriodicSave_frame e).kept
  | safetySample raw srb srst => exact (execSafetySample_frame raw srb srst e).kept
  | safetyCycle diff ns => exact (execSafetyCycle_frame diff ns e).kept
  | pairDiscFault pair => exact (execPairDiscFault_frame pair e).kept
  | testPulse tpo => exact (execTestPulse_frame tpo e).kept
  | offPulse output => exact (execOffPulse_frame output e).kept
  | readbackCheck output => exact (execReadbackCheck_frame output e).kept
  | deadHeld => exact (execDeadHeld_frame e).kept
  | safetyResetRequest => exact (execSafetyResetRequest_frame e).kept
  | resetStuck => exact (execResetStuck_frame e).kept
  | confirmGo req key => exact (execConfirmGo_frame req key e).kept
  | confirmDiscard req key => exact (execConfirmDiscard_frame req key e).kept
  | safetySetInForce => exact (execSafetySetInForce_frame e).kept
  | safetyCheckRecompute => exact (execSafetyCheckRecompute_frame e).kept
  | safetySetReload => exact (execSafetySetReload_frame e).kept
  | telegramSend => exact (execTelegramSend_frame e).kept
  | stationFrameReceive port bytes => exact (execStationFrameReceive_frame port bytes e).kept
  | telegramWatchdog => exact (execTelegramWatchdog_frame e).kept
  | mirrorSend => exact (execMirrorSend_frame e).kept
  | hatchReset hatch kind => exact (execHatchReset_frame hatch kind e).keptMoving
  | ringCfgWrite hatch value => exact (execRingCfgWrite_frame hatch value e).keptMoving
  | ringReset hatch => exact (execRingReset_frame hatch e).keptMoving
  | orderDoorbell hatch ring value => exact (execOrderDoorbell_frame hatch ring value e).keptMoving
  | completionDoorbell hatch ring value => exact (execCompletionDoorbell_frame hatch ring value e).keptMoving
  | eventDoorbell hatch value => exact (execEventDoorbell_frame hatch value e).keptMoving
  | orderFetch hatch ring => exact (execOrderFetch_frame hatch ring e).kept
  | descriptorReadDone hatch ring res ns => exact (execDescriptorReadDone_frame hatch ring res ns e).kept
  | nop ref => exact (execNop_frame ref e).kept
  | energise ref => exact (execEnergise_frame ref e).keptMoving
  | deblock ref => exact (execDeblock_frame ref e).keptMoving
  | block ref => exact (execBlock_frame ref e).keptMoving
  | deenergise ref => exact (execDeenergise_frame ref e).keptMoving
  | setPoint ref entries => exact (execSetPoint_frame ref entries e).kept
  | snapshot ref args => exact (execSnapshot_frame ref args e).kept
  | crateOpen ref => exact (execCrateOpen_frame ref e).kept
  | crateAddGate ref id home items => exact (execCrateAddGate_frame ref id home items e).kept
  | crateAddDevice ref id part w2 w3 => exact (execCrateAddDevice_frame ref id part w2 w3 e).kept
  | crateClose ref id => exact (execCrateClose_frame ref id e).kept
  | crateAbort ref id => exact (execCrateAbort_frame ref id e).kept
  | kick hatch => exact (execKick_frame hatch e).keptMoving
  | hatchSilence hatch => exact (execHatchSilence_frame hatch e).kept
  | powerOn inp => exact (execPowerOn_frame inp e).keptMoving
  | continueStart req => exact (execContinueStart_frame req e).keptMoving
  | restart req key inp => exact (execRestart_frame req key inp e).keptMoving
  | pmbusPoll replies other_mW => exact (execPmbusPoll_frame replies other_mW e).kept
  | slackWindowEnd => exact (execSlackWindowEnd_frame e).kept
  | voutCommand acks => exact (execVoutCommand_frame acks e).kept
  | budgetAdmit => exact (execBudgetAdmit_frame e).kept
  | lockDeclared windows band control => exact (execLockDeclared_frame windows band control e).keptMoving
  | referenceLoss => exact (execReferenceLoss_frame e).kept
  | unmute => exact (execUnmute_frame e).keptMoving
  | pfailAssert => exact (execPfailAssert_frame e).kept
  | pfailRelease => exact (execPfailRelease_frame e).kept
  | trunkWriteStart => exact (execTrunkWriteStart_frame e).kept
  | trunkWriteComplete ok => exact (execTrunkWriteComplete_frame ok e).kept
  | format req key => exact (execFormat_frame req key e).kept
  | registerWrite w => exact (execRegisterWrite_frame w e).keptMoving
  | setAliasWrite w => exact (execSetAliasWrite_frame w e).keptMoving
  | clearAliasWrite w => exact (execClearAliasWrite_frame w e).keptMoving
  | toggleAliasWrite w => exact (execToggleAliasWrite_frame w e).keptMoving
  | mgmtWrite frame ns => exact (execMgmtWrite_frame frame ns e).keptMoving
  | mgmtRead frame => exact (execMgmtRead_frame frame e).kept
  | mgmtStatus frame => exact (execMgmtStatus_frame frame e).kept
  | statusClear frame => exact (execStatusClear_frame frame e).kept
  | totalLoRead req off => exact (execTotalLoRead_frame req off e).kept
  | tapReset => exact (execTapReset_frame e).kept
  | extest cells => exact (execExtest_frame cells e).kept
  | idcode => exact (execIdcode_frame e).kept
  | samplePreload cells => exact (execSamplePreload_frame cells e).kept
  | highz => exact (execHighz_frame e).kept
  | clamp => exact (execClamp_frame e).kept
  | tapBypass => exact (execTapBypass_frame e).kept
  | dbgAccess write off value ns => exact (execDbgAccess_frame write off value ns e).keptMoving
  | halt req targets ns => exact (execHalt_frame req targets ns e).kept
  | resume req targets => exact (execResume_frame req targets e).kept
  | stepEngine req targets => exact (execStepEngine_frame req targets e).kept
  | dbgCapArm req => exact (execDbgCapArm_frame req e).kept
  | dbgCapAbort req => exact (execDbgCapAbort_frame req e).kept
  | blockLockAcquire lane syncs => exact (execBlockLockAcquire_frame lane syncs e).kept
  | domainReady domain => exact (execDomainReady_frame domain e).keptMoving
  | startStepTimeout inp => exact (execStartStepTimeout_frame inp e).keptMoving
  | lossOfVaon => exact (execLossOfVaon_frame e).keptMoving
  | porstNAssert => exact (execPorstNAssert_frame e).keptMoving
  | hatchLinkUp hatch cfg => exact (execHatchLinkUp_frame hatch cfg e).kept
  | mgmtUnknownCommand frame => exact (execMgmtUnknownCommand_frame frame e).kept
  | trkBinRead req word => exact (execTrkBinRead_frame req word e).kept
  | bar2Write hatch off => exact (execBar2Write_frame hatch off e).kept

/-- A command leaves the rest of the queue alone. -/
theorem exec_pending {c : Instr} {s t : State} (e : exec c s = .next t) : t.pending = s.pending := (exec_kept e).1

/-- A step takes the command at the front of the queue, if there is one. -/
theorem step_cons {s : State} {c : Instr} {rest : List Instr} (h : s.pending = c :: rest) : step s = exec c { s with pending := rest } := by
  unfold step; rw [h]

/-- On an empty queue the block idles. -/
theorem step_nil {s : State} (h : s.pending = []) : step s = .next s := by unfold step; rw [h]

/-- A step shortens the queue by its front. -/
theorem step_pending {s t : State} (e : step s = .next t) : t.pending = s.pending.tail := by
  cases h : s.pending with
  | nil =>
    rw [step_nil h, Host.Outcome.next.injEq] at e
    rw [← e, h, List.tail_nil]
  | cons c rest =>
    rw [step_cons h] at e
    exact exec_pending e

/-- Settles O57: every command's frame leaves the queue out, so a step only takes the front. -/
theorem queueAdvances : Obligations.QueueAdvances := by
  intro s t e
  have ht := step_pending e
  refine ⟨ht, fun hwf c hc => hwf c ?_⟩
  rw [ht] at hc
  exact List.mem_of_mem_tail hc

/-- Settles O1: by the two cases of the queue. -/
theorem stepRunsTheFront : Obligations.StepRunsTheFront := ⟨fun _ _ _ h => step_cons h, fun _ h => step_nil h⟩

/-- Settles O58: the meaning of a command answers a next state outright, or on each of its branches. -/
theorem everyCommandCompletes : Obligations.EveryCommandCompletes := by
  intro c s
  cases c
  -- the commands whose meaning has a condition
  case
      epochBoundary | chargeComplete | chargeConditionsLost | chargeTimeout | runStart | deadlineMiss | gainUpSwitch |
      openWireDeclare | openWireClear | xchkFailure | xchkRecovery | comparatorTrip | rampPeriodStart | selfTestComplete |
      frameLaunch | returnFrameReceive | headerWindowMiss | returnOffsetAcquire | lockLoss | svcTimeout | discoveryStart |
      probeSend | echoReceive | probeLost | leadTrimChange | unitLost | routeReassign | bridgeVerifyNoPath |
      bridgeDiscovery | handoverStart | handbackComplete | handbackAbort | quarantine | bridgeLimitExpiry | sealPass |
      rowRepairMark | snapshotCopy | crateStaging | crateCommitDecision | cratePartTimeout | crateAbortDecision |
      crateVerifyEnd | crateAbortDone | crateBuildLimit | crateSlotFree | observerLock | observerLos | freewheelTimeout |
      rocofWindowEnd | frtEntry | frtExit | frtTimeout | curveActivation | envelopeViolation | islandConfirm | gflTransfer |
      stopRampTimeout | plausWindowEnd | capTrigger | capDone | profileLoad | bypassFire | bypassConfirmTimeout |
      lostBypassRetry | abDisc | recoveryTimerExpiry | degradeExpiry | recoveryComplete | holdTimeout | tripPulseEnd |
      resetArmExpiry | pulseStart | pulseEnd | meterCheckRecompute | periodicSave | safetySample | safetyCycle |
      pairDiscFault | testPulse | offPulse | readbackCheck | deadHeld | safetyResetRequest | resetStuck | safetySetInForce |
      safetyCheckRecompute | safetySetReload | telegramSend | stationFrameReceive | telegramWatchdog | mirrorSend |
      orderFetch | descriptorReadDone | hatchSilence | powerOn | pmbusPoll | slackWindowEnd | voutCommand | budgetAdmit |
      lockDeclared | referenceLoss | unmute | pfailAssert | pfailRelease | trunkWriteStart | trunkWriteComplete |
      blockLockAcquire | domainReady | startStepTimeout | hatchLinkUp =>
    simp only [exec,
      execEpochBoundary, execChargeComplete, execChargeConditionsLost, execChargeTimeout, execRunStart, execDeadlineMiss,
      execGainUpSwitch, execOpenWireDeclare, execOpenWireClear, execXchkFailure, execXchkRecovery, execComparatorTrip,
      execRampPeriodStart, execSelfTestComplete, execFrameLaunch, execReturnFrameReceive, execHeaderWindowMiss,
      execReturnOffsetAcquire, execLockLoss, execSvcTimeout, execDiscoveryStart, execProbeSend, execEchoReceive,
      execProbeLost, execLeadTrimChange, execUnitLost, execRouteReassign, execBridgeVerifyNoPath, execBridgeDiscovery,
      execHandoverStart, execHandbackComplete, execHandbackAbort, execQuarantine, execBridgeLimitExpiry, execSealPass,
      execRowRepairMark, execSnapshotCopy, execCrateStaging, execCrateCommitDecision, execCratePartTimeout,
      execCrateAbortDecision, execCrateVerifyEnd, execCrateAbortDone, execCrateBuildLimit, execCrateSlotFree,
      execObserverLock, execObserverLos, execFreewheelTimeout, execRocofWindowEnd, execFrtEntry, execFrtExit,
      execFrtTimeout, execCurveActivation, execEnvelopeViolation, execIslandConfirm, execGflTransfer, execStopRampTimeout,
      execPlausWindowEnd, execCapTrigger, execCapDone, execProfileLoad, execBypassFire, execBypassConfirmTimeout,
      execLostBypassRetry, execAbDisc, execRecoveryTimerExpiry, execDegradeExpiry, execRecoveryComplete, execHoldTimeout,
      execTripPulseEnd, execResetArmExpiry, execPulseStart, execPulseEnd, execMeterCheckRecompute, execPeriodicSave,
      execSafetySample, execSafetyCycle, execPairDiscFault, execTestPulse, execOffPulse, execReadbackCheck, execDeadHeld,
      execSafetyResetRequest, execResetStuck, execSafetySetInForce, execSafetyCheckRecompute, execSafetySetReload,
      execTelegramSend, execStationFrameReceive, execTelegramWatchdog, execMirrorSend, execOrderFetch,
      execDescriptorReadDone, execHatchSilence, execPowerOn, execPmbusPoll, execSlackWindowEnd, execVoutCommand,
      execBudgetAdmit, execLockDeclared, execReferenceLoss, execUnmute, execPfailAssert, execPfailRelease,
      execTrunkWriteStart, execTrunkWriteComplete, execBlockLockAcquire, execDomainReady, execStartStepTimeout,
      execHatchLinkUp]
    repeat' split
    all_goals exact ⟨_, rfl⟩
  -- the commands whose meaning is one next state
  all_goals exact ⟨_, rfl⟩

end Sys2Proof.Machine
end

section
/-! PROOFS. What moves the converter (O59): the core of the state, which operations keep it, and what the Start Sequencer may do to it. -/

namespace Sys2Proof.Machine

/-- What the passes, the writes and the Crates leave alone: the converter's state, the clock, and where the start-up stands. -/
structure Core where
  conv : Conv
  epoch : Epoch
  counting : Bool
  compat : Bool
  era : Nat
  start : SeqState
  restart : Option StartIn

/-- The core of a state (R16, R17, R31, R416). -/
def State.core (s : State) : Core :=
  ⟨s.sys.conv, s.sys.epoch, s.sys.counting, s.sys.compat, s.sys.era, s.start.state, s.start.restartWanted⟩

/-- A change outside the system block and the Start Sequencer keeps the core. -/
theorem core_eq_of_frame {s t : State} (h : Frame [.regs, .mgmtStatus, .mfe, .lnk, .cel, .ctl, .grd, .edg, .prt, .mtr, .saf, .hats,
    .pwr, .ref, .trk, .dbg, .out, .freeCount, .pending] s t) : t.core = s.core := by
  have hsys : t.sys = s.sys := h .sys (by decide)
  have hstart : t.start = s.start := h .start (by decide)
  simp only [State.core, hsys, hstart]

theorem State.core_foldl {A : Type} {f : State → A → State} {l : List A} (hf : ∀ y a, (f y a).core = y.core) (s : State) :
    (l.foldl f s).core = s.core := by
  induction l generalizing s with
  | nil => rfl
  | cons a l ih => rw [List.foldl_cons, ih, hf]

theorem State.core_ite {c : Prop} [Decidable c] {a b s : State} (ha : a.core = s.core) (hb : b.core = s.core) :
    (if c then a else b).core = s.core := by split <;> assumption

/-- A missed item is noted, counted, and its outputs are held. -/
theorem State.missItem_core (s : State) (k : Nat) : (s.missItem k).core = s.core := by
  unfold State.missItem
  split
  · rfl
  · exact core_eq_of_frame (s := { s with sys := { s.sys with missNow := s.sys.missNow ||| 2 ^ k } }) (by simp)

/-- The pass of an item keeps the core if its work does. -/
theorem State.runItem_core (s : State) (k : Nat) {f : State → State} (hf : ∀ y, (f y).core = y.core) : (s.runItem k f).core = s.core := by
  unfold State.runItem
  split
  · rfl
  · split
    · exact s.missItem_core k
    · exact hf s

theorem State.controlMiss_core (s : State) : s.controlMiss.core = s.core := by
  unfold State.controlMiss
  extract_lets n s' t
  rw [← s.missItem_core 1]
  split
  · rfl
  · refine core_eq_of_frame (s := s') ?_
    simp [t]

theorem execControlPass_core {s t : State} (e : execControlPass s = .next t) : t.core = s.core := by
  unfold execControlPass at e
  rw [Host.Outcome.next.injEq] at e
  subst e
  split
  · exact s.controlMiss_core
  · exact s.runItem_core 1 (fun y => core_eq_of_frame (by simp))

theorem State.abandon_core (s : State) (item : Nat) : (s.abandon item).core = s.core := by
  have hset : ({ s with sys := { s.sys with missNow := s.sys.missNow ||| 2 ^ item } } : State).core = s.core := rfl
  unfold State.abandon
  split
  · exact (core_eq_of_frame (by simp)).trans hset
  · exact (core_eq_of_frame (by simp)).trans hset
  · exact hset

theorem execDeadlineMiss_core {item : Nat} {s t : State} (e : execDeadlineMiss item s = .next t) : t.core = s.core := by
  unfold execDeadlineMiss at e
  dsimp only at e
  split at e
  · cases e; rfl
  · split at e
    · cases e
      exact State.core_ite (s.abandon_core item) rfl
    · split at e
      · cases e; exact s.controlMiss_core
      · cases e
        exact State.core_ite (s.missItem_core item) (s.missItem_core item)

theorem execChargeTimeout_core {s t : State} (e : execChargeTimeout s = .next t) : t.core = s.core := by
  unfold execChargeTimeout at e
  dsimp only at e
  split at e <;> cases e <;> rfl

/-- A device part of a Crate changes the map at most. -/
theorem State.applyPart_core (s : State) (d : DevPart) : (s.applyPart d).core = s.core := by
  unfold State.applyPart
  split
  · rfl
  · exact core_eq_of_frame (by simp)
  · exact core_eq_of_frame (by simp)
  · rfl

theorem State.crateApply_core (s : State) (i : Nat) : (s.crateApply i).core = s.core := by
  unfold State.crateApply
  dsimp only
  split
  · next x _ _ =>
    split
    · rfl
    · refine Eq.trans (core_eq_of_frame (s := (s.crate i).devs.foldl State.applyPart s) ?_) (State.core_foldl State.applyPart_core s)
      rw [State.crateRecord_frame _ _ _ _ _ (by simp), State.updCrate_frame _ _ (by simp), Frame.foldl (by intro s g; split <;> simp)]
      simp
  · rfl

/-- The orders of a Hatch are dropped from the announcement and the stop ramp, and nothing else of the system block changes. -/
theorem State.dropOrders_core (s : State) (h : Fin 4) : (s.dropOrders h).core = s.core := rfl

theorem State.hatchReset_core (s : State) (h : Fin 4) (kind : HatchResetKind) : (s.hatchReset h kind).core = s.core := by
  unfold State.hatchReset
  exact (core_eq_of_frame (s := s.dropOrders h) (by simp)).trans (s.dropOrders_core h)

theorem execHatchReset_core {h : Fin 4} {kind : HatchResetKind} {s t : State} (e : execHatchReset h kind s = .next t) : t.core = s.core := by
  unfold execHatchReset at e
  rw [Host.Outcome.next.injEq] at e
  subst e
  exact s.hatchReset_core h kind

/-- A write that a rule ignores is logged, or counted by the Start Sequencer. -/
theorem State.writeIgnored_core (s : State) (r : Requester) (off : Nat) (boot : Bool) : (s.writeIgnored r off boot).core = s.core := by
  unfold State.writeIgnored
  exact State.core_ite rfl (core_eq_of_frame (by simp))

theorem State.applyImage_core (s : State) (key : Nat) (r : Requester) (img : Word) (boot : Bool) (off : Nat) :
    (s.applyImage key r img boot off).core = s.core := by
  unfold State.applyImage
  dsimp only
  split
  · split
    · exact core_eq_of_frame (by simp)
    · exact s.writeIgnored_core r off boot
  · exact core_eq_of_frame (by simp)

/-- An image that waits is taken from the list and applied. -/
theorem State.applyImage_dropped_core (s : State) (l : List Pending) (key : Nat) (r : Requester) (img : Word) (boot : Bool) (off : Nat) :
    (({ s with regs := { s.regs with pend := l } } : State).applyImage key r img boot off).core = s.core :=
  State.applyImage_core _ key r img boot off

theorem State.takeStart_core (s : State) (off : Nat) : (s.takeStart off).core = s.core := by
  unfold State.takeStart
  refine State.core_foldl (fun y p => ?_) s
  split
  · exact State.core_ite (y.applyImage_dropped_core _ _ _ _ _ _) rfl
  · rfl

/-- A change that keeps the system block, and what the Start Sequencer was asked to do next. -/
theorem State.startCount_kept (s : State) : s.startCount.sys = s.sys ∧ s.startCount.start.restartWanted = s.start.restartWanted := by
  refine ⟨keep_sys (by simp), ?_⟩
  unfold State.startCount
  extract_lets n st s1
  rw [keep_start (s := s1.recSet 125 n) (by simp)]
  rfl

theorem State.stepBegin_kept (s : State) (n : Nat) :
    (s.stepBegin n).sys = s.sys ∧ (s.stepBegin n).start.restartWanted = s.start.restartWanted := by
  refine ⟨keep_sys (by simp), ?_⟩
  unfold State.stepBegin
  extract_lets st s1 s2
  have hs2 : s2.start = s1.start := keep_start (by simp [s2])
  split
  · rw [keep_start (s := s2) (by simp), hs2]
  · split
    · rw [keep_start (s := s2) (by simp), hs2]
    · rw [hs2]

/-- The end of a step leaves what the Start Sequencer was asked to do next, and the converter. -/
theorem State.stepEnd_kept (s : State) (outcome code : Nat) :
    (s.stepEnd outcome code).sys = s.sys ∧ (s.stepEnd outcome code).start.restartWanted = s.start.restartWanted := by
  refine ⟨keep_sys (by simp), ?_⟩
  unfold State.stepEnd
  extract_lets n shown kept w st s1 s2 s3 s4 s5
  have h5 : s5.start = s2.start := by
    refine keep_start ?_
    simp only [s5, s4, s3]
    split <;> split <;> simp
  rw [keep_start (s := s5) (t := s5.trkAsk .startRecord s5.recWords) (by simp), h5]
  rfl

/-- What the Start Sequencer and the writes may do to the converter (R416, R420): nothing, or a RESTART that waited takes it to OFF; and
they ask for such a RESTART in OFF only. -/
def ConvStep (s t : State) : Prop :=
  (t.sys.conv = s.sys.conv ∨ t.sys.conv = .off ∧ s.start.restartWanted ≠ none) ∧
    (t.start.restartWanted ≠ none → s.start.restartWanted ≠ none ∨ t.sys.conv = .off)

theorem ConvStep.refl (s : State) : ConvStep s s := ⟨.inl rfl, .inl⟩

theorem ConvStep.of_eq {s t : State} (hc : t.sys.conv = s.sys.conv) (hr : t.start.restartWanted = s.start.restartWanted) : ConvStep s t :=
  ⟨.inl hc, fun h => .inl (hr ▸ h)⟩

theorem ConvStep.of_core {s t : State} (h : t.core = s.core) : ConvStep s t :=
  .of_eq (congrArg Core.conv h) (congrArg Core.restart h)

/-- A change outside the system block and the Start Sequencer. -/
theorem ConvStep.of_frame {s t : State} (h : Frame [.regs, .mgmtStatus, .mfe, .lnk, .cel, .ctl, .grd, .edg, .prt, .mtr, .saf, .hats,
    .pwr, .ref, .trk, .dbg, .out, .freeCount, .pending] s t) : ConvStep s t := .of_core (core_eq_of_frame h)

theorem ConvStep.trans {s t u : State} (h : ConvStep s t) (h' : ConvStep t u) : ConvStep s u := by
  obtain ⟨hc, hr⟩ := h
  obtain ⟨hc', hr'⟩ := h'
  have hoff : t.sys.conv = .off → u.sys.conv = .off := fun ht => hc'.elim (·.trans ht) (·.1)
  refine ⟨?_, fun hu => (hr' hu).elim (fun ht => (hr ht).imp_right hoff) .inr⟩
  rcases hc' with e | ⟨e, ht⟩
  · rw [e]; exact hc
  · rcases hr ht with hs | ht
    · exact .inr ⟨e, hs⟩
    · exact hc.imp (fun hst => e.trans (ht.symm.trans hst)) (fun ⟨_, hs⟩ => ⟨e, hs⟩)

theorem ConvStep.ite {c : Prop} [Decidable c] {s a b : State} (ha : c → ConvStep s a) (hb : ¬ c → ConvStep s b) :
    ConvStep s (if c then a else b) := by
  split
  · exact ha ‹_›
  · exact hb ‹_›

theorem ConvStep.foldl {A : Type} {f : State → A → State} {l : List A} (hf : ∀ y a, ConvStep y (f y a)) (s : State) :
    ConvStep s (l.foldl f s) := by
  induction l generalizing s with
  | nil => exact .refl s
  | cons a l ih => exact (hf s a).trans (ih _)

/-- Step TRUNK takes the era from the Trunk, and the number of start-ups. -/
theorem State.stepTrunk_conv (s : State) : ConvStep s s.stepTrunk.1 := by
  unfold State.stepTrunk
  extract_lets s1 s2 absent bad f ft s3 t3 s4 dir rows q1 q2 q3 s5 s6 code
  have h2 : ConvStep s s2 := .of_frame (by simp only [s2]; rw [Frame.foldl (by intro s a; simp)]; simp [s1])
  have h3 : ConvStep s2 s3 := .ite (fun _ => .of_frame (by simp [f])) (fun _ => .refl s2)
  have h4 : ConvStep s3 s4 := .ite (fun _ => .of_frame (by simp)) (fun _ => .refl s3)
  have h5 : ConvStep s4 s5 := .of_eq rfl rfl
  have h6 : ConvStep s5 s6 := .of_eq (congrArg SysSt.conv (keep_sys (by simp [s6])))
    ((State.startCount_kept _).2.trans (congrArg StartSt.restartWanted (keep_start (by simp))))
  exact h2.trans (h3.trans (h4.trans (h5.trans h6)))

theorem State.bootWrite_core (s : State) (off : Nat) (w : Word) : (s.bootWrite off w).core = s.core := by
  unfold State.bootWrite
  extract_lets key s1
  have h1 : s1.core = s.core := State.core_ite (core_eq_of_frame (by simp)) rfl
  rw [← h1]
  exact State.core_ite rfl (State.core_ite (s1.applyImage_core _ _ _ _ _) rfl)

/-- A section of the image writes registers, or lets writes wait. -/
theorem State.sectionApply_core (s : State) (x : Section) : (s.sectionApply x).core = s.core := by
  unfold State.sectionApply
  extract_lets at1
  split
  · exact State.core_foldl (fun y i => y.bootWrite_core _ _) s
  · rfl
  · exact State.core_foldl (fun y i => core_eq_of_frame (by simp)) s
  · exact State.core_foldl (fun y i => core_eq_of_frame (by simp)) s
  · rfl

/-- Step IMAGE takes the writes of the image. -/
theorem State.stepImage_conv (s : State) : ConvStep s s.stepImage.1 := by
  unfold State.stepImage
  extract_lets s1 a b c img st s2 s3 s4 s5
  have h1 : ConvStep s s1 := .of_frame (by simp [s1])
  clear_value c img a b s1
  have h2 : ConvStep s1 s2 := .of_eq rfl rfl
  clear_value s2
  have h3 : ConvStep s2 s3 := .ite (fun _ => .of_frame (by simp)) (fun _ => .of_core (State.core_foldl State.sectionApply_core s2))
  clear_value s3
  have h4 : ConvStep s3 s4 := .ite (fun _ => .of_frame (by simp)) (fun _ => .refl s3)
  clear_value s4
  have h5 : ConvStep s4 s5 := .of_eq rfl rfl
  exact h1.trans (h2.trans (h3.trans (h4.trans h5)))

/-- A step that ends keeps the converter: step TRUNK, step IMAGE, or one that writes registers, the metering and the Safety Core. -/
theorem State.stepTry_conv {s t : State} {o c : Nat} (h : s.stepTry = some (t, o, c)) : ConvStep s t := by
  have inj {x : State × Nat × Nat} (e : some x = some (t, o, c)) (hx : ConvStep s x.1) : ConvStep s t := by
    rw [Option.some.injEq] at e
    rwa [e] at hx
  unfold State.stepTry at h
  split at h
  · exact inj h s.stepTrunk_conv
  · exact inj h (.of_frame (by simp))
  · exact inj h s.stepImage_conv
  · split at h
    · exact inj h (.refl s)
    · cases h
  · split at h
    · exact inj h (.refl s)
    · cases h
  · split at h
    · cases h
    · split at h
      · exact inj h (.of_frame (by simp))
      · exact inj h (.of_frame (by simp))
  · split at h
    · exact inj h (.of_frame (by simp))
    · cases h
  · split at h
    · cases h
    · split at h
      · exact inj h (.refl s)
      · exact inj h (.refl s)
  · split at h
    · exact inj h (.refl s)
    · cases h
  · exact inj h (.refl s)

/-- A RESTART that takes effect leaves the device in OFF, and nothing waits. -/
theorem State.restartNow_conv (s : State) (inp : StartIn) :
    (s.restartNow inp).sys.conv = .off ∧ (s.restartNow inp).start.restartWanted = none := by
  unfold State.restartNow
  extract_lets s1 s2 st y s3
  have h : Frame [.regs, .trk] s3 s3.ringAppend.regsRestart := by simp
  obtain ⟨hs, hr⟩ := s3.ringAppend.regsRestart.startCount_kept
  rw [hs, hr, h .sys (by decide), h .start (by decide)]
  exact ⟨rfl, rfl⟩

theorem State.stepLeave_conv (s : State) (outcome code : Nat) : ConvStep s (s.stepLeave outcome code) := by
  obtain ⟨hs, hr⟩ := s.stepEnd_kept outcome code
  unfold State.stepLeave
  dsimp only
  split
  · next inp h =>
    obtain ⟨hc, hn⟩ := (s.stepEnd outcome code).restartNow_conv inp
    exact ⟨.inr ⟨hc, by rw [← hr, h]; exact Option.some_ne_none inp⟩, fun hw => absurd hn hw⟩
  · exact .of_eq (congrArg SysSt.conv hs) hr

theorem State.holdStart_conv (s : State) :
    ConvStep s (({ s with start := { s.start with state := .held } } : State).latch R.STR_CAUSE 1) :=
  .trans (t := { s with start := { s.start with state := .held } }) (.of_eq rfl rfl) (.of_frame (by simp))

/-- The Sequencer runs: by its turns. -/
theorem State.startRun_conv (n : Nat) (s : State) : ConvStep s (State.startRun n s) := by
  induction n generalizing s with
  | zero => exact .refl s
  | succ n ih =>
    unfold State.startRun
    split
    · exact .refl s
    · split
      · split
        · exact .refl s
        · extract_lets s1
          have h1 : ConvStep s s1 := .of_frame (by simp [s1])
          split
          · exact h1
          · next t o c ht => exact h1.trans ((State.stepTry_conv ht).trans ((t.stepLeave_conv o c).trans (ih _)))
      · extract_lets k s1
        have h1 : ConvStep s s1 := .of_core (State.core_foldl State.takeStart_core s)
        split
        · exact h1.trans (s1.holdStart_conv)
        · obtain ⟨hs, hr⟩ := s1.stepBegin_kept k
          exact h1.trans ((ConvStep.of_eq (congrArg SysSt.conv hs) hr).trans (ih _))

theorem State.sequence_conv (s : State) : ConvStep s s.sequence := s.startRun_conv 64

theorem State.startContinue_conv (s : State) (r : Requester) : ConvStep s (s.startContinue r) := by
  unfold State.startContinue
  exact .ite (fun _ => (ConvStep.of_eq rfl rfl).trans (State.sequence_conv _)) (fun _ => .of_frame (by simp))

/-- RESTART is accepted in OFF only (R416). -/
theorem State.startRestart_conv (s : State) (r : Requester) (key : Nat) (inp : StartIn) : ConvStep s (s.startRestart r key inp) := by
  unfold State.startRestart
  split
  · next h =>
    obtain ⟨-, -, hoff, -⟩ := h
    extract_lets s1
    have h1 : ConvStep s s1 := .of_frame (by simp [s1])
    have hoff1 : s1.sys.conv = .off := (congrArg SysSt.conv (keep_sys (by simp [s1]))).trans hoff
    split
    · exact h1.trans ⟨.inl rfl, fun _ => .inr hoff1⟩
    · obtain ⟨hc, hn⟩ := s1.restartNow_conv inp
      exact h1.trans (ConvStep.trans ⟨.inl (hc.trans hoff1.symm), fun hw => absurd hn hw⟩ (State.sequence_conv _))
  · exact .of_frame (by simp)

/-- An action on receipt: the Start Sequencer's are the only ones that reach beyond registers, reports and requests. -/
theorem State.receiptAction_conv {s t : State} {r : Requester} {off : Nat} {w : Word} {ns : Nat}
    (h : s.receiptAction r off w ns = some t) : ConvStep s t := by
  unfold State.receiptAction at h
  split at h
  · cases h; exact .of_frame (by simp)
  · split at h
    · cases h
      exact (ConvStep.ite (fun _ => s.startContinue_conv r) (fun _ => .refl s)).trans
        (.ite (fun _ => State.startRestart_conv _ r _ _) (fun _ => .refl _))
    · split at h
      · cases h; exact .ite (fun _ => .of_frame (by simp)) (fun _ => .refl s)
      · split at h
        · cases h; exact .ite (fun _ => .of_frame (by simp)) (fun _ => .of_frame (by simp))
        · split at h
          · cases h; exact .ite (fun _ => .of_frame (by simp)) (fun _ => .of_frame (by simp))
          · cases h

theorem State.regPut_conv (s : State) (r : Requester) (o way : Nat) (w : Word) (ns : Nat) : ConvStep s (s.regPut r o way w ns) := by
  unfold State.regPut
  extract_lets key
  split
  · exact .of_frame (by simp)
  · split
    · exact .of_frame (by simp)
    · split
      · exact .of_frame (by simp)
      · split
        · next t h =>
          split at h
          · exact State.receiptAction_conv h
          · cases h
        · exact .of_frame (by simp)

theorem State.regWrite_conv (s : State) (r : Requester) (off : Nat) (w : Word) (ns : Nat) : ConvStep s (s.regWrite r off w ns) := by
  unfold State.regWrite
  extract_lets o way s1 s2
  have h1 : ConvStep s s1 := .ite (fun _ => .of_frame (by simp)) (fun _ => .refl s)
  have h2 : ConvStep s1 s2 := .ite (fun _ => .of_frame (by simp)) (fun _ => .refl s1)
  refine .ite (fun _ => .of_frame (by simp)) (fun _ => .ite (fun _ => .of_frame (by simp)) (fun _ => .ite (fun _ => .of_frame (by simp))
    (fun _ => .ite (fun _ => h1) (fun _ => h1.trans (h2.trans (s2.regPut_conv r o way w ns))))))

theorem State.busWrite_conv (s : State) (w : WriteReq) : ConvStep s (s.busWrite w) := by
  unfold State.busWrite
  split
  · exact s.regWrite_conv _ _ _ _
  · exact .ite (fun _ => .of_frame (by simp)) (fun _ => .ite (fun _ => .of_frame (by simp)) (fun _ => s.regWrite_conv _ _ _ _))

theorem State.writeCmd_conv (s : State) (w : WriteReq) (way : Nat) : ConvStep s (s.writeCmd w way) :=
  .ite (fun _ => s.busWrite_conv w) (fun _ => .refl s)

theorem State.hatCmd_conv (s : State) (h : Fin 4) (off : Nat) (w : Word) : ConvStep s (s.hatCmd h off w) :=
  .ite (fun _ => s.regWrite_conv _ _ _ _) (fun _ => .refl s)

theorem execMgmtWrite_conv {f : List Byte} {ns : Nat} {s t : State} (e : execMgmtWrite f ns s = .next t) : ConvStep s t := by
  unfold execMgmtWrite at e
  cases e
  exact .ite (fun _ => .refl s) (fun _ => .ite (fun _ => .of_frame (by simp)) (fun _ => .ite (fun _ => .of_frame (by simp))
    (fun _ => .ite (fun _ => .of_frame (by simp)) (fun _ => .foldl (fun y i => y.regWrite_conv _ _ _ _) s))))

theorem execDbgAccess_conv {write : Bool} {off : Nat} {w : Word} {ns : Nat} {s t : State} (e : execDbgAccess write off w ns s = .next t) :
    ConvStep s t := by
  unfold execDbgAccess at e
  extract_lets s1 put o at e
  cases e
  have h1 : ConvStep s s1 := .of_frame (by simp [s1])
  have hput (y : State) (n : Nat) : ConvStep y (put y n) := .of_frame (by simp [put])
  refine h1.trans (.ite (fun _ => hput s1 0) (fun _ => .ite (fun _ => (s1.regWrite_conv _ _ _ _).trans (hput _ _)) (fun _ => ?_)))
  split
  · next x hx => exact (ConvStep.of_frame ((State.readReg_frame hx).mono (by decide))).trans (hput _ _)
  · exact (ConvStep.of_frame (by simp)).trans (hput _ _)

theorem execPowerOn_conv {inp : StartIn} {s t : State} (e : execPowerOn inp s = .next t) : ConvStep s t := by
  unfold execPowerOn at e
  split at e
  · cases e; exact .refl s
  · extract_lets y s1 s2 at e
    cases e
    have h1 : ConvStep s s1 := ⟨.inl rfl, fun hn => absurd (rfl : s1.start.restartWanted = none) hn⟩
    have h2 : ConvStep s1 s2 := .ite (fun _ => .of_frame (by simp)) (fun _ => .refl s1)
    exact h1.trans (h2.trans s2.sequence_conv)

theorem execStartStepTimeout_conv {inp : StartIn} {s t : State} (e : execStartStepTimeout inp s = .next t) : ConvStep s t := by
  unfold execStartStepTimeout at e
  split at e
  · cases e; exact .refl s
  · split at e
    · split at e
      · extract_lets st i s1 at e
        cases e
        have h1 : ConvStep s s1 := .of_eq rfl rfl
        exact h1.trans ((ConvStep.of_frame (by simp)).trans (State.sequence_conv s1.sendStart))
      · cases e
        exact (s.stepLeave_conv _ _).trans (State.sequence_conv _)
    · split at e
      · extract_lets s1 at e
        have h1 : ConvStep s s1 := .of_frame (by simp [s1])
        split at e
        · cases e; exact h1.trans (.of_eq rfl rfl)
        · rw [Host.Outcome.next.injEq] at e
          exact e ▸ h1
      · cases e; exact .refl s

theorem execDomainReady_conv {d : Nat} {s t : State} (e : execDomainReady d s = .next t) : ConvStep s t := by
  unfold execDomainReady at e
  split at e
  · cases e; exact (ConvStep.of_frame (by simp)).trans (State.sequence_conv (s.domainReady d))
  · cases e; exact .refl s

theorem execUnmute_conv {s t : State} (e : execUnmute s = .next t) : ConvStep s t := by
  unfold execUnmute at e
  split at e
  · extract_lets y s1 s2 at e
    cases e
    exact (ConvStep.of_frame (by simp [s2, s1])).trans (State.sequence_conv _)
  · cases e; exact .refl s

/-- The start of RUN, where it is due. -/
theorem State.beginRun_conv {s : State} (h : s.runDue = true) : s.beginRun.sys.conv = .run := by
  unfold State.beginRun
  split
  · next a _ =>
    rw [if_pos h]
    extract_lets t
    have ht : t.sys.conv = .run := by
      simp only [t]
      rw [keep_sys (s := s.moveTo .run (if a.recovery then 5 else 0)) (by simp)]
      exact (moveTo_sys s .run _ _).1
    split
    · exact ht
    · rw [keep_sys (s := t) (by simp)]; exact ht
  · next hn => rw [State.runDue, hn] at h; cases h

theorem State.beginRun_of_not_due {s : State} (h : s.runDue = false) : s.beginRun = s := by
  unfold State.beginRun
  split
  · rw [if_neg (by rw [h]; exact Bool.false_ne_true)]
  · rfl

theorem State.refuseOrder_conv (s : State) (r : OrderRef) (opcode status : Nat) : (s.refuseOrder r opcode status).sys.conv = s.sys.conv := by
  unfold State.refuseOrder
  rw [keep_sys (s := s.take opcode status false) (by simp)]
  rfl

/-- A state order keeps the converter's state, but for the start of RUN and for its effect, which is reached only from a state that
R32 lists. -/
theorem State.stateOrder_conv (s : State) (r : OrderRef) (opcode : Nat) {f : State → State}
    (hf : ∀ y, orderAllowed opcode y.sys.conv = true → (f y).sys.conv = y.sys.conv) :
    (s.stateOrder r opcode f).sys.conv = s.beginRun.sys.conv := by
  have hdone (y : State) (status : Nat) (old new : Conv) : (y.stateDone r opcode status old new).sys.conv = y.sys.conv := by
    rw [keep_sys (s := y) (by simp)]
  unfold State.stateOrder
  extract_lets b
  split
  · exact hdone _ _ _ _
  · split
    · split
      · exact hdone _ _ _ _
      · split
        · split
          · split <;> rfl
          · rfl
        · exact hdone _ _ _ _
    · split
      · exact b.refuseOrder_conv _ _ _
      · split
        · exact b.refuseOrder_conv _ _ _
        · next hall =>
          split
          · exact b.refuseOrder_conv _ _ _
          · split
            · exact b.refuseOrder_conv _ _ _
            · exact hf b (Bool.eq_true_of_not_eq_false hall)

theorem State.deblock_conv (s : State) (r : OrderRef) : (s.deblock r).sys.conv = s.beginRun.sys.conv := by
  refine s.stateOrder_conv r opDeblock (fun y _ => ?_)
  split
  · rfl
  · split
    · rfl
    · exact y.refuseOrder_conv _ _ _

/-- A pass of an item keeps the converter's state. -/
theorem State.runItem_frame_conv (s : State) (k : Nat) {f : State → State} (hf : ∀ y, Frame [.regs, .mgmtStatus, .mfe, .lnk, .cel, .ctl,
    .grd, .edg, .prt, .mtr, .saf, .hats, .pwr, .ref, .trk, .dbg, .out, .freeCount, .pending] y (f y)) : ConvStep s (s.runItem k f) :=
  .of_core (s.runItem_core k (fun y => core_eq_of_frame (hf y)))

/-- The commands that O59 names as movers of the converter, but for those that bring it to OFF with the device. -/
def convMover : Instr → Bool
  | .epochBoundary _ | .chargeComplete | .chargeConditionsLost | .runStart | .recoveryComplete | .resetGo _ _ | .lockDeclared _ _ _
  | .energise _ | .deblock _ | .block _ | .deenergise _ | .lossOfVaon | .porstNAssert => true
  | _ => false

/-- The commands that may change the system block and are no movers keep the converter, save for a RESTART that waited. -/
theorem exec_convStep {c : Instr} {s t : State} (e : exec c s = .next t) (hc : (movesSys c && !convMover c) = true) : ConvStep s t := by
  cases c
  case chargeTimeout => exact .of_core (execChargeTimeout_core e)
  case deadlineMiss item => exact .of_core (execDeadlineMiss_core e)
  case crateApply i =>
    cases e
    exact .ite (fun _ => .of_core (s.crateApply_core i)) (fun _ => .refl s)
  case gridEnginePass => cases e; exact s.runItem_frame_conv 0 (fun y => by simp)
  case chopperPass => cases e; exact s.runItem_frame_conv 13 (fun y => by simp)
  case controlPass => exact .of_core (execControlPass_core e)
  case armEnginePass g =>
    cases e
    exact .ite (fun _ => s.runItem_frame_conv _ (fun y => by simp)) (fun _ => .refl s)
  case edgePlannerPass => cases e; exact s.runItem_frame_conv 8 (fun y => by simp)
  case protectionPass isA ns => cases e; exact s.runItem_frame_conv _ (fun y => by simp)
  case meteringPass => cases e; exact s.runItem_frame_conv 11 (fun y => by split <;> simp)
  case hatchReset h kind => exact .of_core (execHatchReset_core e)
  case ringCfgWrite h w => cases e; exact s.hatCmd_conv h _ _
  case ringReset h => cases e; exact s.hatCmd_conv h _ _
  case orderDoorbell h r w => cases e; exact .ite (fun _ => s.hatCmd_conv h _ _) (fun _ => .refl s)
  case completionDoorbell h r w => cases e; exact .ite (fun _ => s.hatCmd_conv h _ _) (fun _ => .refl s)
  case eventDoorbell h w => cases e; exact s.hatCmd_conv h _ _
  case kick h => cases e; exact s.hatCmd_conv h _ _
  case powerOn inp => exact execPowerOn_conv e
  case continueStart r => cases e; exact s.startContinue_conv r
  case restart r key inp => cases e; exact s.startRestart_conv r key inp
  case unmute => exact execUnmute_conv e
  case registerWrite w => cases e; exact s.writeCmd_conv w 0
  case setAliasWrite w => cases e; exact s.writeCmd_conv w 1
  case clearAliasWrite w => cases e; exact s.writeCmd_conv w 2
  case toggleAliasWrite w => cases e; exact s.writeCmd_conv w 3
  case mgmtWrite f ns => exact execMgmtWrite_conv e
  case dbgAccess wr off w ns => exact execDbgAccess_conv e
  case domainReady d => exact execDomainReady_conv e
  case startStepTimeout inp => exact execStartStepTimeout_conv e
  -- the movers, and the commands that keep the system block
  all_goals exact absurd hc Bool.false_ne_true

/-- A loss of supply and PORST_N leave the converter in OFF. -/
theorem State.downState_conv (s : State) : s.downState.sys.conv = .off := rfl

/-- Settles O59: a command that is no mover keeps the converter's state (by its frame, or because only the Start Sequencer's RESTART
reaches it), and DEBLOCK keeps it unless RUN starts. -/
theorem converterMovers : Obligations.ConverterMovers := by
  intro c s t e hne
  by_cases hc : (movesSys c && !convMover c) = true
  · obtain ⟨hkeep | ⟨hoff, hr⟩, -⟩ := exec_convStep e hc
    · exact absurd hkeep hne
    · simp only [hoff, hr, ne_eq, not_false_eq_true, or_true, and_self]
  · by_cases hs : movesSys c = false
    · exact absurd (congrArg SysSt.conv ((exec_kept e).2 hs)) hne
    · have hm : convMover c = true := by
        simpa [Bool.eq_true_of_not_eq_false hs] using hc
      cases c
      case deblock r =>
        cases e
        rw [State.deblock_conv] at hne ⊢
        by_cases hd : s.runDue = true
        · simp [hd, State.beginRun_conv hd]
        · exact absurd (congrArg (·.sys.conv) (State.beginRun_of_not_due (Bool.eq_false_of_not_eq_true hd))) hne
      case lossOfVaon => cases e; simp [State.downState_conv]
      case porstNAssert => cases e; simp [State.downState_conv]
      case
          epochBoundary | chargeComplete | chargeConditionsLost | runStart | recoveryComplete | resetGo | lockDeclared | energise |
          block | deenergise => simp
      all_goals exact absurd hm Bool.false_ne_true

end Sys2Proof.Machine
end

section
/-! PROOFS. The state after reset (O2), the reads of the epoch counter (O5), and what keeps registers. -/

namespace Sys2Proof.Machine

theorem RegsBut.refl (ks : List Nat) (s : State) : RegsBut ks s s := fun _ _ => rfl

theorem RegsBut.trans {ks : List Nat} {s t u : State} (h : RegsBut ks s t) (h' : RegsBut ks t u) : RegsBut ks s u :=
  fun k hk => (h' k hk).trans (h k hk)

theorem RegsBut.mono {ks ls : List Nat} {s t : State} (h : RegsBut ks s t) (hl : ks ⊆ ls) : RegsBut ls s t :=
  fun k hk => h k (fun hm => hk (hl hm))

theorem RegsBut.of_regs {ks : List Nat} {s t : State} (h : t.regs = s.regs) : RegsBut ks s t := fun k _ => State.reg_congr h k

theorem RegsBut.ite {ks : List Nat} {c : Prop} [Decidable c] {s a b : State} (ha : RegsBut ks s a) (hb : RegsBut ks s b) :
    RegsBut ks s (if c then a else b) := by split <;> assumption

theorem RegsBut.foldl {A : Type} {ks : List Nat} {f : State → A → State} {l : List A} (hf : ∀ y, ∀ a ∈ l, RegsBut ks y (f y a)) (s : State) :
    RegsBut ks s (l.foldl f s) := by
  induction l generalizing s with
  | nil => exact .refl ks s
  | cons a l ih => exact (hf s a List.mem_cons_self).trans (ih (fun y b hb => hf y b (List.mem_cons_of_mem a hb)) _)

theorem State.setReg_regsBut (s : State) (k : Nat) (v : Word) : RegsBut [k] s (s.setReg k v) := by
  intro k' hk
  rw [State.reg_setReg, if_neg (by simpa using hk)]

theorem State.latch_regsBut (s : State) (k b : Nat) : RegsBut [k] s (s.latch k b) := by
  intro k' hk
  rw [State.reg_latch, if_neg (by simpa using hk)]

/-- Settles O2: the reset state and the reset words of the registers, evaluated. -/
theorem resetState : Obligations.ResetState := by
  refine ⟨rfl, rfl, rfl, fun h _ => smGet_nil _ h, rfl, rfl, rfl, rfl, rfl, rfl, rfl, fun c hc => absurd hc List.not_mem_nil, ?_⟩
  decide +kernel

/-- SYS_EPOCH_LO reads E[31:0] (R18). -/
theorem State.regValue_epochLo (s : State) (r : Requester) (i : Nat) :
    s.regValue r R.SYS_EPOCH_LO R.SYS_EPOCH_LO i = BitVec.ofNat 32 (s.sys.epoch.toNat % 2 ^ 32) := by
  have hlive : s.liveWord r R.SYS_EPOCH_LO R.SYS_EPOCH_LO i = some (BitVec.ofNat 32 (s.sys.epoch.toNat % 2 ^ 32)) := rfl
  have hdom : s.blockDomain r R.SYS_EPOCH_LO = none := rfl
  have hmask : ~~~ keyMask R.SYS_EPOCH_LO [.wa, .rsv] = BitVec.allOnes 32 := by decide
  simp only [State.regValue, hmask, hlive, hdom, Option.getD_some, BitVec.and_allOnes, Bool.false_eq_true, if_false]

/-- A read of SYS_EPOCH_LO delivers E[31:0], and its requester's shadow takes E[47:32] (R18). -/
theorem State.readReg_epochLo (s : State) (r : Requester) : s.readReg r R.SYS_EPOCH_LO =
    some (BitVec.ofNat 32 (s.sys.epoch.toNat % 2 ^ 32), s.setReg (ownKey r R.SYS_EPOCH_HI) (BitVec.ofNat 32 (s.sys.epoch.toNat / 2 ^ 32))) := by
  rw [← s.regValue_epochLo r 0]
  rfl

/-- SYS_EPOCH_HI reads the requester's shadow, 16 bits of it (R18, R462). -/
theorem State.readReg_epochHi (s : State) (r : Requester) :
    s.readReg r R.SYS_EPOCH_HI = some (s.reg (ownKey r R.SYS_EPOCH_HI) &&& 0xFFFF, s) := by
  have hmask : ~~~ keyMask R.SYS_EPOCH_HI [.wa, .rsv] = 0xFFFF := by decide
  have hvalue : s.regValue r R.SYS_EPOCH_HI R.SYS_EPOCH_HI 0 = s.reg (ownKey r R.SYS_EPOCH_HI) &&& 0xFFFF := by
    rw [← hmask]
    rfl
  rw [← hvalue]
  rfl

/-- The shadow holds E[47:32] whole. -/
theorem epochHi_and (e : Epoch) : (BitVec.ofNat 32 (e.toNat / 2 ^ 32) &&& 0xFFFF : Word) = BitVec.ofNat 32 (e.toNat / 2 ^ 32) := by
  apply BitVec.eq_of_toNat_eq
  have h := e.isLt
  rw [BitVec.toNat_and, show (0xFFFF : Word).toNat = 2 ^ 16 - 1 from rfl, Nat.and_two_pow_sub_one_eq_mod, BitVec.toNat_ofNat]
  omega

/-- Settles O5: the read is readReg_epochLo, and the shadow it leaves is what readReg_epochHi then returns. -/
theorem epochLoRead : Obligations.EpochLoRead := by
  intro r s hserves
  have hexec : exec (.epochLoRead r) s = .next ((s.setReg (ownKey r R.SYS_EPOCH_HI) (BitVec.ofNat 32 (s.sys.epoch.toNat / 2 ^ 32))).emit
      (.readData r R.SYS_EPOCH_LO (BitVec.ofNat 32 (s.sys.epoch.toNat % 2 ^ 32)))) := by
    show Host.Outcome.next (s.readCmd r R.SYS_EPOCH_LO) = _
    unfold State.readCmd
    rw [if_pos hserves, State.readReg_epochLo]
  refine ⟨_, hexec, rfl, ?_, fun u => u.readReg_epochHi r, s.setReg_regsBut _ _, by simp⟩
  rw [State.readReg_epochHi, State.reg_congr (State.emit_regs _ _), State.reg_setReg, if_pos rfl, epochHi_and]

end Sys2Proof.Machine
end

section
/-! PROOFS. The observer of the grid and the ROCOF windows (O21). -/

namespace Sys2Proof.Machine

/-- A latched bit stays latched, whatever else is latched. -/
theorem State.rb_latch_keeps (s : State) (k b k' b' : Nat) (hb : b < 32) (h : s.rb k' b' = true) : (s.latch k b).rb k' b' = true := by
  unfold State.rb at h ⊢
  rw [State.reg_latch]
  split
  · next hk =>
    by_cases hbb : b' = b
    · rw [hbb, flag_setFld_same _ _ _ hb]; rfl
    · rw [flag_setFld_ne _ _ _ _ _ hb (by omega), ← hk]; exact h
  · exact h

/-- The lowest bit of a list of bits. -/
theorem bit_ofBits_zero (b : Bool) (l : List Bool) : bit (ofBits (b :: l)) 0 = b := by
  simp only [bit, bits, ofBits, b2n, Nat.pow_zero, Nat.div_one]
  cases b
  · simp
  · simp [Nat.add_mod]

theorem mem_bitList {n w b : Nat} (hb : b < n) (h : bit w b = true) : b ∈ bitList n w :=
  List.mem_filter.mpr ⟨List.mem_range.mpr hb, h⟩

/-- The cause bit of a source that is not raised yet (R244). -/
def State.grdLatch (s : State) (b : Nat) : State := if bit s.grd.raised b then s else s.latch R.GRD_CAUSE b

theorem State.grdLatch_grd (s : State) (b : Nat) : (s.grdLatch b).grd = s.grd := by
  unfold State.grdLatch
  exact (apply_ite State.grd _ _ _).trans (ite_eq_left_iff.mpr fun _ => s.latch_grd _ b)

theorem State.grdLatch_regsBut (s : State) (b : Nat) : RegsBut [R.GRD_CAUSE] s (s.grdLatch b) :=
  .ite (.refl _ s) (s.latch_regsBut R.GRD_CAUSE b)

theorem State.rb_grdLatch_keeps (s : State) (b : Nat) (hb : b < 32) (k b' : Nat) (h : s.rb k b' = true) : (s.grdLatch b).rb k b' = true := by
  unfold State.grdLatch
  split
  · exact h
  · exact s.rb_latch_keeps _ b k b' hb h

theorem State.grdLatches_grd (s : State) (l : List Nat) : (l.foldl State.grdLatch s).grd = s.grd := by
  induction l generalizing s with
  | nil => rfl
  | cons b l ih => exact (ih _).trans (s.grdLatch_grd b)

theorem State.rb_grdLatches_keeps (s : State) (l : List Nat) (hl : ∀ b ∈ l, b < 32) (k b' : Nat) (h : s.rb k b' = true) :
    (l.foldl State.grdLatch s).rb k b' = true := by
  induction l generalizing s with
  | nil => exact h
  | cons b l ih => exact ih _ (fun b hb => hl b (List.mem_cons_of_mem _ hb)) (s.rb_grdLatch_keeps b (hl b List.mem_cons_self) k b' h)

/-- A source that is newly raised sets its cause bit (R244). -/
theorem State.rb_grdLatches (s : State) (l : List Nat) (hl : ∀ b ∈ l, b < 32) {b' : Nat} (hb : b' ∈ l)
    (hnew : bit s.grd.raised b' = false) : (l.foldl State.grdLatch s).rb R.GRD_CAUSE b' = true := by
  induction l generalizing s with
  | nil => exact absurd hb List.not_mem_nil
  | cons b l ih =>
    have hl' : ∀ b ∈ l, b < 32 := fun b hb => hl b (List.mem_cons_of_mem _ hb)
    rcases List.mem_cons.mp hb with rfl | hb
    · refine State.rb_grdLatches_keeps _ l hl' _ _ ?_
      rw [State.grdLatch, hnew, if_neg Bool.false_ne_true]
      exact s.rb_latch _ _ (hl _ List.mem_cons_self)
    · exact ih _ hl' hb (by rw [State.grdLatch_grd]; exact hnew)

/-- The raise of the Grid Engine: the causes of the sources that are new, and the sources raised now (R244). -/
theorem State.grdRaise_eq (s : State) : s.grdRaise = { (bitList 12 s.grdSources).foldl State.grdLatch s with
    grd := { s.grd with raised := s.grdSources } } := by
  rw [← s.grdLatches_grd (bitList 12 s.grdSources)]
  unfold State.grdRaise State.grdLatch
  rfl

theorem State.grdRaise_grd (s : State) : s.grdRaise.grd = { s.grd with raised := s.grdSources } := by rw [State.grdRaise_eq]

theorem State.reg_grdRaise (s : State) (k : Nat) : s.grdRaise.reg k = ((bitList 12 s.grdSources).foldl State.grdLatch s).reg k := by
  rw [State.grdRaise_eq]
  exact State.reg_congr rfl k

theorem State.grdRaise_regsBut (s : State) : RegsBut [R.GRD_CAUSE] s s.grdRaise := by
  intro k hk
  rw [State.reg_grdRaise]
  exact RegsBut.foldl (fun y b _ => y.grdLatch_regsBut b) s k hk

theorem State.rb_grdRaise (s : State) {b : Nat} (hb : b < 12) (h : bit s.grdSources b = true) (hnew : bit s.grd.raised b = false) :
    s.grdRaise.rb R.GRD_CAUSE b = true := by
  have hmem := mem_bitList hb h
  have hlt : ∀ b ∈ bitList 12 s.grdSources, b < 32 := fun b hb => (List.mem_range.mp (List.mem_filter.mp hb).1).trans (by decide)
  unfold State.rb
  rw [State.reg_grdRaise]
  exact s.rb_grdLatches _ hlt hmem hnew

/-- Bit 0 of the sources is the loss of signal: the observer is in LOS outside OFF (R219, R244). -/
theorem State.bit_grdSources_los (s : State) : bit s.grdSources 0 = (s.grd.obs = .los && s.sys.conv ≠ .off) := by
  unfold State.grdSources
  exact bit_ofBits_zero _ _

/-- Settles O21: each event of the observer is one change of it and grdRaise, which writes its source list and GRD_CAUSE. -/
theorem gridObserver : Obligations.GridObserver := by
  refine ⟨fun s hobs hcfg hrun => ?lock, fun s hobs hgfm hrun => ?los, fun n s hobs htag hms => ?freewheel,
    fun w m m0 s hw hend hpass hm => ?rocof⟩
  case lock =>
    have hexec : exec .observerLock s =
        .next ({ s with grd := { s.grd with obs := .locked, lockRun := 0, losRun := 0, lockedAt := s.sys.epoch } } : State).grdRaise :=
      if_pos ⟨hobs, by simp [hcfg], hrun⟩
    exact ⟨_, hexec, by rw [State.grdRaise_grd], State.grdRaise_regsBut _, by simp⟩
  case los =>
    have hexec : exec .observerLos s = .next ({ s with grd := { s.grd with obs := .los, lockRun := 0, losRun := 0 } } : State).grdRaise :=
      if_pos ⟨hobs, by simp [hgfm], hrun⟩
    refine ⟨_, hexec, by rw [State.grdRaise_grd], fun hconv => ?_, State.grdRaise_regsBut _, by simp⟩
    have hbit := State.bit_grdSources_los { s with grd := { s.grd with obs := .los, lockRun := 0, losRun := 0 } }
    simp only [hconv, decide_true, ne_eq, not_false_eq_true, Bool.and_self] at hbit
    exact ⟨by rw [State.grdRaise_grd]; exact hbit, State.rb_grdRaise _ (by decide) hbit⟩
  case freewheel =>
    have hexec : exec .freewheelTimeout s = .next ({ s with grd := { s.grd with obs := .unlocked, lockRun := 0 } } : State).grdRaise := by
      show execFreewheelTimeout s = _
      unfold execFreewheelTimeout
      dsimp only
      split
      · next n' hobs' htag' =>
        cases htag.symm.trans htag'
        rw [if_pos hms]
      · next hno => exact absurd htag (hno n hobs)
    exact ⟨_, hexec, by rw [State.grdRaise_grd], State.grdRaise_regsBut _, by simp⟩
  case rocof =>
    have hpass' : ¬ (s.sys.epoch.toNat / s.rocofN = w ∨ (s.sys.epoch = BitVec.ofNat 48 ((w + 1) * s.rocofN - 1) + 1 ∧
        s.grd.tag ≠ some (BitVec.ofNat 48 ((w + 1) * s.rocofN - 1)) ∧ s.itemHeld 0 = false)) := by
      rintro (h | ⟨h, htag, hheld⟩)
      · exact hend h
      · rcases hpass h with h' | h'
        · exact htag h'
        · rw [h'] at hheld; cases hheld
    have hexec : exec .rocofWindowEnd s = execRocofWindowEnd s := rfl
    rw [hexec]
    simp only [execRocofWindowEnd, hw, if_neg hpass']
    refine ⟨_, rfl, by rw [hm], rfl, fun w0 hw0 hnext => ?_, fun hnone => ?_, by simp⟩
    · simp only [hw0, hnext, if_true, hm]
    · simp only [hnone]

end Sys2Proof.Machine
end

section
/-! PROOFS. The converter's own transitions (O4): what a transition leaves of the system block, and the start of RUN. -/

namespace Sys2Proof.Machine

/-- An entry into CHARGE restarts its counts, and an entry into READY the count of bad epochs (R32, R488). -/
theorem State.enter_counts (s : State) (old : Conv) :
    (s.enter old .charge).sys.chargeGood = 0 ∧ (s.enter old .charge).sys.chargeEp = 0 ∧ (s.enter old .ready).sys.chargeBad = 0 :=
  ⟨rfl, rfl, rfl⟩

/-- What comes after the entry in a transition leaves the system block. -/
theorem State.moveTo_sys_enter (s : State) (c : Conv) (k n : Nat) : ∃ s4 : State, (s.moveTo c k n).sys = (s4.enter s.sys.conv c).sys := by
  unfold State.moveTo
  extract_lets old detail stops q1 q2 s1 s2 s3 s4
  exact ⟨s4, keep_sys (s := s4.enter old c) (by simp)⟩

/-- The start of RUN where it is due is the transition to RUN, as far as the system block goes (R34, R35). -/
theorem State.beginRun_sys {s : State} {a : Announce} (ha : s.sys.announce = some a) (hdue : s.runDue = true) :
    s.beginRun.sys = (s.moveTo .run (if a.recovery then 5 else 0)).sys := by
  unfold State.beginRun
  rw [ha]
  dsimp only
  rw [if_pos hdue]
  split
  · exact keep_sys (by simp)
  · exact keep_sys (by simp)

/-- A stay in CHARGE that has expired is indicated as source 67 (R32, R303). -/
theorem State.mem_indications_chargeExpired {s : State} (hc : s.sys.conv = .charge) (he : s.sys.chargeExpired = true) :
    67 ∈ s.indications := by
  unfold State.indications
  rw [if_pos (⟨hc, he⟩ : s.sys.conv = .charge ∧ s.sys.chargeExpired = true)]
  simp

/-- Settles O4: each is one transition, read through moveTo_sys, but for the expiry, which sets its flag and renews the indications. -/
theorem converterTransitions : Obligations.ConverterTransitions := by
  refine ⟨fun s hc hgood hmoved => ?complete, fun s hc hbad hmoved hdue => ?lost, fun s hc ht hexp => ?expired, fun a s ha hk hmoved => ?run⟩
  case complete =>
    have hexec : exec .chargeComplete s = .next (s.moveTo .ready 1) := if_pos ⟨hc, hgood, hmoved⟩
    obtain ⟨hconv, hprev, hcause, hmv, -, hep, -⟩ := moveTo_sys s .ready 1 3
    obtain ⟨s4, henter⟩ := s.moveTo_sys_enter .ready 1 3
    obtain ⟨-, -, hcount⟩ := s4.enter_counts s.sys.conv
    exact ⟨_, hexec, hconv, hprev.trans hc, hcause, hmv, henter ▸ hcount, hep, by simp⟩
  case lost =>
    have hexec : exec .chargeConditionsLost s = .next ((s.cancelAnnounce 2).moveTo .charge 7) := if_pos ⟨hc, hbad, hmoved, hdue⟩
    have hsys := cancelAnnounce_sys s 2
    obtain ⟨hconv, hprev, hcause, hmv, hann, hep, -⟩ := moveTo_sys (s.cancelAnnounce 2) .charge 7 3
    obtain ⟨s4, henter⟩ := (s.cancelAnnounce 2).moveTo_sys_enter .charge 7 3
    obtain ⟨hgood, hstay, -⟩ := s4.enter_counts (s.cancelAnnounce 2).sys.conv
    refine ⟨_, hexec, hconv, ?_, hcause, hmv, hann, henter ▸ hgood, henter ▸ hstay, ?_, by simp⟩
    · rw [hprev, hsys, hc]
    · rw [hep, hsys]
  case expired =>
    have hexec : exec .chargeTimeout s = .next ({ s with sys := { s.sys with chargeExpired := true } } : State).prtIndicate :=
      if_pos ⟨hc, ht, hexp⟩
    exact ⟨_, hexec, rfl, State.mem_indications_chargeExpired hc rfl, rfl, by simp⟩
  case run =>
    have hdue : s.runDue = true := by
      unfold State.runDue
      simp only [ha, hk, hmoved, Bool.not_false, Bool.and_self]
    have hexec : exec .runStart s = .next s.beginRun.evalOrders := if_pos hdue
    obtain ⟨hconv, hprev, hcause, hmv, hann, hep, -⟩ := moveTo_sys s .run (if a.recovery then 5 else 0) 3
    refine ⟨_, hexec, ?_⟩
    rw [State.beginRun_sys ha hdue]
    exact ⟨hconv, hprev, hcause, hann, hmv, hep, by simp⟩

end Sys2Proof.Machine
end

section
/-! PROOFS. The ends of an episode and of a lock-out (O30, O31): what a transition to READY or OFF leaves of the protections' registers
and state. -/

namespace Sys2Proof.Machine

/-- The offsets of the PRT block (R312). -/
def inPrt (k : Nat) : Bool := decide (0x1E00 ≤ k ∧ k < 0x2400)

/-- Every register of the PRT block reads alike. -/
def PrtRegsKept (s t : State) : Prop := ∀ k, inPrt k = true → t.reg k = s.reg k

theorem PrtRegsKept.refl (s : State) : PrtRegsKept s s := fun _ _ => rfl

theorem PrtRegsKept.trans {s t u : State} (h : PrtRegsKept s t) (h' : PrtRegsKept t u) : PrtRegsKept s u :=
  fun k hk => (h' k hk).trans (h k hk)

theorem PrtRegsKept.of_regs {s t : State} (h : t.regs = s.regs) : PrtRegsKept s t := fun k _ => State.reg_congr h k

/-- A change outside the register file. -/
theorem PrtRegsKept.of_frame {s t : State} (h : Frame [.sys, .mgmtStatus, .mfe, .lnk, .cel, .ctl, .grd, .edg, .prt, .mtr, .saf, .hats, .pwr,
    .ref, .start, .trk, .dbg, .out, .freeCount, .pending] s t) : PrtRegsKept s t := .of_regs (keep_regs h)

theorem PrtRegsKept.ite {c : Prop} [Decidable c] {s a b : State} (ha : PrtRegsKept s a) (hb : PrtRegsKept s b) :
    PrtRegsKept s (if c then a else b) := by split <;> assumption

theorem PrtRegsKept.foldl {A : Type} {f : State → A → State} {l : List A} (hf : ∀ y a, PrtRegsKept y (f y a)) (s : State) :
    PrtRegsKept s (l.foldl f s) := by
  induction l generalizing s with
  | nil => exact .refl s
  | cons a l ih => exact (hf s a).trans (ih _)

theorem State.setReg_prtRegs (s : State) {k : Nat} (v : Word) (hk : inPrt k = false) : PrtRegsKept s (s.setReg k v) := by
  intro k' hk'
  rw [State.reg_setReg, if_neg]
  rintro rfl
  rw [hk] at hk'
  cases hk'

theorem State.noteLt_prtRegs (s : State) (k : Nat) (m : Word) : PrtRegsKept s (s.noteLt k m) := fun k' _ => s.reg_noteLt k k' m

theorem State.latch_prtRegs (s : State) {k : Nat} (b : Nat) (hk : inPrt k = false) : PrtRegsKept s (s.latch k b) :=
  (s.setReg_prtRegs _ hk).trans (State.noteLt_prtRegs _ _ _)

/-- A register of the bank of a Hatch lies outside the block. -/
theorem inPrt_bankKey (h off : Nat) : inPrt (bankKey h off) = false := by
  rw [inPrt, bankKey, decide_eq_false_iff_not]
  omega

theorem State.hatCause_prtRegs (s : State) (h : Fin 4) (b : Nat) : PrtRegsKept s (s.hatCause h b) :=
  (s.latch_prtRegs b (inPrt_bankKey _ _)).trans (.ite (.of_frame (by simp)) (.refl _))

theorem State.countSuppressed_prtRegs (s : State) (n : Nat) : PrtRegsKept s (s.countSuppressed n) :=
  (s.setReg_prtRegs _ (by decide)).trans (State.noteLt_prtRegs _ _ _)

theorem State.binLog_prtRegs (s : State) (cause : Nat) (payload : List Nat) : PrtRegsKept s (s.binLog cause payload) := by
  unfold State.binLog State.binAt State.binPush
  split
  · exact (s.countSuppressed_prtRegs 1).trans (.of_regs rfl)
  · extract_lets start q s1 on rep q' s2 t3 s3
    have h1 : PrtRegsKept s s1 := .ite ((s.latch_prtRegs 0 (by decide)).trans (State.countSuppressed_prtRegs _ _)) (.refl s)
    have h2 : PrtRegsKept s1 s2 := .ite (s1.countSuppressed_prtRegs 1) (.refl s1)
    have h3 : PrtRegsKept s2 s3 := .of_regs rfl
    exact h1.trans (h2.trans (h3.trans ((s3.setReg_prtRegs _ (by decide)).trans (State.noteLt_prtRegs _ _ _))))

theorem State.trkAsk_prtRegs (s : State) (i : TrkItem) (ws : List Nat) : PrtRegsKept s (s.trkAsk i ws) :=
  .ite (s.countSuppressed_prtRegs 1) (.of_regs rfl)

theorem State.signal_prtRegs (s : State) (h : Fin 4) (vector : Nat) : PrtRegsKept s (s.signal h vector) := .of_frame (by simp)

theorem State.eventTo_prtRegs (s : State) (h : Fin 4) (kind detail : Nat) (ep : Epoch) (w2 w3 : Nat) :
    PrtRegsKept s (s.eventTo h kind detail ep w2 w3) := by
  unfold State.eventTo
  extract_lets a lose put s1 s2 s3 s4
  have hlose (y : State) : PrtRegsKept y (lose y) := (PrtRegsKept.of_regs (State.updHat_regs _ _ _)).trans (State.hatCause_prtRegs _ _ _)
  have hput (y : State) (kind detail : Nat) (ep : Epoch) (w2 w3 : Nat) : PrtRegsKept y (put y kind detail ep w2 w3) :=
    .of_frame (by simp [put])
  have h1 : PrtRegsKept s s1 := .of_regs (State.updHat_regs _ _ _)
  have h2 : PrtRegsKept s s2 := hput s _ _ _ _ _
  have h3 : PrtRegsKept s2 s3 := s2.binLog_prtRegs _ _
  have h4 : PrtRegsKept s3 s4 := .of_regs (State.updHat_regs _ _ _)
  exact .ite (hlose s) (.ite (h1.trans ((s1.hatCause_prtRegs h 0).trans (hlose _))) (.ite (hput s _ _ _ _ _)
    (h2.trans (h3.trans (h4.trans (.ite (hlose s4) (hput s4 _ _ _ _ _)))))))

theorem State.eventMask_prtRegs (s : State) (mask kind detail : Nat) (ep : Epoch) (w2 w3 : Nat) :
    PrtRegsKept s (s.eventMask mask kind detail ep w2 w3) := .foldl (fun y h => y.eventTo_prtRegs h _ _ _ _ _) s

theorem State.stopCr_prtRegs (s : State) (h : Fin 4) (c kind : Nat) : PrtRegsKept s (s.stopCr h c kind) := by
  unfold State.stopCr
  exact (PrtRegsKept.of_regs (State.updHat_regs _ _ _)).trans (State.hatCause_prtRegs _ _ _)

theorem State.completeAt_prtRegs (s : State) (e : Epoch) (r : OrderRef) (opcode status w2 w3 : Nat) :
    PrtRegsKept s (s.completeAt e r opcode status w2 w3) := by
  unfold State.completeAt
  extract_lets a t
  have h1 : PrtRegsKept s t := .of_regs (State.updHat_regs _ _ _)
  split
  · exact h1
  · next c _ =>
    extract_lets cr used put w0 ws u
    have hput (x : RingSt) (y : State) : PrtRegsKept y (put x y) := .of_regs (State.updHat_regs _ _ _)
    have hu : PrtRegsKept t u := (PrtRegsKept.of_regs (State.emit_regs _ _)).trans (hput _ _)
    refine h1.trans (.ite (.refl t) (.ite (hput _ t) (.ite ((hput used t).trans (State.stopCr_prtRegs _ _ _ _))
      (hu.trans (.ite (u.signal_prtRegs _ _) (.refl u))))))

theorem State.stateDone_prtRegs (s : State) (r : OrderRef) (opcode status : Nat) (old new : Conv) :
    PrtRegsKept s (s.stateDone r opcode status old new) := s.completeAt_prtRegs _ _ _ _ _ _

theorem State.statesDone_prtRegs (s : State) (rs : List OrderRef) (opcode status : Nat) (old new : Conv) :
    PrtRegsKept s (s.statesDone rs opcode status old new) := .foldl (fun y r => y.stateDone_prtRegs r _ _ _ _) s

theorem State.strResult_prtRegs (s : State) (r : Nat) : PrtRegsKept s (s.strResult r) :=
  (s.setReg_prtRegs _ (by decide)).trans (.ite (.refl _) (State.latch_prtRegs _ _ (by decide)))

/-- OFF ends the hand-over or the hand-back of a pair. -/
theorem State.stringsOff_prtRegs (s : State) : PrtRegsKept s s.stringsOff := by
  unfold State.stringsOff
  extract_lets y
  have h1 : PrtRegsKept s y := by
    refine .foldl (fun y x => .ite ?_ (.refl y)) s
    exact (PrtRegsKept.ite (y.strResult_prtRegs 6) (.refl y)).trans (.of_regs (State.updPair_regs _ _ _))
  exact h1.trans (.ite ((PrtRegsKept.of_regs rfl).trans (State.strResult_prtRegs _ 6)) (.refl y))

theorem State.repairRows_prtRegs (s : State) : PrtRegsKept s s.repairRows := by
  unfold State.repairRows
  extract_lets s'
  have h1 : PrtRegsKept s s' := by
    refine .foldl (fun y k => .ite ?_ (.refl y)) s
    have h2 : PrtRegsKept y (y.setRf R.CEL_SPARE (8 * (k / 2 ^ 20) + 7) (8 * (k / 2 ^ 20)) (y.spareUsed (k / 2 ^ 20) + 1)) :=
      y.setReg_prtRegs _ (by decide)
    exact h2.trans ((PrtRegsKept.of_regs rfl).trans (.ite (State.latch_prtRegs _ _ (by decide)) (.refl _)))
  exact h1.trans (.ite (.refl _) (s'.trkAsk_prtRegs _ _))

theorem State.testAbort_prtRegs (s : State) : PrtRegsKept s s.testAbort := by
  unfold State.testAbort
  split
  · exact .refl s
  · have h1 : PrtRegsKept s (({ s with mfe := { s.mfe with test := none } } : State).testResult 5) :=
      (PrtRegsKept.of_regs rfl).trans (State.setReg_prtRegs _ _ (by decide))
    exact .ite (.refl s) (h1.trans (State.latch_prtRegs _ _ (by decide)))

theorem State.enterOff_prtRegs (s : State) : PrtRegsKept s s.enterOff := by
  unfold State.enterOff
  extract_lets y
  have h1 : PrtRegsKept s.stringsOff (s.stringsOff.ctlOff.edgOff.grdLeave true) := .of_frame (by simp)
  have h2 := (s.stringsOff.ctlOff.edgOff.grdLeave true).repairRows_prtRegs
  have hy : PrtRegsKept s y := s.stringsOff_prtRegs.trans (h1.trans (h2.trans (.of_frame (by simp [y]))))
  clear_value y
  exact hy.trans (.of_regs rfl)

/-- A transition to READY or OFF writes no register of the protections. -/
theorem State.moveTo_prtRegs (s : State) {c : Conv} (k n : Nat) (hc : c = .off ∨ c = .ready) : PrtRegsKept s (s.moveTo c k n) := by
  unfold State.moveTo
  extract_lets old detail stops q1 q2 s1 s2 s3 s4
  have h1 : PrtRegsKept s s1 := .of_regs rfl
  have h2 : PrtRegsKept s1 s2 := s1.statesDone_prtRegs _ _ _ _ _
  have h3 : PrtRegsKept s2 s3 := s2.binLog_prtRegs _ _
  have h4 : PrtRegsKept s3 s4 := s3.eventMask_prtRegs _ _ _ _ _ _
  have h5 : PrtRegsKept s4 (s4.enter old c) := by
    rcases hc with rfl | rfl
    · exact s4.enterOff_prtRegs
    · exact .of_regs rfl
  have h6 := (s4.enter old c).testAbort_prtRegs
  exact h1.trans (h2.trans (h3.trans (h4.trans (h5.trans (h6.trans (.of_frame (by simp)))))))

/-- An entry into OFF forgets the episode and the entries into HOLD, and nothing else of the protections' state (R299, R300). -/
theorem State.enterOff_prt (s : State) : s.enterOff.prt = { s.prt with episode := none, holdEntries := [] } := by
  unfold State.enterOff
  extract_lets y
  have hy : y.prt = s.prt := keep_prt (by simp [y])
  show ({ y.prt with episode := none, holdEntries := [] } : PrtSt) = _
  rw [hy]

/-- A transition renews the indications of the protections; what else it does to their state its entry does. -/
theorem State.moveTo_prt (s : State) (c : Conv) (k n : Nat) : ∃ (s4 : State) (l : List Nat), s4.prt = s.prt ∧
    (s.moveTo c k n).prt = { (s4.enter s.sys.conv c).prt with ind := l } := by
  unfold State.moveTo
  extract_lets old detail stops q1 q2 s1 s2 s3 s4
  refine ⟨s4, ((s4.enter old c).testAbort.stateAnnex).indications, ?_, ?_⟩
  · exact (keep_prt (by simp [s4, s3, s2])).trans (rfl : s1.prt = s.prt)
  · have h : ((s4.enter old c).testAbort.stateAnnex).prt = (s4.enter old c).prt := keep_prt (by simp)
    rw [← h]
    rfl

theorem State.moveTo_ready_prt (s : State) (k n : Nat) : ∃ l, (s.moveTo .ready k n).prt = { s.prt with ind := l } := by
  obtain ⟨s4, l, h4, h⟩ := s.moveTo_prt .ready k n
  refine ⟨l, ?_⟩
  rw [h, ← h4]
  rfl

theorem State.moveTo_off_prt (s : State) (k n : Nat) :
    ∃ l, (s.moveTo .off k n).prt = { s.prt with episode := none, holdEntries := [], ind := l } := by
  obtain ⟨s4, l, h4, h⟩ := s.moveTo_prt .off k n
  refine ⟨l, ?_⟩
  rw [h, ← h4, show s4.enter s.sys.conv .off = s4.enterOff from rfl, s4.enterOff_prt]

/-- The end of an episode that has not been noted yet (R298). -/
theorem State.endEpisode_eq {s : State} (h : s.prt.recDone = false) :
    s.endEpisode = ({ s with prt := { s.prt with episode := none, recDone := true } } : State).latch R.PRT_CAUSE 4 := by
  unfold State.endEpisode
  rw [h, if_neg Bool.false_ne_true]

/-- The recovery completes: what it does by AUTO_RESUME and the permits. -/
theorem execRecoveryComplete_eq {s : State} (hrec : s.recovered = true) (hmoved : s.sys.moved = false) (hann : s.sys.announce = none) :
    execRecoveryComplete s = (if s.endEpisode.rb R.SYS_CONV_CFG 1 = false then .next (s.endEpisode.moveTo .ready 5)
      else if s.endEpisode.prt.a.permit ∧ s.endEpisode.prt.b.permit then .next (s.endEpisode.announceRun true []) else .next s.endEpisode) :=
  if_pos ⟨hrec, hmoved, hann⟩

/-- The end of an episode leaves SYS_CONV_CFG, and PRT_CAUSE shows it (R298). -/
theorem State.endEpisode_regs {s : State} (h : s.prt.recDone = false) :
    s.endEpisode.rb R.PRT_CAUSE 4 = true ∧ RegsBut [R.PRT_CAUSE] s s.endEpisode ∧
      s.endEpisode.prt = { s.prt with episode := none, recDone := true } ∧ s.endEpisode.sys = s.sys := by
  rw [State.endEpisode_eq h]
  have h1 : RegsBut [R.PRT_CAUSE] s { s with prt := { s.prt with episode := none, recDone := true } } := .of_regs rfl
  exact ⟨State.rb_latch _ _ _ (by decide), h1.trans (State.latch_regsBut _ _ _), State.latch_prt _ _ _, State.latch_sys _ _ _⟩

/-- The largest lead of the active lanes is read off the lanes, the domains and LNK_LANE_EN. -/
theorem State.leadMax_congr {s t : State} (hreg : ∀ i < 16, t.reg (R.LNK_LANE_EN i) = s.reg (R.LNK_LANE_EN i)) (hlnk : t.lnk = s.lnk)
    (hpwr : t.pwr = s.pwr) : t.leadMax = s.leadMax := by
  have hactive : t.activeLanes = s.activeLanes := List.filter_congr fun l hl => by
    have hlane : l / 32 < 16 := by have := List.mem_range.mp hl; omega
    simp only [State.laneActive, State.laneEnabled, State.rb, State.domain, State.lane, hreg _ hlane, hlnk, hpwr]
  simp only [State.leadMax, hactive, State.lane, hlnk]

theorem mem_cons_erase {k a : Nat} {l : List Nat} : a ∈ k :: l.erase k ↔ a = k ∨ a ∈ l := by
  by_cases h : a = k
  · simp [h]
  · simp [h, List.mem_erase_of_ne h]

/-- Settles O30: the recovery is endEpisode with one of three ends; the time-out and the pulse each change one field of the protections. -/
theorem episodeEnd : Obligations.EpisodeEnd := by
  refine ⟨fun s hrec hmoved hann hauto hdone => ?ready, fun s hrec hmoved hann hauto hdone ha hb => ?run,
    fun s hrec hmoved hann hauto hdone hperm => ?stay, fun s hrec hmoved hann hauto hdone hperm => ?again,
    fun e s hep hnot hlong => ?timeout, fun s hnot => ?once, fun o e s ho htrip hpulse hwidth => ?release, fun o s hpulse => ?level⟩
  case ready =>
    obtain ⟨hcause, hbut, hprt, hsys⟩ := State.endEpisode_regs hdone
    have hcfg : s.endEpisode.rb R.SYS_CONV_CFG 1 = false := by
      rw [State.rb, hbut _ (by decide)]
      exact hauto
    have hexec : exec .recoveryComplete s = .next (s.endEpisode.moveTo .ready 5) := by
      show execRecoveryComplete s = _
      rw [execRecoveryComplete_eq hrec hmoved hann, if_pos hcfg]
    have hhold : s.sys.conv = .hold := by
      unfold State.recovered at hrec
      simp only [Bool.and_eq_true, decide_eq_true_eq] at hrec
      exact hrec.1.1.1.1
    obtain ⟨hconv, hprev, hcs, hmv, -, hepoch, -⟩ := moveTo_sys s.endEpisode .ready 5 3
    obtain ⟨l, hl⟩ := s.endEpisode.moveTo_ready_prt 5 3
    refine ⟨_, hexec, hconv, ?_, hcs, hmv, ?_, ?_, ?_, ?_⟩
    · rw [hprev, hsys, hhold]
    · rw [hl, hprt]
    · rw [State.rb, s.endEpisode.moveTo_prtRegs 5 3 (.inr rfl) _ (by decide)]
      exact hcause
    · rw [hepoch, hsys]
    · simp
  case run =>
    obtain ⟨hcause, hbut, hprt, hsys⟩ := State.endEpisode_regs hdone
    have hcfg : s.endEpisode.rb R.SYS_CONV_CFG 1 = true := by
      rw [State.rb, hbut _ (by decide)]
      exact hauto
    have hexec : exec .recoveryComplete s = .next (s.endEpisode.announceRun true []) := by
      show execRecoveryComplete s = _
      rw [execRecoveryComplete_eq hrec hmoved hann, if_neg (by rw [hcfg]; decide), if_pos (by rw [hprt]; exact ⟨ha, hb⟩)]
    refine ⟨_, hexec, ?_, hprt, hcause, hbut, by simp⟩
    have hlead : s.endEpisode.leadMax = s.leadMax :=
      State.leadMax_congr (fun i hi => hbut _ (by rw [List.mem_singleton]; simp only [R.LNK_LANE_EN, R.PRT_CAUSE]; omega))
        (keep_lnk (by simp)) (keep_pwr (by simp))
    unfold State.announceRun
    rw [hlead, hsys]
  case stay =>
    obtain ⟨hcause, hbut, hprt, hsys⟩ := State.endEpisode_regs hdone
    have hcfg : s.endEpisode.rb R.SYS_CONV_CFG 1 = true := by
      rw [State.rb, hbut _ (by decide)]
      exact hauto
    have hexec : exec .recoveryComplete s = .next s.endEpisode := by
      show execRecoveryComplete s = _
      rw [execRecoveryComplete_eq hrec hmoved hann, if_neg (by rw [hcfg]; decide), if_neg]
      rw [hprt]
      simpa using hperm
    exact ⟨_, hexec, hprt, hcause, hbut, by simp⟩
  case again =>
    have hsame : s.endEpisode = s := if_pos hdone
    show execRecoveryComplete s = _
    rw [execRecoveryComplete_eq hrec hmoved hann, hsame, if_neg (by rw [hauto]; decide), if_neg]
    simpa using hperm
  case timeout =>
    have hexec : exec .holdTimeout s = .next (({ s with prt := { s.prt with holdTimeoutDone := true } } : State).prtEventNow 53) := by
      show execHoldTimeout s = _
      unfold execHoldTimeout
      rw [hep]
      exact if_pos ⟨hnot, hlong⟩
    exact ⟨_, hexec, rfl, fun k => ⟨mem_cons_erase, mem_cons_erase⟩, by simp⟩
  case once =>
    show execHoldTimeout s = _
    unfold execHoldTimeout
    split
    · rw [if_neg (by rw [hnot]; simp)]
    · rfl
  case release =>
    have hexec : exec (.tripPulseEnd o) s = .next { s with prt := { s.prt with trips := smErase s.prt.trips o } } := by
      show execTripPulseEnd o s = _
      unfold execTripPulseEnd
      rw [htrip]
      exact if_pos ⟨ho, hpulse, hwidth⟩
    refine ⟨_, hexec, ?_, fun p hp => ?_, by simp⟩
    · simp [smGet_smErase]
    · simp [smGet_smErase, hp]
  case level =>
    show execTripPulseEnd o s = _
    unfold execTripPulseEnd
    split
    · next e _ =>
      have hlevel : flag (s.reg (R.PRT_TRIP_CFG o)) 30 = false := hpulse
      dsimp only
      rw [if_neg (by rw [hlevel]; simp)]
    · rfl

end Sys2Proof.Machine
end

section
/-! PROOFS. The deliberate reset (O31). -/

namespace Sys2Proof.Machine

/-- A port that may give the reset is not logged. -/
theorem State.resetOwner_eq {s : State} {r : Requester} (h : s.mayWrite r R.PRT_RESET = true) : s.resetOwner r = s := if_pos h

theorem State.resetResult_stat (s : State) (r : Nat) (hr : r < 8) : (s.resetResult r).rf R.PRT_RESET_STAT 2 0 = r := by
  rw [State.resetResult, State.rf_setRf _ _ _ _ _ (by decide)]
  exact Nat.mod_eq_of_lt hr

/-- An answer to an attempt: RESULT, and what becomes of the protections' state (R310). -/
def State.resetAnswer (s : State) (r : Nat) (p : PrtSt) : State := { s.resetResult r with prt := p }

theorem State.resetAnswer_spec (s : State) (r : Nat) (p : PrtSt) (hr : r < 8) :
    (s.resetAnswer r p).prt = p ∧ (s.resetAnswer r p).rf R.PRT_RESET_STAT 2 0 = r ∧ RegsBut [R.PRT_RESET_STAT] s (s.resetAnswer r p) ∧
      Frame [.regs, .prt] s (s.resetAnswer r p) := by
  have hregs : (s.resetAnswer r p).regs = (s.resetResult r).regs := rfl
  refine ⟨rfl, ?_, RegsBut.trans (s.setReg_regsBut _ _) (.of_regs hregs), by simp [State.resetAnswer]⟩
  rw [State.rf, State.reg_congr hregs]
  exact s.resetResult_stat r hr

/-- What a refusal does: RESULT and the cause, with the ARM cancelled (R310). -/
theorem State.resetRefuse_spec (s : State) (r : Nat) (hr : r < 8) :
    (s.resetRefuse r).prt = { s.prt with resetArm := none, resetGo := false } ∧ (s.resetRefuse r).rf R.PRT_RESET_STAT 2 0 = r ∧
      (s.resetRefuse r).rb R.PRT_CAUSE 6 = true ∧ RegsBut [R.PRT_RESET_STAT, R.PRT_CAUSE] s (s.resetRefuse r) ∧
      Frame [.regs, .prt] s (s.resetRefuse r) := by
  have h : s.resetRefuse r = (s.resetAnswer r { s.prt with resetArm := none, resetGo := false }).latch R.PRT_CAUSE 6 := rfl
  obtain ⟨hprt, hstat, hbut, hframe⟩ := s.resetAnswer_spec r { s.prt with resetArm := none, resetGo := false } hr
  rw [h]
  refine ⟨hprt, ?_, State.rb_latch _ _ _ (by decide), (hbut.mono (by simp)).trans ((State.latch_regsBut _ _ _).mono (by simp)), ?_⟩
  · rw [State.rf, State.reg_latch, if_neg (by decide)]
    exact hstat
  · simpa using hframe

/-- ARM with its key, from a port that may give it. -/
theorem execResetArm_armed {r : Requester} {s : State} (h : s.mayWrite r R.PRT_RESET = true) : exec (.resetArm r 0xC35A) s =
    .next (s.resetAnswer 1 { s.prt with resetArm := some (r, s.sys.epoch), resetGo := false }) := by
  show Host.Outcome.next (s.resetArm r 0xC35A) = _
  unfold State.resetArm
  rw [State.resetOwner_eq h]
  exact congrArg _ (if_pos ⟨rfl, h⟩)

theorem execResetArm_refused {r : Requester} {key : Nat} {s : State} (h : s.mayWrite r R.PRT_RESET = true) (hkey : key ≠ 0xC35A) :
    exec (.resetArm r key) s = .next (s.resetRefuse 4) := by
  show Host.Outcome.next (s.resetArm r key) = _
  unfold State.resetArm
  rw [State.resetOwner_eq h]
  exact congrArg _ (if_neg (fun hk => hkey hk.1))

/-- GO with its key, from the port that armed, within 1 s, is accepted, and takes effect at its boundary. -/
theorem execResetGo_accepted {r : Requester} {e : Epoch} {s : State} (h : s.mayWrite r R.PRT_RESET = true)
    (harm : s.prt.resetArm = some (r, e)) (hin : (s.sys.epoch - e).toNat ≤ s.ep1s) :
    exec (.resetGo r 0x3CA5) s = .next ({ s with prt := { s.prt with resetGo := true } } : State).resetDo := by
  have hask : s.resetAsk r 0x3CA5 = { s with prt := { s.prt with resetGo := true } } := by
    unfold State.resetAsk
    rw [State.resetOwner_eq h]
    dsimp only
    rw [harm]
    exact if_pos ⟨rfl, rfl, h, hin⟩
  show execResetGo r 0x3CA5 s = _
  unfold execResetGo
  rw [hask]
  rfl

/-- The state in which the accepted reset makes its transition: RESULT 2 and the cause are set, the trip outputs are released, and
PRT_LOCKED is clear (R310). -/
def State.resetCleared (s : State) : State :=
  (List.range 3).foldl (fun s w => s.setReg (R.PRT_LOCKED w) 0)
    ((s.resetAnswer 2 { s.prt with resetArm := none, resetGo := false, trips := [] }).latch R.PRT_CAUSE 6)

theorem State.resetDo_eq {s : State} (hconv : s.sys.conv = .lockout) (hready : s.resetReady = true) (hlock : s.prt.lockPending = false)
    (hmoved : s.sys.moved = false) : s.resetDo = s.resetCleared.moveTo .off 6 := if_pos ⟨hconv, hready, hlock, hmoved⟩

theorem State.resetCleared_prt (s : State) : s.resetCleared.prt = { s.prt with resetArm := none, resetGo := false, trips := [] } := by
  have h : s.resetCleared.prt = (s.resetAnswer 2 { s.prt with resetArm := none, resetGo := false, trips := [] }).prt := by
    unfold State.resetCleared
    exact keep_prt (by rw [Frame.foldl (by intro y w; simp)]; simp)
  exact h

theorem State.resetCleared_frame (s : State) : Frame [.regs, .prt] s s.resetCleared := by
  obtain ⟨-, -, -, hframe⟩ := s.resetAnswer_spec 2 { s.prt with resetArm := none, resetGo := false, trips := [] } (by decide)
  unfold State.resetCleared
  rw [Frame.foldl (by intro y w; simp)]
  simpa using hframe

theorem State.reg_resetCleared_locked (s : State) (w : Nat) (hw : w < 3) : s.resetCleared.reg (R.PRT_LOCKED w) = 0 := by
  unfold State.resetCleared
  simp only [List.range_succ, List.range_zero, List.nil_append, List.cons_append, List.foldl_cons, List.foldl_nil, State.reg_setReg]
  have : w = 0 ∨ w = 1 ∨ w = 2 := by omega
  rcases this with rfl | rfl | rfl <;> simp

/-- The registers of the reset's answer are not those of PRT_LOCKED. -/
theorem State.reg_resetCleared {s : State} {k : Nat} (hk : ∀ w < 3, k ≠ R.PRT_LOCKED w) : s.resetCleared.reg k =
    ((s.resetAnswer 2 { s.prt with resetArm := none, resetGo := false, trips := [] }).latch R.PRT_CAUSE 6).reg k := by
  refine RegsBut.foldl (ks := (List.range 3).map R.PRT_LOCKED) (fun y w hw => (y.setReg_regsBut _ _).mono ?_) _ k ?_
  · exact List.cons_subset.mpr ⟨List.mem_map_of_mem hw, List.nil_subset _⟩
  · rw [List.mem_map]
    rintro ⟨w, hw, rfl⟩
    exact hk w (List.mem_range.mp hw) rfl

/-- Settles O31: each attempt is one of a refusal, an ARM, and an accepted GO with its transition to OFF. -/
theorem deliberateReset : Obligations.DeliberateReset := by
  refine ⟨fun r s hmay => ?arm, fun r key s hmay hkey => ?armKey, fun r e s hmay harm hin hconv hready hlock hmoved => ?go,
    fun r e s hmay harm hin hconv => ?goElse, fun r e s harm hlong hgo => ?expiry⟩
  case arm =>
    obtain ⟨hprt, hstat, hbut, hframe⟩ := s.resetAnswer_spec 1 { s.prt with resetArm := some (r, s.sys.epoch), resetGo := false } (by decide)
    exact ⟨_, execResetArm_armed hmay, hprt, hstat, hbut, hframe⟩
  case armKey =>
    obtain ⟨hprt, hstat, hcause, hbut, hframe⟩ := s.resetRefuse_spec 4 (by decide)
    exact ⟨_, execResetArm_refused hmay hkey, hprt, hstat, hcause, hbut, hframe⟩
  case go =>
    let u : State := { s with prt := { s.prt with resetGo := true } }
    have hexec : exec (.resetGo r 0x3CA5) s = .next (u.resetCleared.moveTo .off 6) := by
      rw [execResetGo_accepted hmay harm hin]
      exact congrArg _ (State.resetDo_eq (s := u) hconv hready hlock hmoved)
    obtain ⟨hc, hprev, hcs, -⟩ := moveTo_sys u.resetCleared .off 6 3
    obtain ⟨l, hprt⟩ := u.resetCleared.moveTo_off_prt 6 3
    have hkept := u.resetCleared.moveTo_prtRegs 6 3 (.inl rfl)
    refine ⟨_, hexec, hc, (hprev.trans (congrArg SysSt.conv u.resetCleared_frame.sys_eq)).trans hconv, hcs, ?_, ?_, ?_, ?_, ?_, ?_, ?_, ?_, ?_⟩
    · rw [hprt, State.resetCleared_prt]
    · rw [hprt, State.resetCleared_prt]
    · rw [hprt, State.resetCleared_prt]
    · rw [hkept _ (by decide), State.reg_resetCleared_locked _ 0 (by decide)]
    · rw [hkept _ (by decide), State.reg_resetCleared_locked _ 1 (by decide)]
    · rw [hkept _ (by decide), State.reg_resetCleared_locked _ 2 (by decide)]
    · obtain ⟨-, hstat, -⟩ := u.resetAnswer_spec 2 { u.prt with resetArm := none, resetGo := false, trips := [] } (by decide)
      rw [State.rf, hkept _ (by decide), State.reg_resetCleared (by decide), State.reg_latch, if_neg (by decide)]
      exact hstat
    · rw [State.rb, hkept _ (by decide), State.reg_resetCleared (by decide)]
      exact State.rb_latch _ _ _ (by decide)
    · rw [State.moveTo_frame _ _ _ (by simp)]
      exact Frame.trans (by simp [u]) (u.resetCleared_frame.mono (by simp))
  case goElse =>
    let u : State := { s with prt := { s.prt with resetGo := true } }
    have hexec : exec (.resetGo r 0x3CA5) s = .next (u.resetRefuse 3) := by
      rw [execResetGo_accepted hmay harm hin]
      exact congrArg _ (if_neg (fun h => hconv h.1))
    obtain ⟨hprt, hstat, hcause, hbut, hframe⟩ := u.resetRefuse_spec 3 (by decide)
    refine ⟨_, hexec, hframe.sys_eq, hprt, hstat, hcause, RegsBut.trans (.of_regs rfl) hbut, Frame.trans ?_ hframe⟩
    simp [u]
  case expiry =>
    have hexec : exec .resetArmExpiry s = .next (s.resetAnswer 5 { s.prt with resetArm := none }) := by
      show execResetArmExpiry s = _
      unfold execResetArmExpiry
      rw [harm]
      exact if_pos ⟨hlong, hgo⟩
    obtain ⟨hprt, hstat, hbut, hframe⟩ := s.resetAnswer_spec 5 { s.prt with resetArm := none } (by decide)
    exact ⟨_, hexec, hprt, hstat, hbut, hframe⟩

end Sys2Proof.Machine
end

section
/-! PROOFS. The state orders (O42): one rule per way in which an order is evaluated. -/

namespace Sys2Proof.Machine

/-- The four state orders are stateOrder with an effect. -/
theorem exec_stateOrder {c : Instr} {op : Nat} {r : OrderRef}
    (h : (c, op) ∈ [(.energise r, 0x01), (.deblock r, 0x02), (.block r, 0x03), (.deenergise r, 0x04)]) :
    ∃ f : State → State, ∀ s, exec c s = .next (s.stateOrder r op f) := by
  simp only [List.mem_cons, List.not_mem_nil, or_false, Prod.mk.injEq] at h
  rcases h with ⟨rfl, rfl⟩ | ⟨rfl, rfl⟩ | ⟨rfl, rfl⟩ | ⟨rfl, rfl⟩ <;> exact ⟨_, fun _ => rfl⟩

/-- An order of a Hatch that does not own CONVERTER (R394). -/
theorem State.stateOrder_notOwner {s : State} {r : OrderRef} {op : Nat} {f : State → State} (hdue : s.runDue = false)
    (hown : s.owns r.hatch 0 = false) : s.stateOrder r op f = s.complete r op 5 0 0 := by
  unfold State.stateOrder
  rw [State.beginRun_of_not_due hdue]
  exact if_pos hown

/-- The first order of a boundary, with no reaction that won there: the table of R32, the firing, the transition made, and the effect, in
this order. -/
theorem State.stateOrder_first {s : State} {r : OrderRef} {op : Nat} {f : State → State} (hdue : s.runDue = false)
    (hown : s.owns r.hatch 0 = true) (htaken : s.sys.taken = none) (hwon : s.reactionWon = false) : s.stateOrder r op f =
      (if orderAllowed op s.sys.conv = false then s.refuseOrder r op 1
      else if s.prt.firedLast ∧ op ≠ 0x04 then s.refuseOrder r op 3
      else if s.transitionMade then s.refuseOrder r op 4 else f s) := by
  unfold State.stateOrder
  rw [State.beginRun_of_not_due hdue]
  dsimp only
  rw [if_neg (by rw [hown]; decide), htaken]
  dsimp only
  rw [if_neg (by rw [hwon]; decide)]

/-- The first order of a boundary from a state that R32 lists, with no firing that bars it and no transition made: its effect. -/
theorem State.stateOrder_effect {s : State} {r : OrderRef} {op : Nat} {f : State → State} (hdue : s.runDue = false)
    (hown : s.owns r.hatch 0 = true) (htaken : s.sys.taken = none) (hwon : s.reactionWon = false) (hall : orderAllowed op s.sys.conv = true)
    (hfired : s.prt.firedLast = false ∨ op = 0x04) (hmade : s.transitionMade = false) : s.stateOrder r op f = f s := by
  rw [State.stateOrder_first hdue hown htaken hwon, if_neg (by rw [hall]; decide), if_neg, if_neg (by rw [hmade]; decide)]
  rintro ⟨hf, hop⟩
  rcases hfired with h | h
  · rw [h] at hf; cases hf
  · exact hop h

/-- A refusal takes the boundary's order and completes it. -/
theorem State.refuseOrder_eq (s : State) (r : OrderRef) (op status : Nat) (h : status ≠ 0) :
    s.refuseOrder r op status = (s.take op status false).complete r op status 0 0 := by
  unfold State.refuseOrder State.stateDone
  rw [if_neg h]

/-- An order that is carried out: the transition with cause 0, of which nothing but its completion follows (R33, R35, R389). -/
theorem State.carryOrder_spec (s : State) (r : OrderRef) (op : Nat) (to_ : Conv) :
    ∃ u : State, s.carryOrder r op to_ = u.complete r op 0 (s.sys.conv.code * 16 + to_.code) 0 ∧ u.sys.conv = to_ ∧ u.sys.prev = s.sys.conv ∧
      u.sys.cause = 0 ∧ u.sys.moved = true ∧ u.sys.announce = none ∧ u.sys.taken = some ⟨op, 0, false⟩ ∧ u.sys.epoch = s.sys.epoch ∧
      (to_ = .ready → u.prt.episode = s.prt.episode) ∧
      Frame [.regs, .sys, .mfe, .lnk, .cel, .ctl, .grd, .edg, .prt, .hats, .trk, .dbg, .out] s u := by
  have hsys : ((s.cancelAnnounce 4).take op 0 false).sys = { s.sys with announce := none, taken := some ⟨op, 0, false⟩ } := by
    unfold State.take
    rw [cancelAnnounce_sys]
  have hprt : ((s.cancelAnnounce 4).take op 0 false).prt = s.prt := keep_prt (by simp)
  obtain ⟨hconv, hprev, hcause, hmv, hann, hep, -⟩ := moveTo_sys ((s.cancelAnnounce 4).take op 0 false) to_ 0 3
  refine ⟨_, rfl, hconv, ?_, hcause, hmv, hann, ?_, ?_, ?_, by simp⟩
  · rw [hprev, hsys]
  · rw [moveTo_taken, hsys]
  · rw [hep, hsys]
  · rintro rfl
    obtain ⟨l, hl⟩ := ((s.cancelAnnounce 4).take op 0 false).moveTo_ready_prt 0 3
    rw [hl, hprt]

/-- BLOCK in RUN: the stop ramp starts, or the ramp in progress takes the order (R192). -/
def State.rampOrder (s : State) (r : OrderRef) : State :=
  let s := { s with sys := { s.sys with stopOrders := s.sys.stopOrders ++ [r] } }
  let s := if s.ctl.stopping.isSome then s
    else { s with ctl := { s.ctl with stopping := some s.sys.epoch, rampZero := false, rampDone := false } }
  s.take opBlock 0 true

theorem State.rampOrder_spec (s : State) (r : OrderRef) :
    (s.rampOrder r).sys = { s.sys with stopOrders := s.sys.stopOrders ++ [r], taken := some ⟨opBlock, 0, true⟩ } ∧
      (s.ctl.stopping = none → (s.rampOrder r).ctl.stopping = some s.sys.epoch) ∧
      (s.ctl.stopping.isSome = true → (s.rampOrder r).ctl = s.ctl) ∧ Frame [.sys, .ctl] s (s.rampOrder r) := by
  unfold State.rampOrder
  cases h : s.ctl.stopping with
  | none => exact ⟨by simp [h, State.take], fun _ => by simp [h, State.take], fun hs => (by cases hs), by simp [h]⟩
  | some e => exact ⟨by simp [h, State.take], fun hn => (by cases hn), fun _ => by simp [h, State.take], by simp [h]⟩

/-- A boundary without a transition: no start of RUN is made there, no reaction has won, and no transition bars an order. -/
theorem State.unmoved {s : State} (hann : s.sys.announce = none) (hmoved : s.sys.moved = false) :
    s.runDue = false ∧ s.reactionWon = false ∧ s.transitionMade = false := by
  simp [State.runDue, State.reactionWon, State.transitionMade, hann, hmoved]

/-- In RUN no reaction has won at the boundary, and no transition bars an order. -/
theorem State.inRun {s : State} (hconv : s.sys.conv = .run) : s.reactionWon = false ∧ s.transitionMade = false := by
  simp [State.reactionWon, State.transitionMade, hconv]

/-- Settles O42: an order is refused by its place in stateOrder_first, or has its effect. -/
theorem stateOrders : Obligations.StateOrders := by
  refine ⟨fun c op r s hc hdue hown => ?notOwner, fun c op r s hc hdue hown htaken hwon hall => ?state,
    fun c op r s hc hdue hown htaken hwon hall hfired hmade => ?busy, fun c op r s hc hdue hown htaken hwon hall hfired => ?reaction,
    fun r s hdue hown htaken hwon hfired hmade hconv hst href hsaf hrea hlock => ?energise,
    fun r s hdue hown htaken hwon hfired hmade hconv hcond => ?energiseNot,
    fun r s hown htaken hconv hann hfired hmoved hmay => ?deblock, fun r s hown htaken hconv hann hfired hmoved hmay => ?deblockNot,
    fun r s hdue hown htaken hfired hconv => ?blockRun,
    fun r s hdue hown htaken hwon hfired hmade hconv hrec => ?blockHold, fun r s hdue hown htaken hwon hfired hmade hconv hrec => ?blockNot,
    fun r s hdue hown htaken hwon hmade hconv => ?deenergise⟩
  case notOwner =>
    obtain ⟨f, hf⟩ := exec_stateOrder hc
    rw [hf, State.stateOrder_notOwner hdue hown]
  case state =>
    obtain ⟨f, hf⟩ := exec_stateOrder hc
    rw [hf, State.stateOrder_first hdue hown htaken hwon, if_pos hall, State.refuseOrder_eq _ _ _ _ (by decide)]
  case busy =>
    obtain ⟨f, hf⟩ := exec_stateOrder hc
    have hno : ¬ (s.prt.firedLast = true ∧ op ≠ 0x04) := by
      rintro ⟨hl, hop⟩
      exact hfired.elim hop (fun h => absurd (hl.symm.trans h) (by decide))
    rw [hf, State.stateOrder_first hdue hown htaken hwon, if_neg (by rw [hall]; decide), if_neg hno, if_pos hmade,
      State.refuseOrder_eq _ _ _ _ (by decide)]
  case reaction =>
    have hop : op ≠ 0x04 := by
      simp only [List.mem_cons, List.not_mem_nil, or_false, Prod.mk.injEq] at hc
      omega
    obtain ⟨f, hf⟩ := exec_stateOrder (List.mem_append_left [(Instr.deenergise r, 0x04)] hc)
    rw [hf, State.stateOrder_first hdue hown htaken hwon, if_neg (by rw [hall]; decide), if_pos ⟨hfired, hop⟩,
      State.refuseOrder_eq _ _ _ _ (by decide)]
  case energise =>
    have hexec : exec (.energise r) s = .next (s.carryOrder r 0x01 .charge) := by
      show Host.Outcome.next (s.energise r) = _
      unfold State.energise
      rw [State.stateOrder_effect hdue hown htaken hwon (by rw [hconv]; rfl) (.inl hfired) hmade]
      exact congrArg _ (if_pos ⟨hst, href, hsaf, hrea, hlock⟩)
    obtain ⟨u, hu, hc, hprev, hcause, hmv, -, htk, hep, -, hframe⟩ := s.carryOrder_spec r 0x01 .charge
    rw [hconv] at hu hprev
    exact ⟨u, hexec.trans (congrArg _ hu), hc, hprev, hcause, hmv, htk, hep, hframe⟩
  case energiseNot =>
    show Host.Outcome.next (s.energise r) = _
    unfold State.energise
    rw [State.stateOrder_effect hdue hown htaken hwon (by rw [hconv]; rfl) (.inl hfired) hmade, if_neg hcond,
      State.refuseOrder_eq _ _ _ _ (by decide)]
  case deblock =>
    obtain ⟨hdue, hwon, hmade⟩ := State.unmoved hann hmoved
    have hexec : exec (.deblock r) s = .next ((s.announceRun false [r]).take opDeblock 0 true) := by
      show Host.Outcome.next (s.deblock r) = _
      unfold State.deblock
      rw [State.stateOrder_effect hdue hown htaken hwon (by rw [hconv]; rfl) (.inl hfired) hmade]
      dsimp only
      rw [hann]
      exact congrArg _ (if_pos hmay)
    exact ⟨_, hexec, hconv, rfl, rfl, by simp⟩
  case deblockNot =>
    obtain ⟨hdue, hwon, hmade⟩ := State.unmoved hann hmoved
    show Host.Outcome.next (s.deblock r) = _
    unfold State.deblock
    rw [State.stateOrder_effect hdue hown htaken hwon (by rw [hconv]; rfl) (.inl hfired) hmade]
    dsimp only
    rw [hann]
    exact congrArg _ ((if_neg (by rw [hmay]; decide)).trans (State.refuseOrder_eq _ _ _ _ (by decide)))
  case blockRun =>
    obtain ⟨hwon, hmade⟩ := State.inRun hconv
    have hexec : exec (.block r) s = .next (s.rampOrder r) := by
      show Host.Outcome.next (s.block r) = _
      unfold State.block
      rw [State.stateOrder_effect hdue hown htaken hwon (by rw [hconv]; rfl) (.inl hfired) hmade]
      exact congrArg _ (if_pos hconv)
    obtain ⟨hsys, hstart, hgoes, hframe⟩ := s.rampOrder_spec r
    exact ⟨_, hexec, by rw [hsys]; exact hconv, by rw [hsys]; rfl, by rw [hsys], hstart, hgoes, hframe⟩
  case blockHold =>
    have hexec : exec (.block r) s = .next (s.endEpisode.carryOrder r opBlock .ready) := by
      show Host.Outcome.next (s.block r) = _
      unfold State.block
      rw [State.stateOrder_effect hdue hown htaken hwon (by rw [hconv]; rfl) (.inl hfired) hmade]
      exact congrArg _ ((if_neg (by rw [hconv]; decide)).trans (if_pos hrec))
    have hsys : s.endEpisode.sys = s.sys := keep_sys (by simp)
    obtain ⟨u, hu, hc, hprev, hcause, -, -, htk, -, hepi, hframe⟩ := s.endEpisode.carryOrder_spec r opBlock .ready
    rw [hsys, hconv] at hu hprev
    exact ⟨u, hexec.trans (congrArg _ hu), hc, hprev, hcause, hepi rfl, htk, Frame.trans (by simp) hframe⟩
  case blockNot =>
    show Host.Outcome.next (s.block r) = _
    unfold State.block
    rw [State.stateOrder_effect hdue hown htaken hwon (by rw [hconv]; rfl) (.inl hfired) hmade]
    exact congrArg _ ((if_neg (by rw [hconv]; decide)).trans ((if_neg (by rw [hrec]; decide)).trans (State.refuseOrder_eq _ _ _ _ (by decide))))
  case deenergise =>
    have hall : orderAllowed 0x04 s.sys.conv = true := by
      simp only [List.mem_cons, List.not_mem_nil, or_false] at hconv
      rcases hconv with h | h | h <;> rw [h] <;> rfl
    have hexec : exec (.deenergise r) s = .next (s.carryOrder r 0x04 .off) := by
      show Host.Outcome.next (s.deenergise r) = _
      unfold State.deenergise
      rw [State.stateOrder_effect hdue hown htaken hwon hall (.inr rfl) hmade]
    obtain ⟨u, hu, hc, hprev, hcause, -, hann, htk, -, -, hframe⟩ := s.carryOrder_spec r 0x04 .off
    exact ⟨u, hexec.trans (congrArg _ hu), hc, hprev, hcause, hann, htk, hframe⟩

end Sys2Proof.Machine
end

section
/-! PROOFS. The clock through the work of a boundary (O3): what moves the converter there leaves E, ERA, the plan and where the start-up
stands. -/

namespace Sys2Proof.Machine

/-- The core but for the converter's state. -/
def State.clock (s : State) : Core := { s.core with conv := .off }

theorem clock_eq_of_core {s t : State} (h : t.core = s.core) : t.clock = s.clock := by rw [State.clock, h]; rfl

theorem clock_eq_of_frame {s t : State} (h : Frame [.regs, .mgmtStatus, .mfe, .lnk, .cel, .ctl, .grd, .edg, .prt, .mtr, .saf, .hats,
    .pwr, .ref, .trk, .dbg, .out, .freeCount, .pending] s t) : t.clock = s.clock := clock_eq_of_core (core_eq_of_frame h)

theorem State.clock_ite {c : Prop} [Decidable c] {a b s : State} (ha : a.clock = s.clock) (hb : b.clock = s.clock) :
    (if c then a else b).clock = s.clock := by split <;> assumption

theorem State.clock_foldl {A : Type} {f : State → A → State} {l : List A} (hf : ∀ y a, (f y a).clock = y.clock) (s : State) :
    (l.foldl f s).clock = s.clock := by
  induction l generalizing s with
  | nil => rfl
  | cons a l ih => rw [List.foldl_cons, ih, hf]

/-! The writes that come into force. -/

theorem State.genTake_core (s : State) (g : Nat) : (s.genTake g).core = s.core := by
  unfold State.genTake
  refine State.core_foldl (fun y p => ?_) s
  split
  · exact State.core_ite (y.applyImage_dropped_core _ _ _ _ _ _) rfl
  · rfl

theorem State.genBegin_core (s : State) (g : Nat) : (s.genBegin g).core = s.core := by
  unfold State.genBegin
  exact State.core_ite (core_eq_of_frame (by simp)) ((core_eq_of_frame (by simp)).trans (s.genTake_core g))

/-- Of the actions only a START of a generator reaches into the start-up: its configuration may be counted as ignored. -/
theorem State.actionEffect_core (s : State) (r : Requester) (off : Nat) (w : Word) : (s.actionEffect r off w).core = s.core := by
  unfold State.actionEffect
  refine State.core_ite (core_eq_of_frame (by simp)) (State.core_ite (core_eq_of_frame (by simp)) (State.core_ite (core_eq_of_frame (by simp))
    (State.core_ite (core_eq_of_frame (by simp)) (State.core_ite (core_eq_of_frame (by simp)) (State.core_ite (core_eq_of_frame (by simp))
    (State.core_ite ?_ (core_eq_of_frame (by simp))))))))
  extract_lets g s1
  have h1 : s1.core = s.core := State.core_ite (s.genBegin_core g) rfl
  rw [← h1]
  exact State.core_ite (core_eq_of_frame (by simp)) rfl

theorem State.runAction_core (s : State) (r : Requester) (off : Nat) (w : Word) : (s.runAction r off w).core = s.core := by
  unfold State.runAction State.asOwner
  refine State.core_ite (State.core_ite (core_eq_of_frame (by simp)) (core_eq_of_frame (by simp))) (State.core_ite (core_eq_of_frame (by simp))
    (State.core_ite (core_eq_of_frame (by simp)) (State.core_ite ?_ (core_eq_of_frame (by simp)))))
  exact (State.actionEffect_core _ r off w).trans (core_eq_of_frame (by simp))

theorem State.applyMap_core (s : State) (h : Nat) (r : Requester) (w : BitVec 16) (boot : Bool) : (s.applyMap h r w boot).core = s.core := by
  unfold State.applyMap
  exact State.core_ite (core_eq_of_frame (by simp)) (State.core_ite rfl (s.writeIgnored_core _ _ _))

theorem State.applyPending_core (s : State) (p : Pending) : (s.applyPending p).core = s.core := by
  cases p with
  | image k r w due boot off => exact s.applyImage_core k r w boot off
  | ltClear k r m due => exact core_eq_of_frame (by simp [State.applyPending])
  | action r o w due => exact s.runAction_core r o w
  | map h r e due boot => exact s.applyMap_core h r e boot

theorem State.applyAll_core (s : State) (ps : List Pending) : (s.applyAll ps).core = s.core := by
  unfold State.applyAll
  refine State.core_foldl (fun y p => State.core_ite (y.applyPending_core p) ?_) s
  split
  · exact core_eq_of_frame (by simp)
  · exact core_eq_of_frame (by simp)

theorem State.applyDue_core (s : State) : s.applyDue.core = s.core := by
  unfold State.applyDue
  extract_lets ps q s1 s2
  have h1 : s1.core = s.core := rfl
  have h2 : s2.core = s1.core := (State.applyAll_core _ _).trans (s1.applyAll_core _)
  exact h2.trans h1

/-! The transitions and the orders. -/

theorem State.moveTo_clock (s : State) (c : Conv) (k n : Nat) : (s.moveTo c k n).clock = s.clock := by
  obtain ⟨-, -, -, -, -, hep, hcnt, hcmp, hera⟩ := moveTo_sys s c k n
  have hstart : (s.moveTo c k n).start = s.start := keep_start (by simp)
  simp only [State.clock, State.core, hep, hcnt, hcmp, hera, hstart]

theorem State.cancelAnnounce_clock (s : State) (n : Nat) : (s.cancelAnnounce n).clock = s.clock := by
  have hsys := cancelAnnounce_sys s n
  have hstart : (s.cancelAnnounce n).start = s.start := keep_start (by simp)
  simp only [State.clock, State.core, hsys, hstart]

theorem State.beginRun_clock (s : State) : s.beginRun.clock = s.clock := by
  unfold State.beginRun
  split
  · next a _ =>
    refine State.clock_ite ?_ rfl
    extract_lets t
    have ht : t.clock = s.clock :=
      (clock_eq_of_frame (s := s.moveTo .run (if a.recovery then 5 else 0)) (by simp [t])).trans (s.moveTo_clock _ _ _)
    exact State.clock_ite ht ((clock_eq_of_frame (by simp)).trans ht)
  · rfl

theorem State.refuseOrder_clock (s : State) (r : OrderRef) (op status : Nat) : (s.refuseOrder r op status).clock = s.clock := by
  unfold State.refuseOrder
  exact clock_eq_of_frame (s := s.take op status false) (by simp)

theorem State.carryOrder_clock (s : State) (r : OrderRef) (op : Nat) (to_ : Conv) : (s.carryOrder r op to_).clock = s.clock := by
  unfold State.carryOrder
  exact (clock_eq_of_frame (s := ((s.cancelAnnounce 4).take op 0 false).moveTo to_ 0) (by simp)).trans
    ((State.moveTo_clock _ _ _ _).trans (s.cancelAnnounce_clock 4))

theorem State.stateOrder_clock (s : State) (r : OrderRef) (op : Nat) {f : State → State} (hf : ∀ y, (f y).clock = y.clock) :
    (s.stateOrder r op f).clock = s.clock := by
  have hdone (y : State) (status : Nat) (old new : Conv) : (y.stateDone r op status old new).clock = y.clock := clock_eq_of_frame (by simp)
  unfold State.stateOrder
  extract_lets b
  have hb : b.clock = s.clock := s.beginRun_clock
  rw [← hb]
  refine State.clock_ite (hdone _ _ _ _) ?_
  split
  · refine State.clock_ite (hdone _ _ _ _) (State.clock_ite ?_ (hdone _ _ _ _))
    split
    · exact State.clock_ite rfl rfl
    · rfl
  · exact State.clock_ite (b.refuseOrder_clock _ _ _) (State.clock_ite (b.refuseOrder_clock _ _ _) (State.clock_ite (b.refuseOrder_clock _ _ _)
      (State.clock_ite (b.refuseOrder_clock _ _ _) (hf b))))

theorem State.energise_clock (s : State) (r : OrderRef) : (s.energise r).clock = s.clock :=
  s.stateOrder_clock r 0x01 (fun y => State.clock_ite (y.carryOrder_clock _ _ _) (y.refuseOrder_clock _ _ _))

theorem State.deblock_clock (s : State) (r : OrderRef) : (s.deblock r).clock = s.clock := by
  refine s.stateOrder_clock r opDeblock (fun y => ?_)
  split
  · rfl
  · exact State.clock_ite rfl (y.refuseOrder_clock _ _ _)

theorem State.block_clock (s : State) (r : OrderRef) : (s.block r).clock = s.clock := by
  refine s.stateOrder_clock r opBlock (fun y => State.clock_ite ?_ (State.clock_ite ?_ (y.refuseOrder_clock _ _ _)))
  · exact State.clock_ite (a := { y with sys := { y.sys with stopOrders := y.sys.stopOrders ++ [r] } }) rfl rfl
  · exact (State.carryOrder_clock _ _ _ _).trans (clock_eq_of_frame (by simp))

theorem State.deenergise_clock (s : State) (r : OrderRef) : (s.deenergise r).clock = s.clock :=
  s.stateOrder_clock r 0x04 (fun y => y.carryOrder_clock _ _ _)

theorem State.evalDesc_clock (s : State) (r : OrderRef) (ws : List DWord) : (s.evalDesc r ws).clock = s.clock := by
  unfold State.evalDesc
  extract_lets op known
  clear_value op
  refine State.clock_ite (clock_eq_of_frame (by simp)) (State.clock_ite (clock_eq_of_frame (by simp)) ?_)
  split
  · exact clock_eq_of_frame (by simp)
  · exact s.energise_clock r
  · exact s.deblock_clock r
  · exact s.block_clock r
  · exact s.deenergise_clock r
  · exact clock_eq_of_frame (by simp)
  · exact clock_eq_of_frame (by simp)
  · exact clock_eq_of_frame (by simp)
  · exact clock_eq_of_frame (by simp)
  · exact clock_eq_of_frame (by simp)
  · exact clock_eq_of_frame (by simp)
  · exact clock_eq_of_frame (by simp)

theorem State.ringTurn_clock (h : Fin 4) (r n : Nat) (x : State × Nat) : (State.ringTurn h r n x).1.clock = x.1.clock := by
  induction n generalizing x with
  | zero => rfl
  | succ n ih =>
    obtain ⟨s, left⟩ := x
    unfold State.ringTurn
    split
    · rfl
    · split
      · rfl
      · exact (ih _).trans ((State.evalDesc_clock _ _ _).trans (clock_eq_of_frame (by simp)))

theorem State.ringRounds_clock (h : Fin 4) (n : Nat) (x : State × Nat) : (State.ringRounds h n x).1.clock = x.1.clock := by
  have hround (l : List Nat) (x : State × Nat) : (l.foldl (fun x r => State.ringTurn h r 4 x) x).1.clock = x.1.clock := by
    induction l generalizing x with
    | nil => rfl
    | cons r l ih => exact (ih _).trans (State.ringTurn_clock h r 4 x)
  induction n generalizing x with
  | zero => rfl
  | succ n ih =>
    unfold State.ringRounds
    extract_lets y
    have hy : y.1.clock = x.1.clock := hround _ x
    split
    · exact hy
    · exact (ih y).trans hy

theorem State.evalOrders_clock (s : State) : s.evalOrders.clock = s.clock := by
  unfold State.evalOrders
  exact State.clock_foldl (fun y h => State.ringRounds_clock h 64 (y, 64)) s

theorem State.resetDo_clock (s : State) : s.resetDo.clock = s.clock := by
  unfold State.resetDo
  refine State.clock_ite ?_ (clock_eq_of_frame (by simp))
  exact (State.moveTo_clock s.resetCleared _ _ _).trans (clock_eq_of_frame (s.resetCleared_frame.mono (by simp)))

theorem State.reactions_clock (s : State) : s.reactions.clock = s.clock := by
  unfold State.reactions
  extract_lets t s1 lock block s2 p
  have h1 : s1.clock = s.clock := State.clock_ite (State.clock_ite s.resetDo_clock s.resetDo_clock) rfl
  have h2 : s2.clock = s1.clock := by
    refine State.clock_ite (clock_eq_of_frame (by simp)) (State.clock_ite rfl (State.clock_ite ?_ (State.clock_ite (s1.moveTo_clock _ _ _)
      (State.clock_ite (s1.cancelAnnounce_clock 3) rfl))))
    exact (State.moveTo_clock _ _ _ _).trans (s1.cancelAnnounce_clock 3)
  exact h2.trans h1

theorem State.rampEnd_clock (s : State) : s.rampEnd.clock = s.clock := by
  unfold State.rampEnd
  exact State.clock_ite (s.moveTo_clock _ _ _) rfl

/-! The blocks. -/

theorem State.cratesBoundary_core (s : State) : s.cratesBoundary.core = s.core := by
  unfold State.cratesBoundary
  exact State.core_foldl (fun y i => State.core_ite (core_eq_of_frame (by simp)) (y.crateApply_core i)) s

theorem State.chargeBoundary_core (s : State) : s.chargeBoundary.core = s.core := by
  unfold State.chargeBoundary
  dsimp only
  split <;> rfl

theorem State.domainLost_core (s : State) (d : Nat) : (s.domainLost d).core = s.core := by
  unfold State.domainLost
  have hpair (a b : Fin 4) : ((s.hatchReset a .perst).hatchReset b .perst).core = s.core :=
    (State.hatchReset_core _ b .perst).trans (s.hatchReset_core a .perst)
  refine State.core_ite (core_eq_of_frame ?_) (State.core_ite (core_eq_of_frame (by simp)) (State.core_ite (hpair 0 1) (State.core_ite (hpair 2 3) rfl)))
  rw [Frame.foldl (by intro y i; simp), Frame.foldl (by intro y i; simp)]
  simp

theorem State.switchTo_core (s : State) (d : Nat) (on_ : Bool) : (s.switchTo d on_).core = s.core := by
  unfold State.switchTo State.switchOff
  exact State.core_ite (core_eq_of_frame (by simp)) (State.core_ite (State.domainLost_core _ d) rfl)

theorem State.tempTake_core (s : State) (tj : Int) : (s.tempTake tj).core = s.core := by
  unfold State.tempTake
  extract_lets q s1 s2
  have h1 : s1.core = s.core := rfl
  have h2 : s2.core = s1.core := State.core_ite (core_eq_of_frame (by simp)) rfl
  rw [← h1, ← h2]
  exact State.core_ite (core_eq_of_frame (by simp)) rfl

theorem State.pwrBoundary_core (s : State) (tj : Int) : (s.pwrBoundary tj).core = s.core := by
  unfold State.pwrBoundary
  extract_lets s1 s2 s3 s4
  have h1 : s1.core = s.core := (core_eq_of_frame (s := s.tempTake tj) (by simp [s1])).trans (s.tempTake_core tj)
  have h2 : s2.core = s1.core := State.core_ite (State.core_foldl (fun y b => y.switchTo_core _ _) s1) rfl
  have h3 : s3.core = s2.core := State.core_ite (State.core_foldl (fun y b => y.switchTo_core _ _) s2) rfl
  have h4 : s4.core = s3.core := State.core_ite (State.core_foldl (fun y b => y.switchTo_core _ _) s3) rfl
  rw [← h1, ← h2, ← h3, ← h4]
  exact State.core_ite (core_eq_of_frame (by simp)) rfl

theorem State.blocksBoundary_core (s : State) (tj : Int) : (s.blocksBoundary tj).core = s.core := by
  unfold State.blocksBoundary
  extract_lets s1 s2 s3 s4 s5 s6 s7 s8 s9
  have h8 : s8.core = s.core := core_eq_of_frame (by simp [s8, s7, s6, s5, s4, s3, s2, s1])
  have h9 : s9.core = s8.core := s8.pwrBoundary_core tj
  exact (core_eq_of_frame (s := s9) (by simp)).trans (h9.trans h8)

/-- The work of a boundary leaves the clock. -/
theorem State.boundary_clock (s : State) (b : BoundaryIn) : (s.boundary b).clock = s.clock := by
  unfold State.boundary
  extract_lets s1 s2 s3 s4 s5 s6 s7 s8 s9 s10 s11 s12
  have h3 : s3.clock = s.clock := clock_eq_of_frame (by simp [s3, s2, s1])
  have h4 : s4.clock = s3.clock := clock_eq_of_core s3.chargeBoundary_core
  have h5 : s5.clock = s4.clock := clock_eq_of_core s4.cratesBoundary_core
  have h6 : s6.clock = s5.clock := clock_eq_of_frame (by simp [s6])
  have h7 : s7.clock = s6.clock := clock_eq_of_core s6.applyDue_core
  have h9 : s9.clock = s7.clock := clock_eq_of_frame (by simp [s9, s8])
  have h10 : s10.clock = s9.clock := s9.reactions_clock
  have h11 : s11.clock = s10.clock := s10.rampEnd_clock
  have h12 : s12.clock = s11.clock := State.clock_ite rfl s11.evalOrders_clock
  exact (clock_eq_of_core (s12.blocksBoundary_core b.tj)).trans
    (h12.trans (h11.trans (h10.trans (h9.trans (h7.trans (h6.trans (h5.trans (h4.trans h3))))))))

end Sys2Proof.Machine
end

section
/-! PROOFS. The events of an epoch (O3): the start of the next epoch, the votes, and the misses. -/

namespace Sys2Proof.Machine

/-! The start of an epoch. -/

theorem State.setReg_pend (s : State) (k : Nat) (v : Word) : (s.setReg k v).regs.pend = s.regs.pend := rfl

theorem State.noteLt_pend (s : State) (k : Nat) (m : Word) : (s.noteLt k m).regs.pend = s.regs.pend := rfl

/-- The slack meter leaves the writes that wait. -/
theorem State.slackMeter_pend (s : State) (xs : List SlackIn) : (s.slackMeter xs).regs.pend = s.regs.pend := by
  have hloop (y : State) (least : Nat) (missed : Bool) : (y.slackLoop least missed).regs.pend = y.regs.pend := by
    unfold State.slackLoop
    split
    · rfl
    · dsimp only
      split <;> rfl
  have hfold (l : List Nat) (f : State → Nat → State) (hf : ∀ y k, (f y k).regs.pend = y.regs.pend) (y : State) :
      (l.foldl f y).regs.pend = y.regs.pend := by
    induction l generalizing y with
    | nil => rfl
    | cons k l ih => exact (ih _).trans (hf y k)
  unfold State.slackMeter
  extract_lets v t
  have ht : t.regs.pend = s.regs.pend := by
    refine hfold _ _ (fun y k => ?_) s
    rfl
  split
  · exact (hloop t _ _).trans ht
  · exact ht

/-- The next epoch's part of the system block (R16, R17). -/
theorem State.epochAdvance_sys (s : State) : s.epochAdvance.sys = { s.sys with
    epoch := s.sys.epoch + 1, era := if s.sys.epoch + 1 = 0 then (s.sys.era + 1) % 2 ^ 16 else s.sys.era, moved := false, taken := none } := by
  unfold State.epochAdvance
  extract_lets e q1 q2 q3 q4 s1
  have h1 : s1.sys = { s.sys with
    epoch := s.sys.epoch + 1, era := if s.sys.epoch + 1 = 0 then (s.sys.era + 1) % 2 ^ 16 else s.sys.era, moved := false, taken := none } := rfl
  rw [← h1]
  split
  · exact keep_sys (s := s1) (by simp)
  · rfl

theorem State.trkAsk_pend (s : State) (i : TrkItem) (ws : List Nat) : (s.trkAsk i ws).regs.pend = s.regs.pend := by
  unfold State.trkAsk State.countSuppressed
  split
  · rw [State.noteLt_pend, State.setReg_pend]
  · rfl

theorem State.epochAdvance_pend (s : State) : s.epochAdvance.regs.pend = s.regs.pend := by
  unfold State.epochAdvance
  extract_lets e q1 q2 q3 q4 s1
  split
  · exact s1.trkAsk_pend _ _
  · rfl

theorem State.epochAdvance_start (s : State) : s.epochAdvance.start.state = s.start.state := by
  unfold State.epochAdvance
  extract_lets e q1 q2 q3 q4 s1
  split
  · rw [keep_start (s := s1) (by simp)]
  · rfl

/-- A boundary while the epoch counter runs, up to the first vote: the slack meter and the misses of the epoch that ended, and the next
epoch with the meter's annex words (R16, R17, R21). -/
def State.nextEpoch (s : State) (b : BoundaryIn) : State :=
  let s := (s.slackMeter b.slack).missRuns
  let s := s.epochAdvance
  s.annexPut (s.sys.epoch - 1) 0x4800
    ((List.range 14).map (fun k => BitVec.ofNat 32 (s.rf (R.SYS_SLACK k) 24 24 * 2 ^ 31 + s.rf (R.SYS_SLACK k) 7 0)))

theorem execEpochBoundary_counting {b : BoundaryIn} {s : State} (h : s.sys.counting = true) :
    exec (.epochBoundary b) s = .next ((s.nextEpoch b).boundary b).sequence := by
  show execEpochBoundary b s = _
  unfold execEpochBoundary
  rw [if_neg (by rw [h]; decide)]
  rfl

theorem State.nextEpoch_sys (s : State) (b : BoundaryIn) : (s.nextEpoch b).sys = { s.sys with
    epoch := s.sys.epoch + 1, era := if s.sys.epoch + 1 = 0 then (s.sys.era + 1) % 2 ^ 16 else s.sys.era, moved := false, taken := none
    missRun := (s.slackMeter b.slack).missRuns.sys.missRun, missNow := 0 } := by
  have hmeter : (s.slackMeter b.slack).sys = s.sys := keep_sys (by simp)
  unfold State.nextEpoch
  extract_lets s1 s2
  have h1 : s1.sys = { s.sys with missRun := s1.sys.missRun, missNow := 0 } := by
    rw [← hmeter]
    rfl
  have h2 : s2.sys = _ := s1.epochAdvance_sys
  rw [keep_sys (s := s2) (by simp), h2, h1]

theorem State.nextEpoch_pend (s : State) (b : BoundaryIn) : (s.nextEpoch b).regs.pend = s.regs.pend :=
  (State.epochAdvance_pend _).trans (s.slackMeter_pend b.slack)

theorem State.nextEpoch_start (s : State) (b : BoundaryIn) : (s.nextEpoch b).start.state = s.start.state := by
  have h : ((s.slackMeter b.slack).missRuns).start = s.start := keep_start (by simp)
  exact (State.epochAdvance_start _).trans (congrArg StartSt.state h)

theorem State.nextEpoch_frame (s : State) (b : BoundaryIn) : Frame [.regs, .sys, .cel, .pwr, .ref, .start, .trk, .out] s (s.nextEpoch b) := by
  simp [State.nextEpoch]

/-- The Start Sequencer does nothing once the start-up is complete. -/
theorem State.sequence_of_complete {s : State} (h : s.start.state = .complete) : s.sequence = s := by
  show State.startRun (63 + 1) s = s
  unfold State.startRun
  rw [if_pos (.inr (by rw [h]; decide))]

/-! The misses. -/

theorem incSat_le (m v : Nat) : incSat m v ≤ m := by
  unfold incSat
  split <;> omega

/-- A counter reads its count, which stops at its maximum (R460). -/
theorem State.rf_count (s : State) (k hi lo : Nat) (h : hi < 32) :
    (s.count k hi lo).rf k hi lo = incSat (2 ^ (hi + 1 - lo) - 1) (s.rf k hi lo) := by
  rw [State.rf, State.reg_count, if_pos rfl, fld_setFld_same _ _ _ _ h]
  have hle := incSat_le (2 ^ (hi + 1 - lo) - 1) (s.rf k hi lo)
  have hpos : 0 < 2 ^ (hi + 1 - lo) := Nat.two_pow_pos _
  exact Nat.mod_eq_of_lt (by omega)

/-- The system block of an item that had not missed notes it. -/
theorem State.missItem_sys (s : State) (k : Nat) (h : bit s.sys.missNow k = false) :
    (s.missItem k).sys = { s.sys with missNow := s.sys.missNow ||| 2 ^ k } := by
  unfold State.missItem
  rw [if_neg (by rw [h]; decide)]
  extract_lets q s1 s2 s3
  exact keep_sys (s := s1) (by
    simp only [s3]
    split <;> simp [s2])

/-- An item that had not missed is counted in its register, which is the only one to change (R23). -/
theorem State.reg_missItem (s : State) (k : Nat) (h : bit s.sys.missNow k = false) (j : Nat) :
    (s.missItem k).reg j = (s.count (R.SYS_SLACK k) 23 16).reg j := by
  unfold State.missItem
  rw [if_neg (by rw [h]; decide)]
  extract_lets q s1 s2 s3
  have h3 : ((s3.holdRegion (s3.sys.epoch - 1) k).prtEvent 47).regs = s2.regs := keep_regs (by
    simp only [s3]
    split <;> simp)
  rw [State.reg_congr h3, State.reg_count, State.reg_count]
  rfl

/-- A miss is an event of source 47 (R303). -/
theorem State.missItem_event (s : State) (k : Nat) (h : bit s.sys.missNow k = false) : 47 ∈ (s.missItem k).prt.evtNext := by
  unfold State.missItem
  rw [if_neg (by rw [h]; decide)]
  exact List.mem_cons_self

theorem State.missItem_missedSeals (s : State) (k : Nat) : (s.missItem k).cel.missedSeals = s.cel.missedSeals := by
  unfold State.missItem
  split
  · rfl
  · extract_lets q s1 s2 s3
    have h3 : s3.cel = s2.cel := keep_cel (by
      simp only [s3]
      split <;> simp)
    calc ((s3.holdRegion (s3.sys.epoch - 1) k).prtEvent 47).cel.missedSeals = s3.cel.missedSeals := rfl
      _ = s.cel.missedSeals := congrArg CelSt.missedSeals h3

/-- Only a miss of an Arm Engine holds an account (R208). -/
theorem State.missItem_edg (s : State) (k : Nat) (hk : k < 2 ∨ 8 ≤ k) : (s.missItem k).edg = s.edg := by
  unfold State.missItem
  split
  · rfl
  · extract_lets q s1 s2 s3
    have h3 : s3 = s2 := if_neg (by omega)
    rw [h3]
    exact keep_edg (s := s1) (by simp [s2])

/-- The checks and the capture of a missed control pass go on in its own state (R207, R208). -/
theorem State.controlMiss_frame_missItem (s : State) : Frame [.ctl] (s.missItem 1) s.controlMiss := by
  unfold State.controlMiss
  extract_lets n s' t
  split
  · exact Frame.refl _
  · simp [t, s']

/-- What a deadline miss does: the miss of its item, what the Control Engine or the seal does beside it. -/
theorem execDeadlineMiss_eq {item : Nat} {s : State} (hcnt : s.sys.counting = true) (hitem : item < 14)
    (hmiss : bit s.sys.missNow item = false) : ∃ t, exec (.deadlineMiss item) s = .next t ∧
      t.cel.missedSeals = s.cel.missedSeals + (if item = 12 then 1 else 0) ∧ Frame [.cel, .ctl] (s.missItem item) t ∧
      (item ≠ 1 → t.ctl = s.ctl) := by
  have hexec : exec (.deadlineMiss item) s = (if item = 1 then .next s.controlMiss else
      .next (if item = 12 then { s.missItem item with cel := { (s.missItem item).cel with missedSeals := (s.missItem item).cel.missedSeals + 1 } }
        else s.missItem item)) := by
    show execDeadlineMiss item s = _
    unfold execDeadlineMiss
    rw [if_neg (by rw [hcnt, hmiss]; simp; omega), if_neg (by omega)]
  have hctl : (s.missItem item).ctl = s.ctl := keep_ctl (by simp)
  by_cases h1 : item = 1
  · subst h1
    have hframe := s.controlMiss_frame_missItem
    refine ⟨_, hexec.trans (if_pos rfl), ?_, hframe.mono (by simp), fun hne => absurd rfl hne⟩
    rw [keep_cel (hframe.mono (by simp)), State.missItem_missedSeals]
    rfl
  · by_cases h12 : item = 12
    · refine ⟨_, hexec.trans ((if_neg h1).trans (congrArg _ (if_pos h12))), ?_, by simp, fun _ => hctl⟩
      rw [if_pos h12, ← s.missItem_missedSeals item]
    · refine ⟨_, hexec.trans ((if_neg h1).trans (congrArg _ (if_neg h12))), ?_, Frame.refl _, fun _ => hctl⟩
      rw [if_neg h12, s.missItem_missedSeals item]
      rfl

/-! The votes. -/

/-- A vote writes back what the copies vote to: no register but PRT_VOTE reads otherwise (R455, R456). -/
theorem State.voteWord_regsBut (s : State) (key : Nat) : RegsBut [R.PRT_VOTE] s (s.voteWord key) := by
  unfold State.voteWord
  extract_lets a b c
  refine .ite (.refl _ s) (.ite (.of_regs rfl) ?_)
  intro k hk
  have hk' : k ≠ R.PRT_VOTE := by simpa using hk
  have hcount : (((s.setReg key (majority a b c)).count R.PRT_VOTE 31 16).prtEvent 52).reg k = (s.setReg key (majority a b c)).reg k := by
    rw [State.reg_congr (State.prtEvent_regs _ _), State.reg_count, if_neg hk']
  rw [hcount, State.reg_setReg]
  split
  · next h => rw [h]; rfl
  · rfl

/-- A vote without a disturbance. -/
theorem State.vote_nil_regsBut (s : State) : RegsBut [R.PRT_VOTE] s (s.vote []) := by
  unfold State.vote
  extract_lets s1 s2
  have h2 : RegsBut [R.PRT_VOTE] s s2 := RegsBut.foldl (fun y k _ => y.voteWord_regsBut k) s
  exact .ite (h2.trans (.of_regs rfl)) h2

/-- PRE_EPOCH_VOTE before the first epoch, up to the end of a band calibration (R411, R455). -/
def State.aoVote (s : State) (us : List Upset) : State := { s.vote us with start := { s.start with aoNs := s.start.aoNs + 1000 } }

theorem State.aoVote_start (s : State) (us : List Upset) : (s.aoVote us).start = { s.start with aoNs := s.start.aoNs + 1000 } := rfl

theorem State.aoVote_frame (s : State) (us : List Upset) : Frame [.regs, .prt, .saf, .start] s (s.aoVote us) := by
  simp [State.aoVote]

/-- A vote before the first epoch advances the AO timer by 1 µs; in step REFERENCE a calibration may end with it. -/
theorem execPreEpochVote_spec {us : List Upset} {s : State} (hpow : s.start.powered = true) (hcnt : s.sys.counting = false) :
    ∃ t, exec (.preEpochVote us) s = .next t ∧ t.start.aoNs = s.start.aoNs + 1000 ∧
      Frame [.regs, .ref, .trk, .freeCount] (s.aoVote us) t ∧ (s.start.step ≠ 5 → t = s.aoVote us) := by
  have hexec : exec (.preEpochVote us) s = .next (if (s.aoVote us).start.step = 5 ∧ (s.aoVote us).start.active ∧
      21000000 ≤ (s.aoVote us).start.aoNs - (s.aoVote us).ref.sinceNs then (s.aoVote us).calibrateUnlocked else s.aoVote us) := by
    show execPreEpochVote us s = _
    unfold execPreEpochVote
    rw [if_pos ⟨hpow, hcnt⟩]
    rfl
  refine ⟨_, hexec, ?_, ?_, fun hstep => if_neg (fun h => hstep ?_)⟩
  · split
    · rw [keep_start (s := s.aoVote us) (by simp), State.aoVote_start]
    · rw [State.aoVote_start]
  · split
    · simp
    · exact Frame.refl _
  · rw [← h.1, State.aoVote_start]

/-! One disturbed copy of a TV word. -/

theorem smFind_smSet_ne {A : Type} [DecidableEq A] (d : A) (m : SMap A) (k k' : Nat) (v : A) (hk : k' ≠ k) :
    smFind (smSet d m k v) k' = smFind m k' := by
  unfold smSet
  split
  · rw [smFind_erase, if_neg hk]
  · rw [smFind_insert _ _ _ _ (erase_keys _ _), if_neg hk, smFind_erase, if_neg hk]

/-- Copy A of a word that is listed as it reads (R455). -/
theorem RegSt.copyA_smSet (r : RegSt) (k : Nat) (v : Word) (k' : Nat) :
    ({ r with a := smSet (resetWord k) r.a k v } : RegSt).copyA k' = if k' = k then v else r.copyA k' := by
  by_cases hk : k' = k
  · subst hk
    have h := smGet_smSet (resetWord k') r.a k' k' v
    rw [if_pos rfl] at h ⊢
    exact h
  · rw [if_neg hk]
    unfold RegSt.copyA
    dsimp only
    rw [smFind_smSet_ne _ _ _ _ _ hk]

/-- What a register's copies read after it is set: the value, in all three (R452). -/
theorem RegSt.copies_put (r : RegSt) (k : Nat) (v : Word) (k' : Nat) :
    ((r.put k v).copyA k' = if k' = k then v else r.copyA k') ∧ ((r.put k v).copyB k' = if k' = k then v else r.copyB k') ∧
      ((r.put k v).copyC k' = if k' = k then v else r.copyC k') := by
  have ha : (r.put k v).copyA k' = if k' = k then v else r.copyA k' := r.copyA_smSet k v k'
  have hb : smFind (r.put k v).b k' = if k' = k then none else smFind r.b k' := smFind_erase _ _ _
  have hc : smFind (r.put k v).c k' = if k' = k then none else smFind r.c k' := smFind_erase _ _ _
  refine ⟨ha, ?_, ?_⟩
  · unfold RegSt.copyB
    rw [hb, ha]
    split <;> rfl
  · unfold RegSt.copyC
    rw [hc, ha]
    split <;> rfl

/-- The word of a disturbed copy, and those of the two others (R455). -/
def upsetCopy (x : Upset) (n : Nat) (v : Word) : Word := if x.copy = n then v ^^^ (x.flip &&& keyMask x.key [.tv]) else v

/-- A register file in which no copy differs lists one disturbed word at most. -/
theorem State.upset_regs {s : State} (x : Upset) (hb : s.regs.b = []) (hc : s.regs.c = []) :
    (s.upset x).regs = { s.regs with
      a := smSet (resetWord x.key) s.regs.a x.key (upsetCopy x 0 (s.regs.copyA x.key))
      b := if upsetCopy x 1 (s.regs.copyA x.key) = upsetCopy x 0 (s.regs.copyA x.key) then [] else [(x.key, upsetCopy x 1 (s.regs.copyA x.key))]
      c := if upsetCopy x 2 (s.regs.copyA x.key) = upsetCopy x 0 (s.regs.copyA x.key) then [] else
        [(x.key, upsetCopy x 2 (s.regs.copyA x.key))] } := by
  have hB : s.regs.copyB x.key = s.regs.copyA x.key := by unfold RegSt.copyB; rw [hb]; rfl
  have hC : s.regs.copyC x.key = s.regs.copyA x.key := by unfold RegSt.copyC; rw [hc]; rfl
  unfold State.upset
  rw [hB, hC, hb, hc]
  rfl

theorem xor_ne_self {a f : Word} (h : f ≠ 0) : a ^^^ f ≠ a := by
  intro e
  have e' : a ^^^ (a ^^^ f) = a ^^^ a := congrArg (a ^^^ ·) e
  rw [← BitVec.xor_assoc, BitVec.xor_self, BitVec.zero_xor] at e'
  exact h e'

/-- A disturbance leaves two copies and changes the third, so the vote over them gives the word back (R456). -/
theorem upsetCopy_vote {x : Upset} (a : Word) (hcopy : x.copy < 3) (hflip : x.flip &&& keyMask x.key [.tv] ≠ 0) :
    ¬ (upsetCopy x 0 a = upsetCopy x 1 a ∧ upsetCopy x 1 a = upsetCopy x 2 a) ∧
      ¬ (upsetCopy x 0 a ≠ upsetCopy x 1 a ∧ upsetCopy x 1 a ≠ upsetCopy x 2 a ∧ upsetCopy x 0 a ≠ upsetCopy x 2 a) ∧
      majority (upsetCopy x 0 a) (upsetCopy x 1 a) (upsetCopy x 2 a) = a := by
  have hne := xor_ne_self (a := a) hflip
  obtain ⟨hBC, hAC, hAB⟩ := majority_two a (a ^^^ (x.flip &&& keyMask x.key [.tv]))
  have hcases : x.copy = 0 ∨ x.copy = 1 ∨ x.copy = 2 := by omega
  rcases hcases with h | h | h <;> simp [upsetCopy, h, hne, hne.symm, hBC, hAC, hAB]

/-- What the copies of a register read after one is disturbed. -/
theorem State.upset_copies {s : State} (x : Upset) (hb : s.regs.b = []) (hc : s.regs.c = []) (k : Nat) :
    let u (n : Nat) : Word := if k = x.key then upsetCopy x n (s.regs.copyA k) else s.regs.copyA k
    (s.upset x).regs.copyA k = u 0 ∧ (s.upset x).regs.copyB k = u 1 ∧ (s.upset x).regs.copyC k = u 2 := by
  have ha : (s.upset x).regs.copyA k = if k = x.key then upsetCopy x 0 (s.regs.copyA k) else s.regs.copyA k := by
    rw [State.upset_regs x hb hc]
    refine (RegSt.copyA_smSet s.regs x.key _ k).trans ?_
    split
    · next h => rw [h]
    · rfl
  refine ⟨ha, ?_, ?_⟩
  · unfold RegSt.copyB
    rw [ha, State.upset_regs x hb hc]
    by_cases hk : k = x.key
    · subst hk
      by_cases hu : upsetCopy x 1 (s.regs.copyA x.key) = upsetCopy x 0 (s.regs.copyA x.key) <;> simp [hu, smFind]
    · by_cases hu : upsetCopy x 1 (s.regs.copyA x.key) = upsetCopy x 0 (s.regs.copyA x.key) <;> simp [hu, hk, Ne.symm hk, smFind]
  · unfold RegSt.copyC
    rw [ha, State.upset_regs x hb hc]
    by_cases hk : k = x.key
    · subst hk
      by_cases hu : upsetCopy x 2 (s.regs.copyA x.key) = upsetCopy x 0 (s.regs.copyA x.key) <;> simp [hu, smFind]
    · by_cases hu : upsetCopy x 2 (s.regs.copyA x.key) = upsetCopy x 0 (s.regs.copyA x.key) <;> simp [hu, hk, Ne.symm hk, smFind]

/-- A disturbed word is the one word that the vote looks at. -/
theorem State.upset_keys {s : State} (x : Upset) (hb : s.regs.b = []) (hc : s.regs.c = []) (hcopy : x.copy < 3)
    (hflip : x.flip &&& keyMask x.key [.tv] ≠ 0) :
    ((s.upset x).regs.b.map Prod.fst ++ (s.upset x).regs.c.map Prod.fst).dedup = [x.key] := by
  have hne := xor_ne_self (a := s.regs.copyA x.key) hflip
  have hcases : x.copy = 0 ∨ x.copy = 1 ∨ x.copy = 2 := by omega
  rw [State.upset_regs x hb hc]
  rcases hcases with h | h | h <;> simp [upsetCopy, h, hne, hne.symm]

/-- The vote over one disturbed word restores it and counts it (R455). -/
theorem State.voteWord_upset {s : State} (x : Upset) (hb : s.regs.b = []) (hc : s.regs.c = []) (hcopy : x.copy < 3)
    (hflip : x.flip &&& keyMask x.key [.tv] ≠ 0) :
    (s.upset x).voteWord x.key = (((s.upset x).setReg x.key (s.regs.copyA x.key)).count R.PRT_VOTE 31 16).prtEvent 52 := by
  obtain ⟨hA, hB, hC⟩ := State.upset_copies x hb hc x.key
  simp only [if_true] at hA hB hC
  obtain ⟨hall, htriple, hmaj⟩ := upsetCopy_vote (s.regs.copyA x.key) hcopy hflip
  unfold State.voteWord
  rw [hA, hB, hC]
  dsimp only
  rw [if_neg hall, if_neg htriple, hmaj]

/-- One disturbed copy, voted: the word is restored in all copies, and the correction is counted and an event (R303, R455). -/
theorem State.vote_upset {s : State} (x : Upset) (hb : s.regs.b = []) (hc : s.regs.c = []) (hcopy : x.copy < 3)
    (hflip : x.flip &&& keyMask x.key [.tv] ≠ 0) :
    (s.vote [x]).regs = ((((s.upset x).setReg x.key (s.regs.copyA x.key)).count R.PRT_VOTE 31 16).prtEvent 52).regs ∧
      (s.vote [x]).prt = ((((s.upset x).setReg x.key (s.regs.copyA x.key)).count R.PRT_VOTE 31 16).prtEvent 52).prt := by
  have hfold : (((s.upset x).regs.b.map Prod.fst ++ (s.upset x).regs.c.map Prod.fst).dedup).foldl State.voteWord (s.upset x) =
      (((s.upset x).setReg x.key (s.regs.copyA x.key)).count R.PRT_VOTE 31 16).prtEvent 52 := by
    rw [State.upset_keys x hb hc hcopy hflip]
    exact State.voteWord_upset x hb hc hcopy hflip
  have hvote : s.vote [x] = (if ((((s.upset x).setReg x.key (s.regs.copyA x.key)).count R.PRT_VOTE 31 16).prtEvent 52).safTriple then
      { (((s.upset x).setReg x.key (s.regs.copyA x.key)).count R.PRT_VOTE 31 16).prtEvent 52 with
        saf := { ((((s.upset x).setReg x.key (s.regs.copyA x.key)).count R.PRT_VOTE 31 16).prtEvent 52).saf with cfgValid := false } }
      else (((s.upset x).setReg x.key (s.regs.copyA x.key)).count R.PRT_VOTE 31 16).prtEvent 52) := by
    rw [← hfold]
    rfl
  rw [hvote]
  split
  · exact ⟨rfl, rfl⟩
  · exact ⟨rfl, rfl⟩

/-- A word that is counted keeps the copies of every other word. -/
theorem State.count_copies (s : State) (j hi lo k : Nat) (hk : k ≠ j) : (s.count j hi lo).regs.copyA k = s.regs.copyA k ∧
    (s.count j hi lo).regs.copyB k = s.regs.copyB k ∧ (s.count j hi lo).regs.copyC k = s.regs.copyC k := by
  obtain ⟨hA, hB, hC⟩ := s.regs.copies_put j (setFld (s.reg j) hi lo (incSat (2 ^ (hi + 1 - lo) - 1) (s.rf j hi lo))) k
  rw [if_neg hk] at hA hB hC
  exact ⟨hA, hB, hC⟩

/-- A register file in which no copy differs reads as its copy A. -/
theorem State.reg_of_one_copy {s : State} (hb : s.regs.b = []) (hc : s.regs.c = []) (k : Nat) : s.reg k = s.regs.copyA k := by
  unfold State.reg RegSt.copyB RegSt.copyC
  rw [hb, hc]
  exact majority_self _

/-- An upset disturbs the copies of its own word only. -/
theorem State.reg_upset_of_ne {s : State} (x : Upset) (hb : s.regs.b = []) (hc : s.regs.c = []) {k : Nat} (hk : k ≠ x.key) :
    (s.upset x).reg k = s.reg k := by
  obtain ⟨hA, hB, hC⟩ := State.upset_copies x hb hc k
  simp only [hk, if_false] at hA hB hC
  rw [State.reg_of_one_copy hb hc]
  unfold State.reg
  rw [hA, hB, hC, majority_self]

/-- Settles O3: a boundary is nextEpoch, the work of a boundary, and the Start Sequencer, which is done; votes and misses are the lemmas
above. -/
theorem epochEvents : Obligations.EpochEvents := by
  refine ⟨fun b s hcnt hst => ?clock, fun b s hcnt => ?order, fun x s hb hc hcopy hflip hkey => ?upset, fun us s hpow hcnt => ?early,
    fun item s hcnt hitem hmiss => ?miss⟩
  case clock =>
    have hclock := (s.nextEpoch b).boundary_clock b
    have hdone : ((s.nextEpoch b).boundary b).start.state = .complete :=
      (congrArg Core.start hclock).trans ((s.nextEpoch_start b).trans hst)
    have hsys := s.nextEpoch_sys b
    refine ⟨(s.nextEpoch b).boundary b, ?_, ?_, ?_, ?_, ?_, ?_⟩
    · rw [execEpochBoundary_counting hcnt, State.sequence_of_complete hdone]
    · exact (congrArg Core.epoch hclock).trans (congrArg SysSt.epoch hsys)
    · have h : (s.nextEpoch b).sys.counting = s.sys.counting := by rw [hsys]
      exact (congrArg Core.counting hclock).trans (h.trans hcnt)
    · have h : (s.nextEpoch b).sys.compat = s.sys.compat := by rw [hsys]
      exact (congrArg Core.compat hclock).trans h
    · exact (congrArg Core.era hclock).trans (congrArg SysSt.era hsys)
    · exact ((s.nextEpoch_frame b).mono (by simp)).trans (by simp)
  case order =>
    have hsys := s.nextEpoch_sys b
    exact ⟨s.nextEpoch b, by rw [hsys], s.nextEpoch_pend b, by rw [hsys], by rw [hsys], by rw [hsys], s.nextEpoch_frame b,
      execEpochBoundary_counting hcnt⟩
  case upset =>
    obtain ⟨hregs, hprt⟩ := State.vote_upset x hb hc hcopy hflip
    refine ⟨fun k hk => ?_, ?_, ?_, by simp⟩
    · obtain ⟨hA, hB, hC⟩ := ((s.upset x).setReg x.key (s.regs.copyA x.key)).count_copies R.PRT_VOTE 31 16 k hk
      obtain ⟨hA', hB', hC'⟩ := (s.upset x).regs.copies_put x.key (s.regs.copyA x.key) k
      obtain ⟨hA'', hB'', hC''⟩ := State.upset_copies x hb hc k
      rw [hregs, State.reg_of_one_copy hb hc]
      refine ⟨hA.trans (hA'.trans ?_), hB.trans (hB'.trans ?_), hC.trans (hC'.trans ?_)⟩
      · split
        · next h => rw [h]
        · next h => exact hA''.trans (if_neg h)
      · split
        · next h => rw [h]
        · next h => exact hB''.trans (if_neg h)
      · split
        · next h => rw [h]
        · next h => exact hC''.trans (if_neg h)
    · have hreg : ((s.upset x).setReg x.key (s.regs.copyA x.key)).reg R.PRT_VOTE = s.reg R.PRT_VOTE := by
        rw [State.reg_setReg, if_neg (Ne.symm hkey)]
        exact State.reg_upset_of_ne x hb hc (Ne.symm hkey)
      have hcount := ((s.upset x).setReg x.key (s.regs.copyA x.key)).rf_count R.PRT_VOTE 31 16 (by decide)
      have hrf : (s.vote [x]).rf R.PRT_VOTE 31 16 =
          (((s.upset x).setReg x.key (s.regs.copyA x.key)).count R.PRT_VOTE 31 16).rf R.PRT_VOTE 31 16 :=
        congrArg (fld · 31 16) (State.reg_congr hregs R.PRT_VOTE)
      rw [hrf, hcount, State.rf, hreg]
      rfl
    · rw [hprt]
      exact List.mem_cons_self
  case early =>
    obtain ⟨t, hexec, hao, hframe, hstep⟩ := execPreEpochVote_spec (us := us) hpow hcnt
    refine ⟨t, hexec, hao, ((s.aoVote_frame us).mono (by simp)).trans (hframe.mono (by simp)), fun h5 => ?_⟩
    rw [hstep h5]
    refine ⟨s.aoVote_frame us, ?_⟩
    rintro rfl
    exact s.vote_nil_regsBut.trans (.of_regs rfl)
  case miss =>
    obtain ⟨t, hexec, hseals, hframe, hctl⟩ := execDeadlineMiss_eq hcnt hitem hmiss
    have hregs : t.regs = (s.missItem item).regs := keep_regs (hframe.mono (by simp))
    have hreg (k : Nat) : t.reg k = (s.count (R.SYS_SLACK item) 23 16).reg k :=
      (State.reg_congr hregs k).trans (s.reg_missItem item hmiss k)
    refine ⟨t, hexec, ?_, ?_, ?_, hseals, hctl, fun h => ?_, fun k hk => ?_, ?_⟩
    · rw [keep_sys (hframe.mono (by simp)), s.missItem_sys item hmiss]
    · rw [State.rf, hreg]
      exact s.rf_count _ _ _ (by decide)
    · rw [keep_prt (hframe.mono (by simp))]
      exact s.missItem_event item hmiss
    · rw [keep_edg (hframe.mono (by simp)), s.missItem_edg item h]
    · rw [hreg, State.reg_count, if_neg (by simpa using hk)]
    · exact Frame.trans (by simp) (hframe.mono (by simp))

end Sys2Proof.Machine
end

section
/-! PROOFS. The engine passes but the Edge Planner's: what they tag, and the words of the annex that they write. -/

namespace Sys2Proof.Machine

/-! The annex. -/

/-- A run of writes from a key leaves the keys before it. -/
theorem smGet_smSetList_of_lt {α : Type} [DecidableEq α] (d : α) (m : SMap α) (k : Nat) (vs : List α) {j : Nat} (hj : j < k) :
    smGet d (smSetList d m k vs) j = smGet d m j := by
  induction vs generalizing m k with
  | nil => rfl
  | cons v t ih =>
    rw [smSetList, ih _ _ (by omega), smGet_smSet, if_neg (by omega)]

/-- A run of writes puts its first value at its first key. -/
theorem smGet_smSetList_head {α : Type} [DecidableEq α] (d : α) (m : SMap α) (k : Nat) (v : α) (vs : List α) :
    smGet d (smSetList d m k (v :: vs)) k = v := by
  rw [smSetList, smGet_smSetList_of_lt d _ (k + 1) vs (by omega), smGet_smSet, if_pos rfl]

/-- The first word of a run of annex words stands at its offset. -/
theorem State.annexWord_annexPut (s : State) (n : Epoch) {b w : Nat} (hb : b / 4 = w) (v : Word) (vs : List Word) :
    (s.annexPut n b (v :: vs)).annexWord n w = v := by
  subst hb
  unfold State.annexWord State.annexPut
  rw [State.shelf_updShelf, if_pos rfl]
  exact smGet_smSetList_head 0 _ _ v vs

theorem State.annexPut_grd (s : State) (n : Epoch) (b : Nat) (vs : List Word) : (s.annexPut n b vs).grd = s.grd := rfl

theorem State.annexPut_phi (s : State) (n : Epoch) (b : Nat) (vs : List Word) : (s.annexPut n b vs).phi = s.phi := by
  unfold State.phi
  rw [State.annexPut_grd]

/-- A pass that is neither missed nor halted runs. -/
theorem State.runItem_runs {s : State} {k : Nat} (f : State → State) (hcnt : s.sys.counting = true) (hmiss : bit s.sys.missNow k = false)
    (hhalt : s.itemHalted k = false) : s.runItem k f = f s := by
  unfold State.runItem
  rw [hcnt, hmiss, hhalt]
  rfl

/-- A halted pass counts as a miss of its item (R485). -/
theorem State.runItem_halted {s : State} {k : Nat} (f : State → State) (hcnt : s.sys.counting = true) (hmiss : bit s.sys.missNow k = false)
    (hhalt : s.itemHalted k = true) : s.runItem k f = s.missItem k := by
  unfold State.runItem
  rw [hcnt, hmiss, hhalt]
  rfl

/-! The grid engine. -/

/-- What the pass of the Grid Engine decides once, in the observer: its tag and the PLL angle. -/
def GrdSt.pll (g : GrdSt) : Option Epoch × Nat := (g.tag, g.phiPll)

theorem GrdSt.pll_eq {g : GrdSt} {t : Option Epoch} {phi : Nat} (h : g.pll = (t, phi)) : g.tag = t ∧ g.phiPll = phi := Prod.mk.inj h

theorem State.gridForm_pll (s : State) (g : GrdSt) (n : Epoch) (gap : Nat) (xfer : Bool) (P Q vMag iMag : Rat) :
    (s.gridForm g n gap xfer P Q vMag iMag).1.pll = g.pll := by
  unfold State.gridForm
  dsimp only
  split <;> rfl

theorem State.transferred_pll (s : State) (b : Bool) : (s.transferred b).grd.pll = s.grd.pll := by
  rw [keep_grd (s := s) (t := s.transferred b) (by simp)]

theorem State.grdResult_pll (s : State) (r : Nat) : (s.grdResult r).grd.pll = s.grd.pll := by
  rw [keep_grd (s := s) (t := s.grdResult r) (by simp)]

theorem State.gridCurves_pll (s : State) (u low vdc env : Rat) : (s.gridCurves u low vdc env).1.grd.pll = s.grd.pll := by
  unfold State.gridCurves
  refine List.foldlRecOn (motive := fun x : State × List Rat => x.1.grd.pll = s.grd.pll) _ _ rfl (fun x hx c _ => ?_)
  dsimp only
  (repeat' split) <;> exact hx

theorem State.gridIsl_pll (s : State) (u vMag : Rat) (doubt clamped : Bool) : (s.gridIsl u vMag doubt clamped).grd.pll = s.grd.pll := by
  unfold State.gridIsl
  dsimp only
  split <;> rfl

theorem State.gridFrt_pll (s : State) (u low : Rat) : (s.gridFrt u low).grd.pll = s.grd.pll := by
  unfold State.gridFrt
  dsimp only
  (repeat' split) <;> rfl

theorem State.grdRaise_pll (s : State) : s.grdRaise.grd.pll = s.grd.pll := by
  unfold GrdSt.pll
  rw [State.grdRaise_grd]

/-- The converter epochs since the last pass of the Grid Engine. -/
def State.gridGap (s : State) : Nat :=
  match s.grd.tag with
  | some t => (s.sys.epoch - 1 - t).toNat
  | none => 1

/-- State t is one in which the Grid Engine's pass over s has decided its tag and angles, and has recorded the angle in force. -/
def GridPassed (s t : State) : Prop :=
  t.grd.pll = (some (s.sys.epoch - 1), advAngle s.grd.phiPll s.grd.stepPll s.gridGap) ∧
    t.annexWord (s.sys.epoch - 1) 0xC0 = BitVec.ofNat 32 t.phi

theorem State.gridPass_passed (s : State) : GridPassed s s.gridPass := by
  unfold State.gridPass
  extract_lets n gap q w V I vMag vNeg iMag rt3 third P Q vdc s1 g1 s2 xfer F s3 done gx sx st s4 freq vdq idq vmin u vminPu low env C s5
    X id pulse lim raw clamped iq g2 turn l1 l2 l3 l4 l5 l6 l7 outs s6 doubt N win g3 fresh g4 s7 s8 s9 s10 g5 s11
  have h1 : s1.grd.pll = s.grd.pll ∧ s1.grd.stepPll = s.grd.stepPll := by
    unfold s1
    split <;> exact ⟨rfl, rfl⟩
  have h2 : s2.grd.pll = (some n, advAngle s.grd.phiPll s.grd.stepPll gap) := by
    obtain ⟨hpll, hstep⟩ := h1
    have hphi : s1.grd.phiPll = s.grd.phiPll := congrArg Prod.snd hpll
    show (some n, advAngle s1.grd.phiPll s1.grd.stepPll gap) = _
    rw [hphi, hstep]
  have h3 : s3.grd.pll = s2.grd.pll := s2.gridForm_pll _ _ _ _ _ _ _ _
  have h4 : s4.grd.pll = s3.grd.pll := by
    have hsx : sx.grd.pll = s3.grd.pll := rfl
    have hst : st.grd.pll = sx.grd.pll := sx.transferred_pll true
    unfold s4
    split
    · split
      · exact (st.grdResult_pll 2).trans (hst.trans hsx)
      · exact hst.trans hsx
    · rfl
  have h5 : s5.grd.pll = s4.grd.pll := s4.gridCurves_pll _ _ _ _
  have h7 : s7.grd.pll = s5.grd.pll := by
    show (s5.grd.tag, s5.grd.phiPll) = _
    rfl
  have h8 : s8.grd.pll = s7.grd.pll := s7.gridIsl_pll _ _ _ _
  have h9 : s9.grd.pll = s8.grd.pll := by
    unfold s9
    split
    · exact s8.gridFrt_pll _ _
    · rfl
  have h10 : s10.grd.pll = s9.grd.pll := s9.grdRaise_pll
  refine ⟨?_, ?_⟩
  · rw [State.annexPut_grd, State.annexPut_grd]
    exact h10.trans (h9.trans (h8.trans (h7.trans (h5.trans (h4.trans (h3.trans h2))))))
  · clear_value s11
    rw [State.annexPut_phi]
    exact s11.annexWord_annexPut n (by decide) _ _

/-! The control engines. -/

theorem State.loopAnnex_ctl (s : State) (n : Epoch) : (s.loopAnnex n).ctl = s.ctl :=
  keep_ctl (s := s) (t := s.loopAnnex n) (by simp)

theorem State.slot_congr {s t : State} (h : t.ctl.slots = s.ctl.slots) (k : Nat) : t.slot k = s.slot k := by
  unfold State.slot
  rw [h]

/-- The pass of the Control Engines tags its epoch, and counts the slots that ran. -/
theorem State.controlPass_ctl (s : State) :
    s.controlPass.ctl.tag = some (s.sys.epoch - 1) ∧
      s.controlPass.ctl.running = ((List.range 64).filter (fun k => (s.controlPass.slot k).ran)).length := by
  unfold State.controlPass
  extract_lets n s1 s2 s3 s4 s5 s6 s7 ran zero c s8
  have hctl := s8.loopAnnex_ctl n
  have hslots : (s8.loopAnnex n).ctl.slots = s7.ctl.slots := by rw [hctl]
  refine ⟨by rw [hctl], ?_⟩
  simp only [State.slot_congr hslots, hctl]
  rfl

/-- A halted pass of the Control Engines is a miss of item 1. -/
theorem execControlPass_halted {s : State} (hcnt : s.sys.counting = true) (hmiss : bit s.sys.missNow 1 = false) (hhalt : s.itemHalted 1 = true) :
    exec .controlPass s = exec (.deadlineMiss 1) s := by
  show execControlPass s = execDeadlineMiss 1 s
  unfold execControlPass execDeadlineMiss
  simp [hcnt, hmiss, hhalt]

theorem execControlPass_runs {s : State} (hcnt : s.sys.counting = true) (hmiss : bit s.sys.missNow 1 = false) (hhalt : s.itemHalted 1 = false) :
    exec .controlPass s = .next s.controlPass := by
  show execControlPass s = _
  unfold execControlPass
  rw [State.runItem_runs _ hcnt hmiss hhalt, hcnt, hmiss, hhalt]
  rfl

/-! The chopper. -/

/-- The pass of the chopper tags its epoch, and its first annex word is its power. -/
theorem State.chopperPass_spec (s : State) :
    s.chopperPass.grd.chTag = some (s.sys.epoch - 1) ∧
      s.chopperPass.annexWord (s.sys.epoch - 1) 0xC00 = toF32 s.chopperPass.grd.pCh := by
  unfold State.chopperPass
  extract_lets n g gap out members vSum mean vdc unavail frt on_ pFf avail act pCh v6 th thermal s1 s2 g2
  have htag : s1.grd.chTag = some n := rfl
  have hraise : s2.grd = { s1.grd with raised := s1.grdSources } := s1.grdRaise_grd
  clear_value s1
  refine ⟨?_, ?_⟩
  · rw [State.annexPut_grd, hraise, htag]
  · clear_value s2
    rw [State.annexPut_grd]
    exact s2.annexWord_annexPut n (by decide) _ _

/-! The Arm Engines. -/

theorem State.grp_updGrp (s : State) (g : Nat) (f : GroupSt → GroupSt) : (s.updGrp g f).grp g = f (s.grp g) := by
  unfold State.grp State.updGrp
  rw [smGet_smUpd, if_pos rfl]

/-- A change of a group that leaves its tag. -/
theorem State.tag_updGrp (s : State) (g : Nat) {f : GroupSt → GroupSt} (hf : ∀ a, (f a).tag = a.tag) :
    ((s.updGrp g f).grp g).tag = (s.grp g).tag := by rw [State.grp_updGrp, hf]

theorem State.grp_congr {s t : State} (h : t.edg = s.edg) (g : Nat) : t.grp g = s.grp g := by
  unfold State.grp
  rw [h]

/-- The pass of an Arm Engine tags its epoch. -/
theorem State.armPass_tag (s : State) (g : Nat) : ((s.armPass g).grp g).tag = some (s.sys.epoch - 1) := by
  unfold State.armPass
  extract_lets n s1 s2 s3 lmax s4 x clampd s5 s6 s7
  have h3 : (s3.grp g).tag = some n := congrArg GroupSt.tag (s2.grp_updGrp g _)
  have h4 : (s4.grp g).tag = (s3.grp g).tag := by
    unfold s4
    split
    · rfl
    · exact s3.tag_updGrp g (fun _ => rfl)
  have h5 : (s5.grp g).tag = (s4.grp g).tag := by
    unfold s5
    split
    · exact congrArg GroupSt.tag (State.grp_congr rfl g)
    · rfl
  have h6 : (s6.grp g).tag = (s5.grp g).tag := s5.tag_updGrp g (fun _ => rfl)
  have h7 : (s7.grp g).tag = (s6.grp g).tag := by
    unfold s7
    split
    · exact congrArg GroupSt.tag (State.grp_congr (keep_edg (by simp)) g)
    · rfl
  refine (s7.tag_updGrp g ?_).trans (h7.trans (h6.trans (h5.trans (h4.trans h3))))
  exact fun _ => rfl

end Sys2Proof.Machine
end

section
/-! PROOFS. The Edge Planner's pass, and the engine passes together (O20). -/

namespace Sys2Proof.Machine

/-- What decides which units are due an order stays: only the Edge Planner's own data and the Shelves may differ. -/
def EdgeKept (s t : State) : Prop := Frame [.cel, .edg] s t ∧ t.cel.crates = s.cel.crates

theorem EdgeKept.refl (s : State) : EdgeKept s s := ⟨Frame.refl s, rfl⟩

theorem EdgeKept.trans {s t u : State} (h : EdgeKept s t) (h' : EdgeKept t u) : EdgeKept s u :=
  ⟨h.1.trans h'.1, h'.2.trans h.2⟩

/-- The Edge Planner's own data may change freely. -/
theorem EdgeKept.of_edg {s t : State} (h : Frame [.edg] s t) : EdgeKept s t := by
  refine ⟨h.mono (by simp), ?_⟩
  rw [keep_cel (h.mono (by simp))]

theorem State.annexPut_edgeKept (s : State) (n : Epoch) (b : Nat) (vs : List Word) : EdgeKept s (s.annexPut n b vs) :=
  ⟨by simp, rfl⟩

theorem EdgeKept.lnk {s t : State} (h : EdgeKept s t) : t.lnk = s.lnk := keep_lnk (h.1.mono (by simp))

theorem EdgeKept.sys {s t : State} (h : EdgeKept s t) : t.sys = s.sys := keep_sys (h.1.mono (by simp))

theorem EdgeKept.orderLane {s t : State} (h : EdgeKept s t) (u : Nat) : t.orderLane u = s.orderLane u := by
  unfold State.orderLane State.orderRoute State.unit State.pair
  rw [h.lnk]

theorem EdgeKept.planEpoch {s t : State} (h : EdgeKept s t) (u : Nat) : t.planEpoch u = s.planEpoch u := by
  unfold State.planEpoch State.orderLead State.lane
  rw [h.sys, h.lnk, h.orderLane]

theorem EdgeKept.orderTwo {s t : State} (h : EdgeKept s t) (u : Nat) : t.orderTwo u = s.orderTwo u := by
  unfold State.orderTwo State.servesBridged State.pair
  rw [h.lnk, h.orderLane]

theorem EdgeKept.laneActive {s t : State} (h : EdgeKept s t) (l : Nat) : t.laneActive l = s.laneActive l := by
  have hpwr : t.pwr = s.pwr := keep_pwr (h.1.mono (by simp))
  have hregs : t.regs = s.regs := keep_regs (h.1.mono (by simp))
  unfold State.laneActive State.laneEnabled State.domain State.lane State.rb
  rw [h.lnk, hpwr, State.reg_congr hregs]

theorem EdgeKept.decidedParts {s t : State} (h : EdgeKept s t) (c : Epoch) : t.decidedParts c = s.decidedParts c := by
  unfold State.decidedParts State.crate
  rw [h.2]

theorem EdgeKept.mapAt {s t : State} (h : EdgeKept s t) (c : Epoch) (u : Nat) : t.mapAt c u = s.mapAt c u := by
  unfold State.mapAt State.mapEntry
  rw [h.sys, h.decidedParts]

theorem EdgeKept.orderDue {s t : State} (h : EdgeKept s t) (u : Nat) : t.orderDue u = s.orderDue u := by
  have hroute : t.orderRoute u = s.orderRoute u := by
    unfold State.orderRoute State.unit State.pair
    rw [h.lnk]
  unfold State.orderDue
  dsimp only
  rw [h.planEpoch, h.mapAt, h.orderLane, h.laneActive, h.orderTwo, hroute]

theorem EdgeKept.orderUnits {s t : State} (h : EdgeKept s t) (g : Nat) : t.orderUnits g = s.orderUnits g := by
  unfold State.orderUnits State.orderHomes State.mapped
  simp only [h.sys, h.decidedParts, h.orderDue, h.planEpoch, h.mapAt]

/-! The orders. -/

/-- The converter epoch of the order that stands for unit h. -/
def State.orderEpoch (s : State) (h : Nat) : Option Epoch := (smGet {} s.edg.orders h).c

theorem State.updEunit_orders (s : State) (h : Nat) (f : EUnit → EUnit) : (s.updEunit h f).edg.orders = s.edg.orders := rfl

theorem State.remember_orders (s : State) (c : Epoch) (neg : Bool) (u : UnitPlan) : (s.remember c neg u).edg.orders = s.edg.orders := by
  unfold State.remember
  split
  · rfl
  · exact s.updEunit_orders _ _

theorem State.bypStep_orders (s : State) (h : Nat) (c : Epoch) (running : Bool) : (s.bypStep h c running).1.edg.orders = s.edg.orders := by
  unfold State.bypStep
  dsimp only
  (repeat' split) <;> rfl

theorem State.orderEpoch_congr {s t : State} (h : t.edg.orders = s.edg.orders) (u : Nat) : t.orderEpoch u = s.orderEpoch u := by
  unfold State.orderEpoch
  rw [h]

/-- The order of a unit is built for the epoch that the pass plans, and the other orders stay. -/
theorem State.buildOrder_orderEpoch (s : State) (g : Nat) (missed : Bool) (placed : List (ClassPlan × ClassPlaced)) (h u : Nat) :
    (s.buildOrder g missed placed h).1.orderEpoch u = if u = h then some (s.planEpoch h) else s.orderEpoch u := by
  unfold State.buildOrder
  extract_lets c two e idle running eligible s1 keep s2 b s3 prof def_ mine ps evs kind sample s4 s5 o src s6 s7
  have h2 : s2.edg.orders = s.edg.orders := by
    unfold s2
    split
    · rfl
    · exact s1.remember_orders _ _ _
  have h3 : s3.edg.orders = s2.edg.orders := s2.bypStep_orders _ _ _
  have h4 : s4.edg.orders = s3.edg.orders :=
    List.foldlRecOn (motive := fun t : State => t.edg.orders = s3.edg.orders) _ _ rfl (fun t ht x _ => (t.remember_orders _ _ _).trans ht)
  have h5 : s5.edg.orders = s4.edg.orders := by
    unfold s5
    split <;> rfl
  have h7 : s7.edg.orders = smSet {} s5.edg.orders h o := rfl
  unfold State.orderEpoch
  rw [h7, smGet_smSet, h5, h4, h3, h2]
  split <;> rfl

theorem State.buildOrder_edgeKept (s : State) (g : Nat) (missed : Bool) (placed : List (ClassPlan × ClassPlaced)) (h : Nat) :
    EdgeKept s (s.buildOrder g missed placed h).1 := .of_edg (by simp)

/-- The state after the orders of a list of units are built. -/
def State.buildOrders (s : State) (g : Nat) (missed : Bool) (placed : List (ClassPlan × ClassPlaced)) (us : List Nat) : State :=
  us.foldl (fun s h => (s.buildOrder g missed placed h).1) s

theorem State.buildOrders_edgeKept (s : State) (g : Nat) (missed : Bool) (placed : List (ClassPlan × ClassPlaced)) (us : List Nat) :
    EdgeKept s (s.buildOrders g missed placed us) :=
  List.foldlRecOn (motive := EdgeKept s) _ _ (.refl s) (fun t ht h _ => ht.trans (t.buildOrder_edgeKept g missed placed h))

/-- A pass over a list of units builds the order of each of them for the epoch that the pass plans, and leaves the other orders. -/
theorem State.buildOrders_orderEpoch (s : State) (g : Nat) (missed : Bool) (placed : List (ClassPlan × ClassPlaced)) (us : List Nat) (u : Nat) :
    (s.buildOrders g missed placed us).orderEpoch u = if u ∈ us then some (s.planEpoch u) else s.orderEpoch u := by
  induction us generalizing s with
  | nil => rfl
  | cons h us ih =>
    have hplan := (s.buildOrder_edgeKept g missed placed h).planEpoch u
    refine (ih (s.buildOrder g missed placed h).1).trans ?_
    rw [hplan, s.buildOrder_orderEpoch]
    by_cases hu : u = h
    · subst hu
      simp
    · simp [hu]

/-- The pass over a group builds the orders of its units that are due one; the other orders stay. -/
theorem State.edgeGroup_spec (s : State) (n : Epoch) (g : Nat) : EdgeKept s (s.edgeGroup n g) ∧
    ∀ u, (s.edgeGroup n g).orderEpoch u = if u ∈ s.orderUnits g then some (s.planEpoch u) else s.orderEpoch u := by
  unfold State.edgeGroup
  extract_lets a missed plans us placed s1 fin carry r s2 bs ps trs per ups cnt mk counts s3 forces byps idle cap
  have h1 : EdgeKept s s1 ∧ s1.edg.orders = s.edg.orders :=
    List.foldlRecOn (motive := fun t => EdgeKept s t ∧ t.edg.orders = s.edg.orders) _ _ ⟨.refl s, rfl⟩
      (fun t ht x _ => ⟨ht.1.trans (.of_edg (by simp)), ht.2⟩)
  have h2 : s2 = s1.buildOrders g missed placed us :=
    (List.foldl_hom Prod.fst (fun _ _ => rfl)).symm
  have hkept : EdgeKept s s2 := h2 ▸ h1.1.trans (s1.buildOrders_edgeKept g missed placed us)
  have horders : ∀ u, s2.orderEpoch u = if u ∈ us then some (s.planEpoch u) else s.orderEpoch u := fun u => by
    rw [h2, State.buildOrders_orderEpoch, h1.1.planEpoch, State.orderEpoch_congr h1.2]
  have h3 : EdgeKept s2 s3 ∧ s3.edg.orders = s2.edg.orders := ⟨.of_edg (by simp [s3]), rfl⟩
  clear_value s3
  have hkept3 : EdgeKept s s3 := hkept.trans h3.1
  have horders3 : ∀ u, s3.orderEpoch u = if u ∈ us then some (s.planEpoch u) else s.orderEpoch u := fun u =>
    (State.orderEpoch_congr h3.2 u).trans (horders u)
  split
  · exact ⟨hkept3, horders3⟩
  · exact ⟨hkept3.trans (s3.annexPut_edgeKept _ _ _), horders3⟩

/-- The pass over every group leaves each unit that is due one with an order for the epoch that the pass plans. -/
theorem State.edgePass_orderEpoch (s : State) {g u : Nat} (hg : g < 8) (hu : u ∈ s.orderUnits g) :
    s.edgePass.orderEpoch u = some (s.planEpoch u) := by
  have hall : ∀ (gs : List Nat) (t : State), EdgeKept s t → (g ∈ gs ∨ t.orderEpoch u = some (s.planEpoch u)) →
      (gs.foldl (fun s' k => s'.edgeGroup (s.sys.epoch - 1) k) t).orderEpoch u = some (s.planEpoch u) := by
    intro gs
    induction gs with
    | nil => exact fun t _ h => h.resolve_left List.not_mem_nil
    | cons k gs ih =>
      intro t ht h
      obtain ⟨hkept, horders⟩ := t.edgeGroup_spec (s.sys.epoch - 1) k
      refine ih _ (ht.trans hkept) ?_
      rw [horders u, ht.orderUnits, ht.planEpoch]
      by_cases hk : u ∈ s.orderUnits k
      · exact .inr (if_pos hk)
      · rw [if_neg hk]
        refine h.imp_left fun hmem => (List.mem_cons.mp hmem).resolve_left ?_
        rintro rfl
        exact hk hu
  exact hall _ s (.refl s) (.inl (List.mem_range.mpr hg))

/-- Settles O20: each pass that runs is its function of the state, whose tag, angle, count, power and orders are read off it; a halted one is a
miss. -/
theorem enginePasses : Obligations.EnginePasses := by
  refine ⟨fun n s hn hcnt hmiss => ⟨fun hhalt => ?grid, fun hhalt => ?gridHalted⟩,
    fun n s hn hcnt hmiss => ⟨fun hhalt => ?control, execControlPass_halted hcnt hmiss⟩,
    fun n s hn hcnt hmiss hhalt => ?chopper, fun g n s hg hn hcnt hmiss hhalt => ?arm, fun s hcnt hmiss hhalt => ?edge⟩
  case grid =>
    subst hn
    obtain ⟨hpll, hword⟩ := s.gridPass_passed
    have hexec : exec .gridEnginePass s = .next s.gridPass := congrArg Host.Outcome.next (State.runItem_runs _ hcnt hmiss hhalt)
    obtain ⟨htag, hphi⟩ := GrdSt.pll_eq hpll
    refine ⟨_, hexec, htag, fun e he => ?_, hword, by simp⟩
    have hgap : s.gridGap = (s.sys.epoch - 1 - e).toNat := by
      unfold State.gridGap
      rw [he]
    rw [hphi, hgap, advAngle]
  case gridHalted => exact congrArg Host.Outcome.next (State.runItem_halted _ hcnt hmiss hhalt)
  case control =>
    subst hn
    obtain ⟨htag, hran⟩ := s.controlPass_ctl
    exact ⟨_, execControlPass_runs hcnt hmiss hhalt, htag, hran, by simp⟩
  case chopper =>
    subst hn
    obtain ⟨htag, hword⟩ := s.chopperPass_spec
    exact ⟨_, congrArg Host.Outcome.next (State.runItem_runs _ hcnt hmiss hhalt), htag, hword, by simp⟩
  case arm =>
    subst hn
    have hexec : exec (.armEnginePass g) s = .next (s.armPass g) := by
      show Host.Outcome.next (if g < 7 then s.runItem (armItem g) (fun s => s.armPass g) else s) = _
      rw [if_pos hg, State.runItem_runs _ hcnt hmiss hhalt]
    exact ⟨_, hexec, s.armPass_tag g, by simp⟩
  case edge =>
    have hexec : exec .edgePlannerPass s = .next s.edgePass := congrArg Host.Outcome.next (State.runItem_runs _ hcnt hmiss hhalt)
    exact ⟨_, hexec, fun g hg u hu => s.edgePass_orderEpoch hg hu, by simp⟩

end Sys2Proof.Machine
end

section
/-! PROOFS. The acceptance of register writes (O50): the masks of a register, the key that a requester's offset names, and each way that a
write takes through the register file. -/

namespace Sys2Proof.Machine

/-! Masks. -/

/-- A value meets a mask gathered over a list if it meets one of its parts. -/
theorem and_foldl_or_eq_zero {α : Type} (v : Word) (p : α → Bool) (g : α → Word) (l : List α) (m : Word) :
    v &&& l.foldl (fun m x => if p x then m ||| g x else m) m = 0 ↔ v &&& m = 0 ∧ ∀ x ∈ l, p x → v &&& g x = 0 := by
  induction l generalizing m with
  | nil => simp
  | cons x l ih =>
    rw [List.foldl_cons, ih]
    by_cases hx : p x
    · rw [if_pos hx, BitVec.and_or_distrib_left]
      simp only [List.forall_mem_cons, hx, true_imp_iff, ← and_assoc]
      exact and_congr_left' BitVec.or_eq_zero_iff
    · simp [hx]

/-- A value that meets no field of some access codes meets none of fewer codes. -/
theorem and_accMask_mono {v : Word} {d : RegDef} {a b : List Acc} (hab : a ⊆ b) (h : v &&& accMask d b = 0) : v &&& accMask d a = 0 := by
  unfold accMask at h ⊢
  rw [and_foldl_or_eq_zero] at h ⊢
  obtain ⟨hz, hb⟩ := h
  refine ⟨hz, fun f hf hfa => hb f hf ?_⟩
  simp only [List.contains_eq_mem, decide_eq_true_eq] at hfa ⊢
  exact hab hfa

theorem and_keyMask_mono {v : Word} {k : Nat} {a b : List Acc} (hab : a ⊆ b) (h : v &&& keyMask k b = 0) : v &&& keyMask k a = 0 := by
  unfold keyMask at h ⊢
  split
  · next d i hd =>
    rw [hd] at h
    exact and_accMask_mono hab h
  · exact BitVec.and_zero

/-- A CLEAR of 0 hits no field. -/
theorem ltHit_zero (k : Nat) : ltHit k 0 = 0 := by
  unfold ltHit
  split
  · exact List.foldlRecOn (motive := fun m : Word => m = 0) _ _ rfl (fun m hm f _ => by simp [hm])
  · rfl

theorem blend_self (m x : Word) : blend m x x = x := by
  unfold blend
  rw [← BitVec.and_or_distrib_left, BitVec.or_not_self, BitVec.and_allOnes]

/-- An alias write of 0 leaves the bits that it acts on (R452). -/
theorem aliasValue_zero {way : Nat} (h : way ∈ [1, 2, 3]) (x : Word) : aliasValue way x 0 = x := by
  simp only [List.mem_cons, List.not_mem_nil, or_false] at h
  rcases h with rfl | rfl | rfl
  · exact BitVec.or_zero
  · show x &&& ~~~0#32 = x
    rw [BitVec.not_zero, BitVec.and_allOnes]
  · exact BitVec.xor_zero

/-! Keys. -/

theorem keyOff_ownKey (r : Requester) {o : Nat} (h : o < 0x10000) : keyOff (ownKey r o) = o := by
  unfold keyOff ownKey
  omega

theorem keyOff_bankKey (b : Nat) {o : Nat} (h : o < 0x10000) : keyOff (bankKey b o) = o := by
  unfold keyOff bankKey
  omega

theorem keyOff_slotKey (a b : Nat) {o : Nat} (h : o < 0x10000) : keyOff (slotKey a b o) = o := by
  unfold keyOff slotKey
  omega

theorem keyOff_curveKey (a b : Nat) {o : Nat} (h : o < 0x10000) : keyOff (curveKey a b o) = o := by
  unfold keyOff curveKey
  omega

theorem keyOff_toneKey (a : Nat) {o : Nat} (h : o < 0x10000) : keyOff (toneKey a o) = o := by
  unfold keyOff toneKey
  omega

theorem keyOff_profKey (a b c d : Nat) : keyOff (profKey a b c d) = R.EDG_PROF_DATA := by
  unfold keyOff profKey R.EDG_PROF_DATA
  omega

/-- The key that an offset names for a requester stands for the register at that offset. -/
theorem State.keyOff_keyFor (s : State) (r : Requester) {o : Nat} (h : o < 0x10000) : keyOff (s.keyFor r o) = o := by
  unfold State.keyFor
  split
  · exact keyOff_ownKey r h
  · split
    · cases r with
      | hatch i => exact keyOff_bankKey _ h
      | mgmt => exact keyOff_bankKey _ h
    · split
      · exact keyOff_slotKey _ _ h
      · split
        · exact keyOff_toneKey _ h
        · split
          · exact keyOff_curveKey _ _ h
          · split
            · next ho => rw [keyOff_profKey, ho]
            · exact Nat.mod_eq_of_lt h

theorem State.keyFor_own (s : State) (r : Requester) {o : Nat} (h : ownReg o = true) : s.keyFor r o = ownKey r o := by
  unfold State.keyFor
  exact if_pos (List.mem_cons_of_mem _ (of_decide_eq_true h))

theorem State.keyMask_keyFor (s : State) (r : Requester) {o : Nat} (h : o < 0x10000) (a : List Acc) :
    keyMask (s.keyFor r o) a = keyMask o a := by
  unfold keyMask
  rw [s.keyOff_keyFor r h, keyOff, Nat.mod_eq_of_lt h]

/-! The way of a write. -/

/-- The four write commands with their alias ranges. -/
theorem exec_writeCmd {w : WriteReq} {c : Instr} {way : Nat} (s : State)
    (h : (c, way) ∈ [(.registerWrite w, 0), (.setAliasWrite w, 1), (.clearAliasWrite w, 2), (.toggleAliasWrite w, 3)]) :
    exec c s = .next (s.writeCmd w way) := by
  simp only [List.mem_cons, List.not_mem_nil, or_false, Prod.mk.injEq] at h
  rcases h with ⟨rfl, rfl⟩ | ⟨rfl, rfl⟩ | ⟨rfl, rfl⟩ | ⟨rfl, rfl⟩ <;> rfl

theorem alias_of_mem {w : WriteReq} {c : Instr} {way : Nat}
    (h : (c, way) ∈ [(.registerWrite w, 0), (.setAliasWrite w, 1), (.clearAliasWrite w, 2), (.toggleAliasWrite w, 3)]) (h0 : way ≠ 0) :
    way ∈ [1, 2, 3] := by
  simp only [List.mem_cons, List.not_mem_nil, or_false, Prod.mk.injEq] at h ⊢
  omega

theorem State.writeCmd_unserved {s : State} {w : WriteReq} (way : Nat) (h : s.serves w.req = false) : s.writeCmd w way = s := by
  unfold State.writeCmd
  rw [h, if_neg (by simp)]

/-- A served write to an offset below the aliases' end goes on the bus. -/
theorem State.writeCmd_bus {s : State} {w : WriteReq} {way : Nat} (hserve : s.serves w.req = true) (hoff : w.off < 0x10000)
    (hway : aliasOf w.off = way) : s.writeCmd w way = s.busWrite w := by
  unfold State.writeCmd
  rw [hserve, hway, if_pos ⟨rfl, if_neg (by omega)⟩]

/-- A whole write, or one beyond the registers, that is not one to BAR4 reaches the register file. -/
theorem State.busWrite_regWrite (s : State) {w : WriteReq} (hbar : w.off < bar4Window ∨ bar4Window + 0x4000 ≤ w.off)
    (hwhole : w.whole = true ∨ 0x10000 ≤ w.off) : s.busWrite w = s.regWrite w.req w.off w.value w.at_ns := by
  unfold State.busWrite
  split
  · next h => rw [h]
  · next h hreq =>
    rw [if_neg (by omega), if_neg, hreq]
    rintro ⟨hw, hlt⟩
    rcases hwhole with h' | h'
    · rw [h'] at hw; cases hw
    · omega

theorem State.writeCmd_regWrite {s : State} {w : WriteReq} {way : Nat} (hserve : s.serves w.req = true) (hoff : w.off < 0x10000)
    (hway : aliasOf w.off = way) (hwhole : w.whole = true) : s.writeCmd w way = s.regWrite w.req w.off w.value w.at_ns :=
  (State.writeCmd_bus hserve hoff hway).trans (s.busWrite_regWrite (.inl (by unfold bar4Window; omega)) (.inl hwhole))

/-- A write below the aliases' end is neither one of the map nor one outside the BARs. -/
theorem State.regWrite_below (s : State) (r : Requester) {off : Nat} (w : Word) (ns : Nat) (hoff : off < 0x10000) :
    s.regWrite r off w ns = (if !implemented (off % 0x4000) then s.logErr r 2 off
      else
        let s := if w &&& keyMask (off % 0x4000) [.rsv] != 0 then s.logErr r 1 off else s
        if aliasOf off ≠ 0 ∧ w = 0 then s
        else
          let s := if aliasOf off ≠ 0 ∧ w &&& keyMask (off % 0x4000) [.wa] ≠ 0 then s.logErr r 5 off else s
          s.regPut r (off % 0x4000) (aliasOf off) w ns) := by
  unfold State.regWrite
  dsimp only
  rw [if_neg (by unfold mapWindow; omega), if_neg (by omega)]

theorem State.regWrite_unimplemented (s : State) (r : Requester) {off : Nat} (w : Word) (ns : Nat) (hoff : off < 0x10000)
    (h : implemented (off % 0x4000) = false) : s.regWrite r off w ns = s.logErr r 2 off := by
  rw [s.regWrite_below r w ns hoff, h]
  rfl

/-- An alias write of 0 changes nothing (R452). -/
theorem State.regWrite_alias_zero (s : State) (r : Requester) {off : Nat} (ns : Nat) (hoff : off < 0x10000)
    (h : implemented (off % 0x4000) = true) (hway : aliasOf off ≠ 0) : s.regWrite r off 0 ns = s := by
  have hz (m : Word) : (0 : Word) &&& m = 0 := BitVec.zero_and
  rw [s.regWrite_below r 0 ns hoff, h, hz, hz]
  simp [hway]

/-- A write that touches no reserved bit and no action goes to its register. -/
theorem State.regWrite_regPut (s : State) (r : Requester) {off : Nat} {w : Word} (ns : Nat) (hoff : off < 0x10000)
    (h : implemented (off % 0x4000) = true) (hmask : w &&& keyMask (off % 0x4000) [.rsv, .wa] = 0) (hw : aliasOf off ≠ 0 → w ≠ 0) :
    s.regWrite r off w ns = s.regPut r (off % 0x4000) (aliasOf off) w ns := by
  have hrsv : w &&& keyMask (off % 0x4000) [.rsv] = 0 := and_keyMask_mono (by simp) hmask
  have hwa : w &&& keyMask (off % 0x4000) [.wa] = 0 := and_keyMask_mono (by simp) hmask
  rw [s.regWrite_below r w ns hoff, h, hrsv, hwa]
  simp only [Bool.not_true, Bool.false_eq_true, if_false, bne_self_eq_false, ne_eq, not_true, and_false]
  rw [if_neg (fun hz => hw hz.1 hz.2)]

/-- A register of the default classes, whose write runs no action on receipt, waits for its boundary. -/
theorem State.regPut_boundary (s : State) (r : Requester) {o way : Nat} (w : Word) (ns : Nat) (hown : ownReg o = false)
    (hsaf : safParam o = false) (hhat : hatReg o = false)
    (hact : way = 0 → o ∉ [R.STR_ACTION, R.TRK_ACTION, R.PRT_RESET, R.DBG_HALT]) :
    s.regPut r o way w ns = s.boundaryWrite r (s.keyFor r o) way w (s.dueOf ns) := by
  have hreceipt : (if way = 0 then s.receiptAction r o w ns else none) = none := by
    split
    · next h =>
      have ho := hact h
      simp only [List.mem_cons, List.not_mem_nil, or_false, not_or] at ho
      obtain ⟨hstr, htrk, hprt, hdbg⟩ := ho
      simp [State.receiptAction, hstr, htrk, hprt, hdbg]
    · rfl
  unfold State.regPut
  dsimp only
  rw [hown, hsaf, hhat, hreceipt]
  rfl

/-- The register puts a pending image, and no value in force changes. -/
theorem State.boundaryWrite_image (s : State) (r : Requester) {key way : Nat} {w : Word} (due : Epoch)
    (hlt : way = 2 → ltHit key w = 0) (hwa : w &&& keyMask key [.wa] = 0)
    (hreref : keyOff key ∉ [R.MFE_ENC_REREF 0, R.MFE_ENC_REREF 1, R.MFE_ENC_REREF 2]) (hmask : writeMask key ≠ 0) :
    s.boundaryWrite r key way w due = s.pendPut key r (blend (writeMask key) (aliasValue way (s.aliasBase key) w) (s.aliasBase key)) due false
      (0x4000 * way + keyOff key) := by
  have hacts : (way = 0 && (w &&& keyMask key [.wa] != 0 ||
      (R.MFE_ENC_REREF 0 ≤ keyOff key && keyOff key ≤ R.MFE_ENC_REREF 2 && keyOff key % 16 = 12))) = false := by
    have hnot : ¬ (R.MFE_ENC_REREF 0 ≤ keyOff key ∧ keyOff key ≤ R.MFE_ENC_REREF 2 ∧ keyOff key % 16 = 12) := by
      simp only [List.mem_cons, List.not_mem_nil, or_false, R.MFE_ENC_REREF] at hreref ⊢
      omega
    rw [hwa]
    simpa [and_assoc] using fun _ => hnot
  have hhit : (if way = 2 then ltHit key w else 0) = 0 := by
    split
    · next h => exact hlt h
    · rfl
  unfold State.boundaryWrite
  dsimp only
  rw [hhit, if_pos rfl, hacts, if_neg (by decide), if_neg hmask]

/-- A CLEAR of LT fields alone waits for its boundary (R452). -/
theorem State.boundaryWrite_ltClear (s : State) (r : Requester) {key : Nat} {w : Word} (due : Epoch) (hlt : ltHit key w ≠ 0)
    (hmask : writeMask key = 0) :
    s.boundaryWrite r key 2 w due = { s with regs := { s.regs with pend := s.regs.pend ++ [.ltClear key r (ltHit key w) due] } } := by
  unfold State.boundaryWrite
  dsimp only
  rw [if_pos rfl, if_neg hlt, if_neg (by simp), if_pos hmask]

end Sys2Proof.Machine
end

section
/-! PROOFS. The acceptance of register writes settled (O50). -/

namespace Sys2Proof.Machine

/-- The writes that wait change no value in force. -/
theorem State.reg_withPend (s : State) (l : List Pending) (k : Nat) :
    ({ s with regs := { s.regs with pend := l } } : State).reg k = s.reg k := rfl

/-- An Unsupported Request shows in the error status of its Hatch alone, and is reported unless the host masks it (R400). -/
theorem State.unsupportedReq_spec (s : State) (h : Fin 4) :
    ((s.unsupportedReq h).hat h.val).aer = (s.hat h.val).aer ||| BitVec.ofNat 32 (2 ^ 20) ∧
      (s.unsupportedReq h).out = s.out ++ [.unsupported h] ++ (if flag (s.hat h.val).pcie.aerMask 20 then []
        else [.errorReport h 20 (flag (s.hat h.val).pcie.aerSeverity 20)]) ∧ ∀ g, g ≠ h.val → (s.unsupportedReq h).hat g = s.hat g := by
  have hhat (g : Nat) : (s.unsupportedReq h).hat g =
      ((s.emit (.unsupported h)).updHat h.val (fun a => { a with aer := a.aer ||| BitVec.ofNat 32 (2 ^ 20) })).hat g := by
    unfold State.unsupportedReq State.aerError
    dsimp only
    split <;> rfl
  have hemit (g : Nat) : (s.emit (.unsupported h)).hat g = s.hat g := rfl
  refine ⟨?_, ?_, fun g hg => ?_⟩
  · rw [hhat, State.hat_updHat, if_pos rfl, hemit]
  · have hc : ((s.emit (.unsupported h)).hat h.val).pcie = (s.hat h.val).pcie := rfl
    unfold State.unsupportedReq State.aerError
    dsimp only
    rw [hc]
    split
    · exact (List.append_nil _).symm
    · rfl
  · rw [hhat, State.hat_updHat, if_neg hg, hemit]

/-- The registers kept for each requester are registers. -/
theorem implemented_of_ownReg {o : Nat} (h : ownReg o = true) : implemented o = true := by
  have hall : ∀ o ∈ [R.LNK_TBL_ADDR, R.CEL_CRATE_SEL, R.CTL_SLOT_SEL, R.CTL_TONE_SEL, R.CTL_CAP_ADDR, R.GRD_CRV_SEL, R.EDG_PROF_ADDR,
      R.EDG_TBL_ADDR, R.SAF_VIEW, R.SAF_CONFIRM_VALUE, R.HAT_RING_SEL, R.STR_REC_ADDR, R.TRK_BIN_SEL, R.DBG_CAP_ADDR],
      implemented o = true := by decide +kernel
  exact hall o (of_decide_eq_true h)

/-- A register kept for the requester takes its value on receipt (R462). -/
theorem State.regPut_own (s : State) (r : Requester) {o : Nat} (way : Nat) (w : Word) (ns : Nat) (h : ownReg o = true) (ho : o < 0x10000)
    (hsel : o ≠ R.HAT_RING_SEL) : s.regPut r o way w ns =
      s.setReg (ownKey r o) (blend (writeMask o) (aliasValue way (s.reg (ownKey r o)) w) (s.reg (ownKey r o))) := by
  have hmask : writeMask (ownKey r o) = writeMask o := by
    rw [← s.keyFor_own r h]
    exact s.keyMask_keyFor r ho _
  have hkey : keyOff (ownKey r o) ≠ R.HAT_RING_SEL := by rwa [keyOff_ownKey r ho]
  unfold State.regPut State.ownWrite
  dsimp only
  rw [s.keyFor_own r h, h, if_pos rfl, hmask, if_neg (fun hs => hkey hs.1)]

/-- A write of a map entry without reserved bits waits for its boundary (R28). -/
theorem State.regWrite_map (s : State) (r : Requester) {h : Nat} {w : Word} (ns : Nat) (hh : h < 4096) (hw : w.toNat < 2 ^ 9) :
    s.regWrite r (mapWindow + 4 * h) w ns =
      { s with regs := { s.regs with pend := s.regs.pend ++ [.map h r (BitVec.ofNat 16 w.toNat) (s.dueOf ns) false] } } := by
  have hidx : (mapWindow + 4 * h - mapWindow) / 4 = h := by omega
  unfold State.regWrite State.mapWrite
  dsimp only
  rw [if_pos (by unfold mapWindow; omega), hidx, if_neg (by omega), Nat.mod_eq_of_lt hw]

/-- A served write beyond the registers, but not one to BAR4, reaches the register file. -/
theorem State.writeCmd_beyond {s : State} {w : WriteReq} (hserve : s.serves w.req = true) (hoff : 0x10000 ≤ w.off)
    (hbar : w.off < bar4Window ∨ bar4Window + 0x4000 ≤ w.off) : s.writeCmd w 0 = s.regWrite w.req w.off w.value w.at_ns := by
  unfold State.writeCmd
  rw [if_pos ⟨hserve, if_pos hoff⟩]
  exact s.busWrite_regWrite hbar (.inr hoff)

theorem State.regWrite_outside (s : State) (r : Requester) {off : Nat} (w : Word) (ns : Nat) (h : mapWindow + 4 * 4096 ≤ off) :
    s.regWrite r off w ns = s.outside r off := by
  unfold State.regWrite
  dsimp only
  rw [if_neg (by omega), if_pos (by unfold mapWindow at h; omega)]

/-- Settles O50: each clause follows a write through writeCmd, busWrite, regWrite and regPut to the one step that takes it. -/
theorem registerWriteAcceptance : Obligations.RegisterWriteAcceptance := by
  refine ⟨fun w c way s hc hserve => ?unserved, fun w c way s hc hoff hway hwhole hserve himpl => ?unimplemented,
    fun w h c way s hc hoff hway hreq hwhole hserve => ?piece, fun w h s hoff hreq hserve => ?outside,
    fun w c way s hc hoff hway hwhole hserve himpl h0 hw => ?aliasZero,
    fun w c way o s hc hoff hway hwhole hserve ho hmask hown hsaf hhat hact hlt hw himpl hwm => ?image,
    fun w o s hoff hway hwhole hserve ho hmask hown hsaf hhat himpl hwm hlt => ?ltClear,
    fun w c way o s hc hoff hway hwhole hserve ho hown hsel hmask => ?own, fun w h s hh hoff hw hserve => ?map⟩
  case unserved => rw [exec_writeCmd s hc, State.writeCmd_unserved way hserve]
  case unimplemented =>
    rw [exec_writeCmd s hc, State.writeCmd_regWrite hserve hoff hway hwhole, s.regWrite_unimplemented _ _ _ hoff himpl]
  case piece =>
    rw [← hreq] at hserve ⊢
    rw [exec_writeCmd s hc, State.writeCmd_bus hserve hoff hway]
    unfold State.busWrite
    rw [hreq]
    dsimp only
    rw [if_neg (by unfold bar4Window; omega), if_pos ⟨hwhole, hoff⟩]
  case outside =>
    obtain ⟨haer, hout, hothers⟩ := s.unsupportedReq_spec h
    have hexec : exec (.registerWrite w) s = .next (s.unsupportedReq h) := by
      rw [← hreq] at hserve
      show Host.Outcome.next (s.writeCmd w 0) = _
      rw [State.writeCmd_beyond hserve (by omega) (by unfold bar4Window; omega), s.regWrite_outside _ _ _ (by unfold mapWindow; omega), hreq]
      rfl
    exact ⟨_, hexec, haer, hout, hothers, by simp⟩
  case aliasZero =>
    subst hway
    rw [exec_writeCmd s hc, State.writeCmd_regWrite hserve hoff rfl hwhole, hw, s.regWrite_alias_zero _ _ hoff himpl h0]
  case image =>
    subst ho hway
    have ho : w.off % 0x4000 < 0x10000 := by omega
    have hkey := s.keyOff_keyFor w.req ho
    have hkeyMask := s.keyMask_keyFor w.req ho
    have hoffset : 0x4000 * aliasOf w.off + keyOff (s.keyFor w.req (w.off % 0x4000)) = w.off := by
      rw [hkey]
      exact Nat.div_add_mod _ _
    have hexec : exec c s = .next (s.pendPut (s.keyFor w.req (w.off % 0x4000)) w.req
        (blend (writeMask (s.keyFor w.req (w.off % 0x4000)))
          (aliasValue (aliasOf w.off) (s.aliasBase (s.keyFor w.req (w.off % 0x4000))) w.value)
          (s.aliasBase (s.keyFor w.req (w.off % 0x4000)))) (s.dueOf w.at_ns) false w.off) := by
      rw [exec_writeCmd s hc, State.writeCmd_regWrite hserve hoff rfl hwhole, s.regWrite_regPut _ _ hoff himpl hmask hw,
        s.regPut_boundary _ _ _ hown hsaf hhat (fun _ h => hact (List.mem_append_left [R.MFE_ENC_REREF 0, R.MFE_ENC_REREF 1, R.MFE_ENC_REREF 2] h)),
        s.boundaryWrite_image _ _ hlt, hoffset]
      · rw [hkeyMask]
        exact and_keyMask_mono (by simp) hmask
      · rw [hkey]
        exact fun h => hact (List.mem_append_right [R.STR_ACTION, R.TRK_ACTION, R.PRT_RESET, R.DBG_HALT] h)
      · rwa [writeMask, hkeyMask]
    exact ⟨_, hexec, s.reg_withPend _, by simp, rfl⟩
  case ltClear =>
    subst ho
    have ho : w.off % 0x4000 < 0x10000 := by omega
    have hval : w.value ≠ 0 := by
      intro h
      rw [h] at hlt
      exact hlt (ltHit_zero _)
    have hexec : exec (.clearAliasWrite w) s = .next { s with regs := { s.regs with pend := s.regs.pend ++
        [.ltClear (s.keyFor w.req (w.off % 0x4000)) w.req (ltHit (s.keyFor w.req (w.off % 0x4000)) w.value) (s.dueOf w.at_ns)] } } := by
      show Host.Outcome.next (s.writeCmd w 2) = _
      rw [State.writeCmd_regWrite hserve hoff hway hwhole, s.regWrite_regPut _ _ hoff himpl hmask (fun _ => hval), hway,
        s.regPut_boundary _ _ _ hown hsaf hhat (fun h => by cases h), s.boundaryWrite_ltClear _ _ hlt]
      rwa [writeMask, s.keyMask_keyFor w.req ho]
    exact ⟨_, hexec, s.reg_withPend _, by simp, rfl⟩
  case own =>
    subst ho hway
    have ho : w.off % 0x4000 < 0x10000 := by omega
    have himpl := implemented_of_ownReg hown
    obtain ⟨v, hv⟩ : ∃ v, v = blend (writeMask (w.off % 0x4000))
        (aliasValue (aliasOf w.off) (s.reg (ownKey w.req (w.off % 0x4000))) w.value) (s.reg (ownKey w.req (w.off % 0x4000))) := ⟨_, rfl⟩
    by_cases hzero : aliasOf w.off ≠ 0 ∧ w.value = 0
    · obtain ⟨h0, hw⟩ := hzero
      have hexec : exec c s = .next s := by
        rw [exec_writeCmd s hc, State.writeCmd_regWrite hserve hoff rfl hwhole, hw, s.regWrite_alias_zero _ _ hoff himpl h0]
      refine ⟨s, hexec, ?_, .refl _ s, Frame.refl s⟩
      rw [hw, aliasValue_zero (alias_of_mem hc h0), blend_self]
    · have hexec : exec c s = .next (s.setReg (ownKey w.req (w.off % 0x4000)) v) := by
        rw [exec_writeCmd s hc, State.writeCmd_regWrite hserve hoff rfl hwhole,
          s.regWrite_regPut _ _ hoff himpl hmask (fun h0 hw => hzero ⟨h0, hw⟩), s.regPut_own _ _ _ _ hown ho hsel, hv]
      exact ⟨_, hexec, by rw [State.reg_setReg, if_pos rfl, hv], s.setReg_regsBut _ _, by simp⟩
  case map =>
    have hexec : exec (.registerWrite w) s = .next { s with regs := { s.regs with pend := s.regs.pend ++
        [.map h w.req (BitVec.ofNat 16 w.value.toNat) (s.dueOf w.at_ns) false] } } := by
      show Host.Outcome.next (s.writeCmd w 0) = _
      rw [State.writeCmd_beyond hserve (by unfold mapWindow at hoff; omega) (by unfold mapWindow at hoff; unfold bar4Window; omega), hoff,
        s.regWrite_map _ _ hh hw]
    exact ⟨_, hexec, s.reg_withPend _, by simp, rfl⟩

end Sys2Proof.Machine
end

section
/-! PROOFS. Pending writes take effect (O51): an image that a rule takes, one that is refused or ignored, a map entry, and one that is not
due or is held. -/

namespace Sys2Proof.Machine

theorem keyOff_of_lt {k : Nat} (h : k < 0x10000) : keyOff k = k := Nat.mod_eq_of_lt h

/-! An image. -/

/-- An image of a requester that may write it, and that a rule makes v of, puts v. -/
theorem State.applyImage_puts {s : State} {key : Nat} {r : Requester} {img v : Word} (off : Nat)
    (hmay : s.mayPut r key (blend (writeMask key) img (s.reg key)) = true)
    (hrule : s.fieldRule key (blend (writeMask key) img (s.reg key)) = some v) : s.applyImage key r img false off = s.putImage key v := by
  unfold State.applyImage
  dsimp only
  rw [hmay, if_pos rfl, hrule]

theorem State.applyImage_refused {s : State} {key : Nat} {r : Requester} {img : Word} (off : Nat)
    (hmay : s.mayPut r key (blend (writeMask key) img (s.reg key)) = false) : s.applyImage key r img false off = s.logErr r 4 off := by
  unfold State.applyImage
  dsimp only
  rw [hmay, if_neg (by decide)]

theorem State.applyImage_ignored {s : State} {key : Nat} {r : Requester} {img : Word} (off : Nat)
    (hmay : s.mayPut r key (blend (writeMask key) img (s.reg key)) = true)
    (hrule : s.fieldRule key (blend (writeMask key) img (s.reg key)) = none) : s.applyImage key r img false off = s.logErr r 5 off := by
  unfold State.applyImage
  dsimp only
  rw [hmay, if_pos rfl, hrule]
  rfl

/-- A register whose new value has no other effect is set. -/
theorem State.putImage_plain (s : State) {key : Nat} (v : Word) (hown : ¬ (R.HAT_OWN 0 ≤ keyOff key ∧ keyOff key ≤ R.HAT_OWN 79))
    (hlist : keyOff key ∉ [R.CTL_ACTIVE_BANK_LO, R.CTL_ACTIVE_BANK_HI, R.EDG_PROF_DATA])
    (hwin : ¬ (R.MFE_WIN_LO 0 ≤ keyOff key ∧ keyOff key ≤ R.MFE_WIN_HI 47))
    (hcmp : ¬ (R.MFE_CMP_CFG 0 ≤ keyOff key ∧ keyOff key ≤ R.MFE_CMP_STAT 15)) (hmtr : ¬ (0x2C00 ≤ keyOff key ∧ keyOff key < 0x3000))
    (hlim : ¬ (R.PRT_LIM 0 ≤ keyOff key ∧ keyOff key ≤ R.PRT_LIM 15)) : s.putImage key v = s.setReg key v := by
  simp only [List.mem_cons, List.not_mem_nil, or_false, not_or] at hlist
  obtain ⟨hlo, hhi, hprof⟩ := hlist
  unfold State.putImage
  dsimp only
  rw [if_neg hown, if_neg hlo, if_neg hhi, if_neg hprof, if_neg hwin, if_neg (fun h => hcmp ⟨h.1, h.2.1⟩), if_neg hmtr, if_neg hlim]

/-- A limit that comes into force is stored for A. -/
theorem State.putImage_lim (s : State) {l : Nat} (v : Word) (hl : l < 8) :
    s.putImage (R.PRT_LIM l) v = (s.setReg (R.PRT_LIM l) v).prtStoreLim l v := by
  have hoff : keyOff (R.PRT_LIM l) = R.PRT_LIM l := keyOff_of_lt (by simp only [R.PRT_LIM]; omega)
  have hidx : (R.PRT_LIM l - R.PRT_LIM 0) / 4 = l := by simp only [R.PRT_LIM]; omega
  unfold State.putImage
  dsimp only
  rw [hoff, if_neg, if_neg, if_neg, if_neg, if_neg, if_neg, if_neg, if_pos, hidx] <;>
    simp only [R.PRT_LIM, R.HAT_OWN, R.CTL_ACTIVE_BANK_LO, R.CTL_ACTIVE_BANK_HI, R.EDG_PROF_DATA, R.MFE_WIN_LO, R.MFE_WIN_HI, R.MFE_CMP_CFG,
      R.MFE_CMP_STAT] <;> omega

theorem State.cmpTested_setReg (s : State) (k : Nat) (v : Word) (j : Nat) : (s.setReg k v).cmpTested j = s.cmpTested j := rfl

/-- BLOCK_EN that comes into force while the comparator's output is 1 fires the block logic (R54). -/
theorem State.putImage_blockEn (s : State) {j : Nat} {v : Word} (hj : j < 16) (hblock : flag v 6 = true) (hen : flag v 0 = true)
    (hold : s.rb (R.MFE_CMP_CFG j) 6 = false) (hout : (smGet {} s.mfe.cmps j).out = true) (htest : s.cmpTested j = false) :
    s.putImage (R.MFE_CMP_CFG j) v = (s.setReg (R.MFE_CMP_CFG j) v).blockFire j 0 := by
  have hoff : keyOff (R.MFE_CMP_CFG j) = R.MFE_CMP_CFG j := keyOff_of_lt (by simp only [R.MFE_CMP_CFG]; omega)
  have hidx : (R.MFE_CMP_CFG j - R.MFE_CMP_CFG 0) / 16 = j := by simp only [R.MFE_CMP_CFG]; omega
  have hout' : (smGet {} (s.setReg (R.MFE_CMP_CFG j) v).mfe.cmps j).out = true := hout
  have hold' : flag (s.reg (R.MFE_CMP_CFG j)) 6 = false := hold
  unfold State.putImage
  dsimp only
  rw [hoff, if_neg, if_neg, if_neg, if_neg, if_neg, if_pos, hidx, hblock, hen, hold', hout', s.cmpTested_setReg, htest]
  · rfl
  all_goals
    simp only [R.HAT_OWN, R.CTL_ACTIVE_BANK_LO, R.CTL_ACTIVE_BANK_HI, R.EDG_PROF_DATA, R.MFE_WIN_LO, R.MFE_WIN_HI, R.MFE_CMP_CFG,
      R.MFE_CMP_STAT]
    omega

/-! The writes that wait. -/

/-- The state with a list of writes that wait. -/
def State.withPend (s : State) (l : List Pending) : State := { s with regs := { s.regs with pend := l } }

theorem State.withPend_reg (s : State) (l : List Pending) (k : Nat) : (s.withPend l).reg k = s.reg k := rfl

theorem State.withPend_writeHeld (s : State) (l : List Pending) (k : Nat) (w : Word) : (s.withPend l).writeHeld k w = s.writeHeld k w := rfl

theorem State.withPend_mayPut (s : State) (l : List Pending) (r : Requester) (k : Nat) (w : Word) :
    (s.withPend l).mayPut r k w = s.mayPut r k w := rfl

theorem State.withPend_sys (s : State) (l : List Pending) : (s.withPend l).sys = s.sys := rfl

/-- The registers after a boundary with one waiting write that is not an action of metering. -/
theorem State.applyDue_single {s : State} {p : Pending} (hp : s.regs.pend = [p]) (hm : mtrPend p = false) :
    s.applyDue.regs = ((s.withPend []).applyAll [p]).regs := by
  unfold State.applyDue
  rw [hp]
  simp only [List.filter_cons, hm, List.filter_nil]
  rfl

theorem State.applyAll_waits {s : State} {p : Pending} (hdue : s.pendDue p = false) (hfirst : s.firstRefused p = none) :
    s.applyAll [p] = (s.withPend (s.regs.pend ++ [p])).genMark p := by
  show (if s.pendDue p then s.applyPending p else _) = _
  rw [hdue, if_neg (by decide), hfirst]
  rfl

theorem State.applyAll_dropped {s : State} {p : Pending} {r : Requester} {off : Nat} (hdue : s.pendDue p = false)
    (hfirst : s.firstRefused p = some (r, off)) : s.applyAll [p] = s.logErr r 4 off := by
  show (if s.pendDue p then s.applyPending p else _) = _
  rw [hdue, if_neg (by decide), hfirst]

theorem epGe_self (e : Epoch) : epGe e e = true := by
  unfold epGe
  simp

theorem State.firstRefused_of_not_due {s : State} {key off : Nat} {r : Requester} {img : Word} {due : Epoch} {b : Bool}
    (h : epGe s.sys.epoch due = false) : s.firstRefused (.image key r img due b off) = none := by
  have hne : due ≠ s.sys.epoch := by
    rintro rfl
    rw [epGe_self] at h
    cases h
  unfold State.firstRefused
  simp [hne]

/-- A configuration write that is not due marks no generator. -/
theorem State.genMark_of_not_due {s : State} {key off : Nat} {r : Requester} {img : Word} {due : Epoch} {b : Bool}
    (h : epGe s.sys.epoch due = false) : s.genMark (.image key r img due b off) = s := by
  unfold State.genMark
  dsimp only
  split
  · rw [h, Bool.and_false, if_neg (by decide)]
  · rfl

/-! The error log of a Hatch. -/

/-- The state after an entry is in the error log of a Hatch with its address word, before its cause bit. -/
def State.hatLogged (s : State) (h : Fin 4) (kind : Nat) (addr : Word) : State :=
  ((((s.count (bankKey h.val R.HAT_ERR_LOG) 15 0).setRf (bankKey h.val R.HAT_ERR_LOG) 23 16 kind).noteLt (bankKey h.val R.HAT_ERR_LOG)
    (maskOf 23 16)).setReg (bankKey h.val R.HAT_ERR_ADDR) addr).noteLt (bankKey h.val R.HAT_ERR_ADDR) (maskOf 20 0)

theorem State.hatCause_eq (s : State) (h : Fin 4) (b : Nat) :
    s.hatCause h b = if flag ((s.latch (bankKey h.val R.HAT_CAUSE) b).reg (bankKey h.val R.HAT_CTRL)) 22 then
      (s.latch (bankKey h.val R.HAT_CAUSE) b).signal h (fld ((s.latch (bankKey h.val R.HAT_CAUSE) b).reg (bankKey h.val R.HAT_CTRL)) 21 16)
    else s.latch (bankKey h.val R.HAT_CAUSE) b := rfl

theorem State.hatCause_regs (s : State) (h : Fin 4) (b : Nat) : (s.hatCause h b).regs = (s.latch (bankKey h.val R.HAT_CAUSE) b).regs := by
  rw [s.hatCause_eq h b]
  split
  · exact keep_regs (by simp)
  · rfl

theorem State.logErr_hatch (s : State) (h : Fin 4) (kind off : Nat) : ∃ addr : Word,
    s.logErr (.hatch h) kind off = (s.hatLogged h kind addr).hatCause h 2 := ⟨_, rfl⟩

/-- An entry in the error log of a Hatch changes its error registers and sets its cause bit (R399). -/
theorem State.logErr_hatch_regs (s : State) (h : Fin 4) (kind off : Nat) : ∃ addr : Word,
    (s.logErr (.hatch h) kind off).regs = ((s.hatLogged h kind addr).latch (bankKey h.val R.HAT_CAUSE) 2).regs := by
  obtain ⟨addr, hlog⟩ := s.logErr_hatch h kind off
  exact ⟨addr, by rw [hlog, State.hatCause_regs]⟩

theorem State.latch_pend (s : State) (k b : Nat) : (s.latch k b).regs.pend = s.regs.pend := rfl

theorem State.count_pend (s : State) (k hi lo : Nat) : (s.count k hi lo).regs.pend = s.regs.pend := rfl

theorem State.setRf_pend (s : State) (k hi lo v : Nat) : (s.setRf k hi lo v).regs.pend = s.regs.pend := rfl

theorem State.logErr_hatch_pend (s : State) (h : Fin 4) (kind off : Nat) : (s.logErr (.hatch h) kind off).regs.pend = s.regs.pend := by
  obtain ⟨addr, hregs⟩ := s.logErr_hatch_regs h kind off
  rw [hregs, State.latch_pend, State.hatLogged, State.noteLt_pend, State.setReg_pend, State.noteLt_pend, State.setRf_pend,
    State.count_pend]

theorem bankKey_ne {h a b : Nat} (hab : a ≠ b) : bankKey h a ≠ bankKey h b := by
  unfold bankKey
  omega

theorem State.logErr_hatch_regsBut (s : State) (h : Fin 4) (kind off : Nat) :
    RegsBut [bankKey h.val R.HAT_ERR_LOG, bankKey h.val R.HAT_ERR_ADDR, bankKey h.val R.HAT_CAUSE] s (s.logErr (.hatch h) kind off) := by
  intro k hk
  simp only [List.mem_cons, List.not_mem_nil, or_false, not_or] at hk
  obtain ⟨hlog, haddr, hcause⟩ := hk
  obtain ⟨addr, hregs⟩ := s.logErr_hatch_regs h kind off
  rw [State.reg_congr hregs, State.reg_latch, if_neg hcause, State.hatLogged, State.reg_noteLt, State.reg_setReg,
    if_neg haddr, State.reg_noteLt, State.reg_setRf, if_neg hlog, State.reg_count, if_neg hlog]

theorem State.logErr_hatch_kind (s : State) (h : Fin 4) {kind : Nat} (off : Nat) (hk : kind < 256) :
    (s.logErr (.hatch h) kind off).rf (bankKey h.val R.HAT_ERR_LOG) 23 16 = kind := by
  have hreg : (s.logErr (.hatch h) kind off).reg (bankKey h.val R.HAT_ERR_LOG) =
      ((s.count (bankKey h.val R.HAT_ERR_LOG) 15 0).setRf (bankKey h.val R.HAT_ERR_LOG) 23 16 kind).reg (bankKey h.val R.HAT_ERR_LOG) := by
    obtain ⟨addr, hregs⟩ := s.logErr_hatch_regs h kind off
    rw [State.reg_congr hregs, State.reg_latch, if_neg (bankKey_ne (by decide)), State.hatLogged, State.reg_noteLt,
      State.reg_setReg, if_neg (bankKey_ne (by decide)), State.reg_noteLt]
  rw [State.rf, hreg]
  exact (State.rf_setRf _ _ 23 16 _ (by decide)).trans (Nat.mod_eq_of_lt hk)

/-- Settles O51: each clause is the one case of applyImage, applyMap or applyDue that it speaks of. -/
theorem pendingImageApplies : Obligations.PendingImageApplies := by
  refine ⟨fun key off r img v due s => ?plain, fun l off r img v due s hl hmay hrule => ?lim,
    fun j off r img v due s hj hmay hrule hblock hen hold hout htest => ?block, fun key off r img due s hmay => s.applyImage_refused off hmay,
    fun key off r img due s hmay hrule => s.applyImage_ignored off hmay hrule, fun h e due s hoff hok hcounts => ?map,
    fun h e due s hbad => ?mapBad, fun key off r img due b s hdue hpend => ?waits, fun key off h img b s hclass hheld hmay hpend => ?dropped⟩
  case plain =>
    intro w o hmay hrule hown hlist hwin hcmp hmtr hlim t
    have ht : t = s.setReg key v := (State.applyImage_puts off hmay hrule).trans (s.putImage_plain v hown hlist hwin hcmp hmtr hlim)
    obtain ⟨hA, hB, hC⟩ := s.regs.copies_put key v key
    rw [if_pos rfl] at hA hB hC
    rw [ht]
    exact ⟨by rw [State.reg_setReg, if_pos rfl], hA, hB, hC, s.setReg_regsBut key v, by simp⟩
  case lim =>
    intro t
    have ht : t = (s.setReg (R.PRT_LIM l) v).prtStoreLim l v := (State.applyImage_puts off hmay hrule).trans (s.putImage_lim v hl)
    have hregs : t.regs = (s.setReg (R.PRT_LIM l) v).regs := by rw [ht]; rfl
    refine ⟨?_, ?_, rfl, ?_, ?_⟩
    · rw [State.reg_congr hregs, State.reg_setReg, if_pos rfl]
    · have hlim : t.prt.limA = smSet 0 s.prt.limA l (ofF32 v * (2 ^ 24 : Nat)).floor := by rw [ht]; rfl
      unfold State.prtLim
      rw [if_pos rfl, hlim, smGet_smSet, if_pos rfl]
    · intro k hk
      rw [State.reg_congr hregs]
      exact s.setReg_regsBut _ v k hk
    · rw [ht]
      simp
  case block =>
    intro t
    have ht : t = (s.setReg (R.MFE_CMP_CFG j) v).blockFire j 0 :=
      (State.applyImage_puts off hmay hrule).trans (s.putImage_blockEn hj hblock hen hold hout htest)
    rw [ht]
    exact ⟨State.blockFire_blocks _ _ _, State.blockFire_firedNow _ _ _, State.blockFire_prtCause _ _ _, by simp⟩
  case map =>
    show s.applyMap h .mgmt e false = _
    unfold State.applyMap
    dsimp only
    rw [if_neg (by simp [State.mayMap]), if_pos ⟨hoff, hok, hcounts⟩]
  case mapBad =>
    show s.applyMap h .mgmt e false = _
    unfold State.applyMap
    dsimp only
    rw [if_neg (by simp [State.mayMap]), if_neg]
    · rfl
    · rintro ⟨hoff, hok, -⟩
      rcases hbad with h' | h'
      · exact h' hoff
      · rw [h'] at hok
        cases hok
  case waits =>
    have hnot : (s.withPend []).pendDue (.image key r img due b off) = false := by simp [State.pendDue, s.withPend_sys, hdue]
    have hmark (l : List Pending) : ((s.withPend []).withPend l).genMark (.image key r img due b off) = (s.withPend []).withPend l :=
      State.genMark_of_not_due hdue
    have hregs := State.applyDue_single hpend rfl
    rw [State.applyAll_waits hnot (State.firstRefused_of_not_due hdue), hmark] at hregs
    refine ⟨?_, fun k => ?_⟩
    · rw [hregs, hpend]
      rfl
    · rw [State.reg_congr hregs, State.withPend_reg, State.withPend_reg]
  case dropped =>
    have hnot : (s.withPend []).pendDue (.image key (.hatch h) img s.sys.epoch b off) = false := by
      simp [State.pendDue, s.withPend_writeHeld, hheld]
    have hfirst : (s.withPend []).firstRefused (.image key (.hatch h) img s.sys.epoch b off) = some (.hatch h, off) := by
      simp [State.firstRefused, hclass, s.withPend_mayPut, s.withPend_reg, s.withPend_sys, hmay]
    have hregs := State.applyDue_single hpend rfl
    rw [State.applyAll_dropped hnot hfirst] at hregs
    refine ⟨?_, ?_, fun k hk => ?_⟩
    · rw [hregs, State.logErr_hatch_pend]
      rfl
    · rw [State.rf, State.reg_congr hregs]
      exact State.logErr_hatch_kind _ h off (by decide)
    · rw [State.reg_congr hregs, State.logErr_hatch_regsBut _ h 4 off k hk, s.withPend_reg]

end Sys2Proof.Machine
end

section
/-! PROOFS. Input faults of the Measurement Front End (O7): what a latched bit leaves of the other bits, and the four transitions. -/

namespace Sys2Proof.Machine

/-- A latched bit changes no other bit. -/
theorem State.rb_latch_ne (s : State) {k b k' b' : Nat} (hb : b < 32) (h : k' ≠ k ∨ b' ≠ b) : (s.latch k b).rb k' b' = s.rb k' b' := by
  unfold State.rb
  rw [State.reg_latch]
  split
  · next hk =>
    have hb' : b' ≠ b := h.resolve_left (not_not.mpr hk)
    rw [flag_setFld_ne _ _ _ _ _ hb (by omega), hk]
  · rfl

@[simp] theorem State.input_latch (s : State) (k b i : Nat) : (s.latch k b).input i = s.input i := rfl

/-- Two registers that change one after the other are all that changes. -/
theorem RegsBut.pair {a b : Nat} {s t u : State} (h : RegsBut [a] s t) (h' : RegsBut [b] t u) : RegsBut [a, b] s u :=
  (h.mono (by simp)).trans (h'.mono (by simp))

/-- The pair p in cross-check failure, or out of it (R51). -/
def State.setXfail (s : State) (p : Nat) (x : Bool) : State :=
  { s with mfe := { s.mfe with pairs := smSet {} s.mfe.pairs p { smGet {} s.mfe.pairs p with xfail := x } } }

@[simp] theorem State.pairs_setXfail (s : State) (p q : Nat) (x : Bool) :
    smGet {} (s.setXfail p x).mfe.pairs q = if q = p then { smGet {} s.mfe.pairs p with xfail := x } else smGet {} s.mfe.pairs q :=
  smGet_smSet _ _ _ _ _

@[simp] theorem State.setXfail_frame {W : List Part} {r s : State} (p : Nat) (x : Bool) (hW : .mfe ∈ W) :
    Frame W r (s.setXfail p x) ↔ Frame W r s := Frame.set_mfe _ hW

theorem exec_openWireDeclare {i : Nat} {s : State} (hrun : 4 ≤ (s.input i).overRun) (hopen : (s.input i).isOpen = false) :
    exec (.openWireDeclare i) s =
      .next (((s.updInput i fun a => { a with isOpen := true, cleanEp := 0 }).latch (R.MFE_INSTAT i) 29).latch R.MFE_CAUSE 2) :=
  if_pos ⟨hrun, hopen⟩

theorem exec_openWireClear {i : Nat} {s : State} (hopen : (s.input i).isOpen = true) (hclean : 64 ≤ (s.input i).cleanEp) :
    exec (.openWireClear i) s = .next (s.updInput i fun a => { a with isOpen := false }) :=
  if_pos ⟨hopen, hclean⟩

theorem exec_xchkFailure {p : Nat} {s : State} (hok : (smGet {} s.mfe.pairs p).xfail = false)
    (hlim : s.xchkLimit ≤ (smGet {} s.mfe.pairs p).fails) :
    exec (.xchkFailure p) s = .next ((s.setXfail p true).latch R.MFE_CAUSE 3) :=
  if_pos ⟨hok, hlim⟩

theorem exec_xchkRecovery {p : Nat} {s : State} (hfail : (smGet {} s.mfe.pairs p).xfail = true)
    (hlim : s.xchkLimit ≤ (smGet {} s.mfe.pairs p).passes) : exec (.xchkRecovery p) s = .next (s.setXfail p false) :=
  if_pos ⟨hfail, hlim⟩

/-- Settles O7: each transition is its update of the one input or pair, with the bits that it latches. -/
theorem inputFaults : Obligations.InputFaults := by
  refine ⟨fun i s hrun hopen => ?declare, fun i s hopen hclean => ?clear, fun p s hok hlim => ?failure, fun p s hfail hlim => ?recovery⟩
  case declare =>
    refine ⟨_, exec_openWireDeclare hrun hopen, ?_, fun j hj => ?_, ?_, State.rb_latch _ _ _ (by decide), ?_, by simp⟩
    · rw [State.input_latch, State.input_latch, State.input_updInput, if_pos rfl]
    · rw [State.input_latch, State.input_latch, State.input_updInput, if_neg hj]
    · rw [State.rb_latch_ne _ (by decide) (.inr (by decide)), State.rb_latch _ _ _ (by decide)]
    · exact (State.latch_regsBut _ _ _).pair (State.latch_regsBut _ _ _)
  case clear =>
    refine ⟨_, exec_openWireClear hopen hclean, ?_, fun j hj => ?_, by simp⟩
    · rw [State.input_updInput, if_pos rfl]
    · rw [State.input_updInput, if_neg hj]
  case failure =>
    refine ⟨_, exec_xchkFailure hok hlim, ?_, fun q hq => ?_, State.rb_latch _ _ _ (by decide), ?_, by simp⟩
    · rw [State.latch_mfe, State.pairs_setXfail, if_pos rfl]
    · rw [State.latch_mfe, State.pairs_setXfail, if_neg hq]
    · exact (s.setXfail p true).latch_regsBut _ _
  case recovery =>
    refine ⟨_, exec_xchkRecovery hfail hlim, ?_, fun q hq => ?_, by simp⟩
    · rw [State.pairs_setXfail, if_pos rfl]
    · rw [State.pairs_setXfail, if_neg hq]

end Sys2Proof.Machine
end

section
/-! PROOFS. Sampling and delivery (O6): what a fold over an index leaves of one index's part of the state, the samples that a slot instant
adds, and the measurement words. -/

namespace Sys2Proof.Machine

/-! Folds over an index. -/

/-- A view that no step of a fold changes is unchanged by the fold. -/
theorem view_foldl_eq {A B : Type} {f : State → A → State} {view : State → B} {l : List A} (s : State)
    (h : ∀ y, ∀ a ∈ l, view (f y a) = view y) : view (l.foldl f s) = view s :=
  List.foldlRecOn (motive := fun t => view t = view s) l f rfl fun t ht a ha => (h t a ha).trans ht

/-- A view that only step k of a fold over the indices below n may change is after the fold what step k makes of it, in a state with the
view as it was before the fold. -/
theorem view_foldl_range {B : Type} {f : State → Nat → State} {view : State → B} {n k : Nat} (hk : k < n) (s : State)
    (h : ∀ y a, a ≠ k → view (f y a) = view y) :
    ∃ u : State, view u = view s ∧ view ((List.range n).foldl f s) = view (f u k) := by
  induction n with
  | zero => exact absurd hk (Nat.not_lt_zero k)
  | succ n ih =>
    simp only [List.range_succ, List.foldl_append, List.foldl_cons, List.foldl_nil]
    rcases Nat.lt_succ_iff_lt_or_eq.mp hk with hlt | rfl
    · obtain ⟨u, hu, hfold⟩ := ih hlt
      exact ⟨u, hu, (h _ n (by omega)).trans hfold⟩
    · exact ⟨_, view_foldl_eq s fun y a ha => h y a (List.mem_range.mp ha).ne, rfl⟩

/-! Samples. -/

/-- What sampling records of an input: the samples of this epoch and of the one before, and its over-range run (R40, R46). -/
def State.sampled (s : State) (i : Nat) : List Sample × List Sample × Nat :=
  ((s.input i).cur, (s.input i).prev, (s.input i).overRun)

/-- The record of an input after a sample of it. -/
def withSample (x : Sample) (a : List Sample × List Sample × Nat) : List Sample × List Sample × Nat :=
  (a.1 ++ [x], a.2.1, if x.ovr then a.2.2 + 1 else 0)

theorem State.sampled_congr {s t : State} (h : t.mfe.inputs = s.mfe.inputs) (i : Nat) : t.sampled i = s.sampled i := by
  simp only [State.sampled, State.input, h]

/-- A sample's over-range bit is the detector's 10.24 V of its input (R46). -/
theorem State.takeSample_ovr (s : State) (i : Nat) (g8 : Bool) (nv ovrNv : Int) (given : Bool) :
    (s.takeSample i g8 nv ovrNv given).1.ovr = decide (10240000000 < ovrNv.natAbs) := rfl

theorem State.takeSample_mfe (s : State) (i : Nat) (g8 : Bool) (nv ovrNv : Int) (given : Bool) :
    (s.takeSample i g8 nv ovrNv given).2.mfe = s.mfe := keep_mfe (by simp)

theorem State.checkPair_inputs (s : State) (p : Nat) (a b : Sample) : (s.checkPair p a b).mfe.inputs = s.mfe.inputs := by
  simp only [State.checkPair]
  (repeat' split) <;> rfl

theorem State.checkPair_encs (s : State) (p : Nat) (a b : Sample) : (s.checkPair p a b).mfe.encs = s.mfe.encs := by
  simp only [State.checkPair]
  (repeat' split) <;> rfl

/-- A sample is recorded in its input and in no other. -/
theorem State.addSample_sampled (s : State) (i j : Nat) (x : Sample) :
    (s.addSample i x).sampled j = if j = i then withSample x (s.sampled i) else s.sampled j := by
  unfold State.addSample
  extract_lets down u
  have hu : u.sampled j = if j = i then withSample x (s.sampled i) else s.sampled j := by
    rw [State.sampled, State.input_updInput]
    split <;> rfl
  split
  · exact (State.sampled_congr rfl j).trans hu
  · exact hu

theorem State.addSample_encs (s : State) (i : Nat) (x : Sample) : (s.addSample i x).mfe.encs = s.mfe.encs := by
  unfold State.addSample
  extract_lets down u
  split <;> rfl

/-- The slot of a pair, in a check slot or not, adds one sample to each of its two inputs, with the detector of that input (R40, R46). -/
theorem State.samplePair_adds (s : State) (slot p : Nat) (va vb : SampleIn) : ∃ (u : State) (x y : Sample),
    u.mfe.inputs = s.mfe.inputs ∧ u.mfe.encs = s.mfe.encs ∧ x.ovr = decide (10240000000 < va.nv.natAbs) ∧
      y.ovr = decide (10240000000 < vb.nv.natAbs) ∧ s.samplePair slot p va vb = (u.addSample (2 * p) x).addSample (2 * p + 1) y := by
  simp only [State.samplePair]
  split
  · refine ⟨_, _, _, ?_, ?_, ?_, ?_, rfl⟩
    · rw [State.checkPair_inputs, State.takeSample_mfe, State.takeSample_mfe]
    · rw [State.checkPair_encs, State.takeSample_mfe, State.takeSample_mfe]
    · exact State.takeSample_ovr _ _ _ _ _ _
    · exact State.takeSample_ovr _ _ _ _ _ _
  · refine ⟨_, _, _, ?_, ?_, ?_, ?_, rfl⟩
    · rw [State.takeSample_mfe, State.takeSample_mfe]
    · rw [State.takeSample_mfe, State.takeSample_mfe]
    · exact State.takeSample_ovr _ _ _ _ _ _
    · exact State.takeSample_ovr _ _ _ _ _ _

theorem State.samplePair_encs (s : State) (slot p : Nat) (va vb : SampleIn) : (s.samplePair slot p va vb).mfe.encs = s.mfe.encs := by
  obtain ⟨u, x, y, -, hencs, -, -, heq⟩ := s.samplePair_adds slot p va vb
  rw [heq, State.addSample_encs, State.addSample_encs, hencs]

/-- The slot of pair p leaves the other pairs' inputs alone. -/
theorem State.samplePair_sampled_other (s : State) (slot : Nat) {p i : Nat} (va vb : SampleIn) (hp : p ≠ i / 2) :
    (s.samplePair slot p va vb).sampled i = s.sampled i := by
  obtain ⟨u, x, y, hinputs, -, -, -, heq⟩ := s.samplePair_adds slot p va vb
  rw [heq, State.addSample_sampled, if_neg (by omega), State.addSample_sampled, if_neg (by omega), State.sampled_congr hinputs]

/-- The slot of the pair of input i records one sample of it, over-range by the voltage of input i (R40, R46). -/
theorem State.samplePair_sampled (s : State) (slot i : Nat) (v : Nat → SampleIn) : ∃ x : Sample,
    x.ovr = decide (10240000000 < (v i).nv.natAbs) ∧
      (s.samplePair slot (i / 2) (v (2 * (i / 2))) (v (2 * (i / 2) + 1))).sampled i = withSample x (s.sampled i) := by
  obtain ⟨u, x, y, hinputs, -, hx, hy, heq⟩ := s.samplePair_adds slot (i / 2) (v (2 * (i / 2))) (v (2 * (i / 2) + 1))
  rw [heq, ← State.sampled_congr hinputs]
  rcases Nat.mod_two_eq_zero_or_one i with heven | hodd
  · have hi : i = 2 * (i / 2) := by omega
    refine ⟨x, by rw [hx, ← hi], ?_⟩
    rw [State.addSample_sampled, if_neg (by omega), State.addSample_sampled, if_pos hi, ← hi]
  · have hi : i = 2 * (i / 2) + 1 := by omega
    refine ⟨y, by rw [hy, ← hi], ?_⟩
    rw [State.addSample_sampled, if_pos hi, ← hi, State.addSample_sampled, if_neg (by omega)]

/-! The phases of a slot instant. -/

/-- Every pair samples. -/
def State.slotPairs (s : State) (slot : Nat) (v : List SampleIn) : State :=
  (List.range 24).foldl (fun s p => s.samplePair slot p (v.getD (2 * p) ⟨0, 0⟩) (v.getD (2 * p + 1) ⟨0, 0⟩)) s

/-- The last slot counts the epochs of every input. -/
def State.slotCounts (s : State) (slot : Nat) : State := if slot = 3 then (List.range 48).foldl State.endOfSlots s else s

/-- The comparators' outputs are released. -/
def State.slotReleases (s : State) (v : List SampleIn) : State := (List.range 16).foldl (fun s j => s.cmpRelease j v) s

/-- The lines of encoder k are sampled. -/
def State.sampleEnc (s : State) (enc : List EncLines) (k : Nat) : State :=
  { s with mfe := { s.mfe with encs := smUpd {} s.mfe.encs k (fun e =>
      { e with last := (enc.getD k ⟨false, false, false⟩ :: e.last).take 3 }) } }

/-- A slot instant. -/
def State.slotInstant (s : State) (slot : Nat) (v : List SampleIn) (enc : List EncLines) : State :=
  (List.range 3).foldl (fun s k => s.sampleEnc enc k) (((s.slotPairs slot v).slotCounts slot).slotReleases v)

theorem exec_slotSample (slot : Nat) (v : List SampleIn) (enc : List EncLines) (s : State) :
    exec (.slotSample slot v enc) s = .next (s.slotInstant slot v enc) := rfl

theorem State.slotInstant_frame (s : State) (slot : Nat) (v : List SampleIn) (enc : List EncLines) :
    Frame [.regs, .mfe, .freeCount] s (s.slotInstant slot v enc) := by
  have h : execSlotSample slot v enc s = .next (s.slotInstant slot v enc) := rfl
  exact execSlotSample_frame slot v enc h

theorem State.slotPairs_encs (s : State) (slot : Nat) (v : List SampleIn) : (s.slotPairs slot v).mfe.encs = s.mfe.encs := by
  unfold State.slotPairs
  exact view_foldl_eq (view := fun t => t.mfe.encs) s fun y p _ => y.samplePair_encs slot p _ _

theorem State.slotPairs_sampled (s : State) (slot : Nat) (v : List SampleIn) {i : Nat} (hi : i < 48) : ∃ x : Sample,
    x.ovr = decide (10240000000 < (v.getD i ⟨0, 0⟩).nv.natAbs) ∧ (s.slotPairs slot v).sampled i = withSample x (s.sampled i) := by
  obtain ⟨u, hu, hfold⟩ := view_foldl_range (view := fun t => t.sampled i) (k := i / 2) (n := 24) (by omega) s
    fun y p hp => y.samplePair_sampled_other slot (v.getD (2 * p) ⟨0, 0⟩) (v.getD (2 * p + 1) ⟨0, 0⟩) hp
  obtain ⟨x, hx, hsample⟩ := u.samplePair_sampled slot i fun j => v.getD j ⟨0, 0⟩
  exact ⟨x, hx, by rw [← hu, ← hsample]; exact hfold⟩

theorem State.slotCounts_encs (s : State) (slot : Nat) : (s.slotCounts slot).mfe.encs = s.mfe.encs := by
  unfold State.slotCounts
  split
  · exact view_foldl_eq (view := fun t => t.mfe.encs) s fun _ _ _ => rfl
  · rfl

/-- The counts of quiet and of clean epochs leave what was sampled. -/
theorem State.slotCounts_sampled (s : State) (slot i : Nat) : (s.slotCounts slot).sampled i = s.sampled i := by
  have hend (y : State) (j : Nat) : (y.endOfSlots j).sampled i = y.sampled i := by
    rw [State.endOfSlots, State.sampled, State.input_updInput]
    split
    · next h => rw [h]; rfl
    · rfl
  unfold State.slotCounts
  split
  · exact view_foldl_eq (view := fun t => t.sampled i) s fun y j _ => hend y j
  · rfl

theorem State.cmpRelease_encs (s : State) (j : Nat) (v : List SampleIn) : (s.cmpRelease j v).mfe.encs = s.mfe.encs := by
  simp only [State.cmpRelease]
  split <;> rfl

theorem State.cmpRelease_inputs (s : State) (j : Nat) (v : List SampleIn) : (s.cmpRelease j v).mfe.inputs = s.mfe.inputs := by
  simp only [State.cmpRelease]
  split <;> rfl

theorem State.slotReleases_encs (s : State) (v : List SampleIn) : (s.slotReleases v).mfe.encs = s.mfe.encs := by
  unfold State.slotReleases
  exact view_foldl_eq (view := fun t => t.mfe.encs) s fun y j _ => y.cmpRelease_encs j v

theorem State.slotReleases_sampled (s : State) (v : List SampleIn) (i : Nat) : (s.slotReleases v).sampled i = s.sampled i := by
  unfold State.slotReleases
  exact view_foldl_eq (view := fun t => t.sampled i) s fun y j _ => State.sampled_congr (y.cmpRelease_inputs j v) i

theorem State.sampleEnc_encs (s : State) (enc : List EncLines) (k j : Nat) : smGet {} (s.sampleEnc enc k).mfe.encs j =
    if j = k then { smGet {} s.mfe.encs k with last := (enc.getD k ⟨false, false, false⟩ :: (smGet {} s.mfe.encs k).last).take 3 }
      else smGet {} s.mfe.encs j := by
  unfold State.sampleEnc
  rw [smGet_smUpd]

theorem State.sampleEncs_sampled (s : State) (enc : List EncLines) (i : Nat) :
    ((List.range 3).foldl (fun s k => s.sampleEnc enc k) s).sampled i = s.sampled i :=
  view_foldl_eq (view := fun t => t.sampled i) s fun _ _ _ => rfl

/-- Each encoder keeps its last three samples (R60). -/
theorem State.sampleEncs_last (s : State) (enc : List EncLines) {k : Nat} (hk : k < 3) :
    (smGet {} ((List.range 3).foldl (fun s k => s.sampleEnc enc k) s).mfe.encs k).last =
      (enc.getD k ⟨false, false, false⟩ :: (smGet {} s.mfe.encs k).last).take 3 := by
  obtain ⟨u, hu, hfold⟩ := view_foldl_range (f := fun s k => s.sampleEnc enc k) (view := fun t => smGet {} t.mfe.encs k) hk s
    fun y a ha => by rw [State.sampleEnc_encs, if_neg ha.symm]
  calc _ = (smGet {} (u.sampleEnc enc k).mfe.encs k).last := congrArg EncSt.last hfold
    _ = _ := by rw [State.sampleEnc_encs, if_pos rfl, show smGet {} u.mfe.encs k = _ from hu]

/-- A slot instant records one sample of each input (R40, R46). -/
theorem State.slotInstant_sampled (s : State) (slot : Nat) (v : List SampleIn) (enc : List EncLines) {i : Nat} (hi : i < 48) :
    ∃ x : Sample, x.ovr = decide (10240000000 < (v.getD i ⟨0, 0⟩).nv.natAbs) ∧
      (s.slotInstant slot v enc).sampled i = withSample x (s.sampled i) := by
  obtain ⟨x, hx, hpairs⟩ := s.slotPairs_sampled slot v hi
  refine ⟨x, hx, ?_⟩
  rw [State.slotInstant, State.sampleEncs_sampled, State.slotReleases_sampled, State.slotCounts_sampled, hpairs]

theorem State.slotInstant_last (s : State) (slot : Nat) (v : List SampleIn) (enc : List EncLines) {k : Nat} (hk : k < 3) :
    (smGet {} (s.slotInstant slot v enc).mfe.encs k).last =
      (enc.getD k ⟨false, false, false⟩ :: (smGet {} s.mfe.encs k).last).take 3 := by
  rw [State.slotInstant, State.sampleEncs_last _ enc hk, State.slotReleases_encs, State.slotCounts_encs, State.slotPairs_encs]

/-! The epoch values. -/

/-- The delivery of the measurement word of input i. -/
def State.deliverValue (s : State) (i : Nat) : State := (s.setReg (R.MFE_VAL i) (s.measWord i)).windowMonitor i

/-- A measurement word is made of the inputs and pairs alone. -/
theorem State.measWord_congr {s t : State} (h : t.mfe = s.mfe) (i : Nat) : t.measWord i = s.measWord i := by
  unfold State.measWord State.input
  rw [h]

@[simp] theorem State.windowMonitor_mfe (s : State) (i : Nat) : (s.windowMonitor i).mfe = s.mfe := keep_mfe (by simp)

/-- A window monitor writes its status and MFE_CAUSE only (R52). -/
theorem State.windowMonitor_regsBut (s : State) (i : Nat) : RegsBut [R.MFE_INSTAT i, R.MFE_CAUSE] s (s.windowMonitor i) := by
  intro k hk
  obtain ⟨hstat, hcause⟩ : k ≠ R.MFE_INSTAT i ∧ k ≠ R.MFE_CAUSE := by simpa using hk
  simp only [State.windowMonitor]
  (repeat' split) <;> simp [State.reg_setRf, State.reg_latch, State.reg_count, hstat, hcause]

theorem State.windowMonitor_val (s : State) (i : Nat) {j : Nat} (hj : j < 48) :
    (s.windowMonitor i).reg (R.MFE_VAL j) = s.reg (R.MFE_VAL j) :=
  s.windowMonitor_regsBut i _ (by
    simp only [R.MFE_VAL, R.MFE_INSTAT, R.MFE_CAUSE, List.mem_cons, List.not_mem_nil, or_false]
    omega)

@[simp] theorem State.deliverValue_mfe (s : State) (i : Nat) : (s.deliverValue i).mfe = s.mfe := by
  rw [State.deliverValue, State.windowMonitor_mfe, State.setReg_mfe]

theorem State.deliverValue_val (s : State) (i : Nat) {j : Nat} (hj : j < 48) :
    (s.deliverValue i).reg (R.MFE_VAL j) = if j = i then s.measWord i else s.reg (R.MFE_VAL j) := by
  have hkey : R.MFE_VAL j = R.MFE_VAL i ↔ j = i := by
    simp only [R.MFE_VAL]
    omega
  rw [State.deliverValue, State.windowMonitor_val _ _ hj, State.reg_setReg, if_congr hkey rfl rfl]

theorem State.annexPut_regs (s : State) (n : Epoch) (b : Nat) (vs : List Word) : (s.annexPut n b vs).regs = s.regs := rfl

/-- The delivery of every measurement word. -/
def State.deliverValues (s : State) : State := (List.range 48).foldl State.deliverValue s

theorem exec_epochValueDelivery (s : State) : ∃ vs, exec .epochValueDelivery s =
    .next (s.deliverValues.annexPut (s.deliverValues.sys.epoch - 1) 0x40 vs) := ⟨_, rfl⟩

theorem State.deliverValues_frame (s : State) : Frame [.regs] s s.deliverValues := by
  have hstep (y : State) (i : Nat) : Frame [.regs] y (y.deliverValue i) := by simp [State.deliverValue]
  exact (Frame.foldl hstep).mpr (Frame.refl s)

theorem State.deliverValues_val (s : State) {i : Nat} (hi : i < 48) : s.deliverValues.reg (R.MFE_VAL i) = s.measWord i := by
  unfold State.deliverValues
  obtain ⟨u, hu, hfold⟩ := view_foldl_range (f := State.deliverValue) (view := fun t => (t.reg (R.MFE_VAL i), t.measWord i)) hi s
    fun y a ha => by rw [State.deliverValue_val _ _ hi, if_neg ha.symm, State.measWord_congr (y.deliverValue_mfe a)]
  obtain ⟨-, hword⟩ := Prod.mk.inj hu
  obtain ⟨hval, -⟩ := Prod.mk.inj hfold
  rw [hval, State.deliverValue_val _ _ hi, if_pos rfl, hword]

theorem exec_gainUpSwitch {i : Nat} {s : State} (hmode : s.rf (R.MFE_INCFG i) 9 8 = 2) (hlow : (s.input i).gain8 = false)
    (hdwell : s.rf R.MFE_AGC 15 8 ≤ (s.input i).quiet) :
    exec (.gainUpSwitch i) s = .next (s.updInput i fun a => { a with gain8 := true, quiet := 0 }) :=
  if_pos ⟨hmode, hlow, hdwell⟩

/-- Settles O6: a slot instant by its phases, each of which is a fold that touches an input or an encoder once; the gain switch is one
update; and a delivery writes each VAL word once. -/
theorem samplingAndDelivery : Obligations.SamplingAndDelivery := by
  refine ⟨fun slot v enc s _ => ⟨_, exec_slotSample slot v enc s, fun i hi => ?sample, fun k hk => s.slotInstant_last slot v enc hk,
    s.slotInstant_frame slot v enc⟩, fun i s hmode hlow hdwell => ⟨_, exec_gainUpSwitch hmode hlow hdwell, ?switched, fun j hj => ?other,
    by simp⟩, fun s => ?delivery⟩
  case sample =>
    obtain ⟨x, hx, hsampled⟩ := s.slotInstant_sampled slot v enc hi
    obtain ⟨hcur, hrest⟩ := Prod.mk.inj hsampled
    obtain ⟨hprev, hrun⟩ := Prod.mk.inj hrest
    refine ⟨by rw [hcur]; exact List.length_append, hprev, ?_⟩
    exact hrun.trans (if_congr (by rw [hx, decide_eq_true_iff]) rfl rfl)
  case switched => rw [State.input_updInput, if_pos rfl]
  case other => rw [State.input_updInput, if_neg hj]
  case delivery =>
    obtain ⟨vs, hexec⟩ := exec_epochValueDelivery s
    refine ⟨_, hexec, fun i hi => (State.reg_congr (State.annexPut_regs _ _ _ _) _).trans (s.deliverValues_val hi), ?_⟩
    exact (State.annexPut_frame _ _ _ (by simp)).mpr (s.deliverValues_frame.mono (by simp))

end Sys2Proof.Machine
end

section
/-! PROOFS. Self-tests and encoders (O9): what fields keep when others are written, the two actions, the end of a self-test, and the
evaluation of the encoders. -/

namespace Sys2Proof.Machine

/-! Fields that a write leaves. -/

/-- A field keeps its value when another register or a disjoint field is set. -/
theorem State.rf_setRf_ne (s : State) {k hi lo k' hi' lo' : Nat} (v : Nat) (h : hi < 32) (d : k' ≠ k ∨ hi < lo' ∨ hi' < lo) :
    (s.setRf k hi lo v).rf k' hi' lo' = s.rf k' hi' lo' := by
  unfold State.rf
  rw [State.reg_setRf]
  split
  · next hk => rw [fld_setFld_ne _ _ _ _ _ _ h (d.resolve_left (not_not.mpr hk)), hk]
  · rfl

/-- A field keeps its value when another register or a bit outside it is latched. -/
theorem State.rf_latch_ne (s : State) {k b k' hi' lo' : Nat} (h : b < 32) (d : k' ≠ k ∨ b < lo' ∨ hi' < b) :
    (s.latch k b).rf k' hi' lo' = s.rf k' hi' lo' := s.rf_setRf_ne 1 h d

/-- A field keeps its value when another register or a disjoint field counts. -/
theorem State.rf_count_ne (s : State) {k hi lo k' hi' lo' : Nat} (h : hi < 32) (d : k' ≠ k ∨ hi < lo' ∨ hi' < lo) :
    (s.count k hi lo).rf k' hi' lo' = s.rf k' hi' lo' := s.rf_setRf_ne _ h d

theorem State.rf_setReg_ne (s : State) {k k' : Nat} (v : Word) (hi lo : Nat) (h : k' ≠ k) : (s.setReg k v).rf k' hi lo = s.rf k' hi lo := by
  unfold State.rf
  rw [State.reg_setReg, if_neg h]

theorem State.setRf_regsBut (s : State) (k hi lo v : Nat) : RegsBut [k] s (s.setRf k hi lo v) := s.setReg_regsBut k _

theorem State.count_regsBut (s : State) (k hi lo : Nat) : RegsBut [k] s (s.count k hi lo) := fun _ hk => s.setRf_regsBut k hi lo _ _ hk

/-! The two actions. -/

/-- A field whose bits the mask holds takes the written value. -/
theorem fld_blend (m a b : Word) (hi lo : Nat) (h : ∀ i < hi + 1 - lo, m.getLsbD (lo + i) = true) :
    fld (blend m a b) hi lo = fld a hi lo := by
  apply Nat.eq_of_testBit_eq
  intro i
  rw [fld_testBit, fld_testBit]
  by_cases hi' : i < hi + 1 - lo
  · have hb : lo + i < 32 := BitVec.lt_of_getLsbD (h i hi')
    simp [blend, h i hi']
  · simp [hi']

theorem State.asOwner_eq {s : State} {r : Requester} {off : Nat} (h : s.mayWrite r off = true) (f : State → State) : s.asOwner r off f = f s :=
  if_pos h

theorem State.setArgs_regsBut (s : State) (off : Nat) (w : Word) : RegsBut [off] s (s.setArgs off w) := s.setReg_regsBut off _

theorem State.rf_setArgs (s : State) (off : Nat) (w : Word) (hi lo : Nat) (h : ∀ i < hi + 1 - lo, (writeMask off).getLsbD (lo + i) = true) :
    (s.setArgs off w).rf off hi lo = fld w hi lo := by
  rw [State.rf, State.setArgs, State.reg_setReg, if_pos rfl, fld_blend _ _ _ _ _ h]

@[simp] theorem State.setArgs_mfe (s : State) (off : Nat) (w : Word) : (s.setArgs off w).mfe = s.mfe := rfl

@[simp] theorem State.setArgs_sys (s : State) (off : Nat) (w : Word) : (s.setArgs off w).sys = s.sys := rfl

/-- An action of a requester that may write its register sets its arguments, and acts (R394, R490). -/
theorem State.runAction_owned {s : State} {r : Requester} {off : Nat} (w : Word) (hoff : off ∉ [R.SAF_CONFIRM, R.PRT_RESET, R.DBG_HALT])
    (h : s.mayWrite r off = true) : s.runAction r off w = (s.setArgs off w).actionEffect r off w := by
  simp only [List.mem_cons, List.not_mem_nil, or_false, not_or] at hoff
  obtain ⟨hconf, hreset, hhalt⟩ := hoff
  rw [State.runAction, if_neg hconf, if_neg hreset, if_neg hhalt, State.asOwner_eq h]

theorem State.actionEffect_mfeTest (s : State) (r : Requester) (w : Word) :
    s.actionEffect r R.MFE_TEST w = s.mfeTestStart (fld w 27 24) (fld w 5 0) := rfl

/-- The test is permitted or not by registers other than MFE_TEST (R58). -/
theorem State.testPermitted_setArgs (s : State) (w : Word) (kind target : Nat) :
    (s.setArgs R.MFE_TEST w).testPermitted kind target = s.testPermitted kind target := by
  have hin : (s.setArgs R.MFE_TEST w).reg (R.MFE_INCFG target) = s.reg (R.MFE_INCFG target) :=
    s.setArgs_regsBut _ w _ (by simp only [R.MFE_INCFG, R.MFE_TEST, List.mem_singleton]; omega)
  have hcmp : (s.setArgs R.MFE_TEST w).reg (R.MFE_CMP_CFG target) = s.reg (R.MFE_CMP_CFG target) :=
    s.setArgs_regsBut _ w _ (by simp only [R.MFE_CMP_CFG, R.MFE_TEST, List.mem_singleton]; omega)
  unfold State.testPermitted State.rf State.rb
  rw [hin, hcmp, State.setArgs_sys]

/-- A self-test that starts (R58). -/
def State.withTest (s : State) (kind target : Nat) : State :=
  { s with mfe := { s.mfe with test := some ⟨kind, target, 0, [0, 0, 0], []⟩ } }

theorem State.withTest_regs (s : State) (kind target : Nat) : (s.withTest kind target).regs = s.regs := rfl

theorem State.withTest_rf (s : State) (kind target k hi lo : Nat) : (s.withTest kind target).rf k hi lo = s.rf k hi lo := rfl

@[simp] theorem State.withTest_frame {W : List Part} {r s : State} (kind target : Nat) (hW : .mfe ∈ W) :
    Frame W r (s.withTest kind target) ↔ Frame W r s := Frame.set_mfe _ hW

theorem State.mfeTestStart_permitted {s : State} {kind target : Nat} (hidle : s.mfe.test = none) (hperm : s.testPermitted kind target = true) :
    s.mfeTestStart kind target = (s.withTest kind target).setReg R.MFE_TEST_STAT 1 :=
  if_neg (by simp [hidle, hperm])

/-- The write that asks for a test names its kind and target. -/
theorem State.actWord_mfeTest (s : State) {kind target : Nat} (hk : kind < 16) (ht : target < 64) :
    fld (s.actWord R.MFE_TEST 31 [(27, 24, kind), (5, 0, target)]) 27 24 = kind ∧
      fld (s.actWord R.MFE_TEST 31 [(27, 24, kind), (5, 0, target)]) 5 0 = target := by
  simp only [State.actWord, List.foldl_cons, List.foldl_nil]
  constructor
  · rw [fld_setFld_ne _ _ _ _ _ _ (by decide) (by decide), fld_setFld_same _ _ _ _ (by decide)]
    exact Nat.mod_eq_of_lt hk
  · rw [fld_setFld_same _ _ _ _ (by decide)]
    exact Nat.mod_eq_of_lt ht

/-- KIND and TARGET of MFE_TEST are fields that a write sets (R62). -/
theorem mfeTest_fields_writable : (∀ i < 27 + 1 - 24, (writeMask R.MFE_TEST).getLsbD (24 + i) = true) ∧
    ∀ i < 5 + 1 - 0, (writeMask R.MFE_TEST).getLsbD (0 + i) = true := by decide +kernel

/-- A permitted START: the arguments are set, and the test begins with RESULT busy (R58). -/
theorem exec_mfeTestStart {r : Requester} {kind target : Nat} {s : State} (hk : kind < 16) (ht : target < 64)
    (hmay : s.mayWrite r R.MFE_TEST = true) (hidle : s.mfe.test = none) (hperm : s.testPermitted kind target = true) :
    exec (.mfeTestStart r kind target) s = .next (((s.setArgs R.MFE_TEST
      (s.actWord R.MFE_TEST 31 [(27, 24, kind), (5, 0, target)])).withTest kind target).setReg R.MFE_TEST_STAT 1) := by
  show Host.Outcome.next _ = _
  obtain ⟨hkind, htarget⟩ := s.actWord_mfeTest hk ht
  rw [State.runAction_owned _ (by decide) hmay, State.actionEffect_mfeTest, hkind, htarget,
    State.mfeTestStart_permitted (by rw [State.setArgs_mfe, hidle]) (by rw [State.testPermitted_setArgs, hperm])]

/-- A write of MFE_ENC_REREF acts on the encoder whose register it is (R60). -/
theorem State.actionEffect_encReref (s : State) (r : Requester) {k : Nat} (hk : k < 3) (w : Word) :
    s.actionEffect r (R.MFE_ENC_REREF k) w = s.encReref k w := by
  match k, hk with
  | 0, _ => rfl
  | 1, _ => rfl
  | 2, _ => rfl

theorem exec_encReref {r : Requester} {k : Nat} (pos : Word) {s : State} (hk : k < 3) (hmay : s.mayWrite r (R.MFE_ENC_REREF k) = true) :
    exec (.encReref r k pos) s = .next ((s.setArgs (R.MFE_ENC_REREF k) pos).encReref k pos) := by
  show Host.Outcome.next (if k < 3 then _ else _) = _
  have hoff : R.MFE_ENC_REREF k ∉ [R.SAF_CONFIRM, R.PRT_RESET, R.DBG_HALT] := by
    simp only [R.MFE_ENC_REREF, R.SAF_CONFIRM, R.PRT_RESET, R.DBG_HALT, List.mem_cons, List.not_mem_nil, or_false]
    omega
  rw [if_pos hk, State.runAction_owned _ hoff hmay, State.actionEffect_encReref _ r hk]

/-- The re-reference of an enabled encoder loads its position (R60). -/
theorem State.encReref_pos {s : State} {k : Nat} (pos : Word) (hen : s.rb (R.MFE_ENC_CFG k) 0 = true) :
    (s.encReref k pos).reg (R.MFE_ENC_POS k) = pos := by
  have hne : R.MFE_ENC_POS k ≠ R.MFE_ENC_STAT k := by simp only [R.MFE_ENC_POS, R.MFE_ENC_STAT]; omega
  simp only [State.encReref, hen, if_true]
  split
  · rw [State.reg_setReg, if_pos rfl]
  · rw [State.reg_setRf, if_neg hne, State.reg_setReg, if_pos rfl]

/-- It ends the uncertainty that no illegal transition of the last evaluation keeps (R60). -/
theorem State.encReref_certain {s : State} {k : Nat} (pos : Word) (hen : s.rb (R.MFE_ENC_CFG k) 0 = true)
    (hlegal : (smGet {} s.mfe.encs k).illegal = false) : (s.encReref k pos).rb (R.MFE_ENC_STAT k) 31 = false := by
  simp only [State.encReref, hen, State.setReg_mfe, hlegal, if_true, Bool.false_eq_true, if_false]
  rw [State.rb, State.reg_setRf, if_pos rfl, flag_setFld_same _ _ _ (by decide), Nat.zero_testBit]

theorem State.encReref_regsBut (s : State) (k : Nat) (pos : Word) : RegsBut [R.MFE_ENC_POS k, R.MFE_ENC_STAT k] s (s.encReref k pos) := by
  have hpos := s.setReg_regsBut (R.MFE_ENC_POS k) pos
  simp only [State.encReref]
  exact .ite (.ite (hpos.mono (by simp)) (hpos.pair (State.setRf_regsBut _ _ _ _ _))) (.refl _ s)

/-! The end of a self-test. -/

/-- MFE_TEST_STAT at the end of a self-test: DETAIL and RESULT (R58, R62). -/
def testStatWord (x : SelfTest) : Word :=
  BitVec.ofNat 32 (unsigned 12 (clampInt (-2048) 2047 (testOutcome x).2) * 16 + (if (testOutcome x).1 then 2 else 3))

theorem fld_testStatWord (x : SelfTest) : fld (testStatWord x) 2 0 = if (testOutcome x).1 then 2 else 3 := by
  rw [fld, bits, testStatWord, BitVec.toNat_ofNat]
  split <;> omega

theorem exec_selfTestComplete {x : SelfTest} {s : State} (htest : s.mfe.test = some x) (hdone : testDuration x.kind ≤ x.ep) :
    exec .selfTestComplete s =
      .next ((({ s with mfe := { s.mfe with test := none } } : State).setReg R.MFE_TEST_STAT (testStatWord x)).latch R.MFE_CAUSE 5) := by
  show execSelfTestComplete s = _
  simp only [execSelfTestComplete, htest, hdone, if_true]
  rfl

/-! The evaluation of the encoders. -/

/-- The lines that an evaluation writes to MFE_ENC_STAT. -/
def lineBits (e : EncLines) : Nat := b2n e.a * 4 + b2n e.b * 2 + b2n e.z

/-- The field of the lines reads as A, B and Z. -/
theorem flags_of_lineBits {w : Word} {e : EncLines} (h : fld w 29 27 = lineBits e) : (flag w 29, flag w 28, flag w 27) = (e.a, e.b, e.z) := by
  have hbit (i : Nat) (hi : i < 3) : flag w (27 + i) = (lineBits e).testBit i := by
    rw [← h, fld_testBit, decide_eq_true (by omega), Bool.true_and, flag]
  rw [hbit 2 (by decide), hbit 1 (by decide), hbit 0 (by decide)]
  obtain ⟨a, b, z⟩ := e
  cases a <;> cases b <;> cases z <;> rfl

/-- The filtered lines of encoder k. -/
def State.encNow (s : State) (k : Nat) : EncLines := filtered (smGet {} s.mfe.encs k).last

/-- What an evaluation of encoder k writes after its lines: registers of the encoder and MFE_CAUSE, but not the field of the lines. -/
def EncKept (k : Nat) (s t : State) : Prop :=
  t.mfe = s.mfe ∧ t.rf (R.MFE_ENC_STAT k) 29 27 = s.rf (R.MFE_ENC_STAT k) 29 27 ∧
    RegsBut [R.MFE_ENC_STAT k, R.MFE_ENC_POS k, R.MFE_CAUSE] s t

theorem EncKept.refl (k : Nat) (s : State) : EncKept k s s := ⟨rfl, rfl, .refl _ s⟩

theorem EncKept.trans {k : Nat} {s t u : State} (h : EncKept k s t) (h' : EncKept k t u) : EncKept k s u := by
  obtain ⟨hmfe, hlines, hregs⟩ := h
  obtain ⟨hmfe', hlines', hregs'⟩ := h'
  exact ⟨hmfe'.trans hmfe, hlines'.trans hlines, hregs.trans hregs'⟩

theorem EncKept.ite {k : Nat} {c : Prop} [Decidable c] {s t : State} (h : EncKept k s t) : EncKept k s (if c then t else s) := by
  split
  · exact h
  · exact .refl k s

theorem EncKept.setPos (k : Nat) (s : State) (v : Word) : EncKept k s (s.setReg (R.MFE_ENC_POS k) v) :=
  ⟨rfl, s.rf_setReg_ne v 29 27 (by simp only [R.MFE_ENC_STAT, R.MFE_ENC_POS]; omega), (s.setReg_regsBut _ v).mono (by simp)⟩

theorem EncKept.setUncertain (k : Nat) (s : State) (v : Nat) : EncKept k s (s.setRf (R.MFE_ENC_STAT k) 31 31 v) :=
  ⟨rfl, s.rf_setRf_ne v (by decide) (.inr (by decide)), (s.setRf_regsBut _ 31 31 v).mono (by simp)⟩

theorem EncKept.countIllegal (k : Nat) (s : State) : EncKept k s (s.count (R.MFE_ENC_STAT k) 15 0) :=
  ⟨rfl, s.rf_count_ne (by decide) (.inr (by decide)), (s.count_regsBut _ 15 0).mono (by simp)⟩

theorem EncKept.latchIndex (k : Nat) (s : State) : EncKept k s (s.latch (R.MFE_ENC_STAT k) 30) :=
  ⟨rfl, s.rf_latch_ne (by decide) (.inr (by decide)), (s.latch_regsBut _ 30).mono (by simp)⟩

theorem EncKept.latchCause (k : Nat) (s : State) : EncKept k s (s.latch R.MFE_CAUSE 4) :=
  ⟨s.latch_mfe _ _, s.rf_latch_ne (by decide) (.inl (by simp only [R.MFE_ENC_STAT, R.MFE_CAUSE]; omega)), (s.latch_regsBut _ 4).mono (by simp)⟩

/-- The state t with the filtered lines that encoder k has in s noted for it, and whether its transition was illegal (R60). -/
def State.encNoted (s t : State) (k : Nat) (illegal : Bool) : State :=
  { t with mfe := { t.mfe with encs := smSet {} t.mfe.encs k { smGet {} s.mfe.encs k with prev := s.encNow k, illegal := illegal } } }

/-- Encoder k with its filtered lines shown in MFE_ENC_STAT (R62). -/
def State.encLines (s : State) (k : Nat) : State := s.setRf (R.MFE_ENC_STAT k) 29 27 (lineBits (s.encNow k))

/-- An encoder that is not enabled shows its lines and counts nothing (R60). -/
theorem State.encEval_disabled {s : State} {k : Nat} (hen : s.rb (R.MFE_ENC_CFG k) 0 = false) :
    s.encEval k = s.encNoted (s.encLines k) k false := by
  have hcfg : flag (s.reg (R.MFE_ENC_CFG k)) 0 = false := hen
  unfold State.encEval
  extract_lets e cfg now stat s1
  exact if_pos (by simp only [cfg, hcfg, Bool.not_false])

/-- An evaluation shows the lines, writes what may follow them, and notes the filtered lines (R60). -/
theorem State.encEval_eq (s : State) (k : Nat) : ∃ (u : State) (x : Bool), EncKept k (s.encLines k) u ∧ s.encEval k = s.encNoted u k x := by
  cases hen : s.rb (R.MFE_ENC_CFG k) 0 with
  | false => exact ⟨_, _, .refl k _, State.encEval_disabled hen⟩
  | true =>
    have hcfg : flag (s.reg (R.MFE_ENC_CFG k)) 0 = true := hen
    unfold State.encEval
    extract_lets e cfg now stat s1 mfe1 both one fwd up s2 s3 zmode index s4 mfe4
    rw [if_neg (by simp only [cfg, hcfg, Bool.not_true, Bool.false_eq_true, not_false_eq_true])]
    have h2 : EncKept k s1 s2 := .ite (.setPos k s1 _)
    have h3 : EncKept k s2 s3 := .ite (((EncKept.countIllegal k s2).trans (.setUncertain k _ 1)).trans (.latchCause k _))
    have h4 : EncKept k s3 s4 := .ite (((EncKept.setPos k s3 _).trans (.setUncertain k _ 0)).trans (.latchIndex k _))
    exact ⟨s4, both, (h2.trans h3).trans h4, rfl⟩

theorem State.encNoted_encs (s t : State) (k j : Nat) (x : Bool) : smGet {} (s.encNoted t k x).mfe.encs j =
    if j = k then { smGet {} s.mfe.encs k with prev := s.encNow k, illegal := x } else smGet {} t.mfe.encs j := by
  unfold State.encNoted
  rw [smGet_smSet]

theorem State.encNoted_regs (s t : State) (k : Nat) (x : Bool) : (s.encNoted t k x).regs = t.regs := rfl

theorem State.encLines_mfe (s : State) (k : Nat) : (s.encLines k).mfe = s.mfe := rfl

/-- An evaluation writes the registers of its encoder and MFE_CAUSE only (R60, R62). -/
theorem State.encEval_regsBut (s : State) (k : Nat) : RegsBut [R.MFE_ENC_STAT k, R.MFE_ENC_POS k, R.MFE_CAUSE] s (s.encEval k) := by
  obtain ⟨u, x, ⟨-, -, hregs⟩, heq⟩ := s.encEval_eq k
  rw [heq]
  exact (((s.setRf_regsBut _ 29 27 _).mono (by simp)).trans hregs).trans (.of_regs (State.encNoted_regs _ _ _ _))

/-- An evaluation of encoder k keeps what the other encoders have sampled and noted. -/
theorem State.encEval_encs_other (s : State) {k j : Nat} (h : j ≠ k) : smGet {} (s.encEval k).mfe.encs j = smGet {} s.mfe.encs j := by
  obtain ⟨u, x, ⟨hmfe, -, -⟩, heq⟩ := s.encEval_eq k
  rw [heq, State.encNoted_encs, if_neg h, hmfe, State.encLines_mfe]

/-- An evaluation notes the filtered lines (R60). -/
theorem State.encEval_prev (s : State) (k : Nat) : (smGet {} (s.encEval k).mfe.encs k).prev = s.encNow k := by
  obtain ⟨u, x, -, heq⟩ := s.encEval_eq k
  rw [heq, State.encNoted_encs, if_pos rfl]

/-- An evaluation shows the filtered lines in MFE_ENC_STAT (R60, R62). -/
theorem State.encEval_lines (s : State) (k : Nat) : (s.encEval k).rf (R.MFE_ENC_STAT k) 29 27 = lineBits (s.encNow k) := by
  have hsmall : lineBits (s.encNow k) < 2 ^ 3 := by
    unfold lineBits b2n
    (repeat' split) <;> decide
  obtain ⟨u, x, ⟨-, hlines, -⟩, heq⟩ := s.encEval_eq k
  rw [heq, State.rf, State.reg_congr (State.encNoted_regs _ _ _ _), ← State.rf, hlines, State.encLines, State.rf_setRf _ _ _ _ _ (by decide)]
  exact Nat.mod_eq_of_lt hsmall

/-- The position of an encoder that is not enabled stands (R60, R62). -/
theorem State.encEval_pos_disabled {s : State} {k : Nat} (hen : s.rb (R.MFE_ENC_CFG k) 0 = false) :
    (s.encEval k).reg (R.MFE_ENC_POS k) = s.reg (R.MFE_ENC_POS k) := by
  rw [State.encEval_disabled hen, State.reg_congr (State.encNoted_regs _ _ _ _)]
  exact s.setRf_regsBut _ 29 27 _ _ (by simp only [R.MFE_ENC_STAT, R.MFE_ENC_POS, List.mem_singleton]; omega)

/-- What the evaluations of the other encoders leave of encoder k: its samples, its status, its position and its configuration. -/
def State.encView (s : State) (k : Nat) : EncSt × Word × Word × Word :=
  (smGet {} s.mfe.encs k, s.reg (R.MFE_ENC_STAT k), s.reg (R.MFE_ENC_POS k), s.reg (R.MFE_ENC_CFG k))

theorem State.encEval_encView (s : State) {k a : Nat} (h : a ≠ k) : (s.encEval a).encView k = s.encView k := by
  have hreg (key : Nat) (hkey : key ∈ [R.MFE_ENC_STAT k, R.MFE_ENC_POS k, R.MFE_ENC_CFG k]) : (s.encEval a).reg key = s.reg key :=
    s.encEval_regsBut a key (by
      simp only [R.MFE_ENC_STAT, R.MFE_ENC_POS, R.MFE_ENC_CFG, R.MFE_CAUSE, List.mem_cons, List.not_mem_nil, or_false] at hkey ⊢
      omega)
  rw [State.encView, s.encEval_encs_other h.symm, hreg _ (by simp), hreg _ (by simp), hreg _ (by simp), ← State.encView]

/-- The evaluation of every encoder. -/
def State.encEvals (s : State) : State := (List.range 3).foldl State.encEval s

theorem exec_encoderEvaluation (s : State) : ∃ vs, exec .encoderEvaluation s =
    .next (s.encEvals.annexPut (s.encEvals.sys.epoch - 1) 0x100 vs) := ⟨_, rfl⟩

theorem State.encEvals_frame (s : State) : Frame [.regs, .mfe] s s.encEvals :=
  (Frame.foldl fun y k => (State.encEval_frame k (by simp)).mpr (Frame.refl y)).mpr (Frame.refl s)

/-- Encoder k after the evaluation of all is as its own evaluation leaves it. -/
theorem State.encEvals_view (s : State) {k : Nat} (hk : k < 3) :
    ∃ u : State, u.encView k = s.encView k ∧ s.encEvals.encView k = (u.encEval k).encView k :=
  view_foldl_range (view := fun t => t.encView k) hk s fun y _ ha => y.encEval_encView ha

theorem State.encEvals_lines (s : State) {k : Nat} (hk : k < 3) :
    (smGet {} s.encEvals.mfe.encs k).prev = s.encNow k ∧ s.encEvals.rf (R.MFE_ENC_STAT k) 29 27 = lineBits (s.encNow k) := by
  obtain ⟨u, hbefore, hafter⟩ := s.encEvals_view hk
  obtain ⟨hencs, -⟩ := Prod.mk.inj hbefore
  obtain ⟨hencs', hregs'⟩ := Prod.mk.inj hafter
  obtain ⟨hstat', -⟩ := Prod.mk.inj hregs'
  have hnow : u.encNow k = s.encNow k := by rw [State.encNow, hencs, ← State.encNow]
  rw [hencs', State.rf, hstat', ← State.rf, State.encEval_prev, State.encEval_lines, hnow]
  exact ⟨rfl, rfl⟩

theorem State.encEvals_pos_disabled {s : State} {k : Nat} (hk : k < 3) (hen : s.rb (R.MFE_ENC_CFG k) 0 = false) :
    s.encEvals.reg (R.MFE_ENC_POS k) = s.reg (R.MFE_ENC_POS k) := by
  obtain ⟨u, hbefore, hafter⟩ := s.encEvals_view hk
  obtain ⟨-, hregs⟩ := Prod.mk.inj hbefore
  obtain ⟨-, hregs⟩ := Prod.mk.inj hregs
  obtain ⟨hpos, hcfg⟩ := Prod.mk.inj hregs
  obtain ⟨-, hregs'⟩ := Prod.mk.inj hafter
  obtain ⟨-, hregs'⟩ := Prod.mk.inj hregs'
  obtain ⟨hpos', -⟩ := Prod.mk.inj hregs'
  have hen' : u.rb (R.MFE_ENC_CFG k) 0 = false := by rw [State.rb, hcfg, ← State.rb, hen]
  rw [hpos', State.encEval_pos_disabled hen', hpos]

/-- Settles O9: the two actions run as they are permitted, the end of a test is two writes, and the evaluation of all encoders is for each
its own. -/
theorem selfTestsAndEncoders : Obligations.SelfTestsAndEncoders := by
  refine ⟨fun r kind target s hk ht hmay hidle hperm => ?start, fun x s htest hdone => ?complete, fun s => ?evaluation,
    fun r k pos s hk hmay hen => ?reref⟩
  case start =>
    obtain ⟨hkind, htarget⟩ := s.actWord_mfeTest hk ht
    refine ⟨_, exec_mfeTestStart hk ht hmay hidle hperm, rfl, ?_, ?_, ?_, ?_, by simp⟩
    · rw [State.rf, State.reg_setReg, if_pos rfl]
      decide
    · rw [State.rf_setReg_ne _ _ _ _ (by decide), State.withTest_rf, State.rf_setArgs _ _ _ _ _ mfeTest_fields_writable.1, hkind]
    · rw [State.rf_setReg_ne _ _ _ _ (by decide), State.withTest_rf, State.rf_setArgs _ _ _ _ _ mfeTest_fields_writable.2, htarget]
    · exact ((s.setArgs_regsBut _ _).trans (.of_regs (State.withTest_regs _ _ _))).pair (State.setReg_regsBut _ _ _)
  case complete =>
    refine ⟨_, exec_selfTestComplete htest hdone, rfl, ?_, State.rb_latch _ _ _ (by decide), ?_, by simp⟩
    · rw [State.rf_latch_ne _ (by decide) (.inl (by decide)), State.rf, State.reg_setReg, if_pos rfl, fld_testStatWord]
    · exact (State.setReg_regsBut _ _ _).pair (State.latch_regsBut _ _ _)
  case evaluation =>
    obtain ⟨vs, hexec⟩ := exec_encoderEvaluation s
    have hreg (key : Nat) := State.reg_congr (State.annexPut_regs s.encEvals (s.encEvals.sys.epoch - 1) 0x100 vs) key
    refine ⟨_, hexec, fun k hk => ?_, fun k hk hen => (hreg _).trans (State.encEvals_pos_disabled hk hen), ?_⟩
    · obtain ⟨hprev, hlines⟩ := s.encEvals_lines hk
      refine ⟨hprev, ?_⟩
      rw [State.rb, State.rb, State.rb, hreg]
      exact flags_of_lineBits hlines
    · exact (State.annexPut_frame _ _ _ (by simp)).mpr (s.encEvals_frame.mono (by simp))
  case reref =>
    have hother (key : Nat) (hkey : key ≠ R.MFE_ENC_REREF k) : (s.setArgs (R.MFE_ENC_REREF k) pos).reg key = s.reg key :=
      s.setArgs_regsBut _ pos _ (by simpa using hkey)
    have hen' : (s.setArgs (R.MFE_ENC_REREF k) pos).rb (R.MFE_ENC_CFG k) 0 = true := by
      rw [State.rb, hother _ (by simp only [R.MFE_ENC_CFG, R.MFE_ENC_REREF]; omega), ← State.rb, hen]
    refine ⟨_, exec_encReref pos hk hmay, State.encReref_pos pos hen', fun hlegal => State.encReref_certain pos hen' hlegal, ?_, ?_⟩
    · exact ((s.setArgs_regsBut _ pos).mono (by simp)).trans ((State.encReref_regsBut _ k pos).mono (by simp))
    · exact (State.encReref_frame _ _ (by simp)).mpr ((State.setArgs_frame _ _ (by simp)).mpr (Frame.refl s))

end Sys2Proof.Machine
end

section
/-! PROOFS. The station ports (O37): LINK of a port, telegrams, mirror datagrams, and the frames received. -/

namespace Sys2Proof.Machine

/-! The state with another Safety Core, and with frames sent. -/

/-- The state with another Safety Core. -/
def State.withSaf (s : State) (f : SafSt) : State := { s with saf := f }

@[simp] theorem State.withSaf_saf (s : State) (f : SafSt) : (s.withSaf f).saf = f := rfl
@[simp] theorem State.withSaf_regs (s : State) (f : SafSt) : (s.withSaf f).regs = s.regs := rfl
@[simp] theorem State.reg_withSaf (s : State) (f : SafSt) (k : Nat) : (s.withSaf f).reg k = s.reg k := rfl
theorem State.withSaf_regsBut {ks : List Nat} (s : State) (f : SafSt) : RegsBut ks s (s.withSaf f) := .of_regs rfl
@[simp] theorem State.withSaf_frame {W : List Part} {r s : State} (f : SafSt) (hW : .saf ∈ W) : Frame W r (s.withSaf f) ↔ Frame W r s :=
  Frame.set_saf f hW

/-- The state after transactions to the outside, each of which took a free value (R357). -/
def State.withSent (s : State) (l : List BusOut) : State := { s with out := s.out ++ l, freeCount := s.freeCount + l.length }

theorem State.withSent_frame {W : List Part} {r s : State} (l : List BusOut) (hout : .out ∈ W) (hfree : .freeCount ∈ W) :
    Frame W r (s.withSent l) ↔ Frame W r s :=
  (Frame.set_freeCount (s := { s with out := s.out ++ l }) _ hfree).trans (Frame.set_out _ hout)

/-- A payload goes out as one frame at its port (R357). -/
theorem State.sendFrame_eq (s : State) (p dstPort : Nat) (payload : List Byte) :
    ∃ bs, s.sendFrame p dstPort payload = s.withSent [.frame p bs] := ⟨_, rfl⟩

/-- A payload that is sent on several ports goes out as one frame at each. -/
theorem State.sendFrames_eq (dstPort : State → Nat → Nat) (payload : List Byte) (ps : List Nat) (s : State) :
    ∃ l, l.length = ps.length ∧ ps.foldl (fun t p => t.sendFrame p (dstPort t p) payload) s = s.withSent l := by
  induction ps generalizing s with
  | nil => exact ⟨[], rfl, by simp [State.withSent]⟩
  | cons p ps ih =>
    obtain ⟨bs, hbs⟩ := s.sendFrame_eq p (dstPort s p) payload
    obtain ⟨l, hl, hfold⟩ := ih (s.sendFrame p (dstPort s p) payload)
    refine ⟨.frame p bs :: l, by simp [hl], ?_⟩
    rw [List.foldl_cons, hfold, hbs]
    simp [State.withSent, Nat.add_comm, Nat.add_left_comm]

/-! Telegrams and mirror datagrams. -/

/-- The Safety Core after a telegram with the next SEQ (R358). -/
def SafSt.telegramSent (f : SafSt) : SafSt :=
  { f with seqTx := if f.seqTx = 2 ^ 32 - 1 then 1 else f.seqTx + 1, txData := f.data, txUs := some f.us }

theorem exec_telegramSend {s : State} (hrun : s.saf.running = true) (hen : s.tgEn = true) (hcfg : s.saf.cfgValid = true)
    (hdue : ∀ u, s.saf.txUs = some u → u + 100 * s.rf R.SAF_TG_CFG 23 16 ≤ s.saf.us) :
    ∃ l, l.length = ([0, 1].filter s.portOn).length ∧ exec .telegramSend s = .next ((s.withSaf s.saf.telegramSent).withSent l) := by
  have hdue' : (match s.saf.txUs with | some t => decide (t + 100 * s.rf R.SAF_TG_CFG 23 16 ≤ s.saf.us) | none => true) = true := by
    cases hu : s.saf.txUs with
    | none => rfl
    | some u => exact decide_eq_true (hdue u hu)
  let payload := s.tgPayload s.saf.telegramSent.seqTx
  obtain ⟨l, hl, hsent⟩ := State.sendFrames_eq (fun t p => t.rf (R.SAF_PORT_UDP p) 15 0) payload ([0, 1].filter s.portOn)
    (s.withSaf s.saf.telegramSent)
  exact ⟨l, hl, (if_pos ⟨hrun, hen, hcfg, hdue'⟩ : exec .telegramSend s = _).trans (congrArg Host.Outcome.next hsent)⟩

/-- The Safety Core after a mirror datagram of the present epoch (R365). -/
def SafSt.mirrorSent (f : SafSt) (e : Epoch) : SafSt := { f with mirrorSeq := (f.mirrorSeq + 1) % 2 ^ 32, mirrorAt := some e }

theorem exec_mirrorSend {p : Nat} {n : Epoch} {s : State} (hport : ([0, 1].filter s.portOn).head? = some p) (hnew : s.cel.newest = some n)
    (hdue : s.saf.running ∧ s.rb R.SAF_MIRROR 31 ∧ s.pwr.admitted.contains .mirror ∧ s.sys.counting ∧
      s.sys.epoch.toNat % 2 ^ s.mirrorLog2 = 0 ∧ s.rf R.SAF_MIRROR 15 0 ≠ 0 ∧ bit s.sys.missNow 15 = false ∧
      s.saf.mirrorAt ≠ some s.sys.epoch) :
    ∃ bs, exec .mirrorSend s = .next ((s.withSaf (s.saf.mirrorSent s.sys.epoch)).withSent [.frame p bs]) := by
  have hsend : ∃ dstPort payload, execMirrorSend s = .next ((s.withSaf (s.saf.mirrorSent s.sys.epoch)).sendFrame p dstPort payload) := by
    unfold execMirrorSend
    simp only [hport, hnew]
    exact ⟨_, _, if_pos hdue⟩
  obtain ⟨dstPort, payload, hexec⟩ := hsend
  obtain ⟨bs, hbs⟩ := (s.withSaf (s.saf.mirrorSent s.sys.epoch)).sendFrame_eq p dstPort payload
  exact ⟨bs, hexec.trans (congrArg Host.Outcome.next hbs)⟩

/-! Frames received. -/

theorem bit_eq_testBit (w b : Nat) : bit w b = w.testBit b := by
  rw [bit, bits, Nat.testBit_eq_decide_div_mod_eq, Nat.add_sub_cancel_left, Nat.pow_one]

theorem bit_or_two_pow (w p q : Nat) : bit (w ||| 2 ^ p) q = (bit w q || decide (q = p)) := by
  simp only [bit_eq_testBit, Nat.testBit_or, Nat.testBit_two_pow, eq_comm]

/-- A bit of the two ports that is set is cleared by taking its weight away. -/
theorem bit_sub_two_pow {w p q : Nat} (hp : p < 2) (hq : q < 2) (h : bit w p = true) :
    bit (w - 2 ^ p) q = (bit w q && decide (q ≠ p)) := by
  rw [Bool.eq_iff_iff]
  interval_cases p <;> interval_cases q <;> simp [bit, bits] at h ⊢ <;> omega

/-- The Safety Core with other LINK bits (R368). -/
def SafSt.withLink (f : SafSt) (w : Nat) : SafSt := { f with link := w }

/-- Valid sync headers are so within the 64 of a block lock (R64). -/
theorem syncs_all_valid {syncs : List Nat} (h : ∀ x ∈ syncs, x = 1 ∨ x = 2) : (syncs.take 64).all (fun x => x = 1 || x = 2) = true :=
  List.all_eq_true.mpr fun x hx => by simpa using h x (List.mem_of_mem_take hx)

theorem exec_portLock {p : Nat} {syncs : List Nat} {s : State} (hlen : 64 ≤ syncs.length) (hvalid : ∀ x ∈ syncs, x = 1 ∨ x = 2)
    (hrun : s.saf.running = true) :
    exec (.blockLockAcquire (512 + p) syncs) s = .next (s.withSaf (s.saf.withLink (s.saf.link ||| 2 ^ p))) := by
  show execBlockLockAcquire (512 + p) syncs s = _
  rw [execBlockLockAcquire, if_pos ⟨hlen, syncs_all_valid hvalid⟩, if_pos (Nat.le_add_right _ _), if_pos hrun, Nat.add_sub_cancel_left]
  rfl

theorem exec_portLockLoss {p : Nat} {syncs : List Nat} {s : State} (hlen : syncs.length ≤ 64)
    (hbad : 16 ≤ syncs.countP (fun x => x ≠ 1 && x ≠ 2)) : exec (.lockLoss ⟨512 + p, syncs⟩) s =
      .next (if bit s.saf.link p then s.withSaf (s.saf.withLink (s.saf.link - 2 ^ p)) else s) := by
  show execLockLoss ⟨512 + p, syncs⟩ s = _
  simp only [execLockLoss, hlen, hbad, decide_true, Bool.true_and, Nat.le_add_right, if_true, Nat.add_sub_cancel_left]
  rfl

theorem exec_stationFrameReceive {p : Nat} (bs : List Byte) {s : State} (hrun : s.saf.running = true) (hp : p < 2) (hon : s.portOn p = true) :
    exec (.stationFrameReceive p bs) s = .next (match s.candidate p bs with
      | some x => s.withSaf { s.saf.withLink (s.saf.link ||| 2 ^ p) with cands := s.saf.cands ++ [(p, x)] }
      | none => (s.withSaf (s.saf.withLink (s.saf.link ||| 2 ^ p))).count (R.SAF_PORT_STAT p) 23 0) := by
  have hskip : ¬ (s.saf.running = false ∨ 2 ≤ p ∨ s.portOn p = false) := by simp [hrun, hon, hp]
  refine (if_neg hskip : execStationFrameReceive p bs s = _).trans ?_
  change (match s.candidate p bs with | some x => _ | none => _) = _
  cases s.candidate p bs <;> rfl

/-! The watchdog. -/

theorem exec_telegramWatchdog {s : State} (hcands : s.saf.cands = []) (hconn : s.saf.conn = .valid)
    (hwd : s.saf.freshUs.getD 0 + 1000 * s.rf R.SAF_TG_CFG 15 8 ≤ s.saf.us) : exec .telegramWatchdog s = .next (s.tgFall.tgCount 7) := by
  show execTelegramWatchdog s = _
  simp [execTelegramWatchdog, hcands, hconn, hwd]

/-- A VALID connection that falls is LOST, and LOSS is noted and latched (R344, R362). -/
theorem State.tgFall_of_valid {s : State} (h : s.saf.conn = .valid) :
    s.tgFall = (s.latch R.SAF_CAUSE 4).withSaf { s.saf with conn := .lost, echo := 0, lossNow := true } := if_pos h

/-- Settles O37: each command is its update of the Safety Core, with the frames that it sends or the count that it makes. -/
theorem stationTraffic : Obligations.StationTraffic := by
  refine ⟨fun s hrun hen hcfg hdue => ?telegram, fun p bs s hrun hp hon => ?frame, fun p syncs s hp => ⟨fun hlen hvalid hrun => ?lock,
    fun hlen hbad => ?lockLoss⟩, fun s hcands hconn hwd => ?watchdog,
    fun p n s hport hnew hrun hen hadm hcnt hdue hdst hmiss honce => ?mirror⟩
  case telegram =>
    obtain ⟨l, hl, hexec⟩ := exec_telegramSend hrun hen hcfg hdue
    exact ⟨_, l, hexec, rfl, rfl, hl, rfl, (State.withSent_frame l (by simp) (by simp)).mpr (by simp)⟩
  case frame =>
    have hlink := bit_or_two_pow s.saf.link p p
    rw [decide_eq_true rfl, Bool.or_true] at hlink
    refine ⟨_, exec_stationFrameReceive bs hrun hp hon, ?_⟩
    cases s.candidate p bs with
    | some x =>
      exact ⟨hlink, fun y hy => ⟨by rw [← Option.some.inj hy]; rfl, rfl⟩, nofun, .of_regs rfl, by simp⟩
    | none =>
      exact ⟨hlink, nofun, fun _ => ⟨rfl, State.rf_count _ _ _ _ (by decide)⟩, State.count_regsBut _ _ _ _, by simp⟩
  case lock =>
    exact ⟨_, exec_portLock hlen hvalid hrun, fun q _ => bit_or_two_pow _ p q, by simp⟩
  case lockLoss =>
    refine ⟨_, exec_portLockLoss hlen hbad, fun q hq => ?_, by simp⟩
    cases hset : bit s.saf.link p with
    | true => exact bit_sub_two_pow hp hq hset
    | false =>
      rw [if_neg Bool.false_ne_true]
      by_cases h : q = p
      · rw [h, hset]; rfl
      · simp [h]
  case watchdog =>
    refine ⟨_, exec_telegramWatchdog hcands hconn hwd, ?_⟩
    rw [State.tgFall_of_valid hconn]
    refine ⟨rfl, ?_, ?_, ?_, by simp [State.tgCount]⟩
    · rw [State.tgCount, State.rb, State.reg_count, if_neg (by decide), State.reg_withSaf]
      exact State.rb_latch s _ _ (by decide)
    · rw [State.tgCount, State.rf_count _ _ _ _ (by decide), State.rf, State.reg_withSaf, ← State.rf,
        State.rf_latch_ne s (by decide) (.inl (by decide))]
    · exact (s.latch_regsBut R.SAF_CAUSE 4).pair ((State.withSaf_regsBut _ _).trans (State.count_regsBut _ (R.SAF_TG_CNT 7) 31 0))
  case mirror =>
    obtain ⟨bs, hexec⟩ := exec_mirrorSend hport hnew ⟨hrun, hen, by simpa using hadm, hcnt, hdue, hdst, hmiss, honce⟩
    exact ⟨_, bs, hexec, rfl, rfl, rfl, (State.withSent_frame _ (by simp) (by simp)).mpr (by simp)⟩

end Sys2Proof.Machine
end

section
/-! PROOFS. What a lane keeps through the end of a service transaction, a step of discovery, and a measured delay. -/

namespace Sys2Proof.Machine

/-! Lanes. -/

@[simp] theorem State.lane_latch (s : State) (k b l : Nat) : (s.latch k b).lane l = s.lane l := rfl
@[simp] theorem State.lane_prtEvent (s : State) (k l : Nat) : (s.prtEvent k).lane l = s.lane l := rfl

theorem State.lane_congr {s t : State} (h : t.lnk = s.lnk) (l : Nat) : t.lane l = s.lane l := by rw [State.lane, h, State.lane]

@[simp] theorem State.lane_laneCount (s : State) (l i n m : Nat) : (s.laneCount l i n).lane m =
    if m = l then { s.lane l with counters := smUpd 0 (s.lane l).counters i (fun c => min (2 ^ 32 - 1) (c + n)) } else s.lane m :=
  s.lane_updLane l m _

/-- A lane without its service queue, its discovery and its counters. -/
def LaneSt.still (a : LaneSt) : LaneSt := { a with svcQ := [], disc := none, discStopped := false, counters := [] }

/-- From s to t nothing changed of lane l but its service queue, its discovery and DISC_REJECT, and no register but LNK_STR_CAUSE and
EDG_CAUSE. -/
structure ChannelKept (l : Nat) (s t : State) : Prop where
  still : (t.lane l).still = (s.lane l).still
  counter : ∀ i ≠ 20, smGet 0 (t.lane l).counters i = smGet 0 (s.lane l).counters i
  regs : RegsBut [R.LNK_STR_CAUSE, R.EDG_CAUSE] s t

theorem ChannelKept.refl (l : Nat) (s : State) : ChannelKept l s s := ⟨rfl, fun _ _ => rfl, .refl _ s⟩

theorem ChannelKept.trans {l : Nat} {s t u : State} (h : ChannelKept l s t) (h' : ChannelKept l t u) : ChannelKept l s u :=
  ⟨h'.still.trans h.still, fun i hi => (h'.counter i hi).trans (h.counter i hi), h.regs.trans h'.regs⟩

/-- A part of the lane that its service queue, its discovery and its counters are no part of is kept. -/
theorem ChannelKept.part {A : Type} {l : Nat} {s t : State} (h : ChannelKept l s t) (f : LaneSt → A)
    (hf : ∀ a, f a.still = f a := by exact fun _ => rfl) : f (t.lane l) = f (s.lane l) := by
  rw [← hf, h.still, hf]

theorem ChannelKept.ite {l : Nat} {c : Prop} [Decidable c] {s a b : State} (ha : ChannelKept l s a) (hb : ChannelKept l s b) :
    ChannelKept l s (if c then a else b) := by split <;> assumption

theorem ChannelKept.foldl {A : Type} {l : Nat} {f : State → A → State} {as : List A} (hf : ∀ y a, ChannelKept l y (f y a)) (s : State) :
    ChannelKept l s (as.foldl f s) :=
  List.foldlRecOn (motive := ChannelKept l s) as f (.refl l s) fun t ht a _ => ht.trans (hf t a)

/-- A change outside the lanes and the registers. -/
theorem ChannelKept.of_lanes {l : Nat} {s t : State} (hl : t.lnk.lanes = s.lnk.lanes) (hr : t.regs = s.regs) : ChannelKept l s t := by
  have hlane : t.lane l = s.lane l := by rw [State.lane, hl, State.lane]
  exact ⟨by rw [hlane], fun _ _ => by rw [hlane], .of_regs hr⟩

theorem ChannelKept.updUnit (l : Nat) (s : State) (h : Nat) (f : UnitSt → UnitSt) : ChannelKept l s (s.updUnit h f) := .of_lanes rfl rfl

theorem ChannelKept.updLane (l : Nat) (s : State) (k : Nat) {f : LaneSt → LaneSt} (hstill : ∀ a, (f a).still = a.still)
    (hcount : ∀ a, (f a).counters = a.counters) : ChannelKept l s (s.updLane k f) := by
  refine ⟨?_, fun i _ => ?_, .of_regs rfl⟩ <;> rw [State.lane_updLane] <;> split
  · next h => rw [hstill, h]
  · rfl
  · next h => rw [hcount, h]
  · rfl

theorem ChannelKept.latch (l : Nat) (s : State) (k b : Nat) (hk : k ∈ [R.LNK_STR_CAUSE, R.EDG_CAUSE]) :
    ChannelKept l s (s.latch k b) := ⟨rfl, fun _ _ => rfl, (s.latch_regsBut k b).mono (by simpa using hk)⟩

theorem ChannelKept.discRejected (l : Nat) (s : State) (k : Nat) : ChannelKept l s (s.laneCount k 20) := by
  refine ⟨?_, fun i hi => ?_, .of_regs rfl⟩ <;> rw [State.lane_laneCount] <;> split
  · next h => rw [h]; rfl
  · rfl
  · next h => rw [smGet_smUpd, if_neg hi, h]
  · rfl

/-! Requests, hold offsets and discovery. -/

theorem State.svcAsk_kept (l : Nat) (s : State) (k : Nat) (why : SvcWhy) (addr cmd data : Nat) :
    ChannelKept l s (s.svcAsk k why addr cmd data) := .updLane l s k (fun _ => rfl) (fun _ => rfl)

theorem State.discAsk_kept (l : Nat) (s : State) (k : Nat) (d : Disc) (why : SvcWhy) : ChannelKept l s (s.discAsk k d why) := by
  unfold State.discAsk
  split
  case h_5 => exact .refl l s
  all_goals exact s.svcAsk_kept l _ _ _ _ _

theorem State.updDisc_kept (l : Nat) (s : State) (k : Nat) (f : Disc → Disc) : ChannelKept l s (s.updDisc k f) :=
  .updLane l s k (fun _ => rfl) (fun _ => rfl)

/-- The discovery of a lane ends (R106). -/
theorem State.discEnd_kept (l : Nat) (s : State) (k : Nat) : ChannelKept l s (s.updLane k fun a => { a with disc := none }) :=
  .updLane l s k (fun _ => rfl) (fun _ => rfl)

theorem State.putHold_kept (l : Nat) (s : State) (h : Nat) (b : Bool) (why : SvcWhy) : ChannelKept l s (s.putHold h b why) :=
  (ChannelKept.updUnit l s h _).trans (State.svcAsk_kept l _ _ _ _ _ _)

theorem State.sendHold_kept (l : Nat) (s : State) (h : Nat) (b : Bool) (why : SvcWhy) : ChannelKept l s (s.sendHold h b why) :=
  .ite (s.putHold_kept l h b why) (.refl l s)

theorem State.leadLong_kept (l : Nat) (s : State) : ChannelKept l s s.leadLong :=
  (ChannelKept.latch l s R.LNK_STR_CAUSE 1 (by simp)).trans (.of_lanes rfl rfl)

theorem State.discReject_kept (l : Nat) (s : State) (k h : Nat) : ChannelKept l s (s.discReject k h) := by
  unfold State.discReject
  extract_lets s1 s2
  have h2 : ChannelKept l s s2 := (ChannelKept.updUnit l s h _).trans (.updLane l s1 k (fun _ => rfl) (fun _ => rfl))
  exact (h2.trans (.discRejected l s2 k)).trans (.latch l _ R.LNK_STR_CAUSE 0 (by simp))

theorem State.discMeasured_kept (l : Nat) (s : State) (k : Nat) (d : Disc) : ChannelKept l s (s.discMeasured k d) := by
  refine (ChannelKept.updUnit l s d.home _).trans (.ite ?long (.ite (State.discEnd_kept l _ k) ?held))
  case long => exact (State.discEnd_kept l _ k).trans (State.leadLong_kept l _)
  case held => exact (State.updDisc_kept l _ k _).trans (State.sendHold_kept l _ _ _ _)

theorem State.discFail_kept (l : Nat) (s : State) (k : Nat) (d : Disc) (why : SvcWhy) (status : Nat) :
    ChannelKept l s (s.discFail k d why status) := by
  unfold State.discFail
  extract_lets s1
  have h1 : ChannelKept l s s1 := s.updDisc_kept l k _
  refine .ite (s.discEnd_kept l k) (.ite (s.discAsk_kept l k d _) (.ite (s.discReject_kept l k _) (h1.trans ?_)))
  split
  · exact State.discAsk_kept l _ k d _
  · exact State.sendHold_kept l _ _ _ _
  · exact State.discAsk_kept l _ k d _

theorem State.discRouted_kept (l : Nat) (s : State) (k : Nat) (d : Disc) : ChannelKept l s (s.discRouted k d) := by
  unfold State.discRouted
  extract_lets s1 s2
  have h2 : ChannelKept l s s2 := (ChannelKept.updUnit l s d.home _).trans (.ite (.of_lanes rfl rfl) (.refl l s1))
  exact h2.trans (s2.updDisc_kept l k _)

theorem State.discOk_kept (l : Nat) (s : State) (k : Nat) (d : Disc) (why : SvcWhy) (data : Word) :
    ChannelKept l s (s.discOk k d why data) := by
  unfold State.discOk
  split
  · exact (s.updDisc_kept l k _).trans (.ite (State.discAsk_kept l _ k _ _)
      (.ite (State.discAsk_kept l _ k _ _) (State.discReject_kept l _ k _)))
  · exact (s.updDisc_kept l k _).trans (State.discAsk_kept l _ k d _)
  · exact s.discRouted_kept l k d
  · exact .ite (s.discRouted_kept l k d) (s.discAsk_kept l k d _)
  · refine (ChannelKept.updUnit l s d.home _).trans (.ite ?_ (State.discEnd_kept l _ k))
    exact (ChannelKept.updUnit l _ d.home _).trans ((State.updDisc_kept l _ k _).trans (State.sendHold_kept l _ _ _ _))
  · exact (ChannelKept.updUnit l s d.home _).trans (State.discEnd_kept l _ k)
  · exact .refl l s

/-! The end of a service transaction. -/

theorem State.profFail_kept (l : Nat) (s : State) (h : Nat) : ChannelKept l s (s.profFail h) :=
  .ite (.of_lanes rfl rfl) ((ChannelKept.of_lanes (s := s) (t := s.profNext h) rfl rfl).trans (.latch l _ R.EDG_CAUSE 1 (by simp)))

theorem State.profAnswer_kept (l : Nat) (s : State) (h status : Nat) (data : Word) : ChannelKept l s (s.profAnswer h status data) := by
  unfold State.profAnswer
  extract_lets cls
  split
  · exact .of_lanes rfl rfl
  · exact .ite (.of_lanes rfl rfl) (.ite (.of_lanes rfl rfl) (s.profFail_kept l h))
  · exact .ite (.of_lanes rfl rfl) ((ChannelKept.of_lanes (s := s) (t := s.setVerified h _ _ false) rfl rfl).trans (State.profFail_kept l _ h))
  · exact .ite (.of_lanes rfl rfl) (.ite (.of_lanes rfl rfl) (s.profFail_kept l h))

theorem State.profResult_kept (l : Nat) (s : State) (why : SvcWhy) (status : Nat) (data : Word) :
    ChannelKept l s (s.profResult why status data) := by
  unfold State.profResult
  split
  · exact s.profAnswer_kept l _ status data
  · exact s.profAnswer_kept l _ status data
  · exact .refl l s

/-- Lane k with no service transaction outstanding (R91). -/
def State.svcDone (s : State) (k : Nat) : State := s.updLane k fun a => { a with svc := none }

/-- The end of a transaction leaves none outstanding, and keeps what a step of discovery keeps. -/
theorem State.svcEnd_kept (l : Nat) (s : State) (k : Nat) (why : SvcWhy) (status : Nat) (data : Word) :
    ChannelKept l (s.svcDone k) (s.svcEnd k why status data) := by
  have hstep : ChannelKept l (s.svcDone k) (match ((s.svcDone k).lane k).disc with
      | none => s.svcDone k
      | some d => if status = 0 then (s.svcDone k).discOk k d why data else (s.svcDone k).discFail k d why status) := by
    split
    · exact .refl l _
    · exact .ite (State.discOk_kept l _ k _ _ _) (State.discFail_kept l _ k _ _ _)
  cases why with
  | ident | assignHome | recheckSerial | assignRoute | holdDisc => exact hstep
  | hold | reassign | arm => exact .ite (.updUnit l _ _ _) (.refl l _)
  | turnRelease | countersClear => exact .refl l _
  | profileLoad h w => exact (s.svcDone k).profResult_kept l (.profileLoad h w) status data
  | profileCheck h i => exact (s.svcDone k).profResult_kept l (.profileCheck h i) status data

/-! Measured delays. -/

theorem State.drift_kept (l : Nat) (s : State) (h : Nat) (b : Bool) (o : Nat) : ChannelKept l s (s.drift h b o) := by
  unfold State.drift
  extract_lets u old diff beyond s1 s2 free d new s3
  have h2 : ChannelKept l s s2 := (ChannelKept.updUnit l s h _).trans
    (.ite ((ChannelKept.latch l s1 R.LNK_STR_CAUSE 2 (by simp)).trans (.of_lanes rfl rfl)) (.refl l _))
  have h3 : ChannelKept l s s3 := h2.trans (.updUnit l s2 h _)
  exact .ite (.ite (h3.trans (s3.putHold_kept l h b _)) h3) h2

theorem State.delaySeen_kept (l : Nat) (s : State) (h : Nat) (b : Bool) (o : Nat) : ChannelKept l s (s.delaySeen h b o) :=
  .ite (s.drift_kept l h b o) (.ite (.updUnit l s h _) (.refl l s))

end Sys2Proof.Machine
end

section
/-! PROOFS. Service requests, discovery and probes (O12): the next state of each command, and what the end of a transaction or of a probe
leaves of the lane. -/

namespace Sys2Proof.Machine

/-! Service requests. -/

/-- A request that is due again, in the next frame that its lane launches (R91). -/
def Svc.repeated (v : Svc) : Svc := { v with frames := 0, tries := v.tries + 1 }

theorem exec_svcRepeat {l : Nat} {v : Svc} {s : State} (hsvc : (s.lane l).svc = some v) (hlate : s.rf R.LNK_SVC_CFG 15 8 < v.frames)
    (hleft : v.tries < s.rf R.LNK_SVC_CFG 3 0) :
    exec (.svcTimeout l) s = .next ((s.updLane l fun a => { a with svc := some v.repeated }).laneCount l 13) := by
  show execSvcTimeout l s = _
  simp only [execSvcTimeout, hsvc, if_pos hlate, if_pos hleft]
  rfl

theorem exec_svcAbandon {l : Nat} {v : Svc} {s : State} (hsvc : (s.lane l).svc = some v) (hlate : s.rf R.LNK_SVC_CFG 15 8 < v.frames)
    (hleft : s.rf R.LNK_SVC_CFG 3 0 ≤ v.tries) :
    exec (.svcTimeout l) s = .next (((s.laneCount l 14).latch R.LNK_CAUSE 2).svcEnd l v.rq.why 0x3F 0) := by
  show execSvcTimeout l s = _
  simp only [execSvcTimeout, hsvc, if_pos hlate, if_neg (Nat.not_lt.mpr hleft)]

/-! Discovery. -/

theorem exec_discoveryStart {l p : Nat} {s : State} (hnew : s.lowestNew l = some p) (hact : s.laneActive l = true)
    (hdisc : s.discovering = true) (hpair : (s.pair (l / 2)).state = .normal) (hfree : (s.lane l).disc = none)
    (hgo : (s.lane l).discStopped = false) (hbelow : s.belowPresent l p = true) :
    exec (.discoveryStart l) s = .next (s.discBegin l (l * 8 + p) p false) := by
  show execDiscoveryStart l s = _
  simp only [execDiscoveryStart, hnew]
  exact if_pos ⟨hact, hdisc, hpair, hfree, hgo, hbelow⟩

/-! Probes. -/

/-- What a probe that has been sent notes of its round and of the discovery that measures its position (R106, R108). -/
def State.probeNoted (s : State) (l p : Nat) (round : Bool) : State :=
  (if round then s.updLane l fun a => { a with probeAt := some s.sys.epoch, probeNext := p + 1 } else s).updDisc l
    fun d => if d.probing && d.pos = p then { d with probes := d.probes + 1 } else d

theorem exec_probeSend {l p : Nat} {round : Bool} {s : State} (htarget : s.probeTarget l = some (p, round))
    (hdue : s.laneActive l ∧ s.launching ∧ s.idleOnly l = false ∧ s.ref.state = .locked ∧ s.sys.conv ≠ .off ∧ (s.lane l).probe = none ∧
      s.probeFits l) : exec (.probeSend l) s = .next ((s.placeProbe l p).probeNoted l p round) := by
  show execProbeSend l s = _
  simp only [execProbeSend, htarget]
  exact if_pos hdue

theorem State.lane_probeNoted (s : State) (l p : Nat) (round : Bool) (m : Nat) :
    ((s.probeNoted l p round).lane m).probe = (s.lane m).probe ∧ (m ≠ l → (s.probeNoted l p round).lane m = s.lane m) := by
  unfold State.probeNoted
  cases round <;> by_cases hm : m = l <;> simp [State.updDisc, hm]

/-- Lane l with no probe outstanding (R108). -/
def State.probeDone (s : State) (l : Nat) : State := s.updLane l fun a => { a with probe := none }

/-- The echo of the outstanding probe ends it; what is measured with it goes to the discovery of the position, or to the unit there. -/
theorem exec_echoReceive {l : Nat} {echo : LineBlock} (rt : Nat) {p : Probe} {s : State} (hprobe : (s.lane l).probe = some p)
    (hecho : echo.sync = 2 ∧ ctlKind echo.payload = .strikeSync ∧ rec64 echo.payload 55 55 = 1 ∧ rec64 echo.payload 54 51 = p.target ∧
      rec64 echo.payload 50 43 = p.seq ∧ rec64 echo.payload 42 34 = l) :
    ∃ t, exec (.echoReceive l echo rt) s = .next t ∧ ChannelKept l (s.probeDone l) t := by
  show ∃ t, execEchoReceive l echo rt s = .next t ∧ _
  simp only [execEchoReceive, hprobe]
  rw [if_pos hecho]
  split
  · have hnoted (d : Disc) : ChannelKept l (s.probeDone l) ((s.probeDone l).updDisc l fun _ => d) := State.updDisc_kept l _ l _
    exact ⟨_, rfl, .ite ((hnoted _).trans (State.discMeasured_kept l _ l _))
      (.ite ((hnoted _).trans (State.discReject_kept l _ l _)) (hnoted _))⟩
  · split
    · exact ⟨_, rfl, State.delaySeen_kept l _ _ _ _⟩
    · exact ⟨_, rfl, .refl l _⟩

/-- A probe that is lost is counted, and the eighth of a discovery rejects its position (R106, R108). -/
theorem exec_probeLost {l : Nat} {p : Probe} {s : State} (hprobe : (s.lane l).probe = some p) (hlate : 2 ≤ (s.sys.epoch - p.sent).toNat) :
    exec (.probeLost l) s = .next ((s.probeDone l).laneCount l 19) ∨
      ∃ h, exec (.probeLost l) s = .next (((s.probeDone l).laneCount l 19).discReject l h) := by
  show execProbeLost l s = _ ∨ ∃ h, execProbeLost l s = _
  simp only [execProbeLost, hprobe]
  rw [if_pos hlate]
  split
  · next d _ =>
    split
    · exact .inr ⟨d.home, rfl⟩
    · exact .inl rfl
  · exact .inl rfl

theorem State.lane_discReject_ne (s : State) {l m : Nat} (h : Nat) (hm : m ≠ l) : (s.discReject l h).lane m = s.lane m := by
  simp [State.discReject, hm]

/-- Settles O12: each command is its update of the lane; the end of a transaction and of a probe keeps what they have set. -/
theorem serviceDiscoveryProbes : Obligations.ServiceDiscoveryProbes := by
  refine ⟨fun l v s hsvc hlate hleft => ?again, fun l v s hsvc hlate hleft => ?abandon,
    fun l p s hnew hact hdisc hpair hfree hgo hbelow => ?discovery,
    fun l p round s htarget hact hlaunch hidle hlock hconv hfree hfits => ?probe,
    fun l rt echo p s hprobe hsync hkind hdir htarget hseq hlane => ?echo, fun l p s hprobe hlate => ?lost⟩
  case again =>
    refine ⟨_, exec_svcRepeat hsvc hlate hleft, ?_, ?_, fun m hm => ?_, by simp⟩
    · rw [State.lane_laneCount, if_pos rfl, State.lane_updLane, if_pos rfl]
      rfl
    · simp
    · rw [State.lane_laneCount, if_neg hm, State.lane_updLane, if_neg hm]
  case abandon =>
    have hexec := exec_svcAbandon hsvc hlate hleft
    have hkept := State.svcEnd_kept l ((s.laneCount l 14).latch R.LNK_CAUSE 2) l v.rq.why 0x3F 0
    refine ⟨_, hexec, ?_, ?_, ?_, execSvcTimeout_frame l hexec⟩
    · rw [hkept.part LaneSt.svc]
      simp [State.svcDone]
    · rw [hkept.counter 14 (by decide)]
      simp [State.svcDone]
    · rw [State.rb, hkept.regs _ (by decide)]
      exact State.rb_latch (s.laneCount l 14) _ _ (by decide)
  case discovery =>
    refine ⟨_, ⟨l * 8 + p, p, false, [], 0, [], 0, false⟩, exec_discoveryStart hnew hact hdisc hpair hfree hgo hbelow, ?_, rfl, rfl, rfl, ?_,
      fun m hm => ?_, by simp⟩
    · simp [State.discBegin, State.discAsk, State.svcAsk]
    · simp [State.discBegin, State.discAsk, State.svcAsk, SvcWhy.profile]
    · simp [State.discBegin, State.discAsk, State.svcAsk, hm]
  case probe =>
    have hexec := exec_probeSend htarget ⟨hact, hlaunch, hidle, hlock, hconv, hfree, hfits⟩
    refine ⟨_, hexec, ?_, fun m hm => ?_, execProbeSend_frame l hexec⟩
    · rw [(State.lane_probeNoted _ l p round l).1]
      simp [State.placeProbe]
    · rw [(State.lane_probeNoted _ l p round m).2 hm]
      simp [State.placeProbe, hm]
  case echo =>
    obtain ⟨t, hexec, hkept⟩ := exec_echoReceive rt hprobe ⟨hsync, hkind, hdir, htarget, hseq, hlane⟩
    refine ⟨t, hexec, ?_, execEchoReceive_frame l echo rt hexec⟩
    rw [hkept.part LaneSt.probe]
    simp [State.probeDone]
  case lost =>
    have hcount : ((s.probeDone l).laneCount l 19).lane l = { s.lane l with
        probe := none, counters := smUpd 0 (s.lane l).counters 19 (fun c => min (2 ^ 32 - 1) (c + 1)) } := by
      simp [State.probeDone]
    have hother (m : Nat) (hm : m ≠ l) : ((s.probeDone l).laneCount l 19).lane m = s.lane m := by
      simp [State.probeDone, hm]
    rcases exec_probeLost hprobe hlate with hexec | ⟨h, hexec⟩
    · refine ⟨_, hexec, ?_, ?_, hother, execProbeLost_frame l hexec⟩
      · rw [hcount]
      · simp [hcount]
    · have hkept := ((s.probeDone l).laneCount l 19).discReject_kept l l h
      refine ⟨_, hexec, ?_, ?_, fun m hm => (State.lane_discReject_ne _ h hm).trans (hother m hm), execProbeLost_frame l hexec⟩
      · rw [hkept.part LaneSt.probe, hcount]
      · rw [hkept.counter 19 (by decide), hcount]
        simp

end Sys2Proof.Machine
end

section
/-! PROOFS. Return offset, block lock, lead and trim (O11): the next state of each command, and the lanes that a new trim asks. -/

namespace Sys2Proof.Machine

/-! Return offset and block lock. -/

theorem exec_returnOffsetAcquire {l : Nat} (ofs : Nat) {a b : LineBlock} {s : State} (hact : s.laneActive l = true)
    (hlock : (s.lane l).locked = true) (hnone : (s.lane l).returnOfs = none)
    (ha : headerFor a (BitVec.ofNat 48 (rec64 a.payload 55 40)) = true)
    (hb : headerFor b (BitVec.ofNat 48 (rec64 a.payload 55 40) + 1) = true) :
    exec (.returnOffsetAcquire l ofs a b) s = .next (s.updLane l fun x => { x with returnOfs := some ofs, darkRun := 0 }) :=
  if_pos ⟨hact, hlock, hnone, ha, hb⟩

/-- Lane l without block lock, the loss counted (R64, R98). -/
def State.unlocked (s : State) (l : Nat) : State := (s.updLane l fun a => { a with locked := false, badThis := true }).laneCount l 1

theorem State.laneActive_congr {s t : State} {l : Nat} (hreg : t.regs = s.regs) (hpwr : t.pwr = s.pwr)
    (hcal : (t.lane l).calibrated = (s.lane l).calibrated) (hquar : (t.lane l).quar = (s.lane l).quar) :
    t.laneActive l = s.laneActive l := by
  rw [State.laneActive, State.laneEnabled, State.rb, State.reg_congr hreg, State.domain, hpwr, hcal, hquar]
  rfl

theorem exec_lockLoss {l : Nat} {syncs : List Nat} {s : State} (hl : l < 512) (hlock : (s.lane l).locked = true) (hlen : syncs.length ≤ 64)
    (hbad : 16 ≤ syncs.countP (fun x => x ≠ 1 && x ≠ 2)) :
    exec (.lockLoss ⟨l, syncs⟩) s = .next (if s.laneActive l then (s.unlocked l).latch R.LNK_CAUSE 3 else s.unlocked l) := by
  have hlost : (decide (syncs.length ≤ 64) && decide (16 ≤ syncs.countP (fun x => x ≠ 1 && x ≠ 2))) = true := by
    rw [decide_eq_true hlen, decide_eq_true hbad, Bool.and_self]
  have hact : (s.updLane l fun a => { a with locked := false, badThis := true }).laneActive l = s.laneActive l :=
    State.laneActive_congr rfl rfl (by simp) (by simp)
  refine ((if_neg (Nat.not_le.mpr hl)).trans (if_pos ⟨hlock, hlost⟩) : execLockLoss ⟨l, syncs⟩ s = _).trans ?_
  simp only [hact]
  rfl

theorem exec_blockLockAcquire {l : Nat} {syncs : List Nat} (s : State) (hl : l < 512) (hlen : 64 ≤ syncs.length)
    (hvalid : ∀ x ∈ syncs, x = 1 ∨ x = 2) :
    exec (.blockLockAcquire l syncs) s = .next (s.updLane l fun a => { a with locked := true }) :=
  (if_pos ⟨hlen, syncs_all_valid hvalid⟩).trans (if_neg (Nat.not_le.mpr hl))

/-! Lead and trim. -/

theorem partner_partner (l : Nat) : partner (partner l) = l := by rw [partner, partner, Nat.xor_assoc, Nat.xor_self, Nat.xor_zero]

/-- A unit whose home is on lane l or on its partner is served on one of the two (R102). -/
theorem State.servedOn_pair (s : State) {h l : Nat} (hh : h / 8 = l ∨ h / 8 = partner l) : s.servedOn h = l ∨ s.servedOn h = partner l := by
  unfold State.servedOn
  rcases hh with hh | hh <;> rw [hh] <;> split
  · exact .inr rfl
  · exact .inl rfl
  · exact .inl (partner_partner l)
  · exact .inr rfl

/-- The routes of a lane are those of units of its pair (R112). -/
theorem State.laneRoutes_home {s : State} {l : Nat} {r : Nat × Bool} (hr : r ∈ s.laneRoutes l) : r.1 / 8 = l ∨ r.1 / 8 = partner l := by
  have hhome (k p : Nat) (hp : p < 8) : (k * 8 + p) / 8 = k := by omega
  unfold State.laneRoutes at hr
  extract_lets measured own far at hr
  rcases List.mem_append.mp hr with hown | hfar
  · obtain ⟨p, hp, rfl⟩ := List.mem_map.mp (List.mem_filter.mp hown).1
    exact .inl (hhome l p (List.mem_range.mp hp))
  · have hfar' : r ∈ far := by
      split at hfar
      · exact hfar
      · exact absurd hfar (List.not_mem_nil)
    obtain ⟨p, hp, rfl⟩ := List.mem_map.mp (List.mem_filter.mp hfar').1
    exact .inr (hhome (partner l) p (List.mem_range.mp hp))

/-- A hold offset is asked for on the lane that serves its unit, and on no other (R113). -/
theorem State.lane_putHold_ne (s : State) {h m : Nat} (b : Bool) (why : SvcWhy) (hm : m ≠ s.servedOn h) :
    (s.putHold h b why).lane m = s.lane m := by
  unfold State.putHold
  extract_lets u l o addr hold t
  rw [State.svcAsk, State.lane_updLane, if_neg hm]
  rfl

theorem State.leadTrim_leadLong (s : State) (l : Nat) : s.leadLong.leadTrim l = s.leadTrim l := by
  have hmargin : s.leadLong.marginNew = s.marginNew :=
    State.rf_latch_ne s (by decide) (.inl (by decide))
  rw [State.leadTrim, hmargin]
  rfl

/-- The lane with a lead, its trim, and the MARGIN that they were made with (R113, R135). -/
def State.retrimmed (s : State) (l lead trim m : Nat) : State :=
  s.updLane l fun a => { a with lead := lead, tLane := trim, qMargin := some m }

/-- HOLD_OFFSET is asked for every route of the lane that a lead of 12 ep covers (R112, R113). -/
def State.holdsAsked (s : State) (l m : Nat) : State :=
  (s.laneRoutes l).foldl (fun s r => if fits12 (s.routeQ m r) then s.putHold r.1 r.2 (.hold r.1 r.2) else s) s

theorem State.holdsAsked_kept (s : State) (l m : Nat) : ChannelKept l s (s.holdsAsked l m) := by
  refine ChannelKept.foldl (fun y (r : Nat × Bool) => ?_) s
  exact .ite (y.putHold_kept l r.1 r.2 _) (.refl l y)

theorem State.lane_holdsAsked_ne (s : State) {l k : Nat} (m : Nat) (hk : k ≠ l) (hk' : k ≠ partner l) :
    (s.holdsAsked l m).lane k = s.lane k := by
  refine view_foldl_eq (view := fun y => y.lane k) s fun y r hr => ?_
  split
  · have hserved := y.servedOn_pair (State.laneRoutes_home hr)
    exact y.lane_putHold_ne r.2 _ (fun h => hserved.elim (fun h' => hk (h.trans h')) (fun h' => hk' (h.trans h')))
  · rfl

/-- A new trim sets lead and T_LANE of the lane, and then asks for the hold offsets (R112, R113). -/
theorem State.retrim_eq {s : State} {l lead trim : Nat} (htrim : s.leadTrim l = some (lead, trim)) :
    ∃ u : State, (∀ k, u.lane k = s.lane k) ∧ s.retrim l = (u.retrimmed l lead trim s.marginNew).holdsAsked l s.marginNew := by
  unfold State.retrim
  extract_lets m u
  have hu : u.leadTrim l = some (lead, trim) := by
    unfold u
    split
    · rw [State.leadTrim_leadLong, htrim]
    · exact htrim
  refine ⟨u, fun k => ?_, ?_⟩
  · unfold u
    split <;> rfl
  · rw [hu]
    rfl

/-- Settles O11: each command is its update of the lane. -/
theorem laneLockAndLead : Obligations.LaneLockAndLead := by
  refine ⟨fun l ofs a b e s hact hlock hnone he ha hb => ?offset, fun l syncs s hl hlock hlen hbad => ?loss,
    fun l syncs s hl hlen hvalid => ?acquire, fun l lead trim s hconv hnew hrun htrim => ?trim⟩
  case offset =>
    subst he
    refine ⟨_, exec_returnOffsetAcquire ofs hact hlock hnone ha hb, ?_, fun m hm => ?_, by simp⟩
    · rw [State.lane_updLane, if_pos rfl]
    · rw [State.lane_updLane, if_neg hm]
  case loss =>
    have hlane (m : Nat) : (if s.laneActive l then (s.unlocked l).latch R.LNK_CAUSE 3 else s.unlocked l).lane m = (s.unlocked l).lane m := by
      split <;> rfl
    refine ⟨_, exec_lockLoss hl hlock hlen hbad, ?_, ?_, fun hact => ?_, fun hact => ?_, fun m hm => ?_, ?_, by simp [State.unlocked]⟩
    · rw [hlane]
      simp [State.unlocked]
    · rw [hlane]
      simp [State.unlocked]
    · rw [if_pos hact]
      exact State.rb_latch _ _ _ (by decide)
    · rw [hact]
      rfl
    · rw [hlane]
      simp [State.unlocked, hm]
    · exact .ite (State.latch_regsBut (s.unlocked l) _ _) (.of_regs rfl)
  case acquire =>
    refine ⟨_, exec_blockLockAcquire s hl hlen hvalid, ?_, fun m hm => ?_, by simp⟩
    · rw [State.lane_updLane, if_pos rfl]
    · rw [State.lane_updLane, if_neg hm]
  case trim =>
    have hexec : exec (.leadTrimChange l) s = .next (s.retrim l) := if_pos ⟨hconv, hnew, hrun⟩
    obtain ⟨u, hu, heq⟩ := State.retrim_eq htrim
    have hkept := (u.retrimmed l lead trim s.marginNew).holdsAsked_kept l s.marginNew
    refine ⟨_, hexec, ?_, ?_, fun m hm hm' => ?_, execLeadTrimChange_frame l hexec⟩
    · rw [heq, hkept.part LaneSt.lead]
      simp [State.retrimmed]
    · rw [heq, hkept.part LaneSt.tLane]
      simp [State.retrimmed]
    · rw [heq, State.lane_holdsAsked_ne _ _ hm hm', State.retrimmed, State.lane_updLane, if_neg hm, hu]

end Sys2Proof.Machine
end

section
/-! PROOFS. Frames launched (O10): the content and the line of a frame, what a launch changes of its lane, and the launches that a lane does
not make. -/

namespace Sys2Proof.Machine

@[simp] theorem State.lane_updShelf (s : State) (n : Epoch) (f : Shelf → Shelf) (l : Nat) : (s.updShelf n f).lane l = s.lane l := rfl

/-! The content of a frame and its line. -/

theorem length_flatMap_of_length {α β : Type} {l : List α} {f : α → List β} {n : Nat} (h : ∀ a, (f a).length = n) :
    (l.flatMap f).length = l.length * n := by
  simp [List.length_flatMap, h]

/-- A frame holds header, extension, eight orders of four blocks, and the service block (R69). -/
theorem State.frameBlocks_length (s : State) (l : Nat) (k : Epoch) : (s.frameBlocks l k).length = 35 := by
  unfold State.frameBlocks
  extract_lets kind run c smode slots
  have hslots : slots.length = 8 * 4 := length_flatMap_of_length fun i => by split <;> rfl
  simp [hslots]

theorem frameLine_length {content : List DWord} (probe : Option DWord) (h : content.length = 35) : (frameLine content probe).length = 40 := by
  cases content with
  | nil => exact absurd h (by decide)
  | cons x xs => simp_all [frameLine]

theorem insertBlocks_length {line : List LineBlock} {p : Nat} (h : line.length = 40) : (insertBlocks line p).length = 40 := by
  simp [insertBlocks, h]
  omega

/-! The start of a waiting request. -/

/-- Lane l with another service channel: transaction, queue and TAG. -/
def LaneSt.withChannel (a : LaneSt) (v : Option Svc) (q : List SvcReq) (t : Nat) : LaneSt := { a with svc := v, svcQ := q, tag := t }

/-- A waiting request that starts changes the service channel of its lane (R91). -/
theorem State.svcStart_eq (s : State) (l : Nat) : s.svcStart l = s ∨ ∃ v q t, s.svcStart l = s.updLane l fun a => a.withChannel v q t := by
  unfold State.svcStart
  extract_lets a
  split
  · exact .inr ⟨_, _, _, rfl⟩
  · exact .inl rfl

theorem State.frameKind_updLane (s : State) (l : Nat) {f : LaneSt → LaneSt} (hf : ∀ a, (f a).discWaitEp = a.discWaitEp) (m : Nat) (k : Epoch) :
    (s.updLane l f).frameKind m k = s.frameKind m k := by
  have hwait (x : Nat) : ((s.updLane l f).lane x).discWaitEp = (s.lane x).discWaitEp := by
    rw [State.lane_updLane]
    split
    · next h => rw [hf, h]
    · rfl
  have hblocked (x : Nat) : (s.updLane l f).discBlocked x = s.discBlocked x := by
    unfold State.discBlocked
    rw [hwait]
    rfl
  unfold State.frameKind State.servesDiscovery
  rw [hblocked]
  rfl

/-! A launch. -/

/-- The frame that lane l launches in the present epoch (R69, R70). -/
def State.launched (s : State) (l : Nat) : Sent :=
  let k := s.sys.epoch + BitVec.ofNat 48 (s.lane l).lead
  ⟨k, s.frameKind l k, s.frameBlocks l k, ((List.range 8).map (s.slotUnit l k (s.frameKind l k))).map (·.map Prod.fst)⟩

theorem State.frameKind_svcStart (s : State) (l m : Nat) (k : Epoch) : (s.svcStart l).frameKind m k = s.frameKind m k := by
  rcases s.svcStart_eq l with h | ⟨v, q, t, h⟩ <;> rw [h]
  exact s.frameKind_updLane l (f := fun a => a.withChannel v q t) (fun _ => rfl) m k

theorem State.headerRun_svcStart (s : State) (l : Nat) (k : Epoch) : (s.svcStart l).headerRun k = s.headerRun k := by
  rcases s.svcStart_eq l with h | ⟨v, q, t, h⟩ <;> rw [h]
  rfl

theorem State.lane_svcStart (s : State) (l : Nat) : ∃ v q t, ∀ m, (s.svcStart l).lane m =
    if m = l then (s.lane l).withChannel v q t else s.lane m := by
  rcases s.svcStart_eq l with h | ⟨v, q, t, h⟩
  · refine ⟨(s.lane l).svc, (s.lane l).svcQ, (s.lane l).tag, fun m => ?_⟩
    rw [h]
    split
    · next hm => rw [hm]; rfl
    · rfl
  · exact ⟨v, q, t, fun m => by rw [h, State.lane_updLane]⟩

theorem State.lane_unitStale (s : State) (h l : Nat) : (s.unitStale h).lane l = s.lane l := by
  unfold State.unitStale
  split <;> rfl

theorem State.lane_missedEpoch (s : State) (l : Nat) (n : Epoch) (m : Nat) : (s.missedEpoch l n).lane m = s.lane m := by
  refine view_foldl_eq (view := fun y => y.lane m) s fun y h _ => ?_
  split
  · exact y.lane_unitStale h m
  · rfl

/-- The due epochs that no frame collected change units, and of the lane the newest EPOCH judged (R116). -/
theorem State.lane_skippedDue (s : State) (l : Nat) (k : Epoch) : ∃ x, ∀ m, (s.skippedDue l k).lane m =
    if m = l then { s.lane l with lastK := x } else s.lane m := by
  unfold State.skippedDue
  split
  · exact ⟨_, fun m => s.lane_updLane l m _⟩
  · next j hj =>
    split
    · refine ⟨some j, fun m => ?_⟩
      split
      · next hm => rw [hm, ← hj]
      · rfl
    · refine ⟨some k, fun m => ?_⟩
      have hfold (x : Nat) := view_foldl_eq (view := fun y => y.lane x) (l := List.range (min 511 ((k - j).toNat - 1)))
        (f := fun (s : State) i => s.missedEpoch l (j + BitVec.ofNat 48 i)) s fun y i _ => y.lane_missedEpoch l _ x
      simp only [State.lane_updLane, hfold]

theorem State.launched_svcStart_k (s : State) (l : Nat) :
    ((s.svcStart l).launched l).k = s.sys.epoch + BitVec.ofNat 48 (s.lane l).lead := by
  obtain ⟨v, q, t, hstart⟩ := s.lane_svcStart l
  have hsys : (s.svcStart l).sys = s.sys := keep_sys (by simp)
  rw [State.launched, hsys, hstart, if_pos rfl]
  rfl

theorem State.launched_svcStart_kind (s : State) (l : Nat) :
    ((s.svcStart l).launched l).kind = s.frameKind l ((s.svcStart l).launched l).k := s.frameKind_svcStart l l _

/-- The first content block of a launched frame is its header (R69, R71). -/
theorem State.launched_svcStart_head (s : State) (l : Nat) :
    let f := (s.svcStart l).launched l
    f.blocks.head? = some (headerBlock f.k l f.kind (s.headerRun f.k).1 (s.headerRun f.k).2) := by
  intro f
  rw [← s.headerRun_svcStart l]
  rfl

/-- The line of a launched frame is its content, with the lane's probe in the gap and the BLOCK blocks that wait (R69, R84, R87). -/
theorem State.lineOf_launched (s : State) (l : Nat) :
    let f := (s.svcStart l).launched l
    let line := frameLine f.blocks (s.probeNow l)
    (s.svcStart l).lineOf l f.k = if (s.lane l).blockDue then insertBlocks line 1 else line := by
  obtain ⟨v, q, t, hstart⟩ := s.lane_svcStart l
  have hsys : (s.svcStart l).sys = s.sys := keep_sys (by simp)
  have hprobe : (s.svcStart l).probeNow l = s.probeNow l := by
    rw [State.probeNow, hsys, hstart, if_pos rfl]
    rfl
  intro f line
  rw [State.lineOf, hprobe, hstart, if_pos rfl]
  rfl

/-- The frame that lane l launches joins the frames in flight behind the others (R145). -/
def State.fly (s : State) (l : Nat) (f : Sent) : State := s.updLane l fun a => { a with inflight := a.inflight ++ [f] }

/-- A launch starts a waiting request, puts the frame on the line and among the frames in flight, and makes the lane one of those that
the frame's Shelf waits for; the items sent change Crates only (R69, R91, R145, R163). -/
theorem exec_frameLaunch {l : Nat} {s : State} (h : s.mayLaunch l = true) :
    let f := (s.svcStart l).launched l
    ∃ u : State, u.lnk = (((s.svcStart l).putLine l ((s.svcStart l).lineOf l f.k)).svcSent l).lnk ∧
      exec (.frameLaunch l) s = .next (((u.fly l f).skippedDue l f.k).updShelf (f.k - 1)
        fun sh => { sh with expect := l :: sh.expect.erase l }) := by
  intro f
  refine ⟨_, ?_, (if_pos h : execFrameLaunch l s = _)⟩
  exact keep_lnk ((Frame.foldl (by intro y u; split <;> simp)).mpr (Frame.refl _))

/-- What a launch sets of its lane, but for the line and the service channel (R69, R145). -/
theorem State.lane_launch (s : State) (l : Nat) (line : List LineBlock) (f : Sent) {u : State} (hu : u.lnk = ((s.putLine l line).svcSent l).lnk) :
    ∃ v q g x, ∀ m, ((u.fly l f).skippedDue l f.k).lane m = if m = l then { (s.lane l).withChannel v q g with
      lineBefore := if (s.lane l).launchedAt = some (s.sys.epoch - 1) then (s.lane l).line else idleLine
      line := line, launchedAt := some s.sys.epoch, blockDue := false, inflight := (s.lane l).inflight ++ [f], lastK := x } else s.lane m := by
  obtain ⟨x, hdue⟩ := (u.fly l f).lane_skippedDue l f.k
  refine ⟨(s.lane l).svc.map fun v => { v with frames := v.frames + 1 }, (s.lane l).svcQ, (s.lane l).tag, x, fun m => ?_⟩
  have hlane (m : Nat) : u.lane m = ((s.putLine l line).svcSent l).lane m := State.lane_congr hu m
  rw [hdue]
  by_cases hm : m = l
  · rw [if_pos hm, if_pos hm, State.fly, State.lane_updLane, if_pos rfl, hlane, State.svcSent, State.lane_updLane, if_pos rfl,
      State.putLine, State.lane_updLane, if_pos rfl]
    rfl
  · rw [if_neg hm, if_neg hm, State.fly, State.lane_updLane, if_neg hm, hlane, State.svcSent, State.lane_updLane, if_neg hm,
      State.putLine, State.lane_updLane, if_neg hm]

/-! The launches that a lane does not make. -/

theorem exec_frameLaunch_idle {l : Nat} {s : State} (hact : s.laneActive l = true) (hlaunch : s.launching = true) (hidle : s.idleOnly l = true) :
    exec (.frameLaunch l) s = .next (s.putLine l (if (s.lane l).blockDue then insertBlocks idleLine 0 else idleLine)) := by
  have hmay : ¬ s.mayLaunch l = true := by simp [State.mayLaunch, hidle]
  exact (if_neg hmay).trans (congrArg Host.Outcome.next (if_pos ⟨hact, hlaunch, hidle⟩))

theorem exec_frameLaunch_none {l : Nat} {s : State} (h : s.laneActive l = false ∨ s.launching = false ∨
    (s.idleOnly l = false ∧ (s.lane l).launchedAt = some s.sys.epoch)) : exec (.frameLaunch l) s = .next s := by
  have hmay : ¬ s.mayLaunch l = true := by
    rcases h with h | h | ⟨-, h⟩ <;> simp [State.mayLaunch, h]
  have hidle : ¬ (s.laneActive l = true ∧ s.launching = true ∧ s.idleOnly l = true) := by
    rcases h with h | h | ⟨h, -⟩ <;> simp [h]
  exact (if_neg hmay).trans (congrArg Host.Outcome.next (if_neg hidle))

end Sys2Proof.Machine
end

section
/-! PROOFS. The slots of a returning frame (O10): the steps that a slot makes on the links, the record that it writes, and what decides it. -/

namespace Sys2Proof.Machine

/-! The steps of a slot on the links. -/

/-- One step of a slot of lane l outside the Cellar, for units of the set P: a count of a receipt, a cause, a change of the unit or of its
pair, and the dead times of the unit (R83, R98, R116, R119, R260). -/
inductive LinkStep (l : Nat) (P : Nat → Prop) : State → State → Prop where
  | count (s : State) (i : Nat) (hi : 6 ≤ i) : LinkStep l P s (s.laneCount l i)
  | cause (s : State) : LinkStep l P s (s.latch R.LNK_CAUSE 1)
  | unit (s : State) {h : Nat} (f : UnitSt → UnitSt) (hP : P h) : LinkStep l P s (s.updUnit h f)
  | pair (s : State) (m : Nat) (f : PairLnk → PairLnk) : LinkStep l P s (s.updPair m f)
  | dead (s : State) (h : Nat) (e : Epoch) (x : Nat) : LinkStep l P s (s.attribDead h e x)

/-- Steps of slots of lane l outside the Cellar. -/
abbrev LinkSteps (l : Nat) (P : Nat → Prop) : State → State → Prop := Relation.ReflTransGen (LinkStep l P)

theorem LinkSteps.start (l h : Nat) (s : State) : LinkSteps l (· = h) s s := .refl

theorem LinkSteps.ite {l : Nat} {P : Nat → Prop} {c : Prop} [Decidable c] {r a b : State} (ha : LinkSteps l P r a) (hb : LinkSteps l P r b) :
    LinkSteps l P r (if c then a else b) := by split <;> assumption

section
variable {l h : Nat} {P : Nat → Prop} {r s : State}

theorem LinkSteps.laneCount (hs : LinkSteps l P r s) {i : Nat} (hi : 6 ≤ i) : LinkSteps l P r (s.laneCount l i) := hs.tail (.count s i hi)

theorem LinkSteps.updUnit (hs : LinkSteps l P r s) (hP : P h) (f : UnitSt → UnitSt) : LinkSteps l P r (s.updUnit h f) := hs.tail (.unit s f hP)

theorem LinkSteps.unitStale (hs : LinkSteps l P r s) (hP : P h) : LinkSteps l P r (s.unitStale h) := .ite hs (hs.updUnit hP _)

theorem LinkSteps.unitHome (hs : LinkSteps l P r s) : LinkSteps l P r (s.unitHome h) := .ite (hs.tail (.pair s _ _)) hs

theorem LinkSteps.unitFresh (hs : LinkSteps l P r s) (hP : P h) : LinkSteps l P r (s.unitFresh h) := hs.unitHome.updUnit hP _

end

theorem State.attribDead_lnk (s : State) (h : Nat) (e : Epoch) (x : Nat) : (s.attribDead h e x).lnk = s.lnk := keep_lnk (by simp)

theorem LinkSteps.cel {l : Nat} {P : Nat → Prop} {s t : State} (h : LinkSteps l P s t) : t.cel = s.cel := by
  induction h with
  | refl => rfl
  | tail _ hstep ih =>
    cases hstep with
    | dead h e x => exact (keep_cel (by simp)).trans ih
    | _ => exact ih

theorem LinkSteps.unit_ne {l h : Nat} {P : Nat → Prop} {s t : State} (hsteps : LinkSteps l P s t) (hP : ∀ x, P x → x ≠ h) :
    t.unit h = s.unit h := by
  induction hsteps with
  | refl => rfl
  | tail _ hstep ih =>
    cases hstep with
    | unit f hx => rw [State.unit_updUnit, if_neg (Ne.symm (hP _ hx)), ih]
    | dead x e n =>
      rw [State.unit, State.attribDead_lnk, ← State.unit, ih]
    | _ => exact ih

/-- Of the lanes only lane l changed, and of it only the counters of receipts and those after them. -/
structure LaneCounted (l : Nat) (s t : State) : Prop where
  other : ∀ m, m ≠ l → t.lane m = s.lane m
  lane : ∃ c, t.lane l = { s.lane l with counters := c } ∧ ∀ i < 6, smGet 0 c i = smGet 0 (s.lane l).counters i

theorem LaneCounted.refl (l : Nat) (s : State) : LaneCounted l s s := ⟨fun _ _ => rfl, _, rfl, fun _ _ => rfl⟩

theorem LaneCounted.trans {l : Nat} {s t u : State} (h : LaneCounted l s t) (h' : LaneCounted l t u) : LaneCounted l s u := by
  obtain ⟨hother, c, hlane, hc⟩ := h
  obtain ⟨hother', c', hlane', hc'⟩ := h'
  exact ⟨fun m hm => (hother' m hm).trans (hother m hm), c', by rw [hlane', hlane], fun i hi => by rw [hc' i hi, hlane, hc i hi]⟩

theorem LaneCounted.of_lanes {l : Nat} {s t : State} (h : t.lnk.lanes = s.lnk.lanes) : LaneCounted l s t := by
  have hlane (m : Nat) : t.lane m = s.lane m := by rw [State.lane, h, State.lane]
  exact ⟨fun m _ => hlane m, _, hlane l, fun _ _ => rfl⟩

theorem LaneCounted.foldl {A : Type} {l : Nat} {f : State → A → State} (hf : ∀ y a, LaneCounted l y (f y a)) (as : List A) (s : State) :
    LaneCounted l s (as.foldl f s) :=
  List.foldlRecOn (motive := LaneCounted l s) as f (.refl l s) fun t ht a _ => ht.trans (hf t a)

theorem LinkSteps.laneCounted {l : Nat} {P : Nat → Prop} {s t : State} (h : LinkSteps l P s t) : LaneCounted l s t := by
  induction h with
  | refl => exact .refl l _
  | tail _ hstep ih =>
    refine ih.trans ?_
    cases hstep with
    | count i hi =>
      refine ⟨fun m hm => by rw [State.lane_laneCount, if_neg hm], _, by rw [State.lane_laneCount, if_pos rfl], fun j hj => ?_⟩
      rw [smGet_smUpd, if_neg (by omega)]
    | dead h e x => exact .of_lanes (congrArg LnkSt.lanes (State.attribDead_lnk _ h e x))
    | _ => exact .of_lanes rfl

/-! A slot that is classified. -/

/-- The receipts of a slot whose record was received (R83). -/
def Rcpt.burst : Rcpt → Bool
  | .full | .singleA | .singleB => true
  | _ => false

/-- The record is the first on the other route of its unit, of the next generation (R119). -/
def State.slotMoved (s : State) (h : Nat) (via : Bool) (w0 : DWord) : Bool :=
  (s.unit h).bridged ≠ via && rec64 w0 15 12 = ((s.unit h).rgen + 1) % 16

/-- The slot of unit h gives its record to the Cellar: it is no WRONG_HOME and no STALE_ROUTE (R83, R119). -/
def State.slotTaken (s : State) (h : Nat) (via : Bool) (x : Rcpt × DWord) : Bool :=
  x.1.burst && rec64 x.2 33 22 = h && (s.slotMoved h via x.2 || (rec64 x.2 15 12 = (s.unit h).rgen && (s.unit h).bridged = via))

/-- The state with the route of unit h that the record shows (R119). -/
def State.slotRoute (s : State) (h : Nat) (via : Bool) (w0 : DWord) : State :=
  if s.slotMoved h via w0 then s.routeChange h via (rec64 w0 15 12) else s

/-- Words 1 and 2 of a slot were received (R83). -/
def slotAux (got : List (Option DWord)) : Bool :=
  match got.getD 1 none, got.getD 2 none with
  | some a, some b => auxOk a b
  | _, _ => false

/-- The LATE bit of a slot (R79, R83). -/
def slotLate (got : List (Option DWord)) : Bool := slotAux got && rec64 ((got.getD 2 none).getD 0) 13 13 = 1

theorem State.dueEpoch_congr {s t : State} {h : Nat} (hb : (t.unit h).bridged = (s.unit h).bridged)
    (hhold : (t.unit h).hasHold = (s.unit h).hasHold) (n : Epoch) : t.dueEpoch h n = s.dueEpoch h n := by
  rw [State.dueEpoch, hb, hhold, ← State.dueEpoch]

/-- A unit whose due epoch is not fresh, where it was due on the slot's route (R116). -/
def State.slotMiss (s : State) (h : Nat) (due : Bool) : State := if due then s.unitStale h else s

/-- The record of a slot goes to the Cellar, and the due epoch of the unit is judged (R116, R142). -/
def State.slotWrite (s : State) (l : Nat) (k : Epoch) (h : Nat) (due single : Bool) (w0 : DWord) (got : List (Option DWord)) : State :=
  let s := s.updUnit h (fun u => { u with staleRoute := 0 })
  let w1 := (got.getD 1 none).getD 0
  let w2 := (got.getD 2 none).getD 0
  let s := if slotLate got then s.laneCount l 11 else s
  let s := if slotAux got then s else s.laneCount l 12
  let (fresh, s) := s.celWrite h k single (slotLate got) (!slotAux got) w0 w1 w2
  let s := if fresh && slotAux got then s.attribDead h (k - 1) (rec64 w1 51 40) else s
  if s.dueEpoch h (k - 1) || !(s.unit h).hasHold then (if fresh && (s.unit h).hasHold then s.unitFresh h else s.slotMiss h due) else s

/-- The record of a slot is judged by its home address and its route generation (R83, R119). -/
def State.slotJudge (s : State) (l : Nat) (k : Epoch) (h : Nat) (via due single : Bool) (w0 : DWord) (got : List (Option DWord)) : State :=
  if rec64 w0 33 22 ≠ h then ((s.laneCount l 9).staleRouteEnd h via).slotMiss h due
  else
    let u := s.unit h
    let t := s.slotRoute h via w0
    if !s.slotMoved h via w0 && (rec64 w0 15 12 ≠ u.rgen || u.bridged ≠ via) then
      ((t.laneCount l 10).updUnit h fun u => { u with
        staleRoute := if u.staleVia = via then min 64 (u.staleRoute + 1) else 1, staleRgen := rec64 w0 15 12, staleVia := via }).slotMiss h due
    else t.slotWrite l k h due single w0 got

theorem LinkSteps.slotMiss {l h : Nat} {P : Nat → Prop} {r s : State} (hs : LinkSteps l P r s) (hP : P h) (due : Bool) :
    LinkSteps l P r (s.slotMiss h due) := .ite (hs.unitStale hP) hs

theorem LinkSteps.slotRoute {l h : Nat} {P : Nat → Prop} {r s : State} (hs : LinkSteps l P r s) (hP : P h) (via : Bool) (w0 : DWord) :
    LinkSteps l P r (s.slotRoute h via w0) := .ite (hs.updUnit hP _) hs

/-- A record that goes to the Cellar is written between two runs of steps on the links, and the first leaves the unit's due epochs. -/
theorem State.slotWrite_spec (s : State) (l : Nat) (k : Epoch) (h : Nat) (due single : Bool) (w0 : DWord) (got : List (Option DWord)) :
    ∃ u, LinkSteps l (· = h) s u ∧ (∀ n, u.dueEpoch h n = s.dueEpoch h n) ∧ LinkSteps l (· = h)
      (u.celWrite h k single (slotLate got) (!slotAux got) w0 ((got.getD 1 none).getD 0) ((got.getD 2 none).getD 0)).2
      (s.slotWrite l k h due single w0 got) := by
  unfold State.slotWrite
  extract_lets s1 w1 w2 s2 s3
  have h3 : LinkSteps l (· = h) s s3 := by
    have h1 : LinkSteps l (· = h) s s1 := (LinkSteps.start l h s).updUnit rfl _
    have h2 : LinkSteps l (· = h) s s2 := .ite (h1.laneCount (by decide)) h1
    exact .ite h2 (h2.laneCount (by decide))
  have hunit : s3.unit h = s1.unit h := by
    unfold s3 s2
    split <;> split <;> rfl
  have hdue (n : Epoch) : s3.dueEpoch h n = s.dueEpoch h n :=
    State.dueEpoch_congr (by simp [hunit, s1]) (by simp [hunit, s1, UnitSt.hasHold]) n
  refine ⟨s3, h3, hdue, ?_⟩
  obtain ⟨fresh, s4⟩ := s3.celWrite h k single (slotLate got) (!slotAux got) w0 w1 w2
  have h5 : LinkSteps l (· = h) s4 (if fresh && slotAux got then s4.attribDead h (k - 1) (rec64 w1 51 40) else s4) :=
    .ite (.single (.dead _ _ _ _)) .refl
  exact .ite (.ite (h5.unitFresh rfl) (h5.slotMiss rfl due)) h5

theorem State.slotJudge_taken {s : State} (l : Nat) (k : Epoch) {h : Nat} {via : Bool} (due single : Bool) {w0 : DWord}
    (got : List (Option DWord)) {r : Rcpt} (htaken : s.slotTaken h via (r, w0) = true) :
    s.slotJudge l k h via due single w0 got = (s.slotRoute h via w0).slotWrite l k h due single w0 got := by
  simp only [State.slotTaken, Bool.and_eq_true, Bool.or_eq_true, decide_eq_true_eq] at htaken
  obtain ⟨⟨-, hhome⟩, hroute⟩ := htaken
  refine (if_neg (not_not.mpr hhome)).trans (if_neg ?_)
  rcases hroute with hmoved | ⟨hgen, hvia⟩
  · simp [hmoved]
  · simp [hgen, hvia]

theorem State.slotJudge_refused {s : State} (l : Nat) (k : Epoch) {h : Nat} {via : Bool} (due single : Bool) {w0 : DWord}
    (got : List (Option DWord)) {r : Rcpt} (hr : r.burst = true) (htaken : s.slotTaken h via (r, w0) = false) :
    LinkSteps l (· = h) s (s.slotJudge l k h via due single w0 got) := by
  unfold State.slotJudge
  extract_lets u t
  split
  · exact (((LinkSteps.start l h s).laneCount (by decide)).updUnit rfl _).slotMiss rfl due
  · next hhome =>
    have ht : LinkSteps l (· = h) s t := (LinkSteps.start l h s).slotRoute rfl via w0
    rw [if_pos]
    · exact ((ht.laneCount (by decide)).updUnit rfl _).slotMiss rfl due
    · rw [not_not] at hhome
      have hroute : (s.slotMoved h via w0 || (rec64 w0 15 12 = u.rgen && u.bridged = via)) = false := by
        rwa [State.slotTaken, hr, decide_eq_true hhome, Bool.and_self, Bool.true_and] at htaken
      obtain ⟨hmoved, hother⟩ := Bool.or_eq_false_iff.mp hroute
      simp only [hmoved, ne_eq, decide_not, ← Bool.not_and, hother, Bool.not_false, Bool.and_self]

/-- A slot whose record was received is judged by it; SINGLE_BURST counts one burst (R83, R98). -/
theorem State.receiveSlot_burst (s : State) (l : Nat) (k : Epoch) (h : Nat) (via : Bool) {sent : List DWord} {got : List (Option DWord)}
    {r : Rcpt} {w0 : DWord} (hx : classifyBursts sent got = (r, w0)) (hr : r.burst = true) :
    s.receiveSlot l k h via sent got = (if r ≠ .full then s.laneCount l 6 else s).slotJudge l k h via
      (s.dueEpoch h (k - 1) && (s.unit h).bridged = via) (r ≠ .full) w0 got := by
  unfold State.receiveSlot
  rw [hx]
  cases r
  case full | singleA | singleB => rfl
  all_goals exact absurd hr Bool.false_ne_true

/-- A slot that gives no record to the Cellar makes steps on the links alone; one that does writes its record between two such runs, the
first of which leaves the due epochs of the unit those of its route. -/
theorem State.receiveSlot_spec (s : State) (l : Nat) (k : Epoch) (h : Nat) (via : Bool) (sent : List DWord) (got : List (Option DWord)) :
    let x := classifyBursts sent got
    (s.slotTaken h via x = false → LinkSteps l (· = h) s (s.receiveSlot l k h via sent got)) ∧
    (s.slotTaken h via x = true → ∃ u, LinkSteps l (· = h) s u ∧ (∀ n, u.dueEpoch h n = (s.slotRoute h via x.2).dueEpoch h n) ∧
      LinkSteps l (· = h) (u.celWrite h k (x.1 ≠ .full) (slotLate got) (!slotAux got) x.2 ((got.getD 1 none).getD 0) ((got.getD 2 none).getD 0)).2
        (s.receiveSlot l k h via sent got)) := by
  generalize hx : classifyBursts sent got = x
  obtain ⟨r, w0⟩ := x
  cases hr : r.burst with
  | true =>
    rw [s.receiveSlot_burst l k h via hx hr]
    generalize hs1 : (if r ≠ .full then s.laneCount l 6 else s) = s1
    have h1 : LinkSteps l (· = h) s s1 := hs1 ▸ .ite (.laneCount .refl (by decide)) .refl
    have htaken : s1.slotTaken h via (r, w0) = s.slotTaken h via (r, w0) := by rw [← hs1]; split <;> rfl
    have hdue (n : Epoch) : (s1.slotRoute h via w0).dueEpoch h n = (s.slotRoute h via w0).dueEpoch h n := by
      have hunit : s1.unit h = s.unit h := by rw [← hs1]; split <;> rfl
      have hmoved : s1.slotMoved h via w0 = s.slotMoved h via w0 := by rw [State.slotMoved, hunit, ← State.slotMoved]
      unfold State.slotRoute
      rw [hmoved]
      split
      · exact State.dueEpoch_congr (by simp [State.routeChange]) (by simp [State.routeChange, hunit, UnitSt.hasHold]) n
      · exact State.dueEpoch_congr (by rw [hunit]) (by rw [hunit]) n
    refine ⟨fun hnot => ?_, fun hyes => ?_⟩
    · exact h1.trans (State.slotJudge_refused l k _ _ got hr (htaken.trans hnot))
    · rw [State.slotJudge_taken l k _ _ got (htaken.trans hyes)]
      obtain ⟨u, hu, hudue, hend⟩ := (s1.slotRoute h via w0).slotWrite_spec l k h (s.dueEpoch h (k - 1) && (s.unit h).bridged = via) (r ≠ .full) w0 got
      exact ⟨u, (h1.slotRoute rfl via w0).trans hu, fun n => (hudue n).trans (hdue n), hend⟩
  | false =>
    refine ⟨fun _ => ?_, fun htaken => absurd htaken (by simp [State.slotTaken, hr])⟩
    have hmiss (c : Bool) {u : State} (hu : LinkSteps l (· = h) s u) : LinkSteps l (· = h) s (if c then u.unitStale h else u) :=
      .ite (hu.unitStale rfl) hu
    have hend {u : State} (hu : LinkSteps l (· = h) s u) : LinkSteps l (· = h) s (u.staleRouteEnd h via) := hu.updUnit rfl _
    unfold State.receiveSlot
    rw [hx]
    cases r
    case untouched => exact hmiss _ (hend .refl)
    case mismatch => exact hmiss _ (hend (((LinkSteps.start l h s).laneCount (by decide)).tail (.cause _)))
    case absent => exact hmiss _ (hend ((LinkSteps.start l h s).laneCount (by decide)))
    case wrongHome | staleRoute | late => exact .refl
    case full | singleA | singleB => exact absurd hr.symm Bool.false_ne_true

end Sys2Proof.Machine
end

section
/-! PROOFS. The record of a slot (O10): what a write of a record changes of its Shelf, what decides it, and the record that each receipt gives. -/

namespace Sys2Proof.Machine

/-! A record written. -/

/-- Shelf n takes a record of address h: it is not sealed, and h has had none (R144, R146). -/
def State.celOpen (s : State) (h : Nat) (n : Epoch) : Bool :=
  !((s.shelf n).sealedAt.isSome || (match s.cel.newest with | some m => epGe m n | none => false)) &&
    !((smFind (s.shelf n).recs h).isSome || (s.shelf n).got.contains h)

/-- Epoch j is newer than the source of an entry carried, or there is none (R142). -/
def newerThan (old : Option Entry) (j : Epoch) : Bool :=
  match old with
  | none => true
  | some o => epGe j o.src && j ≠ o.src

/-- The entry that a record of unit h of the frame of EPOCH k would make (R140, R142, R143). -/
def State.recordEntry (s : State) (h : Nat) (k : Epoch) (single late auxLost : Bool) (w0 w1 w2 : DWord) : Entry :=
  let n := k - 1
  let old := s.carryFrom h 64 n
  let j := resolveSepoch k (rec64 w0 21 16)
  let isLate := late || j ≠ n
  ⟨w0, if auxLost then (old.map (·.w1)).getD 0 else w1, if auxLost then (old.map (·.w2)).getD 0 else w2, j,
    if auxLost then (old.map (·.aux)).getD (n - 255) else n, isLate, single, isLate, auxLost, !s.dueEpoch h n, false⟩

/-- The entry that a record of unit h of the frame of EPOCH k makes: none for a LATE one that is not newer than the entry carried (R142). -/
def State.celEntry (s : State) (h : Nat) (k : Epoch) (single late auxLost : Bool) (w0 w1 w2 : DWord) : Option Entry :=
  let e := s.recordEntry h k single late auxLost w0 w1 w2
  if !e.late || newerThan (s.carryFrom h 64 (k - 1)) e.src then some e else none

/-- A Shelf with the entry of address h, or with a record of h that gave none (R142). -/
def Shelf.put (sh : Shelf) (h : Nat) : Option Entry → Shelf
  | some e => { sh with recs := smInsert sh.recs h e }
  | none => { sh with got := h :: sh.got }

/-- Shelf n with the entry of address h (R142). -/
def State.celPut (s : State) (h : Nat) (n : Epoch) (e : Option Entry) : State := s.updShelf n fun sh => sh.put h e

/-- The entry of an address leaves what a Shelf that had none of it is and holds of another. -/
theorem Shelf.put_other {sh : Shelf} {g h : Nat} (e : Option Entry) (hne : g ≠ h) (hkeys : ∀ p ∈ sh.recs, p.1 ≠ g) :
    (sh.put g e).sealedAt = sh.sealedAt ∧ smFind (sh.put g e).recs h = smFind sh.recs h ∧ (sh.put g e).got.contains h = sh.got.contains h := by
  cases e with
  | none => exact ⟨rfl, rfl, by simp [Shelf.put, Ne.symm hne]⟩
  | some e => exact ⟨rfl, by rw [Shelf.put, smFind_insert _ _ _ _ hkeys, if_neg (Ne.symm hne)], rfl⟩

theorem State.shelf_celPut (s : State) (h : Nat) (n : Epoch) (e : Option Entry) (m : Epoch) :
    (s.celPut h n e).shelf m = if m = n then (s.shelf n).put h e else s.shelf m := by
  rw [State.celPut, State.shelf_updShelf]
  simp only [BitVec.toNat_inj]

/-- A record changes the Shelf of its frame alone, and only where this takes it (R142, R144). -/
theorem State.celWrite_shelves (s : State) (h : Nat) (k : Epoch) (single late auxLost : Bool) (w0 w1 w2 : DWord) :
    (s.celWrite h k single late auxLost w0 w1 w2).2.cel.newest = s.cel.newest ∧
    (s.celWrite h k single late auxLost w0 w1 w2).2.cel.shelves = (if s.celOpen h (k - 1) then
      (s.celPut h (k - 1) (s.celEntry h k single late auxLost w0 w1 w2)).cel.shelves else s.cel.shelves) := by
  unfold State.celWrite State.celOpen
  extract_lets n sh j old isLate aux1 aux2 auxE e put newer
  cases hsealed : (sh.sealedAt.isSome || (match s.cel.newest with | some m => epGe m n | none => false)) with
  | true => simp only [if_true]; exact ⟨rfl, rfl⟩
  | false =>
  cases hheld : ((smFind sh.recs h).isSome || sh.got.contains h) with
  | true => simp only [if_true]; exact ⟨rfl, rfl⟩
  | false =>
  have hentry : s.celEntry h k single late auxLost w0 w1 w2 = if !isLate || newer then some e else none := rfl
  rw [hentry]
  cases isLate <;> cases newer <;> exact ⟨rfl, rfl⟩

theorem smFind_eq_none {α : Type} {m : SMap α} {k : Nat} (h : smFind m k = none) : ∀ p ∈ m, p.1 ≠ k := by
  induction m with
  | nil => simp
  | cons p m ih =>
    rw [smFind] at h
    split at h
    · contradiction
    · next hp => exact List.forall_mem_cons.mpr ⟨hp, ih h⟩

/-- What a Shelf that takes a record is and holds of it (R144, R146). -/
theorem State.celOpen_iff (s : State) (h : Nat) (n : Epoch) : s.celOpen h n = true ↔
    ((s.shelf n).sealedAt = none ∧ ∀ m, s.cel.newest = some m → epGe m n = false) ∧ smFind (s.shelf n).recs h = none ∧ h ∉ (s.shelf n).got := by
  unfold State.celOpen
  cases s.cel.newest <;> simp

theorem State.shelf_congr {s t : State} (h : t.cel.shelves = s.cel.shelves) (n : Epoch) : t.shelf n = s.shelf n := by
  rw [State.shelf, h, State.shelf]

theorem State.shelf_celWrite (s : State) (h : Nat) (k : Epoch) (single late auxLost : Bool) (w0 w1 w2 : DWord) (m : Epoch) :
    (s.celWrite h k single late auxLost w0 w1 w2).2.shelf m = if s.celOpen h (k - 1) then
      (s.celPut h (k - 1) (s.celEntry h k single late auxLost w0 w1 w2)).shelf m else s.shelf m := by
  have hshelves := (s.celWrite_shelves h k single late auxLost w0 w1 w2).2
  split at hshelves
  · next hopen => rw [if_pos hopen, State.shelf_congr hshelves]
  · next hclosed => rw [if_neg hclosed, State.shelf_congr hshelves]

/-- The Shelf of the frame holds the record where the Shelf takes it, and what it held where not (R142, R144). -/
theorem State.celWrite_record (s : State) (h : Nat) (k : Epoch) (single late auxLost : Bool) (w0 w1 w2 : DWord) :
    smFind ((s.celWrite h k single late auxLost w0 w1 w2).2.shelf (k - 1)).recs h = if s.celOpen h (k - 1) then
      s.celEntry h k single late auxLost w0 w1 w2 else smFind (s.shelf (k - 1)).recs h := by
  rw [State.shelf_celWrite]
  split
  · next hopen =>
    obtain ⟨-, hfree, -⟩ := (s.celOpen_iff h (k - 1)).mp hopen
    cases s.celEntry h k single late auxLost w0 w1 w2 with
    | none => rw [State.shelf_celPut, if_pos rfl]; exact hfree
    | some e => rw [State.shelf_celPut, if_pos rfl, Shelf.put, smFind_insert _ _ _ _ (smFind_eq_none hfree), if_pos rfl]
  · rfl

/-! What the record of a slot rests on. -/

/-- What decides the record of unit h in Shelf n: the unit, the newest sealed Shelf, the other Shelves, and of Shelf n what it holds of h. -/
structure SlotView where
  unit : UnitSt
  newest : Option Epoch
  others : Epoch → Shelf
  sealedAt : Option Epoch
  rcd : Option Entry
  got : Bool

/-- What decides the record of unit h in Shelf n. -/
def State.slotView (h : Nat) (n : Epoch) (s : State) : SlotView :=
  ⟨s.unit h, s.cel.newest, fun m => if m = n then {} else s.shelf m, (s.shelf n).sealedAt, smFind (s.shelf n).recs h, (s.shelf n).got.contains h⟩

section
variable {s t : State} {h : Nat} {n : Epoch}

theorem State.slotView_congr (hunit : t.unit h = s.unit h) (hcel : t.cel = s.cel) : t.slotView h n = s.slotView h n := by
  unfold State.slotView State.shelf
  rw [hunit, hcel]

theorem State.unit_congr (hlnk : t.lnk = s.lnk) (g : Nat) : t.unit g = s.unit g := by rw [State.unit, hlnk, State.unit]

theorem State.celOpen_congr (hview : t.slotView h n = s.slotView h n) : t.celOpen h n = s.celOpen h n := by
  have hnewest : t.cel.newest = s.cel.newest := congrArg SlotView.newest hview
  have hsealed : (t.shelf n).sealedAt = (s.shelf n).sealedAt := congrArg SlotView.sealedAt hview
  have hrcd : smFind (t.shelf n).recs h = smFind (s.shelf n).recs h := congrArg SlotView.rcd hview
  have hgot : (t.shelf n).got.contains h = (s.shelf n).got.contains h := congrArg SlotView.got hview
  rw [State.celOpen, hnewest, hsealed, hrcd, hgot, State.celOpen]

theorem State.readEntry_congr {m : Epoch} (hdue : t.dueEpoch h m = s.dueEpoch h m) (hshelf : t.shelf m = s.shelf m)
    (hbefore : t.shelf (m - 1) = s.shelf (m - 1)) : t.readEntry m h = s.readEntry m h := by
  rw [State.readEntry, hdue, hshelf, hbefore, ← State.readEntry]

/-- What is carried into Shelf n of a unit does not rest on that Shelf: the Shelves searched stand before it (R143). -/
theorem State.carryFrom_congr (hdue : ∀ m, t.dueEpoch h m = s.dueEpoch h m) (hshelf : ∀ m, m ≠ n → t.shelf m = s.shelf m) :
    ∀ (fuel : Nat) (m : Epoch), (n - m).toNat + fuel ≤ 64 → t.carryFrom h fuel m = s.carryFrom h fuel m
  | 0, _, _ => rfl
  | fuel + 1, m, hm => by
    have hbefore : m - 1 ≠ n := by bv_omega
    have hread : t.readEntry (m - 1) h = s.readEntry (m - 1) h :=
      State.readEntry_congr (hdue _) (hshelf _ hbefore) (hshelf _ (by bv_omega))
    rw [State.carryFrom, State.carryFrom, hread, hshelf _ hbefore, carryFrom_congr hdue hshelf fuel (m - 1) (by bv_omega)]

theorem State.celEntry_congr {k : Epoch} (hdue : ∀ m, t.dueEpoch h m = s.dueEpoch h m) (hshelf : ∀ m, m ≠ k - 1 → t.shelf m = s.shelf m)
    (single late auxLost : Bool) (w0 w1 w2 : DWord) :
    t.celEntry h k single late auxLost w0 w1 w2 = s.celEntry h k single late auxLost w0 w1 w2 := by
  have hcarry : t.carryFrom h 64 (k - 1) = s.carryFrom h 64 (k - 1) := State.carryFrom_congr hdue hshelf 64 (k - 1) (by simp)
  rw [State.celEntry, State.celEntry, State.recordEntry, State.recordEntry, hcarry, hdue]

theorem LinkSteps.slotView {l : Nat} {P : Nat → Prop} (hsteps : LinkSteps l P s t) (hP : ∀ x, P x → x ≠ h) :
    t.slotView h n = s.slotView h n := State.slotView_congr (hsteps.unit_ne hP) hsteps.cel

end

/-- The record of another address leaves what decides that of h. -/
theorem State.celWrite_slotView (s : State) {h g : Nat} (hne : g ≠ h) (k : Epoch) (single late auxLost : Bool) (w0 w1 w2 : DWord) :
    (s.celWrite g k single late auxLost w0 w1 w2).2.slotView h (k - 1) = s.slotView h (k - 1) := by
  have hunit : (s.celWrite g k single late auxLost w0 w1 w2).2.unit h = s.unit h :=
    State.unit_congr (keep_lnk (by simp)) h
  have hnewest := (s.celWrite_shelves g k single late auxLost w0 w1 w2).1
  unfold State.slotView
  rw [hunit, hnewest]
  simp only [State.shelf_celWrite]
  split
  · next hopen =>
    obtain ⟨-, hfree, -⟩ := (s.celOpen_iff g (k - 1)).mp hopen
    generalize s.celEntry g k single late auxLost w0 w1 w2 = e
    generalize k - 1 = n at hfree
    have hothers (m : Epoch) : (if m = n then {} else (s.celPut g n e).shelf m) = if m = n then {} else s.shelf m := by
      rw [State.shelf_celPut]
      split <;> rfl
    obtain ⟨hsealed, hrcd, hgot⟩ := Shelf.put_other e hne (smFind_eq_none hfree)
    simp only [hothers, State.shelf_celPut s g n e n, if_true, hsealed, hrcd, hgot]
  · rfl

/-! The record of a slot. -/

/-- The record of unit h in the Shelf of the frame of EPOCH k after its slot. -/
def State.slotRecord (s : State) (k : Epoch) (h : Nat) (via : Bool) (sent : List DWord) (got : List (Option DWord)) : Option Entry :=
  let x := classifyBursts sent got
  if s.slotTaken h via x && s.celOpen h (k - 1) then
    (s.slotRoute h via x.2).celEntry h k (x.1 ≠ .full) (slotLate got) (!slotAux got) x.2 ((got.getD 1 none).getD 0) ((got.getD 2 none).getD 0)
  else smFind (s.shelf (k - 1)).recs h

theorem State.receiveSlot_record (s : State) (l : Nat) (k : Epoch) (h : Nat) (via : Bool) (sent : List DWord) (got : List (Option DWord)) :
    smFind ((s.receiveSlot l k h via sent got).shelf (k - 1)).recs h = s.slotRecord k h via sent got := by
  have hshelf {a b : State} (hsteps : LinkSteps l (· = h) a b) (m : Epoch) : b.shelf m = a.shelf m :=
    State.shelf_congr (congrArg CelSt.shelves hsteps.cel) m
  obtain ⟨hrefused, htaken⟩ := s.receiveSlot_spec l k h via sent got
  unfold State.slotRecord
  extract_lets x
  cases hx : s.slotTaken h via x with
  | false => rw [hshelf (hrefused hx)]; rfl
  | true =>
    obtain ⟨u, hu, hdue, hend⟩ := htaken hx
    have hopen : u.celOpen h (k - 1) = s.celOpen h (k - 1) := by rw [State.celOpen, hu.cel, State.shelf, hu.cel, State.celOpen, State.shelf]
    have hroute (m : Epoch) : (s.slotRoute h via x.2).shelf m = s.shelf m :=
      hshelf ((LinkSteps.start l h s).slotRoute rfl via _) m
    rw [hshelf hend, State.celWrite_record, hopen, hshelf hu,
      State.celEntry_congr hdue (fun m _ => (hshelf hu m).trans (hroute m).symm), Bool.true_and]

/-- The record of a slot rests on the view of its unit alone. -/
theorem State.slotRecord_congr {s t : State} {h : Nat} {k : Epoch} (hview : t.slotView h (k - 1) = s.slotView h (k - 1)) (via : Bool)
    (sent : List DWord) (got : List (Option DWord)) : t.slotRecord k h via sent got = s.slotRecord k h via sent got := by
  have hunit : t.unit h = s.unit h := congrArg SlotView.unit hview
  have hothers (m : Epoch) (hm : m ≠ k - 1) : t.shelf m = s.shelf m := by
    have hm' := congrFun (congrArg SlotView.others hview) m
    simp only [State.slotView, if_neg hm] at hm'
    exact hm'
  have hrcd : smFind (t.shelf (k - 1)).recs h = smFind (s.shelf (k - 1)).recs h := congrArg SlotView.rcd hview
  have hmoved (w0 : DWord) : t.slotMoved h via w0 = s.slotMoved h via w0 := by rw [State.slotMoved, hunit, State.slotMoved]
  have htaken (x : Rcpt × DWord) : t.slotTaken h via x = s.slotTaken h via x := by
    rw [State.slotTaken, hmoved, hunit, State.slotTaken]
  have hroute (w0 : DWord) : (t.slotRoute h via w0).unit h = (s.slotRoute h via w0).unit h := by
    rw [State.slotRoute, State.slotRoute, hmoved]
    split
    · simp [State.routeChange, hunit]
    · exact hunit
  have hshelf (w0 : DWord) (m : Epoch) (hm : m ≠ k - 1) : (t.slotRoute h via w0).shelf m = (s.slotRoute h via w0).shelf m := by
    have hkeep (r : State) : (r.slotRoute h via w0).shelf m = r.shelf m :=
      State.shelf_congr (congrArg CelSt.shelves ((LinkSteps.start 0 h r).slotRoute rfl via w0).cel) m
    rw [hkeep, hkeep, hothers m hm]
  have hdue (w0 : DWord) (m : Epoch) : (t.slotRoute h via w0).dueEpoch h m = (s.slotRoute h via w0).dueEpoch h m :=
    State.dueEpoch_congr (by rw [hroute]) (by rw [hroute]) m
  rw [State.slotRecord, State.slotRecord, htaken, State.celOpen_congr hview, hrcd, State.celEntry_congr (hdue _) (hshelf _)]

/-- The slot of another unit leaves what decides the record of h. -/
theorem State.receiveSlot_slotView (s : State) (l : Nat) {h g : Nat} (hne : g ≠ h) (k : Epoch) (via : Bool) (sent : List DWord)
    (got : List (Option DWord)) : (s.receiveSlot l k g via sent got).slotView h (k - 1) = s.slotView h (k - 1) := by
  have hother : ∀ x, x = g → x ≠ h := fun x hx => hx ▸ hne
  obtain ⟨hrefused, htaken⟩ := s.receiveSlot_spec l k g via sent got
  cases hx : s.slotTaken g via (classifyBursts sent got) with
  | false => exact (hrefused hx).slotView hother
  | true =>
    obtain ⟨u, hu, -, hend⟩ := htaken hx
    exact (hend.slotView hother).trans ((u.celWrite_slotView hne k _ _ _ _ _ _).trans (hu.slotView hother))

theorem State.receiveSpare_slotView (s : State) (l h : Nat) (n : Epoch) (sent : List DWord) (got : List (Option DWord)) :
    (s.receiveSpare l sent got).slotView h n = s.slotView h n := by
  unfold State.receiveSpare
  split <;> rfl

/-- A view that, of the steps of a fold over the indices below n, only step k may change is after the fold what step k makes of it. -/
theorem view_foldl_below {B : Type} {f : State → Nat → State} {view : State → B} {n k : Nat} (hk : k < n) (s : State)
    (h : ∀ y a, a < n → a ≠ k → view (f y a) = view y) :
    ∃ u : State, view u = view s ∧ view ((List.range n).foldl f s) = view (f u k) := by
  let g (y : State) (a : Nat) : State := if a < n then f y a else y
  have hfold : (List.range n).foldl f s = (List.range n).foldl g s :=
    List.foldl_ext f g s fun y a ha => (if_pos (List.mem_range.mp ha)).symm
  have hg : ∀ y a, a ≠ k → view (g y a) = view y := by
    intro y a ha
    unfold g
    split
    · next hlt => exact h y a hlt ha
    · rfl
  obtain ⟨u, hu, hend⟩ := view_foldl_range (f := g) hk s hg
  exact ⟨u, hu, by rw [hfold, hend]; exact congrArg view (if_pos hk)⟩

/-- Slot i of a frame sent, as received: its unit's, or one for which none is expected (R83). -/
def State.receiveAt (s : State) (l : Nat) (f : Sent) (content : List (Option DWord)) (i : Nat) : State :=
  let sent := (f.blocks.drop (2 + 4 * i)).take 4
  let got := (content.drop (1 + 4 * i)).take 4
  match f.homes.getD i none with
  | some h => s.receiveSlot l f.k h (f.kind = 2) sent got
  | none => s.receiveSpare l sent got

theorem State.receiveSlots_eq (s : State) (l : Nat) (f : Sent) (content : List (Option DWord)) :
    s.receiveSlots l f content = ((List.range 8).foldl (fun s i => s.receiveAt l f content i) s).missPhase l f.k f.kind := rfl

theorem State.receiveAt_home (s : State) (l : Nat) {f : Sent} (content : List (Option DWord)) {i h : Nat}
    (hhome : f.homes.getD i none = some h) : s.receiveAt l f content i =
      s.receiveSlot l f.k h (f.kind = 2) ((f.blocks.drop (2 + 4 * i)).take 4) ((content.drop (1 + 4 * i)).take 4) := by
  rw [State.receiveAt, hhome]

theorem State.receiveAt_slotView (s : State) (l : Nat) {f : Sent} (content : List (Option DWord)) {i h : Nat}
    (hother : f.homes.getD i none ≠ some h) : (s.receiveAt l f content i).slotView h (f.k - 1) = s.slotView h (f.k - 1) := by
  unfold State.receiveAt
  extract_lets sent got
  split
  · next g hg => exact s.receiveSlot_slotView l (fun e => hother (hg.trans (congrArg some e))) f.k _ sent got
  · exact s.receiveSpare_slotView l h _ sent got

/-- Of the slots of a frame only the one of unit h writes its record (R83). -/
theorem State.receiveSlots_record (s : State) (l : Nat) (f : Sent) (content : List (Option DWord)) {i h : Nat} (hi : i < 8)
    (hhome : f.homes.getD i none = some h) (hother : ∀ j < 8, j ≠ i → f.homes.getD j none ≠ some h) :
    smFind ((s.receiveSlots l f content).shelf (f.k - 1)).recs h =
      s.slotRecord f.k h (f.kind = 2) ((f.blocks.drop (2 + 4 * i)).take 4) ((content.drop (1 + 4 * i)).take 4) := by
  obtain ⟨u, hu, hfold⟩ := view_foldl_below (view := State.slotView h (f.k - 1)) hi s
    fun y j hj hne => y.receiveAt_slotView l content (hother j hj hne)
  rw [State.receiveAt_home u l content hhome] at hfold
  have hphase (y : State) : (y.missPhase l f.k f.kind).cel = y.cel := keep_cel (by simp)
  rw [State.receiveSlots_eq, State.shelf_congr (congrArg CelSt.shelves (hphase _)), ← State.slotRecord_congr hu, ← u.receiveSlot_record l]
  exact congrArg SlotView.rcd hfold

/-! A slot on the route of its unit. -/

/-- On its route a unit's slot gives a record for its home address and of its generation, and none where these differ or no record was
received (R83). -/
theorem State.slotRecord_on_route {s : State} {k : Epoch} {h : Nat} {via : Bool} (sent : List DWord) (got : List (Option DWord))
    (hvia : (s.unit h).bridged = via) (hopen : s.celOpen h (k - 1) = true) {r : Rcpt} {w0 : DWord} (hx : classifyBursts sent got = (r, w0)) :
    s.slotRecord k h via sent got = if r.burst && rec64 w0 33 22 = h && rec64 w0 15 12 = (s.unit h).rgen then
      s.celEntry h k (r ≠ .full) (slotLate got) (!slotAux got) w0 ((got.getD 1 none).getD 0) ((got.getD 2 none).getD 0) else none := by
  obtain ⟨-, hfree, -⟩ := (s.celOpen_iff h (k - 1)).mp hopen
  have hmoved : s.slotMoved h via w0 = false := by simp [State.slotMoved, hvia]
  have hroute : s.slotRoute h via w0 = s := if_neg (by simp [hmoved])
  have htaken : s.slotTaken h via (r, w0) = (r.burst && rec64 w0 33 22 = h && rec64 w0 15 12 = (s.unit h).rgen) := by
    simp [State.slotTaken, hmoved, hvia]
  rw [State.slotRecord, hx]
  simp only [htaken, hopen, hroute, hfree, Bool.and_true]

theorem slotAux_of_words {got : List (Option DWord)} {w1 w2 : DWord} (h1 : got.getD 1 none = some w1) (h2 : got.getD 2 none = some w2) :
    slotAux got = auxOk w1 w2 := by rw [slotAux, h1, h2]

theorem slotAux_eq_false {got : List (Option DWord)}
    (hbad : ∀ w1 w2, got.getD 1 none = some w1 → got.getD 2 none = some w2 → auxOk w1 w2 = false) : slotAux got = false := by
  unfold slotAux
  split
  · next a b ha hb => exact hbad a b ha hb
  · rfl

section
variable {s : State} {h : Nat} {k : Epoch} {w0 : DWord}

theorem notLate_of_timely (hj : resolveSepoch k (rec64 w0 21 16) = k - 1) :
    (false || decide (resolveSepoch k (rec64 w0 21 16) ≠ k - 1)) = false := by
  simp only [hj, ne_eq, not_true, decide_false, Bool.or_self]

/-- A record of the frame's own sample epoch is taken (R83, R142). -/
theorem State.celEntry_timely (hj : resolveSepoch k (rec64 w0 21 16) = k - 1) (single : Bool) (w1 w2 : DWord) :
    s.celEntry h k single false false w0 w1 w2 =
      some ⟨w0, w1, w2, resolveSepoch k (rec64 w0 21 16), k - 1, false, single, false, false, !s.dueEpoch h (k - 1), false⟩ := by
  rw [State.celEntry, State.recordEntry, notLate_of_timely hj]
  rfl

/-- A LATE record is taken where its epoch is newer than that of the entry carried (R83, R142). -/
theorem State.celEntry_late {late : Bool} (hlate : late = true ∨ resolveSepoch k (rec64 w0 21 16) ≠ k - 1) (single : Bool) (w1 w2 : DWord) :
    s.celEntry h k single late false w0 w1 w2 = if newerThan (s.carryFrom h 64 (k - 1)) (resolveSepoch k (rec64 w0 21 16)) then
      some ⟨w0, w1, w2, resolveSepoch k (rec64 w0 21 16), k - 1, true, single, true, false, !s.dueEpoch h (k - 1), false⟩ else none := by
  have hlate : (late || decide (resolveSepoch k (rec64 w0 21 16) ≠ k - 1)) = true := by
    rwa [Bool.or_eq_true, decide_eq_true_iff]
  rw [State.celEntry, State.recordEntry, hlate]
  rfl

/-- A record with AUX_LOST has words 1 and 2 of the entry carried (R83, R143). -/
theorem State.celEntry_auxLost (hj : resolveSepoch k (rec64 w0 21 16) = k - 1) (single : Bool) (w1 w2 : DWord) :
    let old := s.carryFrom h 64 (k - 1)
    s.celEntry h k single false true w0 w1 w2 = some ⟨w0, (old.map (·.w1)).getD 0, (old.map (·.w2)).getD 0, resolveSepoch k (rec64 w0 21 16),
      (old.map (·.aux)).getD (k - 1 - 255), false, single, false, true, !s.dueEpoch h (k - 1), false⟩ := by
  rw [State.celEntry, State.recordEntry, notLate_of_timely hj]
  rfl

end

end Sys2Proof.Machine
end

section
/-! PROOFS. Frames sent and received (O10): what a returning frame changes of the lanes, and the clauses assembled. -/

namespace Sys2Proof.Machine

/-! The slots of a frame, and the lanes. -/

theorem LaneCounted.part {A : Type} {l : Nat} {s t : State} (h : LaneCounted l s t) (f : LaneSt → A)
    (hf : ∀ a c, f { a with counters := c } = f a := by exact fun _ _ => rfl) : f (t.lane l) = f (s.lane l) := by
  obtain ⟨-, c, hlane, -⟩ := h
  rw [hlane, hf]

theorem State.celWrite_lnk (s : State) (h : Nat) (k : Epoch) (single late auxLost : Bool) (w0 w1 w2 : DWord) :
    (s.celWrite h k single late auxLost w0 w1 w2).2.lnk = s.lnk := keep_lnk ((State.celWrite_frame _ _ _ _ _ _ _ _ (by simp)).mpr (Frame.refl s))

theorem State.receiveSlot_laneCounted (s : State) (l : Nat) (k : Epoch) (h : Nat) (via : Bool) (sent : List DWord) (got : List (Option DWord)) :
    LaneCounted l s (s.receiveSlot l k h via sent got) := by
  obtain ⟨hrefused, htaken⟩ := s.receiveSlot_spec l k h via sent got
  cases hx : s.slotTaken h via (classifyBursts sent got) with
  | false => exact (hrefused hx).laneCounted
  | true =>
    obtain ⟨u, hu, -, hend⟩ := htaken hx
    exact (hu.laneCounted.trans (.of_lanes (congrArg LnkSt.lanes (u.celWrite_lnk h k _ _ _ _ _ _)))).trans hend.laneCounted

theorem State.receiveSpare_steps (s : State) (l : Nat) (P : Nat → Prop) (sent : List DWord) (got : List (Option DWord)) :
    LinkSteps l P s (s.receiveSpare l sent got) := by
  unfold State.receiveSpare
  split
  · exact (LinkSteps.laneCount .refl (by decide)).tail (.cause _)
  · exact .laneCount .refl (by decide)
  · exact (LinkSteps.laneCount .refl (by decide)).laneCount (by decide)
  · exact (LinkSteps.laneCount .refl (by decide)).laneCount (by decide)
  · exact .refl

theorem State.missPhase_laneCounted (s : State) (l : Nat) (k : Epoch) (kind : Nat) : LaneCounted l s (s.missPhase l k kind) := by
  unfold State.missPhase
  split
  · refine .foldl (fun y h => ?_) _ s
    exact (LinkSteps.ite (P := fun _ => True) (.unitStale .refl trivial) .refl).laneCounted
  · exact .refl l s

/-- The slots of a frame change of the lanes only counters of receipts of its own (R98). -/
theorem State.receiveSlots_laneCounted (s : State) (l : Nat) (f : Sent) (content : List (Option DWord)) :
    LaneCounted l s (s.receiveSlots l f content) := by
  rw [State.receiveSlots_eq]
  refine (LaneCounted.foldl (fun y i => ?_) _ s).trans (State.missPhase_laneCounted _ l _ _)
  unfold State.receiveAt
  extract_lets sent got
  split
  · exact y.receiveSlot_laneCounted l f.k _ _ sent got
  · exact (y.receiveSpare_steps l (fun _ => True) sent got).laneCounted

/-! The blocks of a frame period. -/

/-- What the blocks of a frame period change of their lane: two counters and what they show of the path (R98, R125). -/
theorem State.lineSeen_lane (s : State) (l : Nat) (blocks : List LineBlock) :
    (∀ m, m ≠ l → (s.lineSeen l blocks).lane m = s.lane m) ∧ ∃ c b, (s.lineSeen l blocks).lane l = { s.lane l with
      counters := c, badThis := b, hdrThis := (s.lane l).hdrThis || ((s.lane l).locked && (blocks.take 40).any isHeader) } ∧
      smGet 0 c 2 = smGet 0 (s.lane l).counters 2 := by
  unfold State.lineSeen
  refine ⟨fun m hm => by simp [hm], _, _, by rw [State.lane_updLane, if_pos rfl, State.lane_laneCount, if_pos rfl, State.lane_laneCount, if_pos rfl], ?_⟩
  rw [smGet_smUpd, if_neg (by decide), smGet_smUpd, if_neg (by decide)]

theorem State.lineSeen_part {A : Type} (s : State) (l : Nat) (blocks : List LineBlock) (f : LaneSt → A)
    (hf : ∀ a c b d, f { a with counters := c, badThis := b, hdrThis := d } = f a := by exact fun _ _ _ _ => rfl) :
    f ((s.lineSeen l blocks).lane l) = f (s.lane l) := by
  obtain ⟨-, c, b, hlane, -⟩ := s.lineSeen_lane l blocks
  rw [hlane, hf]

theorem State.delivering_lineSeen (s : State) (l : Nat) (blocks : List LineBlock) : (s.lineSeen l blocks).delivering l = s.delivering l := by
  have hactive : (s.lineSeen l blocks).laneActive l = s.laneActive l :=
    State.laneActive_congr rfl rfl (s.lineSeen_part l blocks (·.calibrated)) (s.lineSeen_part l blocks (·.quar))
  rw [State.delivering, hactive]
  rfl

/-- A header found in its window is among the blocks of the frame period, on a lane with block lock (R489). -/
theorem State.header_of_headerAt {s : State} {l : Nat} {blocks : List LineBlock} (h : (s.headerAt l blocks).isSome = true) :
    (s.lane l).locked = true ∧ (blocks.take 40).any isHeader = true := by
  unfold State.headerAt at h
  split at h
  · cases h
  · next f _ _ =>
    split at h
    · next hlane =>
      rw [findHeader, List.findIdx?_isSome, List.any_eq_true] at h
      obtain ⟨b, hb, hheader⟩ := h
      refine ⟨(Bool.and_eq_true_iff.mp hlane).2, List.any_eq_true.mpr ⟨b, ?_, (Bool.and_eq_true_iff.mp hheader).1⟩⟩
      exact (List.take_subset_take_left blocks (by decide)) hb
    · cases h

/-! A frame that leaves the frames in flight. -/

/-- The parts of a lane that a delivered frame sets or keeps. -/
def LaneSt.flight (a : LaneSt) : List Sent × Nat × Bool × Option Nat := (a.inflight, a.darkRun, a.hdrThis, a.returnOfs)

theorem State.lane_dropFlight (s : State) (l : Nat) (f : Sent) (m : Nat) : (s.dropFlight l f).lane m =
    if m = l then { s.lane l with inflight := (s.lane l).inflight.drop 1 } else s.lane m := s.lane_updLane l m _

theorem State.dropFlight_delivered (s : State) (l : Nat) (f : Sent) : l ∈ ((s.dropFlight l f).shelf (f.k - 1)).delivered := by
  rw [State.dropFlight, State.celDelivered, State.shelf_updShelf, if_pos rfl]
  split
  · next h => exact List.contains_iff_mem.mp h
  · exact List.mem_cons_self

theorem State.dropFlight_record (s : State) (l : Nat) (f : Sent) (n : Epoch) : ((s.dropFlight l f).shelf n).recs = (s.shelf n).recs := by
  rw [State.dropFlight, State.celDelivered, State.shelf_updShelf]
  split
  · next h =>
    rw [BitVec.toNat_inj.mp h]
    split <;> rfl
  · rfl

/-- A frame whose slots are classified leaves the frames in flight of its lane, whose counters of receipts change. -/
theorem State.lane_slotsDropped (s : State) (l : Nat) (f : Sent) (content : List (Option DWord)) :
    let t := (s.receiveSlots l f content).dropFlight l f
    (∀ m, m ≠ l → t.lane m = s.lane m) ∧ ∃ c, t.lane l = { s.lane l with counters := c, inflight := (s.lane l).inflight.drop 1 } ∧
      ∀ i < 6, smGet 0 c i = smGet 0 (s.lane l).counters i := by
  obtain ⟨hother, c, hlane, hc⟩ := s.receiveSlots_laneCounted l f content
  refine ⟨fun m hm => ?_, c, ?_, hc⟩
  · rw [State.lane_dropFlight, if_neg hm, hother m hm]
  · rw [State.lane_dropFlight, if_pos rfl, hlane]

/-- A dark frame of lane l: it counts in HDR_RX_BAD, and after four the return offset is searched again (R98, R489). -/
def State.darkFrame (s : State) (l : Nat) : State :=
  (s.laneCount l 2).updLane l fun a => { a with
    darkRun := min 4 (a.darkRun + 1), turns := (0 :: a.turns).take 4, returnOfs := if 3 ≤ a.darkRun then none else a.returnOfs }

theorem State.frameMissed_eq (s : State) (l : Nat) (f : Sent) :
    s.frameMissed l f = ((s.darkFrame l).receiveSlots l f []).dropFlight l f := rfl

theorem State.lane_darkFrame (s : State) (l m : Nat) : (s.darkFrame l).lane m = if m = l then { s.lane l with
    counters := smUpd 0 (s.lane l).counters 2 (fun c => min (2 ^ 32 - 1) (c + 1)), darkRun := min 4 ((s.lane l).darkRun + 1)
    turns := (0 :: (s.lane l).turns).take 4, returnOfs := if 3 ≤ (s.lane l).darkRun then none else (s.lane l).returnOfs } else s.lane m := by
  rw [State.darkFrame, State.lane_updLane, State.lane_laneCount, State.lane_laneCount, if_pos rfl]
  split
  · rfl
  · rfl

theorem State.darkFrame_hdrBad (s : State) (l : Nat) :
    smGet 0 ((s.darkFrame l).lane l).counters 2 = min (2 ^ 32 - 1) (smGet 0 (s.lane l).counters 2 + 1) := by
  rw [State.lane_darkFrame, if_pos rfl]
  exact (smGet_smUpd 0 (s.lane l).counters 2 2 fun c => min (2 ^ 32 - 1) (c + 1)).trans (if_pos rfl)

/-- A lost frame leaves the frames in flight, and counts in HDR_RX_BAD with a dark frame where the lane delivers (R145, R489). -/
theorem State.frameLost_lane {s t : State} {l : Nat} {f : Sent} (h : s.frameLost l f = t) :
    (t.lane l).inflight = (s.lane l).inflight.drop 1 ∧
    (s.delivering l = true → (t.lane l).darkRun = min 4 ((s.lane l).darkRun + 1) ∧ (t.lane l).turns = (0 :: (s.lane l).turns).take 4 ∧
      smGet 0 (t.lane l).counters 2 = min (2 ^ 32 - 1) (smGet 0 (s.lane l).counters 2 + 1)) ∧
    (s.delivering l = false → smGet 0 (t.lane l).counters 2 = smGet 0 (s.lane l).counters 2) ∧ ∀ m, m ≠ l → t.lane m = s.lane m := by
  subst h
  unfold State.frameLost
  cases hdel : s.delivering l with
  | true =>
    obtain ⟨hother, c, hlane, hc⟩ := (s.darkFrame l).lane_slotsDropped l f []
    have hdark := s.lane_darkFrame l l
    rw [if_pos rfl] at hdark ⊢
    rw [hdark] at hlane
    rw [State.frameMissed_eq, hlane]
    refine ⟨rfl, fun _ => ⟨rfl, rfl, ?_⟩, nofun, fun m hm => ?_⟩
    · exact (hc 2 (by decide)).trans (s.darkFrame_hdrBad l)
    · rw [hother m hm, State.lane_darkFrame, if_neg hm]
  | false =>
    obtain ⟨hother, c, hlane, hc⟩ := s.lane_slotsDropped l f []
    rw [if_neg Bool.false_ne_true, hlane]
    exact ⟨rfl, nofun, fun _ => hc 2 (by decide), hother⟩

theorem State.frameLost_delivered (s : State) (l : Nat) (f : Sent) : l ∈ ((s.frameLost l f).shelf (f.k - 1)).delivered := by
  unfold State.frameLost
  split <;> exact State.dropFlight_delivered _ l f

/-! A frame whose header is found. -/

/-- What a delivered frame shows before its slots: insertions, a frame cut short, the end of the dark run, and its turn (R83, R98, R118). -/
def State.frameRead (s : State) (l : Nat) (p : Parsed) : State :=
  let s := s.laneCount l 4 p.inserts
  let s := if p.content.length < 34 then (s.laneCount l 5).latch R.LNK_CAUSE 0 else s
  (s.updLane l (fun a => { a with darkRun := 0 })).turnSeen l (p.content.getD 0 none)

theorem State.frameDelivered_eq (s : State) (l : Nat) (f : Sent) (blocks : List LineBlock) (i : Nat) :
    s.frameDelivered l f blocks i =
      let p := parseContent (contentRegion blocks f.k i) {}
      (((s.frameRead l p).receiveSlots l f p.content).svcAnswer l (p.content.getD 33 none)).dropFlight l f := rfl

/-- A turn shows in three fields of its lane (R73, R118). -/
theorem State.turnSeen_eq (s : State) (l : Nat) (b : Option DWord) :
    ∃ f : LaneSt → LaneSt, s.turnSeen l b = s.updLane l f ∧ ∀ a, ∃ x y z, f a = { a with turnPos := x, turnCause := y, turns := z } := by
  unfold State.turnSeen
  split
  · split
    · exact ⟨_, rfl, fun a => ⟨_, _, _, rfl⟩⟩
    · exact ⟨_, rfl, fun a => ⟨_, _, _, rfl⟩⟩
  · exact ⟨_, rfl, fun a => ⟨_, _, _, rfl⟩⟩

theorem State.frameRead_cel (s : State) (l : Nat) (p : Parsed) : (s.frameRead l p).cel = s.cel := by
  obtain ⟨g, hturn, -⟩ := State.turnSeen_eq _ l (p.content.getD 0 none)
  rw [State.frameRead, hturn]
  split <;> rfl

theorem State.frameRead_unit (s : State) (l : Nat) (p : Parsed) (h : Nat) : (s.frameRead l p).unit h = s.unit h := by
  obtain ⟨g, hturn, -⟩ := State.turnSeen_eq _ l (p.content.getD 0 none)
  rw [State.frameRead, hturn]
  split <;> rfl

theorem State.frameRead_lane (s : State) (l : Nat) (p : Parsed) :
    (∀ m, m ≠ l → (s.frameRead l p).lane m = s.lane m) ∧ ∃ c x y z, (s.frameRead l p).lane l =
      { s.lane l with counters := c, darkRun := 0, turnPos := x, turnCause := y, turns := z } := by
  unfold State.frameRead
  extract_lets s1 s2
  have h2 : (∀ m, m ≠ l → s2.lane m = s.lane m) ∧ ∃ c, s2.lane l = { s.lane l with counters := c } := by
    unfold s2
    split
    · exact ⟨fun m hm => by simp [s1, hm], _, by simp [s1]; rfl⟩
    · exact ⟨fun m hm => by simp [s1, hm], _, by simp [s1]; rfl⟩
  obtain ⟨hother, c, hlane⟩ := h2
  obtain ⟨g, hturn, hg⟩ := State.turnSeen_eq (s2.updLane l fun a => { a with darkRun := 0 }) l (p.content.getD 0 none)
  obtain ⟨x, y, z, hturned⟩ := hg ((s2.updLane l fun a => { a with darkRun := 0 }).lane l)
  rw [hturn]
  refine ⟨fun m hm => by simp [hm, hother m hm], c, x, y, z, ?_⟩
  rw [State.lane_updLane, if_pos rfl, hturned, State.lane_updLane, if_pos rfl, hlane]

/-- A part of the lane that the end of a service transaction does not set is kept through the service block of a frame. -/
theorem State.svcAnswer_part {A : Type} (s : State) (l : Nat) (b : Option DWord) (f : LaneSt → A)
    (hstill : ∀ a, f a.still = f a := by exact fun _ => rfl) (hsvc : ∀ a, f { a with svc := none } = f a := by exact fun _ => rfl) :
    f ((s.svcAnswer l b).lane l) = f (s.lane l) := by
  unfold State.svcAnswer
  split
  · split
    · rw [(s.svcEnd_kept l l _ _ _).part f hstill, State.svcDone, State.lane_updLane, if_pos rfl, hsvc]
    · rfl
  · rfl

theorem State.svcAnswer_of_none {s : State} {l : Nat} (h : (s.lane l).svc = none) (b : Option DWord) : s.svcAnswer l b = s := by
  unfold State.svcAnswer
  rw [h]
  cases b <;> rfl

/-- A delivered frame ends the dark run and leaves the frames in flight; the lane keeps its return offset (R145, R489). -/
theorem State.frameDelivered_flight (s : State) (l : Nat) (f : Sent) (blocks : List LineBlock) (i : Nat) :
    ((s.frameDelivered l f blocks i).lane l).flight = ((s.lane l).inflight.drop 1, 0, (s.lane l).hdrThis, (s.lane l).returnOfs) := by
  rw [State.frameDelivered_eq]
  extract_lets p
  obtain ⟨-, c, x, y, z, hread⟩ := s.frameRead_lane l p
  have hslots := ((s.frameRead l p).receiveSlots_laneCounted l f p.content).part LaneSt.flight
  have hsvc := ((s.frameRead l p).receiveSlots l f p.content).svcAnswer_part l (p.content.getD 33 none) LaneSt.flight
  rw [hslots, hread] at hsvc
  obtain ⟨hfly, hdark, hhdr, hofs⟩ := (by simpa only [LaneSt.flight, Prod.mk.injEq] using hsvc)
  rw [State.lane_dropFlight, if_pos rfl, LaneSt.flight, hfly, hdark, hhdr, hofs]

theorem State.frameDelivered_delivered (s : State) (l : Nat) (f : Sent) (blocks : List LineBlock) (i : Nat) :
    l ∈ ((s.frameDelivered l f blocks i).shelf (f.k - 1)).delivered := State.dropFlight_delivered _ l f

/-- Where no request is outstanding on its lane, a delivered frame changes no other lane. -/
theorem State.frameDelivered_other {s : State} {l : Nat} (hsvc : (s.lane l).svc = none) (f : Sent) (blocks : List LineBlock) (i : Nat)
    {m : Nat} (hm : m ≠ l) : (s.frameDelivered l f blocks i).lane m = s.lane m := by
  rw [State.frameDelivered_eq]
  extract_lets p
  obtain ⟨hother, c, x, y, z, hread⟩ := s.frameRead_lane l p
  have hslots := (s.frameRead l p).receiveSlots_laneCounted l f p.content
  have hnone : (((s.frameRead l p).receiveSlots l f p.content).lane l).svc = none := by
    rw [hslots.part (·.svc), hread]
    exact hsvc
  rw [State.lane_dropFlight, if_neg hm, State.svcAnswer_of_none hnone, hslots.other m hm, hother m hm]

/-- Of a delivered frame each slot writes the record of its unit that the slot alone would write (R83). -/
theorem State.frameDelivered_record (s : State) (l : Nat) (f : Sent) (blocks : List LineBlock) (p : Nat) {i h : Nat} (hi : i < 8)
    (hhome : f.homes.getD i none = some h) (hother : ∀ j < 8, j ≠ i → f.homes.getD j none ≠ some h) :
    smFind ((s.frameDelivered l f blocks p).shelf (f.k - 1)).recs h = s.slotRecord f.k h (f.kind = 2) ((f.blocks.drop (2 + 4 * i)).take 4)
      (((parseContent (contentRegion blocks f.k p) {}).content.drop (1 + 4 * i)).take 4) := by
  rw [State.frameDelivered_eq]
  extract_lets q
  have hview : (s.frameRead l q).slotView h (f.k - 1) = s.slotView h (f.k - 1) :=
    State.slotView_congr (s.frameRead_unit l q h) (s.frameRead_cel l q)
  have hcel (y : State) (b : Option DWord) : (y.svcAnswer l b).cel = y.cel := keep_cel (by simp)
  rw [State.dropFlight_record, State.shelf_congr (congrArg CelSt.shelves (hcel _ _)), State.receiveSlots_record _ l f _ hi hhome hother,
    State.slotRecord_congr hview]

/-! The commands. -/

theorem exec_headerWindowMiss {l : Nat} {blocks : List LineBlock} {f : Sent} {rest : List Sent} {s : State}
    (hfly : (s.lane l).inflight = f :: rest) (hat : s.headerAt l blocks = none) :
    exec (.headerWindowMiss ⟨l, blocks⟩) s = .next ((s.lineSeen l blocks).frameLost l f) := by
  have hfly' : ((s.lineSeen l blocks).lane l).inflight = f :: rest := (s.lineSeen_part l blocks (·.inflight)).trans hfly
  refine (if_neg (by simp [hat]) : execHeaderWindowMiss ⟨l, blocks⟩ s = _).trans ?_
  simp only [execReturnFrameReceive, hat, hfly']

theorem exec_returnFrameReceive {l p : Nat} {blocks : List LineBlock} {f : Sent} {rest : List Sent} {s : State}
    (hfly : (s.lane l).inflight = f :: rest) (hat : s.headerAt l blocks = some p) :
    exec (.returnFrameReceive l blocks) s = .next ((s.lineSeen l blocks).frameDelivered l f blocks p) := by
  have hfly' : ((s.lineSeen l blocks).lane l).inflight = f :: rest := (s.lineSeen_part l blocks (·.inflight)).trans hfly
  refine (?_ : execReturnFrameReceive l blocks s = _)
  simp only [execReturnFrameReceive, hat, hfly']

/-- Settles O10: a launch and a lost frame by what they leave of each lane, and the records of a delivered frame by the view of each unit,
which the slot of another unit does not change. -/
theorem laneFrames : Obligations.LaneFrames := by
  refine ⟨fun l s hact hlaunch hidle hnew => ?launch, fun l s hact hlaunch hidle => ?idle, fun l s h => exec_frameLaunch_none h,
    fun l blocks f rest s hfly hat => ?miss, fun l blocks f rest s hfly hat => ?receive,
    fun l i h p blocks f rest s hfly hat hi hhome hother => ?record,
    fun l k h via sent got r w0 s hx hsealed hnewest hfree hgot hvia => ?slot, fun l blocks s hat => ?noHeader⟩
  case launch =>
    have hmay : s.mayLaunch l = true := by simp [State.mayLaunch, hact, hlaunch, hidle, hnew]
    obtain ⟨u, hu, hexec⟩ := exec_frameLaunch hmay
    obtain ⟨v, q, t, hstart⟩ := s.lane_svcStart l
    obtain ⟨v', q', t', x, hlane⟩ := (s.svcStart l).lane_launch l _ ((s.svcStart l).launched l) hu
    have hsys : (s.svcStart l).sys = s.sys := keep_sys (by simp)
    have hline := s.lineOf_launched l
    have hl := hlane l
    rw [if_pos rfl, hsys, hstart, if_pos rfl] at hl
    have hblocks : ((s.svcStart l).launched l).blocks.length = 35 := State.frameBlocks_length _ _ _
    refine ⟨_, (s.svcStart l).launched l, hexec, ?_, s.launched_svcStart_k l, hblocks, s.launched_svcStart_kind l, s.launched_svcStart_head l,
      ?_, ?_, ?_, ?_, fun m hm => ?_, execFrameLaunch_frame l hexec⟩
    · rw [State.lane_updShelf, hl]; rfl
    · rw [State.shelf_updShelf, if_pos rfl]; exact List.mem_cons_self
    · rw [State.lane_updShelf, hl]
    · rw [State.lane_updShelf, hl, hline]
      have hlen := frameLine_length (s.probeNow l) hblocks
      split
      · exact insertBlocks_length hlen
      · exact hlen
    · rw [State.lane_updShelf, hl, hline]
    · rw [State.lane_updShelf, hlane, if_neg hm, hstart, if_neg hm]
  case idle =>
    refine ⟨_, exec_frameLaunch_idle hact hlaunch hidle, ?_, ?_, ?_, fun m hm => ?_, by simp [State.putLine]⟩
    · rw [State.putLine, State.lane_updLane, if_pos rfl]
    · rw [State.putLine, State.lane_updLane, if_pos rfl]
    · rw [State.putLine, State.lane_updLane, if_pos rfl]
    · rw [State.putLine, State.lane_updLane, if_neg hm]
  case miss =>
    obtain ⟨hother, c, b, hlane, hc⟩ := s.lineSeen_lane l blocks
    have hexec := exec_headerWindowMiss hfly hat
    obtain ⟨hdrop, hdel, hnot, hlanes⟩ := State.frameLost_lane (s := s.lineSeen l blocks) (l := l) (f := f) rfl
    rw [s.lineSeen_part l blocks (·.inflight), hfly] at hdrop
    have hcount : smGet 0 ((s.lineSeen l blocks).lane l).counters 2 = smGet 0 (s.lane l).counters 2 := by rw [hlane]; exact hc
    rw [State.delivering_lineSeen, s.lineSeen_part l blocks (·.darkRun), s.lineSeen_part l blocks (·.turns), hcount] at hdel
    rw [State.delivering_lineSeen, hcount] at hnot
    exact ⟨_, hexec, hdrop, State.frameLost_delivered _ l f, hdel, hnot, fun m hm => (hlanes m hm).trans (hother m hm),
      execHeaderWindowMiss_frame _ hexec⟩
  case receive =>
    obtain ⟨p, hp⟩ := Option.isSome_iff_exists.mp hat
    obtain ⟨hlocked, hheader⟩ := State.header_of_headerAt hat
    obtain ⟨hother, c, b, hlane, -⟩ := s.lineSeen_lane l blocks
    have hexec := exec_returnFrameReceive hfly hp
    have hflight := (s.lineSeen l blocks).frameDelivered_flight l f blocks p
    rw [hlane, hlocked, hheader, hfly] at hflight
    simp only [LaneSt.flight, Prod.mk.injEq] at hflight
    obtain ⟨hdrop, hdark, hhdr, hofs⟩ := hflight
    refine ⟨_, hexec, hdrop, hdark, hhdr.trans (Bool.or_true _), hofs, State.frameDelivered_delivered _ l f blocks p, fun hsvc m hm => ?_,
      execReturnFrameReceive_frame _ _ hexec⟩
    rw [State.frameDelivered_other ((s.lineSeen_part l blocks (·.svc)).trans hsvc) f blocks p hm, hother m hm]
  case record =>
    have hview : (s.lineSeen l blocks).slotView h (f.k - 1) = s.slotView h (f.k - 1) := State.slotView_congr rfl rfl
    refine ⟨_, exec_returnFrameReceive hfly hat, ?_⟩
    rw [State.frameDelivered_record _ l f blocks p hi hhome hother, State.slotRecord_congr hview, State.receiveSlot_record]
  case slot =>
    have hopen : s.celOpen h (k - 1) = true := (s.celOpen_iff h (k - 1)).mpr ⟨⟨hsealed, hnewest⟩, hfree, hgot⟩
    rw [State.receiveSlot_record, State.slotRecord_on_route sent got hvia hopen hx]
    intro rcd j old notDue
    refine ⟨fun hr => if_neg ?_, fun _ hwrong => if_neg ?_, fun hr hhome hgen => ?_⟩
    · rcases hr with rfl | rfl | rfl <;> exact Bool.false_ne_true
    · rcases hwrong with h' | h' <;> simp [h']
    · have hburst : r.burst = true := by rcases hr with rfl | rfl | rfl <;> rfl
      have hrcd : rcd = s.celEntry h k (r ≠ .full) (slotLate got) (!slotAux got) w0 ((got.getD 1 none).getD 0) ((got.getD 2 none).getD 0) :=
        if_pos (by simp [hburst, hhome, hgen])
      refine ⟨fun w1 w2 h1 h2 hok => ?_, fun hbad hj => ?_⟩
      · have haux : slotAux got = true := (slotAux_of_words h1 h2).trans hok
        have hlate : slotLate got = decide (rec64 w2 13 13 = 1) := by rw [slotLate, haux, h2]; rfl
        rw [hrcd, haux, hlate, h1, h2]
        refine ⟨fun hbit hj => ?_, fun hbit => ?_⟩
        · rw [hbit, decide_eq_false Nat.zero_ne_one]
          exact State.celEntry_timely hj _ w1 w2
        · exact State.celEntry_late (hbit.imp_left decide_eq_true) _ w1 w2
      · have haux : slotAux got = false := slotAux_eq_false hbad
        have hlate : slotLate got = false := by rw [slotLate, haux]; rfl
        rw [hrcd, haux, hlate]
        exact State.celEntry_auxLost hj _ _ _
  case noHeader => exact (if_neg (by simp [hat]) : execHeaderWindowMiss ⟨l, blocks⟩ s = _).symm

end Sys2Proof.Machine
end

section
/-! PROOFS. The strings: what an update of a unit, a lane or a register leaves of units and pairs, units updated one after another, the
results of the string actions, and how a string action starts. -/

namespace Sys2Proof.Machine

/-! Units and pairs. -/

theorem State.pair_congr {s t : State} (h : t.lnk = s.lnk) (m : Nat) : t.pair m = s.pair m := by rw [State.pair, h, State.pair]

@[simp] theorem State.unit_latch (s : State) (k b h : Nat) : (s.latch k b).unit h = s.unit h := rfl
@[simp] theorem State.pair_latch (s : State) (k b m : Nat) : (s.latch k b).pair m = s.pair m := rfl
@[simp] theorem State.unit_laneCount (s : State) (l i n h : Nat) : (s.laneCount l i n).unit h = s.unit h := rfl
@[simp] theorem State.pair_laneCount (s : State) (l i n m : Nat) : (s.laneCount l i n).pair m = s.pair m := rfl
@[simp] theorem State.unit_svcAsk (s : State) (l : Nat) (why : SvcWhy) (addr cmd data h : Nat) :
    (s.svcAsk l why addr cmd data).unit h = s.unit h := rfl
@[simp] theorem State.pair_svcAsk (s : State) (l : Nat) (why : SvcWhy) (addr cmd data m : Nat) :
    (s.svcAsk l why addr cmd data).pair m = s.pair m := rfl

/-- A service request waits on its lane, and changes no other lane. -/
theorem State.lane_svcAsk_ne (s : State) {l m : Nat} (why : SvcWhy) (addr cmd data : Nat) (hm : m ≠ l) :
    (s.svcAsk l why addr cmd data).lane m = s.lane m := (s.lane_updLane l m _).trans (if_neg hm)

theorem State.mem_svcAsk (s : State) (l : Nat) (why : SvcWhy) (addr cmd data : Nat) :
    (⟨why, addr, cmd, BitVec.ofNat 32 data⟩ : SvcReq) ∈ ((s.svcAsk l why addr cmd data).lane l).svcQ := by
  rw [State.svcAsk, State.lane_updLane, if_pos rfl]
  cases why.profile <;> simp

/-- Units updated one after another by a change that does nothing the second time: each unit of the list is changed once. -/
theorem State.unit_foldl {f : UnitSt → UnitSt} (honce : ∀ u, f (f u) = f u) {step : State → Nat → State}
    (hstep : ∀ y a g, (step y a).unit g = if g = a then f (y.unit a) else y.unit g) (hs : List Nat) (s : State) (h : Nat) :
    (hs.foldl step s).unit h = if h ∈ hs then f (s.unit h) else s.unit h := by
  induction hs generalizing s with
  | nil => simp
  | cons a hs ih =>
    rw [List.foldl_cons, ih, hstep]
    by_cases ha : h = a
    · subst ha
      simp [honce]
    · simp [ha]

/-- Units updated one after another leave the lanes. -/
theorem State.lanes_foldl_updUnit (f : UnitSt → UnitSt) (hs : List Nat) (s : State) :
    (hs.foldl (fun y h => y.updUnit h f) s).lnk.lanes = s.lnk.lanes :=
  view_foldl_eq (view := fun y => y.lnk.lanes) s fun _ _ _ => rfl

/-! The results of string actions. -/

theorem State.strResult_busy (s : State) : s.strResult 1 = s.setReg R.LNK_ACTION_STAT 1 := rfl

theorem State.strResult_done (s : State) {r : Nat} (h : r ≠ 1) :
    s.strResult r = (s.setReg R.LNK_ACTION_STAT (BitVec.ofNat 32 r)).latch R.LNK_STR_CAUSE 8 := if_neg h

@[simp] theorem State.strResult_lnk (s : State) (r : Nat) : (s.strResult r).lnk = s.lnk := keep_lnk (by simp)

@[simp] theorem State.strResult_sys (s : State) (r : Nat) : (s.strResult r).sys = s.sys := keep_sys (by simp)

theorem State.strResult_stat (s : State) (r : Nat) : (s.strResult r).reg R.LNK_ACTION_STAT = BitVec.ofNat 32 r := by
  by_cases h : r = 1
  · subst h
    rw [State.strResult_busy, State.reg_setReg, if_pos rfl]
    rfl
  · rw [State.strResult_done _ h, State.reg_latch, if_neg (by decide), State.reg_setReg, if_pos rfl]

theorem State.strResult_regsBut (s : State) (r : Nat) : RegsBut [R.LNK_ACTION_STAT, R.LNK_STR_CAUSE] s (s.strResult r) := by
  have hstat := s.setReg_regsBut R.LNK_ACTION_STAT (BitVec.ofNat 32 r)
  exact .ite (hstat.mono (by simp)) (hstat.pair (State.latch_regsBut _ _ _))

/-- A result other than busy sets ACTION in LNK_STR_CAUSE (R135). -/
theorem State.strResult_cause (s : State) {r : Nat} (h : r ≠ 1) : (s.strResult r).rb R.LNK_STR_CAUSE 8 = true := by
  rw [State.strResult_done _ h]
  exact State.rb_latch _ _ _ (by decide)

/-- A result clears no cause. -/
theorem State.rb_strResult_keeps (s : State) (r : Nat) {b : Nat} (h : s.rb R.LNK_STR_CAUSE b = true) :
    (s.strResult r).rb R.LNK_STR_CAUSE b = true := by
  have hstat : (s.setReg R.LNK_ACTION_STAT (BitVec.ofNat 32 r)).rb R.LNK_STR_CAUSE b = true := by
    rw [State.rb, State.reg_setReg, if_neg (by decide)]
    exact h
  by_cases hr : r = 1
  · rw [hr] at hstat ⊢
    exact hstat
  · rw [State.strResult_done _ hr]
    exact State.rb_latch_keeps _ _ _ _ _ (by decide) hstat

/-! The start of a string action. -/

/-- The write that asks for a string action names its code and its lane (R135). -/
theorem State.actWord_lnkAction (s : State) {code l : Nat} (hcode : code < 16) (hl : l < 512) :
    fld (s.actWord R.LNK_ACTION 31 [(27, 24, code), (8, 0, l)]) 27 24 = code ∧
      fld (s.actWord R.LNK_ACTION 31 [(27, 24, code), (8, 0, l)]) 8 0 = l := by
  simp only [State.actWord, List.foldl_cons, List.foldl_nil]
  constructor
  · rw [fld_setFld_ne _ _ _ _ _ _ (by decide) (by decide), fld_setFld_same _ _ _ _ (by decide)]
    exact Nat.mod_eq_of_lt hcode
  · rw [fld_setFld_same _ _ _ _ (by decide)]
    exact Nat.mod_eq_of_lt hl

/-- The state with the arguments of a string action set in LNK_ACTION (R490). -/
def State.lnkArgs (s : State) (code l : Nat) : State := s.setArgs R.LNK_ACTION (s.actWord R.LNK_ACTION 31 [(27, 24, code), (8, 0, l)])

@[simp] theorem State.lnkArgs_lnk (s : State) (code l : Nat) : (s.lnkArgs code l).lnk = s.lnk := rfl
@[simp] theorem State.lnkArgs_sys (s : State) (code l : Nat) : (s.lnkArgs code l).sys = s.sys := rfl
@[simp] theorem State.unit_lnkArgs (s : State) (code l h : Nat) : (s.lnkArgs code l).unit h = s.unit h := rfl

theorem State.lnkArgs_regsBut (s : State) (code l : Nat) : RegsBut [R.LNK_ACTION] s (s.lnkArgs code l) := s.setArgs_regsBut _ _

@[simp] theorem State.lnkArgs_frame {W : List Part} {r s : State} (code l : Nat) (hW : [.regs] ⊆ W) :
    Frame W r (s.lnkArgs code l) ↔ Frame W r s := State.setArgs_frame _ _ hW

/-- Whether a requester may write LNK_ACTION rests on registers other than it (R394). -/
theorem State.mayWrite_lnkArgs (s : State) (r : Requester) (code l : Nat) :
    (s.lnkArgs code l).mayWrite r R.LNK_ACTION = s.mayWrite r R.LNK_ACTION := by
  have hown : (s.lnkArgs code l).reg (R.HAT_OWN 8) = s.reg (R.HAT_OWN 8) := s.lnkArgs_regsBut code l _ (by decide)
  cases r with
  | mgmt => rfl
  | hatch h =>
    have hobject (slot : Nat) : objectOf R.LNK_ACTION slot = some 8 := rfl
    simp only [State.mayWrite, hobject, State.owns, State.owner, State.rf, hown]

/-- The effect of each string action (R135). -/
def State.strEffect (s : State) (code l : Nat) : State :=
  match code with
  | 1 => s.bridgeVerify l
  | 2 => s.clearQuarantine l
  | 3 => s.clearCounters l
  | 4 => s.clearLost l
  | 5 => s.retrimAction l
  | _ => s.strResult 3

/-- A string action of a requester that may write LNK_ACTION is refused while one runs, and acts otherwise (R135). -/
theorem State.strStart_eq {s : State} {r : Requester} {code l : Nat} (hcode : code < 16) (hl : l < 512)
    (hmay : s.mayWrite r R.LNK_ACTION = true) :
    s.strStart r code l = if s.lnk.action.isSome then (s.lnkArgs code l).strResult 3 else (s.lnkArgs code l).strEffect code l := by
  obtain ⟨hc, hlane⟩ := s.actWord_lnkAction hcode hl
  have heffect : s.strStart r code l = (s.lnkArgs code l).lnkAction r code l := by
    rw [State.strStart, State.runAction_owned _ (by decide) hmay]
    show State.lnkAction _ r _ _ = _
    rw [hc, hlane]
    rfl
  rw [heffect, State.lnkAction, State.strAction, State.asOwner_eq ((s.mayWrite_lnkArgs r code l).trans hmay)]
  rfl

theorem State.strStart_idle {s : State} {r : Requester} {code l : Nat} (hcode : code < 16) (hl : l < 512)
    (hmay : s.mayWrite r R.LNK_ACTION = true) (hidle : s.lnk.action = none) :
    s.strStart r code l = (s.lnkArgs code l).strEffect code l := by
  rw [State.strStart_eq hcode hl hmay, hidle]
  rfl

theorem State.strStart_running {s : State} {r : Requester} {code l : Nat} (hcode : code < 16) (hl : l < 512)
    (hmay : s.mayWrite r R.LNK_ACTION = true) (hrun : s.lnk.action ≠ none) :
    s.strStart r code l = (s.lnkArgs code l).strResult 3 := by
  rw [State.strStart_eq hcode hl hmay]
  exact if_pos (Option.isSome_iff_ne_none.mpr hrun)

end Sys2Proof.Machine
end

section
/-! PROOFS. Cut-off units (O13): the status of a unit that is cut off, the bypass of a LOST unit, and the reassignment of a route. -/

namespace Sys2Proof.Machine

/-- A unit that is cut off: UNOBSERVED, where it was PRESENT or JOINING with its hold offset (R118). -/
def UnitSt.cutOff (u : UnitSt) : UnitSt :=
  { u with status := if u.hasHold ∧ (u.status = .present ∨ u.status = .joining) then .unobserved else u.status }

theorem UnitSt.cutOff_of {u : UnitSt} (hhold : u.hasHold = true) (hst : u.status = .present ∨ u.status = .joining) :
    u.cutOff = { u with status := .unobserved } := by
  rw [UnitSt.cutOff, if_pos ⟨hhold, hst⟩]

theorem UnitSt.cutOff_twice (u : UnitSt) : u.cutOff.cutOff = u.cutOff := by
  by_cases h : u.hasHold = true ∧ (u.status = .present ∨ u.status = .joining)
  · obtain ⟨hhold, hst⟩ := h
    rw [UnitSt.cutOff_of hhold hst]
    simp [UnitSt.cutOff]
  · have hsame : u.cutOff = u := by simp [UnitSt.cutOff, h]
    rw [hsame, hsame]

theorem State.unit_unobserve (s : State) (a g : Nat) : (s.unobserve a).unit g = if g = a then (s.unit a).cutOff else s.unit g :=
  s.unit_updUnit a g _

theorem exec_cutOff (l : Nat) (s : State) : exec (.cutOff l) s = .next ((s.cutOffUnits l).foldl State.unobserve s) := rfl

theorem exec_unitUnobserved {h : Nat} {s : State} (hrun : 16 ≤ (s.unit h).staleRun)
    (hst : (s.unit h).status = .present ∨ (s.unit h).status = .joining ∨ (s.unit h).status = .moving) :
    exec (.unitUnobserved h) s = .next (s.updUnit h fun u => { u with status := .unobserved }) :=
  congrArg Host.Outcome.next (if_pos ⟨hrun, hst⟩)

/-- The state with unit h LOST and its cause set (R117). -/
def State.unitLost (s : State) (h : Nat) : State := (s.updUnit h fun u => { u with status := .lost }).latch R.LNK_STR_CAUSE 3

/-- The bypass of a LOST unit that is under way is brought forward (R280). -/
def State.bypForward (s : State) (h : Nat) : State :=
  if s.bypassing h then s.updByp h (fun b => { b with step := 2, retryAt := some s.sys.epoch }) else s

theorem State.bypForward_frame (s : State) (h : Nat) : Frame [.edg] s (s.bypForward h) := by
  unfold State.bypForward
  split <;> simp

/-- A unit without a bypass sequence has none to bring forward. -/
theorem State.bypForward_none {s : State} {h : Nat} (hstep : (s.eunit h).byp.step = 0) : s.bypForward h = s :=
  if_neg (by simp [State.bypassing, hstep])

theorem exec_unitLost {h : Nat} {s : State} (hrun : 256 ≤ (s.unit h).staleRun) (hst : (s.unit h).status = .unobserved) :
    exec (.unitLost h) s = .next (((s.unitLost h).bypForward h).bypStart h) :=
  if_pos ⟨hrun, .inl hst⟩

theorem State.eunit_updEunit (s : State) (h g : Nat) (f : EUnit → EUnit) :
    (s.updEunit h f).eunit g = if g = h then f (s.eunit h) else s.eunit g := smGet_smUpd ({} : EUnit) s.edg.units h g f

/-- The bypass of a LOST unit starts with its ARM and FIRE, and the time of the next ones (R280). -/
theorem State.bypStart_lost {s : State} {h : Nat} (hlost : (s.unit h).status = .lost) (hstep : (s.eunit h).byp.step = 0) :
    ((s.bypStart h).eunit h).byp = { step := 2, retryAt := some s.sys.epoch } := by
  have hidle : ¬ (1 ≤ (s.eunit h).byp.step ∧ (s.eunit h).byp.step ≤ 5) := by omega
  simp only [State.bypStart, if_neg hidle, hlost, State.updByp, State.eunit_updEunit, if_true]

/-- The route that the device gives the unit on whose home route 64 due epochs were STALE_ROUTE (R119). -/
def State.routeAsked (s : State) (h : Nat) : State :=
  let g := ((s.unit h).staleRgen + 1) % 16
  let t := s.updUnit h fun u => { u with staleRoute := 0 }
  t.svcAsk (h / 8) (.reassign h false g) (h % 8) 0x03 (t.routeData h false g)

theorem exec_routeReassign {h : Nat} {s : State} (hrun : 64 ≤ (s.unit h).staleRoute) (hvia : (s.unit h).staleVia = false) :
    exec (.routeReassign h) s = .next (s.routeAsked h) := by
  show execRouteReassign h s = _
  simp only [execRouteReassign, if_pos hrun, hvia]
  rfl

/-- Settles O13: each command is its update of the unit; the bypass of a LOST unit is the Edge Planner's. -/
theorem cutOffUnits : Obligations.CutOffUnits := by
  refine ⟨fun l h s => ?cut, fun h s hrun hst => ?unobserved, fun h s hrun hst => ?lost, fun h s hrun hvia => ?reassign⟩
  case cut =>
    have hunit := State.unit_foldl UnitSt.cutOff_twice State.unit_unobserve (s.cutOffUnits l) s h
    refine ⟨_, exec_cutOff l s, fun hcut hhold hst => ?_, fun hcut => ?_, fun m => ?_, execCutOff_frame l (exec_cutOff l s)⟩
    · rw [hunit, if_pos hcut, UnitSt.cutOff_of hhold hst]
    · rw [hunit, if_neg hcut]
    · exact view_foldl_eq (view := fun y => y.lane m) s fun _ _ _ => rfl
  case unobserved =>
    refine ⟨_, exec_unitUnobserved hrun hst, ?_, fun g hg => ?_, by simp⟩
    · rw [State.unit_updUnit, if_pos rfl]
    · rw [State.unit_updUnit, if_neg hg]
  case lost =>
    have hedg : Frame [.edg] (s.unitLost h) (((s.unitLost h).bypForward h).bypStart h) := by
      rw [State.bypStart_frame _ (by simp)]
      exact State.bypForward_frame _ _
    have hregs := hedg .regs (by simp)
    have hunit (g : Nat) : (((s.unitLost h).bypForward h).bypStart h).unit g = (s.unitLost h).unit g := State.unit_congr (hedg .lnk (by simp)) g
    have hexec := exec_unitLost hrun hst
    refine ⟨_, hexec, ?_, fun g hg => ?_, ?_, fun hstep => ?_, ?_, execUnitLost_frame h hexec⟩
    · rw [hunit, State.unitLost, State.unit_latch, State.unit_updUnit, if_pos rfl]
    · rw [hunit, State.unitLost, State.unit_latch, State.unit_updUnit, if_neg hg]
    · rw [State.rb, State.reg_congr hregs]
      exact State.rb_latch _ _ _ (by decide)
    · have hlost : ((s.unitLost h).unit h).status = .lost := by simp [State.unitLost]
      have hbyp := State.bypStart_lost hlost (s := s.unitLost h) hstep
      rw [State.bypForward_none (s := s.unitLost h) hstep, hbyp]
      exact ⟨rfl, rfl⟩
    · exact (State.latch_regsBut (s.updUnit h _) _ _).trans (.of_regs hregs)
  case reassign =>
    refine ⟨_, _, exec_routeReassign hrun hvia, State.mem_svcAsk _ _ _ _ _ _, rfl, rfl, rfl, ?_, fun g hg => ?_, fun m hm => ?_, ?_⟩
    · simp [State.routeAsked]
    · simp [State.routeAsked, hg]
    · exact State.lane_svcAsk_ne _ _ _ _ _ hm
    · simp [State.routeAsked]

end Sys2Proof.Machine
end

section
/-! PROOFS. A hand-back begins, a trim of a lane, and the end of a bridge verification: what they leave of pairs, units, the action that runs
and the registers. -/

namespace Sys2Proof.Machine

/-! A hand-back begins. -/

/-- A unit that a hand-over or a hand-back moves (R123, R126). -/
def UnitSt.moved (u : UnitSt) : UnitSt :=
  { u with status := if u.status = .present ∨ u.status = .joining ∨ u.status = .unobserved then .moving else u.status }

theorem UnitSt.moved_twice (u : UnitSt) : u.moved.moved = u.moved := by
  by_cases h : u.status = .present ∨ u.status = .joining ∨ u.status = .unobserved
  · simp [UnitSt.moved, h]
  · have hsame : u.moved = u := by simp [UnitSt.moved, h]
    rw [hsame, hsame]

theorem State.unit_setMoving (s : State) (a g : Nat) : (s.setMoving a).unit g = if g = a then (s.unit a).moved else s.unit g :=
  s.unit_updUnit a g _

/-- Units that are set moving one after another are each moved once. -/
theorem State.unit_foldl_setMoving (hs : List Nat) (s : State) (h : Nat) :
    (hs.foldl State.setMoving s).unit h = if h ∈ hs then (s.unit h).moved else s.unit h :=
  State.unit_foldl UnitSt.moved_twice State.unit_setMoving hs s h

/-- The pair at the start of a hand-back (R126). -/
def PairLnk.handback (p : PairLnk) (e : Epoch) : PairLnk := { p with state := .handback, hbAt := e, flapped := false, home := [], released := [] }

/-- Pair m in hand-back with its moved units MOVING, before the turning unit is released (R126). -/
def State.handbackBegun (s : State) (m : Nat) : State :=
  (s.pair m).moved.foldl State.setMoving (s.updPair m fun p => p.handback s.sys.epoch)

/-- The release of the turning unit is a service request: what no such request changes is as it was before it. -/
theorem State.handback_view {B : Type} (view : State → B)
    (hview : ∀ y l why addr cmd data, view (State.svcAsk y l why addr cmd data) = view y) (s : State) (m : Nat) :
    view (s.handback m) = view (s.handbackBegun m) := by
  show view (if (s.pair m).dark then s.handbackBegun m else _) = _
  split
  · rfl
  · exact hview _ _ _ _ _ _

theorem State.pair_handback (s : State) (m n : Nat) :
    (s.handback m).pair n = if n = m then (s.pair m).handback s.sys.epoch else s.pair n := by
  have hmoved : (s.handbackBegun m).pair n = (s.updPair m fun p => p.handback s.sys.epoch).pair n :=
    view_foldl_eq (view := fun y => y.pair n) _ fun _ _ _ => rfl
  rw [State.handback_view (fun y => y.pair n) (fun _ _ _ _ _ _ => rfl), hmoved, State.pair_updPair]

theorem State.unit_handback (s : State) (m h : Nat) :
    (s.handback m).unit h = if h ∈ (s.pair m).moved then (s.unit h).moved else s.unit h := by
  rw [State.handback_view (fun y => y.unit h) (fun _ _ _ _ _ _ => rfl), State.handbackBegun, State.unit_foldl_setMoving]
  rfl

theorem State.action_handback (s : State) (m : Nat) : (s.handback m).lnk.action = s.lnk.action :=
  (State.handback_view (fun y => y.lnk.action) (fun _ _ _ _ _ _ => rfl) s m).trans
    (view_foldl_eq (view := fun y => y.lnk.action) _ fun _ _ _ => rfl)

theorem State.regs_handback (s : State) (m : Nat) : (s.handback m).regs = s.regs := keep_regs (by simp)

/-! A trim. -/

theorem State.pair_holdsAsked (s : State) (l k m : Nat) : (s.holdsAsked l k).pair m = s.pair m := by
  refine view_foldl_eq (view := fun y => y.pair m) s fun y r _ => ?_
  split <;> rfl

theorem State.regs_holdsAsked (s : State) (l k : Nat) : (s.holdsAsked l k).regs = s.regs := by
  refine view_foldl_eq (view := fun y => y.regs) s fun y r _ => ?_
  split <;> rfl

theorem State.leadLong_regsBut (s : State) : RegsBut [R.LNK_STR_CAUSE] s s.leadLong :=
  (s.latch_regsBut _ _).trans (.of_regs rfl)

/-- A trim changes no pair, and of the registers LNK_STR_CAUSE alone (R112). -/
theorem State.retrim_keeps (s : State) (l : Nat) : (∀ m, (s.retrim l).pair m = s.pair m) ∧ RegsBut [R.LNK_STR_CAUSE] s (s.retrim l) := by
  unfold State.retrim
  extract_lets k u
  have hu : (∀ m, u.pair m = s.pair m) ∧ RegsBut [R.LNK_STR_CAUSE] s u := by
    unfold u
    split
    · exact ⟨fun _ => rfl, s.leadLong_regsBut⟩
    · exact ⟨fun _ => rfl, .refl _ s⟩
  obtain ⟨hpair, hregs⟩ := hu
  split
  · exact ⟨hpair, hregs⟩
  · exact ⟨fun m => (State.pair_holdsAsked _ l k m).trans (hpair m), hregs.trans (.of_regs (State.regs_holdsAsked _ l k))⟩

theorem State.retrimPair_keeps (s : State) (m : Nat) :
    (∀ n, (s.retrimPair m).pair n = s.pair n) ∧ RegsBut [R.LNK_STR_CAUSE] s (s.retrimPair m) := by
  obtain ⟨hpair, hregs⟩ := s.retrim_keeps (2 * m)
  obtain ⟨hpair', hregs'⟩ := (s.retrim (2 * m)).retrim_keeps (2 * m + 1)
  unfold State.retrimPair
  split
  · exact ⟨fun n => (hpair' n).trans (hpair n), hregs.trans hregs'⟩
  · exact ⟨fun _ => rfl, .refl _ s⟩

/-! The end of a verification. -/

/-- A verification has ended with a result; where the pair is BRIDGED its units are still to go back (R120). -/
def State.verifyEnded (s : State) (a : LnkAction) (r : Nat) : State :=
  (({ s with lnk := { s.lnk with action := none } } : State).strResult r).updPair (a.moving / 2) fun p => { p with bridgeOk := r = 2 }

theorem State.pair_verifyEnded (s : State) (a : LnkAction) (r : Nat) :
    (s.verifyEnded a r).pair (a.moving / 2) = { s.pair (a.moving / 2) with bridgeOk := r = 2 } := by
  rw [State.verifyEnded, State.pair_updPair, if_pos rfl, State.pair, State.strResult_lnk]
  rfl

theorem State.verifyEnd_eq (s : State) (a : LnkAction) (r : Nat) : s.verifyEnd a r =
    if (s.pair (a.moving / 2)).state = .bridged then (s.verifyEnded a r).handback (a.moving / 2) else s.verifyEnded a r := by
  show (if ((s.verifyEnded a r).pair (a.moving / 2)).state = .bridged then (s.verifyEnded a r).handback (a.moving / 2)
    else s.verifyEnded a r) = _
  rw [State.pair_verifyEnded]

/-- A verification that has ended runs no longer, whether or not its units still go back (R120, R135). -/
theorem State.verifyEnd_spec (s : State) (a : LnkAction) (r : Nat) :
    (s.verifyEnd a r).lnk.action = none ∧ (s.verifyEnd a r).regs = (s.strResult r).regs ∧
      ((s.verifyEnd a r).pair (a.moving / 2)).bridgeOk = decide (r = 2) ∧
      ((s.pair (a.moving / 2)).state = .bridged → ((s.verifyEnd a r).pair (a.moving / 2)).state = .handback) := by
  have haction : (s.verifyEnded a r).lnk.action = none := by simp [State.verifyEnded, State.updPair]
  have hregs : (s.verifyEnded a r).regs = (s.strResult r).regs := by
    unfold State.verifyEnded State.strResult
    split <;> rfl
  rw [State.verifyEnd_eq]
  split
  · rw [State.action_handback, State.regs_handback, State.pair_handback, if_pos rfl, State.pair_verifyEnded]
    exact ⟨haction, hregs, rfl, fun _ => rfl⟩
  · next hst =>
    rw [State.pair_verifyEnded]
    exact ⟨haction, hregs, rfl, fun h => absurd h hst⟩

end Sys2Proof.Machine
end

section
/-! PROOFS. Bridge verification (O14): its permission, its start, its end without a path, and discovery through the bridge. -/

namespace Sys2Proof.Machine

/-- Whether a lane is active rests on its enable, and on what no register holds (R100). -/
theorem State.laneActive_lnkArgs (s : State) (code l m : Nat) : (s.lnkArgs code l).laneActive m = s.laneActive m := by
  by_cases hm : m < 512
  · have hen : (s.lnkArgs code l).reg (R.LNK_LANE_EN (m / 32)) = s.reg (R.LNK_LANE_EN (m / 32)) :=
      s.lnkArgs_regsBut code l _ (by simp only [R.LNK_LANE_EN, R.LNK_ACTION, List.mem_singleton]; omega)
    rw [State.laneActive, State.laneEnabled, State.rb, hen]
    rfl
  · simp [State.laneActive, State.laneEnabled, hm]

theorem State.bridgeFitted_lnkArgs (s : State) (code l m : Nat) : (s.lnkArgs code l).bridgeFitted m = s.bridgeFitted m := by
  by_cases hm : m < 256
  · have hen : (s.lnkArgs code l).reg (R.LNK_BRIDGE_EN (m / 32)) = s.reg (R.LNK_BRIDGE_EN (m / 32)) :=
      s.lnkArgs_regsBut code l _ (by simp only [R.LNK_BRIDGE_EN, R.LNK_ACTION, List.mem_singleton]; omega)
    rw [State.bridgeFitted, State.rb, hen]
    rfl
  · simp [State.bridgeFitted, hm]

/-- A verification is permitted or not by registers other than LNK_ACTION (R120). -/
theorem State.verifyAllowed_lnkArgs (s : State) (code l m : Nat) : (s.lnkArgs code l).verifyAllowed m = s.verifyAllowed m := by
  simp only [State.verifyAllowed, State.laneActive_lnkArgs, State.bridgeFitted_lnkArgs]
  rfl

/-- A half of a verification runs from its first step on (R120). -/
theorem State.action_verifyArm (s : State) (l moving half : Nat) :
    (s.verifyArm l moving half).lnk.action = some ⟨1, l, moving, half, 1, s.sys.epoch⟩ := by
  have hsys : (s.verifyArm l moving half).sys = s.sys := keep_sys (by simp)
  rw [← hsys]
  rfl

theorem exec_bridgeVerify {r : Requester} {l : Nat} {s : State} (hl : l < 512) (hmay : s.mayWrite r R.LNK_ACTION = true)
    (hidle : s.lnk.action = none) (hallow : s.verifyAllowed l = true) :
    exec (.bridgeVerify r l) s = .next (((s.lnkArgs 1 l).strResult 1).verifyArm l (l / 2 * 2) 0) := by
  refine congrArg Host.Outcome.next ((State.strStart_idle (by decide) hl hmay hidle).trans (if_pos ?_))
  rw [State.verifyAllowed_lnkArgs, hallow]

/-- A verification while an action runs, or that is not permitted, is refused (R120, R135). -/
theorem exec_bridgeVerify_refused {r : Requester} {l : Nat} {s : State} (hl : l < 512) (hmay : s.mayWrite r R.LNK_ACTION = true)
    (hno : s.lnk.action ≠ none ∨ s.verifyAllowed l = false) :
    exec (.bridgeVerify r l) s = .next ((s.lnkArgs 1 l).strResult 3) := by
  by_cases hrun : s.lnk.action = none
  · have hallow : (s.lnkArgs 1 l).verifyAllowed l = false := (s.verifyAllowed_lnkArgs 1 l l).trans (hno.resolve_left (not_not.mpr hrun))
    exact congrArg Host.Outcome.next ((State.strStart_idle (by decide) hl hmay hrun).trans (if_neg (by simp [hallow])))
  · exact congrArg Host.Outcome.next (State.strStart_running (by decide) hl hmay hrun)

theorem exec_bridgeVerifyNoPath {a : LnkAction} {s : State} (hact : s.lnk.action = some a) (hcode : a.code = 1) (hstep : a.step = 2)
    (hlate : 64 ≤ (s.sys.epoch - a.at_).toNat) (hunit : ∃ p < s.stringLen a.moving, (s.unit (a.moving * 8 + p)).bridged = false)
    (hrun : s.runPending = false) : exec .bridgeVerifyNoPath s = .next (s.verifyFail a 4) := by
  obtain ⟨p, hp, hhome⟩ := hunit
  have hany : ((List.range (s.stringLen a.moving)).map (a.moving * 8 + ·)).any (fun h => (s.unit h).bridged = false) = true :=
    List.any_eq_true.mpr ⟨_, List.mem_map_of_mem (List.mem_range.mpr hp), decide_eq_true hhome⟩
  show execBridgeVerifyNoPath s = _
  simp only [execBridgeVerifyNoPath, hact]
  exact congrArg Host.Outcome.next (if_pos ⟨hcode, hstep, hlate, hany, hrun⟩)

/-- The leads of a pair whose bridge is no longer verified are those of the home routes (R120). -/
def State.bridgeLost (s : State) (m : Nat) : State := (s.updPair m fun p => { p with bridgeOk := false }).retrimPair m

theorem State.verifyFail_eq (s : State) (a : LnkAction) (r : Nat) : s.verifyFail a r = (s.bridgeLost (a.moving / 2)).verifyEnd a r := rfl

theorem State.bridgeLost_regsBut (s : State) (m : Nat) : RegsBut [R.LNK_STR_CAUSE] s (s.bridgeLost m) :=
  ((s.updPair m fun p => { p with bridgeOk := false }).retrimPair_keeps m).2

theorem State.pair_bridgeLost (s : State) (m : Nat) : (s.bridgeLost m).pair m = { s.pair m with bridgeOk := false } :=
  (((s.updPair m fun p => { p with bridgeOk := false }).retrimPair_keeps m).1 m).trans ((s.pair_updPair m m _).trans (if_pos rfl))

theorem exec_bridgeDiscovery {l : Nat} {s : State} (hserves : s.servesDiscovery l = true) (hact : s.laneActive l = true)
    (hfree : (s.lane l).disc = none) (hgo : (s.lane l).discStopped = false) (hpair : (s.pair (l / 2)).state = .normal)
    (hleft : (s.pair (l / 2)).found < s.stringLen (partner l))
    (hnew : (s.unit (partner l * 8 + (s.stringLen (partner l) - 1 - (s.pair (l / 2)).found))).status = .notStarted) :
    exec (.bridgeDiscovery l) s = .next (s.discBegin l (partner l * 8 + (s.stringLen (partner l) - 1 - (s.pair (l / 2)).found))
      (8 + (s.pair (l / 2)).found) true) := if_pos ⟨hserves, hact, hfree, hgo, .inl hpair, hleft, hnew⟩

/-- A discovery that begins changes its lane alone (R106). -/
theorem State.lane_discBegin (s : State) (l h p : Nat) (via : Bool) :
    ((s.discBegin l h p via).lane l).disc = some ⟨h, p, via, [], 0, [], 0, false⟩ ∧ ∀ m, m ≠ l → (s.discBegin l h p via).lane m = s.lane m := by
  refine ⟨?_, fun m hm => ?_⟩
  · simp [State.discBegin, State.discAsk, State.svcAsk]
  · simp [State.discBegin, State.discAsk, State.svcAsk, hm]

/-- Settles O14: a verification starts or is refused by its permission, one without a path ends as every verification ends, and discovery
through the bridge is a discovery that begins. -/
theorem bridgeVerification : Obligations.BridgeVerification := by
  refine ⟨fun r l s hl hmay hidle hallow => ?start, fun r l s hl hmay hno => ?refused,
    fun a s hact hcode hstep hlate hunit hrun => ?noPath,
    fun l h s hdisc hfit hact hnone hblock hfree hgo hpair hleft hh hnew => ?discovery⟩
  case start =>
    have harm : (((s.lnkArgs 1 l).strResult 1).verifyArm l (l / 2 * 2) 0).regs = ((s.lnkArgs 1 l).strResult 1).regs := keep_regs (by simp)
    refine ⟨_, exec_bridgeVerify hl hmay hidle hallow, ?_, ?_, ?_, by simp⟩
    · rw [State.action_verifyArm, State.strResult_sys, State.lnkArgs_sys]
    · rw [State.reg_congr harm, State.strResult_stat]
      rfl
    · rw [State.strResult_busy] at harm ⊢
      exact ((s.lnkArgs_regsBut 1 l).pair (State.setReg_regsBut _ _ _)).trans (.of_regs harm)
  case refused =>
    refine ⟨_, exec_bridgeVerify_refused hl hmay hno, State.strResult_stat _ 3, State.strResult_cause _ (by decide), ?_, by simp⟩
    exact ((s.lnkArgs_regsBut 1 l).mono (by simp)).trans ((State.strResult_regsBut _ 3).mono (by simp))
  case noPath =>
    have hexec := exec_bridgeVerifyNoPath hact hcode hstep hlate hunit hrun
    obtain ⟨hnone, hregs, hok, hback⟩ := (s.bridgeLost (a.moving / 2)).verifyEnd_spec a 4
    rw [State.pair_bridgeLost] at hback
    refine ⟨_, hexec, hnone, ?_, ?_, hok, hback, ?_, execBridgeVerifyNoPath_frame hexec⟩
    · rw [State.verifyFail_eq, State.reg_congr hregs, State.strResult_stat]
      rfl
    · rw [State.verifyFail_eq, State.rb, State.reg_congr hregs]
      exact State.strResult_cause _ (by decide)
    · rw [State.verifyFail_eq]
      exact (((s.bridgeLost_regsBut _).mono (by simp)).trans (State.strResult_regsBut _ 4)).trans (.of_regs hregs)
  case discovery =>
    subst hh
    have hserves : s.servesDiscovery l = true := by simp [State.servesDiscovery, hdisc, hfit, hnone, hblock]
    obtain ⟨hbegun, hother⟩ := s.lane_discBegin l (partner l * 8 + (s.stringLen (partner l) - 1 - (s.pair (l / 2)).found))
      (8 + (s.pair (l / 2)).found) true
    exact ⟨_, _, exec_bridgeDiscovery hserves hact hfree hgo hpair hleft hnew, hbegun, rfl, rfl, rfl, hother, by simp⟩

end Sys2Proof.Machine
end

section
/-! PROOFS. Hand-over and hand-back (O15): the next state of each command, and a moved unit that comes home. -/

namespace Sys2Proof.Machine

/-! The hand-over. -/

/-- A counter of a lane stops at its maximum (R98). -/
theorem State.laneCount_counter (s : State) (l i : Nat) :
    smGet 0 ((s.laneCount l i).lane l).counters i = min (2 ^ 32 - 1) (smGet 0 (s.lane l).counters i + 1) := by
  simp

/-- The pair at H0 of a hand-over of the units of lane b that are cut off (R123). -/
def PairLnk.handover (p : PairLnk) (b : Nat) (dark : Bool) (e : Epoch) (cut : List Nat) : PairLnk :=
  { p with state := .handover, broken := b, dark := dark, h0 := e, moved := cut, restoreRun := 0 }

/-- The pair in hand-over with the units of its broken lane MOVING (R123). -/
def State.handoverBegun (s : State) (m b : Nat) : State :=
  (s.cutOffUnits b).foldl State.setMoving (s.updPair m fun p => p.handover b (s.laneDark b) s.sys.epoch (s.cutOffUnits b))

theorem exec_handoverStart {m b : Nat} {s : State} (hlane : s.handoverLane m = some b) :
    exec (.handoverStart m) s = .next (((s.handoverBegun m b).laneCount b 15).latch R.LNK_STR_CAUSE 4) := by
  show execHandoverStart m s = _
  simp only [execHandoverStart, hlane]
  rfl

theorem State.pair_handoverBegun (s : State) (m b n : Nat) : (s.handoverBegun m b).pair n =
    if n = m then (s.pair m).handover b (s.laneDark b) s.sys.epoch (s.cutOffUnits b) else s.pair n := by
  have hmoved : (s.handoverBegun m b).pair n = (s.updPair m fun p => p.handover b (s.laneDark b) s.sys.epoch (s.cutOffUnits b)).pair n :=
    view_foldl_eq (view := fun y => y.pair n) _ fun _ _ _ => rfl
  rw [hmoved, State.pair_updPair]

theorem State.unit_handoverBegun (s : State) (m b h : Nat) :
    (s.handoverBegun m b).unit h = if h ∈ s.cutOffUnits b then (s.unit h).moved else s.unit h :=
  State.unit_foldl_setMoving _ _ h

theorem State.lane_handoverBegun (s : State) (m b l : Nat) : (s.handoverBegun m b).lane l = s.lane l :=
  view_foldl_eq (view := fun y => y.lane l) _ fun _ _ _ => rfl

theorem State.regs_handoverBegun (s : State) (m b : Nat) : (s.handoverBegun m b).regs = s.regs :=
  view_foldl_eq (view := fun y => y.regs) _ fun _ _ _ => rfl

/-- The pair back in BRIDGED, with its restore condition to be met again (R124). -/
def PairLnk.bridge (p : PairLnk) : PairLnk := { p with state := .bridged, restoreRun := 0 }

theorem exec_handoverEnd {m : Nat} {s : State} (hst : (s.pair m).state = .handover) (hlate : 16 ≤ (s.sys.epoch - (s.pair m).h0).toNat) :
    exec (.handoverEnd m) s = .next (s.updPair m PairLnk.bridge) := congrArg Host.Outcome.next (if_pos ⟨hst, hlate⟩)

/-! GO. -/

/-- The state with the lane of a GO set in LNK_HANDBACK (R490). -/
def State.goArgs (s : State) (l : Nat) : State := s.setArgs R.LNK_HANDBACK (s.actWord R.LNK_HANDBACK 31 [(8, 0, l)])

theorem State.goArgs_regsBut (s : State) (l : Nat) : RegsBut [R.LNK_HANDBACK] s (s.goArgs l) := s.setArgs_regsBut _ _

@[simp] theorem State.goArgs_frame {W : List Part} {r s : State} (l : Nat) (hW : [.regs] ⊆ W) : Frame W r (s.goArgs l) ↔ Frame W r s :=
  State.setArgs_frame _ _ hW

theorem State.handbackReady_goArgs (s : State) (l m : Nat) : (s.goArgs l).handbackReady m = s.handbackReady m := rfl

theorem exec_handbackGo {r : Requester} {l : Nat} {s : State} (hl : l < 512) (hmay : s.mayWrite r R.LNK_HANDBACK = true) :
    exec (.handbackGo r l) s = .next ((s.goArgs l).handbackGo l) := by
  have hlane : fld (s.actWord R.LNK_HANDBACK 31 [(8, 0, l)]) 8 0 = l := by
    simp only [State.actWord, List.foldl_cons, List.foldl_nil]
    rw [fld_setFld_same _ _ _ _ (by decide)]
    exact Nat.mod_eq_of_lt hl
  show Host.Outcome.next (s.runAction _ _ _) = _
  rw [State.runAction_owned _ (by decide) hmay]
  show Host.Outcome.next (State.handbackGo _ (fld _ 8 0)) = _
  rw [hlane]
  rfl

theorem State.handbackGo_ready {s : State} {l : Nat} (h : s.handbackReady (l / 2) = true) :
    s.handbackGo l = (s.updPair (l / 2) fun p => { p with go := true }).setReg R.LNK_ACTION_STAT 1 := if_pos h

theorem State.handbackGo_refused {s : State} {l : Nat} (h : s.handbackReady (l / 2) = false) : s.handbackGo l = s.strResult 3 :=
  if_neg (by simp [h])

/-! The hand-back. -/

theorem exec_handbackStart {m : Nat} {s : State} (hready : s.handbackReady m = true)
    (hgo : (s.pair m).go = true ∨ s.rb R.LNK_HANDBACK 16 = true) : exec (.handbackStart m) s = .next (s.handback m) :=
  congrArg Host.Outcome.next (if_pos ⟨hready, hgo⟩)

/-- A moved unit on its home route comes home with its first fresh record (R126). -/
theorem State.unitHome_moved {s : State} {h : Nat} (hst : (s.pair (h / 16)).state = .handback) (hmoved : h ∈ (s.pair (h / 16)).moved)
    (hnew : h ∉ (s.pair (h / 16)).home) (hroute : (s.unit h).bridged = false) :
    s.unitHome h = s.updPair (h / 16) fun p => { p with home := p.home ++ [h] } :=
  if_pos ⟨hst, hroute, List.contains_iff_mem.mpr hmoved, by simpa using hnew⟩

/-- The pair NORMAL again (R126, R129). -/
def PairLnk.normal (p : PairLnk) : PairLnk := { p with
  state := .normal, dark := false, restoreRun := 0, moved := [], limitEp := 0, expired := false, retire := false, go := false, home := [],
  released := [] }

/-- The pair NORMAL at the end of a hand-back, which its broken lane counts (R126). -/
def State.handbackDone (s : State) (m : Nat) : State := (s.updPair m PairLnk.normal).laneCount (s.pair m).broken 16

/-- The pair after a hand-back that has aborted (R127). -/
def PairLnk.abort (p : PairLnk) : PairLnk := { p with state := .bridged, restoreRun := 0, go := false, flapped := false }

/-- The pair back in BRIDGED after a hand-back that its broken lane counts as aborted (R127). -/
def State.handbackAborted (s : State) (m : Nat) : State :=
  ((s.updPair m PairLnk.abort).laneCount (s.pair m).broken 17).latch R.LNK_STR_CAUSE 5

theorem State.pair_handbackDone (s : State) (m n : Nat) : (s.handbackDone m).pair n = if n = m then (s.pair m).normal else s.pair n := by
  rw [State.handbackDone, State.pair_laneCount, State.pair_updPair]

theorem State.pair_handbackAborted (s : State) (m n : Nat) : (s.handbackAborted m).pair n = if n = m then (s.pair m).abort else s.pair n := by
  rw [State.handbackAborted, State.pair_latch, State.pair_laneCount, State.pair_updPair]

theorem State.lane_handbackDone (s : State) (m l : Nat) :
    (s.handbackDone m).lane l = (s.laneCount (s.pair m).broken 16).lane l := rfl

theorem State.lane_handbackAborted (s : State) (m l : Nat) :
    (s.handbackAborted m).lane l = (s.laneCount (s.pair m).broken 17).lane l := rfl

/-- The end of a hand-back gives the GO that asked for it its result (R126, R127). -/
def State.goEnded (s : State) (go : Bool) (r : Nat) : State := if go then s.strResult r else s

theorem State.goEnded_lnk (s : State) (go : Bool) (r : Nat) : (s.goEnded go r).lnk = s.lnk := by
  unfold State.goEnded
  split
  · exact s.strResult_lnk r
  · rfl

theorem State.rb_goEnded_keeps (s : State) (go : Bool) (r : Nat) {b : Nat} (h : s.rb R.LNK_STR_CAUSE b = true) :
    (s.goEnded go r).rb R.LNK_STR_CAUSE b = true := by
  unfold State.goEnded
  split
  · exact s.rb_strResult_keeps r h
  · exact h

theorem State.goEnded_stat (s : State) {go : Bool} (r : Nat) (h : go = true) : (s.goEnded go r).reg R.LNK_ACTION_STAT = BitVec.ofNat 32 r := by
  rw [State.goEnded, if_pos h, State.strResult_stat]

theorem State.goEnded_none (s : State) {go : Bool} (r : Nat) (h : go = false) : s.goEnded go r = s := if_neg (by simp [h])

theorem exec_handbackComplete {m : Nat} {s : State} (hst : (s.pair m).state = .handback)
    (hhome : ∀ h ∈ (s.pair m).moved, h ∈ (s.pair m).home) (heven : s.servingEven m = true) :
    exec (.handbackComplete m) s = .next ((s.handbackDone m).goEnded (s.pair m).go 2) := by
  have hall : (s.pair m).moved.all (s.pair m).home.contains = true :=
    List.all_eq_true.mpr fun h hh => List.contains_iff_mem.mpr (hhome h hh)
  exact if_pos ⟨hst, hall, heven⟩

theorem exec_handbackAbort {m : Nat} {s : State} (hst : (s.pair m).state = .handback)
    (hend : (s.pair m).flapped = true ∨ 256 ≤ (s.sys.epoch - (s.pair m).hbAt).toNat) :
    exec (.handbackAbort m) s = .next ((s.handbackAborted m).goEnded (s.pair m).go 6) := if_pos ⟨hst, hend⟩

/-- Settles O15: each command is its update of the pair; the units that a hand-over or a hand-back moves are each moved once. -/
theorem handoverAndHandback : Obligations.HandoverAndHandback := by
  refine ⟨fun m b s hlane => ?handover, fun m s hst hlate => ?bridged, fun r l s hl hmay => ?go, fun m s hready hgo => ?start,
    fun m h s hst hm hmoved hnew hroute => ?home, fun m s hst hhome heven => ?complete, fun m s hst hend => ?abort⟩
  case handover =>
    have hpair (n : Nat) : (((s.handoverBegun m b).laneCount b 15).latch R.LNK_STR_CAUSE 4).pair n = _ := s.pair_handoverBegun m b n
    have hself := hpair m
    rw [if_pos rfl] at hself
    refine ⟨_, exec_handoverStart hlane, ?_, ?_, ?_, ?_, fun h hh => ?_, fun h hh => ?_, ?_, State.rb_latch _ _ _ (by decide),
      fun n hn => ?_, ?_, execHandoverStart_frame m (exec_handoverStart hlane)⟩
    · rw [hself, PairLnk.handover]
    · rw [hself, PairLnk.handover]
    · rw [hself, PairLnk.handover]
    · rw [hself, PairLnk.handover]
    · rw [State.unit_latch, State.unit_laneCount, State.unit_handoverBegun, if_pos hh]
      rfl
    · rw [State.unit_latch, State.unit_laneCount, State.unit_handoverBegun, if_neg hh]
    · rw [State.lane_latch, State.laneCount_counter, State.lane_handoverBegun]
    · rw [hpair, if_neg hn]
    · exact (RegsBut.of_regs (s.regs_handoverBegun m b)).trans (State.latch_regsBut ((s.handoverBegun m b).laneCount b 15) _ _)
  case bridged =>
    refine ⟨_, exec_handoverEnd hst hlate, ?_, fun n hn => ?_, by simp⟩
    · exact (s.pair_updPair m m _).trans (if_pos rfl)
    · exact (s.pair_updPair m n _).trans (if_neg hn)
  case go =>
    have hargs := s.goArgs_regsBut l
    refine ⟨_, exec_handbackGo hl hmay, ?_⟩
    cases hready : s.handbackReady (l / 2) with
    | true =>
      rw [State.handbackGo_ready ((s.handbackReady_goArgs l _).trans hready)]
      refine ⟨?_, ?_, nofun, fun n hn => ?_, ?_, by simp⟩
      · rw [State.reg_setReg, if_pos rfl, if_pos rfl]
      · exact (State.pair_updPair _ _ _ _).trans (if_pos rfl)
      · exact (State.pair_updPair _ _ _ _).trans (if_neg hn)
      · exact (hargs.mono (by simp)).trans ((State.setReg_regsBut ((s.goArgs l).updPair (l / 2) _) _ _).mono (by simp))
    | false =>
      rw [State.handbackGo_refused ((s.handbackReady_goArgs l _).trans hready)]
      have hlnk : ((s.goArgs l).strResult 3).lnk = s.lnk := State.strResult_lnk _ 3
      refine ⟨?_, ?_, fun _ => State.strResult_cause _ (by decide), fun n _ => State.pair_congr hlnk n, ?_, by simp⟩
      · rw [State.strResult_stat]
        rfl
      · rw [State.pair_congr hlnk]
        rfl
      · exact (hargs.mono (by simp)).trans ((State.strResult_regsBut _ 3).mono (by simp))
  case start =>
    refine ⟨_, exec_handbackStart hready hgo, ?_, ?_, fun h hh hst => ?_, fun h hh => ?_, fun n hn => ?_, by simp⟩
    · rw [State.pair_handback, if_pos rfl]
      rfl
    · rw [State.pair_handback, if_pos rfl]
      rfl
    · rw [State.unit_handback, if_pos hh, UnitSt.moved, hst]
      rfl
    · rw [State.unit_handback, if_neg hh]
    · rw [State.pair_handback, if_neg hn]
  case home =>
    subst hm
    rw [State.unitFresh, State.unitHome_moved hst hmoved hnew hroute]
    constructor
    · rw [State.pair_updUnit, State.pair_updPair, if_pos rfl]
    · exact (State.unit_updUnit _ h h _).trans (if_pos rfl)
  case complete =>
    have hexec := exec_handbackComplete hst hhome heven
    have hpair (n : Nat) := (State.pair_congr ((s.handbackDone m).goEnded_lnk (s.pair m).go 2) n).trans (s.pair_handbackDone m n)
    have hself := hpair m
    rw [if_pos rfl] at hself
    refine ⟨_, hexec, ?_, ?_, ?_, ?_, fun hgo => State.goEnded_stat _ 2 hgo, fun hgo => ?_, fun h => ?_, fun n hn => ?_,
      execHandbackComplete_frame m hexec⟩
    · rw [hself, PairLnk.normal]
    · rw [hself, PairLnk.normal]
    · rw [hself, PairLnk.normal]
    · rw [State.lane_congr (State.goEnded_lnk _ _ _), State.lane_handbackDone, State.laneCount_counter]
    · rw [State.goEnded_none _ 2 hgo]
      rfl
    · exact State.unit_congr (State.goEnded_lnk _ _ _) h
    · rw [hpair, if_neg hn]
  case abort =>
    have hexec := exec_handbackAbort hst hend
    have hpair (n : Nat) := (State.pair_congr ((s.handbackAborted m).goEnded_lnk (s.pair m).go 6) n).trans (s.pair_handbackAborted m n)
    refine ⟨_, hexec, ?_, ?_, State.rb_goEnded_keeps _ _ 6 (State.rb_latch _ _ _ (by decide)), fun hgo => State.goEnded_stat _ 6 hgo,
      fun h => ?_, fun n hn => ?_, execHandbackAbort_frame m hexec⟩
    · rw [hpair, if_pos rfl, PairLnk.abort]
    · rw [State.lane_congr (State.goEnded_lnk _ _ _), State.lane_handbackAborted, State.laneCount_counter]
    · exact State.unit_congr (State.goEnded_lnk _ _ _) h
    · rw [hpair, if_neg hn]

end Sys2Proof.Machine
end

section
/-! PROOFS. Frames lost on a quarantined lane (O16): slots without a record, and the frames in flight of a lane that delivers nothing. -/

namespace Sys2Proof.Machine

/-! Slots without a record. -/

/-- What a slot without a record leaves of unit g and of the Cellar: the status of the unit, the route that serves it, and its hold
offset (R116, R145). -/
def State.standing (g : Nat) (s : State) : UStat × Bool × Bool × CelSt :=
  ((s.unit g).status, (s.unit g).bridged, (s.unit g).hasHold, s.cel)

theorem State.standing_updUnit (s : State) (h g : Nat) {f : UnitSt → UnitSt}
    (hf : ∀ u, ((f u).status, (f u).bridged, (f u).hasHold) = (u.status, u.bridged, u.hasHold)) :
    (s.updUnit h f).standing g = s.standing g := by
  unfold State.standing
  rw [State.unit_updUnit]
  split
  · next hg =>
    subst hg
    have hu := hf (s.unit g)
    simp only [Prod.mk.injEq] at hu
    obtain ⟨hst, hbridged, hhold⟩ := hu
    rw [hst, hbridged, hhold]
    rfl
  · rfl

theorem State.standing_unitStale (s : State) (h g : Nat) : (s.unitStale h).standing g = s.standing g := by
  unfold State.unitStale
  split
  · rfl
  · exact s.standing_updUnit h g fun _ => rfl

theorem classifyBursts_nil (sent : List DWord) : classifyBursts sent [] = (.absent, 0) := rfl

theorem State.receiveSlot_absent (s : State) (l : Nat) (k : Epoch) (h : Nat) (via : Bool) (sent : List DWord) (g : Nat) :
    (s.receiveSlot l k h via sent []).standing g = s.standing g := by
  have hend : ((s.laneCount l 7).staleRouteEnd h via).standing g = s.standing g := State.standing_updUnit _ h g fun _ => rfl
  simp only [State.receiveSlot, classifyBursts_nil]
  split
  · exact (State.standing_unitStale _ h g).trans hend
  · exact hend

theorem State.missPhase_standing (s : State) (l : Nat) (k : Epoch) (kind g : Nat) : (s.missPhase l k kind).standing g = s.standing g := by
  unfold State.missPhase
  split
  · refine view_foldl_eq (view := State.standing g) s fun y h _ => ?_
    split
    · exact y.standing_unitStale h g
    · rfl
  · rfl

/-- A frame of which nothing came back changes no status, no route and no hold offset, and nothing in the Cellar. -/
theorem State.receiveSlots_absent (s : State) (l : Nat) (f : Sent) (g : Nat) : (s.receiveSlots l f []).standing g = s.standing g := by
  rw [State.receiveSlots_eq]
  refine (State.missPhase_standing _ l _ _ g).trans (view_foldl_eq (view := State.standing g) s fun y i _ => ?_)
  unfold State.receiveAt
  simp only [List.drop_nil, List.take_nil]
  split
  · exact y.receiveSlot_absent l f.k _ _ _ g
  · simp only [State.receiveSpare, classifyBursts_nil]

/-! The frames in flight of a quarantined lane. -/

/-- Frames fs, the oldest in flight of lane l, have left it as delivered: of the lanes it alone changed, but for the list and its
counters, and no unit changed its status, its route or its hold offset (R145, R489). -/
structure Flushed (l : Nat) (fs : List Sent) (s t : State) : Prop where
  other : ∀ m, m ≠ l → t.lane m = s.lane m
  lane : ∃ c, t.lane l = { s.lane l with counters := c, inflight := (s.lane l).inflight.drop fs.length }
  unit : ∀ g, ((t.unit g).status, (t.unit g).bridged, (t.unit g).hasHold) = ((s.unit g).status, (s.unit g).bridged, (s.unit g).hasHold)
  kept : ∀ n, ∀ m ∈ (s.shelf n).delivered, m ∈ (t.shelf n).delivered
  gone : ∀ f ∈ fs, l ∈ (t.shelf (f.k - 1)).delivered

theorem Flushed.nil (l : Nat) (s : State) : Flushed l [] s s := ⟨fun _ _ => rfl, ⟨_, rfl⟩, fun _ => rfl, fun _ _ => id, nofun⟩

theorem Flushed.append {l : Nat} {fs gs : List Sent} {s t u : State} (h : Flushed l fs s t) (h' : Flushed l gs t u) :
    Flushed l (fs ++ gs) s u := by
  obtain ⟨c, hlane⟩ := h.lane
  obtain ⟨c', hlane'⟩ := h'.lane
  refine ⟨fun m hm => (h'.other m hm).trans (h.other m hm), ⟨c', ?_⟩, fun g => (h'.unit g).trans (h.unit g),
    fun n m hm => h'.kept n m (h.kept n m hm), fun f hf => ?_⟩
  · rw [hlane', hlane, List.drop_drop, List.length_append]
  · rcases List.mem_append.mp hf with hfs | hgs
    · exact h'.kept _ _ (h.gone f hfs)
    · exact h'.gone f hgs

theorem State.delivering_quar {s : State} {l : Nat} (h : (s.lane l).quar = true) : s.delivering l = false := by
  simp [State.delivering, State.laneActive, h]

theorem State.dropFlight_kept (s : State) (l : Nat) (f : Sent) {n : Epoch} {m : Nat} (hm : m ∈ (s.shelf n).delivered) :
    m ∈ ((s.dropFlight l f).shelf n).delivered := by
  rw [State.dropFlight, State.celDelivered, State.shelf_updShelf]
  split
  · next hn =>
    rw [BitVec.toNat_inj.mp hn] at hm
    split
    · exact hm
    · exact List.mem_cons_of_mem _ hm
  · exact hm

theorem State.frameLost_flushed {s : State} {l : Nat} (hquar : (s.lane l).quar = true) (f : Sent) : Flushed l [f] s (s.frameLost l f) := by
  have hlost : s.frameLost l f = (s.receiveSlots l f []).dropFlight l f := if_neg (by simp [State.delivering_quar hquar])
  obtain ⟨hother, c, hlane, -⟩ := s.lane_slotsDropped l f []
  have hstanding (g : Nat) := s.receiveSlots_absent l f g
  simp only [State.standing, Prod.mk.injEq] at hstanding
  rw [hlost]
  refine ⟨hother, ⟨c, hlane⟩, fun g => ?_, fun n m hm => State.dropFlight_kept _ l f ?_, fun x hx => ?_⟩
  · obtain ⟨hst, hbridged, hhold, -⟩ := hstanding g
    exact congrArg₂ Prod.mk hst (congrArg₂ Prod.mk hbridged hhold)
  · obtain ⟨-, -, -, hcel⟩ := hstanding 0
    rwa [State.shelf_congr (congrArg CelSt.shelves hcel)]
  · rw [List.mem_singleton.mp hx]
    exact State.dropFlight_delivered _ l f

theorem State.framesLost_flushed {l : Nat} (fs : List Sent) {s : State} (hquar : (s.lane l).quar = true) :
    Flushed l fs s (fs.foldl (fun y f => y.frameLost l f) s) := by
  induction fs generalizing s with
  | nil => exact .nil l s
  | cons f fs ih =>
    have hfirst := State.frameLost_flushed hquar f
    obtain ⟨c, hlane⟩ := hfirst.lane
    exact hfirst.append (ih (by rw [hlane]; exact hquar))

/-- A lane that is searched again when it becomes active (R489). -/
def State.searchAgain (s : State) (l : Nat) : State := s.updLane l fun a => { a with returnOfs := none, darkRun := 0 }

/-- The frames in flight of a quarantined lane are delivered, and its return offset is searched again (R145, R489). -/
theorem State.laneFlush_quar {s : State} {l : Nat} (hquar : (s.lane l).quar = true) :
    ∃ u, Flushed l (s.lane l).inflight s u ∧ s.laneFlush l = u.searchAgain l := by
  have hflushed := State.framesLost_flushed (s.lane l).inflight hquar
  obtain ⟨c, hlane⟩ := hflushed.lane
  refine ⟨_, hflushed, ?_⟩
  simp only [State.laneFlush, State.delivering_quar hquar, Bool.false_eq_true, if_false]
  refine if_neg ?_
  simp [State.laneActive, hlane, hquar]

end Sys2Proof.Machine
end

section
/-! PROOFS. String actions (O16): quarantine, the bridged time limit, the actions of LNK_ACTION, and the table window. -/

namespace Sys2Proof.Machine

/-! Quarantine. -/

/-- A unit of a quarantined lane: cut off where its home route serves it (R128). -/
def UnitSt.cutHome (u : UnitSt) : UnitSt := if u.bridged then u else u.cutOff

theorem UnitSt.cutOff_bridged (u : UnitSt) : u.cutOff.bridged = u.bridged := rfl

theorem UnitSt.cutHome_twice (u : UnitSt) : u.cutHome.cutHome = u.cutHome := by
  cases h : u.bridged with
  | true => simp [UnitSt.cutHome, h]
  | false => simp [UnitSt.cutHome, h, UnitSt.cutOff_bridged, UnitSt.cutOff_twice]

/-- The status of a unit of a quarantined lane rests on its status, its route and its hold offset (R128). -/
theorem UnitSt.cutHome_status (u : UnitSt) : u.cutHome.status =
    if u.bridged = false ∧ u.hasHold = true ∧ (u.status = .present ∨ u.status = .joining) then .unobserved else u.status := by
  cases h : u.bridged with
  | true => simp [UnitSt.cutHome, h]
  | false => simp [UnitSt.cutHome, h, UnitSt.cutOff]

/-- Unit h of a quarantined lane (R128). -/
def State.cutHome (s : State) (h : Nat) : State := if (s.unit h).bridged then s else s.unobserve h

theorem State.unit_cutHome (s : State) (a g : Nat) : (s.cutHome a).unit g = if g = a then (s.unit a).cutHome else s.unit g := by
  unfold State.cutHome UnitSt.cutHome
  split
  · next h =>
    split
    · next hg => rw [hg]
    · rfl
  · exact s.unit_unobserve a g

/-- The home addresses of the string of lane l. -/
def homesOf (l : Nat) : List Nat := (List.range 8).map (l * 8 + ·)

theorem mem_homesOf (l : Nat) {p : Nat} (hp : p < 8) : l * 8 + p ∈ homesOf l := List.mem_map_of_mem (List.mem_range.mpr hp)

/-- A lane that is quarantined, its frames in flight delivered (R128, R489). -/
def State.quarantined (s : State) (l : Nat) : State :=
  ((s.updLane l fun a => { a with quar := true }).laneFlush l).latch R.LNK_STR_CAUSE 6

/-- A quarantined lane is not active: its frames in flight are delivered and its return offset is searched again; other lanes, and the
status, the route and the hold offset of every unit, are as before (R128, R489). -/
theorem State.quarantined_spec (s : State) (l : Nat) :
    ((s.quarantined l).lane l).quar = true ∧ ((s.quarantined l).lane l).inflight = [] ∧ ((s.quarantined l).lane l).returnOfs = none ∧
      (∀ m, m ≠ l → (s.quarantined l).lane m = s.lane m) ∧
      (∀ g, (((s.quarantined l).unit g).status, ((s.quarantined l).unit g).bridged, ((s.quarantined l).unit g).hasHold) =
        ((s.unit g).status, (s.unit g).bridged, (s.unit g).hasHold)) ∧
      ∀ f ∈ (s.lane l).inflight, l ∈ ((s.quarantined l).shelf (f.k - 1)).delivered := by
  have hmarked : (s.updLane l fun a => { a with quar := true }).lane l = { s.lane l with quar := true } :=
    (s.lane_updLane l l _).trans (if_pos rfl)
  obtain ⟨u, hflushed, hu⟩ := State.laneFlush_quar (s := s.updLane l fun a => { a with quar := true }) (l := l) (by rw [hmarked])
  obtain ⟨hother, ⟨c, hlane⟩, hunit, -, hgone⟩ := hflushed
  rw [hmarked] at hlane hgone
  have hself : (s.quarantined l).lane l = { u.lane l with returnOfs := none, darkRun := 0 } := by
    rw [State.quarantined, hu, State.lane_latch, State.searchAgain, State.lane_updLane, if_pos rfl]
  rw [hself, hlane]
  refine ⟨rfl, List.drop_length, rfl, fun m hm => ?_, fun g => ?_, fun f hf => ?_⟩
  · rw [State.quarantined, hu, State.lane_latch, State.searchAgain, State.lane_updLane, if_neg hm, hother m hm, State.lane_updLane,
      if_neg hm]
  · rw [State.quarantined, hu]
    exact hunit g
  · rw [State.quarantined, hu]
    exact hgone f hf

theorem exec_quarantine {l : Nat} {s : State} (hflaps : 3 ≤ (s.lane l).flaps.length) (hquar : (s.lane l).quar = false) :
    exec (.quarantine l) s = .next ((homesOf l).foldl State.cutHome (s.quarantined l)) := if_pos ⟨hflaps, hquar⟩

/-- The cut-off of units leaves the lanes, the registers and the Cellar. -/
theorem State.foldl_cutHome_keeps (hs : List Nat) (s : State) : (hs.foldl State.cutHome s).lnk.lanes = s.lnk.lanes ∧
    (hs.foldl State.cutHome s).regs = s.regs ∧ (hs.foldl State.cutHome s).cel = s.cel := by
  have hview := view_foldl_eq (f := State.cutHome) (l := hs) (view := fun y => (y.lnk.lanes, y.regs, y.cel)) s fun y a _ => by
    unfold State.cutHome
    split <;> rfl
  simpa only [Prod.mk.injEq] using hview

/-! The bridged time limit. -/

/-- Pair m with its bridged time limit expired (R129). -/
def State.limitExpired (s : State) (m : Nat) : State := (s.updPair m fun p => { p with expired := true }).latch R.LNK_STR_CAUSE 7

/-- The moved units of pair m are to be retired: their bypasses start (R129). -/
def State.retireMoved (s : State) (m : Nat) (hs : List Nat) : State := hs.foldl State.bypStart (s.updPair m fun p => { p with retire := true })

theorem State.retireMoved_frame (s : State) (m : Nat) (hs : List Nat) :
    Frame [.edg] (s.updPair m fun p => { p with retire := true }) (s.retireMoved m hs) := by
  simp [State.retireMoved]

/-- An expired limit retires the moved units where the margin of every group allows it, which it does without moved units, and raises
BRIDGE_EXPIRED elsewhere (R129). -/
theorem exec_bridgeLimitExpiry {m : Nat} {s : State} (hst : (s.pair m).state = .bridged ∨ (s.pair m).state = .handback)
    (hnew : (s.pair m).expired = false) (hlimit : s.epOfMs (1000 * clampNat 1 3600 (s.rf R.LNK_BRIDGE_LIMIT 11 0)) ≤ (s.pair m).limitEp) :
    ∃ ok : Bool, ((s.pair m).moved = [] → ok = true) ∧ exec (.bridgeLimitExpiry m) s =
      .next (if ok then (s.limitExpired m).retireMoved m (s.pair m).moved else (s.limitExpired m).prtEvent 41) :=
  ⟨_, fun hnone => by rw [hnone]; rfl, if_pos ⟨hst, hnew, hlimit⟩⟩

/-! The actions of LNK_ACTION. -/

/-- An action that changes its lane alone, and is done (R135). -/
theorem State.laneAction_spec (s : State) (l : Nat) (f : LaneSt → LaneSt) :
    ((s.updLane l f).strResult 2).lane l = f (s.lane l) ∧ (∀ m, m ≠ l → ((s.updLane l f).strResult 2).lane m = s.lane m) ∧
      ((s.updLane l f).strResult 2).reg R.LNK_ACTION_STAT = 2 ∧ Frame [.regs, .lnk] s ((s.updLane l f).strResult 2) := by
  have hlane (m : Nat) := (State.lane_congr (State.strResult_lnk (s.updLane l f) 2) m).trans (s.lane_updLane l m f)
  exact ⟨(hlane l).trans (if_pos rfl), fun m hm => (hlane m).trans (if_neg hm), State.strResult_stat _ 2, by simp⟩

/-- A unit that CLEAR_LOST lets join again (R104). -/
def UnitSt.rejoin (u : UnitSt) : UnitSt := if u.status = .lost then { u with status := .joining, staleRun := 0 } else u

theorem UnitSt.rejoin_twice (u : UnitSt) : u.rejoin.rejoin = u.rejoin := by
  by_cases h : u.status = .lost
  · simp [UnitSt.rejoin, h]
  · simp [UnitSt.rejoin, h]

theorem State.clearLost_ready {s : State} {l : Nat} (h : s.sys.conv = .ready) :
    s.clearLost l = ((homesOf l).foldl (fun y h => y.updUnit h UnitSt.rejoin) s).strResult 2 := by
  rw [homesOf, List.foldl_map]
  exact if_pos h

theorem State.clearLost_refused {s : State} {l : Nat} (h : s.sys.conv ≠ .ready) : s.clearLost l = s.strResult 3 := if_neg h

theorem State.retrimAction_refused {s : State} {l : Nat} (hcharge : s.sys.conv ≠ .charge) (hready : s.sys.conv ≠ .ready) :
    s.retrimAction l = s.strResult 3 := if_neg (by simp [hcharge, hready])

/-- A RETRIM that waits for a header run in progress (R167). -/
theorem State.retrimAction_waits {s : State} {l : Nat} (hready : s.sys.conv = .ready) (hrun : s.runPending = true) :
    s.retrimAction l = State.strResult { s with lnk := { s.lnk with action := some ⟨5, l, l, 0, 0, s.sys.epoch⟩ } } 1 :=
  (if_pos (.inr hready)).trans (if_pos hrun)

theorem State.retrimAction_acts {s : State} {l : Nat} (hready : s.sys.conv = .ready) (hrun : s.runPending = false) :
    s.retrimAction l = (s.retrim l).strResult 2 := (if_pos (.inr hready)).trans (if_neg (by simp [hrun]))

/-- A trim gives its lane the lead and T_LANE that its routes require (R112, R113). -/
theorem State.retrim_lane {s : State} {l : Nat} {x : Nat × Nat} (htrim : s.leadTrim l = some x) :
    ((s.retrim l).lane l).lead = x.1 ∧ ((s.retrim l).lane l).tLane = x.2 := by
  obtain ⟨u, -, heq⟩ := State.retrim_eq (lead := x.1) (trim := x.2) htrim
  have hkept := (u.retrimmed l x.1 x.2 s.marginNew).holdsAsked_kept l s.marginNew
  rw [heq, hkept.part LaneSt.lead, hkept.part LaneSt.tLane]
  simp [State.retrimmed]

/-- The lead and T_LANE that a lane requires rest on no field of LNK_ACTION (R112, R135). -/
theorem State.leadTrim_lnkArgs (s : State) (code l m : Nat) : (s.lnkArgs code l).leadTrim m = s.leadTrim m := by
  have hmargin : (s.lnkArgs code l).marginNew = s.marginNew := by
    rw [State.marginNew, State.rf, s.lnkArgs_regsBut code l R.LNK_TRIM_CFG (by decide)]
    rfl
  rw [State.leadTrim, hmargin]
  rfl

/-! The table window. -/

/-- A read of LNK_TBL_DATA that is served delivers a word, 0 for a row whose lane group is off (R134, R135). -/
theorem exec_lnkTblRead {r : Requester} {s : State} (hserves : s.serves r = true) : exec (.lnkTblRead r) s =
    .next ((s.lnkTblRead r).2.emit (.readData r R.LNK_TBL_DATA (if s.tableDark r then 0 else (s.lnkTblRead r).1))) := by
  have hread : s.readReg r R.LNK_TBL_DATA = some (if s.tableDark r then 0 else (s.lnkTblRead r).1, (s.lnkTblRead r).2) := rfl
  show Host.Outcome.next (s.readCmd r R.LNK_TBL_DATA) = _
  unfold State.readCmd
  rw [if_pos hserves, hread]

section
variable {r : Requester} {a : Word} {s : State} (ha : a = s.reg (ownKey r R.LNK_TBL_ADDR))
include ha

theorem State.lnkTblRead_unit (hunit : flag a 31 = true) (hword : fld a 4 0 ≤ 6) :
    s.lnkTblRead r = (s.unitTable (fld a 27 16) (fld a 4 0), s) := by
  subst ha
  exact (if_pos hunit).trans (if_neg (Nat.not_lt.mpr hword))

theorem State.lnkTblRead_lane (hlane : flag a 31 = false) (hrow : fld a 27 16 ≤ 511) (hword : fld a 4 0 ≤ 24) :
    s.lnkTblRead r = (s.laneTable (fld a 27 16) (fld a 4 0), s) := by
  subst ha
  exact (if_neg (by simp [hlane])).trans (if_neg (by omega))

/-- A row or a word out of range reads 0 (R135). -/
theorem State.lnkTblRead_outside (hout : flag a 31 = true ∧ 6 < fld a 4 0 ∨ flag a 31 = false ∧ (511 < fld a 27 16 ∨ 24 < fld a 4 0)) :
    s.lnkTblRead r = (0, s.logErr r 6 R.LNK_TBL_DATA) := by
  subst ha
  rcases hout with ⟨hunit, hword⟩ | ⟨hlane, hrange⟩
  · exact (if_pos hunit).trans (if_pos hword)
  · exact (if_neg (by simp [hlane])).trans (if_pos hrange)

theorem State.tableDark_unit (hunit : flag a 31 = true) (hon : s.domain (fld a 27 16 / 128) = true) : s.tableDark r = false := by
  subst ha
  simp [State.tableDark, hunit, hon]

theorem State.tableDark_lane (hlane : flag a 31 = false) (hon : s.domain (fld a 27 16 / 16) = true) : s.tableDark r = false := by
  subst ha
  simp [State.tableDark, hlane, hon]

end

/-- Settles O16: the frames in flight of a quarantined lane are flushed and its units cut off once; each string action is its effect, its
arguments set; a table read is the word that its address selects. -/
theorem stringActions : Obligations.StringActions := by
  refine ⟨fun l s hflaps hquar => ?quarantine, fun m s hst hnew hretire hlimit => ?limit,
    fun r l s hl hmay hidle => ⟨?clearQuarantine, ?clearCounters, ?clearLost, ?retrim⟩, fun r a s hserves ha => ?table⟩
  case quarantine =>
    obtain ⟨hquar', hempty, hofs, hother, hunit, hgone⟩ := s.quarantined_spec l
    obtain ⟨hlanes, hregs, hcel⟩ := State.foldl_cutHome_keeps (homesOf l) (s.quarantined l)
    have hlane (m : Nat) : ((homesOf l).foldl State.cutHome (s.quarantined l)).lane m = (s.quarantined l).lane m := by
      rw [State.lane, hlanes, State.lane]
    have hexec := exec_quarantine hflaps hquar
    refine ⟨_, hexec, ?_, ?_, ?_, ?_, fun p hp => ?_, fun f hf => ?_, fun m hm => ?_, execQuarantine_frame l hexec⟩
    · rw [hlane, hquar']
    · rw [hlane, hempty]
    · rw [hlane, hofs]
    · rw [State.rb, State.reg_congr hregs]
      exact State.rb_latch _ _ _ (by decide)
    · have hp' := hunit (l * 8 + p)
      simp only [Prod.mk.injEq] at hp'
      obtain ⟨hst, hbridged, hhold⟩ := hp'
      rw [State.unit_foldl UnitSt.cutHome_twice State.unit_cutHome, if_pos (mem_homesOf l hp), UnitSt.cutHome_status, hst, hbridged, hhold]
    · rw [State.shelf_congr (congrArg CelSt.shelves hcel)]
      exact hgone f hf
    · rw [hlane, hother m hm]
  case limit =>
    obtain ⟨ok, hnone, hexec⟩ := exec_bridgeLimitExpiry hst hnew hlimit
    have hcause : (s.limitExpired m).rb R.LNK_STR_CAUSE 7 = true := State.rb_latch _ _ _ (by decide)
    have hregs : RegsBut [R.LNK_STR_CAUSE] s (s.limitExpired m) := State.latch_regsBut (s.updPair m _) _ _
    cases ok with
    | true =>
      have hframe := (s.limitExpired m).retireMoved_frame m (s.pair m).moved
      have hpair : ((s.limitExpired m).retireMoved m (s.pair m).moved).pair m = { s.pair m with expired := true, retire := true } := by
        rw [State.pair_congr (hframe .lnk (by simp)), State.pair_updPair, if_pos rfl, State.limitExpired, State.pair_latch,
          State.pair_updPair, if_pos rfl]
      refine ⟨_, hexec, ?_, ?_, fun _ => ?_, fun hno => ?_, fun _ => ?_, hregs.trans (.of_regs (hframe .regs (by simp))),
        execBridgeLimitExpiry_frame m hexec⟩
      · rw [if_pos rfl, hpair]
      · rw [if_pos rfl, State.rb, State.reg_congr (hframe .regs (by simp))]
        exact hcause
      · rw [if_pos rfl, hpair]
      · rw [if_pos rfl, hpair] at hno
        cases hno
      · exact congrArg PrtSt.evtNext (hframe .prt (by simp))
    | false =>
      have hpair : ((s.limitExpired m).prtEvent 41).pair m = { s.pair m with expired := true } :=
        (s.pair_updPair m m _).trans (if_pos rfl)
      refine ⟨_, hexec, ?_, hcause, fun hmoved => absurd (hnone hmoved) Bool.false_ne_true, fun _ => List.mem_cons_self, fun hyes => ?_,
        hregs, execBridgeLimitExpiry_frame m hexec⟩
      · rw [if_neg Bool.false_ne_true, hpair]
      · rw [if_neg Bool.false_ne_true, hpair] at hyes
        exact absurd (hretire.symm.trans hyes) Bool.false_ne_true
  case clearQuarantine =>
    have hexec : exec (.clearQuarantine r l) s = .next ((s.lnkArgs 2 l).clearQuarantine l) :=
      congrArg Host.Outcome.next (State.strStart_idle (by decide) hl hmay hidle)
    obtain ⟨hlane, hother, hstat, hframe⟩ := (s.lnkArgs 2 l).laneAction_spec l fun a => { a with quar := false, flaps := [] }
    exact ⟨_, hexec, hlane, hother, hstat, ((State.lnkArgs_frame 2 l (by simp)).mpr (.refl s)).trans hframe⟩
  case clearCounters =>
    have hexec : exec (.clearCounters r l) s = .next ((s.lnkArgs 3 l).clearCounters l) :=
      congrArg Host.Outcome.next (State.strStart_idle (by decide) hl hmay hidle)
    obtain ⟨hlane, hother, hstat, hframe⟩ := (s.lnkArgs 3 l).laneAction_spec l fun a => { a with counters := [] }
    exact ⟨_, hexec, hlane, hother, hstat, ((State.lnkArgs_frame 3 l (by simp)).mpr (.refl s)).trans hframe⟩
  case clearLost =>
    have hexec : exec (.clearLost r l) s = .next ((s.lnkArgs 4 l).clearLost l) :=
      congrArg Host.Outcome.next (State.strStart_idle (by decide) hl hmay hidle)
    by_cases hready : s.sys.conv = .ready
    · have hlanes := State.lanes_foldl_updUnit UnitSt.rejoin (homesOf l) (s.lnkArgs 4 l)
      rw [State.clearLost_ready (s := s.lnkArgs 4 l) hready] at hexec
      refine ⟨_, hexec, fun _ => ⟨State.strResult_stat _ 2, fun p hp hlost => ?_⟩, fun hno => absurd hready hno, fun m => ?_, by simp⟩
      · rw [State.unit_congr (State.strResult_lnk _ 2), State.unit_foldl UnitSt.rejoin_twice fun y a g => y.unit_updUnit a g _,
          if_pos (mem_homesOf l hp), State.unit_lnkArgs, UnitSt.rejoin, if_pos hlost]
      · rw [State.lane_congr (State.strResult_lnk _ 2), State.lane, hlanes]
        rfl
    · rw [State.clearLost_refused (s := s.lnkArgs 4 l) hready] at hexec
      exact ⟨_, hexec, fun h => absurd h hready, fun _ => ⟨State.strResult_stat _ 3, State.strResult_lnk _ 3⟩,
        fun m => State.lane_congr (State.strResult_lnk _ 3) m, by simp⟩
  case retrim =>
    have hexec : exec (.retrim r l) s = .next ((s.lnkArgs 5 l).retrimAction l) :=
      congrArg Host.Outcome.next (State.strStart_idle (by decide) hl hmay hidle)
    refine ⟨_, hexec, fun hcharge hready => ?_, fun hready hrun => ?_, fun hready hrun => ?_, by simp⟩
    · rw [State.retrimAction_refused (s := s.lnkArgs 5 l) hcharge hready]
      exact ⟨State.strResult_stat _ 3, State.strResult_lnk _ 3⟩
    · rw [State.retrimAction_waits (s := s.lnkArgs 5 l) hready hrun]
      exact ⟨State.strResult_stat _ 1, rfl⟩
    · rw [State.retrimAction_acts (s := s.lnkArgs 5 l) hready hrun]
      refine ⟨State.strResult_stat _ 2, fun x hx => ?_⟩
      rw [State.lane_congr (State.strResult_lnk _ 2)]
      exact State.retrim_lane ((s.leadTrim_lnkArgs 5 l l).trans hx)
  case table =>
    refine ⟨_, exec_lnkTblRead hserves, execLnkTblRead_frame r (exec_lnkTblRead hserves), fun hunit hword hon => ?_,
      fun hlane hrow hword hon => ?_, fun hout => ?_⟩
    · rw [State.lnkTblRead_unit ha hunit hword, State.tableDark_unit ha hunit hon]
      rfl
    · rw [State.lnkTblRead_lane ha hlane hrow hword, State.tableDark_lane ha hlane hon]
      rfl
    · rw [State.lnkTblRead_outside ha hout, ite_self]
      exact List.getLast?_concat

end Sys2Proof.Machine
end

section
/-! PROOFS. The Crate slots: what the operations of the Cellar leave of them, the end of a Crate, and the first failure that it records. -/

namespace Sys2Proof.Machine

/-! Slots. -/

/-- A change of one Crate slot changes no other. -/
@[simp] theorem State.crate_updCrate (s : State) (i k : Nat) (f : Crate → Crate) :
    (s.updCrate i f).crate k = if k = i then f (s.crate i) else s.crate k := smGet_smUpd _ _ _ _ _

theorem State.crate_updCrate_same (s : State) (i : Nat) (f : Crate → Crate) : (s.updCrate i f).crate i = f (s.crate i) :=
  (s.crate_updCrate i i f).trans (if_pos rfl)

theorem State.crate_updCrate_ne (s : State) (i : Nat) (f : Crate → Crate) (j : Nat) (hj : j ≠ i) : (s.updCrate i f).crate j = s.crate j :=
  (s.crate_updCrate i j f).trans (if_neg hj)

theorem State.updCrate_regs (s : State) (i : Nat) (f : Crate → Crate) : (s.updCrate i f).regs = s.regs := rfl

theorem State.crate_congr {s t : State} (h : t.cel = s.cel) (i : Nat) : t.crate i = s.crate i := by rw [State.crate, h, State.crate]

@[simp] theorem State.crate_idUsed (s : State) (id : Nat) (last : Option Epoch) (i : Nat) : (s.idUsed id last).crate i = s.crate i := rfl

@[simp] theorem State.crate_crateRecord (s : State) (n : Epoch) (id event outcome failed i : Nat) :
    (s.crateRecord n id event outcome failed).crate i = s.crate i := rfl

@[simp] theorem State.shelf_updCrate (s : State) (i : Nat) (f : Crate → Crate) (n : Epoch) : (s.updCrate i f).shelf n = s.shelf n := rfl

/-- A Shelf shows the Crate whose record was written last (R149, R168). -/
theorem State.shelf_crateRecord (s : State) (n : Epoch) (id event outcome failed : Nat) :
    ((s.crateRecord n id event outcome failed).shelf n).crateId = id ∧
      ((s.crateRecord n id event outcome failed).shelf n).crateEvent = event := by
  unfold State.crateRecord State.annexPut
  simp only [State.shelf_updShelf, if_true, and_self]

/-! The end of a Crate. -/

/-- A Crate that is DONE at an epoch with an outcome (R161). -/
def Crate.ended (c : Crate) (outcome : Nat) (e : Epoch) : Crate := { c with state := .done, outcome := outcome, doneAt := e }

theorem State.crate_crateDone (s : State) (i outcome : Nat) : (s.crateDone i outcome).crate i = (s.crate i).ended outcome s.sys.epoch :=
  s.crate_updCrate_same i _

theorem State.crate_crateDone_ne (s : State) (i outcome j : Nat) (hj : j ≠ i) : (s.crateDone i outcome).crate j = s.crate j :=
  s.crate_updCrate_ne i _ j hj

/-- The end of a Crate sets CRATE_DONE (R168). -/
theorem State.rb_crateDone (s : State) (i outcome : Nat) : (s.crateDone i outcome).rb R.CEL_CAUSE 3 = true := State.rb_latch _ _ _ (by decide)

theorem State.crateDone_regsBut (s : State) (i outcome : Nat) : RegsBut [R.CEL_CAUSE] s (s.crateDone i outcome) :=
  (RegsBut.of_regs (s.updCrate_regs i _)).trans (State.latch_regsBut _ _ _)

/-- The first failure of a Crate changes its reason and the address it names, and nothing else. -/
theorem Crate.fail_eq (c : Crate) (reason home : Nat) : ∃ r h, c.fail reason home = { c with reason := r, firstHome := h } := by
  unfold Crate.fail
  split
  · exact ⟨_, _, rfl⟩
  · exact ⟨_, _, rfl⟩

end Sys2Proof.Machine
end

section
/-! PROOFS. The decisions on a Crate (O18): the next state of each command, and the epochs at which header runs start. -/

namespace Sys2Proof.Machine

/-! Header runs. -/

/-- Without another header run the first frame epoch is the one asked for (R167). -/
theorem State.runFree_of_no_run {s : State} (h : ∀ j < 4, (s.crate j).runAt = none) (fuel : Nat) (f : Epoch) : s.runFree fuel f = f := by
  cases fuel with
  | zero => rfl
  | succ fuel =>
    unfold State.runFree
    extract_lets clash
    have hclash : clash = none := List.findSome?_eq_none_iff.mpr fun j hj => by rw [h j (List.mem_range.mp hj)]
    rw [hclash]

/-! Staging, the commit and the time-out of a part. -/

theorem exec_crateStaging {i : Nat} {s : State} (hi : i < 4) (hst : (s.crate i).state = .staging) (hnew : (s.crate i).stagedAt = none)
    (hnow : epGe s.sys.epoch ((s.crate i).closedAt + 1) = true) :
    exec (.crateStaging i) s = .next (s.updCrate i fun c => { c with stagedAt := some s.sys.epoch }) :=
  if_pos ⟨hi, hst, hnew, hnow⟩

/-- The commit of slot i with its header run from frame epoch f, and its id in use up to the last header (R157, R164). -/
def State.committed (s : State) (i : Nat) (f : Epoch) : State :=
  (s.updCrate i fun c => { c with state := .committing, eff := some (f + 4), runAt := some f }).idUsed (s.crate i).id (some (f + 3))

theorem State.crate_committed (s : State) (i : Nat) (f : Epoch) (k : Nat) : (s.committed i f).crate k =
    if k = i then { s.crate i with state := .committing, eff := some (f + 4), runAt := some f } else s.crate k := by
  rw [State.committed, State.crate_idUsed, State.crate_updCrate]

/-- The id is in use up to the last header (R157). -/
theorem State.idLast_committed (s : State) (i : Nat) (f : Epoch) : smGet none (s.committed i f).cel.idLast (s.crate i).id = some (f + 3) := by
  unfold State.committed State.idUsed
  rw [smGet_smSet, if_pos rfl]

/-- A commit takes effect at X without a header run, or with one that is free (R164, R167). -/
theorem exec_crateCommitDecision {i : Nat} {s : State} (hi : i < 4) (hst : (s.crate i).state = .staging)
    (hstaged : (s.crate i).stagedAt.isSome = true) (hok : (s.crate i).abortOutcome = none) (hacked : ∀ g ∈ (s.crate i).gates, g.acked = true) :
    exec (.crateCommitDecision i) s = .next (if (s.crate i).gates = [] then
      s.updCrate i fun c => { c with state := .committing, eff := some (s.sys.epoch + 2 + BitVec.ofNat 48 (s.leadMax + s.crateExtra)) }
      else s.committed i (s.runFree 4 (s.sys.epoch + 1 + BitVec.ofNat 48 (s.leadMax + s.crateExtra)))) := by
  rw [apply_ite Host.Outcome.next]
  exact if_pos ⟨hi, hst, hstaged, hok, List.all_eq_true.mpr hacked⟩

/-- A gate part that has timed out: neither acknowledged nor rejected within 64 ep of an epoch (R164). -/
theorem exec_cratePartTimeout {i : Nat} {g : GatePart} {e : Epoch} {s : State} (hi : i < 4) (hst : (s.crate i).state = .staging)
    (hstaged : (s.crate i).stagedAt.isSome = true) (hgates : (s.crate i).gates = [g]) (hsent : g.lastSent = some e) (hack : g.acked = false)
    (hnack : g.nacked = false) (hlong : 64 ≤ (s.sys.epoch - e).toNat) :
    ∃ t, exec (.cratePartTimeout i) s = .next t ∧ t.crate i = { s.crate i with gates := [{ g with timedOut := true }] } ∧
      ∀ j, j ≠ i → t.crate j = s.crate j := by
  refine ⟨_, if_pos ⟨hi, hst, hstaged⟩, ?_, State.crate_updCrate_ne s i _⟩
  rw [State.crate_updCrate_same, hgates, List.map_singleton, if_pos]
  simpa only [hsent, hack, hnack, Option.getD_some, Bool.not_false, Bool.true_and, decide_eq_true_eq] using hlong

/-! The abort. -/

/-- The Crate of an abort: its device parts dropped, the objects that they touch held, and its first failure recorded (R163, R165). -/
def Crate.aborted (c : Crate) (outcome : Nat) : Crate :=
  let d := match c.gates.find? (fun g => g.nacked || g.timedOut) with
    | some g => c.fail (if g.nacked then 7 else 8) g.home
    | none => c
  { d with
    state := .aborting, held := d.devs.map DevPart.object, devs := [], failed := c.gates.countP (fun g => g.nacked || g.timedOut)
    outcome := outcome }

/-- The first failure apart, an abort changes these fields. -/
theorem Crate.aborted_eq (c : Crate) (outcome : Nat) : ∃ r h n, c.aborted outcome =
    { c with state := .aborting, held := c.devs.map DevPart.object, devs := [], failed := n, outcome := outcome, reason := r, firstHome := h } := by
  unfold Crate.aborted
  split
  · next g _ =>
    obtain ⟨r, h, hfail⟩ := c.fail_eq (if g.nacked then 7 else 8) g.home
    exact ⟨r, h, _, by rw [hfail]⟩
  · exact ⟨_, _, _, rfl⟩

/-- Slot i with its abort decided and noted in the Shelf of the epoch before, its headers not yet placed (R165, R168). -/
def State.abortDecided (s : State) (i outcome : Nat) : State :=
  (s.crateRecord (s.sys.epoch - 1) (s.crate i).id 2 outcome ((s.crate i).gates.countP fun g => g.nacked || g.timedOut)).updCrate i
    fun _ => (s.crate i).aborted outcome

theorem State.crate_abortDecided (s : State) (i outcome : Nat) : (s.abortDecided i outcome).crate i = (s.crate i).aborted outcome :=
  State.crate_updCrate_same _ i _

theorem State.crate_abortDecided_ne (s : State) (i outcome j : Nat) (hj : j ≠ i) : (s.abortDecided i outcome).crate j = s.crate j :=
  State.crate_updCrate_ne _ i _ j hj

/-- The headers of the abort of slot i, with an id, run from frame epoch a (R165, R167). -/
def State.abortRun (s : State) (i id : Nat) (a : Epoch) : State :=
  (s.updCrate i fun c => { c with eff := some a, runAt := some a }).idUsed id (some (a + 3))

theorem State.crate_abortRun (s : State) (i id : Nat) (a : Epoch) (k : Nat) : (s.abortRun i id a).crate k =
    if k = i then { s.crate i with eff := some a, runAt := some a } else s.crate k := by
  rw [State.abortRun, State.crate_idUsed, State.crate_updCrate]

/-- Slot i with its abort decided and placed: at E(m + 1) without gate parts, and after its headers otherwise (R165). -/
def State.abortPlaced (s : State) (i outcome : Nat) : State :=
  if (s.crate i).gates = [] then (s.abortDecided i outcome).updCrate i fun c => { c with eff := some (s.sys.epoch + 1) }
  else (s.abortDecided i outcome).abortRun i (s.crate i).id ((s.abortDecided i outcome).runFree 4 (s.sys.epoch + 1 + BitVec.ofNat 48 s.leadMax))

theorem exec_crateAbortDecision {i outcome : Nat} {s : State} (hi : i < 4) (hst : (s.crate i).state = .staging)
    (hout : (s.crate i).abortOutcome = some outcome) : exec (.crateAbortDecision i) s = .next (s.abortPlaced i outcome) := by
  show execCrateAbortDecision i s = _
  unfold execCrateAbortDecision State.abortPlaced
  simp only [hout]
  rw [if_neg (by simp [hst]; omega), apply_ite Host.Outcome.next]
  rfl

/-- An aborted Crate with its headers placed. -/
theorem State.crate_abortPlaced (s : State) (i outcome : Nat) : ∃ e run,
    (s.abortPlaced i outcome).crate i = { (s.crate i).aborted outcome with eff := e, runAt := run } ∧
    ((s.crate i).gates = [] → e = some (s.sys.epoch + 1)) ∧
    ((s.crate i).gates ≠ [] → (∀ j < 4, (s.crate j).runAt = none) → run = some (s.sys.epoch + 1 + BitVec.ofNat 48 s.leadMax)) := by
  unfold State.abortPlaced
  split
  · next hnone =>
    exact ⟨_, _, by rw [State.crate_updCrate_same, State.crate_abortDecided], fun _ => rfl, fun hsome => absurd hnone hsome⟩
  · next hsome =>
    refine ⟨_, _, by rw [State.crate_abortRun, if_pos rfl, State.crate_abortDecided],
      fun hnone => absurd hnone hsome, fun _ hruns => ?_⟩
    rw [State.runFree_of_no_run]
    intro j hj
    by_cases hji : j = i
    · subst hji
      obtain ⟨r, h, n, haborted⟩ := (s.crate j).aborted_eq outcome
      rw [State.crate_abortDecided, haborted]
      exact hruns j hj
    · rw [State.crate_abortDecided_ne s i outcome j hji, hruns j hj]

theorem State.crate_abortPlaced_ne (s : State) (i outcome j : Nat) (hj : j ≠ i) : (s.abortPlaced i outcome).crate j = s.crate j := by
  unfold State.abortPlaced
  split
  · rw [State.crate_updCrate_ne _ i _ j hj, s.crate_abortDecided_ne i outcome j hj]
  · rw [State.crate_abortRun, if_neg hj, s.crate_abortDecided_ne i outcome j hj]

/-- The Shelf of the epoch before shows the abort (R168). -/
theorem State.shelf_abortPlaced (s : State) (i outcome : Nat) :
    ((s.abortPlaced i outcome).shelf (s.sys.epoch - 1)).crateId = (s.crate i).id ∧
      ((s.abortPlaced i outcome).shelf (s.sys.epoch - 1)).crateEvent = 2 := by
  have hdecided : ((s.abortDecided i outcome).shelf (s.sys.epoch - 1)).crateId = (s.crate i).id ∧
      ((s.abortDecided i outcome).shelf (s.sys.epoch - 1)).crateEvent = 2 := by
    rw [State.abortDecided, State.shelf_updCrate]
    exact s.shelf_crateRecord _ _ _ _ _
  unfold State.abortPlaced
  split
  · exact hdecided
  · exact hdecided

/-- What an open Crate holds takes no direct write (R163). -/
theorem State.crateHolds_of_held {s : State} {i k : Nat} (hi : i < 4) (hopen : (s.crate i).isOpen = true) (hk : k ∈ (s.crate i).held) :
    s.crateHolds k = true :=
  List.any_eq_true.mpr ⟨i, List.mem_range.mpr hi, by simp [hopen, hk]⟩

theorem exec_crateAbortDone {i : Nat} {a : Epoch} {s : State} (hi : i < 4) (hst : (s.crate i).state = .aborting)
    (heff : (s.crate i).eff = some a) (hnow : epGe s.sys.epoch (if (s.crate i).gates = [] then a else a + 3) = true) :
    exec (.crateAbortDone i) s = .next (s.crateDone i (s.crate i).outcome) := by
  show execCrateAbortDone i s = _
  unfold execCrateAbortDone
  simp only [heff]
  exact if_pos ⟨hi, hst, hnow⟩

/-- Settles O18: each decision changes its own slot; the abort is abortPlaced, and the header runs are those of runFree. -/
theorem crateDecisions : Obligations.CrateDecisions := by
  refine ⟨fun i s hi hst hnew hnow => ?staging, fun i f s hi hst hstaged hok hacked hf => ?commit,
    fun i g e s hi hst hstaged hgates hsent hack hnack hlong => ?timeout, fun i o s hi hst hout => ?abort,
    fun i a s hi hst heff hnow => ?done⟩
  case staging =>
    have hexec := exec_crateStaging hi hst hnew hnow
    exact ⟨_, hexec, s.crate_updCrate_same i _, s.crate_updCrate_ne i _, execCrateStaging_frame i hexec⟩
  case commit =>
    have hexec := exec_crateCommitDecision hi hst hstaged hok hacked
    have hrun (h : ∀ j < 4, (s.crate j).runAt = none) := hf.trans (State.runFree_of_no_run h 4 _)
    rw [← hf] at hexec
    refine ⟨_, hexec, fun hnone => ?_, fun hsome => ?_, hrun, fun j hj => ?_, execCrateCommitDecision_frame i hexec⟩
    · rw [if_pos hnone, State.crate_updCrate_same]
    · rw [if_neg hsome]
      exact ⟨(s.crate_committed i f i).trans (if_pos rfl), s.idLast_committed i f⟩
    · split
      · exact s.crate_updCrate_ne i _ j hj
      · exact (s.crate_committed i f j).trans (if_neg hj)
  case timeout =>
    obtain ⟨t, hexec, hcrate, hother⟩ := exec_cratePartTimeout hi hst hstaged hgates hsent hack hnack hlong
    exact ⟨t, hexec, hcrate, hother, execCratePartTimeout_frame i hexec⟩
  case abort =>
    have hexec := exec_crateAbortDecision hi hst hout
    obtain ⟨e, run, hcrate, hdevices, hgates⟩ := s.crate_abortPlaced i o
    obtain ⟨r, h, n, haborted⟩ := (s.crate i).aborted_eq o
    rw [haborted] at hcrate
    obtain ⟨hid, hevent⟩ := s.shelf_abortPlaced i o
    refine ⟨_, hexec, by rw [hcrate], by rw [hcrate], by rw [hcrate], fun d hd => ?_, fun hnone => ?_, fun hsome hruns => ?_, hid, hevent,
      s.crate_abortPlaced_ne i o, execCrateAbortDecision_frame i hexec⟩
    · exact State.crateHolds_of_held hi (by rw [hcrate]; rfl) (by rw [hcrate]; exact List.mem_map_of_mem hd)
    · rw [hcrate, hdevices hnone]
    · rw [hcrate, hgates hsome hruns]
  case done =>
    have hexec := exec_crateAbortDone hi hst heff hnow
    exact ⟨_, hexec, s.crate_crateDone i _, s.rb_crateDone i _, s.crate_crateDone_ne i _, s.crateDone_regsBut i _,
      execCrateAbortDone_frame i hexec⟩

end Sys2Proof.Machine
end

section
/-! PROOFS. The effects of a Crate (O19): its device parts taken over, the judgement of its gate parts, and the ends of Crates and slots. -/

namespace Sys2Proof.Machine

/-! The device parts take effect. -/

/-- Of the system block a device part changes the map, and a map part alone does (R164, R387). -/
theorem State.applyPart_map (s : State) (d : DevPart) :
    (s.applyPart d).sys.map = if d.isMap then mapWith s.sys.map (bits d.w2 11 0) d.w3 else s.sys.map := by
  have hmap : d.isMap = decide (d.part = 0x01) := rfl
  rw [hmap]
  unfold State.applyPart
  split
  · next h => simp [h]
  · next h => simp [h, keep_sys (s := s) (t := s.setOwner d.w2 (bits d.w3 3 0) (bits d.w3 7 4)) (by simp)]
  · next h => simp [h, State.setRf]
  · next h _ _ => rw [if_neg (by simpa using h)]

theorem State.applyParts_map (ds : List DevPart) (s : State) : (ds.foldl State.applyPart s).sys.map = s.mapAfter ds := by
  induction ds generalizing s with
  | nil => rfl
  | cons d ds ih =>
    rw [List.foldl_cons, ih]
    unfold State.mapAfter
    rw [List.foldl_cons, State.applyPart_map]

/-- The bank that a gate part selects is in force (R158, R164). -/
def State.takeBank (s : State) (g : GatePart) : State :=
  match g.bank with
  | some b => s.updEunit g.home (fun u => { u with bank := b = 1 })
  | none => s

theorem State.takeBank_frame (s : State) (g : GatePart) : Frame [.edg] s (s.takeBank g) := by
  unfold State.takeBank
  split <;> simp

/-- The parts of a Crate in force: its device parts, its slot banks, then the banks of its gate parts (R164). -/
def State.partsTaken (s : State) (c : Crate) : State :=
  c.gates.foldl State.takeBank
    ((c.devs.foldl State.applyPart s).setBanks ((c.devs.filter (fun d => d.part = 0x31)).map (fun d => (bits d.w2 5 0, bits d.w3 0 0))))

theorem State.partsTaken_map (s : State) (c : Crate) : (s.partsTaken c).sys.map = s.mapAfter c.devs := by
  have hsys : (s.partsTaken c).sys = (c.devs.foldl State.applyPart s).sys := keep_sys (by
    unfold State.partsTaken
    rw [Frame.foldl fun s g => (s.takeBank_frame g).mono (by simp)]
    simp)
  rw [hsys, State.applyParts_map]

theorem State.partsTaken_cel (s : State) (c : Crate) : (s.partsTaken c).cel = s.cel := keep_cel (by
  unfold State.partsTaken
  rw [Frame.foldl fun s g => (s.takeBank_frame g).mono (by simp)]
  simp)

/-- Slot i VERIFYING, its parts in force and its record in Shelf x; each gate part notes the bank that its unit had before (R164, R168). -/
def State.crateApplied (s : State) (i : Nat) (x : Epoch) : State :=
  ((s.partsTaken (s.crate i)).updCrate i fun c =>
    { c with
      state := .verifying
      gates := (s.crate i).gates.map fun g => { g with oldBank := b2n (s.eunit g.home).bank } }).crateRecord x (s.crate i).id 1 0 0

theorem exec_crateApply {i : Nat} {x : Epoch} {s : State} (hi : i < 4) (hst : (s.crate i).state = .committing)
    (heff : (s.crate i).eff = some x) (hnow : epGe s.sys.epoch (x + 1) = true) : exec (.crateApply i) s = .next (s.crateApplied i x) := by
  show Host.Outcome.next (if i < 4 then s.crateApply i else s) = _
  unfold State.crateApply State.crateApplied
  simp only [if_pos hi, hst, heff, hnow, Bool.true_eq_false, if_false]
  rfl

theorem exec_crateApply_early {i : Nat} {x : Epoch} {s : State} (heff : (s.crate i).eff = some x)
    (hearly : epGe s.sys.epoch (x + 1) = false) : exec (.crateApply i) s = .next s := by
  show Host.Outcome.next (if i < 4 then s.crateApply i else s) = _
  have hsame : s.crateApply i = s := by
    unfold State.crateApply
    dsimp only
    split
    · next y _ hy =>
      obtain rfl : x = y := Option.some.inj (heff.symm.trans hy)
      exact if_pos hearly
    · rfl
  rw [hsame, ite_self]

theorem State.crate_crateApplied (s : State) (i : Nat) (x : Epoch) (k : Nat) : (s.crateApplied i x).crate k =
    if k = i then { s.crate i with state := .verifying, gates := (s.crate i).gates.map fun g => { g with oldBank := b2n (s.eunit g.home).bank } }
    else s.crate k := by
  have hkept (j : Nat) := State.crate_congr (s.partsTaken_cel (s.crate i)) j
  rw [State.crateApplied, State.crate_crateRecord, State.crate_updCrate, hkept, hkept]

/-! The end of the verification. -/

/-- A gate part judged NOT_APPLIED: its profile bank settled, the cause latched and source 43 given (R166). -/
def State.partFailed (s : State) (g : GatePart) : State := ((s.settleBank g).latch R.CEL_CAUSE 4).prtEvent 43

theorem State.settleBank_keeps (s : State) (g : GatePart) : (s.settleBank g).regs = s.regs ∧ (s.settleBank g).cel = s.cel :=
  ⟨keep_regs (by simp), keep_cel (by simp)⟩

theorem State.partFailed_regsBut (s : State) (g : GatePart) : RegsBut [R.CEL_CAUSE] s (s.partFailed g) :=
  (RegsBut.of_regs (s.settleBank_keeps g).1).trans (State.latch_regsBut _ _ _)

theorem State.partFailed_raised (s : State) (g : GatePart) : (s.partFailed g).rb R.CEL_CAUSE 4 = true ∧ 43 ∈ (s.partFailed g).prt.evtNext :=
  ⟨State.rb_latch _ _ _ (by decide), List.mem_cons_self⟩

/-- The parts judged NOT_APPLIED raise the cause and the source, if there is one (R166). -/
theorem State.partsFailed_raised (s : State) {gs : List GatePart} (h : gs ≠ []) :
    (gs.foldl State.partFailed s).rb R.CEL_CAUSE 4 = true ∧ 43 ∈ (gs.foldl State.partFailed s).prt.evtNext := by
  obtain rfl | ⟨gs, g, rfl⟩ := gs.eq_nil_or_concat
  · exact absurd rfl h
  · rw [List.concat_eq_append, List.foldl_concat]
    exact State.partFailed_raised _ g

/-- The gate parts of a Crate that are NOT_APPLIED (R166). -/
def Crate.lost (c : Crate) : List GatePart := c.gates.filter (fun g => !g.applied)

theorem Crate.lost_eq_nil {c : Crate} : c.lost = [] ↔ c.gates.all GatePart.applied = true := by
  simp [Crate.lost, List.filter_eq_nil_iff]

/-- A Crate that notes the gate parts that failed: the first one, and their number (R166). -/
def Crate.judged (c : Crate) (lost : List GatePart) : Crate :=
  let d := match lost.head? with | some g => c.fail 9 g.home | none => c
  { d with failed := lost.length }

theorem Crate.judged_eq (c : Crate) (lost : List GatePart) :
    ∃ r h, c.judged lost = { c with failed := lost.length, reason := r, firstHome := h } := by
  unfold Crate.judged
  split
  · next g _ =>
    obtain ⟨r, h, hfail⟩ := c.fail_eq 9 g.home
    exact ⟨r, h, by rw [hfail]⟩
  · exact ⟨_, _, rfl⟩

/-- Slot i at the end of its verification, not yet DONE (R166). -/
def State.crateJudged (s : State) (i : Nat) : State :=
  ((s.crate i).lost.foldl State.partFailed s).updCrate i fun c => c.judged (s.crate i).lost

theorem State.partsFailed_keeps (s : State) (gs : List GatePart) :
    (gs.foldl State.partFailed s).cel = s.cel ∧ (gs.foldl State.partFailed s).sys = s.sys :=
  ⟨keep_cel (by rw [Frame.foldl fun s g => by simp [State.partFailed]]; simp),
    keep_sys (by rw [Frame.foldl fun s g => by simp [State.partFailed]]; simp)⟩

theorem exec_crateVerifyEnd {i : Nat} {v : Epoch} {s : State} (hi : i < 4) (hst : (s.crate i).state = .verifying)
    (hver : (s.crate i).verified = some v) (hnow : epGe s.sys.epoch (v + 1) = true) :
    exec (.crateVerifyEnd i) s = .next ((s.crateJudged i).crateDone i (if (s.crate i).lost = [] then 1 else 2)) := by
  show execCrateVerifyEnd i s = _
  unfold execCrateVerifyEnd
  simp only [hver]
  rw [if_pos ⟨hi, hst, hnow⟩]
  rfl

theorem State.crate_crateJudged (s : State) (i : Nat) : ∃ r h,
    (s.crateJudged i).crate i = { s.crate i with failed := (s.crate i).lost.length, reason := r, firstHome := h } := by
  obtain ⟨r, h, hjudged⟩ := (s.crate i).judged_eq (s.crate i).lost
  exact ⟨r, h, by rw [State.crateJudged, State.crate_updCrate_same, State.crate_congr (s.partsFailed_keeps _).1, hjudged]⟩

theorem State.crate_crateJudged_ne (s : State) (i j : Nat) (hj : j ≠ i) : (s.crateJudged i).crate j = s.crate j := by
  rw [State.crateJudged, State.crate_updCrate_ne _ i _ j hj, State.crate_congr (s.partsFailed_keeps _).1]

theorem State.crateJudged_epoch (s : State) (i : Nat) : (s.crateJudged i).sys.epoch = s.sys.epoch :=
  congrArg SysSt.epoch (s.partsFailed_keeps (s.crate i).lost).2

theorem State.crateJudged_regsBut (s : State) (i : Nat) : RegsBut [R.CEL_CAUSE] s (s.crateJudged i) :=
  (RegsBut.foldl (fun y g _ => y.partFailed_regsBut g) s).trans (.of_regs (State.updCrate_regs _ i _))

/-! The ends of a Crate in BUILDING and of a slot. -/

theorem exec_crateBuildLimit {i : Nat} {s : State} (hi : i < 4) (hst : (s.crate i).state = .building)
    (hlimit : 1024 * max 1 (s.rf R.CEL_CRATE_CFG 31 16) ≤ (s.sys.epoch - (s.crate i).openedAt).toNat) :
    exec (.crateBuildLimit i) s = .next (s.crateDone i 8) :=
  if_pos ⟨hi, hst, hlimit⟩

/-- Slot i FREE, its parts zeroed (R168). -/
def State.crateFreed (s : State) (i : Nat) : State :=
  s.updCrate i fun c => { c with state := .free, gates := [], devs := [], closeRef := none }

/-- A Crate without a close order to complete leaves its slot at the boundary after it is DONE (R168). -/
theorem exec_crateSlotFree_none {i : Nat} {s : State} (hi : i < 4) (hst : (s.crate i).state = .done) (href : (s.crate i).closeRef = none)
    (hlater : (s.crate i).doneAt ≠ s.sys.epoch) : exec (.crateSlotFree i) s = .next (s.crateFreed i) := by
  show execCrateSlotFree i s = _
  unfold execCrateSlotFree
  simp only [href]
  rw [if_neg (by simp [hst]; omega), if_neg hlater]
  rfl

/-- Word 2 of the close completion of a Crate: the epoch at which it takes effect, its first failure, its outcome and its id (R389). -/
def Crate.closeWord (c : Crate) : Nat :=
  (match c.eff with | some e => lowE 32 e | none => 0) * 2 ^ 32 + c.firstHome * 2 ^ 16 + c.reason * 2 ^ 12 + c.outcome * 2 ^ 8 + c.id

theorem Crate.closeWord_id (c : Crate) : c.closeWord % 256 = c.id % 256 := by
  unfold Crate.closeWord
  omega

/-- A Crate leaves its slot with its close completion, or at the boundary after it is DONE where none can be written (R168, R380, R389). -/
theorem exec_crateSlotFree_some {i : Nat} {ref : OrderRef} {s : State} (hi : i < 4) (hst : (s.crate i).state = .done)
    (href : (s.crate i).closeRef = some ref) (hmay : s.takesCompletion ref = true ∨ (s.crate i).doneAt ≠ s.sys.epoch) :
    exec (.crateSlotFree i) s = .next ((s.crateFreed i).completeAt (s.crate i).doneAt ref 0x23 (if (s.crate i).outcome = 1 then 0 else 0x0C)
      (s.crate i).closeWord ((s.crate i).failed * 2 ^ 16 + (s.crate i).ackedCount)) := by
  have hgo : ¬(s.takesCompletion ref = false ∧ (s.crate i).doneAt = s.sys.epoch) := by
    rintro ⟨htakes, hnow⟩
    exact hmay.elim (fun h => absurd (htakes.symm.trans h) Bool.false_ne_true) (fun h => h hnow)
  show execCrateSlotFree i s = _
  unfold execCrateSlotFree
  simp only [href]
  rw [if_neg (by simp [hst]; omega), if_neg hgo]
  rfl

/-- Settles O19: an application is partsTaken and a record, a verification judges its parts before its end, and a slot is freed with or
without a completion. -/
theorem crateEffects : Obligations.CrateEffects := by
  refine ⟨fun i x s hi hst heff hnow => ?apply, fun i x s heff hearly => exec_crateApply_early heff hearly,
    fun i v s hi hst hver hnow => ?verify, fun i s hi hst hlimit => ?limit, fun i s hi hst href hlater => ?free,
    fun i ref s hi hst href hmay => ?close⟩
  case apply =>
    have hexec := exec_crateApply hi hst heff hnow
    obtain ⟨hid, hevent⟩ := State.shelf_crateRecord _ x (s.crate i).id 1 0 0
    refine ⟨_, hexec, ?_, ?_, s.partsTaken_map (s.crate i), hid, hevent, fun j hj => ?_, execCrateApply_frame i hexec⟩
    · rw [State.crate_crateApplied, if_pos rfl]
    · rw [State.crate_crateApplied, if_pos rfl, List.length_map]
    · rw [State.crate_crateApplied, if_neg hj]
  case verify =>
    have hexec := exec_crateVerifyEnd hi hst hver hnow
    obtain ⟨r, h, hcrate⟩ := s.crate_crateJudged i
    have hdone := (s.crateJudged i).crate_crateDone i (if (s.crate i).lost = [] then 1 else 2)
    rw [hcrate, State.crateJudged_epoch] at hdone
    refine ⟨_, hexec, by rw [hdone]; rfl, by rw [hdone]; rfl, ?_, by rw [hdone]; rfl, State.rb_crateDone _ i _, fun hsome => ?_, fun j hj => ?_,
      (s.crateJudged_regsBut i).trans (State.crateDone_regsBut _ i _), execCrateVerifyEnd_frame i hexec⟩
    · rw [hdone]
      simp only [Crate.ended, Crate.lost_eq_nil]
    · obtain ⟨hcause, hevent⟩ := s.partsFailed_raised (gs := (s.crate i).lost) fun hnil => by simp [Crate.lost_eq_nil.mp hnil] at hsome
      exact ⟨State.rb_latch_keeps _ _ _ _ _ (by decide) hcause, hevent⟩
    · rw [State.crate_crateDone_ne _ i _ j hj, State.crate_crateJudged_ne s i j hj]
  case limit =>
    have hexec := exec_crateBuildLimit hi hst hlimit
    exact ⟨_, hexec, s.crate_crateDone i 8, s.rb_crateDone i 8, s.crate_crateDone_ne i 8, s.crateDone_regsBut i 8,
      execCrateBuildLimit_frame i hexec⟩
  case free =>
    refine ⟨_, exec_crateSlotFree_none hi hst href hlater, ?_, s.crate_updCrate_ne i _, by simp [State.crateFreed]⟩
    rw [State.crateFreed, State.crate_updCrate_same, ← href]
  case close =>
    exact ⟨_, _, _, exec_crateSlotFree_some hi hst href hmay, s.crate_updCrate_same i _, (s.crate i).closeWord_id, rfl,
      by simp [State.crateFreed]⟩

end Sys2Proof.Machine
end

section
/-! PROOFS. The Crate orders and SNAPSHOT (O44): the slot that an order names, and the next state of each order. -/

namespace Sys2Proof.Machine

/-! The Crate that an order names. -/

theorem State.withCrate_unknown {s : State} {id : Nat} (r : OrderRef) (op : Nat) (f : State → Nat → State) (h : s.crateSlot id = none) :
    s.withCrate r op id f = s.complete r op 9 0 0 := by
  simp only [State.withCrate, h]

theorem State.withCrate_notOwner {s : State} {id i : Nat} {r : OrderRef} (op : Nat) (f : State → Nat → State) (h : s.crateSlot id = some i)
    (hother : (s.crate i).hatch ≠ r.hatch) : s.withCrate r op id f = s.complete r op 5 0 0 := by
  simp only [State.withCrate, h, if_pos hother]

theorem State.withCrate_own {s : State} {id i : Nat} {r : OrderRef} (op : Nat) (f : State → Nat → State) (h : s.crateSlot id = some i)
    (hown : (s.crate i).hatch = r.hatch) : s.withCrate r op id f = f s i := by
  simp only [State.withCrate, h, hown, ne_eq, not_true_eq_false, if_false]

/-- The arguments of a CRATE_ADD_GATE that names 1 to 5 items and a home address (R386). -/
theorem gateArgs_fit {items : List StagedItem} {home : Nat} (hsome : items ≠ []) (hfew : items.length ≤ 5) (hhome : home < 4096) :
    ¬(items = [] ∨ 5 < items.length ∨ 4096 ≤ home) := by
  simp only [hsome, false_or, not_or]
  omega

/-- Each order that names a Crate goes by withCrate, and all but CRATE_ABORT complete with CRATE_STATE for one that is not in BUILDING
(R390). -/
theorem exec_crateOrder {c : Instr} {op id home part w2 w3 : Nat} {r : OrderRef} {items : List StagedItem} (s : State)
    (hc : (c, op) ∈ [(.crateAddGate r id home items, 0x21), (.crateAddDevice r id part w2 w3, 0x22), (.crateClose r id, 0x23),
      (.crateAbort r id, 0x24)])
    (hsome : items ≠ []) (hfew : items.length ≤ 5) (hhome : home < 4096) (hwords : partWordsOk part w2 w3 = true) :
    ∃ f, exec c s = .next (s.withCrate r op id f) ∧
      (op ≠ 0x24 → ∀ i, (s.crate i).state ≠ .building → f s i = s.complete r op 9 0 0) := by
  simp only [List.mem_cons, Prod.mk.injEq, List.not_mem_nil, or_false] at hc
  rcases hc with ⟨rfl, rfl⟩ | ⟨rfl, rfl⟩ | ⟨rfl, rfl⟩ | ⟨rfl, rfl⟩
  · exact ⟨_, congrArg Host.Outcome.next (if_neg (gateArgs_fit hsome hfew hhome)), fun _ _ hst => if_pos hst⟩
  · exact ⟨_, congrArg Host.Outcome.next (if_neg (by simp [hwords])), fun _ _ hst => if_pos hst⟩
  · exact ⟨_, rfl, fun _ _ hst => if_pos hst⟩
  · exact ⟨_, rfl, fun h => absurd rfl h⟩

/-! CRATE_OPEN. -/

/-- A new Crate in slot i with an id, opened by a Hatch (R157). -/
def State.crateOpened (s : State) (i id : Nat) (h : Fin 4) : State :=
  let t := s.updCrate i fun _ => { state := .building, id := id, hatch := h, openedAt := s.sys.epoch }
  { t with cel := { t.cel with lastId := id } }

theorem exec_crateOpen {i id : Nat} (r : OrderRef) {s : State} (hfree : (List.range 4).find? (fun i => (s.crate i).state = .free) = some i)
    (hid : s.nextId = some id) : exec (.crateOpen r) s = .next ((s.crateOpened i id r.hatch).complete r 0x20 0 (i * 256 + id) 0) := by
  show Host.Outcome.next (s.crateOpen r) = _
  unfold State.crateOpen
  simp only [hfree, hid]
  rfl

theorem exec_crateOpen_busy (r : OrderRef) {s : State} (hfull : ∀ i < 4, (s.crate i).state ≠ .free) :
    exec (.crateOpen r) s = .next (s.complete r 0x20 8 0 0) := by
  have hnone : (List.range 4).find? (fun i => decide ((s.crate i).state = .free)) = none :=
    List.find?_eq_none.mpr fun i hi => by simpa using hfull i (List.mem_range.mp hi)
  show Host.Outcome.next (s.crateOpen r) = _
  unfold State.crateOpen
  simp only [hnone]

theorem State.crate_crateOpened (s : State) (i id : Nat) (h : Fin 4) (k : Nat) : (s.crateOpened i id h).crate k =
    if k = i then { state := .building, id := id, hatch := h, openedAt := s.sys.epoch } else s.crate k :=
  s.crate_updCrate i k fun _ => { state := .building, id := id, hatch := h, openedAt := s.sys.epoch }

/-! The two adds. -/

/-- A Crate with its parts counted (R169). -/
def Crate.counted (c : Crate) : Crate := { c with gateCount := c.gates.length, devCount := c.devs.length }

/-- An add that is taken changes its own slot, and completes with the parts so far (R389). -/
theorem State.addDone_spec (s : State) (r : OrderRef) (op i : Nat) (f : Crate → Crate) : ∃ u : State,
    (s.updCrate i f).addDone r op i = u.complete r op 0 (u.crate i).parts 0 ∧ u.crate i = (f (s.crate i)).counted ∧
      (∀ k, k ≠ i → u.crate k = s.crate k) ∧ Frame [.cel] s u := by
  refine ⟨(s.updCrate i f).updCrate i Crate.counted, rfl, ?_, fun k hk => ?_, by simp⟩
  · rw [State.crate_updCrate_same, State.crate_updCrate_same]
  · rw [State.crate_updCrate_ne _ i _ k hk, State.crate_updCrate_ne _ i _ k hk]

section
variable {r : OrderRef} {id home i : Nat} {items : List StagedItem} {s : State} (hsome : items ≠ []) (hfew : items.length ≤ 5)
  (hhome : home < 4096) (hslot : s.crateSlot id = some i) (hown : (s.crate i).hatch = r.hatch) (hst : (s.crate i).state = .building)
include hsome hfew hhome hslot hown hst

theorem exec_crateAddGate : exec (.crateAddGate r id home items) s =
    .next (if (addItems (s.crate i).gates home items).any (fun g => g.home = home && 32 < g.items.length) then s.complete r 0x21 6 0 0
      else (s.updCrate i fun c => { c with gates := addItems (s.crate i).gates home items }).addDone r 0x21 i) := by
  show Host.Outcome.next (s.crateAddGate r id home items) = _
  rw [State.crateAddGate, if_neg (gateArgs_fit hsome hfew hhome), State.withCrate_own _ _ hslot hown, if_neg (not_not.mpr hst)]

/-- More than 32 items of a unit are a BAD_ARG (R386). -/
theorem exec_crateAddGate_tooMany (hmany : ∃ g ∈ addItems (s.crate i).gates home items, g.home = home ∧ 32 < g.items.length) :
    exec (.crateAddGate r id home items) s = .next (s.complete r 0x21 6 0 0) := by
  rw [exec_crateAddGate hsome hfew hhome hslot hown hst, if_pos]
  simpa using hmany

theorem exec_crateAddGate_fits (hfits : ∀ g ∈ addItems (s.crate i).gates home items, g.home = home → g.items.length ≤ 32) :
    exec (.crateAddGate r id home items) s =
      .next ((s.updCrate i fun c => { c with gates := addItems (s.crate i).gates home items }).addDone r 0x21 i) := by
  rw [exec_crateAddGate hsome hfew hhome hslot hown hst, if_neg]
  simpa using hfits

end

theorem exec_crateAddDevice_badArg (r : OrderRef) (id : Nat) {part w2 w3 : Nat} (s : State) (hwords : partWordsOk part w2 w3 = false) :
    exec (.crateAddDevice r id part w2 w3) s = .next (s.complete r 0x22 6 0 0) :=
  congrArg Host.Outcome.next (if_pos hwords)

section
variable {r : OrderRef} {id i : Nat} {s : State} (hslot : s.crateSlot id = some i) (hown : (s.crate i).hatch = r.hatch)
include hslot hown

theorem exec_crateAddDevice {part w2 w3 : Nat} (hst : (s.crate i).state = .building) (hwords : partWordsOk part w2 w3 = true) :
    exec (.crateAddDevice r id part w2 w3) s =
      .next ((s.updCrate i fun c => { c with devs := c.devs ++ [⟨part, w2, w3⟩] }).addDone r 0x22 i) := by
  show Host.Outcome.next (s.crateAddDevice r id part w2 w3) = _
  rw [State.crateAddDevice, if_neg (by simp [hwords]), State.withCrate_own _ _ hslot hown, if_neg (not_not.mpr hst)]

/-! CRATE_CLOSE. -/

theorem exec_crateClose (hst : (s.crate i).state = .building) : exec (.crateClose r id) s = .next (s.crateClose i r) := by
  show Host.Outcome.next (s.crateCloseOrder r id) = _
  rw [State.crateCloseOrder, State.withCrate_own _ _ hslot hown, if_neg (not_not.mpr hst)]

/-! CRATE_ABORT. -/

theorem exec_crateAbort_building (hst : (s.crate i).state = .building) :
    exec (.crateAbort r id) s = .next ((s.crateDone i 6).complete r 0x24 0 id 0) := by
  show Host.Outcome.next (s.crateAbort r id) = _
  rw [State.crateAbort, State.withCrate_own _ _ hslot hown]
  simp only [hst]

theorem exec_crateAbort_staging (hst : (s.crate i).state = .staging) :
    exec (.crateAbort r id) s = .next ((s.updCrate i fun c => { c with abortAsked := true }).complete r 0x24 0 id 0) := by
  show Host.Outcome.next (s.crateAbort r id) = _
  rw [State.crateAbort, State.withCrate_own _ _ hslot hown]
  simp only [hst]

theorem exec_crateAbort_tooLate (hst : (s.crate i).state = .committing ∨ (s.crate i).state = .verifying) :
    exec (.crateAbort r id) s = .next (s.complete r 0x24 0x0A 0 0) := by
  show Host.Outcome.next (s.crateAbort r id) = _
  rw [State.crateAbort, State.withCrate_own _ _ hslot hown]
  rcases hst with hst | hst <;> simp only [hst]

end

/-- Slot i at its close by an order, its parts counted, not yet validated (R160, R169). -/
def State.crateClosing (s : State) (i : Nat) (r : OrderRef) : State :=
  (s.updCrate i fun c => { c with gates := s.groupItems c, closeRef := some r }).updCrate i Crate.counted

theorem State.crate_crateClosing (s : State) (i : Nat) (r : OrderRef) :
    (s.crateClosing i r).crate i = ({ s.crate i with gates := s.groupItems (s.crate i), closeRef := some r } : Crate).counted := by
  rw [State.crateClosing, State.crate_updCrate_same, State.crate_updCrate_same]

theorem State.crateClosing_regs (s : State) (i : Nat) (r : OrderRef) : (s.crateClosing i r).regs = s.regs :=
  (State.updCrate_regs _ i _).trans (s.updCrate_regs i _)

theorem State.crate_crateClosing_ne (s : State) (i : Nat) (r : OrderRef) (k : Nat) (hk : k ≠ i) : (s.crateClosing i r).crate k = s.crate k := by
  rw [State.crateClosing, State.crate_updCrate_ne _ i _ k hk, State.crate_updCrate_ne _ i _ k hk]

/-- A close that passes the validation starts staging; another ends the Crate with REJECTED (R162). -/
theorem State.crateClose_eq (s : State) (i : Nat) (r : OrderRef) : s.crateClose i r = match (s.crateClosing i r).crateReason i r.hatch with
    | none => (s.crateClosing i r).updCrate i fun c => { c with state := .staging, closedAt := s.sys.epoch }
    | some (reason, home) => ((s.crateClosing i r).updCrate i fun c => c.fail reason home).crateDone i 3 := by
  unfold State.crateClose State.crateClosing Crate.counted
  rfl

/-- Either way the Crate keeps its device parts and the order that closes it, and no other slot changes. -/
theorem State.crateClose_spec (s : State) (i : Nat) (r : OrderRef) :
    ((s.crateClose i r).crate i).closeRef = some r ∧ ((s.crateClose i r).crate i).devs = (s.crate i).devs ∧
    (((s.crateClose i r).crate i).state = .staging ∧ ((s.crateClose i r).crate i).closedAt = s.sys.epoch ∨
      ((s.crateClose i r).crate i).state = .done ∧ ((s.crateClose i r).crate i).outcome = 3 ∧ (s.crateClose i r).rb R.CEL_CAUSE 3 = true) ∧
    (∀ k, k ≠ i → (s.crateClose i r).crate k = s.crate k) ∧ RegsBut [R.CEL_CAUSE] s (s.crateClose i r) := by
  rw [State.crateClose_eq]
  split
  · rw [State.crate_updCrate_same, State.crate_crateClosing]
    refine ⟨rfl, rfl, .inl ⟨rfl, rfl⟩, fun k hk => ?_, .of_regs ((State.updCrate_regs _ i _).trans (s.crateClosing_regs i r))⟩
    rw [State.crate_updCrate_ne _ i _ k hk, State.crate_crateClosing_ne s i r k hk]
  · next reason home _ =>
    obtain ⟨e, h, hfail⟩ := ((s.crateClosing i r).crate i).fail_eq reason home
    rw [State.crate_crateDone, State.crate_updCrate_same, hfail, State.crate_crateClosing]
    refine ⟨rfl, rfl, .inr ⟨rfl, rfl, State.rb_crateDone _ _ _⟩, fun k hk => ?_,
      (RegsBut.of_regs ((State.updCrate_regs _ i _).trans (s.crateClosing_regs i r))).trans (State.crateDone_regsBut _ i 3)⟩
    rw [State.crate_crateDone_ne _ i 3 k hk, State.crate_updCrate_ne _ i _ k hk, State.crate_crateClosing_ne s i r k hk]

/-! SNAPSHOT. -/

/-- A change of the snapshot side of one Hatch changes no other. -/
@[simp] theorem State.snap_updSnap (s : State) (h k : Nat) (f : SnapSt → SnapSt) :
    (s.updSnap h f).snap k = if k = h then f (s.snap h) else s.snap k := smGet_smUpd _ _ _ _ _

theorem exec_snapshot_badArg (r : OrderRef) {a : SnapshotArgs} (s : State)
    (hbad : (a.dma = true ∧ a.addr.toNat % 64 ≠ 0) ∨ a.count = 0 ∨ 4096 < a.first + a.count) :
    exec (.snapshot r a) s = .next (s.complete r 0x10 6 0 0) := by
  show Host.Outcome.next (s.snapshot r a) = _
  unfold State.snapshot
  split
  · rfl
  · next hdma =>
    have hrange : a.count = 0 ∨ 4096 < a.first + a.count := hbad.resolve_left (by simpa using hdma)
    rw [State.snapRequest, if_pos hrange]

theorem exec_snapshot_waits (r : OrderRef) {a : SnapshotArgs} (s : State) (hdma : a.dma = true → a.addr.toNat % 64 = 0)
    (hcount : a.count ≠ 0) (hrange : a.first + a.count ≤ 4096) :
    exec (.snapshot r a) s = .next (s.updSnap r.hatch.val fun q => { q with queue := q.queue ++ [⟨r, a⟩] }) := by
  show Host.Outcome.next (s.snapshot r a) = _
  rw [State.snapshot, if_neg (by simpa using hdma), State.snapRequest, if_neg (by omega)]

/-- Settles O44: each order goes by the slot that it names, and changes that slot alone. -/
theorem snapshotAndCrateOrders : Obligations.SnapshotAndCrateOrders := by
  refine ⟨fun r i id s hfree hid => ?opened, fun r s hfull => exec_crateOpen_busy r hfull,
    fun c op id home part w2 w3 r items s hc hsome hfew hhome hwords => ?named,
    fun r id home i items s hsome hfew hhome hslot hown hst hmany => exec_crateAddGate_tooMany hsome hfew hhome hslot hown hst hmany,
    fun r id home i items s hsome hfew hhome hslot hown hst hfits => ?gate,
    fun r id part w2 w3 s hwords => exec_crateAddDevice_badArg r id s hwords,
    fun r id part w2 w3 i s hslot hown hst hwords => ?device, fun r id i s hslot hown hst => ?close,
    fun r id i s hslot hown hst => exec_crateAbort_building hslot hown hst, fun r id i s hslot hown hst => ?abort,
    fun r id i s hslot hown hst => exec_crateAbort_tooLate hslot hown hst, fun r a s hbad => exec_snapshot_badArg r s hbad,
    fun r a s hdma hcount hrange => ?snapshot⟩
  case opened =>
    refine ⟨_, exec_crateOpen r hfree hid, ?_, fun k hk => ?_, by simp [State.crateOpened]⟩
    · rw [State.crate_crateOpened, if_pos rfl]
    · rw [State.crate_crateOpened, if_neg hk]
  case named =>
    obtain ⟨f, hexec, hbuild⟩ := exec_crateOrder s hc hsome hfew hhome hwords
    refine ⟨fun hslot => ?_, fun i hslot hother => ?_, fun i hslot hown hst hop => ?_⟩
    · rw [hexec, State.withCrate_unknown r op f hslot]
    · rw [hexec, State.withCrate_notOwner op f hslot hother]
    · rw [hexec, State.withCrate_own op f hslot hown, hbuild hop i hst]
  case gate =>
    obtain ⟨u, hadd, hcrate, hother, hframe⟩ := s.addDone_spec r 0x21 i fun c => { c with gates := addItems (s.crate i).gates home items }
    refine ⟨u, ?_, by rw [hcrate]; rfl, by rw [hcrate]; rfl, by rw [hcrate]; exact hst, hother, hframe⟩
    rw [exec_crateAddGate_fits hsome hfew hhome hslot hown hst hfits, hadd]
  case device =>
    obtain ⟨u, hadd, hcrate, hother, hframe⟩ := s.addDone_spec r 0x22 i fun c => { c with devs := c.devs ++ [⟨part, w2, w3⟩] }
    refine ⟨u, ?_, by rw [hcrate]; rfl, by rw [hcrate]; rfl, hother, hframe⟩
    rw [exec_crateAddDevice hslot hown hst hwords, hadd]
  case close =>
    obtain ⟨href, hdevs, hstate, hother, hregs⟩ := s.crateClose_spec i r
    exact ⟨_, exec_crateClose hslot hown hst, href, hdevs, hstate, hother, hregs, by simp⟩
  case abort =>
    exact ⟨_, exec_crateAbort_staging hslot hown hst, s.crate_updCrate_same i _, s.crate_updCrate_ne i _, by simp⟩
  case snapshot =>
    refine ⟨_, exec_snapshot_waits r s hdma hcount hrange, ?_, fun g hg => ?_, by simp [State.updSnap]⟩
    · rw [State.snap_updSnap, if_pos rfl]
    · rw [State.snap_updSnap, if_neg hg]

end Sys2Proof.Machine
end

section
/-! PROOFS. The seal pass (O17): the annexes that it completes, what a seal leaves of the Cellar, and the seal of the Shelf before. -/

namespace Sys2Proof.Machine

/-! The annexes. -/

/-- The annex of the Shelf of an epoch is complete (R146). -/
def State.annexDone (s : State) (n : Epoch) : State := s.updShelf n fun sh => { sh with annexDone := true }

/-- The annexes that a seal pass completes: those of Shelf m − 1 and of the Shelves of missed passes (R146). -/
def State.annexesDone (s : State) : State :=
  let t := (List.range (s.cel.missedSeals + 1)).foldl (fun t i => t.annexDone (s.sys.epoch - 1 - BitVec.ofNat 48 i)) s
  { t with cel := { t.cel with missedSeals := 0 } }

theorem State.sealPass_eq (s : State) : s.sealPass = s.annexesDone.sealFrom s.sys.epoch 64 s.annexesDone.nextSeal := rfl

theorem exec_sealPass {s : State} (hcount : s.sys.counting = true) (hdomain : s.domain 32 = true) (hmiss : bit s.sys.missNow 12 = false) :
    exec .sealPass s = .next s.sealPass :=
  if_pos ⟨hcount, hdomain, hmiss⟩

/-- What the sealing of a Shelf rests on, beside its annex. -/
def State.sealView (s : State) (n : Epoch) : Option Epoch × Option Epoch × List Nat × List Nat :=
  (s.cel.newest, s.cel.sealing, (s.shelf n).expect, (s.shelf n).delivered)

theorem State.annexDone_shelf (s : State) (k n : Epoch) : (s.annexDone k).shelf n =
    { s.shelf n with annexDone := decide (n = k) || (s.shelf n).annexDone } := by
  rw [State.annexDone, State.shelf_updShelf]
  by_cases h : n = k
  · simp [h]
  · simp [h, BitVec.toNat_inj]

theorem State.annexDone_sealView (s : State) (k n : Epoch) : (s.annexDone k).sealView n = s.sealView n := by
  unfold State.sealView
  rw [State.annexDone_shelf]
  rfl

theorem State.annexesDone_sealView (s : State) (n : Epoch) : s.annexesDone.sealView n = s.sealView n :=
  view_foldl_eq (view := fun t => t.sealView n) s fun y _ _ => y.annexDone_sealView _ n

/-- Shelf m − 1 is among those whose annex is complete. -/
theorem State.annexesDone_before (s : State) : (s.annexesDone.shelf (s.sys.epoch - 1)).annexDone = true := by
  show ((List.foldl _ s (List.range (s.cel.missedSeals + 1))).shelf (s.sys.epoch - 1)).annexDone = true
  rw [List.range_succ_eq_map, List.foldl_cons]
  refine List.foldlRecOn (motive := fun t : State => (t.shelf (s.sys.epoch - 1)).annexDone = true) _ _ ?_ fun t ht i _ => ?_
  · rw [State.annexDone_shelf]
    simp
  · rw [State.annexDone_shelf, ht, Bool.or_true]

theorem State.annexesDone_frame (s : State) : Frame [.cel] s s.annexesDone := by
  unfold State.annexesDone
  rw [Frame.set_cel _ (by simp), Frame.foldl fun t i => by simp [State.annexDone]]
  simp

/-- The lanes that a Shelf waits for are those of before (R145). -/
theorem State.annexesDone_lanesMissing (s : State) (n : Epoch) : s.annexesDone.lanesMissing n = s.lanesMissing n := by
  have hframe := s.annexesDone_frame
  have hview := s.annexesDone_sealView n
  simp only [State.sealView, Prod.mk.injEq] at hview
  obtain ⟨-, -, hexpect, hdelivered⟩ := hview
  have hlnk : s.annexesDone.lnk = s.lnk := keep_lnk (hframe.mono (by simp))
  have hactive (l : Nat) : s.annexesDone.laneActive l = s.laneActive l :=
    State.laneActive_congr (keep_regs (hframe.mono (by simp))) (keep_pwr (hframe.mono (by simp)))
      (by rw [State.lane_congr hlnk]) (by rw [State.lane_congr hlnk])
  simp only [State.lanesMissing, hexpect, hdelivered, hactive, keep_ref (hframe.mono (by simp))]

theorem State.annexesDone_nextSeal (s : State) : s.annexesDone.nextSeal = s.nextSeal := by
  have hview := s.annexesDone_sealView 0
  simp only [State.sealView, Prod.mk.injEq] at hview
  obtain ⟨hnewest, hsealing, -, -⟩ := hview
  simp only [State.nextSeal, hnewest, hsealing]

/-! A seal. -/

/-- A Shelf at its seal in the pass of E(m), its records and the lanes that it misses given (R145, R146, R149). -/
def Shelf.sealed (sh : Shelf) (m n : Epoch) (recs : SMap Entry) (missing : Nat) : Shelf :=
  let sh := { sh with recs := recs, sealedAt := some (m + 1), deadline := missing ≠ 0, missing := missing }
  { sh with annex := smSetList 0 sh.annex 0 (annexHeader n sh (m + 1)) }

/-- Of the Shelves a seal changes the one that it seals; what is readable and the missed passes stay (R138, R146). -/
theorem State.sealShelf_cel (s : State) (m n : Epoch) :
    (s.sealShelf m n).cel.newest = s.cel.newest ∧ (s.sealShelf m n).cel.missedSeals = s.cel.missedSeals ∧
    ∀ k, (s.sealShelf m n).shelf k = if k = n then (s.shelf n).sealed m n (s.sealRecs n) (s.lanesMissing n).length else s.shelf k := by
  unfold State.sealShelf
  extract_lets missing recs s1 s2
  have hcel : s2.cel = s1.cel := keep_cel (by
    simp only [s2]
    split <;> simp)
  refine ⟨(congrArg CelSt.newest hcel :), (congrArg CelSt.missedSeals hcel :), fun k => ?_⟩
  have hshelves : s2.cel.shelves = s1.cel.shelves := congrArg CelSt.shelves hcel
  simp only [State.shelf_updShelf, State.shelf_congr hshelves, s1, BitVec.toNat_inj, if_true]
  split
  · rfl
  · rfl

/-- The Shelf that was sealed is the newest (R146). -/
def State.sealNoted (s : State) (n : Epoch) : State :=
  { s with cel := { s.cel with sealing := some n, sealFirst := some (s.cel.sealFirst.getD n) } }

theorem State.sealFrom_succ (s : State) (m : Epoch) (fuel : Nat) (n : Epoch) : s.sealFrom m (fuel + 1) n =
    if n ≠ m ∧ s.sealable m n then ((s.sealShelf m n).sealNoted n).sealFrom m fuel (n + 1) else s := rfl

/-- The seals of a pass leave what is readable, the missed passes, and the annexes that are complete (R138, R146). -/
theorem State.sealFrom_keeps (m k : Epoch) (fuel : Nat) (s : State) (n : Epoch) :
    (s.sealFrom m fuel n).cel.newest = s.cel.newest ∧ (s.sealFrom m fuel n).cel.missedSeals = s.cel.missedSeals ∧
    ((s.sealFrom m fuel n).shelf k).annexDone = (s.shelf k).annexDone := by
  induction fuel generalizing s n with
  | zero => exact ⟨rfl, rfl, rfl⟩
  | succ fuel ih =>
    rw [State.sealFrom_succ]
    split
    · obtain ⟨hnewest, hmissed, hshelf⟩ := s.sealShelf_cel m n
      obtain ⟨hnewest', hmissed', hdone⟩ := ih ((s.sealShelf m n).sealNoted n) (n + 1)
      refine ⟨hnewest'.trans hnewest, hmissed'.trans hmissed, hdone.trans ?_⟩
      show ((s.sealShelf m n).shelf k).annexDone = _
      rw [hshelf]
      split
      · next hk => rw [hk]; rfl
      · rfl
    · exact ⟨rfl, rfl, rfl⟩

/-- The Shelf before the pass, with no lane missing, is sealed as the last one, without a deadline mark (R145, R146). -/
theorem State.sealFrom_before {s : State} {m : Epoch} (fuel : Nat) (hdone : (s.shelf (m - 1)).annexDone = true)
    (hlanes : s.lanesMissing (m - 1) = []) : (s.sealFrom m (fuel + 1) (m - 1)).cel.sealing = some (m - 1) ∧
      ((s.sealFrom m (fuel + 1) (m - 1)).shelf (m - 1)).sealedAt = some (m + 1) ∧
      ((s.sealFrom m (fuel + 1) (m - 1)).shelf (m - 1)).deadline = false := by
  have hne : m - 1 ≠ m := by bv_omega
  have hable : s.sealable m (m - 1) = true := by rw [State.sealable, hdone, hlanes]; rfl
  have hstop (t : State) : t.sealFrom m fuel (m - 1 + 1) = t := by
    cases fuel with
    | zero => rfl
    | succ fuel => rw [State.sealFrom_succ, sub_add_cancel, if_neg (fun h => h.1 rfl)]
  obtain ⟨-, -, hshelf⟩ := s.sealShelf_cel m (m - 1)
  have hsealed : ((s.sealShelf m (m - 1)).sealNoted (m - 1)).shelf (m - 1) =
      (s.shelf (m - 1)).sealed m (m - 1) (s.sealRecs (m - 1)) 0 := by
    rw [← List.length_nil, ← hlanes]
    exact (hshelf _).trans (if_pos rfl)
  rw [State.sealFrom_succ, if_pos ⟨hne, hable⟩, hstop, hsealed]
  exact ⟨rfl, rfl, rfl⟩

end Sys2Proof.Machine
end

section
/-! PROOFS. The other passes of the Cellar (O17): the repair mark of a row, the copies of snapshots and their exchange, the counters that are
cleared, and the clauses assembled. -/

namespace Sys2Proof.Machine

/-! The repair mark. -/

/-- A row is marked for repair, and CEL_CAUSE tells it (R152). -/
def State.rowMarked (s : State) (k : Nat) : State := ({ s with cel := { s.cel with marks := s.cel.marks ++ [k] } } : State).latch R.CEL_CAUSE 5

theorem State.spareUsed_rowMarked (s : State) (k b : Nat) : (s.rowMarked k).spareUsed b = s.spareUsed b :=
  State.rf_latch_ne _ (by decide) (.inl (by decide))

theorem exec_rowRepairMark {b row : Nat} {s : State} (hb : b < 4) (herr : s.rf R.CEL_ECC_CFG 7 0 ≤ s.rowErrors (b * 2 ^ 20 + row))
    (hmark : s.cel.marks.contains (b * 2 ^ 20 + row) = false) (hrep : s.cel.repaired.contains (b * 2 ^ 20 + row) = false) :
    exec (.rowRepairMark b row) s = .next (if 32 ≤ s.spareUsed b then (s.rowMarked (b * 2 ^ 20 + row)).latch R.CEL_CAUSE 2
      else s.rowMarked (b * 2 ^ 20 + row)) := by
  rw [← s.spareUsed_rowMarked (b * 2 ^ 20 + row) b]
  exact if_pos ⟨hb, herr, Bool.eq_false_iff.mp hmark, Bool.eq_false_iff.mp hrep⟩

theorem State.rb_rowMarked (s : State) (k : Nat) : (s.rowMarked k).rb R.CEL_CAUSE 5 = true := State.rb_latch _ _ _ (by decide)

theorem State.rowMarked_regsBut (s : State) (k : Nat) : RegsBut [R.CEL_CAUSE] s (s.rowMarked k) :=
  (RegsBut.of_regs rfl).trans (State.latch_regsBut _ _ _)

/-! Snapshots. -/

theorem State.snap_congr {s t : State} (h : t.cel = s.cel) (k : Nat) : t.snap k = s.snap k := by rw [State.snap, h, State.snap]

/-- The head q of the queue of Hatch h at its turn: it waits, is copied, or completes without using credit; rest is the queue behind it
(R155, R156). -/
def State.snapServed (s : State) (h : Fin 4) (q : SnapReq) (rest : List SnapReq) : SnapTurn → State
  | .wait => s
  | .copy n => s.snapCopy h.val q n
  | .gone => (s.updSnap h.val fun p => { p with queue := rest }).complete q.ref 0x10 0x0B 0 0
  | .badArg => (s.updSnap h.val fun p => { p with queue := rest }).complete q.ref 0x10 6 0 0

theorem exec_snapshotCopy {h : Fin 4} {q : SnapReq} {rest : List SnapReq} {s : State} (hqueue : (s.snap h.val).queue = q :: rest)
    (hidle : (s.snap h.val).copying = none) :
    exec (.snapshotCopy h) s = .next (s.snapServed h q rest (s.snapTurn h.val q.args)) := by
  show execSnapshotCopy h s = _
  unfold execSnapshotCopy
  simp only [hqueue, hidle, Option.isSome_none, Bool.false_eq_true, if_false]
  cases s.snapTurn h.val q.args <;> rfl

/-- While a copy runs none is begun (R156). -/
theorem exec_snapshotCopy_busy {h : Fin 4} {q : SnapReq} {s : State} (hcopy : (s.snap h.val).copying = some q) :
    exec (.snapshotCopy h) s = .next s := by
  show execSnapshotCopy h s = _
  unfold execSnapshotCopy
  split
  · rfl
  · exact if_pos (by rw [hcopy]; rfl)

/-- The exchange shows the half that was copied (R156). -/
theorem State.snap_snapExchange {h : Fin 4} {q : SnapReq} {p : Snap} {s : State} (hcopy : (s.snap h.val).copying = some q)
    (hother : (s.snap h.val).other = some p) : (s.snapExchange h).snap h.val =
      { s.snap h.val with copying := none, other := (s.snap h.val).shown, shown := some p, seq := p.seq } := by
  unfold State.snapExchange
  simp only [hcopy, hother]
  refine (State.snap_congr (s := s.updSnap h.val fun a => { a with copying := none, other := a.shown, shown := some p, seq := p.seq })
    (keep_cel ?_) h.val).trans ?_
  · split <;> split <;> simp
  · rw [State.snap_updSnap, if_pos rfl]

/-! The counters. -/

/-- The counters that CEL_CTR_CLEAR clears (R169). -/
def celCounters : List Nat :=
  [R.CEL_CNT_DEADLINE, R.CEL_CNT_AFTER_SEAL, R.CEL_CNT_DUPLICATE, R.CEL_CNT_ECC_CORR, R.CEL_CNT_ECC_UNCORR, R.CEL_CNT_LATE_USED]

/-- Registers cleared one after another: each of them reads 0, and no other changes. -/
theorem State.reg_clearAll (ks : List Nat) (s : State) (k : Nat) :
    (ks.foldl (fun s k => s.setReg k 0) s).reg k = if k ∈ ks then 0 else s.reg k := by
  induction ks generalizing s with
  | nil => rfl
  | cons a ks ih =>
    rw [List.foldl_cons, ih, State.reg_setReg]
    by_cases ha : k = a
    · simp [ha]
    · simp [ha]

theorem State.clearAll_regsBut (ks : List Nat) (s : State) : RegsBut ks s (ks.foldl (fun s k => s.setReg k 0) s) :=
  fun k hk => (State.reg_clearAll ks s k).trans (if_neg hk)

theorem exec_celCtrClear {r : Requester} {s : State} (hmay : s.mayWrite r R.CEL_CTR_CLEAR = true) :
    exec (.celCtrClear r) s = .next (celCounters.foldl (fun s k => s.setReg k 0) (s.setArgs R.CEL_CTR_CLEAR 1)) :=
  congrArg Host.Outcome.next (State.runAction_owned 1 (by decide) hmay)

/-- Settles O17: the seal pass completes the annexes and then seals, a row is rowMarked, a snapshot has its turn, and the clear is a fold over
its counters. -/
theorem cellarPasses : Obligations.CellarPasses := by
  refine ⟨fun m s hm hcount hdomain hmiss => ?pass, fun b row k s hb hk herr hmark hrep => ?row,
    fun h q rest s hqueue hidle => ⟨fun hturn => ?wait, fun hturn => ?gone, fun hturn => ?badArg, fun n hturn => ?copy⟩,
    fun h q p s hcopy hother => ?exchange, fun r s hmay => ?clear⟩
  case pass =>
    subst hm
    have hexec := exec_sealPass hcount hdomain hmiss
    obtain ⟨hnewest, hmissed, hdone⟩ := State.sealFrom_keeps s.sys.epoch (s.sys.epoch - 1) 64 s.annexesDone s.annexesDone.nextSeal
    have hview := s.annexesDone_sealView 0
    simp only [State.sealView, Prod.mk.injEq] at hview
    refine ⟨_, hexec, hmissed, hdone.trans s.annexesDone_before, hnewest.trans hview.1, fun hnext hlanes => ?_,
      (execSealPass_frame hexec).mono (by simp)⟩
    rw [State.sealPass_eq, State.annexesDone_nextSeal, hnext]
    exact State.sealFrom_before 63 s.annexesDone_before ((s.annexesDone_lanesMissing _).trans hlanes)
  case row =>
    subst hk
    rw [exec_rowRepairMark hb herr hmark hrep]
    split
    · exact ⟨_, rfl, rfl, State.rb_latch_keeps _ _ _ _ _ (by decide) (s.rb_rowMarked _), fun _ => State.rb_latch _ _ _ (by decide),
        (s.rowMarked_regsBut _).trans (State.latch_regsBut _ _ _), by simp [State.rowMarked]⟩
    · next hspare => exact ⟨_, rfl, rfl, s.rb_rowMarked _, fun h => absurd h hspare, s.rowMarked_regsBut _, by simp [State.rowMarked]⟩
  case wait => rw [exec_snapshotCopy hqueue hidle, hturn, State.snapServed]
  case gone =>
    refine ⟨_, by rw [exec_snapshotCopy hqueue hidle, hturn, State.snapServed], ?_, by simp [State.updSnap]⟩
    rw [State.snap_updSnap, if_pos rfl]
  case badArg =>
    refine ⟨_, by rw [exec_snapshotCopy hqueue hidle, hturn, State.snapServed], ?_, by simp [State.updSnap]⟩
    rw [State.snap_updSnap, if_pos rfl]
  case copy =>
    refine ⟨_, s.snapOf q.args n ((s.snap h.val).seq + 1), by rw [exec_snapshotCopy hqueue hidle, hturn, State.snapServed], ?_, rfl, rfl, rfl, rfl,
      fun k hk => ?_, by simp⟩
    · rw [State.snapCopy, State.snap_updSnap, if_pos rfl, hqueue, List.drop_one, List.tail_cons]
    · rw [State.snapCopy, State.snap_updSnap, if_neg hk]
  case exchange => exact ⟨exec_snapshotCopy_busy hcopy, State.snap_snapExchange hcopy hother, by simp⟩
  case clear =>
    refine ⟨_, exec_celCtrClear hmay, fun k hk => (State.reg_clearAll celCounters _ k).trans (if_pos hk),
      ((s.setArgs_regsBut _ _).mono (by simp)).trans ((State.clearAll_regsBut _ _).mono (List.subset_cons_self _ _)), ?_⟩
    rw [Frame.foldl fun s k => by simp]
    simp

end Sys2Proof.Machine
end

section
/-! PROOFS. Set point orders (O43): the words of its targets set in order, the three outcomes of an order, and the clauses assembled. -/

namespace Sys2Proof.Machine

/-- The words of the targets of an order set in their registers, in word order (R383). -/
def State.putTargets (s : State) (ts : List (Nat × Nat × Word)) : State := ts.foldl (fun s t => s.setReg t.2.1 t.2.2) s

theorem State.putTargets_pend (s : State) (ts : List (Nat × Nat × Word)) : (s.putTargets ts).regs.pend = s.regs.pend :=
  List.foldlRecOn (motive := fun (t : State) => t.regs.pend = s.regs.pend) ts _ rfl fun _ ht _ _ => ht

theorem State.putTargets_regsBut (s : State) (ts : List (Nat × Nat × Word)) : RegsBut (ts.map (·.2.1)) s (s.putTargets ts) := by
  refine RegsBut.foldl (fun t x hx => ?_) s
  have hmem : x.2.1 ∈ ts.map (·.2.1) := List.mem_map_of_mem hx
  exact (t.setReg_regsBut _ _).mono (List.cons_subset.mpr ⟨hmem, List.nil_subset _⟩)

theorem State.putTargets_frame (s : State) (ts : List (Nat × Nat × Word)) : Frame [.regs] s (s.putTargets ts) :=
  (Frame.foldl fun t x => by simp).mpr (.refl s)

/-- A register reads the word of the last target that names it (R383). -/
theorem State.reg_putTargets_last (s : State) (l : List (Nat × Nat × Word)) {x : Nat × Nat × Word} {l' : List (Nat × Nat × Word)}
    (hlast : ∀ y ∈ l', y.2.1 ≠ x.2.1) : (s.putTargets (l ++ x :: l')).reg x.2.1 = x.2.2 := by
  have hsplit : s.putTargets (l ++ x :: l') = ((s.putTargets l).setReg x.2.1 x.2.2).putTargets l' := by
    simp only [State.putTargets, List.foldl_append, List.foldl_cons]
  have hafter : x.2.1 ∉ l'.map (·.2.1) := by simpa using fun a b hy => hlast (a, x.2.1, b) hy
  rw [hsplit, State.putTargets_regsBut _ l' _ hafter, State.reg_setReg, if_pos rfl]

/-- An order with no used entry, or with one that cannot be converted, is a BAD_ARG (R386). -/
theorem exec_setPoint_badArg {r : OrderRef} {es : List SetPointEntry} {s : State}
    (hbad : es.filter (fun e => e.kind ≠ 0) = [] ∨ ∃ e ∈ es, e.kind ≠ 0 ∧ setPointTarget e = none) :
    exec (.setPoint r es) s = .next (s.complete r 0x08 6 0 0) := by
  refine congrArg Host.Outcome.next (if_pos (hbad.imp_right fun ⟨e, he, hused, hnone⟩ => .inr ?_))
  exact List.any_eq_true.mpr ⟨none, List.mem_map.mpr ⟨e, List.mem_filter.mpr ⟨he, by simpa using hused⟩, hnone⟩, rfl⟩

/-- An order whose used entries are converted sets all of its targets, or is NOT_OWNER where its Hatch does not own the object of one
(R383, R394). -/
theorem exec_setPoint_converted {r : OrderRef} {es : List SetPointEntry} {ts : List (Nat × Nat × Word)} {s : State} (hlen : es.length ≤ 6)
    (hused : es.filter (fun e => e.kind ≠ 0) ≠ []) (hts : (es.filter (fun e => e.kind ≠ 0)).map setPointTarget = ts.map some) :
    exec (.setPoint r es) s = .next (if ts.any (fun t => !s.owns r.hatch t.1) then s.complete r 0x08 5 0 0
      else (s.putTargets ts).complete r 0x08 0 0 0) := by
  have hconv : (ts.map some).any Option.isNone = false := by simp
  have hid : (ts.map some).filterMap id = ts := by simp
  show Host.Outcome.next (s.setPoint r es) = _
  unfold State.setPoint
  simp only [hts, hconv, hid, hused, Nat.not_lt.mpr hlen, Bool.false_eq_true, or_self, if_false]
  rfl

/-- Settles O43: an order that is not converted is a BAD_ARG, and a converted one is NOT_OWNER or sets its targets in word order. -/
theorem setPointOrders : Obligations.SetPointOrders := by
  refine ⟨fun r es s _ hbad => exec_setPoint_badArg hbad, fun r es ts s hlen hused hts hother => ?notOwner,
    fun r es ts s hlen hused hts howned => ?applied⟩
  case notOwner =>
    obtain ⟨x, hx, hno⟩ := hother
    rw [exec_setPoint_converted hlen hused hts, if_pos (List.any_eq_true.mpr ⟨x, hx, by rw [hno]; rfl⟩)]
  case applied =>
    have hnone : ¬ ts.any (fun t => !s.owns r.hatch t.1) = true := by simpa using fun a b c h => howned (a, b, c) h
    refine ⟨s.putTargets ts, by rw [exec_setPoint_converted hlen hused hts, if_neg hnone], fun l x l' hsplit hlast => ?_,
      s.putTargets_pend ts, s.putTargets_regsBut ts, s.putTargets_frame ts⟩
    rw [hsplit, s.reg_putTargets_last l hlast]

end Sys2Proof.Machine
end

section
/-! PROOFS. The stop ramp and the checks (O25): the two ends of the ramp, what a window's end makes of its check and of the registers, and the
actions of CTL_ACTION. -/

namespace Sys2Proof.Machine

/-! The stop ramp. -/

theorem exec_stopRampComplete {s : State} (hstop : s.ctl.stopping.isSome = true) (hzero : s.ctl.rampZero = true) :
    exec .stopRampComplete s = .next { s with ctl := { s.ctl with rampDone := true } } :=
  congrArg Host.Outcome.next (if_pos ⟨hstop, hzero⟩)

theorem exec_stopRampTimeout {a : Epoch} {s : State} (hstop : s.ctl.stopping = some a)
    (hlate : s.epOfMs (max 1 (s.rf R.CTL_STOP 31 16)) ≤ (s.sys.epoch - a).toNat) (hdone : s.ctl.rampDone = false) :
    exec .stopRampTimeout s = .next (({ s with ctl := { s.ctl with rampDone := true } } : State).latch R.CTL_CAUSE 0) := by
  show execStopRampTimeout s = _
  unfold execStopRampTimeout
  rw [hstop]
  exact congrArg Host.Outcome.next (if_pos ⟨hlate, hdone⟩)

/-! The end of a window. -/

/-- A change of check c changes no other check. -/
theorem State.plaus_updPlaus (s : State) (c d : Nat) (f : PlausSt → PlausSt) :
    (s.updPlaus c f).plaus d = if d = c then f (s.plaus c) else s.plaus d := smGet_smUpd _ _ _ _ _

theorem State.plaus_congr {s t : State} (h : t.ctl.checks = s.ctl.checks) (d : Nat) : t.plaus d = s.plaus d := by
  rw [State.plaus, h, State.plaus]

/-- A trigger of the capture changes the capture alone. -/
theorem State.capHit_keeps (s : State) (n : Nat) : (s.capHit n).regs = s.regs ∧ (s.capHit n).ctl.checks = s.ctl.checks ∧
    (s.capHit n).ctl.gens = s.ctl.gens := by
  unfold State.capHit
  split <;> exact ⟨rfl, rfl, rfl⟩

theorem exec_plausWindowEnd {c : Nat} {skip : Bool} {r S : List Rat} {s : State} (hend : (s.plaus c).ended = some (skip, r, S)) :
    exec (.plausWindowEnd c) s = .next (s.plausEnd c skip r S) := by
  show execPlausWindowEnd c s = _
  unfold execPlausWindowEnd
  rw [hend]

/-- A window that is skipped changes its check alone: it has no outcome, and shows its residuals and the worst of them (R201). -/
theorem State.plausEnd_skip (s : State) (c : Nat) (r S : List Rat) : ∃ w, s.plausEnd c true r S = s.updPlaus c (fun p =>
    { p with ended := none, last := .skip, res := r, worst := w, worstRes := r.getD w 0 }) := ⟨_, rfl⟩

/-- An element of a window is beyond its bound (R201). -/
def State.plausBad (s : State) (c : Nat) (r S : List Rat) : Bool :=
  (List.range r.length).any fun k => s.plausTol c (S.getD k 0) < (r.getD k 0).abs

theorem State.plausBad_iff (s : State) (c : Nat) (r S : List Rat) :
    s.plausBad c r S = true ↔ ∃ k < r.length, s.plausTol c (S.getD k 0) < (r.getD k 0).abs := by
  simp only [State.plausBad, List.any_eq_true, List.mem_range, decide_eq_true_eq]

/-- The windows in a row with the outcome of the one that ends, itself counted (R201). -/
def PlausSt.inARow (p : PlausSt) (bad : Bool) : Nat := if p.run ≠ 0 ∧ p.runPass = !bad then p.run + 1 else 1

theorem PlausSt.inARow_pos (p : PlausSt) (bad : Bool) : 1 ≤ p.inARow bad := by
  unfold PlausSt.inARow
  split <;> omega

/-- LIMIT windows in a row have had the outcome of the one that ends (R201). -/
def State.plausLimit (s : State) (c : Nat) (bad : Bool) : Bool := decide (max 1 (s.rf (R.CTL_PL_CFG c) 11 8) ≤ (s.plaus c).inARow bad)

/-- The check enters failure (R201). -/
def State.plausEnters (s : State) (c : Nat) (bad : Bool) : Bool := bad && !(s.plaus c).fail && s.plausLimit c bad

/-- The check leaves failure (R201). -/
def State.plausLeaves (s : State) (c : Nat) (bad : Bool) : Bool := !bad && (s.plaus c).fail && s.plausLimit c bad

/-- The check with its outcome, its residuals r and the worst of them, element w (R201, R212). -/
def State.plausJudged (s : State) (c : Nat) (bad : Bool) (r : List Rat) (w : Nat) : State :=
  s.updPlaus c (fun p => { p with
    ended := none, last := if bad then .fail else .pass, run := (s.plaus c).inARow bad, runPass := !bad, res := r
    worst := w, worstRes := r.getD w 0, fail := (p.fail || s.plausEnters c bad) && !s.plausLeaves c bad })

theorem State.plausJudged_regs (s : State) (c : Nat) (bad : Bool) (r : List Rat) (w : Nat) : (s.plausJudged c bad r w).regs = s.regs := rfl

/-- A failure is counted (R201, R212). -/
def State.plausCounted (s : State) (c : Nat) (bad : Bool) : State := if bad then s.count (R.CTL_PL_STAT c) 15 0 else s

/-- The entry into failure is shown, and triggers the capture (R201, R206). -/
def State.plausEntered (s : State) (c : Nat) : State := ((s.latch (R.CTL_PL_STAT c) 30).latch R.CTL_CAUSE 1).capHit 6

theorem State.plausCounted_ctl (s : State) (c : Nat) (bad : Bool) : (s.plausCounted c bad).ctl = s.ctl := by
  unfold State.plausCounted
  split <;> rfl

theorem State.plausCounted_regsBut (s : State) (c : Nat) (bad : Bool) : RegsBut [R.CTL_PL_STAT c] s (s.plausCounted c bad) :=
  .ite (s.count_regsBut _ _ _) (.refl _ _)

theorem State.plaus_plausEntered (s : State) (c d : Nat) : (s.plausEntered c).plaus d = s.plaus d :=
  State.plaus_congr (State.capHit_keeps _ 6).2.1 d

theorem State.plausEntered_regs (s : State) (c : Nat) :
    (s.plausEntered c).regs = ((s.latch (R.CTL_PL_STAT c) 30).latch R.CTL_CAUSE 1).regs := (State.capHit_keeps _ 6).1

theorem State.plausEntered_regsBut (s : State) (c : Nat) : RegsBut [R.CTL_PL_STAT c, R.CTL_CAUSE] s (s.plausEntered c) :=
  ((s.latch_regsBut _ _).pair (State.latch_regsBut _ _ _)).trans (.of_regs (s.plausEntered_regs c))

/-- FAIL_SEEN and the cause show the entry (R201, R212). -/
theorem State.plausEntered_shows (s : State) (c : Nat) :
    (s.plausEntered c).rb (R.CTL_PL_STAT c) 30 = true ∧ (s.plausEntered c).rb R.CTL_CAUSE 1 = true := by
  simp only [State.rb, State.reg_congr (s.plausEntered_regs c)]
  exact ⟨State.rb_latch_keeps _ _ _ _ _ (by decide) (s.rb_latch _ _ (by decide)), State.rb_latch _ _ _ (by decide)⟩

/-- The count of failures is left by the entry. -/
theorem State.plausEntered_count (s : State) {c : Nat} (hc : c < 5) :
    (s.plausEntered c).rf (R.CTL_PL_STAT c) 15 0 = s.rf (R.CTL_PL_STAT c) 15 0 := by
  have hne : R.CTL_PL_STAT c ≠ R.CTL_CAUSE := by simp only [R.CTL_PL_STAT, R.CTL_CAUSE]; omega
  rw [State.rf, State.reg_congr (s.plausEntered_regs c), ← State.rf, State.rf_latch_ne _ (by decide) (.inl hne),
    State.rf_latch_ne _ (by decide) (.inr (.inr (by decide)))]

/-- What the outcome of a window shows in the registers: a failure is counted, and an entry into failure is latched (R201, R212). -/
def State.plausShown (s : State) (c : Nat) (bad enter : Bool) : State :=
  if enter then (s.plausCounted c bad).plausEntered c else s.plausCounted c bad

/-- A window that is not skipped judges its check, and shows the outcome (R201). -/
theorem State.plausEnd_judged (s : State) (c : Nat) (r S : List Rat) : ∃ w, s.plausEnd c false r S =
    (s.plausJudged c (s.plausBad c r S) r w).plausShown c (s.plausBad c r S) (s.plausEnters c (s.plausBad c r S)) := ⟨_, rfl⟩

theorem State.plaus_plausShown (s : State) (c d : Nat) (bad enter : Bool) : (s.plausShown c bad enter).plaus d = s.plaus d := by
  have hcount : (s.plausCounted c bad).plaus d = s.plaus d := State.plaus_congr (congrArg CtlSt.checks (s.plausCounted_ctl c bad)) d
  cases enter with
  | true => exact (State.plaus_plausEntered _ c d).trans hcount
  | false => exact hcount

theorem State.plausShown_regsBut (s : State) (c : Nat) (bad enter : Bool) :
    RegsBut [R.CTL_PL_STAT c, R.CTL_CAUSE] s (s.plausShown c bad enter) := by
  have hcount : RegsBut [R.CTL_PL_STAT c, R.CTL_CAUSE] s (s.plausCounted c bad) := (s.plausCounted_regsBut c bad).mono (by simp)
  exact .ite (hcount.trans (State.plausEntered_regsBut _ c)) hcount

/-- A failure is counted, with an entry into failure or without one (R201, R460). -/
theorem State.plausShown_count (s : State) {c : Nat} (hc : c < 5) (enter : Bool) :
    (s.plausShown c true enter).rf (R.CTL_PL_STAT c) 15 0 = incSat 65535 (s.rf (R.CTL_PL_STAT c) 15 0) := by
  have hcount : (s.plausCounted c true).rf (R.CTL_PL_STAT c) 15 0 = incSat 65535 (s.rf (R.CTL_PL_STAT c) 15 0) :=
    s.rf_count _ 15 0 (by decide)
  cases enter with
  | true => exact (State.plausEntered_count _ hc).trans hcount
  | false => exact hcount

/-- A window that passes enters no failure (R201). -/
theorem State.plausEnters_pass (s : State) (c : Nat) : s.plausEnters c false = false := rfl

/-- With LIMIT = 1 the first failure enters failure (R201). -/
theorem State.plausEnters_first {s : State} {c : Nat} (hlimit : max 1 (s.rf (R.CTL_PL_CFG c) 11 8) = 1) (hfail : (s.plaus c).fail = false) :
    s.plausEnters c true = true := by
  have hrow : s.plausLimit c true = true := by
    rw [State.plausLimit, hlimit]
    exact decide_eq_true ((s.plaus c).inARow_pos true)
  rw [State.plausEnters, hfail, hrow]
  rfl

/-! The actions. -/

/-- RC_CLEAR empties its table and no other (R193). -/
theorem State.rcTable_rcClear (s : State) (k d : Nat) : (s.rcClear k).rcTable d = if d = k then { s.rcTable k with m := [] } else s.rcTable d :=
  smGet_smUpd ({} : RcTable) s.ctl.tables k d fun a => { a with m := [] }

theorem State.rcTable_setArgs (s : State) (off : Nat) (w : Word) (d : Nat) : (s.setArgs off w).rcTable d = s.rcTable d := rfl

theorem State.rcClear_regs (s : State) (k : Nat) : (s.rcClear k).regs = s.regs := rfl

/-- Whether a requester may write CTL_ACTION rests on registers other than it (R394). -/
theorem State.mayWrite_setArgs_ctlAction (s : State) (r : Requester) (w : Word) :
    (s.setArgs R.CTL_ACTION w).mayWrite r R.CTL_ACTION = s.mayWrite r R.CTL_ACTION := by
  have hown : (s.setArgs R.CTL_ACTION w).reg (R.HAT_OWN 0) = s.reg (R.HAT_OWN 0) := s.setArgs_regsBut _ w _ (by decide)
  cases r with
  | mgmt => rfl
  | hatch h =>
    have hobject (slot : Nat) : objectOf R.CTL_ACTION slot = some 0 := rfl
    simp only [State.mayWrite, hobject, State.owns, State.owner, State.rf, hown]

/-- An action of CTL_ACTION by a requester that may write it: its arguments are set, and the write is acted on (R212, R490). -/
theorem State.runAction_ctlAction {s : State} {r : Requester} (w : Word) (hmay : s.mayWrite r R.CTL_ACTION = true) :
    s.runAction r R.CTL_ACTION w = (s.setArgs R.CTL_ACTION w).ctlAction r w :=
  State.runAction_owned w (by decide) hmay

theorem exec_rcClear {r : Requester} {k : Nat} {s : State} (hk : k < 8) (hmay : s.mayWrite r R.CTL_ACTION = true) :
    exec (.rcClear r k) s = .next ((s.setArgs R.CTL_ACTION (s.actWord R.CTL_ACTION 31 [(10, 8, k), (3, 0, 1)])).rcClear k) := by
  have hcode : fld (s.actWord R.CTL_ACTION 31 [(10, 8, k), (3, 0, 1)]) 3 0 = 1 := by
    simp only [State.actWord, List.foldl_cons, List.foldl_nil]
    rw [fld_setFld_same _ _ _ _ (by decide)]
    rfl
  have htable : fld (s.actWord R.CTL_ACTION 31 [(10, 8, k), (3, 0, 1)]) 10 8 = k := by
    simp only [State.actWord, List.foldl_cons, List.foldl_nil]
    rw [fld_setFld_ne _ _ _ _ _ _ (by decide) (by decide), fld_setFld_same _ _ _ _ (by decide)]
    exact Nat.mod_eq_of_lt hk
  show Host.Outcome.next _ = _
  rw [State.runAction_ctlAction _ hmay, State.ctlAction, State.asOwner_eq ((s.mayWrite_setArgs_ctlAction r _).trans hmay), hcode, htable]
  rfl

theorem exec_clearCheckCounts {r : Requester} {s : State} (hmay : s.mayWrite r R.CTL_ACTION = true) :
    exec (.clearCheckCounts r) s = .next (s.setArgs R.CTL_ACTION (s.actWord R.CTL_ACTION 31 [(3, 0, 2)])).clearChecks := by
  have hcode : fld (s.actWord R.CTL_ACTION 31 [(3, 0, 2)]) 3 0 = 2 := by
    simp only [State.actWord, List.foldl_cons, List.foldl_nil]
    rw [fld_setFld_same _ _ _ _ (by decide)]
    rfl
  show Host.Outcome.next _ = _
  rw [State.runAction_ctlAction _ hmay, State.ctlAction, State.asOwner_eq ((s.mayWrite_setArgs_ctlAction r _).trans hmay), hcode]
  rfl

/-- The count and FAIL_SEEN of check c cleared (R212). -/
def State.clearCheck (s : State) (c : Nat) : State := (s.setRf (R.CTL_PL_STAT c) 15 0 0).setRf (R.CTL_PL_STAT c) 30 30 0

theorem State.clearChecks_eq (s : State) : s.clearChecks = (List.range 5).foldl State.clearCheck s := rfl

theorem State.clearCheck_regsBut (s : State) (c : Nat) : RegsBut [R.CTL_PL_STAT c] s (s.clearCheck c) :=
  (s.setRf_regsBut _ _ _ _).trans (State.setRf_regsBut _ _ _ _ _)

/-- The count and FAIL_SEEN of check c read 0 (R212). -/
def State.CheckCleared (s : State) (c : Nat) : Prop := s.rf (R.CTL_PL_STAT c) 15 0 = 0 ∧ s.rb (R.CTL_PL_STAT c) 30 = false

theorem State.clearCheck_cleared (s : State) (c : Nat) : (s.clearCheck c).CheckCleared c := by
  constructor
  · rw [State.clearCheck, State.rf_setRf_ne _ _ (by decide) (.inr (.inr (by decide))), State.rf_setRf _ _ _ _ _ (by decide)]
    rfl
  · rw [State.clearCheck, State.rb, State.reg_setRf, if_pos rfl, flag_setFld_same _ _ _ (by decide)]
    rfl

/-- A check that is cleared stays so when another, or it again, is cleared. -/
theorem State.clearCheck_keeps {s : State} {d : Nat} (c : Nat) (h : s.CheckCleared d) : (s.clearCheck c).CheckCleared d := by
  by_cases hd : d = c
  · exact hd ▸ s.clearCheck_cleared c
  · have hreg : (s.clearCheck c).reg (R.CTL_PL_STAT d) = s.reg (R.CTL_PL_STAT d) :=
      s.clearCheck_regsBut c _ (by simp only [R.CTL_PL_STAT, List.mem_singleton]; omega)
    simpa only [State.CheckCleared, State.rf, State.rb, hreg] using h

theorem State.clearAllChecks_cleared (cs : List Nat) (s : State) {d : Nat} (h : d ∈ cs ∨ s.CheckCleared d) :
    (cs.foldl State.clearCheck s).CheckCleared d := by
  induction cs generalizing s with
  | nil => exact h.resolve_left List.not_mem_nil
  | cons c cs ih =>
    refine ih (s.clearCheck c) ?_
    rcases h with hmem | hdone
    · rcases List.mem_cons.mp hmem with rfl | hrest
      · exact .inr (s.clearCheck_cleared d)
      · exact .inl hrest
    · exact .inr (State.clearCheck_keeps c hdone)

/-- The registers of the five checks. -/
def checkStats : List Nat := [R.CTL_PL_STAT 0, R.CTL_PL_STAT 1, R.CTL_PL_STAT 2, R.CTL_PL_STAT 3, R.CTL_PL_STAT 4]

theorem State.clearChecks_regsBut (s : State) : RegsBut checkStats s s.clearChecks := by
  refine RegsBut.foldl (fun t c hc => ?_) s
  have hmem : ∀ c < 5, [R.CTL_PL_STAT c] ⊆ checkStats := by decide
  exact (t.clearCheck_regsBut c).mono (hmem c (List.mem_range.mp hc))

/-- Settles O25: the ramp's two ends set rampDone; a window is skipped, or judges its check and shows the outcome; an action of CTL_ACTION
sets its arguments and acts. -/
theorem stopRampAndChecks : Obligations.StopRampAndChecks := by
  refine ⟨fun s hstop hzero => ⟨_, exec_stopRampComplete hstop hzero, rfl, by simp⟩, fun a s hstop hlate hdone => ?timeout,
    fun c r S s hc hend => ?skipped, fun c r S bad s hc hend hbad => ?judged, fun r k s hk hmay => ?table, fun r s hmay => ?counts⟩
  case timeout =>
    exact ⟨_, exec_stopRampTimeout hstop hlate hdone, rfl, State.rb_latch _ _ _ (by decide),
      (RegsBut.of_regs rfl).trans (State.latch_regsBut _ _ _), by simp⟩
  case skipped =>
    obtain ⟨w, heq⟩ := s.plausEnd_skip c r S
    refine ⟨_, w, exec_plausWindowEnd hend, ?_, fun d hd => ?_, ?_⟩
    · rw [heq, State.plaus_updPlaus, if_pos rfl]
    · rw [heq, State.plaus_updPlaus, if_neg hd]
    · rw [heq]
      simp
  case judged =>
    have hbad' : s.plausBad c r S = bad := Bool.eq_iff_iff.mpr ((s.plausBad_iff c r S).trans hbad.symm)
    obtain ⟨w, heq⟩ := s.plausEnd_judged c r S
    rw [hbad'] at heq
    have hplaus (d : Nat) : (s.plausEnd c false r S).plaus d = (s.plausJudged c bad r w).plaus d := by rw [heq, State.plaus_plausShown]
    have hself := (hplaus c).trans ((s.plaus_updPlaus c c _).trans (if_pos rfl))
    refine ⟨_, exec_plausWindowEnd hend, by rw [hself], by rw [hself], by rw [hself], fun hpass => ?_, fun hfail => ?_,
      fun hfail hlimit hnew => ?_, fun d hd => ?_, ?_, (State.plausEnd_frame c false r S (by simp)).mpr (.refl s)⟩
    · rw [heq, hpass, s.plausEnters_pass]
      rfl
    · rw [heq, hfail]
      exact State.plausShown_count _ hc _
    · have henter := s.plausEnters_first hlimit hnew
      refine ⟨by rw [hself, hfail, henter, State.plausLeaves, Bool.or_true]; rfl, ?_⟩
      rw [heq, hfail, henter]
      exact State.plausEntered_shows _ c
    · exact (hplaus d).trans ((s.plaus_updPlaus c d _).trans (if_neg hd))
    · rw [heq]
      exact (RegsBut.of_regs (s.plausJudged_regs c bad r w)).trans (State.plausShown_regsBut _ _ _ _)
  case table =>
    refine ⟨_, exec_rcClear hk hmay, ?_, fun d hd => ?_, (s.setArgs_regsBut _ _).trans (.of_regs (State.rcClear_regs _ _)), by simp⟩
    · rw [State.rcTable_rcClear, if_pos rfl, State.rcTable_setArgs]
    · rw [State.rcTable_rcClear, if_neg hd, State.rcTable_setArgs]
  case counts =>
    exact ⟨_, exec_clearCheckCounts hmay, fun c hc => State.clearAllChecks_cleared _ _ (.inl (List.mem_range.mpr hc)),
      ((s.setArgs_regsBut _ _).mono (by simp)).trans ((State.clearChecks_regsBut _).mono (List.subset_cons_self _ _)), by simp⟩

end Sys2Proof.Machine
end

section
/-! PROOFS. The test generators and the capture (O26): an action register without arguments, what a START and a STOP make of their generator, the
changes of the capture, and the clauses assembled. -/

namespace Sys2Proof.Machine

/-! An action whose register has no other field. -/

/-- A register written with the word it holds. -/
def State.rewritten (s : State) (off : Nat) : State := s.setReg off (s.reg off)

theorem State.reg_rewritten (s : State) (off k : Nat) : (s.rewritten off).reg k = s.reg k := by
  rw [State.rewritten, State.reg_setReg]
  split
  · next hk => rw [hk]
  · rfl

@[simp] theorem State.rewritten_frame {W : List Part} {r s : State} (off : Nat) (hW : [.regs] ⊆ W) :
    Frame W r (s.rewritten off) ↔ Frame W r s := State.setReg_frame _ _ hW

theorem State.rewritten_regsBut (s : State) (off : Nat) (ks : List Nat) : RegsBut ks s (s.rewritten off) := fun k _ => s.reg_rewritten off k

/-- A register in which a write sets no field keeps its word (R490). -/
theorem State.setArgs_of_no_fields {off : Nat} (h : writeMask off = 0) (s : State) (w : Word) : s.setArgs off w = s.rewritten off := by
  have hblend : blend 0 w (s.reg off) = s.reg off := by
    have hall : ~~~(0 : Word) = BitVec.allOnes 32 := by decide
    rw [blend, hall, BitVec.and_allOnes]
    simp
  rw [State.setArgs, h, hblend, State.rewritten]

theorem writeMask_genCtrl : ∀ g < 4, writeMask (R.CTL_GEN_CTRL g) = 0 := by decide +kernel

theorem writeMask_capCtrl : writeMask R.CTL_CAP_CTRL = 0 := by decide +kernel

/-! The actions. -/

/-- A write of CTL_GEN_CTRL starts and stops the generator whose register it is (R205). -/
theorem State.actionEffect_genCtrl (s : State) (r : Requester) (w : Word) {g : Nat} (hg : g < 4) : s.actionEffect r (R.CTL_GEN_CTRL g) w =
    if flag w 30 then (if flag w 31 then s.genBegin g else s).genStop g else if flag w 31 then s.genBegin g else s := by
  match g, hg with
  | 0, _ => rfl
  | 1, _ => rfl
  | 2, _ => rfl
  | 3, _ => rfl

theorem State.runAction_genCtrl {s : State} {r : Requester} {g : Nat} (w : Word) (hg : g < 4) (hmay : s.mayWrite r (R.CTL_GEN_CTRL g) = true) :
    s.runAction r (R.CTL_GEN_CTRL g) w = (s.rewritten (R.CTL_GEN_CTRL g)).actionEffect r (R.CTL_GEN_CTRL g) w := by
  have hoff : R.CTL_GEN_CTRL g ∉ [R.SAF_CONFIRM, R.PRT_RESET, R.DBG_HALT] := by
    simp only [R.CTL_GEN_CTRL, R.SAF_CONFIRM, R.PRT_RESET, R.DBG_HALT, List.mem_cons, List.not_mem_nil, or_false]
    omega
  rw [State.runAction_owned w hoff hmay, State.setArgs_of_no_fields (writeMask_genCtrl g hg)]

theorem exec_genStart {r : Requester} {g : Nat} {s : State} (hg : g < 4) (hmay : s.mayWrite r (R.CTL_GEN_CTRL g) = true) :
    exec (.genStart r g) s = .next ((s.rewritten (R.CTL_GEN_CTRL g)).genBegin g) := by
  show Host.Outcome.next (if g < 4 then _ else _) = _
  rw [if_pos hg, State.runAction_genCtrl _ hg hmay, State.actionEffect_genCtrl _ r _ hg]
  rfl

theorem exec_genStop {r : Requester} {g : Nat} {s : State} (hg : g < 4) (hmay : s.mayWrite r (R.CTL_GEN_CTRL g) = true) :
    exec (.genStop r g) s = .next ((s.rewritten (R.CTL_GEN_CTRL g)).genStop g) := by
  show Host.Outcome.next (if g < 4 then _ else _) = _
  rw [if_pos hg, State.runAction_genCtrl _ hg hmay, State.actionEffect_genCtrl _ r _ hg]
  rfl

theorem State.runAction_capCtrl {s : State} {r : Requester} (w : Word) (hmay : s.mayWrite r R.CTL_CAP_CTRL = true) :
    s.runAction r R.CTL_CAP_CTRL w = (s.rewritten R.CTL_CAP_CTRL).actionEffect r R.CTL_CAP_CTRL w := by
  rw [State.runAction_owned w (by decide) hmay, State.setArgs_of_no_fields writeMask_capCtrl]

theorem exec_capArm {r : Requester} {s : State} (hmay : s.mayWrite r R.CTL_CAP_CTRL = true) :
    exec (.capArm r) s = .next (s.rewritten R.CTL_CAP_CTRL).capArm :=
  congrArg Host.Outcome.next (State.runAction_capCtrl 0x80000000 hmay)

theorem exec_capAbort {r : Requester} {s : State} (hmay : s.mayWrite r R.CTL_CAP_CTRL = true) :
    exec (.capAbort r) s = .next (s.rewritten R.CTL_CAP_CTRL).capEnd :=
  congrArg Host.Outcome.next (State.runAction_capCtrl 0x40000000 hmay)

/-! The generators. -/

/-- A change of generator g changes no other generator. -/
theorem State.gen_updGen (s : State) (g k : Nat) (f : GenSt → GenSt) : (s.updGen g f).gen k = if k = g then f (s.gen g) else s.gen k :=
  smGet_smUpd ({} : GenSt) s.ctl.gens g k f

theorem State.gen_congr {s t : State} (h : t.ctl.gens = s.ctl.gens) (k : Nat) : t.gen k = s.gen k := by rw [State.gen, h, State.gen]

theorem State.gen_rewritten (s : State) (off k : Nat) : (s.rewritten off).gen k = s.gen k := rfl

/-- START takes the configuration that waits where it is not refused with it, and begins or is refused in the state then reached (R205,
R212). -/
theorem State.genBegin_eq (s : State) (g : Nat) : s.genBegin g = (if (s.genTake g).genRefused g then s else s.genTake g).genStart g := by
  unfold State.genBegin
  extract_lets t
  split <;> rfl

/-- No write of the configuration of generator g waits. -/
def State.NoGenPend (s : State) (g : Nat) : Prop := ∀ k q w due b o, .image k q w due b o ∈ s.regs.pend → genOf k ≠ some g

/-- With no configuration waiting, a START takes none. -/
theorem State.genTake_none {s : State} {g : Nat} (h : s.NoGenPend g) : s.genTake g = s := by
  unfold State.genTake
  refine List.foldlRecOn (motive := fun (t : State) => t = s) s.regs.pend _ rfl fun t ht p hp => ?_
  cases p with
  | image k q w due b o => exact (if_neg fun hk => h k q w due b o hp hk.1).trans ht
  | ltClear | action | map => exact ht

theorem State.genBegin_none {s : State} {g : Nat} (h : s.NoGenPend g) : s.genBegin g = s.genStart g := by
  rw [State.genBegin_eq, State.genTake_none h, ite_self]

theorem State.genRefused_rewritten (s : State) (off g : Nat) : (s.rewritten off).genRefused g = s.genRefused g := by
  simp only [State.genRefused, State.gensAct, State.commission, State.rb, State.rf, State.reg_rewritten]
  rfl

/-- A refused START stops its generator with CAUSE 2 (R205). -/
theorem State.genStart_refused {s : State} {g : Nat} (h : s.genRefused g = true) :
    s.genStart g = (s.updGen g (fun a => { a with running := false, cause := 2 })).latch R.CTL_CAUSE 5 := if_pos h

/-- A START that is not refused has its generator run from the present epoch with the configuration in force, and may trigger the capture
(R205, R206). -/
theorem State.genStart_begins {s : State} {g : Nat} (h : s.genRefused g = false) : ∃ f : GenSt → GenSt,
    (∀ a, (f a).running = true ∧ (f a).start = s.sys.epoch ∧ (f a).cfg = s.reg (R.CTL_GEN_CFG g) ∧
      (f a).freq = (s.reg (R.CTL_GEN_FREQ g)).toNat ∧ (f a).shifts = 0) ∧ s.genStart g = (s.updGen g f).capHit (g + 1) :=
  ⟨_, fun _ => ⟨rfl, rfl, rfl, rfl, rfl⟩, if_neg (by rw [h]; exact Bool.false_ne_true)⟩

/-! The capture. -/

/-- An ARM of a capture that is not in progress waits for admission with the configuration in force (R206, R410). -/
theorem State.capArm_idle {s : State} (h : s.ctl.cap.state = .idle ∨ s.ctl.cap.state = .done ∨ s.ctl.cap.state = .aborted) :
    s.capArm.ctl.cap.state = .wait ∧ s.capArm.ctl.cap.cfg = s.reg R.CTL_CAP_CFG ∧ s.capArm.ctl.cap.samples = [[], [], [], []] ∧
      .capture ∈ s.capArm.pwr.waiting := by
  unfold State.capArm
  extract_lets c s1
  rw [if_pos h]
  split
  · next hwait => exact ⟨rfl, rfl, rfl, List.contains_iff_mem.mp hwait⟩
  · exact ⟨rfl, rfl, rfl, List.mem_append_right _ List.mem_cons_self⟩

/-- An ARM of a capture in progress is refused, which is shown beside its state (R206). -/
theorem State.capArm_busy {s : State} (h : s.ctl.cap.state = .wait ∨ s.ctl.cap.state = .armed ∨ s.ctl.cap.state = .triggered) :
    s.capArm = { s with ctl := { s.ctl with cap := { s.ctl.cap with refused := true } } } := by
  have hidle : ¬ (s.ctl.cap.state = .idle ∨ s.ctl.cap.state = .done ∨ s.ctl.cap.state = .aborted) := by
    rcases h with h | h | h <;> simp [h]
  exact if_neg hidle

/-- A capture in progress is aborted, and keeps its samples (R207). -/
theorem State.capEnd_busy {s : State} (h : s.ctl.cap.state = .wait ∨ s.ctl.cap.state = .armed ∨ s.ctl.cap.state = .triggered) :
    s.capEnd = ({ s with ctl := { s.ctl with cap := { s.ctl.cap with state := .aborted, refused := false } } } : State).endItem .capture :=
  if_pos h

theorem State.capArm_regs (s : State) : s.capArm.regs = s.regs := keep_regs (by simp)

theorem State.capEnd_regs (s : State) : s.capEnd.regs = s.regs := keep_regs (by simp)

/-- The trigger of an armed capture keeps the last PRE samples (R206). -/
theorem exec_capTrigger {s : State} (harmed : s.ctl.cap.state = .armed) (hhit : s.ctl.cap.hit = true ∨ fld s.ctl.cap.cfg 2 0 = 0) :
    exec .capTrigger s = .next { s with ctl := { s.ctl with cap := { s.ctl.cap with
      state := .triggered, refused := false
      samples := s.ctl.cap.samples.map (fun l => l.drop (l.length - fld s.ctl.cap.cfg 15 4))
      trig := min (fld s.ctl.cap.cfg 15 4) (s.ctl.cap.samples.headD []).length } } } :=
  if_pos ⟨harmed, hhit.imp_right .inl⟩

/-- A triggered capture with 4,096 samples is done (R206). -/
theorem exec_capDone {s : State} (htrig : s.ctl.cap.state = .triggered) (hfull : 4096 ≤ (s.ctl.cap.samples.headD []).length) :
    exec .capDone s = .next ((({ s with ctl := { s.ctl with cap := { s.ctl.cap with state := .done, refused := false } } } : State).endItem
      .capture).latch R.CTL_CAUSE 4) :=
  if_pos ⟨htrig, hfull⟩

/-- Settles O26: a START is genBegin, which begins or is refused; a STOP, an ARM and an ABORT change their generator or the capture. -/
theorem generatorsAndCapture : Obligations.GeneratorsAndCapture := by
  refine ⟨fun r g s hg hmay => ?take, fun r g s hg hmay hpend hacts => ?begins, fun r g s hg hmay hacts hpend hpoint => ?refused,
    fun r g s hg hmay => ?stop, fun r s hmay hidle => ?arm, fun r s hmay hbusy => ⟨?armBusy, ?abort⟩,
    fun s harmed hhit => ⟨_, exec_capTrigger harmed hhit, rfl, rfl, rfl, by simp⟩, fun s htrig hfull => ?done⟩
  case take =>
    intro v
    have hv : v = s.rewritten (R.CTL_GEN_CTRL g) := State.setArgs_of_no_fields (writeMask_genCtrl g hg) s _
    rw [exec_genStart hg hmay, hv, State.genBegin_eq]
  case begins =>
    have hnot : (s.rewritten (R.CTL_GEN_CTRL g)).genRefused g = false := by
      rw [State.genRefused_rewritten, State.genRefused]
      rcases hacts with h | h <;> simp [h]
    have hnone : (s.rewritten (R.CTL_GEN_CTRL g)).NoGenPend g := hpend
    obtain ⟨f, hf, heq⟩ := State.genStart_begins hnot
    obtain ⟨hregs, -, hgens⟩ := ((s.rewritten (R.CTL_GEN_CTRL g)).updGen g f).capHit_keeps (g + 1)
    obtain ⟨hrun, hstart, hcfg, hfreq, hshifts⟩ := hf (s.gen g)
    rw [State.reg_rewritten] at hcfg hfreq
    have hgen (k : Nat) := (State.gen_congr hgens k).trans (State.gen_updGen _ g k f)
    have hself := (hgen g).trans (if_pos rfl)
    rw [State.gen_rewritten] at hself
    refine ⟨_, (exec_genStart hg hmay).trans (congrArg _ ((State.genBegin_none hnone).trans heq)), hself ▸ hrun, hself ▸ hstart, hself ▸ hcfg,
      hself ▸ hfreq, hself ▸ hshifts, fun k hk => (hgen k).trans (if_neg hk), (s.rewritten_regsBut _ _).trans (.of_regs hregs), ?_⟩
    simp
  case refused =>
    have hrefused : (s.rewritten (R.CTL_GEN_CTRL g)).genRefused g = true := by
      rw [State.genRefused_rewritten, State.genRefused, hacts]
      simp [hpoint]
    have hnone : (s.rewritten (R.CTL_GEN_CTRL g)).NoGenPend g := hpend
    refine ⟨_, (exec_genStart hg hmay).trans (congrArg _ ((State.genBegin_none hnone).trans (State.genStart_refused hrefused))),
      (State.gen_updGen _ g g _).trans (if_pos rfl), State.rb_latch _ _ _ (by decide), fun k hk => (State.gen_updGen _ g k _).trans (if_neg hk),
      (s.rewritten_regsBut _ _).trans ((State.latch_regsBut _ _ _).mono (by simp)), by simp⟩
  case stop =>
    exact ⟨_, exec_genStop hg hmay, (State.gen_updGen _ g g _).trans (if_pos rfl), fun k hk => (State.gen_updGen _ g k _).trans (if_neg hk),
      s.rewritten_regsBut _ _, by simp⟩
  case arm =>
    obtain ⟨hstate, hcfg, hsamples, hwait⟩ := State.capArm_idle (s := s.rewritten R.CTL_CAP_CTRL) hidle
    exact ⟨_, exec_capArm hmay, hstate, hcfg.trans (s.reg_rewritten _ _), hsamples, hwait,
      (s.rewritten_regsBut _ _).trans (.of_regs (State.capArm_regs _)), by simp⟩
  case armBusy =>
    have heq := State.capArm_busy (s := s.rewritten R.CTL_CAP_CTRL) hbusy
    exact ⟨_, exec_capArm hmay, congrArg State.ctl heq, (s.rewritten_regsBut _ _).trans (.of_regs (State.capArm_regs _)), by
      rw [heq, Frame.set_ctl _ (by simp)]; simp⟩
  case abort =>
    have heq := State.capEnd_busy (s := s.rewritten R.CTL_CAP_CTRL) hbusy
    exact ⟨_, exec_capAbort hmay, congrArg (·.ctl.cap) heq, congrArg (·.pwr.admitted) heq, congrArg (·.pwr.waiting) heq,
      (s.rewritten_regsBut _ _).trans (.of_regs (State.capEnd_regs _)), by simp⟩
  case done =>
    exact ⟨_, exec_capDone htrig hfull, rfl, rfl, State.rb_latch _ _ _ (by decide), (RegsBut.of_regs rfl).trans (State.latch_regsBut _ _ _),
      by simp⟩

end Sys2Proof.Machine
end

section
/-! PROOFS. The actions of GRD_ACTION: what a change that raises sources keeps, the result of an action, the start of one, and each action accepted
or refused. -/

namespace Sys2Proof.Machine

/-! The sources raised. -/

/-- A bit that reads 1 still does after a raise. -/
theorem State.rb_grdRaise_keeps {s : State} {k b : Nat} (h : s.rb k b = true) : s.grdRaise.rb k b = true := by
  have hlt : ∀ b ∈ bitList 12 s.grdSources, b < 32 := fun b hb => (List.mem_range.mp (List.mem_filter.mp hb).1).trans (by decide)
  unfold State.rb
  rw [State.reg_grdRaise]
  exact s.rb_grdLatches_keeps _ hlt k b h

/-- A raise leaves the fields of the other registers. -/
theorem State.rf_grdRaise (s : State) {k : Nat} (hi lo : Nat) (h : k ≠ R.GRD_CAUSE) : s.grdRaise.rf k hi lo = s.rf k hi lo :=
  congrArg (fld · hi lo) (s.grdRaise_regsBut k (by simpa using h))

/-- A change of the Grid Engine that raises its sources changes of it what it says, and the sources raised. -/
theorem State.grdRaise_grd_of {s : State} {g : GrdSt} (h : s.grd = g) : s.grdRaise.grd = { g with raised := s.grdRaise.grd.raised } := by
  rw [State.grdRaise_grd, h]

/-! The result of an action. -/

theorem State.grdResult_grd (s : State) (r : Nat) : (s.grdResult r).grd = s.grd := keep_grd (by simp)

/-- The result of an action that is accepted and not finished sets no cause (R247). -/
theorem State.grdResult_accepted_regsBut (s : State) : RegsBut [R.GRD_ACTION_STAT] s (s.grdResult 1) := s.setRf_regsBut _ _ _ _

/-- Any other result sets the cause (R247). -/
theorem State.grdResult_ended (s : State) {r : Nat} (hr : r ≠ 1) :
    s.grdResult r = (s.setRf R.GRD_ACTION_STAT 2 0 r).latch R.GRD_CAUSE 12 := if_neg hr

theorem State.rf_grdResult (s : State) {r : Nat} (hr : r < 8) : (s.grdResult r).rf R.GRD_ACTION_STAT 2 0 = r := by
  have hset : (s.setRf R.GRD_ACTION_STAT 2 0 r).rf R.GRD_ACTION_STAT 2 0 = r :=
    (s.rf_setRf _ 2 0 r (by decide)).trans (Nat.mod_eq_of_lt hr)
  by_cases h1 : r = 1
  · subst h1
    exact hset
  · rw [State.grdResult_ended _ h1, State.rf_latch_ne _ (by decide) (.inl (by decide)), hset]

theorem State.rb_grdResult_cause (s : State) {r : Nat} (hr : r ≠ 1) : (s.grdResult r).rb R.GRD_CAUSE 12 = true := by
  rw [State.grdResult_ended _ hr]
  exact State.rb_latch _ _ _ (by decide)

theorem State.grdResult_regsBut (s : State) (r : Nat) : RegsBut [R.GRD_ACTION_STAT, R.GRD_CAUSE] s (s.grdResult r) :=
  .ite ((s.setRf_regsBut _ _ _ _).mono (by simp)) ((s.setRf_regsBut _ _ _ _).pair (State.latch_regsBut _ _ _))

/-! The start of an action. -/

/-- Whether a requester may write a register of object k rests on the owners of that object (R394). -/
theorem State.mayWrite_congr {s t : State} (r : Requester) {off k : Nat} (hobject : ∀ slot, objectOf off slot = some k)
    (hown : t.reg (R.HAT_OWN k) = s.reg (R.HAT_OWN k)) : t.mayWrite r off = s.mayWrite r off := by
  cases r with
  | mgmt => rfl
  | hatch h => simp only [State.mayWrite, hobject, State.owns, State.owner, State.rf, hown]

/-- The state with the code of an action set in GRD_ACTION (R490). -/
def State.grdArgs (s : State) (code : Nat) : State := s.setArgs R.GRD_ACTION (s.actWord R.GRD_ACTION 31 [(3, 0, code)])

theorem State.grdArgs_regsBut (s : State) (code : Nat) : RegsBut [R.GRD_ACTION] s (s.grdArgs code) := s.setArgs_regsBut _ _

@[simp] theorem State.grdArgs_frame {W : List Part} {r s : State} (code : Nat) (hW : [.regs] ⊆ W) :
    Frame W r (s.grdArgs code) ↔ Frame W r s := State.setArgs_frame _ _ hW

theorem State.grdArgs_grd (s : State) (code : Nat) : (s.grdArgs code).grd = s.grd := keep_grd (by simp)

/-- The effect of each action of GRD_ACTION (R247). -/
def State.grdEffect (s : State) (code : Nat) : State :=
  match code with
  | 1 => s.toGfm
  | 2 => s.toGfl
  | 3 => s.grdCancel
  | 4 => s.clearIsland
  | 5 => s.clearFrt
  | _ => s.grdResult 3

/-- An action of a requester that may write GRD_ACTION sets its code, and acts (R247, R394, R490). -/
theorem State.grdStart_eq {s : State} {r : Requester} {code : Nat} (hcode : code < 16) (hmay : s.mayWrite r R.GRD_ACTION = true) :
    s.grdStart r code = (s.grdArgs code).grdEffect code := by
  have hfld : fld (s.actWord R.GRD_ACTION 31 [(3, 0, code)]) 3 0 = code :=
    (fld_setFld_same _ 3 0 code (by decide)).trans (Nat.mod_eq_of_lt hcode)
  have hstart : s.grdStart r code = (s.grdArgs code).grdAction r (s.actWord R.GRD_ACTION 31 [(3, 0, code)]) :=
    State.runAction_owned _ (by decide) hmay
  have hmay' : (s.grdArgs code).mayWrite r R.GRD_ACTION = true :=
    (State.mayWrite_congr r (fun _ => rfl) (s.grdArgs_regsBut code (R.HAT_OWN 6) (by decide))).trans hmay
  rw [hstart, State.grdAction, State.asOwner_eq hmay', hfld]
  rfl

section
variable {r : Requester} {s : State} (hmay : s.mayWrite r R.GRD_ACTION = true)
include hmay

theorem exec_toGfm : exec (.toGfm r) s = .next (s.grdArgs 1).toGfm := congrArg Host.Outcome.next (State.grdStart_eq (by decide) hmay)

theorem exec_toGfl : exec (.toGfl r) s = .next (s.grdArgs 2).toGfl := congrArg Host.Outcome.next (State.grdStart_eq (by decide) hmay)

theorem exec_cancel : exec (.cancel r) s = .next (s.grdArgs 3).grdCancel := congrArg Host.Outcome.next (State.grdStart_eq (by decide) hmay)

theorem exec_clearIsland : exec (.clearIsland r) s = .next (s.grdArgs 4).clearIsland :=
  congrArg Host.Outcome.next (State.grdStart_eq (by decide) hmay)

theorem exec_clearFrt : exec (.clearFrt r) s = .next (s.grdArgs 5).clearFrt := congrArg Host.Outcome.next (State.grdStart_eq (by decide) hmay)

end

/-! The actions accepted. -/

/-- The state with another Grid Engine. -/
def State.withGrd (s : State) (g : GrdSt) : State := { s with grd := g }

@[simp] theorem State.withGrd_frame {W : List Part} {r s : State} (g : GrdSt) (hW : .grd ∈ W) : Frame W r (s.withGrd g) ↔ Frame W r s :=
  Frame.set_grd _ hW

@[simp] theorem State.withGrd_grd (s : State) (g : GrdSt) : (s.withGrd g).grd = g := rfl

theorem State.withGrd_regsBut (s : State) (g : GrdSt) (ks : List Nat) : RegsBut ks s (s.withGrd g) := .of_regs rfl

theorem State.toGfm_accepted {s : State} (hact : s.grd.act = none) (hgfm : s.grd.gfm = false) (hrun : s.sys.conv = .run) :
    s.toGfm = (s.withGrd { s.grd with act := some .toGfm }).grdResult 1 := if_neg (by simp [hact, hgfm, hrun])

theorem State.toGfl_accepted {s : State} (hact : s.grd.act = none) (hgfm : s.grd.gfm = true) :
    s.toGfl = (s.withGrd { s.grd with act := some .toGfl }).grdResult 1 := if_neg (by simp [hact, hgfm])

theorem State.grdCancel_pending {s : State} (hact : s.grd.act ≠ none) :
    s.grdCancel = (s.withGrd { s.grd with act := none, fRs := 0 }).grdResult 4 := if_neg (by simpa using hact)

theorem State.clearIsland_accepted {s : State} (hact : s.grd.act = none) (hgfm : s.grd.gfm = false) :
    s.clearIsland = ((s.withGrd { s.grd with islanded := false, islBy := 0 }).grdResult 2).grdRaise := if_neg (by simp [hact, hgfm])

theorem State.clearFrt_accepted {s : State} (hact : s.grd.act = none) :
    s.clearFrt = ((s.withGrd { s.grd with entries := [] }).grdResult 2).grdRaise := if_neg (by simp [hact])

/-- The registers that an action changes: its own, its result and the causes (R247). -/
theorem State.acted_regsBut (s : State) (code r : Nat) (g : GrdSt) :
    RegsBut [R.GRD_ACTION, R.GRD_ACTION_STAT, R.GRD_CAUSE] s (((s.grdArgs code).withGrd g).grdResult r) :=
  ((s.grdArgs_regsBut code).mono (by simp)).trans ((State.withGrd_regsBut _ g _).trans ((State.grdResult_regsBut _ r).mono (by simp)))

/-- An action that waits sets no cause (R247). -/
theorem State.waits_regsBut (s : State) (code : Nat) (g : GrdSt) :
    RegsBut [R.GRD_ACTION, R.GRD_ACTION_STAT] s (((s.grdArgs code).withGrd g).grdResult 1) :=
  (s.grdArgs_regsBut code).pair ((State.withGrd_regsBut _ g _).trans (State.grdResult_accepted_regsBut _))

/-- What an action that is done at once leaves: the Grid Engine as the action says, its sources raised, its result and its cause (R244,
R247). -/
theorem State.done_keeps (s : State) (code : Nat) (g : GrdSt) (t : State) (ht : t = (((s.grdArgs code).withGrd g).grdResult 2).grdRaise) :
    t.grd = { g with raised := t.grd.raised } ∧ t.rf R.GRD_ACTION_STAT 2 0 = 2 ∧ t.rb R.GRD_CAUSE 12 = true ∧
      RegsBut [R.GRD_ACTION, R.GRD_ACTION_STAT, R.GRD_CAUSE] s t ∧ Frame [.regs, .grd] s t := by
  subst ht
  exact ⟨State.grdRaise_grd_of (State.grdResult_grd _ 2), (State.rf_grdRaise _ 2 0 (by decide)).trans (State.rf_grdResult _ (by decide)),
    State.rb_grdRaise_keeps (State.rb_grdResult_cause _ (by decide)),
    (s.acted_regsBut code 2 g).trans ((State.grdRaise_regsBut _).mono (by simp)), by simp⟩

end Sys2Proof.Machine
end

section
/-! PROOFS. Ride-through and curves (O22): the sources of the time-out and of the envelopes, and the next state of each event. -/

namespace Sys2Proof.Machine

/-! The sources. -/

/-- Bit i of a list of bits. -/
theorem bit_ofBits (l : List Bool) (i : Nat) : bit (ofBits l) i = l.getD i false := by
  induction l generalizing i with
  | nil => simp [bit, bits, ofBits]
  | cons b l ih =>
    cases i with
    | zero => exact bit_ofBits_zero b l
    | succ i =>
      have hb : b2n b ≤ 1 := by cases b <;> decide
      have hhalf : (b2n b + 2 * ofBits l) / 2 ^ (i + 1) = ofBits l / 2 ^ i := by
        rw [Nat.pow_succ', ← Nat.div_div_eq_div_mul]
        congr 1
        omega
      rw [List.getD_cons_succ, ← ih i]
      simp only [bit, bits, ofBits, hhalf, Nat.add_sub_cancel_left]

/-- A source that holds is raised, with its cause where it is new (R244). -/
theorem State.grdRaise_source {s : State} {b : Nat} (hb : b < 12) (h : bit s.grdSources b = true) :
    bit s.grdRaise.grd.raised b = true ∧ (bit s.grd.raised b = false → s.grdRaise.rb R.GRD_CAUSE b = true) :=
  ⟨by rw [State.grdRaise_grd]; exact h, s.rb_grdRaise hb h⟩

/-- Bit 4 of the sources is the time-out of ride-through (R225, R244). -/
theorem State.bit_grdSources_frtTimeout (s : State) : bit s.grdSources 4 = s.grd.frtTimeout := by
  simp only [State.grdSources, bit_ofBits, List.getD_cons_succ, List.getD_cons_zero]

/-- Bit 6 of the sources is a curve in envelope violation (R228, R244). -/
theorem State.bit_grdSources_envelope (s : State) : bit s.grdSources 6 = decide (s.crvViol ≠ 0) := by
  simp only [State.grdSources, bit_ofBits, List.getD_cons_succ, List.getD_cons_zero]

/-- A curve in violation shows in the mask of violations (R228). -/
theorem State.crvViol_ne_zero {s : State} {c : Nat} (hc : c < 8) (h : (smGet {} s.grd.curves c).viol = true) : s.crvViol ≠ 0 := by
  have hbit : bit s.crvViol c = true := by
    rw [State.crvViol, bit_ofBits, List.getD_eq_getElem _ _ (by simpa using hc)]
    simpa using h
  intro hzero
  simp [hzero, bit, bits] at hbit

/-! The curves. -/

/-- The state with curve c as given. -/
def State.setCurve (s : State) (c : Nat) (k : CurveSt) : State := s.withGrd { s.grd with curves := smSet {} s.grd.curves c k }

/-- A change of curve c changes no other curve. -/
theorem State.curves_setCurve (s : State) (c d : Nat) (k : CurveSt) :
    smGet {} (s.setCurve c k).grd.curves d = if d = c then k else smGet {} s.grd.curves d := smGet_smSet _ _ _ _ _

@[simp] theorem State.setCurve_frame {W : List Part} {r s : State} (c : Nat) (k : CurveSt) (hW : .grd ∈ W) :
    Frame W r (s.setCurve c k) ↔ Frame W r s := State.withGrd_frame _ hW

/-! The events. -/

theorem exec_frtEntry {n : Epoch} {s : State} (hruns : s.frtRuns = true) (hfrt : s.grd.frt ≠ .fault)
    (hrun : max 1 (s.rf R.GRD_TIME1 31 16) ≤ s.grd.frtInRun) (htag : s.grd.tag = some n) :
    exec .frtEntry s = .next ((s.withGrd { s.grd with
      frt := .fault, frtInRun := 0, frtOutRun := 0, frtAt := n + 1, entries := s.sys.epoch :: s.grd.entries.take 255 }).latch
        R.GRD_CAUSE 3).grdRaise := by
  have htag' : s.grd.tag.getD 0 = n := by rw [htag, Option.getD_some]
  subst htag'
  exact if_pos ⟨hruns, hfrt, hrun⟩

theorem exec_frtExit {s : State} (hruns : s.frtRuns = true) (hfrt : s.grd.frt = .fault)
    (hrun : max 1 (s.rf R.GRD_TIME1 15 0) ≤ s.grd.frtOutRun) :
    exec .frtExit s = .next (s.withGrd { s.grd with frt := .post, frtOutRun := 0, frtInRun := 0, frtTimeout := false }).grdRaise :=
  if_pos ⟨hruns, hfrt, hrun⟩

theorem exec_frtTimeout {n : Epoch} {s : State} (hfrt : s.grd.frt = .fault) (htag : s.grd.tag = some n)
    (hms : s.epOfMsNear (s.rf R.GRD_TIME2 31 16) ≤ (n + 1 - s.grd.frtAt).toNat) :
    exec .frtTimeout s = .next (s.withGrd { s.grd with frtTimeout := true }).grdRaise :=
  if_pos ⟨hfrt, by rw [htag]; exact hms⟩

theorem exec_curveActivation {c : Nat} {s : State} (hc : c < 8) (hlow : 1 ≤ fld (s.crvCfg c s.crvBank) 26 24)
    (hhigh : fld (s.crvCfg c s.crvBank) 26 24 ≤ 4) (hlevel : fld (s.crvCfg c s.crvBank) 17 16 = 1)
    (hhold : s.crvHold c ≤ (smGet {} s.grd.curves c).run) :
    exec (.curveActivation c) s =
      .next (s.setCurve c { smGet {} s.grd.curves c with active := !(smGet {} s.grd.curves c).active, run := 0 }) :=
  if_pos ⟨hc, hlow, hhigh, hlevel, hhold⟩

theorem exec_envelopeViolation {c : Nat} {s : State} (hc : c < 8) (hfrt : s.grd.frt ≠ .normal)
    (henv : 5 ≤ fld (s.crvCfg c s.crvBank) 26 24) (hhold : s.crvHold c ≤ (smGet {} s.grd.curves c).violRun) :
    exec (.envelopeViolation c) s = .next (s.setCurve c { smGet {} s.grd.curves c with viol := true }).grdRaise :=
  if_pos ⟨hc, hfrt, henv, hhold⟩

/-- Settles O22: each event is one change of the Grid Engine, and all but the activation of a curve raise the sources after it. -/
theorem rideThroughAndCurves : Obligations.RideThroughAndCurves := by
  refine ⟨fun n s hruns hfrt hrun htag => ?entry, fun s hruns hfrt hrun => ?exit, fun n s hfrt htag hms => ?timeout,
    fun r s hmay hact => ?clear, fun c k s hc hk hlow hhigh hlevel hhold => ?activation, fun c k s hc hk hfrt henv hhold => ?violation⟩
  case entry =>
    exact ⟨_, exec_frtEntry hruns hfrt hrun htag, State.grdRaise_grd_of (State.latch_grd _ _ _),
      State.rb_grdRaise_keeps (State.rb_latch _ _ _ (by decide)),
      (s.withGrd_regsBut _ _).trans ((State.latch_regsBut _ _ _).trans (State.grdRaise_regsBut _)), by simp⟩
  case exit =>
    exact ⟨_, exec_frtExit hruns hfrt hrun, State.grdRaise_grd_of rfl, (s.withGrd_regsBut _ _).trans (State.grdRaise_regsBut _), by simp⟩
  case timeout =>
    obtain ⟨hraised, hcause⟩ := State.grdRaise_source (s := s.withGrd { s.grd with frtTimeout := true }) (b := 4) (by decide)
      (State.bit_grdSources_frtTimeout _)
    exact ⟨_, exec_frtTimeout hfrt htag hms, State.grdRaise_grd_of rfl, hraised, hcause,
      (s.withGrd_regsBut _ _).trans (State.grdRaise_regsBut _), by simp⟩
  case clear =>
    obtain ⟨hgrd, hresult, -, hregs, hframe⟩ := s.done_keeps 5 { s.grd with entries := [] } _ rfl
    exact ⟨_, (exec_clearFrt hmay).trans (congrArg _ (State.clearFrt_accepted hact)), hgrd, hresult, hregs, hframe⟩
  case activation =>
    subst hk
    exact ⟨_, exec_curveActivation hc hlow hhigh hlevel hhold, (s.curves_setCurve c c _).trans (if_pos rfl),
      fun d hd => (s.curves_setCurve c d _).trans (if_neg hd), by simp⟩
  case violation =>
    subst hk
    have hcurve (d : Nat) := s.curves_setCurve c d { smGet {} s.grd.curves c with viol := true }
    have hself := (hcurve c).trans (if_pos rfl)
    have hviol := State.crvViol_ne_zero hc (congrArg CurveSt.viol hself)
    obtain ⟨hraised, hcause⟩ := State.grdRaise_source (b := 6) (by decide)
      ((State.bit_grdSources_envelope _).trans (decide_eq_true hviol))
    refine ⟨_, exec_envelopeViolation hc hfrt henv hhold, ?_, fun d hd => ?_, hraised, hcause,
      (s.withGrd_regsBut _ _).trans (State.grdRaise_regsBut _), by simp⟩
    · rw [State.grdRaise_grd]
      exact hself
    · rw [State.grdRaise_grd]
      exact (hcurve d).trans (if_neg hd)

end Sys2Proof.Machine
end

section
/-! PROOFS. The actions of grid forming (O24): the actions refused, and the transfer to grid-following. -/

namespace Sys2Proof.Machine

/-! The actions refused. -/

theorem State.toGfm_refused {s : State} (h : s.grd.act ≠ none ∨ s.grd.gfm = true ∨ s.sys.conv ≠ .run) : s.toGfm = s.grdResult 3 :=
  if_pos (h.imp_left Option.isSome_iff_ne_none.mpr)

theorem State.toGfl_refused {s : State} (h : s.grd.act ≠ none ∨ s.grd.gfm = false) : s.toGfl = s.grdResult 3 :=
  if_pos (h.imp_left Option.isSome_iff_ne_none.mpr)

theorem State.grdCancel_refused {s : State} (h : s.grd.act = none) : s.grdCancel = s.grdResult 3 := if_pos (by rw [h]; rfl)

theorem State.clearIsland_refused {s : State} (h : s.grd.act ≠ none ∨ s.grd.gfm = true) : s.clearIsland = s.grdResult 3 :=
  if_pos (h.imp_left Option.isSome_iff_ne_none.mpr)

/-- The command c is an action of requester r that is refused in state s (R233, R236, R237). -/
def State.RefusesGrd (s : State) (r : Requester) (c : Instr) : Prop :=
  (c = .toGfm r ∧ (s.grd.act ≠ none ∨ s.grd.gfm = true ∨ s.sys.conv ≠ .run)) ∨
    (c = .toGfl r ∧ (s.grd.act ≠ none ∨ s.grd.gfm = false)) ∨ (c = .cancel r ∧ s.grd.act = none) ∨
    (c = .clearIsland r ∧ (s.grd.act ≠ none ∨ s.grd.gfm = true))

/-- An action that is refused sets its code and result 3, and no more (R247). -/
theorem State.RefusesGrd.exec {s : State} {r : Requester} {c : Instr} (h : s.RefusesGrd r c) (hmay : s.mayWrite r R.GRD_ACTION = true) :
    ∃ code, exec c s = .next ((s.grdArgs code).grdResult 3) := by
  rcases h with ⟨rfl, h⟩ | ⟨rfl, h⟩ | ⟨rfl, h⟩ | ⟨rfl, h⟩
  · exact ⟨1, (exec_toGfm hmay).trans (congrArg _ (State.toGfm_refused h))⟩
  · exact ⟨2, (exec_toGfl hmay).trans (congrArg _ (State.toGfl_refused h))⟩
  · exact ⟨3, (exec_cancel hmay).trans (congrArg _ (State.grdCancel_refused h))⟩
  · exact ⟨4, (exec_clearIsland hmay).trans (congrArg _ (State.clearIsland_refused h))⟩

/-! The transfer. -/

theorem State.countSuppressed_regsBut (s : State) (n : Nat) : RegsBut [R.TRK_SUPPRESSED] s (s.countSuppressed n) :=
  (s.setReg_regsBut _ _).trans fun k _ => State.reg_noteLt _ _ k _

/-- A Bin record changes the registers of the Bin queue, and no other (R431, R432). -/
theorem State.binLog_regsBut (s : State) (cause : Nat) (payload : List Nat) :
    RegsBut [R.TRK_SUPPRESSED, R.TRK_CAUSE, R.TRK_QUEUE] s (s.binLog cause payload) := by
  unfold State.binLog State.binAt State.binPush
  split
  · exact ((s.countSuppressed_regsBut 1).mono (by simp)).trans (.of_regs rfl)
  · extract_lets start q s1 on rep q' s2 t3 s3
    have hcount (y : State) (n : Nat) : RegsBut [R.TRK_SUPPRESSED, R.TRK_CAUSE, R.TRK_QUEUE] y (y.countSuppressed n) :=
      (y.countSuppressed_regsBut n).mono (by simp)
    have h1 : RegsBut [R.TRK_SUPPRESSED, R.TRK_CAUSE, R.TRK_QUEUE] s s1 :=
      .ite (((s.latch_regsBut R.TRK_CAUSE 0).mono (by simp)).trans (hcount _ _)) (.refl _ s)
    have h2 : RegsBut [R.TRK_SUPPRESSED, R.TRK_CAUSE, R.TRK_QUEUE] s1 s2 := .ite (hcount s1 1) (.refl _ s1)
    have h3 : RegsBut [R.TRK_SUPPRESSED, R.TRK_CAUSE, R.TRK_QUEUE] s2 s3 := .of_regs rfl
    have hqueue (v : Nat) : RegsBut [R.TRK_SUPPRESSED, R.TRK_CAUSE, R.TRK_QUEUE] s3 (s3.setRf R.TRK_QUEUE 26 16 v) :=
      (s3.setRf_regsBut _ _ _ v).mono (by simp)
    exact h1.trans (h2.trans (h3.trans ((hqueue _).trans fun k _ => State.reg_noteLt _ _ k _)))

/-- A transfer sets its cause (R238, R247). -/
theorem State.rb_transferred (s : State) (gfm : Bool) : (s.transferred gfm).rb R.GRD_CAUSE 7 = true := by
  unfold State.transferred
  extract_lets named s1
  rw [State.rb, State.binLog_regsBut _ _ _ _ (by decide)]
  exact s1.rb_latch _ _ (by decide)

theorem State.transferred_grd (s : State) (gfm : Bool) : (s.transferred gfm).grd = s.grd := keep_grd (by simp)

/-- The result of an action leaves the causes that are set. -/
theorem State.rb_grdResult_keeps {s : State} {b : Nat} (r : Nat) (h : s.rb R.GRD_CAUSE b = true) : (s.grdResult r).rb R.GRD_CAUSE b = true := by
  have hset : (s.setRf R.GRD_ACTION_STAT 2 0 r).rb R.GRD_CAUSE b = true := by
    rw [State.rb, s.setRf_regsBut _ _ _ _ _ (by decide)]
    exact h
  unfold State.grdResult
  split
  · exact hset
  · exact State.rb_latch_keeps _ _ _ _ _ (by decide) hset

/-- The angle in force in grid-following is the PLL's (R220). -/
theorem State.phi_following {s : State} (h : s.grd.gfm = false) : s.phi = s.grd.phiPll := by rw [State.phi, h, if_neg Bool.false_ne_true]

/-- The Grid Engine after the transfer to grid-following (R233, R237). -/
def GrdSt.following (g : GrdSt) : GrdSt := { g with gfm := false, act := none, fRs := 0, resync := false, islanded := false, islBy := 0 }

theorem exec_gflTransfer {s : State} (hact : s.grd.act = some .toGfl) (hgfm : s.grd.gfm = true) (hready : s.grd.resync = true)
    (hfrt : s.grd.frt = .normal) :
    exec .gflTransfer s = .next (((s.withGrd s.grd.following).transferred false).grdResult 2).grdRaise :=
  if_pos ⟨hact, hgfm, hready, hfrt⟩

/-- Settles O24: an accepted action is one change of the Grid Engine with its result, a refused one is its result alone, and the transfer is
the change to grid-following with its result. -/
theorem gridFormingActions : Obligations.GridFormingActions := by
  refine ⟨fun r s hmay hact hgfm hrun => ?toGfm, fun r s hmay hact hgfm => ?toGfl, fun r s hmay hact => ?cancel,
    fun r s hmay hact hgfm => ?clear, fun r c s hmay h => ?refused, fun s hact hgfm hready hfrt => ?transfer⟩
  case toGfm =>
    exact ⟨_, (exec_toGfm hmay).trans (congrArg _ (State.toGfm_accepted hact hgfm hrun)), State.grdResult_grd _ 1,
      State.rf_grdResult _ (by decide), s.waits_regsBut 1 _, by simp⟩
  case toGfl =>
    exact ⟨_, (exec_toGfl hmay).trans (congrArg _ (State.toGfl_accepted hact hgfm)), State.grdResult_grd _ 1,
      State.rf_grdResult _ (by decide), s.waits_regsBut 2 _, by simp⟩
  case cancel =>
    exact ⟨_, (exec_cancel hmay).trans (congrArg _ (State.grdCancel_pending hact)), State.grdResult_grd _ 4,
      State.rf_grdResult _ (by decide), State.rb_grdResult_cause _ (by decide), s.acted_regsBut 3 4 _, by simp⟩
  case clear =>
    exact ⟨_, (exec_clearIsland hmay).trans (congrArg _ (State.clearIsland_accepted hact hgfm)),
      s.done_keeps 4 { s.grd with islanded := false, islBy := 0 } _ rfl⟩
  case refused =>
    obtain ⟨code, hexec⟩ := State.RefusesGrd.exec h hmay
    exact ⟨_, hexec, (State.grdResult_grd _ 3).trans (s.grdArgs_grd code), State.rf_grdResult _ (by decide),
      State.rb_grdResult_cause _ (by decide), ((s.grdArgs_regsBut code).mono (by simp)).trans
        ((State.grdResult_regsBut _ 3).mono (by simp)), by simp⟩
  case transfer =>
    have hgrd := State.grdRaise_grd_of ((State.grdResult_grd _ 2).trans ((s.withGrd s.grd.following).transferred_grd false))
    have hphi := (State.phi_following (congrArg GrdSt.gfm hgrd)).trans (congrArg GrdSt.phiPll hgrd)
    exact ⟨_, exec_gflTransfer hact hgfm hready hfrt, hgrd, hphi,
      (State.rf_grdRaise _ 2 0 (by decide)).trans (State.rf_grdResult _ (by decide)),
      State.rb_grdRaise_keeps (State.rb_grdResult_keeps 2 (State.rb_transferred _ false)),
      State.rb_grdRaise_keeps (State.rb_grdResult_cause _ (by decide)), by simp⟩

end Sys2Proof.Machine
end

section
/-! PROOFS. Force entries (O27): what the changes of the Edge Planner's units leave of the other units, the check of a profile, the result that
decides a SET, and the release of the entries. -/

namespace Sys2Proof.Machine

/-! Units of the Edge Planner. -/

theorem State.eunit_updProf (s : State) (h g : Nat) (f : ProfSt → ProfSt) :
    (s.updProf h f).eunit g = if g = h then { s.eunit h with prof := f (s.eunit h).prof } else s.eunit g := s.eunit_updEunit h g _

theorem State.eunit_forceRelease (s : State) (h g : Nat) :
    (s.forceRelease h).eunit g = if g = h then { s.eunit h with force := 0 } else s.eunit g := s.eunit_updEunit h g _

/-! The check of a profile. -/

/-- The check of profile i of bank b is asked of unit h, on its lane (R272). -/
def State.checkAsked (s : State) (h : Nat) (b : Bool) (i : Nat) : State :=
  (s.updProf h fun p => { p with asked := true }).svcAsk (s.servedOn h) (.profileCheck h (b2n b * 16 + i)) (s.positionOf h) 0x07 (b2n b * 16 + i)

theorem exec_profileLoad_check {h i : Nat} {b : Bool} {rest : List ProfItem} {s : State} (hholds : s.holdsProfiles h = true)
    (hhold : (s.unit h).hasHold = true) (hbegun : (s.eunit h).prof.begun = true) (htodo : (s.eunit h).prof.todo = .check b i :: rest)
    (hasked : (s.eunit h).prof.asked = false) : exec (.profileLoad h) s = .next (s.checkAsked h b i) := by
  show execProfileLoad h s = _
  simp [execProfileLoad, hholds, hhold, hbegun, htodo, hasked, State.checkAsked]

/-! SET. -/

/-- The state with the arguments of a force command set in EDG_FORCE (R490). -/
def State.forceArgs (s : State) (b : Nat) (fs : List (Nat × Nat × Nat)) : State := s.setArgs R.EDG_FORCE (s.actWord R.EDG_FORCE b fs)

theorem State.forceArgs_regsBut (s : State) (b : Nat) (fs : List (Nat × Nat × Nat)) : RegsBut [R.EDG_FORCE] s (s.forceArgs b fs) :=
  s.setArgs_regsBut _ _

@[simp] theorem State.forceArgs_frame {W : List Part} {r s : State} (b : Nat) (fs : List (Nat × Nat × Nat)) (hW : [.regs] ⊆ W) :
    Frame W r (s.forceArgs b fs) ↔ Frame W r s := State.setArgs_frame _ _ hW

/-- Fields below a bit leave it. -/
theorem flag_foldl_setFld {fs : List (Nat × Nat × Nat)} {b : Nat} (w : Word) (hb : b < 32) (hfs : ∀ f ∈ fs, f.1 < b) :
    flag (fs.foldl (fun w f => setFld w f.1 f.2.1 f.2.2) w) b = flag w b := by
  induction fs generalizing w with
  | nil => rfl
  | cons f fs ih =>
    have hf : f.1 < b := hfs f List.mem_cons_self
    rw [List.foldl_cons, ih _ fun g hg => hfs g (List.mem_cons_of_mem f hg), flag_setFld_ne _ _ _ _ _ (by omega) (.inr hf)]

/-- Of the action bits of a register the word of an action has its own set and no other (R490). -/
theorem State.flag_actWord (s : State) {off b b' : Nat} {fs : List (Nat × Nat × Nat)} (hb : b < 32) (hb' : b' < 32)
    (haction : (writeMask off).getLsbD b' = false) (hfs : ∀ f ∈ fs, f.1 < b') : flag (s.actWord off b fs) b' = decide (b' = b) := by
  rw [State.actWord, flag_foldl_setFld _ hb' hfs, setFlag]
  by_cases h : b' = b
  · subst h
    rw [flag_setFld_same _ _ _ hb']
    simp [b2n]
  · rw [flag_setFld_ne _ _ _ _ _ hb (by omega), flag, BitVec.getLsbD_and, haction]
    simp [h]

/-- The word of an action names the home address of its unit. -/
theorem State.fld_actWord_home (s : State) (off b : Nat) (fs : List (Nat × Nat × Nat)) {h : Nat} (hh : h < 4096) :
    fld (s.actWord off b (fs ++ [(11, 0, h)])) 11 0 = h := by
  rw [State.actWord, List.foldl_append]
  exact (fld_setFld_same _ 11 0 h (by decide)).trans (Nat.mod_eq_of_lt hh)

/-- The bits 29 to 31 of EDG_FORCE are its actions (R283). -/
theorem writeMask_edgForce_actions : ∀ b ∈ [29, 30, 31], (writeMask R.EDG_FORCE).getLsbD b = false := by decide +kernel

theorem State.flag_forceWord (s : State) {b b' : Nat} {fs : List (Nat × Nat × Nat)} (hb : b < 32) (hb' : b' ∈ [29, 30, 31])
    (hfs : ∀ f ∈ fs, f.1 < 29) : flag (s.actWord R.EDG_FORCE b fs) b' = decide (b' = b) := by
  obtain ⟨hlow, hhigh⟩ : 29 ≤ b' ∧ b' < 32 := by
    simp only [List.mem_cons, List.not_mem_nil, or_false] at hb'
    omega
  exact s.flag_actWord hb hhigh (writeMask_edgForce_actions b' hb') fun f hf => (hfs f hf).trans_le hlow

/-- The effect of a write w of EDG_FORCE: that of the highest action bit which is 1 (R276, R277). -/
def State.forceEffect (s : State) (w : Word) : State :=
  if flag w 31 then s.forceSet (fld w 11 0) (fld w 17 16)
  else if flag w 30 then (s.forceRelease (fld w 11 0)).forceResult 5
  else if flag w 29 then s.releaseAll.forceResult 5 else s

/-- A force command of a requester that may write EDG_FORCE sets its arguments, and acts (R394, R490). -/
theorem State.runAction_edgForce {s : State} {r : Requester} (b : Nat) (fs : List (Nat × Nat × Nat)) (hmay : s.mayWrite r R.EDG_FORCE = true) :
    s.runAction r R.EDG_FORCE (s.actWord R.EDG_FORCE b fs) = (s.forceArgs b fs).forceEffect (s.actWord R.EDG_FORCE b fs) := by
  have hmay' : (s.forceArgs b fs).mayWrite r R.EDG_FORCE = true :=
    (State.mayWrite_congr r (fun _ => rfl) (s.forceArgs_regsBut b fs (R.HAT_OWN 7) (by decide))).trans hmay
  have haction : (s.forceArgs b fs).actionEffect r R.EDG_FORCE (s.actWord R.EDG_FORCE b fs) =
      (s.forceArgs b fs).asOwner r R.EDG_FORCE (·.forceEffect (s.actWord R.EDG_FORCE b fs)) := rfl
  rw [State.runAction_owned _ (by decide) hmay]
  exact haction.trans (State.asOwner_eq hmay' _)

/-- The fields of a SET: the code of its entry and the unit. -/
def setFields (h code : Nat) : List (Nat × Nat × Nat) := [(17, 16, code), (11, 0, h)]

theorem exec_forceSet {r : Requester} {h code : Nat} {s : State} (hh : h < 4096) (hcode : code < 4) (hmay : s.mayWrite r R.EDG_FORCE = true) :
    exec (.forceSet r h code) s = .next ((s.forceArgs 31 (setFields h code)).forceSet h code) := by
  have hset : flag (s.actWord R.EDG_FORCE 31 (setFields h code)) 31 = true :=
    s.flag_forceWord (by decide) (by decide) (by simp [setFields])
  have hhome : fld (s.actWord R.EDG_FORCE 31 (setFields h code)) 11 0 = h := s.fld_actWord_home R.EDG_FORCE 31 [(17, 16, code)] hh
  have hfld : fld (s.actWord R.EDG_FORCE 31 (setFields h code)) 17 16 = code := by
    simp only [State.actWord, setFields, List.foldl_cons, List.foldl_nil]
    rw [fld_setFld_ne _ _ _ _ _ _ (by decide) (by decide), fld_setFld_same _ _ _ _ (by decide)]
    exact Nat.mod_eq_of_lt hcode
  show Host.Outcome.next (s.runAction r R.EDG_FORCE (s.actWord R.EDG_FORCE 31 (setFields h code))) = _
  rw [State.runAction_edgForce _ _ hmay, State.forceEffect, if_pos hset, hhome, hfld]

theorem exec_forceRelease {r : Requester} {h : Nat} {s : State} (hh : h < 4096) (hmay : s.mayWrite r R.EDG_FORCE = true) :
    exec (.forceRelease r h) s = .next (((s.forceArgs 30 [(11, 0, h)]).forceRelease h).forceResult 5) := by
  have hflag {b : Nat} (hb : b ∈ [29, 30, 31]) := s.flag_forceWord (b := 30) (fs := [(11, 0, h)]) (by decide) hb (by simp)
  have hhome : fld (s.actWord R.EDG_FORCE 30 [(11, 0, h)]) 11 0 = h := s.fld_actWord_home R.EDG_FORCE 30 [] hh
  show Host.Outcome.next (s.runAction _ _ _) = _
  rw [State.runAction_edgForce _ _ hmay, State.forceEffect, if_neg (by simp [hflag]), if_pos (by simp [hflag]), hhome]

theorem exec_forceReleaseAll {r : Requester} {s : State} (hmay : s.mayWrite r R.EDG_FORCE = true) :
    exec (.forceReleaseAll r) s = .next ((s.forceArgs 29 []).releaseAll.forceResult 5) := by
  have hflag {b : Nat} (hb : b ∈ [29, 30, 31]) := s.flag_forceWord (b := 29) (fs := []) (by decide) hb (by simp)
  show Host.Outcome.next (s.runAction _ _ _) = _
  rw [State.runAction_edgForce _ _ hmay, State.forceEffect, if_neg (by simp [hflag]), if_neg (by simp [hflag]), if_pos (by simp [hflag])]

/-- The result of a SET (R276). -/
def State.setCode (s : State) (h code : Nat) : Nat :=
  if (s.sys.conv = .run ∧ !s.commission) ∨ code = 0 ∨ (code = 2 ∧ s.classType (mapClass (s.mapEntry h)) = 3) then 2
  else if ((s.unit h).status ≠ .present ∧ (s.unit h).status ≠ .unobserved) ∨ s.bypassing h = true then 3
  else if 64 ≤ s.forces.length ∧ (s.eunit h).force = 0 then 4
  else 1

/-- The state after a SET that is accepted: the entry, its result and the epoch from which it holds (R276). -/
def State.forceTaken (s : State) (h code : Nat) : State :=
  ((s.updEunit h fun u => { u with force := code }).forceResult 1).setRf R.EDG_FORCE_STAT 31 16
    ((s.sys.epoch.toNat + 1 + s.orderLead h) % 2 ^ 16)

theorem State.forceSet_eq (s : State) (h code : Nat) :
    s.forceSet h code = if s.setCode h code = 1 then s.forceTaken h code else s.forceResult (s.setCode h code) := by
  unfold State.setCode State.forceSet
  dsimp only
  split
  · rfl
  · split
    · rfl
    · split <;> rfl

/-- The result of a SET rests on nothing that EDG_FORCE holds. -/
theorem State.setCode_forceArgs (s : State) (b : Nat) (fs : List (Nat × Nat × Nat)) (h code : Nat) :
    (s.forceArgs b fs).setCode h code = s.setCode h code := by
  have hcommission : (s.forceArgs b fs).commission = s.commission := congrArg (flag · 0) (s.forceArgs_regsBut b fs _ (by decide))
  have hclass : (s.forceArgs b fs).classType (mapClass (s.mapEntry h)) = s.classType (mapClass (s.mapEntry h)) :=
    congrArg (fld · 1 0) (s.forceArgs_regsBut b fs _ (by
      have hlt : mapClass (s.mapEntry h) < 16 := Nat.mod_lt _ (by decide)
      simp only [R.SYS_CLASS_TYPE, R.EDG_FORCE, List.mem_singleton]
      omega))
  have hmap : (s.forceArgs b fs).mapEntry h = s.mapEntry h := rfl
  unfold State.setCode
  rw [hcommission, hmap, hclass]
  rfl

/-- A unit that SET can force: PRESENT or UNOBSERVED, and not being bypassed (R276). -/
theorem State.not_unforceable {s : State} {h : Nat} (hst : (s.unit h).status = .present ∨ (s.unit h).status = .unobserved)
    (hbyp : s.bypassing h = false) :
    ¬ (((s.unit h).status ≠ .present ∧ (s.unit h).status ≠ .unobserved) ∨ s.bypassing h = true) := by
  rintro (⟨hpresent, hunobserved⟩ | htrue)
  · exact hst.elim hpresent hunobserved
  · exact Bool.noConfusion (hbyp.symm.trans htrue)

/-- SET is permitted where it is not in RUN without commissioning mode, and its code is one that the unit can be forced to (R276). -/
theorem State.setCode_permitted {s : State} {h code : Nat} (hrun : ¬ (s.sys.conv = .run ∧ s.commission = false)) (hcode : code ≠ 0)
    (htype : code = 2 → s.classType (mapClass (s.mapEntry h)) ≠ 3) : s.setCode h code =
    if ((s.unit h).status ≠ .present ∧ (s.unit h).status ≠ .unobserved) ∨ s.bypassing h = true then 3
    else if 64 ≤ s.forces.length ∧ (s.eunit h).force = 0 then 4 else 1 :=
  if_neg fun hbad => by
    rcases hbad with ⟨hconv, hcomm⟩ | hzero | ⟨htwo, hchop⟩
    · exact hrun ⟨hconv, by simpa using hcomm⟩
    · exact hcode hzero
    · exact htype htwo hchop

theorem State.forceResult_regsBut (s : State) (k : Nat) : RegsBut [R.EDG_FORCE_STAT] s (s.forceResult k) := s.setRf_regsBut _ _ _ _

theorem State.rf_forceResult (s : State) {k : Nat} (hk : k < 8) : (s.forceResult k).rf R.EDG_FORCE_STAT 2 0 = k :=
  (s.rf_setRf _ 2 0 k (by decide)).trans (Nat.mod_eq_of_lt hk)

/-- A SET that is refused shows its result, and enters nothing (R276). -/
theorem exec_forceSet_refused {r : Requester} {h code k : Nat} {s : State} (hh : h < 4096) (hcode : code < 4)
    (hmay : s.mayWrite r R.EDG_FORCE = true) (hresult : s.setCode h code = k) (hk : k < 8) (hrefused : k ≠ 1) :
    ∃ t, exec (.forceSet r h code) s = .next t ∧ t.rf R.EDG_FORCE_STAT 2 0 = k ∧ RegsBut [R.EDG_FORCE, R.EDG_FORCE_STAT] s t ∧
      Frame [.regs] s t := by
  refine ⟨(s.forceArgs 31 (setFields h code)).forceResult k, ?_, State.rf_forceResult _ hk,
    (s.forceArgs_regsBut _ _).pair (State.forceResult_regsBut _ k), by simp⟩
  rw [exec_forceSet hh hcode hmay, State.forceSet_eq, State.setCode_forceArgs, hresult, if_neg hrefused]

/-- A SET that is accepted enters its code for its unit alone, and shows its result (R276). -/
theorem State.forceTaken_keeps (s : State) (h code : Nat) :
    (s.forceTaken h code).eunit h = { s.eunit h with force := code } ∧ (∀ g, g ≠ h → (s.forceTaken h code).eunit g = s.eunit g) ∧
      (s.forceTaken h code).rf R.EDG_FORCE_STAT 2 0 = 1 ∧
      (s.forceTaken h code).rf R.EDG_FORCE_STAT 31 16 = (s.sys.epoch.toNat + 1 + s.orderLead h) % 2 ^ 16 ∧
      RegsBut [R.EDG_FORCE_STAT] s (s.forceTaken h code) := by
  refine ⟨(s.eunit_updEunit h h _).trans (if_pos rfl), fun g hg => (s.eunit_updEunit h g _).trans (if_neg hg), ?_, ?_,
    (RegsBut.of_regs rfl).trans ((State.forceResult_regsBut (s.updEunit h _) 1).trans (State.setRf_regsBut _ _ _ _ _))⟩
  · rw [State.forceTaken, State.rf_setRf_ne _ _ (by decide) (.inr (.inr (by decide))), State.rf_forceResult _ (by decide)]
  · exact (State.rf_setRf _ _ 31 16 _ (by decide)).trans (Nat.mod_mod _ _)

@[simp] theorem State.forceTaken_frame {W : List Part} {r s : State} (h code : Nat) (hW : [.regs, .edg] ⊆ W) :
    Frame W r (s.forceTaken h code) ↔ Frame W r s :=
  Frame.iff_of (V := [.regs, .edg]) (by simp [State.forceTaken]) hW

/-! The release of the entries. -/

theorem mem_of_smFind {A : Type} {m : SMap A} {k : Nat} {v : A} (h : smFind m k = some v) : (k, v) ∈ m := by
  induction m with
  | nil => nomatch h
  | cons p m ih =>
    obtain ⟨a, b⟩ := p
    rw [smFind] at h
    split at h
    · next hk =>
      cases h
      exact hk ▸ List.mem_cons_self
    · exact List.mem_cons_of_mem _ (ih h)

/-- A unit with a force entry is one of those that RELEASE_ALL releases. -/
theorem State.mem_forces {s : State} {h : Nat} (hforce : (s.eunit h).force ≠ 0) : h ∈ s.forces := by
  cases hfind : smFind s.edg.units h with
  | none => exact absurd (by rw [State.eunit, smGet, hfind]; rfl) hforce
  | some u =>
    have hu : s.eunit h = u := by rw [State.eunit, smGet, hfind]; rfl
    exact List.mem_map.mpr ⟨(h, u), List.mem_filter.mpr ⟨mem_of_smFind hfind, by simpa [← hu] using hforce⟩, rfl⟩

theorem State.eunit_foldl_forceRelease (hs : List Nat) (s : State) (h : Nat) :
    (hs.foldl State.forceRelease s).eunit h = if h ∈ hs then { s.eunit h with force := 0 } else s.eunit h := by
  induction hs generalizing s with
  | nil => simp
  | cons a hs ih =>
    rw [List.foldl_cons, ih, State.eunit_forceRelease]
    by_cases ha : h = a
    · subst ha
      simp
    · simp [ha]

theorem State.eunit_releaseAll (s : State) (h : Nat) : s.releaseAll.eunit h = { s.eunit h with force := 0 } := by
  rw [State.releaseAll, State.eunit_foldl_forceRelease]
  split
  · rfl
  · next hfree =>
    have hnone : (s.eunit h).force = 0 := not_not.mp fun hforce => hfree (State.mem_forces hforce)
    rw [← hnone]

theorem State.releaseAll_regs (s : State) : s.releaseAll.regs = s.regs := keep_regs (by simp)

/-- Settles O27: the check is a service request on the unit's lane; a SET is decided by its result, and enters its code or shows why not; a
release sets the entries to 0. -/
theorem profilesAndForces : Obligations.ProfilesAndForces := by
  refine ⟨fun h i b rest s hholds hhold hbegun htodo hasked => ?check, fun r h code s hh hcode hmay hrun hzero htype hst hbyp hroom => ?taken,
    fun r h code s hh hcode hmay hbad => ?forbidden, fun r h code k s hh hcode hmay hrun hzero htype hk => ?refused,
    fun r h s hh hmay => ?release, fun r s hmay => ?releaseAll⟩
  case check =>
    have hunit (g : Nat) : (s.checkAsked h b i).eunit g = _ := s.eunit_updProf h g fun p => { p with asked := true }
    refine ⟨_, exec_profileLoad_check hholds hhold hbegun htodo hasked, ?_, ⟨_, State.mem_svcAsk _ _ _ _ _ _, rfl, rfl, rfl⟩, fun g hg => ?_,
      fun m hm => State.lane_svcAsk_ne _ _ _ _ _ hm, by simp [State.checkAsked]⟩
    · rw [hunit, if_pos rfl]
    · rw [hunit, if_neg hg]
  case taken =>
    have hresult : s.setCode h code = 1 := by
      rw [State.setCode_permitted hrun hzero htype, if_neg (State.not_unforceable hst hbyp), if_neg (by omega)]
    have hexec : exec (.forceSet r h code) s = .next ((s.forceArgs 31 (setFields h code)).forceTaken h code) := by
      rw [exec_forceSet hh hcode hmay, State.forceSet_eq, State.setCode_forceArgs, hresult, if_pos rfl]
    obtain ⟨hentry, hother, hstat, hfrom, hregs⟩ := (s.forceArgs 31 (setFields h code)).forceTaken_keeps h code
    exact ⟨_, hexec, hentry, hother, hstat, hfrom, (s.forceArgs_regsBut _ _).pair hregs, by simp⟩
  case forbidden =>
    exact exec_forceSet_refused hh hcode hmay (if_pos (by simpa [or_assoc] using hbad)) (by decide) (by decide)
  case refused =>
    have hpermitted := State.setCode_permitted hrun hzero htype
    rcases hk with ⟨rfl, hserved⟩ | ⟨rfl, hst, hbyp, hfull, hnew⟩
    · exact exec_forceSet_refused hh hcode hmay (hpermitted.trans (if_pos hserved)) (by decide) (by decide)
    · refine exec_forceSet_refused hh hcode hmay (hpermitted.trans ?_) (by decide) (by decide)
      rw [if_neg (State.not_unforceable hst hbyp), if_pos ⟨hfull, hnew⟩]
  case release =>
    have hunit (g : Nat) : (((s.forceArgs 30 [(11, 0, h)]).forceRelease h).forceResult 5).eunit g = _ := s.eunit_forceRelease h g
    refine ⟨_, exec_forceRelease hh hmay, ?_, fun g hg => ?_, State.rf_forceResult _ (by decide), ?_, by simp⟩
    · rw [hunit, if_pos rfl]
    · rw [hunit, if_neg hg]
    · exact (s.forceArgs_regsBut _ _).pair ((RegsBut.of_regs rfl).trans (State.forceResult_regsBut ((s.forceArgs _ _).forceRelease h) 5))
  case releaseAll =>
    exact ⟨_, exec_forceReleaseAll hmay, (s.forceArgs 29 []).eunit_releaseAll, State.rf_forceResult _ (by decide),
      (s.forceArgs_regsBut _ _).pair ((RegsBut.of_regs (State.releaseAll_regs _)).trans (State.forceResult_regsBut _ 5)), by simp⟩

end Sys2Proof.Machine
end

section
/-! PROOFS. Bypass sequences (O28): the result that decides a GO, the start of a sequence, its FIRE, its missing confirmation, and the orders
that are sent again to a LOST unit. -/

namespace Sys2Proof.Machine

/-! GO. -/

/-- The state with the unit of a GO set in EDG_BYPASS (R490). -/
def State.bypassArgs (s : State) (h : Nat) : State := s.setArgs R.EDG_BYPASS (s.actWord R.EDG_BYPASS 31 [(11, 0, h)])

theorem State.bypassArgs_regsBut (s : State) (h : Nat) : RegsBut [R.EDG_BYPASS] s (s.bypassArgs h) := s.setArgs_regsBut _ _

@[simp] theorem State.bypassArgs_frame {W : List Part} {r s : State} (h : Nat) (hW : [.regs] ⊆ W) :
    Frame W r (s.bypassArgs h) ↔ Frame W r s := State.setArgs_frame _ _ hW

theorem exec_bypassGo {r : Requester} {h : Nat} {s : State} (hh : h < 4096) (hmay : s.mayWrite r R.EDG_BYPASS = true) :
    exec (.bypassGo r h) s = .next ((s.bypassArgs h).bypassGo h) := by
  have hhome : fld (s.actWord R.EDG_BYPASS 31 [(11, 0, h)]) 11 0 = h := s.fld_actWord_home R.EDG_BYPASS 31 [] hh
  have heffect (t : State) (w : Word) : t.actionEffect r R.EDG_BYPASS w = t.bypassGo (fld w 11 0) := rfl
  show Host.Outcome.next (s.runAction r R.EDG_BYPASS (s.actWord R.EDG_BYPASS 31 [(11, 0, h)])) = _
  rw [State.runAction_owned _ (by decide) hmay, heffect, hhome]
  rfl

/-- The newest record of unit h says that its bypass switch has fired (R278, R279). -/
def State.hasFired (s : State) (h : Nat) : Bool := match s.entry h with | some e => e.state = 3 | none => false

theorem State.not_hasFired {s : State} {h : Nat} (hentry : ∀ e ∈ s.entry h, e.state ≠ 3) : s.hasFired h = false := by
  unfold State.hasFired
  cases hfind : s.entry h with
  | none => rfl
  | some e => exact decide_eq_false (hentry e hfind)

/-- A unit that has fired is not healthy: its record is in none of the states 0 to 2 (R30). -/
theorem State.not_hasFired_of_healthy {s : State} {h : Nat} (hhealthy : s.healthy h = true) : s.hasFired h = false := by
  refine State.not_hasFired fun e he hfired => ?_
  rw [Option.mem_def] at he
  simp [State.healthy, he, hfired] at hhealthy

/-- A healthy unit is PRESENT (R30). -/
theorem State.present_of_healthy {s : State} {h : Nat} (hhealthy : s.healthy h = true) : (s.unit h).status = .present := by
  simp only [State.healthy, Bool.and_eq_true, decide_eq_true_eq] at hhealthy
  obtain ⟨⟨hpresent, -⟩, -⟩ := hhealthy
  exact hpresent

/-- The result of a GO (R278). -/
def State.goCode (s : State) (h : Nat) : Nat :=
  if ((s.unit h).status ≠ .present ∧ (s.unit h).status ≠ .unobserved ∧ (s.unit h).status ≠ .lost) ∨ s.hasFired h = true ∨
    s.bypassing h = true then 2
  else if (s.unit h).status = .present ∧ s.healthy h = true ∧
    s.healthyCount (mapGroup (s.mapEntry h)) < s.nReq (mapGroup (s.mapEntry h)) + 1 then 3
  else 1

theorem State.bypassGo_eq (s : State) (h : Nat) :
    s.bypassGo h = (if s.goCode h = 1 then s.bypStart h else s).setRf R.EDG_BYPASS_STAT 2 0 (s.goCode h) := by
  have hmodel : s.bypassGo h =
      if ((s.unit h).status ≠ .present ∧ (s.unit h).status ≠ .unobserved ∧ (s.unit h).status ≠ .lost) ∨ s.hasFired h = true ∨
        s.bypassing h = true then s.setRf R.EDG_BYPASS_STAT 2 0 2
      else if (s.unit h).status = .present ∧ s.healthy h = true ∧
        s.healthyCount (mapGroup (s.mapEntry h)) < s.nReq (mapGroup (s.mapEntry h)) + 1 then s.setRf R.EDG_BYPASS_STAT 2 0 3
      else (s.bypStart h).setRf R.EDG_BYPASS_STAT 2 0 1 := rfl
  rw [hmodel, State.goCode]
  split
  · rfl
  · split <;> rfl

/-- Which units are healthy rests on nothing that EDG_BYPASS holds (R30). -/
theorem State.healthy_bypassArgs (s : State) (h : Nat) : (s.bypassArgs h).healthy = s.healthy := by
  have hclass (k : Nat) : (s.bypassArgs h).srcClass k = s.srcClass k := by
    have hreg : (s.bypassArgs h).reg (R.PRT_SRC_CFG k) = s.reg (R.PRT_SRC_CFG k) :=
      s.bypassArgs_regsBut h _ (by simp only [R.PRT_SRC_CFG, R.EDG_BYPASS, List.mem_singleton]; omega)
    unfold State.srcClass State.rf
    rw [hreg]
    rfl
  have hflags : (s.bypassArgs h).badFlags = s.badFlags := by
    funext e
    simp only [State.badFlags, hclass]
  funext g
  unfold State.healthy
  rw [hflags]
  rfl

/-- The result of a GO rests on nothing that EDG_BYPASS holds. -/
theorem State.goCode_bypassArgs (s : State) (h : Nat) : (s.bypassArgs h).goCode h = s.goCode h := by
  have hreq : (s.bypassArgs h).nReq (mapGroup (s.mapEntry h)) = s.nReq (mapGroup (s.mapEntry h)) := by
    have hlt : mapGroup (s.mapEntry h) < 16 := Nat.mod_lt _ (by decide)
    have hreg := s.bypassArgs_regsBut h (R.SYS_ARM_CFG (mapGroup (s.mapEntry h)))
      (by simp only [R.SYS_ARM_CFG, R.EDG_BYPASS, List.mem_singleton]; omega)
    unfold State.nReq State.rf
    rw [hreg]
  have hmap : (s.bypassArgs h).mapEntry h = s.mapEntry h := rfl
  have hcount : (s.bypassArgs h).healthyCount (mapGroup (s.mapEntry h)) = s.healthyCount (mapGroup (s.mapEntry h)) := by
    unfold State.healthyCount
    rw [State.healthy_bypassArgs]
    rfl
  unfold State.goCode
  rw [hmap, hreq, hcount, State.healthy_bypassArgs]
  rfl

/-- A GO shows its result, and starts a sequence where that is 1 (R278). -/
theorem exec_bypassGo_code {r : Requester} {h k : Nat} {s : State} (hh : h < 4096) (hmay : s.mayWrite r R.EDG_BYPASS = true)
    (hresult : s.goCode h = k) : exec (.bypassGo r h) s =
      .next ((if k = 1 then (s.bypassArgs h).bypStart h else s.bypassArgs h).setRf R.EDG_BYPASS_STAT 2 0 k) := by
  rw [exec_bypassGo hh hmay, State.bypassGo_eq, State.goCode_bypassArgs, hresult]

theorem State.rf_bypassStat (s : State) {k : Nat} (hk : k < 8) : (s.setRf R.EDG_BYPASS_STAT 2 0 k).rf R.EDG_BYPASS_STAT 2 0 = k :=
  (s.rf_setRf _ 2 0 k (by decide)).trans (Nat.mod_eq_of_lt hk)

/-! The start of a sequence. -/

theorem State.eunit_updByp (s : State) (h g : Nat) (f : BypSt → BypSt) :
    (s.updByp h f).eunit g = if g = h then { s.eunit h with byp := f (s.eunit h).byp } else s.eunit g := s.eunit_updEunit h g _

/-- The bypass sequence of a unit at its start: with ARM for a LOST unit, to which the orders are sent again (R279, R280). -/
def bypBegun (st : UStat) (e : Epoch) : BypSt := if st = .lost then { step := 2, retryAt := some e } else { step := 1 }

/-- A sequence that is not in progress or done starts, the force entry of its unit released (R278). -/
theorem State.eunit_bypStart {s : State} {h : Nat} (hidle : (s.eunit h).byp.step = 0 ∨ 6 ≤ (s.eunit h).byp.step) (g : Nat) :
    (s.bypStart h).eunit g = if g = h then { s.eunit h with force := 0, byp := bypBegun (s.unit h).status s.sys.epoch } else s.eunit g := by
  have hbyp : ({ step := if (s.unit h).status = .lost then 2 else 1
                 retryAt := if (s.unit h).status = .lost then some s.sys.epoch else none } : BypSt) = bypBegun (s.unit h).status s.sys.epoch := by
    unfold bypBegun
    split <;> rfl
  rw [State.bypStart, if_neg (by omega), State.eunit_updByp, State.eunit_forceRelease, State.eunit_forceRelease, if_pos rfl]
  split
  · rw [← hbyp]
  · rfl

theorem State.bypStart_regs (s : State) (h : Nat) : (s.bypStart h).regs = s.regs := keep_regs (by simp)

/-- A GO that is accepted starts the sequence of its unit alone, and shows its result (R278). -/
theorem exec_bypassGo_accepted {r : Requester} {h : Nat} {s : State} (hh : h < 4096) (hmay : s.mayWrite r R.EDG_BYPASS = true)
    (hresult : s.goCode h = 1) (hidle : (s.eunit h).byp.step = 0 ∨ 6 ≤ (s.eunit h).byp.step) :
    ∃ t, exec (.bypassGo r h) s = .next t ∧ t.rf R.EDG_BYPASS_STAT 2 0 = 1 ∧
      t.eunit h = { s.eunit h with force := 0, byp := bypBegun (s.unit h).status s.sys.epoch } ∧ (∀ g, g ≠ h → t.eunit g = s.eunit g) ∧
      RegsBut [R.EDG_BYPASS, R.EDG_BYPASS_STAT] s t ∧ Frame [.regs, .edg] s t := by
  have hunit (g : Nat) : (((s.bypassArgs h).bypStart h).setRf R.EDG_BYPASS_STAT 2 0 1).eunit g = _ :=
    State.eunit_bypStart (s := s.bypassArgs h) hidle g
  refine ⟨_, exec_bypassGo_code hh hmay hresult, State.rf_bypassStat _ (by decide), ?_, fun g hg => ?_, ?_, by simp⟩
  · rw [if_pos rfl, hunit, if_pos rfl]
    rfl
  · rw [if_pos rfl, hunit, if_neg hg]
    rfl
  · exact (s.bypassArgs_regsBut h).pair ((RegsBut.of_regs (State.bypStart_regs _ h)).trans (State.setRf_regsBut _ _ _ _ _))

/-- A GO that is refused shows its result, and starts nothing (R278). -/
theorem exec_bypassGo_refused {r : Requester} {h k : Nat} {s : State} (hh : h < 4096) (hmay : s.mayWrite r R.EDG_BYPASS = true)
    (hresult : s.goCode h = k) (hk : k < 8) (hrefused : k ≠ 1) :
    ∃ t, exec (.bypassGo r h) s = .next t ∧ t.rf R.EDG_BYPASS_STAT 2 0 = k ∧ RegsBut [R.EDG_BYPASS, R.EDG_BYPASS_STAT] s t ∧
      Frame [.regs] s t :=
  ⟨_, (exec_bypassGo_code hh hmay hresult).trans (by rw [if_neg hrefused]), State.rf_bypassStat _ hk,
    (s.bypassArgs_regsBut h).pair (State.setRf_regsBut _ _ _ _ _), by simp⟩

theorem State.not_bypassing {s : State} {h : Nat} (hidle : (s.eunit h).byp.step = 0 ∨ 6 ≤ (s.eunit h).byp.step) : s.bypassing h = false := by
  simp only [State.bypassing, Bool.and_eq_false_iff, decide_eq_false_iff_not]
  omega

/-- A GO is accepted for a unit of one of three STATUS values that has not fired and is not being bypassed, unless its group would lose a
healthy unit that it needs (R278). -/
theorem State.goCode_accepted {s : State} {h : Nat}
    (hst : (s.unit h).status = .present ∨ (s.unit h).status = .unobserved ∨ (s.unit h).status = .lost) (hfired : s.hasFired h = false)
    (hbyp : s.bypassing h = false) (hmargin : s.healthy h = false ∨ s.nReq (mapGroup (s.mapEntry h)) < s.healthyCount (mapGroup (s.mapEntry h))) :
    s.goCode h = 1 := by
  unfold State.goCode
  rw [if_neg, if_neg]
  · rintro ⟨-, hhealthy, hfew⟩
    rcases hmargin with hill | hmany
    · exact Bool.noConfusion (hill.symm.trans hhealthy)
    · omega
  · rintro (⟨hpresent, hunobserved, hlost⟩ | hf | hb)
    · exact hst.elim hpresent (·.elim hunobserved hlost)
    · exact Bool.noConfusion (hfired.symm.trans hf)
    · exact Bool.noConfusion (hbyp.symm.trans hb)

/-! FIRE, CONFIRM and the orders sent again. -/

/-- The state with FIRE_BYPASS in the order of unit h for converter epoch c (R279). -/
def State.fired (s : State) (h : Nat) (c : Epoch) : State :=
  ({ s with edg := { s.edg with orders := smSet {} s.edg.orders h { smGet {} s.edg.orders h with fire := true } } } : State).updByp h
    fun b => { b with step := 4, f := some c }

theorem exec_bypassFire {h : Nat} {j c : Epoch} {s : State} (hj : (s.eunit h).byp.j = some j) (hc : (smGet {} s.edg.orders h).c = some c)
    (hstep : (s.eunit h).byp.step = 3) (hfirst : 2 ≤ (c - j).toNat) (hlast : (c - j).toNat ≤ 4) (hplan : c = s.planEpoch h)
    (hmiss : bit s.sys.missNow 8 = false) (hcovers : s.coversFire h = true) : exec (.bypassFire h) s = .next (s.fired h c) := by
  show execBypassFire h s = _
  simp only [execBypassFire, State.fired, hj, hc]
  exact if_pos ⟨hstep, hfirst, hlast, hplan, hmiss, hcovers⟩

/-- A missing confirmation that ends the sequence: it has FAILED (R279). -/
def State.bypFailed (s : State) (h : Nat) : State :=
  ((s.updByp h fun b => { b with step := 6, tries := (s.eunit h).byp.tries + 1 }).latch R.EDG_CAUSE 3).prtEvent 40

/-- A missing confirmation after which the sequence goes back to ARM (R279). -/
def State.bypRearmed (s : State) (h : Nat) : State := s.updByp h fun b => { b with step := 2, tries := (s.eunit h).byp.tries + 1 }

theorem exec_bypassConfirmTimeout {h : Nat} {f n : Epoch} {s : State} (hf : (s.eunit h).byp.f = some f) (hn : s.cel.newest = some n)
    (hstep : (s.eunit h).byp.step = 4) (hst : (s.unit h).status ≠ .lost) (hfired : s.hasFired h = false) (hafter : epGe n f = true)
    (hlate : 64 ≤ (n - f).toNat) : exec (.bypassConfirmTimeout h) s =
      .next (if max 1 (s.rf R.EDG_CFG 30 28) ≤ (s.eunit h).byp.tries + 1 then s.bypFailed h else s.bypRearmed h) := by
  show execBypassConfirmTimeout h s = _
  simp only [execBypassConfirmTimeout, hf, hn]
  refine (if_pos ⟨hstep, hst, hfired, hafter, hlate⟩).trans ?_
  split <;> rfl

/-- The orders are sent again to the LOST unit h (R280). -/
def State.bypResent (s : State) (h : Nat) : State := s.updByp h fun b => { b with step := 2, retryAt := some s.sys.epoch }

theorem exec_lostBypassRetry {h : Nat} {e : Epoch} {s : State} (he : (s.eunit h).byp.retryAt = some e) (hlost : (s.unit h).status = .lost)
    (hbyp : s.bypassing h = true) (hon : s.sys.conv ≠ .off) (hdue : 256 ≤ (s.sys.epoch - e).toNat) :
    exec (.lostBypassRetry h) s = .next (s.bypResent h) := by
  show execLostBypassRetry h s = _
  simp only [execLostBypassRetry, he]
  exact if_pos ⟨hlost, hbyp, hon, hdue⟩

/-- Settles O28: a GO is decided by its result, and starts the sequence or shows why not; FIRE, a missing confirmation and the orders sent
again are each a change of one unit's sequence. -/
theorem bypassSequence : Obligations.BypassSequence := by
  refine ⟨fun r h s hh hmay hst hentry hstep => ?unseen, fun r h s hh hmay hst hentry hidle hmargin => ?present,
    fun r h k s hh hmay hk => ?refused, fun h j c s hj hc hstep hfirst hlast hplan hmiss hcovers => ?fire,
    fun h f n s hf hn hstep hst hentry hafter hlate => ?confirm, fun h e s he hlost hbyp hon hdue => ?retry⟩
  case unseen =>
    have hnone : ∀ e ∈ s.entry h, e.state ≠ 3 := by simp [hentry]
    have hill : s.healthy h = false := by simp [State.healthy, hentry]
    exact exec_bypassGo_accepted hh hmay (State.goCode_accepted (.inr hst) (State.not_hasFired hnone) (State.not_bypassing (.inl hstep))
      (.inl hill)) (.inl hstep)
  case present =>
    have haccepted := State.goCode_accepted (.inl hst) (State.not_hasFired hentry) (State.not_bypassing hidle) hmargin
    obtain ⟨t, hexec, hstat, hunit, hrest⟩ := exec_bypassGo_accepted hh hmay haccepted hidle
    exact ⟨t, hexec, hstat, by rw [hunit, bypBegun, hst, if_neg (by decide)], hrest⟩
  case refused =>
    rcases hk with ⟨rfl, hbarred⟩ | ⟨rfl, hhealthy, hbyp, hfew⟩
    · refine exec_bypassGo_refused hh hmay (if_pos ?_) (by decide) (by decide)
      exact hbarred.imp_right .inr
    · have hpresent := State.present_of_healthy hhealthy
      refine exec_bypassGo_refused hh hmay ?_ (by decide) (by decide)
      unfold State.goCode
      rw [if_neg (by simp [hpresent, State.not_hasFired_of_healthy hhealthy, hbyp]), if_pos ⟨hpresent, hhealthy, by omega⟩]
  case fire =>
    have hunit (g : Nat) : (s.fired h c).eunit g = _ := State.eunit_updByp _ h g _
    refine ⟨_, exec_bypassFire hj hc hstep hfirst hlast hplan hmiss hcovers, ?_, ?_, fun g hg => ?_, by simp [State.fired]⟩
    · exact (smGet_smSet _ _ _ _ _).trans (if_pos rfl)
    · rw [hunit, if_pos rfl]
      rfl
    · rw [hunit, if_neg hg]
      rfl
  case confirm =>
    have hexec := exec_bypassConfirmTimeout hf hn hstep hst (State.not_hasFired hentry) hafter hlate
    have hframe := execBypassConfirmTimeout_frame h hexec
    by_cases hlimit : max 1 (s.rf R.EDG_CFG 30 28) ≤ (s.eunit h).byp.tries + 1
    · rw [if_pos hlimit] at hexec hframe
      have hunit (g : Nat) : (s.bypFailed h).eunit g = _ :=
        s.eunit_updByp h g fun b => { b with step := 6, tries := (s.eunit h).byp.tries + 1 }
      refine ⟨_, hexec, ?_, fun _ => ⟨?_, State.rb_latch _ _ _ (by decide), List.mem_cons_self⟩, fun hmore => absurd hlimit (by omega),
        fun g hg => ?_, (RegsBut.of_regs rfl).trans (State.latch_regsBut (s.updByp h _) _ _), hframe⟩
      · rw [hunit, if_pos rfl]
      · rw [hunit, if_pos rfl]
      · rw [hunit, if_neg hg]
    · rw [if_neg hlimit] at hexec hframe
      have hunit (g : Nat) : (s.bypRearmed h).eunit g = _ := s.eunit_updByp h g _
      refine ⟨_, hexec, ?_, fun hend => absurd hend hlimit, fun _ => ⟨?_, rfl, rfl⟩, fun g hg => ?_, RegsBut.of_regs rfl, hframe⟩
      · rw [hunit, if_pos rfl]
      · rw [hunit, if_pos rfl]
      · rw [hunit, if_neg hg]
  case retry =>
    have hunit (g : Nat) : (s.bypResent h).eunit g = _ := s.eunit_updByp h g _
    refine ⟨_, exec_lostBypassRetry he hlost hbyp hon hdue, ?_, fun g hg => ?_, by simp [State.bypResent]⟩
    · rw [hunit, if_pos rfl]
    · rw [hunit, if_neg hg]

end Sys2Proof.Machine
end

section
/-! PROOFS. The protection passes (O29): what the block logic, the bypasses and the annexes leave of the protections, the sources that a pass
raises, the end of AB_DISC, a raise beside the pass, an escalation and a recovery timer. -/

namespace Sys2Proof.Machine

/-! What is kept of the protections. -/

/-- The classes of the sources and the A/B discrepancy read alike: beside the views and the firing, only the registers that the block
logic writes may differ (R291). -/
structure ClassKept (s t : State) : Prop where
  esc : t.prt.esc = s.prt.esc
  escNow : t.prt.escNow = s.prt.escNow
  disc : t.prt.disc = s.prt.disc
  abDisc : t.prt.abDisc = s.prt.abDisc
  sys : t.sys = s.sys
  regs : RegsBut [R.PRT_CAUSE, R.PRT_BLOCK_LATCH, R.PRT_BLOCK_CNT] s t

/-- The views read alike too. -/
structure PairKept (s t : State) : Prop extends ClassKept s t where
  view : ∀ x, t.view x = s.view x

theorem ClassKept.trans {s t u : State} (h : ClassKept s t) (h' : ClassKept t u) : ClassKept s u :=
  ⟨h'.esc.trans h.esc, h'.escNow.trans h.escNow, h'.disc.trans h.disc, h'.abDisc.trans h.abDisc, h'.sys.trans h.sys, h.regs.trans h'.regs⟩

theorem PairKept.refl (s : State) : PairKept s s := ⟨⟨rfl, rfl, rfl, rfl, rfl, .refl _ s⟩, fun _ => rfl⟩

theorem PairKept.trans {s t u : State} (h : PairKept s t) (h' : PairKept t u) : PairKept s u :=
  ⟨h.toClassKept.trans h'.toClassKept, fun x => (h'.view x).trans (h.view x)⟩

theorem PairKept.of_prt {s t : State} (hprt : t.prt = s.prt) (hsys : t.sys = s.sys)
    (hregs : RegsBut [R.PRT_CAUSE, R.PRT_BLOCK_LATCH, R.PRT_BLOCK_CNT] s t) : PairKept s t :=
  ⟨⟨by rw [hprt], by rw [hprt], by rw [hprt], by rw [hprt], hsys, hregs⟩, fun x => by rw [State.view, hprt]; rfl⟩

/-- A change outside the registers, the System Control and the protections. -/
theorem PairKept.of_frame {s t : State} (h : Frame [.lnk, .cel, .edg] s t) : PairKept s t :=
  .of_prt (keep_prt (h.mono (by simp))) (keep_sys (h.mono (by simp))) (.of_regs (keep_regs (h.mono (by simp))))

theorem ClassKept.rf {s t : State} (h : ClassKept s t) {k : Nat} (hi lo : Nat)
    (hk : k ∉ [R.PRT_CAUSE, R.PRT_BLOCK_LATCH, R.PRT_BLOCK_CNT]) : t.rf k hi lo = s.rf k hi lo := by
  rw [State.rf, h.regs k hk]
  rfl

theorem srcCfg_apart (k : Nat) : R.PRT_SRC_CFG k ∉ [R.PRT_CAUSE, R.PRT_BLOCK_LATCH, R.PRT_BLOCK_CNT] := by
  simp only [R.PRT_SRC_CFG, R.PRT_CAUSE, R.PRT_BLOCK_LATCH, R.PRT_BLOCK_CNT, List.mem_cons, List.not_mem_nil, or_false]
  omega

theorem ClassKept.srcClass {s t : State} (h : ClassKept s t) (k : Nat) : t.srcClass k = s.srcClass k := by
  rw [State.srcClass, h.esc, h.rf _ _ (srcCfg_apart k), h.rf _ _ (srcCfg_apart k)]
  rfl

/-- The class of a source that has escalated is its ESC (R297). -/
theorem State.srcClass_escalated {s : State} {k : Nat} (h : s.prt.esc.contains k = true) : s.srcClass k = s.rf (R.PRT_SRC_CFG k) 27 25 :=
  if_pos h

/-- A firing of the block logic writes its own fields of the protections alone (R291). -/
theorem State.blockFire_prt (s : State) (input fine : Nat) : ∃ halt pending,
    (s.blockFire input fine).prt = { s.prt with firedNow := true, firedHalt := halt, blockPending := pending } := by
  unfold State.blockFire
  extract_lets s1 s2 s3 halt s4 lnk4 prt4 s5
  have h4 : s4.prt = s.prt := keep_prt (by simp [s4, s3, s2, s1])
  exact ⟨halt, s4.prt.blockPending || s4.runDecided, (keep_prt (s := s5) (by simp)).trans (congrArg (fun p : PrtSt =>
    { p with firedNow := true, firedHalt := halt, blockPending := s4.prt.blockPending || s4.runDecided }) h4)⟩

theorem State.blockFire_pairKept (s : State) (input fine : Nat) : PairKept s (s.blockFire input fine) := by
  obtain ⟨halt, pending, hprt⟩ := s.blockFire_prt input fine
  exact ⟨⟨by rw [hprt], by rw [hprt], by rw [hprt], by rw [hprt], keep_sys (by simp),
    (s.blockFire_regsBut input fine).mono (by simp)⟩, fun x => by rw [State.view, hprt]; rfl⟩

theorem State.blockRequest_pairKept (s : State) (isA : Bool) (ns : Nat) : PairKept s (s.blockRequest isA ns) := s.blockFire_pairKept _ _

/-- A block request counts one firing (R291, R293). -/
theorem State.blockRequest_blocks (s : State) (isA : Bool) (ns : Nat) : (s.blockRequest isA ns).lnk.blocks = s.lnk.blocks + 1 :=
  s.blockFire_blocks _ _

theorem State.blockRequest_firedNow (s : State) (isA : Bool) (ns : Nat) : (s.blockRequest isA ns).prt.firedNow = true :=
  s.blockFire_firedNow _ _

/-- A block request clears no bit of PRT_CAUSE. -/
theorem State.rb_blockRequest_keeps {s : State} (isA : Bool) (ns : Nat) {b : Nat} (h : s.rb R.PRT_CAUSE b = true) :
    (s.blockRequest isA ns).rb R.PRT_CAUSE b = true := by
  obtain ⟨r, hr, hregs⟩ := s.blockFire_regs (if isA then 16 else 17) (ns + 2)
  have hr' : r.rb R.PRT_CAUSE b = true := by rwa [State.rb, hr _ (by decide)]
  rw [State.rb, State.blockRequest, State.reg_congr hregs]
  exact State.rb_latch_keeps _ _ _ _ _ (by decide) hr'

/-! A change of a view. -/

theorem State.view_updView (s : State) (x y : Bool) (f : PrtView → PrtView) :
    (s.updView x f).view y = if y = x then f (s.view x) else s.view y := by cases x <;> cases y <;> rfl

theorem State.updView_classKept (s : State) (x : Bool) (f : PrtView → PrtView) : ClassKept s (s.updView x f) := by
  cases x <;> exact ⟨rfl, rfl, rfl, rfl, rfl, .of_regs rfl⟩

theorem State.updView_firedNow (s : State) (x : Bool) (f : PrtView → PrtView) : (s.updView x f).prt.firedNow = s.prt.firedNow := by
  cases x <;> rfl

theorem State.updView_lnk (s : State) (x : Bool) (f : PrtView → PrtView) : (s.updView x f).lnk = s.lnk := keep_lnk (by simp)

theorem State.prtAnnex_pairKept (s : State) (x : Bool) (n : Epoch) : PairKept s (s.prtAnnex x n) := .of_frame (by simp)

/-- A raised source of class Block or above withholds the permit (R290). -/
theorem State.permitOf_raised {s : State} {v : PrtView} {k : Nat} (hk : k ∈ v.raised) (hclass : 4 ≤ s.srcClass k) : s.permitOf v = false := by
  have hany : v.raised.any (fun k => decide (4 ≤ s.srcClass k)) = true := List.any_eq_true.mpr ⟨k, hk, decide_eq_true hclass⟩
  unfold State.permitOf
  simp only [hany, Bool.not_true, Bool.false_and]

theorem State.view_prtRefresh (s : State) (x y : Bool) : (s.prtRefresh x).view y =
    if y = x then { s.view x with permit := (s.view x).permit && s.permitOf (s.view x) } else s.view y :=
  ((State.prtAnnex_pairKept _ x _).view y).trans (s.view_updView x y _)

theorem State.prtRefresh_classKept (s : State) (x : Bool) : ClassKept s (s.prtRefresh x) :=
  (s.updView_classKept x _).trans (State.prtAnnex_pairKept _ x _).toClassKept

theorem State.prtRefresh_firedNow (s : State) (x : Bool) : (s.prtRefresh x).prt.firedNow = s.prt.firedNow := s.updView_firedNow x _

theorem State.prtRefresh_lnk (s : State) (x : Bool) : (s.prtRefresh x).lnk = s.lnk := keep_lnk (by simp)

theorem State.prtRefresh_regs (s : State) (x : Bool) : (s.prtRefresh x).regs = s.regs := keep_regs (by simp)

/-- A refresh changes no sources, and leaves a permit only where nothing of class Block or above is raised (R290). -/
theorem State.prtRefresh_permit {s : State} {x : Bool} {k : Nat} (hk : k ∈ (s.view x).raised) (hclass : 4 ≤ s.srcClass k) :
    ((s.prtRefresh x).view x).permit = false := by
  rw [State.view_prtRefresh, if_pos rfl, State.permitOf_raised hk hclass, Bool.and_false]

/-! The end of AB_DISC. -/

/-- The sources of a view after the discrepancy runs: as before, or with AB_DISC cleared (R287, R289). -/
structure DiscEffect (v w : PrtView) : Prop where
  tag : w.tag = v.tag
  done : w.done = v.done
  sources : (w.raised = v.raised ∧ w.newly = v.newly) ∨ (w.raised = v.raised.erase 56 ∧ w.newly = v.newly.erase 56)

theorem DiscEffect.refl (v : PrtView) : DiscEffect v v := ⟨rfl, rfl, .inl ⟨rfl, rfl⟩⟩

theorem State.clearIn_effect (s : State) (v : PrtView) (p : Bool) : DiscEffect v { s.clearIn 56 v with permit := p } := by
  unfold State.clearIn
  split
  · exact ⟨rfl, rfl, .inr ⟨rfl, rfl⟩⟩
  · exact ⟨rfl, rfl, .inl ⟨rfl, rfl⟩⟩

/-- A source that has cleared is raised no more (R287). -/
theorem State.not_mem_clearIn {s : State} {k : Nat} {v : PrtView} (hnodup : v.raised.Nodup) : k ∉ (s.clearIn k v).raised := by
  unfold State.clearIn
  split
  · exact hnodup.not_mem_erase
  · next h => exact fun hk => h (List.contains_iff_mem.mpr hk)

/-- AB_DISC clears in the view of a protection (R289). -/
def State.clearDisc (s : State) (isA : Bool) : State :=
  let u := s.updView isA (s.clearIn 56)
  (u.updView isA (fun v => { v with permit := u.permitOf v })).prtAnnex isA (u.sys.epoch - 1)

theorem State.view_clearDisc (s : State) (x y : Bool) : (s.clearDisc x).view y = if y = x then
    { s.clearIn 56 (s.view x) with permit := (s.updView x (s.clearIn 56)).permitOf (s.clearIn 56 (s.view x)) } else s.view y := by
  refine ((State.prtAnnex_pairKept _ x _).view y).trans ?_
  rw [State.view_updView, State.view_updView, State.view_updView, if_pos rfl]
  split <;> rfl

theorem State.clearDisc_classKept (s : State) (x : Bool) : ClassKept s (s.clearDisc x) :=
  ((s.updView_classKept x _).trans (State.updView_classKept _ x _)).trans (State.prtAnnex_pairKept _ x _).toClassKept

theorem State.clearDisc_firedNow (s : State) (x : Bool) : (s.clearDisc x).prt.firedNow = s.prt.firedNow := by cases x <;> rfl

/-- AB_DISC clears in both views (R289). -/
def State.discCleared (s : State) : State := (s.clearDisc true).clearDisc false

theorem State.view_discCleared (s : State) (x : Bool) : ∃ (u : State) (p : Bool),
    s.discCleared.view x = { u.clearIn 56 (s.view x) with permit := p } := by
  cases x with
  | true => exact ⟨s, _, (State.view_clearDisc _ false true).trans (s.view_clearDisc true true)⟩
  | false => exact ⟨s.clearDisc true, _, (State.view_clearDisc _ false false).trans (by rw [s.view_clearDisc true false]; rfl)⟩

theorem State.discCleared_classKept (s : State) : ClassKept s s.discCleared :=
  (s.clearDisc_classKept true).trans (State.clearDisc_classKept _ false)

/-- The runs of passes in which a source is raised in one view and not in the other (R289). -/
def State.discCounts (s : State) : SMap Nat :=
  if s.sys.conv = .off then [] else (List.range 72).filterMap (fun k =>
    if s.prt.a.raised.contains k != s.prt.b.raised.contains k then some (k, smGet 0 s.prt.disc k + 1) else none)

/-- A run has reached DISC_EP (R289). -/
def State.discHolds (s : State) : Bool := s.discCounts.any (fun x => max 1 (s.rf R.PRT_DISC 7 0) ≤ x.2)

/-- The state with its discrepancy runs counted. -/
def State.discCounted (s : State) : State := { s with prt := { s.prt with disc := s.discCounts, abDisc := s.prt.abDisc && s.discHolds } }

theorem State.discRuns_eq (s : State) : s.discRuns =
    if s.prt.a.done && s.prt.b.done then
      if s.prt.abDisc && !s.discHolds && !(decide (s.sys.conv = .off)) then s.discCounted.discCleared else s.discCounted
    else s := by
  unfold State.discRuns State.discCounted State.discHolds State.discCounts
  split
  · by_cases hoff : s.sys.conv = .off <;> simp only [hoff, decide_true, decide_false, if_true, if_false, Bool.false_eq_true] <;> rfl
  · rfl

/-- The discrepancy runs change the sources of a view only by clearing AB_DISC where it is set (R289). -/
theorem State.discRuns_view (s : State) (x : Bool) :
    DiscEffect (s.view x) (s.discRuns.view x) ∧ (s.prt.abDisc = false → s.discRuns.view x = s.view x) := by
  rw [State.discRuns_eq]
  split
  · split
    · next hends =>
      obtain ⟨⟨habs, -⟩, -⟩ : (s.prt.abDisc = true ∧ _) ∧ _ := by simpa only [Bool.and_eq_true] using hends
      obtain ⟨u, p, hview⟩ := s.discCounted.view_discCleared x
      rw [hview]
      exact ⟨u.clearIn_effect (s.view x) p, fun h => absurd (habs.symm.trans h) (by decide)⟩
    · exact ⟨.refl _, fun _ => rfl⟩
  · exact ⟨.refl _, fun _ => rfl⟩

/-- With no run left, the runs after both passes clear AB_DISC in both views (R289). -/
theorem State.discRuns_ends {s : State} (hdone : ∀ x, (s.view x).done = true) (habs : s.prt.abDisc = true) (hon : s.sys.conv ≠ .off)
    (hlow : ∀ x ∈ s.discRuns.prt.disc, x.2 < max 1 (s.rf R.PRT_DISC 7 0)) :
    s.discRuns.prt.abDisc = false ∧ ∀ x, (s.view x).raised.Nodup → 56 ∉ (s.discRuns.view x).raised := by
  have hboth : (s.prt.a.done && s.prt.b.done) = true := Bool.and_eq_true_iff.mpr ⟨hdone true, hdone false⟩
  have hruns := s.discRuns_eq
  rw [if_pos hboth] at hruns
  have hkept := s.discCounted.discCleared_classKept
  have hdisc : s.discRuns.prt.disc = s.discCounts := by
    rw [hruns]
    split
    · exact hkept.disc
    · rfl
  have hnone : s.discHolds = false := by
    rw [State.discHolds, List.any_eq_false]
    intro x hx
    have := hlow x (hdisc ▸ hx)
    simp only [decide_eq_true_eq]
    omega
  rw [if_pos (by simp [habs, hnone, hon])] at hruns
  rw [hruns]
  refine ⟨hkept.abDisc.trans (by simp [State.discCounted, hnone]), fun x hnodup => ?_⟩
  obtain ⟨u, p, hview⟩ := s.discCounted.view_discCleared x
  rw [hview]
  exact State.not_mem_clearIn (s := u) hnodup

theorem State.discRuns_firedNow (s : State) : s.discRuns.prt.firedNow = s.prt.firedNow := by
  rw [State.discRuns_eq]
  split
  · split
    · exact (State.clearDisc_firedNow _ false).trans (State.clearDisc_firedNow _ true)
    · rfl
  · rfl

theorem State.discRuns_lnk (s : State) : s.discRuns.lnk = s.lnk := keep_lnk (by simp)

/-! The pass. -/

/-- The view that a pass of Protection A or B makes (R285, R287, R288, R303). -/
structure PassView (s : State) (isA : Bool) (v : PrtView) : Prop where
  tag : v.tag = some (s.sys.epoch - 1)
  done : v.done = true
  newly : v.newly = v.raised.filter (fun k => !(s.view isA).raised.contains k)
  nodup : v.raised.Nodup
  off : s.sys.conv = .off → s.prt.episode = none → ∀ k ∈ v.raised, k ∈ offSources
  dcOc : ∀ q, s.sys.conv ≠ .off → s.prtRole isA 15 = some q → s.prtLim isA 2 ≤ q.abs → 18 ∈ v.raised

/-- The state with the view of a pass in its place, its permit decided (R290). -/
def State.placeView (s : State) (isA : Bool) (v : PrtView) (keep : Nat → Bool) : State :=
  let s := s.updView isA (fun _ => v)
  let s : State := if isA then { s with prt := { s.prt with evtA := [] } } else { s with prt := { s.prt with evtB := [] } }
  let s : State := { s with prt := { s.prt with esc := s.prt.esc.filter keep } }
  s.updView isA (fun v => { v with permit := s.permitOf v })

/-- The block request and the bypasses of a pass, and its annex region (R293, R306, R311). -/
def State.passActs (s : State) (isA : Bool) (ns : Nat) (n : Epoch) (newly : List Nat) (scan : List (Nat × List Nat)) : State :=
  (scan.foldl (fun s x => s.bypassFaulty x.1 x.2)
    (if newly.any (fun k => 4 ≤ s.srcClass k) then s.blockRequest isA ns else s)).prtAnnex isA n

/-- A DC current at its limit is among the measurement sources (R303). -/
theorem State.mem_prtMeas_dcOc {s : State} {isA : Bool} {q : Rat} (v : PrtView) (n : Epoch) (uvRun : Nat)
    (hrole : s.prtRole isA 15 = some q) (hlim : s.prtLim isA 2 ≤ q.abs) : (18, 0) ∈ s.prtMeas isA v n uvRun := by
  unfold State.prtMeas
  simp only [hrole, decide_eq_true hlim, if_true, List.mem_append, List.mem_singleton, or_true, true_or]

theorem State.secondFault_none {s : State} (h : s.prt.episode = none) (newly : List Nat) : s.secondFault newly = false := by
  simp only [State.secondFault, h, Bool.and_false, Bool.false_and]

/-- A pass places its view, acts on what it has newly raised, and counts the discrepancy runs. -/
theorem State.prtPass_eq (isA : Bool) (ns : Nat) (s : State) : ∃ v keep scan, PassView s isA v ∧ (s.sys.conv ≠ .off → ∀ k, keep k = true) ∧
    s.prtPass isA ns = ((s.placeView isA v keep).passActs isA ns (s.sys.epoch - 1) v.newly scan).discRuns := by
  unfold State.prtPass
  extract_lets v n off uv meas homes scan level cmps all raised0 newly0 esc raised newly cleared due keep recover first prevI order v'
    s1 p1 s2 p2 s3 s4 s5 s6
  refine ⟨v', keep, scan, ⟨rfl, rfl, rfl, ?nodup, ?off, ?dcOc⟩, fun h k => ?keep, rfl⟩
  case nodup =>
    show raised.Nodup
    simp only [raised]
    split <;> exact List.nodup_range.filter _
  case off =>
    intro h hep k hk
    have hno : esc = false := by simp only [esc, s.secondFault_none hep, Bool.false_and]
    have hk0 : k ∈ raised0 := by simpa only [v', raised, hno, Bool.false_eq_true, if_false] using hk
    obtain ⟨-, hin⟩ : k ∈ all ∧ k ∈ offSources := by simpa [off, h] using (List.mem_filter.mp hk0).2
    exact hin
  case dcOc =>
    intro q (hon : ¬ off) hrole hlim
    have hmeas : (18, 0) ∈ meas := by
      simp only [meas, if_neg hon]
      exact State.mem_prtMeas_dcOc v n uv hrole hlim
    have hall : 18 ∈ all := by
      simp only [all, List.mem_append]
      exact .inl (.inl (.inr (List.mem_map.mpr ⟨_, hmeas, rfl⟩)))
    have h0 : 18 ∈ raised0 := List.mem_filter.mpr ⟨by decide, by simp [hall, hon]⟩
    show 18 ∈ raised
    simp only [raised]
    split
    · exact List.mem_filter.mpr ⟨by decide, by simp [h0]⟩
    · exact h0
  case keep => simp [keep, off, h]

theorem State.view_placeView (s : State) (isA : Bool) (v : PrtView) (keep : Nat → Bool) : ∃ p, ∀ x,
    (s.placeView isA v keep).view x = if x = isA then { v with permit := p } else s.view x := by
  cases isA with
  | true => exact ⟨_, fun x => by cases x <;> rfl⟩
  | false => exact ⟨_, fun x => by cases x <;> rfl⟩

/-- Where no source is dropped, a view placed leaves the classes and the discrepancy. -/
theorem State.placeView_classKept (s : State) (isA : Bool) (v : PrtView) {keep : Nat → Bool} (hkeep : ∀ k, keep k = true) :
    ClassKept s (s.placeView isA v keep) := by
  have hesc : s.prt.esc.filter keep = s.prt.esc := List.filter_eq_self.mpr fun k _ => hkeep k
  cases isA <;> exact ⟨hesc, rfl, rfl, rfl, rfl, .of_regs rfl⟩

theorem State.placeView_abDisc (s : State) (isA : Bool) (v : PrtView) (keep : Nat → Bool) :
    (s.placeView isA v keep).prt.abDisc = s.prt.abDisc := by
  cases isA <;> rfl

theorem State.placeView_lnk (s : State) (isA : Bool) (v : PrtView) (keep : Nat → Bool) : (s.placeView isA v keep).lnk = s.lnk := by
  cases isA <;> rfl

theorem State.passActs_pairKept (s : State) (isA : Bool) (ns : Nat) (n : Epoch) (newly : List Nat) (scan : List (Nat × List Nat)) :
    PairKept s (s.passActs isA ns n newly scan) := by
  unfold State.passActs
  generalize hu : (if newly.any (fun k => 4 ≤ s.srcClass k) then s.blockRequest isA ns else s) = u
  have h1 : PairKept s u := by
    rw [← hu]
    split
    · exact s.blockRequest_pairKept isA ns
    · exact .refl s
  exact h1.trans (.of_frame (by simp))

/-- A newly raised source of class Block or above fires the block logic once (R293). -/
theorem State.passActs_fires {s : State} {newly : List Nat} {k : Nat} (isA : Bool) (ns : Nat) (n : Epoch) (scan : List (Nat × List Nat))
    (hk : k ∈ newly) (hclass : 4 ≤ s.srcClass k) : (s.passActs isA ns n newly scan).lnk.blocks = s.lnk.blocks + 1 ∧
      (s.passActs isA ns n newly scan).prt.firedNow = true := by
  have hany : newly.any (fun k => decide (4 ≤ s.srcClass k)) = true := List.any_eq_true.mpr ⟨k, hk, decide_eq_true hclass⟩
  have hacts : Frame [.cel, .edg] (s.blockRequest isA ns) (s.passActs isA ns n newly scan) := by
    rw [State.passActs, if_pos hany]
    simp
  rw [keep_lnk (hacts.mono (by simp)), keep_prt (hacts.mono (by simp))]
  exact ⟨s.blockRequest_blocks isA ns, s.blockRequest_firedNow isA ns⟩

/-- A pass makes its own view and acts on it; the other view and the discrepancy stay until the runs are counted. -/
theorem State.prtPass_acted (isA : Bool) (ns : Nat) (s : State) : ∃ u, s.prtPass isA ns = u.discRuns ∧ PassView s isA (u.view isA) ∧
    u.view (!isA) = s.view (!isA) ∧ u.prt.abDisc = s.prt.abDisc ∧ (s.sys.conv ≠ .off → ClassKept s u ∧
      ∀ k ∈ (u.view isA).newly, 4 ≤ s.srcClass k → u.lnk.blocks = s.lnk.blocks + 1 ∧ u.prt.firedNow = true) := by
  obtain ⟨v, keep, scan, hv, hkeep, heq⟩ := State.prtPass_eq isA ns s
  have hacts := (s.placeView isA v keep).passActs_pairKept isA ns (s.sys.epoch - 1) v.newly scan
  obtain ⟨p, hplaced⟩ := s.view_placeView isA v keep
  have hview (x : Bool) := (hacts.view x).trans (hplaced x)
  have hown := (hview isA).trans (if_pos rfl)
  refine ⟨_, heq, ?_, (hview (!isA)).trans (if_neg (by simp)), hacts.abDisc.trans (s.placeView_abDisc isA v keep), fun hon => ?_⟩
  · rw [hown]
    exact { hv with }
  · have hclass := s.placeView_classKept isA v (hkeep hon)
    refine ⟨hclass.trans hacts.toClassKept, fun k hk hsevere => ?_⟩
    rw [hown] at hk
    rw [← hclass.srcClass] at hsevere
    rw [← s.placeView_lnk isA v keep]
    exact State.passActs_fires isA ns _ scan hk hsevere

/-- After the discrepancy runs too, the newly raised sources are those raised that were not raised before (R287). -/
theorem PassView.mem_newly {s : State} {isA : Bool} {v w : PrtView} (h : PassView s isA v) (he : DiscEffect v w) (k : Nat) :
    k ∈ w.newly ↔ k ∈ w.raised ∧ k ∉ (s.view isA).raised := by
  have hpass : k ∈ v.newly ↔ k ∈ v.raised ∧ k ∉ (s.view isA).raised := by
    rw [h.newly, List.mem_filter]
    simp
  rcases he.sources with ⟨hraised, hnewly⟩ | ⟨hraised, hnewly⟩
  · rw [hraised, hnewly, hpass]
  · have hnodup : v.newly.Nodup := h.newly ▸ h.nodup.filter _
    rw [hraised, hnewly, hnodup.mem_erase_iff, h.nodup.mem_erase_iff, hpass, and_assoc]

theorem DiscEffect.mem_raised {v w : PrtView} (he : DiscEffect v w) {k : Nat} (hk : k ∈ w.raised) : k ∈ v.raised := by
  rcases he.sources with ⟨hraised, -⟩ | ⟨hraised, -⟩
  · exact hraised ▸ hk
  · exact List.mem_of_mem_erase (hraised ▸ hk)

theorem DiscEffect.mem_newly {v w : PrtView} (he : DiscEffect v w) {k : Nat} (hk : k ∈ w.newly) : k ∈ v.newly := by
  rcases he.sources with ⟨-, hnewly⟩ | ⟨-, hnewly⟩
  · exact hnewly ▸ hk
  · exact List.mem_of_mem_erase (hnewly ▸ hk)

/-- The discrepancy runs clear AB_DISC and no other source. -/
theorem DiscEffect.raised_of_ne {v w : PrtView} (he : DiscEffect v w) {k : Nat} (hne : k ≠ 56) (hk : k ∈ v.raised) : k ∈ w.raised := by
  rcases he.sources with ⟨hraised, -⟩ | ⟨hraised, -⟩
  · exact hraised ▸ hk
  · exact hraised ▸ (List.mem_erase_of_ne hne).mpr hk

/-- A pass that is over: its view, with AB_DISC cleared where the discrepancy has ended. -/
theorem State.prtPass_sources (s : State) (isA : Bool) (ns : Nat) : ∃ v, PassView s isA v ∧ DiscEffect v ((s.prtPass isA ns).view isA) := by
  obtain ⟨u, heq, hpass, -⟩ := State.prtPass_acted isA ns s
  exact ⟨_, hpass, heq ▸ (u.discRuns_view isA).1⟩

/-- Without AB_DISC a pass leaves the other protection's view alone. -/
theorem State.prtPass_other {s : State} (isA : Bool) (ns : Nat) (hnot : s.prt.abDisc = false) :
    (s.prtPass isA ns).view (!isA) = s.view (!isA) := by
  obtain ⟨u, heq, -, hother, habs, -⟩ := State.prtPass_acted isA ns s
  rw [heq, (u.discRuns_view (!isA)).2 (habs.trans hnot), hother]

/-- The second pass of an epoch clears AB_DISC when no run is left (R289). -/
theorem State.prtPass_ends {s : State} {isA : Bool} {ns : Nat} (hset : s.prt.abDisc = true) (hon : s.sys.conv ≠ .off)
    (hdone : (s.view (!isA)).done = true) (hlow : ∀ x ∈ (s.prtPass isA ns).prt.disc, x.2 < max 1 (s.rf R.PRT_DISC 7 0)) :
    (s.prtPass isA ns).prt.abDisc = false ∧ 56 ∉ ((s.prtPass isA ns).view isA).raised := by
  obtain ⟨u, heq, hpass, hother, habs, hclass⟩ := State.prtPass_acted isA ns s
  obtain ⟨hkept, -⟩ := hclass hon
  have hboth (x : Bool) : (u.view x).done = true := by
    by_cases hx : x = isA
    · exact hx ▸ hpass.done
    · rw [Bool.eq_not.mpr hx, hother]
      exact hdone
  rw [heq, ← hkept.rf 7 0 (by decide)] at hlow
  obtain ⟨hended, hcleared⟩ := State.discRuns_ends hboth (habs.trans hset) (by rwa [hkept.sys]) hlow
  rw [heq]
  exact ⟨hended, hcleared isA hpass.nodup⟩

/-- A source of class Block or above that a pass newly raises fires the block logic once (R293). -/
theorem State.prtPass_fires {s : State} {isA : Bool} {ns k : Nat} (hon : s.sys.conv ≠ .off) (hk : k ∈ ((s.prtPass isA ns).view isA).newly)
    (hsevere : 4 ≤ s.srcClass k) : (s.prtPass isA ns).lnk.blocks = s.lnk.blocks + 1 ∧ (s.prtPass isA ns).prt.firedNow = true := by
  obtain ⟨u, heq, -, -, -, hclass⟩ := State.prtPass_acted isA ns s
  rw [heq] at hk ⊢
  rw [State.discRuns_lnk, State.discRuns_firedNow]
  exact (hclass hon).2 k ((u.discRuns_view isA).1.mem_newly hk) hsevere

/-! A raise beside the pass. -/

/-- The view with the sources of a list raised in it (R287). -/
def raisedIn (ks : List Nat) (v : PrtView) : PrtView :=
  { v with
    raised := (List.range 71).filter (fun k => ks.contains k || v.raised.contains k)
    newly := (List.range 71).filter (fun k => (ks.filter (fun k => !v.raised.contains k)).contains k || v.newly.contains k)
    recover := v.recover.filter (fun x => !ks.contains x.1) }

theorem mem_raisedIn {ks : List Nat} {k : Nat} (v : PrtView) (hk : k ∈ ks) (hlt : k < 71) : k ∈ (raisedIn ks v).raised :=
  List.mem_filter.mpr ⟨List.mem_range.mpr hlt, by simp [hk]⟩

/-- The view raised, with the block request of a source of class Block or above (R287, R293). -/
def State.raiseActs (s : State) (isA : Bool) (ks : List Nat) (ns : Nat) : State :=
  let u := s.updView isA (raisedIn ks)
  if (ks.filter (fun k => !(s.view isA).raised.contains k)).any (fun k => 4 ≤ u.srcClass k) then u.blockRequest isA ns else u

theorem State.raiseIn_eq (s : State) (isA : Bool) (ks : List Nat) (ns : Nat) : s.raiseIn isA ks ns = (s.raiseActs isA ks ns).prtRefresh isA := by
  cases isA <;> rfl

theorem State.raiseActs_kept (s : State) (isA : Bool) (ks : List Nat) (ns : Nat) :
    PairKept (s.updView isA (raisedIn ks)) (s.raiseActs isA ks ns) := by
  unfold State.raiseActs
  extract_lets u
  split
  · exact u.blockRequest_pairKept isA ns
  · exact .refl u

theorem State.raiseIn_classKept (s : State) (isA : Bool) (ks : List Nat) (ns : Nat) : ClassKept s (s.raiseIn isA ks ns) := by
  rw [State.raiseIn_eq]
  exact ((s.updView_classKept isA _).trans (s.raiseActs_kept isA ks ns).toClassKept).trans (State.prtRefresh_classKept _ isA)

theorem State.view_raiseIn (s : State) (isA : Bool) (ks : List Nat) (ns : Nat) : ∃ p, ∀ x,
    (s.raiseIn isA ks ns).view x = if x = isA then { raisedIn ks (s.view isA) with permit := p } else s.view x := by
  have hkept := s.raiseActs_kept isA ks ns
  have hown : (s.raiseActs isA ks ns).view isA = raisedIn ks (s.view isA) := by rw [hkept.view, State.view_updView, if_pos rfl]
  refine ⟨(raisedIn ks (s.view isA)).permit && (s.raiseActs isA ks ns).permitOf (raisedIn ks (s.view isA)), fun x => ?_⟩
  rw [State.raiseIn_eq, State.view_prtRefresh, hown, hkept.view, State.view_updView]
  split <;> rfl

/-- A source of class Block or above that is newly raised beside the pass fires the block logic once, and the permit is withdrawn (R290,
R293). -/
theorem State.raiseIn_fires {s : State} {isA : Bool} {ks : List Nat} {k : Nat} (ns : Nat) (hk : k ∈ ks) (hlt : k < 71)
    (hnew : (s.view isA).raised.contains k = false) (hclass : 4 ≤ s.srcClass k) :
    (s.raiseIn isA ks ns).lnk.blocks = s.lnk.blocks + 1 ∧ (s.raiseIn isA ks ns).prt.firedNow = true ∧
      ((s.raiseIn isA ks ns).view isA).permit = false := by
  have hupd : 4 ≤ (s.updView isA (raisedIn ks)).srcClass k := by rwa [(s.updView_classKept isA _).srcClass]
  have hkept := s.raiseActs_kept isA ks ns
  have hraised : k ∈ ((s.raiseActs isA ks ns).view isA).raised := by
    rw [hkept.view, State.view_updView, if_pos rfl]
    exact mem_raisedIn _ hk hlt
  have hacts : s.raiseActs isA ks ns = (s.updView isA (raisedIn ks)).blockRequest isA ns :=
    if_pos (List.any_eq_true.mpr ⟨k, List.mem_filter.mpr ⟨hk, by rw [hnew]; rfl⟩, decide_eq_true hupd⟩)
  rw [State.raiseIn_eq]
  refine ⟨?_, ?_, State.prtRefresh_permit hraised (by rwa [hkept.srcClass])⟩
  · rw [State.prtRefresh_lnk, hacts, State.blockRequest_blocks, State.updView_lnk]
  · rw [State.prtRefresh_firedNow, hacts, State.blockRequest_firedNow]

/-- AB_DISC is set (R289). -/
def State.discSet (s : State) : State := { s with prt := { s.prt with abDisc := true } }

/-- AB_DISC is set, and both protections raise the sources of a list (R289). -/
def State.discRaised (s : State) (ks : List Nat) (ns : Nat) : State := (s.discSet.raiseIn true ks ns).raiseIn false ks ns

theorem exec_abDisc {k n : Nat} {s : State} (hnot : s.prt.abDisc = false) (hon : s.sys.conv ≠ .off) (hrun : (k, n) ∈ s.prt.disc)
    (hlimit : max 1 (s.rf R.PRT_DISC 7 0) ≤ n) : ∃ ks ns, 56 ∈ ks ∧ exec .abDisc s = .next (s.discRaised ks ns) := by
  have hany : s.prt.disc.any (fun x => decide (max 1 (s.rf R.PRT_DISC 7 0) ≤ x.2)) = true :=
    List.any_eq_true.mpr ⟨_, hrun, decide_eq_true hlimit⟩
  refine ⟨if s.secondFault [56] then [55, 56] else [56], if s.sys.compat then 384 else 192, ?_, if_pos ⟨hnot, hon, hany⟩⟩
  split <;> decide

theorem State.discRaised_classKept (s : State) (ks : List Nat) (ns : Nat) : ClassKept s.discSet (s.discRaised ks ns) :=
  (State.raiseIn_classKept _ true ks ns).trans (State.raiseIn_classKept _ false ks ns)

/-- Each protection raises the sources of the list (R289). -/
theorem State.view_discRaised (s : State) (x : Bool) (ks : List Nat) (ns : Nat) : ∃ p,
    (s.discRaised ks ns).view x = { raisedIn ks (s.view x) with permit := p } := by
  obtain ⟨p, hfirst⟩ := s.discSet.view_raiseIn true ks ns
  obtain ⟨q, hsecond⟩ := (s.discSet.raiseIn true ks ns).view_raiseIn false ks ns
  cases x with
  | true => exact ⟨p, (hsecond true).trans (hfirst true)⟩
  | false => exact ⟨q, (hsecond false).trans (by rw [if_pos rfl, hfirst]; rfl)⟩

/-- A source of class Block or above that neither view raised brings a block request of each protection (R289, R293). -/
theorem State.discRaised_fires {s : State} {ks : List Nat} {k : Nat} (ns : Nat) (hk : k ∈ ks) (hlt : k < 71) (hclass : 4 ≤ s.srcClass k)
    (ha : s.prt.a.raised.contains k = false) (hb : s.prt.b.raised.contains k = false) :
    (s.discRaised ks ns).lnk.blocks = s.lnk.blocks + 2 ∧ (s.discRaised ks ns).prt.firedNow = true ∧
      (s.discRaised ks ns).prt.a.permit = false ∧ (s.discRaised ks ns).prt.b.permit = false := by
  have hclass' : 4 ≤ (s.discSet.raiseIn true ks ns).srcClass k := by rwa [(s.discSet.raiseIn_classKept true ks ns).srcClass]
  obtain ⟨p, hfirst⟩ := s.discSet.view_raiseIn true ks ns
  obtain ⟨q, hsecond⟩ := (s.discSet.raiseIn true ks ns).view_raiseIn false ks ns
  have hnewB : ((s.discSet.raiseIn true ks ns).view false).raised.contains k = false := by
    rw [hfirst, if_neg (by decide)]
    exact hb
  obtain ⟨hblocksA, -, hpermitA⟩ := State.raiseIn_fires (s := s.discSet) (isA := true) ns hk hlt ha hclass
  obtain ⟨hblocksB, hfired, hpermitB⟩ := State.raiseIn_fires (isA := false) ns hk hlt hnewB hclass'
  exact ⟨hblocksB.trans (congrArg (· + 1) hblocksA), hfired, (congrArg PrtView.permit (hsecond true)).trans hpermitA, hpermitB⟩

/-! An escalation. -/

/-- Source k has escalated by the timer of a protection (R297). -/
def State.escMarked (s : State) (isA : Bool) (k : Nat) : State :=
  { s with prt := { s.prt with esc := if s.prt.esc.contains k then s.prt.esc else k :: s.prt.esc, escNow := (k, isA) :: s.prt.escNow } }

/-- The state after the expiry of a degrade timer: the escalation with its block request, before the permits follow (R293, R297). -/
def State.escFired (s : State) (isA : Bool) (k ns : Nat) : State := ((s.escMarked isA k).latch R.PRT_CAUSE 3).blockRequest isA ns

/-- The permits of both protections follow (R290). -/
def State.escExpired (s : State) (isA : Bool) (k ns : Nat) : State := ((s.escFired isA k ns).prtRefresh true).prtRefresh false

theorem exec_degradeExpiry {isA : Bool} {k : Nat} {s : State} (ns : Nat) (hdev : s.devRaised.contains k = true)
    (hraised : (s.view isA).raised.contains k = true) (hcls : s.rf (R.PRT_SRC_CFG k) 30 28 = 3) (hlimit : s.degLimitEp k ≤ (s.view isA).degTimer k)
    (hesc : s.prt.esc.contains k = false ∨ (s.prt.escNow.contains (k, !isA) = true ∧ s.prt.escNow.contains (k, isA) = false)) :
    exec (.degradeExpiry isA k ns) s = .next (s.escExpired isA k ns) :=
  if_pos ⟨hdev, hraised, hcls, hlimit, hesc⟩

theorem State.latchCause_pairKept (s : State) (b : Nat) : PairKept s (s.latch R.PRT_CAUSE b) :=
  .of_prt (s.latch_prt _ b) (s.latch_sys _ b) ((s.latch_regsBut _ b).mono (by simp))

theorem State.escFired_pairKept (s : State) (isA : Bool) (k ns : Nat) : PairKept (s.escMarked isA k) (s.escFired isA k ns) :=
  ((s.escMarked isA k).latchCause_pairKept 3).trans (State.blockRequest_pairKept _ isA ns)

theorem State.escExpired_classKept (s : State) (isA : Bool) (k ns : Nat) : ClassKept (s.escMarked isA k) (s.escExpired isA k ns) :=
  ((s.escFired_pairKept isA k ns).toClassKept.trans (State.prtRefresh_classKept _ true)).trans (State.prtRefresh_classKept _ false)

theorem State.escExpired_regsBut (s : State) (isA : Bool) (k ns : Nat) :
    RegsBut [R.PRT_CAUSE, R.PRT_BLOCK_LATCH, R.PRT_BLOCK_CNT] s (s.escExpired isA k ns) :=
  (RegsBut.of_regs rfl).trans (s.escExpired_classKept isA k ns).regs

/-- An expired degrade timer fires the block logic once (R293). -/
theorem State.escExpired_blocks (s : State) (isA : Bool) (k ns : Nat) : (s.escExpired isA k ns).lnk.blocks = s.lnk.blocks + 1 := by
  rw [State.escExpired, State.prtRefresh_lnk, State.prtRefresh_lnk, State.escFired, State.blockRequest_blocks]
  rfl

theorem State.escExpired_firedNow (s : State) (isA : Bool) (k ns : Nat) : (s.escExpired isA k ns).prt.firedNow = true := by
  rw [State.escExpired, State.prtRefresh_firedNow, State.prtRefresh_firedNow, State.escFired, State.blockRequest_firedNow]

/-- PRT_CAUSE shows the escalation and the firing. -/
theorem State.escExpired_cause (s : State) (isA : Bool) (k ns : Nat) :
    (s.escExpired isA k ns).rb R.PRT_CAUSE 3 = true ∧ (s.escExpired isA k ns).rb R.PRT_CAUSE 0 = true := by
  have hregs : (s.escExpired isA k ns).regs = (s.escFired isA k ns).regs := (State.prtRefresh_regs _ false).trans (State.prtRefresh_regs _ true)
  rw [State.rb, State.rb, State.reg_congr hregs]
  exact ⟨State.rb_blockRequest_keeps isA ns (State.rb_latch _ _ _ (by decide)), State.blockFire_prtCause _ _ _⟩

theorem State.view_escExpired (s : State) (isA x : Bool) (k ns : Nat) : ∃ p, (s.escExpired isA k ns).view x = { s.view x with permit := p } := by
  have hview : (s.escFired isA k ns).view x = s.view x := (s.escFired_pairKept isA k ns).view x
  cases x <;> exact ⟨_, by rw [State.escExpired, State.view_prtRefresh, State.view_prtRefresh, ← hview]; rfl⟩

/-- A source whose class is Block or above after its escalation withdraws the permit of each protection that raises it (R290). -/
theorem State.escExpired_permit {s : State} {isA x : Bool} {k : Nat} (ns : Nat) (hraised : k ∈ (s.view x).raised)
    (hclass : 4 ≤ (s.escMarked isA k).srcClass k) : ((s.escExpired isA k ns).view x).permit = false := by
  have hkept := s.escFired_pairKept isA k ns
  have hfired : k ∈ ((s.escFired isA k ns).view x).raised := by rwa [hkept.view]
  cases x with
  | true =>
    rw [State.escExpired, State.view_prtRefresh, if_neg (by decide)]
    exact State.prtRefresh_permit hfired (by rwa [hkept.srcClass])
  | false =>
    refine State.prtRefresh_permit ?_ (by rwa [(State.prtRefresh_classKept _ true).srcClass, hkept.srcClass])
    rwa [State.view_prtRefresh, if_neg (by decide)]

/-- A Bin record writes no register of the block. -/
theorem State.binPush_prtRegs (s : State) (e : BinEnt) : PrtRegsKept s (s.binPush e) := by
  unfold State.binPush
  split
  · exact (s.countSuppressed_prtRegs 1).trans (.of_regs rfl)
  · extract_lets start q s1 on rep q' s2 t3 s3
    have h1 : PrtRegsKept s s1 := .ite ((s.latch_prtRegs 0 (by decide)).trans (State.countSuppressed_prtRegs _ _)) (.refl s)
    have h2 : PrtRegsKept s1 s2 := .ite (s1.countSuppressed_prtRegs 1) (.refl s1)
    have h3 : PrtRegsKept s2 s3 := .of_regs rfl
    exact h1.trans (h2.trans (h3.trans ((s3.setReg_prtRegs _ (by decide)).trans (State.noteLt_prtRegs _ _ _))))

theorem State.sourceRecord_prtRegs (s : State) (k : Nat) (up : Bool) (d : DevSrc) (tag : Epoch) : PrtRegsKept s (s.sourceRecord k up d tag) := by
  unfold State.sourceRecord
  extract_lets cls detail u
  have hbin : PrtRegsKept s u := State.binPush_prtRegs s _
  exact .ite (hbin.trans (State.eventMask_prtRegs _ _ _ _ _ _ _)) hbin

theorem State.escalateDev_eq (s : State) (tag : Epoch) (k : Nat) : ∃ d, s.escalateDev tag k =
    (if s.srcClass k = 5 then ({ s.latch R.PRT_CAUSE 7 with prt := { s.prt with lockPending := true } } : State)
      else (s.latch R.PRT_CAUSE 7).latch R.PRT_CAUSE 1).sourceRecord k true d tag := by
  have hclass := (s.latchCause_pairKept 7).srcClass k
  refine ⟨(smGet none s.prt.dev k).getD ⟨0, 0⟩, ?_⟩
  rw [← hclass]
  rfl

/-- The reaction to an escalation to class Lock-out (R295, R297). -/
theorem State.escalateDev_lock {s : State} {k : Nat} (tag : Epoch) (hclass : s.srcClass k = 5) :
    (s.escalateDev tag k).prt.lockPending = true := by
  obtain ⟨d, heq⟩ := s.escalateDev_eq tag k
  rw [heq, if_pos hclass, keep_prt (s := { s.latch R.PRT_CAUSE 7 with prt := { s.prt with lockPending := true } }) (by simp)]

/-- The reaction to an escalation to another class, Block among them (R295, R297). -/
theorem State.escalateDev_block {s : State} {k : Nat} (tag : Epoch) (hclass : s.srcClass k ≠ 5) :
    (s.escalateDev tag k).rb R.PRT_CAUSE 1 = true := by
  obtain ⟨d, heq⟩ := s.escalateDev_eq tag k
  rw [heq, if_neg hclass, State.rb, State.sourceRecord_prtRegs _ _ _ _ _ _ (by decide)]
  exact State.rb_latch _ _ _ (by decide)

/-! A recovery timer. -/

/-- The recovery timer of source k in a protection has ended; an escalation that nothing holds ends with it (R296, R301). -/
def State.recoveryEnded (s : State) (isA : Bool) (k : Nat) : State :=
  let u := s.updView isA (fun v => { v with recover := smErase v.recover k })
  let busy (v : PrtView) : Bool := v.raised.contains k || (smGet none v.recover k).isSome
  if busy u.prt.a || busy u.prt.b then u else { u with prt := { u.prt with esc := u.prt.esc.erase k } }

/-- A recovery timer that ends changes its own protection's timers alone, in the views (R301). -/
theorem State.view_recoveryEnded (s : State) (isA x : Bool) (k : Nat) : (s.recoveryEnded isA k).view x =
    if x = isA then { s.view isA with recover := smErase (s.view isA).recover k } else s.view x := by
  rw [← s.view_updView isA x fun v => { v with recover := smErase v.recover k }]
  unfold State.recoveryEnded
  extract_lets u busy
  split <;> rfl

theorem State.recoveryEnded_sys (s : State) (isA : Bool) (k : Nat) : (s.recoveryEnded isA k).sys = s.sys := by
  rw [← (s.updView_classKept isA fun v => { v with recover := smErase v.recover k }).sys]
  unfold State.recoveryEnded
  extract_lets u busy
  split <;> rfl

/-- An escalation stays while Protection A raises its source (R296). -/
theorem State.recoveryEnded_esc_raised {s : State} {k : Nat} (isA : Bool) (h : s.prt.a.raised.contains k = true) :
    (s.recoveryEnded isA k).prt.esc = s.prt.esc := by
  unfold State.recoveryEnded
  extract_lets u busy
  have hbusy : busy u.prt.a = true := by
    have hu : u.prt.a.raised = s.prt.a.raised := by cases isA <;> rfl
    simp only [busy, hu, h, Bool.true_or]
  rw [if_pos (by rw [hbusy, Bool.true_or])]
  exact (s.updView_classKept isA _).esc

/-- An escalation ends when neither protection raises its source or times its recovery (R296). -/
theorem State.recoveryEnded_esc_ended {s : State} {isA : Bool} {k : Nat} (ha : s.prt.a.raised.contains k = false)
    (hb : s.prt.b.raised.contains k = false) (hother : smGet none (s.view (!isA)).recover k = none) :
    (s.recoveryEnded isA k).prt.esc = s.prt.esc.erase k := by
  unfold State.recoveryEnded
  extract_lets u busy
  have hidle (x : Bool) : busy (u.view x) = false := by
    have hraised : (s.view x).raised.contains k = false := by cases x <;> assumption
    simp only [busy, u, State.view_updView]
    split
    · next hx => simp only [← hx, hraised, smGet_smErase, if_true, Option.isSome_none, Bool.or_self]
    · next hx =>
      have hx' : x = !isA := Bool.eq_not.mpr hx
      simp only [hraised, hx' ▸ hother, Option.isSome_none, Bool.or_self]
  rw [if_neg (by rw [show u.prt.a = u.view true from rfl, show u.prt.b = u.view false from rfl, hidle, hidle]; decide)]
  exact congrArg (·.erase k) (s.updView_classKept isA _).esc

/-- The permits of both protections are decided again (R290). -/
def State.permitsAgain (s : State) : State := (s.permitAgain true).permitAgain false

theorem State.view_permitsAgain (s : State) (x : Bool) : s.permitsAgain.view x = { s.view x with
    permit := (decide ((s.view x).tag = some (s.sys.epoch - 1)) || decide ((s.view x).tag = some (s.sys.epoch - 2))) &&
      s.permitsAgain.permitOf (s.view x) } := by
  cases x <;> rfl

/-- The permit of a protection whose last pass is that of the present epoch (R290). -/
theorem State.permitsAgain_permit {s : State} {x : Bool} (htag : (s.view x).tag = some (s.sys.epoch - 1)) :
    (s.permitsAgain.view x).permit = s.permitsAgain.permitOf (s.permitsAgain.view x) := by
  rw [State.view_permitsAgain, htag, decide_eq_true rfl, Bool.true_or, Bool.true_and]
  rfl

theorem exec_recoveryTimerExpiry {isA : Bool} {k : Nat} {e : Epoch} {s : State} (he : smGet none (s.view isA).recover k = some e)
    (hdue : epGe s.sys.epoch e = true) : exec (.recoveryTimerExpiry isA k) s = .next (s.recoveryEnded isA k).permitsAgain := by
  show execRecoveryTimerExpiry isA k s = _
  unfold execRecoveryTimerExpiry
  rw [he]
  exact if_pos hdue

/-! The obligation. -/

/-- A pass that runs (R20, R285). -/
theorem exec_protectionPass {isA : Bool} {item : Nat} {s : State} (ns : Nat) (hitem : item = (if isA then 9 else 10))
    (hcnt : s.sys.counting = true) (hmiss : bit s.sys.missNow item = false) (hhalt : s.itemHalted item = false) :
    exec (.protectionPass isA ns) s = .next (s.prtPass isA ns) := by
  subst hitem
  exact congrArg _ (State.runItem_runs _ hcnt hmiss hhalt)

/-- Settles O29: a pass places its view, acts on it and counts the discrepancy runs; AB_DISC is a raise in both views; an expired degrade
timer is an escalation and a block request, and an expired recovery timer is the end of its entry, with the permits decided again. -/
theorem protectionPasses : Obligations.ProtectionPasses := by
  refine ⟨fun isA ns item s hitem hcnt hmiss hhalt => ?pass, fun k n s hnot hon hrun hlimit => ?disc,
    fun isA k ns s hlt hdev hraised hcls hlimit hesc => ?degrade, fun isA k ns s hlt hdev hraised hcls hlimit hesc hother hown => ?second,
    fun isA k e s he hdue => ?recovery⟩
  case pass =>
    have hexec := exec_protectionPass ns hitem hcnt hmiss hhalt
    obtain ⟨v, hpass, heffect⟩ := s.prtPass_sources isA ns
    refine ⟨_, hexec, heffect.tag.trans hpass.tag, heffect.done.trans hpass.done, fun k => (hpass.mem_newly heffect k).mp,
      fun k hk hnew => (hpass.mem_newly heffect k).mpr ⟨hk, hnew⟩, State.prtPass_other isA ns, State.prtPass_ends, fun hoff hep k hk => ?_,
      fun q hon hrole hlim => heffect.raised_of_ne (by decide) (hpass.dcOc q hon hrole hlim), fun hon ⟨k, hk, hsevere⟩ =>
      State.prtPass_fires hon hk hsevere, execProtectionPass_frame isA ns hexec⟩
    simpa [offSources] using hpass.off hoff hep k (heffect.mem_raised hk)
  case disc =>
    obtain ⟨ks, ns, hks, hexec⟩ := exec_abDisc hnot hon hrun hlimit
    have hkept := s.discRaised_classKept ks ns
    have hin (x : Bool) : 56 ∈ ((s.discRaised ks ns).view x).raised := by
      obtain ⟨p, hview⟩ := s.view_discRaised x ks ns
      rw [hview]
      exact mem_raisedIn _ hks (by decide)
    exact ⟨_, hexec, hkept.abDisc, hin true, hin false, hkept.disc, State.discRaised_fires ns hks (by decide), execAbDisc_frame hexec⟩
  case degrade =>
    have hexec := exec_degradeExpiry ns hdev hraised hcls hlimit (.inl hesc)
    have hmarked : (s.escMarked isA k).prt.esc = k :: s.prt.esc := if_neg (by rw [hesc]; decide)
    have hkept := s.escExpired_classKept isA k ns
    have hin : (s.escMarked isA k).prt.esc.contains k = true := by simp [hmarked]
    have hclass : (s.escMarked isA k).srcClass k = s.rf (R.PRT_SRC_CFG k) 27 25 := State.srcClass_escalated hin
    obtain ⟨hcause3, hcause0⟩ := s.escExpired_cause isA k ns
    refine ⟨_, hexec, hkept.esc.trans hmarked, hkept.escNow, hcause3, hcause0, s.escExpired_blocks isA k ns, s.escExpired_firedNow isA k ns,
      fun x => ?_, fun hsevere => ?_, fun tag hlock => ?_, fun tag hblock => ?_, s.escExpired_regsBut isA k ns,
      execDegradeExpiry_frame isA k ns hexec⟩
    · obtain ⟨p, hview⟩ := s.view_escExpired isA x k ns
      rw [hview]
      exact ⟨rfl, rfl⟩
    · exact State.escExpired_permit ns (List.contains_iff_mem.mp hraised) (by rwa [hclass])
    · exact State.escalateDev_lock tag (by rw [hkept.srcClass, hclass, hlock])
    · exact State.escalateDev_block tag (by rw [hkept.srcClass, hclass, hblock]; decide)
  case second =>
    have hexec := exec_degradeExpiry ns hdev hraised hcls hlimit (.inr ⟨hother, hown⟩)
    have hmarked : (s.escMarked isA k).prt.esc = s.prt.esc := if_pos hesc
    exact ⟨_, hexec, (s.escExpired_classKept isA k ns).esc.trans hmarked, s.escExpired_blocks isA k ns, s.escExpired_regsBut isA k ns,
      execDegradeExpiry_frame isA k ns hexec⟩
  case recovery =>
    have hexec := exec_recoveryTimerExpiry he hdue
    have hview (x : Bool) := (s.recoveryEnded isA k).view_permitsAgain x
    have hended (x : Bool) := s.view_recoveryEnded isA x k
    refine ⟨_, hexec, ?_, fun x => ?_, ?_, fun ha hb hidle => State.recoveryEnded_esc_ended ha hb hidle,
      fun ha => State.recoveryEnded_esc_raised isA ha, fun htag => ?_, execRecoveryTimerExpiry_frame isA k hexec⟩
    · rw [hview, hended, if_pos rfl]
    · rw [hview, hended]
      split
      · next hx => rw [hx]
      · rfl
    · rw [hview, hended, if_neg (by simp)]
    · refine State.permitsAgain_permit ?_
      rw [hended, if_pos rfl, State.recoveryEnded_sys]
      exact htag

end Sys2Proof.Machine
end

section
/-! PROOFS. The device taken down (O46): what remains of the Trunk when its supplies or PORST_N take the device down. -/

namespace Sys2Proof.Machine

/-- What the write in progress leaves when it is cut off: the slot that an object's write had taken is invalid, a ring's record is empty, and
the record whose place a Bin write had taken is lost (R427). -/
def TrkSt.cutOff (t : TrkSt) : TrkSt :=
  match t.busy with
  | some (.obj i _) => t.putObj i ((t.obj i).write [] false)
  | some (.ring _) => { t with ring := ([] :: t.ring).take 7 }
  | some (.bin _) => t.binGiveWay
  | none => t

/-- A write of an object leaves the Bin. -/
theorem TrkSt.putObj_bin (t : TrkSt) (i : TrkItem) (o : TrkObj) : (t.putObj i o).bin = t.bin ∧ (t.putObj i o).binSeq = t.binSeq := by
  cases i <;> exact ⟨rfl, rfl⟩

theorem TrkSt.cutOff_binSeq (t : TrkSt) : t.cutOff.binSeq = t.binSeq := by
  unfold TrkSt.cutOff
  split
  · exact (t.putObj_bin _ _).2
  · rfl
  · rfl
  · rfl

/-- Of the writes in progress only that of a Bin record costs a record of the Bin (R427). -/
theorem TrkSt.cutOff_bin {t : TrkSt} (h : ∀ e, t.busy ≠ some (.bin e)) : t.cutOff.bin = t.bin := by
  unfold TrkSt.cutOff
  split
  · exact (t.putObj_bin _ _).1
  · rfl
  · next e hbusy => exact absurd hbusy (h e)
  · rfl

theorem TrkSt.cutOff_giveWay {t : TrkSt} {e : BinEnt} (h : t.busy = some (.bin e)) : t.cutOff = t.binGiveWay := by
  unfold TrkSt.cutOff
  rw [h]

theorem TrkSt.cutOff_idle {t : TrkSt} (h : t.busy = none) : t.cutOff = t := by
  unfold TrkSt.cutOff
  rw [h]

/-- A device that is down is one at reset, with the Trunk as the write in progress leaves it, and nothing waiting (R367, R427, R476). -/
theorem State.downState_eq (s : State) : s.downState = { State.reset with
    trk := { s.trk.cutOff with
      busy := none, waiting := [], waitRing := [], queue := [], coalescing := false, writeProt := false, formatted := false, suppressed := [] }
    freeCount := s.freeCount, pending := s.pending } := rfl

theorem State.downState_frame_reset (s : State) : Frame [.trk, .freeCount, .pending] State.reset s.downState := by
  rw [State.downState_eq]
  intro p hp
  cases p
  case trk | freeCount | pending => exact absurd hp (by decide)
  all_goals rfl

/-- Settles O46: both commands lead to the state that downState_eq describes, and each kind of write in progress is a case of cutOff. -/
theorem deviceDown : Obligations.DeviceDown := by
  refine fun s => ⟨s.downState, rfl, rfl, s.downState_frame_reset, rfl, fun hnobin => ?_, fun e hbin => ?_, s.trk.cutOff_binSeq, rfl, rfl, rfl, rfl,
    fun hidle => ?_⟩
  · exact TrkSt.cutOff_bin hnobin
  · rw [← TrkSt.cutOff_giveWay hbin]
    rfl
  · have hcut := TrkSt.cutOff_idle hidle
    rw [State.downState_eq, hcut]
    exact ⟨rfl, rfl, rfl, rfl, rfl, rfl, rfl, rfl⟩

end Sys2Proof.Machine
end

section
/-! PROOFS. Reads with effects (O54): the words of totals, tallies and Bin records with the shadows that they load, and the accesses of the
test access port. -/

namespace Sys2Proof.Machine

/-! Where a read finds its register. -/

/-- The base of the register array at an offset, and the index in it (R464). -/
def regPlace (off : Nat) : Option (Nat × Nat) := (regDef off).map fun x => (x.1.base, x.2)

theorem regPlace_totalLo : ∀ q < 6, regPlace (R.MTR_TOTAL_LO q) = some (R.MTR_TOTAL_LO 0, q) := by decide +kernel

theorem regPlace_wide : ∀ y < 3, ∀ q < 6, regPlace (wideOff y q 0) = some (R.MTR_WIDE 0, 24 * y + 4 * q) := by decide +kernel

theorem regPlace_binData : ∀ w < 16, regPlace (R.TRK_BIN_DATA w) = some (R.TRK_BIN_DATA 0, w) := by decide +kernel

/-- A read above the link tables gives the word of a total, of a tally or of a Bin record with its effects, and any other word without
one (R335, R433, R450). -/
theorem State.readReg_place {off base i : Nat} (s : State) (r : Requester) (hlow : R.LNK_TBL_DATA < off) (hhigh : off < 0x4000)
    (hplace : regPlace off = some (base, i)) : s.readReg r off = some (
      if base = R.MTR_TOTAL_LO 0 then s.totalLoRead r i
      else if base = R.MTR_WIDE 0 ∧ i % 4 = 0 then s.wideRead r (i / 24) (i / 4 % 6)
      else if base = R.TRK_BIN_DATA 0 then s.binRead r i
      else (s.regValue r off base i, s)) := by
  obtain ⟨⟨d, j⟩, hdef, hdj⟩ := Option.map_eq_some_iff.mp hplace
  obtain ⟨rfl, rfl⟩ := Prod.mk.inj hdj
  have hepoch : off ≠ R.SYS_EPOCH_LO := (lt_trans (by decide) hlow).ne'
  simp only [State.readReg, Nat.mod_eq_of_lt hhigh, hdef, if_neg hepoch, if_neg hlow.ne']
  split_ifs <;> rfl

theorem State.readReg_totalLo (s : State) (r : Requester) {q : Nat} (hq : q < 6) :
    s.readReg r (R.MTR_TOTAL_LO q) = some (s.totalLoRead r q) := by
  rw [s.readReg_place r (by simp only [R.LNK_TBL_DATA, R.MTR_TOTAL_LO]; omega) (by simp only [R.MTR_TOTAL_LO]; omega)
    (regPlace_totalLo q hq), if_pos rfl]

theorem State.readReg_wide (s : State) (r : Requester) {y q : Nat} (hy : y < 3) (hq : q < 6) :
    s.readReg r (wideOff y q 0) = some (s.wideRead r y q) := by
  have hword : (24 * y + 4 * q) % 4 = 0 := by omega
  have htally : (24 * y + 4 * q) / 24 = y := by omega
  have hquantity : (24 * y + 4 * q) / 4 % 6 = q := by omega
  rw [s.readReg_place r (by simp only [R.LNK_TBL_DATA, wideOff]; omega) (by simp only [wideOff]; omega) (regPlace_wide y hy q hq),
    if_neg (by decide), if_pos ⟨rfl, hword⟩, htally, hquantity]

theorem State.readReg_binData (s : State) (r : Requester) {w : Nat} (hw : w < 16) :
    s.readReg r (R.TRK_BIN_DATA w) = some (s.binRead r w) := by
  rw [s.readReg_place r (by simp only [R.LNK_TBL_DATA, R.TRK_BIN_DATA]; omega) (by simp only [R.TRK_BIN_DATA]; omega) (regPlace_binData w hw),
    if_neg (by decide), if_neg (fun h => absurd h.1 (by decide)), if_pos rfl]

/-- A read of an implemented register that a requester is served delivers its word (R450). -/
theorem State.readCmd_of_readReg {s : State} {r : Requester} {off : Nat} {x : Word × State} (hserves : s.serves r = true)
    (hread : s.readReg r off = some x) : s.readCmd r off = x.2.emit (.readData r off x.1) := by
  unfold State.readCmd
  rw [if_pos hserves, hread]

/-! Totals and tallies. -/

theorem exec_totalLoRead_total {r : Requester} {q : Nat} {s : State} (hserves : s.serves r = true) (hq : q < 6) :
    exec (.totalLoRead r (R.MTR_TOTAL_LO q)) s =
      .next ((s.totalLoRead r q).2.emit (.readData r (R.MTR_TOTAL_LO q) (s.totalLoRead r q).1)) := by
  refine congrArg Host.Outcome.next ((if_pos (.inl ?_)).trans (State.readCmd_of_readReg hserves (s.readReg_totalLo r hq)))
  simp only [R.MTR_TOTAL_LO]
  omega

theorem exec_totalLoRead_tally {r : Requester} {y q : Nat} {s : State} (hserves : s.serves r = true) (hy : y < 3) (hq : q < 6) :
    exec (.totalLoRead r (wideOff y q 0)) s =
      .next ((s.wideRead r y q).2.emit (.readData r (wideOff y q 0) (s.wideRead r y q).1)) := by
  refine congrArg Host.Outcome.next ((if_pos (.inr ?_)).trans (State.readCmd_of_readReg hserves (s.readReg_wide r hy hq)))
  simp only [R.MTR_WIDE, wideOff]
  omega

theorem ownKey_inj {r : Requester} {a b : Nat} : ownKey r a = ownKey r b ↔ a = b := Nat.add_left_cancel_iff

/-- A read of a total loads the shadows of its two other words from the same instant (R335). -/
theorem State.totalLoRead_shadows (s : State) (r : Requester) {q : Nat} (hq : q < 6) (hdomain : s.domain 45 = true) :
    (s.totalLoRead r q).1 = BitVec.ofNat 32 (smGet 0 s.mtr.totals q / 2 ^ 72) ∧
      (s.totalLoRead r q).2.reg (ownKey r (R.MTR_TOTAL_HI q)) = BitVec.ofNat 32 (smGet 0 s.mtr.totals q / 2 ^ 104) ∧
      (s.totalLoRead r q).2.reg (ownKey r (R.MTR_FRAC q)) = BitVec.ofNat 32 (smGet 0 s.mtr.totals q / 2 ^ 40) := by
  have hne : R.MTR_TOTAL_HI q ≠ R.MTR_FRAC q := by simp only [R.MTR_TOTAL_HI, R.MTR_FRAC]; omega
  simp only [State.totalLoRead, hdomain, if_true, State.reg_setReg, ownKey_inj, hne, if_false, and_self]

theorem State.totalLoRead_regsBut (s : State) (r : Requester) (q : Nat) :
    RegsBut [ownKey r (R.MTR_TOTAL_HI q), ownKey r (R.MTR_FRAC q)] s (s.totalLoRead r q).2 :=
  (s.setReg_regsBut _ _).pair (State.setReg_regsBut _ _ _)

/-- A read of the first word of a tally loads the shadows of the other three (R335). -/
theorem State.wideRead_shadow (s : State) (r : Requester) (y q : Nat) {w : Nat} (hlow : 1 ≤ w) (hhigh : w ≤ 3) :
    (s.wideRead r y q).2.reg (ownKey r (wideOff y q w)) = s.tallyWord y q w := by
  obtain rfl | rfl | rfl : w = 1 ∨ w = 2 ∨ w = 3 := by omega
  all_goals simp [State.wideRead, ownKey_inj, wideOff]

theorem State.wideRead_regsBut (s : State) (r : Requester) (y q : Nat) :
    RegsBut [ownKey r (wideOff y q 1), ownKey r (wideOff y q 2), ownKey r (wideOff y q 3)] s (s.wideRead r y q).2 :=
  .foldl (fun u w hw => (u.setReg_regsBut (ownKey r (wideOff y q w)) (s.tallyWord y q w)).mono fun k hk => by
    rw [List.mem_singleton.mp hk]
    exact List.mem_map_of_mem (f := fun w => ownKey r (wideOff y q w)) hw) s

/-! Bin records. -/

theorem exec_trkBinRead {r : Requester} {w : Nat} {s : State} (hserves : s.serves r = true) (hw : w < 16) :
    exec (.trkBinRead r w) s = .next ((s.binRead r w).2.emit (.readData r (R.TRK_BIN_DATA w) (s.binRead r w).1)) :=
  congrArg Host.Outcome.next ((if_pos hw).trans (State.readCmd_of_readReg hserves (s.readReg_binData r hw)))

theorem State.binRead_found {s : State} {r : Requester} {ws : List Nat} (w : Nat)
    (h : smFind s.trk.bin (s.reg (ownKey r R.TRK_BIN_SEL)).toNat = some ws) :
    s.binRead r w = (BitVec.ofNat 32 (ws.getD (w / 2) 0 / 2 ^ (32 * (w % 2))), s) := by
  rw [State.binRead, h]

theorem State.binRead_missing {s : State} {r : Requester} (w : Nat) (h : smFind s.trk.bin (s.reg (ownKey r R.TRK_BIN_SEL)).toNat = none) :
    s.binRead r w = (0, s.logErr r 6 (R.TRK_BIN_DATA w)) := by
  rw [State.binRead, h]

/-! Accesses of the test access port. -/

/-- The state in which Capture-DR of DBG_ACCESS loads n next (R484). -/
def State.withCapture (s : State) (n : Nat) : State := { s with dbg := { s.dbg with capture := n } }

/-- While JTAG_EN is clear an access loads its instruction, and does nothing (R482, R484). -/
theorem exec_dbgAccess_off {wr : Bool} {off ns : Nat} {w : Word} {s : State} (hoff : s.rb R.DBG_CTRL 30 = false) :
    exec (.dbgAccess wr off w ns) s = .next ((s.tapLoad 0x20).withCapture 0) := congrArg Host.Outcome.next (if_pos hoff)

section
variable {off ns : Nat} {w : Word} {s : State} (hlt : off < 0x10000) (hon : s.rb R.DBG_CTRL 30 = true)
include hlt hon

/-- While JTAG_EN is set a write is one of the management port (R482). -/
theorem exec_dbgAccess_write :
    exec (.dbgAccess true off w ns) s = .next (((s.tapLoad 0x20).regWrite .mgmt off w ns).withCapture (dbgCapture off 0)) := by
  have hon' : ¬ (s.tapLoad 0x20).rb R.DBG_CTRL 30 = false := by rw [Bool.not_eq_false]; exact hon
  refine congrArg Host.Outcome.next ((if_neg hon').trans ?_)
  rw [if_pos rfl, Nat.mod_eq_of_lt hlt]
  rfl

/-- While JTAG_EN is set a read is one of the management port (R482). -/
theorem exec_dbgAccess_read {x : Word × State} (hread : (s.tapLoad 0x20).readReg .mgmt off = some x) :
    exec (.dbgAccess false off w ns) s = .next (x.2.withCapture (dbgCapture off x.1)) := by
  have hon' : ¬ (s.tapLoad 0x20).rb R.DBG_CTRL 30 = false := by rw [Bool.not_eq_false]; exact hon
  refine congrArg Host.Outcome.next ((if_neg hon').trans ?_)
  rw [if_neg (by decide), Nat.mod_eq_of_lt hlt, hread]
  rfl

end

/-- Settles O54: each command is the read or the access that its operand asks for. -/
theorem readsWithEffects : Obligations.ReadsWithEffects := by
  refine ⟨fun r q s hserves hdomain hq => ?total, fun r y q s hserves hy hq => ?tally, fun r w s hserves hw => ?bin,
    fun wr off w ns s _ hoff => ⟨_, exec_dbgAccess_off hoff, rfl, ?_⟩,
    fun off w ns s hlt hon => ⟨_, exec_dbgAccess_write hlt hon, rfl⟩,
    fun off w ns x s hlt hon hread => ⟨_, exec_dbgAccess_read hlt hon hread, rfl, ?_⟩⟩
  case total =>
    obtain ⟨hword, hhigh, hfrac⟩ := s.totalLoRead_shadows r hq hdomain
    have hexec := exec_totalLoRead_total hserves hq
    rw [hword] at hexec
    exact ⟨_, hexec, rfl, hhigh, hfrac, s.totalLoRead_regsBut r q, by simp [State.totalLoRead]⟩
  case tally =>
    exact ⟨_, exec_totalLoRead_tally hserves hy hq, rfl, fun w hlow hhigh => s.wideRead_shadow r y q hlow hhigh, s.wideRead_regsBut r y q,
      by simp [State.wideRead]⟩
  case bin =>
    refine ⟨_, exec_trkBinRead hserves hw, fun ws hfound => ?_, fun hmissing => ?_⟩
    · rw [State.binRead_found w hfound]
      exact ⟨rfl, by simp⟩
    · rw [State.binRead_missing w hmissing]
  · simp [State.withCapture, State.tapLoad]
  · simp [State.withCapture]

end Sys2Proof.Machine
end

section
/-! PROOFS. The energies of the Metering Engine: what leaves its ledger, and the account that an energy joins. -/

namespace Sys2Proof.Machine

/-! The ledger. -/

/-- What the Metering Engine keeps beside its pulse outputs and its seal: the totals, the tallies, whether the totals are valid, and the
increments that wait. -/
def State.ledger (s : State) : SMap Nat × SMap Nat × Bool × List MtrInc := (s.mtr.totals, s.mtr.tallies, s.mtr.valid, s.mtr.incs)

theorem State.ledger_congr {s t : State} (h : t.mtr = s.mtr) : t.ledger = s.ledger := by
  unfold State.ledger
  rw [h]

theorem State.ledger_updPulse (s : State) (p : Nat) (f : PulseOut → PulseOut) : (s.updPulse p f).ledger = s.ledger := rfl

theorem State.ledger_latch (s : State) (k b : Nat) : (s.latch k b).ledger = s.ledger := rfl

/-- A pulse output that gains an energy leaves the ledger (R323). -/
theorem State.ledger_pulseGain (s : State) (p amount : Nat) : (s.pulseGain p amount).ledger = s.ledger := by
  unfold State.pulseGain
  dsimp only
  split
  · rfl
  · split
    · rw [State.ledger_latch, State.ledger_latch]
      exact s.ledger_updPulse p _
    · exact s.ledger_updPulse p _

theorem State.ledger_pulseGains (s : State) (ps : List Nat) (amount : Nat) :
    (ps.foldl (fun u p => u.pulseGain p amount) s).ledger = s.ledger :=
  view_foldl_eq (view := State.ledger) s fun u p _ => u.ledger_pulseGain p amount

theorem State.incs_congr {s t : State} (h : t.ledger = s.ledger) : t.mtr.incs = s.mtr.incs := congrArg (fun x => x.2.2.2) h

/-! Accounts. -/

/-- The energy of a quantity at a destination, in 2^−72 Wh (R318, R319). -/
def State.energyAt (s : State) (d : MtrDest) (q : Nat) : Nat :=
  match d with
  | .none => 0
  | .total => smGet 0 s.mtr.totals q
  | .start => smGet 0 s.mtr.tallies (6 * 0 + q)
  | .test => smGet 0 s.mtr.tallies (6 * 1 + q)
  | .doubt => smGet 0 s.mtr.tallies (6 * 2 + q)

/-- The size at which an account wraps (R317, R318). -/
def MtrDest.size : MtrDest → Nat
  | .total => 2 ^ 136
  | _ => 2 ^ 168

theorem State.energyAt_congr {s t : State} (h : t.ledger = s.ledger) (d : MtrDest) (q : Nat) : t.energyAt d q = s.energyAt d q := by
  simp only [State.ledger, Prod.mk.injEq] at h
  obtain ⟨htotals, htallies, -, -⟩ := h
  cases d <;> simp only [State.energyAt, htotals, htallies]

/-- Two tallies of quantities are the same one or have places of their own. -/
theorem tallyPlace_inj {y y' q q' : Nat} (hq : q < 6) (hq' : q' < 6) : 6 * y + q = 6 * y' + q' ↔ y = y' ∧ q = q' := by omega

/-- The energy of a quantity joins the account that it names, and no other (R318, R319). -/
theorem State.energyAt_mtrGain (s : State) {d d' : MtrDest} {q q' : Nat} (amount : Nat) (hd : d ≠ .none) (hq : q < 6) (hq' : q' < 6) :
    (s.mtrGain d' q' amount).energyAt d q = if d = d' ∧ q = q' then (s.energyAt d q + amount) % d.size else s.energyAt d q := by
  cases d' with
  | none => simp [State.mtrGain, hd]
  | total =>
    cases d with
    | none => exact absurd rfl hd
    | total =>
      simp only [State.mtrGain, State.energyAt, smGet_smUpd, true_and, MtrDest.size]
      exact ite_congr rfl (fun h => by rw [h]) fun _ => rfl
    | start | test | doubt => simp [State.mtrGain, State.energyAt]
  | start | test | doubt =>
    cases d with
    | none => exact absurd rfl hd
    | total => simp [State.mtrGain, State.energyAt]
    | start | test | doubt =>
      simp only [State.mtrGain, State.energyAt, smGet_smUpd, tallyPlace_inj hq hq', MtrDest.size]
      refine ite_congr (by simp) (fun h => ?_) fun _ => rfl
      obtain ⟨⟨⟩, rfl⟩ := h <;> rfl

end Sys2Proof.Machine
end

section
/-! PROOFS. Meter actions (O33): the energies that a MERGE and a DISCARD move, their results, and the seal. -/

namespace Sys2Proof.Machine

/-! The result of an action. -/

/-- A register bit outside the registers that a change writes is kept. -/
theorem RegsBut.rb {ks : List Nat} {s t : State} (h : RegsBut ks s t) {k : Nat} (hk : k ∉ ks) (b : Nat) : t.rb k b = s.rb k b := by
  rw [State.rb, State.rb, h k hk]

theorem State.mtrResult_mtr (s : State) (n : Nat) : (s.mtrResult n).mtr = s.mtr := by
  rw [State.mtrResult, State.latch_mtr, State.setRf_mtr]

theorem State.rb_mtrResult (s : State) (n : Nat) : (s.mtrResult n).rb R.MTR_CAUSE 6 = true := State.rb_latch _ _ _ (by decide)

theorem State.rf_mtrResult (s : State) {n : Nat} (hn : n < 8) : (s.mtrResult n).rf R.MTR_ACTION_STAT 2 0 = n := by
  rw [State.mtrResult, State.rf_latch_ne _ (by decide) (.inl (by decide)), State.rf_setRf _ _ _ _ _ (by decide)]
  exact Nat.mod_eq_of_lt hn

theorem State.mtrResult_regsBut (s : State) (n : Nat) : RegsBut [R.MTR_ACTION_STAT, R.MTR_CAUSE] s (s.mtrResult n) :=
  (s.setRf_regsBut _ _ _ _).pair (State.latch_regsBut _ _ _)

theorem State.ledger_mtrNone (s : State) (cause y : Nat) (qs : List Nat) : (s.mtrNone cause y qs).ledger = s.ledger :=
  State.ledger_congr (keep_mtr (by simp))

theorem mem_mtrQs {m q : Nat} (hq : q < 6) : q ∈ mtrQs m ↔ bit m q = true := by
  simp [mtrQs, bitList, hq]

theorem nodup_mtrQs (m : Nat) : (mtrQs m).Nodup := List.nodup_range.filter _

/-! MERGE. -/

/-- The energy x of one quantity of a tally has gone to its total (R321). -/
def State.moved (s : State) (y q x : Nat) : State :=
  ({ s with mtr := { s.mtr with tallies := smErase s.mtr.tallies (6 * y + q) } } : State).mtrGain .total q x

/-- The pulse outputs that count a quantity gain what a MERGE moves (R321). -/
def State.mergePulses (s : State) (q x : Nat) : State :=
  ((List.range 8).filter (fun p => s.rb (R.MTR_PULSE_CFG p) 31 && !s.pulseBad p && s.rf (R.MTR_PULSE_CFG p) 26 24 = q)).foldl
    (fun u p => u.pulseGain p x) s

/-- MERGE of one quantity (R321). -/
def State.mergeOne (s : State) (y q : Nat) : State :=
  ((s.mtrRecord 0xA0 y q).moved y q (smGet 0 s.mtr.tallies (6 * y + q))).mergePulses q (smGet 0 s.mtr.tallies (6 * y + q))

/-- The quantities of a MERGE: all six of START (R321). -/
def mergeQs (y m : Nat) : List Nat := if y = 0 then List.range 6 else mtrQs m

theorem nodup_mergeQs (y m : Nat) : (mergeQs y m).Nodup := by
  unfold mergeQs
  split
  · exact List.nodup_range
  · exact nodup_mtrQs m

theorem mem_mergeQs {y m q : Nat} (hq : q < 6) : q ∈ mergeQs y m ↔ y = 0 ∨ bit m q = true := by
  unfold mergeQs
  split
  · next hy => simp [hy, hq]
  · next hy => simp [hy, mem_mtrQs hq]

/-- The quantities of a MERGE merged, with the record of a MERGE that names none (R321). -/
def State.merged (s : State) (y m : Nat) : State :=
  ((mergeQs y m).foldl (fun u q => u.mergeOne y q) s).mtrNone 0xA0 y (mergeQs y m)

/-- MERGE of START makes the totals valid (R321). -/
def State.validated (s : State) (y : Nat) : State := if y = 0 then { s with mtr := { s.mtr with valid := true } } else s

theorem State.mtrMerge_eq (s : State) {y : Nat} (m : Nat) (hy : y < 3) : s.mtrMerge y m = ((s.merged y m).validated y).mtrResult 2 := by
  rw [State.mtrMerge, if_neg (by omega)]
  rfl

theorem State.ledger_mergeOne (s : State) (y q : Nat) : (s.mergeOne y q).ledger =
    (smUpd 0 s.mtr.totals q (fun e => (e + smGet 0 s.mtr.tallies (6 * y + q)) % 2 ^ 136), smErase s.mtr.tallies (6 * y + q), s.mtr.valid,
      s.mtr.incs) := by
  have hrec : (s.mtrRecord 0xA0 y q).mtr = s.mtr := keep_mtr (by simp)
  refine (State.ledger_pulseGains _ _ _).trans ?_
  simp only [State.ledger, State.moved, State.mtrGain, hrec]

theorem State.ledger_merged (s : State) (y m : Nat) :
    (s.merged y m).ledger = ((mergeQs y m).foldl (fun u q => u.mergeOne y q) s).ledger := State.ledger_mtrNone _ _ _ _

/-- A MERGE of several quantities moves each of them once. -/
theorem State.foldl_mergeOne {qs : List Nat} (hnodup : qs.Nodup) (s : State) (y q : Nat) :
    smGet 0 (qs.foldl (fun u q => u.mergeOne y q) s).mtr.totals q =
        (if q ∈ qs then (smGet 0 s.mtr.totals q + smGet 0 s.mtr.tallies (6 * y + q)) % 2 ^ 136 else smGet 0 s.mtr.totals q) ∧
      smGet 0 (qs.foldl (fun u q => u.mergeOne y q) s).mtr.tallies (6 * y + q) =
        (if q ∈ qs then 0 else smGet 0 s.mtr.tallies (6 * y + q)) := by
  induction qs generalizing s with
  | nil => exact ⟨rfl, rfl⟩
  | cons a qs ih =>
    obtain ⟨ha, hqs⟩ := List.nodup_cons.mp hnodup
    have hledger := s.ledger_mergeOne y a
    simp only [State.ledger, Prod.mk.injEq] at hledger
    obtain ⟨htotals, htallies, -, -⟩ := hledger
    obtain ⟨htotal, htally⟩ := ih hqs (s.mergeOne y a)
    rw [List.foldl_cons, htotal, htally, htotals, htallies]
    by_cases hqa : q = a
    · subst hqa
      simp [ha]
    · simp [hqa]

theorem State.valid_foldl_mergeOne (qs : List Nat) (s : State) (y : Nat) :
    (qs.foldl (fun u q => u.mergeOne y q) s).mtr.valid = s.mtr.valid :=
  view_foldl_eq (view := fun u => u.mtr.valid) s fun u q _ => congrArg (fun x => x.2.2.1) (u.ledger_mergeOne y q)

theorem State.validated_mtr (s : State) (y : Nat) : (s.validated y).mtr = { s.mtr with valid := decide (y = 0) || s.mtr.valid } := by
  unfold State.validated
  split
  · next hy => simp [hy]
  · next hy => simp [hy]

/-- What a MERGE makes of the energies and of their validity (R321). -/
theorem State.mtrMerge_energies (s : State) {y : Nat} (m : Nat) (hy : y < 3) :
    (s.mtrMerge y m).mtr.valid = (y = 0 || s.mtr.valid) ∧
      ∀ q < 6, smGet 0 (s.mtrMerge y m).mtr.totals q = (if y = 0 ∨ bit m q = true
          then (smGet 0 s.mtr.totals q + smGet 0 s.mtr.tallies (6 * y + q)) % 2 ^ 136 else smGet 0 s.mtr.totals q) ∧
        smGet 0 (s.mtrMerge y m).mtr.tallies (6 * y + q) =
          (if y = 0 ∨ bit m q = true then 0 else smGet 0 s.mtr.tallies (6 * y + q)) := by
  have hmerged := s.ledger_merged y m
  simp only [State.ledger, Prod.mk.injEq] at hmerged
  obtain ⟨htotals, htallies, hvalid, -⟩ := hmerged
  rw [s.mtrMerge_eq m hy, State.mtrResult_mtr, State.validated_mtr]
  dsimp only
  rw [htotals, htallies, hvalid, State.valid_foldl_mergeOne]
  refine ⟨rfl, fun q hq => ?_⟩
  obtain ⟨htotal, htally⟩ := State.foldl_mergeOne (nodup_mergeQs y m) s y q
  simp only [htotal, htally, mem_mergeQs hq, and_self]

/-! DISCARD. -/

/-- DISCARD of one quantity (R321). -/
def State.discardOne (s : State) (y q : Nat) : State :=
  let u := s.mtrRecord 0xA1 y q
  { u with mtr := { u.mtr with tallies := smErase u.mtr.tallies (6 * y + q) } }

theorem State.discardOne_mtr (s : State) (y q : Nat) :
    (s.discardOne y q).mtr = { s.mtr with tallies := smErase s.mtr.tallies (6 * y + q) } := by
  have hrec : (s.mtrRecord 0xA1 y q).mtr = s.mtr := keep_mtr (by simp)
  unfold State.discardOne
  dsimp only
  rw [hrec]

/-- A DISCARD of several quantities sets each of them to 0, and leaves the totals. -/
theorem State.foldl_discardOne (qs : List Nat) (s : State) {y q : Nat} :
    (qs.foldl (fun u q => u.discardOne y q) s).mtr.totals = s.mtr.totals ∧
      smGet 0 (qs.foldl (fun u q => u.discardOne y q) s).mtr.tallies (6 * y + q) =
        (if q ∈ qs then 0 else smGet 0 s.mtr.tallies (6 * y + q)) := by
  induction qs generalizing s with
  | nil => exact ⟨rfl, rfl⟩
  | cons a qs ih =>
    obtain ⟨htotals, htally⟩ := ih (s.discardOne y a)
    rw [List.foldl_cons, htotals, htally, State.discardOne_mtr]
    refine ⟨rfl, ?_⟩
    by_cases hqa : q = a
    · simp [hqa]
    · simp [hqa]

/-- The quantities of a DISCARD discarded, with the record of a DISCARD that names none (R321). -/
def State.discarded (s : State) (y m : Nat) : State :=
  ((mtrQs m).foldl (fun u q => u.discardOne y q) s).mtrNone 0xA1 y (mtrQs m)

theorem State.mtrDiscard_eq (s : State) {y : Nat} (m : Nat) (hy : y = 1 ∨ y = 2) : s.mtrDiscard y m = (s.discarded y m).mtrResult 2 := by
  rw [State.mtrDiscard, if_neg (by omega)]
  rfl

/-- What a DISCARD makes of the energies (R321). -/
theorem State.mtrDiscard_energies (s : State) {y : Nat} (m : Nat) (hy : y = 1 ∨ y = 2) :
    (s.mtrDiscard y m).mtr.totals = s.mtr.totals ∧
      ∀ q < 6, smGet 0 (s.mtrDiscard y m).mtr.tallies (6 * y + q) = (if bit m q then 0 else smGet 0 s.mtr.tallies (6 * y + q)) := by
  have hnone : (s.discarded y m).mtr = ((mtrQs m).foldl (fun u q => u.discardOne y q) s).mtr := keep_mtr (by simp [State.discarded])
  rw [s.mtrDiscard_eq m hy, State.mtrResult_mtr, hnone]
  refine ⟨(State.foldl_discardOne (mtrQs m) s (q := 0)).1, fun q hq => ?_⟩
  obtain ⟨-, htally⟩ := State.foldl_discardOne (mtrQs m) s (y := y) (q := q)
  simp only [htally, mem_mtrQs hq]

/-! The actions of MTR_ACTION. -/

/-- The state with the arguments of an action set in MTR_ACTION (R490). -/
def State.mtrArgs (s : State) (code y m : Nat) : State :=
  s.setArgs R.MTR_ACTION (s.actWord R.MTR_ACTION 31 [(27, 24, code), (21, 20, y), (5, 0, m)])

theorem State.mtrArgs_mtr (s : State) (code y m : Nat) : (s.mtrArgs code y m).mtr = s.mtr := by
  rw [State.mtrArgs, State.setArgs, State.setReg_mtr]

theorem State.mtrArgs_regsBut (s : State) (code y m : Nat) : RegsBut [R.MTR_ACTION] s (s.mtrArgs code y m) := s.setArgs_regsBut _ _

@[simp] theorem State.mtrArgs_frame {W : List Part} {r s : State} (code y m : Nat) (hW : [.regs] ⊆ W) :
    Frame W r (s.mtrArgs code y m) ↔ Frame W r s := State.setArgs_frame _ _ hW

/-- The write that asks for a meter action names its code, its tally and its quantities (R335). -/
theorem State.actWord_mtrAction (s : State) {code y m : Nat} (hcode : code < 16) (hy : y < 4) (hm : m < 64) :
    fld (s.actWord R.MTR_ACTION 31 [(27, 24, code), (21, 20, y), (5, 0, m)]) 27 24 = code ∧
      fld (s.actWord R.MTR_ACTION 31 [(27, 24, code), (21, 20, y), (5, 0, m)]) 21 20 = y ∧
      fld (s.actWord R.MTR_ACTION 31 [(27, 24, code), (21, 20, y), (5, 0, m)]) 5 0 = m := by
  simp only [State.actWord, List.foldl_cons, List.foldl_nil]
  refine ⟨?_, ?_, ?_⟩
  · rw [fld_setFld_ne _ _ _ _ _ _ (by decide) (by decide), fld_setFld_ne _ _ _ _ _ _ (by decide) (by decide),
      fld_setFld_same _ _ _ _ (by decide)]
    exact Nat.mod_eq_of_lt hcode
  · rw [fld_setFld_ne _ _ _ _ _ _ (by decide) (by decide), fld_setFld_same _ _ _ _ (by decide)]
    exact Nat.mod_eq_of_lt hy
  · rw [fld_setFld_same _ _ _ _ (by decide)]
    exact Nat.mod_eq_of_lt hm

section
variable {r : Requester} {y m : Nat} {s : State} (hy : y < 4) (hm : m < 64) (hmay : s.mayWrite r R.MTR_ACTION = true)
include hy hm hmay

theorem exec_merge : exec (.merge r y m) s = .next ((s.mtrArgs 1 y m).mtrMerge y m) := by
  obtain ⟨hcode, htally, hmask⟩ := s.actWord_mtrAction (code := 1) (by decide) hy hm
  show Host.Outcome.next _ = _
  rw [State.runAction_owned _ (by decide) hmay]
  show Host.Outcome.next (State.mtrAction _ _) = _
  rw [State.mtrAction, hcode, htally, hmask]
  rfl

theorem exec_discard : exec (.discard r y m) s = .next ((s.mtrArgs 2 y m).mtrDiscard y m) := by
  obtain ⟨hcode, htally, hmask⟩ := s.actWord_mtrAction (code := 2) (by decide) hy hm
  show Host.Outcome.next _ = _
  rw [State.runAction_owned _ (by decide) hmay]
  show Host.Outcome.next (State.mtrAction _ _) = _
  rw [State.mtrAction, hcode, htally, hmask]
  rfl

end

/-- An action that is refused sets its arguments, its result and the cause, and nothing else (R321, R335). -/
theorem State.mtrArgs_refused (s : State) (code y m : Nat) :
    ((s.mtrArgs code y m).mtrResult 3).rb R.MTR_CAUSE 6 = true ∧ ((s.mtrArgs code y m).mtrResult 3).rf R.MTR_ACTION_STAT 2 0 = 3 ∧
      RegsBut [R.MTR_ACTION, R.MTR_ACTION_STAT, R.MTR_CAUSE] s ((s.mtrArgs code y m).mtrResult 3) ∧
      Frame [.regs] s ((s.mtrArgs code y m).mtrResult 3) :=
  ⟨State.rb_mtrResult _ 3, State.rf_mtrResult _ (by decide),
    ((s.mtrArgs_regsBut code y m).mono (by simp)).trans ((State.mtrResult_regsBut _ 3).mono (by simp)), by simp⟩

/-! The seal. -/

theorem writeMask_mtrSeal : writeMask R.MTR_SEAL = 0 := by decide +kernel

theorem State.mtr_rewritten (s : State) (off : Nat) : (s.rewritten off).mtr = s.mtr := s.setReg_mtr off _

theorem State.sys_rewritten (s : State) (off : Nat) : (s.rewritten off).sys = s.sys := s.setReg_sys off _

/-- The state in which a write to MTR_SEAL acts: that register has no field which a write sets (R335). -/
theorem State.runAction_mtrSeal {s : State} {r : Requester} (w : Word) (hmay : s.mayWrite r R.MTR_SEAL = true) :
    s.runAction r R.MTR_SEAL w = (s.rewritten R.MTR_SEAL).mtrSealWrite r w := by
  rw [State.runAction_owned w (by decide) hmay, State.setArgs_of_no_fields writeMask_mtrSeal]
  rfl

/-- The action bit and the key of a write of MTR_SEAL (R335). -/
theorem sealWord_fields {b key : Nat} (hkey : key < 65536) (hb : b = 30 ∨ b = 31) :
    flag (BitVec.ofNat 32 (2 ^ b + key % 2 ^ 16)) 31 = decide (b = 31) ∧ flag (BitVec.ofNat 32 (2 ^ b + key % 2 ^ 16)) 30 = decide (b = 30) ∧
      fld (BitVec.ofNat 32 (2 ^ b + key % 2 ^ 16)) 15 0 = key := by
  have hmod : key % 2 ^ 16 = key := Nat.mod_eq_of_lt hkey
  rw [hmod]
  have hflag (i : Nat) (hi : i < 32) : flag (BitVec.ofNat 32 (2 ^ b + key)) i = (2 ^ b + key).testBit i := by
    rw [flag, BitVec.getLsbD_ofNat, decide_eq_true hi, Bool.true_and]
  rw [hflag 31 (by decide), hflag 30 (by decide)]
  have hfld : fld (BitVec.ofNat 32 (2 ^ b + key)) 15 0 = (2 ^ b + key) % 2 ^ 32 / 2 ^ 0 % 2 ^ 16 := rfl
  rw [hfld]
  rcases hb with rfl | rfl
  · refine ⟨?_, ?_, ?_⟩ <;> simp [Nat.testBit_eq_decide_div_mod_eq] <;> omega
  · refine ⟨?_, ?_, ?_⟩ <;> simp [Nat.testBit_eq_decide_div_mod_eq] <;> omega

section
variable {r : Requester} {key : Nat} {s : State} (hkey : key < 65536) (hmay : s.mayWrite r R.MTR_SEAL = true)
include hkey hmay

theorem exec_sealMeter : exec (.sealMeter r key) s = .next ((s.rewritten R.MTR_SEAL).mtrSeal r key) := by
  obtain ⟨hseal, hunseal, hfld⟩ := sealWord_fields hkey (.inr rfl)
  show Host.Outcome.next (s.runAction r R.MTR_SEAL _) = _
  rw [State.runAction_mtrSeal _ hmay, State.mtrSealWrite, hseal, hunseal, hfld]
  rfl

theorem exec_unsealMeter : exec (.unsealMeter r key) s = .next ((s.rewritten R.MTR_SEAL).mtrUnseal r key) := by
  obtain ⟨hseal, hunseal, hfld⟩ := sealWord_fields hkey (.inl rfl)
  show Host.Outcome.next (s.runAction r R.MTR_SEAL _) = _
  rw [State.runAction_mtrSeal _ hmay, State.mtrSealWrite, hseal, hunseal, hfld]
  rfl

end

/-- The check value of the sealed set rests on registers alone (R328). -/
theorem State.sealCheck_congr {s t : State} (h : ∀ k, t.reg k = s.reg k) : t.sealCheck = s.sealCheck := by
  have hreg : t.reg = s.reg := funext h
  have hrf : t.rf = s.rf := by
    funext k hi lo
    rw [State.rf, State.rf, h]
  simp only [State.sealCheck, State.sealWords, State.mtrInputs]
  rw [hrf, hreg]

/-- Whether a side is BADCFG rests on registers and on the length of an epoch (R314, R316). -/
theorem State.mtrBad_congr {s t : State} (h : ∀ k, t.reg k = s.reg k) (hsys : t.sys = s.sys) (ac : Bool) : t.mtrBad ac = s.mtrBad ac := by
  have hreg : t.reg = s.reg := funext h
  have hrf : t.rf = s.rf := by
    funext k hi lo
    rw [State.rf, State.rf, h]
  have hin : t.inputOf = s.inputOf := by
    funext role
    rw [State.inputOf, State.inputOf, hrf]
  have hconsts : t.mtrConsts ac = s.mtrConsts ac := by
    simp only [State.mtrConsts, State.mtrC, State.mtrD, State.mtrScale, State.mtrUnit, State.epNs, State.rq]
    rw [hreg, hsys]
  rw [State.mtrBad, State.mtrBad, hin, hconsts, State.mtrEnabled, State.mtrEnabled, State.rb, State.rb, hreg]

/-- The seal state changed, with its save, its cause and its record (R328, R329). -/
def State.sealTo (s : State) (m : MtrSt) (cause : Nat) (payload : List Nat) : State :=
  ((({ s with mtr := m } : State).sealSave).latch R.MTR_CAUSE 5).binLog cause payload

theorem State.sealTo_mtr (s : State) (m : MtrSt) (cause : Nat) (payload : List Nat) : (s.sealTo m cause payload).mtr = m :=
  keep_mtr (s := { s with mtr := m }) (by simp [State.sealTo])

theorem State.rb_sealTo (s : State) (m : MtrSt) (cause : Nat) (payload : List Nat) : (s.sealTo m cause payload).rb R.MTR_CAUSE 5 = true := by
  rw [State.sealTo, (State.binLog_regsBut _ cause payload).rb (by decide)]
  exact State.rb_latch _ _ _ (by decide)

@[simp] theorem State.sealTo_frame {W : List Part} {r s : State} (m : MtrSt) (cause : Nat) (payload : List Nat)
    (hW : [.regs, .mtr, .trk] ⊆ W) : Frame W r (s.sealTo m cause payload) ↔ Frame W r s :=
  Frame.iff_of (V := [.regs, .mtr, .trk]) (by simp [State.sealTo]) hW

theorem State.mtrSeal_good {s : State} (r : Requester) (hac : s.mtrBad true = false) (hdc : s.mtrBad false = false) :
    s.mtrSeal r 0xA55A = s.sealTo { s.mtr with isSealed := true, check := s.sealCheck } 0xA2 [s.sealCheck] :=
  if_pos ⟨rfl, hac, hdc⟩

theorem State.mtrUnseal_permitted {s : State} (r : Requester) (hconv : s.sys.conv = .off) (hcom : s.commission = true) :
    s.mtrUnseal r 0x5AA5 = s.sealTo { s.mtr with isSealed := false, changes := incSat 65535 s.mtr.changes } 0xA3
      [incSat 65535 s.mtr.changes] :=
  if_pos ⟨rfl, hconv, hcom⟩

/-- Settles O33: each action sets its arguments and then does what its own lemma says. -/
theorem meterActions : Obligations.MeterActions := by
  refine ⟨fun r y m s hy hm hmay => ?merge, fun r m s hm hmay => ?mergeRefused, fun r y m s hy hm hmay => ?discard,
    fun r y m s hy hm hmay => ?discardRefused, fun r s hmay hac hdc => ?sealing, fun r s hmay hconv hcom => ?unsealing,
    fun r key s hlt hmay hkey => ?sealRefused, fun r key s hlt hmay hkey => ?unsealRefused⟩
  case merge =>
    obtain ⟨hvalid, henergies⟩ := (s.mtrArgs 1 y m).mtrMerge_energies m hy
    rw [State.mtrArgs_mtr] at hvalid henergies
    refine ⟨_, exec_merge (by omega) hm hmay, ?_, ?_, hvalid, fun q hq hnamed => ?_, fun q hq hstart hnot => ?_, by simp⟩
    · rw [State.mtrMerge_eq _ m hy]
      exact State.rb_mtrResult _ 2
    · rw [State.mtrMerge_eq _ m hy]
      exact State.rf_mtrResult _ (by decide)
    · obtain ⟨htotal, htally⟩ := henergies q hq
      rw [htotal, htally, if_pos hnamed, if_pos hnamed]
      exact ⟨rfl, rfl⟩
    · obtain ⟨htotal, htally⟩ := henergies q hq
      have hunnamed : ¬ (y = 0 ∨ bit m q = true) := by simp [hstart, hnot]
      rw [htotal, htally, if_neg hunnamed, if_neg hunnamed]
      exact ⟨rfl, rfl⟩
  case mergeRefused => exact ⟨_, exec_merge (by decide) hm hmay, s.mtrArgs_refused 1 3 m⟩
  case discard =>
    obtain ⟨htotals, htallies⟩ := (s.mtrArgs 2 y m).mtrDiscard_energies m hy
    refine ⟨_, exec_discard (by omega) hm hmay, ?_, ?_, htotals, htallies, by simp⟩
    · rw [State.mtrDiscard_eq _ m hy]
      exact State.rb_mtrResult _ 2
    · rw [State.mtrDiscard_eq _ m hy]
      exact State.rf_mtrResult _ (by decide)
  case discardRefused =>
    have hexec := exec_discard (r := r) (y := y) (by omega) hm hmay
    rw [State.mtrDiscard, if_pos (by omega)] at hexec
    exact ⟨_, hexec, s.mtrArgs_refused 2 y m⟩
  case sealing =>
    have hreg := s.reg_rewritten R.MTR_SEAL
    have hexec := exec_sealMeter (r := r) (key := 0xA55A) (by decide) hmay
    have hbad := State.mtrBad_congr hreg (s.sys_rewritten R.MTR_SEAL)
    rw [State.mtrSeal_good r ((hbad true).trans hac) ((hbad false).trans hdc), State.sealCheck_congr hreg, State.mtr_rewritten] at hexec
    exact ⟨_, hexec, State.sealTo_mtr _ _ _ _, State.rb_sealTo _ _ _ _, by simp⟩
  case unsealing =>
    have hconv' : (s.rewritten R.MTR_SEAL).sys.conv = .off := by rw [State.sys_rewritten]; exact hconv
    have hcom' : (s.rewritten R.MTR_SEAL).commission = true := by rw [State.commission, State.rb, State.reg_rewritten]; exact hcom
    have hexec := exec_unsealMeter (r := r) (key := 0x5AA5) (by decide) hmay
    rw [State.mtrUnseal_permitted r hconv' hcom', State.mtr_rewritten] at hexec
    exact ⟨_, hexec, State.sealTo_mtr _ _ _ _, State.rb_sealTo _ _ _ _, by simp⟩
  case sealRefused =>
    have hexec := exec_sealMeter hlt hmay
    rw [State.mtrSeal, if_neg (fun h => hkey h.1)] at hexec
    exact ⟨_, hexec, keep_mtr (by simp), by simp⟩
  case unsealRefused =>
    have hexec := exec_unsealMeter hlt hmay
    rw [State.mtrUnseal, if_neg (fun h => hkey h.1)] at hexec
    exact ⟨_, hexec, keep_mtr (by simp), by simp⟩

end Sys2Proof.Machine
end

section
/-! PROOFS. The metering work (O32): the pass and its increments, the boundary that adds them, the pulses, the check of the sealed set and the
periodic save. -/

namespace Sys2Proof.Machine

/-! The stores. -/

/-- The stored energy of a group rests on the map, on the Shelves and on the gauges of the classes (R333). -/
theorem State.storeOf_congr {s t : State} (hsys : t.sys = s.sys) (hcel : t.cel = s.cel) (hlnk : t.lnk = s.lnk)
    (hgauge : ∀ c < 16, t.reg (R.SYS_CLASS_GAUGE c) = s.reg (R.SYS_CLASS_GAUGE c)) : t.storeOf = s.storeOf := by
  funext g main
  have hmap : t.mapEntry = s.mapEntry := by
    funext h
    rw [State.mapEntry, State.mapEntry, hsys]
  have hhomes : t.groupHomes g = s.groupHomes g := by
    rw [State.groupHomes, State.groupHomes, hmap, State.mapped, State.mapped, hsys]
  have hshelf (m : Epoch) : t.shelf m = s.shelf m := by rw [State.shelf, State.shelf, hcel]
  have hdue (h : Nat) (m : Epoch) : t.dueEpoch h m = s.dueEpoch h m := by
    rw [State.dueEpoch, State.dueEpoch, State.unit_congr hlnk]
  have hentry : t.entry = s.entry := by
    funext h
    have hread (m : Epoch) : t.readEntry m h = s.readEntry m h := State.readEntry_congr (hdue h m) (hshelf _) (hshelf _)
    simp only [State.entry, hcel, hread]
  have hclass (h : Nat) : t.reg (R.SYS_CLASS_GAUGE (mapClass (s.mapEntry h))) = s.reg (R.SYS_CLASS_GAUGE (mapClass (s.mapEntry h))) :=
    hgauge _ (Nat.mod_lt _ (by decide))
  simp only [State.storeOf, hhomes, hentry, hmap, hclass]

/-- The two stores of group g put into their registers (R333). -/
def State.putStores (s : State) (g : Nat) : State :=
  (s.setReg (R.MTR_STORE_Q g) (s.storeOf g false)).setReg (R.MTR_STORE_M g) (s.storeOf g true)

theorem State.mtr_putStores (s : State) (g : Nat) : (s.putStores g).mtr = s.mtr := by
  rw [State.putStores, State.setReg_mtr, State.setReg_mtr]

theorem State.storeOf_putStores (s : State) {g : Nat} : (s.putStores g).storeOf = s.storeOf := by
  refine State.storeOf_congr (by rw [State.putStores, State.setReg_sys, State.setReg_sys])
    (by rw [State.putStores, State.setReg_cel, State.setReg_cel]) (by rw [State.putStores, State.setReg_lnk, State.setReg_lnk]) fun c hc => ?_
  rw [State.putStores, State.reg_setReg, State.reg_setReg, if_neg (by simp only [R.SYS_CLASS_GAUGE, R.MTR_STORE_M]; omega),
    if_neg (by simp only [R.SYS_CLASS_GAUGE, R.MTR_STORE_Q]; omega)]

/-- The stores of the seven groups in their registers (R333). -/
theorem State.reg_putStores (s : State) {g : Nat} (hg : g < 7) :
    ((List.range 7).foldl State.putStores s).reg (R.MTR_STORE_Q g) = s.storeOf g false ∧
      ((List.range 7).foldl State.putStores s).reg (R.MTR_STORE_M g) = s.storeOf g true := by
  obtain ⟨u, hu, hfold⟩ := view_foldl_range (f := State.putStores) (n := 7)
    (view := fun y => (y.storeOf, y.reg (R.MTR_STORE_Q g), y.reg (R.MTR_STORE_M g))) hg s fun y a ha => by
      rw [State.storeOf_putStores, State.putStores]
      simp only [State.reg_setReg, R.MTR_STORE_Q, R.MTR_STORE_M]
      rw [if_neg (by omega), if_neg (by omega), if_neg (by omega), if_neg (by omega)]
  have hstore : u.storeOf = s.storeOf := congrArg Prod.fst hu
  have hq := congrArg (fun x => x.2.1) hfold
  have hm := congrArg (fun x => x.2.2) hfold
  simp only [State.putStores, State.reg_setReg, R.MTR_STORE_Q, R.MTR_STORE_M] at hq hm
  rw [← hstore]
  exact ⟨hq.trans ((if_neg (by omega)).trans (if_pos trivial)), hm.trans (if_pos trivial)⟩

/-! The pass. -/

/-- The epochs since the last pass of the Metering Engine (R320). -/
def State.mtrGap (s : State) : Nat :=
  match s.mtr.last with
  | some l => (s.sys.epoch - 1 - l).toNat
  | none => 1

/-- The Metering Engine after a pass: its tag, the destinations, and the increments that wait (R319, R320). -/
def State.mtrTagged (s : State) : MtrSt := { s.mtr with
  last := some (s.sys.epoch - 1)
  incs := s.mtrIncs true (s.sys.epoch - 1) s.mtrGap ++ s.mtrIncs false (s.sys.epoch - 1) s.mtrGap
  destAc := s.mtrDest true (s.sys.epoch - 1)
  destDc := s.mtrDest false (s.sys.epoch - 1) }

theorem State.mtr_mtrAnnex (s : State) (n : Epoch) (est : Bool) : (s.mtrAnnex n est).mtr = s.mtr := by
  rw [State.mtrAnnex]
  exact keep_mtr (by simp)

theorem State.reg_mtrAnnex (s : State) (n : Epoch) (est : Bool) (k : Nat) : (s.mtrAnnex n est).reg k = s.reg k := by
  have hregs : (s.mtrAnnex n est).regs = s.regs := by
    rw [State.mtrAnnex]
    exact keep_regs (by simp)
  rw [State.reg, State.reg, hregs]

theorem State.mtrPass_spec (s : State) : s.mtrPass.mtr = s.mtrTagged ∧
    ∀ g < 7, s.mtrPass.reg (R.MTR_STORE_Q g) = s.storeOf g false ∧ s.mtrPass.reg (R.MTR_STORE_M g) = s.storeOf g true := by
  unfold State.mtrPass
  extract_lets n gap incs da dd est falls s1 q s2 s3
  have h1 : Frame [.regs] s s1 ∧ RegsBut [R.MTR_CAUSE] s s1 := by
    unfold s1
    split
    · exact ⟨by simp, s.latch_regsBut _ _⟩
    · exact ⟨by simp, .refl _ s⟩
  obtain ⟨hframe, hregs⟩ := h1
  have hmtr1 : s1.mtr = s.mtr := hframe .mtr (by decide)
  have hmtr2 : s2.mtr = s.mtrTagged := by
    show ({ q with last := some n, incs := incs, destAc := da, destDc := dd } : MtrSt) = s.mtrTagged
    rw [show q = s.mtr from hmtr1]
    rfl
  have hstore : s2.storeOf = s.storeOf :=
    State.storeOf_congr (hframe .sys (by decide)) (hframe .cel (by decide)) (hframe .lnk (by decide)) fun c hc =>
      hregs _ (by simp only [R.SYS_CLASS_GAUGE, R.MTR_CAUSE, List.mem_singleton]; omega)
  have hs3 : s3 = (List.range 7).foldl State.putStores s2 := rfl
  refine ⟨?_, fun g hg => ?_⟩
  · rw [State.mtr_mtrAnnex, hs3]
    exact (view_foldl_eq (view := State.mtr) s2 fun y g _ => y.mtr_putStores g).trans hmtr2
  · have hreg := s2.reg_putStores hg
    rw [hstore] at hreg
    rw [State.reg_mtrAnnex, State.reg_mtrAnnex, hs3]
    exact hreg

theorem exec_meteringPass {s : State} (hcnt : s.sys.counting = true) (hmiss : bit s.sys.missNow 11 = false) (hon : s.mtr.on_ = true) :
    exec .meteringPass s = .next s.mtrPass := by
  show Host.Outcome.next _ = _
  rw [State.runItem_runs _ hcnt hmiss rfl, if_pos hon]

theorem exec_meteringPass_before {s : State} (hoff : s.mtr.on_ = false) : exec .meteringPass s = .next s := by
  have hid : (fun y : State => if y.mtr.on_ then y.mtrPass else y) s = s := if_neg (by simp [hoff])
  refine congrArg Host.Outcome.next ?_
  have hhalt : s.itemHalted 11 = false := rfl
  unfold State.runItem
  rw [hhalt, if_neg Bool.false_ne_true, hid]
  exact ite_self _

/-! The increments of a pass. -/

/-- A signed sum x of a pair of quantities from q on gives an amount that is not 0 to one quantity of the pair (R313). -/
theorem mtrSplit_eq {q q' m : Nat} {x : Int} (hm : m ≠ 0) : (q', m) = mtrSplit q x ↔ q' = q ∧ x = m ∨ q' = q + 1 ∧ x = -m := by
  rw [mtrSplit, Prod.mk.injEq]
  split <;> omega

/-- The increments of a side that are no estimates (R313, R319, R320). -/
theorem State.mem_mtrIncs {s : State} {ac : Bool} {n : Epoch} (gap : Nat) {d : MtrDest} (q m : Nat) (hd : d = s.mtrDest ac n)
    (hnone : d ≠ .none) (hdoubt : d ≠ .doubt) : ⟨d, q, m⟩ ∈ s.mtrIncs ac n gap ↔
      m ≠ 0 ∧ (q, m) ∈ (if ac then [mtrSplit 0 s.mtrP, mtrSplit 2 s.mtrQ] else [mtrSplit 4 s.mtrDc]) := by
  subst hd
  rw [State.mtrIncs]
  dsimp only
  rw [if_neg hnone, List.mem_append]
  have hestimate (xs : List (Nat × Nat)) : (⟨s.mtrDest ac n, q, m⟩ : MtrInc) ∉
      (if 1 < gap then xs.map (fun x => (⟨.doubt, x.1, (gap - 1) * x.2⟩ : MtrInc)) else []) := by
    split
    · intro hmem
      obtain ⟨x, -, hx⟩ := List.mem_map.mp hmem
      exact hdoubt (congrArg MtrInc.dest hx).symm
    · exact List.not_mem_nil
  rw [or_iff_left (hestimate _), List.mem_map]
  simp only [MtrInc.mk.injEq, true_and, List.mem_filter, decide_eq_true_eq]
  constructor
  · rintro ⟨⟨q', m'⟩, ⟨hmem, hne⟩, rfl, rfl⟩
    exact ⟨hne, hmem⟩
  · rintro ⟨hne, hmem⟩
    exact ⟨(q, m), ⟨hmem, hne⟩, rfl, rfl⟩

/-! The boundary. -/

/-- What the increments of a list add to a quantity at a destination. -/
def incSum (is : List MtrInc) (d : MtrDest) (q : Nat) : Nat := ((is.filter (fun i => i.dest = d && i.q = q)).map (·.amount)).sum

theorem incSum_cons (i : MtrInc) (is : List MtrInc) (d : MtrDest) (q : Nat) :
    incSum (i :: is) d q = (if d = i.dest ∧ q = i.q then i.amount else 0) + incSum is d q := by
  by_cases h : d = i.dest ∧ q = i.q
  · obtain ⟨rfl, rfl⟩ := h
    simp [incSum]
  · have hfilter : (decide (i.dest = d) && decide (i.q = q)) = false := by
      rw [Bool.and_eq_false_imp]
      intro hdest
      exact decide_eq_false fun hq => h ⟨(of_decide_eq_true hdest).symm, hq.symm⟩
    simp [incSum, h, hfilter]

theorem State.ledger_mtrAdd (s : State) (i : MtrInc) : (s.mtrAdd i).ledger = (s.mtrGain i.dest i.q i.amount).ledger :=
  State.ledger_pulseGains _ _ _

theorem State.incs_mtrGain (s : State) (d : MtrDest) (q amount : Nat) : (s.mtrGain d q amount).mtr.incs = s.mtr.incs := by
  cases d <;> rfl

/-- Increments added one after another give each account what they add to it (R319, R322). -/
theorem State.energyAt_foldl_mtrAdd {is : List MtrInc} (s : State) {d : MtrDest} {q : Nat} (hd : d ≠ .none) (hq : q < 6)
    (his : ∀ i ∈ is, i.q < 6) (hsize : s.energyAt d q < d.size) :
    (is.foldl State.mtrAdd s).energyAt d q = (s.energyAt d q + incSum is d q) % d.size := by
  induction is generalizing s with
  | nil => exact (Nat.mod_eq_of_lt hsize).symm
  | cons i is ih =>
    have hi : i.q < 6 := his i List.mem_cons_self
    have hadd : (s.mtrAdd i).energyAt d q = if d = i.dest ∧ q = i.q then (s.energyAt d q + i.amount) % d.size else s.energyAt d q :=
      (State.energyAt_congr (s.ledger_mtrAdd i) d q).trans (s.energyAt_mtrGain i.amount hd hq hi)
    have hlt : (s.mtrAdd i).energyAt d q < d.size := by
      rw [hadd]
      split
      · exact Nat.mod_lt _ (Nat.zero_lt_of_lt hsize)
      · exact hsize
    rw [List.foldl_cons, ih (s.mtrAdd i) (fun j hj => his j (List.mem_cons_of_mem i hj)) hlt, hadd, incSum_cons]
    split
    · rw [Nat.mod_add_mod, Nat.add_assoc]
    · rw [Nat.zero_add]

/-- The increments of the pass are taken from the list in which they waited, and the pulses owed are counted anew (R322). -/
def State.settling (s : State) : State :=
  let u : State := (List.range 8).foldl (fun y p => y.updPulse p (fun u => { u with owed := 0 })) s
  { u with mtr := { u.mtr with incs := [] } }

theorem State.energyAt_setIncs (s : State) (is : List MtrInc) (d : MtrDest) (q : Nat) :
    State.energyAt { s with mtr := { s.mtr with incs := is } } d q = s.energyAt d q := by
  cases d <;> rfl

theorem State.settling_energyAt (s : State) : s.settling.energyAt = s.energyAt := by
  have hledger : ((List.range 8).foldl (fun y p => y.updPulse p (fun u => { u with owed := 0 })) s).ledger = s.ledger :=
    view_foldl_eq (view := State.ledger) s fun y p _ => y.ledger_updPulse p _
  funext d q
  exact (State.energyAt_setIncs _ [] d q).trans (State.energyAt_congr hledger d q)

theorem State.mtrSettle_eq (s : State) : s.mtrSettle = s.mtr.incs.foldl State.mtrAdd s.settling := by
  have hincs : ((List.range 8).foldl (fun y p => y.updPulse p (fun u => { u with owed := 0 })) s).mtr.incs = s.mtr.incs :=
    view_foldl_eq (view := fun y => y.mtr.incs) s fun _ _ _ => rfl
  rw [State.mtrSettle]
  dsimp only
  rw [hincs]
  rfl

/-- The metering work of a boundary leaves of the ledger what the increments make of it (R322). -/
theorem State.ledger_mtrBoundary (s : State) : s.mtrBoundary.ledger = (s.mtr.incs.foldl State.mtrAdd s.settling).ledger := by
  rw [← State.mtrSettle_eq]
  refine view_foldl_eq (view := State.ledger) s.mtrSettle fun y p _ => ?_
  dsimp only
  split
  · exact y.ledger_updPulse p _
  · rfl

theorem State.mtrBoundary_incs (s : State) : s.mtrBoundary.mtr.incs = [] := by
  refine (State.incs_congr s.ledger_mtrBoundary).trans ?_
  exact view_foldl_eq (view := fun y => y.mtr.incs) s.settling fun y i _ =>
    (State.incs_congr (y.ledger_mtrAdd i)).trans (y.incs_mtrGain _ _ _)

theorem State.mtrBoundary_energyAt (s : State) {d : MtrDest} {q : Nat} (hd : d ≠ .none) (hq : q < 6) (hincs : ∀ i ∈ s.mtr.incs, i.q < 6)
    (hsize : s.energyAt d q < d.size) : s.mtrBoundary.energyAt d q = (s.energyAt d q + incSum s.mtr.incs d q) % d.size := by
  have hsize' : s.settling.energyAt d q < d.size := by rw [State.settling_energyAt]; exact hsize
  rw [State.energyAt_congr s.ledger_mtrBoundary, State.energyAt_foldl_mtrAdd _ hd hq hincs hsize', State.settling_energyAt]

/-! Pulses. -/

theorem State.pulse_updPulse (s : State) (p k : Nat) (f : PulseOut → PulseOut) :
    (s.updPulse p f).pulse k = if k = p then f (s.pulse p) else s.pulse k := smGet_smUpd ({} : PulseOut) s.mtr.pulses p k f

theorem exec_pulseStart {p : Nat} {s : State} (hp : p < 8) (hon : s.pulseOn p = true) (howed : 1 ≤ (s.pulse p).backlog)
    (hout : (s.pulse p).out = false) (hgap : (s.pulse p).gap = false) : exec (.pulseStart p) s =
      .next (s.updPulse p fun u => { u with out := true, at_ := s.sys.epoch, backlog := u.backlog - 1 }) :=
  if_pos ⟨hp, hon, howed, hout, hgap⟩

theorem exec_pulseStart_off {p : Nat} {s : State} (hoff : s.pulseOn p = false) : exec (.pulseStart p) s = .next s :=
  if_neg fun h => by
    obtain ⟨-, hon, -⟩ := h
    exact Bool.false_ne_true (hoff.symm.trans hon)

theorem exec_pulseEnd {p : Nat} {s : State} (hp : p < 8) (hout : (s.pulse p).out = true)
    (hwidth : s.pulseEp p false ≤ (s.sys.epoch - (s.pulse p).at_).toNat) : exec (.pulseEnd p) s =
      .next (s.updPulse p fun u => { u with out := false, gap := true, at_ := s.sys.epoch }) :=
  if_pos ⟨hp, hout, hwidth⟩

/-! The check of the sealed set and the periodic save. -/

theorem exec_meterCheckRecompute {s : State} (hseal : s.mtr.isSealed = true) (hcnt : s.sys.counting = true)
    (hep : s.sys.epoch.toNat % 2 ^ 16 = 0) (hcheck : s.sealCheck ≠ s.mtr.check) : exec .meterCheckRecompute s =
      .next ((s.latch R.MTR_CAUSE 2).binLog 0xA6 [s.sealCheck, s.mtr.check]) :=
  if_pos ⟨hseal, hcnt, hep, hcheck⟩

/-- A record joins the queue of the Bin while that is short and the Trunk may be written (R431, R432). -/
theorem State.binLog_queue {s : State} (cause : Nat) (payload : List Nat) (hprot : s.trk.writeProt = false)
    (hcoal : s.trk.coalescing = false) (hlen : s.trk.queue.length < 1024) :
    ∃ e, (s.binLog cause payload).trk.queue = s.trk.queue ++ [e] ∧ e.cause = cause ∧ e.payload = payload := by
  have hstart : decide (1024 ≤ s.trk.queue.length) = false := decide_eq_false (by omega)
  refine ⟨⟨cause, false, s.ref.holdoverNow, s.sys.era, if s.sys.counting then s.sys.epoch else 0, 0, s.start.aoNs / 1000 % 2 ^ 32, payload⟩,
    ?_, rfl, rfl⟩
  simp [State.binLog, State.binAt, State.binPush, hprot, hcoal, hstart]

theorem exec_periodicSave {s : State} (hon : s.mtr.on_ = true) (hcnt : s.sys.counting = true)
    (hep : s.sys.epoch.toNat % 2 ^ s.saveLog2 = 0) (hprot : s.trk.writeProt = false) : exec .periodicSave s = .next { s with
      mtr := { s.mtr with saveSeq := (s.mtr.saveSeq + 1) % 2 ^ 32 }
      trk := { s.trk with waiting := s.trk.waiting ++ [(.periodicSave, s.saveWords 0)] } } := by
  refine (if_pos ⟨hon, hcnt, hep⟩).trans (congrArg Host.Outcome.next ?_)
  rw [State.mtrSave]
  dsimp only
  rw [hprot, if_neg (by decide), State.trkAsk]
  dsimp only
  rw [hprot]
  rfl

/-! The obligation, clause by clause. -/

/-- A pass of the Metering Engine (R315, R319, R320, R333). -/
theorem exec_meteringPass_spec {n : Epoch} {s : State} (hn : n = s.sys.epoch - 1) (hcnt : s.sys.counting = true)
    (hmiss : bit s.sys.missNow 11 = false) (hon : s.mtr.on_ = true) :
    ∃ t, exec .meteringPass s = .next t ∧ t.mtr.last = some n ∧ t.mtr.destAc = s.mtrDest true n ∧ t.mtr.destDc = s.mtrDest false n ∧
      t.mtr.totals = s.mtr.totals ∧ t.mtr.tallies = s.mtr.tallies ∧ t.mtr.pulses = s.mtr.pulses ∧
      (∀ g < 7, t.reg (R.MTR_STORE_Q g) = s.storeOf g false ∧ t.reg (R.MTR_STORE_M g) = s.storeOf g true) ∧
      t.mtr.incs = s.mtrIncs true n s.mtrGap ++ s.mtrIncs false n s.mtrGap ∧ Frame [.regs, .sys, .cel, .prt, .mtr] s t := by
  subst hn
  obtain ⟨hmtr, hstores⟩ := s.mtrPass_spec
  refine ⟨_, exec_meteringPass hcnt hmiss hon, ?_, ?_, ?_, ?_, ?_, ?_, hstores, ?_, by simp⟩ <;> rw [hmtr] <;> rfl

/-- The increments of one side (R313, R315, R319, R320). -/
theorem State.mtrIncs_spec (s : State) (ac : Bool) (n : Epoch) (gap : Nat) :
    (s.mtrDest ac n = .none → s.mtrIncs ac n gap = []) ∧
    ∀ (d : MtrDest) (q m : Nat), d = s.mtrDest ac n → d ≠ .none → d ≠ .doubt → (⟨d, q, m⟩ ∈ s.mtrIncs ac n gap ↔ m ≠ 0 ∧
      ((ac = true ∧ ((q = 0 ∧ s.mtrP = m) ∨ (q = 1 ∧ s.mtrP = -m) ∨ (q = 2 ∧ s.mtrQ = m) ∨ (q = 3 ∧ s.mtrQ = -m))) ∨
       (ac = false ∧ ((q = 4 ∧ s.mtrDc = m) ∨ (q = 5 ∧ s.mtrDc = -m))))) := by
  refine ⟨fun hd => if_pos hd, fun d q m hd hnone hdoubt => (s.mem_mtrIncs gap q m hd hnone hdoubt).trans (and_congr_right fun hm => ?_)⟩
  cases ac with
  | true => simp [mtrSplit_eq hm, or_assoc]
  | false => simp [mtrSplit_eq hm]

/-- The metering work of a boundary (R319, R322). -/
theorem State.mtrBoundary_accounts {s : State} (hincs : ∀ i ∈ s.mtr.incs, i.q < 6) (htotals : ∀ q < 6, smGet 0 s.mtr.totals q < 2 ^ 136)
    (htallies : ∀ q < 18, smGet 0 s.mtr.tallies q < 2 ^ 168) {q : Nat} (hq : q < 6) :
    smGet 0 s.mtrBoundary.mtr.totals q = (smGet 0 s.mtr.totals q + incSum s.mtr.incs .total q) % 2 ^ 136 ∧
      smGet 0 s.mtrBoundary.mtr.tallies q = (smGet 0 s.mtr.tallies q + incSum s.mtr.incs .start q) % 2 ^ 168 ∧
      smGet 0 s.mtrBoundary.mtr.tallies (6 + q) = (smGet 0 s.mtr.tallies (6 + q) + incSum s.mtr.incs .test q) % 2 ^ 168 ∧
      smGet 0 s.mtrBoundary.mtr.tallies (12 + q) = (smGet 0 s.mtr.tallies (12 + q) + incSum s.mtr.incs .doubt q) % 2 ^ 168 := by
  have htotal := s.mtrBoundary_energyAt (d := .total) nofun hq hincs (htotals q hq)
  have hstart := s.mtrBoundary_energyAt (d := .start) nofun hq hincs (htallies (6 * 0 + q) (by omega))
  have htest := s.mtrBoundary_energyAt (d := .test) nofun hq hincs (htallies (6 * 1 + q) (by omega))
  have hdoubt := s.mtrBoundary_energyAt (d := .doubt) nofun hq hincs (htallies (6 * 2 + q) (by omega))
  simp only [State.energyAt, MtrDest.size, Nat.mul_zero, Nat.zero_add, Nat.mul_one] at htotal hstart htest hdoubt
  exact ⟨htotal, hstart, htest, hdoubt⟩

/-- A pulse output that a function changes is the only one (R324). -/
theorem State.updPulse_spec (s : State) (p : Nat) (f : PulseOut → PulseOut) : (s.updPulse p f).pulse p = f (s.pulse p) ∧
    (∀ q, q ≠ p → (s.updPulse p f).pulse q = s.pulse q) ∧ Frame [.mtr] s (s.updPulse p f) :=
  ⟨(s.pulse_updPulse p p f).trans (if_pos rfl), fun q hq => (s.pulse_updPulse p q f).trans (if_neg hq), by simp⟩

/-- A sealed set whose check value has changed (R328). -/
theorem exec_meterCheckRecompute_spec {s : State} (hseal : s.mtr.isSealed = true) (hcnt : s.sys.counting = true)
    (hep : s.sys.epoch.toNat % 2 ^ 16 = 0) (hcheck : s.sealCheck ≠ s.mtr.check) :
    ∃ t, exec .meterCheckRecompute s = .next t ∧ t.rb R.MTR_CAUSE 2 = true ∧
      (s.trk.writeProt = false → s.trk.coalescing = false → s.trk.queue.length < 1024 →
        ∃ e, t.trk.queue = s.trk.queue ++ [e] ∧ e.cause = 0xA6 ∧ e.payload = [s.sealCheck, s.mtr.check]) ∧
      RegsBut [R.MTR_CAUSE, R.TRK_CAUSE, R.TRK_QUEUE, R.TRK_SUPPRESSED] s t ∧ Frame [.regs, .trk] s t := by
  have hlog := (s.latch R.MTR_CAUSE 2).binLog_regsBut 0xA6 [s.sealCheck, s.mtr.check]
  have htrk : (s.latch R.MTR_CAUSE 2).trk = s.trk := keep_trk (by simp)
  refine ⟨_, exec_meterCheckRecompute hseal hcnt hep hcheck, ?_, fun hprot hcoal hlen => ?_, ?_, by simp⟩
  · rw [hlog.rb (by decide), State.rb_latch _ _ _ (by decide)]
  · rw [← htrk] at hprot hcoal hlen ⊢
    exact State.binLog_queue _ _ hprot hcoal hlen
  · exact ((s.latch_regsBut _ _).mono (by decide)).trans (hlog.mono (by decide))

/-- Settles O32: each clause is the equation of the command, the ledger carries the boundary's sums. -/
theorem meteringWork : Obligations.MeteringWork := by
  unfold Obligations.MeteringWork
  refine ⟨fun n s hn hcnt hmiss hon => ?_, fun ac n gap v i s hv hi => ?_, fun s hincs htotals htallies => ?_,
    fun s hoff => exec_meteringPass_before hoff, fun p s hp hon howed hout hgap => ?_, fun p s hoff => exec_pulseStart_off hoff,
    fun p s hp hout hwidth => ?_, fun s hseal hcnt hep hcheck => exec_meterCheckRecompute_spec hseal hcnt hep hcheck,
    fun s hon hcnt hep hprot => ?_⟩
  · obtain ⟨t, ht, hlast, hac, hdc, htotals, htallies, hpulses, hstores, hincs, hframe⟩ := exec_meteringPass_spec hn hcnt hmiss hon
    refine ⟨t, ht, hlast, hac, hdc, htotals, htallies, hpulses, hstores, fun gap hgap => ?_, hframe⟩
    subst hn hgap
    exact hincs
  · rw [hv 0 (by decide), hv 1 (by decide), hv 2 (by decide), hi 0 (by decide), hi 1 (by decide), hi 2 (by decide)]
    exact s.mtrIncs_spec ac n gap
  · exact ⟨s.mtrBoundary_incs, fun q hq => State.mtrBoundary_accounts hincs htotals htallies hq⟩
  · exact ⟨_, exec_pulseStart hp hon howed hout hgap, s.updPulse_spec p _⟩
  · exact ⟨_, exec_pulseEnd hp hout hwidth, s.updPulse_spec p _⟩
  · have hmtr : Frame [.mtr, .trk] s { s with mtr := { s.mtr with saveSeq := (s.mtr.saveSeq + 1) % 2 ^ 32 } } := by simp
    exact ⟨_, exec_periodicSave hon hcnt hep hprot, rfl, rfl, (Frame.set_trk _ (by decide)).mpr hmtr⟩

end Sys2Proof.Machine
end

section
/-! PROOFS. The start-up through the writes of a boundary: they leave what the Start Sequencer keeps, but for its count of ignored writes. -/

namespace Sys2Proof.Machine

/-- What the Start Sequencer keeps, but for its count of the writes of the image that were ignored (R419). -/
def State.startup (s : State) : StartSt := { s.start with ignored := 0 }

theorem startup_eq_of_frame {s t : State} (h : Frame [.regs, .sys, .mgmtStatus, .mfe, .lnk, .cel, .ctl, .grd, .edg, .prt, .mtr, .saf, .hats,
    .pwr, .ref, .trk, .dbg, .out, .freeCount, .pending] s t) : t.startup = s.startup := by
  rw [State.startup, State.startup, keep_start h]

theorem State.startup_ite {c : Prop} [Decidable c] {s a b : State} (ha : a.startup = s.startup) (hb : b.startup = s.startup) :
    (if c then a else b).startup = s.startup := by split <;> assumption

/-- Two states of one start-up agree in its fields. -/
theorem start_of_startup {s t : State} (h : t.startup = s.startup) : t.start.powered = s.start.powered ∧ t.start.step = s.start.step ∧
    t.start.active = s.start.active ∧ t.start.state = s.start.state ∧ t.start.restartWanted = s.start.restartWanted := by
  simp only [State.startup, StartSt.mk.injEq] at h
  obtain ⟨hpowered, hstep, hactive, -, hstate, -, -, -, -, hwanted, -⟩ := h
  exact ⟨hpowered, hstep, hactive, hstate, hwanted⟩

/-! The writes that take effect. -/

theorem State.startup_writeIgnored (s : State) (r : Requester) (off : Nat) (boot : Bool) :
    (s.writeIgnored r off boot).startup = s.startup := by
  unfold State.writeIgnored
  refine State.startup_ite ?_ (startup_eq_of_frame (by simp))
  exact startup_eq_of_frame (s := { s with start := { s.start with ignored := incSat 65535 s.start.ignored } }) (by simp)

theorem State.startup_applyImage (s : State) (key : Nat) (r : Requester) (img : Word) (boot : Bool) (off : Nat) :
    (s.applyImage key r img boot off).startup = s.startup := by
  unfold State.applyImage
  dsimp only
  split
  · split
    · exact startup_eq_of_frame (by simp)
    · exact s.startup_writeIgnored r off boot
  · exact startup_eq_of_frame (by simp)

/-- An image that waits is taken from the list and applied. -/
theorem State.startup_applyImage_dropped (s : State) (l : List Pending) (key : Nat) (r : Requester) (img : Word) (boot : Bool) (off : Nat) :
    (({ s with regs := { s.regs with pend := l } } : State).applyImage key r img boot off).startup = s.startup :=
  State.startup_applyImage _ key r img boot off

theorem State.startup_takeStart (s : State) (off : Nat) : (s.takeStart off).startup = s.startup := by
  unfold State.takeStart
  refine view_foldl_eq s fun y p _ => ?_
  split
  · exact State.startup_ite (y.startup_applyImage_dropped _ _ _ _ _ _) rfl
  · rfl

theorem State.startup_genTake (s : State) (g : Nat) : (s.genTake g).startup = s.startup := by
  unfold State.genTake
  refine view_foldl_eq s fun y p _ => ?_
  split
  · exact State.startup_ite (y.startup_applyImage_dropped _ _ _ _ _ _) rfl
  · rfl

theorem State.startup_genBegin (s : State) (g : Nat) : (s.genBegin g).startup = s.startup := by
  unfold State.genBegin
  exact State.startup_ite (startup_eq_of_frame (by simp)) ((startup_eq_of_frame (by simp)).trans (s.startup_genTake g))

/-- Of the actions only a START of a generator reaches into the start-up: its configuration may be counted as ignored. -/
theorem State.startup_actionEffect (s : State) (r : Requester) (off : Nat) (w : Word) : (s.actionEffect r off w).startup = s.startup := by
  unfold State.actionEffect
  refine State.startup_ite (startup_eq_of_frame (by simp)) (State.startup_ite (startup_eq_of_frame (by simp))
    (State.startup_ite (startup_eq_of_frame (by simp)) (State.startup_ite (startup_eq_of_frame (by simp))
    (State.startup_ite (startup_eq_of_frame (by simp)) (State.startup_ite (startup_eq_of_frame (by simp))
    (State.startup_ite ?_ (startup_eq_of_frame (by simp))))))))
  extract_lets g s1
  have h1 : s1.startup = s.startup := State.startup_ite (s.startup_genBegin g) rfl
  rw [← h1]
  exact State.startup_ite (startup_eq_of_frame (by simp)) rfl

theorem State.startup_runAction (s : State) (r : Requester) (off : Nat) (w : Word) : (s.runAction r off w).startup = s.startup := by
  unfold State.runAction State.asOwner
  refine State.startup_ite (State.startup_ite (startup_eq_of_frame (by simp)) (startup_eq_of_frame (by simp)))
    (State.startup_ite (startup_eq_of_frame (by simp)) (State.startup_ite (startup_eq_of_frame (by simp))
    (State.startup_ite ?_ (startup_eq_of_frame (by simp)))))
  exact (State.startup_actionEffect _ r off w).trans (startup_eq_of_frame (by simp))

theorem State.startup_applyMap (s : State) (h : Nat) (r : Requester) (w : BitVec 16) (boot : Bool) :
    (s.applyMap h r w boot).startup = s.startup := by
  unfold State.applyMap
  exact State.startup_ite (startup_eq_of_frame (by simp)) (State.startup_ite rfl (s.startup_writeIgnored _ _ _))

theorem State.startup_applyPending (s : State) (p : Pending) : (s.applyPending p).startup = s.startup := by
  cases p with
  | image k r w due boot off => exact s.startup_applyImage k r w boot off
  | ltClear k r m due => exact startup_eq_of_frame (by simp [State.applyPending])
  | action r o w due => exact s.startup_runAction r o w
  | map h r e due boot => exact s.startup_applyMap h r e boot

theorem State.startup_applyAll (s : State) (ps : List Pending) : (s.applyAll ps).startup = s.startup := by
  unfold State.applyAll
  refine view_foldl_eq s fun y p _ => State.startup_ite (y.startup_applyPending p) ?_
  split
  · exact startup_eq_of_frame (by simp)
  · exact startup_eq_of_frame (by simp)

theorem State.startup_applyDue (s : State) : s.applyDue.startup = s.startup := by
  unfold State.applyDue
  extract_lets ps q s1 s2
  have h1 : s1.startup = s.startup := rfl
  have h2 : s2.startup = s1.startup := (State.startup_applyAll _ _).trans (s1.startup_applyAll _)
  exact h2.trans h1

/-- Of the work of a boundary only the writes that it applies reach into the start-up. -/
theorem State.startup_boundary (s : State) (b : BoundaryIn) : (s.boundary b).startup = s.startup := by
  unfold State.boundary
  extract_lets s1 s2 s3 s4 s5 s6 s7 s8 s9 s10 s11 s12
  have h6 : s6.startup = s.startup := startup_eq_of_frame (by simp [s6, s5, s4, s3, s2, s1])
  have h7 : s7.startup = s6.startup := s6.startup_applyDue
  have h12 : s12.startup = s7.startup := startup_eq_of_frame (by simp [s12, s11, s10, s9, s8])
  exact (startup_eq_of_frame (s := s12) (by simp)).trans (h12.trans (h7.trans h6))

/-! The Start Sequencer from step REFERENCE on. -/

/-- The Start Sequencer goes on from one state to another past step REFERENCE: the reference and the system block stay as they are. -/
structure StartGoesOn (s t : State) : Prop where
  ref : t.ref = s.ref
  sys : t.sys = s.sys
  step : s.start.step ≤ t.start.step
  wanted : t.start.restartWanted = s.start.restartWanted

namespace StartGoesOn

theorem refl (s : State) : StartGoesOn s s := ⟨rfl, rfl, le_rfl, rfl⟩

theorem trans {s t u : State} (h : StartGoesOn s t) (h' : StartGoesOn t u) : StartGoesOn s u :=
  ⟨h'.ref.trans h.ref, h'.sys.trans h.sys, h.step.trans h'.step, h'.wanted.trans h.wanted⟩

theorem of_startup {s t : State} (hframe : Frame [.regs, .mgmtStatus, .mfe, .lnk, .cel, .ctl, .grd, .edg, .prt, .mtr, .saf, .hats, .pwr,
    .start, .trk, .dbg, .out, .freeCount, .pending] s t) (h : t.startup = s.startup) : StartGoesOn s t := by
  obtain ⟨-, hstep, -, -, hwanted⟩ := start_of_startup h
  exact ⟨hframe .ref (by decide), hframe .sys (by decide), hstep.ge, hwanted⟩

theorem of_frame {s t : State} (h : Frame [.regs, .mgmtStatus, .mfe, .lnk, .cel, .ctl, .grd, .edg, .prt, .mtr, .saf, .hats, .pwr,
    .trk, .dbg, .out, .freeCount, .pending] s t) : StartGoesOn s t :=
  of_startup (h.mono (by decide)) (startup_eq_of_frame (h.mono (by decide)))

end StartGoesOn

/-- A step that ends is over, and the steps run on unless it failed or was the last (R417). -/
theorem State.stepEnd_start (s : State) (outcome code : Nat) : (s.stepEnd outcome code).start.powered = s.start.powered ∧
    (s.stepEnd outcome code).start.step = s.start.step ∧ (s.stepEnd outcome code).start.active = false ∧
    (s.stepEnd outcome code).start.wasHeld = false ∧
    (s.stepEnd outcome code).start.state = if outcome = 3 then .failed else if s.start.step = 10 then .complete else .running := by
  unfold State.stepEnd
  extract_lets n shown kept w st s1 s2 s3 s4 s5
  have h5 : s5.start = s2.start := by
    refine keep_start ?_
    simp only [s5, s4, s3]
    split <;> split <;> simp
  rw [keep_start (s := s5) (t := s5.trkAsk .startRecord s5.recWords) (by simp), h5]
  exact ⟨rfl, rfl, rfl, rfl, rfl⟩

theorem State.stepEnd_goesOn (s : State) (outcome code : Nat) : StartGoesOn s (s.stepEnd outcome code) := by
  obtain ⟨-, hstep, -⟩ := s.stepEnd_start outcome code
  obtain ⟨hsys, hwanted⟩ := s.stepEnd_kept outcome code
  exact ⟨keep_ref (by simp), hsys, hstep.ge, hwanted⟩

theorem State.stepLeave_of_unwanted {s : State} (outcome code : Nat) (hwanted : s.start.restartWanted = none) :
    s.stepLeave outcome code = s.stepEnd outcome code := by
  unfold State.stepLeave
  dsimp only
  rw [(s.stepEnd_kept outcome code).2, hwanted]

theorem State.stepBegin_step (s : State) {n : Nat} (hn : 5 < n) : (s.stepBegin n).start.step = n ∧ (s.stepBegin n).ref = s.ref := by
  unfold State.stepBegin
  extract_lets st s1 s2
  rw [if_neg (by omega), if_neg (by omega)]
  have hstart : s2.start = s1.start := keep_start (by simp [s2])
  have href : s2.ref = s1.ref := keep_ref (by simp [s2])
  exact ⟨congrArg StartSt.step hstart, href⟩

theorem State.stepBegin_goesOn (s : State) {n : Nat} (hn : 5 < n) (hstep : s.start.step ≤ n) : StartGoesOn s (s.stepBegin n) := by
  obtain ⟨hbegun, href⟩ := s.stepBegin_step hn
  obtain ⟨hsys, hwanted⟩ := s.stepBegin_kept n
  exact ⟨href, hsys, hstep.trans hbegun.ge, hwanted⟩

/-- Step REFERENCE ends once the epoch counter counts (R412, R417). -/
theorem State.stepTry_reference {s : State} (hstep : s.start.step = 5) (hcnt : s.sys.counting = true) : s.stepTry = some (s, 1, 0) := by
  rw [State.stepTry, hstep]
  exact if_pos hcnt

/-- A step from REFERENCE on that ends leaves the reference and the system block (R417). -/
theorem State.stepTry_goesOn {s t : State} {o c : Nat} (hstep : 5 ≤ s.start.step) (h : s.stepTry = some (t, o, c)) : StartGoesOn s t := by
  have inj {x : State × Nat × Nat} (e : some x = some (t, o, c)) (hx : StartGoesOn s x.1) : StartGoesOn s t := by
    rw [Option.some.injEq] at e
    rwa [e] at hx
  unfold State.stepTry at h
  split at h
  · omega
  · omega
  · omega
  · omega
  · split at h
    · exact inj h (.refl s)
    · cases h
  · split at h
    · cases h
    · split at h
      · exact inj h (.of_frame (by simp))
      · exact inj h (.of_frame (by simp))
  · split at h
    · exact inj h (.of_frame (by simp))
    · cases h
  · split at h
    · cases h
    · split at h
      · exact inj h (.refl s)
      · exact inj h (.refl s)
  · split at h
    · exact inj h (.refl s)
    · cases h
  · exact inj h (.refl s)

/-- The state between two steps, once the registers of class Start step have been taken (R419). -/
def State.betweenSteps (s : State) : State := ([R.STR_CFG, R.PWR_PMB_CFG, R.REF_CFG] : List Nat).foldl State.takeStart s

/-- The start-up held before a step (R418). -/
def State.holdStart (s : State) : State := ({ s with start := { s.start with state := .held } } : State).latch R.STR_CAUSE 1

theorem State.betweenSteps_startup (s : State) : s.betweenSteps.startup = s.startup := view_foldl_eq s fun y k _ => y.startup_takeStart k

theorem State.betweenSteps_goesOn (s : State) : StartGoesOn s s.betweenSteps :=
  .of_startup (by rw [State.betweenSteps, Frame.foldl (by intro y k; simp)]; simp) s.betweenSteps_startup

theorem State.holdStart_goesOn (s : State) : StartGoesOn s s.holdStart ∧ s.holdStart.start.state = .held := by
  have hstart : s.holdStart.start = { s.start with state := .held } := State.latch_start _ _ _
  exact ⟨⟨State.latch_ref _ _ _, State.latch_sys _ _ _, by rw [hstart], by rw [hstart]⟩, by rw [hstart]⟩

/-- Between two steps the start-up is held or the next step begins (R417, R418). -/
theorem State.startRun_between (n : Nat) {s : State} (hpowered : s.start.powered = true) (hstate : s.start.state = .running)
    (hactive : s.start.active = false) : s.startRun (n + 1) = s.betweenSteps.holdStart ∨
      s.startRun (n + 1) = (s.betweenSteps.stepBegin (s.start.step + 1)).startRun n := by
  rw [State.startRun, hpowered, hstate, hactive, if_neg (by simp), if_neg Bool.false_ne_true]
  exact ite_eq_or_eq _ _ _

/-- From step REFERENCE on the Start Sequencer leaves the reference and the system block, whatever turns it makes (R417). -/
theorem State.startRun_goesOn (n : Nat) {s : State} (hstep : 5 ≤ s.start.step) (hwanted : s.start.restartWanted = none) :
    StartGoesOn s (s.startRun n) := by
  induction n generalizing s with
  | zero => exact .refl s
  | succ n ih =>
    have next {t : State} (h : StartGoesOn s t) : StartGoesOn s (t.startRun n) :=
      h.trans (ih (hstep.trans h.step) (h.wanted.trans hwanted))
    by_cases hidle : s.start.powered = false ∨ s.start.state ≠ .running
    · rw [State.startRun, if_pos hidle]
      exact .refl s
    cases hactive : s.start.active with
    | true =>
      rw [State.startRun, if_neg hidle, if_pos hactive]
      split
      · exact .refl s
      · have hswitch : StartGoesOn s (s.stepSwitch s.start.step) := .of_frame (by simp)
        dsimp only
        split
        · exact hswitch
        · next t o c htry =>
          have htried := hswitch.trans (State.stepTry_goesOn (hstep.trans hswitch.step) htry)
          rw [State.stepLeave_of_unwanted o c (htried.wanted.trans hwanted)]
          exact next (htried.trans (t.stepEnd_goesOn o c))
    | false =>
      obtain ⟨hpowered, hstate⟩ := not_or.mp hidle
      obtain ⟨-, hsame, -⟩ := start_of_startup s.betweenSteps_startup
      rcases State.startRun_between n (Bool.eq_true_of_not_eq_false hpowered) (not_not.mp hstate) hactive with h | h
      · rw [h]
        exact s.betweenSteps_goesOn.trans s.betweenSteps.holdStart_goesOn.1
      · rw [h]
        exact next (s.betweenSteps_goesOn.trans (State.stepBegin_goesOn _ (by omega) (by omega)))

/-- Once the epoch counter counts, step REFERENCE is over, and the start-up goes on to the next step unless it is held before it (R412,
R417, R418). -/
theorem State.sequence_of_reference {s : State} (hpowered : s.start.powered = true) (hstate : s.start.state = .running)
    (hactive : s.start.active = true) (hstep : s.start.step = 5) (hcnt : s.sys.counting = true) (hwanted : s.start.restartWanted = none) :
    StartGoesOn s s.sequence ∧ (5 < s.sequence.start.step ∨ s.sequence.start.state = .held) := by
  refine ⟨State.startRun_goesOn 64 hstep.ge hwanted, ?_⟩
  have hswitch : StartGoesOn s (s.stepSwitch 5) := .of_frame (by simp)
  have hstart : (s.stepSwitch 5).start = s.start := keep_start (by simp)
  have htry := State.stepTry_reference (s := s.stepSwitch 5) (by rw [hstart, hstep]) (by rw [hswitch.sys, hcnt])
  have hturn : s.sequence = ((s.stepSwitch 5).stepEnd 1 0).startRun 63 := by
    rw [State.sequence, State.startRun, if_neg (by simp [hpowered, hstate]), if_pos hactive, hstep, if_neg (by simp)]
    dsimp only
    rw [htry]
    exact congrArg (State.startRun 63) (State.stepLeave_of_unwanted 1 0 (hswitch.wanted.trans hwanted))
  obtain ⟨hpowered', hstep', hactive', -, hstate'⟩ := (s.stepSwitch 5).stepEnd_start 1 0
  have hended := hswitch.trans ((s.stepSwitch 5).stepEnd_goesOn 1 0)
  rw [hstart] at hpowered' hstep' hstate'
  rw [hstep] at hstep' hstate'
  rw [hturn]
  generalize (s.stepSwitch 5).stepEnd 1 0 = u at hpowered' hstep' hactive' hstate' hended ⊢
  rcases State.startRun_between 62 (hpowered'.trans hpowered) hstate' hactive' with h | h
  · rw [h]
    exact .inr u.betweenSteps.holdStart_goesOn.2
  · rw [h, hstep']
    obtain ⟨hbegun, -⟩ := u.betweenSteps.stepBegin_step (n := 5 + 1) (by decide)
    have hgo := u.betweenSteps_goesOn.trans (State.stepBegin_goesOn _ (n := 5 + 1) (by decide)
      (by obtain ⟨-, hsame, -⟩ := start_of_startup u.betweenSteps_startup; omega))
    have hon := State.startRun_goesOn 62 (s := u.betweenSteps.stepBegin (5 + 1)) (by omega)
      (hgo.wanted.trans (hended.wanted.trans hwanted))
    exact .inl (hbegun.ge.trans hon.step)

end Sys2Proof.Machine
end

section
/-! PROOFS. The reference and the power failure (O48): the first lock, the lock in holdover, the loss of lock, the end of the wait, and the
power failure and its release. -/

namespace Sys2Proof.Machine

/-! The first lock. -/

/-- The reference once it has locked: the band of the calibration, or the one that it started from (R411, R412). -/
def State.lockedRef (s : State) (band : Nat) : State :=
  let t := if s.ref.calibrated || 1000000 ≤ s.start.aoNs - s.ref.sinceNs then s.calibrate band else s
  { t with ref := { t.ref with state := .locked, muted := false } }

theorem State.band_calibrate (s : State) (band : Nat) : (s.calibrate band).ref.band = band := by
  unfold State.calibrate
  split
  · rfl
  · extract_lets r s1 s2
    have href (payload : List Nat) : (s2.binLog 0xC2 payload).ref = s1.ref := keep_ref (by simp [s2])
    exact congrArg RefSt.band (href _)

theorem State.lockedRef_spec (s : State) (band : Nat) : (s.lockedRef band).start = s.start ∧ (s.lockedRef band).ref.state = .locked ∧
    (s.lockedRef band).ref.muted = false ∧
    (s.lockedRef band).ref.band = if s.ref.calibrated = true ∨ 1000000 ≤ s.start.aoNs - s.ref.sinceNs then band else s.ref.band := by
  unfold State.lockedRef
  simp only [Bool.or_eq_true, decide_eq_true_eq, true_and]
  split
  · exact ⟨keep_start (by simp), s.band_calibrate band⟩
  · exact ⟨rfl, rfl⟩

/-- The first epoch begins: E(0), its ERA and its plan (R15, R16, R447). -/
def State.firstEpoch (s : State) : State := { s with
  sys := { s.sys with
    compat := s.rb R.SYS_PLAN 0, epoch := 0, counting := true, era := (s.sys.era + 1) % 2 ^ 16, moved := false, taken := none }
  regs := { s.regs with ltNow := [] } }

/-- The boundary of E(0) (R16, R449). -/
def State.firstBoundary (s : State) : State :=
  let t := s.trkAsk .directory s.directoryWords
  t.boundary ⟨[], [], [], t.sys.tj⟩

theorem State.firstLock_eq (s : State) (band control : Nat) :
    s.firstLock band control = ((((s.lockedRef band).bandSave control).takeStart R.SYS_PLAN).firstEpoch.firstBoundary).sequence := rfl

theorem State.firstBoundary_spec (s : State) : s.firstBoundary.startup = s.startup ∧ s.firstBoundary.ref = s.ref ∧
    s.firstBoundary.clock = s.clock := by
  unfold State.firstBoundary
  extract_lets t
  have hframe : Frame [.regs, .trk] s t := by simp [t]
  exact ⟨(t.startup_boundary _).trans (startup_eq_of_frame (hframe.mono (by decide))),
    (keep_ref (by simp)).trans (hframe .ref (by decide)), (t.boundary_clock _).trans (clock_eq_of_frame (hframe.mono (by decide)))⟩

/-- Lock at step REFERENCE starts the epoch counter and unmutes, and the start-up goes on (R411, R412, R417). -/
theorem State.firstLock_spec {s : State} (band control : Nat) (hpowered : s.start.powered = true) (hstate : s.start.state = .running)
    (hactive : s.start.active = true) (hstep : s.start.step = 5) (hwanted : s.start.restartWanted = none) :
    (s.firstLock band control).ref.state = .locked ∧ (s.firstLock band control).ref.muted = false ∧
      (s.firstLock band control).sys.counting = true ∧ (s.firstLock band control).sys.epoch = 0 ∧
      (s.firstLock band control).ref.band = (if s.ref.calibrated = true ∨ 1000000 ≤ s.start.aoNs - s.ref.sinceNs then band else s.ref.band) ∧
      (5 < (s.firstLock band control).start.step ∨ (s.firstLock band control).start.state = .held) := by
  obtain ⟨hstart, hlocked, hunmuted, hband⟩ := s.lockedRef_spec band
  have hsaved : ((s.lockedRef band).bandSave control).startup = s.startup :=
    (startup_eq_of_frame (s := s.lockedRef band) (by simp)).trans (congrArg (fun x : StartSt => { x with ignored := 0 }) hstart)
  have htaken := (State.startup_takeStart ((s.lockedRef band).bandSave control) R.SYS_PLAN).trans hsaved
  have href : (((s.lockedRef band).bandSave control).takeStart R.SYS_PLAN).ref = (s.lockedRef band).ref := keep_ref (by simp)
  rw [State.firstLock_eq]
  generalize ((s.lockedRef band).bandSave control).takeStart R.SYS_PLAN = u at htaken href ⊢
  obtain ⟨hstartup', href', hclock⟩ := u.firstEpoch.firstBoundary_spec
  obtain ⟨hp, hn, ha, hs, hw⟩ := start_of_startup (hstartup'.trans htaken)
  have hcnt : u.firstEpoch.firstBoundary.sys.counting = true := congrArg Core.counting hclock
  have hepoch : u.firstEpoch.firstBoundary.sys.epoch = 0 := congrArg Core.epoch hclock
  obtain ⟨hgo, hon⟩ := State.sequence_of_reference (hp.trans hpowered) (hs.trans hstate) (ha.trans hactive) (hn.trans hstep) hcnt
    (hw.trans hwanted)
  have hkept : u.firstEpoch.firstBoundary.sequence.ref = (s.lockedRef band).ref := hgo.ref.trans (href'.trans href)
  rw [hkept, hgo.sys]
  exact ⟨hlocked, hunmuted, hcnt, hepoch, hband, hon⟩

theorem exec_lockDeclared_first {ws : List LockWindow} {band control : Nat} {s : State} (hpass : s.windowsPass ws = true)
    (href : s.ref.state = .unlocked) (hstate : s.start.state = .running) (hactive : s.start.active = true) (hstep : s.start.step = 5)
    (hdom : s.domain 49 = true) (hcnt : s.sys.counting = false) :
    exec (.lockDeclared ws band control) s = .next (s.firstLock band control) := by
  show execLockDeclared ws band control s = _
  rw [execLockDeclared, if_neg (by simp [hpass]), href]
  exact if_pos ⟨hstate, hactive, hstep, hdom, hcnt⟩

/-! Lock in holdover. -/

/-- The state in which the wait of UNMUTE_EP epochs begins (R414). -/
def State.waitsUnmute (s : State) : State := { s with ref := { s.ref with state := .unmuteWait, waitEp := 0 } }

theorem exec_lockDeclared_holdover {ws : List LockWindow} {band control : Nat} {s : State} (hpass : s.windowsPass ws = true)
    (href : s.ref.state = .holdover) : exec (.lockDeclared ws band control) s = .next (s.waitsUnmute.bandSave control) := by
  show execLockDeclared ws band control s = _
  rw [execLockDeclared, if_neg (by simp [hpass]), href]
  rfl

theorem State.trkAsk_regsBut (s : State) (i : TrkItem) (ws : List Nat) : RegsBut [R.TRK_SUPPRESSED] s (s.trkAsk i ws) :=
  .ite (s.countSuppressed_regsBut 1) (.of_regs rfl)

theorem State.bandSave_regsBut (s : State) (control : Nat) : RegsBut [R.TRK_SUPPRESSED] s (s.bandSave control) :=
  .ite (.refl _ s) (s.trkAsk_regsBut _ _)

/-- The words of the stored bands with the present band and a control value for the junction range (R411). -/
def State.bandWords (s : State) (control : Nat) : List Nat := (List.range 12).map fun i =>
  if i = 3 * s.ref.range then 1 else if i = 3 * s.ref.range + 1 then s.ref.band else if i = 3 * s.ref.range + 2 then control
    else s.storedBands.getD i 0

theorem State.bandWords_getD (s : State) (control : Nat) (hrange : s.ref.range < 4) : (s.bandWords control).getD (3 * s.ref.range) 0 = 1 ∧
    (s.bandWords control).getD (3 * s.ref.range + 1) 0 = s.ref.band ∧ (s.bandWords control).getD (3 * s.ref.range + 2) 0 = control := by
  have hget (i : Nat) (hi : i < 12) : (s.bandWords control).getD i 0 = if i = 3 * s.ref.range then 1 else if i = 3 * s.ref.range + 1
      then s.ref.band else if i = 3 * s.ref.range + 2 then control else s.storedBands.getD i 0 := by
    simp [State.bandWords, List.getD_eq_getElem?_getD, hi]
  rw [hget _ (by omega), hget _ (by omega), hget _ (by omega)]
  simp

/-- A control value that differs from the stored one is kept (R411). -/
theorem State.bandSave_changed {s : State} {control : Nat} (hrange : s.ref.range < 4) (hprot : s.trk.writeProt = false)
    (hchanged : s.storedBands.getD (3 * s.ref.range + 2) 0 ≠ control) :
    s.bandSave control = { s with trk := { s.trk with waiting := s.trk.waiting ++ [(.bands, s.bandWords control)] } } := by
  have hdiffers : s.storedBands ≠ s.bandWords control := by
    intro h
    obtain ⟨-, -, hcontrol⟩ := s.bandWords_getD control hrange
    rw [← h] at hcontrol
    exact hchanged hcontrol
  refine (if_neg hdiffers).trans (if_neg ?_)
  rw [hprot]
  exact Bool.false_ne_true

theorem exec_lockDeclared_holdover_spec {ws : List LockWindow} (band control : Nat) {s : State} (hpass : s.windowsPass ws = true)
    (href : s.ref.state = .holdover) :
    ∃ t, exec (.lockDeclared ws band control) s = .next t ∧ t.ref = { s.ref with state := .unmuteWait, waitEp := 0 } ∧
      (s.trk.writeProt = false → s.ref.range < 4 → s.storedBands.getD (3 * s.ref.range + 2) 0 ≠ control →
        ∃ ws, t.trk.waiting = s.trk.waiting ++ [(.bands, ws)] ∧ ws.getD (3 * s.ref.range) 0 = 1 ∧
          ws.getD (3 * s.ref.range + 1) 0 = s.ref.band ∧ ws.getD (3 * s.ref.range + 2) 0 = control) ∧
      RegsBut [R.TRK_SUPPRESSED] s t ∧ Frame [.regs, .ref, .trk] s t := by
  have hwait : Frame [.regs, .ref, .trk] s s.waitsUnmute := by simp [State.waitsUnmute]
  have hkept : (s.waitsUnmute.bandSave control).ref = s.waitsUnmute.ref := keep_ref (by simp)
  refine ⟨_, exec_lockDeclared_holdover hpass href, hkept, fun hprot hrange hchanged => ?_,
    RegsBut.trans (.of_regs rfl) (s.waitsUnmute.bandSave_regsBut control), (State.bandSave_frame control (by decide)).mpr hwait⟩
  refine ⟨s.waitsUnmute.bandWords control, ?_, s.waitsUnmute.bandWords_getD control hrange⟩
  exact congrArg (fun y => y.trk.waiting) (State.bandSave_changed (s := s.waitsUnmute) hrange hprot hchanged)

/-! The loss of lock, and the end of the wait. -/

/-- The state in which holdover begins (R413, R414). -/
def State.losesLock (s : State) : State := { s with ref := { s.ref with state := .holdover, muted := true, holdoverEp := 0 } }

/-- The state in which the lanes launch again (R414). -/
def State.unmutes (s : State) : State := { s with ref := { s.ref with state := .locked, muted := false } }

theorem exec_referenceLoss {s : State} (href : s.ref.state = .locked ∨ s.ref.state = .unmuteWait) : exec .referenceLoss s =
    .next (((s.losesLock.count R.REF_STATUS 15 0).latch R.REF_CAUSE 0).binLog 0xC0
      [((s.losesLock.count R.REF_STATUS 15 0).latch R.REF_CAUSE 0).refStatus.toNat]) := if_pos href

theorem exec_referenceLoss_spec {s : State} (href : s.ref.state = .locked ∨ s.ref.state = .unmuteWait) :
    ∃ t, exec .referenceLoss s = .next t ∧ t.ref = { s.ref with state := .holdover, muted := true, holdoverEp := 0 } ∧
      t.rf R.REF_STATUS 15 0 = incSat 65535 (s.rf R.REF_STATUS 15 0) ∧ t.rb R.REF_CAUSE 0 = true ∧
      RegsBut [R.REF_STATUS, R.REF_CAUSE, R.TRK_CAUSE, R.TRK_QUEUE, R.TRK_SUPPRESSED] s t ∧ Frame [.regs, .ref, .trk] s t := by
  have hlost : Frame [.regs, .ref, .trk] s s.losesLock := by simp [State.losesLock]
  have hcount : (s.losesLock.count R.REF_STATUS 15 0).rf R.REF_STATUS 15 0 = incSat 65535 (s.rf R.REF_STATUS 15 0) :=
    State.rf_count _ _ _ _ (by decide)
  have hexec := exec_referenceLoss href
  generalize [((s.losesLock.count R.REF_STATUS 15 0).latch R.REF_CAUSE 0).refStatus.toNat] = payload at hexec
  have hlog := ((s.losesLock.count R.REF_STATUS 15 0).latch R.REF_CAUSE 0).binLog_regsBut 0xC0 payload
  have hkept : (((s.losesLock.count R.REF_STATUS 15 0).latch R.REF_CAUSE 0).binLog 0xC0 payload).ref = s.losesLock.ref :=
    keep_ref (by simp)
  refine ⟨_, hexec, hkept, ?_, ?_, ?_, by simpa using hlost⟩
  · rw [State.rf, hlog _ (by decide), ← State.rf, State.rf_latch_ne _ (by decide) (.inl (by decide)), hcount]
  · rw [hlog.rb (by decide), State.rb_latch _ _ _ (by decide)]
  · exact (RegsBut.of_regs (t := s.losesLock) rfl).trans (((State.count_regsBut _ _ _ _).mono (by decide)).trans
      (((State.latch_regsBut _ _ _).mono (by decide)).trans (hlog.mono (by decide))))

theorem exec_unmute {s : State} (href : s.ref.state = .unmuteWait) (hwait : max 1 (s.rf R.REF_CFG 31 16) ≤ s.ref.waitEp) :
    exec .unmute s = .next ((s.unmutes.latch R.REF_CAUSE 1).binLog 0xC1 [(s.unmutes.latch R.REF_CAUSE 1).refStatus.toNat]).sequence :=
  if_pos ⟨href, hwait⟩

theorem exec_unmute_spec {s : State} (href : s.ref.state = .unmuteWait) (hwait : max 1 (s.rf R.REF_CFG 31 16) ≤ s.ref.waitEp)
    (hdone : s.start.state = .complete) :
    ∃ t, exec .unmute s = .next t ∧ t.ref = { s.ref with state := .locked, muted := false } ∧ t.rb R.REF_CAUSE 1 = true ∧
      RegsBut [R.REF_CAUSE, R.TRK_CAUSE, R.TRK_QUEUE, R.TRK_SUPPRESSED] s t ∧ Frame [.regs, .ref, .trk] s t := by
  have hunmuted : Frame [.regs, .ref, .trk] s s.unmutes := by simp [State.unmutes]
  have hexec := exec_unmute href hwait
  generalize [(s.unmutes.latch R.REF_CAUSE 1).refStatus.toNat] = payload at hexec
  have hstart : ((s.unmutes.latch R.REF_CAUSE 1).binLog 0xC1 payload).start = s.start := keep_start (s := s.unmutes) (by simp)
  have hlog := (s.unmutes.latch R.REF_CAUSE 1).binLog_regsBut 0xC1 payload
  rw [State.sequence_of_complete (by rw [hstart]; exact hdone)] at hexec
  have hkept : ((s.unmutes.latch R.REF_CAUSE 1).binLog 0xC1 payload).ref = s.unmutes.ref := keep_ref (by simp)
  refine ⟨_, hexec, hkept, ?_, ?_, by simpa using hunmuted⟩
  · rw [hlog.rb (by decide), State.rb_latch _ _ _ (by decide)]
  · exact (RegsBut.of_regs (t := s.unmutes) rfl).trans (((State.latch_regsBut _ _ _).mono (by decide)).trans (hlog.mono (by decide)))

/-! The power failure. -/

/-- A Bin record leaves a cause of the Trunk that is set (R432). -/
theorem State.rb_binLog_keeps {s : State} {b : Nat} (cause : Nat) (payload : List Nat) (h : s.rb R.TRK_CAUSE b = true) :
    (s.binLog cause payload).rb R.TRK_CAUSE b = true := by
  have hcount {y : State} (n : Nat) (hy : y.rb R.TRK_CAUSE b = true) : (y.countSuppressed n).rb R.TRK_CAUSE b = true :=
    ((y.countSuppressed_regsBut n).rb (by decide) b).trans hy
  have hlost : RegsBut [R.TRK_SUPPRESSED] s (s.binLost cause) := (s.countSuppressed_regsBut 1).trans (.of_regs rfl)
  unfold State.binLog State.binAt State.binPush
  split
  · exact (hlost.rb (by decide) b).trans h
  · extract_lets start q s1 on rep q' s2 t3 s3
    have h1 : s1.rb R.TRK_CAUSE b = true := by
      unfold s1
      split
      · exact hcount _ (State.rb_latch_keeps _ _ _ _ _ (by decide) h)
      · exact h
    have h2 : s2.rb R.TRK_CAUSE b = true := by
      unfold s2
      split
      · exact hcount 1 h1
      · exact h1
    rw [State.rb, State.reg_noteLt, ← State.rb, (s3.setRf_regsBut _ _ _ _).rb (by decide)]
    exact h2

theorem State.coalesceNow_spec (s : State) : s.coalesceNow.rb R.TRK_CAUSE 0 = true ∧
    RegsBut [R.TRK_CAUSE, R.TRK_SUPPRESSED] s s.coalesceNow := by
  have hcount : RegsBut [R.TRK_SUPPRESSED] (s.latch R.TRK_CAUSE 0) s.coalesceNow := by
    unfold State.coalesceNow
    extract_lets q y
    have hy : RegsBut [R.TRK_SUPPRESSED] (s.latch R.TRK_CAUSE 0) y := State.countSuppressed_regsBut _ _
    clear_value y
    exact hy.trans (.of_regs rfl)
  refine ⟨?_, ((s.latch_regsBut _ _).mono (by decide)).trans (hcount.mono (by decide))⟩
  rw [hcount.rb (by decide), State.rb_latch _ _ _ (by decide)]

/-- The state in which a power failure begins (R331, R429). -/
def State.losesPower (s : State) : State := { s with pwr := { s.pwr with pfail := true, pfailSave := s.mtr.on_ } }

theorem exec_pfailAssert {s : State} (hpwr : s.pwr.pfail = false) : exec .pfailAssert s =
    .next ((s.losesPower.latch R.PWR_CAUSE 6).coalesceNow.pwrRecord 0xC8) := if_neg (by simp [hpwr])

theorem exec_pfailRelease {s : State} (hpwr : s.pwr.pfail = true) : exec .pfailRelease s =
    .next (State.pwrRecord { s with pwr := { s.pwr with pfail := false } } 0xC9) := if_pos hpwr

theorem exec_pfailAssert_spec {s : State} (hpwr : s.pwr.pfail = false) :
    ∃ t, exec .pfailAssert s = .next t ∧ t.pwr = { s.pwr with pfail := true, pfailSave := s.mtr.on_ } ∧ t.rb R.PWR_CAUSE 6 = true ∧
      t.rb R.TRK_CAUSE 0 = true ∧ RegsBut [R.PWR_CAUSE, R.TRK_CAUSE, R.TRK_QUEUE, R.TRK_SUPPRESSED] s t ∧ Frame [.regs, .pwr, .trk] s t := by
  have hlost : Frame [.regs, .pwr, .trk] s s.losesPower := by simp [State.losesPower]
  obtain ⟨hcause, hcoal⟩ := (s.losesPower.latch R.PWR_CAUSE 6).coalesceNow_spec
  refine ⟨_, exec_pfailAssert hpwr, keep_pwr (s := s.losesPower) (by simp), ?_, State.rb_binLog_keeps _ _ hcause, ?_,
    by simpa using hlost⟩
  · rw [State.pwrRecord, (State.binLog_regsBut _ _ _).rb (by decide), hcoal.rb (by decide), State.rb_latch _ _ _ (by decide)]
  · exact (RegsBut.of_regs (t := s.losesPower) rfl).trans (((State.latch_regsBut _ _ _).mono (by decide)).trans
      ((hcoal.mono (by decide)).trans ((State.binLog_regsBut _ _ _).mono (by decide))))

theorem exec_pfailRelease_spec {s : State} (hpwr : s.pwr.pfail = true) :
    ∃ t, exec .pfailRelease s = .next t ∧ t.pwr = { s.pwr with pfail := false } ∧
      RegsBut [R.TRK_CAUSE, R.TRK_QUEUE, R.TRK_SUPPRESSED] s t ∧ Frame [.regs, .pwr, .trk] s t := by
  refine ⟨_, exec_pfailRelease hpwr, keep_pwr (s := { s with pwr := { s.pwr with pfail := false } }) (by simp), ?_, by simp⟩
  exact RegsBut.trans (t := { s with pwr := { s.pwr with pfail := false } }) (.of_regs rfl) ((State.binLog_regsBut _ _ _).mono (by decide))

/-- Settles O48: the first lock by the Start Sequencer's way past step REFERENCE, the others by the equation of the command. -/
theorem referenceAndPowerFail : Obligations.ReferenceAndPowerFail := by
  unfold Obligations.ReferenceAndPowerFail
  refine ⟨fun ws band control s hpass href hpowered hstate hactive hstep hdom hcnt hwanted => ?_,
    fun ws band control s hpass href => exec_lockDeclared_holdover_spec band control hpass href, fun s href => exec_referenceLoss_spec href,
    fun s href hwait hdone => exec_unmute_spec href hwait hdone, fun s hpwr => exec_pfailAssert_spec hpwr,
    fun s hpwr => exec_pfailRelease_spec hpwr⟩
  exact ⟨_, exec_lockDeclared_first hpass href hstate hactive hstep hdom hcnt,
    State.firstLock_spec band control hpowered hstate hactive hstep hwanted⟩

end Sys2Proof.Machine
end

section
/-! PROOFS. Reads of aliases, and actions that need ownership (O53, O60). -/

namespace Sys2Proof.Machine

/-- A read goes by the normal offset alone, and does there all that it does (R454). -/
theorem State.readReg_alias (s : State) (r : Requester) (off : Nat) : s.readReg r off = s.readReg r (off % 0x4000) := by
  rw [State.readReg, State.readReg, Nat.mod_mod]

theorem State.readReg_unimplemented (s : State) (r : Requester) {off : Nat} (h : implemented (off % 0x4000) = false) :
    s.readReg r off = none := by
  have hdef : regDef (off % 0x4000) = none := by simpa [implemented] using h
  simp only [State.readReg, hdef]

/-- Settles O53: a read looks only at the offset modulo 0x4000, and finds no register there where none is implemented. -/
theorem aliasReads : Obligations.AliasReads :=
  fun r off w ns s hoff => ⟨s.readReg_alias r off, fun h => ⟨s.readReg_unimplemented r h, s.regWrite_unimplemented r w ns hoff h⟩⟩

/-- An action without ownership is an entry of kind 4, and nothing else (R394). -/
theorem State.asOwner_refused {s : State} {r : Requester} {off : Nat} (h : s.mayWrite r off = false) (f : State → State) :
    s.asOwner r off f = s.logErr r 4 off := by
  rw [State.asOwner, h, if_neg Bool.false_ne_true]

/-- The command is an action of a WA field of the register, which acts as its owner does (R394, R490). -/
def ActsAsOwner (c : Instr) (r : Requester) (off : Nat) : Prop :=
  ∀ s : State, ∃ f : State → State, exec c s = .next (s.asOwner r off f)

/-- An action that goes through runAction acts as its owner does. -/
theorem ActsAsOwner.of_runAction {c : Instr} {r : Requester} {off : Nat} (hoff : off ∉ [R.SAF_CONFIRM, R.PRT_RESET, R.DBG_HALT])
    (h : ∀ s : State, ∃ w, exec c s = .next (s.runAction r off w)) : ActsAsOwner c r off := by
  simp only [List.mem_cons, List.not_mem_nil, or_false, not_or] at hoff
  obtain ⟨hconf, hreset, hhalt⟩ := hoff
  intro s
  obtain ⟨w, hw⟩ := h s
  rw [State.runAction, if_neg hconf, if_neg hreset, if_neg hhalt] at hw
  exact ⟨_, hw⟩

/-- HALT, RESUME and STEP act on receipt, and as the owner of DBG_HALT (R485). -/
theorem ActsAsOwner.of_haltWrite {c : Instr} {r : Requester} (h : ∀ s : State, ∃ w ns, exec c s = .next (s.haltWrite r w ns)) :
    ActsAsOwner c r R.DBG_HALT := by
  intro s
  obtain ⟨w, ns, hw⟩ := h s
  exact ⟨_, hw⟩

theorem ActsAsOwner.encReref (r : Requester) {k : Nat} (w : Word) (hk : k < 3) : ActsAsOwner (.encReref r k w) r (R.MFE_ENC_REREF k) :=
  .of_runAction (by simp only [R.MFE_ENC_REREF, R.SAF_CONFIRM, R.PRT_RESET, R.DBG_HALT, List.mem_cons, List.not_mem_nil, or_false]; omega)
    fun s => ⟨w, congrArg Host.Outcome.next (if_pos hk)⟩

theorem ActsAsOwner.genStart (r : Requester) {g : Nat} (hg : g < 4) : ActsAsOwner (.genStart r g) r (R.CTL_GEN_CTRL g) :=
  .of_runAction (by simp only [R.CTL_GEN_CTRL, R.SAF_CONFIRM, R.PRT_RESET, R.DBG_HALT, List.mem_cons, List.not_mem_nil, or_false]; omega)
    fun s => ⟨_, congrArg Host.Outcome.next (if_pos hg)⟩

theorem ActsAsOwner.genStop (r : Requester) {g : Nat} (hg : g < 4) : ActsAsOwner (.genStop r g) r (R.CTL_GEN_CTRL g) :=
  .of_runAction (by simp only [R.CTL_GEN_CTRL, R.SAF_CONFIRM, R.PRT_RESET, R.DBG_HALT, List.mem_cons, List.not_mem_nil, or_false]; omega)
    fun s => ⟨_, congrArg Host.Outcome.next (if_pos hg)⟩

/-- Settles O60: every action of the list acts as the owner of its register does, and one without ownership is refused. -/
theorem actionsNeedOwnership : Obligations.ActionsNeedOwnership := by
  intro r c off g k x y w s hg hk hmem hmay
  have hacts : ActsAsOwner c r off := by
    refine (List.forall_mem_cons (p := fun a => ActsAsOwner a.1 r a.2)).mpr ?_ (c, off) hmem
    simp only [List.forall_mem_cons]
    refine ⟨?_, .encReref r w hk, ?_, ?_, ?_, ?_, ?_, ?_, ?_, ?_, ?_, ?_, ?_, ?_, ?_, ?_, .genStart r hg, .genStop r hg, ?_, ?_, ?_, ?_, ?_,
      ?_, ?_, ?_, ?_, ?_, .of_haltWrite fun _ => ⟨_, _, rfl⟩, .of_haltWrite fun _ => ⟨_, _, rfl⟩, .of_haltWrite fun _ => ⟨_, _, rfl⟩,
      ?_, ?_, fun _ h => absurd h List.not_mem_nil⟩ <;>
    exact .of_runAction (by decide) fun _ => ⟨_, rfl⟩
  obtain ⟨f, hf⟩ := hacts s
  rw [hf, State.asOwner_refused hmay]

end Sys2Proof.Machine
end

section
/-! PROOFS. Safety inputs (O34): what one sample makes of a channel, the faults of pairs, and the outputs. -/

namespace Sys2Proof.Machine

/-! Pairs and outputs. -/

@[simp] theorem State.safPair_updSafPair (s : State) (p q : Nat) (f : PairSaf → PairSaf) :
    (s.updSafPair p f).safPair q = if q = p then f (s.safPair p) else s.safPair q := smGet_smUpd _ _ _ _ _

@[simp] theorem State.safOut_updSafOut (s : State) (o q : Nat) (f : OutSaf → OutSaf) :
    (s.updSafOut o f).safOut q = if q = o then f (s.safOut o) else s.safOut q := smGet_smUpd _ _ _ _ _

@[simp] theorem State.safPair_latch (s : State) (k b p : Nat) : (s.latch k b).safPair p = s.safPair p := rfl
@[simp] theorem State.safOut_latch (s : State) (k b o : Nat) : (s.latch k b).safOut o = s.safOut o := rfl
@[simp] theorem State.reg_updSafPair (s : State) (p k : Nat) (f : PairSaf → PairSaf) : (s.updSafPair p f).reg k = s.reg k := rfl
@[simp] theorem State.reg_updSafOut (s : State) (o k : Nat) (f : OutSaf → OutSaf) : (s.updSafOut o f).reg k = s.reg k := rfl
@[simp] theorem State.updSafOut_regs (s : State) (o : Nat) (f : OutSaf → OutSaf) : (s.updSafOut o f).regs = s.regs := rfl

/-! Samples. -/

/-- What a sample may change of channel c, with what the channel's filter goes by (R338). -/
structure InputView where
  regs : RegSt
  us : Nat
  raw : Nat
  srb : Nat
  chan : ChanSt

def State.inputView (s : State) (c : Nat) : InputView := ⟨s.regs, s.saf.us, s.saf.raw, s.saf.srb, s.chan c⟩

/-- Channel c after a sample of its filter that reads r (R338). -/
def State.chanFiltered (s : State) (c : Nat) (r : Bool) : ChanSt :=
  if r = (s.chan c).val then { s.chan c with run := 0 }
  else if 100 * s.rf (R.SAF_PAIR_CFG (c % 16)) 15 8 ≤ (s.chan c).run + 1 then ⟨r, 0⟩
  else { s.chan c with run := (s.chan c).run + 1 }

/-- A channel in a test window keeps its filter, and any other channel steps its own. -/
theorem State.inputView_chanSample (s : State) (a c : Nat) : (s.chanSample a).inputView c =
    { s.inputView c with chan := if c = a ∧ s.inTestWindow a = false then s.chanFiltered a (s.chanRaw a) else s.chan c } := by
  unfold State.chanSample
  split
  · next hin => simp [hin, State.inputView]
  · next hin =>
    simp only [State.inputView, State.chan, smGet_smSet, hin, and_true]
    rfl

theorem State.inputView_chanSample_ne (s : State) {a c : Nat} (h : a ≠ c) : (s.chanSample a).inputView c = s.inputView c := by
  rw [State.inputView_chanSample, if_neg fun hc => h hc.1.symm]
  rfl

theorem State.inputView_chanSample_congr {u s : State} {c : Nat} (h : u.inputView c = s.inputView c) :
    (u.chanSample c).inputView c = (s.chanSample c).inputView c := by
  simp only [State.inputView, InputView.mk.injEq] at h
  obtain ⟨hregs, hus, hraw, hsrb, hchan⟩ := h
  have hrf (k a b : Nat) : u.rf k a b = s.rf k a b := congrArg (fld · a b) (State.reg_congr hregs k)
  have hphase (k : Nat) : u.tpPhase k = s.tpPhase k := by rw [State.tpPhase, State.tpPhase, hrf, hus]
  have hsource : u.chanSource c = s.chanSource c := by rw [State.chanSource, State.chanSource, State.reg_congr hregs]
  have hwidth : u.tpWidth = s.tpWidth := hrf _ _ _
  have hwin : u.inTestWindow c = s.inTestWindow c := by
    rw [State.inTestWindow, State.inTestWindow, hsource, hphase, hwidth]
  have hraw' : u.chanRaw c = s.chanRaw c := congrArg (bit · c) hraw
  have hfilt (r : Bool) : u.chanFiltered c r = s.chanFiltered c r := by
    rw [State.chanFiltered, State.chanFiltered, hchan, hrf]
  rw [State.inputView_chanSample, State.inputView_chanSample, hwin, hraw', hfilt, hchan, State.inputView, State.inputView, hregs, hus, hraw, hsrb]

theorem State.inputView_pairSample (s : State) (p c : Nat) : (s.pairSample p).inputView c = s.inputView c := rfl

theorem State.inputView_outSample (s : State) (o c : Nat) : (s.outSample o).inputView c = s.inputView c := rfl

theorem State.inputView_srstSample (s : State) (raw : Bool) (c : Nat) : (s.srstSample raw).inputView c = s.inputView c := by
  unfold State.srstSample
  dsimp only
  (repeat' split) <;> rfl

/-- The Safety Core with the inputs of a new sample (R338). -/
def State.sampleTaken (s : State) (raw srb : Nat) : State :=
  { s with saf := { s.saf with us := s.saf.us + 1, raw := raw, srb := srb } }

/-- The sample of the channels, the pairs, the outputs and SRST. -/
def State.safSampled (s : State) (srst : Bool) : State :=
  ((List.range 8).foldl State.outSample ((List.range 16).foldl State.pairSample ((List.range 32).foldl State.chanSample s))).srstSample srst

theorem exec_safetySample (raw srb : Nat) (srst : Bool) {s : State} (hrun : s.saf.running = true) :
    exec (.safetySample raw srb srst) s = .next ((s.sampleTaken raw srb).safSampled srst) := if_neg (by simp [hrun])

/-- Of a channel and of the inputs, a sample changes what the channel's own filter does. -/
theorem State.inputView_safSampled (s : State) (srst : Bool) {c : Nat} (hc : c < 32) : (s.safSampled srst).inputView c =
    { s.inputView c with chan := if s.inTestWindow c = false then s.chanFiltered c (s.chanRaw c) else s.chan c } := by
  have hchans : ((List.range 32).foldl State.chanSample s).inputView c = (s.chanSample c).inputView c := by
    obtain ⟨u, hu, hfold⟩ := view_foldl_range (view := (State.inputView · c)) hc s fun y a ha => y.inputView_chanSample_ne ha
    exact hfold.trans (State.inputView_chanSample_congr hu)
  rw [State.safSampled, State.inputView_srstSample,
    view_foldl_eq (view := (State.inputView · c)) _ fun y o _ => y.inputView_outSample o c,
    view_foldl_eq (view := (State.inputView · c)) _ fun y p _ => y.inputView_pairSample p c, hchans, State.inputView_chanSample]
  simp

/-- A channel without a test source has no test window (R340). -/
theorem State.inTestWindow_of_no_source {s : State} {c : Nat} (h : 4 ≤ s.chanSource c) : s.inTestWindow c = false := by
  simp [State.inTestWindow, Nat.not_lt.mpr h]

/-- A channel without a test source steps its filter at every sample (R338). -/
theorem State.chan_safSampled (s : State) (raw srb : Nat) (srst : Bool) {c : Nat} (hc : c < 32) (hsrc : 4 ≤ s.chanSource c) :
    ((s.sampleTaken raw srb).safSampled srst).chan c = s.chanFiltered c (bit raw c) := by
  have hview := congrArg InputView.chan ((s.sampleTaken raw srb).inputView_safSampled srst hc)
  rw [if_pos (State.inTestWindow_of_no_source (s := s.sampleTaken raw srb) hsrc)] at hview
  exact hview

/-! Faults of pairs. -/

theorem State.safPair_pairFaultSet (s : State) (p q : Nat) (tp : Bool) : (s.pairFaultSet p tp).safPair q =
    if q = p then { s.safPair p with discFault := (s.safPair p).discFault || !tp, tpFault := (s.safPair p).tpFault || tp } else s.safPair q := by
  rw [State.pairFaultSet, State.safPair_latch, State.safPair_updSafPair]

theorem State.rb_pairFaultSet (s : State) (p : Nat) (tp : Bool) : (s.pairFaultSet p tp).rb R.SAF_CAUSE 1 = true :=
  State.rb_latch _ _ _ (by decide)

theorem State.pairFaultSet_regsBut (s : State) (p : Nat) (tp : Bool) : RegsBut [R.SAF_CAUSE] s (s.pairFaultSet p tp) :=
  RegsBut.trans (t := s.updSafPair p _) (.of_regs rfl) (State.latch_regsBut _ _ _)

theorem exec_pairDiscFault {p : Nat} {s : State} (hp : p < 16) (hdiff : s.pairA p ≠ s.pairB p)
    (hlong : 10000 * s.rf (R.SAF_PAIR_CFG p) 7 0 ≤ (s.safPair p).disc) (hnew : (s.safPair p).discFault = false) :
    exec (.pairDiscFault p) s = .next (s.pairFaultSet p false) := if_pos ⟨hp, hdiff, hlong, hnew⟩

/-- The channels of test-pulse source k that are high in its pulse (R340). -/
def State.tpFailed (s : State) (k : Nat) : List Nat :=
  (List.range 32).filter (fun c => s.chanSource c = k && (s.chan c).val && s.chanRaw c)

theorem State.mem_tpFailed (s : State) (k c : Nat) :
    c ∈ s.tpFailed k ↔ c < 32 ∧ s.chanSource c = k ∧ (s.chan c).val = true ∧ s.chanRaw c = true := by
  simp [State.tpFailed, and_assoc]

theorem exec_testPulse {k : Nat} {s : State} (hrun : s.saf.running = true) (hk : k < 4) (hphase : s.tpPhase k = some (s.tpWidth - 20)) :
    exec (.testPulse k) s = .next ((s.tpFailed k).foldl (fun s c => s.pairFaultSet (c % 16) true) s) := if_pos ⟨hrun, hk, hphase⟩

/-- What one step of a fold sets and every step keeps holds after it. -/
theorem foldl_sets {A : Type} {f : State → A → State} {P : State → Prop} {l : List A} {a : A} (ha : a ∈ l) (hset : ∀ y, P (f y a))
    (hkeep : ∀ y b, P y → P (f y b)) (s : State) : P (l.foldl f s) := by
  obtain ⟨l1, l2, rfl⟩ := List.append_of_mem ha
  rw [List.foldl_append, List.foldl_cons]
  exact List.foldlRecOn l2 f (hset _) fun y hy b _ => hkeep y b hy

/-- The pair of a channel that has failed its test pulse holds TP_FAULT, with SAF_CAUSE.PAIR (R340). -/
theorem State.tpFailed_latched (s : State) {k c : Nat} (hc : c ∈ s.tpFailed k) :
    let t := (s.tpFailed k).foldl (fun s c => s.pairFaultSet (c % 16) true) s
    (t.safPair (c % 16)).tpFault = true ∧ t.rb R.SAF_CAUSE 1 = true := by
  refine foldl_sets (P := fun t => (t.safPair (c % 16)).tpFault = true ∧ t.rb R.SAF_CAUSE 1 = true) hc (fun y => ?_) (fun y b hy => ?_) s
  all_goals refine ⟨?_, y.rb_pairFaultSet _ _⟩
  · simp [State.safPair_pairFaultSet]
  · rw [State.safPair_pairFaultSet]
    split
    · simp
    · exact hy.1

/-! Outputs. -/

theorem exec_offPulse {o : Nat} {s : State} (ho : o < 8) (hhigh : s.soutHigh o = true) (hen : s.rb (R.SAF_OUT_CFG o) 27 = true)
    (hdue : (s.safOut o).at_ + 1000 * max 1 (s.rf R.SAF_OP_CFG 31 24) ≤ s.saf.us) :
    exec (.offPulse o) s = .next (s.updSafOut o (fun u => { u with pulse := true, at_ := s.saf.us })) := if_pos ⟨ho, hhigh, hen, hdue⟩

/-- An output in its off-pulse is low (R348). -/
theorem State.soutHigh_of_pulse {s : State} {o : Nat} (h : (s.safOut o).pulse = true) : s.soutHigh o = false := by
  simp [State.soutHigh, h]

theorem exec_readbackCheck {o : Nat} {s : State} (ho : o < 8) (hrun : s.saf.running = true) (hwrong : 0 < (s.safOut o).wrong)
    (hlong : 10 * s.rf R.SAF_OP_CFG 23 16 ≤ (s.safOut o).wrong) : exec (.readbackCheck o) s = .next (if s.soutHigh o then
      (s.updSafOut o (fun u => { u with fault := true, wrong := 0 })).latch R.SAF_CAUSE 2 else s.updSafOut o (fun u => { u with stuck := true })) := by
  refine (if_pos ⟨ho, hrun, hwrong, hlong⟩ : execReadbackCheck o s = _).trans ?_
  split <;> rfl

/-- Settles O34: a sample steps each channel's own filter, and each check changes its pair or its output. -/
theorem safetyInputs : Obligations.SafetyInputs := by
  refine ⟨fun raw srb srst s hrun => ?sample, fun p s hp hdiff hlong hnew => ?disc, fun k s hrun hk hphase => ?pulse,
    fun o s ho hhigh hen hdue => ?off, fun o s ho hrun hwrong hlong => ?readback⟩
  case sample =>
    have hview := (s.sampleTaken raw srb).inputView_safSampled srst (c := 0) (by decide)
    refine ⟨_, exec_safetySample raw srb srst hrun, congrArg InputView.us hview, congrArg InputView.raw hview, congrArg InputView.srb hview,
      fun c hc hsrc hsame => ?_, fun c hc hsrc hdiff => ?_, by simp [State.safSampled, State.sampleTaken]⟩
    · rw [State.chan_safSampled s raw srb srst hc hsrc, State.chanFiltered, if_pos hsame]
    · rw [State.chan_safSampled s raw srb srst hc hsrc, State.chanFiltered, if_neg hdiff]
  case disc =>
    refine ⟨_, exec_pairDiscFault hp hdiff hlong hnew, ?_, fun q hq => ?_, s.rb_pairFaultSet p false, s.pairFaultSet_regsBut p false, by simp⟩
    · simp [State.safPair_pairFaultSet]
    · rw [State.safPair_pairFaultSet, if_neg hq]
  case pulse =>
    refine ⟨_, exec_testPulse hrun hk hphase, fun c hc hsrc hval hraw => ?_, fun hnone => ?_,
      .foldl (fun y c _ => y.pairFaultSet_regsBut _ _) s, by simp⟩
    · exact s.tpFailed_latched ((s.mem_tpFailed k c).mpr ⟨hc, hsrc, hval, hraw⟩)
    · have hempty : s.tpFailed k = [] := List.eq_nil_iff_forall_not_mem.mpr fun c hc => by
        obtain ⟨hc, hsrc, hval, hraw⟩ := (s.mem_tpFailed k c).mp hc
        exact absurd hraw (by rw [hnone c hc hsrc hval]; exact Bool.false_ne_true)
      rw [hempty]
      rfl
  case off =>
    refine ⟨_, exec_offPulse ho hhigh hen hdue, by simp, State.soutHigh_of_pulse (by simp), fun q hq => by simp [hq], by simp⟩
  case readback =>
    refine ⟨_, exec_readbackCheck ho hrun hwrong hlong, ?_⟩
    cases hhigh : s.soutHigh o with
    | true =>
      rw [if_pos rfl]
      exact ⟨fun q hq => by simp [hq], fun _ => ⟨by simp, State.rb_latch _ _ _ (by decide)⟩, nofun,
        RegsBut.trans (t := s.updSafOut o _) (.of_regs rfl) (State.latch_regsBut _ _ _), by simp⟩
    | false =>
      rw [if_neg Bool.false_ne_true]
      exact ⟨fun q hq => by simp [hq], nofun, fun _ => ⟨by simp, rfl⟩, .of_regs rfl, by simp⟩

end Sys2Proof.Machine
end

section
/-! PROOFS. Safety logic (O35): the parts of a cycle, and a reset request decided. -/

namespace Sys2Proof.Machine

/-! The parts of a cycle. -/

/-- What the inputs of a cycle leave alone but for the candidates: the reset request, SAFE_LOCK and the cycles of disagreement. -/
def State.lockView (s : State) : List (Nat × List Byte) × Bool × Bool × Nat := (s.saf.cands, s.saf.request, s.saf.lock, s.saf.disagree)

theorem State.lockView_congr {s t : State} (h : t.saf = s.saf) : t.lockView = s.lockView := by rw [State.lockView, h, State.lockView]

theorem State.lockView_tgCount (s : State) (k : Nat) : (s.tgCount k).lockView = s.lockView := State.lockView_congr (keep_saf (by simp))

theorem State.lockView_latch (s : State) (r b : Nat) : (s.latch r b).lockView = s.lockView := State.lockView_congr (keep_saf (by simp))

theorem State.lockView_telegram (s : State) (p : List Byte) : (s.telegram p).lockView = s.lockView := by
  unfold State.telegram
  extract_lets f seq d u g v echo f' w x f''
  have hv : v.lockView = s.lockView := by
    unfold v
    split <;> rfl
  have hx : x.lockView = s.lockView := (State.lockView_tgCount w 0).trans hv
  repeat' split
  exacts [s.lockView_tgCount 6, s.lockView_tgCount 2, s.lockView_tgCount 3, s.lockView_tgCount 4, s.lockView_tgCount 1, s.lockView_tgCount 4,
    (v.lockView_tgCount 5).trans hv, (State.lockView_latch _ _ _).trans hx, hx]

theorem State.lockView_tgCycle (s : State) : s.tgCycle.lockView = ([], s.saf.request, s.saf.lock, s.saf.disagree) := by
  unfold State.tgCycle
  extract_lets cands f u f' v order
  have hv : v.lockView = ([], s.saf.request, s.saf.lock, s.saf.disagree) := by
    unfold v
    split <;> rfl
  split
  · rfl
  · exact (view_foldl_eq (view := State.lockView) v fun y x _ => y.lockView_telegram x.2).trans hv

theorem State.lockView_safStates (s : State) : s.safStates.lockView = s.lockView := rfl

theorem State.lockView_pairCycles (s : State) : ((List.range 16).foldl State.pairCycle s).lockView = s.lockView :=
  view_foldl_eq (view := State.lockView) s fun _ _ _ => rfl

/-- The candidates of a cycle, its pair values and its states (R339, R343, R361). -/
def State.cycleStates (s : State) : State := ((List.range 16).foldl State.pairCycle s.tgCycle).safStates

/-- And its count of disagreement with the other half (R344). -/
def State.cycleInputs (s : State) (diff : Nat) : State :=
  { s.cycleStates with saf := { s.cycleStates.saf with disagree := if diff = 0 then 0 else s.cycleStates.saf.disagree + 1 } }

theorem State.lockView_disagree {u : State} {cands : List (Nat × List Byte)} {req lock : Bool} {d : Nat} (n : Nat)
    (h : u.lockView = (cands, req, lock, d)) :
    State.lockView { u with saf := { u.saf with disagree := n } } = (cands, req, lock, n) := by
  rw [State.lockView, Prod.mk.injEq, Prod.mk.injEq, Prod.mk.injEq] at h
  obtain ⟨hcands, hreq, hlock, -⟩ := h
  simp only [State.lockView, hcands, hreq, hlock]

theorem State.cycleStates_lockView (s : State) : s.cycleStates.lockView = ([], s.saf.request, s.saf.lock, s.saf.disagree) := by
  rw [State.cycleStates, State.lockView_safStates, State.lockView_pairCycles, State.lockView_tgCycle]

theorem State.cycleInputs_lockView (s : State) (diff : Nat) :
    (s.cycleInputs diff).lockView = ([], s.saf.request, s.saf.lock, if diff = 0 then 0 else s.saf.disagree + 1) := by
  have hdis : s.cycleStates.saf.disagree = s.saf.disagree := congrArg (·.2.2.2) s.cycleStates_lockView
  rw [State.cycleInputs, State.lockView_disagree _ s.cycleStates_lockView, hdis]

/-- The cycle's demand causes with those of the other half (R344, R346). -/
def State.cycleCauses (s : State) (diff : Nat) : Nat := s.safCauses ||| bits diff 23 16

/-- The SAFE_LOCK and the permit of a cycle (R345, R346). -/
def State.cycleLock (s : State) (diff ns : Nat) : State := s.safLock (s.cycleCauses diff) ns

def State.cyclePermit (s : State) (diff : Nat) : State := s.setPermit (s.safPermit && !bit diff 8)

/-- The outputs of a cycle (R347). -/
def State.cycleOutputs (s : State) (diff : Nat) : State :=
  (List.range 8).foldl (fun s o => s.setOutCmd o (s.outCond o && s.saf.cfgValid && !bit diff o)) s

/-- The end of a cycle: DATA to be sent, and a request that the cycle has seen (R358, R366). -/
def State.cycleEnd (s : State) : State := { s with saf := { s.saf with data := s.safData, requestSeen := s.saf.request } }

theorem State.safOut_cycleEnd (s : State) (o : Nat) : s.cycleEnd.safOut o = s.safOut o := rfl

/-- Three cycles of disagreement are a demand cause (R344). -/
theorem State.safCauses_disagree {s : State} (h : 3 ≤ s.saf.disagree) : s.safCauses ≠ 0 := by
  simp only [State.safCauses, ofBits, h, decide_true, b2n]
  simp

/-- In a cycle with causes SAFE_LOCK is set, and nothing else of the Safety Core changes but its causes (R345). -/
theorem State.safLock_saf (s : State) (c ns : Nat) :
    (s.safLock c ns).saf = { s.saf with causes := c, lossNow := false, lock := s.saf.lock || decide (c ≠ 0) } := by
  unfold State.safLock
  extract_lets old f u v g w x
  split
  · next hc => simp [u, f, hc]
  · next hc =>
    have hv : v.saf = u.saf := keep_saf (by simp [v])
    split
    · next hlock =>
      have hfold := view_foldl_eq (view := State.saf) (l := bitList 8 c) v (f := fun s b => if bit old b then s else s.binLog 0x94 [2 ^ b])
        fun y b _ => (by split; rfl; exact keep_saf (by simp))
      rw [hfold, hv]
      have hl : s.saf.lock = true := hlock
      simp [u, f, hl]
    · rw [keep_saf (s := w) (t := State.blockFire _ _ _) (by simp [x])]
      change { v.saf with lock := true } = _
      rw [hv]
      simp [u, f, hc]

/-- SAFE_LOCK that a cycle sets fires the block logic, with its cause (R345). -/
theorem State.safLock_sets {s : State} {c : Nat} (ns : Nat) (hlock : s.saf.lock = false) (hc : c ≠ 0) :
    (s.safLock c ns).lnk.blocks = s.lnk.blocks + 1 ∧ (s.safLock c ns).rb R.SAF_CAUSE 0 = true ∧ (s.safLock c ns).prt.firedNow = true := by
  unfold State.safLock
  extract_lets old f u v g w x
  rw [if_neg hc, if_neg (show ¬ v.saf.lock = true by simp [v, u, f, hlock])]
  refine ⟨?_, ?_, State.blockFire_firedNow _ _ _⟩
  · have hw : w.lnk = s.lnk := keep_lnk (s := u) (t := v) (by simp [v])
    rw [State.blockFire_blocks, keep_lnk (s := w) (by simp [x]), hw]
  · rw [(State.blockFire_regsBut _ _ _).rb (by decide), (State.binLog_regsBut _ _ _).rb (by decide)]
    exact State.rb_latch _ _ _ (by decide)

theorem State.setPermit_saf (s : State) (p : Bool) : (s.setPermit p).saf = { s.saf with permit := p } := by
  unfold State.setPermit
  extract_lets fell f u
  split
  · exact keep_saf (s := u) (by simp)
  · rfl

theorem State.rb_setPermit_keeps {s : State} {b : Nat} (p : Bool) (h : s.rb R.SAF_CAUSE b = true) :
    (s.setPermit p).rb R.SAF_CAUSE b = true := by
  unfold State.setPermit
  extract_lets fell f u
  split
  · rw [(State.binLog_regsBut _ _ _).rb (by decide)]
    exact State.rb_latch_keeps u _ _ _ _ (by decide) h
  · exact h

/-- A command of an output changes that output and nothing else. -/
theorem State.setOutCmd_saf (s : State) (o : Nat) (c : Bool) : ∃ m, s.setOutCmd o c = { s with saf := { s.saf with outs := m } } := ⟨_, rfl⟩

theorem State.cycleOutputs_eq (s : State) (diff : Nat) : ∃ m, s.cycleOutputs diff = { s with saf := { s.saf with outs := m } } := by
  refine List.foldlRecOn (motive := fun t : State => ∃ m, t = { s with saf := { s.saf with outs := m } }) _ _ ⟨s.saf.outs, rfl⟩ ?_
  rintro _ ⟨m, rfl⟩ o -
  exact ⟨_, rfl⟩

theorem State.safOut_setOutCmd (s : State) (o q : Nat) (c : Bool) : ((s.setOutCmd o c).safOut q).cmd = if q = o then c else (s.safOut q).cmd := by
  rw [State.setOutCmd, State.safOut_updSafOut]
  split <;> rfl

/-- A command that a cycle gives needs a valid set and both halves (R347, R356). -/
theorem State.cycleOutputs_cmd {s : State} {diff o : Nat} (ho : o < 8) (h : ((s.cycleOutputs diff).safOut o).cmd = true) :
    s.saf.cfgValid = true ∧ bit diff o = false := by
  obtain ⟨u, hu, hfold⟩ := view_foldl_range (view := fun y : State => (y.saf.cfgValid, (y.safOut o).cmd)) ho s
    (f := fun s o => s.setOutCmd o (s.outCond o && s.saf.cfgValid && !bit diff o))
    fun y a ha => Prod.ext rfl ((y.safOut_setOutCmd a o _).trans (if_neg ha.symm))
  have hcmd := (congrArg Prod.snd hfold).symm.trans h
  have hcfg := congrArg Prod.fst hu
  rw [State.safOut_setOutCmd, if_pos rfl] at hcmd
  dsimp only at hcfg
  rw [hcfg] at hcmd
  simp only [Bool.and_eq_true, Bool.not_eq_true'] at hcmd
  exact ⟨hcmd.1.2, hcmd.2⟩

/-- A cycle from its permit on. -/
def State.cycleTail (s : State) (diff : Nat) : State := ((s.cyclePermit diff).cycleOutputs diff).cycleEnd

theorem exec_safetyCycle (d ns : Nat) {s : State} (hrun : s.saf.running = true) :
    exec (.safetyCycle d ns) s = .next (((s.cycleInputs d).cycleLock d ns).cycleTail d) := if_neg (by simp [hrun])

theorem State.cycleTail_saf (s : State) (diff : Nat) : ∃ outs data, (s.cycleTail diff).saf =
    { s.saf with permit := s.safPermit && !bit diff 8, outs := outs, data := data, requestSeen := s.saf.request } := by
  obtain ⟨m, hm⟩ := (s.cyclePermit diff).cycleOutputs_eq diff
  rw [State.cycleTail, State.cycleEnd, hm]
  dsimp only
  rw [State.cyclePermit, State.setPermit_saf]
  exact ⟨_, _, rfl⟩

/-- The permit, the outputs and the end of a cycle leave the lanes, the protections and the causes that are set. -/
theorem State.cycleTail_keeps (s : State) (diff : Nat) : (s.cycleTail diff).lnk = s.lnk ∧ (s.cycleTail diff).prt = s.prt ∧
    ∀ b, s.rb R.SAF_CAUSE b = true → (s.cycleTail diff).rb R.SAF_CAUSE b = true := by
  obtain ⟨m, hm⟩ := (s.cyclePermit diff).cycleOutputs_eq diff
  rw [State.cycleTail, State.cycleEnd, hm]
  exact ⟨keep_lnk (s := s) (t := s.cyclePermit diff) (by simp [State.cyclePermit]),
    keep_prt (s := s) (t := s.cyclePermit diff) (by simp [State.cyclePermit]), fun b hb => State.rb_setPermit_keeps _ hb⟩

/-- A permit that its conditions give (R346). -/
theorem State.safPermit_needs {s : State} (h : s.safPermit = true) : s.saf.lock = false ∧ s.saf.restartWait = false ∧ s.saf.cfgValid = true ∧
    s.saf.estopOk = true ∧ s.saf.hallClosed = true ∧ s.saf.earthOpen = true ∧ s.saf.keyOn = true := by
  simp only [State.safPermit, Bool.and_eq_true, Bool.not_eq_true'] at h
  tauto

/-! A reset request decided. -/

/-- The faults that an accepted reset releases (R351). -/
def State.faultsReleased (s : State) : State :=
  (List.range 8).foldl (fun s o => if (s.safOut o).fault && !bit s.saf.srb o then s.updSafOut o (fun u => { u with fault := false }) else s)
    ((List.range 16).foldl (fun s p => if s.pairFault p && s.pairA p == s.pairB p then
      s.updSafPair p (fun u => { u with discFault := false, tpFault := false, restart := true }) else s) s)

/-- What the release of faults leaves alone, of what a reset decides. -/
def State.resetView (s : State) : RegSt × Bool × Bool × Bool × List Confirm × Bool :=
  (s.regs, s.saf.request, s.saf.lock, s.saf.restartWait, s.saf.confirm, s.saf.running)

theorem State.faultsReleased_resetView (s : State) : s.faultsReleased.resetView = s.resetView :=
  (view_foldl_eq (view := State.resetView) _ fun _ _ _ => by split <;> rfl).trans
    (view_foldl_eq (view := State.resetView) _ fun _ _ _ => by split <;> rfl)

/-- The state in which a reset is decided: the request is taken, with its cause (R350). -/
def State.requestTaken (s : State) : State :=
  ({ s with saf := { s.saf with request := false, requestSeen := false } } : State).latch R.SAF_CAUSE 3

/-- SAFE_LOCK and the restart check released (R351). -/
def State.lockReleased (s : State) : State := { s with saf := { s.saf with lock := false, restartWait := false } }

/-- The registers stay as the faults are released. -/
theorem State.released_regs (s : State) : s.lockReleased.faultsReleased.regs = s.regs := by
  have hview := s.lockReleased.faultsReleased_resetView
  rw [State.resetView, State.resetView, Prod.mk.injEq] at hview
  exact hview.1

/-- The shown outcome of a reset request (R351). -/
def State.resetShown (s : State) (n : Nat) : State := s.setRf R.SAF_RESET_STAT 2 0 n

theorem State.resetDecide_invalid {s : State} (h : s.saf.cfgValid = false) :
    s.resetDecide = (s.requestTaken.resetShown 3).binLog 0x96 [s.saf.causes] := if_pos h

theorem State.resetDecide_refused {s : State} (h : s.saf.cfgValid = true) (hc : s.saf.causes ≠ 0) :
    s.resetDecide = (s.requestTaken.resetShown 2).binLog 0x96 [s.saf.causes] :=
  (if_neg (by simp [h])).trans (if_pos hc)

theorem State.resetDecide_accepted {s : State} (h : s.saf.cfgValid = true) (hc : s.saf.causes = 0) :
    s.resetDecide = ((s.requestTaken.lockReleased.faultsReleased.count R.SAF_RESET_STAT 31 16).resetShown 1).binLog 0x95 [0] :=
  (if_neg (by simp [h])).trans (if_neg (by simpa using hc))

theorem State.requestTaken_saf (s : State) : s.requestTaken.saf = { s.saf with request := false, requestSeen := false } := rfl

theorem State.requestTaken_regsBut (s : State) : RegsBut [R.SAF_CAUSE] s s.requestTaken :=
  RegsBut.trans (t := { s with saf := { s.saf with request := false, requestSeen := false } }) (.of_regs rfl) (State.latch_regsBut _ _ _)

theorem State.rb_requestTaken (s : State) : s.requestTaken.rb R.SAF_CAUSE 3 = true := State.rb_latch _ _ _ (by decide)

/-- The registers that the Bin record of a reset leaves alone. -/
theorem State.rf_binLog_resetStat (s : State) (cause : Nat) (payload : List Nat) (hi lo : Nat) :
    (s.binLog cause payload).rf R.SAF_RESET_STAT hi lo = s.rf R.SAF_RESET_STAT hi lo := by
  rw [State.rf, State.binLog_regsBut _ _ _ _ (by decide), ← State.rf]

theorem State.rf_resetShown (s : State) {n : Nat} (hn : n < 8) (cause : Nat) (payload : List Nat) :
    ((s.resetShown n).binLog cause payload).rf R.SAF_RESET_STAT 2 0 = n := by
  rw [State.rf_binLog_resetStat, State.resetShown, State.rf_setRf _ _ _ _ _ (by decide)]
  exact Nat.mod_eq_of_lt hn

theorem State.resetShown_binLog_regsBut (s : State) (n cause : Nat) (payload : List Nat) :
    RegsBut [R.SAF_RESET_STAT, R.TRK_CAUSE, R.TRK_QUEUE, R.TRK_SUPPRESSED] s ((s.resetShown n).binLog cause payload) :=
  ((s.setRf_regsBut _ _ _ _).mono (by simp)).trans ((State.binLog_regsBut _ _ _).mono (by decide))

theorem State.resetDecide_regsBut (s : State) :
    RegsBut [R.SAF_CAUSE, R.SAF_RESET_STAT, R.TRK_CAUSE, R.TRK_QUEUE, R.TRK_SUPPRESSED] s s.resetDecide := by
  have htaken := s.requestTaken_regsBut.mono (ls := [R.SAF_CAUSE, R.SAF_RESET_STAT, R.TRK_CAUSE, R.TRK_QUEUE, R.TRK_SUPPRESSED]) (by simp)
  have hshown (t : State) (n cause : Nat) (payload : List Nat) := (t.resetShown_binLog_regsBut n cause payload).mono
    (ls := [R.SAF_CAUSE, R.SAF_RESET_STAT, R.TRK_CAUSE, R.TRK_QUEUE, R.TRK_SUPPRESSED]) (by decide)
  cases hcfg : s.saf.cfgValid with
  | false => rw [State.resetDecide_invalid hcfg]; exact htaken.trans (hshown _ _ _ _)
  | true =>
    by_cases hc : s.saf.causes = 0
    · rw [State.resetDecide_accepted hcfg hc]
      have hfaults : RegsBut [R.SAF_CAUSE, R.SAF_RESET_STAT, R.TRK_CAUSE, R.TRK_QUEUE, R.TRK_SUPPRESSED] s.requestTaken s.requestTaken.lockReleased.faultsReleased :=
        .of_regs s.requestTaken.released_regs
      exact htaken.trans (hfaults.trans (((State.count_regsBut _ _ _ _).mono (by decide)).trans (hshown _ _ _ _)))
    · rw [State.resetDecide_refused hcfg hc]; exact htaken.trans (hshown _ _ _ _)

theorem State.rb_resetDecide (s : State) : s.resetDecide.rb R.SAF_CAUSE 3 = true := by
  have hshown (t : State) (n cause : Nat) (payload : List Nat) (h : t.rb R.SAF_CAUSE 3 = true) :
      ((t.resetShown n).binLog cause payload).rb R.SAF_CAUSE 3 = true :=
    ((t.resetShown_binLog_regsBut n cause payload).rb (by decide) 3).trans h
  cases hcfg : s.saf.cfgValid with
  | false => rw [State.resetDecide_invalid hcfg]; exact hshown _ _ _ _ s.rb_requestTaken
  | true =>
    by_cases hc : s.saf.causes = 0
    · rw [State.resetDecide_accepted hcfg hc]
      refine hshown _ _ _ _ ?_
      rw [(State.count_regsBut _ _ _ _).rb (by decide), State.rb,
        State.reg_congr s.requestTaken.released_regs]
      exact s.rb_requestTaken
    · rw [State.resetDecide_refused hcfg hc]; exact hshown _ _ _ _ s.rb_requestTaken

/-- A refused request is taken, and nothing else of the Safety Core changes. -/
theorem State.resetShown_saf (s : State) (n cause : Nat) (payload : List Nat) : ((s.resetShown n).binLog cause payload).saf = s.saf :=
  keep_saf (by simp [State.resetShown])

/-- An accepted reset releases SAFE_LOCK and the restart check (R351). -/
theorem State.resetDecide_accepted_spec {s : State} (h : s.saf.cfgValid = true) (hc : s.saf.causes = 0) :
    s.resetDecide.saf.request = false ∧ s.resetDecide.saf.lock = false ∧ s.resetDecide.saf.restartWait = false ∧
      s.resetDecide.saf.confirm = s.saf.confirm ∧ s.resetDecide.saf.running = s.saf.running ∧
      s.resetDecide.rf R.SAF_RESET_STAT 2 0 = 1 ∧
      s.resetDecide.rf R.SAF_RESET_STAT 31 16 = incSat 65535 (s.rf R.SAF_RESET_STAT 31 16) := by
  have hview := s.requestTaken.lockReleased.faultsReleased_resetView
  simp only [State.resetView, Prod.mk.injEq] at hview
  obtain ⟨hregs, hreq, hlock, hwait, hconf, hrunning⟩ := hview
  rw [State.resetDecide_accepted h hc, State.resetShown_saf, State.count_saf]
  refine ⟨hreq, hlock, hwait, hconf, hrunning, State.rf_resetShown _ (by decide) _ _, ?_⟩
  rw [State.rf_binLog_resetStat, State.resetShown, State.rf_setRf_ne _ _ (by decide) (.inr (.inl (by decide))), State.rf_count _ _ _ _ (by decide)]
  have hreg : s.requestTaken.lockReleased.faultsReleased.reg R.SAF_RESET_STAT = s.reg R.SAF_RESET_STAT :=
    (State.reg_congr hregs _).trans (s.requestTaken_regsBut _ (by decide))
  rw [State.rf, hreg]
  rfl

theorem exec_safetyResetRequest {s : State} (hreq : s.saf.request = true) (hseen : s.saf.requestSeen = true) :
    exec .safetyResetRequest s = .next s.resetDecide := if_neg (by simp [hreq, hseen])

/-- A request that is decided no longer waits, and the confirmations stay (R354, R366). -/
theorem State.resetDecide_saf (s : State) :
    s.resetDecide.saf.request = false ∧ s.resetDecide.saf.confirm = s.saf.confirm ∧ s.resetDecide.saf.running = s.saf.running := by
  cases hcfg : s.saf.cfgValid with
  | false => rw [State.resetDecide_invalid hcfg, State.resetShown_saf]; exact ⟨rfl, rfl, rfl⟩
  | true =>
    by_cases hc : s.saf.causes = 0
    · obtain ⟨hreq, -, -, hconf, hrunning, -⟩ := State.resetDecide_accepted_spec hcfg hc
      exact ⟨hreq, hconf, hrunning⟩
    · rw [State.resetDecide_refused hcfg hc, State.resetShown_saf]; exact ⟨rfl, rfl, rfl⟩

theorem State.cycleInputs_frame (s : State) (diff : Nat) : Frame [.regs, .saf] s (s.cycleInputs diff) := by
  simp [State.cycleInputs, State.cycleStates]

theorem State.cycleTail_frame (s : State) (diff : Nat) : Frame [.regs, .saf, .trk] s (s.cycleTail diff) := by
  simp [State.cycleTail, State.cycleEnd, State.cycleOutputs, State.cyclePermit]

/-- What a cycle leaves alone outside the Safety Core: all but the block logic that it may fire (R345). -/
theorem State.cycle_frame (s : State) (d ns : Nat) :
    Frame [.regs, .lnk, .prt, .saf, .trk, .dbg] s (((s.cycleInputs d).cycleLock d ns).cycleTail d) := by
  have hlock : Frame [.regs, .lnk, .prt, .saf, .trk, .dbg] (s.cycleInputs d) ((s.cycleInputs d).cycleLock d ns) := by
    simp [State.cycleLock]
  exact (((s.cycleInputs_frame d).mono (by decide)).trans hlock).trans ((State.cycleTail_frame _ d).mono (by decide))

/-- SAFE_LOCK after the inputs of a cycle and its causes (R345). -/
theorem State.cycleLock_lock (s : State) (d ns : Nat) :
    ((s.cycleInputs d).cycleLock d ns).saf.lock = (s.saf.lock || decide ((s.cycleInputs d).cycleCauses d ≠ 0)) := by
  have hlock : (s.cycleInputs d).saf.lock = s.saf.lock := congrArg (·.2.2.1) (s.cycleInputs_lockView d)
  rw [State.cycleLock, State.safLock_saf, ← hlock]

/-- The candidates and the reset request after the inputs of a cycle and its causes. -/
theorem State.cycleLock_cands_request (s : State) (d ns : Nat) : ((s.cycleInputs d).cycleLock d ns).saf.cands = [] ∧
    ((s.cycleInputs d).cycleLock d ns).saf.request = s.saf.request := by
  rw [State.cycleLock, State.safLock_saf]
  exact ⟨congrArg (·.1) (s.cycleInputs_lockView d), congrArg (·.2.1) (s.cycleInputs_lockView d)⟩

/-- A third cycle of disagreement is a cause (R344). -/
theorem State.cycleCauses_disagree {s : State} {d : Nat} (htwo : 2 ≤ s.saf.disagree) (hd : d ≠ 0) : (s.cycleInputs d).cycleCauses d ≠ 0 := by
  have hdis : (s.cycleInputs d).saf.disagree = if d = 0 then 0 else s.saf.disagree + 1 := congrArg (·.2.2.2) (s.cycleInputs_lockView d)
  have hcauses : (s.cycleInputs d).safCauses ≠ 0 := State.safCauses_disagree (by rw [hdis, if_neg hd]; omega)
  exact fun h => hcauses (Nat.or_eq_zero_iff.mp h).1

/-- SAFE_LOCK that a cycle sets shows at its end in the block logic and in its cause (R345). -/
theorem State.cycle_blocks {s : State} {d : Nat} (ns : Nat) (hold : s.saf.lock = false) (hc : (s.cycleInputs d).cycleCauses d ≠ 0) :
    let t := ((s.cycleInputs d).cycleLock d ns).cycleTail d
    t.lnk.blocks = s.lnk.blocks + 1 ∧ t.rb R.SAF_CAUSE 0 = true ∧ t.prt.firedNow = true := by
  have hlock : (s.cycleInputs d).saf.lock = false := (congrArg (·.2.2.1) (s.cycleInputs_lockView d)).trans hold
  obtain ⟨hblocks, hcause, hfired⟩ := State.safLock_sets ns hlock hc
  obtain ⟨hl, hp, hkeep⟩ := ((s.cycleInputs d).cycleLock d ns).cycleTail_keeps d
  rw [keep_lnk ((s.cycleInputs_frame d).mono (by decide))] at hblocks
  exact ⟨(congrArg (·.blocks) hl).trans hblocks, hkeep 0 hcause, (congrArg (·.firedNow) hp).trans hfired⟩

/-- A command at the end of a cycle needs a valid set and both halves (R347, R356). -/
theorem State.cycleTail_cmd {s : State} {d o : Nat} (ho : o < 8) (h : ((s.cycleTail d).safOut o).cmd = true) :
    s.saf.cfgValid = true ∧ bit d o = false := by
  rw [State.cycleTail, State.safOut_cycleEnd] at h
  obtain ⟨hcfg, hbit⟩ := State.cycleOutputs_cmd ho h
  rw [State.cyclePermit, State.setPermit_saf] at hcfg
  exact ⟨hcfg, hbit⟩

/-- Settles O35: a cycle is its inputs, SAFE_LOCK, the permit and the outputs, and a request is decided by the set and the causes. -/
theorem safetyLogic : Obligations.SafetyLogic := by
  refine ⟨fun d ns s hrun => ?cycle, fun s hdead hheld => ⟨_, if_pos ⟨hdead, hheld⟩, rfl, by simp⟩,
    fun s hreq hseen => if_pos (.inr hseen), fun s hreq hseen => ?reset, fun s hsrst hlong => ⟨_, if_pos ⟨hsrst, hlong⟩, rfl, by simp⟩⟩
  case cycle =>
    refine ⟨_, exec_safetyCycle d ns hrun, ?_⟩
    obtain ⟨hcands, hreq⟩ := s.cycleLock_cands_request d ns
    have hlock := s.cycleLock_lock d ns
    have hframe := s.cycle_frame d ns
    have hblocks := State.cycle_blocks (s := s) (d := d) ns
    have hcauses := State.cycleCauses_disagree (s := s) (d := d)
    revert hcands hreq hlock hframe hblocks
    generalize (s.cycleInputs d).cycleLock d ns = u
    intro hcands hreq hlock hframe hblocks
    have hcmd (o : Nat) (ho : o < 8) (h : ((u.cycleTail d).safOut o).cmd = true) := State.cycleTail_cmd ho h
    obtain ⟨outs, data, hsaf⟩ := u.cycleTail_saf d
    rw [hsaf]
    refine ⟨hcands, hreq, hreq, fun hpermit => ?_, fun h => by rw [hlock, h, Bool.true_or],
      fun htwo hd => by rw [hlock, decide_eq_true (hcauses htwo hd), Bool.or_true], fun hold hnew => ?_, hcmd, hframe⟩
    · simp only [Bool.and_eq_true, Bool.not_eq_true'] at hpermit
      obtain ⟨hlock, hwait, hcfg, hestop, hhall, hearth, hkey⟩ := State.safPermit_needs hpermit.1
      exact ⟨hlock, hwait, hcfg, hestop, hhall, hearth, hkey, hpermit.2⟩
    · rw [hlock, hold, Bool.false_or, decide_eq_true_iff] at hnew
      exact hblocks hold hnew
  case reset =>
    refine ⟨_, exec_safetyResetRequest hreq hseen, s.resetDecide_saf.1, s.rb_resetDecide, fun hcfg hc => ?_, fun hcfg hc => ?_, fun hcfg => ?_,
      s.resetDecide_regsBut, by simp⟩
    · obtain ⟨-, hlock, hwait, -, -, hstat, hcount⟩ := State.resetDecide_accepted_spec hcfg hc
      exact ⟨hlock, hwait, hstat, hcount⟩
    · rw [State.resetDecide_refused hcfg hc]
      exact ⟨State.resetShown_saf _ _ _ _, State.rf_resetShown _ (by decide) _ _⟩
    · rw [State.resetDecide_invalid hcfg]
      exact ⟨State.resetShown_saf _ _ _ _, State.rf_resetShown _ (by decide) _ _⟩

end Sys2Proof.Machine
end

section
/-! PROOFS. Safety sets (O36): the words of a set put in their registers, the outcomes of a GO and a DISCARD, and a set that comes into force. -/

namespace Sys2Proof.Machine

/-! The words of a set. -/

/-- Words put at different registers, one after another, change those registers alone, and each reads its word. -/
theorem State.reg_foldl_setReg (key : Nat → Nat) {l : List (Nat × Word)} (hnodup : (l.map fun x => key x.1).Nodup) (s : State) :
    RegsBut (l.map fun x => key x.1) s (l.foldl (fun s x => s.setReg (key x.1) x.2) s) ∧
      ∀ x ∈ l, (l.foldl (fun s x => s.setReg (key x.1) x.2) s).reg (key x.1) = x.2 := by
  induction l generalizing s with
  | nil => exact ⟨.refl _ s, nofun⟩
  | cons a l ih =>
    rw [List.map_cons, List.nodup_cons] at hnodup
    obtain ⟨hbut, hreads⟩ := ih hnodup.2 (s.setReg (key a.1) a.2)
    rw [List.map_cons, List.foldl_cons]
    refine ⟨((s.setReg_regsBut _ _).mono (by simp)).trans (hbut.mono (List.subset_cons_self _ _)), fun x hx => ?_⟩
    rcases List.mem_cons.mp hx with rfl | hx
    · rw [hbut _ hnodup.1, State.reg_setReg, if_pos rfl]
    · exact hreads x hx

theorem safParams_nodup : safParams.Nodup := by decide

/-- Words put one after another at the registers of a list: each register reads its word, and no other register changes. -/
theorem State.reg_putWords (key : Nat → Nat) {os : List Nat} {ws : List Word} (hlen : ws.length = os.length) (hnodup : (os.map key).Nodup)
    (s : State) : RegsBut (os.map key) s ((os.zip ws).foldl (fun s x => s.setReg (key x.1) x.2) s) ∧
      ∀ i (hi : i < os.length), ((os.zip ws).foldl (fun s x => s.setReg (key x.1) x.2) s).reg (key os[i]) = ws[i]'(hlen ▸ hi) := by
  have hkeys : (os.zip ws).map (fun x => key x.1) = os.map key := by
    rw [← List.map_fst_zip hlen.ge, List.map_map, List.map_fst_zip hlen.ge]
    rfl
  obtain ⟨hbut, hreads⟩ := State.reg_foldl_setReg key (l := os.zip ws) (by rw [hkeys]; exact hnodup) s
  rw [hkeys] at hbut
  exact ⟨hbut, fun i hi => hreads (os[i], ws[i]'(hlen ▸ hi)) (List.mem_iff_getElem.mpr ⟨i, by simp [hlen, hi], List.getElem_zip⟩)⟩

/-- A set put in force is in force, and changes no other register. -/
theorem State.reg_putSafety (s : State) {ws : List Word} (h : ws.length = safParams.length) :
    RegsBut safParams s (s.putSafety ws) ∧ ∀ i (hi : i < safParams.length), (s.putSafety ws).reg safParams[i] = ws[i]'(h ▸ hi) := by
  have hput := State.reg_putWords (fun o => o) h (by rw [List.map_id']; exact safParams_nodup) s
  rw [List.map_id'] at hput
  exact hput

/-- A set put pending reads its words (R352). -/
theorem State.reg_putSafetyPending (s : State) {ws : List Word} (h : ws.length = safParams.length) {i : Nat} (hi : i < safParams.length) :
    (s.putSafetyPending ws).reg (pendSafetyKey safParams[i]) = ws[i]'(h ▸ hi) :=
  (State.reg_putWords pendSafetyKey h (safParams_nodup.map fun _ _ hab => Nat.add_left_cancel hab) s).2 i hi

/-! GO and DISCARD. -/

theorem State.rf_congr {s t : State} (h : t.regs = s.regs) (k hi lo : Nat) : t.rf k hi lo = s.rf k hi lo :=
  congrArg (fld · hi lo) (State.reg_congr h k)

theorem State.rf_confirmResult (s : State) {n : Nat} (rule : Nat) (hn : n < 8) : (s.confirmResult n rule).rf R.SAF_CONFIRM_STAT 2 0 = n := by
  rw [State.confirmResult, State.rf_setRf_ne _ _ (by decide) (.inr (.inr (by decide))), State.rf_setRf _ _ _ _ _ (by decide)]
  exact Nat.mod_eq_of_lt hn

theorem State.confirmResult_regsBut (s : State) (n rule : Nat) : RegsBut [R.SAF_CONFIRM_STAT] s (s.confirmResult n rule) :=
  (s.setRf_regsBut _ _ _ _).trans (State.setRf_regsBut _ _ _ _ _)

theorem State.rf_confirmDone (s : State) {n : Nat} (rule : Nat) (hn : n < 8) : (s.confirmDone n rule).rf R.SAF_CONFIRM_STAT 2 0 = n := by
  rw [State.confirmDone, State.rf_latch_ne _ (by decide) (.inl (by decide)), s.rf_confirmResult rule hn]

theorem State.rb_confirmDone (s : State) (n rule : Nat) : (s.confirmDone n rule).rb R.SAF_CAUSE 6 = true := State.rb_latch _ _ _ (by decide)

theorem State.confirmDone_regsBut (s : State) (n rule : Nat) : RegsBut [R.SAF_CONFIRM_STAT, R.SAF_CAUSE] s (s.confirmDone n rule) :=
  (s.confirmResult_regsBut n rule).pair (State.latch_regsBut _ _ _)

/-- The action bit and the key of a write of SAF_CONFIRM (R354). -/
theorem confirmWord_fields {b key : Nat} (hkey : key < 65536) (hb : b = 30 ∨ b = 31) :
    flag (BitVec.ofNat 32 (2 ^ b + bits key 15 0)) 31 = decide (b = 31) ∧ flag (BitVec.ofNat 32 (2 ^ b + bits key 15 0)) 30 = decide (b = 30) ∧
      fld (BitVec.ofNat 32 (2 ^ b + bits key 15 0)) 15 0 = key := by
  rw [show bits key 15 0 = key % 2 ^ 16 by simp [bits]]
  exact sealWord_fields hkey hb

/-- A write of SAF_CONFIRM from a port that may write it, once the epochs are counted, acts at its boundary (R354). -/
theorem State.confirmAsk_counting {s : State} {r : Requester} (w : Word) (hcnt : s.sys.counting = true)
    (hmay : s.mayWrite r R.SAF_CONFIRM = true) : s.confirmAsk r w = s.confirmWrite r w := by
  rw [State.confirmAsk, if_neg (by simp [hmay]), if_pos hcnt]

/-- Before the epochs are counted a write of SAF_CONFIRM waits (R16, R354). -/
theorem State.confirmAsk_waits {s : State} {r : Requester} (w : Word) (hcnt : s.sys.counting = false)
    (hmay : s.mayWrite r R.SAF_CONFIRM = true) :
    s.confirmAsk r w = { s with regs := { s.regs with pend := s.regs.pend ++ [.action r R.SAF_CONFIRM w 0] } } := by
  rw [State.confirmAsk, if_neg (by simp [hmay]), if_neg (by simp [hcnt])]

section
variable {r : Requester} {s : State} (hcnt : s.sys.counting = true) (hmay : s.mayWrite r R.SAF_CONFIRM = true)
include hcnt hmay

theorem exec_confirmGo {key : Nat} (hkey : key < 65536) : exec (.confirmGo r key) s = .next (s.confirmGo r key) := by
  obtain ⟨hgo, hdiscard, hfld⟩ := confirmWord_fields (b := 31) hkey (.inr rfl)
  show Host.Outcome.next _ = _
  rw [State.confirmAsk_counting _ hcnt hmay, State.confirmWrite, hgo, hdiscard, hfld]
  rfl

theorem exec_confirmDiscard {key : Nat} (hkey : key < 65536) : exec (.confirmDiscard r key) s = .next (s.confirmDiscard key) := by
  obtain ⟨hgo, hdiscard, hfld⟩ := confirmWord_fields (b := 30) hkey (.inl rfl)
  show Host.Outcome.next _ = _
  rw [State.confirmAsk_counting _ hcnt hmay, State.confirmWrite, hgo, hdiscard, hfld]
  rfl

end

/-- The confirmation that a GO asks for: the pending set with its check value (R354). -/
def State.goConfirm (s : State) : Confirm :=
  ⟨s.safPending, safCheckOf s.safPending, min 65535 (s.saf.confirms + s.saf.confirm.length + 1), false⟩

theorem State.confirmResult_saf (s : State) (n rule : Nat) : (s.confirmResult n rule).saf = s.saf := keep_saf (by simp)

theorem State.confirmResult_trk (s : State) (n rule : Nat) : (s.confirmResult n rule).trk = s.trk := keep_trk (by simp)

/-- The state after a GO that is accepted: RESULT 1, and the write of the pending set waits (R354). -/
def State.goTaken (s : State) : State :=
  ({ s.confirmResult 1 0 with saf := { s.saf with confirm := s.saf.confirm ++ [s.goConfirm] } } : State).trkAsk .safetySet s.goConfirm.words

theorem State.goTaken_spec {s : State} (hprot : s.trk.writeProt = false) : s.goTaken.saf = { s.saf with confirm := s.saf.confirm ++ [s.goConfirm] } ∧
    s.goTaken.trk = { s.trk with waiting := s.trk.waiting ++ [(.safetySet, s.goConfirm.words)] } ∧ s.goTaken.rf R.SAF_CONFIRM_STAT 2 0 = 1 ∧
    RegsBut [R.SAF_CONFIRM_STAT] s s.goTaken := by
  unfold State.goTaken State.trkAsk
  dsimp only
  rw [State.confirmResult_trk, if_neg (by simp [hprot])]
  refine ⟨rfl, rfl, (State.rf_congr ?_ _ _ _).trans (s.rf_confirmResult 0 (by decide)), (s.confirmResult_regsBut 1 0).trans (.of_regs rfl)⟩
  rfl

theorem State.goTaken_frame (s : State) : Frame [.regs, .saf, .trk] s s.goTaken := by simp [State.goTaken]

/-- A GO with another key is refused with 3 (R354). -/
theorem State.confirmGo_key (s : State) (r : Requester) {key : Nat} (h : key ≠ 0x6996) : s.confirmGo r key = s.confirmDone 3 0 :=
  if_pos (.inl h)

section
variable {s : State} (r : Requester) (hoff : s.sys.conv = .off) (hcom : s.commission = true)
include hoff hcom

/-- A GO with a check value that is not that of the pending set is refused with 4 (R354). -/
theorem State.confirmGo_value (hval : s.rf (ownKey r R.SAF_CONFIRM_VALUE) 31 0 ≠ safCheckOf s.safPending) :
    s.confirmGo r 0x6996 = s.confirmDone 4 0 :=
  (if_neg (by simp [hoff, hcom])).trans (if_pos hval)

/-- A GO that nothing refuses asks the Trunk for the pending set (R354). -/
theorem State.confirmGo_accepted (hval : s.rf (ownKey r R.SAF_CONFIRM_VALUE) 31 0 = safCheckOf s.safPending) (htriple : s.safTriple = false)
    (hpend : s.safPendTriple = false) (hrules : safRuleFailed (fun o => s.reg (pendSafetyKey o)) = none) (hprot : s.trk.writeProt = false) :
    s.confirmGo r 0x6996 = s.goTaken := by
  unfold State.confirmGo
  simp only [hoff, hcom, hval, htriple, hpend, hrules, hprot, ne_eq, not_true_eq_false, Bool.true_eq_false, Bool.false_eq_true, or_self, if_false,
    State.confirmResult_saf]
  rfl

end

/-- DISCARD makes the pending set that in force (R354). -/
theorem State.reg_confirmDiscard (s : State) {o : Nat} (ho : o ∈ safParams) : (s.confirmDiscard 0x6996).reg (pendSafetyKey o) = s.reg o := by
  obtain ⟨i, hi, rfl⟩ := List.mem_iff_getElem.mp ho
  have hout : pendSafetyKey safParams[i] ∉ [R.SAF_CONFIRM_STAT, R.SAF_CAUSE] := by
    simp only [pendSafetyKey, R.SAF_CONFIRM_STAT, R.SAF_CAUSE, List.mem_cons, List.not_mem_nil, or_false]
    omega
  rw [State.confirmDiscard, if_neg (by simp), State.confirmDone_regsBut _ _ _ _ hout,
    s.reg_putSafetyPending (ws := s.safSet) (List.length_map _) hi]
  exact List.getElem_map _

/-! A set that comes into force. -/

/-- The connection falls to LOST (R358, R362). -/
theorem State.tgFall_saf (s : State) : ∃ loss, s.tgFall.saf = { s.saf with conn := .lost, echo := 0, lossNow := loss } := by
  unfold State.tgFall
  split
  · exact ⟨true, rfl⟩
  · exact ⟨s.saf.lossNow, rfl⟩

/-- The words of the confirmed set c in force, with the Bin record of it (R354). -/
def State.setWritten (s : State) (c : Confirm) : State :=
  (s.tgFall.putSafety c.set).binLog 0x97 [(s.tgFall.putSafety c.set).saf.causes, (s.tgFall.putSafety c.set).saf.check, c.check]

/-- The confirmed set c in force, with a restart required (R354). -/
def State.setInForce (s : State) (c : Confirm) (rest : List Confirm) : State :=
  State.confirmDone { s.setWritten c with saf := { (s.setWritten c).saf with
    confirm := rest, cfgValid := true, restartWait := true, check := c.check, checkBad := false
    confirms := incSat 65535 (s.setWritten c).saf.confirms } } 2 0

theorem exec_safetySetInForce {c : Confirm} {rest : List Confirm} {s : State} (hconf : s.saf.confirm = c :: rest)
    (hrun : s.saf.running = true) (hwritten : c.written = true) (hseen : s.saf.request = true → s.saf.requestSeen = true) :
    exec .safetySetInForce s = .next ((if s.saf.request then s.resetDecide else s).setInForce c rest) := by
  show execSafetySetInForce s = _
  unfold execSafetySetInForce
  rw [hconf]
  exact if_neg (by simpa [hrun, hwritten] using hseen)

/-- A request that no cycle has seen yet holds the set back (R366). -/
theorem exec_safetySetInForce_waits {c : Confirm} {rest : List Confirm} {s : State} (hconf : s.saf.confirm = c :: rest)
    (hreq : s.saf.request = true) (hseen : s.saf.requestSeen = false) : exec .safetySetInForce s = .next s := by
  show execSafetySetInForce s = _
  unfold execSafetySetInForce
  rw [hconf]
  exact if_pos (.inr (.inr ⟨hreq, hseen⟩))

theorem State.setInForce_saf (s : State) (c : Confirm) (rest : List Confirm) : ∃ loss, (s.setInForce c rest).saf =
    { s.saf with conn := .lost, echo := 0, lossNow := loss, confirm := rest, cfgValid := true, restartWait := true, check := c.check
                 checkBad := false, confirms := incSat 65535 s.saf.confirms } := by
  obtain ⟨loss, hloss⟩ := s.tgFall_saf
  have hwritten : (s.setWritten c).saf = s.tgFall.saf := keep_saf (by simp [State.setWritten])
  refine ⟨loss, ?_⟩
  rw [State.setInForce, State.confirmDone, State.latch_saf, State.confirmResult_saf, hwritten, hloss]

/-- The words of the set in force (R354). -/
theorem State.reg_setInForce (s : State) {c : Confirm} (rest : List Confirm) (hlen : c.set.length = safParams.length) {i : Nat}
    (hi : i < safParams.length) : (s.setInForce c rest).reg (safParams.getD i 0) = c.set.getD i 0 := by
  have hout : ∀ o ∈ safParams, o ∉ [R.SAF_CONFIRM_STAT, R.SAF_CAUSE] ∧ o ∉ [R.TRK_SUPPRESSED, R.TRK_CAUSE, R.TRK_QUEUE] := by decide
  obtain ⟨hdone, hbin⟩ := hout _ (List.getElem_mem hi)
  rw [List.getD_eq_getElem _ _ hi, List.getD_eq_getElem _ _ (hlen ▸ hi), ← (s.tgFall.reg_putSafety hlen).2 i hi, State.setInForce,
    State.confirmDone_regsBut _ _ _ _ hdone]
  exact State.binLog_regsBut _ _ _ _ hbin

/-- Settles O36: a GO and a DISCARD by their outcomes, and a set in force by setInForce, after the reset request that waits. -/
theorem safetySets : Obligations.SafetySets := by
  refine ⟨fun r s hcnt hmay hoff hcom hval htriple hpend hrules hprot => ?go, fun r s hcnt hmay hoff hcom hval => ?value,
    fun r key s hcnt hmay hkey hne => ?key, fun r s hcnt hmay => ?discard, fun r s hcnt hmay => ?waits,
    fun c rest s hconf hrun hwritten hlen => ⟨exec_safetySetInForce_waits hconf, fun hreq hseen => ?decided⟩,
    fun c rest s hconf hrun hwritten hlen hreq => ?inForce, fun s hrun hcfg => ⟨_, if_pos ⟨hrun, hcfg⟩, rfl, by simp⟩,
    fun s hrun htriple hslot => ?reload⟩
  case go =>
    obtain ⟨hsaf, htrk, hresult, hbut⟩ := State.goTaken_spec hprot
    refine ⟨s.goTaken, ?_, ⟨s.goConfirm, rfl, hsaf, htrk⟩, hresult, hbut, s.goTaken_frame⟩
    rw [exec_confirmGo hcnt hmay (by decide), State.confirmGo_accepted r hoff hcom hval htriple hpend hrules hprot]
  case value =>
    refine ⟨_, ?_, s.rf_confirmDone 0 (by decide), s.rb_confirmDone 4 0, s.confirmDone_regsBut 4 0, by simp⟩
    rw [exec_confirmGo hcnt hmay (by decide), State.confirmGo_value r hoff hcom hval]
  case key =>
    refine ⟨_, ?_, ?_, s.rf_confirmDone 0 (by decide), s.rb_confirmDone 3 0, s.confirmDone_regsBut 3 0, by simp⟩
    · rw [exec_confirmGo hcnt hmay hkey, s.confirmGo_key r hne]
    · rw [exec_confirmDiscard hcnt hmay hkey, State.confirmDiscard, if_pos hne]
  case discard =>
    refine ⟨_, exec_confirmDiscard hcnt hmay (by decide), fun o ho => s.reg_confirmDiscard ho, ?_, ?_, by simp⟩
    · exact State.rf_confirmDone _ 0 (by decide)
    · exact State.rb_confirmDone _ 2 0
  case waits =>
    exact ⟨_, _, congrArg Host.Outcome.next (State.confirmAsk_waits _ hcnt hmay), rfl, by simp⟩
  case decided =>
    obtain ⟨hreq', hconf', hrun'⟩ := s.resetDecide_saf
    refine ⟨?_, exec_safetyResetRequest hreq hseen⟩
    rw [exec_safetySetInForce hconf hrun hwritten fun _ => hseen, if_pos hreq,
      exec_safetySetInForce (hconf'.trans hconf) (hrun'.trans hrun) hwritten (by simp [hreq']), if_neg (by simp [hreq'])]
  case inForce =>
    obtain ⟨loss, hsaf⟩ := s.setInForce_saf c rest
    refine ⟨s.setInForce c rest, ?_, ?_⟩
    · rw [exec_safetySetInForce hconf hrun hwritten (by simp [hreq]), if_neg (by simp [hreq])]
    · rw [hsaf]
      exact ⟨rfl, rfl, rfl, rfl, rfl, rfl, rfl, fun i hi => s.reg_setInForce rest hlen hi, State.rf_confirmDone _ 0 (by decide),
        State.rb_confirmDone _ 2 0, by simp [State.setInForce, State.setWritten]⟩
  case reload =>
    refine ⟨s.safNone, (if_pos ⟨hrun, htriple⟩ : execSafetySetReload s = _).trans ?_, rfl, by simp⟩
    rw [State.safLoad, hslot]

end Sys2Proof.Machine
end

section
/-! PROOFS. Hatch life (O38): what a Hatch reset leaves of the Hatch, its Crates and its registers, and what a change of silence keeps. -/

namespace Sys2Proof.Machine

/-! The parts of a Hatch reset. -/

/-- A Crate after the reset of Hatch h (R373). -/
def Crate.hatchGone (c : Crate) (h : Fin 4) : Crate :=
  if c.hatch = h ∧ c.state ≠ .free then { c with closeRef := none, abortAsked := c.abortAsked || c.state = .building } else c

theorem State.crate_hatchCrates (s : State) (h : Fin 4) (k : Nat) :
    (s.hatchCrates h).crate k = if k < 4 then (s.crate k).hatchGone h else s.crate k := by
  have hother (y : State) (a : Nat) (ha : a ≠ k) : (y.updCrate a (Crate.hatchGone · h)).crate k = y.crate k :=
    y.crate_updCrate_ne a _ k ha.symm
  split
  · next hk =>
    obtain ⟨u, hu, hfold⟩ := view_foldl_range (view := (State.crate · k)) hk s hother
    exact hfold.trans ((u.crate_updCrate_same k _).trans (congrArg (Crate.hatchGone · h) hu))
  · next hk => exact view_foldl_eq (view := (State.crate · k)) s fun y a ha => hother y a fun e => hk (e ▸ List.mem_range.mp ha)

theorem Crate.hatchGone_keeps (c : Crate) (h : Fin 4) :
    (c.hatchGone h).state = c.state ∧ (c.hatchGone h).id = c.id ∧ (c.hatchGone h).gates = c.gates := by
  unfold Crate.hatchGone
  split <;> exact ⟨rfl, rfl, rfl⟩

theorem Crate.hatchGone_building {c : Crate} {h : Fin 4} (hh : c.hatch = h) (hb : c.state = .building) : (c.hatchGone h).abortAsked = true := by
  rw [Crate.hatchGone, if_pos ⟨hh, by rw [hb]; exact nofun⟩]
  simp [hb]

/-- What a store lists under the keys that are kept, and nothing under the others. -/
theorem smFind_filter {α : Type} (m : SMap α) (p : Nat → Bool) (k : Nat) :
    smFind (m.filter fun x => p x.1) k = if p k then smFind m k else none := by
  induction m with
  | nil => simp [smFind]
  | cons x m ih =>
    obtain ⟨a, b⟩ := x
    by_cases ha : a = k
    · subst ha
      cases hp : p a <;> simp [hp, smFind, ih]
    · cases hp : p a <;> simp [hp, smFind, ha, ih]

/-- The registers kept for a Hatch read their reset values after its reset, and the others keep theirs (R373, R462). -/
theorem State.reg_ownRegsReset (s : State) (h : Fin 4) (k : Nat) :
    (s.ownRegsReset h).reg k = if k / 0x10000 = 5 + h.val then resetWord k else s.reg k := by
  have hfind (m : SMap Word) : smFind (m.filter fun x => decide (x.1 / 0x10000 ≠ 5 + h.val)) k =
      if k / 0x10000 = 5 + h.val then none else smFind m k := by
    rw [smFind_filter m fun a => decide (a / 0x10000 ≠ 5 + h.val)]
    by_cases hk : k / 0x10000 = 5 + h.val <;> simp [hk]
  simp only [State.reg, State.ownRegsReset, RegSt.copyA, RegSt.copyB, RegSt.copyC, hfind]
  split <;> simp

/-- The Hatch after its reset (R369, R373, R400). -/
def HatSt.afterReset (a : HatSt) (kind : HatchResetKind) : HatSt :=
  { linkUp := a.linkUp && (kind = .flr || kind = .d3hot), d3hot := kind = .d3hot
    bme := a.bme && kind = .d3hot, msixEn := a.msixEn && kind = .d3hot, msixMask := if kind = .d3hot then a.msixMask else 0
    msixTable := if kind = .d3hot then a.msixTable else [], pcie := pcieAfterReset a.pcie kind
    aer := if kind = .perst then 0 else a.aer
    silent := a.silent, kickAge := a.kickAge, evSeq := a.evSeq, fetchSeq := a.fetchSeq }

/-- The state in which a Hatch is reset: without its orders, its hold on its Crates and the registers kept for it (R373). -/
def State.hatchDropped (s : State) (h : Fin 4) : State := ((s.dropOrders h).hatchCrates h).ownRegsReset h

/-- The snapshots of a Hatch after its reset (R373). -/
def SnapSt.dropped (p : SnapSt) : SnapSt := { p with queue := [], copying := none, shown := none, other := none }

theorem State.hatchReset_eq (s : State) (h : Fin 4) (kind : HatchResetKind) :
    s.hatchReset h kind = ((s.hatchDropped h).updHat h.val (HatSt.afterReset · kind)).updSnap h.val SnapSt.dropped := rfl

theorem State.hat_dropOrders (s : State) (h : Fin 4) (k : Nat) : (s.dropOrders h).hat k =
    if k = h.val then { s.hat h.val with reads := [], fetched := [], openOrders := [] } else s.hat k :=
  State.hat_updHat s h.val k fun a => { a with reads := [], fetched := [], openOrders := [] }

theorem State.hat_hatchDropped (s : State) (h : Fin 4) (k : Nat) : (s.hatchDropped h).hat k = (s.dropOrders h).hat k := by
  rw [State.hat, keep_hats (s := s.dropOrders h) (by simp [State.hatchDropped]), ← State.hat]

theorem State.hat_hatchReset (s : State) (h : Fin 4) (kind : HatchResetKind) (g : Nat) :
    (s.hatchReset h kind).hat g = if g = h.val then (s.hat h.val).afterReset kind else s.hat g := by
  have hsnap (y : State) : (y.updSnap h.val SnapSt.dropped).hat g = y.hat g := rfl
  rw [State.hatchReset_eq, hsnap, State.hat_updHat, State.hat_hatchDropped, State.hat_hatchDropped, State.hat_dropOrders, State.hat_dropOrders,
    if_pos rfl]
  split <;> rfl

theorem State.snap_hatchReset (s : State) (h : Fin 4) (kind : HatchResetKind) : ∃ p : SnapSt, (s.hatchReset h kind).snap h.val = p.dropped :=
  ⟨_, (State.snap_updSnap _ _ _ _).trans (if_pos rfl)⟩

theorem State.crate_hatchReset (s : State) (h : Fin 4) (kind : HatchResetKind) (k : Nat) :
    (s.hatchReset h kind).crate k = if k < 4 then (s.crate k).hatchGone h else s.crate k := by
  have hkept (y : State) : ((y.updHat h.val (HatSt.afterReset · kind)).updSnap h.val SnapSt.dropped).crate k = y.crate k := rfl
  have hregs (y : State) : (y.ownRegsReset h).crate k = y.crate k := rfl
  have hdrop : (s.dropOrders h).crate k = s.crate k := rfl
  rw [State.hatchReset_eq, hkept, State.hatchDropped, hregs, State.crate_hatchCrates, hdrop]

theorem State.reg_hatchReset (s : State) (h : Fin 4) (kind : HatchResetKind) (k : Nat) :
    (s.hatchReset h kind).reg k = if k / 0x10000 = 5 + h.val then resetWord k else s.reg k := by
  have hregs : ((s.dropOrders h).hatchCrates h).regs = s.regs := keep_regs (by simp)
  have hkept : (s.hatchReset h kind).regs = (s.hatchDropped h).regs := rfl
  rw [State.reg_congr hkept, State.hatchDropped, State.reg_ownRegsReset, State.reg_congr hregs]

theorem State.sys_hatchReset (s : State) (h : Fin 4) (kind : HatchResetKind) : (s.hatchReset h kind).sys = (s.dropOrders h).sys :=
  keep_sys (by simp [State.hatchReset])

/-! A change of silence. -/

/-- The silence of a Hatch is kept by a change of Hatches that keeps each one's. -/
theorem State.silent_updHat {f : HatSt → HatSt} (hf : ∀ a, (f a).silent = a.silent) (s : State) (h g : Nat) :
    ((s.updHat h f).hat g).silent = (s.hat g).silent := by
  rw [State.hat_updHat]
  split
  · next hg => rw [hf, hg]
  · rfl

/-- A signal changes the pending vectors of its Hatch alone (R392). -/
theorem State.hat_signal (s : State) (h : Fin 4) (v g : Nat) :
    ∃ p, (s.signal h v).hat g = { s.hat g with msixPending := p } ∧ (g ≠ h.val → p = (s.hat g).msixPending) := by
  unfold State.signal
  dsimp only
  split
  · exact ⟨_, rfl, fun _ => rfl⟩
  · rw [State.hat_updHat]
    split
    · next hg => exact ⟨_, by rw [hg], fun hne => absurd hg hne⟩
    · exact ⟨_, rfl, fun _ => rfl⟩

/-- A cause of a Hatch changes its pending vectors, and no other part of a Hatch (R392, R401). -/
theorem State.hat_hatCause (s : State) (h : Fin 4) (b g : Nat) :
    ∃ p, (s.hatCause h b).hat g = { s.hat g with msixPending := p } ∧ (g ≠ h.val → p = (s.hat g).msixPending) := by
  have hlatch : (s.latch (bankKey h.val R.HAT_CAUSE) b).hat g = s.hat g := by rw [State.hat, State.latch_hats, ← State.hat]
  rw [State.hatCause_eq]
  split
  · obtain ⟨p, hp, hne⟩ := (s.latch (bankKey h.val R.HAT_CAUSE) b).hat_signal h
      (fld ((s.latch (bankKey h.val R.HAT_CAUSE) b).reg (bankKey h.val R.HAT_CTRL)) 21 16) g
    rw [hlatch] at hp hne
    exact ⟨p, hp, hne⟩
  · exact ⟨(s.hat g).msixPending, hlatch, fun _ => rfl⟩

theorem State.silent_signal (s : State) (h : Fin 4) (v g : Nat) : ((s.signal h v).hat g).silent = (s.hat g).silent := by
  obtain ⟨p, hp, -⟩ := s.hat_signal h v g
  rw [hp]

theorem State.silent_hatCause (s : State) (h : Fin 4) (b g : Nat) : ((s.hatCause h b).hat g).silent = (s.hat g).silent := by
  obtain ⟨p, hp, -⟩ := s.hat_hatCause h b g
  rw [hp]

theorem State.silent_binLog (s : State) (cause : Nat) (payload : List Nat) (g : Nat) :
    ((s.binLog cause payload).hat g).silent = (s.hat g).silent := by
  rw [State.hat, keep_hats (s := s) (by simp), ← State.hat]

theorem State.silent_eventTo (s : State) (h : Fin 4) (kind detail : Nat) (ep : Epoch) (w2 w3 g : Nat) :
    ((s.eventTo h kind detail ep w2 w3).hat g).silent = (s.hat g).silent := by
  unfold State.eventTo
  extract_lets a lose put s1 s2 s3 s4
  have hlose (y : State) : ((lose y).hat g).silent = (y.hat g).silent :=
    (State.silent_hatCause _ h 1 g).trans (State.silent_updHat (by intro; rfl) y _ g)
  have hput (y : State) (k d : Nat) (e : Epoch) (x z : Nat) : ((put y k d e x z).hat g).silent = (y.hat g).silent :=
    (State.silent_signal _ h _ g).trans (State.silent_updHat (by intro; rfl) (y.emit _) _ g)
  split
  · exact hlose s
  · split
    · exact (hlose _).trans ((State.silent_hatCause _ h 0 g).trans (State.silent_updHat (by intro; rfl) s _ g))
    · split
      · exact hput s ..
      · have hlast : (s4.hat g).silent = (s.hat g).silent :=
          (State.silent_updHat (by intro; rfl) _ _ g).trans ((State.silent_binLog _ _ _ g).trans (hput s ..))
        split
        · exact (hlose s4).trans hlast
        · exact (hput s4 ..).trans hlast

/-- The Hatches of a mask are those whose bit is set. -/
theorem mem_hatList {mask : Nat} {g : Fin 4} : g ∈ hatList mask ↔ bit mask g.val = true := by
  have hall : ∀ g : Fin 4, g ∈ ([0, 1, 2, 3] : List (Fin 4)) := by decide
  simp [hatList, hall g]

theorem State.rb_hatCause (s : State) (h : Fin 4) {b : Nat} (hb : b < 32) : (s.hatCause h b).rb (bankKey h.val R.HAT_CAUSE) b = true := by
  rw [State.rb, State.reg_congr (s.hatCause_regs h b), ← State.rb, State.rb_latch _ _ _ hb]

theorem State.rb_hatCause_keeps {s : State} {k b' : Nat} (h : Fin 4) {b : Nat} (hb : b < 32) (hset : s.rb k b' = true) :
    (s.hatCause h b).rb k b' = true := by
  rw [State.rb, State.reg_congr (s.hatCause_regs h b), ← State.rb]
  exact s.rb_latch_keeps _ _ _ _ hb hset

theorem State.hatCause_regsBut (s : State) (h : Fin 4) (b : Nat) : RegsBut [bankKey h.val R.HAT_CAUSE] s (s.hatCause h b) :=
  RegsBut.trans (t := s.latch (bankKey h.val R.HAT_CAUSE) b) (s.latch_regsBut _ _) (.of_regs (s.hatCause_regs h b))

/-- The silence of Hatch h as it is decided, with its events and causes (R391, R396). -/
def State.silenceTold (s : State) (h : Fin 4) : State :=
  let mask := s.standbyOf h
  (hatList mask).foldl (fun s x => s.hatCause x 4)
    ((s.updHat h.val (fun a => { a with silent := s.silentNow h.val })).eventMask mask 4 (b2n (s.silentNow h.val) * 16 + h.val) s.sys.epoch 0 0)

theorem exec_hatchSilence {h : Fin 4} {s : State} (hcnt : s.sys.counting = true) (hnew : s.silentNow h.val ≠ (s.hat h.val).silent) :
    exec (.hatchSilence h) s = .next ((s.silenceTold h).binLog 0xD8 [b2n (s.silentNow h.val) * 16 + h.val]) :=
  if_neg (by simp [hcnt, hnew])

theorem State.silent_silenceTold (s : State) (h : Fin 4) : ((s.silenceTold h).hat h.val).silent = s.silentNow h.val := by
  unfold State.silenceTold State.eventMask
  extract_lets mask
  refine (view_foldl_eq (view := fun y => (y.hat h.val).silent) _ fun y x _ => y.silent_hatCause x 4 h.val).trans ?_
  refine (view_foldl_eq (view := fun y => (y.hat h.val).silent) _ fun y x _ => y.silent_eventTo x _ _ _ _ _ h.val).trans ?_
  rw [State.hat_updHat, if_pos rfl]

theorem State.rb_silenceTold (s : State) {h g : Fin 4} (hg : bit (s.standbyOf h) g.val = true) :
    (s.silenceTold h).rb (bankKey g.val R.HAT_CAUSE) 4 = true := by
  unfold State.silenceTold
  extract_lets mask
  refine foldl_sets (P := fun t => t.rb (bankKey g.val R.HAT_CAUSE) 4 = true) (mem_hatList.mpr hg) (fun y => ?_) (fun y x hy => ?_) _
  · exact y.rb_hatCause g (by decide)
  · exact State.rb_hatCause_keeps x (by decide) hy

/-- Settles O38: a reset by what it leaves of each part, and a change of silence by what is told of it. -/
theorem hatchLife : Obligations.HatchLife := by
  refine ⟨fun h kind s => ?reset, fun h cfg s hdom => ?linkUp, fun h s hcnt hnew => ?silence⟩
  case reset =>
    obtain ⟨p, hp⟩ := s.snap_hatchReset h kind
    refine ⟨s.hatchReset h kind, rfl, ?_⟩
    rw [hp, s.hat_hatchReset h kind h.val, if_pos rfl]
    refine ⟨rfl, rfl, rfl, rfl, rfl, rfl, rfl, rfl, fun hup => ?_, rfl, fun g hg => ?_, rfl, rfl, rfl, rfl, fun i hi hh hb => ?_, fun i => ?_,
      fun k hk => ?_, fun k hk => ?_, ?_, ?_, by simp⟩
    · simpa [HatSt.afterReset] using (Bool.and_eq_true_iff.mp hup).2
    · rw [s.hat_hatchReset, if_neg hg]
    · rw [s.crate_hatchReset, if_pos hi]
      exact Crate.hatchGone_building hh hb
    · rw [s.crate_hatchReset]
      split
      · exact Crate.hatchGone_keeps _ h
      · exact ⟨rfl, rfl, rfl⟩
    · rw [s.reg_hatchReset, if_pos hk]
    · rw [s.reg_hatchReset, if_neg hk]
    · rw [s.sys_hatchReset]; rfl
    · rw [s.sys_hatchReset]; rfl
  case linkUp =>
    refine ⟨_, if_pos hdom, ?_, fun g hg => ?_, by simp⟩
    · rw [State.hat_updHat, if_pos rfl]
    · rw [State.hat_updHat, if_neg hg]
  case silence =>
    refine ⟨_, exec_hatchSilence hcnt hnew, ?_, fun g hg => ?_, by simp [State.silenceTold]⟩
    · rw [State.silent_binLog, s.silent_silenceTold h]
    · rw [(State.binLog_regsBut _ _ _).rb ?_, s.rb_silenceTold hg]
      simp only [bankKey, R.HAT_CAUSE, R.TRK_SUPPRESSED, R.TRK_CAUSE, R.TRK_QUEUE, List.mem_cons, List.not_mem_nil, or_false]
      omega

end Sys2Proof.Machine
end

section
/-! PROOFS. The rings of a Hatch: what a stop and a completion leave of them (R377, R378). -/

namespace Sys2Proof.Machine

/-- A fold over the indices below n that changes at each index the value of that index alone. -/
theorem smGet_foldl_range {α : Type} {d : α} {f : α → α} {step : SMap α → Nat → SMap α}
    (hstep : ∀ m r q, smGet d (step m r) q = if q = r then f (smGet d m r) else smGet d m q) (n : Nat) (m : SMap α) (q : Nat) :
    smGet d ((List.range n).foldl step m) q = if q < n then f (smGet d m q) else smGet d m q := by
  induction n with
  | zero => simp
  | succ n ih =>
    rw [List.range_succ, List.foldl_append, List.foldl_cons, List.foldl_nil, hstep]
    by_cases hq : q = n
    · subst hq
      simp [ih]
    · rw [if_neg hq, ih]
      have hiff : q < n ↔ q < n + 1 := by omega
      simp only [hiff]

/-- An order ring after completion ring c stops (R378). -/
def RingSt.stoppedWith (x : RingSt) (c kind : Nat) : RingSt := if x.enable && x.cr = c && !x.stopped then stopRing x kind else x

theorem RingSt.stoppedWith_enable (x : RingSt) (c kind : Nat) : (x.stoppedWith c kind).enable = x.enable := by
  unfold RingSt.stoppedWith
  split <;> rfl

/-- An order ring that names the completion ring is stopped then. -/
theorem RingSt.stoppedWith_stopped {x : RingSt} {c : Nat} (kind : Nat) (hen : x.enable = true) (hc : x.cr = c) :
    (x.stoppedWith c kind).stopped = true := by
  unfold RingSt.stoppedWith
  cases hs : x.stopped <;> simp [hen, hc, hs, stopRing]

/-- The order rings of a store after completion ring c stops (R378). -/
@[irreducible] def ringsStopped (m : SMap RingSt) (c kind : Nat) : SMap RingSt :=
  (List.range 16).foldl (fun m r =>
    let x := smGet {} m r
    if x.enable && x.cr = c && !x.stopped then smSet {} m r (stopRing x kind) else m) m

theorem smGet_ringsStopped (m : SMap RingSt) (c kind q : Nat) :
    smGet {} (ringsStopped m c kind) q = if q < 16 then (smGet {} m q).stoppedWith c kind else smGet {} m q := by
  unfold ringsStopped
  refine smGet_foldl_range (f := (RingSt.stoppedWith · c kind)) (fun m r q => ?_) 16 m q
  dsimp only
  split
  · next hcond =>
    rw [smGet_smSet]
    split
    · rw [RingSt.stoppedWith, if_pos hcond]
    · rfl
  · next hcond =>
    split
    · next hq => rw [hq, RingSt.stoppedWith, if_neg hcond]
    · rfl

/-- The Hatch after completion ring c stops, before its cause (R378). -/
def HatSt.crStopped (a : HatSt) (c kind : Nat) : HatSt :=
  { a with cr := smUpd {} a.cr c (stopRing · kind), or_ := ringsStopped a.or_ c kind }

theorem State.stopCr_eq (s : State) (h : Fin 4) (c kind : Nat) : s.stopCr h c kind = (s.updHat h.val (HatSt.crStopped · c kind)).hatCause h 0 := by
  unfold State.stopCr HatSt.crStopped ringsStopped
  rfl

theorem HatSt.crStopped_cr (a : HatSt) (c kind q : Nat) : smGet {} (a.crStopped c kind).cr q =
    if q = c then stopRing (smGet {} a.cr c) kind else smGet {} a.cr q := by
  rw [HatSt.crStopped, smGet_smUpd]

/-- The Hatch after the stop of completion ring c (R378). -/
theorem State.hat_stopCr (s : State) (h : Fin 4) (c kind : Nat) :
    ∃ p, (s.stopCr h c kind).hat h.val = { (s.hat h.val).crStopped c kind with msixPending := p } := by
  obtain ⟨p, hp, -⟩ := (s.updHat h.val (HatSt.crStopped · c kind)).hat_hatCause h 0 h.val
  exact ⟨p, by rw [State.stopCr_eq, hp, State.hat_updHat, if_pos rfl]⟩

theorem State.hat_hatCause_ne (s : State) {h : Fin 4} (b : Nat) {g : Nat} (hg : g ≠ h.val) : (s.hatCause h b).hat g = s.hat g := by
  obtain ⟨p, hp, hkeep⟩ := s.hat_hatCause h b g
  rw [hp, hkeep hg]

theorem State.hat_signal_ne (s : State) {h : Fin 4} (v : Nat) {g : Nat} (hg : g ≠ h.val) : (s.signal h v).hat g = s.hat g := by
  obtain ⟨p, hp, hkeep⟩ := s.hat_signal h v g
  rw [hp, hkeep hg]

theorem State.hat_stopCr_ne (s : State) {h : Fin 4} (c kind : Nat) {g : Nat} (hg : g ≠ h.val) : (s.stopCr h c kind).hat g = s.hat g := by
  rw [State.stopCr_eq, State.hat_hatCause_ne _ _ hg, State.hat_updHat, if_neg hg]

/-! Completions. -/

/-- The state in which an order is no longer open (R377). -/
def State.orderClosed (s : State) (r : OrderRef) : State :=
  s.updHat r.hatch.val (fun a => { a with openOrders := a.openOrders.eraseP (refersTo r) })

/-- Completion ring c of Hatch h with other contents. -/
def State.putCr (s : State) (h : Fin 4) (c : Nat) (x : RingSt) : State :=
  s.updHat h.val (fun a => { a with cr := smSet {} a.cr c x })

/-- A completion ring with one reserved entry fewer (R377). -/
def RingSt.released (x : RingSt) : RingSt := { x with reserved := x.reserved - 1 }

/-- The words of a completion (R388). -/
def State.completionWords (s : State) (e : Epoch) (r : OrderRef) (phase : Bool) (opcode status w2 w3 : Nat) : List DWord :=
  [b2n phase * 2 ^ 63 + status * 2 ^ 48 + opcode * 2 ^ 40 + r.ring * 2 ^ 36 + r.index * 2 ^ 16 + r.tag, s.eraAt e * 2 ^ 48 + e.toNat, w2, w3].map
    (BitVec.ofNat 64)

/-- The state in which a completion has been written, before its interrupt (R377, R388). -/
def State.completionPut (s : State) (e : Epoch) (r : OrderRef) (c opcode status w2 w3 : Nat) : State :=
  let x := smGet {} (s.hat r.hatch.val).cr c
  ((s.orderClosed r).emit (.completion r.hatch c x.index (s.completionWords e r x.phase opcode status w2 w3))).putCr r.hatch c (advance x.released)

/-- A completion by its ring: none or one that is disabled takes nothing, one that has stopped gives the entry back, and without Bus Master
Enable the ring stops; otherwise it is written (R377, R378). -/
theorem State.completeAt_eq (s : State) (e : Epoch) (r : OrderRef) (opcode status w2 w3 : Nat) : s.completeAt e r opcode status w2 w3 =
    match s.orderCr r with
    | none => s.orderClosed r
    | some c =>
      let x := smGet {} (s.hat r.hatch.val).cr c
      if !x.enable then s.orderClosed r
      else if x.stopped then (s.orderClosed r).putCr r.hatch c x.released
      else if !(s.hat r.hatch.val).bme then ((s.orderClosed r).putCr r.hatch c x.released).stopCr r.hatch c 3
      else if r.irq then (s.completionPut e r c opcode status w2 w3).signal r.hatch x.vector else s.completionPut e r c opcode status w2 w3 := by
  unfold State.completeAt
  cases s.orderCr r <;> rfl

/-- What a completion leaves of its Hatch: the event ring, the fetched orders, and which order rings are enabled. -/
def HatSt.ringView (a : HatSt) : RingSt × List Fetched × (Nat → Bool) := (a.ev, a.fetched, fun q => (smGet {} a.or_ q).enable)

theorem State.ringView_updHat {f : HatSt → HatSt} (hf : ∀ a, (f a).ringView = a.ringView) (s : State) (h g : Nat) :
    ((s.updHat h f).hat g).ringView = (s.hat g).ringView := by
  rw [State.hat_updHat]
  split
  · next hg => rw [hf, hg]
  · rfl

theorem HatSt.ringView_crStopped (a : HatSt) (c kind : Nat) : (a.crStopped c kind).ringView = a.ringView := by
  simp only [HatSt.ringView, HatSt.crStopped, Prod.mk.injEq, true_and]
  funext q
  rw [smGet_ringsStopped]
  split
  · exact RingSt.stoppedWith_enable _ _ _
  · rfl

theorem State.ringView_signal (s : State) (h : Fin 4) (v g : Nat) : ((s.signal h v).hat g).ringView = (s.hat g).ringView := by
  obtain ⟨p, hp, -⟩ := s.hat_signal h v g
  rw [hp]
  rfl

theorem State.ringView_hatCause (s : State) (h : Fin 4) (b g : Nat) : ((s.hatCause h b).hat g).ringView = (s.hat g).ringView := by
  obtain ⟨p, hp, -⟩ := s.hat_hatCause h b g
  rw [hp]
  rfl

theorem State.ringView_stopCr (s : State) (h : Fin 4) (c kind g : Nat) : ((s.stopCr h c kind).hat g).ringView = (s.hat g).ringView := by
  rw [State.stopCr_eq, State.ringView_hatCause]
  exact State.ringView_updHat (fun a => a.ringView_crStopped c kind) s h.val g

theorem State.ringView_complete (s : State) (r : OrderRef) (opcode status w2 w3 g : Nat) :
    ((s.complete r opcode status w2 w3).hat g).ringView = (s.hat g).ringView := by
  have hclosed : ((s.orderClosed r).hat g).ringView = (s.hat g).ringView := State.ringView_updHat (by intro; rfl) s _ g
  have hput (y : State) (c : Nat) (x : RingSt) : ((y.putCr r.hatch c x).hat g).ringView = (y.hat g).ringView :=
    State.ringView_updHat (by intro; rfl) y _ g
  rw [State.complete, State.completeAt_eq]
  cases s.orderCr r with
  | none => exact hclosed
  | some c =>
    dsimp only
    have hwritten : ((s.completionPut s.sys.epoch r c opcode status w2 w3).hat g).ringView = (s.hat g).ringView := (hput _ c _).trans hclosed
    split
    · exact hclosed
    · split
      · exact (hput _ c _).trans hclosed
      · split
        · exact (State.ringView_stopCr _ _ _ _ g).trans ((hput _ c _).trans hclosed)
        · split
          · exact (State.ringView_signal _ _ _ g).trans hwritten
          · exact hwritten

/-! RING_RESET. -/

/-- The orders of ring r that are fetched are flushed: the event ring and which order rings are enabled stay (R375). -/
theorem State.ringView_flushRing (s : State) (h : Fin 4) (r : Nat) : ((s.flushRing h r).hat h.val).ringView =
    ((s.hat h.val).ev, (s.hat h.val).fetched.filter (fun f => f.ring ≠ r), fun q => (smGet {} (s.hat h.val).or_ q).enable) := by
  unfold State.flushRing
  extract_lets a fs u
  refine (view_foldl_eq (view := fun y : State => (y.hat h.val).ringView) u fun y f _ => State.ringView_complete y _ _ _ _ _ h.val).trans ?_
  rw [State.hat_updHat, if_pos rfl]
  rfl

/-- The flushes of a ring reset (R401). -/
def State.flushEnabled (s : State) (h : Fin 4) (n : Nat) : State :=
  (List.range n).foldl (fun s r => if (smGet {} (s.hat h.val).or_ r).enable then s.flushRing h r else s) s

/-- They leave no fetched order of a ring below n that is enabled. -/
theorem State.flushEnabled_view (s : State) (h : Fin 4) (n : Nat) :
    ((s.flushEnabled h n).hat h.val).ev = (s.hat h.val).ev ∧
    (∀ q, (smGet {} ((s.flushEnabled h n).hat h.val).or_ q).enable = (smGet {} (s.hat h.val).or_ q).enable) ∧
    ∀ f ∈ ((s.flushEnabled h n).hat h.val).fetched, f ∈ (s.hat h.val).fetched ∧ (f.ring < n → (smGet {} (s.hat h.val).or_ f.ring).enable = false) := by
  induction n with
  | zero => exact ⟨rfl, fun _ => rfl, fun f hf => ⟨hf, fun hlt => absurd hlt (Nat.not_lt_zero _)⟩⟩
  | succ n ih =>
    obtain ⟨hev, hen, hfetched⟩ := ih
    have hstep : s.flushEnabled h (n + 1) = if (smGet {} ((s.flushEnabled h n).hat h.val).or_ n).enable then (s.flushEnabled h n).flushRing h n
        else s.flushEnabled h n := by
      rw [State.flushEnabled, List.range_succ, List.foldl_append]
      rfl
    rw [hstep, hen n]
    split
    · have hview := (s.flushEnabled h n).ringView_flushRing h n
      simp only [HatSt.ringView, Prod.mk.injEq] at hview
      obtain ⟨hev', hfet', hen'⟩ := hview
      refine ⟨hev'.trans hev, fun q => (congrFun hen' q).trans (hen q), fun f hf => ?_⟩
      rw [hfet', List.mem_filter, decide_eq_true_iff] at hf
      obtain ⟨hold, hlt⟩ := hfetched f hf.1
      exact ⟨hold, fun hr => hlt (by have := hf.2; omega)⟩
    · next hoff =>
      refine ⟨hev, hen, fun f hf => ?_⟩
      obtain ⟨hold, hlt⟩ := hfetched f hf
      refine ⟨hold, fun hr => ?_⟩
      rcases Nat.lt_succ_iff_lt_or_eq.mp hr with hr | hr
      · exact hlt hr
      · rw [hr]
        exact Bool.not_eq_true _ ▸ hoff

/-- The rings of a store below 16 disabled. -/
@[irreducible] def ringsOff (m : SMap RingSt) : SMap RingSt := (List.range 16).foldl (fun m r => smUpd {} m r (fun x => { x with enable := false })) m

theorem ringsOff_enable (m : SMap RingSt) {r : Nat} (hr : r < 16) : (smGet {} (ringsOff m) r).enable = false := by
  unfold ringsOff
  rw [smGet_foldl_range (f := fun x => { x with enable := false }) (fun m r q => smGet_smUpd {} m r q _), if_pos hr]

/-- The Hatch after a ring reset, its orders flushed (R401). -/
def HatSt.allRingsOff (a : HatSt) : HatSt :=
  { a with or_ := ringsOff a.or_, cr := ringsOff a.cr, ev := { a.ev with enable := false }
           openOrders := a.openOrders.map (fun o => { o with cr := none }) }

theorem State.ringReset_eq (s : State) (h : Fin 4) : s.ringReset h = (s.flushEnabled h 16).updHat h.val HatSt.allRingsOff := by
  unfold State.ringReset State.flushEnabled HatSt.allRingsOff ringsOff
  rfl

end Sys2Proof.Machine
end

section
/-! PROOFS. Doorbells and ring configuration (O39): the way of a ring command to its ring, the stops, and the writes of HAT_RING_CFG. -/

namespace Sys2Proof.Machine

/-! The way of a ring command. -/

/-- The offset of a register of the rings, which is written on receipt by the rules of the rings (R375, R376). -/
def ringWay (off : Nat) : Bool :=
  off < 0x4000 && implemented off && !ownReg off && !safParam off && hatReg off && off != R.HAT_MGMT_SEL && off != R.HAT_KEEPALIVE && ringReg off

theorem ringWay_orTail : ∀ r < 16, ringWay (R.HAT_OR_TAIL r) = true ∧ keyMask (R.HAT_OR_TAIL r) [.rsv] = maskOf 31 16 := by decide +kernel
theorem ringWay_crHead : ∀ r < 16, ringWay (R.HAT_CR_HEAD r) = true ∧ keyMask (R.HAT_CR_HEAD r) [.rsv] = maskOf 31 16 := by decide +kernel
theorem ringWay_evHead : ringWay R.HAT_EV_HEAD = true ∧ keyMask R.HAT_EV_HEAD [.rsv] = maskOf 31 16 := by decide +kernel
theorem ringWay_ringCfg : ringWay R.HAT_RING_CFG = true := by decide +kernel

/-- A command that writes a ring register within its bits reaches the ring (R375, R376, R453). -/
theorem State.hatCmd_ring {h : Fin 4} {off : Nat} {w : Word} {s : State} (hserves : s.serves (.hatch h) = true) (hway : ringWay off = true)
    (hrsv : w &&& keyMask off [.rsv] = 0) : s.hatCmd h off w = s.ringWrite h off 0 w := by
  simp only [ringWay, Bool.and_eq_true, decide_eq_true_eq, Bool.not_eq_true', bne_iff_ne] at hway
  obtain ⟨⟨⟨⟨⟨⟨⟨hoff, himp⟩, hown⟩, hsaf⟩, hhat⟩, hsel⟩, hkeep⟩, hring⟩ := hway
  have hmod : off % 0x4000 = off := Nat.mod_eq_of_lt hoff
  have halias : aliasOf off = 0 := Nat.div_eq_of_lt hoff
  rw [State.hatCmd, if_pos hserves, State.regWrite_below _ _ _ _ (by omega), hmod, himp, hrsv, halias]
  simp only [Bool.not_true, Bool.false_eq_true, bne_self_eq_false, ne_eq, not_true_eq_false, false_and, if_false]
  unfold State.regPut State.hatWrite
  simp only [hown, hsaf, hhat, hsel, hkeep, hring, Bool.false_eq_true, if_false, if_true, true_or]

/-- A doorbell value fits its field, and has no reserved bit. -/
theorem bellWord {w : Word} (hw : w.toNat < 2 ^ 16) : w &&& maskOf 31 16 = 0 ∧ fld w 15 0 = w.toNat := by
  constructor
  · apply BitVec.eq_of_getLsbD_eq
    intro i hi
    rw [BitVec.getLsbD_and, maskOf_getLsbD _ _ _ (by decide), show (0 : Word).getLsbD i = false from BitVec.getLsbD_zero]
    by_cases h16 : 16 ≤ i
    · have hbit : w.getLsbD i = false := Nat.testBit_lt_two_pow (lt_of_lt_of_le hw (Nat.pow_le_pow_right (by decide) h16))
      rw [hbit, Bool.false_and]
    · simp [h16]
  · show w.toNat / 2 ^ 0 % 2 ^ 16 = w.toNat
    rw [Nat.pow_zero, Nat.div_one, Nat.mod_eq_of_lt hw]

section
variable {h : Fin 4} {w : Word} {s : State} (hserves : s.serves (.hatch h) = true) (hw : w.toNat < 2 ^ 16)
include hserves hw

theorem exec_orderDoorbell {r : Nat} (hr : r < 16) : exec (.orderDoorbell h r w) s = .next (s.orderDoorbell h r w.toNat) := by
  obtain ⟨hway, hrsv⟩ := ringWay_orTail r hr
  obtain ⟨hmask, hfld⟩ := bellWord hw
  show Host.Outcome.next (if r < 16 then _ else _) = _
  rw [if_pos hr, State.hatCmd_ring hserves hway (by rw [hrsv, hmask]), State.ringWrite]
  simp only [R.HAT_OR_TAIL, R.HAT_RING_BASE_LO, R.HAT_RING_BASE_HI, R.HAT_RING_CFG, R.HAT_EV_HEAD, aliasValue]
  rw [if_neg (by omega), if_neg (by omega), if_neg (by omega), if_neg (by omega), if_pos (by omega), hfld]
  congr 3
  omega

theorem exec_completionDoorbell {r : Nat} (hr : r < 16) :
    exec (.completionDoorbell h r w) s = .next (s.completionDoorbell h r w.toNat) := by
  obtain ⟨hway, hrsv⟩ := ringWay_crHead r hr
  obtain ⟨hmask, hfld⟩ := bellWord hw
  show Host.Outcome.next (if r < 16 then _ else _) = _
  rw [if_pos hr, State.hatCmd_ring hserves hway (by rw [hrsv, hmask]), State.ringWrite]
  simp only [R.HAT_OR_TAIL, R.HAT_CR_HEAD, R.HAT_RING_BASE_LO, R.HAT_RING_BASE_HI, R.HAT_RING_CFG, R.HAT_EV_HEAD, aliasValue]
  rw [if_neg (by omega), if_neg (by omega), if_neg (by omega), if_neg (by omega), if_neg (by omega), hfld]
  congr 3
  omega

theorem exec_eventDoorbell : exec (.eventDoorbell h w) s = .next (s.eventDoorbell h w.toNat) := by
  obtain ⟨hway, hrsv⟩ := ringWay_evHead
  obtain ⟨hmask, hfld⟩ := bellWord hw
  show Host.Outcome.next _ = _
  rw [State.hatCmd_ring hserves hway (by rw [hrsv, hmask])]
  exact congrArg (fun v => Host.Outcome.next (s.eventDoorbell h v)) hfld

end

theorem exec_ringCfgWrite {h : Fin 4} {w : Word} {s : State} (hserves : s.serves (.hatch h) = true) (hrsv : w &&& keyMask R.HAT_RING_CFG [.rsv] = 0) :
    exec (.ringCfgWrite h w) s = .next (s.ringCfgWrite h 0 w) := by
  show Host.Outcome.next _ = _
  rw [State.hatCmd_ring hserves ringWay_ringCfg hrsv]
  rfl

theorem exec_kick {h : Fin 4} {s : State} (hserves : s.serves (.hatch h) = true) : exec (.kick h) s = .next (s.kick h) := by
  have himp : implemented (R.HAT_KEEPALIVE % 0x4000) = true := by decide +kernel
  have hrsv : (1 : Word) &&& keyMask (R.HAT_KEEPALIVE % 0x4000) [.rsv] = 0 := by decide +kernel
  show Host.Outcome.next (s.hatCmd h R.HAT_KEEPALIVE 1) = _
  rw [State.hatCmd, if_pos hserves, State.regWrite_below _ _ _ _ (by decide), himp, hrsv]
  rfl

/-! Stops. -/

theorem RegsBut.hatCause_updHat (s : State) (h : Fin 4) (f : HatSt → HatSt) (b : Nat) :
    RegsBut [bankKey h.val R.HAT_CAUSE] s ((s.updHat h.val f).hatCause h b) :=
  RegsBut.trans (t := s.updHat h.val f) (.of_regs rfl) (State.hatCause_regsBut _ h b)

/-- Order ring r of Hatch h with other contents. -/
def State.putOr (s : State) (h : Fin 4) (r : Nat) (x : RingSt) : State := s.updHat h.val (fun a => { a with or_ := smSet {} a.or_ r x })

theorem State.or_putOr (s : State) (h : Fin 4) (r : Nat) (x : RingSt) (q : Nat) :
    smGet {} ((s.putOr h r x).hat h.val).or_ q = if q = r then x else smGet {} (s.hat h.val).or_ q := by
  rw [State.putOr, State.hat_updHat, if_pos rfl, smGet_smSet]

theorem State.or_hatCause (s : State) (h : Fin 4) (b : Nat) : ((s.hatCause h b).hat h.val).or_ = (s.hat h.val).or_ := by
  obtain ⟨p, hp, -⟩ := s.hat_hatCause h b h.val
  rw [hp]

theorem State.ev_hatCause (s : State) (h : Fin 4) (b : Nat) : ((s.hatCause h b).hat h.val).ev = (s.hat h.val).ev := by
  obtain ⟨p, hp, -⟩ := s.hat_hatCause h b h.val
  rw [hp]

/-- The value of a doorbell is out of its ring, or would make an order ring hold too many orders (R376). -/
def RingSt.bellBad (x : RingSt) (v : Nat) : Prop :=
  2 ^ x.sizeLog2 ≤ v ∨ 2 ^ x.sizeLog2 - 1 < x.held + (v + 2 ^ x.sizeLog2 - x.bell) % 2 ^ x.sizeLog2

section
variable {s : State} {h : Fin 4} {r v : Nat} (hen : (smGet {} (s.hat h.val).or_ r).enable = true)
  (hrun : (smGet {} (s.hat h.val).or_ r).stopped = false)
include hen hrun

theorem State.orderDoorbell_good (hv : ¬ (smGet {} (s.hat h.val).or_ r).bellBad v) :
    s.orderDoorbell h r v = s.putOr h r { smGet {} (s.hat h.val).or_ r with bell := v } :=
  (if_neg (by rw [hen, hrun]; exact Bool.false_ne_true)).trans (if_neg hv)

theorem State.orderDoorbell_bad (hv : (smGet {} (s.hat h.val).or_ r).bellBad v) :
    s.orderDoorbell h r v = (s.putOr h r (stopRing (smGet {} (s.hat h.val).or_ r) 1)).hatCause h 0 :=
  (if_neg (by rw [hen, hrun]; exact Bool.false_ne_true)).trans (if_pos hv)

end

section
variable {s : State} {h : Fin 4} {c v : Nat} (hen : (smGet {} (s.hat h.val).cr c).enable = true)
  (hrun : (smGet {} (s.hat h.val).cr c).stopped = false)
include hen hrun

theorem State.completionDoorbell_good (hv : v < 2 ^ (smGet {} (s.hat h.val).cr c).sizeLog2) :
    s.completionDoorbell h c v = s.putCr h c { smGet {} (s.hat h.val).cr c with bell := v } :=
  if_neg (by rw [hen, hrun, decide_eq_false (Nat.not_le_of_lt hv)]; exact Bool.false_ne_true)

theorem State.completionDoorbell_bad (hv : 2 ^ (smGet {} (s.hat h.val).cr c).sizeLog2 ≤ v) : s.completionDoorbell h c v = s.stopCr h c 1 :=
  if_pos (by rw [hen, hrun, decide_eq_true hv]; rfl)

end

/-- The event ring of Hatch h with other contents. -/
def State.putEv (s : State) (h : Fin 4) (x : RingSt) : State := s.updHat h.val (fun a => { a with ev := x })

theorem State.ev_putEv (s : State) (h : Fin 4) (x : RingSt) : ((s.putEv h x).hat h.val).ev = x := by
  rw [State.putEv, State.hat_updHat, if_pos rfl]

section
variable {s : State} {h : Fin 4} {v : Nat} (hen : (s.hat h.val).ev.enable = true) (hrun : (s.hat h.val).ev.stopped = false)
include hen hrun

theorem State.eventDoorbell_good (hv : v < 2 ^ (s.hat h.val).ev.sizeLog2) :
    s.eventDoorbell h v = s.putEv h { (s.hat h.val).ev with bell := v } :=
  if_neg (by rw [hen, hrun, decide_eq_false (Nat.not_le_of_lt hv)]; exact Bool.false_ne_true)

theorem State.eventDoorbell_bad (hv : 2 ^ (s.hat h.val).ev.sizeLog2 ≤ v) :
    s.eventDoorbell h v = (s.putEv h (stopRing (s.hat h.val).ev 1)).hatCause h 0 :=
  if_pos (by rw [hen, hrun, decide_eq_true hv]; rfl)

end

theorem State.cr_putCr (s : State) (h : Fin 4) (c : Nat) (x : RingSt) : smGet {} ((s.putCr h c x).hat h.val).cr c = x := by
  rw [State.putCr, State.hat_updHat, if_pos rfl, smGet_smSet, if_pos rfl]

/-- A completion ring that stops, and the order rings that name it (R378). -/
theorem State.stopCr_spec (s : State) (h : Fin 4) (c kind : Nat) :
    smGet {} ((s.stopCr h c kind).hat h.val).cr c = stopRing (smGet {} (s.hat h.val).cr c) kind ∧
    (∀ q < 16, (smGet {} (s.hat h.val).or_ q).enable = true → (smGet {} (s.hat h.val).or_ q).cr = c →
      (smGet {} ((s.stopCr h c kind).hat h.val).or_ q).stopped = true) ∧
    (s.stopCr h c kind).rb (bankKey h.val R.HAT_CAUSE) 0 = true := by
  obtain ⟨p, hp⟩ := s.hat_stopCr h c kind
  rw [hp]
  refine ⟨((s.hat h.val).crStopped_cr c kind c).trans (if_pos rfl), fun q hq hen hc => ?_, State.rb_hatCause _ h (by decide)⟩
  dsimp only [HatSt.crStopped]
  rw [smGet_ringsStopped, if_pos hq]
  exact RingSt.stoppedWith_stopped kind hen hc

/-! HAT_RING_CFG. -/

/-- A ring with the fields of a write of HAT_RING_CFG (R375). -/
def RingSt.configured (x : RingSt) (w : Word) : RingSt := { x with sizeLog2 := fld w 28 24, vector := fld w 21 16, cr := fld w 3 0 }

/-- A ring as it begins (R375). -/
def RingSt.begun (x : RingSt) : RingSt :=
  { x with enable := true, stopped := false, error := 0, index := 0, bell := 0, phase := true, reserved := 0 }

/-- A write of HAT_RING_CFG by the ring that HAT_RING_SEL names (R375, R401). -/
theorem State.ringCfgWrite_eq {s : State} {h : Fin 4} {kind r : Nat} (w : Word) (hsel : s.ringSel (.hatch h) = (kind, r)) :
    s.ringCfgWrite h 0 w =
      if fld w 28 24 < 6 ∨ 16 < fld w 28 24 then s.logErr (.hatch h) 7 R.HAT_RING_CFG
      else if ((s.hat h.val).ring kind r).enable ∧ ((s.hat h.val).ring kind r).configured w ≠ (s.hat h.val).ring kind r then
        s.logErr (.hatch h) 7 R.HAT_RING_CFG
      else if flag w 31 && !((s.hat h.val).ring kind r).enable then
        if kind = 0 && !(smGet {} (s.hat h.val).cr (fld w 3 0)).enable then s.logErr (.hatch h) 7 R.HAT_RING_CFG
        else if kind = 0 && (smGet {} (s.hat h.val).cr (fld w 3 0)).stopped then
          (s.updHat h.val (fun a => a.setRing kind r (stopRing (((s.hat h.val).ring kind r).configured w).begun
            (smGet {} (s.hat h.val).cr (fld w 3 0)).error))).hatCause h 0
        else s.updHat h.val (fun a => a.setRing kind r (((s.hat h.val).ring kind r).configured w).begun)
      else if !flag w 31 && ((s.hat h.val).ring kind r).enable then
        if kind = 1 && ((s.hat h.val).named r || ((s.hat h.val).ring kind r).reserved ≠ 0) then s.logErr (.hatch h) 7 R.HAT_RING_CFG
        else (if kind = 0 then s.flushRing h r else s).updHat h.val (fun a => a.setRing kind r { a.ring kind r with enable := false })
      else s.updHat h.val (fun a => a.setRing kind r (((s.hat h.val).ring kind r).configured w)) := by
  unfold State.ringCfgWrite
  rw [hsel]
  rfl

section
variable {s : State} {h : Fin 4} {kind r : Nat} {w : Word} (hsel : s.ringSel (.hatch h) = (kind, r))
include hsel

/-- A ring that is enabled, whose completion ring, if it has one, has not stopped (R375). -/
theorem State.ringCfgWrite_enable (hoff : ((s.hat h.val).ring kind r).enable = false) (hw : flag w 31 = true) (hlo : 6 ≤ fld w 28 24)
    (hhi : fld w 28 24 ≤ 16) (hcr : kind = 0 → (smGet {} (s.hat h.val).cr (fld w 3 0)).enable = true ∧
      (smGet {} (s.hat h.val).cr (fld w 3 0)).stopped = false) :
    s.ringCfgWrite h 0 w = s.updHat h.val (fun a => a.setRing kind r (((s.hat h.val).ring kind r).configured w).begun) := by
  rw [State.ringCfgWrite_eq w hsel, if_neg (by omega), if_neg (by simp [hoff]), if_pos (by simp [hoff, hw])]
  rw [if_neg (by simpa using fun hk => (hcr hk).1), if_neg (by simpa using fun hk => (hcr hk).2)]

/-- An order ring enabled onto a completion ring that has stopped (R378). -/
theorem State.ringCfgWrite_enableStopped (hkind : kind = 0) (hoff : ((s.hat h.val).ring kind r).enable = false) (hw : flag w 31 = true)
    (hlo : 6 ≤ fld w 28 24) (hhi : fld w 28 24 ≤ 16) (hcr : (smGet {} (s.hat h.val).cr (fld w 3 0)).enable = true)
    (hstop : (smGet {} (s.hat h.val).cr (fld w 3 0)).stopped = true) :
    s.ringCfgWrite h 0 w = (s.updHat h.val (fun a => a.setRing kind r (stopRing (((s.hat h.val).ring kind r).configured w).begun
      (smGet {} (s.hat h.val).cr (fld w 3 0)).error))).hatCause h 0 := by
  rw [State.ringCfgWrite_eq w hsel, if_neg (by omega), if_neg (by simp [hoff]), if_pos (by simp [hoff, hw]), if_neg (by rw [hcr]; simp),
    if_pos (by rw [hstop]; simp [hkind])]

/-- A completion ring that no enabled order ring names and that has no reserved entry is disabled (R375). -/
theorem State.ringCfgWrite_disable (hkind : kind = 1) (hon : ((s.hat h.val).ring kind r).enable = true) (hw : flag w 31 = false)
    (hlo : 6 ≤ fld w 28 24) (hhi : fld w 28 24 ≤ 16) (hsame : ((s.hat h.val).ring kind r).configured w = (s.hat h.val).ring kind r)
    (hnamed : (s.hat h.val).named r = false) (hres : ((s.hat h.val).ring kind r).reserved = 0) :
    s.ringCfgWrite h 0 w = s.updHat h.val (fun a => a.setRing kind r { a.ring kind r with enable := false }) := by
  rw [State.ringCfgWrite_eq w hsel, if_neg (by omega), if_neg (by simp [hsame]), if_neg (by simp [hw]), if_pos (by simp [hw, hon]),
    if_neg (by simp [hnamed, hres]), if_neg (by omega)]

/-- An order ring is not enabled onto a completion ring that is disabled (R375). -/
theorem State.ringCfgWrite_refusedEnable (hkind : kind = 0) (hoff : ((s.hat h.val).ring kind r).enable = false) (hw : flag w 31 = true)
    (hcr : (smGet {} (s.hat h.val).cr (fld w 3 0)).enable = false) : s.ringCfgWrite h 0 w = s.logErr (.hatch h) 7 R.HAT_RING_CFG := by
  rw [State.ringCfgWrite_eq w hsel]
  split
  · rfl
  · rw [if_neg (by simp [hoff]), if_pos (by simp [hoff, hw]), if_pos (by rw [hcr]; simp [hkind])]

/-- A completion ring that is named or has reserved entries is not disabled (R375). -/
theorem State.ringCfgWrite_refusedDisable (hkind : kind = 1) (hon : ((s.hat h.val).ring kind r).enable = true) (hw : flag w 31 = false)
    (huse : (s.hat h.val).named r = true ∨ ((s.hat h.val).ring kind r).reserved ≠ 0) :
    s.ringCfgWrite h 0 w = s.logErr (.hatch h) 7 R.HAT_RING_CFG := by
  rw [State.ringCfgWrite_eq w hsel]
  split
  · rfl
  · split
    · rfl
    · rw [if_neg (by simp [hw]), if_pos (by simp [hw, hon]), if_pos (by simpa [hkind] using huse)]

/-- An enabled ring keeps its size (R375). -/
theorem State.ringCfgWrite_refusedSize (hon : ((s.hat h.val).ring kind r).enable = true)
    (hsize : fld w 28 24 ≠ ((s.hat h.val).ring kind r).sizeLog2) : s.ringCfgWrite h 0 w = s.logErr (.hatch h) 7 R.HAT_RING_CFG := by
  rw [State.ringCfgWrite_eq w hsel]
  split
  · rfl
  · exact if_pos ⟨hon, fun he => hsize (congrArg RingSt.sizeLog2 he)⟩

end

/-! RING_RESET. -/

/-- A counted error changes the pending vectors of its Hatch, and no other part of a Hatch (R399). -/
theorem State.hat_logErr (s : State) (h : Fin 4) (kind off g : Nat) :
    ∃ p, (s.logErr (.hatch h) kind off).hat g = { s.hat g with msixPending := p } := by
  obtain ⟨addr, hlog⟩ := s.logErr_hatch h kind off
  obtain ⟨p, hp, -⟩ := (s.hatLogged h kind addr).hat_hatCause h 2 g
  have hlogged : (s.hatLogged h kind addr).hat g = s.hat g := by
    rw [State.hat, keep_hats (s := s) (by simp [State.hatLogged]), ← State.hat]
  exact ⟨p, by rw [hlog, hp, hlogged]⟩

theorem State.logErr_hatch_frame (s : State) (h : Fin 4) (kind off : Nat) : Frame [.regs, .hats, .out] s (s.logErr (.hatch h) kind off) := by
  obtain ⟨addr, hlog⟩ := s.logErr_hatch h kind off
  rw [hlog]
  simp [State.hatLogged]

/-- The state in which a write of HAT_CTRL resets the rings: HAT_CTRL holds v, and no change of it is pending (R401). -/
def State.ctrlPut (s : State) (h : Fin 4) (v : Word) : State :=
  State.setReg { s with regs := { s.regs with pend := dropImage (bankKey h.val R.HAT_CTRL) s.regs.pend } } (bankKey h.val R.HAT_CTRL) v

theorem State.ctrlPut_frame (s : State) (h : Fin 4) (v : Word) : Frame [.regs] s (s.ctrlPut h v) := by simp [State.ctrlPut]

theorem State.hat_ctrlPut (s : State) (h : Fin 4) (v : Word) (g : Nat) : (s.ctrlPut h v).hat g = s.hat g := by
  rw [State.hat, keep_hats ((s.ctrlPut_frame h v).mono (by decide)), ← State.hat]

/-- A write of HAT_CTRL with RING_RESET resets the rings (R401). -/
theorem State.regPut_ringReset (s : State) {h : Fin 4} {w : Word} (hw : flag w 31 = true) :
    ∃ v, s.regPut (.hatch h) R.HAT_CTRL 0 w 0 = (s.ctrlPut h v).ringReset h := by
  have hown : ownReg R.HAT_CTRL = false := by decide
  have hsaf : safParam R.HAT_CTRL = false := by decide
  have hhat : hatReg R.HAT_CTRL = true := by decide
  have hring : ringReg R.HAT_CTRL = false := by decide
  unfold State.regPut State.hatWrite State.hatCtrlWrite
  extract_lets key h' key' v
  rw [hown, hsaf, hhat, hring, if_neg Bool.false_ne_true, if_neg Bool.false_ne_true, if_pos rfl, if_neg (by decide), if_neg (by decide), if_pos rfl,
    if_pos ⟨rfl, hw⟩]
  exact ⟨v, rfl⟩

/-- RING_RESET resets the rings in a state whose Hatch differs from the present one in its pending vectors at most. -/
theorem exec_ringReset {h : Fin 4} {s : State} (hserves : s.serves (.hatch h) = true) : ∃ (u : State) (p : DWord),
    u.hat h.val = { s.hat h.val with msixPending := p } ∧ Frame [.regs, .hats, .out] s u ∧ exec (.ringReset h) s = .next (u.ringReset h) := by
  have himp : implemented (R.HAT_CTRL % 0x4000) = true := by decide +kernel
  have hflag : flag (setFlag (s.aliasBase (bankKey h.val R.HAT_CTRL)) 31 true) 31 = true := flag_setFld_same _ _ _ (by decide)
  have hreset (y : State) (p : DWord) (hy : y.hat h.val = { s.hat h.val with msixPending := p }) (hf : Frame [.regs, .hats, .out] s y) :
      ∃ (u : State) (p : DWord), u.hat h.val = { s.hat h.val with msixPending := p } ∧ Frame [.regs, .hats, .out] s u ∧
        y.regPut (.hatch h) R.HAT_CTRL 0 (setFlag (s.aliasBase (bankKey h.val R.HAT_CTRL)) 31 true) 0 = u.ringReset h := by
    obtain ⟨v, hv⟩ := y.regPut_ringReset (h := h) hflag
    exact ⟨y.ctrlPut h v, p, (y.hat_ctrlPut h v _).trans hy, hf.trans ((y.ctrlPut_frame h v).mono (by decide)), hv⟩
  show ∃ (u : State) (p : DWord), _ ∧ _ ∧ Host.Outcome.next (s.hatCmd h R.HAT_CTRL _) = _
  rw [State.hatCmd, if_pos hserves, State.regWrite_below _ _ _ _ (by decide), himp]
  simp only [Bool.not_true, Bool.false_eq_true, if_false, show aliasOf R.HAT_CTRL = 0 from rfl, ne_eq, not_true_eq_false, false_and,
    show R.HAT_CTRL % 0x4000 = R.HAT_CTRL from rfl]
  split
  · obtain ⟨p, hp⟩ := s.hat_logErr h 1 R.HAT_CTRL h.val
    obtain ⟨u, q, hu, hf, hr⟩ := hreset (s.logErr (.hatch h) 1 R.HAT_CTRL) p hp (s.logErr_hatch_frame h 1 R.HAT_CTRL)
    exact ⟨u, q, hu, hf, congrArg Host.Outcome.next hr⟩
  · obtain ⟨u, q, hu, hf, hr⟩ := hreset s (s.hat h.val).msixPending rfl (by simp)
    exact ⟨u, q, hu, hf, congrArg Host.Outcome.next hr⟩

/-- The state after the rings of Hatch h are reset (R401). -/
theorem State.ringReset_spec (s : State) (h : Fin 4) : ((s.ringReset h).hat h.val).ev = { (s.hat h.val).ev with enable := false } ∧
    (∀ r < 16, (smGet {} ((s.ringReset h).hat h.val).or_ r).enable = false ∧ (smGet {} ((s.ringReset h).hat h.val).cr r).enable = false) ∧
    ∀ f ∈ ((s.ringReset h).hat h.val).fetched, f ∈ (s.hat h.val).fetched ∧ (f.ring < 16 → (smGet {} (s.hat h.val).or_ f.ring).enable = false) := by
  obtain ⟨hev, -, hfetched⟩ := s.flushEnabled_view h 16
  have hhat : (s.ringReset h).hat h.val = ((s.flushEnabled h 16).hat h.val).allRingsOff := by
    rw [State.ringReset_eq, State.hat_updHat, if_pos rfl]
  rw [hhat, ← hev]
  generalize (s.flushEnabled h 16).hat h.val = a at hfetched
  exact ⟨rfl, fun r hr => ⟨ringsOff_enable a.or_ hr, ringsOff_enable a.cr hr⟩, hfetched⟩

/-! The clauses of O39. -/

/-- The outcome of an order doorbell by its value (R376, R378). -/
theorem State.orderDoorbell_spec {s : State} {h : Fin 4} {r : Nat} (v : Nat) (hen : (smGet {} (s.hat h.val).or_ r).enable = true)
    (hrun : (smGet {} (s.hat h.val).or_ r).stopped = false) :
    (¬ (smGet {} (s.hat h.val).or_ r).bellBad v →
      smGet {} ((s.orderDoorbell h r v).hat h.val).or_ r = { smGet {} (s.hat h.val).or_ r with bell := v } ∧ Frame [.hats] s (s.orderDoorbell h r v)) ∧
    ((smGet {} (s.hat h.val).or_ r).bellBad v →
      smGet {} ((s.orderDoorbell h r v).hat h.val).or_ r = stopRing (smGet {} (s.hat h.val).or_ r) 1 ∧
        (s.orderDoorbell h r v).rb (bankKey h.val R.HAT_CAUSE) 0 = true) ∧
    (∀ q, q ≠ r → smGet {} ((s.orderDoorbell h r v).hat h.val).or_ q = smGet {} (s.hat h.val).or_ q) ∧
    RegsBut [bankKey h.val R.HAT_CAUSE] s (s.orderDoorbell h r v) := by
  by_cases hv : (smGet {} (s.hat h.val).or_ r).bellBad v
  · rw [State.orderDoorbell_bad hen hrun hv, State.or_hatCause]
    refine ⟨fun hgood => absurd hv hgood, fun _ => ⟨?_, State.rb_hatCause _ h (by decide)⟩, fun q hq => ?_, RegsBut.hatCause_updHat s h _ 0⟩
    · rw [State.or_putOr, if_pos rfl]
    · rw [State.or_putOr, if_neg hq]
  · rw [State.orderDoorbell_good hen hrun hv]
    refine ⟨fun _ => ⟨?_, by simp [State.putOr]⟩, fun hbad => absurd hbad hv, fun q hq => ?_, .of_regs rfl⟩
    · rw [State.or_putOr, if_pos rfl]
    · rw [State.or_putOr, if_neg hq]

/-- A ring with the fields of a write of HAT_RING_CFG that are those it has (R375). -/
theorem RingSt.configured_same {x : RingSt} {w : Word} (hsize : fld w 28 24 = x.sizeLog2) (hvec : fld w 21 16 = x.vector)
    (hcr : fld w 3 0 = x.cr) : x.configured w = x := by
  rw [RingSt.configured, hsize, hvec, hcr]

theorem HatSt.ring_setRing (a : HatSt) (kind r : Nat) (x : RingSt) : (a.setRing kind r x).ring kind r = x := by
  unfold HatSt.setRing HatSt.ring
  split
  · rfl
  · split
    · rw [smGet_smSet, if_pos rfl]
    · rw [smGet_smSet, if_pos rfl]

theorem HatSt.setRing_or (a : HatSt) {kind : Nat} (r : Nat) (x : RingSt) (hk : kind = 1 ∨ kind = 2) : (a.setRing kind r x).or_ = a.or_ := by
  rcases hk with rfl | rfl <;> rfl

/-- A completion doorbell by its value (R376, R378). -/
theorem State.completionDoorbell_spec {s : State} {h : Fin 4} {c : Nat} (v : Nat) (hen : (smGet {} (s.hat h.val).cr c).enable = true)
    (hrun : (smGet {} (s.hat h.val).cr c).stopped = false) :
    (v < 2 ^ (smGet {} (s.hat h.val).cr c).sizeLog2 →
      smGet {} ((s.completionDoorbell h c v).hat h.val).cr c = { smGet {} (s.hat h.val).cr c with bell := v } ∧
        Frame [.hats] s (s.completionDoorbell h c v)) ∧
    (2 ^ (smGet {} (s.hat h.val).cr c).sizeLog2 ≤ v →
      smGet {} ((s.completionDoorbell h c v).hat h.val).cr c = stopRing (smGet {} (s.hat h.val).cr c) 1 ∧
      (∀ q < 16, (smGet {} (s.hat h.val).or_ q).enable = true → (smGet {} (s.hat h.val).or_ q).cr = c →
        (smGet {} ((s.completionDoorbell h c v).hat h.val).or_ q).stopped = true) ∧
      (s.completionDoorbell h c v).rb (bankKey h.val R.HAT_CAUSE) 0 = true) ∧
    RegsBut [bankKey h.val R.HAT_CAUSE] s (s.completionDoorbell h c v) := by
  rcases Nat.lt_or_ge v (2 ^ (smGet {} (s.hat h.val).cr c).sizeLog2) with hv | hv
  · rw [State.completionDoorbell_good hen hrun hv]
    exact ⟨fun _ => ⟨State.cr_putCr _ _ _ _, by simp [State.putCr]⟩, fun hge => absurd hv (Nat.not_lt_of_ge hge), .of_regs rfl⟩
  · rw [State.completionDoorbell_bad hen hrun hv]
    exact ⟨fun hlt => absurd hlt (Nat.not_lt_of_ge hv), fun _ => s.stopCr_spec h c 1, RegsBut.hatCause_updHat s h _ 0⟩

/-- An event doorbell by its value (R376, R378). -/
theorem State.eventDoorbell_spec {s : State} {h : Fin 4} (v : Nat) (hen : (s.hat h.val).ev.enable = true)
    (hrun : (s.hat h.val).ev.stopped = false) :
    (v < 2 ^ (s.hat h.val).ev.sizeLog2 →
      ((s.eventDoorbell h v).hat h.val).ev = { (s.hat h.val).ev with bell := v } ∧ Frame [.hats] s (s.eventDoorbell h v)) ∧
    (2 ^ (s.hat h.val).ev.sizeLog2 ≤ v → ((s.eventDoorbell h v).hat h.val).ev = stopRing (s.hat h.val).ev 1 ∧
      (s.eventDoorbell h v).rb (bankKey h.val R.HAT_CAUSE) 0 = true) ∧
    RegsBut [bankKey h.val R.HAT_CAUSE] s (s.eventDoorbell h v) := by
  rcases Nat.lt_or_ge v (2 ^ (s.hat h.val).ev.sizeLog2) with hv | hv
  · rw [State.eventDoorbell_good hen hrun hv]
    exact ⟨fun _ => ⟨State.ev_putEv _ _ _, by simp [State.putEv]⟩, fun hge => absurd hv (Nat.not_lt_of_ge hge), .of_regs rfl⟩
  · rw [State.eventDoorbell_bad hen hrun hv]
    exact ⟨fun hlt => absurd hlt (Nat.not_lt_of_ge hv), fun _ => ⟨(State.ev_hatCause _ h 0).trans (State.ev_putEv _ _ _), State.rb_hatCause _ h (by decide)⟩,
      RegsBut.hatCause_updHat s h _ 0⟩

/-- A ring of Hatch h with other contents. -/
def State.putRing (s : State) (h : Fin 4) (kind r : Nat) (x : RingSt) : State := s.updHat h.val (·.setRing kind r x)

theorem State.hat_putRing (s : State) (h : Fin 4) (kind r : Nat) (x : RingSt) : (s.putRing h kind r x).hat h.val = (s.hat h.val).setRing kind r x := by
  rw [State.putRing, State.hat_updHat, if_pos rfl]

theorem State.hat_putRing_ne (s : State) {h : Fin 4} (kind r : Nat) (x : RingSt) {g : Nat} (hg : g ≠ h.val) :
    (s.putRing h kind r x).hat g = s.hat g := by
  rw [State.putRing, State.hat_updHat, if_neg hg]

/-- An order ring that is enabled, with its completion ring (R375, R378). -/
theorem State.ringCfgWrite_enableOrder {s : State} {h : Fin 4} {r : Nat} {w : Word} (hsel : s.ringSel (.hatch h) = (0, r))
    (hoff : (smGet {} (s.hat h.val).or_ r).enable = false) (hw : flag w 31 = true) (hlo : 6 ≤ fld w 28 24) (hhi : fld w 28 24 ≤ 16)
    (hcr : (smGet {} (s.hat h.val).cr (fld w 3 0)).enable = true) :
    smGet {} ((s.ringCfgWrite h 0 w).hat h.val).or_ r = { ((smGet {} (s.hat h.val).or_ r).configured w).begun with
        stopped := (smGet {} (s.hat h.val).cr (fld w 3 0)).stopped
        error := if (smGet {} (s.hat h.val).cr (fld w 3 0)).stopped then (smGet {} (s.hat h.val).cr (fld w 3 0)).error else 0 } ∧
      ((s.ringCfgWrite h 0 w).hat h.val).cr = (s.hat h.val).cr ∧ (∀ g, g ≠ h.val → (s.ringCfgWrite h 0 w).hat g = s.hat g) ∧
      ((smGet {} (s.hat h.val).cr (fld w 3 0)).stopped = false → Frame [.hats] s (s.ringCfgWrite h 0 w)) ∧
      ((smGet {} (s.hat h.val).cr (fld w 3 0)).stopped = true →
        (s.ringCfgWrite h 0 w).rb (bankKey h.val R.HAT_CAUSE) 0 = true ∧ Frame [.regs, .hats, .out] s (s.ringCfgWrite h 0 w)) := by
  have hor (x : RingSt) : smGet {} ((s.hat h.val).setRing 0 r x).or_ r = x := HatSt.ring_setRing _ 0 r x
  cases hstop : (smGet {} (s.hat h.val).cr (fld w 3 0)).stopped with
  | false =>
    have ht : s.ringCfgWrite h 0 w = s.putRing h 0 r ((smGet {} (s.hat h.val).or_ r).configured w).begun :=
      State.ringCfgWrite_enable hsel hoff hw hlo hhi fun _ => ⟨hcr, hstop⟩
    rw [ht, State.hat_putRing, hor]
    exact ⟨rfl, rfl, fun g hg => s.hat_putRing_ne _ _ _ hg, fun _ => by simp [State.putRing], nofun⟩
  | true =>
    have ht : s.ringCfgWrite h 0 w = (s.putRing h 0 r (stopRing ((smGet {} (s.hat h.val).or_ r).configured w).begun
        (smGet {} (s.hat h.val).cr (fld w 3 0)).error)).hatCause h 0 := State.ringCfgWrite_enableStopped hsel rfl hoff hw hlo hhi hcr hstop
    rw [ht]
    obtain ⟨p, hp, -⟩ := State.hat_hatCause (s.putRing h 0 r (stopRing ((smGet {} (s.hat h.val).or_ r).configured w).begun
        (smGet {} (s.hat h.val).cr (fld w 3 0)).error)) h 0 h.val
    rw [hp, State.hat_putRing, hor]
    refine ⟨rfl, rfl, fun g hg => ?_, nofun, fun _ => ⟨State.rb_hatCause _ h (by decide), by simp [State.putRing]⟩⟩
    rw [State.hat_hatCause_ne _ _ hg, State.hat_putRing_ne _ _ _ _ hg]

/-- Settles O39: each doorbell by its value, each write of HAT_RING_CFG by the ring it names, and the reset of the rings. -/
theorem ringsAndDoorbells : Obligations.RingsAndDoorbells := by
  refine ⟨?order, ?completion, ?event, fun h s hserves => ?kick,
    fun h w s hserves hrsv hkind hoff hflag hlo hhi hcr => ?enableOrder,
    fun h w kind r x s hserves hrsv hsel hkind hx hflag hoff hlo hhi => ?enable,
    fun h w r x s hserves hrsv hsel hx hflag hon hlo hhi hsize hvec hcr hnamed hres => ?disable,
    fun h w s hserves hrsv hkind hoff hflag hcr => ?refusedEnable,
    fun h w s hserves hrsv hkind hon hflag huse => ?refusedDisable,
    fun h w s hserves hrsv hon hsize => ?refusedSize, fun h s hserves => ?reset⟩
  case order =>
    intro h r w s hserves hr hw x hen hrun
    obtain ⟨hgood, hbad, hother, hbut⟩ := State.orderDoorbell_spec w.toNat hen hrun
    exact ⟨_, exec_orderDoorbell hserves hw hr, fun hlt hle => hgood fun hv => hv.elim (Nat.not_le_of_lt hlt) (Nat.not_lt_of_le hle), hbad, hother,
      hbut, by simp⟩
  case completion =>
    intro h r w s hserves hr hw x hen hrun
    obtain ⟨hgood, hbad, hbut⟩ := State.completionDoorbell_spec w.toNat hen hrun
    exact ⟨_, exec_completionDoorbell hserves hw hr, hgood, hbad, hbut, by simp⟩
  case event =>
    intro h w s hserves hw x hen hrun
    obtain ⟨hgood, hbad, hbut⟩ := State.eventDoorbell_spec w.toNat hen hrun
    exact ⟨_, exec_eventDoorbell hserves hw, hgood, hbad, hbut, by simp⟩
  case kick =>
    refine ⟨_, exec_kick hserves, ?_, fun g hg => ?_, by simp⟩
    · rw [State.kick, State.hat_updHat, if_pos rfl]
    · rw [State.kick, State.hat_updHat, if_neg hg]
  case enable =>
    rw [hx] at hoff
    have ht : s.ringCfgWrite h 0 w = s.putRing h kind r (((s.hat h.val).ring kind r).configured w).begun :=
      State.ringCfgWrite_enable hsel hoff hflag hlo hhi (by omega)
    refine ⟨_, exec_ringCfgWrite hserves hrsv, ?_⟩
    rw [ht, State.hat_putRing, HatSt.ring_setRing, hx]
    exact ⟨rfl, HatSt.setRing_or _ _ _ hkind, fun g hg => s.hat_putRing_ne _ _ _ hg, by simp [State.putRing]⟩
  case disable =>
    rw [hx] at hon hlo hhi hsize hvec hcr hres
    have ht : s.ringCfgWrite h 0 w = s.updHat h.val (fun a => a.setRing 1 r { a.ring 1 r with enable := false }) :=
      State.ringCfgWrite_disable hsel rfl hon hflag (by omega) (by omega) (RingSt.configured_same hsize hvec hcr) hnamed hres
    refine ⟨_, exec_ringCfgWrite hserves hrsv, ?_⟩
    rw [ht, State.hat_updHat, if_pos rfl, hx]
    refine ⟨HatSt.ring_setRing _ 1 r _, rfl, fun g hg => ?_, by simp⟩
    rw [State.hat_updHat, if_neg hg]
  case enableOrder =>
    have hsel : s.ringSel (.hatch h) = (0, (s.ringSel (.hatch h)).2) := Prod.ext hkind rfl
    exact ⟨_, exec_ringCfgWrite hserves hrsv, State.ringCfgWrite_enableOrder hsel hoff hflag hlo hhi hcr⟩
  case refusedEnable =>
    have hsel : s.ringSel (.hatch h) = (0, (s.ringSel (.hatch h)).2) := Prod.ext hkind rfl
    rw [exec_ringCfgWrite hserves hrsv, State.ringCfgWrite_refusedEnable hsel rfl hoff hflag hcr]
  case refusedDisable =>
    have hsel : s.ringSel (.hatch h) = (1, (s.ringSel (.hatch h)).2) := Prod.ext hkind rfl
    rw [exec_ringCfgWrite hserves hrsv, State.ringCfgWrite_refusedDisable hsel rfl hon hflag huse]
  case refusedSize =>
    rw [exec_ringCfgWrite hserves hrsv, State.ringCfgWrite_refusedSize rfl hon hsize]
  case reset =>
    obtain ⟨u, p, hu, hf, hexec⟩ := exec_ringReset hserves
    obtain ⟨hev, hrings, hfetched⟩ := u.ringReset_spec h
    rw [hu] at hev hfetched
    exact ⟨_, hexec, hev, hrings, hfetched, by simpa using hf⟩

end Sys2Proof.Machine
end

section
/-! PROOFS. Order fetching (O40): reads of descriptors that end, and writes to BAR2. -/

namespace Sys2Proof.Machine

/-! Errors of a link. -/

theorem State.hat_emit (s : State) (o : BusOut) (g : Nat) : (s.emit o).hat g = s.hat g := rfl

/-- An error of Hatch h shows in its status, and is reported unless it is masked (R400). -/
theorem State.hat_aerError (s : State) (h : Fin 4) (b g : Nat) : (s.aerError h b).hat g =
    if g = h.val then { s.hat h.val with aer := (s.hat h.val).aer ||| BitVec.ofNat 32 (2 ^ b) } else s.hat g := by
  have hemit : (s.aerError h b).hat g = (s.updHat h.val (fun a => { a with aer := a.aer ||| BitVec.ofNat 32 (2 ^ b) })).hat g := by
    unfold State.aerError
    extract_lets c u
    split <;> rfl
  rw [hemit, State.hat_updHat]

theorem State.out_aerError (s : State) (h : Fin 4) (b : Nat) : (s.aerError h b).out =
    s.out ++ (if flag (s.hat h.val).pcie.aerMask b then [] else [.errorReport h b (flag (s.hat h.val).pcie.aerSeverity b)]) := by
  unfold State.aerError
  extract_lets c u
  split
  · exact (List.append_nil _).symm
  · rfl

/-! Reads of descriptors. -/

/-- Two changes of one Hatch, one after the other. -/
theorem State.hat_updHat_updHat (s : State) (h : Nat) (f g : HatSt → HatSt) (k : Nat) :
    ((s.updHat h f).updHat h g).hat k = if k = h then g (f (s.hat h)) else s.hat k := by
  rw [State.hat_updHat, State.hat_updHat, State.hat_updHat, if_pos rfl]
  split <;> rfl

/-- The oldest read of ring r is the first of all, where that is one of ring r. -/
theorem reads_find? (r i c : Nat) (rest : List (Nat × Nat × Nat)) :
    ((r, i, c) :: rest).find? (fun x => x.1 = r) = some (r, i, c) ∧ ((r, i, c) :: rest).erase (r, i, c) = rest := by
  simp

/-- A Hatch whose oldest read x of ring r has ended (R378). -/
def HatSt.readEnded (a : HatSt) (x : Nat × Nat × Nat) : HatSt := { a with reads := a.reads.erase x }

/-- A Hatch with an order fetched by the read x of ring r (R378, R380). -/
def HatSt.orderFetched (a : HatSt) (r : Nat) (x : Nat × Nat × Nat) (ws : List DWord) (due : Epoch) : HatSt :=
  { a with
    fetched := a.fetched ++ [⟨a.fetchSeq, r, x.2.1, ws, due⟩], fetchSeq := a.fetchSeq + 1
    openOrders := a.openOrders ++ [⟨a.fetchSeq, r, x.2.1, rec64 (ws.getD 0 0) 31 16, some x.2.2⟩] }

/-- A Hatch whose read x of ring r has failed: the ring stops, and the reserved entry is given back (R378). -/
def HatSt.readFailed (a : HatSt) (r : Nat) (x : Nat × Nat × Nat) : HatSt :=
  { a with or_ := smUpd {} a.or_ r (stopRing · 2), cr := smUpd {} a.cr x.2.2 (fun y => { y with reserved := y.reserved - 1 }) }

/-- The state after the read x of ring r has failed, before its error (R378). -/
def State.readFailed (s : State) (h : Fin 4) (r : Nat) (x : Nat × Nat × Nat) : State :=
  (s.updHat h.val (HatSt.readEnded · x)).updHat h.val (HatSt.readFailed · r x)

theorem State.readFailed_frame (s : State) (h : Fin 4) (r : Nat) (x : Nat × Nat × Nat) : Frame [.hats] s (s.readFailed h r x) := by
  simp [State.readFailed]

theorem State.hat_readFailed (s : State) (h : Fin 4) (r : Nat) (x : Nat × Nat × Nat) :
    (s.readFailed h r x).hat h.val = ((s.hat h.val).readEnded x).readFailed r x := (State.hat_updHat_updHat _ _ _ _ _).trans (if_pos rfl)

/-- The error that a failed read shows in the status of its Hatch (R400). -/
def State.readError (s : State) (h : Fin 4) : ReadFail → State
  | .error => s
  | .timeout => s.aerError h 14
  | .poisoned => s.aerError h 12

/-- The error status of a Hatch after a failed read (R400). -/
def aerAfter (aer : Word) : ReadFail → Word
  | .error => aer
  | .timeout => aer ||| BitVec.ofNat 32 (2 ^ 14)
  | .poisoned => aer ||| BitVec.ofNat 32 (2 ^ 12)

theorem State.hat_readError (s : State) (h : Fin 4) (how : ReadFail) :
    (s.readError h how).hat h.val = { s.hat h.val with aer := aerAfter (s.hat h.val).aer how } := by
  cases how with
  | error => rfl
  | timeout => exact (s.hat_aerError h 14 h.val).trans (if_pos rfl)
  | poisoned => exact (s.hat_aerError h 12 h.val).trans (if_pos rfl)

theorem State.readError_regs (s : State) (h : Fin 4) (how : ReadFail) : (s.readError h how).regs = s.regs := by
  cases how <;> exact keep_regs (by simp [State.readError])

theorem State.readError_frame (s : State) (h : Fin 4) (how : ReadFail) : Frame [.hats, .out] s (s.readError h how) := by
  cases how <;> simp [State.readError]

section
variable {h : Fin 4} {r : Nat} {x : Nat × Nat × Nat} {s : State} (hfind : (s.hat h.val).reads.find? (fun x => x.1 = r) = some x)
include hfind

/-- A read that brings its words makes the order due at a boundary (R380). -/
theorem exec_descriptorReadDone_words (ws : List DWord) (ns : Nat) (hcnt : s.sys.counting = true) :
    exec (.descriptorReadDone h r (.words ws) ns) s = .next ((s.updHat h.val (HatSt.readEnded · x)).updHat h.val
      (HatSt.orderFetched · r x ws (if ns + 32 < s.epNs then s.sys.epoch + 1 else s.sys.epoch + 2))) := by
  show execDescriptorReadDone h r (.words ws) ns s = _
  unfold execDescriptorReadDone
  extract_lets a
  rw [show a.reads.find? (fun x => x.1 = r) = some x from hfind]
  dsimp only
  rw [if_neg (show ¬ (s.updHat h.val _).sys.counting = false by simp [hcnt])]
  rfl

/-- A failed read stops its ring (R378, R400). -/
theorem exec_descriptorReadDone_failed (how : ReadFail) (ns : Nat) : exec (.descriptorReadDone h r (.failed how) ns) s =
    .next (((s.readFailed h r x).readError h how).hatCause h 0) := by
  show execDescriptorReadDone h r (.failed how) ns s = _
  unfold execDescriptorReadDone
  extract_lets a
  rw [show a.reads.find? (fun x => x.1 = r) = some x from hfind]
  cases how <;> rfl

end

/-! Writes to BAR2. -/

/-- The word of HAT_ERR_ADDR for an offset of BAR2 (R399). -/
theorem bar2Addr_fields {off : Nat} (hoff : off < 0x40000) :
    flag (BitVec.ofNat 32 (bits off 17 0 + b2n true * 2 ^ 20)) 20 = true ∧ fld (BitVec.ofNat 32 (bits off 17 0 + b2n true * 2 ^ 20)) 17 0 = off := by
  have hbits : bits off 17 0 = off := by simp only [bits]; omega
  have hnat : (BitVec.ofNat 32 (bits off 17 0 + b2n true * 2 ^ 20)).toNat = off + 2 ^ 20 := by
    rw [BitVec.toNat_ofNat, hbits, show b2n true = 1 from rfl]
    omega
  constructor
  · rw [flag, BitVec.getLsbD, hnat, Nat.testBit_eq_decide_div_mod_eq, decide_eq_true_eq]
    omega
  · show (BitVec.ofNat 32 _).toNat / 2 ^ 0 % 2 ^ 18 = off
    rw [hnat]
    omega

/-- An entry in the error log of a Hatch, with its cause bit (R399). -/
theorem State.hatLogged_spec (s : State) (h : Fin 4) {kind : Nat} (addr : Word) (hk : kind < 256) :
    let t := (s.hatLogged h kind addr).hatCause h 2
    t.rf (bankKey h.val R.HAT_ERR_LOG) 23 16 = kind ∧
    t.rf (bankKey h.val R.HAT_ERR_LOG) 15 0 = incSat 65535 (s.rf (bankKey h.val R.HAT_ERR_LOG) 15 0) ∧
    t.reg (bankKey h.val R.HAT_ERR_ADDR) = addr ∧ t.rb (bankKey h.val R.HAT_CAUSE) 2 = true ∧
    RegsBut [bankKey h.val R.HAT_ERR_LOG, bankKey h.val R.HAT_ERR_ADDR, bankKey h.val R.HAT_CAUSE] s t := by
  have hlog : ((s.hatLogged h kind addr).hatCause h 2).reg (bankKey h.val R.HAT_ERR_LOG) =
      ((s.count (bankKey h.val R.HAT_ERR_LOG) 15 0).setRf (bankKey h.val R.HAT_ERR_LOG) 23 16 kind).reg (bankKey h.val R.HAT_ERR_LOG) := by
    rw [State.hatCause_regsBut _ _ _ _ (by simp [bankKey_ne]), State.hatLogged, State.reg_noteLt, State.reg_setReg,
      if_neg (bankKey_ne (by decide)), State.reg_noteLt]
  refine ⟨?_, ?_, ?_, State.rb_hatCause _ h (by decide), fun k hk => ?_⟩
  · rw [State.rf, hlog, ← State.rf, State.rf_setRf _ _ _ _ _ (by decide)]
    exact Nat.mod_eq_of_lt hk
  · rw [State.rf, hlog, ← State.rf, State.rf_setRf_ne _ _ (by decide) (.inr (.inr (by decide))), State.rf_count _ _ _ _ (by decide)]
    rfl
  · rw [State.hatCause_regsBut _ _ _ _ (by simp [bankKey_ne]), State.hatLogged, State.reg_noteLt, State.reg_setReg, if_pos rfl]
  · simp only [List.mem_cons, List.not_mem_nil, or_false, not_or] at hk
    obtain ⟨hlog, haddr, hcause⟩ := hk
    rw [State.hatCause_regsBut _ _ _ _ (by simpa using hcause), State.hatLogged, State.reg_noteLt, State.reg_setReg, if_neg haddr,
      State.reg_noteLt, State.reg_setRf, if_neg hlog, State.reg_count, if_neg hlog]

theorem exec_bar2Write_beyond {h : Fin 4} {off : Nat} {s : State} (hserves : s.serves (.hatch h) = true) (hoff : 0x40000 ≤ off) :
    exec (.bar2Write h off) s = .next (s.unsupportedReq h) := by
  show Host.Outcome.next (if _ then (if _ then _ else _) else _) = _
  rw [if_pos hserves, if_neg (Nat.not_lt_of_le hoff)]
  rfl

theorem exec_bar2Write {h : Fin 4} {off : Nat} {s : State} (hserves : s.serves (.hatch h) = true) (hoff : off < 0x40000) :
    exec (.bar2Write h off) s =
      .next ((s.hatLogged h 3 (BitVec.ofNat 32 (bits off 17 0 + b2n true * 2 ^ 20))).hatCause h 2) := by
  show Host.Outcome.next (if _ then (if _ then _ else _) else _) = _
  rw [if_pos hserves, if_pos hoff]
  rfl

/-- Settles O40: a fetch, the two ends of a descriptor read, and the two outcomes of a write to BAR2. -/
theorem orderFetching : Obligations.OrderFetching := by
  refine ⟨?fetch, fun h r i c ns rest ws s hreads hcnt => ?words, fun h r i c ns how rest s hreads => ?failed,
    fun h off s hserves hoff => ?beyond, fun h off s hserves hoff => ?dropped⟩
  case fetch =>
    intro h r s x c hring hen hrun hheld hcen hcrun hfree hbme hserves hreads
    simp only [State.serves, Bool.and_eq_true, Bool.not_eq_true'] at hserves
    refine ⟨_, if_pos ⟨hring, hen, hrun, hheld, hcen, hcrun, hfree, hbme, hserves.1, hserves.2, hreads⟩, rfl, ?_, fun g hg => ?_, by simp⟩
    · rw [State.hat_emit, State.hat_updHat, if_pos rfl]
    · rw [State.hat_emit, State.hat_updHat, if_neg hg]
  case words =>
    obtain ⟨hfind, herase⟩ := reads_find? r i c rest
    refine ⟨_, exec_descriptorReadDone_words (by rw [hreads, hfind]) ws ns hcnt, ?_⟩
    rw [State.hat_updHat_updHat, if_pos rfl, HatSt.readEnded, hreads, herase]
    refine ⟨rfl, rfl, rfl, fun g hg => ?_, by simp⟩
    rw [State.hat_updHat_updHat, if_neg hg]
  case failed =>
    obtain ⟨hfind, herase⟩ := reads_find? r i c rest
    refine ⟨_, exec_descriptorReadDone_failed (by rw [hreads, hfind]) how ns, ?_⟩
    obtain ⟨p, hp, -⟩ := State.hat_hatCause ((s.readFailed h r (r, i, c)).readError h how) h 0 h.val
    rw [hp, State.hat_readError, State.hat_readFailed, HatSt.readEnded, hreads, herase, HatSt.readFailed]
    dsimp only
    rw [smGet_smUpd, if_pos rfl, smGet_smUpd, if_pos rfl]
    refine ⟨rfl, rfl, rfl, rfl, by cases how <;> rfl, State.rb_hatCause _ h (by decide), ?_, ?_⟩
    · have hregs : ((s.readFailed h r (r, i, c)).readError h how).regs = s.regs :=
        (State.readError_regs _ h how).trans (keep_regs ((s.readFailed_frame h r (r, i, c)).mono (by decide)))
      exact (RegsBut.of_regs hregs).trans (State.hatCause_regsBut _ h 0)
    · exact ((s.readFailed_frame h r (r, i, c)).mono (by decide)).trans (((State.readError_frame _ h how).mono (by decide)).trans (by simp))
  case beyond =>
    refine ⟨_, exec_bar2Write_beyond hserves hoff, ?_, ?_, fun g hg => ?_, by simp⟩
    · rw [State.unsupportedReq, State.hat_aerError, if_pos rfl]
      rfl
    · rw [State.unsupportedReq, State.out_aerError]
      rfl
    · rw [State.unsupportedReq, State.hat_aerError, if_neg hg, State.hat_emit]
  case dropped =>
    obtain ⟨hkind, hcount, haddr, hcause, hbut⟩ := s.hatLogged_spec h (kind := 3) (BitVec.ofNat 32 (bits off 17 0 + b2n true * 2 ^ 20)) (by decide)
    obtain ⟨hbit, hoff'⟩ := bar2Addr_fields hoff
    refine ⟨_, exec_bar2Write hserves hoff, hkind, hcount, ?_, ?_, hcause, hbut, by simp [State.hatLogged]⟩
    · rw [State.rb, haddr, hbit]
    · rw [State.rf, haddr, hoff']

end Sys2Proof.Machine
end

section
/-! PROOFS. Completions (O41): the evaluation of an order that is fetched alone, and the completion that it gets. -/

namespace Sys2Proof.Machine

/-! The orders of a boundary. -/

/-- A fold that one element of the list alone changes is that one step. -/
theorem foldl_once {A B : Type} {f : B → A → B} {l : List A} {a : A} {x y : B} (ha : a ∈ l) (hnodup : l.Nodup)
    (hbefore : ∀ b, b ≠ a → f x b = x) (hstep : f x a = y) (hafter : ∀ b, b ≠ a → f y b = y) : l.foldl f x = y := by
  have hidle (z : B) (m : List A) (hz : ∀ b ∈ m, f z b = z) : m.foldl f z = z :=
    List.foldlRecOn (motive := fun t => t = z) m f rfl fun t ht b hb => by rw [ht, hz b hb]
  obtain ⟨l1, l2, rfl⟩ := List.append_of_mem ha
  obtain ⟨-, hcons, hdisj⟩ := List.nodup_append.mp hnodup
  rw [List.foldl_append, List.foldl_cons, hidle x l1 fun b hb => hbefore b (hdisj b hb a List.mem_cons_self), hstep,
    hidle y l2 fun b hb => hafter b fun e => (List.nodup_cons.mp hcons).1 (e ▸ hb)]

theorem State.nextOrder_none_of_empty {s : State} {h : Fin 4} (r : Nat) (hempty : (s.hat h.val).fetched = []) : s.nextOrder h r = none := by
  unfold State.nextOrder
  simp only [hempty, List.find?_nil]

/-- A ring without an order that may be evaluated takes no turn (R381). -/
theorem State.ringTurn_idle {s : State} {h : Fin 4} {r : Nat} (n left : Nat) (hnone : s.nextOrder h r = none) :
    State.ringTurn h r n (s, left) = (s, left) := by
  cases n with
  | zero => rfl
  | succ n =>
    rw [State.ringTurn, hnone]
    exact ite_self _

/-- Rings without an order that may be evaluated take no round (R381). -/
theorem State.ringRounds_idle {s : State} {h : Fin 4} (n left : Nat) (hnone : ∀ r, s.nextOrder h r = none) :
    State.ringRounds h n (s, left) = (s, left) := by
  cases n with
  | zero => rfl
  | succ n =>
    have hround : (List.range 16).foldl (fun x r => State.ringTurn h r 4 x) (s, left) = (s, left) :=
      List.foldl_fixed' (fun r => State.ringTurn_idle 4 left (hnone r)) _
    rw [State.ringRounds, hround]
    exact if_pos rfl

/-- A ring whose one order may be evaluated takes one turn (R381). -/
theorem State.ringTurn_one {s : State} {h : Fin 4} {f : Fetched} (n left : Nat) (hnext : s.nextOrder h f.ring = some f)
    (hafter : ∀ r, ((s.updHat h.val (fun a => { a with fetched := a.fetched.erase f })).evalDesc (f.ref h) f.words).nextOrder h r = none) :
    State.ringTurn h f.ring (n + 1) (s, left + 1) =
      ((s.updHat h.val (fun a => { a with fetched := a.fetched.erase f })).evalDesc (f.ref h) f.words, left) := by
  rw [State.ringTurn, if_neg (Nat.succ_ne_zero left), hnext]
  exact State.ringTurn_idle n left (hafter f.ring)

/-- Rings with one order that may be evaluated, in all, take one round for it (R381). -/
theorem State.ringRounds_one {s : State} {h : Fin 4} {f : Fetched} (n left : Nat) (hring : f.ring < 16) (hnext : s.nextOrder h f.ring = some f)
    (hother : ∀ r, r ≠ f.ring → s.nextOrder h r = none)
    (hafter : ∀ r, ((s.updHat h.val (fun a => { a with fetched := a.fetched.erase f })).evalDesc (f.ref h) f.words).nextOrder h r = none) :
    State.ringRounds h (n + 1) (s, left + 1) =
      ((s.updHat h.val (fun a => { a with fetched := a.fetched.erase f })).evalDesc (f.ref h) f.words, left) := by
  have hround : (List.range 16).foldl (fun x r => State.ringTurn h r 4 x) (s, left + 1) =
      ((s.updHat h.val (fun a => { a with fetched := a.fetched.erase f })).evalDesc (f.ref h) f.words, left) :=
    foldl_once (List.mem_range.mpr hring) List.nodup_range (fun r hr => State.ringTurn_idle 4 _ (hother r hr))
      (State.ringTurn_one 3 left hnext hafter) fun r _ => State.ringTurn_idle 4 left (hafter r)
  rw [State.ringRounds, hround, if_neg (by simp)]
  exact State.ringRounds_idle n left hafter

theorem mem_hatches (h : Fin 4) : h ∈ ([0, 1, 2, 3] : List (Fin 4)) := by revert h; decide

/-- A boundary without an order that may be evaluated changes nothing (R381). -/
theorem State.evalOrders_idle {s : State} (hnone : ∀ (h : Fin 4) (r : Nat), s.nextOrder h r = none) : s.evalOrders = s := by
  have hidle (h : Fin 4) : (State.ringRounds h 64 (s, 64)).1 = s := by rw [State.ringRounds_idle 64 64 (hnone h)]
  exact List.foldl_fixed' (f := fun s h => (State.ringRounds h 64 (s, 64)).1) hidle _

/-- A NOP without an unassigned bit completes OK (R384, R385). -/
theorem State.evalDesc_nop (s : State) (r : OrderRef) {ws : List DWord} (hop : dfld ws 0 7 0 = 0) (hok : descOk ws 0 = true) :
    s.evalDesc r ws = s.complete r 0 0 0 0 := by
  unfold State.evalDesc
  rw [hop]
  dsimp only
  rw [if_neg (by simp), if_neg (by rw [hok]; decide)]
  rfl

/-! A NOP that is fetched alone. -/

section
variable {h : Fin 4} {f : Fetched} {s : State} (hfetched : (s.hat h.val).fetched = [f])
include hfetched

theorem State.nextOrder_other {r : Nat} (hr : r ≠ f.ring) : s.nextOrder h r = none := by
  unfold State.nextOrder
  simp only [hfetched, List.find?_cons, decide_eq_false (Ne.symm hr), List.find?_nil]

/-- The order may be evaluated by the boundary at which it is due, and with FENCE once no order before it is open (R380, R381). -/
theorem State.nextOrder_due (hdue : epGe s.sys.epoch f.due = true)
    (hfence : dfld f.words 0 9 9 = 0 ∨ ∀ o ∈ (s.hat h.val).openOrders, f.seq ≤ o.seq) : s.nextOrder h f.ring = some f := by
  unfold State.nextOrder
  simp only [hfetched, List.find?_cons, decide_true, hdue, Bool.true_and]
  exact if_pos (by simpa using hfence)

theorem State.nextOrder_waits (hwaits : epGe s.sys.epoch f.due = false ∨ (dfld f.words 0 9 9 ≠ 0 ∧ ∃ o ∈ (s.hat h.val).openOrders, o.seq < f.seq)) :
    s.nextOrder h f.ring = none := by
  unfold State.nextOrder
  simp only [hfetched, List.find?_cons, decide_true]
  refine if_neg fun hcond => ?_
  rw [Bool.and_eq_true] at hcond
  obtain ⟨hdue, hfence⟩ := hcond
  rcases hwaits with hno | ⟨hset, o, ho, hlt⟩
  · exact absurd hdue (by simp [hno])
  · have hall : ∀ o ∈ (s.hat h.val).openOrders, f.seq ≤ o.seq := by simpa [hset] using hfence
    exact absurd (hall o ho) (Nat.not_le_of_lt hlt)

variable (hothers : ∀ g : Fin 4, g ≠ h → (s.hat g.val).fetched = [])
include hothers

theorem State.evalOrders_waits (hwaits : epGe s.sys.epoch f.due = false ∨ (dfld f.words 0 9 9 ≠ 0 ∧ ∃ o ∈ (s.hat h.val).openOrders, o.seq < f.seq)) :
    s.evalOrders = s := by
  refine State.evalOrders_idle fun g r => ?_
  by_cases hg : g = h
  · subst hg
    by_cases hr : r = f.ring
    · rw [hr, State.nextOrder_waits hfetched hwaits]
    · exact State.nextOrder_other hfetched hr
  · exact State.nextOrder_none_of_empty r (hothers g hg)

/-- A NOP that may be evaluated completes in the state without it (R381). -/
theorem State.evalOrders_nop (hring : f.ring < 16) (hop : dfld f.words 0 7 0 = 0) (hok : descOk f.words 0 = true)
    (hdue : epGe s.sys.epoch f.due = true) (hfence : dfld f.words 0 9 9 = 0 ∨ ∀ o ∈ (s.hat h.val).openOrders, f.seq ≤ o.seq) :
    s.evalOrders = (s.updHat h.val (fun a => { a with fetched := a.fetched.erase f })).complete (f.ref h) 0 0 0 0 := by
  have heval := State.evalDesc_nop (s.updHat h.val (fun a => { a with fetched := a.fetched.erase f })) (f.ref h) hop hok
  have hempty (g : Fin 4) : (((s.updHat h.val (fun a => { a with fetched := a.fetched.erase f })).complete (f.ref h) 0 0 0 0).hat g.val).fetched = [] := by
    have hview := State.ringView_complete (s.updHat h.val (fun a => { a with fetched := a.fetched.erase f })) (f.ref h) 0 0 0 0 g.val
    simp only [HatSt.ringView, Prod.mk.injEq] at hview
    rw [hview.2.1, State.hat_updHat]
    split
    · simp [hfetched]
    · next hg => exact hothers g fun e => hg (congrArg Fin.val e)
  have hnone (g : Fin 4) (r : Nat) := State.nextOrder_none_of_empty r (hempty g)
  refine foldl_once (mem_hatches h) (by decide) (fun g hg => ?_) ?_ (fun g hg => ?_)
  · rw [State.ringRounds_idle 64 64 fun r => State.nextOrder_none_of_empty r (hothers g hg)]
  · rw [State.ringRounds_one 63 63 hring (State.nextOrder_due hfetched hdue hfence) (fun r hr => State.nextOrder_other hfetched hr)
      (fun r => by rw [heval]; exact hnone h r), heval]
  · rw [State.ringRounds_idle 64 64 (hnone g)]

end

/-! The completion of an order. -/

theorem State.out_signal (s : State) (h : Fin 4) (v : Nat) :
    (s.signal h v).out = s.out ++ (if (s.hat h.val).msixEn && !((s.hat h.val).msixMask.getLsbD v) then [.msix h v] else []) := by
  unfold State.signal
  extract_lets a
  split
  · rfl
  · exact (List.append_nil _).symm

/-- A cause of a Hatch is signalled where HAT_CTRL has it so (R392, R401). -/
theorem State.out_hatCause (s : State) (h : Fin 4) (b : Nat) : (s.hatCause h b).out =
    s.out ++ (if s.rb (bankKey h.val R.HAT_CTRL) 22 && (s.hat h.val).msixEn &&
      !((s.hat h.val).msixMask.getLsbD (s.rf (bankKey h.val R.HAT_CTRL) 21 16)) then [.msix h (s.rf (bankKey h.val R.HAT_CTRL) 21 16)] else []) := by
  have hctrl : (s.latch (bankKey h.val R.HAT_CAUSE) b).reg (bankKey h.val R.HAT_CTRL) = s.reg (bankKey h.val R.HAT_CTRL) := by
    rw [State.reg_latch, if_neg (bankKey_ne (by decide))]
  have hlatch : (s.latch (bankKey h.val R.HAT_CAUSE) b).hat h.val = s.hat h.val := by rw [State.hat, State.latch_hats, ← State.hat]
  rw [State.hatCause_eq, hctrl, State.rb, State.rf]
  cases hbit : flag (s.reg (bankKey h.val R.HAT_CTRL)) 22 with
  | true => rw [if_pos rfl, State.out_signal, hlatch, State.latch_out, Bool.true_and]
  | false => rw [if_neg Bool.false_ne_true, State.latch_out, Bool.false_and, Bool.false_and, if_neg Bool.false_ne_true, List.append_nil]

/-- The Hatch after its order has been closed and its completion ring c has other contents. -/
def HatSt.completed (a : HatSt) (r : OrderRef) (c : Nat) (x : RingSt) : HatSt :=
  { a with openOrders := a.openOrders.eraseP (refersTo r), cr := smSet {} a.cr c x }

theorem State.hat_putCr_orderClosed (s : State) (r : OrderRef) (c : Nat) (x : RingSt) (g : Nat) :
    ((s.orderClosed r).putCr r.hatch c x).hat g = if g = r.hatch.val then (s.hat r.hatch.val).completed r c x else s.hat g :=
  State.hat_updHat_updHat _ _ _ _ _

theorem State.hat_completionPut (s : State) (e : Epoch) (r : OrderRef) (c opcode status w2 w3 g : Nat) :
    (s.completionPut e r c opcode status w2 w3).hat g = if g = r.hatch.val then
      (s.hat r.hatch.val).completed r c (advance (smGet {} (s.hat r.hatch.val).cr c).released) else s.hat g :=
  s.hat_putCr_orderClosed r c _ g

theorem State.eraAt_now (s : State) : s.eraAt s.sys.epoch = s.sys.era := if_pos (le_refl _)

section
variable {r : OrderRef} {c : Nat} {s : State} (hcr : s.orderCr r = some c) (hen : (smGet {} (s.hat r.hatch.val).cr c).enable = true)
  (hrun : (smGet {} (s.hat r.hatch.val).cr c).stopped = false)
include hcr hen hrun

/-- A completion into a ring that takes it is written with Bus Master Enable set, and stops the ring with it clear (R377, R378). -/
theorem State.complete_taken (opcode status w2 w3 : Nat) : s.complete r opcode status w2 w3 =
    if !(s.hat r.hatch.val).bme then ((s.orderClosed r).putCr r.hatch c (smGet {} (s.hat r.hatch.val).cr c).released).stopCr r.hatch c 3
    else if r.irq then (s.completionPut s.sys.epoch r c opcode status w2 w3).signal r.hatch (smGet {} (s.hat r.hatch.val).cr c).vector
    else s.completionPut s.sys.epoch r c opcode status w2 w3 := by
  rw [State.complete, State.completeAt_eq, hcr]
  dsimp only
  rw [hen, hrun]
  rfl

end

/-- The words of the completion of a NOP (R388). -/
theorem State.completionWords_nop (s : State) (r : OrderRef) (phase : Bool) : s.completionWords s.sys.epoch r phase 0 0 0 0 =
    [BitVec.ofNat 64 (b2n phase * 2 ^ 63 + r.ring * 2 ^ 36 + r.index * 2 ^ 16 + r.tag),
      BitVec.ofNat 64 (s.sys.era * 2 ^ 48 + s.sys.epoch.toNat), 0, 0] := by
  rw [State.completionWords, State.eraAt_now, Nat.zero_mul, Nat.zero_mul, Nat.add_zero]
  rfl

theorem HatSt.completed_cr (a : HatSt) (r : OrderRef) (c : Nat) (x : RingSt) : smGet {} (a.completed r c x).cr c = x := by
  rw [HatSt.completed, smGet_smSet, if_pos rfl]

/-- A completion that is written, with its interrupt or without (R377, R388, R392). -/
def State.completionTold (s : State) (r : OrderRef) (c opcode status w2 w3 : Nat) : State :=
  if r.irq then (s.completionPut s.sys.epoch r c opcode status w2 w3).signal r.hatch (smGet {} (s.hat r.hatch.val).cr c).vector
  else s.completionPut s.sys.epoch r c opcode status w2 w3

theorem State.hat_completionTold (s : State) (r : OrderRef) (c opcode status w2 w3 g : Nat) : ∃ p,
    (s.completionTold r c opcode status w2 w3).hat g = { (s.completionPut s.sys.epoch r c opcode status w2 w3).hat g with msixPending := p } ∧
      (g ≠ r.hatch.val → p = ((s.completionPut s.sys.epoch r c opcode status w2 w3).hat g).msixPending) := by
  unfold State.completionTold
  split
  · exact State.hat_signal _ _ _ g
  · exact ⟨_, rfl, fun _ => rfl⟩

/-- What a completion puts out: its words, and an interrupt where the order asks for one (R388, R392). -/
theorem State.out_completionTold (s : State) (r : OrderRef) (c : Nat) : ∃ m, (s.completionTold r c 0 0 0 0).out =
    s.out ++ [.completion r.hatch c (smGet {} (s.hat r.hatch.val).cr c).index
      (s.completionWords s.sys.epoch r (smGet {} (s.hat r.hatch.val).cr c).phase 0 0 0 0)] ++ m ∧
      (m = [] ∨ r.irq = true ∧ m = [.msix r.hatch (smGet {} (s.hat r.hatch.val).cr c).vector]) := by
  unfold State.completionTold
  cases hirq : r.irq with
  | false => exact ⟨[], (List.append_nil _).symm, .inl rfl⟩
  | true =>
    rw [if_pos rfl, State.out_signal]
    refine ⟨_, rfl, ?_⟩
    split
    · exact .inr ⟨rfl, rfl⟩
    · exact .inl rfl

theorem State.completionTold_frame (s : State) (r : OrderRef) (c opcode status w2 w3 : Nat) :
    Frame [.hats, .out] s (s.completionTold r c opcode status w2 w3) := by
  have hput : Frame [.hats, .out] s (s.completionPut s.sys.epoch r c opcode status w2 w3) := by
    simp [State.completionPut, State.putCr, State.orderClosed]
  unfold State.completionTold
  split
  · simpa using hput
  · exact hput

/-- The state after a completion that finds Bus Master Enable clear (R378). -/
def State.completionStopped (s : State) (r : OrderRef) (c : Nat) : State :=
  ((s.orderClosed r).putCr r.hatch c (smGet {} (s.hat r.hatch.val).cr c).released).stopCr r.hatch c 3

theorem State.completionStopped_frame (s : State) (r : OrderRef) (c : Nat) : Frame [.regs, .hats, .out] s (s.completionStopped r c) := by
  simp [State.completionStopped, State.putCr, State.orderClosed]

theorem State.out_completionStopped (s : State) (r : OrderRef) (c : Nat) : (s.completionStopped r c).out =
    s.out ++ (if s.rb (bankKey r.hatch.val R.HAT_CTRL) 22 && (s.hat r.hatch.val).msixEn &&
      !((s.hat r.hatch.val).msixMask.getLsbD (s.rf (bankKey r.hatch.val R.HAT_CTRL) 21 16)) then
        [.msix r.hatch (s.rf (bankKey r.hatch.val R.HAT_CTRL) 21 16)] else []) := by
  have hmsix (a : HatSt) (x : RingSt) : ((a.completed r c x).crStopped c 3).msixEn = a.msixEn ∧
      ((a.completed r c x).crStopped c 3).msixMask = a.msixMask := by
    simp only [HatSt.crStopped, HatSt.completed, and_self]
  have hkept (x : RingSt) (f : HatSt → HatSt) : (((s.orderClosed r).putCr r.hatch c x).updHat r.hatch.val f).regs = s.regs ∧
      (((s.orderClosed r).putCr r.hatch c x).updHat r.hatch.val f).out = s.out := ⟨rfl, rfl⟩
  rw [State.completionStopped, State.stopCr_eq, State.out_hatCause, State.hat_updHat, if_pos rfl, State.hat_putCr_orderClosed, if_pos rfl,
    (hmsix _ _).1, (hmsix _ _).2, State.rb, State.reg_congr (hkept _ _).1, ← State.rb, State.rf_congr (hkept _ _).1, (hkept _ _).2]

/-- Settles O41: a NOP that is evaluated completes, and a completion is written or stops its ring. -/
theorem nopCompletes : Obligations.NopCompletes := by
  refine ⟨fun h f s hfetched hothers hring hop hok => ⟨fun hdue hfence => ?evaluated, State.evalOrders_waits hfetched hothers⟩, ?completed⟩
  case evaluated =>
    refine ⟨s.updHat h.val (fun a => { a with fetched := a.fetched.erase f }), ?_, fun g hg => ?_, by simp, ?_⟩
    · rw [State.hat_updHat, if_pos rfl, hfetched]
      simp
    · rw [State.hat_updHat, if_neg hg]
    · rw [State.evalOrders_nop hfetched hothers hring hop hok hdue hfence]
      rfl
  case completed =>
    intro r c s a x hcr hen hrun
    have hexec (t : State) (ht : s.complete r 0 0 0 0 = t) : exec (.nop r) s = .next t := congrArg Host.Outcome.next ht
    have htaken := State.complete_taken hcr hen hrun 0 0 0 0
    cases hbme : a.bme with
    | true =>
      have ht : s.complete r 0 0 0 0 = s.completionTold r c 0 0 0 0 := htaken.trans (if_neg (by simp [show (s.hat r.hatch.val).bme = true from hbme]))
      have hframe := s.completionTold_frame r c 0 0 0 0
      obtain ⟨p, hp, -⟩ := s.hat_completionTold r c 0 0 0 0 r.hatch.val
      rw [s.hat_completionPut, if_pos rfl] at hp
      obtain ⟨m, hout, hm⟩ := s.out_completionTold r c
      rw [State.completionWords_nop] at hout
      refine ⟨_, hexec _ ht, by rw [hp]; rfl, fun g hg => ?_, hframe.mono (by decide),
        fun _ => ⟨keep_regs (hframe.mono (by decide)), ?_, m, hout, hm⟩, nofun⟩
      · obtain ⟨q, hq, hne⟩ := s.hat_completionTold r c 0 0 0 0 g
        rw [hq, hne hg, s.hat_completionPut, if_neg hg]
      · rw [hp]
        exact HatSt.completed_cr (s.hat r.hatch.val) r c _
    | false =>
      have ht : s.complete r 0 0 0 0 = s.completionStopped r c := htaken.trans (if_pos (by simp [show (s.hat r.hatch.val).bme = false from hbme]))
      obtain ⟨p, hp⟩ := ((s.orderClosed r).putCr r.hatch c (smGet {} (s.hat r.hatch.val).cr c).released).hat_stopCr r.hatch c 3
      rw [State.hat_putCr_orderClosed, if_pos rfl] at hp
      change (s.completionStopped r c).hat r.hatch.val = _ at hp
      have hring : smGet {} ((s.completionStopped r c).hat r.hatch.val).cr c = stopRing x.released 3 := by
        rw [hp]
        refine (HatSt.crStopped_cr _ c 3 c).trans ?_
        rw [if_pos rfl, HatSt.completed_cr]
      refine ⟨_, hexec _ ht, by rw [hp]; rfl, fun g hg => ?_, s.completionStopped_frame r c, nofun, fun _ => ⟨s.out_completionStopped r c, ?_, ?_, ?_⟩⟩
      · rw [State.completionStopped, State.hat_stopCr_ne _ _ _ hg, State.hat_putCr_orderClosed, if_neg hg]
      · rw [hring]; rfl
      · rw [hring]; rfl
      · exact State.rb_hatCause _ r.hatch (by decide)

end Sys2Proof.Machine
end

section
/-! PROOFS. The test access port (O55): what an instruction and a scan leave of the port, and what the device does at its pins. -/

namespace Sys2Proof.Machine

theorem Pin.all_length : Pin.all.length = 99 := by decide

theorem Pin.all_nodup : Pin.all.Nodup := by decide +kernel

theorem Pin.mem_all (p : Pin) : p ∈ Pin.all := by
  cases p <;> simp [Pin.all]

/-! Instructions. -/

/-- The functions of the pins do not depend on the port's own state. -/
theorem State.pinFunction_dbg (s : State) (d : DbgSt) (n : Nat) (p : Pin) :
    State.pinFunction { s with dbg := d, freeCount := n } p = s.pinFunction p := by
  cases p <;> rfl

theorem State.pinFunction_tapLoad (s : State) (code : Nat) (p : Pin) : (s.tapLoad code).pinFunction p = s.pinFunction p :=
  s.pinFunction_dbg _ s.freeCount p

/-- The device leaves its inputs to the board (R474). -/
theorem State.pinFunction_input (s : State) {p : Pin} (h : p.kind = .input) : s.pinFunction p = .released := by
  cases p <;> simp [Pin.kind, State.pinFunction] at h ⊢

/-- An instruction other than EXTEST, HIGHZ and CLAMP leaves each pin at its function (R482). -/
theorem State.pinDrive_function {s : State} (h : s.tapTest = false) (p : Pin) : s.pinDrive p = s.pinFunction p := by
  simp only [State.tapTest, Bool.or_eq_false_iff, decide_eq_false_iff_not] at h
  obtain ⟨⟨hextest, hhighz⟩, hclamp⟩ := h
  unfold State.pinDrive
  cases hk : p.kind with
  | observe => rfl
  | input => exact (s.pinFunction_input hk).symm
  | output => simp [hextest, hhighz, hclamp]
  | openDrain => simp [hextest, hhighz, hclamp]

/-! What EXTEST, HIGHZ and CLAMP make of a pin (R482, R483). -/

theorem State.pinDrive_observe (s : State) {p : Pin} (h : p.kind = .observe) : s.pinDrive p = s.pinFunction p := by rw [State.pinDrive, h]

theorem State.pinDrive_input (s : State) {p : Pin} (h : p.kind = .input) : s.pinDrive p = .released := by rw [State.pinDrive, h]

section
variable {s : State} {p : Pin} (htest : s.dbg.instr = 0x00 ∨ s.dbg.instr = 0x05 ∨ s.dbg.instr = 0x06)
include htest

theorem State.pinDrive_output (h : p.kind = .output) :
    s.pinDrive p = if s.dbg.instr = 0x05 then .released else if s.cellLevel p then .high else .low := by
  rw [State.pinDrive, h]
  rcases htest with hi | hi | hi <;> simp [hi, Drive.push]

theorem State.pinDrive_openDrain (h : p.kind = .openDrain) :
    s.pinDrive p = if s.dbg.instr = 0x05 ∨ s.cellLevel p = true then .released else .low := by
  rw [State.pinDrive, h]
  cases hcell : s.cellLevel p <;> rcases htest with hi | hi | hi <;> simp [hi, Drive.pull]

end

/-! Scans. -/

/-- The port after an instruction and a scan of the boundary register (R482, R483). -/
theorem State.tapScan_spec (s : State) (code : Nat) (cells : List Bool) : ∃ d n, (s.tapLoad code).tapScan cells = { s with dbg := d, freeCount := n } ∧
    d.instr = code ∧ d.captured = Pin.all.map (s.tapLoad code).pinLevel ∧ (cells = [] → d.boundary = s.dbg.boundary) ∧
    (cells ≠ [] → d.boundary = (cells ++ d.captured).take 99) := by
  unfold State.tapScan State.tapCapture
  dsimp only
  split
  · next hnil => exact ⟨_, _, rfl, rfl, rfl, fun _ => rfl, fun h => absurd hnil h⟩
  · next hcells =>
    refine ⟨_, _, rfl, rfl, rfl, fun h => absurd h hcells, fun _ => ?_⟩
    rw [Pin.all_length]

/-! Instructions that are permitted in OFF alone. -/

section
variable {s : State}

theorem State.tapPermitted_of_off (hoff : s.sys.conv = .off) (hheld : s.start.state = .held ∨ s.start.state = .failed) : s.tapPermitted = true := by
  rcases hheld with h | h <;> simp [State.tapPermitted, hoff, h]

theorem State.tapPermitted_false (h : s.sys.conv ≠ .off ∨ (s.start.state ≠ .held ∧ s.start.state ≠ .failed)) : s.tapPermitted = false := by
  rcases h with h | ⟨hheld, hfailed⟩
  · simp [State.tapPermitted, h]
  · simp [State.tapPermitted, hheld, hfailed]

theorem exec_extest (cells : List Bool) (h : s.tapPermitted = true) : exec (.extest cells) s = .next ((s.tapLoad 0x00).tapScan cells) := by
  show Host.Outcome.next _ = _
  rw [if_pos h, State.tapTestLoad, if_pos h]

theorem exec_highz (h : s.tapPermitted = true) : exec .highz s = .next (s.tapLoad 0x05) := congrArg Host.Outcome.next (if_pos h)

theorem exec_clamp (h : s.tapPermitted = true) : exec .clamp s = .next (s.tapLoad 0x06) := congrArg Host.Outcome.next (if_pos h)

/-- The state after EXTEST, HIGHZ or CLAMP is refused: BYPASS is loaded, with its cause (R482). -/
def State.tapRefused (s : State) : State := (s.tapLoad 0xFF).latch R.DBG_CAUSE 1

theorem exec_tapRefused {c : Instr} {cells : List Bool} (hc : c ∈ ([.extest cells, .highz, .clamp] : List Instr)) (h : s.tapPermitted = false) :
    exec c s = .next s.tapRefused := by
  have hload (code : Nat) : s.tapTestLoad code = s.tapRefused := if_neg (by simp [h])
  simp only [List.mem_cons, List.not_mem_nil, or_false] at hc
  rcases hc with rfl | rfl | rfl
  · show Host.Outcome.next _ = _
    rw [if_neg (by simp [h]), hload]
  · exact congrArg Host.Outcome.next (hload _)
  · exact congrArg Host.Outcome.next (hload _)

end

/-- The fields of the identity register (R481). -/
theorem State.tapId_fields (s : State) :
    fld s.tapId 27 12 = 0x4096 ∧ fld s.tapId 11 1 = 0x5B3 ∧ fld s.tapId 0 0 = 1 ∧ fld s.tapId 31 28 = s.rf R.SYS_ID 3 0 := by
  have hstep : bits (s.reg R.SYS_ID).toNat 3 0 < 16 := Nat.mod_lt _ (by decide)
  have hnat : s.tapId.toNat = bits (s.reg R.SYS_ID).toNat 3 0 * 2 ^ 28 + 0x4096 * 2 ^ 12 + 0x5B3 * 2 + 1 :=
    (BitVec.toNat_ofNat _ _).trans (Nat.mod_eq_of_lt (by omega))
  rw [State.rf, fld, fld, fld, fld, fld, hnat]
  generalize bits (s.reg R.SYS_ID).toNat 3 0 = n at hstep
  simp only [bits]
  omega

/-- Settles O55: each instruction by the state that it leaves of the port. -/
theorem testAccessPort : Obligations.TestAccessPort := by
  have hload (s : State) (code : Nat) (h : (s.tapLoad code).tapTest = false) (p : Pin) : (s.tapLoad code).pinDrive p = s.pinFunction p :=
    (State.pinDrive_function h p).trans (s.pinFunction_tapLoad code p)
  refine ⟨⟨Pin.all_length, Pin.all_nodup, Pin.mem_all⟩, fun s => ⟨_, rfl, rfl, hload s _ rfl, by simp [State.tapLoad]⟩,
    fun s => ⟨_, rfl, rfl, hload s _ rfl, by simp [State.tapLoad]⟩, fun s => ⟨_, rfl, rfl, hload s _ rfl, by simp [State.tapLoad]⟩,
    fun cells s => ?sample, fun c code cells s hmem hoff hheld => ?test, fun c cells s hc hno => ?refused, State.tapId_fields⟩
  case sample =>
    obtain ⟨d, n, ht, hinstr, hcap, hnil, hcells⟩ := s.tapScan_spec 0x02 cells
    refine ⟨_, rfl, ?_⟩
    rw [ht]
    refine ⟨hinstr, hcap, hnil, hcells, fun p => ?_, by simp⟩
    rw [State.pinDrive_function (by simp [State.tapTest, hinstr]), State.pinFunction_dbg]
  case test =>
    have hperm := State.tapPermitted_of_off hoff hheld
    have hexec : ∃ d n, exec c s = .next { s with dbg := d, freeCount := n } ∧ d.instr = code ∧ (code = 0x00 ∨ code = 0x05 ∨ code = 0x06) ∧
        (code ≠ 0x00 ∨ cells = [] → d.boundary = s.dbg.boundary) ∧
        (code = 0x00 → d.captured = Pin.all.map (s.tapLoad 0x00).pinLevel ∧ (cells ≠ [] → d.boundary = (cells ++ d.captured).take 99)) := by
      simp only [List.mem_cons, Prod.mk.injEq, List.not_mem_nil, or_false] at hmem
      rcases hmem with ⟨rfl, rfl⟩ | ⟨rfl, rfl⟩ | ⟨rfl, rfl⟩
      · obtain ⟨d, n, ht, hinstr, hcap, hnil, hcells⟩ := s.tapScan_spec 0x00 cells
        exact ⟨d, n, (exec_extest cells hperm).trans (congrArg Host.Outcome.next ht), hinstr, .inl rfl,
          fun h => hnil (h.resolve_left fun hne => hne rfl), fun _ => ⟨hcap, hcells⟩⟩
      · exact ⟨_, s.freeCount, exec_highz hperm, rfl, .inr (.inl rfl), fun _ => rfl, nofun⟩
      · exact ⟨_, s.freeCount, exec_clamp hperm, rfl, .inr (.inr rfl), fun _ => rfl, nofun⟩
    obtain ⟨d, n, ht, rfl, hcode, hkeep, hscan⟩ := hexec
    refine ⟨_, ht, rfl, ?_, hkeep, hscan, fun p => ?_, by simp⟩
    · rcases hcode with h | h | h <;> simp [State.tapTest, h]
    · cases hk : p.kind with
      | observe => exact (State.pinDrive_observe _ hk).trans (s.pinFunction_dbg d n p)
      | input => exact State.pinDrive_input _ hk
      | output => exact State.pinDrive_output hcode hk
      | openDrain => exact State.pinDrive_openDrain hcode hk
  case refused =>
    have htest : s.tapRefused.tapTest = false := by simp [State.tapRefused, State.tapTest, State.tapLoad]
    refine ⟨_, exec_tapRefused hc (State.tapPermitted_false hno), rfl, htest, State.rb_latch _ _ _ (by decide),
      fun p => State.pinDrive_function htest p, RegsBut.trans (t := s.tapLoad 0xFF) (.of_regs rfl) (State.latch_regsBut _ _ _), ?_⟩
    simp [State.tapRefused, State.tapLoad]

end Sys2Proof.Machine
end

section
/-! PROOFS. The debug function (O56): HALT, RESUME and STEP, and the debug capture armed, refused and aborted. -/

namespace Sys2Proof.Machine

/-! HALT, RESUME and STEP. -/

/-- A firing of the block logic may trigger the debug capture, and leaves the rest of the debug function (R291, R486). -/
theorem State.blockFire_dbg (s : State) (input fine : Nat) : ∃ cap, (s.blockFire input fine).dbg = { s.dbg with cap := cap } := by
  unfold State.blockFire
  extract_lets s1 s2 s3 halt s4 lnk4 prt4 s5
  have h5 : s5.dbg = s.dbg := keep_dbg (s := s) (t := s4) (by simp [s4, s3, s2, s1])
  unfold State.dbgTrigger
  extract_lets c
  split
  · exact ⟨c.fire, congrArg (fun d : DbgSt => { d with cap := c.fire }) h5⟩
  · exact ⟨s.dbg.cap, h5⟩

theorem RegsBut.rf {ks : List Nat} {s t : State} (h : RegsBut ks s t) {k : Nat} (hk : k ∉ ks) (hi lo : Nat) : t.rf k hi lo = s.rf k hi lo :=
  congrArg (fld · hi lo) (h k hk)

/-- A HALT marks its targets to halt, and no longer to run again (R485). -/
theorem State.dbgHalt_marks (s : State) (targets ns : Nat) :
    (s.dbgHalt targets ns).dbg.haltNext = s.dbg.haltNext ||| bits targets 9 0 ∧ (s.dbgHalt targets ns).dbg.halted = s.dbg.halted ∧
      (s.dbgHalt targets ns).dbg.resumeNext = s.dbg.resumeNext &&& (1023 - bits targets 9 0) := by
  unfold State.dbgHalt
  extract_lets d marked
  obtain ⟨cap, hcap⟩ := marked.blockFire_dbg 19 ns
  rw [hcap]
  exact ⟨rfl, rfl, rfl⟩

theorem State.dbgHalt_regsBut (s : State) (targets ns : Nat) :
    RegsBut [R.PRT_BLOCK_LATCH, R.PRT_BLOCK_CNT, R.PRT_CAUSE] s (s.dbgHalt targets ns) := by
  unfold State.dbgHalt
  extract_lets d marked
  exact (RegsBut.of_regs (t := marked) rfl).trans (marked.blockFire_regsBut 19 ns)

theorem State.dbgHalt_firedNow (s : State) (targets ns : Nat) : (s.dbgHalt targets ns).prt.firedNow = true := by
  unfold State.dbgHalt
  extract_lets d marked
  exact marked.blockFire_firedNow 19 ns

theorem State.dbgHalt_blocks (s : State) (targets ns : Nat) : (s.dbgHalt targets ns).lnk.blocks = s.lnk.blocks + 1 := by
  unfold State.dbgHalt
  extract_lets d marked
  exact marked.blockFire_blocks 19 ns

theorem State.dbgResume_regs (s : State) (targets : Nat) : (s.dbgResume targets).regs = s.regs := rfl

theorem State.dbgStep_regs (s : State) (targets : Nat) : (s.dbgStep targets).regs = s.regs := rfl

/-- TARGET of DBG_HALT is a field that a write sets, and its actions are not (R485). -/
theorem writeMask_dbgHalt : (∀ i < 9 + 1 - 0, (writeMask R.DBG_HALT).getLsbD (0 + i) = true) ∧
    ∀ b < 3, (writeMask R.DBG_HALT).getLsbD (29 + b) = false := by decide +kernel

/-- The word of a HALT, RESUME or STEP has the one action and its targets (R485). -/
theorem State.haltWord_fields (s : State) {b : Nat} (x : Nat) (hlow : 29 ≤ b) (hhigh : b < 32) :
    fld (s.actWord R.DBG_HALT b [(9, 0, x)]) 31 29 = 2 ^ (b - 29) ∧ fld (s.actWord R.DBG_HALT b [(9, 0, x)]) 9 0 = x % 1024 := by
  constructor
  · refine Nat.eq_of_testBit_eq fun i => ?_
    rw [fld_testBit, Nat.testBit_two_pow]
    by_cases hi : i < 3
    · have hflag := s.flag_actWord (fs := [(9, 0, x)]) hhigh (by omega) (writeMask_dbgHalt.2 i hi) (by simp; omega)
      rw [flag] at hflag
      rw [hflag, decide_eq_true (by omega : i < 31 + 1 - 29), Bool.true_and, decide_eq_decide]
      omega
    · rw [decide_eq_false (by omega : ¬ i < 31 + 1 - 29), Bool.false_and, decide_eq_false (by omega)]
  · exact fld_setFld_same _ 9 0 x (by decide)

/-- The arguments of a HALT, RESUME or STEP set (R490). -/
def State.haltArgs (s : State) (b x : Nat) : State := s.setArgs R.DBG_HALT (s.actWord R.DBG_HALT b [(9, 0, x)])

theorem State.haltArgs_regsBut (s : State) (b x : Nat) : RegsBut [R.DBG_HALT] s (s.haltArgs b x) := s.setArgs_regsBut _ _

@[simp] theorem State.haltArgs_frame {W : List Part} {r s : State} (b x : Nat) (hW : [.regs] ⊆ W) : Frame W r (s.haltArgs b x) ↔ Frame W r s :=
  State.setArgs_frame _ _ hW

theorem State.haltArgs_dbg (s : State) (b x : Nat) : (s.haltArgs b x).dbg = s.dbg := keep_dbg (by simp)

theorem State.rf_haltArgs (s : State) {b x : Nat} (hlow : 29 ≤ b) (hhigh : b < 32) (hx : x < 1024) : (s.haltArgs b x).rf R.DBG_HALT 9 0 = x :=
  (s.rf_setArgs _ _ 9 0 writeMask_dbgHalt.1).trans ((s.haltWord_fields x hlow hhigh).2.trans (Nat.mod_eq_of_lt hx))

/-- Whether a requester may write DBG_HALT rests on registers other than it (R394). -/
theorem State.mayWrite_haltArgs (s : State) (r : Requester) (b x : Nat) : (s.haltArgs b x).mayWrite r R.DBG_HALT = s.mayWrite r R.DBG_HALT := by
  cases r with
  | mgmt => rw [State.mayWrite, State.mayWrite]
  | hatch h =>
    have hobject (slot : Nat) : objectOf R.DBG_HALT slot = some 11 := rfl
    have hown : (s.haltArgs b x).reg (R.HAT_OWN 11) = s.reg (R.HAT_OWN 11) := s.haltArgs_regsBut b x _ (by decide)
    simp only [State.mayWrite, hobject, State.owns, State.owner, State.rf, hown]

section
variable {r : Requester} {b x : Nat} {s : State} (hmay : s.mayWrite r R.DBG_HALT = true)
include hmay

/-- A HALT, RESUME or STEP by a requester that may write DBG_HALT: with EN = 0 it is logged, and with EN = 1 it acts (R485). -/
theorem State.haltWrite_owned (ns : Nat) (hlow : 29 ≤ b) (hhigh : b < 32) :
    s.haltWrite r (s.actWord R.DBG_HALT b [(9, 0, x)]) ns =
      if s.rb R.DBG_CTRL 31 = false then (s.haltArgs b x).logErr r 5 R.DBG_HALT
      else if b = 31 then (s.haltArgs b x).dbgHalt (x % 1024) ns
      else if b = 30 then (s.haltArgs b x).dbgResume (x % 1024) else (s.haltArgs b x).dbgStep (x % 1024) := by
  obtain ⟨hact, htargets⟩ := s.haltWord_fields x hlow hhigh
  have hen : (s.haltArgs b x).rb R.DBG_CTRL 31 = s.rb R.DBG_CTRL 31 := (s.haltArgs_regsBut b x).rb (by decide) 31
  rw [State.haltWrite, State.asOwner_eq hmay]
  change (s.haltArgs b x).dbgHaltWrite r _ ns = _
  rw [State.dbgHaltWrite, hact]
  rw [if_neg (by positivity), State.asOwner_eq ((s.mayWrite_haltArgs r b x).trans hmay), hen, htargets]
  obtain rfl | rfl | rfl : b = 29 ∨ b = 30 ∨ b = 31 := by omega
  all_goals rfl

end

/-- An error that is logged with its kind, by the port of its requester (R399, R448). -/
theorem State.logErr_kind (s : State) (r : Requester) {kind : Nat} (off : Nat) (hk : kind < 256) :
    (r = .mgmt → fld (s.logErr r kind off).mgmtStatus 31 24 = kind) ∧
      ∀ h, r = .hatch h → (s.logErr r kind off).rf (bankKey h.val R.HAT_ERR_LOG) 23 16 = kind := by
  refine ⟨?_, ?_⟩
  · rintro rfl
    show fld (setFld (setFld s.mgmtStatus 31 24 kind) 15 0 _) 31 24 = kind
    rw [fld_setFld_ne _ _ _ _ _ _ (by decide) (by decide), fld_setFld_same _ _ _ _ (by decide)]
    exact Nat.mod_eq_of_lt hk
  · rintro h rfl
    exact s.logErr_hatch_kind h off hk

/-! The debug capture. -/

/-- PRE of DBG_CAP_CTRL is a field that a write sets, and its actions are not (R486). -/
theorem writeMask_capActions : ∀ b ∈ [30, 31], (writeMask R.DBG_CAP_CTRL).getLsbD b = false := by decide +kernel

/-- An action whose word carries the fields in force leaves its register (R490). -/
theorem State.setArgs_actWord_nil (s : State) {off b : Nat} (hb : b < 32) (haction : (writeMask off).getLsbD b = false) :
    s.setArgs off (s.actWord off b []) = s.rewritten off := by
  have hblend : blend (writeMask off) (s.actWord off b []) (s.reg off) = s.reg off := by
    refine BitVec.eq_of_getLsbD_eq fun i hi => ?_
    rw [blend, BitVec.getLsbD_or, BitVec.getLsbD_and, BitVec.getLsbD_and, BitVec.getLsbD_not, decide_eq_true hi, Bool.true_and, State.actWord,
      List.foldl_nil, setFlag, setFld_getLsbD _ _ _ _ _ hb, BitVec.getLsbD_and]
    by_cases hib : i = b
    · rw [hib, haction]
      simp
    · rw [if_neg (by omega)]
      cases (writeMask off).getLsbD i <;> simp
  rw [State.setArgs, hblend, State.rewritten]

theorem exec_dbgCapArm {r : Requester} {s : State} (hmay : s.mayWrite r R.DBG_CAP_CTRL = true) :
    exec (.dbgCapArm r) s = .next (s.rewritten R.DBG_CAP_CTRL).dbgCapArm := by
  have hmask := writeMask_capActions
  have harm : flag (s.actWord R.DBG_CAP_CTRL 31 []) 31 = true := s.flag_actWord (by decide) (by decide) (hmask 31 (by decide)) nofun
  have habort : flag (s.actWord R.DBG_CAP_CTRL 31 []) 30 = false := s.flag_actWord (by decide) (by decide) (hmask 30 (by decide)) nofun
  show Host.Outcome.next _ = _
  rw [State.runAction_owned _ (by decide) hmay, s.setArgs_actWord_nil (by decide) (hmask 31 (by decide))]
  show Host.Outcome.next (if _ then _ else if _ then _ else _) = _
  rw [harm, habort]
  rfl

theorem exec_dbgCapAbort {r : Requester} {s : State} (hmay : s.mayWrite r R.DBG_CAP_CTRL = true) :
    exec (.dbgCapAbort r) s = .next (s.rewritten R.DBG_CAP_CTRL).dbgCapAbort := by
  have hmask := writeMask_capActions
  have harm : flag (s.actWord R.DBG_CAP_CTRL 30 []) 31 = false := s.flag_actWord (by decide) (by decide) (hmask 31 (by decide)) nofun
  have habort : flag (s.actWord R.DBG_CAP_CTRL 30 []) 30 = true := s.flag_actWord (by decide) (by decide) (hmask 30 (by decide)) nofun
  show Host.Outcome.next _ = _
  rw [State.runAction_owned _ (by decide) hmay, s.setArgs_actWord_nil (by decide) (hmask 30 (by decide))]
  show Host.Outcome.next (if _ then _ else if _ then _ else _) = _
  rw [harm, habort]
  rfl

/-- An ARM of a debug capture that is not in progress waits for admission with the configuration in force (R410, R486). -/
theorem State.dbgCapArm_idle {s : State} (h : s.dbg.cap.state ∈ [.idle, .done, .aborted, .revoked]) :
    s.dbgCapArm.dbg.cap = { state := .wait, cfg := s.reg R.DBG_CAP_CFG, pre := s.rf R.DBG_CAP_CTRL 12 0 } ∧
      .debugCapture ∈ s.dbgCapArm.pwr.waiting ∧ s.dbgCapArm.pwr.admitted = s.pwr.admitted := by
  have hidle : ¬ (s.dbg.cap.state = .wait ∨ s.dbg.cap.state = .armed ∨ s.dbg.cap.state = .triggered) := by
    rintro (hst | hst | hst) <;> simp [hst] at h
  unfold State.dbgCapArm
  extract_lets st cap s1
  rw [if_neg hidle]
  split
  · next hwait => exact ⟨rfl, List.contains_iff_mem.mp hwait, rfl⟩
  · exact ⟨rfl, List.mem_append_right _ List.mem_cons_self, rfl⟩

/-- A debug capture is in progress from its ARM to its end (R486). -/
theorem DbgCapState.busy_of_mem {st : DbgCapState} (h : st ∈ [.wait, .armed, .triggered]) : st = .wait ∨ st = .armed ∨ st = .triggered := by
  simpa using h

/-- An ARM of a debug capture in progress is refused, which is shown beside its state (R486, R487). -/
theorem State.dbgCapArm_busy {s : State} (h : s.dbg.cap.state ∈ [.wait, .armed, .triggered]) :
    s.dbgCapArm = { s with dbg := { s.dbg with cap := { s.dbg.cap with refused := true } } } := if_pos (DbgCapState.busy_of_mem h)

/-- A debug capture in progress is aborted, and keeps its entries (R486). -/
theorem State.dbgCapAbort_busy {s : State} (h : s.dbg.cap.state ∈ [.wait, .armed, .triggered]) : s.dbgCapAbort = s.dbgCapEnd .aborted :=
  if_pos (DbgCapState.busy_of_mem h)

theorem State.dbgCapEnd_regsBut (s : State) (st : DbgCapState) : RegsBut [R.DBG_CAUSE] s (s.dbgCapEnd st) :=
  (RegsBut.of_regs rfl).trans (State.latch_regsBut _ _ _)

theorem State.dbgCapArm_regs (s : State) : s.dbgCapArm.regs = s.regs := keep_regs (by simp)

/-- DBG_CAP_STAT shows an ARM that was refused as state 7 (R487). -/
theorem State.dbgCapStat_refused {s : State} (h : s.dbg.cap.refused = true) : fld s.dbgCapStat 31 29 = 7 := by
  simp only [State.dbgCapStat, h, if_true, fld, bits, BitVec.toNat_ofNat]
  omega

/-- Settles O56: HALT, RESUME and STEP act on the marks of the targets, an ARM waits or is refused, and an ABORT ends the capture. -/
theorem debugFunction : Obligations.DebugFunction := by
  have hbits {x : Nat} (hx : x < 1024) : bits (x % 1024) 9 0 = x := by
    simp only [bits]
    omega
  have hmod {x : Nat} (hx : x < 1024) : x % 1024 = x := Nat.mod_eq_of_lt hx
  refine ⟨fun r x ns s hx hmay hen => ?halt, fun r x s hx hmay hen => ?resume, fun r x s hx hmay hen => ?step,
    fun r x ns c s hmay hen hc => ?disabled, fun r s hmay hidle => ?arm, fun r s hmay hbusy => ?armBusy, fun r s hmay hbusy => ?abort⟩
  case halt =>
    have hdo := State.haltWrite_owned (b := 31) (x := x) hmay ns (by decide) (by decide)
    rw [hen, if_neg Bool.false_ne_true.symm, if_pos rfl] at hdo
    obtain ⟨hmark, hhalted, hclear⟩ := (s.haltArgs 31 x).dbgHalt_marks (x % 1024) ns
    rw [s.haltArgs_dbg] at hmark hhalted hclear
    rw [hbits hx] at hmark hclear
    have hlnk : (s.haltArgs 31 x).lnk = s.lnk := keep_lnk (by simp)
    exact ⟨_, congrArg Host.Outcome.next hdo, hmark, hhalted, hclear,
      ((State.dbgHalt_regsBut _ _ _).rf (by decide) 9 0).trans (s.rf_haltArgs (by decide) (by decide) hx), State.dbgHalt_firedNow _ _ _,
      (State.dbgHalt_blocks _ _ _).trans (congrArg (·.blocks + 1) hlnk), by simp⟩
  case resume =>
    have hdo := State.haltWrite_owned (b := 30) (x := x) hmay 0 (by decide) (by decide)
    rw [hen, if_neg Bool.false_ne_true.symm, if_neg (by decide), if_pos rfl] at hdo
    exact ⟨_, congrArg Host.Outcome.next hdo, by rw [State.dbgResume, hbits hx, s.haltArgs_dbg],
      (State.rf_congr ((s.haltArgs 30 x).dbgResume_regs _) _ _ _).trans (s.rf_haltArgs (by decide) (by decide) hx),
      (s.haltArgs_regsBut 30 x).trans (.of_regs (State.dbgResume_regs _ _)), by simp⟩
  case step =>
    have hdo := State.haltWrite_owned (b := 29) (x := x) hmay 0 (by decide) (by decide)
    rw [hen, if_neg Bool.false_ne_true.symm, if_neg (by decide), if_neg (by decide)] at hdo
    exact ⟨_, congrArg Host.Outcome.next hdo, by rw [State.dbgStep, hbits hx, s.haltArgs_dbg],
      (State.rf_congr ((s.haltArgs 29 x).dbgStep_regs _) _ _ _).trans (s.rf_haltArgs (by decide) (by decide) hx),
      (s.haltArgs_regsBut 29 x).trans (.of_regs (State.dbgStep_regs _ _)), by simp⟩
  case disabled =>
    have hlog (b : Nat) (ns : Nat) (hlow : 29 ≤ b) (hhigh : b < 32) :
        s.haltWrite r (s.actWord R.DBG_HALT b [(9, 0, x)]) ns = (s.haltArgs b x).logErr r 5 R.DBG_HALT :=
      (State.haltWrite_owned hmay ns hlow hhigh).trans (if_pos hen)
    have hexec : ∃ b, exec c s = .next ((s.haltArgs b x).logErr r 5 R.DBG_HALT) := by
      simp only [List.mem_cons, List.not_mem_nil, or_false] at hc
      obtain rfl | rfl | rfl := hc
      · exact ⟨31, congrArg Host.Outcome.next (hlog 31 ns (by decide) (by decide))⟩
      · exact ⟨30, congrArg Host.Outcome.next (hlog 30 0 (by decide) (by decide))⟩
      · exact ⟨29, congrArg Host.Outcome.next (hlog 29 0 (by decide) (by decide))⟩
    obtain ⟨b, hb⟩ := hexec
    obtain ⟨hmgmt, hhatch⟩ := (s.haltArgs b x).logErr_kind r R.DBG_HALT (kind := 5) (by decide)
    exact ⟨_, hb, keep_dbg (by simp), hmgmt, hhatch, by simp⟩
  case arm =>
    obtain ⟨hcap, hwait, hadm⟩ := State.dbgCapArm_idle (s := s.rewritten R.DBG_CAP_CTRL) hidle
    rw [State.rf, State.reg_rewritten, State.reg_rewritten] at hcap
    exact ⟨_, exec_dbgCapArm hmay, hcap, hwait, hadm, (s.rewritten_regsBut _ _).trans (.of_regs (State.dbgCapArm_regs _)), by simp⟩
  case armBusy =>
    have heq := State.dbgCapArm_busy (s := s.rewritten R.DBG_CAP_CTRL) hbusy
    exact ⟨_, exec_dbgCapArm hmay, congrArg State.dbg heq, State.dbgCapStat_refused (by rw [heq]),
      (s.rewritten_regsBut _ _).trans (.of_regs (State.dbgCapArm_regs _)), by rw [heq, Frame.set_dbg _ (by simp)]; simp⟩
  case abort =>
    have heq := State.dbgCapAbort_busy (s := s.rewritten R.DBG_CAP_CTRL) hbusy
    refine ⟨_, (exec_dbgCapAbort hmay).trans (congrArg _ heq), rfl, State.rb_latch _ _ _ (by decide),
      (s.rewritten_regsBut R.DBG_CAP_CTRL _).trans ((State.dbgCapEnd_regsBut _ _).mono (by simp)), by simp⟩

end Sys2Proof.Machine
end

section
/-! PROOFS. The writes of the Trunk (O49): the order of the waiting writes, the two slots of an object, the Bin, and FORMAT. -/

namespace Sys2Proof.Machine

/-! The order of the waiting writes. -/

/-- No write waits at a rank below that of every waiting write (R428). -/
theorem takeRank_none {n : Nat} {l : List (TrkItem × List Nat)} (h : ∀ y ∈ l, n < y.1.rank) : takeRank n l = none := by
  induction l with
  | nil => rfl
  | cons y l ih =>
    obtain ⟨hy, hl⟩ := List.forall_mem_cons.mp h
    rw [takeRank, if_neg (by omega), ih hl, Option.map_none]

/-- The first waiting write of the lowest rank is the one that the search of R428 finds. -/
theorem findSome_takeRank {n : Nat} {l : List (TrkItem × List Nat)} {y : (TrkItem × List Nat) × List (TrkItem × List Nat)}
    (hlow : 1 ≤ n) (hhigh : n ≤ 4) (htake : takeRank n l = some y) (hrank : ∀ y ∈ l, n ≤ y.1.rank) :
    ([1, 2, 3, 4] : List Nat).findSome? (fun n => takeRank n l) = some y := by
  have hnone {k : Nat} (hk : k < n) : takeRank k l = none := takeRank_none fun y hy => hk.trans_le (hrank y hy)
  obtain rfl | rfl | rfl | rfl : n = 1 ∨ n = 2 ∨ n = 3 ∨ n = 4 := by omega
  all_goals simp [List.findSome?, htake, hnone]

section
variable {s : State} (hidle : s.trk.busy = none) (hprot : s.trk.writeProt = false)
include hidle hprot

theorem exec_trunkWriteStart_obj {x : TrkItem × List Nat} {rest : List (TrkItem × List Nat)}
    (h : ([1, 2, 3, 4] : List Nat).findSome? (fun n => takeRank n s.trk.waiting) = some (x, rest)) :
    exec .trunkWriteStart s = .next { s with trk := { s.trk with busy := some (.obj x.1 x.2), waiting := rest } } := by
  show execTrunkWriteStart s = _
  unfold execTrunkWriteStart
  extract_lets t
  rw [if_neg (by simp [t, hidle, hprot]), h]

theorem exec_trunkWriteStart_ring {r : List Nat} {rest : List (List Nat)} (hwait : s.trk.waiting = []) (hring : s.trk.waitRing = r :: rest) :
    exec .trunkWriteStart s = .next { s with trk := { s.trk with busy := some (.ring r), waitRing := rest } } := by
  show execTrunkWriteStart s = _
  unfold execTrunkWriteStart
  extract_lets t
  rw [if_neg (by simp [t, hidle, hprot]), hwait, hring]
  rfl

theorem exec_trunkWriteStart_bin {e : BinEnt} {rest : List BinEnt} (hwait : s.trk.waiting = []) (hring : s.trk.waitRing = [])
    (hqueue : s.trk.queue = e :: rest) :
    exec .trunkWriteStart s = .next { s with trk := { s.trk with
      busy := some (.bin e), queue := rest, coalescing := s.trk.coalescing && decide (512 ≤ rest.length) } } := by
  show execTrunkWriteStart s = _
  unfold execTrunkWriteStart
  extract_lets t
  rw [if_neg (by simp [t, hidle, hprot]), hwait, hring, hqueue]
  rfl

end

/-! The two slots of an object. -/

/-- The first slot holds the newest valid copy (R427). -/
def TrkObj.firstNewest (o : TrkObj) : Bool := o.s0.valid && (!o.s1.valid || o.s1.seq ≤ o.s0.seq)

theorem newestSlot_first {o : TrkObj} (h : o.firstNewest = true) : newestSlot o = some o.s0 := if_pos h

theorem newestSlot_second {o : TrkObj} (h : o.firstNewest = false) : newestSlot o = if o.s1.valid = true then some o.s1 else none :=
  if_neg (Bool.eq_false_iff.mp h)

/-- The sequence number of the next copy (R427). -/
def TrkObj.nextSeq (o : TrkObj) : Nat := match newestSlot o with | some x => (x.seq + 1) % 2 ^ 32 | none => 1

/-- A write goes to the slot that does not hold the newest valid copy (R427). -/
theorem TrkObj.write_ok (o : TrkObj) (ws : List Nat) :
    o.write ws true = if o.firstNewest = true then { o with s1 := ⟨o.nextSeq, true, ws⟩ } else { o with s0 := ⟨o.nextSeq, true, ws⟩ } := rfl

theorem TrkObj.write_failed (o : TrkObj) (ws : List Nat) :
    o.write ws false = if o.firstNewest = true then { o with s1 := ⟨o.nextSeq, false, []⟩ } else { o with s0 := ⟨o.nextSeq, false, []⟩ } :=
  rfl

/-- A write that completes makes its words the newest valid copy (R427). -/
theorem newestSlot_write_ok {o : TrkObj} {ws : List Nat} (hnext : ∀ x, newestSlot o = some x → x.seq < o.nextSeq) :
    newestSlot (o.write ws true) = some ⟨o.nextSeq, true, ws⟩ := by
  rw [TrkObj.write_ok]
  cases hfirst : o.firstNewest with
  | true =>
    have hseq : o.s0.seq < o.nextSeq := hnext _ (newestSlot_first hfirst)
    exact newestSlot_second (by simp [TrkObj.firstNewest, hseq])
  | false =>
    refine newestSlot_first ?_
    cases hvalid : o.s1.valid with
    | false => simp [TrkObj.firstNewest, hvalid]
    | true =>
      have hseq : o.s1.seq < o.nextSeq := hnext _ ((newestSlot_second hfirst).trans (if_pos hvalid))
      simp [TrkObj.firstNewest, hseq.le]

/-- A write that fails leaves the newest valid copy (R427). -/
theorem newestSlot_write_failed (o : TrkObj) (ws : List Nat) : newestSlot (o.write ws false) = newestSlot o := by
  rw [TrkObj.write_failed]
  cases hfirst : o.firstNewest with
  | true =>
    have hvalid : o.s0.valid = true := (Bool.and_eq_true_iff.mp hfirst).1
    exact (newestSlot_first (by simp [TrkObj.firstNewest, hvalid])).trans (newestSlot_first hfirst).symm
  | false => exact (newestSlot_second (by simp [TrkObj.firstNewest])).trans (newestSlot_second hfirst).symm

/-- A newest valid copy is one of the two slots. -/
theorem newestSlot_seq_lt {o : TrkObj} {n : Nat} (h0 : o.s0.seq < n) (h1 : o.s1.seq < n) {x : TrkSlot} (hx : newestSlot o = some x) :
    x.seq < n := by
  unfold newestSlot at hx
  split at hx
  · exact Option.some.inj hx ▸ h0
  · split at hx
    · exact Option.some.inj hx ▸ h1
    · exact nomatch hx

/-- While the sequence numbers do not wrap, the next one is above that of the newest valid copy (R427). -/
theorem TrkObj.nextSeq_eq {o : TrkObj} (h0 : o.s0.seq < 2 ^ 32 - 1) (h1 : o.s1.seq < 2 ^ 32 - 1) :
    o.nextSeq = match newestSlot o with | some x => x.seq + 1 | none => 1 := by
  cases hnew : newestSlot o with
  | none => rw [TrkObj.nextSeq, hnew]
  | some x =>
    have hseq := newestSlot_seq_lt h0 h1 hnew
    rw [TrkObj.nextSeq, hnew]
    exact Nat.mod_eq_of_lt (by omega)

theorem TrkSt.obj_putObj (t : TrkSt) (i : TrkItem) (o : TrkObj) : (t.putObj i o).obj i = o := by cases i <;> rfl

theorem TrkSt.putObj_busy (t : TrkSt) (i : TrkItem) (o : TrkObj) : (t.putObj i o).busy = t.busy := by cases i <;> rfl

/-! What the end of a write brings with it. -/

/-- A Bin record changes the queue of the Bin and what the next records carry, and leaves the rest of the Trunk (R431, R432). -/
theorem State.binLog_trk (s : State) (cause : Nat) (payload : List Nat) : ∃ queue coalescing suppressed,
    (s.binLog cause payload).trk = { s.trk with queue := queue, coalescing := coalescing, suppressed := suppressed } := by
  unfold State.binLog State.binAt State.binPush
  split
  · exact ⟨_, _, _, rfl⟩
  · extract_lets start q s1 on rep q' s2 t3 s3
    have h1 : s1.trk = s.trk := keep_trk (by unfold s1; split <;> simp)
    have h2 : s2.trk = s1.trk := keep_trk (by unfold s2; split <;> simp)
    have h3 : t3 = s.trk := h2.trans h1
    exact ⟨q', on && decide (512 ≤ q'.length), _,
      congrArg (fun t : TrkSt => { t with queue := q', coalescing := on && decide (512 ≤ q'.length) }) h3⟩

theorem TrkSt.obj_queued (t : TrkSt) (i : TrkItem) (queue : List BinEnt) (coalescing : Bool) (suppressed : SMap Nat) :
    ({ t with queue := queue, coalescing := coalescing, suppressed := suppressed } : TrkSt).obj i = t.obj i := by cases i <;> rfl

/-- The completion of a metering save: its epoch, or its failure (R331). -/
def State.saveWritten (s : State) (ws : List Nat) (ok : Bool) : State :=
  if ok then s.setReg R.MTR_SAVE_EPOCH (BitVec.ofNat 32 (ws.getD 2 0)) else (s.latch R.MTR_CAUSE 3).binLog 0xA5 []

/-- The request that a safety set's write was made for (R354). -/
def confirmOf (ws : List Nat) (c : Confirm) : Bool := !c.written && c.words == ws

/-- The end of a safety set's write shows its request written, or ends the request (R354). -/
theorem State.objWritten_safetySet (s : State) (ws : List Nat) (ok : Bool) : s.objWritten .safetySet ws ok =
    if s.saf.confirm.any (confirmOf ws) = false then s
    else if ok then { s with saf := { s.saf with
      confirm := s.saf.confirm.modify (s.saf.confirm.findIdx (confirmOf ws)) (fun c => { c with written := true }) } }
    else ({ s with saf := { s.saf with confirm := s.saf.confirm.eraseP (confirmOf ws) } } : State).confirmDone 6 0 := rfl

/-- What the end of an object's write brings with it leaves the causes of the Trunk that are set. -/
theorem State.rb_objWritten_keeps {s : State} {i : TrkItem} {ws : List Nat} {b : Nat} (h : s.rb R.TRK_CAUSE b = true) :
    (s.objWritten i ws false).rb R.TRK_CAUSE b = true := by
  have hlogged (k cause : Nat) (payload : List Nat) {b' : Nat} (hb : b' < 32) :
      ((s.latch k b').binLog cause payload).rb R.TRK_CAUSE b = true :=
    State.rb_binLog_keeps _ _ (State.rb_latch_keeps _ _ _ _ _ hb h)
  cases i with
  | pfailSave | periodicSave => exact hlogged R.MTR_CAUSE 0xA5 [] (by decide)
  | safetySet =>
    rw [State.objWritten_safetySet]
    split
    · exact h
    · rw [if_neg Bool.false_ne_true]
      exact ((State.confirmDone_regsBut _ 6 0).rb (by decide) b).trans h
  | bands => exact hlogged R.REF_CAUSE 0xC3 _ (by decide)
  | directory | startRecord | repairMap | sealState => exact h

/-- What the end of an object's write brings with it leaves the objects, the write in progress and the Bin (R331, R354, R411). -/
theorem State.objWritten_trk (s : State) (i : TrkItem) (ws : List Nat) (ok : Bool) : ∃ queue coalescing suppressed,
    (s.objWritten i ws ok).trk = { s.trk with queue := queue, coalescing := coalescing, suppressed := suppressed } := by
  have hkept {t : State} (h : t.trk = s.trk) : ∃ queue coalescing suppressed,
      t.trk = { s.trk with queue := queue, coalescing := coalescing, suppressed := suppressed } := ⟨_, _, _, h⟩
  have hsave (t : State) : ∃ queue coalescing suppressed,
      (t.saveWritten ws ok).trk = { t.trk with queue := queue, coalescing := coalescing, suppressed := suppressed } := by
    unfold State.saveWritten
    cases ok with
    | true => exact ⟨_, _, _, rfl⟩
    | false => exact (t.latch R.MTR_CAUSE 3).binLog_trk _ _
  cases i with
  | pfailSave | periodicSave => exact hsave s
  | safetySet =>
    have hframe : Frame [.regs, .saf] s (s.objWritten .safetySet ws ok) := by
      rw [State.objWritten_safetySet]
      cases ok <;> simp
    exact hkept (keep_trk (hframe.mono (by decide)))
  | bands =>
    cases ok with
    | true => exact hkept rfl
    | false => exact (s.latch R.REF_CAUSE 3).binLog_trk _ _
  | directory | startRecord | repairMap | sealState => exact hkept rfl

/-! The end of a write. -/

/-- The Trunk with every region emptied (R430). -/
def TrkSt.emptied (t : TrkSt) : TrkSt :=
  { t with
    writeProt := false, busy := none, waiting := [], waitRing := [], directory := {}, bands := {}, safety := {}, meter := {}
    sealState := {}, repair := {}, startRec := {}, ring := [], bin := [] }

/-- No write is in progress (R428). -/
def State.trkIdle (s : State) : State := { s with trk := { s.trk with busy := none } }

/-- The slots of an object as a write of it leaves them (R427). -/
def State.objEnded (s : State) (i : TrkItem) (ws : List Nat) (ok : Bool) : State :=
  { s with trk := s.trk.putObj i ((s.trk.obj i).write ws ok) }

@[simp] theorem State.trkIdle_frame {W : List Part} {r s : State} (hW : [.trk] ⊆ W) : Frame W r s.trkIdle ↔ Frame W r s :=
  Frame.set_trk _ (hW (by simp))

@[simp] theorem State.objEnded_frame {W : List Part} {r s : State} (i : TrkItem) (ws : List Nat) (ok : Bool) (hW : [.trk] ⊆ W) :
    Frame W r (s.objEnded i ws ok) ↔ Frame W r s :=
  Frame.set_trk _ (hW (by simp))

/-- The state in which no write is in progress, and a failed one is told (R427, R428). -/
def State.trkEnded (s : State) (ok : Bool) : State := if ok then s.trkIdle else s.trkIdle.latch R.TRK_CAUSE 2

theorem State.rb_objEnded (s : State) (i : TrkItem) (ws : List Nat) (ok : Bool) (k b : Nat) : (s.objEnded i ws ok).rb k b = s.rb k b := rfl

theorem State.trkEnded_trk (s : State) (ok : Bool) : (s.trkEnded ok).trk = { s.trk with busy := none } := by
  cases ok with
  | true => rfl
  | false => exact State.latch_trk _ _ _

theorem State.trkEnded_regsBut (s : State) (ok : Bool) : RegsBut [R.TRK_CAUSE] s (s.trkEnded ok) := by
  cases ok with
  | true => exact .of_regs rfl
  | false => exact (RegsBut.of_regs (t := s.trkIdle) rfl).trans (State.latch_regsBut s.trkIdle R.TRK_CAUSE 2)

/-- A write that fails is told (R427). -/
theorem State.rb_trkEnded (s : State) : (s.trkEnded false).rb R.TRK_CAUSE 2 = true := State.rb_latch s.trkIdle _ _ (by decide)

theorem State.trkEnded_obj (s : State) (ok : Bool) (i : TrkItem) : (s.trkEnded ok).trk.obj i = s.trk.obj i := by
  rw [s.trkEnded_trk]
  cases i <;> rfl

theorem exec_trunkWriteComplete_obj {s : State} {i : TrkItem} {ws : List Nat} (hbusy : s.trk.busy = some (.obj i ws)) (ok : Bool) :
    exec (.trunkWriteComplete ok) s = .next (((s.trkEnded ok).objEnded i ws ok).objWritten i ws ok) := by
  show execTrunkWriteComplete _ _ = _
  unfold execTrunkWriteComplete
  rw [hbusy]
  rfl

theorem exec_trunkWriteComplete_bin {s : State} {e : BinEnt} (hbusy : s.trk.busy = some (.bin e)) (ok : Bool) :
    exec (.trunkWriteComplete ok) s = .next (if ok then (s.trkEnded ok).binWrite e else (s.trkEnded ok).binFailed e) := by
  show execTrunkWriteComplete _ _ = _
  unfold execTrunkWriteComplete
  rw [hbusy]
  rfl

/-- The end of an object's write leaves no write in progress, the object's slots as the write has left them, and the Bin (R427, R428). -/
theorem State.objEnded_objWritten {s : State} (hidle : s.trk.busy = none) (i : TrkItem) (ws : List Nat) (ok : Bool) :
    ((s.objEnded i ws ok).objWritten i ws ok).trk.busy = none ∧
      ((s.objEnded i ws ok).objWritten i ws ok).trk.obj i = (s.trk.obj i).write ws ok ∧
      ((s.objEnded i ws ok).objWritten i ws ok).trk.bin = s.trk.bin := by
  obtain ⟨q, c, u, htrk⟩ := (s.objEnded i ws ok).objWritten_trk i ws ok
  rw [htrk]
  refine ⟨(s.trk.putObj_busy i _).trans hidle, ?_, (s.trk.putObj_bin i _).1⟩
  rw [TrkSt.obj_queued]
  exact s.trk.obj_putObj i _

/-- A Bin record that completes takes the next sequence number and carries what its cause has lost (R431). -/
theorem State.binWrite_spec (s : State) (e : BinEnt) : (s.binWrite e).trk.busy = s.trk.busy ∧
    (s.binWrite e).trk.binSeq = (s.trk.binSeq + 1) % 2 ^ 32 ∧
    smGet [] (s.binWrite e).trk.bin (s.binWrite e).trk.binSeq = binWords e (s.binWrite e).trk.binSeq (smGet 0 s.trk.suppressed e.cause) ∧
    smGet 0 (s.binWrite e).trk.suppressed e.cause = 0 := by
  refine ⟨rfl, rfl, ?_, ?_⟩
  · simp only [State.binWrite, smGet_smSet, if_true]
  · simp only [State.binWrite, smGet_smErase, if_true]

/-- A Bin record whose write failed is lost with the record whose place it took, and counted for the next record of its cause (R427, R431). -/
theorem State.binFailed_spec (s : State) (e : BinEnt) : (s.binFailed e).trk.busy = s.trk.busy ∧
    (s.binFailed e).trk.binSeq = s.trk.binSeq ∧ (s.binFailed e).trk.bin = s.trk.binGiveWay.bin ∧
    smGet 0 (s.binFailed e).trk.suppressed e.cause = smGet 0 s.trk.suppressed e.cause + (e.suppressed + 1) ∧
    RegsBut [R.TRK_SUPPRESSED] s (s.binFailed e) := by
  refine ⟨rfl, rfl, rfl, ?_, ?_⟩
  · simp only [State.binFailed, smGet_smUpd, if_true]
    rfl
  · exact (s.countSuppressed_regsBut 1).trans (.of_regs rfl)

/-! FORMAT. -/

theorem exec_format_accepted {s : State} (hoff : s.sys.conv = .off) (hprot : s.trk.writeProt = true) :
    exec (.format .mgmt 0x4B1D) s = .next s.formatTrunk :=
  congrArg Host.Outcome.next (if_pos ⟨rfl, rfl, hoff, hprot⟩)

/-- FORMAT empties every region, records itself and has the directory made anew (R417, R430). -/
theorem State.formatTrunk_spec (s : State) : ∃ queue coalescing suppressed,
    s.formatTrunk.trk = { s.trk.emptied with
      queue := queue, coalescing := coalescing, suppressed := suppressed, waiting := [(.directory, s.directoryWords)] } ∧
    s.formatTrunk.rb R.TRK_CAUSE 3 = true ∧ RegsBut [R.TRK_CAUSE, R.TRK_QUEUE, R.TRK_SUPPRESSED] s s.formatTrunk := by
  unfold State.formatTrunk
  extract_lets t s1
  obtain ⟨q, c, u, hlog⟩ := (s1.latch R.TRK_CAUSE 3).binLog_trk 0xD0 [0]
  rw [State.latch_trk] at hlog
  have hprot : ((s1.latch R.TRK_CAUSE 3).binLog 0xD0 [0]).trk.writeProt = false := by rw [hlog]
  have hask (y : State) (hy : y.trk.writeProt = false) (i : TrkItem) (ws : List Nat) :
      y.trkAsk i ws = { y with trk := { y.trk with waiting := y.trk.waiting ++ [(i, ws)] } } :=
    if_neg (by rw [hy]; exact Bool.false_ne_true)
  have hregs := (s1.latch R.TRK_CAUSE 3).binLog_regsBut 0xD0 [0]
  rw [hask _ hprot]
  refine ⟨q, c, u, ?_, ?_, ?_⟩
  · dsimp only
    rw [hlog]
    rfl
  · exact State.rb_binLog_keeps (s := s1.latch R.TRK_CAUSE 3) 0xD0 [0] (State.rb_latch _ _ _ (by decide))
  · exact (RegsBut.of_regs (t := s1) rfl).trans (((State.latch_regsBut _ _ _).mono (by simp)).trans ((hregs.mono (by simp)).trans
      (.of_regs rfl)))


/-- Settles O49: the first waiting write of the lowest rank starts, the two slots alternate, and FORMAT empties the Trunk. -/
theorem trunkWrites : Obligations.TrunkWrites := by
  refine ⟨fun n x rest s hidle hprot hlow hhigh htake hrank => ?start, rfl, fun r rest s hidle hprot hwait hring => ?ring,
    fun e rest s hidle hprot hwait hring hqueue => ?bin, fun i ws s hbusy h0 h1 => ?obj, fun i ws s hbusy => ?objFailed,
    fun e s hbusy => ?binDone, fun e s hbusy => ?binLost, fun r key s hno => ?refused, fun s hoff hprot => ?format⟩
  case start => exact ⟨_, exec_trunkWriteStart_obj hidle hprot (findSome_takeRank hlow hhigh htake hrank), rfl, by simp⟩
  case ring => exact ⟨_, exec_trunkWriteStart_ring hidle hprot hwait hring, rfl, by simp⟩
  case bin => exact ⟨_, exec_trunkWriteStart_bin hidle hprot hwait hring hqueue, rfl, rfl, rfl, by simp⟩
  case obj =>
    obtain ⟨hidle, hobj, hbin⟩ := State.objEnded_objWritten (s := s.trkEnded true) rfl i ws true
    refine ⟨_, exec_trunkWriteComplete_obj hbusy true, hidle, ?_, hbin, by simp [State.trkEnded]⟩
    have hnext : ∀ x, newestSlot (s.trk.obj i) = some x → x.seq < (s.trk.obj i).nextSeq := by
      intro x hx
      rw [TrkObj.nextSeq_eq h0 h1, hx]
      exact Nat.lt_succ_self _
    have hnew := newestSlot_write_ok (ws := ws) hnext
    rw [TrkObj.nextSeq_eq h0 h1] at hnew
    rw [hobj, s.trkEnded_obj]
    exact hnew
  case objFailed =>
    obtain ⟨hidle, hobj, -⟩ := State.objEnded_objWritten (s := s.trkEnded false) rfl i ws false
    have htold : ((s.trkEnded false).objEnded i ws false).rb R.TRK_CAUSE 2 = true := (State.rb_objEnded _ i ws false _ 2).trans s.rb_trkEnded
    refine ⟨_, exec_trunkWriteComplete_obj hbusy false, hidle, State.rb_objWritten_keeps htold, ?_, by simp [State.trkEnded]⟩
    rw [hobj, s.trkEnded_obj]
    exact newestSlot_write_failed _ _
  case binDone =>
    obtain ⟨hidle, hseq, hbin, hcarried⟩ := (s.trkEnded true).binWrite_spec e
    exact ⟨_, exec_trunkWriteComplete_bin hbusy true, hidle, hseq, hbin, hcarried, by simp [State.trkEnded]⟩
  case binLost =>
    obtain ⟨hidle, hseq, hbin, hcarried, hregs⟩ := (s.trkEnded false).binFailed_spec e
    rw [s.trkEnded_trk] at hidle hseq hbin hcarried
    exact ⟨_, exec_trunkWriteComplete_bin hbusy false, hidle, hseq, hbin, hcarried,
      (hregs.rb (by decide) 2).trans s.rb_trkEnded,
      ((s.trkEnded_regsBut false).mono (by simp)).trans (hregs.mono (by simp)), by simp [State.trkEnded]⟩
  case refused => exact congrArg Host.Outcome.next (if_neg fun ⟨hr, hk, hoff, hprot⟩ => by simp [hr, hk, hoff, hprot] at hno)
  case format =>
    obtain ⟨q, c, u, htrk, hcause, hregs⟩ := s.formatTrunk_spec
    refine ⟨_, exec_format_accepted hoff hprot, ?_⟩
    rw [htrk]
    exact ⟨rfl, rfl, rfl, rfl, rfl, rfl, rfl, rfl, rfl, hcause, hregs, by simp⟩

end Sys2Proof.Machine
end

section
/-! PROOFS. The supply and the budget (O47): transactions on the PMBus and what they leave, and the slack window, the voltage command, the poll
and the admission assembled. -/

namespace Sys2Proof.Machine

/-! Transactions on the PMBus. -/

/-- The supply without what its regulators have last answered (R405, R407). -/
def PwrSt.unread (p : PwrSt) : PwrSt := { p with fails := [], pmbFail := [], devRun := [], measMv := 0, regPower := [] }

/-- What a transaction on the PMBus leaves: every register but the causes and those of the Bin queue, the causes that are set, the supply
but for what the regulators answered, and the start-up (R405, R407). -/
structure PmbKept (s t : State) : Prop where
  regs : RegsBut [R.PWR_CAUSE, R.TRK_CAUSE, R.TRK_QUEUE, R.TRK_SUPPRESSED] s t
  causes : ∀ b, s.rb R.PWR_CAUSE b = true → t.rb R.PWR_CAUSE b = true
  unread : t.pwr.unread = s.pwr.unread
  start : t.start = s.start

theorem PmbKept.refl (s : State) : PmbKept s s := ⟨.refl _ s, fun _ h => h, rfl, rfl⟩

theorem PmbKept.trans {s t u : State} (h : PmbKept s t) (h' : PmbKept t u) : PmbKept s u :=
  ⟨h.regs.trans h'.regs, fun b hb => h'.causes b (h.causes b hb), h'.unread.trans h.unread, h'.start.trans h.start⟩

/-- A change of what the regulators answered alone. -/
theorem PmbKept.of_unread {s t : State} (hregs : t.regs = s.regs) (hpwr : t.pwr.unread = s.pwr.unread)
    (hstart : t.start = s.start) : PmbKept s t :=
  ⟨.of_regs hregs, fun b hb => (congrArg (flag · b) (State.reg_congr hregs _)).trans hb, hpwr, hstart⟩

theorem PmbKept.pwr {s t : State} (h : PmbKept s t) : ∃ fails pmbFail devRun measMv regPower, t.pwr = { s.pwr with
    fails := fails, pmbFail := pmbFail, devRun := devRun, measMv := measMv, regPower := regPower } :=
  ⟨t.pwr.fails, t.pwr.pmbFail, t.pwr.devRun, t.pwr.measMv, t.pwr.regPower, congrArg (fun p : PwrSt => { p with
    fails := t.pwr.fails, pmbFail := t.pwr.pmbFail, devRun := t.pwr.devRun, measMv := t.pwr.measMv, regPower := t.pwr.regPower }) h.unread⟩

theorem PmbKept.budget {s t : State} (h : PmbKept s t) : t.budget = s.budget := by
  rw [State.budget, State.budget, h.regs.rf (by decide)]

theorem PmbKept.setMv {s t : State} (h : PmbKept s t) : t.pwr.setMv = s.pwr.setMv :=
  show t.pwr.unread.setMv = s.pwr.unread.setMv from congrArg PwrSt.setMv h.unread

theorem PmbKept.regulators {s t : State} (h : PmbKept s t) : t.regulators = s.regulators := by
  rw [State.regulators, State.regulators, h.regs.rf (by decide)]

theorem PmbKept.pmbExp {s t : State} (h : PmbKept s t) : t.pmbExp = s.pmbExp := by
  rw [State.pmbExp, State.pmbExp, State.rs, State.rs, h.regs.rf (by decide)]

theorem PmbKept.voutVolts {s t : State} (h : PmbKept s t) (code : Nat) : t.voutVolts code = s.voutVolts code := by
  rw [State.voutVolts, State.voutVolts, h.pmbExp]

theorem PmbKept.voutCode {s t : State} (h : PmbKept s t) (mv : Nat) : t.voutCode mv = s.voutCode mv := by
  rw [State.voutCode, State.voutCode, h.pmbExp]

/-- One transaction to a regulator as it goes out (R405). -/
def State.pmbRequest (s : State) (r cmd : Nat) (data : Option Nat) : BusOut :=
  .pmbus (s.pmbAddr r) cmd data (s.rb R.PWR_PMB_CFG 30) (s.rb R.PWR_PMB_CFG 31)

theorem PmbKept.request {s t : State} (h : PmbKept s t) (r cmd : Nat) (data : Option Nat) : t.pmbRequest r cmd data = s.pmbRequest r cmd data := by
  have haddr : t.pmbAddr r = s.pmbAddr r := by
    rw [State.pmbAddr, State.pmbAddr, h.regs.rf (by decide), h.regs.rf (by decide)]
  rw [State.pmbRequest, State.pmbRequest, haddr, h.regs.rb (by decide), h.regs.rb (by decide)]

theorem State.pwrRecord_regsBut (s : State) (cause : Nat) : RegsBut [R.TRK_SUPPRESSED, R.TRK_CAUSE, R.TRK_QUEUE] s (s.pwrRecord cause) :=
  s.binLog_regsBut cause _

/-- A cause of the Power Manager with its record (R407, R431). -/
theorem State.latchRecord_kept (s : State) (cause : Nat) {b : Nat} (hb : b < 32) :
    PmbKept s ((s.latch R.PWR_CAUSE b).pwrRecord cause) ∧ ((s.latch R.PWR_CAUSE b).pwrRecord cause).rb R.PWR_CAUSE b = true := by
  have hrec := (s.latch R.PWR_CAUSE b).pwrRecord_regsBut cause
  refine ⟨⟨((s.latch_regsBut R.PWR_CAUSE b).mono (by simp)).trans (hrec.mono (by simp)), fun b' h => ?_, ?_, keep_start (by simp)⟩, ?_⟩
  · exact (hrec.rb (by decide) b').trans (s.rb_latch_keeps _ _ _ _ hb h)
  · exact congrArg PwrSt.unread (keep_pwr (by simp))
  · exact (hrec.rb (by decide) b).trans (s.rb_latch _ _ hb)

/-- A cause of the Power Manager is set, and recorded when it was clear (R407, R431). -/
theorem State.pwrCause_kept (s : State) (cause : Nat) {b : Nat} (hb : b < 32) :
    PmbKept s (s.pwrCause b cause) ∧ (s.pwrCause b cause).rb R.PWR_CAUSE b = true := by
  unfold State.pwrCause
  split
  · next hset => exact ⟨.refl s, hset⟩
  · exact s.latchRecord_kept cause hb

theorem State.pmbOut_out (s : State) (r cmd : Nat) (data : Option Nat) : (s.pmbOut r cmd data).out = s.out ++ [s.pmbRequest r cmd data] := rfl

theorem State.pmbOut_kept (s : State) (r cmd : Nat) (data : Option Nat) : PmbKept s (s.pmbOut r cmd data) := .of_unread rfl rfl rfl

/-- The outcome of a transaction (R407). -/
theorem State.pmbDone_kept (s : State) (r : Nat) (ok : Bool) :
    PmbKept s (s.pmbDone r ok) ∧ (s.pmbDone r ok).pwr.regPower = s.pwr.regPower ∧ (s.pmbDone r ok).out = s.out := by
  unfold State.pmbDone
  extract_lets n was now p s1
  have h1 : PmbKept s s1 := .of_unread rfl rfl rfl
  split
  · obtain ⟨h2, -⟩ := s1.latchRecord_kept 0xCA (b := 1) (by decide)
    have hpwr : ((s1.latch R.PWR_CAUSE 1).pwrRecord 0xCA).pwr = s1.pwr := keep_pwr (by simp)
    have hout : ((s1.latch R.PWR_CAUSE 1).pwrRecord 0xCA).out = s1.out := keep_out (by simp)
    exact ⟨h1.trans h2, by rw [hpwr], by rw [hout]⟩
  · exact ⟨h1, rfl, rfl⟩

/-- A transaction goes out once, and once more where it fails (R405, R407). -/
theorem State.pmbSend_spec (s : State) (r cmd : Nat) (data : Option Nat) (ok : Bool) :
    PmbKept s (s.pmbSend r cmd data ok) ∧ (s.pmbSend r cmd data ok).pwr.regPower = s.pwr.regPower ∧
      (s.pmbSend r cmd data ok).out = s.out ++ List.replicate (if ok then 1 else 2) (s.pmbRequest r cmd data) := by
  have h1 := s.pmbOut_kept r cmd data
  cases ok with
  | true =>
    obtain ⟨h2, hpower, hout⟩ := (s.pmbOut r cmd data).pmbDone_kept r true
    exact ⟨h1.trans h2, hpower, hout⟩
  | false =>
    obtain ⟨h2, hpower, hout⟩ := ((s.pmbOut r cmd data).pmbOut r cmd data).pmbDone_kept r false
    refine ⟨h1.trans ((State.pmbOut_kept _ _ _ _).trans h2), hpower, hout.trans ?_⟩
    rw [State.pmbOut_out, State.pmbOut_out, h1.request, List.append_assoc]
    rfl

theorem State.sendVout_spec (s : State) (r : Nat) (ok : Bool) : PmbKept s (s.sendVout r ok) ∧ (s.sendVout r ok).pwr.regPower = s.pwr.regPower ∧
    (s.sendVout r ok).out = s.out ++ List.replicate (if ok then 1 else 2) (s.pmbRequest r 0x21 (some (s.voutCode s.pwr.setMv))) :=
  s.pmbSend_spec r 0x21 _ ok

/-- Transactions to regulators in turn (R405). -/
theorem PmbKept.foldl {s : State} {f : State → Nat → State} {sent : Nat → List BusOut}
    (hf : ∀ y, PmbKept s y → ∀ r, PmbKept y (f y r) ∧ (f y r).out = y.out ++ sent r) (l : List Nat) :
    PmbKept s (l.foldl f s) ∧ (l.foldl f s).out = s.out ++ l.flatMap sent := by
  have hall (y : State) (hy : PmbKept s y) : PmbKept s (l.foldl f y) ∧ (l.foldl f y).out = y.out ++ l.flatMap sent := by
    induction l generalizing y with
    | nil => exact ⟨hy, (List.append_nil _).symm⟩
    | cons r l ih =>
      obtain ⟨hkept, hout⟩ := hf y hy r
      obtain ⟨hrest, htail⟩ := ih (f y r) (hy.trans hkept)
      refine ⟨hrest, ?_⟩
      rw [List.foldl_cons, htail, hout, List.append_assoc, List.flatMap_cons]
  exact hall s (.refl s)

/-- VOUT_COMMAND to every regulator (R405). -/
theorem State.sendVouts_spec (s : State) (acks : List Bool) :
    let t := s.regulators.foldl (fun s r => s.sendVout r (acks.getD r true)) s
    PmbKept s t ∧ t.out = s.out ++ s.regulators.flatMap (fun r => List.replicate (if acks.getD r true then 1 else 2)
      (s.pmbRequest r 0x21 (some (s.voutCode s.pwr.setMv)))) := by
  refine PmbKept.foldl (fun y hy r => ?_) _
  obtain ⟨hkept, -, hout⟩ := y.sendVout_spec r (acks.getD r true)
  rw [hy.request, hy.voutCode, hy.setMv] at hout
  exact ⟨hkept, hout⟩

/-! A poll. -/

/-- The polled voltage of a regulator, and its deviation (R407, R409). -/
def State.pollVout (s : State) (r v : Nat) : State :=
  let run := if s.voutNear v then 0 else min 2 (s.pwr.devRun.getD r 0 + 1)
  let s : State := { s with pwr := { s.pwr with
    devRun := s.pwr.devRun.set r run
    measMv := if r = 0 then (nearest (s.voutVolts v * 1000)).toNat else s.pwr.measMv } }
  if run = 2 then s.pwrCause 2 0xCB else s

/-- The transactions of a poll of a regulator (R405, R407). -/
def State.pollSent (s : State) (r : Nat) (p : PollReply) : State :=
  let failing := s.pwr.pmbFail.getD r false
  let s := ((s.pmbSend r 0x8B none p.vout.isSome).pmbSend r 0x8C none p.iout.isSome).pmbSend r 0x79 none p.status.isSome
  if failing then s.sendVout r p.ack else s

/-- The status word of a regulator (R407). -/
def State.pollStatus (s : State) (p : PollReply) : State :=
  match p.status with
  | some w => if bits w 15 1 ≠ 0 then s.pwrCause 3 0xCC else s
  | none => s

/-- What a poll of a regulator reads of its voltage (R407). -/
def State.pollVolt (s : State) (r : Nat) (p : PollReply) : State :=
  match p.vout with
  | none => s
  | some v => s.pollVout r v

/-- What a poll of a regulator reads of its power (R409). -/
def State.pollPower (s : State) (r : Nat) (p : PollReply) : State :=
  match p.vout, p.iout with
  | some v, some i => { s with pwr := { s.pwr with regPower := s.pwr.regPower.set r (s.voutVolts v * linear11 i) } }
  | _, _ => s

theorem State.pollReg_eq (s : State) (r : Nat) (p : PollReply) :
    s.pollReg r p = (((s.pollSent r p).pollVolt r p).pollPower r p).pollStatus p := by
  unfold State.pollReg State.pollStatus State.pollPower State.pollVolt State.pollVout State.pollSent
  rfl

theorem State.pollSent_spec (s : State) (r : Nat) (p : PollReply) :
    PmbKept s (s.pollSent r p) ∧ (s.pollSent r p).pwr.regPower = s.pwr.regPower := by
  unfold State.pollSent
  extract_lets failing s1
  obtain ⟨hv, hvp, -⟩ := s.pmbSend_spec r 0x8B none p.vout.isSome
  obtain ⟨hi, hip, -⟩ := (s.pmbSend r 0x8B none p.vout.isSome).pmbSend_spec r 0x8C none p.iout.isSome
  obtain ⟨hw, hwp, -⟩ := ((s.pmbSend r 0x8B none p.vout.isSome).pmbSend r 0x8C none p.iout.isSome).pmbSend_spec r 0x79 none p.status.isSome
  have h1 : PmbKept s s1 := hv.trans (hi.trans hw)
  have hp1 : s1.pwr.regPower = s.pwr.regPower := hwp.trans (hip.trans hvp)
  split
  · obtain ⟨h2, hp2, -⟩ := s1.sendVout_spec r p.ack
    exact ⟨h1.trans h2, hp2.trans hp1⟩
  · exact ⟨h1, hp1⟩

theorem State.pollVout_spec (s : State) (r v : Nat) : PmbKept s (s.pollVout r v) ∧ (s.pollVout r v).pwr.regPower = s.pwr.regPower := by
  unfold State.pollVout
  extract_lets run p s1
  have h1 : PmbKept s s1 := .of_unread rfl rfl rfl
  split
  · have hpwr : (s1.pwrCause 2 0xCB).pwr = s1.pwr := keep_pwr (by simp)
    exact ⟨h1.trans (s1.pwrCause_kept 0xCB (by decide)).1, by rw [hpwr]⟩
  · exact ⟨h1, rfl⟩

theorem State.pollStatus_spec (s : State) (p : PollReply) : PmbKept s (s.pollStatus p) ∧
    (s.pollStatus p).pwr.regPower = s.pwr.regPower ∧
    ∀ w, p.status = some w → bits w 15 1 ≠ 0 → (s.pollStatus p).rb R.PWR_CAUSE 3 = true := by
  have hpwr : (s.pwrCause 3 0xCC).pwr = s.pwr := keep_pwr (by simp)
  obtain ⟨hkept, hset⟩ := s.pwrCause_kept 0xCC (b := 3) (by decide)
  unfold State.pollStatus
  split
  · next w hw =>
    split
    · exact ⟨hkept, by rw [hpwr], fun _ _ _ => hset⟩
    · next hzero => exact ⟨.refl s, rfl, fun w' hw' hbits => absurd (Option.some.inj (hw.symm.trans hw') ▸ hbits) hzero⟩
  · next hnone => exact ⟨.refl s, rfl, fun w hw => absurd (hnone.symm.trans hw) nofun⟩

theorem State.pollVolt_spec (s : State) (r : Nat) (p : PollReply) :
    PmbKept s (s.pollVolt r p) ∧ (s.pollVolt r p).pwr.regPower = s.pwr.regPower := by
  unfold State.pollVolt
  split
  · exact ⟨.refl s, rfl⟩
  · exact s.pollVout_spec r _

theorem State.pollPower_spec (s : State) (r : Nat) {p : PollReply} {v i : Nat} (hv : p.vout = some v) (hi : p.iout = some i) :
    PmbKept s (s.pollPower r p) ∧ (s.pollPower r p).pwr.regPower = s.pwr.regPower.set r (s.voutVolts v * linear11 i) := by
  unfold State.pollPower
  rw [hv, hi]
  exact ⟨.of_unread rfl rfl rfl, rfl⟩

/-- A poll of a regulator that answers takes its power and tells its status (R405, R407, R409). -/
theorem State.pollReg_spec (s : State) (r : Nat) {p : PollReply} {v i : Nat} (hv : p.vout = some v) (hi : p.iout = some i) :
    PmbKept s (s.pollReg r p) ∧ (s.pollReg r p).pwr.regPower = s.pwr.regPower.set r (s.voutVolts v * linear11 i) ∧
      ∀ w, p.status = some w → bits w 15 1 ≠ 0 → (s.pollReg r p).rb R.PWR_CAUSE 3 = true := by
  obtain ⟨hsent, hsentPower⟩ := s.pollSent_spec r p
  obtain ⟨hvolt, hvoltPower⟩ := (s.pollSent r p).pollVolt_spec r p
  obtain ⟨htaken, htakenPower⟩ := ((s.pollSent r p).pollVolt r p).pollPower_spec r hv hi
  obtain ⟨hstatus, hpower, hset⟩ := (((s.pollSent r p).pollVolt r p).pollPower r p).pollStatus_spec p
  rw [s.pollReg_eq]
  refine ⟨hsent.trans (hvolt.trans (htaken.trans hstatus)), ?_, hset⟩
  rw [hpower, htakenPower, hvoltPower, hsentPower, (hsent.trans hvolt).voutVolts]

/-- Every regulator is polled (R405). -/
def State.polled (s : State) (ps : List PollReply) : State :=
  s.regulators.foldl (fun s r => s.pollReg r (ps.getD r ⟨none, none, none, false⟩)) s

/-- The poll of every regulator, each of which answers: P_DRAW's part of the regulators (R405, R409). -/
theorem State.pollRegs_spec {s : State} {ps : List PollReply} {v i : Nat → Nat} (hlen : s.pwr.regPower.length = 2)
    (hreply : ∀ r ∈ s.regulators, ∃ p, ps[r]? = some p ∧ p.vout = some (v r) ∧ p.iout = some (i r)) :
    PmbKept s (s.polled ps) ∧
      s.regulators.map (fun r => (s.polled ps).pwr.regPower.getD r 0) = s.regulators.map (fun r => s.voutVolts (v r) * linear11 (i r)) ∧
      ∀ r p w, r ∈ s.regulators → ps[r]? = some p → p.status = some w → bits w 15 1 ≠ 0 → (s.polled ps).rb R.PWR_CAUSE 3 = true := by
  unfold State.polled
  obtain ⟨x, y, hpower⟩ := List.length_eq_two.mp hlen
  have hpoll (u : State) (r : Nat) (hr : r ∈ s.regulators) :
      PmbKept u (u.pollReg r (ps.getD r ⟨none, none, none, false⟩)) ∧
      (u.pollReg r (ps.getD r ⟨none, none, none, false⟩)).pwr.regPower = u.pwr.regPower.set r (u.voutVolts (v r) * linear11 (i r)) ∧
      ∀ p w, ps[r]? = some p → p.status = some w → bits w 15 1 ≠ 0 →
        (u.pollReg r (ps.getD r ⟨none, none, none, false⟩)).rb R.PWR_CAUSE 3 = true := by
    obtain ⟨p, hp, hv, hi⟩ := hreply r hr
    have hget : ps.getD r ⟨none, none, none, false⟩ = p := by rw [List.getD_eq_getElem?_getD, hp]; rfl
    rw [hget]
    obtain ⟨hkept, hset, hstatus⟩ := u.pollReg_spec r hv hi
    exact ⟨hkept, hset, fun p' w hp' => Option.some.inj (hp.symm.trans hp') ▸ hstatus w⟩
  have hregs : s.regulators = [0] ∨ s.regulators = [0, 1] := by
    unfold State.regulators
    split
    · exact .inl rfl
    · exact .inr rfl
  rcases hregs with hone | htwo
  · rw [hone] at hpoll ⊢
    obtain ⟨hkept, hset, hstatus⟩ := hpoll s 0 (by simp)
    refine ⟨hkept, ?_, fun r p w hr hp => ?_⟩
    · simp only [List.foldl, hset, hpower]
      rfl
    · obtain rfl := List.mem_singleton.mp hr
      exact hstatus p w hp
  · rw [htwo] at hpoll ⊢
    obtain ⟨hkept, hset, hstatus⟩ := hpoll s 0 (by simp)
    obtain ⟨hkept', hset', hstatus'⟩ := hpoll (s.pollReg 0 (ps.getD 0 ⟨none, none, none, false⟩)) 1 (by simp)
    refine ⟨hkept.trans hkept', ?_, fun r p w hr hp hw hbits => ?_⟩
    · simp only [List.foldl, hset', hset, hpower, hkept.voutVolts]
      rfl
    · rcases List.mem_pair.mp hr with rfl | rfl
      · exact hkept'.causes 3 (hstatus p w hp hw hbits)
      · exact hstatus' p w hp hw hbits

/-! The budget. -/

theorem State.dbgCapEnd_pwr (s : State) (st : DbgCapState) : (s.dbgCapEnd st).pwr =
    { s.pwr with admitted := s.pwr.admitted.erase .debugCapture, waiting := s.pwr.waiting.erase .debugCapture } := by
  unfold State.dbgCapEnd
  rw [State.latch_pwr]
  rfl

/-- The items admitted and waiting apart, the supply is as it was (R410). -/
def PwrSt.ItemsOnly (p q : PwrSt) : Prop := ∃ admitted waiting, q = { p with admitted := admitted, waiting := waiting }

theorem PwrSt.ItemsOnly.refl (p : PwrSt) : p.ItemsOnly p := ⟨p.admitted, p.waiting, rfl⟩

theorem State.capEnd_items (s : State) : s.pwr.ItemsOnly s.capEnd.pwr := by
  unfold State.capEnd
  extract_lets c
  split
  · exact ⟨s.pwr.admitted.erase .capture, s.pwr.waiting.erase .capture, rfl⟩
  · exact .refl _

/-- A revoked item leaves the rest of the supply, and ends its capture (R410). -/
theorem State.revokeItem_spec (s : State) (i : OptItem) : RegsBut [R.DBG_CAUSE] s (s.revokeItem i) ∧ s.pwr.ItemsOnly (s.revokeItem i).pwr := by
  unfold State.revokeItem
  cases i with
  | capture => exact ⟨.of_regs s.capEnd_regs, s.capEnd_items⟩
  | debugCapture =>
    extract_lets st
    dsimp only
    split
    · exact ⟨s.dbgCapEnd_regsBut .revoked, _, _, s.dbgCapEnd_pwr .revoked⟩
    · exact ⟨.refl _ s, .refl _⟩
  | mirror => exact ⟨.of_regs rfl, s.pwr.admitted.erase .mirror, s.pwr.waiting ++ [.mirror], rfl⟩

/-- P_DRAW as a poll computes it, compared with LIMIT (R409, R410). -/
def State.drawn (s : State) (draw : Rat) : State :=
  let above := decide (s.budget < draw)
  let run := if above then min 2 (s.pwr.overRun + 1) else 0
  { s with pwr := { s.pwr with draw := draw, sincePoll := 0, overBudget := above, overRun := run } }

/-- P_DRAW above LIMIT is counted over two polls (R410). -/
theorem State.drawn_overRun (s : State) (draw : Rat) :
    (s.drawn draw).pwr.overRun = if s.budget < draw then min 2 (s.pwr.overRun + 1) else 0 := by
  unfold State.drawn
  simp

/-- The most recently admitted item is revoked, if there is one (R410). -/
def State.revokeLast (s : State) : State :=
  match s.pwr.admitted.getLast? with
  | some i => s.revokeItem i
  | none => s

/-- P_DRAW above LIMIT at two consecutive polls is told, and an item is revoked (R410). -/
def State.drawChecked (s : State) : State := if s.pwr.overRun = 2 then (s.pwrCause 4 0xCD).revokeLast else s

theorem exec_pmbusPoll {s : State} (hcnt : s.sys.counting = true) (hep : s.sys.epoch.toNat % 4096 = 0) (ps : List PollReply) (otherMw : Nat) :
    exec (.pmbusPoll ps otherMw) s = .next ((s.polled ps).drawn (((s.polled ps).regulators.map
      (fun r => (s.polled ps).pwr.regPower.getD r 0)).sum + (otherMw : Rat) / 1000)).drawChecked := by
  show execPmbusPoll _ _ _ = _
  unfold execPmbusPoll State.drawn State.drawChecked State.revokeLast
  rw [if_neg (by simp [hcnt, hep])]
  rfl

theorem State.revokeLast_spec (s : State) : RegsBut [R.DBG_CAUSE] s s.revokeLast ∧ s.pwr.ItemsOnly s.revokeLast.pwr := by
  unfold State.revokeLast
  split
  · exact s.revokeItem_spec _
  · exact ⟨.refl _ s, .refl _⟩

/-- The check of P_DRAW sets its cause after two polls above LIMIT, and otherwise keeps every item that is admitted (R410). -/
theorem State.drawChecked_spec (s : State) :
    RegsBut [R.PWR_CAUSE, R.DBG_CAUSE, R.TRK_CAUSE, R.TRK_QUEUE, R.TRK_SUPPRESSED] s s.drawChecked ∧ s.pwr.ItemsOnly s.drawChecked.pwr ∧
      (∀ b, s.rb R.PWR_CAUSE b = true → s.drawChecked.rb R.PWR_CAUSE b = true) ∧
      (s.pwr.overRun = 2 → s.drawChecked.rb R.PWR_CAUSE 4 = true) ∧ (s.pwr.overRun ≠ 2 → s.drawChecked = s) := by
  unfold State.drawChecked
  split
  · next hrun =>
    obtain ⟨hkept, hset⟩ := s.pwrCause_kept 0xCD (b := 4) (by decide)
    obtain ⟨hregs, hitems⟩ := (s.pwrCause 4 0xCD).revokeLast_spec
    have hpwr : (s.pwrCause 4 0xCD).pwr = s.pwr := keep_pwr (by simp)
    rw [hpwr] at hitems
    have hcause (b : Nat) := hregs.rb (k := R.PWR_CAUSE) (by decide) b
    exact ⟨(hkept.regs.mono (by simp)).trans (hregs.mono (by simp)), hitems, fun b hb => (hcause b).trans (hkept.causes b hb),
      fun _ => (hcause 4).trans hset, fun hno => absurd hrun hno⟩
  · next hrun => exact ⟨.refl _ s, .refl _, fun _ h => h, fun h => absurd h hrun, fun _ => rfl⟩

@[simp] theorem State.revokeLast_frame {W : List Part} {r s : State} (hW : [.regs, .ctl, .pwr, .dbg] ⊆ W) :
    Frame W r s.revokeLast ↔ Frame W r s := by
  unfold State.revokeLast
  split
  · exact State.revokeItem_frame _ hW
  · exact Iff.rfl

/-! The obligation, clause by clause. -/

theorem exec_slackWindowEnd {s : State} (hon : s.slackOn = true) (hlen : 2 ^ s.rf R.PWR_SLACK_CFG 4 0 ≤ s.pwr.windowEp) :
    exec .slackWindowEnd s = .next { s with pwr := { s.pwr with
      pendingLower := (if s.pwr.windowLow || s.pwr.windowRaised then s.pwr.pendingLower else s.rf R.PWR_SLACK_CFG 11 8)
      windowLow := false, windowRaised := false, windowEp := 0 } } :=
  if_pos ⟨hon, hlen⟩

/-- The set-point that a VOUT_COMMAND brings: a pending raise before a pending lower (R406). -/
def State.voutStep (s : State) : State :=
  let up := 0 < s.pwr.pendingRaise
  let want := if up then s.pwr.setMv + s.pwr.pendingRaise else s.pwr.setMv - s.pwr.pendingLower
  { s with pwr := { s.pwr with
    setMv := clampNat s.vmin s.vmax want, lastVout := some s.sys.epoch, windowRaised := s.pwr.windowRaised || up
    pendingRaise := 0, pendingLower := if up then s.pwr.pendingLower else 0 } }

theorem exec_voutCommand {s : State} (hon : s.slackOn = true) (hdue : ∀ e, s.pwr.lastVout = some e → 1024 ≤ (s.sys.epoch - e).toNat)
    (hwant : 0 < s.pwr.pendingRaise ∨ 0 < s.pwr.pendingLower) (acks : List Bool) : exec (.voutCommand acks) s =
      .next (s.voutStep.regulators.foldl (fun s r => s.sendVout r (acks.getD r true)) s.voutStep) := by
  have hvout : s.voutDue = true := by
    unfold State.voutDue
    split
    · next e he => exact decide_eq_true (hdue e he)
    · rfl
  have hgo : ¬ (s.slackOn = false ∨ s.voutDue = false ∨ (s.pwr.pendingRaise = 0 ∧ s.pwr.pendingLower = 0)) := by
    simp [hon, hvout]
    omega
  exact if_neg hgo

/-- The VOUT_COMMANDs of a step to the regulators (R405, R406). -/
theorem State.voutStep_sent (s : State) (acks : List Bool) :
    let t := s.voutStep.regulators.foldl (fun s r => s.sendVout r (acks.getD r true)) s.voutStep
    PmbKept s.voutStep t ∧ t.out = s.out ++ s.regulators.flatMap (fun r => List.replicate (if acks.getD r true then 1 else 2)
      (.pmbus (s.pmbAddr r) 0x21 (some (s.voutCode t.pwr.setMv)) (s.rb R.PWR_PMB_CFG 30) (s.rb R.PWR_PMB_CFG 31))) := by
  intro t
  obtain ⟨hkept, hout⟩ := s.voutStep.sendVouts_spec acks
  have hset : t.pwr.setMv = s.voutStep.pwr.setMv := hkept.setMv
  rw [hset]
  exact ⟨hkept, hout⟩

/-- The first waiting item is admitted at its cost (R410). -/
def State.itemTaken (s : State) (i : OptItem) (rest : List OptItem) : State :=
  { s with pwr := { s.pwr with waiting := rest, admitted := s.pwr.admitted ++ [i], sincePoll := s.pwr.sincePoll + i.cost } }

/-- A capture that waited is armed when it is admitted, and a debug capture armed or triggered (R410, R486). -/
def State.grantItem (s : State) (i : OptItem) : State :=
  match i with
  | .capture => if s.ctl.cap.state = .wait then { s with ctl := { s.ctl with cap := { s.ctl.cap with state := .armed, refused := false } } } else s
  | .debugCapture => if s.dbg.cap.state = .wait then { s with dbg := { s.dbg with cap := s.dbg.cap.granted } } else s
  | .mirror => s

theorem exec_budgetAdmit {i : OptItem} {rest : List OptItem} {s : State} (hwait : s.pwr.waiting = i :: rest) (hcnt : s.sys.counting = true)
    (hroom : s.pwr.draw + s.pwr.sincePoll + i.cost ≤ s.budget) : exec .budgetAdmit s = .next ((s.itemTaken i rest).grantItem i) := by
  show execBudgetAdmit s = _
  unfold execBudgetAdmit
  rw [hwait]
  dsimp only
  rw [if_neg (by rw [hcnt]; simpa using hroom)]
  cases i <;> rfl

theorem State.grantItem_capture {s : State} (h : s.ctl.cap.state = .wait) :
    (s.grantItem .capture).ctl.cap = { s.ctl.cap with state := .armed, refused := false } := by
  unfold State.grantItem
  dsimp only
  rw [if_pos h]

theorem State.grantItem_debugCapture {s : State} (h : s.dbg.cap.state = .wait) : (s.grantItem .debugCapture).dbg.cap = s.dbg.cap.granted := by
  unfold State.grantItem
  dsimp only
  rw [if_pos h]

/-- A debug capture that is admitted is armed, and with TRIG = 0 triggered (R486, R487). -/
theorem DbgCap.granted_armed {c : DbgCap} (hlow : 1 ≤ fld c.cfg 30 28) (hhigh : fld c.cfg 30 28 ≤ 3) :
    c.granted = { c with state := .armed, refused := false } :=
  if_neg (by omega)

theorem DbgCap.granted_triggered {c : DbgCap} (h : fld c.cfg 30 28 = 0) : c.granted.state = .triggered := by
  unfold DbgCap.granted
  extract_lets a
  rw [if_pos (.inl h)]
  rfl

theorem State.grantItem_spec (s : State) (i : OptItem) : (s.grantItem i).pwr = s.pwr ∧ Frame [.ctl, .dbg] s (s.grantItem i) := by
  unfold State.grantItem
  cases i with
  | capture => dsimp only; split <;> exact ⟨rfl, by simp⟩
  | debugCapture => dsimp only; split <;> exact ⟨rfl, by simp⟩
  | mirror => exact ⟨rfl, .refl _⟩

/-- Settles O47: a transaction on the PMBus leaves the rest of the supply, and the budget admits the first item that waits. -/
theorem supplyAndBudget : Obligations.SupplyAndBudget := by
  refine ⟨fun s hon hlen => ⟨_, exec_slackWindowEnd hon hlen, rfl, by simp⟩, fun acks s hon hdue hwant => ?vout,
    fun ps v i otherMw s hcnt hep hlen hreply => ?poll, fun i rest s hwait hcnt hroom => ?admission⟩
  case vout =>
    obtain ⟨hkept, hout⟩ := s.voutStep_sent acks
    obtain ⟨fails, pmbFail, devRun, measMv, regPower, hpwr⟩ := hkept.pwr
    refine ⟨_, exec_voutCommand hon hdue hwant acks, ?_, ?_, fun hup => ?_, fun hdown => ?_, hout, (RegsBut.of_regs rfl).trans hkept.regs, ?_⟩
    · rw [hpwr]
      rfl
    · rw [hpwr]
      rfl
    · rw [hpwr]
      simp [State.voutStep, hup]
    · rw [hpwr]
      simp [State.voutStep, hdown]
    · exact execVoutCommand_frame acks (exec_voutCommand hon hdue hwant acks)
  case poll =>
    obtain ⟨hkept, hpower, hstatus⟩ := s.pollRegs_spec hlen hreply
    obtain ⟨fails, pmbFail, devRun, measMv, regPower, hpwr⟩ := hkept.pwr
    have hexec := exec_pmbusPoll hcnt hep ps otherMw
    rw [hkept.regulators, hpower] at hexec
    obtain ⟨hregs, ⟨admitted, waiting, hitems⟩, hcauses, hover, hsame⟩ := State.drawChecked_spec ((s.polled ps).drawn
      ((s.regulators.map (fun r => s.voutVolts (v r) * linear11 (i r))).sum + (otherMw : Rat) / 1000))
    refine ⟨_, hexec, ?_, ?_, ?_, ?_, fun hrun => ?_, fun hrun => ?_, fun r p w hr hp hw hbits => ?_, ?_,
      execPmbusPoll_frame ps otherMw hexec⟩
    · rw [hitems]
      rfl
    · rw [hitems]
      rfl
    · rw [hitems, ← hkept.budget]
      rfl
    · rw [hitems, ← hkept.budget]
      refine ((s.polled ps).drawn_overRun _).trans ?_
      rw [hpwr]
      rfl
    · rw [hitems] at hrun
      exact hover hrun
    · rw [hitems] at hrun
      rw [hsame hrun]
      show (s.polled ps).pwr.admitted = _
      rw [hpwr]
    · exact hcauses 3 (hstatus r p w hr hp hw hbits)
    · exact (hkept.regs.mono (by simp)).trans ((RegsBut.of_regs rfl).trans hregs)
  case admission =>
    obtain ⟨hpwr, hframe⟩ := (s.itemTaken i rest).grantItem_spec i
    refine ⟨_, exec_budgetAdmit hwait hcnt hroom, ?_, ?_, ?_, ?_, ?_, ?_, ?_⟩
    · exact congrArg PwrSt.waiting hpwr
    · exact congrArg PwrSt.admitted hpwr
    · exact congrArg PwrSt.sincePoll hpwr
    · rintro rfl hstate
      exact State.grantItem_capture (s := s.itemTaken .capture rest) hstate
    · rintro rfl hstate hlow hhigh
      exact (State.grantItem_debugCapture (s := s.itemTaken .debugCapture rest) hstate).trans (DbgCap.granted_armed hlow hhigh)
    · rintro rfl hstate htrig
      exact (congrArg DbgCap.state (State.grantItem_debugCapture (s := s.itemTaken .debugCapture rest) hstate)).trans (DbgCap.granted_triggered htrig)
    · exact execBudgetAdmit_frame (exec_budgetAdmit hwait hcnt hroom)

end Sys2Proof.Machine
end

section
/-! PROOFS. The Start Sequencer's turns: what its steps leave of the start-up, of the system block, of the Safety Core and of the Hatches. -/

namespace Sys2Proof.Machine

/-! The course of a start-up. -/

/-- The Start Sequencer goes on from one state to another, at the same step or a later one (R417). -/
structure StartCourse (s t : State) : Prop where
  powered : t.start.powered = s.start.powered
  restart : t.start.restart = s.start.restart
  wanted : t.start.restartWanted = s.start.restartWanted
  step : s.start.step ≤ t.start.step

namespace StartCourse

theorem refl (s : State) : StartCourse s s := ⟨rfl, rfl, rfl, le_rfl⟩

theorem trans {s t u : State} (h : StartCourse s t) (h' : StartCourse t u) : StartCourse s u :=
  ⟨h'.powered.trans h.powered, h'.restart.trans h.restart, h'.wanted.trans h.wanted, h.step.trans h'.step⟩

theorem of_startup {s t : State} (h : t.startup = s.startup) : StartCourse s t := by
  obtain ⟨hpowered, hstep, -, -, hwanted⟩ := start_of_startup h
  exact ⟨hpowered, show t.startup.restart = s.startup.restart by rw [h], hwanted, hstep.ge⟩

theorem of_frame {s t : State} (h : Frame [.regs, .sys, .mgmtStatus, .mfe, .lnk, .cel, .ctl, .grd, .edg, .prt, .mtr, .saf, .hats,
    .pwr, .ref, .trk, .dbg, .out, .freeCount, .pending] s t) : StartCourse s t := of_startup (startup_eq_of_frame h)

theorem ite {c : Prop} [Decidable c] {s a b : State} (ha : StartCourse s a) (hb : StartCourse s b) : StartCourse s (if c then a else b) := by
  split <;> assumption

end StartCourse

/-- The sections of the image leave the start-up, but for its count of ignored writes (R424, R425). -/
theorem State.startup_bootWrite (s : State) (off : Nat) (w : Word) : (s.bootWrite off w).startup = s.startup := by
  unfold State.bootWrite
  extract_lets key s1
  have h1 : s1.startup = s.startup := State.startup_ite (startup_eq_of_frame (by simp)) rfl
  rw [← h1]
  exact State.startup_ite rfl (State.startup_ite (s1.startup_applyImage _ _ _ _ _) rfl)

theorem State.startup_sectionApply (s : State) (x : Section) : (s.sectionApply x).startup = s.startup := by
  unfold State.sectionApply
  extract_lets at1
  split
  · exact view_foldl_eq s fun y i _ => y.startup_bootWrite _ _
  · rfl
  · exact view_foldl_eq s fun y i _ => startup_eq_of_frame (by simp)
  · exact view_foldl_eq s fun y i _ => startup_eq_of_frame (by simp)
  · rfl

/-- A new start-up is counted, and its record is empty (R421, R426). -/
theorem State.startCount_start (s : State) : ∃ record, s.startCount.start = { s.start with
    starts := incSat 65535 s.start.starts, record := record, retries := 0, failCode := 0 } := by
  unfold State.startCount
  extract_lets n st s1
  rw [keep_start (s := s1.recSet 125 n) (by simp)]
  exact ⟨_, rfl⟩

/-- Step TRUNK takes the era from the Trunk, and counts the start-up (R417, R421). -/
theorem State.stepTrunk_spec (s : State) : ∃ era starts record, s.stepTrunk.1.sys = { s.sys with era := era } ∧
    s.stepTrunk.1.start = { s.start with starts := starts, record := record, retries := 0, failCode := 0 } := by
  unfold State.stepTrunk
  extract_lets s1 s2 absent bad f ft s3 t3 s4 dir rows q1 q2 q3 s5 s6 code
  have h2 : Frame [.regs, .trk] s s2 := by
    simp only [s2]
    rw [Frame.foldl (by intro s a; simp)]
    simp [s1]
  have h3 : Frame [.regs, .trk] s2 s3 := by unfold s3; split <;> simp [f]
  have h4 : Frame [.regs, .trk] s3 s4 := by unfold s4; split <;> simp
  have hsys : s4.sys = s.sys := keep_sys ((h2.trans (h3.trans h4)).mono (by decide))
  have hstart : s4.start = s.start := keep_start ((h2.trans (h3.trans h4)).mono (by decide))
  have hring : Frame [.regs, .trk] s5 s5.ringAppend := by simp
  obtain ⟨record, hcount⟩ := s5.ringAppend.startCount_start
  have hend : s6.start = { s5.ringAppend.start with
      starts := incSat 65535 s5.ringAppend.start.starts, record := record, retries := 0, failCode := 0 } := hcount
  refine ⟨dir.getD 2 0, incSat 65535 (dir.getD 3 0), record, ?_, ?_⟩
  · have h6 : s6.sys = s5.sys := keep_sys (by simp [s6])
    exact h6.trans (congrArg (fun q : SysSt => { q with era := dir.getD 2 0 }) hsys)
  · have h5 : s5.start = { s.start with starts := dir.getD 3 0 } := congrArg (fun q : StartSt => { q with starts := dir.getD 3 0 }) hstart
    rw [hend, keep_start (hring.mono (by decide)), h5]

theorem State.stepTrunk_course (s : State) : StartCourse s s.stepTrunk.1 := by
  obtain ⟨era, starts, record, -, hstart⟩ := s.stepTrunk_spec
  refine ⟨?_, ?_, ?_, ?_⟩ <;> rw [hstart]

theorem State.stepImage_course (s : State) : StartCourse s s.stepImage.1 := by
  unfold State.stepImage
  extract_lets s1 a b c img st s2 s3 s4 s5
  have h1 : StartCourse s s1 := .of_frame (by simp [s1])
  clear_value c img a b s1
  have h2 : StartCourse s1 s2 := ⟨rfl, rfl, rfl, le_rfl⟩
  clear_value s2
  have h3 : StartCourse s2 s3 := .ite (.of_frame (by simp)) (.of_startup (view_foldl_eq s2 fun y x _ => y.startup_sectionApply x))
  clear_value s3
  have h4 : StartCourse s3 s4 := .ite (.of_frame (by simp)) (.refl s3)
  clear_value s4
  have h5 : StartCourse s4 s5 := ⟨rfl, rfl, rfl, le_rfl⟩
  exact h1.trans (h2.trans (h3.trans (h4.trans h5)))

/-- A step that is over is the step in progress as it was begun (R417). -/
theorem State.stepTry_course {s t : State} {o c : Nat} (h : s.stepTry = some (t, o, c)) : StartCourse s t := by
  have inj {x : State × Nat × Nat} (e : some x = some (t, o, c)) (hx : StartCourse s x.1) : StartCourse s t := by
    rw [Option.some.injEq] at e
    rwa [e] at hx
  unfold State.stepTry at h
  split at h
  · exact inj h s.stepTrunk_course
  · exact inj h (.of_frame (by simp))
  · exact inj h s.stepImage_course
  · split at h
    · exact inj h (.refl s)
    · cases h
  · split at h
    · exact inj h (.refl s)
    · cases h
  · split at h
    · cases h
    · split at h
      · exact inj h (.of_frame (by simp))
      · exact inj h (.of_frame (by simp))
  · split at h
    · exact inj h (.of_frame (by simp))
    · cases h
  · split at h
    · cases h
    · split at h
      · exact inj h (.refl s)
      · exact inj h (.refl s)
  · split at h
    · exact inj h (.refl s)
    · cases h
  · exact inj h (.refl s)

/-- A step that ends: its outcome is the state of the Start Sequencer, and it is recorded (R417, R421). -/
theorem State.stepEnd_ended (s : State) (outcome code : Nat) : ∃ record, (s.stepEnd outcome code).start = { s.start with
    active := false, wasHeld := false, failCode := if code = 0 then s.start.failCode else code
    state := if outcome = 3 then .failed else if s.start.step = 10 then .complete else .running, record := record } := by
  unfold State.stepEnd
  extract_lets n shown kept w st s1 s2 s3 s4 s5
  have h5 : s5.start = s2.start := by
    refine keep_start ?_
    simp only [s5, s4, s3]
    split <;> split <;> simp
  rw [keep_start (s := s5) (t := s5.trkAsk .startRecord s5.recWords) (by simp), h5]
  exact ⟨_, rfl⟩

theorem State.stepEnd_course (s : State) (outcome code : Nat) : StartCourse s (s.stepEnd outcome code) := by
  obtain ⟨record, hend⟩ := s.stepEnd_ended outcome code
  refine ⟨?_, ?_, ?_, ?_⟩ <;> rw [hend]

/-- A step that begins (R417). -/
theorem State.stepBegin_start (s : State) (n : Nat) : (s.stepBegin n).start = { s.start with step := n, active := true, retries := 0 } := by
  unfold State.stepBegin
  extract_lets st s1 s2
  have h2 : s2.start = s1.start := keep_start (by simp [s2])
  split
  · exact (keep_start (s := s2) (by simp)).trans h2
  · split
    · exact (keep_start (s := s2) (by simp)).trans h2
    · exact h2

theorem State.stepBegin_course {s : State} {n : Nat} (hn : s.start.step ≤ n) : StartCourse s (s.stepBegin n) := by
  refine ⟨?_, ?_, ?_, ?_⟩ <;> rw [s.stepBegin_start]
  exact hn

theorem State.holdStart_start (s : State) : s.holdStart.start = { s.start with state := .held } := State.latch_start _ _ _

theorem State.holdStart_course (s : State) : StartCourse s s.holdStart := by
  refine ⟨?_, ?_, ?_, ?_⟩ <;> rw [s.holdStart_start]

/-! The turns. -/

/-- What every part of a turn keeps, the turns of the Start Sequencer keep, while no RESTART waits (R417). -/
theorem State.startRun_keeps {I : State → Prop} (hwanted : ∀ {s}, I s → s.start.restartWanted = none)
    (hswitch : ∀ {s}, I s → I (s.stepSwitch s.start.step))
    (hturn : ∀ {s t o c}, I s → s.start.active = true → s.stepTry = some (t, o, c) → I (t.stepEnd o c))
    (hbetween : ∀ {s}, I s → I s.betweenSteps) (hhold : ∀ {s}, I s → I s.holdStart)
    (hbegin : ∀ {s}, I s → I (s.stepBegin (s.start.step + 1))) (n : Nat) {s : State} (h : I s) : I (s.startRun n) := by
  induction n generalizing s with
  | zero => exact h
  | succ n ih =>
    by_cases hidle : s.start.powered = false ∨ s.start.state ≠ .running
    · rw [State.startRun, if_pos hidle]
      exact h
    cases hactive : s.start.active with
    | true =>
      rw [State.startRun, if_neg hidle, if_pos hactive]
      split
      · exact h
      · dsimp only
        split
        · exact hswitch h
        · next t o c htry =>
          have hkept : (s.stepSwitch s.start.step).start = s.start := keep_start (by simp)
          have hended := hturn (hswitch h) (by rw [hkept, hactive]) htry
          rw [State.stepLeave_of_unwanted o c ((t.stepEnd_kept o c).2.symm.trans (hwanted hended))]
          exact ih hended
    | false =>
      obtain ⟨hpowered, hstate⟩ := not_or.mp hidle
      obtain ⟨-, hsame, -⟩ := start_of_startup s.betweenSteps_startup
      rcases State.startRun_between n (Bool.eq_true_of_not_eq_false hpowered) (not_not.mp hstate) hactive with h' | h'
      · rw [h']
        exact hhold (hbetween h)
      · rw [h', ← hsame]
        exact ih (hbegin (hbetween h))

/-- The turns of the Start Sequencer go on, while no RESTART waits (R417). -/
theorem State.startRun_course {s : State} (hwanted : s.start.restartWanted = none) (n : Nat) : StartCourse s (s.startRun n) := by
  exact State.startRun_keeps (I := StartCourse s) (fun h => h.wanted.trans hwanted) (fun h => h.trans (.of_frame (by simp)))
    (fun h _ htry => h.trans ((State.stepTry_course htry).trans (State.stepEnd_course _ _ _)))
    (fun h => h.trans (.of_startup (State.betweenSteps_startup _))) (fun h => h.trans (State.holdStart_course _))
    (fun h => h.trans (State.stepBegin_course (Nat.le_succ _))) n (.refl s)

/-! What the steps after SAFETY leave. -/

/-- The link and the order rings of a Hatch (R369, R375). -/
def State.links (s : State) (h : Nat) : Bool × SMap RingSt := ((s.hat h).linkUp, (s.hat h).or_)

theorem State.links_congr {s t : State} (h : t.hats = s.hats) : t.links = s.links := by
  unfold State.links State.hat
  rw [h]

theorem State.links_logErr (s : State) (r : Requester) (kind off : Nat) : (s.logErr r kind off).links = s.links := by
  cases r with
  | mgmt => exact State.links_congr rfl
  | hatch h =>
    funext g
    obtain ⟨p, hp⟩ := s.hat_logErr h kind off g
    rw [State.links, hp, State.links]

/-- A write that comes into force reaches the Hatches through the ownership of an object alone (R397). -/
theorem State.putImage_hats {s : State} {key : Nat} (hkey : ¬ (R.HAT_OWN 0 ≤ keyOff key ∧ keyOff key ≤ R.HAT_OWN 79)) (w : Word) :
    (s.putImage key w).hats = s.hats := by
  refine keep_hats ?_
  unfold State.putImage
  dsimp only
  rw [if_neg hkey]
  simp

theorem State.links_applyImage {s : State} {key : Nat} (hkey : ¬ (R.HAT_OWN 0 ≤ keyOff key ∧ keyOff key ≤ R.HAT_OWN 79)) (r : Requester)
    (img : Word) (boot : Bool) (off : Nat) : (s.applyImage key r img boot off).links = s.links := by
  unfold State.applyImage
  dsimp only
  split
  · split
    · exact State.links_congr (State.putImage_hats hkey _)
    · unfold State.writeIgnored
      split
      · exact State.links_congr rfl
      · exact s.links_logErr r 5 off
  · exact s.links_logErr r 4 off

theorem State.links_takeStart {s : State} {off : Nat} (hoff : ¬ (R.HAT_OWN 0 ≤ keyOff off ∧ keyOff off ≤ R.HAT_OWN 79)) :
    (s.takeStart off).links = s.links := by
  unfold State.takeStart
  refine view_foldl_eq s fun y p _ => ?_
  split
  · split
    · exact State.links_applyImage hoff _ _ _ _
    · rfl
  · rfl

theorem State.links_betweenSteps (s : State) : s.betweenSteps.links = s.links := by
  refine view_foldl_eq s fun y k hk => State.links_takeStart ?_
  revert k
  decide

/-- The registers kept for each requester are none of the ownership registers. -/
theorem ownReg_not_owner {off : Nat} (h : ownReg off = true) : off < 0x10000 ∧ ¬ (R.HAT_OWN 0 ≤ off ∧ off ≤ R.HAT_OWN 79) := by
  have hall : ∀ o ∈ [R.LNK_TBL_ADDR, R.CEL_CRATE_SEL, R.CTL_SLOT_SEL, R.CTL_TONE_SEL, R.CTL_CAP_ADDR, R.GRD_CRV_SEL, R.EDG_PROF_ADDR,
      R.EDG_TBL_ADDR, R.SAF_VIEW, R.SAF_CONFIRM_VALUE, R.HAT_RING_SEL, R.STR_REC_ADDR, R.TRK_BIN_SEL, R.DBG_CAP_ADDR],
      o < 0x10000 ∧ ¬ (R.HAT_OWN 0 ≤ o ∧ o ≤ R.HAT_OWN 79) := by decide
  exact hall off (of_decide_eq_true h)

theorem State.links_bootWrite (s : State) (off : Nat) (w : Word) : (s.bootWrite off w).links = s.links := by
  unfold State.bootWrite
  extract_lets key s1
  have h1 : s1.links = s.links := by
    unfold s1
    split
    · exact s.links_logErr .mgmt 1 off
    · rfl
  rw [← h1]
  split
  · rfl
  · split
    · next hown =>
      obtain ⟨hlt, hno⟩ := ownReg_not_owner hown
      have hkey : keyOff key = off := by
        unfold key
        rw [s.keyFor_own .mgmt hown, keyOff_ownKey _ hlt]
      exact State.links_applyImage (hkey ▸ hno) _ _ _ _
    · rfl

theorem State.links_sectionApply (s : State) (x : Section) : (s.sectionApply x).links = s.links := by
  unfold State.sectionApply
  extract_lets at1
  split
  · exact view_foldl_eq s fun y i _ => y.links_bootWrite _ _
  · rfl
  · exact view_foldl_eq s fun y i _ => State.links_congr (keep_hats (by simp))
  · exact view_foldl_eq s fun y i _ => State.links_congr (keep_hats (by simp))
  · rfl

theorem State.links_stepImage (s : State) : s.stepImage.1.links = s.links := by
  unfold State.stepImage
  extract_lets s1 a b c img st s2 s3 s4 s5
  have h1 : s1.links = s.links := State.links_congr (keep_hats (by simp [s1]))
  clear_value c img a b s1
  have h3 : s3.links = s2.links := by
    unfold s3
    split
    · exact State.links_congr (keep_hats (by simp))
    · exact view_foldl_eq s2 fun y x _ => y.links_sectionApply x
  clear_value s3
  have h4 : s4.links = s3.links := by
    unfold s4
    split
    · exact State.links_congr (keep_hats (by simp))
    · rfl
  exact h4.trans (h3.trans h1)

/-- What the steps after SAFETY leave: the system block, the Safety Core, a muted reference, and the links and order rings of the Hatches. -/
structure StartOutside (s t : State) : Prop where
  sys : t.sys = s.sys
  saf : t.saf = s.saf
  muted : s.ref.muted = true → t.ref.muted = true
  links : t.links = s.links

namespace StartOutside

theorem refl (s : State) : StartOutside s s := ⟨rfl, rfl, id, rfl⟩

theorem trans {s t u : State} (h : StartOutside s t) (h' : StartOutside t u) : StartOutside s u :=
  ⟨h'.sys.trans h.sys, h'.saf.trans h.saf, fun hm => h'.muted (h.muted hm), h'.links.trans h.links⟩

theorem of_frame {s t : State} (h : Frame [.regs, .mgmtStatus, .mfe, .lnk, .cel, .ctl, .grd, .edg, .prt, .mtr, .pwr, .start, .trk, .dbg,
    .out, .freeCount, .pending] s t) : StartOutside s t :=
  ⟨h .sys (by decide), h .saf (by decide), fun hm => (h .ref (by decide) : t.ref = s.ref) ▸ hm, State.links_congr (h .hats (by decide))⟩

/-- A change that may reach the Hatches. -/
theorem of_links {s t : State} (h : Frame [.regs, .mgmtStatus, .mfe, .lnk, .cel, .ctl, .grd, .edg, .prt, .mtr, .hats, .pwr, .start, .trk, .dbg,
    .out, .freeCount, .pending] s t) (hlinks : t.links = s.links) : StartOutside s t :=
  ⟨h .sys (by decide), h .saf (by decide), fun hm => (h .ref (by decide) : t.ref = s.ref) ▸ hm, hlinks⟩

end StartOutside

/-- A step after SAFETY that is over (R417). -/
theorem State.stepTry_outside {s t : State} {o c : Nat} (hstep : 3 ≤ s.start.step) (h : s.stepTry = some (t, o, c)) : StartOutside s t := by
  have inj {x : State × Nat × Nat} (e : some x = some (t, o, c)) (hx : StartOutside s x.1) : StartOutside s t := by
    rw [Option.some.injEq] at e
    rwa [e] at hx
  unfold State.stepTry at h
  split at h
  · omega
  · omega
  · exact inj h (.of_links (by simp) s.links_stepImage)
  · split at h
    · exact inj h (.refl s)
    · cases h
  · split at h
    · exact inj h (.refl s)
    · cases h
  · split at h
    · cases h
    · split at h
      · exact inj h (.of_frame (by simp))
      · exact inj h (.of_frame (by simp))
  · split at h
    · exact inj h (.of_frame (by simp))
    · cases h
  · split at h
    · cases h
    · split at h
      · exact inj h (.refl s)
      · exact inj h (.refl s)
  · split at h
    · exact inj h (.refl s)
    · cases h
  · exact inj h (.refl s)

/-- A step that begins sends its START_V, or starts the reference, which it mutes (R411, R417). -/
theorem State.stepBegin_outside (s : State) (n : Nat) : StartOutside s (s.stepBegin n) := by
  unfold State.stepBegin
  extract_lets st s1 s2
  have h2 : StartOutside s s2 := .of_frame (by simp [s2, s1])
  split
  · exact h2.trans (.of_frame (by simp))
  · split
    · exact h2.trans ⟨keep_sys (by simp), keep_saf (by simp), fun _ => rfl, State.links_congr (keep_hats (by simp))⟩
    · exact h2

/-- Step SAFETY is over: only the steps after it come (R417). -/
def State.pastSafety (s : State) : Prop := 3 ≤ s.start.step ∨ s.start.step = 2 ∧ s.start.active = false

theorem State.pastSafety_congr {s t : State} (hstep : t.start.step = s.start.step) (hactive : t.start.active = s.start.active)
    (h : s.pastSafety) : t.pastSafety := by
  unfold State.pastSafety
  rwa [hstep, hactive]

/-- What the steps after SAFETY leave, the turns of the Start Sequencer leave once SAFETY is over, while no RESTART waits (R417). -/
theorem State.startRun_outside {s : State} (hpast : s.pastSafety) (hwanted : s.start.restartWanted = none) (n : Nat) :
    StartOutside s (s.startRun n) := by
  have hkept : StartOutside s (s.startRun n) ∧ (s.startRun n).pastSafety ∧ (s.startRun n).start.restartWanted = none := by
    refine State.startRun_keeps (I := fun t => StartOutside s t ∧ t.pastSafety ∧ t.start.restartWanted = none) (fun h => h.2.2)
      (fun {t} h => ?switch) (fun {t u o c} h hactive htry => ?turn) (fun {t} h => ?between) (fun {t} h => ?hold) (fun {t} h => ?begin) n
      ⟨.refl s, hpast, hwanted⟩
    all_goals obtain ⟨hout, hpos, hnone⟩ := h
    case switch =>
      have hsame : (t.stepSwitch t.start.step).start = t.start := keep_start (by simp)
      exact ⟨hout.trans (.of_frame (by simp)), State.pastSafety_congr (by rw [hsame]) (by rw [hsame]) hpos, by rw [hsame, hnone]⟩
    case turn =>
      have hstep : 3 ≤ t.start.step := by
        rcases hpos with h | ⟨-, h⟩
        · exact h
        · exact absurd (h.symm.trans hactive) Bool.false_ne_true
      have hcourse := (State.stepTry_course htry).trans (u.stepEnd_course o c)
      exact ⟨(hout.trans (State.stepTry_outside hstep htry)).trans (.of_frame (by simp)), .inl (hstep.trans hcourse.step),
        hcourse.wanted.trans hnone⟩
    case between =>
      obtain ⟨-, hsame, hactive, -, hwant⟩ := start_of_startup t.betweenSteps_startup
      have hframe : Frame [.regs, .mgmtStatus, .lnk, .ctl, .edg, .prt, .mtr, .hats, .pwr, .start, .trk, .dbg, .out] t t.betweenSteps := by
        rw [State.betweenSteps, Frame.foldl (by intro y k; simp)]
        simp
      exact ⟨hout.trans (.of_links (hframe.mono (by decide)) t.links_betweenSteps), State.pastSafety_congr hsame hactive hpos, hwant.trans hnone⟩
    case hold =>
      refine ⟨hout.trans (.of_frame (by simp [State.holdStart])), State.pastSafety_congr ?_ ?_ hpos, ?_⟩ <;> rw [t.holdStart_start]
      exact hnone
    case begin =>
      have hcourse := t.stepBegin_course (Nat.le_succ t.start.step)
      refine ⟨hout.trans (t.stepBegin_outside _), .inl ?_, hcourse.wanted.trans hnone⟩
      rw [t.stepBegin_start]
      show 3 ≤ t.start.step + 1
      rcases hpos with h | ⟨h, -⟩ <;> omega
  exact hkept.1

end Sys2Proof.Machine
end

section
/-! PROOFS. The start-up (O45): the turns of a power-on, the refusals, RESTART, the retries of SUPPLIES and REFERENCE, and the domains. -/

namespace Sys2Proof.Machine

/-! The registers between two steps. -/

/-- What decides whether the start-up is held before a step: the writes that wait, and STR_CFG (R418, R419). -/
structure HoldKept (s t : State) : Prop where
  pend : t.regs.pend = s.regs.pend
  cfg : t.reg R.STR_CFG = s.reg R.STR_CFG

namespace HoldKept

theorem refl (s : State) : HoldKept s s := ⟨rfl, rfl⟩

theorem trans {s t u : State} (h : HoldKept s t) (h' : HoldKept t u) : HoldKept s u := ⟨h'.pend.trans h.pend, h'.cfg.trans h.cfg⟩

theorem of_regs {s t : State} (h : t.regs = s.regs) : HoldKept s t := ⟨congrArg RegSt.pend h, State.reg_congr h _⟩

theorem ite {c : Prop} [Decidable c] {s a b : State} (ha : HoldKept s a) (hb : HoldKept s b) : HoldKept s (if c then a else b) := by
  split <;> assumption

theorem foldl {A : Type} {f : State → A → State} {l : List A} (hf : ∀ y, ∀ a ∈ l, HoldKept y (f y a)) (s : State) : HoldKept s (l.foldl f s) :=
  List.foldlRecOn (motive := HoldKept s) l f (.refl s) fun t ht a ha => ht.trans (hf t a ha)

theorem setReg (s : State) {k : Nat} (hk : R.STR_CFG ≠ k) (v : Word) : HoldKept s (s.setReg k v) :=
  ⟨State.setReg_pend s k v, (State.reg_setReg _ _ _ _).trans (if_neg hk)⟩

theorem latch (s : State) {k : Nat} (hk : R.STR_CFG ≠ k) (b : Nat) : HoldKept s (s.latch k b) :=
  ⟨State.latch_pend s k b, (State.reg_latch _ _ _ _).trans (if_neg hk)⟩

theorem countSuppressed (s : State) (n : Nat) : HoldKept s (s.countSuppressed n) :=
  ⟨(State.noteLt_pend _ _ _).trans (State.setReg_pend _ _ _), s.countSuppressed_regsBut n _ (by decide)⟩

theorem trkAsk (s : State) (i : TrkItem) (ws : List Nat) : HoldKept s (s.trkAsk i ws) := .ite (.countSuppressed s 1) (.of_regs rfl)

theorem binLog (s : State) (cause : Nat) (payload : List Nat) : HoldKept s (s.binLog cause payload) := by
  refine ⟨?_, s.binLog_regsBut cause payload _ (by decide)⟩
  unfold State.binLog State.binAt State.binPush
  split
  · exact (HoldKept.countSuppressed s 1).pend
  · extract_lets start q s1 on rep q' s2 t3 s3
    have h1 : HoldKept s s1 := .ite ((HoldKept.latch s (by decide) 0).trans (.countSuppressed _ _)) (.refl s)
    have h2 : HoldKept s1 s2 := .ite (.countSuppressed s1 1) (.refl s1)
    rw [State.noteLt_pend, State.setRf_pend]
    exact (h1.trans h2).pend

end HoldKept

theorem State.formatTrunk_holdKept (s : State) : HoldKept s s.formatTrunk := by
  unfold State.formatTrunk
  extract_lets t s1
  exact (HoldKept.of_regs (s := s) (t := s1) rfl).trans ((HoldKept.latch s1 (by decide) 3).trans ((HoldKept.binLog _ _ _).trans (.trkAsk _ _ _)))

theorem State.ringAppend_holdKept (s : State) : HoldKept s s.ringAppend := by
  unfold State.ringAppend
  split
  · exact .ite (.countSuppressed s 1) (.of_regs rfl)
  · exact .refl s

theorem State.startCount_holdKept (s : State) : HoldKept s s.startCount := by
  unfold State.startCount
  extract_lets n st s1
  exact (HoldKept.of_regs (s := s) (t := s1.recSet 125 n) rfl).trans (.trkAsk _ _ _)

theorem State.stepTrunk_holdKept (s : State) : HoldKept s s.stepTrunk.1 := by
  unfold State.stepTrunk
  extract_lets s1 s2 absent bad f ft s3 t3 s4 dir rows q1 q2 q3 s5 s6 code
  have h2 : HoldKept s1 s2 := .foldl (fun y off _ => (HoldKept.latch y (k := R.TRK_CAUSE) (by decide) 1).trans (.binLog _ _ _)) s1
  have h3 : HoldKept s2 s3 := .ite (s2.formatTrunk_holdKept.trans (.of_regs rfl)) (.refl s2)
  have h4 : HoldKept s3 s4 := .ite (.of_regs rfl) (.refl s3)
  have h6 : HoldKept s5 s6 := s5.ringAppend_holdKept.trans (State.startCount_holdKept _)
  exact (HoldKept.of_regs (s := s) (t := s1) rfl).trans (h2.trans (h3.trans (h4.trans ((HoldKept.of_regs (s := s4) (t := s5) rfl).trans h6))))

/-- The registers of the safety set are none of the Start Sequencer's. -/
theorem safParams_ne : ∀ o ∈ safParams, R.STR_CFG ≠ o ∧ R.STR_CFG ≠ pendSafetyKey o := by decide +kernel

theorem State.putSafety_holdKept (s : State) (ws : List Word) : HoldKept s (s.putSafety ws) :=
  .foldl (fun y _ ha => .setReg y (safParams_ne _ (List.of_mem_zip ha).1).1 _) s

theorem State.putSafetyPending_holdKept (s : State) (ws : List Word) : HoldKept s (s.putSafetyPending ws) :=
  .foldl (fun y _ ha => .setReg y (safParams_ne _ (List.of_mem_zip ha).1).2 _) s

/-- The safety set is loaded, or it is not valid: the Safety Core runs as before (R356). -/
theorem State.safLoad_kept (s : State) : HoldKept s s.safLoad ∧ s.safLoad.saf.running = s.saf.running := by
  unfold State.safLoad
  split
  · exact ⟨.of_regs rfl, rfl⟩
  · next x _ =>
    extract_lets n ws check ok s1
    have h1 : s1.saf = s.saf := keep_saf (by simp [s1])
    split
    · exact ⟨(s.putSafety_holdKept ws).trans (.of_regs (s := s1) rfl), by rw [← h1]⟩
    · exact ⟨.of_regs rfl, rfl⟩

/-- Step SAFETY starts the Safety Core (R417). -/
theorem State.stepSafety_spec (s : State) : s.stepSafety.1.saf.running = true ∧ HoldKept s s.stepSafety.1 ∧
    (s.stepSafety.2.1 = 1 ∨ s.stepSafety.2.1 = 2) := by
  unfold State.stepSafety
  extract_lets q s1 s2
  obtain ⟨hloaded, hrunning⟩ := State.safLoad_kept { s with saf := { s.saf with running := true, restartWait := true } }
  have h2 : s2.saf = s1.saf := keep_saf (by simp [s2])
  have hrun : s2.saf.running = true := (congrArg SafSt.running h2).trans hrunning
  have hstarted : HoldKept s { s with saf := { s.saf with running := true, restartWait := true } } := .of_regs rfl
  have hhold : HoldKept s s2 := hstarted.trans (hloaded.trans (s1.putSafetyPending_holdKept _))
  split
  · exact ⟨hrun, hhold, .inl rfl⟩
  · exact ⟨hrun, hhold, .inr rfl⟩

theorem State.stepEnd_holdKept (s : State) (outcome code : Nat) : HoldKept s (s.stepEnd outcome code) := by
  unfold State.stepEnd
  extract_lets n shown kept w st s1 s2 s3 s4 s5
  have h3 : HoldKept s2 s3 := .binLog _ _ _
  have h4 : HoldKept s3 s4 := .ite (.latch _ (by decide) _) (.refl _)
  have h5 : HoldKept s4 s5 := .ite (.latch _ (by decide) _) (.refl _)
  exact (HoldKept.of_regs (s := s) (t := s2) rfl).trans (h3.trans (h4.trans (h5.trans (.trkAsk _ _ _))))

/-- A step that fails or takes its alternative sets a cause, and so does the last one (R417, R436). -/
theorem State.stepEnd_causes (s : State) (outcome code : Nat) :
    (outcome = 2 ∨ outcome = 3 → (s.stepEnd outcome code).rb R.STR_CAUSE 0 = true) ∧
      (s.start.step = 10 → (s.stepEnd outcome code).rb R.STR_CAUSE 2 = true) := by
  unfold State.stepEnd
  extract_lets n shown kept w st s1 s2 s3 s4 s5
  have hask (b : Nat) : (s5.trkAsk .startRecord s5.recWords).rb R.STR_CAUSE b = s5.rb R.STR_CAUSE b :=
    (s5.trkAsk_regsBut _ _).rb (by decide) b
  rw [hask, hask]
  refine ⟨fun h => ?_, fun h => ?_⟩
  · have h4 : s4.rb R.STR_CAUSE 0 = true := by
      unfold s4
      rw [if_pos h]
      exact State.rb_latch _ _ _ (by decide)
    unfold s5
    split
    · exact State.rb_latch_keeps _ _ _ _ _ (by decide) h4
    · exact h4
  · unfold s5
    rw [if_pos h]
    exact State.rb_latch _ _ _ (by decide)

/-! One turn. -/

/-- A step in progress that switches no domain (R403, R417). -/
def State.begun (s : State) (k : Nat) : State := { s with start := { s.start with step := k, active := true, retries := 0 } }

/-- The steps TRUNK, SAFETY, IMAGE and DONE begin without a domain. -/
theorem State.stepBegin_begun (s : State) {k : Nat} (hk : k ∈ [1, 2, 3, 10]) : s.stepBegin k = s.begun k ∧ (s.begun k).stepSwitch k = s.begun k := by
  simp only [List.mem_cons, List.not_mem_nil, or_false] at hk
  obtain rfl | rfl | rfl | rfl := hk <;> exact ⟨rfl, rfl⟩

/-- Without writes that wait the registers of class Start step stay (R419). -/
theorem State.betweenSteps_none {s : State} (h : s.regs.pend = []) : s.betweenSteps = s := by
  have htake (off : Nat) : s.takeStart off = s := by
    unfold State.takeStart
    rw [h]
    rfl
  simp only [State.betweenSteps, List.foldl, htake]

section
variable {s : State} (hpowered : s.start.powered = true) (hstate : s.start.state = .running)
include hpowered hstate

/-- A step in progress that can end ends (R417). -/
theorem State.startRun_turn (n : Nat) {t : State} {o c : Nat} (hactive : s.start.active = true)
    (hmuted : (5 < s.start.step && s.ref.muted) = false) (htry : (s.stepSwitch s.start.step).stepTry = some (t, o, c))
    (hwanted : t.start.restartWanted = none) : s.startRun (n + 1) = (t.stepEnd o c).startRun n := by
  rw [State.startRun, if_neg (by simp [hpowered, hstate]), if_pos hactive, if_neg (by simp only [hmuted]; exact Bool.false_ne_true)]
  dsimp only
  rw [htry]
  exact congrArg (State.startRun n) (State.stepLeave_of_unwanted o c hwanted)

theorem State.startRun_waits (n : Nat) (hactive : s.start.active = true) (htry : (s.stepSwitch s.start.step).stepTry = none) :
    s.startRun (n + 1) = s ∨ s.startRun (n + 1) = s.stepSwitch s.start.step := by
  rw [State.startRun, if_neg (by simp [hpowered, hstate]), if_pos hactive]
  split
  · exact .inl rfl
  · dsimp only
    rw [htry]
    exact .inr rfl

section
variable (hactive : s.start.active = false) (hpend : s.regs.pend = [])
include hactive hpend

/-- The start-up is held before the step that HOLD_AT names (R418). -/
theorem State.startRun_hold (n : Nat) (hhold : s.rf R.STR_CFG 31 28 = s.start.step + 1) (hheld : s.start.wasHeld = false) :
    s.startRun (n + 1) = s.holdStart := by
  rw [State.startRun, if_neg (by simp [hpowered, hstate]), if_neg (by rw [hactive]; exact Bool.false_ne_true)]
  change (if s.betweenSteps.rf R.STR_CFG 31 28 = s.start.step + 1 ∧ s.betweenSteps.start.wasHeld = false then s.betweenSteps.holdStart else _) = _
  rw [State.betweenSteps_none hpend]
  exact if_pos ⟨hhold, hheld⟩

/-- Another step begins (R417). -/
theorem State.startRun_begin (n : Nat) (hhold : s.rf R.STR_CFG 31 28 ≠ s.start.step + 1) :
    s.startRun (n + 1) = (s.stepBegin (s.start.step + 1)).startRun n := by
  rw [State.startRun, if_neg (by simp [hpowered, hstate]), if_neg (by rw [hactive]; exact Bool.false_ne_true)]
  change (if s.betweenSteps.rf R.STR_CFG 31 28 = s.start.step + 1 ∧ s.betweenSteps.start.wasHeld = false then _ else
    (s.betweenSteps.stepBegin (s.start.step + 1)).startRun n) = _
  rw [State.betweenSteps_none hpend]
  exact if_neg fun h => hhold h.1

/-- A step that switches no domain begins, and ends at once (R417). -/
theorem State.startRun_step (n : Nat) {k : Nat} {t : State} {o c : Nat} (hk : s.start.step + 1 = k) (hplain : k ∈ [1, 2, 3, 10])
    (hhold : s.rf R.STR_CFG 31 28 ≠ k) (hmuted : (5 < k && s.ref.muted) = false) (htry : (s.begun k).stepTry = some (t, o, c))
    (hwanted : t.start.restartWanted = none) : s.startRun (n + 2) = (t.stepEnd o c).startRun n := by
  obtain ⟨hbegin, hswitch⟩ := s.stepBegin_begun hplain
  rw [State.startRun_begin hpowered hstate hactive hpend (n + 1) (hk ▸ hhold), hk, hbegin]
  exact State.startRun_turn (s := s.begun k) hpowered hstate n rfl hmuted ((congrArg State.stepTry hswitch).trans htry) hwanted

end

end

theorem State.startRun_idle {s : State} (hstate : s.start.state ≠ .running) (n : Nat) : s.startRun n = s := by
  cases n with
  | zero => rfl
  | succ n => rw [State.startRun, if_pos (.inr hstate)]

/-! Power-on. -/

theorem State.stepTrunk_outcome (s : State) : s.stepTrunk.2.1 = 1 ∨ s.stepTrunk.2.1 = 2 := by
  unfold State.stepTrunk
  extract_lets s1 s2 absent bad f ft s3 t3 s4 dir rows q1 q2 q3 s5 s6 code
  show (if code = 0 then 1 else 2) = 1 ∨ (if code = 0 then 1 else 2) = 2
  split
  · exact .inl rfl
  · exact .inr rfl

/-- Step TRUNK from its beginning to its end (R417). -/
def State.trunkDone (s : State) : State := (s.begun 1).stepTrunk.1.stepEnd (s.begun 1).stepTrunk.2.1 (s.begun 1).stepTrunk.2.2

/-- Step SAFETY from its beginning to its end (R417). -/
def State.safetyDone (s : State) : State := (s.begun 2).stepSafety.1.stepEnd (s.begun 2).stepSafety.2.1 (s.begun 2).stepSafety.2.2

/-- The Start Sequencer between two steps, from the step given (R417). -/
structure StartIdle (s : State) (step : Nat) : Prop where
  powered : s.start.powered = true
  state : s.start.state = .running
  active : s.start.active = false
  held : s.start.wasHeld = false
  wanted : s.start.restartWanted = none
  step : s.start.step = step
  pend : s.regs.pend = []

/-- A step that ends other than in failure leaves the Start Sequencer between two steps (R417). -/
theorem State.stepEnd_idle {s : State} {outcome : Nat} (code : Nat) {step : Nat} (hpowered : s.start.powered = true)
    (hwanted : s.start.restartWanted = none) (hstep : s.start.step = step) (hlast : step ≠ 10) (hpend : s.regs.pend = [])
    (houtcome : outcome = 1 ∨ outcome = 2) : StartIdle (s.stepEnd outcome code) step := by
  obtain ⟨record, hend⟩ := s.stepEnd_ended outcome code
  have hpend' := (s.stepEnd_holdKept outcome code).pend.trans hpend
  refine ⟨?_, ?_, ?_, ?_, ?_, ?_, hpend'⟩ <;> rw [hend]
  · exact hpowered
  · show (if outcome = 3 then SeqState.failed else if s.start.step = 10 then .complete else .running) = .running
    rw [if_neg (by omega), if_neg (by omega)]
  · exact hwanted
  · exact hstep

theorem State.trunkDone_spec {s : State} (h : StartIdle s 0) : StartIdle s.trunkDone 1 ∧ HoldKept s s.trunkDone ∧
    (∃ era, s.trunkDone.sys = { s.sys with era := era }) ∧ s.trunkDone.start.inputs = s.start.inputs ∧
    Frame [.regs, .sys, .cel, .start, .trk] s s.trunkDone := by
  obtain ⟨era, starts, record, hsys, hstart⟩ := (s.begun 1).stepTrunk_spec
  have hhold : HoldKept s (s.begun 1).stepTrunk.1 := (HoldKept.of_regs (s := s) (t := s.begun 1) rfl).trans (State.stepTrunk_holdKept _)
  have hidle : StartIdle s.trunkDone 1 := State.stepEnd_idle _ (by rw [hstart]; exact h.powered) (by rw [hstart]; exact h.wanted)
    (by rw [hstart]; rfl) (by decide) (hhold.pend.trans h.pend) (State.stepTrunk_outcome _)
  obtain ⟨record', hend⟩ := (s.begun 1).stepTrunk.1.stepEnd_ended (s.begun 1).stepTrunk.2.1 (s.begun 1).stepTrunk.2.2
  refine ⟨hidle, hhold.trans (State.stepEnd_holdKept _ _ _), ⟨era, ?_⟩, ?_, ?_⟩
  · exact (State.stepEnd_kept _ _ _).1.trans hsys
  · rw [State.trunkDone, hend, hstart]
    rfl
  · simp [State.trunkDone, State.begun]

theorem State.safetyDone_spec {s : State} (h : StartIdle s 1) : StartIdle s.safetyDone 2 ∧ HoldKept s s.safetyDone ∧
    s.safetyDone.sys = s.sys ∧ s.safetyDone.start.inputs = s.start.inputs ∧ s.safetyDone.saf.running = true ∧
    Frame [.regs, .saf, .start, .trk] s s.safetyDone := by
  obtain ⟨hrun, hkept, houtcome⟩ := (s.begun 2).stepSafety_spec
  have hstart : (s.begun 2).stepSafety.1.start = (s.begun 2).start := keep_start (by simp)
  have hhold : HoldKept s (s.begun 2).stepSafety.1 := (HoldKept.of_regs (s := s) (t := s.begun 2) rfl).trans hkept
  have hidle : StartIdle s.safetyDone 2 := State.stepEnd_idle _ (by rw [hstart]; exact h.powered) (by rw [hstart]; exact h.wanted)
    (by rw [hstart]; rfl) (by decide) (hhold.pend.trans h.pend) houtcome
  obtain ⟨record, hend⟩ := (s.begun 2).stepSafety.1.stepEnd_ended (s.begun 2).stepSafety.2.1 (s.begun 2).stepSafety.2.2
  have hframe : Frame [.regs, .saf, .start, .trk] s s.safetyDone := by simp [State.safetyDone, State.begun]
  refine ⟨hidle, hhold.trans (State.stepEnd_holdKept _ _ _), keep_sys (hframe.mono (by decide)), ?_, ?_, hframe⟩
  · rw [State.safetyDone, hend, hstart]
    rfl
  · exact (congrArg SafSt.running (keep_saf (s := (s.begun 2).stepSafety.1) (by simp [State.safetyDone]))).trans hrun

/-- The steps TRUNK and SAFETY of a power-on run, neither of which HOLD_AT names (R417, R418). -/
theorem State.startRun_firstSteps (n : Nat) {s : State} (h : StartIdle s 0) (htrunk : s.rf R.STR_CFG 31 28 ≠ 1)
    (hsafety : s.rf R.STR_CFG 31 28 ≠ 2) : s.startRun (n + 4) = s.trunkDone.safetyDone.startRun n := by
  obtain ⟨h1, hhold, -⟩ := State.trunkDone_spec h
  have hcfg : s.trunkDone.rf R.STR_CFG 31 28 = s.rf R.STR_CFG 31 28 := congrArg (fld · 31 28) hhold.cfg
  obtain ⟨era, starts, record, -, hstart⟩ := (s.begun 1).stepTrunk_spec
  have hstart' : (s.trunkDone.begun 2).stepSafety.1.start = (s.trunkDone.begun 2).start := keep_start (by simp)
  have hwanted : (s.begun 1).stepTrunk.1.start.restartWanted = none := by
    rw [hstart]
    exact h.wanted
  have hwanted' : (s.trunkDone.begun 2).stepSafety.1.start.restartWanted = none := by
    rw [hstart']
    exact h1.wanted
  calc s.startRun (n + 4) = s.trunkDone.startRun (n + 2) :=
        State.startRun_step h.powered h.state h.active h.pend (n + 2) (k := 1) (by rw [h.step]) (by decide) htrunk rfl rfl hwanted
    _ = s.trunkDone.safetyDone.startRun n :=
        State.startRun_step h1.powered h1.state h1.active h1.pend n (k := 2) (by rw [h1.step]) (by decide) (hcfg ▸ hsafety) rfl rfl hwanted'

end Sys2Proof.Machine
end

section
/-! PROOFS. The start-up's commands (O45): POWER_ON, CONTINUE, RESTART, the timeouts of SUPPLIES and REFERENCE, and DOMAIN_READY. -/

namespace Sys2Proof.Machine

/-! POWER_ON. -/

/-- The device as its supplies come up, before the Start Sequencer runs (R416, R418). -/
def State.poweredOn (s : State) (inp : StartIn) : State :=
  let t : State := { s with start := { powered := true, inputs := inp, aoNs := s.start.aoNs }, sys := { s.sys with tj := inp.tj } }
  if inp.bootHold then t.setRf R.STR_CFG 31 28 3 else t

theorem exec_powerOn {inp : StartIn} {s : State} (hoff : s.start.powered = false) :
    exec (.powerOn inp) s = .next (s.poweredOn inp).sequence :=
  if_neg (by rw [hoff]; exact Bool.false_ne_true)

theorem State.poweredOn_spec (s : State) (inp : StartIn) (hpend : s.regs.pend = []) : StartIdle (s.poweredOn inp) 0 ∧
    (s.poweredOn inp).sys = { s.sys with tj := inp.tj } ∧ (s.poweredOn inp).start.inputs = inp ∧ Frame [.regs, .sys, .start] s (s.poweredOn inp) ∧
    (s.poweredOn inp).rf R.STR_CFG 31 28 = if inp.bootHold then 3 else s.rf R.STR_CFG 31 28 := by
  unfold State.poweredOn
  extract_lets st t
  have hframe : Frame [.regs, .sys, .start] s t :=
    (Frame.set_sys (s := { s with start := { powered := true, inputs := inp, aoNs := s.start.aoNs } }) _ (by simp)).mpr
      ((Frame.set_start _ (by simp)).mpr (.refl _))
  cases inp.bootHold with
  | true =>
    have hrf : (t.setRf R.STR_CFG 31 28 3).rf R.STR_CFG 31 28 = 3 := by
      rw [State.rf, State.setRf, State.reg_setReg, if_pos rfl, fld_setFld_same _ _ _ _ (by decide)]
      rfl
    exact ⟨⟨rfl, rfl, rfl, rfl, rfl, rfl, hpend⟩, rfl, rfl, (State.setRf_frame _ _ _ _ (by simp)).mpr hframe, hrf⟩
  | false => exact ⟨⟨rfl, rfl, rfl, rfl, rfl, rfl, hpend⟩, rfl, rfl, hframe, rfl⟩

/-- The steps TRUNK and SAFETY of a power-on (R417). -/
theorem State.poweredOn_firstSteps (s : State) (inp : StartIn) (hpend : s.regs.pend = [])
    (hhold : (s.poweredOn inp).rf R.STR_CFG 31 28 ≠ 1 ∧ (s.poweredOn inp).rf R.STR_CFG 31 28 ≠ 2) : ∃ u : State,
    (s.poweredOn inp).sequence = u.startRun 60 ∧ StartIdle u 2 ∧ u.rf R.STR_CFG 31 28 = (s.poweredOn inp).rf R.STR_CFG 31 28 ∧
      u.start.inputs = inp ∧ u.saf.running = true ∧ u.sys.counting = s.sys.counting ∧ u.sys.conv = s.sys.conv ∧
      Frame [.regs, .sys, .cel, .saf, .start, .trk] s u := by
  obtain ⟨h0, hsys, hinputs, hframe, -⟩ := s.poweredOn_spec inp hpend
  obtain ⟨h1, hkept1, ⟨era, hsys1⟩, hinputs1, hframe1⟩ := State.trunkDone_spec h0
  obtain ⟨h2, hkept2, hsys2, hinputs2, hrun, hframe2⟩ := State.safetyDone_spec h1
  have hsysall := hsys2.trans hsys1
  rw [hsys] at hsysall
  refine ⟨(s.poweredOn inp).trunkDone.safetyDone, State.startRun_firstSteps 60 h0 hhold.1 hhold.2, h2,
    congrArg (fld · 31 28) (hkept1.trans hkept2).cfg, hinputs2.trans (hinputs1.trans hinputs), hrun, by rw [hsysall], by rw [hsysall], ?_⟩
  exact (hframe.mono (by decide)).trans ((hframe1.mono (by decide)).trans (hframe2.mono (by decide)))

/-! CONTINUE and RESTART. -/

/-- The start-up goes on with the step before which it was held (R418). -/
def State.continued (s : State) : State := { s with start := { s.start with state := .running, wasHeld := true } }

theorem exec_continueStart {s : State} (hheld : s.start.state = .held) (htest : s.tapTest = false) :
    exec (.continueStart .mgmt) s = .next s.continued.sequence :=
  congrArg Host.Outcome.next (if_pos ⟨rfl, hheld, htest⟩)

/-- A step before which the start-up was held begins, whatever HOLD_AT says by then (R418). -/
theorem State.startRun_continued {s : State} (n : Nat) (hpowered : s.start.powered = true) (hstate : s.start.state = .running)
    (hactive : s.start.active = false) (hheld : s.start.wasHeld = true) :
    s.startRun (n + 1) = (s.betweenSteps.stepBegin (s.start.step + 1)).startRun n := by
  have hsame : s.betweenSteps.start.wasHeld = true :=
    (show s.betweenSteps.startup.wasHeld = s.startup.wasHeld by rw [s.betweenSteps_startup]).trans hheld
  rw [State.startRun, if_neg (by simp [hpowered, hstate]), if_neg (by rw [hactive]; exact Bool.false_ne_true)]
  change (if s.betweenSteps.rf R.STR_CFG 31 28 = s.start.step + 1 ∧ s.betweenSteps.start.wasHeld = false then _ else
    (s.betweenSteps.stepBegin (s.start.step + 1)).startRun n) = _
  exact if_neg fun h => Bool.false_ne_true (h.2.symm.trans hsame)

theorem exec_restart {inp : StartIn} {s : State} (hoff : s.sys.conv = .off) (hpowered : s.start.powered = true) :
    exec (.restart .mgmt 0x7E81 inp) s = .next (
      if (s.binLog 0xBA []).start.state = .running ∧ (s.binLog 0xBA []).start.active then
        { s.binLog 0xBA [] with start := { (s.binLog 0xBA []).start with restartWanted := some inp } }
      else ((s.binLog 0xBA []).restartNow inp).sequence) :=
  congrArg Host.Outcome.next (if_pos ⟨rfl, rfl, hoff, hpowered⟩)

theorem exec_restart_refused {r : Requester} {key : Nat} {inp : StartIn} {s : State}
    (hno : r ≠ .mgmt ∨ key ≠ 0x7E81 ∨ s.sys.conv ≠ .off ∨ s.start.powered = false) :
    exec (.restart r key inp) s = .next (s.logErr r 5 R.STR_ACTION) :=
  congrArg Host.Outcome.next (if_neg fun ⟨hr, hk, hoff, hpowered⟩ => by simp [hr, hk, hoff, hpowered] at hno)

/-- Every Hatch is reset (R373, R416). -/
theorem State.links_hatchesReset (s : State) {g : Nat} (hg : g < 4) :
    (([0, 1, 2, 3] : List (Fin 4)).foldl (fun s h => s.hatchReset h .perst) s).links g = (false, []) := by
  have hreset (y : State) (h : Fin 4) (k : Nat) : (y.hatchReset h .perst).links k = if k = h.val then (false, []) else y.links k := by
    rw [State.links, y.hat_hatchReset]
    split
    · simp [HatSt.afterReset]
    · rfl
  simp only [List.foldl, hreset]
  obtain rfl | rfl | rfl | rfl : g = 0 ∨ g = 1 ∨ g = 2 ∨ g = 3 := by omega
  all_goals rfl

/-- A RESTART that takes effect leaves the steps from IMAGE on to run, and keeps ERA (R416, R420). -/
theorem State.restartNow_spec (s : State) (inp : StartIn) :
    (s.restartNow inp).pastSafety ∧ (s.restartNow inp).start.restartWanted = none ∧ (s.restartNow inp).start.restart = true ∧
      (s.restartNow inp).start.powered = s.start.powered ∧ (s.restartNow inp).sys.era = s.sys.era ∧
      (s.restartNow inp).sys.conv = .off ∧ (s.restartNow inp).sys.counting = false ∧ (s.restartNow inp).ref.muted = true ∧
      (s.restartNow inp).saf = s.saf ∧ ∀ h < 4, (s.restartNow inp).links h = (false, []) := by
  have hsaf : (s.restartNow inp).saf = s.saf := keep_saf (by simp)
  obtain ⟨hconv, hwanted⟩ := s.restartNow_conv inp
  rw [hsaf, hconv, hwanted]
  unfold State.restartNow
  extract_lets s1 s2 st y s3
  have h1 : Frame [.regs, .mtr, .trk] s s1 := by unfold s1; split <;> simp
  have hera : s2.sys.era = s.sys.era :=
    (view_foldl_eq (view := fun y => y.sys.era) s1 fun y h _ => by rw [y.sys_hatchReset]; rfl).trans
      (congrArg SysSt.era (keep_sys (h1.mono (by decide))))
  have hstart2 : s2.start = s.start := (keep_start (s := s1) (by unfold s2; rw [Frame.foldl (by intro y h; simp)]; simp)).trans
    (keep_start (h1.mono (by decide)))
  have hlinks2 (h : Nat) (hh : h < 4) : s2.links h = (false, []) := s1.links_hatchesReset hh
  clear_value s2
  have hera3 : s3.sys.era = s2.sys.era := rfl
  have hcnt3 : s3.sys.counting = false := rfl
  have hmuted3 : s3.ref.muted = true := rfl
  have hlinks3 : s3.links = s2.links := State.links_congr rfl
  have hstart3 : s3.start.step = 2 ∧ s3.start.active = false ∧ s3.start.restart = true ∧ s3.start.powered = s2.start.powered :=
    ⟨rfl, rfl, rfl, rfl⟩
  clear_value s3
  have hrest : Frame [.regs, .trk] s3 s3.ringAppend.regsRestart := by simp
  obtain ⟨record, hcount⟩ := s3.ringAppend.regsRestart.startCount_start
  have hstart : s3.ringAppend.regsRestart.start = s3.start := keep_start (hrest.mono (by decide))
  have hsys : s3.ringAppend.regsRestart.startCount.sys = s3.sys := keep_sys (by simp)
  have href : s3.ringAppend.regsRestart.startCount.ref = s3.ref := keep_ref (by simp)
  have hlinks : s3.ringAppend.regsRestart.startCount.links = s3.links := State.links_congr (keep_hats (by simp))
  obtain ⟨hstep, hactive, hagain, hpowered⟩ := hstart3
  unfold State.pastSafety
  rw [hcount, hsys, href, hlinks, hstart]
  exact ⟨.inr ⟨hstep, hactive⟩, rfl, hagain, hpowered.trans (by rw [hstart2]), hera3.trans hera, rfl, hcnt3, hmuted3, rfl, fun h hh =>
    (congrFun hlinks3 h).trans (hlinks2 h hh)⟩

/-! SUPPLIES and REFERENCE. -/

/-- SUPPLIES tried again, with what the outside then shows (R417). -/
def State.suppliesRetried (s : State) (inp : StartIn) : State := { s with start := { s.start with
  retries := s.start.retries + 1, inputs := { s.start.inputs with powerGood := inp.powerGood, acks := inp.acks, vout := inp.vout } } }

/-- The first retry of REFERENCE records code 8 (R417). -/
def State.referenceRetried (s : State) : State :=
  if s.start.retries = 0 then ({ s with start := { s.start with retries := 1, failCode := 8 } } : State).recSet 7 (8 * 2 ^ 16) else s

theorem State.referenceRetried_spec (s : State) : (∃ failCode record, s.referenceRetried.start = { s.start with
      retries := max 1 s.start.retries, failCode := failCode, record := record } ∧
      (s.start.retries = 0 → failCode = 8 ∧ smGet 0 record 7 = 0x80000)) ∧
    s.referenceRetried.ref = s.ref ∧ s.referenceRetried.regs = s.regs ∧ Frame [.start] s s.referenceRetried := by
  unfold State.referenceRetried
  split
  · next hfirst =>
    refine ⟨⟨8, _, by rw [hfirst]; rfl, fun _ => ⟨rfl, ?_⟩⟩, rfl, rfl, by simp⟩
    rw [smGet_smSet, if_pos rfl]
    rfl
  · next hmore =>
    refine ⟨⟨s.start.failCode, s.start.record, ?_, fun h => absurd h hmore⟩, rfl, rfl, .refl _⟩
    rw [Nat.max_eq_right (by omega)]

section
variable {s : State} (hstate : s.start.state = .running) (hactive : s.start.active = true)
include hstate hactive

theorem exec_startStepTimeout_supplies (inp : StartIn) (hstep : s.start.step = 4) :
    exec (.startStepTimeout inp) s = .next (if s.start.retries < 3 then (s.suppliesRetried inp).sendStart.sequence
      else (s.stepLeave 3 (if s.start.inputs.powerGood then 7 else 6)).sequence) := by
  show execStartStepTimeout inp s = _
  rw [execStartStepTimeout, if_neg (by simp [hstate, hactive]), if_pos hstep]
  split <;> rfl

theorem exec_startStepTimeout_reference (inp : StartIn) (hstep : s.start.step = 5) (hcnt : s.sys.counting = false) :
    exec (.startStepTimeout inp) s = .next s.calibrateUnlocked.refStart.referenceRetried := by
  show execStartStepTimeout inp s = _
  rw [execStartStepTimeout, if_neg (by simp [hstate, hactive]), if_neg (by omega), if_pos ⟨hstep, hcnt⟩]
  unfold State.referenceRetried
  dsimp only
  split <;> rfl

end

/-- START_V is set, and goes to the regulators (R405, R417). -/
def State.startVoltage (s : State) : State := { s with pwr := { s.pwr with vcoreEn := true, setMv := s.rf R.PWR_VCORE_CFG 9 0 } }

/-- START_V goes to each regulator, and each is read (R405, R407, R417). -/
def State.startSent (s : State) : State :=
  let t := s.startVoltage
  let t := t.regulators.foldl (fun s r => s.sendVout r (s.start.inputs.acks.getD r true)) t
  t.regulators.foldl (fun s r => s.pmbSend r 0x8B none (s.start.inputs.vout.getD r none).isSome) t

theorem State.startSent_spec (s : State) : PmbKept s.startVoltage s.startSent ∧
    ((∀ r ∈ s.regulators, s.start.inputs.acks.getD r true = true ∧ (s.start.inputs.vout.getD r none).isSome = true) →
      s.startSent.out = s.out ++ s.regulators.map (fun r => s.pmbRequest r 0x21 (some (s.voutCode s.startVoltage.pwr.setMv))) ++
        s.regulators.map (fun r => s.pmbRequest r 0x8B none)) := by
  unfold State.startSent
  extract_lets t u
  have hsend (y : State) (hy : PmbKept t y) (r : Nat) : PmbKept y (y.sendVout r (y.start.inputs.acks.getD r true)) ∧
      (y.sendVout r (y.start.inputs.acks.getD r true)).out = y.out ++ List.replicate (if s.start.inputs.acks.getD r true then 1 else 2)
        (s.pmbRequest r 0x21 (some (s.voutCode t.pwr.setMv))) := by
    obtain ⟨hkept, -, hout⟩ := y.sendVout_spec r (y.start.inputs.acks.getD r true)
    rw [hy.request, hy.voutCode, hy.setMv, hy.start] at hout
    rw [hy.start] at hkept ⊢
    exact ⟨hkept, hout⟩
  obtain ⟨hset, hsetOut⟩ : PmbKept t u ∧ u.out = t.out ++ _ := PmbKept.foldl hsend t.regulators
  have hread (y : State) (hy : PmbKept u y) (r : Nat) : PmbKept y (y.pmbSend r 0x8B none (y.start.inputs.vout.getD r none).isSome) ∧
      (y.pmbSend r 0x8B none (y.start.inputs.vout.getD r none).isSome).out = y.out ++ List.replicate
        (if (s.start.inputs.vout.getD r none).isSome then 1 else 2) (s.pmbRequest r 0x8B none) := by
    have hall := hset.trans hy
    obtain ⟨hkept, -, hout⟩ := y.pmbSend_spec r 0x8B none (y.start.inputs.vout.getD r none).isSome
    rw [hall.request, hall.start] at hout
    rw [hall.start] at hkept ⊢
    exact ⟨hkept, hout⟩
  obtain ⟨hvout, hvoutOut⟩ := PmbKept.foldl hread u.regulators
  have hregs : u.regulators = s.regulators := hset.regulators
  refine ⟨hset.trans hvout, fun hgood => ?_⟩
  have hone (f : Nat → Bool) (o : Nat → BusOut) (hf : ∀ r ∈ s.regulators, f r = true) :
      s.regulators.flatMap (fun r => List.replicate (if f r then 1 else 2) (o r)) = s.regulators.map o := by
    rw [List.map_eq_flatMap]
    exact List.flatMap_congr fun r hr => by rw [hf r hr]; rfl
  rw [hvoutOut, hsetOut, hregs]
  exact congrArg₂ (· ++ ·) (congrArg (s.out ++ ·) (hone _ _ fun r hr => (hgood r hr).1)) (hone _ _ fun r hr => (hgood r hr).2)

/-- START_V stands, and goes to each regulator (R405, R417). -/
theorem State.sendStart_spec (s : State) : RegsBut [R.PWR_CAUSE, R.TRK_CAUSE, R.TRK_QUEUE, R.TRK_SUPPRESSED] s s.sendStart ∧
    s.sendStart.start = s.start ∧ s.sendStart.pwr.vcoreEn = true ∧ s.sendStart.pwr.setMv = s.rf R.PWR_VCORE_CFG 9 0 ∧
    ((∀ r ∈ s.regulators, s.start.inputs.acks.getD r true = true ∧ (s.start.inputs.vout.getD r none).isSome = true) →
      s.sendStart.out = s.out ++ s.regulators.map (fun r => s.pmbRequest r 0x21 (some (s.voutCode s.sendStart.pwr.setMv))) ++
        s.regulators.map (fun r => s.pmbRequest r 0x8B none)) := by
  obtain ⟨hkept, hout⟩ := s.startSent_spec
  have hregs : RegsBut [R.PWR_CAUSE, R.TRK_CAUSE, R.TRK_QUEUE, R.TRK_SUPPRESSED] s s.startSent :=
    (RegsBut.of_regs (s := s) (t := s.startVoltage) rfl).trans hkept.regs
  have hmv : s.startSent.pwr.setMv = s.rf R.PWR_VCORE_CFG 9 0 := hkept.setMv
  have hen : s.startSent.pwr.unread.vcoreEn = true := (congrArg PwrSt.vcoreEn hkept.unread).trans rfl
  have hsend : ∃ mv, s.sendStart = { s.startSent with pwr := { s.startSent.pwr with measMv := mv } } := by
    unfold State.sendStart
    dsimp only
    split
    · exact ⟨_, rfl⟩
    · exact ⟨s.startSent.pwr.measMv, rfl⟩
  obtain ⟨mv, hsend⟩ := hsend
  rw [hsend]
  refine ⟨hregs.trans (.of_regs rfl), hkept.start, hen, hmv, fun hgood => ?_⟩
  dsimp only
  rw [hmv]
  exact hout hgood

end Sys2Proof.Machine
end

section
/-! PROOFS. The start-up assembled (O45): REFERENCE tried again, a domain that is ready, and the obligation clause by clause. -/

namespace Sys2Proof.Machine

/-! REFERENCE tried again. -/

/-- A calibration that has run gives its cause and a record, and leaves the stored bands (R411, R431). -/
theorem State.calibrate_spec (s : State) (band : Nat) : RegsBut [R.REF_CAUSE, R.TRK_CAUSE, R.TRK_QUEUE, R.TRK_SUPPRESSED] s (s.calibrate band) ∧
    (s.ref.calibrated = false → (s.calibrate band).rb R.REF_CAUSE 2 = true) ∧ (s.calibrate band).trk.bands = s.trk.bands := by
  unfold State.calibrate
  split
  · next hran => exact ⟨.of_regs rfl, fun h => absurd (hran.symm.trans h) Bool.noConfusion, rfl⟩
  · extract_lets r s1 s2
    have h1 : RegsBut [R.REF_CAUSE, R.TRK_CAUSE, R.TRK_QUEUE, R.TRK_SUPPRESSED] s s2 :=
      (RegsBut.of_regs (s := s) (t := s1) rfl).trans ((State.latch_regsBut s1 R.REF_CAUSE 2).mono (by simp))
    generalize (BitVec.toNat (setFld (s2.reg R.REF_STATUS) 31 16 (s2.ref.state.code * 2 ^ 14 + b2n s2.ref.muted * 2 ^ 13))) = x
    obtain ⟨q, c, u, htrk⟩ := s2.binLog_trk 0xC2 [x]
    have hlog := s2.binLog_regsBut 0xC2 [x]
    refine ⟨h1.trans (hlog.mono (by simp)), fun _ => (hlog.rb (by decide) 2).trans (s1.rb_latch _ _ (by decide)), ?_⟩
    rw [htrk]
    rfl

theorem State.calibrateUnlocked_spec (s : State) :
    RegsBut [R.REF_CAUSE, R.TRK_CAUSE, R.TRK_QUEUE, R.TRK_SUPPRESSED] s s.calibrateUnlocked ∧
    (s.ref.calibrated = false → s.calibrateUnlocked.rb R.REF_CAUSE 2 = true) ∧ s.calibrateUnlocked.trk.bands = s.trk.bands := by
  unfold State.calibrateUnlocked
  split
  · next hran => exact ⟨.refl _ s, fun h => absurd (hran.symm.trans h) Bool.noConfusion, rfl⟩
  · obtain ⟨hregs, hcause, hbands⟩ := State.calibrate_spec { s with freeCount := s.freeCount + 1 } ((Config.freeWord s.freeCount).toNat % 256)
    exact ⟨hregs, hcause, hbands⟩

theorem junctionRange_lt (tj : Int) : junctionRange tj < 4 := by
  unfold junctionRange
  split_ifs <;> omega

/-- The reference starts again from the stored band of the junction range (R411). -/
theorem State.refStart_spec (s : State) : s.refStart.ref.state = .unlocked ∧ s.refStart.ref.calibrated = false ∧
    s.refStart.ref.range = junctionRange s.sys.tj ∧
    (s.storedBands.getD (3 * junctionRange s.sys.tj) 0 = 1 →
      s.refStart.ref.band = s.storedBands.getD (3 * junctionRange s.sys.tj + 1) 0) ∧
    s.refStart.regs = s.regs ∧ s.refStart.start = s.start :=
  ⟨rfl, rfl, rfl, fun h => if_pos h, rfl, rfl⟩

/-! A domain that is ready. -/

theorem State.domainReady_pwr (s : State) (d : Nat) :
    (s.domainReady d).pwr = { s.pwr with ready := s.pwr.ready + 2 ^ d, switching := s.pwr.switching - 2 ^ d } := by
  unfold State.domainReady
  extract_lets p t
  split
  · exact view_foldl_eq (view := State.pwr) t fun y i _ => rfl
  · rfl

/-- The lanes of a group are calibrated once its domain is ready, but for those that fail (R404). -/
theorem State.domainReady_lane (s : State) (d : Nat) {l : Nat} (hl : l < 512) : ((s.domainReady d).lane l).calibrated =
    if l / 16 = d then !s.start.inputs.badLanes.contains l else (s.lane l).calibrated := by
  unfold State.domainReady
  extract_lets p t
  have hlane (y : State) (i : Nat) : ((y.updLane (16 * d + i) fun a => { a with
      calibrated := !y.start.inputs.badLanes.contains (16 * d + i) }).lane l).calibrated =
      if l = 16 * d + i then !y.start.inputs.badLanes.contains l else (y.lane l).calibrated := by
    rw [State.lane_updLane]
    split
    · next h => rw [h]
    · rfl
  by_cases hgroup : l / 16 = d
  · rw [if_pos hgroup, if_pos (by omega)]
    obtain ⟨u, hu, hfold⟩ := view_foldl_range (view := fun y => ((y.lane l).calibrated, y.start)) (n := 16) (k := l % 16)
      (f := fun s i => s.updLane (16 * d + i) fun a => { a with calibrated := !s.start.inputs.badLanes.contains (16 * d + i) })
      (Nat.mod_lt _ (by decide)) t fun y a ha => Prod.ext ((hlane y a).trans (if_neg (by omega))) rfl
    have hstart : u.start = s.start := congrArg Prod.snd hu
    exact (congrArg Prod.fst hfold).trans ((hlane u (l % 16)).trans ((if_pos (by omega)).trans (by rw [hstart])))
  · rw [if_neg hgroup]
    split
    · exact view_foldl_eq (view := fun y => (y.lane l).calibrated) t fun y i hi =>
        (hlane y i).trans (if_neg (by have := List.mem_range.mp hi; omega))
    · rfl

/-- A domain switched on keeps those that are ready (R404). -/
theorem State.domain_stepSwitch (s : State) (n e : Nat) : (s.stepSwitch n).domain e = s.domain e := by
  refine view_foldl_eq (view := fun y => y.domain e) s fun y d _ => ?_
  unfold State.switchOn
  split <;> rfl

/-- The domains of step HATCHES are those that PWR_CFG wants, of 47 and 48 (R403). -/
theorem State.stepDomains_hatches_congr {s t : State} (h : t.regs = s.regs) : t.stepDomains 9 = s.stepDomains 9 := by
  have hwanted : t.hatchesWanted = s.hatchesWanted := by
    funext p
    rw [State.hatchesWanted, State.hatchesWanted, State.rb, State.rb, State.rb, State.rb, State.reg_congr h]
  simp only [State.stepDomains, hwanted]

theorem State.mem_stepDomains_hatches {s : State} {e : Nat} (h : e ∈ s.stepDomains 9) : e = 47 ∨ e = 48 := by
  simp only [State.stepDomains, List.mem_map, List.mem_filter, List.mem_cons, List.not_mem_nil, or_false] at h
  obtain ⟨p, ⟨hp, -⟩, rfl⟩ := h
  omega

/-- A domain of the Hatches that becomes ready joins those that are ready. -/
theorem bit_ready {x d e : Nat} (hd : d = 47 ∨ d = 48) (he : e = 47 ∨ e = 48) (hoff : bit x d = false) (h : e = d ∨ bit x e = true) :
    bit (x + 2 ^ d) e = true := by
  unfold bit bits at *
  rw [decide_eq_true_eq] at *
  rw [decide_eq_false_iff_not] at hoff
  obtain rfl | rfl := hd <;> obtain rfl | rfl := he <;> omega

/-- The last domain of step HATCHES ends that step, and DONE completes the start-up (R417, R420). -/
theorem State.sequence_hatchesReady {s : State} {d : Nat} (hd : d = 47 ∨ d = 48) (hpowered : s.start.powered = true)
    (hstate : s.start.state = .running) (hactive : s.start.active = true) (hstep : s.start.step = 9) (hwanted : s.start.restartWanted = none)
    (hmuted : s.ref.muted = false) (hpend : s.regs.pend = []) (hhold : s.rf R.STR_CFG 31 28 ≠ 10)
    (hothers : ∀ e ∈ s.stepDomains 9, e = d ∨ s.domain e = true) (hoff : s.domain d = false) :
    (s.domainReady d).sequence.start.state = .complete ∧ (s.domainReady d).sequence.start.step = 10 ∧
      (s.domainReady d).sequence.rb R.STR_CAUSE 2 = true := by
  have hstart : (s.domainReady d).start = s.start := keep_start (by simp)
  have href : (s.domainReady d).ref = s.ref := keep_ref (by simp)
  have hregs : ((s.domainReady d).stepSwitch 9).regs = s.regs := keep_regs (by simp)
  have hready : ((s.domainReady d).stepSwitch 9).stepReady 9 = true := by
    refine List.all_eq_true.mpr fun e he => ?_
    rw [State.stepDomains_hatches_congr hregs] at he
    rw [State.domain_stepSwitch, State.domain, s.domainReady_pwr]
    exact bit_ready hd (State.mem_stepDomains_hatches he) hoff (hothers e he)
  have hswitch : ((s.domainReady d).stepSwitch 9).start = s.start := keep_start (by simp)
  have htry : ((s.domainReady d).stepSwitch (s.domainReady d).start.step).stepTry = some ((s.domainReady d).stepSwitch 9, 1, 0) := by
    rw [hstart, hstep, State.stepTry, hswitch, hstep]
    exact if_pos hready
  have hidle : StartIdle (((s.domainReady d).stepSwitch 9).stepEnd 1 0) 9 := State.stepEnd_idle 0 (by rw [hswitch, hpowered])
    (by rw [hswitch, hwanted]) (by rw [hswitch, hstep]) (by decide) (by rw [hregs, hpend]) (.inl rfl)
  have hcfg := congrArg (fld · 31 28) (((s.domainReady d).stepSwitch 9).stepEnd_holdKept 1 0).cfg
  have hrefs : (((s.domainReady d).stepSwitch 9).stepEnd 1 0).ref = s.ref := keep_ref (by simp)
  generalize hu : ((s.domainReady d).stepSwitch 9).stepEnd 1 0 = u at hidle hcfg hrefs
  have hcfg' : u.rf R.STR_CFG 31 28 ≠ 10 := fun h => hhold (((State.rf_congr hregs _ _ _).symm.trans hcfg.symm).trans h)
  obtain ⟨record, hend⟩ := (u.begun 10).stepEnd_ended 1 0
  have hlast : (s.domainReady d).sequence = (u.begun 10).stepEnd 1 0 := by
    have hfirst : (s.domainReady d).startRun 64 = u.startRun 63 := by
      rw [← hu]
      exact State.startRun_turn (by rw [hstart, hpowered]) (by rw [hstart, hstate]) 63 (by rw [hstart, hactive])
        (by rw [href, hmuted, Bool.and_false]) htry (by rw [hswitch, hwanted])
    have hsecond : u.startRun 63 = ((u.begun 10).stepEnd 1 0).startRun 61 :=
      State.startRun_step hidle.powered hidle.state hidle.active hidle.pend 61 (k := 10) (by rw [hidle.step]) (by decide) hcfg'
        (by rw [hrefs, hmuted, Bool.and_false]) rfl hidle.wanted
    rw [State.sequence, hfirst, hsecond]
    exact State.startRun_idle (by rw [hend]; exact SeqState.noConfusion) 61
  rw [hlast]
  refine ⟨?_, ?_, ((u.begun 10).stepEnd_causes 1 0).2 rfl⟩ <;> rw [hend] <;> rfl

/-! The obligation, clause by clause. -/

theorem State.holdStart_regsBut (s : State) : RegsBut [R.STR_CAUSE] s s.holdStart :=
  (RegsBut.of_regs (s := s) (t := { s with start := { s.start with state := .held } }) rfl).trans (State.latch_regsBut _ R.STR_CAUSE 1)

/-- A RESTART during a step waits for its end (R420). -/
theorem exec_restart_waits {inp : StartIn} {s : State} (hoff : s.sys.conv = .off) (hpowered : s.start.powered = true)
    (hrun : s.start.state = .running ∧ s.start.active = true) : ∃ t, exec (.restart .mgmt 0x7E81 inp) s = .next t ∧
      t.sys = s.sys ∧ t.start = { s.start with restartWanted := some inp } ∧ RegsBut [R.TRK_CAUSE, R.TRK_QUEUE, R.TRK_SUPPRESSED] s t ∧
      Frame [.regs, .start, .trk] s t := by
  have hstart : (s.binLog 0xBA []).start = s.start := keep_start (by simp)
  refine ⟨_, (exec_restart hoff hpowered).trans (congrArg Host.Outcome.next (if_pos (by rw [hstart]; exact hrun))), ?_, ?_, ?_, by simp⟩
  · exact keep_sys (t := s.binLog 0xBA []) (by simp)
  · dsimp only
    rw [hstart]
  · exact ((s.binLog_regsBut 0xBA []).mono (by simp)).trans (.of_regs rfl)

/-- Any other RESTART takes effect, and the Start Sequencer runs from IMAGE (R416, R420). -/
theorem exec_restart_now {inp : StartIn} {s : State} (hoff : s.sys.conv = .off) (hpowered : s.start.powered = true)
    (hidle : ¬ (s.start.state = .running ∧ s.start.active = true)) : ∃ t, exec (.restart .mgmt 0x7E81 inp) s = .next t ∧
      t.sys.conv = .off ∧ t.start.powered = true ∧ t.sys.era = s.sys.era ∧ t.start.restart = true ∧ t.sys.counting = false ∧
      t.ref.muted = true ∧ t.saf = s.saf ∧ ∀ h < 4, t.links h = (false, []) := by
  have hstart : (s.binLog 0xBA []).start = s.start := keep_start (by simp)
  have hsys : (s.binLog 0xBA []).sys = s.sys := keep_sys (by simp)
  have hsaf : (s.binLog 0xBA []).saf = s.saf := keep_saf (by simp)
  obtain ⟨hpast, hwanted, hrestart, hpow, hera, hconv, hcnt, hmuted, hsafNow, hlinks⟩ := (s.binLog 0xBA []).restartNow_spec inp
  have hcourse := State.startRun_course hwanted 64
  have hout := State.startRun_outside hpast hwanted 64
  refine ⟨_, (exec_restart hoff hpowered).trans (congrArg Host.Outcome.next (if_neg (by rw [hstart]; exact hidle))), ?_, ?_, ?_,
    hcourse.restart.trans hrestart, ?_, hout.muted hmuted, hout.saf.trans (hsafNow.trans hsaf), fun h hh => ?_⟩
  · exact (congrArg SysSt.conv hout.sys).trans hconv
  · exact hcourse.powered.trans (hpow.trans (by rw [hstart, hpowered]))
  · exact (congrArg SysSt.era hout.sys).trans (hera.trans (by rw [hsys]))
  · exact (congrArg SysSt.counting hout.sys).trans hcnt
  · exact (congrFun hout.links h).trans (hlinks h hh)

theorem State.sequence_failed {s : State} (hstate : s.start.state ≠ .running) : s.sequence = s := State.startRun_idle hstate 64

/-- SUPPLIES waits while power-good is missing (R417). -/
theorem State.sequence_supplies {s : State} (hpowered : s.start.powered = true) (hstate : s.start.state = .running)
    (hactive : s.start.active = true) (hstep : s.start.step = 4) (hgood : s.start.inputs.powerGood = false) : s.sequence = s := by
  have htry : (s.stepSwitch s.start.step).stepTry = none := by
    rw [hstep]
    show s.stepTry = none
    rw [State.stepTry, hstep]
    exact if_neg (by rw [hgood]; exact Bool.false_ne_true)
  rcases State.startRun_waits hpowered hstate 63 hactive htry with h | h
  · exact h
  · rw [hstep] at h
    exact h

/-- A power-on with BOOT_HOLD_N low is held before IMAGE (R417, R418). -/
theorem exec_powerOn_held {inp : StartIn} {s : State} (hoff : s.start.powered = false) (hpend : s.regs.pend = []) (hboot : inp.bootHold = true) :
    ∃ t, exec (.powerOn inp) s = .next t ∧ t.start.powered = true ∧ t.start.state = .held ∧ t.start.step = 2 ∧ t.start.active = false ∧
      t.start.inputs = inp ∧ t.rf R.STR_CFG 31 28 = 3 ∧ t.rb R.STR_CAUSE 1 = true ∧ t.saf.running = true ∧
      t.sys.counting = s.sys.counting ∧ t.sys.conv = s.sys.conv ∧ Frame [.regs, .sys, .cel, .saf, .start, .trk] s t := by
  obtain ⟨-, -, -, -, hrf⟩ := s.poweredOn_spec inp hpend
  rw [hboot, if_pos rfl] at hrf
  obtain ⟨u, hseq, hidle, hcfg, hinputs, hrun, hcnt, hconv, hframe⟩ := s.poweredOn_firstSteps inp hpend (by rw [hrf]; decide)
  have hstop : (s.poweredOn inp).sequence = u.holdStart :=
    hseq.trans (State.startRun_hold hidle.powered hidle.state hidle.active hidle.pend 59 (by rw [hcfg, hrf, hidle.step]) hidle.held)
  have hstart := u.holdStart_start
  refine ⟨_, (exec_powerOn hoff).trans (congrArg Host.Outcome.next hstop), ?_, ?_, ?_, ?_, ?_, ?_, State.rb_latch _ _ _ (by decide), ?_, ?_, ?_, ?_⟩
  · rw [hstart]
    exact hidle.powered
  · rw [hstart]
  · rw [hstart]
    exact hidle.step
  · rw [hstart]
    exact hidle.active
  · rw [hstart]
    exact hinputs
  · exact ((u.holdStart_regsBut).rf (by decide) 31 28).trans (hcfg.trans hrf)
  · exact (congrArg SafSt.running (State.latch_saf _ _ _)).trans hrun
  · exact (congrArg SysSt.counting (State.latch_sys _ _ _)).trans hcnt
  · exact (congrArg SysSt.conv (State.latch_sys _ _ _)).trans hconv
  · exact hframe.trans (by simp [State.holdStart])

/-- A power-on that is not held reaches IMAGE (R417). -/
theorem exec_powerOn_runs {inp : StartIn} {s : State} (hoff : s.start.powered = false) (hpend : s.regs.pend = [])
    (hcfg : s.rf R.STR_CFG 31 28 = 0) (hboot : inp.bootHold = false) :
    ∃ t, exec (.powerOn inp) s = .next t ∧ t.start.powered = true ∧ t.saf.running = true ∧ 3 ≤ t.start.step ∧
      t.sys.counting = s.sys.counting ∧ t.sys.conv = s.sys.conv := by
  obtain ⟨-, -, -, -, hrf⟩ := s.poweredOn_spec inp hpend
  rw [hboot, if_neg Bool.false_ne_true, hcfg] at hrf
  obtain ⟨u, hseq, hidle, hcfg', -, hrun, hcnt, hconv, -⟩ := s.poweredOn_firstSteps inp hpend (by rw [hrf]; decide)
  have hbegin : u.startRun 60 = (u.stepBegin 3).startRun 59 := by
    have h := State.startRun_begin hidle.powered hidle.state hidle.active hidle.pend 59 (by rw [hcfg', hrf, hidle.step]; decide)
    rwa [hidle.step] at h
  have hstart := u.stepBegin_start 3
  have hwanted : (u.stepBegin 3).start.restartWanted = none := by rw [hstart]; exact hidle.wanted
  have hcourse := State.startRun_course hwanted 59
  have hout := (u.stepBegin_outside 3).trans (State.startRun_outside (.inl (by rw [hstart])) hwanted 59)
  refine ⟨_, (exec_powerOn hoff).trans (congrArg Host.Outcome.next (hseq.trans hbegin)), ?_, ?_, ?_, ?_, ?_⟩
  · rw [hcourse.powered, hstart]
    exact hidle.powered
  · rw [hout.saf, hrun]
  · exact (by rw [hstart] : 3 ≤ (u.stepBegin 3).start.step).trans hcourse.step
  · rw [hout.sys, hcnt]
  · rw [hout.sys, hconv]

/-- CONTINUE goes on from the step that is held (R418). -/
theorem exec_continueStart_goesOn {s : State} (hpowered : s.start.powered = true) (hheld : s.start.state = .held)
    (hactive : s.start.active = false) (hwanted : s.start.restartWanted = none) (htest : s.tapTest = false) :
    ∃ t, exec (.continueStart .mgmt) s = .next t ∧ s.start.step < t.start.step ∧ t.start.powered = true := by
  obtain ⟨hp, hn, -, -, hw⟩ := start_of_startup s.continued.betweenSteps_startup
  have hturn := State.startRun_continued (s := s.continued) 63 hpowered rfl hactive rfl
  have hstart := s.continued.betweenSteps.stepBegin_start (s.start.step + 1)
  have hcourse := State.startRun_course (s := s.continued.betweenSteps.stepBegin (s.start.step + 1)) (by rw [hstart]; exact hw.trans hwanted) 63
  refine ⟨_, (exec_continueStart hheld htest).trans (congrArg Host.Outcome.next hturn), ?_, ?_⟩
  · exact (by rw [hstart]; exact Nat.lt_succ_self _ : s.start.step < _).trans_le hcourse.step
  · exact hcourse.powered.trans (by rw [hstart]; exact hp.trans hpowered)

/-- SUPPLIES tried again: START_V and a read of its voltage go to each regulator (R405, R417). -/
theorem State.suppliesRetried_spec {s : State} (inp : StartIn) (hpowered : s.start.powered = true) (hstate : s.start.state = .running)
    (hactive : s.start.active = true) (hstep : s.start.step = 4) (hgood : inp.powerGood = false) :
    let t := (s.suppliesRetried inp).sendStart.sequence
    t.start.retries = s.start.retries + 1 ∧ t.start.step = 4 ∧ t.start.active = true ∧ t.pwr.vcoreEn = true ∧
      t.pwr.setMv = s.rf R.PWR_VCORE_CFG 9 0 ∧ RegsBut [R.PWR_CAUSE, R.TRK_CAUSE, R.TRK_QUEUE, R.TRK_SUPPRESSED] s t ∧
      ((∀ r ∈ s.regulators, inp.acks.getD r true = true ∧ (inp.vout.getD r none).isSome = true) →
        t.out = s.out ++ s.regulators.map (fun r => s.pmbRequest r 0x21 (some (s.voutCode t.pwr.setMv))) ++
          s.regulators.map (fun r => s.pmbRequest r 0x8B none)) ∧
      Frame [.regs, .pwr, .start, .trk, .out] s t := by
  intro t
  obtain ⟨hregs, hstart, hen, hmv, hout⟩ := (s.suppliesRetried inp).sendStart_spec
  have hwaits : t = (s.suppliesRetried inp).sendStart :=
    State.sequence_supplies (by rw [hstart]; exact hpowered) (by rw [hstart]; exact hstate) (by rw [hstart]; exact hactive)
      (by rw [hstart]; exact hstep) (by rw [hstart]; exact hgood)
  rw [hwaits]
  refine ⟨?_, ?_, ?_, hen, hmv, (RegsBut.of_regs (s := s) (t := s.suppliesRetried inp) rfl).trans hregs, hout, ?_⟩
  · rw [hstart]
    rfl
  · rw [hstart]
    exact hstep
  · rw [hstart]
    exact hactive
  · simp [State.suppliesRetried]

/-- SUPPLIES that is not tried again fails, with the code of what is missing (R417). -/
theorem State.suppliesFailed_spec {s : State} (hstep : s.start.step = 4) (hwanted : s.start.restartWanted = none) :
    let t := (s.stepLeave 3 (if s.start.inputs.powerGood then 7 else 6)).sequence
    t.start.state = .failed ∧ t.start.failCode = (if s.start.inputs.powerGood then 7 else 6) ∧ t.start.active = false ∧ t.start.step = 4 ∧
      t.rb R.STR_CAUSE 0 = true := by
  obtain ⟨record, hend⟩ := s.stepEnd_ended 3 (if s.start.inputs.powerGood then 7 else 6)
  have hcode : (if s.start.inputs.powerGood then 7 else 6) ≠ 0 := by split <;> decide
  have hcause := (s.stepEnd_causes 3 (if s.start.inputs.powerGood then 7 else 6)).1 (.inr rfl)
  rw [State.stepLeave_of_unwanted _ _ hwanted, State.sequence_failed (by rw [hend]; exact SeqState.noConfusion)]
  intro t
  have hstart : t.start = _ := hend
  rw [hstart]
  exact ⟨rfl, if_neg hcode, rfl, hstep, hcause⟩

/-- REFERENCE without lock starts again, and records code 8 once (R411, R417). -/
theorem exec_startStepTimeout_referenceAgain {s : State} (inp : StartIn) (hstate : s.start.state = .running) (hactive : s.start.active = true)
    (hstep : s.start.step = 5) (hcnt : s.sys.counting = false) :
    ∃ t, exec (.startStepTimeout inp) s = .next t ∧ t.start.step = 5 ∧ t.start.active = true ∧ t.start.retries = max 1 s.start.retries ∧
      (s.start.retries = 0 → t.start.failCode = 8 ∧ smGet 0 t.start.record 7 = 0x80000) ∧
      t.ref.state = .unlocked ∧ t.ref.calibrated = false ∧ (s.ref.calibrated = false → t.rb R.REF_CAUSE 2 = true) ∧
      t.ref.range = junctionRange s.sys.tj ∧ t.ref.range < 4 ∧
      (s.storedBands.getD (3 * junctionRange s.sys.tj) 0 = 1 → t.ref.band = s.storedBands.getD (3 * junctionRange s.sys.tj + 1) 0) ∧
      RegsBut [R.REF_CAUSE, R.TRK_CAUSE, R.TRK_QUEUE, R.TRK_SUPPRESSED] s t ∧ Frame [.regs, .ref, .start, .trk, .freeCount] s t := by
  have hexec := exec_startStepTimeout_reference hstate hactive inp hstep hcnt
  obtain ⟨hregs, hcause, hbands⟩ := s.calibrateUnlocked_spec
  have hcal : s.calibrateUnlocked.start = s.start := keep_start (by simp)
  have hsys : s.calibrateUnlocked.sys = s.sys := keep_sys (by simp)
  have hstored : s.calibrateUnlocked.storedBands = s.storedBands := by rw [State.storedBands, State.storedBands, hbands]
  obtain ⟨hunlocked, hcalibrated, hrange, hband, hregs', hstart⟩ := s.calibrateUnlocked.refStart_spec
  rw [hsys] at hrange hband
  rw [hstored] at hband
  rw [hcal] at hstart
  obtain ⟨⟨failCode, record, hretried, hfirst⟩, href, hregs'', hframe⟩ := s.calibrateUnlocked.refStart.referenceRetried_spec
  rw [hstart] at hretried hfirst
  have hall := hregs''.trans hregs'
  refine ⟨_, hexec, ?_⟩
  rw [hretried, href]
  exact ⟨hstep, hactive, rfl, hfirst, hunlocked, hcalibrated, fun hran => (congrArg (flag · 2) (State.reg_congr hall _)).trans (hcause hran), hrange,
    hrange ▸ junctionRange_lt _, hband, hregs.trans (.of_regs hall),
    Frame.trans (s := s.calibrateUnlocked.refStart) (by simp) (hframe.mono (by decide))⟩

/-- Settles O45: the turns of the Start Sequencer, step by step for the first steps and the last, and by what they leave for the others. -/
theorem startUp : Obligations.StartUp := by
  refine ⟨fun inp s hoff hpend hboot => exec_powerOn_held hoff hpend hboot,
    fun inp s hoff hpend hcfg hboot => exec_powerOn_runs hoff hpend hcfg hboot,
    fun s hpowered hheld hactive hstep hwanted htest => exec_continueStart_goesOn hpowered hheld hactive hwanted htest,
    fun r s hno => ?contRefused, fun r key inp s hno => exec_restart_refused hno, fun inp s hoff hpowered => ?restart,
    fun inp s hpowered hstate hactive hstep hgood => ?supplies,
    fun inp s hstate hactive hstep hcnt => exec_startStepTimeout_referenceAgain inp hstate hactive hstep hcnt,
    fun d s hswitching hcomplete => ?ready, fun d s hswitching hd hpowered hstate hactive hstep hwanted hmuted hpend hhold hothers hoff => ?done⟩
  case contRefused =>
    refine congrArg Host.Outcome.next (if_neg ?_)
    rintro ⟨hr, hheld, htest⟩
    simp [hr, hheld, htest] at hno
  case restart =>
    by_cases hrun : s.start.state = .running ∧ s.start.active = true
    · obtain ⟨t, hexec, hsys, hstart, hregs, hframe⟩ := exec_restart_waits (inp := inp) hoff hpowered hrun
      refine ⟨t, hexec, by rw [hsys, hoff], by rw [hstart]; exact hpowered, by rw [hsys], fun _ _ => ⟨hstart, hregs, hframe⟩, fun hno => ?_⟩
      rcases hno with h | h
      · exact absurd hrun.1 h
      · exact absurd (h.symm.trans hrun.2) Bool.false_ne_true
    · obtain ⟨t, hexec, hconv, hpow, hera, hrestart, hcnt, hmuted, hsaf, hlinks⟩ := exec_restart_now (inp := inp) hoff hpowered hrun
      refine ⟨t, hexec, hconv, hpow, hera, fun hs ha => absurd ⟨hs, ha⟩ hrun, fun _ => ⟨hrestart, hcnt, hmuted, by rw [hsaf], fun h hh => ?_⟩⟩
      exact Prod.mk.inj (hlinks h hh)
  case supplies =>
    refine ⟨_, exec_startStepTimeout_supplies hstate hactive inp hstep, ?_, ?_⟩
    · intro hfew
      rw [if_pos hfew]
      exact State.suppliesRetried_spec inp hpowered hstate hactive hstep hgood
    · intro hmany hwanted
      rw [if_neg (by omega)]
      exact State.suppliesFailed_spec hstep hwanted
  case ready =>
    have hstate : (s.domainReady d).start.state ≠ .running := by
      rw [keep_start (s := s) (by simp), hcomplete]
      exact SeqState.noConfusion
    exact ⟨_, (if_pos hswitching : exec (.domainReady d) s = _).trans (congrArg Host.Outcome.next (State.sequence_failed hstate)),
      s.domainReady_pwr d, fun l hl => s.domainReady_lane d hl, by simp⟩
  case done =>
    exact ⟨_, if_pos hswitching, State.sequence_hatchesReady hd hpowered hstate hactive hstep hwanted hmuted hpend hhold hothers hoff⟩

end Sys2Proof.Machine
end
